-- ==== Sys2Proof/Syntax.lean ====
section
/-!
DEFINITION. The commands of the block (spec/opcode_table.json): one constructor per row, with the row's operands.
A mailbox command row carries its header `Hdr`; an event row carries the unit it concerns and what the pins, the links or
the environment bring.
-/
namespace Sys2Proof

/-- Where a command came from (R40, R57, R434, R79, R524): a mailbox slot rung through an endpoint, a remote mailbox
datagram, an ITV frame from another node, Rildin's own loops, or the Gatehouse script. -/
inductive Origin where
  /-- slot `slot` of die `die`, rung through endpoint `ep` -/
  | slot (die ep slot : Nat)
  /-- a UDP datagram received by die `die` on Ethernet port `eth` from address `ip` (128 bits) and UDP port `port` -/
  | remote (die eth ip port : Nat)
  /-- an MBX_REQ frame received by die `die` from node `node` of the package with serial number `serial` -/
  | itv (die node serial : Nat)
  /-- Rildin's own loops on die `die` (source index 1, R79) -/
  | rildin (die : Nat)
  /-- the Gatehouse script (source index 0, R524) -/
  | script
  deriving DecidableEq, Repr

/-- A command's header as the executing die sees it (R44): the die that the frame was carried to, the origin, the tag. -/
structure Hdr where
  die : Nat
  origin : Origin
  tag : Nat
  deriving DecidableEq, Repr

/-- An object address: class, number within the class, attribute identifier (the Objects section of chapter 02). -/
structure ObjRef where
  cls : Nat
  inst : Nat
  attr : Nat
  deriving DecidableEq, Repr

/-- A line named by AT_LINE: context and image line (R64, R575). -/
structure LineRef where
  ctx : Nat
  line : Nat
  deriving DecidableEq, Repr

/-- The place that the system master gives a package in the tree (R430, R431, R439): the address of its package node, its level, the
addresses in use and the packages in the system. -/
structure EnumPlace where
  base : Nat
  depth : Nat
  nodes : Nat
  packages : Nat
  deriving DecidableEq, Repr

/-- A PTP message as it is delivered with its timestamps (R397 to R399): times in ps of the time base served. -/
inductive PtpMsg where
  /-- Announce: sender's port identity, grandmaster identity, the data set compared by the BMCA in its order, the
  announced UTC offset -/
  | announce (port gm : Nat) (rank : List Nat) (utc : Nat)
  /-- Sync: sequence number, corrected ingress time, origin time of a one-step Sync, correction -/
  | sync (port seq : Nat) (rx : Int) (origin : Option Int)
  | followUp (port seq : Nat) (origin : Int)
  /-- Delay_Req received by a master port -/
  | delayReq (port seq : Nat) (rx : Int)
  /-- the egress time of this port's own Delay_Req or Pdelay_Req -/
  | requestSent (seq : Nat) (tx : Int)
  | delayResp (port seq : Nat) (rx : Int)
  | pdelayReq (port seq : Nat) (rx : Int)
  /-- Pdelay_Resp with its turnaround and arrival times -/
  | pdelayResp (port seq : Nat) (t2 t3 t4 : Int)
  /-- management or another message that Golmi discards -/
  | other
  deriving DecidableEq, Repr

/-- What a completed training step found (R410, R411): the lanes received inverted, the order of the lane numbers, the
skew in ps, the highest generation that the peer allows, the taps after equalisation. -/
structure TrainResult where
  invert : Nat
  order : List Nat
  skewPs : Nat
  peerGen : Nat
  taps : Nat
  peerSerial : Nat
  deriving DecidableEq, Repr

/-- The commands, in the order of the opcode table. -/
inductive Instr where
  /-- REGISTER_WRITE (R36): A host write to a BAR register or memory window that has no row of its own, with discard and BAR_REJECT for unmapped or read-only addresses. -/
  | registerWrite (die : Nat) (ep : Nat) (off : Nat) (width : Nat) (value : Nat)
  /-- BAR_RC_READ (R12): A host read of an RC register such as mbx_busy_hits returns the value and clears it. -/
  | barRcRead (die : Nat) (ep : Nat) (off : Nat) (width : Nat)
  /-- MBX_SLOT_WRITE (R41): A host write into a mailbox slot; a write into a busy slot is discarded and counted. -/
  | mbxSlotWrite (die : Nat) (ep : Nat) (slot : Nat) (off : Nat) (data : List Byte)
  /-- MBX_RING (R49): A write of mbx_ring rings slots, sets their busy bits, starts their command timers and queues the commands in order. -/
  | mbxRing (die : Nat) (ep : Nat) (mask : Nat)
  /-- REMOTE_MAILBOX_DATAGRAM (R57): A UDP datagram on port 50420 is checked and started as a remote command, refused with BUSY, or answered as a duplicate. -/
  | remoteMailboxDatagram (die : Nat) (eth : Nat) (ip : Nat) (port : Nat) (data : List Byte)
  /-- COMMAND_COMPLETE (R572): A command or forwarded reply completes: reply, length and status are written, busy clears, mbx_done sets and MSI-X and Q62 word follow. -/
  | commandComplete (origin : Origin) (tag : Nat)
  /-- COMMAND_TIMEOUT (R53): The mbx_timeout timer of a command in progress expires and the mailbox hardware completes it with TIMEOUT. -/
  | commandTimeout (origin : Origin) (tag : Nat)
  /-- STAGE_DISCARD (R63): A staging copy idle for stage_idle is discarded and recorded. -/
  | stageDiscard (die : Nat) (obj : ObjRef)
  /-- STATUS_BLOCK_UPDATE (R42): Every 1 ms Rildin updates the status block under sb_gen and increments sb_heartbeat. -/
  | statusBlockUpdate (die : Nat)
  /-- ID_READ (R521): Returns the identity of the package and each die. -/
  | idRead (h : Hdr)
  /-- SYS_STATE (R543): Returns firmware slot, level, lead die, mode, fault and run masks, TB1 and newest event number. -/
  | sysState (h : Hdr)
  /-- BL_SET (R81): Records the behaviour level for the next boot. -/
  | blSet (h : Hdr) (level : Nat)
  /-- CMD_STATUS (R65): Reports the fate and current effect record of a deferred command. -/
  | cmdStatus (h : Hdr) (tag : Nat)
  /-- OBJ_GET (R61): Reads one scalar attribute, clearing it if RC. -/
  | objGet (h : Hdr) (obj : ObjRef)
  /-- OBJ_SET (R61): Writes one scalar attribute, at once or deferred to a named line. -/
  | objSet (h : Hdr) (obj : ObjRef) (value : Nat) (line : Option LineRef)
  /-- OBJ_GET_BLOCK (R61): Reads part of a block attribute. -/
  | objGetBlock (h : Hdr) (obj : ObjRef) (off : Nat) (len : Nat)
  /-- OBJ_SET_BLOCK (R62): Writes part of a block attribute into its staging copy and commits it when COMMIT is set. -/
  | objSetBlock (h : Hdr) (obj : ObjRef) (commit : Bool) (line : Option LineRef) (off : Nat) (data : List Byte)
  /-- FW_BEGIN (R69): Opens a firmware update session and erases the inactive slot. -/
  | fwBegin (h : Hdr) (size : Nat)
  /-- FW_DATA (R70): Writes image bytes at the next offset of the session. -/
  | fwData (h : Hdr) (off : Nat) (data : List Byte)
  /-- FW_END (R71): Checks the image check word and supported levels and leaves the slot VALID or invalid. -/
  | fwEnd (h : Hdr)
  /-- FW_ACTIVATE (R71): Marks the slot PENDING to boot at the next reset. -/
  | fwActivate (h : Hdr)
  /-- FW_ABORT (R69): Aborts the open firmware update session. -/
  | fwAbort (h : Hdr)
  /-- FW_SESSION_TIMEOUT (R69): A session with no command for 60 s is aborted. -/
  | fwSessionTimeout
  /-- QP_WR_WRITE (R105): A host write of qp_wr is checked and, if it passes, commits the host's pushed words or packets. -/
  | qpWrWrite (die : Nat) (ep : Nat) (q : Nat) (value : Nat)
  /-- QP_RD_WRITE (R105): A host write of qp_rd is checked and, if it passes, pops the consumed words. -/
  | qpRdWrite (die : Nat) (ep : Nat) (q : Nat) (value : Nat)
  /-- STALL_PUSH_RETRY (R91): A STALL producer holding a word pushes it in the first cycle in which FULL is clear. -/
  | stallPushRetry (die : Nat) (q : Nat)
  /-- QUEUE_WRITEBACK (R100): Every 10 ms the counts of each enabled queue are written back to its table entry. -/
  | queueWriteback (die : Nat) (q : Nat)
  /-- QUEUE_INVALIDATE (R101): Drops cached Queue Context Table entries so they are read again. -/
  | queueInvalidate (h : Hdr) (first : Nat) (count : Nat)
  /-- QUEUE_ENABLE (R102): Reads and checks entries and enables a range of queues with pointers at 0. -/
  | queueEnable (h : Hdr) (first : Nat) (count : Nat) (bad : List Nat)
  /-- QUEUE_DISABLE (R102): Disables a range of queues, rewinding packets and writing back counts. -/
  | queueDisable (h : Hdr) (first : Nat) (count : Nat)
  /-- QUEUE_FLUSH (R102): Sets rd to cmt for a range of queues. -/
  | queueFlush (h : Hdr) (first : Nat) (count : Nat)
  /-- QUEUE_STATUS (R103): Returns the pointer window contents of one queue. -/
  | queueStatus (h : Hdr) (q : Nat)
  /-- ENC_EDGE (R110): An accepted change of A or B makes one count, updates n and c and stamps the change. -/
  | encEdge (die : Nat) (ch : Nat) (a : Bool) (b : Bool) (t : Nat)
  /-- ENC_LOS_SET (R112): An input below the loss-of-signal threshold for 1 µs sets LOS and stops counting. -/
  | encLosSet (die : Nat) (ch : Nat) (pin : Nat) (t : Nat)
  /-- ENC_LOS_CLEAR (R112): After 10 µs of valid levels LOS clears. -/
  | encLosClear (die : Nat) (ch : Nat) (t : Nat)
  /-- INDEX_PULSE (R116): A recognised index sets the reference or homes the channel, or is checked for slip. -/
  | indexPulse (die : Nat) (ch : Nat) (t : Nat)
  /-- ABS_WORD_REQUEST (R118): A serial position word is requested by the period timer or abs_request, starting the clocked read. -/
  | absWordRequest (die : Nat) (ch : Nat) (dat : Bool)
  /-- ABS_REQUEST (R118): A write of abs_request asks for an absolute word now. -/
  | absRequest (h : Hdr) (ch : Nat)
  /-- ABS_WORD_COMPLETE (R122): DAT rising ends a word, which is checked and sets or corrects the count. -/
  | absWordComplete (die : Nat) (ch : Nat) (ack : Bool) (word : Nat)
  /-- ABS_TIMEOUT (R119): The monoflop wait expires before DAT rises and the word is discarded. -/
  | absTimeout (die : Nat) (ch : Nat)
  /-- ENC_MAG (R123): A magnetic-switch edge held for mag_debounce_us is accepted, recorded and may home the channel. -/
  | encMag (die : Nat) (ch : Nat) (input : Nat) (rising : Bool) (t : Nat)
  /-- STILL_TIMEOUT (R131): No change of c for still_time_us sets STILL and publishes a still pair. -/
  | stillTimeout (die : Nat) (ch : Nat)
  /-- PERGOLA_PAIR_RECEIVE (R30): A pair from another die arrives over Pergola POS. -/
  | pergolaPairReceive (die : Nat) (src : Nat)
  /-- POS_SET (R126): Sets WPOS, LPOS or both and publishes a pair. -/
  | posSet (h : Hdr) (what : Nat) (value : Int)
  /-- POS_LATCH (R129): Returns the newest pair and the stretch factor. -/
  | posLatch (h : Hdr)
  /-- CMP_ARM (R137): Arms a compare unit, judged at once against its basis. -/
  | cmpArm (h : Hdr) (unit_ : Nat) (pulse : Nat) (event : Bool) (lpos : Bool) (rev : Bool) (lateOk : Bool) (value : Int) (step : Nat)
  /-- CMP_DISARM (R135): Sets a compare unit IDLE. -/
  | cmpDisarm (h : Hdr) (unit_ : Nat)
  /-- FIRE_TIMER_MATCH (R158): An armed row-group fire time is reached; the line fires, fires late or is dropped. -/
  | fireTimerMatch (die : Nat) (port : Nat)
  /-- COMMIT_DEADLINE (R161): A slot's commit deadline is recognised; a slot not staged is dropped for data. -/
  | commitDeadline (die : Nat) (port : Nat) (slot : Nat)
  /-- PRESS_RUN_ACCEPT (R166): A PRESS_RUN level held for hs_filter_us is accepted and drives HELD. -/
  | pressRunAccept (level : Bool)
  /-- HEAD_PARKED_ACCEPT (R166): A HEAD_PARKED level held for hs_filter_us is accepted. -/
  | headParkedAccept (level : Bool)
  /-- E_STOP_ACCEPT (R167): E_STOP_L low held for 1 µs is accepted and every die enters ESTOP. -/
  | eStopAccept
  /-- E_STOP_RELEASE_ACCEPT (R166): E_STOP_L high held for hs_filter_us is accepted. -/
  | eStopReleaseAccept
  /-- LE_RESUME (R172): LE_CTRL RESUME ends ESTOP on every die. -/
  | leResume (h : Hdr)
  /-- HS_FORCE (R172): LE_CTRL HS_FORCE forces the handshake output levels. -/
  | hsForce (h : Hdr) (levels : Nat)
  /-- HS_RELEASE (R172): LE_CTRL HS_RELEASE releases forced handshake outputs. -/
  | hsRelease (h : Hdr)
  /-- LE_STATUS (R155): Returns line-engine state and newest position. -/
  | leStatus (h : Hdr)
  /-- SLOT_SHIFT (R186): A staged slot starts shifting once the previous LAT has ended, then latches. -/
  | slotShift (die : Nat) (port : Nat) (t : Nat)
  /-- STALE_RESHIFT (R211): After the first forward non-still pair in RUN, stale slots are shifted again. -/
  | staleReshift (die : Nat) (port : Nat)
  /-- HEAD_QUERY (R191): A query runs on an idle port and ends answered, with NO_RESPONSE or CRC_FAIL. -/
  | headQuery (die : Nat) (port : Nat) (start : Bool) (data : List Byte) (crc : Nat)
  /-- LVDS_FAULT (R199): A driver common mode out of range for 1 µs, or three failed queries, puts the port in FAULT. -/
  | lvdsFault (die : Nat) (port : Nat) (pair : Nat)
  /-- HP_ENABLE (R203): Enables named head ports, running queries if set. -/
  | hpEnable (h : Hdr) (ports : Nat)
  /-- HP_DISABLE (R203): Disables named head ports. -/
  | hpDisable (h : Hdr) (ports : Nat)
  /-- HP_RESTART (R201): Restarts ports in FAULT from the first slot whose deadline lies ahead. -/
  | hpRestart (h : Hdr) (ports : Nat) (bad : Nat)
  /-- HP_QUERY (R195): Sends one query to an idle port and returns the reply. -/
  | hpQuery (h : Hdr) (port : Nat) (arg : Nat) (cmd : Nat) (len : Nat)
  /-- HP_SPIT_PARKED (R196): Starts parked spitting on named ports. -/
  | hpSpitParked (h : Hdr) (ports : Nat) (lines : Nat)
  /-- HP_SPIT_STOP (R196): Stops spitting. -/
  | hpSpitStop (h : Hdr) (ports : Nat)
  /-- HP_SPIT_WEB (R198): Schedules a spit band into named slots of a host context. -/
  | hpSpitWeb (h : Hdr) (ctx : Nat) (ports : Nat) (first : Nat) (count : Nat)
  /-- SPIT_LINE (R196): Every spit_period_ns the next spit line is shifted, latched and fired. -/
  | spitLine (die : Nat) (port : Nat) (t : Nat)
  /-- TONE_LINE (R219): The tone stage tones a decoded image line of a port through the bank in force. -/
  | toneLine (die : Nat) (port : Nat) (line : Nat)
  /-- TB_SWAP_DECISION (R227): When the tone stage first reaches the swap line, the bank becomes ACTIVE or the swap moves to the next page. -/
  | tbSwapDecision (die : Nat) (bank : Nat)
  /-- TB_BUILD (R225): Starts an Orangery build of a bank. -/
  | tbBuild (h : Hdr) (bank : Nat)
  /-- TB_BUILD_ABORT (R232): Aborts a build, leaving the bank FREE and cancelling its swap. -/
  | tbBuildAbort (h : Hdr) (bank : Nat)
  /-- TB_BUILT (R226): An Orangery build completes, leaving the bank BUILT or failing with CHECK. -/
  | tbBuilt (die : Nat) (bank : Nat) (t : Nat)
  /-- TB_SWAP (R233): Schedules a bank swap at a named line. -/
  | tbSwap (h : Hdr) (ctx : Nat) (bank : Nat) (line : Nat)
  /-- PL_STATUS (R230): Returns one port's pipeline state and the bank states. -/
  | plStatus (h : Hdr) (port : Nat)
  /-- DESCRIPTOR_PUSH (R247): The ingest engine pushes an eligible block descriptor into Q16-Q23 within dec_limit. -/
  | descriptorPush (die : Nat) (ctx : Nat) (port : Nat)
  /-- DECODE_START (R249): An idle engine takes the most urgent head descriptor. -/
  | decodeStart (die : Nat) (engine : Nat)
  /-- DECODE_COMPLETE (R250): An engine ends a block, releasing it or failing it. -/
  | decodeComplete (die : Nat) (engine : Nat) (mem : Bool)
  /-- CODEC_VERIFY (R262): Decodes one stored block under a stated geometry without releasing it. -/
  | codecVerify (h : Hdr) (port : Nat) (greyscale : Nat) (margin : Nat) (nozzles : Nat) (addr : Nat) (stored : Nat) (out : Nat)
  /-- CODEC_COMPRESS_SUBMIT (R263): Submits an outbound compression job. -/
  | codecCompressSubmit (h : Hdr) (queue : Nat) (back : Nat) (tag : Nat) (addr : Nat) (row : Nat) (stride : Nat) (rows : Nat) (line : Nat) (limit : Nat) (per : Nat)
  /-- CODEC_COMPRESS_ABORT (R263): Removes a pending job or aborts a running one with a STATE trailer. -/
  | codecCompressAbort (h : Hdr) (queue : Nat) (tag : Nat)
  /-- COMPRESS_JOB_START (R253): The compressor starts the next pending job once the previous one ends. -/
  | compressJobStart (die : Nat)
  /-- COMPRESS_BLOCK_END (R257): A compressed block packet is committed, rewritten RAW, or the job fails with NO_SPACE; the last block writes the trailer. -/
  | compressBlockEnd (die : Nat) (tokens : List Byte) (mem : Bool)
  /-- CTX_OPEN (R266): Reads a Context Table entry and moves the context to OPEN. -/
  | ctxOpen (h : Hdr) (ctx : Nat) (bad : Bool)
  /-- CTX_START_ABS (R266): Starts a context printing at a given X0. -/
  | ctxStartAbs (h : Hdr) (ctx : Nat) (x0 : Int)
  /-- CTX_START_AFTER (R267): Starts a context after an outgoing one once the switch line is fixed. -/
  | ctxStartAfter (h : Hdr) (ctx : Nat) (after : Nat)
  /-- SWITCH_FIX (R267): When the outgoing context's last line becomes known, the switch is fixed and the incoming context enters PRINTING. -/
  | switchFix (die : Nat)
  /-- CTX_STOP (R288): Starts a seamless stop on the die. -/
  | ctxStop (h : Hdr) (ctx : Nat)
  /-- CTX_CLOSE (R270): Closes a non-printing context and frees its store. -/
  | ctxClose (h : Hdr) (ctx : Nat)
  /-- CTX_ABORT (R270): Closes a context at once, dropping its slots as one seam. -/
  | ctxAbort (h : Hdr) (ctx : Nat)
  /-- CTX_INVALIDATE (R272): Drops cached Context Table entries. -/
  | ctxInvalidate (h : Hdr) (first : Nat) (count : Nat)
  /-- CONTEXT_WRITEBACK (R272): Every 10 ms Golmi-owned context words are written back. -/
  | contextWriteback (die : Nat) (ctx : Nat)
  /-- RUNWAY_STATUS (R287): Returns runway and stop state. -/
  | runwayStatus (h : Hdr)
  /-- GRT_DATA (R278): A GRT DATA datagram is accepted, or discarded as duplicate, over credit or gap. -/
  | grtData (die : Nat) (eth : Nat) (ip : Nat) (udp : Nat) (stream : Nat) (seq : Nat) (ctx : Nat) (flags : Nat) (off : Nat) (data : List Byte)
  /-- GRT_RESET (R281): A GRT RESET sets the expected sequence and discards a partial block. -/
  | grtReset (die : Nat) (eth : Nat) (ip : Nat) (udp : Nat) (stream : Nat) (seq : Nat) (ctx : Nat)
  /-- GRT_ACK_TIMER (R280): ack_us after an unacknowledged datagram an ACK is sent. -/
  | grtAckTimer (die : Nat) (stream : Nat)
  /-- DMA_TAIL_WRITE (R284): A write of dma_tail makes descriptors available to the stream. -/
  | dmaTailWrite (die : Nat) (ep : Nat) (stream : Nat) (value : Nat)
  /-- DMA_BLOCK_FETCH (R284): Golmi reads the next descriptor's block from host memory and forwards it. -/
  | dmaBlockFetch (die : Nat) (stream : Nat) (stored : Nat) (ok : Bool) (data : List Byte)
  /-- BLOCK_STORE (R273): An accepted block is written into the job store once there is room, or fails its context. -/
  | blockStore (die : Nat) (stream : Nat) (mem : Bool)
  /-- STOP_FIXED (R289): In the first cycle the stop test passes, the stop end and stop slots are fixed. -/
  | stopFixed (die : Nat)
  /-- BACKUP_TIMEOUT (R292): backup_timeout_ms after BACKUP_REQ rose, it is released. -/
  | backupTimeout (die : Nat)
  /-- STOP_RELEASE (R293): Once every release condition holds, the die releases STOP_REQ. -/
  | stopRelease (die : Nat)
  /-- CSI_FRAME_START (R310): A frame start opens a frame, closing the previous one with NO_FE if open. -/
  | csiFrameStart (die : Nat) (cam : Nat) (num : Nat) (t : Nat)
  /-- CSI_LINE (R314): A long packet delivers a line, padded, truncated or discarded as needed. -/
  | csiLine (die : Nat) (cam : Nat) (vc : Nat) (dt : Nat) (ecc : Nat) (crcOk : Bool) (lost : Bool) (px : List Nat)
  /-- CSI_FRAME_END (R312): A frame end closes the frame and opens its I2C write window. -/
  | csiFrameEnd (die : Nat) (cam : Nat) (t : Nat)
  /-- FRAME_TIMEOUT (R312): frame_timeout_us after a frame start the frame closes with NO_FE. -/
  | frameTimeout (die : Nat) (cam : Nat)
  /-- ISP_FRAME_DONE (R322): A processed frame's statistics records and descriptors are committed. -/
  | ispFrameDone (die : Nat) (stream : Nat)
  /-- MP_FRAME_PROCESS (R305): The ISP starts the next waiting memory-path frame. -/
  | mpFrameProcess (die : Nat)
  /-- PSET_LIST_COMPLETE (R328): The final STOP of a write list ends it, in time or late. -/
  | psetListComplete (die : Nat) (cam : Nat) (result : Nat) (index : Nat)
  /-- CAM_WAKE (R333): Moves a camera port from OFF to READY. -/
  | camWake (h : Hdr) (port : Nat)
  /-- CAM_ENABLE (R333): Moves a camera port from READY to RUN. -/
  | camEnable (h : Hdr) (port : Nat)
  /-- CAM_DISABLE (R333): Moves a camera port from RUN to READY. -/
  | camDisable (h : Hdr) (port : Nat)
  /-- CAM_SLEEP (R333): Moves a camera port from READY to OFF. -/
  | camSleep (h : Hdr) (port : Nat)
  /-- CAM_SNAP (R318): Requests a tap on the next frame. -/
  | camSnap (h : Hdr) (port : Nat)
  /-- CAM_RELEASE (R333): Releases HELD frame-store slots. -/
  | camRelease (h : Hdr) (port : Nat) (slots : Nat)
  /-- CAM_APPLY (R327): Asks for a parameter set from a frame onward. -/
  | camApply (h : Hdr) (port : Nat) (set : Nat) (frame : Nat)
  /-- CAM_I2C (R325): Performs one I2C transaction on a READY port. -/
  | camI2c (h : Hdr) (read : Bool) (port : Nat) (addr : Nat) (reg : Nat) (len : Nat) (data : List Byte)
  /-- CHAIN_REFRESH (R341): Every refresh_us a chain frame is composed from the cached Lamp Table and sent. -/
  | chainRefresh (die : Nat) (chain : Nat) (bad : List Nat)
  /-- CHAIN_RETURN (R348): A chain's return ends or its deadline expires; statuses are taken or a return error counted. -/
  | chainReturn (die : Nat) (chain : Nat) (inTime : Bool) (got : List Bool)
  /-- LAMP_WRITEBACK (R347): Every 10 ms Golmi-owned Lamp Table words are written back. -/
  | lampWriteback (die : Nat) (chain : Nat)
  /-- CHAIN_ENABLE (R361): Enumerates chains and enters RUN. -/
  | chainEnable (h : Hdr) (chains : Nat)
  /-- CHAIN_DISABLE (R361): Sends an all-zero frame and leaves chains OFF. -/
  | chainDisable (h : Hdr) (chains : Nat)
  /-- CHAIN_ENUM (R344): Sends an IDENT frame and counts the chain's drivers. -/
  | chainEnum (h : Hdr) (chains : Nat)
  /-- LAMP_INVALIDATE (R74): Schedules Lamp Table entries for re-read at the next refresh. -/
  | lampInvalidate (h : Hdr) (first : Nat) (count : Nat)
  /-- LAMP_CTRL_CLEAR (R341): Sends CLEAR to a range of drivers in the next frame. -/
  | lampCtrlClear (h : Hdr) (chain : Nat) (first : Nat) (count : Nat)
  /-- LAMP_CTRL_DIAG (R341): Forces a diagnostic pulse to a range of drivers in the next frame. -/
  | lampCtrlDiag (h : Hdr) (chain : Nat) (mask : Nat) (first : Nat) (count : Nat)
  /-- MX_STEP (R351): A matrix step starts on a pulse or SCAN timer, lighting the next row. -/
  | mxStep (die : Nat) (csns : Nat) (diag : Nat)
  /-- MX_START (R351): Starts the matrix in mx_mode. -/
  | mxStart (h : Hdr)
  /-- MX_STOP (R351): Stops the matrix after the present step. -/
  | mxStop (h : Hdr)
  /-- CH_PAGE_EVALUATE (R373): With a page's records in, colour hold judges frames and corrects tone, register and health. -/
  | chPageEvaluate
  /-- CH_START (R387): Starts colour hold on named bars. -/
  | chStart (h : Hdr) (ctx : Nat) (bars : Nat)
  /-- CH_STOP (R382): Stops colour hold on named bars. -/
  | chStop (h : Hdr) (bars : Nat)
  /-- CH_FREEZE (R382): Puts named bars in HOLD. -/
  | chFreeze (h : Hdr) (bars : Nat)
  /-- CH_RESUME (R382): Returns frozen bars to RUN. -/
  | chResume (h : Hdr) (bars : Nat)
  /-- CH_CAPTURE_REF (R372): Captures new reference spectra. -/
  | chCaptureRef (h : Hdr) (bars : Nat)
  /-- CH_STATUS (R386): Returns one bar's colour-hold summary. -/
  | chStatus (h : Hdr) (bar : Nat)
  /-- SERVO_SAMPLE (R393): An offset sample updates the servo, steps, slews or is rejected. -/
  | servoSample (tb : Nat) (gm : Nat) (thetaPs : Int) (t : Nat)
  /-- SLEW_END (R395): The slew time ends and the servo returns to ACQUIRE. -/
  | slewEnd (tb : Nat)
  /-- HOLDOVER_TIMEOUT (R396): No valid sample for holdover_ms enters HOLDOVER. -/
  | holdoverTimeout (tb : Nat)
  /-- TB_CHANGE_APPLY (R391): A step or rate change applies when TB1 reaches its apply time. -/
  | tbChangeApply (die : Nat)
  /-- TIME_ALIGN (R390): Each millisecond Pergola TIME measures each die's offset and corrects its rate. -/
  | timeAlign (die : Nat) (tb : Nat)
  /-- PTP_MESSAGE (R397): A PTP message is timestamped and handled. -/
  | ptpMessage (die : Nat) (port : Nat) (msg : PtpMsg)
  /-- ANNOUNCE_TIMEOUT (R397): announce_timeout intervals without Announce run BMCA again. -/
  | announceTimeout (die : Nat) (port : Nat)
  /-- PULSE_OUTPUT_MATCH (R401): A pulse output's time is reached and it gives a pulse. -/
  | pulseOutputMatch (die : Nat) (out : Nat)
  /-- CAPTURE_EDGE (R404): A filtered capture edge latches TB0-TB3. -/
  | captureEdge (die : Nat) (input : Nat) (rising : Bool) (t : Nat)
  /-- TB_READ (R388): Returns all four time bases. -/
  | tbRead (h : Hdr)
  /-- TB_STEP (R392): Steps TB0, TB2 or TB3 while armed. -/
  | tbStep (h : Hdr) (tb : Nat) (offset : Int)
  /-- PO_ARM (R402): Sets a pulse output's mode and times. -/
  | poArm (h : Hdr) (mode : Nat) (out : Nat) (start : Nat) (period : Nat) (count : Nat)
  /-- ITV_TRAINING_START (R411): An ITV port starts training at step 1. -/
  | itvTrainingStart (die : Nat)
  /-- ITV_TRAIN_STEP_DONE (R411): A training step completes and the next begins or the link comes up. -/
  | itvTrainStepDone (die : Nat) (res : TrainResult)
  /-- ITV_TRAIN_FAIL (R412): A training step timer expires and training restarts. -/
  | itvTrainFail (die : Nat)
  /-- ITV_RETRY (R413): A DOWN port retries training every retry_ms. -/
  | itvRetry (die : Nat)
  /-- ITV_FRAME_RECEIVE (R415): An ITV frame is accepted, discarded as duplicate or NAKed. -/
  | itvFrameReceive (die : Nat) (crcOk : Bool) (type : Nat) (hops : Nat) (dst : Nat) (src : Nat) (seq : Nat) (ack : Nat) (payload : List Byte)
  /-- ITV_ACK_TIMEOUT (R416): The oldest unacknowledged frame waits ack_timeout_us and frames are replayed. -/
  | itvAckTimeout (link : Nat)
  /-- ITV_SLEEP_ENTER (R418): A transmitter idle for sleep_after_ns enters SLEEP. -/
  | itvSleepEnter (die : Nat)
  /-- ITV_DEEP_PROPOSE (R419): After deep_after_ms in SLEEP a side proposes DEEP. -/
  | itvDeepPropose (die : Nat)
  /-- ITV_DEEP_EXIT (R419): A side leaves DEEP by starting its clock lane and retraining. -/
  | itvDeepExit (die : Nat)
  /-- EYE_SCAN_COMPLETE (R420): A lane eye scan completes and its figures update. -/
  | eyeScanComplete (die : Nat) (lane : Nat) (width : Nat) (height : Nat)
  /-- ETH_DATAGRAM (R423): A received UDP datagram is dispatched or discarded. -/
  | ethDatagram (die : Nat) (port : Nat) (ip : Nat) (src : Nat) (dst : Nat) (data : List Byte)
  /-- TUNNEL_DATAGRAM (R424): A tunnel datagram carries one ITV frame from a known peer. -/
  | tunnelDatagram (die : Nat) (port : Nat) (ip : Nat) (udp : Nat) (crcOk : Bool) (type : Nat) (hops : Nat) (dst : Nat) (src : Nat) (seq : Nat) (ack : Nat) (payload : List Byte)
  /-- PCIE_FLR (R428): A Function Level Reset or hot reset disables apertures and clears MSI-X. -/
  | pcieFlr (ep : Nat)
  /-- PERST_L_LOW (R544): PERST_L low for 1 µs acts as a hot reset of that endpoint. -/
  | perstLLow (ep : Nat)
  /-- BAR2_ACCESS (R427): A host access through a BAR2 aperture reaches the named die's device memory. -/
  | bar2Access (ep : Nat) (off : Nat) (write : Bool) (data : List Byte)
  /-- ENUM_FRAME (R429): An ENUM frame settles roles and numbering. -/
  | enumFrame (link : Nat) (serial : Nat) (masterEn : Bool) (priority : Nat) (dies : Nat) (chains : List Nat) (place : Option EnumPlace) (lo : Nat) (hi : Nat)
  /-- AUTO_ENUM (R432): Within 100 ms of a topology change the master runs KEEP. -/
  | autoEnum
  /-- TIME_SYNC_EXCHANGE (R435): Every itv_sync_ms a time exchange runs on each tree link. -/
  | timeSyncExchange (link : Nat) (t1 : Int) (t2 : Int) (t3 : Int) (t4 : Int) (t : Nat)
  /-- ITV_ENABLE (R440): Enables the die's ITV port. -/
  | itvEnable (h : Hdr)
  /-- ITV_DISABLE (R440): Disables the ITV port. -/
  | itvDisable (h : Hdr)
  /-- ITV_RETRAIN (R440): Retrains the ITV link. -/
  | itvRetrain (h : Hdr)
  /-- ITV_EYE_READ (R421): Returns lane eye figures. -/
  | itvEyeRead (h : Hdr) (lanes : Nat)
  /-- ITV_EYE_MEASURE (R421): Measures lane eye figures on request. -/
  | itvEyeMeasure (h : Hdr) (lanes : Nat)
  /-- SYS_ENUM_FRESH (R432): Numbers the whole system afresh. -/
  | sysEnumFresh (h : Hdr)
  /-- SYS_ENUM_KEEP (R432): Numbers the system keeping previous addresses. -/
  | sysEnumKeep (h : Hdr)
  /-- SYS_NODE (R431): Tells what a node address names. -/
  | sysNode (h : Hdr) (addr : Nat)
  /-- HOUSEKEEPING_ROUND (R442): Every round_ms the ADC converts all channels and thresholds are evaluated. -/
  | housekeepingRound (die : Nat) (t : Nat) (raws : List Nat) (vals : List Int)
  /-- CRITICAL_SHUTDOWN (R453): At standstill or crit_stop_ms the die switches domains off or disables the port. -/
  | criticalShutdown (die : Nat)
  /-- THERM_TRIP (R454): The 125 °C comparator ends FIRE and switches off the die but AO. -/
  | thermTrip (die : Nat) (sensor : Nat) (t : Nat)
  /-- CAL_RUN (R464): Starts interrupting calibration runs. -/
  | calRun (h : Hdr) (insts : Nat)
  /-- CAL_RUN_GAP (R463): Starts gap-fitted calibration runs. -/
  | calRunGap (h : Hdr) (insts : Nat)
  /-- CAL_QUALITY (R39): Measures quality figures on request. -/
  | calQuality (h : Hdr) (insts : Nat)
  /-- CAL_ABORT (R470): Aborts running calibrations. -/
  | calAbort (h : Hdr) (insts : Nat)
  /-- CAL_DONE (R465): A calibration run completes and is stored or fails. -/
  | calDone (die : Nat) (inst : Nat) (quality : Nat) (values : List Byte)
  /-- CAL_NO_GAP (R463): A gap-fitted run not complete in 10 s fails with NO_GAP. -/
  | calNoGap (die : Nat) (inst : Nat)
  /-- THERM_STATUS (R468): Returns the thermal summary. -/
  | thermStatus (h : Hdr)
  /-- WATCHDOG_EXPIRY (R473): The lead watchdog expires and AO releases the token. -/
  | watchdogExpiry (die : Nat) (serviced : Bool)
  /-- SRAM_ECC_ERROR (R473): An uncorrectable SRAM error releases the token. -/
  | sramEccError (die : Nat)
  /-- MGMT_POWER_LOSS (R473): MGMT power loss releases the token. -/
  | mgmtPowerLoss (die : Nat)
  /-- LEAD_TAKEOVER (R483): A visible release lets the standby take the token and load the Kennel, or SAFE is entered. -/
  | leadTakeover (us : Nat)
  /-- KENNEL_CHECKPOINT (R477): Every kennel_interval_ms a checkpoint snapshot is written. -/
  | kennelCheckpoint
  /-- KENNEL_WRITE_DONE (R478): A checkpoint write completes and is read back. -/
  | kennelWriteDone (ok : Bool)
  /-- LEAD_REPAIR (R488): repair_delay_ms after takeover the failed die's MGMT is power-cycled. -/
  | leadRepair
  /-- LEAD_STANDBY (R488): A repaired die passes its checks and becomes STANDBY. -/
  | leadStandby (die : Nat) (pass : Bool)
  /-- LEAD_MOVE (R489): Moves the lead role to the standby die. -/
  | leadMove (h : Hdr)
  /-- LEAD_CTRL_REPAIR (R488): Starts repair of a FAULTED die. -/
  | leadCtrlRepair (h : Hdr) (die : Nat)
  /-- LEAD_CHECKPOINT (R503): Forces a Kennel checkpoint. -/
  | leadCheckpoint (h : Hdr)
  /-- LEAD_ACK (R487): Clears the reissue list. -/
  | leadAck (h : Hdr)
  /-- EVENT_RAISE (R496): An event on a die is rate-limited or folded and enters its front buffer. -/
  | eventRaise (die : Nat) (code : Nat) (data : List Byte)
  /-- EVENT_NUMBER (R492): An event arriving at the lead is numbered and pushed to Q56-Q59. -/
  | eventNumber (die : Nat)
  /-- EVENT_PROGRAM (R492): A numbered entry is programmed into NV and er_durable advances. -/
  | eventProgram
  /-- BUCKET_REFILL_FLUSH (R496): A code with a suppressed count refills to B and its latest occurrence is recorded. -/
  | bucketRefillFlush (die : Nat) (code : Nat)
  /-- EVT_BACKLOG (R493): A die's front buffer has space again and folded events are recorded. -/
  | evtBacklog (die : Nat)
  /-- EVT_READ (R500): Returns up to 7 event entries. -/
  | evtRead (h : Hdr) (first : Nat) (count : Nat)
  /-- EVT_LIMIT_SET (R496): Sets the limit of one event code. -/
  | evtLimitSet (h : Hdr) (code : Nat) (rate : Nat) (burst : Nat)
  /-- EVT_LIMIT_GET (R496): Returns the limit of one event code. -/
  | evtLimitGet (h : Hdr) (code : Nat)
  /-- PORST_RISE (R516): PORST_L rises and the package boots from power-on reset. -/
  | porstRise (straps : Nat) (railsGood : Nat) (alive : Nat)
  /-- SYS_RST_L (R514): SYS_RST_L low for 10 µs resets the package. -/
  | sysRstL (straps : Nat)
  /-- RAIL_FAULT (R509): A rail below 90 % for 2 µs stops FIRE and holds reset. -/
  | railFault (die : Nat) (rail : Nat) (value : Nat)
  /-- RAIL_GOOD (R509): Rails good for 10 ms boot the package with cause RAIL. -/
  | railGood (straps : Nat)
  /-- CLK_FAULT (R512): REFCLK absent or off frequency stops FIRE and holds reset. -/
  | clkFault (die : Nat)
  /-- CLOCK_GOOD (R512): REFCLK good for 10 ms boots the package with cause CLOCK. -/
  | clockGood (straps : Nat) (gapNs : Nat)
  /-- BOOT_CONFIRM (R517): Rildin confirms the boot, stopping the boot watchdog and settling slot states. -/
  | bootConfirm (bootMs : Nat)
  /-- BOOT_WATCHDOG (R518): The 3 s boot watchdog expires and the package resets with BOOT_FAIL. -/
  | bootWatchdog (straps : Nat) (confirmed : Bool)
  /-- DIE_BOOT_TIMEOUT (R520): A die not at step 5 within 1 s is left off and marked faulted. -/
  | dieBootTimeout (die : Nat)
  /-- MODE_SET_GATEHOUSE (R522): Moves the package to GATEHOUSE. -/
  | modeSetGatehouse (h : Hdr)
  /-- MODE_SET_HOSTED (R522): Moves the package to HOSTED, stopping the test page first. -/
  | modeSetHosted (h : Hdr)
  /-- GH_SPIT_TIMER (R526): Every gh_spit_interval_s with HEAD_PARKED high Gatehouse starts parked spitting. -/
  | ghSpitTimer
  /-- GH_STATUS (R530): Returns the Gatehouse results. -/
  | ghStatus (h : Hdr)
  /-- DOMAIN_ON (R533): Switches named power domains on. -/
  | domainOn (h : Hdr) (die : Nat) (mask : Nat)
  /-- DOMAIN_OFF (R533): Switches named power domains off. -/
  | domainOff (h : Hdr) (die : Nat) (mask : Nat)
  /-- DIE_RESET (R533): Resets one die with cause DIE_CMD. -/
  | dieReset (h : Hdr) (die : Nat)
  /-- PKG_RESET (R533): Resets the package 1 ms after its reply. -/
  | pkgReset (h : Hdr)
  /-- TRIP_CLEAR (R533): Clears the trip latch and boots the die. -/
  | tripClear (h : Hdr) (die : Nat)
  /-- DOMAIN_SWITCH_DONE (R504): A domain switching on or off becomes usable or fully off. -/
  | domainSwitchDone (die : Nat)
  /-- PORST_L_LOW (R513): PORST_L driven low, or loss of VDD_AO, puts the package in power-on reset: everything including AO is cleared, FAULT_L goes low and unprogrammed events are lost. -/
  | porstLLow
  /-- UNMAPPED_READ (R36): A host read of an unmapped address or of a range without host access returns 0 and records BAR_REJECT. -/
  | unmappedRead (ep : Nat) (bar : Nat) (addr : Nat)
  /-- ETH_LINK_CHANGE (R437): An Ethernet port's link comes up or goes down, updating link_up and recording ETH_LINK. -/
  | ethLinkChange (die : Nat) (port : Nat) (up : Bool)
  /-- PCIE_LINK_CHANGE (R428): A PCIe endpoint's link trains up or goes down, recording PCIE_LINK and holding or releasing MSI-X messages. -/
  | pcieLinkChange (ep : Nat) (gen : Nat) (width : Nat)
  /-- MSIX_ENABLE_WRITE (R428): The host enables MSI-X in an endpoint's configuration space, and messages held pending are sent. -/
  | msixEnableWrite (ep : Nat) (on : Bool)
  /-- CAM_I2C_END (R572): The final STOP or bus timeout of a CAM_I2C transaction ends it, and the command completes with its result. -/
  | camI2cEnd (die : Nat) (cam : Nat) (result : Nat) (data : List Byte)
  /-- PTP_MESSAGE_INTERVAL (R397): At each log_sync, log_announce or log_delay interval a PTP port sends Sync, Announce or Delay_Req, and a Follow_Up or response not received in time counts in ts_missing. -/
  | ptpMessageInterval (die : Nat) (port : Nat) (kind : Nat)
  /-- ITV_PM_BLOCK_RECEIVE (R419): A sleep control block (0x33) or DEEP proposal or grant (0x55) arrives from the peer, changing rx_pm or granting or entering DEEP. -/
  | itvPmBlockReceive (die : Nat) (type : Nat)
  deriving DecidableEq, Repr

end Sys2Proof
end

