-- ==== Sys2Proof/WellFormed.lean ====
section
/-!
DEFINITION. Well-formed commands: every die, unit, mask and field within the width that the interface carrying it gives it (for
a mailbox command the fields of its request table). A meaning does not rely on it; a host interface can issue no other command.
-/
namespace Sys2Proof

/-- A die of the largest package (R3). -/
def dieOk (d : Nat) : Bool := d < 8

/-- Unit `u` of `n`. -/
def unitOk (u n : Nat) : Bool := u < n

/-- Fields of 8, 16, 32 and 64 bits. -/
def u8 (v : Nat) : Bool := v < 2 ^ 8
def u16 (v : Nat) : Bool := v < 2 ^ 16
def u32 (v : Nat) : Bool := v < 2 ^ 32
def u64 (v : Nat) : Bool := v < 2 ^ 64

/-- A signed field of 64 bits. -/
def i64 (v : Int) : Bool := decide (-2 ^ 63 ≤ v) && decide (v < 2 ^ 63)

/-- No more bytes than the longest datagram or block carries (R422, R284). -/
def bytesOk (b : List Byte) : Bool := b.length ≤ 65552

/-- A named line: context of 8 bits, image line of 32 (R64). -/
def lineOk : Option LineRef → Bool
  | some l => u8 l.ctx && u32 l.line
  | none => true

/-- An origin names a die, an endpoint and a slot, or an Ethernet port and a UDP port (R49, R57, R79). -/
def originOk : Origin → Bool
  | .slot d ep s => dieOk d && unitOk ep 2 && unitOk s 16
  | .remote d e ip p => dieOk d && unitOk e 2 && unitOk ip (2 ^ 128) && u16 p
  | .itv d node serial => dieOk d && unitOk node (2 ^ 18) && u64 serial
  | .rildin d => dieOk d
  | .script => true

/-- A header: the executing die, the origin, a tag of 16 bits (R44). -/
def hdrOk (h : Hdr) : Bool := dieOk h.die && originOk h.origin && u16 h.tag

/-- An object address: class 8 bits, instance and attribute 16 bits (R10). -/
def objOk (o : ObjRef) : Bool := u8 o.cls && u16 o.inst && u16 o.attr

/-- A command within the widths of its interface. -/
def Instr.wf : Instr → Bool
  | .registerWrite die ep off width value => dieOk die && unitOk ep 2 && u64 off && unitOk width 9 && u64 value
  | .barRcRead die ep off width => dieOk die && unitOk ep 2 && u64 off && u16 width
  | .mbxSlotWrite die ep slot off data => dieOk die && unitOk ep 2 && unitOk slot 16 && u64 off && bytesOk data
  | .mbxRing die ep mask => dieOk die && unitOk ep 2 && u32 mask
  | .remoteMailboxDatagram die eth ip port data => dieOk die && unitOk eth 2 && unitOk ip (2 ^ 128) && u16 port && bytesOk data
  | .commandComplete origin tag => originOk origin && u16 tag
  | .commandTimeout origin tag => originOk origin && u16 tag
  | .stageDiscard die obj => dieOk die && objOk obj
  | .statusBlockUpdate die => dieOk die
  | .idRead h => hdrOk h
  | .sysState h => hdrOk h
  | .blSet h level => hdrOk h && u8 level
  | .cmdStatus h tag => hdrOk h && u16 tag
  | .objGet h obj => hdrOk h && objOk obj
  | .objSet h obj value line => hdrOk h && objOk obj && u64 value && lineOk line
  | .objGetBlock h obj off len => hdrOk h && objOk obj && u32 off && u8 len
  | .objSetBlock h obj _ line off data => hdrOk h && objOk obj && lineOk line && u32 off && unitOk data.length 256
  | .fwBegin h size => hdrOk h && u32 size
  | .fwData h off data => hdrOk h && u32 off && unitOk data.length 256
  | .fwEnd h => hdrOk h
  | .fwActivate h => hdrOk h
  | .fwAbort h => hdrOk h
  | .fwSessionTimeout => true
  | .qpWrWrite die ep q value => dieOk die && unitOk ep 2 && unitOk q 64 && u32 value
  | .qpRdWrite die ep q value => dieOk die && unitOk ep 2 && unitOk q 64 && u32 value
  | .stallPushRetry die q => dieOk die && unitOk q 64
  | .queueWriteback die q => dieOk die && unitOk q 64
  | .queueInvalidate h first count => hdrOk h && u16 first && u16 count
  | .queueEnable h first count bad => hdrOk h && u16 first && u16 count && bad.all (unitOk · 64)
  | .queueDisable h first count => hdrOk h && u16 first && u16 count
  | .queueFlush h first count => hdrOk h && u16 first && u16 count
  | .queueStatus h q => hdrOk h && u16 q
  | .encEdge die ch _ _ t => dieOk die && unitOk ch 2 && u64 t
  | .encLosSet die ch pin t => dieOk die && unitOk ch 2 && unitOk pin 3 && u64 t
  | .encLosClear die ch t => dieOk die && unitOk ch 2 && u64 t
  | .indexPulse die ch t => dieOk die && unitOk ch 2 && u64 t
  | .absWordRequest die ch _ => dieOk die && unitOk ch 2
  | .absRequest h ch => hdrOk h && u16 ch
  | .absWordComplete die ch _ word => dieOk die && unitOk ch 2 && u64 word
  | .absTimeout die ch => dieOk die && unitOk ch 2
  | .encMag die ch input _ t => dieOk die && unitOk ch 2 && unitOk input 2 && u64 t
  | .stillTimeout die ch => dieOk die && unitOk ch 2
  | .pergolaPairReceive die src => dieOk die && dieOk src
  | .posSet h what value => hdrOk h && u8 what && i64 value
  | .posLatch h => hdrOk h
  | .cmpArm h unit_ pulse _ _ _ _ value step => hdrOk h && unitOk unit_ 16 && u8 pulse && i64 value && u32 step
  | .cmpDisarm h unit_ => hdrOk h && unitOk unit_ 16
  | .fireTimerMatch die port => dieOk die && unitOk port 24
  | .commitDeadline die port slot => dieOk die && unitOk port 24 && u64 slot
  | .pressRunAccept _ => true
  | .headParkedAccept _ => true
  | .eStopAccept => true
  | .eStopReleaseAccept => true
  | .leResume h => hdrOk h
  | .hsForce h levels => hdrOk h && unitOk levels 32
  | .hsRelease h => hdrOk h
  | .leStatus h => hdrOk h
  | .slotShift die port t => dieOk die && unitOk port 24 && u64 t
  | .staleReshift die port => dieOk die && unitOk port 24
  | .headQuery die port _ data crc => dieOk die && unitOk port 24 && bytesOk data && u8 crc
  | .lvdsFault die port pair => dieOk die && unitOk port 24 && unitOk pair 5
  | .hpEnable h ports => hdrOk h && unitOk ports (2 ^ 24)
  | .hpDisable h ports => hdrOk h && unitOk ports (2 ^ 24)
  | .hpRestart h ports bad => hdrOk h && unitOk ports (2 ^ 24) && unitOk bad (2 ^ 24)
  | .hpQuery h port arg cmd len => hdrOk h && u8 port && u8 arg && u8 cmd && u8 len
  | .hpSpitParked h ports lines => hdrOk h && unitOk ports (2 ^ 24) && u32 lines
  | .hpSpitStop h ports => hdrOk h && unitOk ports (2 ^ 24)
  | .hpSpitWeb h ctx ports first count => hdrOk h && u8 ctx && unitOk ports (2 ^ 24) && u32 first && u16 count
  | .spitLine die port t => dieOk die && unitOk port 24 && u64 t
  | .toneLine die port line => dieOk die && unitOk port 24 && u32 line
  | .tbSwapDecision die bank => dieOk die && unitOk bank 2
  | .tbBuild h bank => hdrOk h && u8 bank
  | .tbBuildAbort h bank => hdrOk h && u8 bank
  | .tbBuilt die bank t => dieOk die && unitOk bank 2 && u64 t
  | .tbSwap h ctx bank line => hdrOk h && u8 ctx && u8 bank && u32 line
  | .plStatus h port => hdrOk h && u8 port
  | .descriptorPush die ctx port => dieOk die && u8 ctx && unitOk port 24
  | .decodeStart die engine => dieOk die && unitOk engine 4
  | .decodeComplete die engine _ => dieOk die && unitOk engine 4
  | .codecVerify h port greyscale margin nozzles addr stored out =>
    hdrOk h && u8 port && u8 greyscale && u8 margin && u16 nozzles && unitOk addr (2 ^ 40) && u32 stored && unitOk out (2 ^ 40)
  | .codecCompressSubmit h queue back tag addr row stride rows line limit per =>
    hdrOk h && u8 queue && u8 back && u16 tag && unitOk addr (2 ^ 40) && u32 row && u32 stride && u32 rows && u32 line &&
      u16 limit && u16 per
  | .codecCompressAbort h queue tag => hdrOk h && u8 queue && u16 tag
  | .compressJobStart die => dieOk die
  | .compressBlockEnd die tokens _ => dieOk die && bytesOk tokens
  | .ctxOpen h ctx _ => hdrOk h && u8 ctx
  | .ctxStartAbs h ctx x0 => hdrOk h && u8 ctx && i64 x0
  | .ctxStartAfter h ctx after => hdrOk h && u8 ctx && u8 after
  | .switchFix die => dieOk die
  | .ctxStop h ctx => hdrOk h && u8 ctx
  | .ctxClose h ctx => hdrOk h && u8 ctx
  | .ctxAbort h ctx => hdrOk h && u8 ctx
  | .ctxInvalidate h first count => hdrOk h && u16 first && u16 count
  | .contextWriteback die ctx => dieOk die && u8 ctx
  | .runwayStatus h => hdrOk h
  | .grtData die eth ip udp stream seq ctx flags off data =>
    dieOk die && unitOk eth 2 && unitOk ip (2 ^ 128) && u16 udp && unitOk stream 16 && u32 seq && u8 ctx && u8 flags &&
      u64 off && bytesOk data
  | .grtReset die eth ip udp stream seq ctx =>
    dieOk die && unitOk eth 2 && unitOk ip (2 ^ 128) && u16 udp && unitOk stream 16 && u32 seq && u8 ctx
  | .grtAckTimer die stream => dieOk die && unitOk stream 16
  | .dmaTailWrite die ep stream value => dieOk die && unitOk ep 2 && unitOk stream 16 && u64 value
  | .dmaBlockFetch die stream stored _ data => dieOk die && unitOk stream 16 && u32 stored && bytesOk data
  | .blockStore die stream _ => dieOk die && unitOk stream 16
  | .stopFixed die => dieOk die
  | .backupTimeout die => dieOk die
  | .stopRelease die => dieOk die
  | .csiFrameStart die cam num t => dieOk die && unitOk cam 2 && u16 num && u64 t
  | .csiLine die cam vc dt ecc _ _ px => dieOk die && unitOk cam 2 && unitOk vc 16 && unitOk dt 64 && unitOk ecc 3 && px.all u16
  | .csiFrameEnd die cam t => dieOk die && unitOk cam 2 && u64 t
  | .frameTimeout die cam => dieOk die && unitOk cam 2
  | .ispFrameDone die stream => dieOk die && unitOk stream 9
  | .mpFrameProcess die => dieOk die
  | .psetListComplete die cam result index => dieOk die && unitOk cam 2 && unitOk result 4 && u8 index
  | .camWake h port => hdrOk h && u8 port
  | .camEnable h port => hdrOk h && u8 port
  | .camDisable h port => hdrOk h && u8 port
  | .camSleep h port => hdrOk h && u8 port
  | .camSnap h port => hdrOk h && u8 port
  | .camRelease h port slots => hdrOk h && u8 port && u64 slots
  | .camApply h port set frame => hdrOk h && u8 port && u8 set && u32 frame
  | .camI2c h _ port addr reg len data => hdrOk h && u8 port && u8 addr && u16 reg && u8 len && unitOk data.length 256
  | .chainRefresh die chain bad => dieOk die && unitOk chain 4 && bad.all (unitOk · 8192)
  | .chainReturn die chain _ _ => dieOk die && unitOk chain 4
  | .lampWriteback die chain => dieOk die && unitOk chain 4
  | .chainEnable h chains => hdrOk h && unitOk chains 16
  | .chainDisable h chains => hdrOk h && unitOk chains 16
  | .chainEnum h chains => hdrOk h && unitOk chains 16
  | .lampInvalidate h first count => hdrOk h && u16 first && u16 count
  | .lampCtrlClear h chain first count => hdrOk h && unitOk chain 4 && u16 first && u16 count
  | .lampCtrlDiag h chain mask first count => hdrOk h && unitOk chain 4 && unitOk mask 16 && u16 first && u16 count
  | .mxStep die csns diag => dieOk die && u16 csns && u16 diag
  | .mxStart h => hdrOk h
  | .mxStop h => hdrOk h
  | .chPageEvaluate => true
  | .chStart h ctx bars => hdrOk h && u8 ctx && u8 bars
  | .chStop h bars => hdrOk h && u8 bars
  | .chFreeze h bars => hdrOk h && u8 bars
  | .chResume h bars => hdrOk h && u8 bars
  | .chCaptureRef h bars => hdrOk h && u8 bars
  | .chStatus h bar => hdrOk h && u8 bar
  | .servoSample tb gm _ t => unitOk tb 4 && u64 gm && u64 t
  | .slewEnd tb => unitOk tb 4
  | .holdoverTimeout tb => unitOk tb 4
  | .tbChangeApply die => dieOk die
  | .timeAlign die tb => dieOk die && unitOk tb 4
  | .ptpMessage die port _ => dieOk die && unitOk port 2
  | .announceTimeout die port => dieOk die && unitOk port 2
  | .pulseOutputMatch die out => dieOk die && unitOk out 8
  | .captureEdge die input _ t => dieOk die && unitOk input 4 && u64 t
  | .tbRead h => hdrOk h
  | .tbStep h tb offset => hdrOk h && u8 tb && i64 offset
  | .poArm h mode out start period count => hdrOk h && u8 mode && u8 out && u64 start && unitOk period (2 ^ 48) && u32 count
  | .itvTrainingStart die => dieOk die
  | .itvTrainStepDone die _ => dieOk die
  | .itvTrainFail die => dieOk die
  | .itvRetry die => dieOk die
  | .itvFrameReceive die _ type hops dst src seq ack payload =>
    dieOk die && u8 type && u8 hops && unitOk dst (2 ^ 18) && unitOk src (2 ^ 18) && u16 seq && u16 ack && bytesOk payload
  | .itvAckTimeout link => unitOk link 24
  | .itvSleepEnter die => dieOk die
  | .itvDeepPropose die => dieOk die
  | .itvDeepExit die => dieOk die
  | .eyeScanComplete die lane width height => dieOk die && unitOk lane 8 && u16 width && u16 height
  | .ethDatagram die port ip src dst data =>
    dieOk die && unitOk port 2 && unitOk ip (2 ^ 128) && u16 src && u16 dst && bytesOk data
  | .tunnelDatagram die port ip udp _ type hops dst src seq ack payload =>
    dieOk die && unitOk port 2 && unitOk ip (2 ^ 128) && u16 udp && u8 type && u8 hops && unitOk dst (2 ^ 18) &&
      unitOk src (2 ^ 18) && u16 seq && u16 ack && bytesOk payload
  | .pcieFlr ep => unitOk ep 2
  | .perstLLow ep => unitOk ep 2
  | .bar2Access ep off _ data => unitOk ep 2 && u64 off && bytesOk data
  | .enumFrame link serial _ priority dies chains place lo hi =>
    unitOk link 24 && u64 serial && u8 priority && unitOk dies 9 && chains.all (unitOk · 513) &&
      place.all (fun p => unitOk p.base (2 ^ 18) && u8 p.depth && unitOk p.nodes (2 ^ 18 + 1) && unitOk p.packages 4097) &&
      unitOk lo (2 ^ 18) && unitOk hi (2 ^ 18)
  | .autoEnum => true
  | .timeSyncExchange link _ _ _ _ t => unitOk link 24 && u64 t
  | .itvEnable h => hdrOk h
  | .itvDisable h => hdrOk h
  | .itvRetrain h => hdrOk h
  | .itvEyeRead h lanes => hdrOk h && u8 lanes
  | .itvEyeMeasure h lanes => hdrOk h && u8 lanes
  | .sysEnumFresh h => hdrOk h
  | .sysEnumKeep h => hdrOk h
  | .sysNode h addr => hdrOk h && unitOk addr (2 ^ 18)
  | .housekeepingRound die t raws _ => dieOk die && u64 t && raws.all (unitOk · 4096)
  | .criticalShutdown die => dieOk die
  | .thermTrip die sensor t => dieOk die && unitOk sensor 6 && u64 t
  | .calRun h insts => hdrOk h && unitOk insts 32
  | .calRunGap h insts => hdrOk h && unitOk insts 32
  | .calQuality h insts => hdrOk h && unitOk insts 32
  | .calAbort h insts => hdrOk h && unitOk insts 32
  | .calDone die inst quality values => dieOk die && unitOk inst 5 && u32 quality && bytesOk values
  | .calNoGap die inst => dieOk die && unitOk inst 5
  | .thermStatus h => hdrOk h
  | .watchdogExpiry die _ => dieOk die
  | .sramEccError die => dieOk die
  | .mgmtPowerLoss die => dieOk die
  | .leadTakeover us => u32 us
  | .kennelCheckpoint => true
  | .kennelWriteDone _ => true
  | .leadRepair => true
  | .leadStandby die _ => dieOk die
  | .leadMove h => hdrOk h
  | .leadCtrlRepair h die => hdrOk h && u8 die
  | .leadCheckpoint h => hdrOk h
  | .leadAck h => hdrOk h
  | .eventRaise die code data => dieOk die && u16 code && bytesOk data
  | .eventNumber die => dieOk die
  | .eventProgram => true
  | .bucketRefillFlush die code => dieOk die && u16 code
  | .evtBacklog die => dieOk die
  | .evtRead h first count => hdrOk h && u64 first && u8 count
  | .evtLimitSet h code rate burst => hdrOk h && u16 code && u16 rate && u16 burst
  | .evtLimitGet h code => hdrOk h && u16 code
  | .porstRise straps railsGood alive => unitOk straps 16 && unitOk railsGood 1024 && u8 alive
  | .sysRstL straps => unitOk straps 16
  | .railFault die rail value => dieOk die && unitOk rail 10 && u64 value
  | .railGood straps => unitOk straps 16
  | .clkFault die => dieOk die
  | .clockGood straps gapNs => unitOk straps 16 && u64 gapNs
  | .bootConfirm bootMs => u32 bootMs
  | .bootWatchdog straps _ => unitOk straps 16
  | .dieBootTimeout die => dieOk die
  | .modeSetGatehouse h => hdrOk h
  | .modeSetHosted h => hdrOk h
  | .ghSpitTimer => true
  | .ghStatus h => hdrOk h
  | .domainOn h die mask => hdrOk h && dieOk die && u8 mask
  | .domainOff h die mask => hdrOk h && dieOk die && u8 mask
  | .dieReset h die => hdrOk h && dieOk die
  | .pkgReset h => hdrOk h
  | .tripClear h die => hdrOk h && dieOk die
  | .domainSwitchDone die => dieOk die
  | .porstLLow => true
  | .unmappedRead ep bar addr => unitOk ep 2 && unitOk bar 6 && u64 addr
  | .ethLinkChange die port _ => dieOk die && unitOk port 2
  | .pcieLinkChange ep gen width => unitOk ep 2 && u8 gen && u8 width
  | .msixEnableWrite ep _ => unitOk ep 2
  | .camI2cEnd die cam result data => dieOk die && unitOk cam 2 && unitOk result 4 && bytesOk data
  | .ptpMessageInterval die port kind => dieOk die && unitOk port 2 && unitOk kind 3
  | .itvPmBlockReceive die type => dieOk die && u8 type

end Sys2Proof
end

