-- ==== Sys2Proof/Decode.lean ====
section
/-!
DEFINITION. The block decodes no instruction words: its commands arrive over its interfaces as rows of the opcode table, and the
table gives no row any bits. Frames of the mailbox are read in Machine/Frames.lean.
-/
namespace Sys2Proof

/-- The command that a word spells by the table's bits: none, since no row of the table has bits. -/
def decodeTableWord (_nbits _w : Nat) : Option Instr := none

end Sys2Proof
end

