-- ==== Sys2Proof/Machine/Calc.lean ====
section
/-!
DEFINITION. Logarithms in fixed point (48 fraction bits; assumption log 12), which the thermistor formula (R444) and the
absorbances (R372, R373) use, and rounding of a quotient.
-/
namespace Sys2Proof.Machine

/-- Fraction bits of log2 of a mantissa `m` / 2^63 in [1, 2), by squaring. -/
def log2Frac : Nat → Nat → Nat → Nat
  | 0, _, acc => acc
  | n + 1, m, acc =>
    let q := m * m / 2 ^ 63
    if 2 ^ 64 ≤ q then log2Frac n (q / 2) (2 * acc + 1) else log2Frac n q (2 * acc)

/-- log2 (num ÷ den) in units of 2^-48; both positive and below 2^64. -/
def log2Q (num den : Nat) : Int :=
  let q : Nat := num * 2 ^ 128 / den
  let l : Nat := Nat.log2 q
  let m : Nat := q * 2 ^ 63 / 2 ^ l
  let f : Nat := log2Frac 48 m 0
  ((l : Int) - 128) * 281474976710656 + f

/-- ln 2 and log10 2 in units of 2^-64. -/
def ln2 : Int := 12786308645202655660
def log10of2 : Int := 5553023288523357132

/-- The natural logarithm in units of 2^-48. -/
def lnQ (num den : Nat) : Int := log2Q num den * ln2 / 2 ^ 64

/-- The common logarithm in units of 2^-48. -/
def log10Q (num den : Nat) : Int := log2Q num den * log10of2 / 2 ^ 64

/-- The nearest integer to a quotient, halves up; the divisor is positive. -/
def nearest (num den : Int) : Int := (2 * num + den) / (2 * den)

end Sys2Proof.Machine
end

