-- ==== Sys2Proof/Config.lean ====
section
/-!
DEFINITION. What an implementation fixes and the spec does not give: constants without a body. Nothing in Lean can
evaluate one or prove a value of it, so a claim holds whatever they are. Assumption log 3 (free values) and 4
(identities) name them.
-/
namespace Sys2Proof.Config

/-- The free values: the `n`-th value that the spec leaves open, taken by a step that reads and advances the counter
`free` of the state (assumption log 3). -/
opaque freeValue : Nat → Nat

/-- Identities fixed at manufacture or by the firmware image, "not given in this manual" (R521): package serial number. -/
opaque serial : Nat
/-- Die `d`'s lot ID as a number of 64 bits (R521). -/
opaque lot : Nat → Nat
/-- Die `d`'s wafer number (R521). -/
opaque wafer : Nat → Nat
/-- Die `d`'s X position on the wafer (R521). -/
opaque dieX : Nat → Nat
/-- Die `d`'s Y position on the wafer (R521). -/
opaque dieY : Nat → Nat
/-- The silicon step letter in ASCII (R4, R521). -/
opaque stepLetter : Nat → Nat
/-- The version field of a firmware image given by its bytes' digest (R521; the image layout is not in the manual). -/
opaque imageVersion : List Byte → Nat
/-- Whether an image's check word passes (R71; the image layout is not in the manual). -/
opaque imageCheck : List Byte → Bool
/-- The behaviour levels that an image lists, as a mask: bit 1 for BL1, bit 2 for BL2 (R71). -/
opaque imageLevels : List Byte → Nat

/-- The content of the blue-noise tile: byte `i` of die `d`'s tile (R574: loaded at boot; the manual does not give it). -/
opaque tileByte : Nat → Nat → Nat
/-- The station address that package NV gives Ethernet port `p` of die `d` (R437). -/
opaque macAddr : Nat → Nat → Nat
/-- The timestamp latency of the stored factory values for a port of a die and a rate, adjusted by the phase that the ETH
calibration with given values chose (R461: the manual gives no values): `u` is 2 × port for `rx_lat_ps`, one more for
`tx_lat_ps`. -/
opaque factoryLat : Nat → Nat → Nat → List Byte → Nat
/-- Plynlan's PCI vendor ID (R425). -/
opaque vendorId : Nat

/-- The clockIdentity that is derived from the package serial number (R398). -/
opaque clockIdentity : Nat → Nat
/-- The offsetScaledLogVariance that the package announces (R397: the default data sets of IEEE 1588). -/
opaque clockVariance : Nat

/-- A mean over no pixel: a defective pixel without a sound neighbour, a plane without a pixel in its window, a statistic
over an empty set (R316, R319 state no value). -/
opaque emptyMean : Nat → Nat

/-- The 5 nm tables that R371 names without their values: curve 0 to 2 the CIE 1931 2° observer x, y, z, 3 illuminant D50, at
a wavelength in nm that is a multiple of 5. -/
opaque cieTable : Nat → Nat → Nat
/-- CIEDE2000 × 100 between two colours given by XYZ relative to D50 (R371), each as three numerators over one denominator:
the standard's formula is not in the manual. -/
opaque ciede2000 : List Nat → Nat → List Nat → Nat → Nat
/-- The tone error of a patch whose reflectance is 0 or whose reference absorbance is 0 (R373 states no value), in units of
2^-32, from the two reflectances. -/
opaque toneOpen : Nat → Nat → Int
/-- A reflectance for which the white and the dark mean do not differ (R369 states no value). -/
opaque reflectanceOpen : Nat → Nat → Nat
/-- Whether the nozzle `J` of a bar counts as missing in a frame of an exposure time where the contrast has no value: a
background of 0, or a column outside the picture (R380; assumption log 37). -/
opaque contrastOpen : Nat → Nat → Nat → Bool

/-- The device address at which Rildin allocates the pipeline store of a die (R205; the manual does not give it). -/
opaque storeBase : Nat → Nat

/-- Entry *J* of bank `b` of die `d` while a build of it that began at `t` is under way, and after it was aborted or failed
(R225, R232 state no contents). -/
opaque openBank : Nat → Nat → Nat → Nat → BitVec 64

/-- The length in bytes of the lead state in checkpoint `seq` (R477: at most 4 MiB; its encoding is not in the manual). -/
opaque kennelBytes : Nat → Nat

end Sys2Proof.Config
end

