-- ==== Sys2Proof/Machine/State.lean ====
section
/-!
DEFINITION. The state of the block as plain data: the memories of the dies, the scalar registers keyed by their object
address, the records that hold what no attribute shows, the queue of waiting commands, and the state after reset.
-/
namespace Sys2Proof.Machine

/-! ### Objects and attributes -/

/-- An attribute of a class. -/
structure AttrId where
  cls : Nat
  id : Nat
  deriving DecidableEq, Repr

/-- The home of one scalar register: die (255 for a package object), class, number within the class, identifier. -/
structure RegKey where
  die : Nat
  cls : Nat
  inst : Nat
  id : Nat
  deriving DecidableEq, Repr

/-- The access codes (R10). -/
inductive Access where
  | ro | rw | wo | w1c | rc
  deriving DecidableEq, Repr

/-- A stated range (R11). -/
inductive Rng where
  /-- every value of the width -/
  | any
  /-- from `lo` to `hi`, read as signed where the attribute is signed -/
  | rng (lo hi : Int)
  /-- 0, or from `lo` to `hi` -/
  | zeroOr (lo hi : Nat)
  /-- one of the listed values -/
  | oneOf (l : List Nat)
  deriving DecidableEq, Repr

/-- One row of an attribute map. -/
structure AttrRow where
  name : String
  instLo : Nat
  instHi : Nat
  idLo : Nat
  idHi : Nat
  width : Nat
  acc : Access
  reset : Nat
  rng : Rng
  signed : Bool
  lineEff : Bool
  bl2 : Bool
  deriving DecidableEq, Repr

/-! ### Replies and deferred changes (chapter 02) -/

/-- The status codes (R46). -/
inductive Status where
  | ok | busy | badOpcode | badObject | badAttr | range | state | noSpace | timeout | nvTemp | check | nodeUnreachable
  | deferred | superseded
  deriving DecidableEq, Repr

/-- A command's reply: status and payload (R44). -/
structure Reply where
  status : Status
  data : List Byte := []
  deriving DecidableEq, Repr

/-- Who sent a command (R79). -/
inductive Source where
  | script
  | rildin
  | pcie (ep fn : Nat)
  | eth (die port ip udp : Nat)
  | itv (node serial : Nat)
  deriving DecidableEq, Repr

/-- An effect record (R64): kind 1 image line, 2 TB0 time, 3 frame number, 4 next boot, 5 end of long work. -/
structure Effect where
  kind : Nat
  ctx : Nat := 0
  point : Nat := 0
  deriving DecidableEq, Repr

/-- A remembered deferred command (R68): its fate is the code CMD_STATUS reports. -/
structure Deferred where
  id : Nat
  tag : Nat
  src : Source
  pkg : Bool
  eff : Effect
  fate : Nat
  deriving DecidableEq, Repr

/-- A command in progress on the die that accepted it (R49, R53): its frame, the die or link (from 256) that carries it out, the
command while it has not been carried out, its arrival on the model clock (R59). -/
structure Work where
  origin : Origin
  tag : Nat
  op : Nat
  frame : List Byte
  target : Nat
  cmd : Option Instr
  since : Nat
  deriving DecidableEq, Repr

/-- A kept remote reply with its request (R59). -/
structure Kept where
  src : Source
  tag : Nat
  request : List Byte
  reply : List Byte
  at_ : Nat
  deriving DecidableEq, Repr

/-- A staging copy (R62, R63): its owner and the bytes written so far. -/
structure Stage where
  key : RegKey
  owner : Source
  bytes : List Byte
  deriving DecidableEq, Repr

/-- The mailbox hardware of a die (R40 to R59). -/
structure Mbx where
  slots : List (List Byte)
  busy : Nat
  done : Nat
  irqEn : Nat
  vec : Nat
  busyHits : Nat
  work : List Work
  kept : List Kept
  deferred : List Deferred
  deriving DecidableEq, Repr

/-- The status block's own fields (R42): the last update's values. -/
structure StatusBlock where
  gen : Nat
  heartbeat : Nat
  mode : Nat
  lead : Nat
  tb1 : Nat
  evtSeq : Nat
  busy : Nat
  gh : List Byte
  deriving DecidableEq, Repr

/-! ### Hardware queues (chapter 03) -/

/-- A producer's word waiting under STALL (R91). -/
structure HeldWord where
  agent : Nat
  word : Nat
  last : Bool
  deriving DecidableEq, Repr

/-- One hardware queue (R84 to R106): cached entry words 0 to 3, pointers, flags and the counts since enable. -/
structure Queue where
  cached : Bool := false
  w0 : Nat := 0
  w1 : Nat := 0
  w2 : Nat := 0
  w3 : Nat := 0
  enabled : Bool := false
  wr : Nat := 0
  cmt : Nat := 0
  rd : Nat := 0
  sticky : Nat := 0
  last : Nat := 0
  /-- length field of the first word of the uncommitted packet -/
  pktLen : Nat := 0
  /-- the agent whose packet is under way (R568) -/
  holder : Option Nat := none
  /-- agents whose words are discarded up to the one marked last (R90, R91) -/
  discard : List Nat := []
  /-- words that producers hold under STALL, oldest first -/
  held : List HeldWord := []
  /-- the depth message has been sent since the depth was last below the watermark (R104) -/
  marked : Bool := false
  maxDepth : Nat := 0
  pushes : Nat := 0
  pops : Nat := 0
  overflows : Nat := 0
  underruns : Nat := 0
  oversize : Nat := 0
  rewinds : Nat := 0
  deriving DecidableEq, Repr

/-! ### Events (chapter 16) -/

/-- An event before numbering (R490, R491): its data bytes are carried by the main entry and its continuations. -/
structure Evt where
  code : Nat
  tb0 : Nat
  node : Nat
  die : Nat
  suppressed : Nat
  data : List Byte
  deriving DecidableEq, Repr

/-- A token bucket of one code (R496): `level` counts 1/16 of a token in units of one rate-step nanosecond. -/
structure Bucket where
  code : Nat
  level : Nat
  stamp : Nat
  count : Nat
  latest : Option Evt
  deriving DecidableEq, Repr

/-- A limit set by EVT_LIMIT (R496): tokens per second in Q12.4 and burst. -/
structure Limit where
  code : Nat
  rate : Nat
  burst : Nat
  deriving DecidableEq, Repr

/-- One numbered 32-byte entry of the recorder (R490). -/
structure Entry where
  seq : Nat
  bytes : List Byte
  deriving DecidableEq, Repr

/-! ### Time (chapter 13) -/

/-- A time base of a die (R388, R389): its value in units of 2^-48 ns and its rate in units of 2^-49. -/
structure Tb where
  time : Nat := 0
  rho : Int := 0
  deriving DecidableEq, Repr

/-- A step or rate change on its way to a die (R391): time base, TB1 apply time in ns, step in ns, rate in 10^-12. -/
structure TbChange where
  tb : Nat
  apply : Nat
  step : Option Int
  rate : Option Int
  deriving DecidableEq, Repr

/-- The servo states (R394). -/
inductive ServoState where
  | free | acquire | slew | track | locked | holdover
  deriving DecidableEq, Repr

/-- A servo of the lead die (R393 to R396): integral term in 10^-12, TB1 time of the last valid sample, runs of outliers
and of good samples, grandmaster of the present source, rate sent last. -/
structure Servo where
  st : ServoState := .free
  i : Int := 0
  rate : Int := 0
  lastAt : Option Nat := none
  outRun : Nat := 0
  lockRun : Nat := 0
  first : Bool := true
  gm : Nat := 0
  deriving DecidableEq, Repr

/-- A pulse output beyond its attributes (R400 to R403): times in units of 2^-16 ns of its time base. -/
structure Pulse where
  start : Nat := 0
  period : Nat := 0
  count : Nat := 0
  k : Nat := 0
  highUntil : Nat := 0
  later : List Nat := []
  deriving DecidableEq, Repr

/-- A PTP port beyond its attributes (R397 to R399): the announced master, the exchange under way. -/
structure PtpPort where
  parent : Nat := 0
  gm : Nat := 0
  rank : List Nat := []
  utc : Nat := 0
  heard : Bool := false
  syncSeq : Nat := 0
  syncRx : Option Int := none
  syncTx : Option Int := none
  t3 : Option Int := none
  reqSeq : Nat := 0
  deriving DecidableEq, Repr

/-! ### Links and system (chapter 14) -/

/-- An ITV frame (R414): type, hops left, destination, source, link sequence number, acknowledge number, payload. -/
structure ItvFrame where
  type : Nat
  hops : Nat
  dst : Nat
  src : Nat
  seq : Nat
  ack : Nat
  payload : List Byte
  deriving DecidableEq, Repr

/-- The replay state of one link, an ITV port or a tunnel peer (R415, R416, R424). -/
structure Link where
  rxNext : Nat := 0
  txNext : Nat := 0
  unacked : List ItvFrame := []
  waiting : List ItvFrame := []
  replayRun : Nat := 0
  up : Bool := false
  rxAcked : Bool := false
  txAcked : Bool := false
  /-- time of the last NAK sent, on the model's clock in ns (R415) -/
  nakAt : Option Nat := none
  deriving DecidableEq, Repr

/-- An ITV port beyond its attributes (R410 to R421). -/
structure Itv where
  link : Link := {}
  failRun : Nat := 0
  /-- generation being trained and the highest that this training still tries (R413) -/
  gen : Nat := 1
  limit : Nat := 3
  invert : Nat := 0
  reversed : Bool := false
  skewPs : Nat := 0
  eqDone : Bool := false
  fromDeep : Bool := false
  proposed : Bool := false
  /-- lanes whose figures are below the limits and have been recorded (R421) -/
  eyeLow : Nat := 0
  /-- TB1 times of the lanes' figures -/
  eyeAt : List Nat := List.replicate 8 0
  /-- ITV_EYE MEASURE under way: deferral record and lanes left (R421) -/
  eyeWork : List (Nat × Nat) := []
  deriving DecidableEq, Repr

/-- A PCIe endpoint beyond its attributes (R426 to R428): MSI-X table words and pending bits, apertures. -/
structure Endpoint where
  msixTable : List Nat
  msixPending : Nat := 0
  apertures : List Nat
  deriving DecidableEq, Repr

/-- What a node address names (SYS_NODE): 1 package, 2 die, 3 lamp driver, 4 reserved by KEEP. -/
structure Node where
  addr : Nat
  kind : Nat
  die : Nat
  chain : Nat
  driver : Nat
  serial : Nat
  deriving DecidableEq, Repr

/-- A package reached over a link of this package, as its ENUM frames describe it (R429, R430). -/
structure Peer where
  link : Nat
  serial : Nat
  masterEn : Bool
  priority : Nat
  dies : Nat
  chains : List Nat
  lo : Nat
  hi : Nat
  deriving DecidableEq, Repr

/-- The address range reached through a tree link (R434). -/
structure Route where
  link : Nat
  lo : Nat
  hi : Nat
  deriving DecidableEq, Repr

/-! ### Lead role, Kennel and event recorder (chapter 16) -/

/-- The lead states of dies 0 and 1 (R472). -/
inductive LeadSt where
  | active | standby | syncing | faulted
  deriving DecidableEq, Repr

/-! ### Power, reset and boot (chapter 17) -/

/-- The states of a firmware image slot (R517). -/
inductive SlotSt where
  | empty | valid | pending | active | failed
  deriving DecidableEq, Repr

/-- A firmware image slot of the package NV (R517). -/
structure FwSlot where
  st : SlotSt
  image : List Byte
  ver : Nat
  fails : Nat
  tried : Bool
  /-- its check word passed at END, and the behaviour levels it lists, bit `l` for BLl (R71) -/
  sound : Bool
  levels : Nat
  deriving DecidableEq, Repr

/-- An erased image slot (R69). -/
def FwSlot.blank : FwSlot := ⟨.empty, [], 0, 0, false, false, 0⟩

/-- An open FW_UPDATE session (R69, R70). -/
structure FwSession where
  src : Source
  size : Nat
  received : Nat
  lastOff : Nat
  lastLen : Nat
  data : List Byte
  /-- END has passed -/
  ended : Bool
  deriving DecidableEq, Repr

/-- The package modes (`sb_mode`). -/
inductive Mode where
  | boot | gatehouse | hosted | safe
  deriving DecidableEq, Repr

/-- The reset causes (R513). -/
inductive Cause where
  | por | pin | pkgCmd | dieCmd | rail | clock | bootFail
  deriving DecidableEq, Repr

/-! ### Web position (chapter 04) -/

/-- A published position/time pair (R129) with the stretch factor it was made under. -/
structure Pair where
  wpos : Int := 0
  lpos : Int := 0
  tb1 : Nat := 0
  flags : Nat := 0
  speed : Int := 0
  accel : Int := 0
  seq : Nat := 0
  s : Nat := 0x40000000
  deriving DecidableEq, Repr

/-- An encoder channel beyond its attributes: accepted levels of A and B, direction (R113), index reference and run of index
errors (R115, R116), raw counts since the correction was last applied (R117), TB1 time of the last change of the count,
the absolute word under way with its latch point and count there (R118, R122). -/
structure Enc where
  a : Bool := false
  b : Bool := false
  fwd : Bool := true
  ref : Option Int := none
  errRun : Nat := 0
  slew : Nat := 0
  lastAt : Nat := 0
  word : Option (Nat × Int) := none
  /-- DAT has been high for a clock period (R118, step 1) -/
  dat : Bool := true
  absSeen : Bool := false
  deriving DecidableEq, Repr

/-- A stretch window that is open (R132, R133): reference and local position at its start, in 2^-40 nm. -/
structure Window where
  refW : Int
  locW : Int
  ok : Bool
  deriving DecidableEq, Repr

/-- The position unit of a die beyond its attributes (R124 to R134). -/
structure PosUnit where
  /-- the origin in 2^-40 nm -/
  o : Int := 0
  /-- LPOS in 2^-40 nm -/
  lfx : Int := 0
  newest : Pair := {}
  /-- pair history, newest first (R130) -/
  hist : List Pair := []
  lastPub : Option Nat := none
  /-- WPOS and LPOS last taken from the partner (R134) -/
  partner : Pair := {}
  win : Option Window := none
  /-- reference pair at which a window opens or closes, until local pairs bracket its time -/
  mark : Option Pair := none
  /-- newest reference pair (R132) -/
  refPair : Option Pair := none
  sf : Nat := 0x40000000
  /-- STRETCH_HOLD (R133) -/
  hold : Bool := false
  /-- values still in force of the configuration attributes changed since the newest pair (R141) -/
  held : List (Nat × Nat) := []
  deriving DecidableEq, Repr

/-! ### Line engine and head ports (chapters 05, 06) -/

/-- A row group's armed fire time (R147), TB1 in units of 125 ps, and the lateness it carries (R157), same unit. -/
structure Arm where
  ctx : Nat
  k : Nat
  g : Nat
  t : Nat
  late : Nat
  deriving DecidableEq, Repr

/-- A fired line that still has row-group pulses to give (R153): next row group and the lateness of the line. -/
structure Firing where
  ctx : Nat
  k : Nat
  g : Nat
  late : Nat
  deriving DecidableEq, Repr

/-- The states of a slot from the first one unfired on that is not WAITING (R208); a slot dropped before its turn stays
listed until its turn. -/
inductive SlotState where
  | prepared | staged | shifted | dropped
  deriving DecidableEq, Repr

/-- A slot of a port (R208): its context, the level of every nozzle once composed, whether it is in the head's shift
registers (R209), why it is stale (R211: 0 STILL, 1 REVERSED, 2 HELD, 3 ESTOP, 4 spit or query), the time at which its LAT
falls (TB1, units of 125 ps). -/
structure Slot where
  ctx : Nat
  k : Nat
  st : SlotState
  levels : List Nat := []
  inRegs : Bool := false
  stale : Option Nat := none
  latAt : Nat := 0
  deriving DecidableEq, Repr

/-- A decoded image line of a port (R234): its columns. -/
structure DecLine where
  ctx : Nat
  line : Nat
  g4 : Bool
  cols : List Nat
  deriving DecidableEq, Repr

/-- A toned image line of a port (R205, R219): the bank that toned it and a level for each nozzle. -/
structure TonedLine where
  ctx : Nat
  line : Nat
  bank : Nat
  levels : List Nat
  deriving DecidableEq, Repr

/-- A spit band into the web (R198): slots `first` to `first + count - 1` of a context. -/
structure Band where
  id : Nat
  ctx : Nat
  first : Nat
  count : Nat
  deriving DecidableEq, Repr

/-- A head query that waits or runs on a port (R191, R193): command, argument, reply bytes, and the HP_QUERY it answers. -/
structure Query where
  cmd : Nat
  arg : Nat
  len : Nat
  asker : Option (Origin × Nat)
  deriving DecidableEq, Repr

/-- A head port beyond its attributes. -/
structure Port where
  /-- slots PREPARED, STAGED or SHIFTED, in rising order -/
  slots : List Slot := []
  decoded : List DecLine := []
  toned : List TonedLine := []
  arms : List Arm := []
  firing : Option Firing := none
  /-- time of the last FIRE rising edge, units of 125 ps (R149) -/
  lastPulse : Nat := 0
  /-- a line has fired on this port in the present context (R157) -/
  firedOnce : Bool := false
  /-- the head latch holds a line of this port (R176) -/
  latchKnown : Bool := false
  /-- time at which the last shift ends, units of 125 ps (R186) -/
  shiftEnd : Nat := 0
  queries : List Query := []
  /-- the identity in package NV (R194) -/
  ident : List Byte := []
  queryFails : Nat := 0
  /-- the slots lost to a port fault: first and number (R200) -/
  lost : Option (Nat × Nat) := none
  bands : List Band := []
  deriving DecidableEq, Repr

/-- Parked spitting that one HP_SPIT started (R196): lines asked for (0 until STOP) and lines done on each port. -/
structure SpitJob where
  ports : List (Nat × Nat)
  lines : Nat
  deriving DecidableEq, Repr

/-! ### Line pipeline (chapter 07) -/

/-- A line-effective change (R64 to R67, R575, R576): the attribute, its value (scalar or spit band start), the context and
line, whether it has been fixed under R213, and whether it took effect. -/
structure LineChange where
  id : Nat
  key : RegKey
  val : Nat
  ctx : Nat
  line : Nat
  fixed : Bool
  taken : Bool
  deriving DecidableEq, Repr

/-- The Orangery's inputs as they stood at TB_BUILD (R225): zone gains, health map, base table, level weights, greyscale of
every port. -/
structure BankInput where
  gains : List Nat
  health : List Byte
  base : List Byte
  weights : List Nat
  g4 : List Bool
  deriving DecidableEq, Repr

/-- A density-table bank beyond its attributes (R224, R227): inputs of the build it holds, deferral records of build and swap,
the line of a context from which it is in force. -/
structure Bank where
  input : Option BankInput := none
  buildId : Option Nat := none
  swapId : Option Nat := none
  /-- deferral records of later swaps to the same bank (R66) -/
  later : List Nat := []
  /-- model clock at the start of the build, ns -/
  buildAt : Nat := 0
  /-- a build is under way, or the last one was aborted or failed: the contents are open -/
  torn : Bool := false
  deriving DecidableEq, Repr

/-! ### Codec (chapter 08) -/

/-- A decompression descriptor under decode on an engine (R246, R249). -/
structure DecJob where
  queue : Nat
  ctx : Nat
  port : Nat
  verify : Bool
  addr : Nat
  line : Nat
  len : Nat
  deriving DecidableEq, Repr

/-- A compression job (R253). -/
structure CompJob where
  id : Nat
  src : Source
  tag : Nat
  queue : Nat
  back : Nat
  addr : Nat
  row : Nat
  stride : Nat
  rows : Nat
  line : Nat
  limit : Nat
  per : Nat
  /-- blocks committed, source bytes read, packet bytes committed -/
  block : Nat := 0
  bytesIn : Nat := 0
  bytesOut : Nat := 0
  deriving DecidableEq, Repr

/-- A CODEC_VERIFY under way (R262): geometry of its request, output address, and the command it answers. -/
structure Verify where
  port : Nat
  nozzles : Nat
  margin : Nat
  g4 : Bool
  addr : Nat
  len : Nat
  out : Nat
  origin : Origin
  tag : Nat
  deriving DecidableEq, Repr

/-- The codec of a die beyond its attributes; contexts closed by ABORT since they were last opened (R252). -/
structure Codec where
  engines : List (Option DecJob) := List.replicate 4 none
  verifies : List Verify := []
  jobs : List CompJob := []
  running : Bool := false
  aborted : List Nat := []
  deriving DecidableEq, Repr

/-! ### Contexts, ingest and the seamless stop (chapter 09) -/

/-- A block in a job store (R273): address, stored length, port, first and number of lines, whether its descriptor has been
pushed, whether it has been released, failed or discarded. -/
structure Blk where
  addr : Nat
  len : Nat
  port : Nat
  first : Nat
  count : Nat
  pushed : Bool
  done : Bool
  deriving DecidableEq, Repr

/-- A context that is not CLOSED (R264 to R272) beyond its attributes. -/
structure Ctx where
  num : Nat
  job : Nat
  ports : Nat
  page : Nat
  base : Nat
  pages : Nat
  /-- the last line, once known (R268) -/
  last : Option Nat
  /-- per port: the next expected line, so that lines below it are held (R273, R285) -/
  next : List Nat
  /-- per port: first slot of the context not fired or dropped -/
  slot : List Nat
  blocks : List Blk := []
  /-- ring position of the next store, in bytes -/
  head : Nat := 0
  stored : Nat := 0
  bytes : Nat := 0
  stops : Nat := 0
  seams : Nat := 0
  startAt : Nat := 0
  /-- the part of X₀ below 1 nm, in 2^-32 nm (R143, R267) -/
  x0lo : Nat := 0
  failPort : Nat := 0xFF
  failLine : Nat := 0
  /-- stop slots of the ports once the stop end is fixed (R289) -/
  stopSlots : Option (List Nat) := none
  /-- START AFTER pending: outgoing context and deferral record (R267) -/
  after : Option (Nat × Nat) := none
  /-- it stopped in the present stop and waits to resume (R294) -/
  resume : Bool := false
  /-- the context after which it was started (R267, R269) -/
  from_ : Option Nat := none
  deriving DecidableEq, Repr

/-- A host descriptor's block fetched by DMA or a GRT block assembled, waiting for room (R273). -/
structure Stream where
  peer : Option (Nat × Nat × Nat) := none
  /-- accepted datagrams since the last ACK -/
  unacked : Nat := 0
  nakAt : Option Nat := none
  frag : List Byte := []
  fragOn : Bool := false
  /-- bytes queued but not yet stored (R280) -/
  queued : Nat := 0
  waiting : Option (List Byte) := none
  dmaTail : Nat := 0
  dmaHead : Nat := 0
  dmaEp : Nat := 0
  deriving DecidableEq, Repr

/-- The stop of a die (R288 to R295): BACKUP_REQ's rise on the model clock, a fall of STOP_REQ not yet followed by the
resume. -/
structure Stop where
  active : Bool := false
  standstill : Bool := false
  backupAt : Option Nat := none
  backupDone : Bool := false
  resume : Bool := false
  deriving DecidableEq, Repr

/-! ### Belvedere (chapter 10) -/

/-- A trigger pulse's latch (R311): TB1 of the pulse in ns, newest pair, band. -/
structure Trig where
  t : Nat
  pair : Pair
  band : Nat
  deriving DecidableEq, Repr

/-- A pending CAM_APPLY (R327, R328): its deferral record, set, write window, effect frame, and whether its write list has
been completed. -/
structure Apply where
  id : Nat
  set : Nat
  window : Nat
  effect : Nat
  written : Bool := false
  deriving DecidableEq, Repr

/-- A frame (R310 to R314): what its records carry, its stream's stage parameters in force (R317), its lines as far as they
are not in memory, its slots. -/
structure Frame where
  cam : Nat
  num : Nat
  sensor : Nat
  flags : Nat
  band : Nat
  gen : Nat
  pset : Nat
  exposure : Nat
  pair : Pair
  isp : Nat
  stream : Nat
  w : Nat
  h : Nat
  black : List Nat
  gain : List Nat
  regs : List (RegKey × Nat)
  blks : List (RegKey × List Byte)
  /-- lines received; those of stream 0, in the order received -/
  lines : Nat := 0
  rows : List (List Nat) := []
  crcs : Nat := 0
  lens : Nat := 0
  lost : Nat := 0
  /-- raw slot of a memory-path frame; slot of a tap -/
  slot : Option Nat := none
  tap : Option Nat := none
  tapKind : Nat := 0
  /-- model clock of its frame end, ns (R305) -/
  endAt : Nat := 0
  deriving DecidableEq, Repr

/-- A camera port beyond its attributes. -/
structure Cam where
  trig : Option Trig := none
  open_ : Option Frame := none
  newest : Option Nat := none
  applies : List Apply := []
  /-- the write list under way: set 0 of ENABLE, or the apply of that set -/
  writing : Option Nat := none
  /-- the write list of set 0 runs (R333) -/
  first : Bool := false
  /-- frames that carry MIXED because a list was late (R328) -/
  mixed : List Nat := []
  /-- the frame from which settings are unknown after a list that ended early (R329) -/
  unknown : Option Nat := none
  /-- closed frames that wait for the ISP, oldest first -/
  closed : List Frame := []
  snap : Bool := false
  timedOut : Bool := false
  /-- model clock of the last frame end and the gap of the last closed frame, ns -/
  lastEnd : Option Nat := none
  gap : Option Nat := none
  /-- CAM_I2C under way: the command, whether it reads, its length -/
  i2c : Option ((Origin × Nat) × Bool × Nat) := none
  deriving DecidableEq, Repr

/-! ### Lamp chains and the matrix (chapter 11) -/

/-- A chain frame as sent: the levels of each driver and the diagnostic mask of each (R341, R348). -/
structure ChainFrame where
  levels : List (List Nat)
  masks : List Nat
  deriving DecidableEq, Repr

/-- A lamp chain beyond its attributes. -/
structure Chain where
  prev : Option ChainFrame := none
  cur : Option ChainFrame := none
  errRun : Nat := 0
  /-- the return of `cur` has not come -/
  waiting : Bool := false
  /-- drivers named by LAMP_CTRL CLEAR; diagnostic channels due by age (R349) and forced by LAMP_CTRL DIAG -/
  clears : List Nat := []
  due : List (Nat × Nat) := []
  forced : List (Nat × Nat) := []
  /-- an enumeration under way: deferral record, of ENABLE, state before -/
  enum : Option (Nat × Bool × Nat) := none
  /-- entries of LAMP_INVALIDATE still to be read again -/
  reread : List Nat := []
  deriving DecidableEq, Repr

/-- A cached Lamp Table entry (R345). -/
structure Lamp where
  w0 : Nat
  w1 : Nat
  level : Nat := 0
  age : Nat := 0
  flags : Nat := 0
  deriving DecidableEq, Repr

/-- A diagnostic row (R356): row, model clock of its start, columns, CSNS levels of its sample, whether it has been counted. -/
structure MxDiag where
  row : Nat
  start : Nat
  cols : List Nat
  csns : Nat
  counted : Bool := false
  deriving DecidableEq, Repr

/-- A matrix step (R351): row, model clock of step 1, on-time of each column in ns, the CSNS levels of its sample and of a
diagnostic row that may follow it; whether the sample has been taken and the window after step 5 considered. -/
structure MxStep where
  row : Nat
  start : Nat
  on : List Nat
  csns : Option Nat := none
  diagCsns : Nat := 0
  sampled : Bool := false
  tried : Bool := false
  diag : Option MxDiag := none
  deriving DecidableEq, Repr

/-- The matrix port beyond its attributes. -/
structure Matrix where
  next : Nat := 0
  step : Option MxStep := none
  /-- elements with a fresh sample in this scan; none before the first scan -/
  fresh : Option (List Nat) := none
  stopping : Bool := false
  band : Nat := 0xFF
  /-- elements whose MX_NO_WINDOW has been recorded (R357) -/
  waits : List Nat := []
  deriving DecidableEq, Repr

/-! ### Housekeeping and calibration (chapter 15) -/

/-- A DIE or HEAD sensor beyond its attributes (R446 to R450): run of identical raw codes, run of rounds clear of a BROKEN
case, BROKEN, level 0 NORMAL to 3 CRITICAL, throttle level by temperature, RISE, readings with their times on the model
clock (newest first), limits of AUX_LIMIT that have been recorded (bit 0 low, 1 high). -/
structure Sensor where
  same : Nat := 0
  clear : Nat := 0
  broken : Bool := false
  level : Nat := 0
  thr : Nat := 0
  rise : Bool := false
  hist : List (Nat × Int) := []
  limit : Nat := 0
  deriving DecidableEq, Repr

/-- A stored calibration record (R465). -/
structure CalRec where
  values : List Byte
  runs : Nat
  tb0 : Nat
  temp : Nat
  quality : Nat
  deriving DecidableEq, Repr

/-- A calibration instance beyond its attributes: work under way (0 none, 1 interrupting, 2 gap-fitted, 3 quality), state
before it, its start on the model clock, deferral record, time of the next try after NO_GAP, values in force, the record in
NV. -/
structure Cal where
  work : Nat := 0
  before : Nat := 0
  since : Nat := 0
  id : Option Nat := none
  retry : Option Nat := none
  values : List Byte := []
  stored : Option CalRec := none
  deriving DecidableEq, Repr

/-! ### Colour hold (chapter 12) -/

/-- An exposure of colour hold (R366): page, planned TB1 time in units of 125 ps, planned LPOS in nm, whether the band
sequence was known to be in step. -/
structure ChPage where
  q : Nat
  t : Nat
  pos : Int
  ok : Bool := true
  deriving DecidableEq, Repr

/-- A bar of colour hold beyond its attributes: causes of HOLD, image position of the newest usable page of its band, page
of the last tone update, patches captured since START or CAPTURE_REF, runs of missing judgements by nozzle, ports whose
alarm has been recorded, offset changes of group 0 with their positions, health changes not yet committed (nozzle, state),
zones at a limit. -/
structure ChBar where
  frozen : Bool := false
  tile : Bool := false
  stale : Bool := false
  lastUse : Int := 0
  lastUpd : Option Nat := none
  captured : List Nat := []
  misses : List (Nat × Nat) := []
  alarms : List Nat := []
  trim : List (Int × Int) := []
  marks : List (Nat × Nat) := []
  limits : Nat := 0
  deriving DecidableEq, Repr

/-- Colour hold's loop state (R362 to R384): next page, planned exposure, exposures not yet evaluated, first page of a lost
band sequence, records read, newest usable sample of each patch and band (position, reflectance), newest dark sample of each
camera and ROI (TB1, value), newest ΔE00 of each patch. -/
structure ChLoop where
  next : Option Nat := none
  plan : Option ChPage := none
  exposed : List ChPage := []
  resync : Option Nat := none
  recs : List (List Nat) := []
  samples : List ((Nat × Nat) × (Int × Nat)) := []
  darks : List ((Nat × Nat) × (Nat × Nat)) := []
  des : List (Nat × Nat) := []
  bars : List ChBar := List.replicate 8 {}
  deriving DecidableEq, Repr

/-! ### Gatehouse (chapter 17) -/

/-- Gatehouse's own state (R524 to R530): X₀ of the test print under way, script run and its error, the
values of `gh_spit_lines`, `gh_spit_interval_s` and `gh_runin_mm` taken up at the last entry (R532), results since the start
of the last test print. -/
structure Gh where
  print : Option Int := none
  ran : Bool := false
  err : Bool := false
  spitLines : Nat := 1000
  interval : Nat := 600
  runin : Nat := 200
  x0 : Int := 0
  pages : Nat := 0
  measured : Nat := 0
  missing : List Nat := List.replicate 8 0
  ey : List Int := List.replicate 8 0
  ex : List Int := List.replicate 8 0
  abs : List Nat := List.replicate 24 0
  deriving DecidableEq, Repr

/-! ### A die, the package, the block -/

/-- A bar die: everything of it that no attribute shows. -/
structure Die where
  mbx : Mbx
  sb : StatusBlock
  queues : List Queue
  /-- the AO front buffer, oldest first (R492) -/
  front : List Evt
  buckets : List Bucket
  /-- occurrences folded by backlog since the last EVT_BACKLOG (R493) -/
  folded : Nat
  erSel : Nat
  tbs : List Tb
  tbChanges : List TbChange
  pulses : List Pulse
  /-- per capture input: an accepted edge not yet taken up (R404) -/
  capFresh : List Bool
  ptp : List PtpPort
  itv : Itv
  /-- the die's Rildin runs -/
  up : Bool
  enc : List Enc
  pos : PosUnit
  /-- HWM has begun in the present printing period (R265) -/
  hwmOn : Bool
  /-- the causes of HELD or ESTOP are clear and the first forward pair is awaited (R169) -/
  leaving : Bool
  ports : List Port
  spits : List SpitJob
  changes : List LineChange
  banks : List Bank
  /-- last swap decided of each context: bank in force from a line on, newest first (R216, R224) -/
  bankFrom : List (Nat × Nat × Nat)
  codec : Codec
  ctxs : List Ctx
  /-- cached Context Table entries, host words (R73) -/
  ctxCache : List (Nat × List Nat)
  streams : List Stream
  stop : Stop
  cams : List Cam
  /-- memory-path frames under way in the ISP: camera ID and frame (R305) -/
  ispRun : List Frame
  chains : List Chain
  /-- cached Lamp Table entries -/
  lamps : List (Nat × Lamp)
  mx : Matrix
  sensors : List Sensor
  /-- a stop of R453 in progress: its start on the model clock and the sensors that caused it -/
  crit : Option (Nat × List Nat)
  cals : List Cal
  /-- NOR copies of `dither_tile` and `base_table` (R574) and commits of them that wait for NV writing -/
  nvTables : List (RegKey × List Byte)
  nvWait : List RegKey
  /-- lines named by LE_DROP, LE_DATA_LATE and LE_SEAM while colour hold runs the bar (R368): context, first, last -/
  lineFaults : List (Nat × Nat × Nat)
  /-- domains switching on (R504, R533): deferral record, domains still to come, whether the die boots -/
  pdWork : List (Nat × Nat × Bool)
  deriving DecidableEq, Repr

/-- What a Kennel checkpoint carries besides the package objects' registers (R480). -/
structure PkgState where
  deferred : List Deferred
  sources : List Source
  servos : List Servo
  nodes : List Node
  nodeTop : Nat
  peers : List Peer
  routes : List Route
  /-- the address that the master has given this package (R431) -/
  base : Nat
  /-- SYS_ADDR_FULL has been recorded (R431) -/
  addrFullSeen : Bool
  ch : ChLoop
  deriving DecidableEq, Repr

/-- A Kennel slot (R477, R478): a slot without header is not valid. -/
structure KennelSlot where
  valid : Bool
  seq : Nat
  evtSeq : Nat
  length : Nat
  tb0 : Nat
  regs : List (RegKey × Nat)
  blks : List (RegKey × List Byte)
  pkg : PkgState
  deriving DecidableEq, Repr

/-- What leaves the block: read data, messages, datagrams, pulses (the outputs of the latest step). -/
inductive Output where
  /-- completion data of a host read -/
  | read (v : Nat)
  | readBytes (b : List Byte)
  /-- an MSI-X message (R50, R104) -/
  | msix (ep vec : Nat)
  /-- a UDP datagram from die `die` port `eth` -/
  | udp (die eth ip port : Nat) (data : List Byte)
  /-- an ITV frame on a link: 0 to 7 ITV port of that die, 8 to 23 tunnel peer -/
  | itv (link : Nat) (f : ItvFrame)
  /-- an ITV control block of the given type -/
  | itvCtl (die type : Nat)
  /-- a PTP message of the given type sent by a port -/
  | ptp (die port type : Nat)
  /-- an edge of a pulse output at a time in units of 125 ps -/
  | pulse (die out : Nat) (at_ : Nat)
  /-- a slot's bits on the data lanes of a head port, in the order sent (R183, R184) -/
  | shift (die port slot : Nat) (dat0 dat1 : List Bool)
  /-- LAT has copied a slot into the head's latch (R186) -/
  | latch (die port slot : Nat)
  /-- a FIRE rising edge of a row group, TB1 in units of 125 ps -/
  | fire (die port g : Nat) (at_ : Nat)
  /-- a GRT datagram sent on a stream to its peer (Ethernet port, address, UDP port): type 2 ACK, 3 NAK (R276, R277) -/
  | grt (die stream : Nat) (peer : Option (Nat × Nat × Nat)) (type e flags c : Nat)
  /-- a frame sent on a lamp chain: its shares in the order sent (R337) -/
  | chain (die chain : Nat) (shares : List Nat)
  /-- a row of the matrix with the on-time of each column in ns; row 16 dark (R351) -/
  | matrix (die row : Nat) (on : List Nat)
  /-- an I2C transaction of a camera port: device address, bytes written, number of bytes read (R325) -/
  | i2c (die port addr : Nat) (written : List Byte) (read : Nat)
  deriving DecidableEq, Repr

/-- Everything of the block but its memories and its queue of commands. -/
structure Hw where
  dies : List Die
  regs : List (RegKey × Nat)
  blks : List (RegKey × List Byte)
  stages : List Stage
  /-- elapsed time since power-on in ns: the model's own clock for timers that no time base keeps -/
  clk : Nat
  /-- the model's own counter of free values taken (assumption log 3) -/
  free : Nat
  /-- the model's own counter naming deferred changes -/
  nextId : Nat
  replies : List ((Origin × Nat) × Reply)
  bl : Nat
  mode : Mode
  /-- the die that holds the LEAD token, if any (R16, R475) -/
  lead : Option Nat
  leadSt : List LeadSt
  /-- between steps 1 and 5 of a takeover: the released die (R483, R484) -/
  takeover : Option Nat
  /-- a checkpoint write under way: slot and its content (R477) -/
  kennelWriting : Option (Nat × KennelSlot)
  kennel : List KennelSlot
  kennelFailRun : Nat
  /-- model clock at the snapshot of the newest valid checkpoint, and whether KENNEL_LATE was recorded since (R479) -/
  kennelAt : Nat
  kennelLateSeen : Bool
  /-- deferral records of LEAD_CTRL MOVE, CHECKPOINT and REPAIR under way (R489, R503) -/
  moving : Option Nat
  ckptWork : Option Nat
  repairWork : Option Nat
  /-- the one automatic repair after a takeover is still to come (R488) -/
  repairArmed : Bool
  /-- the mode that SAFE overrides (R476, R522) -/
  safeFrom : Mode
  pkg : PkgState
  faultMask : Nat
  /-- the event ring, newest first (R490) -/
  ring : List Entry
  evtNext : Nat
  evtDurable : Nat
  limits : List Limit
  fwSlots : List FwSlot
  fw : Option FwSession
  fwBooted : Option Nat
  bootWatch : Bool
  eps : List Endpoint
  /-- tunnel links, one per entry of `tun_peers` (R424) -/
  tunnels : List Link
  /-- press handshake inputs as accepted, bit 0 PRESS_RUN, 1 HEAD_PARKED, 2 E_STOP_L low (R166) -/
  hsIn : Nat
  /-- E_STOP_L was accepted high while PRESS_RUN was accepted low since ESTOP (R523) -/
  ghRelease : Bool
  /-- deferral records of MODE_SET HOSTED that wait for standstill (R522) -/
  hostedWait : List Nat
  /-- PORST_L is low (R508, R543) -/
  porst : Bool
  /-- the dies that answered at power-up (R521), as a mask -/
  alive : Nat
  /-- the image slots as package NV holds them, while changes of their states wait in AO (R517) -/
  fwKept : Option (List FwSlot)
  /-- a PKG_RESET whose reply is still to be sent (R533) -/
  resetDue : Option (Origin × Nat)
  railFault : Bool
  clkFault : Bool
  /-- output levels that HS_FORCE holds (R172) -/
  hsForce : Option Nat
  /-- levels of the output pins, in the bit order of `hs_out` (R164) -/
  hsPins : Nat
  /-- Rildin has started the line engine: the handshake outputs are driven and the input filters run (R165, R578) -/
  hsOn : Bool
  /-- inputs whose first level has been accepted, bits as `hsIn` (R578) -/
  hsSeen : Nat
  gh : Gh
  /-- stores of the present step: die, address, bytes; empty between steps -/
  stores : List (Nat × Nat × List Byte)
  /-- memory contents lost in the present step: die, first and last address; empty between steps -/
  wipes : List (Nat × Nat × Nat)
  /-- outputs of the latest step -/
  out : List Output
  deriving DecidableEq, Repr

/-- The state of the block. -/
structure State where
  /-- commands waiting, first in, first out -/
  pending : List Instr
  /-- the device memory of each die as a canonical list of cells -/
  mems : List (List Host.Cell)
  hw : Hw
  deriving DecidableEq, Repr

/-- Why the block stops: only on a command that names a unit the package does not have. -/
inductive Fault where
  /-- raised by every meaning whose row names a die outside the package (R3, R10): safe, no such access exists -/
  | noSuchDie
  /-- raised by every meaning whose row names a port, queue, channel or other unit that a die does not have (R10): safe -/
  | noSuchUnit
  deriving DecidableEq, Repr

/-- Why a command has no meaning. -/
inductive Refusal where
  /-- raised by an arm of `exec` that has no meaning yet: safe -/
  | notModelled (mnemonic : String)
  deriving DecidableEq, Repr

/-! ### Reset -/

/-- The number of bar dies of the package that `State.reset` describes, a DKG8 (assumption log 1). -/
def dieCount : Nat := 8

/-- The mailbox hardware of die `d` at reset (the doorbell register table of R40). -/
def Mbx.reset (d : Nat) : Mbx :=
  { slots := List.replicate 16 (List.replicate 256 0), busy := 0, done := 0, irqEn := 0xFFFF, vec := d, busyHits := 0,
    work := [], kept := [], deferred := [] }

/-- The status block before its first update (the status block table). -/
def StatusBlock.reset : StatusBlock :=
  { gen := 0, heartbeat := 0, mode := 0, lead := 0, tb1 := 0, evtSeq := 0, busy := 0, gh := List.replicate 144 0 }

/-- Die `d` before power-up: every domain off, time bases at 0 (R388), no queue enabled (R101). -/
def Die.reset (d : Nat) : Die :=
  { mbx := Mbx.reset d, sb := StatusBlock.reset, queues := List.replicate 64 {}, front := [], buckets := [], folded := 0,
    erSel := 0, tbs := List.replicate 4 {}, tbChanges := [], pulses := List.replicate 8 {},
    capFresh := List.replicate 4 false, ptp := List.replicate 2 {}, itv := {}, up := false
    , enc := List.replicate 2 {}, pos := {}, hwmOn := false, leaving := false, ports := List.replicate 24 {}, spits := [],
    changes := [], banks := List.replicate 2 {}, bankFrom := [], codec := {}, ctxs := [], ctxCache := [],
    streams := List.replicate 16 {}, stop := {}
    , cams := List.replicate 2 {}, ispRun := [], chains := List.replicate 4 {}, lamps := [], mx := {}
    , sensors := List.replicate 64 {}, crit := none, cals := List.replicate 5 {}, nvTables := [], nvWait := [], lineFaults := [], pdWork := []
  }

/-- The lead state before any boot. -/
def PkgState.reset : PkgState :=
  { deferred := [], sources := [], servos := List.replicate 4 {}, nodes := [], nodeTop := 0, peers := [], routes := [], base := 0,
    addrFullSeen := false
  , ch := {}
  }

/-- An erased Kennel slot. -/
def KennelSlot.blank : KennelSlot :=
  { valid := false, seq := 0, evtSeq := 0, length := 0, tb0 := 0, regs := [], blks := [], pkg := PkgState.reset }

/-- An endpoint after a Function Level Reset: apertures disabled, MSI-X table clear (R427, R428). -/
def Endpoint.reset : Endpoint := { msixTable := List.replicate 256 0, apertures := List.replicate 16 0 }

/-- The block held in power-on reset (PORST_L low), before its first boot. -/
def Hw.reset : Hw :=
  { dies := (List.range dieCount).map Die.reset, regs := [], blks := [], stages := [], clk := 0, free := 0, nextId := 1,
    replies := [], bl := 2, mode := .boot, lead := none, leadSt := [.faulted, .faulted], takeover := none,
    kennelWriting := none, kennel := [KennelSlot.blank, KennelSlot.blank], kennelFailRun := 0, kennelAt := 0,
    kennelLateSeen := false, moving := none, ckptWork := none, repairWork := none, repairArmed := false, safeFrom := .boot,
    pkg := PkgState.reset, faultMask := 0, ring := [], evtNext := 1, evtDurable := 0, limits := [],
    fwSlots := [⟨.active, [], Config.imageVersion [], 0, false, true, 6⟩, FwSlot.blank], fw := none, fwBooted := none,
    bootWatch := false, eps := [Endpoint.reset, Endpoint.reset], tunnels := List.replicate 16 {},
    hsIn := 0, ghRelease := false, hostedWait := [], porst := true, alive := 0, fwKept := none,
    resetDue := none, railFault := false, clkFault := false,
    hsForce := none, hsPins := 0, hsOn := false, hsSeen := 0,
    gh := {},
    stores := [], wipes := [], out := [] }

/-- The block right after reset: no command waits, no memory byte is listed. -/
def State.reset : State := { pending := [], mems := List.replicate dieCount [], hw := Hw.reset }

end Sys2Proof.Machine
end

