-- ==== Sys2Proof/Machine/AttrTable.lean ====
section
/-!
DEFINITION. The attribute maps of the chapters (R10, R61, R72 and each chapter's object tables), one row per attribute:
class, first and last instance, first and last identifier, width in bits, access code, reset value, stated range,
line-effective mark and BL2 mark. The names under `A` are the spec's. A row of more than 64 bits is a block attribute.
-/
namespace Sys2Proof.Machine

namespace A
/-- `die_index` (class 0x01). -/
abbrev die_index : AttrId := ⟨0x01, 0x0001⟩
/-- `step` (class 0x01). -/
abbrev step : AttrId := ⟨0x01, 0x0002⟩
/-- `bl` (class 0x01). -/
abbrev bl : AttrId := ⟨0x01, 0x0003⟩
/-- `bl_strap` (class 0x01). -/
abbrev bl_strap : AttrId := ⟨0x01, 0x0004⟩
/-- `bl_nv` (class 0x01). -/
abbrev bl_nv : AttrId := ⟨0x01, 0x0005⟩
/-- `mbx_timeout` (class 0x01). -/
abbrev mbx_timeout : AttrId := ⟨0x01, 0x0010⟩
/-- `mbx_late_replies` (class 0x01). -/
abbrev mbx_late_replies : AttrId := ⟨0x01, 0x0011⟩
/-- `mbx_timeouts` (class 0x01). -/
abbrev mbx_timeouts : AttrId := ⟨0x01, 0x0012⟩
/-- `rmbx_port_en` (class 0x01). -/
abbrev rmbx_port_en : AttrId := ⟨0x01, 0x0013⟩
/-- `rmbx_dup_window` (class 0x01). -/
abbrev rmbx_dup_window : AttrId := ⟨0x01, 0x0014⟩
/-- `rmbx_bad` (class 0x01). -/
abbrev rmbx_bad : AttrId := ⟨0x01, 0x0015⟩
/-- `stage_idle` (class 0x01). -/
abbrev stage_idle : AttrId := ⟨0x01, 0x0016⟩
/-- `sources_seen` (class 0x01). -/
abbrev sources_seen : AttrId := ⟨0x01, 0x0020⟩
/-- `cfg_changes` (class 0x01). -/
abbrev cfg_changes : AttrId := ⟨0x01, 0x0021⟩
/-- `q_enabled` (class 0x02). -/
abbrev q_enabled : AttrId := ⟨0x02, 0x0001⟩
/-- `q_size` (class 0x02). -/
abbrev q_size : AttrId := ⟨0x02, 0x0002⟩
/-- `q_cfg` (class 0x02). -/
abbrev q_cfg : AttrId := ⟨0x02, 0x0003⟩
/-- `q_depth` (class 0x02). -/
abbrev q_depth : AttrId := ⟨0x02, 0x0004⟩
/-- `q_max_depth` (class 0x02). -/
abbrev q_max_depth : AttrId := ⟨0x02, 0x0005⟩
/-- `q_pushes` (class 0x02). -/
abbrev q_pushes : AttrId := ⟨0x02, 0x0010⟩
/-- `q_pops` (class 0x02). -/
abbrev q_pops : AttrId := ⟨0x02, 0x0011⟩
/-- `q_underruns` (class 0x02). -/
abbrev q_underruns : AttrId := ⟨0x02, 0x0012⟩
/-- `q_overflows` (class 0x02). -/
abbrev q_overflows : AttrId := ⟨0x02, 0x0013⟩
/-- `q_rewinds` (class 0x02). -/
abbrev q_rewinds : AttrId := ⟨0x02, 0x0014⟩
/-- `q_oversize` (class 0x02). -/
abbrev q_oversize : AttrId := ⟨0x02, 0x0015⟩
/-- `q_pkt_bad` (class 0x02). -/
abbrev q_pkt_bad : AttrId := ⟨0x02, 0x0016⟩
/-- `enc_enable` (class 0x03). -/
abbrev enc_enable : AttrId := ⟨0x03, 0x0001⟩
/-- `enc_mode` (class 0x03). -/
abbrev enc_mode : AttrId := ⟨0x03, 0x0002⟩
/-- `dir_invert` (class 0x03). -/
abbrev dir_invert : AttrId := ⟨0x03, 0x0003⟩
/-- `glitch_ns` (class 0x03). -/
abbrev glitch_ns : AttrId := ⟨0x03, 0x0004⟩
/-- `scale` (class 0x03). -/
abbrev scale : AttrId := ⟨0x03, 0x0005⟩
/-- `raw_count` (class 0x03). -/
abbrev raw_count : AttrId := ⟨0x03, 0x0006⟩
/-- `count` (class 0x03). -/
abbrev count : AttrId := ⟨0x03, 0x0007⟩
/-- `enc_flags` (class 0x03). -/
abbrev enc_flags : AttrId := ⟨0x03, 0x0008⟩
/-- `slip_pending` (class 0x03). -/
abbrev slip_pending : AttrId := ⟨0x03, 0x0009⟩
/-- `slip_slew` (class 0x03). -/
abbrev slip_slew : AttrId := ⟨0x03, 0x000A⟩
/-- `index_period` (class 0x03). -/
abbrev index_period : AttrId := ⟨0x03, 0x0010⟩
/-- `index_window` (class 0x03). -/
abbrev index_window : AttrId := ⟨0x03, 0x0011⟩
/-- `index_gate` (class 0x03). -/
abbrev index_gate : AttrId := ⟨0x03, 0x0012⟩
/-- `home_on_index` (class 0x03). -/
abbrev home_on_index : AttrId := ⟨0x03, 0x0013⟩
/-- `home_value` (class 0x03). -/
abbrev home_value : AttrId := ⟨0x03, 0x0014⟩
/-- `mag_home` (class 0x03). -/
abbrev mag_home : AttrId := ⟨0x03, 0x0015⟩
/-- `mag_debounce_us` (class 0x03). -/
abbrev mag_debounce_us : AttrId := ⟨0x03, 0x0016⟩
/-- `mag_state` (class 0x03). -/
abbrev mag_state : AttrId := ⟨0x03, 0x0017⟩
/-- `abs_bits` (class 0x03). -/
abbrev abs_bits : AttrId := ⟨0x03, 0x0020⟩
/-- `abs_gray` (class 0x03). -/
abbrev abs_gray : AttrId := ⟨0x03, 0x0021⟩
/-- `abs_flag_bits` (class 0x03). -/
abbrev abs_flag_bits : AttrId := ⟨0x03, 0x0022⟩
/-- `abs_crc` (class 0x03). -/
abbrev abs_crc : AttrId := ⟨0x03, 0x0023⟩
/-- `abs_clk_khz` (class 0x03). -/
abbrev abs_clk_khz : AttrId := ⟨0x03, 0x0024⟩
/-- `abs_delay_ns` (class 0x03). -/
abbrev abs_delay_ns : AttrId := ⟨0x03, 0x0025⟩
/-- `abs_timeout_us` (class 0x03). -/
abbrev abs_timeout_us : AttrId := ⟨0x03, 0x0026⟩
/-- `abs_period_us` (class 0x03). -/
abbrev abs_period_us : AttrId := ⟨0x03, 0x0027⟩
/-- `abs_cpl` (class 0x03). -/
abbrev abs_cpl : AttrId := ⟨0x03, 0x0028⟩
/-- `abs_window` (class 0x03). -/
abbrev abs_window : AttrId := ⟨0x03, 0x0029⟩
/-- `abs_request` (class 0x03). -/
abbrev abs_request : AttrId := ⟨0x03, 0x002A⟩
/-- `abs_last` (class 0x03). -/
abbrev abs_last : AttrId := ⟨0x03, 0x002B⟩
/-- `quad_errs` (class 0x03). -/
abbrev quad_errs : AttrId := ⟨0x03, 0x0030⟩
/-- `index_errs` (class 0x03). -/
abbrev index_errs : AttrId := ⟨0x03, 0x0031⟩
/-- `slips` (class 0x03). -/
abbrev slips : AttrId := ⟨0x03, 0x0032⟩
/-- `slip_total` (class 0x03). -/
abbrev slip_total : AttrId := ⟨0x03, 0x0033⟩
/-- `abs_errs` (class 0x03). -/
abbrev abs_errs : AttrId := ⟨0x03, 0x0034⟩
/-- `pos_source` (class 0x04). -/
abbrev pos_source : AttrId := ⟨0x04, 0x0001⟩
/-- `wpos` (class 0x04). -/
abbrev wpos : AttrId := ⟨0x04, 0x0002⟩
/-- `lpos` (class 0x04). -/
abbrev lpos : AttrId := ⟨0x04, 0x0003⟩
/-- `speed` (class 0x04). -/
abbrev speed : AttrId := ⟨0x04, 0x0004⟩
/-- `accel` (class 0x04). -/
abbrev accel : AttrId := ⟨0x04, 0x0005⟩
/-- `pos_flags` (class 0x04). -/
abbrev pos_flags : AttrId := ⟨0x04, 0x0006⟩
/-- `pair_seq` (class 0x04). -/
abbrev pair_seq : AttrId := ⟨0x04, 0x0007⟩
/-- `pair` (class 0x04). -/
abbrev pair : AttrId := ⟨0x04, 0x0008⟩
/-- `pair_interval_ns` (class 0x04). -/
abbrev pair_interval_ns : AttrId := ⟨0x04, 0x0010⟩
/-- `speed_window_us` (class 0x04). -/
abbrev speed_window_us : AttrId := ⟨0x04, 0x0011⟩
/-- `still_time_us` (class 0x04). -/
abbrev still_time_us : AttrId := ⟨0x04, 0x0012⟩
/-- `stretch_ref` (class 0x04). -/
abbrev stretch_ref : AttrId := ⟨0x04, 0x0020⟩
/-- `stretch` (class 0x04). -/
abbrev stretch : AttrId := ⟨0x04, 0x0021⟩
/-- `stretch_raw` (class 0x04). -/
abbrev stretch_raw : AttrId := ⟨0x04, 0x0022⟩
/-- `stretch_init` (class 0x04). -/
abbrev stretch_init : AttrId := ⟨0x04, 0x0023⟩
/-- `stretch_trim` (class 0x04). -/
abbrev stretch_trim : AttrId := ⟨0x04, 0x0024⟩
/-- `stretch_window_mm` (class 0x04). -/
abbrev stretch_window_mm : AttrId := ⟨0x04, 0x0025⟩
/-- `stretch_tc_mm` (class 0x04). -/
abbrev stretch_tc_mm : AttrId := ⟨0x04, 0x0026⟩
/-- `stretch_limit_ppm` (class 0x04). -/
abbrev stretch_limit_ppm : AttrId := ⟨0x04, 0x0027⟩
/-- `stretch_min_speed` (class 0x04). -/
abbrev stretch_min_speed : AttrId := ⟨0x04, 0x0028⟩
/-- `stretch_windows` (class 0x04). -/
abbrev stretch_windows : AttrId := ⟨0x04, 0x0029⟩
/-- `cmp_state` (class 0x05). -/
abbrev cmp_state : AttrId := ⟨0x05, 0x0001⟩
/-- `cmp_value` (class 0x05). -/
abbrev cmp_value : AttrId := ⟨0x05, 0x0002⟩
/-- `cmp_ctl` (class 0x05). -/
abbrev cmp_ctl : AttrId := ⟨0x05, 0x0003⟩
/-- `cmp_step` (class 0x05). -/
abbrev cmp_step : AttrId := ⟨0x05, 0x0004⟩
/-- `cmp_fires` (class 0x05). -/
abbrev cmp_fires : AttrId := ⟨0x05, 0x0005⟩
/-- `cmp_missed` (class 0x05). -/
abbrev cmp_missed : AttrId := ⟨0x05, 0x0006⟩
/-- `cmp_last_tb1` (class 0x05). -/
abbrev cmp_last_tb1 : AttrId := ⟨0x05, 0x0007⟩
/-- `le_state` (class 0x06). -/
abbrev le_state : AttrId := ⟨0x06, 0x0001⟩
/-- `hwm` (class 0x06). -/
abbrev hwm : AttrId := ⟨0x06, 0x0002⟩
/-- `hs_out` (class 0x06). -/
abbrev hs_out : AttrId := ⟨0x06, 0x0003⟩
/-- `hs_in` (class 0x06). -/
abbrev hs_in : AttrId := ⟨0x06, 0x0004⟩
/-- `speed_limit` (class 0x06). -/
abbrev speed_limit : AttrId := ⟨0x06, 0x0005⟩
/-- `line_pitch` (class 0x06). -/
abbrev line_pitch : AttrId := ⟨0x06, 0x0010⟩
/-- `bar_offset_nm` (class 0x06). -/
abbrev bar_offset_nm : AttrId := ⟨0x06, 0x0011⟩
/-- `retime_tol_ps` (class 0x06). -/
abbrev retime_tol_ps : AttrId := ⟨0x06, 0x0012⟩
/-- `arm_lock_ns` (class 0x06). -/
abbrev arm_lock_ns : AttrId := ⟨0x06, 0x0013⟩
/-- `predict_horizon` (class 0x06). -/
abbrev predict_horizon : AttrId := ⟨0x06, 0x0014⟩
/-- `use_accel` (class 0x06). -/
abbrev use_accel : AttrId := ⟨0x06, 0x0015⟩
/-- `rearm_counts` (class 0x06). -/
abbrev rearm_counts : AttrId := ⟨0x06, 0x0016⟩
/-- `speed_lookahead_ms` (class 0x06). -/
abbrev speed_lookahead_ms : AttrId := ⟨0x06, 0x0017⟩
/-- `require_press_run` (class 0x06). -/
abbrev require_press_run : AttrId := ⟨0x06, 0x0018⟩
/-- `hs_filter_us` (class 0x06). -/
abbrev hs_filter_us : AttrId := ⟨0x06, 0x0019⟩
/-- `drops_speed` (class 0x06). -/
abbrev drops_speed : AttrId := ⟨0x06, 0x0020⟩
/-- `drops_data` (class 0x06). -/
abbrev drops_data : AttrId := ⟨0x06, 0x0021⟩
/-- `late_fires` (class 0x06). -/
abbrev late_fires : AttrId := ⟨0x06, 0x0022⟩
/-- `max_late_ns` (class 0x06). -/
abbrev max_late_ns : AttrId := ⟨0x06, 0x0023⟩
/-- `rearms` (class 0x06). -/
abbrev rearms : AttrId := ⟨0x06, 0x0024⟩
/-- `reversals` (class 0x06). -/
abbrev reversals : AttrId := ⟨0x06, 0x0025⟩
/-- `seams` (class 0x06). -/
abbrev seams : AttrId := ⟨0x06, 0x0026⟩
/-- `defect_lost` (class 0x06). -/
abbrev defect_lost : AttrId := ⟨0x06, 0x0027⟩
/-- `port_offset_nm` (class 0x06). -/
abbrev port_offset_nm : AttrId := ⟨0x06, 0x0001⟩
/-- `fire_lead_ns` (class 0x06). -/
abbrev fire_lead_ns : AttrId := ⟨0x06, 0x0002⟩
/-- `min_fire_period_ns` (class 0x06). -/
abbrev min_fire_period_ns : AttrId := ⟨0x06, 0x0003⟩
/-- `commit_lead_ns` (class 0x06). -/
abbrev commit_lead_ns : AttrId := ⟨0x06, 0x0004⟩
/-- `late_budget_ns` (class 0x06). -/
abbrev late_budget_ns : AttrId := ⟨0x06, 0x0005⟩
/-- `rg_offset_nm` (class 0x06). -/
abbrev rg_offset_nm : AttrId := ⟨0x06, 0x0010⟩
/-- `armed_line` (class 0x06). -/
abbrev armed_line : AttrId := ⟨0x06, 0x0020⟩
/-- `armed_time` (class 0x06). -/
abbrev armed_time : AttrId := ⟨0x06, 0x0021⟩
/-- `last_fire_time` (class 0x06). -/
abbrev last_fire_time : AttrId := ⟨0x06, 0x0022⟩
/-- `last_late_ns` (class 0x06). -/
abbrev last_late_ns : AttrId := ⟨0x06, 0x0023⟩
/-- `hp_enable` (class 0x07). -/
abbrev hp_enable : AttrId := ⟨0x07, 0x0001⟩
/-- `hp_state` (class 0x07). -/
abbrev hp_state : AttrId := ⟨0x07, 0x0002⟩
/-- `hp_gen` (class 0x07). -/
abbrev hp_gen : AttrId := ⟨0x07, 0x0003⟩
/-- `greyscale` (class 0x07). -/
abbrev greyscale : AttrId := ⟨0x07, 0x0004⟩
/-- `nozzles` (class 0x07). -/
abbrev nozzles : AttrId := ⟨0x07, 0x0005⟩
/-- `row_groups` (class 0x07). -/
abbrev row_groups : AttrId := ⟨0x07, 0x0006⟩
/-- `rg_layout` (class 0x07). -/
abbrev rg_layout : AttrId := ⟨0x07, 0x0007⟩
/-- `shift_order` (class 0x07). -/
abbrev shift_order : AttrId := ⟨0x07, 0x0008⟩
/-- `bit_planes` (class 0x07). -/
abbrev bit_planes : AttrId := ⟨0x07, 0x0009⟩
/-- `fire_width_ns` (class 0x07). -/
abbrev fire_width_ns : AttrId := ⟨0x07, 0x000A⟩
/-- `fire_spacing_ns` (class 0x07). -/
abbrev fire_spacing_ns : AttrId := ⟨0x07, 0x000B⟩
/-- `lat_setup_ns` (class 0x07). -/
abbrev lat_setup_ns : AttrId := ⟨0x07, 0x000C⟩
/-- `fire_hold_ns` (class 0x07). -/
abbrev fire_hold_ns : AttrId := ⟨0x07, 0x000D⟩
/-- `pol_invert` (class 0x07). -/
abbrev pol_invert : AttrId := ⟨0x07, 0x000E⟩
/-- `vod_sel` (class 0x07). -/
abbrev vod_sel : AttrId := ⟨0x07, 0x000F⟩
/-- `rg_line_delay` (class 0x07). -/
abbrev rg_line_delay : AttrId := ⟨0x07, 0x0010⟩
/-- `head_id` (class 0x07). -/
abbrev head_id : AttrId := ⟨0x07, 0x0020⟩
/-- `head_temp` (class 0x07). -/
abbrev head_temp : AttrId := ⟨0x07, 0x0021⟩
/-- `head_temp_tb1` (class 0x07). -/
abbrev head_temp_tb1 : AttrId := ⟨0x07, 0x0022⟩
/-- `head_query` (class 0x07). -/
abbrev head_query : AttrId := ⟨0x07, 0x0023⟩
/-- `query_khz` (class 0x07). -/
abbrev query_khz : AttrId := ⟨0x07, 0x0024⟩
/-- `query_on_enable` (class 0x07). -/
abbrev query_on_enable : AttrId := ⟨0x07, 0x0025⟩
/-- `fault_action` (class 0x07). -/
abbrev fault_action : AttrId := ⟨0x07, 0x0030⟩
/-- `hp_fault` (class 0x07). -/
abbrev hp_fault : AttrId := ⟨0x07, 0x0031⟩
/-- `lines_shifted` (class 0x07). -/
abbrev lines_shifted : AttrId := ⟨0x07, 0x0040⟩
/-- `reshifts` (class 0x07). -/
abbrev reshifts : AttrId := ⟨0x07, 0x0041⟩
/-- `fire_pulses` (class 0x07). -/
abbrev fire_pulses : AttrId := ⟨0x07, 0x0042⟩
/-- `query_errs` (class 0x07). -/
abbrev query_errs : AttrId := ⟨0x07, 0x0043⟩
/-- `lines_lost` (class 0x07). -/
abbrev lines_lost : AttrId := ⟨0x07, 0x0044⟩
/-- `spit_lines` (class 0x07). -/
abbrev spit_lines : AttrId := ⟨0x07, 0x0045⟩
/-- `spit_level` (class 0x07). -/
abbrev spit_level : AttrId := ⟨0x07, 0x0050⟩
/-- `spit_pattern` (class 0x07). -/
abbrev spit_pattern : AttrId := ⟨0x07, 0x0051⟩
/-- `spit_user` (class 0x07). -/
abbrev spit_user : AttrId := ⟨0x07, 0x0052⟩
/-- `spit_period_ns` (class 0x07). -/
abbrev spit_period_ns : AttrId := ⟨0x07, 0x0053⟩
/-- `run_ahead` (class 0x08). -/
abbrev run_ahead : AttrId := ⟨0x08, 0x0001⟩
/-- `squash_horizon` (class 0x08). -/
abbrev squash_horizon : AttrId := ⟨0x08, 0x0002⟩
/-- `xweb_margin` (class 0x08). -/
abbrev xweb_margin : AttrId := ⟨0x08, 0x0003⟩
/-- `dither_xoff` (class 0x08). -/
abbrev dither_xoff : AttrId := ⟨0x08, 0x0004⟩
/-- `dither_yoff` (class 0x08). -/
abbrev dither_yoff : AttrId := ⟨0x08, 0x0005⟩
/-- `store_base` (class 0x08). -/
abbrev store_base : AttrId := ⟨0x08, 0x0006⟩
/-- `dither_tile` (class 0x08). -/
abbrev dither_tile : AttrId := ⟨0x08, 0x0010⟩
/-- `blend_masks` (class 0x08). -/
abbrev blend_masks : AttrId := ⟨0x08, 0x0011⟩
/-- `level_weight` (class 0x08). -/
abbrev level_weight : AttrId := ⟨0x08, 0x0012⟩
/-- `zone_gain` (class 0x08). -/
abbrev zone_gain : AttrId := ⟨0x08, 0x0013⟩
/-- `health_map` (class 0x08). -/
abbrev health_map : AttrId := ⟨0x08, 0x0014⟩
/-- `base_table` (class 0x08). -/
abbrev base_table : AttrId := ⟨0x08, 0x0015⟩
/-- `squashes` (class 0x08). -/
abbrev squashes : AttrId := ⟨0x08, 0x0020⟩
/-- `retones` (class 0x08). -/
abbrev retones : AttrId := ⟨0x08, 0x0021⟩
/-- `swaps_late` (class 0x08). -/
abbrev swaps_late : AttrId := ⟨0x08, 0x0022⟩
/-- `spill_lost` (class 0x08). -/
abbrev spill_lost : AttrId := ⟨0x08, 0x0023⟩
/-- `level_clamps` (class 0x08). -/
abbrev level_clamps : AttrId := ⟨0x08, 0x0024⟩
/-- `stale_reshifts` (class 0x08). -/
abbrev stale_reshifts : AttrId := ⟨0x08, 0x0025⟩
/-- `xweb_shift` (class 0x08). -/
abbrev xweb_shift : AttrId := ⟨0x08, 0x0001⟩
/-- `slot_next` (class 0x08). -/
abbrev slot_next : AttrId := ⟨0x08, 0x0002⟩
/-- `slot_context` (class 0x08). -/
abbrev slot_context : AttrId := ⟨0x08, 0x0003⟩
/-- `slots_prepared` (class 0x08). -/
abbrev slots_prepared : AttrId := ⟨0x08, 0x0004⟩
/-- `slots_staged` (class 0x08). -/
abbrev slots_staged : AttrId := ⟨0x08, 0x0005⟩
/-- `toned_max` (class 0x08). -/
abbrev toned_max : AttrId := ⟨0x08, 0x0006⟩
/-- `bank_state` (class 0x09). -/
abbrev bank_state : AttrId := ⟨0x09, 0x0001⟩
/-- `swap_pending` (class 0x09). -/
abbrev swap_pending : AttrId := ⟨0x09, 0x0002⟩
/-- `swap_context` (class 0x09). -/
abbrev swap_context : AttrId := ⟨0x09, 0x0003⟩
/-- `swap_line` (class 0x09). -/
abbrev swap_line : AttrId := ⟨0x09, 0x0004⟩
/-- `build_seq` (class 0x09). -/
abbrev build_seq : AttrId := ⟨0x09, 0x0005⟩
/-- `build_us` (class 0x09). -/
abbrev build_us : AttrId := ⟨0x09, 0x0006⟩
/-- `build_tb1` (class 0x09). -/
abbrev build_tb1 : AttrId := ⟨0x09, 0x0007⟩
/-- `bank_crc` (class 0x09). -/
abbrev bank_crc : AttrId := ⟨0x09, 0x0008⟩
/-- `saturated` (class 0x09). -/
abbrev saturated : AttrId := ⟨0x09, 0x0009⟩
/-- `dec_in_flight` (class 0x0A). -/
abbrev dec_in_flight : AttrId := ⟨0x0A, 0x0001⟩
/-- `dec_limit` (class 0x0A). -/
abbrev dec_limit : AttrId := ⟨0x0A, 0x0002⟩
/-- `dec_blocks` (class 0x0A). -/
abbrev dec_blocks : AttrId := ⟨0x0A, 0x0003⟩
/-- `dec_raw_blocks` (class 0x0A). -/
abbrev dec_raw_blocks : AttrId := ⟨0x0A, 0x0004⟩
/-- `dec_fails` (class 0x0A). -/
abbrev dec_fails : AttrId := ⟨0x0A, 0x0005⟩
/-- `dec_discarded` (class 0x0A). -/
abbrev dec_discarded : AttrId := ⟨0x0A, 0x0006⟩
/-- `dec_lines_discarded` (class 0x0A). -/
abbrev dec_lines_discarded : AttrId := ⟨0x0A, 0x0007⟩
/-- `dec_bytes` (class 0x0A). -/
abbrev dec_bytes : AttrId := ⟨0x0A, 0x0008⟩
/-- `last_fail` (class 0x0A). -/
abbrev last_fail : AttrId := ⟨0x0A, 0x0009⟩
/-- `out_jobs` (class 0x0A). -/
abbrev out_jobs : AttrId := ⟨0x0A, 0x0010⟩
/-- `out_state` (class 0x0A). -/
abbrev out_state : AttrId := ⟨0x0A, 0x0011⟩
/-- `out_done` (class 0x0A). -/
abbrev out_done : AttrId := ⟨0x0A, 0x0012⟩
/-- `out_failed` (class 0x0A). -/
abbrev out_failed : AttrId := ⟨0x0A, 0x0013⟩
/-- `out_raw_blocks` (class 0x0A). -/
abbrev out_raw_blocks : AttrId := ⟨0x0A, 0x0014⟩
/-- `out_bytes_in` (class 0x0A). -/
abbrev out_bytes_in : AttrId := ⟨0x0A, 0x0015⟩
/-- `out_bytes_out` (class 0x0A). -/
abbrev out_bytes_out : AttrId := ⟨0x0A, 0x0016⟩
/-- `eng_busy` (class 0x0A). -/
abbrev eng_busy : AttrId := ⟨0x0A, 0x0001⟩
/-- `eng_port` (class 0x0A). -/
abbrev eng_port : AttrId := ⟨0x0A, 0x0002⟩
/-- `eng_line` (class 0x0A). -/
abbrev eng_line : AttrId := ⟨0x0A, 0x0003⟩
/-- `eng_blocks` (class 0x0A). -/
abbrev eng_blocks : AttrId := ⟨0x0A, 0x0004⟩
/-- `eng_cycles` (class 0x0A). -/
abbrev eng_cycles : AttrId := ⟨0x0A, 0x0005⟩
/-- `grt_udp_port` (class 0x0C). -/
abbrev grt_udp_port : AttrId := ⟨0x0C, 0x0001⟩
/-- `grt_port_en` (class 0x0C). -/
abbrev grt_port_en : AttrId := ⟨0x0C, 0x0002⟩
/-- `press_decel` (class 0x0C). -/
abbrev press_decel : AttrId := ⟨0x0C, 0x0010⟩
/-- `press_react_ms` (class 0x0C). -/
abbrev press_react_ms : AttrId := ⟨0x0C, 0x0011⟩
/-- `slow_margin_mm` (class 0x0C). -/
abbrev slow_margin_mm : AttrId := ⟨0x0C, 0x0012⟩
/-- `stop_margin_mm` (class 0x0C). -/
abbrev stop_margin_mm : AttrId := ⟨0x0C, 0x0013⟩
/-- `req_hyst_mm` (class 0x0C). -/
abbrev req_hyst_mm : AttrId := ⟨0x0C, 0x0014⟩
/-- `fix_slots` (class 0x0C). -/
abbrev fix_slots : AttrId := ⟨0x0C, 0x0015⟩
/-- `backup_en` (class 0x0C). -/
abbrev backup_en : AttrId := ⟨0x0C, 0x0016⟩
/-- `runup_mm` (class 0x0C). -/
abbrev runup_mm : AttrId := ⟨0x0C, 0x0017⟩
/-- `backup_max_mm` (class 0x0C). -/
abbrev backup_max_mm : AttrId := ⟨0x0C, 0x0018⟩
/-- `backup_timeout_ms` (class 0x0C). -/
abbrev backup_timeout_ms : AttrId := ⟨0x0C, 0x0019⟩
/-- `resume_runway_mm` (class 0x0C). -/
abbrev resume_runway_mm : AttrId := ⟨0x0C, 0x001A⟩
/-- `runway_nm` (class 0x0C). -/
abbrev runway_nm : AttrId := ⟨0x0C, 0x0020⟩
/-- `stop_dist_nm` (class 0x0C). -/
abbrev stop_dist_nm : AttrId := ⟨0x0C, 0x0021⟩
/-- `stop_phase` (class 0x0C). -/
abbrev stop_phase : AttrId := ⟨0x0C, 0x0022⟩
/-- `stop_cause` (class 0x0C). -/
abbrev stop_cause : AttrId := ⟨0x0C, 0x0023⟩
/-- `backup_target` (class 0x0C). -/
abbrev backup_target : AttrId := ⟨0x0C, 0x0024⟩
/-- `stops` (class 0x0C). -/
abbrev stops : AttrId := ⟨0x0C, 0x0025⟩
/-- `grt_bad` (class 0x0C). -/
abbrev grt_bad : AttrId := ⟨0x0C, 0x0026⟩
/-- `st_type` (class 0x0C). -/
abbrev st_type : AttrId := ⟨0x0C, 0x0001⟩
/-- `st_context` (class 0x0C). -/
abbrev st_context : AttrId := ⟨0x0C, 0x0002⟩
/-- `st_next_seq` (class 0x0C). -/
abbrev st_next_seq : AttrId := ⟨0x0C, 0x0003⟩
/-- `st_credit` (class 0x0C). -/
abbrev st_credit : AttrId := ⟨0x0C, 0x0004⟩
/-- `ack_every` (class 0x0C). -/
abbrev ack_every : AttrId := ⟨0x0C, 0x0005⟩
/-- `ack_us` (class 0x0C). -/
abbrev ack_us : AttrId := ⟨0x0C, 0x0006⟩
/-- `nak_holdoff_us` (class 0x0C). -/
abbrev nak_holdoff_us : AttrId := ⟨0x0C, 0x0007⟩
/-- `dma_ring` (class 0x0C). -/
abbrev dma_ring : AttrId := ⟨0x0C, 0x0008⟩
/-- `dma_ring_log2` (class 0x0C). -/
abbrev dma_ring_log2 : AttrId := ⟨0x0C, 0x0009⟩
/-- `grt_dup` (class 0x0C). -/
abbrev grt_dup : AttrId := ⟨0x0C, 0x0010⟩
/-- `grt_gaps` (class 0x0C). -/
abbrev grt_gaps : AttrId := ⟨0x0C, 0x0011⟩
/-- `grt_over_credit` (class 0x0C). -/
abbrev grt_over_credit : AttrId := ⟨0x0C, 0x0012⟩
/-- `frag_errs` (class 0x0C). -/
abbrev frag_errs : AttrId := ⟨0x0C, 0x0013⟩
/-- `dup_blocks` (class 0x0C). -/
abbrev dup_blocks : AttrId := ⟨0x0C, 0x0014⟩
/-- `st_blocks` (class 0x0C). -/
abbrev st_blocks : AttrId := ⟨0x0C, 0x0015⟩
/-- `ctx_state` (class 0x0B). -/
abbrev ctx_state : AttrId := ⟨0x0B, 0x0001⟩
/-- `printing` (class 0x0B). -/
abbrev printing : AttrId := ⟨0x0B, 0x0002⟩
/-- `fail_cause` (class 0x0B). -/
abbrev fail_cause : AttrId := ⟨0x0B, 0x0003⟩
/-- `x0` (class 0x0B). -/
abbrev x0 : AttrId := ⟨0x0B, 0x0004⟩
/-- `last_line` (class 0x0B). -/
abbrev last_line : AttrId := ⟨0x0B, 0x0005⟩
/-- `held_line` (class 0x0B). -/
abbrev held_line : AttrId := ⟨0x0B, 0x0006⟩
/-- `data_end` (class 0x0B). -/
abbrev data_end : AttrId := ⟨0x0B, 0x0007⟩
/-- `stop_line` (class 0x0B). -/
abbrev stop_line : AttrId := ⟨0x0B, 0x0008⟩
/-- `switch_line` (class 0x0B). -/
abbrev switch_line : AttrId := ⟨0x0B, 0x0009⟩
/-- `pages_used` (class 0x0B). -/
abbrev pages_used : AttrId := ⟨0x0B, 0x000A⟩
/-- `stop_end` (class 0x0B). -/
abbrev stop_end : AttrId := ⟨0x0B, 0x000B⟩
/-- `cam_state` (class 0x0D). -/
abbrev cam_state : AttrId := ⟨0x0D, 0x0001⟩
/-- `frame_count` (class 0x0D). -/
abbrev frame_count : AttrId := ⟨0x0D, 0x0002⟩
/-- `lanes` (class 0x0D). -/
abbrev lanes : AttrId := ⟨0x0D, 0x0003⟩
/-- `vc` (class 0x0D). -/
abbrev vc : AttrId := ⟨0x0D, 0x0004⟩
/-- `data_type` (class 0x0D). -/
abbrev data_type : AttrId := ⟨0x0D, 0x0005⟩
/-- `width` (class 0x0D). -/
abbrev width : AttrId := ⟨0x0D, 0x0006⟩
/-- `height` (class 0x0D). -/
abbrev height : AttrId := ⟨0x0D, 0x0007⟩
/-- `isp_die` (class 0x0D). -/
abbrev isp_die : AttrId := ⟨0x0D, 0x0008⟩
/-- `trig_pulse` (class 0x0D). -/
abbrev trig_pulse : AttrId := ⟨0x0D, 0x0009⟩
/-- `trig_window_us` (class 0x0D). -/
abbrev trig_window_us : AttrId := ⟨0x0D, 0x000A⟩
/-- `frame_timeout_us` (class 0x0D). -/
abbrev frame_timeout_us : AttrId := ⟨0x0D, 0x000B⟩
/-- `fs_base` (class 0x0D). -/
abbrev fs_base : AttrId := ⟨0x0D, 0x000C⟩
/-- `fs_slots` (class 0x0D). -/
abbrev fs_slots : AttrId := ⟨0x0D, 0x000D⟩
/-- `fs_slot_bytes` (class 0x0D). -/
abbrev fs_slot_bytes : AttrId := ⟨0x0D, 0x000E⟩
/-- `desc_queue` (class 0x0D). -/
abbrev desc_queue : AttrId := ⟨0x0D, 0x000F⟩
/-- `tap` (class 0x0D). -/
abbrev tap : AttrId := ⟨0x0D, 0x0010⟩
/-- `tap_every` (class 0x0D). -/
abbrev tap_every : AttrId := ⟨0x0D, 0x0011⟩
/-- `slot_state` (class 0x0D). -/
abbrev slot_state : AttrId := ⟨0x0D, 0x0012⟩
/-- `pset_table` (class 0x0D). -/
abbrev pset_table : AttrId := ⟨0x0D, 0x0013⟩
/-- `pset_active` (class 0x0D). -/
abbrev pset_active : AttrId := ⟨0x0D, 0x0014⟩
/-- `stream` (class 0x0D). -/
abbrev stream : AttrId := ⟨0x0D, 0x0015⟩
/-- `sensor_latency` (class 0x0D). -/
abbrev sensor_latency : AttrId := ⟨0x0D, 0x0018⟩
/-- `i2c_addr` (class 0x0D). -/
abbrev i2c_addr : AttrId := ⟨0x0D, 0x0019⟩
/-- `i2c_khz` (class 0x0D). -/
abbrev i2c_khz : AttrId := ⟨0x0D, 0x001A⟩
/-- `i2c_reg_bytes` (class 0x0D). -/
abbrev i2c_reg_bytes : AttrId := ⟨0x0D, 0x001B⟩
/-- `i2c_guard_us` (class 0x0D). -/
abbrev i2c_guard_us : AttrId := ⟨0x0D, 0x001C⟩
/-- `frames` (class 0x0D). -/
abbrev frames : AttrId := ⟨0x0D, 0x0020⟩
/-- `short_frames` (class 0x0D). -/
abbrev short_frames : AttrId := ⟨0x0D, 0x0021⟩
/-- `long_frames` (class 0x0D). -/
abbrev long_frames : AttrId := ⟨0x0D, 0x0022⟩
/-- `no_fe` (class 0x0D). -/
abbrev no_fe : AttrId := ⟨0x0D, 0x0023⟩
/-- `crc_errs` (class 0x0D). -/
abbrev cam_crc_errs : AttrId := ⟨0x0D, 0x0024⟩
/-- `len_errs` (class 0x0D). -/
abbrev len_errs : AttrId := ⟨0x0D, 0x0025⟩
/-- `ecc_fixed` (class 0x0D). -/
abbrev ecc_fixed : AttrId := ⟨0x0D, 0x0026⟩
/-- `ecc_fatal` (class 0x0D). -/
abbrev ecc_fatal : AttrId := ⟨0x0D, 0x0027⟩
/-- `other_pkts` (class 0x0D). -/
abbrev other_pkts : AttrId := ⟨0x0D, 0x0028⟩
/-- `trig_miss` (class 0x0D). -/
abbrev trig_miss : AttrId := ⟨0x0D, 0x0029⟩
/-- `no_slot` (class 0x0D). -/
abbrev no_slot : AttrId := ⟨0x0D, 0x002A⟩
/-- `orphan_lines` (class 0x0D). -/
abbrev orphan_lines : AttrId := ⟨0x0D, 0x002B⟩
/-- `stream_cam` (class 0x0E). -/
abbrev stream_cam : AttrId := ⟨0x0E, 0x0001⟩
/-- `cfg_gen` (class 0x0E). -/
abbrev cfg_gen : AttrId := ⟨0x0E, 0x0002⟩
/-- `isp_bypass` (class 0x0E). -/
abbrev isp_bypass : AttrId := ⟨0x0E, 0x0003⟩
/-- `cfa_map` (class 0x0E). -/
abbrev cfa_map : AttrId := ⟨0x0E, 0x0004⟩
/-- `demosaic` (class 0x0E). -/
abbrev demosaic : AttrId := ⟨0x0E, 0x0005⟩
/-- `black` (class 0x0E). -/
abbrev black : AttrId := ⟨0x0E, 0x0006⟩
/-- `gain` (class 0x0E). -/
abbrev gain : AttrId := ⟨0x0E, 0x0007⟩
/-- `dpc_static` (class 0x0E). -/
abbrev dpc_static : AttrId := ⟨0x0E, 0x0008⟩
/-- `dpc_count` (class 0x0E). -/
abbrev dpc_count : AttrId := ⟨0x0E, 0x0009⟩
/-- `dpc_dyn_en` (class 0x0E). -/
abbrev dpc_dyn_en : AttrId := ⟨0x0E, 0x000A⟩
/-- `dpc_thresh` (class 0x0E). -/
abbrev dpc_thresh : AttrId := ⟨0x0E, 0x000B⟩
/-- `lsc_grid` (class 0x0E). -/
abbrev lsc_grid : AttrId := ⟨0x0E, 0x000C⟩
/-- `ccm` (class 0x0E). -/
abbrev ccm : AttrId := ⟨0x0E, 0x000D⟩
/-- `mp_priority` (class 0x0E). -/
abbrev mp_priority : AttrId := ⟨0x0E, 0x000E⟩
/-- `dpc_dynamic` (class 0x0E). -/
abbrev dpc_dynamic : AttrId := ⟨0x0E, 0x0010⟩
/-- `isp_overruns` (class 0x0E). -/
abbrev isp_overruns : AttrId := ⟨0x0E, 0x0011⟩
/-- `mp_latency_max_us` (class 0x0E). -/
abbrev mp_latency_max_us : AttrId := ⟨0x0E, 0x0012⟩
/-- `stats_queue` (class 0x0F). -/
abbrev stats_queue : AttrId := ⟨0x0F, 0x0001⟩
/-- `stats_point` (class 0x0F). -/
abbrev stats_point : AttrId := ⟨0x0F, 0x0002⟩
/-- `roi_table` (class 0x0F). -/
abbrev roi_table : AttrId := ⟨0x0F, 0x0003⟩
/-- `roi_count` (class 0x0F). -/
abbrev roi_count : AttrId := ⟨0x0F, 0x0004⟩
/-- `hist_en` (class 0x0F). -/
abbrev hist_en : AttrId := ⟨0x0F, 0x0005⟩
/-- `hist_roi` (class 0x0F). -/
abbrev hist_roi : AttrId := ⟨0x0F, 0x0006⟩
/-- `hist_shift` (class 0x0F). -/
abbrev hist_shift : AttrId := ⟨0x0F, 0x0007⟩
/-- `cp_plane` (class 0x0F). -/
abbrev cp_plane : AttrId := ⟨0x0F, 0x0008⟩
/-- `cp_y0` (class 0x0F). -/
abbrev cp_y0 : AttrId := ⟨0x0F, 0x0009⟩
/-- `cp_bin` (class 0x0F). -/
abbrev cp_bin : AttrId := ⟨0x0F, 0x000A⟩
/-- `mark_table` (class 0x0F). -/
abbrev mark_table : AttrId := ⟨0x0F, 0x000B⟩
/-- `mark_count` (class 0x0F). -/
abbrev stats_mark_count : AttrId := ⟨0x0F, 0x000C⟩
/-- `mark_plane` (class 0x0F). -/
abbrev mark_plane : AttrId := ⟨0x0F, 0x000D⟩
/-- `mark_thresh` (class 0x0F). -/
abbrev mark_thresh : AttrId := ⟨0x0F, 0x000E⟩
/-- `records` (class 0x0F). -/
abbrev records : AttrId := ⟨0x0F, 0x0010⟩
/-- `records_lost` (class 0x0F). -/
abbrev records_lost : AttrId := ⟨0x0F, 0x0011⟩
/-- `chain_state` (class 0x10). -/
abbrev chain_state : AttrId := ⟨0x10, 0x0001⟩
/-- `chain_mbps` (class 0x10). -/
abbrev chain_mbps : AttrId := ⟨0x10, 0x0002⟩
/-- `refresh_us` (class 0x10). -/
abbrev refresh_us : AttrId := ⟨0x10, 0x0003⟩
/-- `chain_max` (class 0x10). -/
abbrev chain_max : AttrId := ⟨0x10, 0x0004⟩
/-- `chain_drivers` (class 0x10). -/
abbrev chain_drivers : AttrId := ⟨0x10, 0x0005⟩
/-- `ret_slack_us` (class 0x10). -/
abbrev ret_slack_us : AttrId := ⟨0x10, 0x0006⟩
/-- `diag_n` (class 0x10). -/
abbrev chain_diag_n : AttrId := ⟨0x10, 0x0007⟩
/-- `types` (class 0x10). -/
abbrev types : AttrId := ⟨0x10, 0x0008⟩
/-- `refreshes` (class 0x10). -/
abbrev refreshes : AttrId := ⟨0x10, 0x0010⟩
/-- `ret_errs` (class 0x10). -/
abbrev ret_errs : AttrId := ⟨0x10, 0x0011⟩
/-- `rx_err_reports` (class 0x10). -/
abbrev rx_err_reports : AttrId := ⟨0x10, 0x0012⟩
/-- `diag_pulses` (class 0x10). -/
abbrev diag_pulses : AttrId := ⟨0x10, 0x0013⟩
/-- `lamp_level` (class 0x11). -/
abbrev lamp_level : AttrId := ⟨0x11, 0x0001⟩
/-- `lamp_flags` (class 0x11). -/
abbrev lamp_flags : AttrId := ⟨0x11, 0x0002⟩
/-- `diag_age` (class 0x11). -/
abbrev diag_age : AttrId := ⟨0x11, 0x0003⟩
/-- `lamp_entry` (class 0x11). -/
abbrev lamp_entry : AttrId := ⟨0x11, 0x0004⟩
/-- `mx_state` (class 0x12). -/
abbrev mx_state : AttrId := ⟨0x12, 0x0001⟩
/-- `mx_mode` (class 0x12). -/
abbrev mx_mode : AttrId := ⟨0x12, 0x0002⟩
/-- `mx_pulse` (class 0x12). -/
abbrev mx_pulse : AttrId := ⟨0x12, 0x0003⟩
/-- `mx_seq` (class 0x12). -/
abbrev mx_seq : AttrId := ⟨0x12, 0x0004⟩
/-- `mx_seq_len` (class 0x12). -/
abbrev mx_seq_len : AttrId := ⟨0x12, 0x0005⟩
/-- `mx_blank_ns` (class 0x12). -/
abbrev mx_blank_ns : AttrId := ⟨0x12, 0x0006⟩
/-- `mx_pch_ns` (class 0x12). -/
abbrev mx_pch_ns : AttrId := ⟨0x12, 0x0007⟩
/-- `mx_settle_ns` (class 0x12). -/
abbrev mx_settle_ns : AttrId := ⟨0x12, 0x0008⟩
/-- `row_on_us` (class 0x12). -/
abbrev row_on_us : AttrId := ⟨0x12, 0x0009⟩
/-- `row_us` (class 0x12). -/
abbrev row_us : AttrId := ⟨0x12, 0x000A⟩
/-- `mx_vpch` (class 0x12). -/
abbrev mx_vpch : AttrId := ⟨0x12, 0x000B⟩
/-- `mx_guard_us` (class 0x12). -/
abbrev mx_guard_us : AttrId := ⟨0x12, 0x000C⟩
/-- `diag_n` (class 0x12). -/
abbrev mx_diag_n : AttrId := ⟨0x12, 0x000D⟩
/-- `mx_level` (class 0x12). -/
abbrev mx_level : AttrId := ⟨0x12, 0x0010⟩
/-- `mx_cal` (class 0x12). -/
abbrev mx_cal : AttrId := ⟨0x12, 0x0011⟩
/-- `mx_open` (class 0x12). -/
abbrev mx_open : AttrId := ⟨0x12, 0x0012⟩
/-- `mx_age` (class 0x12). -/
abbrev mx_age : AttrId := ⟨0x12, 0x0013⟩
/-- `mx_row` (class 0x12). -/
abbrev mx_row : AttrId := ⟨0x12, 0x0014⟩
/-- `mx_overlaps` (class 0x12). -/
abbrev mx_overlaps : AttrId := ⟨0x12, 0x0020⟩
/-- `mx_diag_rows` (class 0x12). -/
abbrev mx_diag_rows : AttrId := ⟨0x12, 0x0021⟩
/-- `ch_state` (class 0x13). -/
abbrev ch_state : AttrId := ⟨0x13, 0x0001⟩
/-- `ch_context` (class 0x13). -/
abbrev ch_context : AttrId := ⟨0x13, 0x0002⟩
/-- `page_q` (class 0x13). -/
abbrev page_q : AttrId := ⟨0x13, 0x0003⟩
/-- `expose_nm` (class 0x13). -/
abbrev expose_nm : AttrId := ⟨0x13, 0x0004⟩
/-- `expose_tol_nm` (class 0x13). -/
abbrev expose_tol_nm : AttrId := ⟨0x13, 0x0005⟩
/-- `sched_lead_ms` (class 0x13). -/
abbrev sched_lead_ms : AttrId := ⟨0x13, 0x0006⟩
/-- `sched_tol_us` (class 0x13). -/
abbrev sched_tol_us : AttrId := ⟨0x13, 0x0007⟩
/-- `cameras` (class 0x13). -/
abbrev cameras : AttrId := ⟨0x13, 0x0008⟩
/-- `mx_die` (class 0x13). -/
abbrev mx_die : AttrId := ⟨0x13, 0x0009⟩
/-- `band_nm` (class 0x13). -/
abbrev band_nm : AttrId := ⟨0x13, 0x000A⟩
/-- `cam_map` (class 0x13). -/
abbrev cam_map : AttrId := ⟨0x13, 0x000B⟩
/-- `patch_table` (class 0x13). -/
abbrev patch_table : AttrId := ⟨0x13, 0x000C⟩
/-- `patch_count` (class 0x13). -/
abbrev patch_count : AttrId := ⟨0x13, 0x000D⟩
/-- `mark_tbl` (class 0x13). -/
abbrev mark_tbl : AttrId := ⟨0x13, 0x000E⟩
/-- `mark_count` (class 0x13). -/
abbrev ch_mark_count : AttrId := ⟨0x13, 0x000F⟩
/-- `ref_mode` (class 0x13). -/
abbrev ref_mode : AttrId := ⟨0x13, 0x0010⟩
/-- `ref_spectra` (class 0x13). -/
abbrev ref_spectra : AttrId := ⟨0x13, 0x0011⟩
/-- `tile_white` (class 0x13). -/
abbrev tile_white : AttrId := ⟨0x13, 0x0012⟩
/-- `tile_patches` (class 0x13). -/
abbrev tile_patches : AttrId := ⟨0x13, 0x0013⟩
/-- `reg_ref_bar` (class 0x13). -/
abbrev reg_ref_bar : AttrId := ⟨0x13, 0x0014⟩
/-- `hb_first` (class 0x13). -/
abbrev hb_first : AttrId := ⟨0x13, 0x0015⟩
/-- `hb_lines` (class 0x13). -/
abbrev hb_lines : AttrId := ⟨0x13, 0x0016⟩
/-- `hb_level` (class 0x13). -/
abbrev hb_level : AttrId := ⟨0x13, 0x0017⟩
/-- `spectrum_span_m` (class 0x13). -/
abbrev spectrum_span_m : AttrId := ⟨0x13, 0x0018⟩
/-- `dark_max_s` (class 0x13). -/
abbrev dark_max_s : AttrId := ⟨0x13, 0x0019⟩
/-- `min_speed` (class 0x13). -/
abbrev min_speed : AttrId := ⟨0x13, 0x001A⟩
/-- `stale_m` (class 0x13). -/
abbrev stale_m : AttrId := ⟨0x13, 0x001B⟩
/-- `lead_lines` (class 0x13). -/
abbrev lead_lines : AttrId := ⟨0x13, 0x001C⟩
/-- `de_alarm` (class 0x13). -/
abbrev de_alarm : AttrId := ⟨0x13, 0x001D⟩
/-- `hb_margin` (class 0x13). -/
abbrev hb_margin : AttrId := ⟨0x13, 0x001E⟩
/-- `de_max` (class 0x13). -/
abbrev de_max : AttrId := ⟨0x13, 0x0020⟩
/-- `pages_measured` (class 0x13). -/
abbrev pages_measured : AttrId := ⟨0x13, 0x0021⟩
/-- `frames_unused` (class 0x13). -/
abbrev frames_unused : AttrId := ⟨0x13, 0x0022⟩
/-- `bar_state` (class 0x13). -/
abbrev bar_state : AttrId := ⟨0x13, 0x0001⟩
/-- `bar_band` (class 0x13). -/
abbrev bar_band : AttrId := ⟨0x13, 0x0002⟩
/-- `gain_k` (class 0x13). -/
abbrev gain_k : AttrId := ⟨0x13, 0x0003⟩
/-- `gain_step_max` (class 0x13). -/
abbrev gain_step_max : AttrId := ⟨0x13, 0x0004⟩
/-- `tone_deadband_ppm` (class 0x13). -/
abbrev tone_deadband_ppm : AttrId := ⟨0x13, 0x0005⟩
/-- `zone_follow` (class 0x13). -/
abbrev zone_follow : AttrId := ⟨0x13, 0x0006⟩
/-- `update_min_m` (class 0x13). -/
abbrev update_min_m : AttrId := ⟨0x13, 0x0007⟩
/-- `port_x_nm` (class 0x13). -/
abbrev port_x_nm : AttrId := ⟨0x13, 0x0008⟩
/-- `xpitch` (class 0x13). -/
abbrev xpitch : AttrId := ⟨0x13, 0x0009⟩
/-- `reg_group` (class 0x13). -/
abbrev reg_group : AttrId := ⟨0x13, 0x000A⟩
/-- `reg_k` (class 0x13). -/
abbrev reg_k : AttrId := ⟨0x13, 0x000B⟩
/-- `reg_deadband_nm` (class 0x13). -/
abbrev reg_deadband_nm : AttrId := ⟨0x13, 0x000C⟩
/-- `reg_step_max_nm` (class 0x13). -/
abbrev reg_step_max_nm : AttrId := ⟨0x13, 0x000D⟩
/-- `xreg_deadband` (class 0x13). -/
abbrev xreg_deadband : AttrId := ⟨0x13, 0x000E⟩
/-- `trim_window_m` (class 0x13). -/
abbrev trim_window_m : AttrId := ⟨0x13, 0x000F⟩
/-- `trim_thresh_ppm` (class 0x13). -/
abbrev trim_thresh_ppm : AttrId := ⟨0x13, 0x0010⟩
/-- `trim_k` (class 0x13). -/
abbrev trim_k : AttrId := ⟨0x13, 0x0011⟩
/-- `hb_contrast` (class 0x13). -/
abbrev hb_contrast : AttrId := ⟨0x13, 0x0012⟩
/-- `hb_confirm` (class 0x13). -/
abbrev hb_confirm : AttrId := ⟨0x13, 0x0013⟩
/-- `dead_max` (class 0x13). -/
abbrev dead_max : AttrId := ⟨0x13, 0x0014⟩
/-- `bar_de_max` (class 0x13). -/
abbrev bar_de_max : AttrId := ⟨0x13, 0x0020⟩
/-- `tone_err` (class 0x13). -/
abbrev tone_err : AttrId := ⟨0x13, 0x0021⟩
/-- `reg_err` (class 0x13). -/
abbrev reg_err : AttrId := ⟨0x13, 0x0022⟩
/-- `last_gain_line` (class 0x13). -/
abbrev last_gain_line : AttrId := ⟨0x13, 0x0023⟩
/-- `last_reg_line` (class 0x13). -/
abbrev last_reg_line : AttrId := ⟨0x13, 0x0024⟩
/-- `gain_updates` (class 0x13). -/
abbrev gain_updates : AttrId := ⟨0x13, 0x0025⟩
/-- `reg_updates` (class 0x13). -/
abbrev reg_updates : AttrId := ⟨0x13, 0x0026⟩
/-- `nozzles_dead` (class 0x13). -/
abbrev nozzles_dead : AttrId := ⟨0x13, 0x0027⟩
/-- `tb_now` (class 0x14). -/
abbrev tb_now : AttrId := ⟨0x14, 0x0001⟩
/-- `servo_state` (class 0x14). -/
abbrev servo_state : AttrId := ⟨0x14, 0x0002⟩
/-- `rate_ppt` (class 0x14). -/
abbrev rate_ppt : AttrId := ⟨0x14, 0x0003⟩
/-- `tb_source` (class 0x14). -/
abbrev tb_source : AttrId := ⟨0x14, 0x0004⟩
/-- `tb_cap` (class 0x14). -/
abbrev tb_cap : AttrId := ⟨0x14, 0x0005⟩
/-- `step_arm` (class 0x14). -/
abbrev step_arm : AttrId := ⟨0x14, 0x0006⟩
/-- `step_thresh_ns` (class 0x14). -/
abbrev step_thresh_ns : AttrId := ⟨0x14, 0x0007⟩
/-- `kp` (class 0x14). -/
abbrev kp : AttrId := ⟨0x14, 0x0008⟩
/-- `ki` (class 0x14). -/
abbrev ki : AttrId := ⟨0x14, 0x0009⟩
/-- `max_rate_ppb` (class 0x14). -/
abbrev max_rate_ppb : AttrId := ⟨0x14, 0x000A⟩
/-- `slew_max_ppb` (class 0x14). -/
abbrev slew_max_ppb : AttrId := ⟨0x14, 0x000B⟩
/-- `lock_ns` (class 0x14). -/
abbrev lock_ns : AttrId := ⟨0x14, 0x000C⟩
/-- `unlock_ns` (class 0x14). -/
abbrev unlock_ns : AttrId := ⟨0x14, 0x000D⟩
/-- `lock_samples` (class 0x14). -/
abbrev lock_samples : AttrId := ⟨0x14, 0x000E⟩
/-- `holdover_ms` (class 0x14). -/
abbrev holdover_ms : AttrId := ⟨0x14, 0x000F⟩
/-- `outlier_ns` (class 0x14). -/
abbrev outlier_ns : AttrId := ⟨0x14, 0x0010⟩
/-- `freq_ppt` (class 0x14). -/
abbrev freq_ppt : AttrId := ⟨0x14, 0x0011⟩
/-- `offset_ns` (class 0x14). -/
abbrev offset_ns : AttrId := ⟨0x14, 0x0012⟩
/-- `offset_age_ms` (class 0x14). -/
abbrev offset_age_ms : AttrId := ⟨0x14, 0x0013⟩
/-- `holdover_tb1` (class 0x14). -/
abbrev holdover_tb1 : AttrId := ⟨0x14, 0x0014⟩
/-- `ptp_domain` (class 0x14). -/
abbrev ptp_domain : AttrId := ⟨0x14, 0x0015⟩
/-- `priority1` (class 0x14). -/
abbrev priority1 : AttrId := ⟨0x14, 0x0016⟩
/-- `priority2` (class 0x14). -/
abbrev priority2 : AttrId := ⟨0x14, 0x0017⟩
/-- `slave_only` (class 0x14). -/
abbrev slave_only : AttrId := ⟨0x14, 0x0018⟩
/-- `gm_id` (class 0x14). -/
abbrev gm_id : AttrId := ⟨0x14, 0x0019⟩
/-- `utc_offset` (class 0x14). -/
abbrev utc_offset : AttrId := ⟨0x14, 0x001A⟩
/-- `steps` (class 0x14). -/
abbrev steps : AttrId := ⟨0x14, 0x001B⟩
/-- `outliers` (class 0x14). -/
abbrev outliers : AttrId := ⟨0x14, 0x001C⟩
/-- `ptp_enable` (class 0x15). -/
abbrev ptp_enable : AttrId := ⟨0x15, 0x0001⟩
/-- `port_state` (class 0x15). -/
abbrev port_state : AttrId := ⟨0x15, 0x0002⟩
/-- `ptp_tb` (class 0x15). -/
abbrev ptp_tb : AttrId := ⟨0x15, 0x0003⟩
/-- `transport` (class 0x15). -/
abbrev transport : AttrId := ⟨0x15, 0x0004⟩
/-- `delay_mech` (class 0x15). -/
abbrev delay_mech : AttrId := ⟨0x15, 0x0005⟩
/-- `one_step` (class 0x15). -/
abbrev one_step : AttrId := ⟨0x15, 0x0006⟩
/-- `log_sync` (class 0x15). -/
abbrev log_sync : AttrId := ⟨0x15, 0x0007⟩
/-- `log_announce` (class 0x15). -/
abbrev log_announce : AttrId := ⟨0x15, 0x0008⟩
/-- `log_delay` (class 0x15). -/
abbrev log_delay : AttrId := ⟨0x15, 0x0009⟩
/-- `announce_timeout` (class 0x15). -/
abbrev announce_timeout : AttrId := ⟨0x15, 0x000A⟩
/-- `master_only` (class 0x15). -/
abbrev master_only : AttrId := ⟨0x15, 0x000B⟩
/-- `rx_lat_ps` (class 0x15). -/
abbrev rx_lat_ps : AttrId := ⟨0x15, 0x000C⟩
/-- `tx_lat_ps` (class 0x15). -/
abbrev tx_lat_ps : AttrId := ⟨0x15, 0x000D⟩
/-- `asym_ps` (class 0x15). -/
abbrev asym_ps : AttrId := ⟨0x15, 0x000E⟩
/-- `mean_delay_ps` (class 0x15). -/
abbrev mean_delay_ps : AttrId := ⟨0x15, 0x0010⟩
/-- `port_offset_ns` (class 0x15). -/
abbrev port_offset_ns : AttrId := ⟨0x15, 0x0011⟩
/-- `ptp_rx` (class 0x15). -/
abbrev ptp_rx : AttrId := ⟨0x15, 0x0012⟩
/-- `ptp_tx` (class 0x15). -/
abbrev ptp_tx : AttrId := ⟨0x15, 0x0013⟩
/-- `ts_missing` (class 0x15). -/
abbrev ts_missing : AttrId := ⟨0x15, 0x0014⟩
/-- `ptp_bad` (class 0x15). -/
abbrev ptp_bad : AttrId := ⟨0x15, 0x0015⟩
/-- `po_state` (class 0x16). -/
abbrev po_state : AttrId := ⟨0x16, 0x0001⟩
/-- `po_tb` (class 0x16). -/
abbrev po_tb : AttrId := ⟨0x16, 0x0002⟩
/-- `po_width_ns` (class 0x16). -/
abbrev po_width_ns : AttrId := ⟨0x16, 0x0003⟩
/-- `po_invert` (class 0x16). -/
abbrev po_invert : AttrId := ⟨0x16, 0x0004⟩
/-- `po_delay_ns` (class 0x16). -/
abbrev po_delay_ns : AttrId := ⟨0x16, 0x0005⟩
/-- `po_mode` (class 0x16). -/
abbrev po_mode : AttrId := ⟨0x16, 0x0006⟩
/-- `po_next` (class 0x16). -/
abbrev po_next : AttrId := ⟨0x16, 0x0007⟩
/-- `po_pulses` (class 0x16). -/
abbrev po_pulses : AttrId := ⟨0x16, 0x0008⟩
/-- `po_late` (class 0x16). -/
abbrev po_late : AttrId := ⟨0x16, 0x0009⟩
/-- `po_skipped` (class 0x16). -/
abbrev po_skipped : AttrId := ⟨0x16, 0x000A⟩
/-- `cap_edge` (class 0x16). -/
abbrev cap_edge : AttrId := ⟨0x16, 0x0020⟩
/-- `cap_filter_ns` (class 0x16). -/
abbrev cap_filter_ns : AttrId := ⟨0x16, 0x0021⟩
/-- `cap_last` (class 0x16). -/
abbrev cap_last : AttrId := ⟨0x16, 0x0022⟩
/-- `cap_event` (class 0x16). -/
abbrev cap_event : AttrId := ⟨0x16, 0x0023⟩
/-- `cap_overruns` (class 0x16). -/
abbrev cap_overruns : AttrId := ⟨0x16, 0x0024⟩
/-- `itv_enable` (class 0x19). -/
abbrev itv_enable : AttrId := ⟨0x19, 0x0001⟩
/-- `itv_state` (class 0x19). -/
abbrev itv_state : AttrId := ⟨0x19, 0x0002⟩
/-- `itv_gen` (class 0x19). -/
abbrev itv_gen : AttrId := ⟨0x19, 0x0003⟩
/-- `itv_gen_max` (class 0x19). -/
abbrev itv_gen_max : AttrId := ⟨0x19, 0x0004⟩
/-- `train_step` (class 0x19). -/
abbrev train_step : AttrId := ⟨0x19, 0x0005⟩
/-- `peer_serial` (class 0x19). -/
abbrev peer_serial : AttrId := ⟨0x19, 0x0006⟩
/-- `eq_max_us` (class 0x19). -/
abbrev eq_max_us : AttrId := ⟨0x19, 0x0007⟩
/-- `retry_ms` (class 0x19). -/
abbrev retry_ms : AttrId := ⟨0x19, 0x0008⟩
/-- `tx_taps` (class 0x19). -/
abbrev tx_taps : AttrId := ⟨0x19, 0x0009⟩
/-- `sleep_after_ns` (class 0x19). -/
abbrev sleep_after_ns : AttrId := ⟨0x19, 0x000A⟩
/-- `deep_after_ms` (class 0x19). -/
abbrev deep_after_ms : AttrId := ⟨0x19, 0x000B⟩
/-- `tx_pm` (class 0x19). -/
abbrev tx_pm : AttrId := ⟨0x19, 0x000C⟩
/-- `rx_pm` (class 0x19). -/
abbrev rx_pm : AttrId := ⟨0x19, 0x000D⟩
/-- `ack_timeout_us` (class 0x19). -/
abbrev ack_timeout_us : AttrId := ⟨0x19, 0x000E⟩
/-- `itv_asym_ps` (class 0x19). -/
abbrev itv_asym_ps : AttrId := ⟨0x19, 0x000F⟩
/-- `eye_width` (class 0x19). -/
abbrev eye_width : AttrId := ⟨0x19, 0x0010⟩
/-- `eye_height` (class 0x19). -/
abbrev eye_height : AttrId := ⟨0x19, 0x0011⟩
/-- `eye_tb1` (class 0x19). -/
abbrev eye_tb1 : AttrId := ⟨0x19, 0x0012⟩
/-- `eye_min_ui` (class 0x19). -/
abbrev eye_min_ui : AttrId := ⟨0x19, 0x0013⟩
/-- `eye_min_mv` (class 0x19). -/
abbrev eye_min_mv : AttrId := ⟨0x19, 0x0014⟩
/-- `train_fails` (class 0x19). -/
abbrev train_fails : AttrId := ⟨0x19, 0x0020⟩
/-- `crc_errs` (class 0x19). -/
abbrev itv_crc_errs : AttrId := ⟨0x19, 0x0021⟩
/-- `replays` (class 0x19). -/
abbrev replays : AttrId := ⟨0x19, 0x0022⟩
/-- `sync_errs` (class 0x19). -/
abbrev sync_errs : AttrId := ⟨0x19, 0x0023⟩
/-- `frames_tx` (class 0x19). -/
abbrev frames_tx : AttrId := ⟨0x19, 0x0024⟩
/-- `frames_rx` (class 0x19). -/
abbrev frames_rx : AttrId := ⟨0x19, 0x0025⟩
/-- `link_downs` (class 0x19). -/
abbrev link_downs : AttrId := ⟨0x19, 0x0026⟩
/-- `eth_enable` (class 0x17). -/
abbrev eth_enable : AttrId := ⟨0x17, 0x0001⟩
/-- `eth_rate` (class 0x17). -/
abbrev eth_rate : AttrId := ⟨0x17, 0x0002⟩
/-- `eth_fec` (class 0x17). -/
abbrev eth_fec : AttrId := ⟨0x17, 0x0003⟩
/-- `link_up` (class 0x17). -/
abbrev link_up : AttrId := ⟨0x17, 0x0004⟩
/-- `mac_addr` (class 0x17). -/
abbrev mac_addr : AttrId := ⟨0x17, 0x0005⟩
/-- `mtu` (class 0x17). -/
abbrev mtu : AttrId := ⟨0x17, 0x0006⟩
/-- `vlan` (class 0x17). -/
abbrev vlan : AttrId := ⟨0x17, 0x0007⟩
/-- `ipv4_addr` (class 0x17). -/
abbrev ipv4_addr : AttrId := ⟨0x17, 0x0008⟩
/-- `ipv4_prefix` (class 0x17). -/
abbrev ipv4_prefix : AttrId := ⟨0x17, 0x0009⟩
/-- `ipv6_addr` (class 0x17). -/
abbrev ipv6_addr : AttrId := ⟨0x17, 0x000A⟩
/-- `ipv6_prefix` (class 0x17). -/
abbrev ipv6_prefix : AttrId := ⟨0x17, 0x000B⟩
/-- `autoneg` (class 0x17). -/
abbrev autoneg : AttrId := ⟨0x17, 0x000C⟩
/-- `rx_frames` (class 0x17). -/
abbrev rx_frames : AttrId := ⟨0x17, 0x0010⟩
/-- `tx_frames` (class 0x17). -/
abbrev tx_frames : AttrId := ⟨0x17, 0x0011⟩
/-- `fcs_errs` (class 0x17). -/
abbrev fcs_errs : AttrId := ⟨0x17, 0x0012⟩
/-- `fec_corrected` (class 0x17). -/
abbrev fec_corrected : AttrId := ⟨0x17, 0x0013⟩
/-- `fec_uncorrected` (class 0x17). -/
abbrev fec_uncorrected : AttrId := ⟨0x17, 0x0014⟩
/-- `eth_drops` (class 0x17). -/
abbrev eth_drops : AttrId := ⟨0x17, 0x0015⟩
/-- `pause_rx` (class 0x17). -/
abbrev pause_rx : AttrId := ⟨0x17, 0x0016⟩
/-- `pcie_link` (class 0x18). -/
abbrev pcie_link : AttrId := ⟨0x18, 0x0001⟩
/-- `pcie_gen` (class 0x18). -/
abbrev pcie_gen : AttrId := ⟨0x18, 0x0002⟩
/-- `pcie_width` (class 0x18). -/
abbrev pcie_width : AttrId := ⟨0x18, 0x0003⟩
/-- `pcie_gen_max` (class 0x18). -/
abbrev pcie_gen_max : AttrId := ⟨0x18, 0x0004⟩
/-- `mps` (class 0x18). -/
abbrev mps : AttrId := ⟨0x18, 0x0005⟩
/-- `msix_en` (class 0x18). -/
abbrev msix_en : AttrId := ⟨0x18, 0x0006⟩
/-- `vendor_id` (class 0x18). -/
abbrev vendor_id : AttrId := ⟨0x18, 0x0007⟩
/-- `device_id` (class 0x18). -/
abbrev device_id : AttrId := ⟨0x18, 0x0008⟩
/-- `bar2_aps` (class 0x18). -/
abbrev bar2_aps : AttrId := ⟨0x18, 0x0010⟩
/-- `aer_corr` (class 0x18). -/
abbrev aer_corr : AttrId := ⟨0x18, 0x0020⟩
/-- `aer_uncorr` (class 0x18). -/
abbrev aer_uncorr : AttrId := ⟨0x18, 0x0021⟩
/-- `flr_count` (class 0x18). -/
abbrev flr_count : AttrId := ⟨0x18, 0x0022⟩
/-- `bar_rejects` (class 0x18). -/
abbrev bar_rejects : AttrId := ⟨0x18, 0x0023⟩
/-- `sys_role` (class 0x1A). -/
abbrev sys_role : AttrId := ⟨0x1A, 0x0001⟩
/-- `node_base` (class 0x1A). -/
abbrev node_base : AttrId := ⟨0x1A, 0x0002⟩
/-- `node_count` (class 0x1A). -/
abbrev node_count : AttrId := ⟨0x1A, 0x0003⟩
/-- `sys_nodes` (class 0x1A). -/
abbrev sys_nodes : AttrId := ⟨0x1A, 0x0004⟩
/-- `sys_packages` (class 0x1A). -/
abbrev sys_packages : AttrId := ⟨0x1A, 0x0005⟩
/-- `sys_master_en` (class 0x1A). -/
abbrev sys_master_en : AttrId := ⟨0x1A, 0x0006⟩
/-- `sys_priority` (class 0x1A). -/
abbrev sys_priority : AttrId := ⟨0x1A, 0x0007⟩
/-- `master_serial` (class 0x1A). -/
abbrev master_serial : AttrId := ⟨0x1A, 0x0008⟩
/-- `time_master` (class 0x1A). -/
abbrev time_master : AttrId := ⟨0x1A, 0x0009⟩
/-- `itv_sync_ms` (class 0x1A). -/
abbrev itv_sync_ms : AttrId := ⟨0x1A, 0x000A⟩
/-- `auto_enum` (class 0x1A). -/
abbrev auto_enum : AttrId := ⟨0x1A, 0x000B⟩
/-- `sys_gen` (class 0x1A). -/
abbrev sys_gen : AttrId := ⟨0x1A, 0x000C⟩
/-- `tun_udp_port` (class 0x1A). -/
abbrev tun_udp_port : AttrId := ⟨0x1A, 0x000D⟩
/-- `tun_peers` (class 0x1A). -/
abbrev tun_peers : AttrId := ⟨0x1A, 0x000E⟩
/-- `tun_ack_us` (class 0x1A). -/
abbrev tun_ack_us : AttrId := ⟨0x1A, 0x000F⟩
/-- `depth` (class 0x1A). -/
abbrev depth : AttrId := ⟨0x1A, 0x0010⟩
/-- `upstream` (class 0x1A). -/
abbrev upstream : AttrId := ⟨0x1A, 0x0011⟩
/-- `addr_full` (class 0x1A). -/
abbrev addr_full : AttrId := ⟨0x1A, 0x0012⟩
/-- `sn_kind` (class 0x1B). -/
abbrev sn_kind : AttrId := ⟨0x1B, 0x0001⟩
/-- `sn_value` (class 0x1B). -/
abbrev sn_value : AttrId := ⟨0x1B, 0x0002⟩
/-- `sn_raw` (class 0x1B). -/
abbrev sn_raw : AttrId := ⟨0x1B, 0x0003⟩
/-- `sn_state` (class 0x1B). -/
abbrev sn_state : AttrId := ⟨0x1B, 0x0004⟩
/-- `sn_flags` (class 0x1B). -/
abbrev sn_flags : AttrId := ⟨0x1B, 0x0005⟩
/-- `sn_tb1` (class 0x1B). -/
abbrev sn_tb1 : AttrId := ⟨0x1B, 0x0006⟩
/-- `sn_max` (class 0x1B). -/
abbrev sn_max : AttrId := ⟨0x1B, 0x0007⟩
/-- `sn_min` (class 0x1B). -/
abbrev sn_min : AttrId := ⟨0x1B, 0x0008⟩
/-- `warm` (class 0x1B). -/
abbrev warm : AttrId := ⟨0x1B, 0x0010⟩
/-- `hot` (class 0x1B). -/
abbrev hot : AttrId := ⟨0x1B, 0x0011⟩
/-- `critical` (class 0x1B). -/
abbrev critical : AttrId := ⟨0x1B, 0x0012⟩
/-- `hyst` (class 0x1B). -/
abbrev hyst : AttrId := ⟨0x1B, 0x0013⟩
/-- `rise_limit` (class 0x1B). -/
abbrev rise_limit : AttrId := ⟨0x1B, 0x0014⟩
/-- `rise_window_ms` (class 0x1B). -/
abbrev rise_window_ms : AttrId := ⟨0x1B, 0x0015⟩
/-- `policy` (class 0x1B). -/
abbrev policy : AttrId := ⟨0x1B, 0x0016⟩
/-- `ohm_25c` (class 0x1B). -/
abbrev ohm_25c : AttrId := ⟨0x1B, 0x0017⟩
/-- `beta` (class 0x1B). -/
abbrev beta : AttrId := ⟨0x1B, 0x0018⟩
/-- `lim_lo_mv` (class 0x1B). -/
abbrev lim_lo_mv : AttrId := ⟨0x1B, 0x0019⟩
/-- `lim_hi_mv` (class 0x1B). -/
abbrev lim_hi_mv : AttrId := ⟨0x1B, 0x001A⟩
/-- `round_ms` (class 0x1C). -/
abbrev round_ms : AttrId := ⟨0x1C, 0x0001⟩
/-- `rounds` (class 0x1C). -/
abbrev rounds : AttrId := ⟨0x1C, 0x0002⟩
/-- `throttle` (class 0x1C). -/
abbrev throttle : AttrId := ⟨0x1C, 0x0003⟩
/-- `throttle_min` (class 0x1C). -/
abbrev throttle_min : AttrId := ⟨0x1C, 0x0004⟩
/-- `throttle_step` (class 0x1C). -/
abbrev throttle_step : AttrId := ⟨0x1C, 0x0005⟩
/-- `tj_max` (class 0x1C). -/
abbrev tj_max : AttrId := ⟨0x1C, 0x0006⟩
/-- `tj_mean` (class 0x1C). -/
abbrev tj_mean : AttrId := ⟨0x1C, 0x0007⟩
/-- `speed_lim_req` (class 0x1C). -/
abbrev speed_lim_req : AttrId := ⟨0x1C, 0x0008⟩
/-- `nv_write_ok` (class 0x1C). -/
abbrev nv_write_ok : AttrId := ⟨0x1C, 0x0009⟩
/-- `crit_stop_ms` (class 0x1C). -/
abbrev crit_stop_ms : AttrId := ⟨0x1C, 0x000A⟩
/-- `trip_latched` (class 0x1C). -/
abbrev trip_latched : AttrId := ⟨0x1C, 0x000B⟩
/-- `trips` (class 0x1C). -/
abbrev trips : AttrId := ⟨0x1C, 0x000C⟩
/-- `shutdown` (class 0x1C). -/
abbrev shutdown : AttrId := ⟨0x1C, 0x000D⟩
/-- `cal_state` (class 0x1D). -/
abbrev cal_state : AttrId := ⟨0x1D, 0x0001⟩
/-- `cal_runs` (class 0x1D). -/
abbrev cal_runs : AttrId := ⟨0x1D, 0x0002⟩
/-- `cal_tb0` (class 0x1D). -/
abbrev cal_tb0 : AttrId := ⟨0x1D, 0x0003⟩
/-- `cal_temp` (class 0x1D). -/
abbrev cal_temp : AttrId := ⟨0x1D, 0x0004⟩
/-- `cal_auto` (class 0x1D). -/
abbrev cal_auto : AttrId := ⟨0x1D, 0x0005⟩
/-- `cal_retrigger` (class 0x1D). -/
abbrev cal_retrigger : AttrId := ⟨0x1D, 0x0006⟩
/-- `cal_period_s` (class 0x1D). -/
abbrev cal_period_s : AttrId := ⟨0x1D, 0x0007⟩
/-- `quality` (class 0x1D). -/
abbrev quality : AttrId := ⟨0x1D, 0x0008⟩
/-- `quality_tb1` (class 0x1D). -/
abbrev quality_tb1 : AttrId := ⟨0x1D, 0x0009⟩
/-- `cal_unsaved` (class 0x1D). -/
abbrev cal_unsaved : AttrId := ⟨0x1D, 0x000A⟩
/-- `cal_fails` (class 0x1D). -/
abbrev cal_fails : AttrId := ⟨0x1D, 0x000B⟩
/-- `cal_values` (class 0x1D). -/
abbrev cal_values : AttrId := ⟨0x1D, 0x000C⟩
/-- `vref_mv` (class 0x1D). -/
abbrev vref_mv : AttrId := ⟨0x1D, 0x0020⟩
/-- `tile_roi` (class 0x1D). -/
abbrev tile_roi : AttrId := ⟨0x1D, 0x0021⟩
/-- `cam_res_max` (class 0x1D). -/
abbrev cam_res_max : AttrId := ⟨0x1D, 0x0022⟩
/-- `cal_frame_us` (class 0x1D). -/
abbrev cal_frame_us : AttrId := ⟨0x1D, 0x0023⟩
/-- `lead_die` (class 0x1E). -/
abbrev lead_die : AttrId := ⟨0x1E, 0x0001⟩
/-- `ld_states` (class 0x1E). -/
abbrev ld_states : AttrId := ⟨0x1E, 0x0002⟩
/-- `ld_causes` (class 0x1E). -/
abbrev ld_causes : AttrId := ⟨0x1E, 0x0003⟩
/-- `wd_ms` (class 0x1E). -/
abbrev wd_ms : AttrId := ⟨0x1E, 0x0004⟩
/-- `kennel_interval_ms` (class 0x1E). -/
abbrev kennel_interval_ms : AttrId := ⟨0x1E, 0x0005⟩
/-- `kennel_seq` (class 0x1E). -/
abbrev kennel_seq : AttrId := ⟨0x1E, 0x0006⟩
/-- `kennel_tb0` (class 0x1E). -/
abbrev kennel_tb0 : AttrId := ⟨0x1E, 0x0007⟩
/-- `kennel_bytes` (class 0x1E). -/
abbrev kennel_bytes : AttrId := ⟨0x1E, 0x0008⟩
/-- `kennel_age_ms` (class 0x1E). -/
abbrev kennel_age_ms : AttrId := ⟨0x1E, 0x0009⟩
/-- `auto_repair` (class 0x1E). -/
abbrev auto_repair : AttrId := ⟨0x1E, 0x000A⟩
/-- `repair_delay_ms` (class 0x1E). -/
abbrev repair_delay_ms : AttrId := ⟨0x1E, 0x000B⟩
/-- `takeovers` (class 0x1E). -/
abbrev takeovers : AttrId := ⟨0x1E, 0x0010⟩
/-- `last_takeover_us` (class 0x1E). -/
abbrev last_takeover_us : AttrId := ⟨0x1E, 0x0011⟩
/-- `kennel_errs` (class 0x1E). -/
abbrev kennel_errs : AttrId := ⟨0x1E, 0x0012⟩
/-- `kennel_late` (class 0x1E). -/
abbrev kennel_late : AttrId := ⟨0x1E, 0x0013⟩
/-- `reissue_count` (class 0x1E). -/
abbrev reissue_count : AttrId := ⟨0x1E, 0x0014⟩
/-- `reissue_over` (class 0x1E). -/
abbrev reissue_over : AttrId := ⟨0x1E, 0x0015⟩
/-- `reissue` (class 0x1E). -/
abbrev reissue : AttrId := ⟨0x1E, 0x0016⟩
/-- `er_oldest` (class 0x1F). -/
abbrev er_oldest : AttrId := ⟨0x1F, 0x0001⟩
/-- `er_newest` (class 0x1F). -/
abbrev er_newest : AttrId := ⟨0x1F, 0x0002⟩
/-- `er_durable` (class 0x1F). -/
abbrev er_durable : AttrId := ⟨0x1F, 0x0003⟩
/-- `er_capacity` (class 0x1F). -/
abbrev er_capacity : AttrId := ⟨0x1F, 0x0004⟩
/-- `fb_depth` (class 0x1F). -/
abbrev fb_depth : AttrId := ⟨0x1F, 0x0005⟩
/-- `fb_max` (class 0x1F). -/
abbrev fb_max : AttrId := ⟨0x1F, 0x0006⟩
/-- `evq_mask` (class 0x1F). -/
abbrev evq_mask : AttrId := ⟨0x1F, 0x0007⟩
/-- `suppressed` (class 0x1F). -/
abbrev suppressed : AttrId := ⟨0x1F, 0x0008⟩
/-- `backlog_folds` (class 0x1F). -/
abbrev backlog_folds : AttrId := ⟨0x1F, 0x0009⟩
/-- `power_losses` (class 0x1F). -/
abbrev power_losses : AttrId := ⟨0x1F, 0x000A⟩
/-- `pd_on` (class 0x20). -/
abbrev pd_on : AttrId := ⟨0x20, 0x0001⟩
/-- `pd_busy` (class 0x20). -/
abbrev pd_busy : AttrId := ⟨0x20, 0x0002⟩
/-- `reset_cause` (class 0x20). -/
abbrev reset_cause : AttrId := ⟨0x20, 0x0003⟩
/-- `boot_count` (class 0x20). -/
abbrev boot_count : AttrId := ⟨0x20, 0x0004⟩
/-- `boot_ms` (class 0x20). -/
abbrev boot_ms : AttrId := ⟨0x20, 0x0005⟩
/-- `straps` (class 0x20). -/
abbrev straps : AttrId := ⟨0x20, 0x0006⟩
/-- `rails_good` (class 0x20). -/
abbrev rails_good : AttrId := ⟨0x20, 0x0007⟩
/-- `rail_faults` (class 0x20). -/
abbrev rail_faults : AttrId := ⟨0x20, 0x0008⟩
/-- `clk_faults` (class 0x20). -/
abbrev clk_faults : AttrId := ⟨0x20, 0x0009⟩
/-- `nv_size` (class 0x21). -/
abbrev nv_size : AttrId := ⟨0x21, 0x0001⟩
/-- `nv_erase_max` (class 0x21). -/
abbrev nv_erase_max : AttrId := ⟨0x21, 0x0002⟩
/-- `fw_a_state` (class 0x21). -/
abbrev fw_a_state : AttrId := ⟨0x21, 0x0003⟩
/-- `fw_b_state` (class 0x21). -/
abbrev fw_b_state : AttrId := ⟨0x21, 0x0004⟩
/-- `fw_a_ver` (class 0x21). -/
abbrev fw_a_ver : AttrId := ⟨0x21, 0x0005⟩
/-- `fw_b_ver` (class 0x21). -/
abbrev fw_b_ver : AttrId := ⟨0x21, 0x0006⟩
/-- `boot_fails` (class 0x21). -/
abbrev boot_fails : AttrId := ⟨0x21, 0x0007⟩
/-- `gh_script` (class 0x21). -/
abbrev gh_script : AttrId := ⟨0x21, 0x0010⟩
/-- `gh_script_len` (class 0x21). -/
abbrev gh_script_len : AttrId := ⟨0x21, 0x0011⟩
/-- `gh_spit_lines` (class 0x21). -/
abbrev gh_spit_lines : AttrId := ⟨0x21, 0x0012⟩
/-- `gh_spit_interval_s` (class 0x21). -/
abbrev gh_spit_interval_s : AttrId := ⟨0x21, 0x0013⟩
/-- `gh_runin_mm` (class 0x21). -/
abbrev gh_runin_mm : AttrId := ⟨0x21, 0x0014⟩
end A

/-- Attribute map of class 0x01, part 0. -/
def attrMap01_0 : List AttrRow := [
  ⟨"die_index", 0, 7, 0x0001, 0x0001, 8, .ro, 0, .any, false, false, false⟩,
  ⟨"step", 0, 7, 0x0002, 0x0002, 8, .ro, 0, .any, false, false, false⟩,
  ⟨"bl", 0, 7, 0x0003, 0x0003, 8, .ro, 0, .any, false, false, false⟩,
  ⟨"bl_strap", 0, 7, 0x0004, 0x0004, 1, .ro, 0, .any, false, false, false⟩,
  ⟨"bl_nv", 0, 7, 0x0005, 0x0005, 8, .ro, 0, .any, false, false, false⟩,
  ⟨"mbx_timeout", 0, 7, 0x0010, 0x0010, 32, .rw, 100000, .rng 1000 10000000, false, false, false⟩,
  ⟨"mbx_late_replies", 0, 7, 0x0011, 0x0011, 32, .rc, 0, .any, false, false, false⟩,
  ⟨"mbx_timeouts", 0, 7, 0x0012, 0x0012, 32, .rc, 0, .any, false, false, false⟩,
  ⟨"rmbx_port_en", 0, 7, 0x0013, 0x0013, 2, .rw, 3, .any, false, false, false⟩,
  ⟨"rmbx_dup_window", 0, 7, 0x0014, 0x0014, 16, .rw, 2000, .rng 100 60000, false, false, false⟩,
  ⟨"rmbx_bad", 0, 7, 0x0015, 0x0015, 32, .rc, 0, .any, false, false, false⟩,
  ⟨"stage_idle", 0, 7, 0x0016, 0x0016, 16, .rw, 10, .rng 1 600, false, false, false⟩]
/-- Attribute map of class 0x01, part 1. -/
def attrMap01_1 : List AttrRow := [
  ⟨"sources_seen", 0, 7, 0x0020, 0x0020, 16, .ro, 0, .any, true, false, false⟩,
  ⟨"cfg_changes", 0, 7, 0x0021, 0x0021, 64, .ro, 0, .any, false, false, false⟩]
/-- Attribute map of class 0x01. -/
def attrMap01 : List AttrRow := attrMap01_0 ++ attrMap01_1

/-- Attribute map of class 0x02, part 0. -/
def attrMap02_0 : List AttrRow := [
  ⟨"q_enabled", 0, 63, 0x0001, 0x0001, 1, .ro, 0, .any, false, false, false⟩,
  ⟨"q_size", 0, 63, 0x0002, 0x0002, 15, .ro, 0, .any, false, false, false⟩,
  ⟨"q_cfg", 0, 63, 0x0003, 0x0003, 32, .ro, 0, .any, false, false, false⟩,
  ⟨"q_depth", 0, 63, 0x0004, 0x0004, 15, .ro, 0, .any, false, false, false⟩,
  ⟨"q_max_depth", 0, 63, 0x0005, 0x0005, 15, .rc, 0, .any, false, false, false⟩,
  ⟨"q_pushes", 0, 63, 0x0010, 0x0010, 32, .rc, 0, .any, false, false, false⟩,
  ⟨"q_pops", 0, 63, 0x0011, 0x0011, 32, .rc, 0, .any, false, false, false⟩,
  ⟨"q_underruns", 0, 63, 0x0012, 0x0012, 32, .rc, 0, .any, false, false, false⟩,
  ⟨"q_overflows", 0, 63, 0x0013, 0x0013, 32, .rc, 0, .any, false, false, false⟩,
  ⟨"q_rewinds", 0, 63, 0x0014, 0x0014, 32, .rc, 0, .any, false, false, false⟩,
  ⟨"q_oversize", 0, 63, 0x0015, 0x0015, 32, .rc, 0, .any, false, false, false⟩,
  ⟨"q_pkt_bad", 0, 63, 0x0016, 0x0016, 32, .rc, 0, .any, false, false, false⟩]
/-- Attribute map of class 0x02. -/
def attrMap02 : List AttrRow := attrMap02_0

/-- Attribute map of class 0x03, part 0. -/
def attrMap03_0 : List AttrRow := [
  ⟨"enc_enable", 0, 1, 0x0001, 0x0001, 1, .rw, 0, .any, false, false, false⟩,
  ⟨"enc_mode", 0, 1, 0x0002, 0x0002, 2, .rw, 0, .rng 0 2, false, false, false⟩,
  ⟨"dir_invert", 0, 1, 0x0003, 0x0003, 1, .rw, 0, .any, false, false, false⟩,
  ⟨"glitch_ns", 0, 1, 0x0004, 0x0004, 8, .rw, 20, .rng 0 200, false, false, false⟩,
  ⟨"scale", 0, 1, 0x0005, 0x0005, 64, .rw, 0, .any, false, false, false⟩,
  ⟨"raw_count", 0, 1, 0x0006, 0x0006, 48, .ro, 0, .any, true, false, false⟩,
  ⟨"count", 0, 1, 0x0007, 0x0007, 48, .ro, 0, .any, true, false, false⟩,
  ⟨"enc_flags", 0, 1, 0x0008, 0x0008, 8, .ro, 0, .any, false, false, false⟩,
  ⟨"slip_pending", 0, 1, 0x0009, 0x0009, 16, .ro, 0, .any, true, false, false⟩,
  ⟨"slip_slew", 0, 1, 0x000A, 0x000A, 16, .rw, 64, .rng 8 1024, false, false, false⟩,
  ⟨"index_period", 0, 1, 0x0010, 0x0010, 32, .rw, 0, .any, false, false, false⟩,
  ⟨"index_window", 0, 1, 0x0011, 0x0011, 16, .rw, 16, .rng 1 32768, false, false, false⟩]
/-- Attribute map of class 0x03, part 1. -/
def attrMap03_1 : List AttrRow := [
  ⟨"index_gate", 0, 1, 0x0012, 0x0012, 1, .rw, 1, .any, false, false, false⟩,
  ⟨"home_on_index", 0, 1, 0x0013, 0x0013, 1, .rw, 0, .any, false, false, false⟩,
  ⟨"home_value", 0, 1, 0x0014, 0x0014, 48, .rw, 0, .any, true, false, false⟩,
  ⟨"mag_home", 0, 1, 0x0015, 0x0015, 3, .rw, 0, .rng 0 4, false, false, false⟩,
  ⟨"mag_debounce_us", 0, 1, 0x0016, 0x0016, 16, .rw, 100, .rng 1 10000, false, false, false⟩,
  ⟨"mag_state", 0, 1, 0x0017, 0x0017, 2, .ro, 0, .any, false, false, false⟩,
  ⟨"abs_bits", 0, 1, 0x0020, 0x0020, 6, .rw, 24, .rng 10 32, false, false, false⟩,
  ⟨"abs_gray", 0, 1, 0x0021, 0x0021, 1, .rw, 1, .any, false, false, false⟩,
  ⟨"abs_flag_bits", 0, 1, 0x0022, 0x0022, 2, .rw, 0, .rng 0 2, false, false, false⟩,
  ⟨"abs_crc", 0, 1, 0x0023, 0x0023, 2, .rw, 0, .any, false, false, false⟩,
  ⟨"abs_clk_khz", 0, 1, 0x0024, 0x0024, 16, .rw, 1000, .rng 100 10000, false, false, false⟩,
  ⟨"abs_delay_ns", 0, 1, 0x0025, 0x0025, 16, .rw, 0, .rng 0 2000, false, false, false⟩]
/-- Attribute map of class 0x03, part 2. -/
def attrMap03_2 : List AttrRow := [
  ⟨"abs_timeout_us", 0, 1, 0x0026, 0x0026, 16, .rw, 40, .rng 5 1000, false, false, false⟩,
  ⟨"abs_period_us", 0, 1, 0x0027, 0x0027, 16, .rw, 100, .zeroOr 10 10000, false, false, false⟩,
  ⟨"abs_cpl", 0, 1, 0x0028, 0x0028, 32, .rw, 65536, .rng 1 4294967295, false, false, false⟩,
  ⟨"abs_window", 0, 1, 0x0029, 0x0029, 32, .rw, 64, .any, false, false, false⟩,
  ⟨"abs_request", 0, 1, 0x002A, 0x002A, 1, .wo, 0, .any, false, false, false⟩,
  ⟨"abs_last", 0, 1, 0x002B, 0x002B, 32, .ro, 0, .any, false, false, false⟩,
  ⟨"quad_errs", 0, 1, 0x0030, 0x0030, 32, .rc, 0, .any, false, false, false⟩,
  ⟨"index_errs", 0, 1, 0x0031, 0x0031, 32, .rc, 0, .any, false, false, false⟩,
  ⟨"slips", 0, 1, 0x0032, 0x0032, 32, .rc, 0, .any, false, false, false⟩,
  ⟨"slip_total", 0, 1, 0x0033, 0x0033, 32, .ro, 0, .any, true, false, false⟩,
  ⟨"abs_errs", 0, 1, 0x0034, 0x0034, 32, .rc, 0, .any, false, false, false⟩]
/-- Attribute map of class 0x03. -/
def attrMap03 : List AttrRow := attrMap03_0 ++ attrMap03_1 ++ attrMap03_2

/-- Attribute map of class 0x04, part 0. -/
def attrMap04_0 : List AttrRow := [
  ⟨"pos_source", 0, 0, 0x0001, 0x0001, 2, .rw, 0, .rng 0 2, false, false, false⟩,
  ⟨"wpos", 0, 0, 0x0002, 0x0002, 64, .ro, 0, .any, false, false, false⟩,
  ⟨"lpos", 0, 0, 0x0003, 0x0003, 64, .ro, 0, .any, false, false, false⟩,
  ⟨"speed", 0, 0, 0x0004, 0x0004, 32, .ro, 0, .any, true, false, false⟩,
  ⟨"accel", 0, 0, 0x0005, 0x0005, 32, .ro, 0, .any, true, false, false⟩,
  ⟨"pos_flags", 0, 0, 0x0006, 0x0006, 8, .ro, 0, .any, false, false, false⟩,
  ⟨"pair_seq", 0, 0, 0x0007, 0x0007, 32, .ro, 0, .any, false, false, false⟩,
  ⟨"pair", 0, 0, 0x0008, 0x0008, 320, .ro, 0, .any, false, false, false⟩,
  ⟨"pair_interval_ns", 0, 0, 0x0010, 0x0010, 16, .rw, 1000, .rng 100 50000, false, false, false⟩,
  ⟨"speed_window_us", 0, 0, 0x0011, 0x0011, 16, .rw, 500, .rng 50 50000, false, false, false⟩,
  ⟨"still_time_us", 0, 0, 0x0012, 0x0012, 32, .rw, 10000, .rng 100 1000000, false, false, false⟩,
  ⟨"stretch_ref", 0, 0, 0x0020, 0x0020, 3, .rw, 0, .any, false, false, false⟩]
/-- Attribute map of class 0x04, part 1. -/
def attrMap04_1 : List AttrRow := [
  ⟨"stretch", 0, 0, 0x0021, 0x0021, 32, .ro, 1073741824, .any, false, false, false⟩,
  ⟨"stretch_raw", 0, 0, 0x0022, 0x0022, 32, .ro, 1073741824, .any, false, false, false⟩,
  ⟨"stretch_init", 0, 0, 0x0023, 0x0023, 32, .rw, 1073741824, .any, false, false, false⟩,
  ⟨"stretch_trim", 0, 0, 0x0024, 0x0024, 32, .rw, 0, .any, true, false, false⟩,
  ⟨"stretch_window_mm", 0, 0, 0x0025, 0x0025, 16, .rw, 1000, .rng 100 10000, false, false, false⟩,
  ⟨"stretch_tc_mm", 0, 0, 0x0026, 0x0026, 32, .rw, 10000, .rng 0 1000000, false, false, false⟩,
  ⟨"stretch_limit_ppm", 0, 0, 0x0027, 0x0027, 16, .rw, 20000, .rng 100 50000, false, false, false⟩,
  ⟨"stretch_min_speed", 0, 0, 0x0028, 0x0028, 32, .rw, 83333, .any, false, false, false⟩,
  ⟨"stretch_windows", 0, 0, 0x0029, 0x0029, 32, .rc, 0, .any, false, false, false⟩]
/-- Attribute map of class 0x04. -/
def attrMap04 : List AttrRow := attrMap04_0 ++ attrMap04_1

/-- Attribute map of class 0x05, part 0. -/
def attrMap05_0 : List AttrRow := [
  ⟨"cmp_state", 0, 15, 0x0001, 0x0001, 2, .ro, 0, .any, false, false, false⟩,
  ⟨"cmp_value", 0, 15, 0x0002, 0x0002, 64, .ro, 0, .any, true, false, false⟩,
  ⟨"cmp_ctl", 0, 15, 0x0003, 0x0003, 32, .ro, 0, .any, false, false, false⟩,
  ⟨"cmp_step", 0, 15, 0x0004, 0x0004, 32, .ro, 0, .any, false, false, false⟩,
  ⟨"cmp_fires", 0, 15, 0x0005, 0x0005, 32, .rc, 0, .any, false, false, false⟩,
  ⟨"cmp_missed", 0, 15, 0x0006, 0x0006, 32, .rc, 0, .any, false, false, false⟩,
  ⟨"cmp_last_tb1", 0, 15, 0x0007, 0x0007, 64, .ro, 0, .any, false, false, false⟩]
/-- Attribute map of class 0x05. -/
def attrMap05 : List AttrRow := attrMap05_0

/-- Attribute map of class 0x06, part 0. -/
def attrMap06_0 : List AttrRow := [
  ⟨"le_state", 0, 0, 0x0001, 0x0001, 3, .ro, 0, .any, false, false, false⟩,
  ⟨"hwm", 0, 0, 0x0002, 0x0002, 64, .ro, 0, .any, true, false, false⟩,
  ⟨"hs_out", 0, 0, 0x0003, 0x0003, 5, .ro, 0, .any, false, false, false⟩,
  ⟨"hs_in", 0, 0, 0x0004, 0x0004, 3, .ro, 0, .any, false, false, false⟩,
  ⟨"speed_limit", 0, 0, 0x0005, 0x0005, 32, .ro, 0, .any, false, false, false⟩,
  ⟨"line_pitch", 0, 0, 0x0010, 0x0010, 64, .rw, 90910141098667, .rng 4294967296000 4294967296000000, false, false, false⟩,
  ⟨"bar_offset_nm", 0, 0, 0x0011, 0x0011, 64, .rw, 0, .rng (-100000000000) 100000000000, true, true, false⟩,
  ⟨"retime_tol_ps", 0, 0, 0x0012, 0x0012, 16, .rw, 500, .rng 125 10000, false, false, false⟩,
  ⟨"arm_lock_ns", 0, 0, 0x0013, 0x0013, 16, .rw, 200, .rng 20 5000, false, false, false⟩,
  ⟨"predict_horizon", 0, 0, 0x0014, 0x0014, 16, .rw, 16, .rng 1 4096, false, false, false⟩,
  ⟨"use_accel", 0, 0, 0x0015, 0x0015, 1, .rw, 1, .any, false, false, false⟩,
  ⟨"rearm_counts", 0, 0, 0x0016, 0x0016, 16, .rw, 8, .rng 2 65535, false, false, false⟩]
/-- Attribute map of class 0x06, part 1. -/
def attrMap06_1 : List AttrRow := [
  ⟨"speed_lookahead_ms", 0, 0, 0x0017, 0x0017, 16, .rw, 100, .rng 0 2000, false, false, false⟩,
  ⟨"require_press_run", 0, 0, 0x0018, 0x0018, 1, .rw, 1, .any, false, false, false⟩,
  ⟨"hs_filter_us", 0, 0, 0x0019, 0x0019, 16, .rw, 10, .rng 1 10000, false, false, false⟩,
  ⟨"drops_speed", 0, 0, 0x0020, 0x0020, 32, .rc, 0, .any, false, false, false⟩,
  ⟨"drops_data", 0, 0, 0x0021, 0x0021, 32, .rc, 0, .any, false, false, false⟩,
  ⟨"late_fires", 0, 0, 0x0022, 0x0022, 32, .rc, 0, .any, false, false, false⟩,
  ⟨"max_late_ns", 0, 0, 0x0023, 0x0023, 32, .rc, 0, .any, false, false, false⟩,
  ⟨"rearms", 0, 0, 0x0024, 0x0024, 32, .rc, 0, .any, false, false, false⟩,
  ⟨"reversals", 0, 0, 0x0025, 0x0025, 32, .rc, 0, .any, false, false, false⟩,
  ⟨"seams", 0, 0, 0x0026, 0x0026, 32, .rc, 0, .any, false, false, false⟩,
  ⟨"defect_lost", 0, 0, 0x0027, 0x0027, 32, .rc, 0, .any, false, false, false⟩,
  ⟨"port_offset_nm", 1, 24, 0x0001, 0x0001, 32, .rw, 0, .rng (-100000000) 100000000, true, true, false⟩]
/-- Attribute map of class 0x06, part 2. -/
def attrMap06_2 : List AttrRow := [
  ⟨"fire_lead_ns", 1, 24, 0x0002, 0x0002, 32, .rw, 0, .rng 0 1000000, false, true, false⟩,
  ⟨"min_fire_period_ns", 1, 24, 0x0003, 0x0003, 32, .rw, 0, .zeroOr 1 1000000, false, false, false⟩,
  ⟨"commit_lead_ns", 1, 24, 0x0004, 0x0004, 32, .rw, 0, .zeroOr 1 1000000, false, false, false⟩,
  ⟨"late_budget_ns", 1, 24, 0x0005, 0x0005, 16, .rw, 1000, .rng 0 10000, false, false, false⟩,
  ⟨"rg_offset_nm", 1, 24, 0x0010, 0x0017, 16, .rw, 0, .rng 0 16000, false, true, false⟩,
  ⟨"armed_line", 1, 24, 0x0020, 0x0020, 32, .ro, 0, .any, false, false, false⟩,
  ⟨"armed_time", 1, 24, 0x0021, 0x0021, 64, .ro, 0, .any, false, false, false⟩,
  ⟨"last_fire_time", 1, 24, 0x0022, 0x0022, 64, .ro, 0, .any, false, false, false⟩,
  ⟨"last_late_ns", 1, 24, 0x0023, 0x0023, 32, .ro, 0, .any, false, false, false⟩]
/-- Attribute map of class 0x06. -/
def attrMap06 : List AttrRow := attrMap06_0 ++ attrMap06_1 ++ attrMap06_2

/-- Attribute map of class 0x07, part 0. -/
def attrMap07_0 : List AttrRow := [
  ⟨"hp_enable", 0, 23, 0x0001, 0x0001, 1, .ro, 0, .any, false, false, false⟩,
  ⟨"hp_state", 0, 23, 0x0002, 0x0002, 3, .ro, 0, .any, false, false, false⟩,
  ⟨"hp_gen", 0, 23, 0x0003, 0x0003, 2, .rw, 1, .rng 1 3, false, false, false⟩,
  ⟨"greyscale", 0, 23, 0x0004, 0x0004, 1, .rw, 0, .any, false, false, false⟩,
  ⟨"nozzles", 0, 23, 0x0005, 0x0005, 13, .rw, 4096, .oneOf [256, 512, 768, 1024, 1280, 1536, 1792, 2048, 2304, 2560, 2816, 3072, 3328, 3584, 3840, 4096], false, false, false⟩,
  ⟨"row_groups", 0, 23, 0x0006, 0x0006, 4, .rw, 1, .oneOf [1, 2, 4, 8], false, false, false⟩,
  ⟨"rg_layout", 0, 23, 0x0007, 0x0007, 1, .rw, 0, .any, false, false, true⟩,
  ⟨"shift_order", 0, 23, 0x0008, 0x0008, 1, .rw, 0, .any, false, false, false⟩,
  ⟨"bit_planes", 0, 23, 0x0009, 0x0009, 1, .rw, 0, .any, false, false, true⟩,
  ⟨"fire_width_ns", 0, 23, 0x000A, 0x000A, 16, .rw, 100, .rng 20 2000, false, false, false⟩,
  ⟨"fire_spacing_ns", 0, 23, 0x000B, 0x000B, 16, .rw, 250, .rng 40 10000, false, false, false⟩,
  ⟨"lat_setup_ns", 0, 23, 0x000C, 0x000C, 16, .rw, 430, .rng 430 10000, false, false, false⟩]
/-- Attribute map of class 0x07, part 1. -/
def attrMap07_1 : List AttrRow := [
  ⟨"fire_hold_ns", 0, 23, 0x000D, 0x000D, 16, .rw, 100, .rng 20 5000, false, false, false⟩,
  ⟨"pol_invert", 0, 23, 0x000E, 0x000E, 5, .rw, 0, .any, false, false, false⟩,
  ⟨"vod_sel", 0, 23, 0x000F, 0x000F, 2, .rw, 1, .rng 0 2, false, false, false⟩,
  ⟨"rg_line_delay", 0, 23, 0x0010, 0x0017, 5, .rw, 0, .rng 0 31, false, false, false⟩,
  ⟨"head_id", 0, 23, 0x0020, 0x0020, 128, .ro, 0, .any, false, false, false⟩,
  ⟨"head_temp", 0, 23, 0x0021, 0x0021, 16, .ro, 32768, .any, false, false, false⟩,
  ⟨"head_temp_tb1", 0, 23, 0x0022, 0x0022, 64, .ro, 0, .any, false, false, false⟩,
  ⟨"head_query", 0, 23, 0x0023, 0x0023, 2, .ro, 0, .any, false, false, false⟩,
  ⟨"query_khz", 0, 23, 0x0024, 0x0024, 16, .rw, 10000, .rng 1000 25000, false, false, false⟩,
  ⟨"query_on_enable", 0, 23, 0x0025, 0x0025, 1, .rw, 1, .any, false, false, false⟩,
  ⟨"fault_action", 0, 23, 0x0030, 0x0030, 1, .rw, 0, .any, false, false, false⟩,
  ⟨"hp_fault", 0, 23, 0x0031, 0x0031, 8, .ro, 0, .any, false, false, false⟩]
/-- Attribute map of class 0x07, part 2. -/
def attrMap07_2 : List AttrRow := [
  ⟨"lines_shifted", 0, 23, 0x0040, 0x0040, 32, .rc, 0, .any, false, false, false⟩,
  ⟨"reshifts", 0, 23, 0x0041, 0x0041, 32, .rc, 0, .any, false, false, false⟩,
  ⟨"fire_pulses", 0, 23, 0x0042, 0x0042, 32, .rc, 0, .any, false, false, false⟩,
  ⟨"query_errs", 0, 23, 0x0043, 0x0043, 32, .rc, 0, .any, false, false, false⟩,
  ⟨"lines_lost", 0, 23, 0x0044, 0x0044, 32, .rc, 0, .any, false, false, false⟩,
  ⟨"spit_lines", 0, 23, 0x0045, 0x0045, 32, .rc, 0, .any, false, false, false⟩,
  ⟨"spit_level", 0, 23, 0x0050, 0x0050, 4, .rw, 3, .any, false, false, false⟩,
  ⟨"spit_pattern", 0, 23, 0x0051, 0x0051, 2, .rw, 0, .rng 0 2, false, false, false⟩,
  ⟨"spit_user", 0, 23, 0x0052, 0x0052, 262144, .rw, 0, .any, false, false, true⟩,
  ⟨"spit_period_ns", 0, 23, 0x0053, 0x0053, 32, .rw, 100000, .rng 1 100000000, false, false, false⟩]
/-- Attribute map of class 0x07. -/
def attrMap07 : List AttrRow := attrMap07_0 ++ attrMap07_1 ++ attrMap07_2

/-- Attribute map of class 0x08, part 0. -/
def attrMap08_0 : List AttrRow := [
  ⟨"run_ahead", 0, 0, 0x0001, 0x0001, 7, .rw, 32, .rng 8 64, false, false, false⟩,
  ⟨"squash_horizon", 0, 0, 0x0002, 0x0002, 4, .ro, 6, .any, false, false, false⟩,
  ⟨"xweb_margin", 0, 0, 0x0003, 0x0003, 7, .rw, 0, .rng 0 64, false, false, false⟩,
  ⟨"dither_xoff", 0, 0, 0x0004, 0x0004, 6, .rw, 0, .any, false, false, false⟩,
  ⟨"dither_yoff", 0, 0, 0x0005, 0x0005, 6, .rw, 0, .any, false, false, false⟩,
  ⟨"store_base", 0, 0, 0x0006, 0x0006, 40, .ro, 0, .any, false, false, false⟩,
  ⟨"dither_tile", 0, 0, 0x0010, 0x0010, 32768, .rw, 0, .any, false, false, false⟩,
  ⟨"blend_masks", 0, 0, 0x0011, 0x0011, 507904, .rw, 0, .any, false, false, false⟩,
  ⟨"level_weight", 0, 0, 0x0012, 0x0012, 128, .rw, 0, .any, false, false, false⟩,
  ⟨"zone_gain", 0, 0, 0x0013, 0x0013, 1024, .rw, 0, .any, false, false, false⟩,
  ⟨"health_map", 0, 0, 0x0014, 0x0014, 196608, .rw, 0, .any, false, false, false⟩,
  ⟨"base_table", 0, 0, 0x0015, 0x0015, 6291456, .rw, 0, .any, false, false, false⟩]
/-- Attribute map of class 0x08, part 1. -/
def attrMap08_1 : List AttrRow := [
  ⟨"squashes", 0, 0, 0x0020, 0x0020, 32, .rc, 0, .any, false, false, false⟩,
  ⟨"retones", 0, 0, 0x0021, 0x0021, 32, .rc, 0, .any, false, false, false⟩,
  ⟨"swaps_late", 0, 0, 0x0022, 0x0022, 32, .rc, 0, .any, false, false, false⟩,
  ⟨"spill_lost", 0, 0, 0x0023, 0x0023, 32, .rc, 0, .any, false, false, false⟩,
  ⟨"level_clamps", 0, 0, 0x0024, 0x0024, 32, .rc, 0, .any, false, false, false⟩,
  ⟨"stale_reshifts", 0, 0, 0x0025, 0x0025, 32, .rc, 0, .any, false, false, false⟩,
  ⟨"xweb_shift", 1, 24, 0x0001, 0x0001, 8, .rw, 0, .any, true, true, false⟩,
  ⟨"slot_next", 1, 24, 0x0002, 0x0002, 32, .ro, 0, .any, false, false, false⟩,
  ⟨"slot_context", 1, 24, 0x0003, 0x0003, 8, .ro, 0, .any, false, false, false⟩,
  ⟨"slots_prepared", 1, 24, 0x0004, 0x0004, 7, .ro, 0, .any, false, false, false⟩,
  ⟨"slots_staged", 1, 24, 0x0005, 0x0005, 4, .ro, 0, .any, false, false, false⟩,
  ⟨"toned_max", 1, 24, 0x0006, 0x0006, 32, .ro, 0, .any, false, false, false⟩]
/-- Attribute map of class 0x08. -/
def attrMap08 : List AttrRow := attrMap08_0 ++ attrMap08_1

/-- Attribute map of class 0x09, part 0. -/
def attrMap09_0 : List AttrRow := [
  ⟨"bank_state", 0, 1, 0x0001, 0x0001, 3, .ro, 0, .any, false, false, false⟩,
  ⟨"swap_pending", 0, 1, 0x0002, 0x0002, 1, .ro, 0, .any, false, false, false⟩,
  ⟨"swap_context", 0, 1, 0x0003, 0x0003, 8, .ro, 0, .any, false, false, false⟩,
  ⟨"swap_line", 0, 1, 0x0004, 0x0004, 32, .ro, 0, .any, false, false, false⟩,
  ⟨"build_seq", 0, 1, 0x0005, 0x0005, 32, .ro, 0, .any, false, false, false⟩,
  ⟨"build_us", 0, 1, 0x0006, 0x0006, 32, .ro, 0, .any, false, false, false⟩,
  ⟨"build_tb1", 0, 1, 0x0007, 0x0007, 64, .ro, 0, .any, false, false, false⟩,
  ⟨"bank_crc", 0, 1, 0x0008, 0x0008, 32, .ro, 0, .any, false, false, false⟩,
  ⟨"saturated", 0, 1, 0x0009, 0x0009, 32, .ro, 0, .any, false, false, false⟩]
/-- Attribute map of class 0x09. -/
def attrMap09 : List AttrRow := attrMap09_0

/-- Attribute map of class 0x0A, part 0. -/
def attrMap0A_0 : List AttrRow := [
  ⟨"dec_in_flight", 0, 0, 0x0001, 0x0001, 7, .ro, 0, .any, false, false, false⟩,
  ⟨"dec_limit", 0, 0, 0x0002, 0x0002, 7, .rw, 96, .rng 8 96, false, false, false⟩,
  ⟨"dec_blocks", 0, 0, 0x0003, 0x0003, 32, .rc, 0, .any, false, false, false⟩,
  ⟨"dec_raw_blocks", 0, 0, 0x0004, 0x0004, 32, .rc, 0, .any, false, false, false⟩,
  ⟨"dec_fails", 0, 0, 0x0005, 0x0005, 32, .rc, 0, .any, false, false, false⟩,
  ⟨"dec_discarded", 0, 0, 0x0006, 0x0006, 32, .rc, 0, .any, false, false, false⟩,
  ⟨"dec_lines_discarded", 0, 0, 0x0007, 0x0007, 32, .rc, 0, .any, false, false, false⟩,
  ⟨"dec_bytes", 0, 0, 0x0008, 0x0008, 64, .rc, 0, .any, false, false, false⟩,
  ⟨"last_fail", 0, 0, 0x0009, 0x0009, 128, .ro, 0, .any, false, false, false⟩,
  ⟨"out_jobs", 0, 0, 0x0010, 0x0010, 4, .ro, 0, .any, false, false, false⟩,
  ⟨"out_state", 0, 0, 0x0011, 0x0011, 2, .ro, 0, .any, false, false, false⟩,
  ⟨"out_done", 0, 0, 0x0012, 0x0012, 32, .rc, 0, .any, false, false, false⟩]
/-- Attribute map of class 0x0A, part 1. -/
def attrMap0A_1 : List AttrRow := [
  ⟨"out_failed", 0, 0, 0x0013, 0x0013, 32, .rc, 0, .any, false, false, false⟩,
  ⟨"out_raw_blocks", 0, 0, 0x0014, 0x0014, 32, .rc, 0, .any, false, false, false⟩,
  ⟨"out_bytes_in", 0, 0, 0x0015, 0x0015, 64, .rc, 0, .any, false, false, false⟩,
  ⟨"out_bytes_out", 0, 0, 0x0016, 0x0016, 64, .rc, 0, .any, false, false, false⟩,
  ⟨"eng_busy", 1, 4, 0x0001, 0x0001, 1, .ro, 0, .any, false, false, false⟩,
  ⟨"eng_port", 1, 4, 0x0002, 0x0002, 8, .ro, 0, .any, false, false, false⟩,
  ⟨"eng_line", 1, 4, 0x0003, 0x0003, 32, .ro, 0, .any, false, false, false⟩,
  ⟨"eng_blocks", 1, 4, 0x0004, 0x0004, 32, .rc, 0, .any, false, false, false⟩,
  ⟨"eng_cycles", 1, 4, 0x0005, 0x0005, 64, .rc, 0, .any, false, false, false⟩]
/-- Attribute map of class 0x0A. -/
def attrMap0A : List AttrRow := attrMap0A_0 ++ attrMap0A_1

/-- Attribute map of class 0x0B, part 0. -/
def attrMap0B_0 : List AttrRow := [
  ⟨"ctx_state", 1, 255, 0x0001, 0x0001, 3, .ro, 0, .any, false, false, false⟩,
  ⟨"printing", 1, 255, 0x0002, 0x0002, 1, .ro, 0, .any, false, false, false⟩,
  ⟨"fail_cause", 1, 255, 0x0003, 0x0003, 8, .ro, 0, .any, false, false, false⟩,
  ⟨"x0", 1, 255, 0x0004, 0x0004, 64, .ro, 0, .any, true, false, false⟩,
  ⟨"last_line", 1, 255, 0x0005, 0x0005, 32, .ro, 4294967295, .any, false, false, false⟩,
  ⟨"held_line", 1, 255, 0x0006, 0x0006, 32, .ro, 0, .any, false, false, false⟩,
  ⟨"data_end", 1, 255, 0x0007, 0x0007, 64, .ro, 18446744073709551615, .any, false, false, false⟩,
  ⟨"stop_line", 1, 255, 0x0008, 0x0008, 32, .ro, 0, .any, false, false, false⟩,
  ⟨"switch_line", 1, 255, 0x0009, 0x0009, 32, .ro, 0, .any, false, false, false⟩,
  ⟨"pages_used", 1, 255, 0x000A, 0x000A, 32, .ro, 0, .any, false, false, false⟩,
  ⟨"stop_end", 1, 255, 0x000B, 0x000B, 64, .ro, 18446744073709551615, .any, true, false, false⟩]
/-- Attribute map of class 0x0B. -/
def attrMap0B : List AttrRow := attrMap0B_0

/-- Attribute map of class 0x0C, part 0. -/
def attrMap0C_0 : List AttrRow := [
  ⟨"grt_udp_port", 0, 0, 0x0001, 0x0001, 16, .rw, 50421, .rng 1024 65535, false, false, false⟩,
  ⟨"grt_port_en", 0, 0, 0x0002, 0x0002, 2, .rw, 3, .any, false, false, false⟩,
  ⟨"press_decel", 0, 0, 0x0010, 0x0010, 32, .rw, 500000, .rng 10000 20000000, false, false, false⟩,
  ⟨"press_react_ms", 0, 0, 0x0011, 0x0011, 16, .rw, 50, .rng 0 5000, false, false, false⟩,
  ⟨"slow_margin_mm", 0, 0, 0x0012, 0x0012, 32, .rw, 3000, .rng 1 1000000, false, false, false⟩,
  ⟨"stop_margin_mm", 0, 0, 0x0013, 0x0013, 32, .rw, 500, .rng 0 999999, false, false, false⟩,
  ⟨"req_hyst_mm", 0, 0, 0x0014, 0x0014, 16, .rw, 200, .rng 0 10000, false, false, false⟩,
  ⟨"fix_slots", 0, 0, 0x0015, 0x0015, 7, .rw, 16, .rng 8 64, false, false, false⟩,
  ⟨"backup_en", 0, 0, 0x0016, 0x0016, 1, .rw, 1, .any, false, false, false⟩,
  ⟨"runup_mm", 0, 0, 0x0017, 0x0017, 16, .rw, 300, .rng 0 10000, false, false, false⟩,
  ⟨"backup_max_mm", 0, 0, 0x0018, 0x0018, 16, .rw, 2000, .rng 0 50000, false, false, false⟩,
  ⟨"backup_timeout_ms", 0, 0, 0x0019, 0x0019, 32, .rw, 30000, .rng 1000 600000, false, false, false⟩]
/-- Attribute map of class 0x0C, part 1. -/
def attrMap0C_1 : List AttrRow := [
  ⟨"resume_runway_mm", 0, 0, 0x001A, 0x001A, 32, .rw, 5000, .rng 0 1000000, false, false, false⟩,
  ⟨"runway_nm", 0, 0, 0x0020, 0x0020, 64, .ro, 18446744073709551615, .any, false, false, false⟩,
  ⟨"stop_dist_nm", 0, 0, 0x0021, 0x0021, 64, .ro, 0, .any, false, false, false⟩,
  ⟨"stop_phase", 0, 0, 0x0022, 0x0022, 3, .ro, 0, .any, false, false, false⟩,
  ⟨"stop_cause", 0, 0, 0x0023, 0x0023, 3, .ro, 0, .any, false, false, false⟩,
  ⟨"backup_target", 0, 0, 0x0024, 0x0024, 64, .ro, 0, .any, true, false, false⟩,
  ⟨"stops", 0, 0, 0x0025, 0x0025, 32, .rc, 0, .any, false, false, false⟩,
  ⟨"grt_bad", 0, 0, 0x0026, 0x0026, 32, .rc, 0, .any, false, false, false⟩,
  ⟨"st_type", 1, 16, 0x0001, 0x0001, 2, .rw, 0, .rng 0 2, false, false, false⟩,
  ⟨"st_context", 1, 16, 0x0002, 0x0002, 8, .rw, 0, .rng 0 255, false, false, false⟩,
  ⟨"st_next_seq", 1, 16, 0x0003, 0x0003, 32, .ro, 0, .any, false, false, false⟩,
  ⟨"st_credit", 1, 16, 0x0004, 0x0004, 32, .ro, 0, .any, false, false, false⟩]
/-- Attribute map of class 0x0C, part 2. -/
def attrMap0C_2 : List AttrRow := [
  ⟨"ack_every", 1, 16, 0x0005, 0x0005, 8, .rw, 16, .rng 1 255, false, false, false⟩,
  ⟨"ack_us", 1, 16, 0x0006, 0x0006, 16, .rw, 50, .rng 5 10000, false, false, false⟩,
  ⟨"nak_holdoff_us", 1, 16, 0x0007, 0x0007, 16, .rw, 100, .rng 10 10000, false, false, false⟩,
  ⟨"dma_ring", 1, 16, 0x0008, 0x0008, 64, .rw, 0, .any, false, false, false⟩,
  ⟨"dma_ring_log2", 1, 16, 0x0009, 0x0009, 4, .rw, 8, .rng 4 12, false, false, false⟩,
  ⟨"grt_dup", 1, 16, 0x0010, 0x0010, 32, .rc, 0, .any, false, false, false⟩,
  ⟨"grt_gaps", 1, 16, 0x0011, 0x0011, 32, .rc, 0, .any, false, false, false⟩,
  ⟨"grt_over_credit", 1, 16, 0x0012, 0x0012, 32, .rc, 0, .any, false, false, false⟩,
  ⟨"frag_errs", 1, 16, 0x0013, 0x0013, 32, .rc, 0, .any, false, false, false⟩,
  ⟨"dup_blocks", 1, 16, 0x0014, 0x0014, 32, .rc, 0, .any, false, false, false⟩,
  ⟨"st_blocks", 1, 16, 0x0015, 0x0015, 32, .rc, 0, .any, false, false, false⟩]
/-- Attribute map of class 0x0C. -/
def attrMap0C : List AttrRow := attrMap0C_0 ++ attrMap0C_1 ++ attrMap0C_2

/-- Attribute map of class 0x0D, part 0. -/
def attrMap0D_0 : List AttrRow := [
  ⟨"cam_state", 0, 1, 0x0001, 0x0001, 2, .ro, 0, .any, false, false, false⟩,
  ⟨"frame_count", 0, 1, 0x0002, 0x0002, 32, .ro, 0, .any, false, false, false⟩,
  ⟨"lanes", 0, 1, 0x0003, 0x0003, 3, .rw, 4, .oneOf [1, 2, 4], false, false, false⟩,
  ⟨"vc", 0, 1, 0x0004, 0x0004, 4, .rw, 0, .any, false, false, false⟩,
  ⟨"data_type", 0, 1, 0x0005, 0x0005, 8, .rw, 44, .rng 42 45, false, false, false⟩,
  ⟨"width", 0, 1, 0x0006, 0x0006, 14, .rw, 2048, .rng 64 8192, false, false, false⟩,
  ⟨"height", 0, 1, 0x0007, 0x0007, 16, .rw, 1200, .rng 1 65535, false, false, false⟩,
  ⟨"isp_die", 0, 1, 0x0008, 0x0008, 3, .rw, 0, .any, false, false, false⟩,
  ⟨"trig_pulse", 0, 1, 0x0009, 0x0009, 4, .rw, 8, .rng 0 8, false, false, false⟩,
  ⟨"trig_window_us", 0, 1, 0x000A, 0x000A, 16, .rw, 1000, .rng 1 60000, false, false, false⟩,
  ⟨"frame_timeout_us", 0, 1, 0x000B, 0x000B, 32, .rw, 100000, .rng 100 10000000, false, false, false⟩,
  ⟨"fs_base", 0, 1, 0x000C, 0x000C, 40, .rw, 0, .any, false, false, false⟩]
/-- Attribute map of class 0x0D, part 1. -/
def attrMap0D_1 : List AttrRow := [
  ⟨"fs_slots", 0, 1, 0x000D, 0x000D, 7, .rw, 4, .rng 0 64, false, false, false⟩,
  ⟨"fs_slot_bytes", 0, 1, 0x000E, 0x000E, 32, .rw, 0, .any, false, false, false⟩,
  ⟨"desc_queue", 0, 1, 0x000F, 0x000F, 6, .rw, 24, .rng 24 31, false, false, false⟩,
  ⟨"tap", 0, 1, 0x0010, 0x0010, 2, .rw, 0, .rng 0 3, false, false, false⟩,
  ⟨"tap_every", 0, 1, 0x0011, 0x0011, 16, .rw, 0, .any, false, false, false⟩,
  ⟨"slot_state", 0, 1, 0x0012, 0x0012, 128, .ro, 0, .any, false, false, false⟩,
  ⟨"pset_table", 0, 1, 0x0013, 0x0013, 20480, .rw, 0, .any, false, false, false⟩,
  ⟨"pset_active", 0, 1, 0x0014, 0x0014, 4, .ro, 0, .any, false, false, false⟩,
  ⟨"stream", 0, 1, 0x0015, 0x0015, 4, .ro, 0, .any, false, false, false⟩,
  ⟨"sensor_latency", 0, 1, 0x0018, 0x0018, 2, .rw, 0, .any, false, false, false⟩,
  ⟨"i2c_addr", 0, 1, 0x0019, 0x0019, 7, .rw, 16, .any, false, false, false⟩,
  ⟨"i2c_khz", 0, 1, 0x001A, 0x001A, 11, .rw, 400, .oneOf [100, 400, 1000], false, false, false⟩]
/-- Attribute map of class 0x0D, part 2. -/
def attrMap0D_2 : List AttrRow := [
  ⟨"i2c_reg_bytes", 0, 1, 0x001B, 0x001B, 4, .rw, 34, .any, false, false, false⟩,
  ⟨"i2c_guard_us", 0, 1, 0x001C, 0x001C, 16, .rw, 50, .rng 0 10000, false, false, false⟩,
  ⟨"frames", 0, 1, 0x0020, 0x0020, 32, .rc, 0, .any, false, false, false⟩,
  ⟨"short_frames", 0, 1, 0x0021, 0x0021, 32, .rc, 0, .any, false, false, false⟩,
  ⟨"long_frames", 0, 1, 0x0022, 0x0022, 32, .rc, 0, .any, false, false, false⟩,
  ⟨"no_fe", 0, 1, 0x0023, 0x0023, 32, .rc, 0, .any, false, false, false⟩,
  ⟨"crc_errs", 0, 1, 0x0024, 0x0024, 32, .rc, 0, .any, false, false, false⟩,
  ⟨"len_errs", 0, 1, 0x0025, 0x0025, 32, .rc, 0, .any, false, false, false⟩,
  ⟨"ecc_fixed", 0, 1, 0x0026, 0x0026, 32, .rc, 0, .any, false, false, false⟩,
  ⟨"ecc_fatal", 0, 1, 0x0027, 0x0027, 32, .rc, 0, .any, false, false, false⟩,
  ⟨"other_pkts", 0, 1, 0x0028, 0x0028, 32, .rc, 0, .any, false, false, false⟩,
  ⟨"trig_miss", 0, 1, 0x0029, 0x0029, 32, .rc, 0, .any, false, false, false⟩]
/-- Attribute map of class 0x0D, part 3. -/
def attrMap0D_3 : List AttrRow := [
  ⟨"no_slot", 0, 1, 0x002A, 0x002A, 32, .rc, 0, .any, false, false, false⟩,
  ⟨"orphan_lines", 0, 1, 0x002B, 0x002B, 32, .rc, 0, .any, false, false, false⟩]
/-- Attribute map of class 0x0D. -/
def attrMap0D : List AttrRow := attrMap0D_0 ++ attrMap0D_1 ++ attrMap0D_2 ++ attrMap0D_3

/-- Attribute map of class 0x0E, part 0. -/
def attrMap0E_0 : List AttrRow := [
  ⟨"stream_cam", 0, 8, 0x0001, 0x0001, 8, .ro, 255, .any, false, false, false⟩,
  ⟨"cfg_gen", 0, 8, 0x0002, 0x0002, 8, .ro, 0, .any, false, false, false⟩,
  ⟨"isp_bypass", 0, 8, 0x0003, 0x0003, 6, .rw, 0, .any, false, false, false⟩,
  ⟨"cfa_map", 0, 8, 0x0004, 0x0004, 32, .rw, 2571409732, .any, false, false, false⟩,
  ⟨"demosaic", 0, 8, 0x0005, 0x0005, 2, .rw, 1, .rng 0 3, false, false, false⟩,
  ⟨"black", 0, 8, 0x0006, 0x0006, 64, .ro, 0, .any, false, false, false⟩,
  ⟨"gain", 0, 8, 0x0007, 0x0007, 64, .ro, 0, .any, false, false, false⟩,
  ⟨"dpc_static", 0, 8, 0x0008, 0x0008, 131072, .rw, 0, .any, false, false, false⟩,
  ⟨"dpc_count", 0, 8, 0x0009, 0x0009, 13, .rw, 0, .rng 0 4096, false, false, false⟩,
  ⟨"dpc_dyn_en", 0, 8, 0x000A, 0x000A, 1, .rw, 0, .any, false, false, false⟩,
  ⟨"dpc_thresh", 0, 8, 0x000B, 0x000B, 16, .rw, 1024, .any, false, false, false⟩,
  ⟨"lsc_grid", 0, 8, 0x000C, 0x000C, 52800, .rw, 0, .any, false, false, false⟩]
/-- Attribute map of class 0x0E, part 1. -/
def attrMap0E_1 : List AttrRow := [
  ⟨"ccm", 0, 8, 0x000D, 0x000D, 192, .rw, 0, .any, true, false, false⟩,
  ⟨"mp_priority", 0, 8, 0x000E, 0x000E, 2, .rw, 1, .any, false, false, false⟩,
  ⟨"dpc_dynamic", 0, 8, 0x0010, 0x0010, 32, .rc, 0, .any, false, false, false⟩,
  ⟨"isp_overruns", 0, 8, 0x0011, 0x0011, 32, .rc, 0, .any, false, false, false⟩,
  ⟨"mp_latency_max_us", 0, 8, 0x0012, 0x0012, 32, .rc, 0, .any, false, false, false⟩]
/-- Attribute map of class 0x0E. -/
def attrMap0E : List AttrRow := attrMap0E_0 ++ attrMap0E_1

/-- Attribute map of class 0x0F, part 0. -/
def attrMap0F_0 : List AttrRow := [
  ⟨"stats_queue", 0, 8, 0x0001, 0x0001, 6, .rw, 32, .rng 32 39, false, false, false⟩,
  ⟨"stats_point", 0, 8, 0x0002, 0x0002, 1, .rw, 1, .any, false, false, false⟩,
  ⟨"roi_table", 0, 8, 0x0003, 0x0003, 65536, .rw, 0, .any, false, false, false⟩,
  ⟨"roi_count", 0, 8, 0x0004, 0x0004, 11, .rw, 0, .rng 0 1024, false, false, false⟩,
  ⟨"hist_en", 0, 8, 0x0005, 0x0005, 4, .rw, 0, .any, false, false, false⟩,
  ⟨"hist_roi", 0, 8, 0x0006, 0x0006, 64, .rw, 0, .any, false, false, false⟩,
  ⟨"hist_shift", 0, 8, 0x0007, 0x0007, 4, .rw, 6, .rng 0 8, false, false, false⟩,
  ⟨"cp_plane", 0, 8, 0x0008, 0x0008, 3, .rw, 4, .rng 0 4, false, false, false⟩,
  ⟨"cp_y0", 0, 8, 0x0009, 0x0009, 32, .rw, 0, .any, false, false, false⟩,
  ⟨"cp_bin", 0, 8, 0x000A, 0x000A, 5, .rw, 1, .rng 1 16, false, false, false⟩,
  ⟨"mark_table", 0, 8, 0x000B, 0x000B, 4096, .rw, 0, .any, false, false, false⟩,
  ⟨"mark_count", 0, 8, 0x000C, 0x000C, 7, .rw, 0, .rng 0 64, false, false, false⟩]
/-- Attribute map of class 0x0F, part 1. -/
def attrMap0F_1 : List AttrRow := [
  ⟨"mark_plane", 0, 8, 0x000D, 0x000D, 2, .rw, 1, .any, false, false, false⟩,
  ⟨"mark_thresh", 0, 8, 0x000E, 0x000E, 16, .rw, 8192, .any, false, false, false⟩,
  ⟨"records", 0, 8, 0x0010, 0x0010, 32, .rc, 0, .any, false, false, false⟩,
  ⟨"records_lost", 0, 8, 0x0011, 0x0011, 32, .rc, 0, .any, false, false, false⟩]
/-- Attribute map of class 0x0F. -/
def attrMap0F : List AttrRow := attrMap0F_0 ++ attrMap0F_1

/-- Attribute map of class 0x10, part 0. -/
def attrMap10_0 : List AttrRow := [
  ⟨"chain_state", 0, 3, 0x0001, 0x0001, 2, .ro, 0, .any, false, false, false⟩,
  ⟨"chain_mbps", 0, 3, 0x0002, 0x0002, 4, .rw, 4, .rng 2 8, false, false, false⟩,
  ⟨"refresh_us", 0, 3, 0x0003, 0x0003, 16, .rw, 2000, .rng 100 20000, false, false, false⟩,
  ⟨"chain_max", 0, 3, 0x0004, 0x0004, 10, .rw, 512, .rng 1 512, false, false, false⟩,
  ⟨"chain_drivers", 0, 3, 0x0005, 0x0005, 10, .ro, 0, .any, false, false, false⟩,
  ⟨"ret_slack_us", 0, 3, 0x0006, 0x0006, 16, .rw, 10, .rng 1 1000, false, false, false⟩,
  ⟨"diag_n", 0, 3, 0x0007, 0x0007, 16, .rw, 50, .rng 1 65535, false, false, false⟩,
  ⟨"types", 0, 3, 0x0008, 0x0008, 4096, .ro, 0, .any, false, false, false⟩,
  ⟨"refreshes", 0, 3, 0x0010, 0x0010, 32, .rc, 0, .any, false, false, false⟩,
  ⟨"ret_errs", 0, 3, 0x0011, 0x0011, 32, .rc, 0, .any, false, false, false⟩,
  ⟨"rx_err_reports", 0, 3, 0x0012, 0x0012, 32, .rc, 0, .any, false, false, false⟩,
  ⟨"diag_pulses", 0, 3, 0x0013, 0x0013, 32, .rc, 0, .any, false, false, false⟩]
/-- Attribute map of class 0x10. -/
def attrMap10 : List AttrRow := attrMap10_0

/-- Attribute map of class 0x11, part 0. -/
def attrMap11_0 : List AttrRow := [
  ⟨"lamp_level", 0, 8191, 0x0001, 0x0001, 10, .ro, 0, .any, false, false, false⟩,
  ⟨"lamp_flags", 0, 8191, 0x0002, 0x0002, 8, .ro, 0, .any, false, false, false⟩,
  ⟨"diag_age", 0, 8191, 0x0003, 0x0003, 16, .ro, 0, .any, false, false, false⟩,
  ⟨"lamp_entry", 0, 8191, 0x0004, 0x0004, 128, .ro, 0, .any, false, false, false⟩]
/-- Attribute map of class 0x11. -/
def attrMap11 : List AttrRow := attrMap11_0

/-- Attribute map of class 0x12, part 0. -/
def attrMap12_0 : List AttrRow := [
  ⟨"mx_state", 0, 0, 0x0001, 0x0001, 2, .ro, 0, .any, false, false, false⟩,
  ⟨"mx_mode", 0, 0, 0x0002, 0x0002, 1, .rw, 1, .any, false, false, false⟩,
  ⟨"mx_pulse", 0, 0, 0x0003, 0x0003, 3, .rw, 0, .rng 0 7, false, false, false⟩,
  ⟨"mx_seq", 0, 0, 0x0004, 0x0004, 80, .rw, 0, .any, false, false, false⟩,
  ⟨"mx_seq_len", 0, 0, 0x0005, 0x0005, 5, .rw, 16, .rng 1 16, false, false, false⟩,
  ⟨"mx_blank_ns", 0, 0, 0x0006, 0x0006, 16, .rw, 200, .rng 50 10000, false, false, false⟩,
  ⟨"mx_pch_ns", 0, 0, 0x0007, 0x0007, 16, .rw, 500, .rng 50 10000, false, false, false⟩,
  ⟨"mx_settle_ns", 0, 0, 0x0008, 0x0008, 16, .rw, 300, .rng 50 10000, false, false, false⟩,
  ⟨"row_on_us", 0, 0, 0x0009, 0x0009, 16, .rw, 100, .rng 1 60000, false, false, false⟩,
  ⟨"row_us", 0, 0, 0x000A, 0x000A, 32, .rw, 1000, .rng 2 1000000, false, false, false⟩,
  ⟨"mx_vpch", 0, 0, 0x000B, 0x000B, 8, .rw, 128, .any, false, false, false⟩,
  ⟨"mx_guard_us", 0, 0, 0x000C, 0x000C, 16, .rw, 20, .rng 1 10000, false, false, false⟩]
/-- Attribute map of class 0x12, part 1. -/
def attrMap12_1 : List AttrRow := [
  ⟨"diag_n", 0, 0, 0x000D, 0x000D, 16, .rw, 50, .rng 1 65535, false, false, false⟩,
  ⟨"mx_level", 0, 0, 0x0010, 0x0010, 4096, .rw, 0, .any, false, false, false⟩,
  ⟨"mx_cal", 0, 0, 0x0011, 0x0011, 16384, .rw, 0, .any, false, false, false⟩,
  ⟨"mx_open", 0, 0, 0x0012, 0x0012, 256, .ro, 0, .any, false, false, false⟩,
  ⟨"mx_age", 0, 0, 0x0013, 0x0013, 4096, .ro, 0, .any, false, false, false⟩,
  ⟨"mx_row", 0, 0, 0x0014, 0x0014, 5, .ro, 16, .any, false, false, false⟩,
  ⟨"mx_overlaps", 0, 0, 0x0020, 0x0020, 32, .rc, 0, .any, false, false, false⟩,
  ⟨"mx_diag_rows", 0, 0, 0x0021, 0x0021, 32, .rc, 0, .any, false, false, false⟩]
/-- Attribute map of class 0x12. -/
def attrMap12 : List AttrRow := attrMap12_0 ++ attrMap12_1

/-- Attribute map of class 0x13, part 0. -/
def attrMap13_0 : List AttrRow := [
  ⟨"ch_state", 0, 0, 0x0001, 0x0001, 1, .ro, 0, .any, false, false, false⟩,
  ⟨"ch_context", 0, 0, 0x0002, 0x0002, 8, .ro, 0, .any, false, false, false⟩,
  ⟨"page_q", 0, 0, 0x0003, 0x0003, 32, .ro, 0, .any, false, false, false⟩,
  ⟨"expose_nm", 0, 0, 0x0004, 0x0004, 32, .rw, 0, .any, false, false, false⟩,
  ⟨"expose_tol_nm", 0, 0, 0x0005, 0x0005, 32, .rw, 200000, .rng 1000 10000000, false, false, false⟩,
  ⟨"sched_lead_ms", 0, 0, 0x0006, 0x0006, 16, .rw, 20, .rng 5 1000, false, false, false⟩,
  ⟨"sched_tol_us", 0, 0, 0x0007, 0x0007, 16, .rw, 5, .rng 1 1000, false, false, false⟩,
  ⟨"cameras", 0, 0, 0x0008, 0x0008, 16, .rw, 0, .any, false, false, false⟩,
  ⟨"mx_die", 0, 0, 0x0009, 0x0009, 3, .rw, 0, .any, false, false, false⟩,
  ⟨"band_nm", 0, 0, 0x000A, 0x000A, 256, .rw, 0, .any, false, false, false⟩,
  ⟨"cam_map", 0, 0, 0x000B, 0x000B, 4096, .rw, 0, .any, true, false, false⟩,
  ⟨"patch_table", 0, 0, 0x000C, 0x000C, 131072, .rw, 0, .any, false, false, false⟩]
/-- Attribute map of class 0x13, part 1. -/
def attrMap13_1 : List AttrRow := [
  ⟨"patch_count", 0, 0, 0x000D, 0x000D, 11, .rw, 0, .rng 0 1024, false, false, false⟩,
  ⟨"mark_tbl", 0, 0, 0x000E, 0x000E, 65536, .rw, 0, .any, false, false, false⟩,
  ⟨"mark_count", 0, 0, 0x000F, 0x000F, 10, .rw, 0, .rng 0 512, false, false, false⟩,
  ⟨"ref_mode", 0, 0, 0x0010, 0x0010, 1, .rw, 0, .any, false, false, false⟩,
  ⟨"ref_spectra", 0, 0, 0x0011, 0x0011, 262144, .rw, 0, .any, false, false, false⟩,
  ⟨"tile_white", 0, 0, 0x0012, 0x0012, 256, .rw, 0, .any, false, false, false⟩,
  ⟨"tile_patches", 0, 0, 0x0013, 0x0013, 3072, .rw, 0, .any, false, false, false⟩,
  ⟨"reg_ref_bar", 0, 0, 0x0014, 0x0014, 3, .rw, 0, .any, false, false, false⟩,
  ⟨"hb_first", 0, 0, 0x0015, 0x0015, 32, .rw, 0, .any, false, false, false⟩,
  ⟨"hb_lines", 0, 0, 0x0016, 0x0016, 16, .rw, 0, .zeroOr 8 4096, false, false, false⟩,
  ⟨"hb_level", 0, 0, 0x0017, 0x0017, 2, .rw, 3, .rng 1 3, false, false, false⟩,
  ⟨"spectrum_span_m", 0, 0, 0x0018, 0x0018, 16, .rw, 20, .rng 1 1000, false, false, false⟩]
/-- Attribute map of class 0x13, part 2. -/
def attrMap13_2 : List AttrRow := [
  ⟨"dark_max_s", 0, 0, 0x0019, 0x0019, 16, .rw, 60, .rng 1 3600, false, false, false⟩,
  ⟨"min_speed", 0, 0, 0x001A, 0x001A, 32, .rw, 83333, .any, false, false, false⟩,
  ⟨"stale_m", 0, 0, 0x001B, 0x001B, 16, .rw, 100, .rng 10 10000, false, false, false⟩,
  ⟨"lead_lines", 0, 0, 0x001C, 0x001C, 16, .rw, 40, .rng 8 4096, false, false, false⟩,
  ⟨"de_alarm", 0, 0, 0x001D, 0x001D, 16, .rw, 200, .any, false, false, false⟩,
  ⟨"hb_margin", 0, 0, 0x001E, 0x001E, 8, .rw, 2, .any, false, false, false⟩,
  ⟨"de_max", 0, 0, 0x0020, 0x0020, 16, .ro, 0, .any, false, false, false⟩,
  ⟨"pages_measured", 0, 0, 0x0021, 0x0021, 32, .rc, 0, .any, false, false, false⟩,
  ⟨"frames_unused", 0, 0, 0x0022, 0x0022, 32, .rc, 0, .any, false, false, false⟩,
  ⟨"bar_state", 1, 8, 0x0001, 0x0001, 2, .ro, 0, .any, false, false, false⟩,
  ⟨"bar_band", 1, 8, 0x0002, 0x0002, 4, .rw, 0, .any, false, false, false⟩,
  ⟨"gain_k", 1, 8, 0x0003, 0x0003, 16, .rw, 16384, .rng 1 32768, false, false, false⟩]
/-- Attribute map of class 0x13, part 3. -/
def attrMap13_3 : List AttrRow := [
  ⟨"gain_step_max", 1, 8, 0x0004, 0x0004, 16, .rw, 328, .rng 1 8192, false, false, false⟩,
  ⟨"tone_deadband_ppm", 1, 8, 0x0005, 0x0005, 32, .rw, 10000, .rng 0 500000, false, false, false⟩,
  ⟨"zone_follow", 1, 8, 0x0006, 0x0006, 1, .rw, 0, .any, false, false, false⟩,
  ⟨"update_min_m", 1, 8, 0x0007, 0x0007, 16, .rw, 10, .rng 1 10000, false, false, false⟩,
  ⟨"port_x_nm", 1, 8, 0x0008, 0x0008, 768, .rw, 0, .any, true, false, false⟩,
  ⟨"xpitch", 1, 8, 0x0009, 0x0009, 64, .rw, 90910141098667, .any, false, false, false⟩,
  ⟨"reg_group", 1, 8, 0x000A, 0x000A, 72, .rw, 0, .any, false, false, false⟩,
  ⟨"reg_k", 1, 8, 0x000B, 0x000B, 16, .rw, 16384, .any, false, false, false⟩,
  ⟨"reg_deadband_nm", 1, 8, 0x000C, 0x000C, 32, .rw, 2000, .rng 0 1000000, false, false, false⟩,
  ⟨"reg_step_max_nm", 1, 8, 0x000D, 0x000D, 32, .rw, 50000, .rng 100 10000000, false, false, false⟩,
  ⟨"xreg_deadband", 1, 8, 0x000E, 0x000E, 8, .rw, 154, .rng 128 255, false, false, false⟩,
  ⟨"trim_window_m", 1, 8, 0x000F, 0x000F, 16, .rw, 500, .rng 10 10000, false, false, false⟩]
/-- Attribute map of class 0x13, part 4. -/
def attrMap13_4 : List AttrRow := [
  ⟨"trim_thresh_ppm", 1, 8, 0x0010, 0x0010, 16, .rw, 20, .rng 1 10000, false, false, false⟩,
  ⟨"trim_k", 1, 8, 0x0011, 0x0011, 16, .rw, 16384, .any, false, false, false⟩,
  ⟨"hb_contrast", 1, 8, 0x0012, 0x0012, 16, .rw, 8192, .any, false, false, false⟩,
  ⟨"hb_confirm", 1, 8, 0x0013, 0x0013, 4, .rw, 2, .rng 1 15, false, false, false⟩,
  ⟨"dead_max", 1, 8, 0x0014, 0x0014, 16, .rw, 64, .rng 1 4096, false, false, false⟩,
  ⟨"bar_de_max", 1, 8, 0x0020, 0x0020, 16, .ro, 0, .any, false, false, false⟩,
  ⟨"tone_err", 1, 8, 0x0021, 0x0021, 1024, .ro, 0, .any, true, false, false⟩,
  ⟨"reg_err", 1, 8, 0x0022, 0x0022, 512, .ro, 0, .any, true, false, false⟩,
  ⟨"last_gain_line", 1, 8, 0x0023, 0x0023, 32, .ro, 0, .any, false, false, false⟩,
  ⟨"last_reg_line", 1, 8, 0x0024, 0x0024, 32, .ro, 0, .any, false, false, false⟩,
  ⟨"gain_updates", 1, 8, 0x0025, 0x0025, 32, .rc, 0, .any, false, false, false⟩,
  ⟨"reg_updates", 1, 8, 0x0026, 0x0026, 32, .rc, 0, .any, false, false, false⟩]
/-- Attribute map of class 0x13, part 5. -/
def attrMap13_5 : List AttrRow := [
  ⟨"nozzles_dead", 1, 8, 0x0027, 0x0027, 32, .ro, 0, .any, false, false, false⟩]
/-- Attribute map of class 0x13. -/
def attrMap13 : List AttrRow := attrMap13_0 ++ attrMap13_1 ++ attrMap13_2 ++ attrMap13_3 ++ attrMap13_4 ++ attrMap13_5

/-- Attribute map of class 0x14, part 0. -/
def attrMap14_0 : List AttrRow := [
  ⟨"tb_now", 0, 3, 0x0001, 0x0001, 64, .ro, 0, .any, false, false, false⟩,
  ⟨"servo_state", 0, 3, 0x0002, 0x0002, 3, .ro, 0, .any, false, false, false⟩,
  ⟨"rate_ppt", 0, 3, 0x0003, 0x0003, 64, .ro, 0, .any, true, false, false⟩,
  ⟨"tb_source", 0, 3, 0x0004, 0x0004, 2, .rw, 0, .any, false, false, false⟩,
  ⟨"tb_cap", 0, 3, 0x0005, 0x0005, 2, .rw, 0, .any, false, false, false⟩,
  ⟨"step_arm", 0, 3, 0x0006, 0x0006, 1, .rw, 1, .any, false, false, false⟩,
  ⟨"step_thresh_ns", 0, 3, 0x0007, 0x0007, 32, .rw, 1000, .rng 100 1000000000, false, false, false⟩,
  ⟨"kp", 0, 3, 0x0008, 0x0008, 16, .rw, 2867, .any, false, false, false⟩,
  ⟨"ki", 0, 3, 0x0009, 0x0009, 16, .rw, 1229, .any, false, false, false⟩,
  ⟨"max_rate_ppb", 0, 3, 0x000A, 0x000A, 32, .rw, 500000, .rng 1000 1000000, false, false, false⟩,
  ⟨"slew_max_ppb", 0, 3, 0x000B, 0x000B, 32, .rw, 50000, .rng 1000 1000000, false, false, false⟩,
  ⟨"lock_ns", 0, 3, 0x000C, 0x000C, 16, .rw, 100, .rng 1 65535, false, false, false⟩]
/-- Attribute map of class 0x14, part 1. -/
def attrMap14_1 : List AttrRow := [
  ⟨"unlock_ns", 0, 3, 0x000D, 0x000D, 32, .rw, 1000, .any, false, false, false⟩,
  ⟨"lock_samples", 0, 3, 0x000E, 0x000E, 8, .rw, 8, .rng 1 255, false, false, false⟩,
  ⟨"holdover_ms", 0, 3, 0x000F, 0x000F, 32, .rw, 3000, .rng 100 600000, false, false, false⟩,
  ⟨"outlier_ns", 0, 3, 0x0010, 0x0010, 32, .rw, 10000, .any, false, false, false⟩,
  ⟨"freq_ppt", 0, 3, 0x0011, 0x0011, 64, .ro, 0, .any, true, false, false⟩,
  ⟨"offset_ns", 0, 3, 0x0012, 0x0012, 32, .ro, 0, .any, true, false, false⟩,
  ⟨"offset_age_ms", 0, 3, 0x0013, 0x0013, 32, .ro, 0, .any, false, false, false⟩,
  ⟨"holdover_tb1", 0, 3, 0x0014, 0x0014, 64, .ro, 0, .any, false, false, false⟩,
  ⟨"ptp_domain", 0, 3, 0x0015, 0x0015, 8, .rw, 0, .rng 0 127, false, false, false⟩,
  ⟨"priority1", 0, 3, 0x0016, 0x0016, 8, .rw, 128, .rng 0 255, false, false, false⟩,
  ⟨"priority2", 0, 3, 0x0017, 0x0017, 8, .rw, 128, .rng 0 255, false, false, false⟩,
  ⟨"slave_only", 0, 3, 0x0018, 0x0018, 1, .rw, 1, .any, false, false, false⟩]
/-- Attribute map of class 0x14, part 2. -/
def attrMap14_2 : List AttrRow := [
  ⟨"gm_id", 0, 3, 0x0019, 0x0019, 64, .ro, 0, .any, false, false, false⟩,
  ⟨"utc_offset", 0, 3, 0x001A, 0x001A, 16, .ro, 0, .any, false, false, false⟩,
  ⟨"steps", 0, 3, 0x001B, 0x001B, 32, .rc, 0, .any, false, false, false⟩,
  ⟨"outliers", 0, 3, 0x001C, 0x001C, 32, .rc, 0, .any, false, false, false⟩]
/-- Attribute map of class 0x14. -/
def attrMap14 : List AttrRow := attrMap14_0 ++ attrMap14_1 ++ attrMap14_2

/-- Attribute map of class 0x15, part 0. -/
def attrMap15_0 : List AttrRow := [
  ⟨"ptp_enable", 0, 1, 0x0001, 0x0001, 1, .rw, 0, .any, false, false, false⟩,
  ⟨"port_state", 0, 1, 0x0002, 0x0002, 4, .ro, 1, .any, false, false, false⟩,
  ⟨"ptp_tb", 0, 1, 0x0003, 0x0003, 2, .rw, 0, .oneOf [0, 2, 3], false, false, false⟩,
  ⟨"transport", 0, 1, 0x0004, 0x0004, 2, .rw, 0, .rng 0 2, false, false, false⟩,
  ⟨"delay_mech", 0, 1, 0x0005, 0x0005, 1, .rw, 0, .any, false, false, false⟩,
  ⟨"one_step", 0, 1, 0x0006, 0x0006, 1, .rw, 0, .any, false, false, false⟩,
  ⟨"log_sync", 0, 1, 0x0007, 0x0007, 8, .rw, 0, .rng (-7) 4, true, false, false⟩,
  ⟨"log_announce", 0, 1, 0x0008, 0x0008, 8, .rw, 1, .rng (-3) 4, true, false, false⟩,
  ⟨"log_delay", 0, 1, 0x0009, 0x0009, 8, .rw, 0, .rng (-7) 5, true, false, false⟩,
  ⟨"announce_timeout", 0, 1, 0x000A, 0x000A, 8, .rw, 3, .rng 2 255, false, false, false⟩,
  ⟨"master_only", 0, 1, 0x000B, 0x000B, 1, .rw, 0, .any, false, false, false⟩,
  ⟨"rx_lat_ps", 0, 1, 0x000C, 0x000C, 32, .rw, 0, .rng (-100000) 100000, true, false, false⟩]
/-- Attribute map of class 0x15, part 1. -/
def attrMap15_1 : List AttrRow := [
  ⟨"tx_lat_ps", 0, 1, 0x000D, 0x000D, 32, .rw, 0, .rng (-100000) 100000, true, false, false⟩,
  ⟨"asym_ps", 0, 1, 0x000E, 0x000E, 32, .rw, 0, .rng (-1000000) 1000000, true, false, false⟩,
  ⟨"mean_delay_ps", 0, 1, 0x0010, 0x0010, 32, .ro, 0, .any, false, false, false⟩,
  ⟨"port_offset_ns", 0, 1, 0x0011, 0x0011, 32, .ro, 0, .any, true, false, false⟩,
  ⟨"ptp_rx", 0, 1, 0x0012, 0x0012, 32, .rc, 0, .any, false, false, false⟩,
  ⟨"ptp_tx", 0, 1, 0x0013, 0x0013, 32, .rc, 0, .any, false, false, false⟩,
  ⟨"ts_missing", 0, 1, 0x0014, 0x0014, 32, .rc, 0, .any, false, false, false⟩,
  ⟨"ptp_bad", 0, 1, 0x0015, 0x0015, 32, .rc, 0, .any, false, false, false⟩]
/-- Attribute map of class 0x15. -/
def attrMap15 : List AttrRow := attrMap15_0 ++ attrMap15_1

/-- Attribute map of class 0x16, part 0. -/
def attrMap16_0 : List AttrRow := [
  ⟨"po_state", 0, 11, 0x0001, 0x0001, 2, .ro, 0, .any, false, false, false⟩,
  ⟨"po_tb", 0, 11, 0x0002, 0x0002, 1, .rw, 1, .any, false, false, false⟩,
  ⟨"po_width_ns", 0, 11, 0x0003, 0x0003, 32, .rw, 1000, .rng 10 1000000000, false, false, false⟩,
  ⟨"po_invert", 0, 11, 0x0004, 0x0004, 1, .rw, 0, .any, false, false, false⟩,
  ⟨"po_delay_ns", 0, 11, 0x0005, 0x0005, 32, .rw, 0, .rng 0 1000000, false, false, false⟩,
  ⟨"po_mode", 0, 11, 0x0006, 0x0006, 2, .ro, 0, .any, false, false, false⟩,
  ⟨"po_next", 0, 11, 0x0007, 0x0007, 64, .ro, 0, .any, false, false, false⟩,
  ⟨"po_pulses", 0, 11, 0x0008, 0x0008, 32, .rc, 0, .any, false, false, false⟩,
  ⟨"po_late", 0, 11, 0x0009, 0x0009, 32, .rc, 0, .any, false, false, false⟩,
  ⟨"po_skipped", 0, 11, 0x000A, 0x000A, 32, .rc, 0, .any, false, false, false⟩,
  ⟨"cap_edge", 0, 11, 0x0020, 0x0020, 2, .rw, 0, .any, false, false, false⟩,
  ⟨"cap_filter_ns", 0, 11, 0x0021, 0x0021, 16, .rw, 20, .rng 0 10000, false, false, false⟩]
/-- Attribute map of class 0x16, part 1. -/
def attrMap16_1 : List AttrRow := [
  ⟨"cap_last", 0, 11, 0x0022, 0x0022, 256, .ro, 0, .any, false, false, false⟩,
  ⟨"cap_event", 0, 11, 0x0023, 0x0023, 1, .rw, 0, .any, false, false, false⟩,
  ⟨"cap_overruns", 0, 11, 0x0024, 0x0024, 32, .rc, 0, .any, false, false, false⟩]
/-- Attribute map of class 0x16. -/
def attrMap16 : List AttrRow := attrMap16_0 ++ attrMap16_1

/-- Attribute map of class 0x17, part 0. -/
def attrMap17_0 : List AttrRow := [
  ⟨"eth_enable", 0, 1, 0x0001, 0x0001, 1, .rw, 0, .any, false, false, false⟩,
  ⟨"eth_rate", 0, 1, 0x0002, 0x0002, 2, .rw, 2, .any, false, false, false⟩,
  ⟨"eth_fec", 0, 1, 0x0003, 0x0003, 2, .rw, 0, .rng 0 2, false, false, false⟩,
  ⟨"link_up", 0, 1, 0x0004, 0x0004, 1, .ro, 0, .any, false, false, false⟩,
  ⟨"mac_addr", 0, 1, 0x0005, 0x0005, 48, .rw, 0, .any, false, false, false⟩,
  ⟨"mtu", 0, 1, 0x0006, 0x0006, 16, .rw, 1500, .rng 1500 9216, false, false, false⟩,
  ⟨"vlan", 0, 1, 0x0007, 0x0007, 13, .rw, 0, .any, false, false, false⟩,
  ⟨"ipv4_addr", 0, 1, 0x0008, 0x0008, 32, .rw, 0, .any, false, false, false⟩,
  ⟨"ipv4_prefix", 0, 1, 0x0009, 0x0009, 6, .rw, 24, .rng 0 32, false, false, false⟩,
  ⟨"ipv6_addr", 0, 1, 0x000A, 0x000A, 128, .rw, 0, .any, false, false, false⟩,
  ⟨"ipv6_prefix", 0, 1, 0x000B, 0x000B, 8, .rw, 64, .rng 0 128, false, false, false⟩,
  ⟨"autoneg", 0, 1, 0x000C, 0x000C, 1, .rw, 1, .any, false, false, false⟩]
/-- Attribute map of class 0x17, part 1. -/
def attrMap17_1 : List AttrRow := [
  ⟨"rx_frames", 0, 1, 0x0010, 0x0010, 64, .rc, 0, .any, false, false, false⟩,
  ⟨"tx_frames", 0, 1, 0x0011, 0x0011, 64, .rc, 0, .any, false, false, false⟩,
  ⟨"fcs_errs", 0, 1, 0x0012, 0x0012, 32, .rc, 0, .any, false, false, false⟩,
  ⟨"fec_corrected", 0, 1, 0x0013, 0x0013, 32, .rc, 0, .any, false, false, false⟩,
  ⟨"fec_uncorrected", 0, 1, 0x0014, 0x0014, 32, .rc, 0, .any, false, false, false⟩,
  ⟨"eth_drops", 0, 1, 0x0015, 0x0015, 32, .rc, 0, .any, false, false, false⟩,
  ⟨"pause_rx", 0, 1, 0x0016, 0x0016, 32, .rc, 0, .any, false, false, false⟩]
/-- Attribute map of class 0x17. -/
def attrMap17 : List AttrRow := attrMap17_0 ++ attrMap17_1

/-- Attribute map of class 0x18, part 0. -/
def attrMap18_0 : List AttrRow := [
  ⟨"pcie_link", 0, 1, 0x0001, 0x0001, 1, .ro, 0, .any, false, false, false⟩,
  ⟨"pcie_gen", 0, 1, 0x0002, 0x0002, 3, .ro, 0, .any, false, false, false⟩,
  ⟨"pcie_width", 0, 1, 0x0003, 0x0003, 3, .ro, 0, .any, false, false, false⟩,
  ⟨"pcie_gen_max", 0, 1, 0x0004, 0x0004, 3, .rw, 5, .rng 1 5, false, false, false⟩,
  ⟨"mps", 0, 1, 0x0005, 0x0005, 10, .ro, 128, .any, false, false, false⟩,
  ⟨"msix_en", 0, 1, 0x0006, 0x0006, 1, .ro, 0, .any, false, false, false⟩,
  ⟨"vendor_id", 0, 1, 0x0007, 0x0007, 16, .ro, 0, .any, false, false, false⟩,
  ⟨"device_id", 0, 1, 0x0008, 0x0008, 16, .ro, 0, .any, false, false, false⟩,
  ⟨"bar2_aps", 0, 1, 0x0010, 0x0010, 1024, .ro, 0, .any, false, false, false⟩,
  ⟨"aer_corr", 0, 1, 0x0020, 0x0020, 32, .rc, 0, .any, false, false, false⟩,
  ⟨"aer_uncorr", 0, 1, 0x0021, 0x0021, 32, .rc, 0, .any, false, false, false⟩,
  ⟨"flr_count", 0, 1, 0x0022, 0x0022, 32, .rc, 0, .any, false, false, false⟩]
/-- Attribute map of class 0x18, part 1. -/
def attrMap18_1 : List AttrRow := [
  ⟨"bar_rejects", 0, 1, 0x0023, 0x0023, 32, .rc, 0, .any, false, false, false⟩]
/-- Attribute map of class 0x18. -/
def attrMap18 : List AttrRow := attrMap18_0 ++ attrMap18_1

/-- Attribute map of class 0x19, part 0. -/
def attrMap19_0 : List AttrRow := [
  ⟨"itv_enable", 0, 0, 0x0001, 0x0001, 1, .ro, 0, .any, false, false, false⟩,
  ⟨"itv_state", 0, 0, 0x0002, 0x0002, 2, .ro, 0, .any, false, false, false⟩,
  ⟨"itv_gen", 0, 0, 0x0003, 0x0003, 2, .ro, 0, .any, false, false, false⟩,
  ⟨"itv_gen_max", 0, 0, 0x0004, 0x0004, 2, .rw, 3, .rng 1 3, false, false, false⟩,
  ⟨"train_step", 0, 0, 0x0005, 0x0005, 3, .ro, 0, .any, false, false, false⟩,
  ⟨"peer_serial", 0, 0, 0x0006, 0x0006, 64, .ro, 0, .any, false, false, false⟩,
  ⟨"eq_max_us", 0, 0, 0x0007, 0x0007, 16, .rw, 2000, .rng 100 20000, false, false, false⟩,
  ⟨"retry_ms", 0, 0, 0x0008, 0x0008, 16, .rw, 100, .rng 10 10000, false, false, false⟩,
  ⟨"tx_taps", 0, 0, 0x0009, 0x0009, 16, .ro, 9350, .any, false, false, false⟩,
  ⟨"sleep_after_ns", 0, 0, 0x000A, 0x000A, 32, .rw, 2000, .zeroOr 100 1000000, false, false, false⟩,
  ⟨"deep_after_ms", 0, 0, 0x000B, 0x000B, 32, .rw, 0, .zeroOr 1 600000, false, false, false⟩,
  ⟨"tx_pm", 0, 0, 0x000C, 0x000C, 2, .ro, 0, .any, false, false, false⟩]
/-- Attribute map of class 0x19, part 1. -/
def attrMap19_1 : List AttrRow := [
  ⟨"rx_pm", 0, 0, 0x000D, 0x000D, 2, .ro, 0, .any, false, false, false⟩,
  ⟨"ack_timeout_us", 0, 0, 0x000E, 0x000E, 16, .rw, 10, .rng 2 1000, false, false, false⟩,
  ⟨"itv_asym_ps", 0, 0, 0x000F, 0x000F, 32, .rw, 0, .rng (-1000000) 1000000, true, false, false⟩,
  ⟨"eye_width", 0, 0, 0x0010, 0x0010, 128, .ro, 0, .any, false, false, false⟩,
  ⟨"eye_height", 0, 0, 0x0011, 0x0011, 128, .ro, 0, .any, false, false, false⟩,
  ⟨"eye_tb1", 0, 0, 0x0012, 0x0012, 64, .ro, 0, .any, false, false, false⟩,
  ⟨"eye_min_ui", 0, 0, 0x0013, 0x0013, 16, .rw, 256, .any, false, false, false⟩,
  ⟨"eye_min_mv", 0, 0, 0x0014, 0x0014, 16, .rw, 30, .any, false, false, false⟩,
  ⟨"train_fails", 0, 0, 0x0020, 0x0020, 32, .rc, 0, .any, false, false, false⟩,
  ⟨"crc_errs", 0, 0, 0x0021, 0x0021, 32, .rc, 0, .any, false, false, false⟩,
  ⟨"replays", 0, 0, 0x0022, 0x0022, 32, .rc, 0, .any, false, false, false⟩,
  ⟨"sync_errs", 0, 0, 0x0023, 0x0023, 32, .rc, 0, .any, false, false, false⟩]
/-- Attribute map of class 0x19, part 2. -/
def attrMap19_2 : List AttrRow := [
  ⟨"frames_tx", 0, 0, 0x0024, 0x0024, 32, .rc, 0, .any, false, false, false⟩,
  ⟨"frames_rx", 0, 0, 0x0025, 0x0025, 32, .rc, 0, .any, false, false, false⟩,
  ⟨"link_downs", 0, 0, 0x0026, 0x0026, 32, .rc, 0, .any, false, false, false⟩]
/-- Attribute map of class 0x19. -/
def attrMap19 : List AttrRow := attrMap19_0 ++ attrMap19_1 ++ attrMap19_2

/-- Attribute map of class 0x1A, part 0. -/
def attrMap1A_0 : List AttrRow := [
  ⟨"sys_role", 0, 0, 0x0001, 0x0001, 2, .ro, 0, .any, false, false, false⟩,
  ⟨"node_base", 0, 0, 0x0002, 0x0002, 18, .ro, 0, .any, false, false, false⟩,
  ⟨"node_count", 0, 0, 0x0003, 0x0003, 18, .ro, 0, .any, false, false, false⟩,
  ⟨"sys_nodes", 0, 0, 0x0004, 0x0004, 19, .ro, 0, .any, false, false, false⟩,
  ⟨"sys_packages", 0, 0, 0x0005, 0x0005, 13, .ro, 1, .any, false, false, false⟩,
  ⟨"sys_master_en", 0, 0, 0x0006, 0x0006, 1, .rw, 0, .any, false, false, false⟩,
  ⟨"sys_priority", 0, 0, 0x0007, 0x0007, 8, .rw, 128, .any, false, false, false⟩,
  ⟨"master_serial", 0, 0, 0x0008, 0x0008, 64, .ro, 0, .any, false, false, false⟩,
  ⟨"time_master", 0, 0, 0x0009, 0x0009, 1, .rw, 0, .any, false, false, false⟩,
  ⟨"itv_sync_ms", 0, 0, 0x000A, 0x000A, 16, .rw, 125, .rng 16 1000, false, false, false⟩,
  ⟨"auto_enum", 0, 0, 0x000B, 0x000B, 1, .rw, 1, .any, false, false, false⟩,
  ⟨"sys_gen", 0, 0, 0x000C, 0x000C, 32, .ro, 0, .any, false, false, false⟩]
/-- Attribute map of class 0x1A, part 1. -/
def attrMap1A_1 : List AttrRow := [
  ⟨"tun_udp_port", 0, 0, 0x000D, 0x000D, 16, .rw, 50422, .rng 1024 65535, false, false, false⟩,
  ⟨"tun_peers", 0, 0, 0x000E, 0x000E, 4096, .rw, 0, .any, false, false, false⟩,
  ⟨"tun_ack_us", 0, 0, 0x000F, 0x000F, 16, .rw, 2000, .rng 100 60000, false, false, false⟩,
  ⟨"depth", 0, 0, 0x0010, 0x0010, 6, .ro, 0, .any, false, false, false⟩,
  ⟨"upstream", 0, 0, 0x0011, 0x0011, 8, .ro, 255, .any, false, false, false⟩,
  ⟨"addr_full", 0, 0, 0x0012, 0x0012, 32, .rc, 0, .any, false, false, false⟩]
/-- Attribute map of class 0x1A. -/
def attrMap1A : List AttrRow := attrMap1A_0 ++ attrMap1A_1

/-- Attribute map of class 0x1B, part 0. -/
def attrMap1B_0 : List AttrRow := [
  ⟨"sn_kind", 0, 63, 0x0001, 0x0001, 4, .ro, 0, .any, false, false, false⟩,
  ⟨"sn_value", 0, 63, 0x0002, 0x0002, 16, .ro, 0, .any, true, false, false⟩,
  ⟨"sn_raw", 0, 63, 0x0003, 0x0003, 12, .ro, 0, .any, false, false, false⟩,
  ⟨"sn_state", 0, 63, 0x0004, 0x0004, 3, .ro, 0, .any, false, false, false⟩,
  ⟨"sn_flags", 0, 63, 0x0005, 0x0005, 4, .ro, 0, .any, false, false, false⟩,
  ⟨"sn_tb1", 0, 63, 0x0006, 0x0006, 64, .ro, 0, .any, false, false, false⟩,
  ⟨"sn_max", 0, 63, 0x0007, 0x0007, 16, .rc, 32768, .any, false, false, false⟩,
  ⟨"sn_min", 0, 63, 0x0008, 0x0008, 16, .rc, 32767, .any, false, false, false⟩,
  ⟨"warm", 0, 63, 0x0010, 0x0010, 16, .rw, 0, .any, false, false, false⟩,
  ⟨"hot", 0, 63, 0x0011, 0x0011, 16, .rw, 0, .any, false, false, false⟩,
  ⟨"critical", 0, 63, 0x0012, 0x0012, 16, .rw, 0, .any, false, false, false⟩,
  ⟨"hyst", 0, 63, 0x0013, 0x0013, 8, .rw, 32, .rng 8 160, false, false, false⟩]
/-- Attribute map of class 0x1B, part 1. -/
def attrMap1B_1 : List AttrRow := [
  ⟨"rise_limit", 0, 63, 0x0014, 0x0014, 16, .rw, 0, .any, false, false, false⟩,
  ⟨"rise_window_ms", 0, 63, 0x0015, 0x0015, 16, .rw, 2000, .rng 500 10000, false, false, false⟩,
  ⟨"policy", 0, 63, 0x0016, 0x0016, 1, .rw, 0, .any, false, false, false⟩,
  ⟨"ohm_25c", 0, 63, 0x0017, 0x0017, 32, .rw, 10000, .rng 100 1000000, false, false, false⟩,
  ⟨"beta", 0, 63, 0x0018, 0x0018, 16, .rw, 3435, .rng 1000 10000, false, false, false⟩,
  ⟨"lim_lo_mv", 0, 63, 0x0019, 0x0019, 16, .rw, 0, .any, false, false, false⟩,
  ⟨"lim_hi_mv", 0, 63, 0x001A, 0x001A, 16, .rw, 0, .any, false, false, false⟩]
/-- Attribute map of class 0x1B. -/
def attrMap1B : List AttrRow := attrMap1B_0 ++ attrMap1B_1

/-- Attribute map of class 0x1C, part 0. -/
def attrMap1C_0 : List AttrRow := [
  ⟨"round_ms", 0, 0, 0x0001, 0x0001, 16, .rw, 20, .rng 4 1000, false, false, false⟩,
  ⟨"rounds", 0, 0, 0x0002, 0x0002, 32, .ro, 0, .any, false, false, false⟩,
  ⟨"throttle", 0, 0, 0x0003, 0x0003, 3, .ro, 0, .any, false, false, false⟩,
  ⟨"throttle_min", 0, 0, 0x0004, 0x0004, 3, .rw, 0, .any, false, false, false⟩,
  ⟨"throttle_step", 0, 0, 0x0005, 0x0005, 8, .rw, 20, .rng 8 80, false, false, false⟩,
  ⟨"tj_max", 0, 0, 0x0006, 0x0006, 16, .ro, 0, .any, false, false, false⟩,
  ⟨"tj_mean", 0, 0, 0x0007, 0x0007, 16, .ro, 0, .any, false, false, false⟩,
  ⟨"speed_lim_req", 0, 0, 0x0008, 0x0008, 1, .ro, 0, .any, false, false, false⟩,
  ⟨"nv_write_ok", 0, 0, 0x0009, 0x0009, 1, .ro, 1, .any, false, false, false⟩,
  ⟨"crit_stop_ms", 0, 0, 0x000A, 0x000A, 16, .rw, 10000, .rng 100 60000, false, false, false⟩,
  ⟨"trip_latched", 0, 0, 0x000B, 0x000B, 1, .ro, 0, .any, false, false, false⟩,
  ⟨"trips", 0, 0, 0x000C, 0x000C, 32, .ro, 0, .any, false, false, false⟩]
/-- Attribute map of class 0x1C, part 1. -/
def attrMap1C_1 : List AttrRow := [
  ⟨"shutdown", 0, 0, 0x000D, 0x000D, 8, .ro, 0, .any, false, false, false⟩]
/-- Attribute map of class 0x1C. -/
def attrMap1C : List AttrRow := attrMap1C_0 ++ attrMap1C_1

/-- Attribute map of class 0x1D, part 0. -/
def attrMap1D_0 : List AttrRow := [
  ⟨"cal_state", 0, 4, 0x0001, 0x0001, 3, .ro, 0, .any, false, false, false⟩,
  ⟨"cal_runs", 0, 4, 0x0002, 0x0002, 32, .ro, 0, .any, false, false, false⟩,
  ⟨"cal_tb0", 0, 4, 0x0003, 0x0003, 64, .ro, 0, .any, false, false, false⟩,
  ⟨"cal_temp", 0, 4, 0x0004, 0x0004, 16, .ro, 0, .any, false, false, false⟩,
  ⟨"cal_auto", 0, 4, 0x0005, 0x0005, 1, .rw, 1, .any, false, false, false⟩,
  ⟨"cal_retrigger", 0, 4, 0x0006, 0x0006, 16, .rw, 160, .rng 16 1600, false, false, false⟩,
  ⟨"cal_period_s", 0, 4, 0x0007, 0x0007, 32, .rw, 0, .zeroOr 60 2592000, false, false, false⟩,
  ⟨"quality", 0, 4, 0x0008, 0x0008, 32, .ro, 0, .any, false, false, false⟩,
  ⟨"quality_tb1", 0, 4, 0x0009, 0x0009, 64, .ro, 0, .any, false, false, false⟩,
  ⟨"cal_unsaved", 0, 4, 0x000A, 0x000A, 1, .ro, 0, .any, false, false, false⟩,
  ⟨"cal_fails", 0, 4, 0x000B, 0x000B, 32, .rc, 0, .any, false, false, false⟩,
  ⟨"cal_values", 0, 4, 0x000C, 0x000C, 8192, .ro, 0, .any, false, false, false⟩]
/-- Attribute map of class 0x1D, part 1. -/
def attrMap1D_1 : List AttrRow := [
  ⟨"vref_mv", 0, 4, 0x0020, 0x0020, 16, .rw, 0, .zeroOr 500 1700, false, false, false⟩,
  ⟨"tile_roi", 0, 4, 0x0021, 0x0021, 4096, .rw, 0, .any, false, false, false⟩,
  ⟨"cam_res_max", 0, 4, 0x0022, 0x0022, 16, .rw, 150, .any, false, false, false⟩,
  ⟨"cal_frame_us", 0, 4, 0x0023, 0x0023, 32, .rw, 5000, .rng 100 100000, false, false, false⟩]
/-- Attribute map of class 0x1D. -/
def attrMap1D : List AttrRow := attrMap1D_0 ++ attrMap1D_1

/-- Attribute map of class 0x1E, part 0. -/
def attrMap1E_0 : List AttrRow := [
  ⟨"lead_die", 0, 0, 0x0001, 0x0001, 3, .ro, 0, .any, false, false, false⟩,
  ⟨"ld_states", 0, 0, 0x0002, 0x0002, 8, .ro, 0, .any, false, false, false⟩,
  ⟨"ld_causes", 0, 0, 0x0003, 0x0003, 8, .ro, 0, .any, false, false, false⟩,
  ⟨"wd_ms", 0, 0, 0x0004, 0x0004, 16, .rw, 10, .rng 2 1000, false, false, false⟩,
  ⟨"kennel_interval_ms", 0, 0, 0x0005, 0x0005, 16, .rw, 100, .rng 20 10000, false, false, false⟩,
  ⟨"kennel_seq", 0, 0, 0x0006, 0x0006, 64, .ro, 0, .any, false, false, false⟩,
  ⟨"kennel_tb0", 0, 0, 0x0007, 0x0007, 64, .ro, 0, .any, false, false, false⟩,
  ⟨"kennel_bytes", 0, 0, 0x0008, 0x0008, 32, .ro, 0, .any, false, false, false⟩,
  ⟨"kennel_age_ms", 0, 0, 0x0009, 0x0009, 32, .ro, 0, .any, false, false, false⟩,
  ⟨"auto_repair", 0, 0, 0x000A, 0x000A, 1, .rw, 1, .any, false, false, false⟩,
  ⟨"repair_delay_ms", 0, 0, 0x000B, 0x000B, 16, .rw, 1000, .rng 100 60000, false, false, false⟩,
  ⟨"takeovers", 0, 0, 0x0010, 0x0010, 32, .ro, 0, .any, false, false, false⟩]
/-- Attribute map of class 0x1E, part 1. -/
def attrMap1E_1 : List AttrRow := [
  ⟨"last_takeover_us", 0, 0, 0x0011, 0x0011, 32, .ro, 0, .any, false, false, false⟩,
  ⟨"kennel_errs", 0, 0, 0x0012, 0x0012, 32, .rc, 0, .any, false, false, false⟩,
  ⟨"kennel_late", 0, 0, 0x0013, 0x0013, 32, .rc, 0, .any, false, false, false⟩,
  ⟨"reissue_count", 0, 0, 0x0014, 0x0014, 7, .ro, 0, .any, false, false, false⟩,
  ⟨"reissue_over", 0, 0, 0x0015, 0x0015, 1, .ro, 0, .any, false, false, false⟩,
  ⟨"reissue", 0, 0, 0x0016, 0x0016, 12288, .ro, 0, .any, false, false, false⟩]
/-- Attribute map of class 0x1E. -/
def attrMap1E : List AttrRow := attrMap1E_0 ++ attrMap1E_1

/-- Attribute map of class 0x1F, part 0. -/
def attrMap1F_0 : List AttrRow := [
  ⟨"er_oldest", 0, 0, 0x0001, 0x0001, 64, .ro, 0, .any, false, false, false⟩,
  ⟨"er_newest", 0, 0, 0x0002, 0x0002, 64, .ro, 0, .any, false, false, false⟩,
  ⟨"er_durable", 0, 0, 0x0003, 0x0003, 64, .ro, 0, .any, false, false, false⟩,
  ⟨"er_capacity", 0, 0, 0x0004, 0x0004, 32, .ro, 1048576, .any, false, false, false⟩,
  ⟨"fb_depth", 0, 0, 0x0005, 0x0005, 14, .ro, 0, .any, false, false, false⟩,
  ⟨"fb_max", 0, 0, 0x0006, 0x0006, 14, .rc, 0, .any, false, false, false⟩,
  ⟨"evq_mask", 0, 0, 0x0007, 0x0007, 64, .rw, 18446744073709551615, .any, false, false, false⟩,
  ⟨"suppressed", 0, 0, 0x0008, 0x0008, 32, .rc, 0, .any, false, false, false⟩,
  ⟨"backlog_folds", 0, 0, 0x0009, 0x0009, 32, .rc, 0, .any, false, false, false⟩,
  ⟨"power_losses", 0, 0, 0x000A, 0x000A, 32, .ro, 0, .any, false, false, false⟩]
/-- Attribute map of class 0x1F. -/
def attrMap1F : List AttrRow := attrMap1F_0

/-- Attribute map of class 0x20, part 0. -/
def attrMap20_0 : List AttrRow := [
  ⟨"pd_on", 0, 0, 0x0001, 0x0001, 8, .ro, 0, .any, false, false, false⟩,
  ⟨"pd_busy", 0, 0, 0x0002, 0x0002, 8, .ro, 0, .any, false, false, false⟩,
  ⟨"reset_cause", 0, 0, 0x0003, 0x0003, 4, .ro, 0, .any, false, false, false⟩,
  ⟨"boot_count", 0, 0, 0x0004, 0x0004, 32, .ro, 0, .any, false, false, false⟩,
  ⟨"boot_ms", 0, 0, 0x0005, 0x0005, 32, .ro, 0, .any, false, false, false⟩,
  ⟨"straps", 0, 0, 0x0006, 0x0006, 4, .ro, 0, .any, false, false, false⟩,
  ⟨"rails_good", 0, 0, 0x0007, 0x0007, 16, .ro, 0, .any, false, false, false⟩,
  ⟨"rail_faults", 0, 0, 0x0008, 0x0008, 32, .rc, 0, .any, false, false, false⟩,
  ⟨"clk_faults", 0, 0, 0x0009, 0x0009, 32, .rc, 0, .any, false, false, false⟩]
/-- Attribute map of class 0x20. -/
def attrMap20 : List AttrRow := attrMap20_0

/-- Attribute map of class 0x21, part 0. -/
def attrMap21_0 : List AttrRow := [
  ⟨"nv_size", 0, 1, 0x0001, 0x0001, 32, .ro, 0, .any, false, false, false⟩,
  ⟨"nv_erase_max", 0, 1, 0x0002, 0x0002, 32, .ro, 0, .any, false, false, false⟩,
  ⟨"fw_a_state", 0, 1, 0x0003, 0x0003, 3, .ro, 0, .any, false, false, false⟩,
  ⟨"fw_b_state", 0, 1, 0x0004, 0x0004, 3, .ro, 0, .any, false, false, false⟩,
  ⟨"fw_a_ver", 0, 1, 0x0005, 0x0005, 32, .ro, 0, .any, false, false, false⟩,
  ⟨"fw_b_ver", 0, 1, 0x0006, 0x0006, 32, .ro, 0, .any, false, false, false⟩,
  ⟨"boot_fails", 0, 1, 0x0007, 0x0007, 8, .ro, 0, .any, false, false, false⟩,
  ⟨"gh_script", 0, 1, 0x0010, 0x0010, 2097152, .rw, 0, .any, false, false, false⟩,
  ⟨"gh_script_len", 0, 1, 0x0011, 0x0011, 32, .rw, 0, .rng 0 262144, false, false, false⟩,
  ⟨"gh_spit_lines", 0, 1, 0x0012, 0x0012, 32, .rw, 1000, .rng 1 1000000, false, false, false⟩,
  ⟨"gh_spit_interval_s", 0, 1, 0x0013, 0x0013, 16, .rw, 600, .zeroOr 10 65535, false, false, false⟩,
  ⟨"gh_runin_mm", 0, 1, 0x0014, 0x0014, 16, .rw, 200, .rng 10 10000, false, false, false⟩]
/-- Attribute map of class 0x21. -/
def attrMap21 : List AttrRow := attrMap21_0

/-- The attribute map of a class; none for a class that the table of classes does not list. -/
def attrMap : Nat → List AttrRow
  | 0x01 => attrMap01
  | 0x02 => attrMap02
  | 0x03 => attrMap03
  | 0x04 => attrMap04
  | 0x05 => attrMap05
  | 0x06 => attrMap06
  | 0x07 => attrMap07
  | 0x08 => attrMap08
  | 0x09 => attrMap09
  | 0x0A => attrMap0A
  | 0x0B => attrMap0B
  | 0x0C => attrMap0C
  | 0x0D => attrMap0D
  | 0x0E => attrMap0E
  | 0x0F => attrMap0F
  | 0x10 => attrMap10
  | 0x11 => attrMap11
  | 0x12 => attrMap12
  | 0x13 => attrMap13
  | 0x14 => attrMap14
  | 0x15 => attrMap15
  | 0x16 => attrMap16
  | 0x17 => attrMap17
  | 0x18 => attrMap18
  | 0x19 => attrMap19
  | 0x1A => attrMap1A
  | 0x1B => attrMap1B
  | 0x1C => attrMap1C
  | 0x1D => attrMap1D
  | 0x1E => attrMap1E
  | 0x1F => attrMap1F
  | 0x20 => attrMap20
  | 0x21 => attrMap21
  | _ => []

end Sys2Proof.Machine
end

