-- ==== Sys2Proof/Machine/Ops.lean ====
section
/-!
DEFINITION. The named operations over the memories and the registers: one byte read and one byte written in canonical
form, the address map of a die (R35), the stores of a step, the registers by object address, the lift of an effect to the
whole state.
-/
namespace Sys2Proof.Machine

/-! ### Memory -/

/-- One byte of a memory; an address that is not listed reads 0 (assumption log 2). -/
def memRead : List Host.Cell → Nat → Byte
  | [], _ => 0
  | (b, v) :: m, a => if a < b then 0 else if a = b then v else memRead m a

/-- One byte put in front of cells of higher addresses; a zero byte is not listed. -/
def memCons (a : Nat) (v : Byte) (m : List Host.Cell) : List Host.Cell := if v = 0 then m else (a, v) :: m

/-- One byte written, in canonical form: addresses strictly rising, no zero byte listed. -/
def memWrite : List Host.Cell → Nat → Byte → List Host.Cell
  | [], a, v => memCons a v []
  | (b, w) :: m, a, v =>
    if a < b then memCons a v ((b, w) :: m)
    else if a = b then memCons a v m
    else (b, w) :: memWrite m a v

/-- The cells from `lo` to `hi` forgotten (the DRAM loses its contents with MEM, R505). -/
def memClear (m : List Host.Cell) (lo hi : Nat) : List Host.Cell := m.filter fun c => !(lo ≤ c.1 && c.1 ≤ hi)

/-- The canonical form: every address above `lo`, strictly rising, no byte 0. -/
def memSorted : Nat → List Host.Cell → Bool
  | _, [] => true
  | lo, (a, v) :: m => lo ≤ a && v != 0 && memSorted (a + 1) m

/-- A memory is in canonical form and lies in the 40-bit address space (R35). -/
def Memory.wf (m : List Host.Cell) : Bool := memSorted 0 m && m.all fun c => c.1 < 2 ^ 40

/-- The ranges of a die's device address space (R35). -/
inductive Region where
  | qct | ct | reserved | lamp | rildin | dram | pool | bank (b : Nat) | tile | unmapped
  deriving DecidableEq, Repr

/-- The top of DRAM on a 16 GiB part (R35; the package of `State.reset`, assumption log 1). -/
def dramTop : Nat := 0x03FFFFFFFF

/-- The range that an address lies in (R35). -/
def region (a : Nat) : Region :=
  if a < 0x1000 then .qct
  else if a < 0x9000 then .ct
  else if a < 0x10000 then .reserved
  else if a < 0x30000 then .lamp
  else if a < 0x1000000 then .rildin
  else if a ≤ dramTop then .dram
  else if a < 0x1000000000 then .unmapped
  else if a < 0x1000100000 then .pool
  else if a < 0x10001C0000 then .bank 0
  else if a < 0x1000280000 then .bank 1
  else if a < 0x1000281000 then .tile
  else .unmapped

/-- Whether an address holds storage of its own (R35): a reserved range and an unmapped address hold none; the density
banks and the tile show what the Orangery built and the tile in force, which are held in their own records. -/
def stored (a : Nat) : Bool :=
  match region a with
  | .reserved | .unmapped | .tile | .bank _ => false
  | _ => true

/-- Bytes written upward from an address; bytes that fall where no storage is are lost. -/
def memStore (m : List Host.Cell) : Nat → List Byte → List Host.Cell
  | _, [] => m
  | a, b :: bs => memStore (if stored a then memWrite m a b else m) (a + 1) bs

/-- The memories after the stores of a step, in their order. -/
def applyStores (ms : List (List Host.Cell)) : List (Nat × Nat × List Byte) → List (List Host.Cell)
  | [] => ms
  | (d, a, bs) :: r => applyStores (ms.modify d fun m => memStore m a bs) r

/-- The memories after the losses of a step. -/
def applyWipes (ms : List (List Host.Cell)) : List (Nat × Nat × Nat) → List (List Host.Cell)
  | [] => ms
  | (d, lo, hi) :: r => applyWipes (ms.modify d fun m => memClear m lo hi) r

/-! ### The lift of an effect -/

/-- A step's effect on everything but the queue: the outputs are those of this step; stores and losses reach the
memories at the end of the step (R25). -/
def State.run (s : State) (f : List (List Host.Cell) → Hw → Hw) : State :=
  let h := f s.mems { s.hw with stores := [], wipes := [], out := [] }
  { s with mems := applyStores (applyWipes s.mems h.wipes) h.stores, hw := { h with stores := [], wipes := [] } }

/-- An effect on the package. -/
def State.onPkg (s : State) (f : List (List Host.Cell) → Hw → Hw) : Host.Outcome State Fault Refusal := .next (s.run f)

/-- An effect on die `d`; a die outside the package does not exist. -/
def State.onDie (s : State) (d : Nat) (f : List (List Host.Cell) → Hw → Hw) : Host.Outcome State Fault Refusal :=
  if d < s.hw.dies.length then .next (s.run f) else .fault .noSuchDie

/-- An effect on unit `u` of the `n` that die `d` has. -/
def State.onUnit (s : State) (d u n : Nat) (f : List (List Host.Cell) → Hw → Hw) : Host.Outcome State Fault Refusal :=
  if d < s.hw.dies.length then if u < n then .next (s.run f) else .fault .noSuchUnit else .fault .noSuchDie

/-! ### Dies -/

/-- Die `d`; the record of an absent die is that of reset. -/
def Hw.die (h : Hw) (d : Nat) : Die := h.dies.getD d (Die.reset d)

/-- Die `d` changed. -/
def Hw.onDie (h : Hw) (d : Nat) (f : Die → Die) : Hw := { h with dies := h.dies.modify d f }

/-- The number of dies of the package. -/
def Hw.n (h : Hw) : Nat := h.dies.length

/-- An output of this step. -/
def Hw.emit (h : Hw) (o : Output) : Hw := { h with out := h.out ++ [o] }

/-- Bytes to be stored in die `d`'s memory at the end of this step. -/
def Hw.store (h : Hw) (d a : Nat) (bs : List Byte) : Hw := { h with stores := h.stores ++ [(d, a, bs)] }

/-- A free value taken (assumption log 3). -/
def Hw.fresh (h : Hw) : Nat × Hw := (Config.freeValue h.free, { h with free := h.free + 1 })

/-! ### Registers -/

/-- The row of the attribute map that an object address names. -/
def attrRow? (cls inst id : Nat) : Option AttrRow :=
  (attrMap cls).find? fun r => r.instLo ≤ inst && inst ≤ r.instHi && r.idLo ≤ id && id ≤ r.idHi

/-- The value found under a key of an association list. -/
def regFind : List (RegKey × α) → RegKey → Option α
  | [], _ => none
  | (k, v) :: m, k' => if k = k' then some v else regFind m k'

/-- The association list with `v` under `k`. -/
def regPut : List (RegKey × α) → RegKey → α → List (RegKey × α)
  | [], k, v => [(k, v)]
  | (k', v') :: m, k, v => if k' = k then (k, v) :: m else (k', v') :: regPut m k v

/-- The pseudo-die under which package objects are kept. -/
def pkgDie : Nat := 255

/-- Whether an object address names a package value: COLOUR_HOLD, SYSTEM, LEAD, package NV, PCIE, `hs_filter_us`, the
package values of EVTREC (R438, R439, R501, R502, R385, R532), `bl_nv` and the time-base servo values of TIMEBASE (R391). -/
def isPkgObj (cls inst id : Nat) : Bool :=
  cls == 0x13 || cls == 0x1A || cls == 0x1E || cls == 0x18 || (cls == 0x21 && inst == 0) ||
  (cls == 0x06 && inst == 0 && id == 0x19) || (cls == 0x1F && (id ≤ 4 || id == 7 || id == 0xA)) ||
  (cls == 0x01 && (id == 2 || id == 3 || id == 4 || id == 5)) || (cls == 0x14 && id != 1 && id != 3)

/-- The home of an attribute of unit `i` of die `d`. -/
def rkey (d : Nat) (a : AttrId) (i : Nat) : RegKey :=
  ⟨if isPkgObj a.cls i a.id then pkgDie else d, a.cls, if a.cls = 0x01 then 0 else i, a.id⟩

/-- The kind of a housekeeping channel (R441). -/
def sensorKind (ch : Nat) : Nat :=
  if ch < 6 then 0 else if ch < 30 then 1 else if ch < 38 then 2 else if ch = 38 then 3 else if ch < 49 then 4
  else if ch < 57 then 5 else if ch = 57 then 6 else if ch = 58 then 7 else 8

/-- The nominal value of a RAIL or DOMAIN channel in mV (R441, R507); the switched outputs' are not given (assumption log
5). -/
def railNominal (ch : Nat) : Nat :=
  [750, 850, 900, 1200, 1050, 500, 1800, 1800, 3300, 800, 800, 750, 750, 750, 750, 750, 750, 750].getD (ch - 39) 0

/-- The value a register holds at reset (the Reset columns; assumption log 5 where the spec gives none). -/
def regReset (k : RegKey) : Nat :=
  match k.cls, k.id with
  | 0x01, 0x0001 => k.die
  | 0x01, 0x0002 => Config.stepLetter k.die
  | 0x08, 0x0006 => Config.storeBase k.die % 2 ^ 40
  | 0x0B, 0x0007 | 0x0B, 0x000B | 0x0C, 0x0020 => 2 ^ 64 - 1
  | 0x0D, 0x0008 => k.die
  | 0x0E, 0x0007 => 0x1000_1000_1000_1000
  | 0x14, 0x0006 => if k.inst = 1 then 0 else 1
  | 0x17, 0x0005 => Config.macAddr k.die k.inst
  | 0x18, 0x0007 => Config.vendorId
  | 0x18, 0x0008 => 0xD680
  | 0x1A, 0x0008 => Config.serial
  | 0x1B, 0x0001 => sensorKind k.inst
  | 0x1B, 0x0019 => if k.inst < 38 then 0 else railNominal k.inst * 95 / 100
  | 0x1B, 0x001A => if k.inst < 38 then 0xFFFF else railNominal k.inst * 105 / 100
  | 0x1B, 0x0010 => if k.inst < 6 then 95 * 16 else 60 * 16
  | 0x1B, 0x0011 => if k.inst < 6 then 105 * 16 else 65 * 16
  | 0x1B, 0x0012 => if k.inst < 6 then 115 * 16 else 70 * 16
  | 0x1B, 0x0014 => if k.inst < 6 then 64 else 32
  | 0x21, 0x0001 => if k.inst = 0 then 256 else 64
  | cls, id => match attrRow? cls k.inst id with
    | some r => r.reset
    | none => 0

/-- The value of a register. -/
def Hw.rdk (h : Hw) (k : RegKey) : Nat := (regFind h.regs k).getD (regReset k)

/-- A register written. -/
def Hw.wrk (h : Hw) (k : RegKey) (v : Nat) : Hw := { h with regs := regPut h.regs k v }

/-- Attribute `a` of unit `i` of die `d`. -/
def Hw.rd (h : Hw) (d : Nat) (a : AttrId) (i : Nat := 0) : Nat := h.rdk (rkey d a i)

/-- Attribute `a` of unit `i` of die `d` set to `v`. -/
def Hw.wr (h : Hw) (d : Nat) (a : AttrId) (i v : Nat) : Hw := h.wrk (rkey d a i) v

/-- A counter advanced by `n`; a count wraps in the width of its attribute (assumption log 6). -/
def Hw.add (h : Hw) (d : Nat) (a : AttrId) (i : Nat) (n : Nat := 1) : Hw :=
  h.wr d a i ((h.rd d a i + n) % 2 ^ (((attrRow? a.cls i a.id).map (·.width)).getD 64))

/-- A signed attribute. -/
def Hw.rdS (h : Hw) (d : Nat) (a : AttrId) (i w : Nat) : Int := toSigned w (h.rd d a i)

/-- A signed attribute set. -/
def Hw.wrS (h : Hw) (d : Nat) (a : AttrId) (i w : Nat) (v : Int) : Hw := h.wr d a i (ofSigned w v)

/-- The bytes of a block attribute as far as they have been written; the rest reads its reset value. -/
def Hw.blk (h : Hw) (k : RegKey) : List Byte := (regFind h.blks k).getD []

/-- A block attribute's bytes set. -/
def Hw.setBlk (h : Hw) (k : RegKey) (b : List Byte) : Hw := { h with blks := regPut h.blks k b }

/-- Byte `i` of a block attribute (reset value: `blkReset`). -/
def blkReset (k : RegKey) (i : Nat) : Byte :=
  match k.cls, k.id with
  -- dither_tile, base_table (R574), level_weight, zone_gain (chapter 07)
  | 0x08, 0x0010 => BitVec.ofNat 8 (Config.tileByte k.die i)
  | 0x08, 0x0012 => BitVec.ofNat 8 (17 * i)
  | 0x08, 0x0013 => if i % 2 = 1 then 0x40 else 0x00
  | 0x08, 0x0015 => BitVec.ofNat 8 (0x0000_0033_0022_0011 / 256 ^ (i % 8))
  -- lsc_grid, ccm (chapter 10)
  | 0x0E, 0x000C => if i % 2 = 1 then 0x10 else 0x00
  | 0x0E, 0x000D => if i % 2 = 1 ∧ (i / 2) % 4 = 0 then 0x10 else 0x00
  -- mx_seq: rows 0 to 15 (chapter 11)
  | 0x12, 0x0004 => BitVec.ofNat 8 ((List.range 16).foldl (fun acc r => acc + r * 32 ^ r) 0 / 256 ^ i)
  -- band_nm: 400 + 22 r (chapter 12)
  | 0x13, 0x000A => BitVec.ofNat 8 ((400 + 22 * (i / 2)) / 256 ^ (i % 2))
  | _, _ => 0

/-- Byte `i` of a block attribute in force. -/
def Hw.blkByte (h : Hw) (k : RegKey) (i : Nat) : Byte := ((h.blk k)[i]?).getD (blkReset k i)

/-- A little-endian field of `n` bytes at byte `o` of a block attribute. -/
def Hw.blkNum (h : Hw) (d : Nat) (a : AttrId) (i o n : Nat) : Nat :=
  leNat ((List.range n).map fun j => h.blkByte (rkey d a i) (o + j))

/-- A block attribute's bytes with `bs` put in from byte `o` on, the gap filled with what is in force. -/
def blkSplice (k : RegKey) (old : List Byte) (o : Nat) (bs : List Byte) : List Byte :=
  (List.range (max old.length (o + bs.length))).map fun i =>
    if o ≤ i ∧ i < o + bs.length then bs.getD (i - o) 0 else (old[i]?).getD (blkReset k i)

/-- A field of `n` bytes written at byte `o` of a block attribute. -/
def Hw.wrBlk (h : Hw) (d : Nat) (a : AttrId) (i o n v : Nat) : Hw :=
  h.setBlk (rkey d a i) (blkSplice (rkey d a i) (h.blk (rkey d a i)) o (leBytes n v))

/-! ### Device memory as a step reads it -/

/-- The byte that the stores of this step leave at an address, if one of them reaches it. -/
def storeByte (l : List (Nat × Nat × List Byte)) (d a : Nat) : Option Byte :=
  l.foldl (fun acc s => if s.1 = d ∧ s.2.1 ≤ a ∧ a < s.2.1 + s.2.2.length then s.2.2[a - s.2.1]? else acc) none

/-- One byte of die `d`'s stored memory, the stores of this step included. -/
def Hw.byte (h : Hw) (ms : List (List Host.Cell)) (d a : Nat) : Byte :=
  match storeByte h.stores d a with
  | some b => b
  | none => memRead (ms.getD d []) a

/-- `n` bytes of die `d`'s memory from `a` upward. -/
def Hw.bytes (h : Hw) (ms : List (List Host.Cell)) (d a n : Nat) : List Byte :=
  (List.range n).map fun i => h.byte ms d (a + i)

/-- A little-endian number of `n` bytes in die `d`'s memory (R9). -/
def Hw.num (h : Hw) (ms : List (List Host.Cell)) (d a n : Nat) : Nat := leNat (h.bytes ms d a n)

/-! ### Lists of records -/

/-- Element `i` of a list of units. -/
def unit (l : List α) (i : Nat) (dflt : α) : α := l.getD i dflt

/-! ### Time (R388, R389) -/

/-- Time base `i` of die `d` in ns. -/
def Hw.tb (h : Hw) (d i : Nat) : Nat := ((h.die d).tbs.getD i {}).time / 2 ^ 48

/-- Time base `i` of die `d` in units of 2^-16 ns (R8, R389). -/
def Hw.tb16 (h : Hw) (d i : Nat) : Nat := ((h.die d).tbs.getD i {}).time / 2 ^ 32

/-- A time base after `k` cycles of 2 ns (1 + rate) (R389). -/
def Tb.after (t : Tb) (k : Nat) : Tb := { t with time := ((t.time : Int) + k * (2 ^ 49 + t.rho)).toNat }

/-- `k` cycles of the 500 MHz clock pass on every die; TB1 of the lead die runs at the reference clock's rate (R390). The time
bases hold in power-on reset (R388) and during a clock fault (R512). -/
def Hw.tick (h : Hw) (k : Nat) : Hw :=
  if h.porst || h.clkFault then { h with clk := h.clk + 2 * k }
  else { h with clk := h.clk + 2 * k, dies := h.dies.map fun d => { d with tbs := d.tbs.map (·.after k) } }

/-- The clocks run on until die `d`'s TB1 reaches `t` (units of 2^-16 ns); a time not ahead leaves them (assumption log
7: an event row that carries a time happens at that time). -/
def Hw.until (h : Hw) (d t : Nat) : Hw :=
  let b := (h.die d).tbs.getD 1 {}
  let step := ((2 : Int) ^ 49 + b.rho).toNat
  if b.time < t * 2 ^ 32 then h.tick ((t * 2 ^ 32 - b.time + step - 1) / step) else h

end Sys2Proof.Machine
end

