-- ==== Sys2Proof/Machine/Operands.lean ====
section
/-!
DEFINITION. Operand forms: the words of a request and of a reply (R44), the effect record (R64), status codes (R46), the
stated ranges of attributes (R11), the identity of a source (R79).
-/
namespace Sys2Proof.Machine

/-- The code of a status (R46). -/
def Status.code : Status → Nat
  | .ok => 0x00 | .busy => 0x01 | .badOpcode => 0x02 | .badObject => 0x03 | .badAttr => 0x04 | .range => 0x05
  | .state => 0x06 | .noSpace => 0x07 | .timeout => 0x08 | .nvTemp => 0x09 | .check => 0x0A
  | .nodeUnreachable => 0x0B | .deferred => 0x0C | .superseded => 0x0D

/-- Whether a command with this status has done its work or will do it. -/
def Status.good : Status → Bool
  | .ok | .deferred => true
  | _ => false

/-- The bytes of 32-bit words (R44). -/
def wordBytes (ws : List Nat) : List Byte := ws.flatMap (leBytes 4)

/-- The low and the high word of a 64-bit value. -/
def words64 (v : Nat) : List Nat := [v % 2 ^ 32, v / 2 ^ 32 % 2 ^ 32]

/-- Word `n` of a frame or payload. -/
def wordAt (bs : List Byte) (n : Nat) : Nat := leNat ((bs.drop (4 * n)).take 4)

/-- The 16-byte effect record (R64). -/
def Effect.bytes (e : Effect) : List Byte :=
  wordBytes ([(if e.kind = 1 then e.ctx * 256 else 0) + e.kind] ++ words64 e.point ++ [0])

/-- An OK reply without payload. -/
def Reply.ok : Reply := ⟨.ok, []⟩

/-- A refusal: its reply length is 0 (R47). -/
def Reply.err (s : Status) : Reply := ⟨s, []⟩

/-- An OK reply with words. -/
def Reply.words (ws : List Nat) : Reply := ⟨.ok, wordBytes ws⟩

/-- The source of a command (R79); each endpoint has one physical function (R425). -/
def srcOf : Origin → Source
  | .slot _ ep _ => .pcie ep 0
  | .remote d e ip p => .eth d e ip p
  | .itv _ node serial => .itv node serial
  | .rildin _ => .rildin
  | .script => .script

/-- The die that accepted a command (R53). -/
def originDie : Origin → Nat
  | .slot d _ _ => d
  | .remote d _ _ _ => d
  | .itv d _ _ => d
  | .rildin d => d
  | .script => 0

/-- The source index of a command (R79): 0 the script, 1 Rildin, others from 2 in the order in which they were seen. -/
def Hw.srcIndex (h : Hw) (s : Source) : Nat :=
  match s with
  | .script => 0
  | .rildin => 1
  | s => h.pkg.sources.idxOf s + 2

/-- The identity field of SOURCE_SEEN (R573). -/
def Source.ident : Source → List Byte
  | .pcie ep fn => [0, BitVec.ofNat 8 ep, BitVec.ofNat 8 fn]
  | .eth d p ip udp => [1, BitVec.ofNat 8 d, BitVec.ofNat 8 p] ++ (leBytes 16 ip).reverse ++ leBytes 2 udp
  | .itv node serial => [2] ++ leBytes 3 node ++ leBytes 8 serial
  | .script | .rildin => []

/-- Whether a value lies in a stated range (R11). -/
def Rng.has (g : Rng) (signed : Bool) (width v : Nat) : Bool :=
  match g with
  | .any => true
  | .rng lo hi =>
    let x : Int := if signed then toSigned width v else v
    lo ≤ x && x ≤ hi
  | .zeroOr lo hi => v = 0 || (lo ≤ v && v ≤ hi)
  | .oneOf l => l.contains v

/-- Whether a class is in the table of classes. -/
def classKnown (c : Nat) : Bool := 1 ≤ c && c ≤ 0x21

/-- The highest number of an object of a class (BAD_OBJECT beyond it; each chapter's object section). -/
def instOk (h : Hw) (d c i : Nat) : Bool :=
  match c with
  | 0x01 => i == d
  | 0x02 => i < 64
  | 0x03 => i < 2
  | 0x04 => i == 0
  | 0x05 => i < 16
  | 0x06 => i ≤ 24
  | 0x07 => i < 24
  | 0x08 => i ≤ 24
  | 0x09 => i < 2
  | 0x0A => i ≤ 4
  | 0x0B => 1 ≤ i && i < 256
  | 0x0C => i ≤ 16
  | 0x0D => i < 2
  | 0x0E => i ≤ 8
  | 0x0F => i ≤ 8
  | 0x10 => i < 4
  | 0x11 => i < 8192
  | 0x12 => i == 0
  | 0x13 => i ≤ h.n
  | 0x14 => i < 4
  | 0x15 => i < 2
  | 0x16 => i < 12
  | 0x17 => i < 2
  | 0x18 => i < 2
  | 0x1B => i < 64
  | 0x1D => i < 5
  | 0x21 => i < 2
  | c => c ≤ 0x20 && i == 0

/-- The bytes of a signed value of `n` bytes. -/
def leInt (n : Nat) (x : Int) : List Byte := leBytes n (ofSigned (8 * n) x)

end Sys2Proof.Machine
end

