-- ==== Sys2Proof/Machine/Flags.lean ====
section
/-!
DEFINITION. What the block raises: MSI-X messages (R50, R104, R428), events and their rate limits (R491 to R497), the
records of configuration commands (R78, R571) and of sources (R79).
-/
namespace Sys2Proof.Machine

/-! ### MSI-X -/

/-- An MSI-X message on a vector of an endpoint: sent when the link is up and MSI-X is enabled, otherwise held in the
pending-bit array (R428). -/
def Hw.msix (h : Hw) (ep vec : Nat) : Hw :=
  if h.rd 0 A.pcie_link ep = 1 ∧ h.rd 0 A.msix_en ep = 1 then h.emit (.msix ep vec)
  else { h with eps := h.eps.modify ep fun e => { e with msixPending := e.msixPending ||| 2 ^ vec } }

/-- The held messages of an endpoint sent, once it can (R428). -/
def Hw.msixFlush (h : Hw) (ep : Nat) : Hw :=
  if h.rd 0 A.pcie_link ep = 1 ∧ h.rd 0 A.msix_en ep = 1 then
    let p := (h.eps.getD ep Endpoint.reset).msixPending
    let h := { h with eps := h.eps.modify ep fun e => { e with msixPending := 0 } }
    ((List.range 64).filter fun v => p.testBit v).foldl (fun h v => h.emit (.msix ep v)) h
  else h

/-! ### Event codes -/

namespace Ev
/-- CONFIG_CHANGE: Opcode, object address, status, source index -/
abbrev configChange : Nat := 0x0020
/-- SOURCE_SEEN: Source index, source identity -/
abbrev sourceSeen : Nat := 0x0021
/-- MBX_TIMEOUT: Slot or remote, tag, opcode -/
abbrev mbxTimeout : Nat := 0x0030
/-- MBX_LATE_REPLY: Tag, late status -/
abbrev mbxLateReply : Nat := 0x0031
/-- MBX_BUSY_HIT: Slot -/
abbrev mbxBusyHit : Nat := 0x0032
/-- MBX_SUPERSEDED: Tag of the superseded command, tag of the superseding command -/
abbrev mbxSuperseded : Nat := 0x0033
/-- RMBX_BAD_DATAGRAM: Port, source index -/
abbrev rmbxBadDatagram : Nat := 0x0034
/-- STAGE_DISCARD: Object address, owner source index -/
abbrev stageDiscard : Nat := 0x0035
/-- TABLE_READ_ERR: Table, entry index -/
abbrev tableReadErr : Nat := 0x0036
/-- Q_UNDERRUN: Queue, consumer agent -/
abbrev qUnderrun : Nat := 0x0110
/-- Q_OVERFLOW: Queue, producer agent, occupied depth -/
abbrev qOverflow : Nat := 0x0111
/-- Q_PKT_OVERSIZE: Queue, producer agent, size in words -/
abbrev qPktOversize : Nat := 0x0112
/-- Q_PKT_BAD: Queue, producer agent, length word, words written -/
abbrev qPktBad : Nat := 0x0113
/-- Q_PTR_REJECT: Queue, register, value written, source index -/
abbrev qPtrReject : Nat := 0x0114
/-- ENC_QUAD_ERR: Channel, raw count -/
abbrev encQuadErr : Nat := 0x0210
/-- ENC_LOS: Channel, pin, set or clear -/
abbrev encLos : Nat := 0x0211
/-- ENC_INDEX_ERR: Channel, *e*, pair -/
abbrev encIndexErr : Nat := 0x0212
/-- ENC_INDEX_LOST: Channel -/
abbrev encIndexLost : Nat := 0x0213
/-- ENC_SLIP: Channel, source (index or ABS), *e*, pair -/
abbrev encSlip : Nat := 0x0214
/-- ABS_ERR: Channel, kind (IDLE, NO_ACK, CRC, SENSOR) -/
abbrev absErr : Nat := 0x0215
/-- ABS_TIMEOUT: Channel -/
abbrev absTimeout : Nat := 0x0216
/-- ABS_MISMATCH: Channel, *e* -/
abbrev absMismatch : Nat := 0x0217
/-- ENC_MAG: Channel, input, edge, pair, used for homing -/
abbrev encMag : Nat := 0x0218
/-- POS_HOMED: Channel, source, count set -/
abbrev posHomed : Nat := 0x0219
/-- STRETCH_LIMIT: *s*_raw -/
abbrev stretchLimit : Nat := 0x021A
/-- STRETCH_HOLD: Set or clear, cause -/
abbrev stretchHold : Nat := 0x021B
/-- CMP_FIRE: Unit, pair -/
abbrev cmpFire : Nat := 0x021C
/-- CMP_BEHIND: Unit, value, basis -/
abbrev cmpBehind : Nat := 0x021D
/-- CMP_MISSED: Unit, steps skipped -/
abbrev cmpMissed : Nat := 0x021E
/-- POS_SET: What, value -/
abbrev posSet : Nat := 0x021F
/-- LE_SPEED_HI: Set or clear, *v*, *a*, *v*_lim -/
abbrev leSpeedHi : Nat := 0x0310
/-- LE_DROP: Port, context, line, *δ* -/
abbrev leDrop : Nat := 0x0311
/-- LE_DATA_LATE: Port, context, line -/
abbrev leDataLate : Nat := 0x0312
/-- LE_REVERSAL: HWM, LPOS -/
abbrev leReversal : Nat := 0x0313
/-- LE_RESUME: HWM, LPOS -/
abbrev leResume : Nat := 0x0314
/-- LE_ESTOP: Accepted or released -/
abbrev leEstop : Nat := 0x0315
/-- LE_PRESS_RUN: Level -/
abbrev lePressRun : Nat := 0x0316
/-- LE_HEAD_PARKED: Level -/
abbrev leHeadParked : Nat := 0x0317
/-- LE_SEAM: Context, first line, last line -/
abbrev leSeam : Nat := 0x0318
/-- LE_HS_OUT: Pin, level -/
abbrev leHsOut : Nat := 0x0319
/-- HP_FAULT: Port, `hp_fault`, slot -/
abbrev hpFault : Nat := 0x0410
/-- HP_RECOVER: Port, first slot resumed -/
abbrev hpRecover : Nat := 0x0411
/-- HP_QUERY_ERR: Port, command, result -/
abbrev hpQueryErr : Nat := 0x0412
/-- HP_HEAD_CHANGED: Port, old and new identity, first 8 bytes of each -/
abbrev hpHeadChanged : Nat := 0x0413
/-- HP_SPIT_DONE: Ports, lines -/
abbrev hpSpitDone : Nat := 0x0414
/-- HP_SPIT_ABORT: Ports, lines completed, cause -/
abbrev hpSpitAbort : Nat := 0x0415
/-- PL_SQUASH: Ports, context, *L*_eff, slots squashed -/
abbrev plSquash : Nat := 0x0510
/-- PL_DEFER: Change kind, context, line requested, line used -/
abbrev plDefer : Nat := 0x0511
/-- TB_BUILT: Bank, `build_us`, `saturated`, result -/
abbrev tbBuilt : Nat := 0x0512
/-- TB_SWAP_DONE: Bank, context, line -/
abbrev tbSwapDone : Nat := 0x0513
/-- TB_SWAP_LATE: Bank, context, line missed, new line -/
abbrev tbSwapLate : Nat := 0x0514
/-- TB_RETIRED: Bank, context, line -/
abbrev tbRetired : Nat := 0x0515
/-- PL_STALE_RESHIFT: Port, slot, cause -/
abbrev plStaleReshift : Nat := 0x0516
/-- CODEC_BLOCK_FAIL: Context, port, first line, kind, engine, token offset -/
abbrev codecBlockFail : Nat := 0x0610
/-- CODEC_DISCARD: Context, port, first line, cause -/
abbrev codecDiscard : Nat := 0x0611
/-- CODEC_JOB_DONE: Tag, queue, blocks, bytes in, bytes out -/
abbrev codecJobDone : Nat := 0x0612
/-- CODEC_JOB_FAIL: Tag, queue, status, block index -/
abbrev codecJobFail : Nat := 0x0613
/-- CTX_STATE: Context, job id, old state, new state -/
abbrev ctxState : Nat := 0x0710
/-- CTX_FAILED: Context, cause, port, line -/
abbrev ctxFailed : Nat := 0x0711
/-- INGEST_REFUSED: Stream, context, port, first line -/
abbrev ingestRefused : Nat := 0x0712
/-- GRT_FRAG_ERR: Stream, seq -/
abbrev grtFragErr : Nat := 0x0713
/-- RUNWAY_REQ: Request, set or clear, *W*, *d*_stop -/
abbrev runwayReq : Nat := 0x0714
/-- STOP_START: Cause, LPOS -/
abbrev stopStart : Nat := 0x0715
/-- STOP_FIXED: Context, *S*_c -/
abbrev stopFixed : Nat := 0x0716
/-- STOP_STANDSTILL: LPOS, *T*_b, *r*_b -/
abbrev stopStandstill : Nat := 0x0717
/-- STOP_NO_BACKUP: Reason (disabled, limited, timeout), shortfall -/
abbrev stopNoBackup : Nat := 0x0718
/-- STOP_RELEASE: Runway -/
abbrev stopRelease : Nat := 0x0719
/-- CTX_RESUME: Context, die's stop line, slots skipped -/
abbrev ctxResume : Nat := 0x071A
/-- DMA_BAD: Stream, head, reason -/
abbrev dmaBad : Nat := 0x071B
/-- CAM_STATE: Camera, old state, new state -/
abbrev camState : Nat := 0x0810
/-- CAM_FRAME_ERR: Camera, frame, flags, lines -/
abbrev camFrameErr : Nat := 0x0811
/-- CAM_PSET_DONE: Camera, set ID, frame -/
abbrev camPsetDone : Nat := 0x0812
/-- CAM_PSET_LATE: Camera, set ID, frame planned, frame used -/
abbrev camPsetLate : Nat := 0x0813
/-- CAM_I2C_ERR: Camera, write index, result -/
abbrev camI2cErr : Nat := 0x0814
/-- CAM_GAP_SHORT: Camera, list time, gap -/
abbrev camGapShort : Nat := 0x0815
/-- CAM_NO_SLOT: Camera, frame -/
abbrev camNoSlot : Nat := 0x0816
/-- STATS_LOST: Stream, frame, kind -/
abbrev statsLost : Nat := 0x0817
/-- CHAIN_STATE: Chain, old state, new state -/
abbrev chainState : Nat := 0x0910
/-- CHAIN_RET_ERR: Chain, kind (late, length, CRC), bits received -/
abbrev chainRetErr : Nat := 0x0911
/-- CHAIN_COUNT: Chain, old *n*, new *n* -/
abbrev chainCount : Nat := 0x0912
/-- LAMP_OPEN: Entry, set or clear -/
abbrev lampOpen : Nat := 0x0913
/-- LAMP_SHORT: Entry, set or clear -/
abbrev lampShort : Nat := 0x0914
/-- LAMP_OT: Chain, driver, set or clear -/
abbrev lampOt : Nat := 0x0915
/-- MX_OPEN: Row, column, set or clear -/
abbrev mxOpen : Nat := 0x0916
/-- MX_OVERLAP: Row cut, row started -/
abbrev mxOverlap : Nat := 0x0917
/-- MX_NO_WINDOW: Row, column, age -/
abbrev mxNoWindow : Nat := 0x0918
/-- CH_STATE: Bar, old state, new state, cause -/
abbrev chState : Nat := 0x0A10
/-- CH_GAIN_UPDATE: Bar, page, *L*_eff, largest \|*e*_z\| and its zone -/
abbrev chGainUpdate : Nat := 0x0A11
/-- CH_GAIN_LIMIT: Bar, zone, gain -/
abbrev chGainLimit : Nat := 0x0A12
/-- CH_DE_ALARM: Patch, ΔE00 × 100 -/
abbrev chDeAlarm : Nat := 0x0A13
/-- CH_REG_UPDATE: Bar, group, *e*_y, *e*_x, *L*_eff -/
abbrev chRegUpdate : Nat := 0x0A14
/-- CH_XREG_LIMIT: Bar, group, shift -/
abbrev chXregLimit : Nat := 0x0A15
/-- CH_TRIM: Bar, σ, new `stretch_trim` -/
abbrev chTrim : Nat := 0x0A16
/-- CH_NOZZLE_DEAD: Bar, *J*, partner *J* or 0xFFFF_FFFF -/
abbrev chNozzleDead : Nat := 0x0A17
/-- CH_HEALTH_ALARM: Bar, port -/
abbrev chHealthAlarm : Nat := 0x0A18
/-- CH_UPDATE_SKIP: Bar, cause -/
abbrev chUpdateSkip : Nat := 0x0A19
/-- CH_BAND_RESYNC: Page expected, band seen -/
abbrev chBandResync : Nat := 0x0A1A
/-- CH_REF_CAPTURED: Bar, page -/
abbrev chRefCaptured : Nat := 0x0A1B
/-- TB_STEPPED: Time base, offset, TB1 -/
abbrev tbStepped : Nat := 0x0B10
/-- TB_STEP_DENIED: Time base, θ -/
abbrev tbStepDenied : Nat := 0x0B11
/-- TB_SERVO_STATE: Time base, old state, new state, θ -/
abbrev tbServoState : Nat := 0x0B12
/-- PTP_PORT_STATE: Port number, old state, new state -/
abbrev ptpPortState : Nat := 0x0B13
/-- PTP_MASTER_CHANGE: Time base, old and new grandmaster identity -/
abbrev ptpMasterChange : Nat := 0x0B14
/-- PO_LATE: Output, lateness -/
abbrev poLate : Nat := 0x0B15
/-- PO_SKIPPED: Output, pulses skipped -/
abbrev poSkipped : Nat := 0x0B16
/-- TB_CAPTURE: Input, TB0, TB1 -/
abbrev tbCapture : Nat := 0x0B17
/-- ITV_LINK_STATE: Die, old state, new state, generation -/
abbrev itvLinkState : Nat := 0x0C10
/-- ITV_TRAIN_FAIL: Die, generation, step -/
abbrev itvTrainFail : Nat := 0x0C11
/-- ITV_REPLAY_LIMIT: Link, link seq -/
abbrev itvReplayLimit : Nat := 0x0C12
/-- ITV_EYE_LOW: Die, lane, width, height -/
abbrev itvEyeLow : Nat := 0x0C13
/-- ITV_PM: Die, direction, new state -/
abbrev itvPm : Nat := 0x0C14
/-- ETH_LINK: Die, port, up or down, rate -/
abbrev ethLink : Nat := 0x0C15
/-- PCIE_LINK: Endpoint, generation, width; or down -/
abbrev pcieLink : Nat := 0x0C16
/-- PCIE_ERR: Endpoint, AER status -/
abbrev pcieErr : Nat := 0x0C17
/-- PCIE_FLR: Endpoint -/
abbrev pcieFlr : Nat := 0x0C18
/-- BAR_REJECT: Endpoint, BAR, address, read or write, source (**R36**) -/
abbrev barReject : Nat := 0x0C19
/-- SYS_ENUM_DONE: Generation, mode, packages, nodes -/
abbrev sysEnumDone : Nat := 0x0C1A
/-- SYS_ADDR_FULL: Nodes without an address -/
abbrev sysAddrFull : Nat := 0x0C1B
/-- SYS_LINK_STANDBY: Link, peer serial -/
abbrev sysLinkStandby : Nat := 0x0C1C
/-- SYS_TOPOLOGY: Link lost or hop limit, nodes affected -/
abbrev sysTopology : Nat := 0x0C1D
/-- TUN_PEER: Entry, up or down -/
abbrev tunPeer : Nat := 0x0C1E
/-- THERM_LEVEL: Channel, old state, new state, value -/
abbrev thermLevel : Nat := 0x0D10
/-- THERM_RISE: Channel, set or clear, rise -/
abbrev thermRise : Nat := 0x0D11
/-- THERM_BROKEN: Channel, case, set or clear -/
abbrev thermBroken : Nat := 0x0D12
/-- THERM_THROTTLE: Old level, new level, channel -/
abbrev thermThrottle : Nat := 0x0D13
/-- THERM_CRITICAL: Channel, value -/
abbrev thermCritical : Nat := 0x0D14
/-- THERM_TRIP: Sensor, TB1 -/
abbrev thermTrip : Nat := 0x0D15
/-- NV_TEMP_WINDOW: Forbidden or allowed, channel, value -/
abbrev nvTempWindow : Nat := 0x0D16
/-- CAL_DONE: Instance, quality, run count -/
abbrev calDone : Nat := 0x0D17
/-- CAL_FAIL: Instance, cause (CHECK, NO_GAP, ABORT), detail -/
abbrev calFail : Nat := 0x0D18
/-- CAL_STALE: Instance, cause, die mean -/
abbrev calStale : Nat := 0x0D19
/-- CAL_LOAD_ERR: Instance -/
abbrev calLoadErr : Nat := 0x0D1A
/-- AUX_LIMIT: Channel, low or high, value -/
abbrev auxLimit : Nat := 0x0D1B
/-- LEAD_FAULT: Die, cause -/
abbrev leadFault : Nat := 0x0E10
/-- LEAD_TAKEOVER: New lead die, checkpoint seq, `last_takeover_us` -/
abbrev leadTakeover : Nat := 0x0E11
/-- LEAD_REISSUE: `reissue_count`, `reissue_over` -/
abbrev leadReissue : Nat := 0x0E12
/-- LEAD_STANDBY: Die -/
abbrev leadStandby : Nat := 0x0E13
/-- LEAD_SAFE: Entered or left -/
abbrev leadSafe : Nat := 0x0E14
/-- KENNEL_WRITE_ERR: Slot, checkpoint seq -/
abbrev kennelWriteErr : Nat := 0x0E15
/-- KENNEL_LATE: `kennel_age_ms` -/
abbrev kennelLate : Nat := 0x0E16
/-- EVT_BACKLOG: Die, occurrences folded -/
abbrev evtBacklog : Nat := 0x0E17
/-- EVT_RESTART: `er_durable` found at boot -/
abbrev evtRestart : Nat := 0x0E18
/-- LEAD_COLD: Die -/
abbrev leadCold : Nat := 0x0E19
/-- EVT_CONT: Continuation data (**R491**) -/
abbrev evtCont : Nat := 0x0E1F
/-- PKG_BOOT: Serial, ordering code, reset cause, behaviour level, slot, version, `boot_ms` -/
abbrev pkgBoot : Nat := 0x0F10
/-- BOOT_ID: Die, lot, wafer, X, Y, step -/
abbrev bootId : Nat := 0x0F11
/-- PKG_DIE_MISSING: Die -/
abbrev pkgDieMissing : Nat := 0x0F12
/-- FW_TRIAL_FAIL: Slot, version -/
abbrev fwTrialFail : Nat := 0x0F13
/-- RAIL_FAULT: Rail, value -/
abbrev railFault : Nat := 0x0F14
/-- CLK_FAULT: Duration, ns -/
abbrev clkFault : Nat := 0x0F15
/-- PD_CHANGE: Die, domains on before, domains on after, cause -/
abbrev pdChange : Nat := 0x0F16
/-- PKG_MODE: Old mode, new mode -/
abbrev pkgMode : Nat := 0x0F17
/-- GH_SCRIPT_ERR: Frame index, opcode, status -/
abbrev ghScriptErr : Nat := 0x0F18
/-- GH_PRINT: Started or ended, X₀, pages -/
abbrev ghPrint : Nat := 0x0F19
end Ev

/-! ### Rate limits (R496, R497) -/

/-- The codes whose limits are fixed at unlimited: CONFIG_CHANGE, SOURCE_SEEN, THERM_CRITICAL, THERM_TRIP and every
code of 0x0Exx (R497). -/
def fixedCode (c : Nat) : Bool := c = 0x0020 || c = 0x0021 || c = Ev.thermCritical || c = Ev.thermTrip || c / 256 = 0x0E

/-- The default limit of a code: rate in Q12.4 tokens per second and burst (R497). -/
def defaultLimit (c : Nat) : Nat × Nat :=
  if fixedCode c then (0, 0)
  else if [Ev.encQuadErr, Ev.qPtrReject, Ev.leDrop, Ev.leDataLate, Ev.plSquash, Ev.plDefer, Ev.camFrameErr, Ev.statsLost,
    Ev.chainRetErr].contains c then (16 * 16, 64)
  else (2 * 16, 16)

/-- The limit in force of a code, for the whole package (R496). -/
def Hw.limit (h : Hw) (c : Nat) : Nat × Nat :=
  match h.limits.find? fun l => l.code = c with
  | some l => (l.rate, l.burst)
  | none => defaultLimit c

/-- One token in the units of a bucket's level: a rate of 1/16 token per second adds 125 units per AO cycle. -/
def tokenUnit : Nat := 64 * 10 ^ 9

/-- The AO cycle (32 MHz) of the model's clock (R496). -/
def Hw.aoCycle (h : Hw) : Nat := h.clk * 32 / 1000

/-- The bucket of a code on a die as it stands in this AO cycle: full when the code has not been used (R496). -/
def Hw.bucket (h : Hw) (d c : Nat) : Bucket :=
  let (rate, burst) := h.limit c
  match (h.die d).buckets.find? fun b => b.code = c with
  | some b => { b with level := min (burst * tokenUnit) (b.level + (h.aoCycle - b.stamp) * rate * 125), stamp := h.aoCycle }
  | none => { code := c, level := burst * tokenUnit, stamp := h.aoCycle, count := 0, latest := none }

/-- A bucket put back. -/
def Hw.setBucket (h : Hw) (d : Nat) (b : Bucket) : Hw :=
  h.onDie d fun D => { D with buckets := b :: D.buckets.filter fun x => x.code ≠ b.code }

/-! ### The front buffer (R492, R493) -/

/-- Places of the front buffer that an event takes: one, and one per continuation (R491). -/
def Evt.places (e : Evt) : Nat := 1 + (e.data.length - 5 + 4) / 5

/-- Places taken in a die's front buffer (`fb_depth`): entries not yet numbered, and on the lead die those numbered and
not yet programmed (R492, R493). -/
def Hw.frontUsed (h : Hw) (d : Nat) : Nat :=
  ((h.die d).front.map Evt.places).sum + if h.lead = some d then h.evtNext - 1 - h.evtDurable else 0

/-- An entry placed in die `d`'s front buffer. -/
def Hw.frontPut (h : Hw) (d : Nat) (e : Evt) : Hw :=
  let h := h.onDie d fun D => { D with front := D.front ++ [e] }
  let h := h.wr d A.fb_depth 0 (h.frontUsed d)
  if h.rd d A.fb_max 0 < h.frontUsed d then h.wr d A.fb_max 0 (h.frontUsed d) else h

/-- An occurrence folded into its code's suppressed count. -/
def Hw.fold (h : Hw) (d : Nat) (b : Bucket) (e : Evt) : Hw := h.setBucket d { b with count := b.count + 1, latest := some e }

/-- An event of code `code` on die `d` with its data (R491): the rate limit (R496), the kept places (R493), the front
buffer (R492). A code with a burst of 0 has no limit. -/
def Hw.eventNode (h : Hw) (d code node : Nat) (data : List Byte) : Hw :=
  let e : Evt := { code := code, tb0 := h.tb d 0, node := node, die := d, suppressed := 0, data := data.take 40 }
  let (_, burst) := h.limit code
  let b := h.bucket d code
  if burst ≠ 0 ∧ b.level < tokenUnit then (h.fold d b e).add d A.suppressed 0
  else if ¬ fixedCode code ∧ 8192 < h.frontUsed d + e.places + 512 then
    let h := (h.fold d b e).add d A.backlog_folds 0
    h.onDie d fun D => { D with folded := D.folded + 1 }
  else
    let h := h.setBucket d { b with level := if burst = 0 then b.level else b.level - tokenUnit, count := 0, latest := none }
    h.frontPut d { e with suppressed := satNat 0xFFFF b.count }

/-- The address of die `d`'s node: the package's own, then its dies (R431). -/
def Hw.dieNode (h : Hw) (d : Nat) : Nat := h.rd 0 A.node_base 0 + 1 + d

/-- An event that concerns die `d`. -/
def Hw.event (h : Hw) (d code : Nat) (data : List Byte) : Hw := h.eventNode d code (h.dieNode d) data

/-- An event that concerns the package, recorded by die `d`. -/
def Hw.eventPkg (h : Hw) (d code : Nat) (data : List Byte) : Hw := h.eventNode d code (h.rd 0 A.node_base 0) data

/-- Whether a command that would record CONFIG_CHANGE or SOURCE_SEEN finds fewer than 64 of the kept places free (R493). -/
def Hw.frontTight (h : Hw) (d : Nat) : Bool := 8192 < h.frontUsed d + 64

/-! ### Configuration records -/

/-- CONFIG_CHANGE (R78): opcode, object address, status, source index. -/
def Hw.configChange (h : Hw) (d op : Nat) (o : ObjRef) (st : Status) (src : Source) : Hw :=
  let h := h.event d Ev.configChange
    (leBytes 2 op ++ leBytes 1 o.cls ++ leBytes 2 o.inst ++ leBytes 2 o.attr ++ leBytes 1 st.code ++ leBytes 2 (h.srcIndex src))
  h.add d A.cfg_changes 0

/-- A source seen for the first time since boot gets an index and SOURCE_SEEN is recorded (R79). -/
def Hw.seeSource (h : Hw) (d : Nat) (s : Source) : Hw :=
  match s with
  | .script | .rildin => h
  | s =>
    if h.pkg.sources.contains s then h
    else
      let h := { h with pkg := { h.pkg with sources := h.pkg.sources ++ [s] } }
      let h := h.event d Ev.sourceSeen (leBytes 2 (h.srcIndex s) ++ s.ident)
      h.add d A.sources_seen 0

end Sys2Proof.Machine
end

