-- ==== Sys2Proof/Machine/Queues.lean ====
section
/-!
DEFINITION. Hardware queues (spec/03_hardware_queues.md): pointers and flags, push, commit, rewind and pop, the pointer
window, enable, disable and flush, and the commands and events of the chapter.
-/
namespace Sys2Proof.Machine

/-! ### The cached entry (R99) -/

/-- *k*: the queue holds 2^k words. -/
def Queue.k (q : Queue) : Nat := bits q.w1 4 0
/-- Size in words. -/
def Queue.size (q : Queue) : Nat := 2 ^ q.k
/-- Pointers count modulo 2^(k+1) (R85). -/
def Queue.ptrMod (q : Queue) : Nat := 2 ^ (q.k + 1)
def Queue.base (q : Queue) : Nat := bits q.w0 16 0
def Queue.consumer (q : Queue) : Nat := bits q.w1 31 24
def Queue.producer (q : Queue) : Nat := bits q.w1 23 16
/-- The full policy is STALL. -/
def Queue.stall (q : Queue) : Bool := bit q.w1 9
def Queue.packet (q : Queue) : Bool := bit q.w1 8
def Queue.watermark (q : Queue) : Nat := bits q.w2 15 0

/-- Committed depth (R85). -/
def Queue.depth (q : Queue) : Nat := (q.cmt + q.ptrMod - q.rd) % q.ptrMod
/-- Occupied depth (R85). -/
def Queue.occupied (q : Queue) : Nat := (q.wr + q.ptrMod - q.rd) % q.ptrMod
/-- Words of the packet under way (R88). -/
def Queue.uncommitted (q : Queue) : Nat := (q.wr + q.ptrMod - q.cmt) % q.ptrMod
/-- EMPTY (R86). -/
def Queue.empty (q : Queue) : Bool := q.cmt == q.rd
/-- FULL (R86). -/
def Queue.full (q : Queue) : Bool := q.occupied == q.size

/-- A queue is dual-clock when its producer or consumer is outside the core domain (R97): agents 0x03 and 0x09. -/
def agentOutsideCore (a : Nat) : Bool := a == 0x03 || a == 0x09
def Queue.dual (q : Queue) : Bool := agentOutsideCore q.producer || agentOutsideCore q.consumer

/-- `qp_state` (R103); 0 while no entry is cached, as at reset. -/
def Queue.stateBits (q : Queue) : Nat :=
  if q.cached then
    b2n q.enabled + 2 * b2n q.empty + 4 * b2n q.full + 8 * b2n q.packet + 16 * b2n q.dual + 32 * b2n (!q.held.isEmpty)
  else 0

/-- Queue `i` of die `d`. -/
def Hw.q (h : Hw) (d i : Nat) : Queue := (h.die d).queues.getD i {}

/-- Queue `i` of die `d` changed. -/
def Hw.onQ (h : Hw) (d i : Nat) (f : Queue → Queue) : Hw := h.onDie d fun D => { D with queues := D.queues.modify i f }

/-- The device address of the pool word that a pointer addresses (R84, R85). -/
def Queue.addr (q : Queue) (p : Nat) : Nat := 0x1000000000 + 8 * (q.base + p % q.size)

/-! ### Sticky flags (R106) -/

/-- A sticky flag set; the event is recorded when it goes from 0 to 1 (R106). -/
def Hw.qSticky (h : Hw) (d i b code : Nat) (data : List Byte) : Hw :=
  if bit (h.q d i).sticky b then h
  else (h.onQ d i fun q => { q with sticky := q.sticky ||| 2 ^ b }).event d code data

/-- UNDERRUN. -/
def Hw.qUnderrun (h : Hw) (d i : Nat) : Hw :=
  h.qSticky d i 0 Ev.qUnderrun (leBytes 1 i ++ leBytes 1 (h.q d i).consumer)

/-- OVERFLOW by an agent. -/
def Hw.qOverflow (h : Hw) (d i agent : Nat) : Hw :=
  h.qSticky d i 1 Ev.qOverflow (leBytes 1 i ++ leBytes 1 agent ++ leBytes 2 (h.q d i).occupied)

/-! ### Rewind, commit, watermark -/

/-- The depth message when the committed depth rises to the watermark (R104). -/
def Hw.qWatermark (h : Hw) (d i : Nat) : Hw :=
  let q := h.q d i
  if q.watermark = 0 then h
  else if q.depth < q.watermark then h.onQ d i fun q => { q with marked := false }
  else if q.marked then h
  else
    let h := h.onQ d i fun q => { q with marked := true }
    if bit q.w3 7 then h.msix (b2n (bit q.w3 6)) (bits q.w3 5 0) else h

/-- A rewind (R88): the packet under way vanishes and is counted. -/
def Hw.qRewind (h : Hw) (d i : Nat) : Hw :=
  let h := h.onQ d i fun q => { q with wr := q.cmt, holder := none, rewinds := satNat 0xFFFF (q.rewinds + 1) }
  h.add d A.q_rewinds i

/-- What a producer is told (R92). -/
inductive PushResult where
  | accepted | committed | oversize | rejected | badLength | waiting | discarded | refused
  deriving DecidableEq, Repr

/-- A commit (R88, R89): the whole packet becomes visible, or it is rewound when its length word does not match. -/
def Hw.qCommit (h : Hw) (d i agent : Nat) : PushResult × Hw :=
  let q := h.q d i
  if q.packet ∧ q.uncommitted ≠ q.pktLen then
    let h := h.qRewind d i
    let h := h.add d A.q_pkt_bad i
    (.badLength, h.qSticky d i 3 Ev.qPktBad
      (leBytes 1 i ++ leBytes 1 agent ++ leBytes 2 q.pktLen ++ leBytes 2 q.uncommitted))
  else (.committed, (h.onQ d i fun q => { q with cmt := q.wr, holder := none }).qWatermark d i)

/-- Queues that the ingest engine and Rildin both push (R568). -/
def twoAgents (i : Nat) : Bool := 16 ≤ i && i < 24

/-- A word written at `wr` (R88). -/
def Hw.qWrite (h : Hw) (d i agent word : Nat) : Hw :=
  let q := h.q d i
  let h := h.store d (q.addr q.wr) (leBytes 8 word)
  let h := h.onQ d i fun q =>
    let q := { q with pktLen := if q.uncommitted = 0 then word % 2 ^ 16 else q.pktLen, wr := (q.wr + 1) % q.ptrMod,
                      holder := if q.packet then some agent else none, pushes := (q.pushes + 1) % 2 ^ 32 }
    { q with maxDepth := max q.maxDepth q.occupied }
  let h := h.add d A.q_pushes i
  if h.rd d A.q_max_depth i < (h.q d i).occupied then h.wr d A.q_max_depth i (h.q d i).occupied else h

/-- A push that no held word stands before (R88 to R91): the oversize check, then FULL, then the write and, at the
packet's last word or in word mode, the commit. -/
def Hw.qPushNow (h : Hw) (d i agent word : Nat) (last : Bool) : PushResult × Hw :=
  let q := h.q d i
  if q.packet ∧ q.uncommitted = q.size then
    let h := h.qRewind d i
    let h := h.onQ d i fun q =>
      { q with oversize := satNat 0xFFFF (q.oversize + 1), discard := if last then q.discard else agent :: q.discard }
    let h := h.add d A.q_oversize i
    (.oversize, h.qSticky d i 2 Ev.qPktOversize (leBytes 1 i ++ leBytes 1 agent ++ leBytes 2 q.size))
  else if q.full then
    -- REJECT; the caller holds the word under STALL
    let h := h.qOverflow d i agent
    let h := h.onQ d i fun q => { q with overflows := satNat 0xFFFF (q.overflows + 1) }
    let h := h.add d A.q_overflows i
    if q.packet then
      let h := if q.uncommitted = 0 then h else h.qRewind d i
      (.rejected, h.onQ d i fun q => { q with discard := if last then q.discard else agent :: q.discard })
    else (.rejected, h)
  else
    let h := h.qWrite d i agent word
    if !q.packet || last then h.qCommit d i agent else (.accepted, h)

/-- Whether a push of an agent has to wait under STALL (R91, R568): words held before it, FULL without oversize, or
another agent's packet under way. -/
def Queue.mustWait (q : Queue) (i agent : Nat) : Bool :=
  q.stall && (q.held.any (fun w => w.agent == agent) || (q.full && !(q.packet && q.uncommitted == q.size)) ||
    (twoAgents i && q.holder.isSome && q.holder != some agent))

/-- A hardware push (R88, R90, R91, R102): refused while the queue is disabled, discarded after an oversize or rejected
word of the same packet, held under STALL. -/
def Hw.qPush (h : Hw) (d i agent word : Nat) (last : Bool) : PushResult × Hw :=
  let q := h.q d i
  if !q.enabled then (.refused, h)
  else if q.discard.contains agent then
    (.discarded, if last then h.onQ d i fun q => { q with discard := q.discard.erase agent } else h)
  else if q.mustWait i agent then (.waiting, h.onQ d i fun q => { q with held := q.held ++ [⟨agent, word, last⟩] })
  else h.qPushNow d i agent word last

/-- A packet pushed word by word, the last one marked; the result is that of the word that decided. -/
def Hw.qPushPacket (h : Hw) (d i agent : Nat) : List Nat → PushResult × Hw
  | [] => (.accepted, h)
  | [w] => h.qPush d i agent w true
  | w :: ws =>
    let (r, h) := h.qPush d i agent w false
    let (r', h) := h.qPushPacket d i agent ws
    (if r = .accepted then r' else if r' = .discarded then r else r', h)

/-- A rewind that a producer asks for (R88): nothing happens when no packet is under way. -/
def Hw.qProducerRewind (h : Hw) (d i agent : Nat) : Hw :=
  let h := h.onQ d i fun q => { q with held := q.held.filter fun w => w.agent ≠ agent, discard := q.discard.erase agent }
  let q := h.q d i
  if q.enabled ∧ q.packet ∧ q.uncommitted ≠ 0 ∧ q.holder = some agent then h.qRewind d i else h

/-- A pop (R93): the word at `rd`, or the last word popped and UNDERRUN when EMPTY. A disabled queue refuses (R102). -/
def Hw.qPop (h : Hw) (ms : List (List Host.Cell)) (d i : Nat) : Nat × Hw :=
  let q := h.q d i
  if !q.enabled then (q.last, h)
  else if q.empty then
    let h := h.qUnderrun d i
    let h := h.onQ d i fun q => { q with underruns := satNat 0xFFFF (q.underruns + 1) }
    (q.last, h.add d A.q_underruns i)
  else
    let w := h.num ms d (q.addr q.rd) 8
    let h := h.onQ d i fun q => { q with rd := (q.rd + 1) % q.ptrMod, last := w, pops := (q.pops + 1) % 2 ^ 32 }
    (w, (h.add d A.q_pops i).qWatermark d i)

/-- `n` pops (a packet read by a hardware consumer). -/
def Hw.qPopN (h : Hw) (ms : List (List Host.Cell)) (d i : Nat) : Nat → List Nat × Hw
  | 0 => ([], h)
  | n + 1 =>
    let (w, h) := h.qPop ms d i
    let (ws, h) := h.qPopN ms d i n
    (w :: ws, h)

/-- The first word of the next committed packet without a pop. -/
def Hw.qPeek (h : Hw) (ms : List (List Host.Cell)) (d i : Nat) : Nat :=
  let q := h.q d i
  h.num ms d (q.addr q.rd) 8

/-- A whole packet popped (hardware consumers check EMPTY before they pop, R93). -/
def Hw.qPopPacket (h : Hw) (ms : List (List Host.Cell)) (d i : Nat) : List Nat × Hw :=
  if (h.q d i).empty || !(h.q d i).enabled then ([], h) else h.qPopN ms d i (h.qPeek ms d i % 2 ^ 16)

/-- Held words pushed in their order as far as they can be (R91, STALL_PUSH_RETRY). -/
def Hw.qRetry (h : Hw) (d i : Nat) : Nat → Hw
  | 0 => h
  | n + 1 =>
    match (h.q d i).held with
    | [] => h
    | w :: ws =>
      let q := h.q d i
      let q' := { q with held := [] }
      if !q.enabled || q'.mustWait i w.agent then h
      else
        let h := h.onQ d i fun q => { q with held := ws }
        if q.discard.contains w.agent then
          (if w.last then h.onQ d i fun q => { q with discard := q.discard.erase w.agent } else h).qRetry d i n
        else (h.qPushNow d i w.agent w.word w.last).2.qRetry d i n

/-- STALL_PUSH_RETRY (R91): the held words enter once FULL is clear. -/
def execStallPushRetry (die q : Nat) (s : State) : Host.Outcome State Fault Refusal :=
  s.onUnit die q 64 fun _ h => h.qRetry die q (h.q die q).held.length

/-! ### The pointer window (R103, R105) -/

/-- The code of the queue-pointer register in Q_PTR_REJECT: its offset in the window. -/
def Hw.qReject (h : Hw) (d i reg v : Nat) (src : Source) : Hw :=
  let h := h.seeSource d src
  h.event d Ev.qPtrReject (leBytes 1 i ++ leBytes 1 reg ++ leBytes 2 v ++ leBytes 2 (h.srcIndex src))

/-- The chain of length words from `p` ends exactly at `stop` (R105): `fuel` bounds the packets. -/
def Hw.qChainOk (h : Hw) (ms : List (List Host.Cell)) (d : Nat) (q : Queue) (p stop : Nat) : Nat → Bool
  | 0 => p == stop
  | n + 1 =>
    if p = stop then true
    else
      let len := h.num ms d (q.addr p) 8 % 2 ^ 16
      let left := (stop + q.ptrMod - p) % q.ptrMod
      if len = 0 ∨ q.size < len ∨ left < len then false else h.qChainOk ms d q ((p + len) % q.ptrMod) stop n

/-- A host write of `qp_wr`: a push and commit of what the host wrote, after the checks of R105. -/
def qpWrWrite (die ep i v : Nat) (ms : List (List Host.Cell)) (h : Hw) : Hw :=
  let q := h.q die i
  let src : Source := .pcie ep 0
  let adv := (v + q.ptrMod - q.wr) % q.ptrMod
  if !q.enabled then h
  else if q.producer ≠ 0x01 ∨ q.ptrMod ≤ v then h.qReject die i 0x00 v src
  else if q.size - q.occupied < adv then
    let h := (h.qOverflow die i 0x01).onQ die i fun q => { q with overflows := satNat 0xFFFF (q.overflows + 1) }
    (h.add die A.q_overflows i).qReject die i 0x00 v src
  else if q.packet ∧ !h.qChainOk ms die q q.cmt v q.size then
    let h := h.qSticky die i 3 Ev.qPktBad
      (leBytes 1 i ++ leBytes 1 0x01 ++ leBytes 2 (h.num ms die (q.addr q.cmt) 8 % 2 ^ 16) ++ leBytes 2 adv)
    (h.add die A.q_pkt_bad i).qReject die i 0x00 v src
  else
    let h := h.onQ die i fun q =>
      let q := { q with wr := v, cmt := v, pushes := (q.pushes + adv) % 2 ^ 32 }
      { q with maxDepth := max q.maxDepth q.occupied }
    let h := h.add die A.q_pushes i adv
    let h := if h.rd die A.q_max_depth i < (h.q die i).occupied then h.wr die A.q_max_depth i (h.q die i).occupied else h
    h.qWatermark die i

/-- A host write of `qp_rd`: a pop of what the host read, after the checks of R105. -/
def qpRdWrite (die ep i v : Nat) (ms : List (List Host.Cell)) (h : Hw) : Hw :=
  let q := h.q die i
  let src : Source := .pcie ep 0
  let adv := (v + q.ptrMod - q.rd) % q.ptrMod
  if !q.enabled then h
  else if q.consumer ≠ 0x01 ∨ q.ptrMod ≤ v then h.qReject die i 0x04 v src
  else if q.depth < adv then
    let h := (h.qUnderrun die i).onQ die i fun q => { q with underruns := satNat 0xFFFF (q.underruns + 1) }
    (h.add die A.q_underruns i).qReject die i 0x04 v src
  else
    let lastWord := if adv = 0 then q.last else h.num ms die (q.addr (v + q.ptrMod - 1)) 8
    let h := h.onQ die i fun q => { q with rd := v, last := lastWord, pops := (q.pops + adv) % 2 ^ 32 }
    (h.add die A.q_pops i adv).qWatermark die i

/-- QP_WR_WRITE (R105). -/
def execQpWrWrite (die ep q value : Nat) (s : State) : Host.Outcome State Fault Refusal :=
  s.onUnit die q 64 (qpWrWrite die ep q value)

/-- QP_RD_WRITE (R105). -/
def execQpRdWrite (die ep q value : Nat) (s : State) : Host.Outcome State Fault Refusal :=
  s.onUnit die q 64 (qpRdWrite die ep q value)

/-! ### Write-back, enable, disable, flush (R100 to R102, R108) -/

/-- Words 8 to 15 of the entry (R99), written back from the cache (R100). -/
def Hw.qWriteback (h : Hw) (d i : Nat) : Hw :=
  let q := h.q d i
  h.store d (64 * i + 32) (wordBytes ([q.cmt * 2 ^ 16 + q.wr, q.maxDepth * 2 ^ 16 + q.rd, q.pushes, q.pops,
    q.overflows * 2 ^ 16 + q.underruns, q.oversize * 2 ^ 16 + q.rewinds] ++ words64 (h.tb d 1)))

/-- QUEUE_WRITEBACK (R100): the periodic write-back while the queue is enabled. -/
def execQueueWriteback (die q : Nat) (s : State) : Host.Outcome State Fault Refusal :=
  s.onUnit die q 64 fun _ h => if (h.q die q).enabled then h.qWriteback die q else h

/-- Producers, consumers, modes and policies that a queue accepts (R97): producers, consumers, modes (packet flag),
policies (STALL flag). -/
def queueUse (i : Nat) : List Nat × List Nat × List Bool × List Bool :=
  if i < 16 then ([0x03], [0x04], [true], [false])
  else if i < 24 then ([0x04, 0x02], [0x05], [true], [true])
  else if i < 32 then ([0x06], [0x02, 0x01], [true], [false])
  else if i < 40 then ([0x07], [0x02, 0x01], [true], [false])
  else if i < 48 then ([0x08], [0x01, 0x02], [true], [true])
  else if i < 56 then ([0x01, 0x02], [0x01, 0x02], [true, false], [false, true])
  else if i < 60 then ([0x09], [0x01, 0x02], [true], [false])
  else if i < 62 then ([0x0A], [0x01, 0x02], [true], [false])
  else if i = 62 then ([0x0B], [0x01], [false], [false])
  else ([0x02], [0x02], [true, false], [true, false])

/-- An entry that keeps R84, R97 and R99. -/
def queueEntryOk (i : Nat) (w : List Nat) : Bool :=
  let q : Queue := { w0 := w.getD 0 0, w1 := w.getD 1 0, w2 := w.getD 2 0, w3 := w.getD 3 0 }
  let (ps, cs, ms, fs) := queueUse i
  5 ≤ q.k && q.k ≤ 14 && q.base % q.size == 0 && q.base + q.size ≤ 0x20000 && ps.contains q.producer &&
    cs.contains q.consumer && ms.contains q.packet && fs.contains q.stall &&
    (!(48 ≤ i && i < 56 && q.stall) || q.producer == 0x02) &&
    q.watermark ≤ q.size && bits q.w0 31 17 == 0 && bits q.w1 15 10 == 0 && bits q.w1 7 5 == 0 &&
    bits q.w2 31 16 == 0 && bits q.w3 31 8 == 0 && (w.drop 4).all (· == 0)

/-- Two queues overlap in the pool. -/
def Queue.overlaps (a b : Queue) : Bool := a.base < b.base + b.size && b.base < a.base + a.size

/-- The 4-byte reply of QUEUE_CTRL (R108). -/
def queueReply (st : Status) (failed : Nat) : Reply := ⟨st, wordBytes [failed]⟩

/-- The entry as ENABLE uses it (R101): the valid cached copy, or words 0 to 7 of the memory copy. -/
def Hw.queueEntry (h : Hw) (ms : List (List Host.Cell)) (d i : Nat) : List Nat :=
  let q := h.q d i
  if q.cached then [q.w0, q.w1, q.w2, q.w3] else (List.range 8).map fun j => h.num ms d (64 * i + 4 * j) 4

/-- An entry as a queue record. -/
def queueOf (w : List Nat) : Queue :=
  { cached := true, w0 := w.getD 0 0, w1 := w.getD 1 0, w2 := w.getD 2 0, w3 := w.getD 3 0 }

/-- The first queue of the range that ENABLE fails on and why (R108): already enabled, an entry that breaks its rules,
overlap with an enabled queue or with a lower one of the range, an uncorrectable error in the read. -/
def Hw.enableFail (h : Hw) (ms : List (List Host.Cell)) (d : Nat) (bad : List Nat) :
    List Nat → List Nat → Option (Nat × Status)
  | _, [] => none
  | done, i :: is =>
    let q := h.q d i
    let w := h.queueEntry ms d i
    let e := queueOf w
    if i = 63 ∨ q.enabled then some (i, .state)
    else if !q.cached ∧ bad.contains i then some (i, .check)
    else if !queueEntryOk i w then some (i, .range)
    else if (List.range 64).any (fun j => (h.q d j).enabled && (h.q d j).overlaps e) ||
        done.any (fun j => (queueOf (h.queueEntry ms d j)).overlaps e) then some (i, .noSpace)
    else h.enableFail ms d bad (done ++ [i]) is

/-- One queue enabled (R102): pointers 0, flags clear, last word 0, counts from 0. -/
def Hw.enableOne (h : Hw) (ms : List (List Host.Cell)) (d i : Nat) : Hw :=
  let e := queueOf (h.queueEntry ms d i)
  (h.onQ d i fun _ => { e with enabled := true }).wr d A.q_enabled i 1

/-- One queue disabled (R102): the packet under way rewound, pushes and pops refused, words 8 to 15 written back. -/
def Hw.disableOne (h : Hw) (d i : Nat) : Hw :=
  let h := if (h.q d i).packet ∧ (h.q d i).uncommitted ≠ 0 then h.qRewind d i else h
  let h := h.onQ d i fun q => { q with held := [], discard := [], holder := none }
  let h := h.qWriteback d i
  (h.onQ d i fun q => { q with enabled := false }).wr d A.q_enabled i 0

/-- Whether first and count lie in range (R108). -/
def queueRange (first count : Nat) : Bool := first < 64 && 1 ≤ count && first + count ≤ 64

end Sys2Proof.Machine
end

