-- ==== Sys2Proof/Machine/Commands.lean ====
section
/-!
DEFINITION. What every mailbox command shares (spec/02_mailbox_interface.md): the opcodes with their marks, the die that
executes (R18), what refuses a command before its own work (R82, R476, R484, R493, R519, R523), its reply and its
configuration record (R78, R571), deferral records (R64 to R68).
-/
namespace Sys2Proof.Machine

/-- The marks of a command card: opcode, configuration command, in the BL1 set, addressed to the package, class of its
CONFIG_CHANGE entries (R571). -/
structure OpRow where
  op : Nat
  cfg : Bool
  bl1 : Bool
  pkg : Bool
  cls : Nat
  deriving DecidableEq, Repr

/-- The command cards of every chapter. -/
def opTable : List OpRow := [
  ⟨0x0001, false, true, false, 0⟩, ⟨0x0002, false, true, false, 0⟩, ⟨0x0004, true, true, false, 0⟩,
  ⟨0x0005, false, true, false, 0⟩, ⟨0x0010, false, true, false, 0⟩, ⟨0x0011, true, true, false, 0⟩,
  ⟨0x0012, false, true, false, 0⟩, ⟨0x0013, true, true, false, 0⟩, ⟨0x0F20, true, true, true, 0⟩,
  ⟨0x0101, true, true, false, 0x02⟩, ⟨0x0102, true, true, false, 0x02⟩, ⟨0x0103, false, true, false, 0⟩,
  ⟨0x0201, true, true, false, 0x04⟩, ⟨0x0202, false, true, false, 0⟩, ⟨0x0203, true, true, false, 0x05⟩,
  ⟨0x0301, true, true, true, 0x06⟩, ⟨0x0302, false, true, false, 0⟩, ⟨0x0401, true, true, false, 0x07⟩,
  ⟨0x0402, false, true, false, 0⟩, ⟨0x0403, true, true, false, 0x07⟩, ⟨0x0501, true, true, false, 0x09⟩,
  ⟨0x0502, true, true, false, 0x09⟩, ⟨0x0503, false, true, false, 0⟩] ++ [
  ⟨0x0601, false, false, false, 0⟩, ⟨0x0602, true, true, false, 0x0A⟩, ⟨0x0701, true, true, false, 0x0B⟩,
  ⟨0x0702, true, true, false, 0x0B⟩, ⟨0x0703, false, true, false, 0⟩, ⟨0x0801, true, false, false, 0x0D⟩,
  ⟨0x0802, true, false, false, 0x0D⟩, ⟨0x0803, false, false, false, 0⟩, ⟨0x0901, true, true, false, 0x11⟩,
  ⟨0x0902, true, true, false, 0x10⟩, ⟨0x0903, true, true, false, 0x10⟩, ⟨0x0904, true, false, false, 0x12⟩,
  ⟨0x0A01, true, false, true, 0x13⟩, ⟨0x0A02, false, false, false, 0⟩, ⟨0x0B01, false, true, false, 0⟩,
  ⟨0x0B02, true, false, true, 0x14⟩, ⟨0x0B03, true, true, false, 0x16⟩, ⟨0x0C01, true, true, false, 0x19⟩,
  ⟨0x0C02, false, false, false, 0⟩, ⟨0x0C03, true, true, true, 0x1A⟩, ⟨0x0C04, false, true, false, 0⟩,
  ⟨0x0D01, true, true, false, 0x1D⟩, ⟨0x0D02, false, true, false, 0⟩, ⟨0x0E01, true, false, true, 0x1E⟩,
  ⟨0x0E02, false, true, false, 0⟩, ⟨0x0E03, true, false, true, 0x1F⟩, ⟨0x0F01, true, true, false, 0x20⟩,
  ⟨0x0F02, true, true, true, 0⟩, ⟨0x0F03, false, true, true, 0⟩]

/-- The card of an opcode. -/
def opRow? (op : Nat) : Option OpRow := opTable.find? fun r => r.op = op

/-- Whether an opcode is defined at the behaviour level in force (R60, R82). -/
def Hw.opKnown (h : Hw) (op : Nat) : Bool :=
  match opRow? op with
  | some r => h.bl != 1 || r.bl1
  | none => false

/-- A configuration command (R78). -/
def opCfg (op : Nat) : Bool := ((opRow? op).map (·.cfg)).getD false

/-- The object address of a command other than OBJ_SET and OBJ_SET_BLOCK in its CONFIG_CHANGE entry (R571). -/
def opObj (op inst : Nat) : ObjRef := ⟨((opRow? op).map (·.cls)).getD 0, inst % 2 ^ 16, 0⟩

/-- The lowest unit that a mask names (R571); 0 when it names none. -/
def lowBit (m : Nat) : Nat := ((List.range 24).find? fun i => m.testBit i).getD 0

/-- Whether a command is addressed to the package by its card or by the object it names (R18). -/
def pkgAddressed (op : Nat) (o : ObjRef) : Bool :=
  ((opRow? op).map (·.pkg)).getD false ||
    ([0x0010, 0x0011, 0x0012, 0x0013].contains op &&
      (o.cls == 0x13 || o.cls == 0x1A || o.cls == 0x1E || (o.cls == 0x1F && o.attr == 7) ||
       (o.cls == 0x06 && o.inst == 0 && o.attr == 0x19) || (o.cls == 0x14 && o.attr != 1 && o.attr != 3)))

/-- Commands that GATEHOUSE serves although they configure (R523). -/
def gatehouseServes (op : Nat) (o : ObjRef) : Bool :=
  [0x0F02, 0x0F20, 0x0004, 0x0F01, 0x0301].contains op || ((op == 0x0011 || op == 0x0013) && o.cls == 0x21)

/-- What refuses a command on die `d` before its own work: the boot ROM's set (R519), the level's set (R82), a vacant
lead role (R484, R476), the front buffer's kept places (R493), GATEHOUSE (R523). -/
def Hw.turnedAway (h : Hw) (d : Nat) (src : Source) (op : Nat) (o : ObjRef) : Option Status :=
  if h.mode = .boot then (if [0x0001, 0x0002, 0x0F20].contains op then none else some .badOpcode)
  else if !h.opKnown op then some .badOpcode
  else if pkgAddressed op o ∧ h.takeover.isSome then some .busy
  else if pkgAddressed op o ∧ (h.mode = .safe ∨ h.lead = none) then some .state
  else if opCfg op ∧ h.frontTight d then some .busy
  else if h.mode = .gatehouse ∧ opCfg op ∧ !gatehouseServes op o ∧ src ≠ .script then some .state
  else none

/-- The die that executes a command (R18): the lead die for one addressed to the package. -/
def Hw.execDie (h : Hw) (q : Hdr) (op : Nat) (o : ObjRef) : Nat := if pkgAddressed op o then h.lead.getD q.die else q.die

/-- A reply kept until its completion becomes visible (R54), under the command's origin and tag. -/
def Hw.putReply (h : Hw) (o : Origin) (tag : Nat) (r : Reply) : Hw :=
  { h with replies := ((o, tag), r) :: h.replies.filter fun x => x.1 ≠ (o, tag) }

/-- The reply of a command whose completion has not become visible. -/
def Hw.reply? (h : Hw) (o : Origin) (tag : Nat) : Option Reply := (h.replies.find? fun x => x.1 = (o, tag)).map (·.2)

/-- The end of a command on its executing die: CONFIG_CHANGE for a configuration command that was not refused with BUSY
(R78), then the reply. -/
def Hw.finish (h : Hw) (d : Nat) (q : Hdr) (op : Nat) (o : ObjRef) (r : Reply) : Hw :=
  let h := if opCfg op ∧ r.status ≠ .busy ∧ r.status ≠ .badOpcode then h.configChange d op o r.status (srcOf q.origin) else h
  h.putReply q.origin q.tag r

/-- Whether a die executes commands: its Rildin runs, or in mode BOOT the boot ROM of die 0 or 1 serves (R519). -/
def Hw.serves (h : Hw) (d : Nat) : Bool := (h.die d).up || (h.mode == .boot && decide (d < 2) && bit (h.rd d A.pd_on 0) 1)

/-- A mailbox command: refused before its work, or executed on its die. A die whose Rildin does not run executes
nothing (R53 then completes the command with TIMEOUT). -/
def Hw.command (h : Hw) (q : Hdr) (op : Nat) (o : ObjRef) (body : Nat → Hw → Reply × Hw) : Hw :=
  let d := h.execDie q op o
  if !h.serves d then h
  else
    match h.turnedAway d (srcOf q.origin) op o with
    | some st => h.finish d q op o (.err st)
    | none =>
      let r := body d h
      r.2.finish d q op o r.1

/-- A command of a slot or datagram starts: it is no longer waiting to be carried out (R49, R58). -/
def Hw.started (h : Hw) (q : Hdr) : Hw :=
  { h with dies := h.dies.map fun D => { D with mbx := { D.mbx with work := D.mbx.work.map fun (w : Work) =>
      if w.origin = q.origin ∧ w.tag = q.tag then { w with cmd := none } else w } } }

/-- The lift of a mailbox command; a header naming a die outside the package has no such die. -/
def State.command (s : State) (q : Hdr) (op : Nat) (o : ObjRef) (body : List (List Host.Cell) → Nat → Hw → Reply × Hw) :
    Host.Outcome State Fault Refusal :=
  s.onDie q.die fun ms h => (h.started q).command q op o (body ms)

/-- A mailbox command whose completion comes with a later event (R572): no reply yet when the body gives none. -/
def State.commandHold (s : State) (q : Hdr) (op : Nat) (o : ObjRef)
    (body : List (List Host.Cell) → Nat → Hw → Option Reply × Hw) : Host.Outcome State Fault Refusal :=
  s.onDie q.die fun ms h =>
    let h := h.started q
    let d := h.execDie q op o
    if !h.serves d then h
    else
      match h.turnedAway d (srcOf q.origin) op o with
      | some st => h.finish d q op o (.err st)
      | none =>
        let r := body ms d h
        match r.1 with
        | some x => r.2.finish d q op o x
        | none => r.2

/-! ### Deferral records (R64 to R68) -/

/-- A deferred command remembered on die `d`, the last 256 of them (R68); package commands' records belong to the lead
state (R480). The answer is the record's name. -/
def Hw.defer (h : Hw) (d : Nat) (q : Hdr) (pkg : Bool) (e : Effect) : Nat × Hw :=
  let r : Deferred := { id := h.nextId, tag := q.tag, src := (srcOf q.origin), pkg := pkg, eff := e, fate := 0x0C }
  let h := { h with nextId := h.nextId + 1 }
  (r.id, if pkg then { h with pkg := { h.pkg with deferred := (r :: h.pkg.deferred).take 256 } }
    else h.onDie d fun D => { D with mbx := { D.mbx with deferred := (r :: D.mbx.deferred).take 256 } })

/-- Every deferral record changed by `f` where its name is `id`. -/
def Hw.onDeferred (h : Hw) (id : Nat) (f : Deferred → Deferred) : Hw :=
  let g := List.map fun (r : Deferred) => if r.id = id then f r else r
  { h with pkg := { h.pkg with deferred := g h.pkg.deferred },
           dies := h.dies.map fun D => { D with mbx := { D.mbx with deferred := g D.mbx.deferred } } }

/-- The fate of a deferred command settled: 0 took effect, or the status its long work ended with. -/
def Hw.settle (h : Hw) (id fate : Nat) : Hw := h.onDeferred id fun r => { r with fate := fate }

/-- The point of a deferred change moved (R65). -/
def Hw.movePoint (h : Hw) (id : Nat) (e : Effect) : Hw := h.onDeferred id fun r => { r with eff := e }

/-- The tag under which a deferred change was made. -/
def Hw.deferredTag (h : Hw) (id : Nat) : Nat :=
  (((h.pkg.deferred ++ h.dies.flatMap fun D => D.mbx.deferred).find? fun r => r.id = id).map (·.tag)).getD 0

/-- A DEFERRED reply (R64): the effect record and then the command's own words. -/
def Reply.deferred (e : Effect) (ws : List Nat := []) : Reply := ⟨.deferred, e.bytes ++ wordBytes ws⟩

/-- A command that ends as long work (effect kind 5, R56). -/
def Hw.deferWork (h : Hw) (d : Nat) (q : Hdr) (pkg : Bool) (ws : List Nat := []) : Nat × Reply × Hw :=
  let (id, h) := h.defer d q pkg { kind := 5 }
  (id, .deferred { kind := 5 } ws, h)

/-- An OK reply without payload and an effect. -/
def okWith (h : Hw) : Reply × Hw := (.ok, h)

/-- A refusal without an effect. -/
def refuse (st : Status) (h : Hw) : Reply × Hw := (.err st, h)

end Sys2Proof.Machine
end

