-- ==== Sys2Proof/Machine/Time.lean ====
section
/-!
DEFINITION. Time bases, servo, network time, pulse outputs and capture inputs (spec/13_time_bases.md).
-/
namespace Sys2Proof.Machine

/-- The lead die, or die 0 while there is none. -/
def Hw.leadDie (h : Hw) : Nat := h.lead.getD 0

/-! ### Steps and rates (R389 to R392) -/

/-- A rate of 10^-12 in units of 2^-49 (R389). -/
def rhoOfPpt (r : Int) : Int := r * 2 ^ 49 / 10 ^ 12

/-- A change of time base `tb` decided on the lead die and sent to every die, to apply at the lead die's TB1 plus 2 µs
(R391). -/
def Hw.tbSend (h : Hw) (tb : Nat) (step rate : Option Int) : Hw :=
  let c : TbChange := { tb := tb, apply := h.tb h.leadDie 1 + 2000, step := step, rate := rate }
  { h with dies := h.dies.map fun D => { D with tbChanges := D.tbChanges ++ [c] } }

/-- A rate of time base `tb` in 10^-12, held to `max_rate_ppb` (R389, R393), sent to every die. -/
def Hw.tbRate (h : Hw) (tb : Nat) (rate : Int) : Hw :=
  let m : Int := h.rd 0 A.max_rate_ppb tb * 1000
  h.tbSend tb none (some (clampInt (-m) m rate))

/-- Units of 2^-16 ns in one unit of 125 ps. -/
def ps125 : Nat := 8192

/-- The value of the time base of a pulse output in units of 125 ps. -/
def Hw.poNow (h : Hw) (d out : Nat) : Nat := h.tb16 d (h.rd d A.po_tb out) / ps125

/-- The pulse record of an output. -/
def Hw.pulse (h : Hw) (d out : Nat) : Pulse := (h.die d).pulses.getD out {}

/-- The pulse record of an output changed. -/
def Hw.onPulse (h : Hw) (d out : Nat) (f : Pulse → Pulse) : Hw :=
  h.onDie d fun D => { D with pulses := D.pulses.modify out f }

/-- The time of periodic pulse `k`, computed exactly and placed to the nearest 125 ps (R401). -/
def Pulse.time (p : Pulse) (k : Nat) : Nat := (p.start + k * p.period + ps125 / 2) / ps125

/-- The first pulse number, from `k` on, whose time is at or after `now`, the number of pulses limited by `count`. -/
def Pulse.firstFrom (p : Pulse) (now k : Nat) : Nat :=
  if now ≤ p.time k then k
  else if p.period = 0 then k + 1
  else
    let j := (now * ps125 - p.start) / p.period
    let j := max k (if now ≤ p.time j then j else j + 1)
    if p.count ≠ 0 ∧ p.count < j then p.count else j

/-- What a step of its time base does to a pulse output (R403): a ONCE time stepped over is given in the next cycle, late;
PERIODIC times stepped over are skipped; a backward step leaves the next pulse time. -/
def Hw.poStepped (h : Hw) (d out before after : Nat) : Hw :=
  let next := h.rd d A.po_next out
  if after ≤ before ∨ ¬(before < next ∧ next < after) then h
  else if h.rd d A.po_mode out = 1 ∧ h.rd d A.po_state out ≠ 0 then
    let h := h.wr d A.po_next out after
    (h.add d A.po_late out).event d Ev.poLate (leBytes 1 out ++ leBytes 8 ((after - next) / 8))
  else if h.rd d A.po_mode out = 2 ∧ h.rd d A.po_state out ≠ 0 then
    let p := h.pulse d out
    let j := p.firstFrom after p.k
    let h := (h.add d A.po_skipped out (j - p.k)).event d Ev.poSkipped (leBytes 1 out ++ leBytes 4 (j - p.k))
    let h := h.onPulse d out fun p => { p with k := j }
    if p.count ≠ 0 ∧ p.count ≤ j then h.wr d A.po_state out 0 else h.wr d A.po_next out (p.time j)
  else h

/-- A change applied on die `d` (R391, R392): the lead die clears `step_arm`, counts the step and records it. -/
def Hw.tbApply (h : Hw) (d : Nat) (c : TbChange) : Hw :=
  let h := match c.step with
    | none => h
    | some off =>
      let before := h.tb16 d c.tb / ps125
      let h := h.onDie d fun D =>
        { D with tbs := D.tbs.modify c.tb fun t => { t with time := ((t.time : Int) + off * 2 ^ 48).toNat } }
      let after := h.tb16 d c.tb / ps125
      let h := ((List.range 8).filter fun o => h.rd d A.po_tb o = c.tb ∧ c.tb = 0).foldl
        (fun h o => h.poStepped d o before after) h
      if d = h.leadDie then
        let h := (h.wr d A.step_arm c.tb 0).add d A.steps c.tb
        h.eventPkg d Ev.tbStepped (leBytes 1 c.tb ++ leInt 8 off ++ leBytes 8 (h.tb d 1))
      else h
  match c.rate with
  | none => h
  | some r =>
    let h := h.onDie d fun D => { D with tbs := D.tbs.modify c.tb fun t => { t with rho := rhoOfPpt r } }
    h.wrS d A.rate_ppt c.tb 64 r

/-- TB_CHANGE_APPLY (R391): the die's TB1 reaches the apply time of its oldest change. -/
def execTbChangeApply (die : Nat) (s : State) : Host.Outcome State Fault Refusal :=
  s.onDie die fun _ h =>
    match (h.die die).tbChanges with
    | [] => h
    | c :: cs =>
      let h := h.until die (c.apply * 2 ^ 16)
      (h.onDie die fun D => { D with tbChanges := cs }).tbApply die c

/-- TIME_ALIGN (R390): a die's time base is drawn to the lead die's by a rate of at most 1 ppm about the lead die's own;
the lead die's TB1 has rate 0 at all times. -/
def execTimeAlign (die tb : Nat) (s : State) : Host.Outcome State Fault Refusal :=
  s.onUnit die tb 4 fun _ h =>
    if die = h.leadDie then h
    else
      let l := (h.die h.leadDie).tbs.getD tb {}
      h.onDie die fun D =>
        { D with tbs := D.tbs.modify tb fun t =>
            { t with rho := l.rho + clampInt (-(2 ^ 49 / 10 ^ 6)) (2 ^ 49 / 10 ^ 6) (-(((t.time : Int) - l.time) * 2 / 10 ^ 6)) } }

/-! ### The servo (R393 to R396) -/

/-- The code of a servo state (`servo_state`). -/
def ServoState.code : ServoState → Nat
  | .free => 0 | .acquire => 1 | .slew => 2 | .track => 3 | .locked => 4 | .holdover => 5

/-- The servo of a time base. -/
def Hw.servo (h : Hw) (tb : Nat) : Servo := h.pkg.servos.getD tb {}

/-- The servo of a time base changed. -/
def Hw.onServo (h : Hw) (tb : Nat) (f : Servo → Servo) : Hw :=
  { h with pkg := { h.pkg with servos := h.pkg.servos.modify tb f } }

/-- A change of servo state, recorded (R396). -/
def Hw.servoTo (h : Hw) (tb : Nat) (new : ServoState) (thetaNs : Int) : Hw :=
  let old := (h.servo tb).st
  if old = new then h
  else
    let h := (h.onServo tb fun s => { s with st := new }).wr 0 A.servo_state tb new.code
    h.eventPkg h.leadDie Ev.tbServoState (leBytes 1 tb ++ leBytes 1 old.code ++ leBytes 1 new.code ++ leInt 4 thetaNs)

/-- `k` × θ ÷ Δt in 10^-12, for a Q4.12 gain, θ in ps and Δt in ns (R393). -/
def piTerm (k : Nat) (thetaPs dtNs : Int) : Int := k * thetaPs * 10 ^ 9 / (4096 * dtNs)

/-- HOLDOVER entered (R394, R396): the rate returns to the integral term, frozen. -/
def Hw.enterHoldover (h : Hw) (tb : Nat) : Hw :=
  let h := (h.servoTo tb .holdover 0).wr 0 A.holdover_tb1 tb (h.tb h.leadDie 1)
  (h.onServo tb fun s => { s with lockRun := 0, outRun := 0 }).tbRate tb (h.servo tb).i

/-- A first sample (R395). -/
def Hw.firstSample (h : Hw) (tb : Nat) (theta : Int) (t : Nat) : Hw :=
  let ns := theta / 1000
  let big := (h.rd 0 A.step_thresh_ns tb * 1000 : Int) < theta.natAbs
  let good := (theta.natAbs : Int) ≤ h.rd 0 A.lock_ns tb * 1000
  let i := (h.servo tb).i
  let h := h.onServo tb fun s => { s with lastAt := some t, outRun := 0, lockRun := b2n good }
  let h := h.wrS 0 A.offset_ns tb 32 ns
  if big then
    if h.rd 0 A.step_arm tb = 1 then
      ((h.tbSend tb (some (-ns)) none).tbRate tb i).servoTo tb .track ns
    else
      let h := h.eventPkg h.leadDie Ev.tbStepDenied (leBytes 1 tb ++ leInt 4 ns)
      let sl : Int := h.rd 0 A.slew_max_ppb tb * 1000
      (h.servoTo tb .slew ns).tbRate tb (if 0 < theta then i - sl else i + sl)
  else
    let h := (h.servoTo tb .track ns).tbRate tb i
    if good ∧ h.rd 0 A.lock_samples tb ≤ 1 then h.servoTo tb .locked ns else h

/-- A valid sample in TRACK or LOCKED (R393, R394). -/
def Hw.piSample (h : Hw) (tb : Nat) (theta : Int) (t : Nat) : Hw :=
  let s := h.servo tb
  let ns := theta / 1000
  let dt : Int := clampInt (10 ^ 7) (2 * 10 ^ 9) ((((t : Int) - (s.lastAt.getD t))) / 2 ^ 16)
  let i := s.i - piTerm (h.rd 0 A.ki tb) theta dt
  let rate := i - piTerm (h.rd 0 A.kp tb) theta dt
  let good := (theta.natAbs : Int) ≤ h.rd 0 A.lock_ns tb * 1000
  let run := if good then s.lockRun + 1 else 0
  let h := h.onServo tb fun s => { s with i := i, rate := rate, lastAt := some t, outRun := 0, lockRun := run }
  let h := ((h.wrS 0 A.offset_ns tb 32 ns).wrS 0 A.freq_ppt tb 64 i).tbRate tb rate
  if s.st = .track ∧ h.rd 0 A.lock_samples tb ≤ run then h.servoTo tb .locked ns
  else if s.st = .locked ∧ (h.rd 0 A.unlock_ns tb * 1000 : Int) < theta.natAbs then
    (h.onServo tb fun s => { s with lockRun := 0 }).servoTo tb .track ns
  else h

/-- An outlier (R393): the eighth in a row makes the next sample a first sample. -/
def Hw.outlier (h : Hw) (tb : Nat) (ns : Int) : Hw :=
  let run := (h.servo tb).outRun + 1
  let h := h.add 0 A.outliers tb
  if run = 8 then ((h.onServo tb fun s => { s with outRun := 0, lockRun := 0 }).servoTo tb .acquire ns).tbRate tb (h.servo tb).i
  else h.onServo tb fun s => { s with outRun := run }

/-- An offset sample θ (in ps) at a TB1 time (R393 to R396): none is used while the lead role is vacant, in FREE, in SLEW,
or from a master that is no longer the source's. -/
def Hw.servoSample (h : Hw) (tb gm : Nat) (theta : Int) (t : Nat) : Hw :=
  let s := h.servo tb
  let h := if h.rd 0 A.tb_source tb = 3 then
      h.onDie h.leadDie fun D => { D with capFresh := D.capFresh.set (h.rd 0 A.tb_cap tb) false } else h
  if h.lead = none ∨ tb = 1 ∨ (h.rd 0 A.tb_source tb = 1 ∧ gm ≠ s.gm) then h
  else
    match s.st with
    | .free | .slew => h
    | .acquire | .holdover => h.firstSample tb theta t
    | .track | .locked =>
      if (h.rd 0 A.outlier_ns tb * 1000 : Int) < theta.natAbs then h.outlier tb (theta / 1000) else h.piSample tb theta t

/-- SERVO_SAMPLE (R393). -/
def execServoSample (tb gm : Nat) (thetaPs : Int) (t : Nat) (s : State) : Host.Outcome State Fault Refusal :=
  s.onUnit s.hw.leadDie tb 4 fun _ h => (h.until h.leadDie t).servoSample tb gm thetaPs t

/-- SLEW_END (R394, R395): the rate returns to the integral term and the servo waits for the next sample. -/
def execSlewEnd (tb : Nat) (s : State) : Host.Outcome State Fault Refusal :=
  s.onUnit s.hw.leadDie tb 4 fun _ h =>
    if (h.servo tb).st = .slew ∧ h.lead.isSome then (h.tbRate tb (h.servo tb).i).servoTo tb .acquire 0 else h

/-- HOLDOVER_TIMEOUT (R396): no valid sample for `holdover_ms` in TRACK or LOCKED. -/
def execHoldoverTimeout (tb : Nat) (s : State) : Host.Outcome State Fault Refusal :=
  s.onUnit s.hw.leadDie tb 4 fun _ h =>
    if (h.servo tb).st = .track ∨ (h.servo tb).st = .locked then h.enterHoldover tb else h

/-- `tb_source` written (R394): 0 frees the servo, which keeps `i` as its rate; another source starts acquisition. -/
def Hw.setTbSource (h : Hw) (tb v : Nat) : Hw :=
  let old := h.rd 0 A.tb_source tb
  let h := (h.wr 0 A.tb_source tb v).onServo tb fun s => { s with outRun := 0, lockRun := 0 }
  if v = 0 then (h.servoTo tb .free 0).tbRate tb (h.servo tb).i
  else if v ≠ old then (h.servoTo tb .acquire 0).tbRate tb (h.servo tb).i else h

/-! ### Network time (R397 to R399) -/

/-- The PTP record of a port. -/
def Hw.ptpPort (h : Hw) (d p : Nat) : PtpPort := (h.die d).ptp.getD p {}

/-- The PTP record of a port changed. -/
def Hw.onPtp (h : Hw) (d p : Nat) (f : PtpPort → PtpPort) : Hw := h.onDie d fun D => { D with ptp := D.ptp.modify p f }

/-- A port's state set, recorded when it changes (portState codes of IEEE 1588). -/
def Hw.ptpTo (h : Hw) (d p new : Nat) : Hw :=
  let old := h.rd d A.port_state p
  if old = new then h
  else (h.wr d A.port_state p new).event d Ev.ptpPortState (leBytes 2 (2 * d + p + 1) ++ leBytes 1 old ++ leBytes 1 new)

/-- Data sets compared in their order (the default data-set comparison of the BMCA, R397). -/
def rankLt : List Nat → List Nat → Bool
  | [], [] => false
  | [], _ :: _ => true
  | _ :: _, [] => false
  | a :: as, b :: bs => if a < b then true else if b < a then false else rankLt as bs

/-- The package's own data set on a time base (R398): clockClass 248, clockAccuracy 0xFE. -/
def Hw.ownRank (h : Hw) (tb : Nat) : List Nat :=
  [h.rd 0 A.priority1 tb, 248, 0xFE, Config.clockVariance, h.rd 0 A.priority2 tb, Config.clockIdentity Config.serial]

/-- The ports of the package that serve a time base (R397). -/
def Hw.ptpPorts (h : Hw) (tb : Nat) : List (Nat × Nat) :=
  ((List.range h.n).flatMap fun d => [(d, 0), (d, 1)]).filter fun x =>
    h.rd x.1 A.ptp_enable x.2 = 1 && h.rd x.1 A.ptp_tb x.2 == tb

/-- A new grandmaster of a time base (R394, R396): recorded, and the servo that follows PTP enters HOLDOVER at once; the first
grandmaster seen is no change to a servo that waits for its first sample. -/
def Hw.ptpMaster (h : Hw) (tb gm utc : Nat) : Hw :=
  let old := h.rd 0 A.gm_id tb
  let h := h.wr 0 A.utc_offset tb utc
  if old = gm then h.onServo tb fun s => { s with gm := gm }
  else
    let h := (h.wr 0 A.gm_id tb gm).onServo tb fun s => { s with gm := gm }
    let h := h.eventPkg h.leadDie Ev.ptpMasterChange (leBytes 1 tb ++ leBytes 8 old ++ leBytes 8 gm)
    let st := (h.servo tb).st
    if h.rd 0 A.tb_source tb = 1 ∧ (st = .track ∨ st = .locked ∨ (old ≠ 0 ∧ (st = .acquire ∨ st = .slew))) then h.enterHoldover tb
    else h

/-- The BMCA over the ports of a time base (R397): the port with the best announced data set follows it, unless it is
`master_only`; the others serve or stay passive; a clock that is `slave_only` never serves. -/
def Hw.bmca (h : Hw) (tb : Nat) : Hw :=
  let ports := h.ptpPorts tb
  let own := h.ownRank tb
  let slaveOnly := h.rd 0 A.slave_only tb = 1
  let cand := ports.filter fun x => (h.ptpPort x.1 x.2).heard && h.rd x.1 A.master_only x.2 = 0
  let best := cand.foldl (fun (b : Option (Nat × Nat)) x =>
    match b with
    | none => some x
    | some y => if rankLt (h.ptpPort x.1 x.2).rank (h.ptpPort y.1 y.2).rank then some x else b) none
  let best := match best with
    | some x => if slaveOnly || rankLt (h.ptpPort x.1 x.2).rank own then some x else none
    | none => none
  let h := ports.foldl (fun h x =>
    let st := h.rd x.1 A.port_state x.2
    let new := if best = some x then (if st = 9 then 9 else 8)
      else if slaveOnly then 4
      else if (h.ptpPort x.1 x.2).heard && best.isSome && rankLt (h.ptpPort x.1 x.2).rank own then 7
      else 6
    h.ptpTo x.1 x.2 new) h
  match best with
  | some x => h.ptpMaster tb (h.ptpPort x.1 x.2).gm (h.ptpPort x.1 x.2).utc
  | none => if slaveOnly then h else h.ptpMaster tb (Config.clockIdentity Config.serial) 0

/-- Corrected ingress and egress times (R399), in ps. -/
def Hw.rxTime (h : Hw) (d p : Nat) (t : Int) : Int := t - h.rdS d A.rx_lat_ps p 32
def Hw.txTime (h : Hw) (d p : Nat) (t : Int) : Int := t + h.rdS d A.tx_lat_ps p 32

/-- The offset of a port from its master: ingress less origin less mean path delay less delayAsymmetry (R399). -/
def Hw.ptpOffset (h : Hw) (d p : Nat) (rx origin : Int) : Hw :=
  let off := rx - origin - h.rd d A.mean_delay_ps p - h.rdS d A.asym_ps p 32
  let h := h.wrS d A.port_offset_ns p 32 (off / 1000)
  if h.rd d A.port_state p = 8 then h.ptpTo d p 9 else h

/-- The mean path delay of an exchange: half of what the two directions take together. -/
def Hw.ptpDelay (h : Hw) (d p : Nat) (x : Int) : Hw := h.wr d A.mean_delay_ps p ((x / 2).toNat % 2 ^ 32)

/-- A PTP message taken by a port in its role (R397, R399); a message that does not belong to the exchange under way is
counted as bad or not in time. -/
def Hw.ptpMessage (h : Hw) (d p : Nat) (m : PtpMsg) : Hw :=
  let P := h.ptpPort d p
  let st := h.rd d A.port_state p
  if h.rd d A.ptp_enable p = 0 then h
  else
    match m with
    | .other => h.add d A.ptp_bad p
    | .announce port gm rank utc =>
      let h := h.add d A.ptp_rx p
      if P.heard ∧ P.parent ≠ port ∧ !rankLt rank P.rank then h
      else
        let h := h.onPtp d p fun P => { P with heard := true, parent := port, gm := gm, rank := rank, utc := utc }
        h.bmca (h.rd d A.ptp_tb p)
    | .sync port seq rx origin =>
      let h := h.add d A.ptp_rx p
      if (st = 8 ∨ st = 9) ∧ port = P.parent then
        let h := if P.syncRx.isSome then h.add d A.ts_missing p else h
        match origin with
        | some o =>
          (h.ptpOffset d p (h.rxTime d p rx) o).onPtp d p fun P =>
            { P with syncRx := none, syncSeq := seq, syncTx := some (h.rxTime d p rx - o) }
        | none => h.onPtp d p fun P => { P with syncRx := some (h.rxTime d p rx), syncSeq := seq }
      else h
    | .followUp port seq o =>
      let h := h.add d A.ptp_rx p
      match P.syncRx with
      | some rx =>
        if port = P.parent ∧ seq = P.syncSeq then
          (h.ptpOffset d p rx o).onPtp d p fun P => { P with syncRx := none, syncTx := some (rx - o) }
        else h
      | none => h
    | .requestSent seq tx => h.onPtp d p fun P => { P with reqSeq := seq, t3 := some (h.txTime d p tx) }
    | .delayReq _ _ _ =>
      let h := h.add d A.ptp_rx p
      if st = 6 then (h.emit (.ptp d p 9)).add d A.ptp_tx p else h
    | .delayResp port seq rx =>
      let h := h.add d A.ptp_rx p
      match P.t3, P.syncTx with
      | some t3, some fwd =>
        if port = P.parent ∧ seq = P.reqSeq ∧ h.rd d A.delay_mech p = 0 then
          (h.ptpDelay d p (fwd + (rx - t3))).onPtp d p fun P => { P with t3 := none }
        else h
      | _, _ => h
    | .pdelayReq _ _ _ =>
      let h := h.add d A.ptp_rx p
      if h.rd d A.delay_mech p = 1 then (h.emit (.ptp d p 3)).add d A.ptp_tx p else h
    | .pdelayResp _ seq t2 t3 t4 =>
      let h := h.add d A.ptp_rx p
      match P.t3 with
      | some t1 =>
        if seq = P.reqSeq ∧ h.rd d A.delay_mech p = 1 then
          (h.ptpDelay d p ((h.rxTime d p t4 - t1) - (t3 - t2))).onPtp d p fun P => { P with t3 := none }
        else h
      | none => h

/-- PTP_MESSAGE (R397). -/
def execPtpMessage (die port : Nat) (msg : PtpMsg) (s : State) : Host.Outcome State Fault Refusal :=
  s.onUnit die port 2 fun _ h => h.ptpMessage die port msg

/-- ANNOUNCE_TIMEOUT (R397): the announced master is forgotten and the BMCA runs again. -/
def execAnnounceTimeout (die port : Nat) (s : State) : Host.Outcome State Fault Refusal :=
  s.onUnit die port 2 fun _ h =>
    if h.rd die A.ptp_enable port = 0 then h
    else (h.onPtp die port fun P => { P with heard := false, rank := [], syncRx := none, syncTx := none, t3 := none }).bmca
      (h.rd die A.ptp_tb port)

/-- PTP_MESSAGE_INTERVAL (R397): an interval of the port elapses. Kind 0 Sync, 1 Announce (a master sends), 2 Delay_Req
or Pdelay_Req (a slave, and any port with peer delay, asks; an unanswered request counts as missing). -/
def execPtpMessageInterval (die port kind : Nat) (s : State) : Host.Outcome State Fault Refusal :=
  s.onUnit die port 2 fun _ h =>
    let st := h.rd die A.port_state port
    let send (h : Hw) (type : Nat) : Hw := (h.emit (.ptp die port type)).add die A.ptp_tx port
    if h.rd die A.ptp_enable port = 0 then h
    else if kind = 0 then
      if st = 6 then
        let h := send h 0
        if h.rd die A.one_step port = 0 then send h 8 else h
      else h
    else if kind = 1 then (if st = 6 then send h 11 else h)
    else if h.rd die A.delay_mech port = 1 ∨ st = 8 ∨ st = 9 then
      let h := if (h.ptpPort die port).t3.isSome then h.add die A.ts_missing port else h
      send (h.onPtp die port fun P => { P with t3 := none }) (if h.rd die A.delay_mech port = 1 then 2 else 1)
    else h

/-- `ptp_enable` written: an enabled port listens, a disabled one is DISABLED and its master forgotten. -/
def Hw.setPtpEnable (h : Hw) (d p v : Nat) : Hw :=
  let h := (h.wr d A.ptp_enable p v).onPtp d p fun _ => {}
  (h.ptpTo d p (if v = 1 then 4 else 3)).bmca (h.rd d A.ptp_tb p)

/-! ### Pulse outputs (R400 to R403) -/

/-- PO_ARM's body (R402): the reply's LATE and FIRED. -/
def poArm (d mode out start period count : Nat) (h : Hw) : Reply × Hw :=
  let now := h.poNow d out
  let width := h.rd d A.po_width_ns out
  if 3 < mode ∨ 8 ≤ out ∨ (mode = 2 ∧ period < (width + 10) * 2 ^ 16) then refuse .range h
  else if (h.rd d A.po_mode out = 1 ∨ h.rd d A.po_mode out = 2) ∧ h.rd d A.po_state out ≠ 0 ∧
      h.rd d A.po_next out ≤ now ∧ now < h.rd d A.po_next out + 16 then (.words [1], h)
  else
    let timed := mode = 1 ∨ mode = 2
    let late := timed ∧ start < now
    let h := h.onPulse d out fun p =>
      { p with start := start * ps125, period := period, count := if mode = 2 then count else 1, k := 0, later := [] }
    let h := (h.wr d A.po_mode out mode).wr d A.po_state out (if mode = 0 then 0 else if mode = 2 then 2 else 1)
    let h := h.wr d A.po_next out (if timed then (if late then now + 16 else start) else 0)
    if late then
      let h := (h.add d A.po_late out).event d Ev.poLate (leBytes 1 out ++ leBytes 8 ((now - start) / 8))
      (.words [2], h)
    else (.words [0], h)

/-- PO_ARM (R400, R402). -/
def execPoArm (h : Hdr) (mode out start period count : Nat) (s : State) : Host.Outcome State Fault Refusal :=
  s.command h 0x0B03 (opObj 0x0B03 out) fun _ d hw => poArm d mode out start period count hw

/-- A trigger of a TRIGGERED output from a compare unit (R136, R400, R401): a trigger while the previous pulse is still
high is not given; one during the delay of an earlier trigger gives its own pulse after that one's. -/
def Hw.poTrigger (h : Hw) (d out : Nat) : Hw :=
  let now := h.poNow d out
  if h.rd d A.po_mode out ≠ 3 then h
  else if now < (h.pulse d out).highUntil then h.add d A.po_skipped out
  else if h.rd d A.po_state out = 2 then
    h.onPulse d out fun p => { p with later := p.later ++ [now + 8 * h.rd d A.po_delay_ns out] }
  else (h.wr d A.po_next out (now + 8 * h.rd d A.po_delay_ns out)).wr d A.po_state out 2

/-- The pulse of an output given at its time (R400, R401) and its next time set; the users of the pulse are served by
the caller. -/
def Hw.poGive (h : Hw) (d out : Nat) : Hw :=
  let next := h.rd d A.po_next out
  let h := (h.emit (.pulse d out next)).add d A.po_pulses out
  let h := h.onPulse d out fun p => { p with k := p.k + 1, highUntil := next + 8 * h.rd d A.po_width_ns out }
  let p := h.pulse d out
  match h.rd d A.po_mode out with
  | 2 =>
    if p.count ≠ 0 ∧ p.count ≤ p.k then h.wr d A.po_state out 0
    else
      let k := p.firstFrom next p.k
      (h.onPulse d out fun p => { p with k := k }).wr d A.po_next out (p.time k)
  | 3 =>
    match p.later with
    | [] => h.wr d A.po_state out 1
    | t :: ts => (h.onPulse d out fun p => { p with later := ts }).wr d A.po_next out t
  | _ => h.wr d A.po_state out 0

/-! ### Capture inputs (R404) -/

/-- CAPTURE_EDGE (R404): an edge of the kind set in `cap_edge` latches TB0 to TB3 together. -/
def execCaptureEdge (die input : Nat) (rising : Bool) (t : Nat) (s : State) : Host.Outcome State Fault Refusal :=
  s.onUnit die input 4 fun _ h =>
    let u := 8 + input
    let e := h.rd die A.cap_edge u
    if e = 3 ∨ (rising ∧ e = 1) ∨ (!rising ∧ e = 2) then
      let h := h.until die t
      let h := if (h.die die).capFresh.getD input false then h.add die A.cap_overruns u else h
      let h := h.setBlk (rkey die A.cap_last u) ((List.range 4).flatMap fun i => leBytes 8 (h.tb die i))
      if h.rd die A.cap_event u = 1 then
        (h.event die Ev.tbCapture (leBytes 1 input ++ leBytes 8 (h.tb die 0) ++ leBytes 8 (h.tb die 1))).onDie die
          fun D => { D with capFresh := D.capFresh.set input false }
      else h.onDie die fun D => { D with capFresh := D.capFresh.set input true }
    else h

/-! ### TB_READ and TB_STEP -/

/-- TB_READ: all four time bases in one time-base cycle, and the servo states of TB0, TB2 and TB3. -/
def execTbRead (h : Hdr) (s : State) : Host.Outcome State Fault Refusal :=
  s.command h 0x0B01 (opObj 0x0B01 0) fun _ d hw =>
    (.words ((List.range 4).flatMap (fun i => words64 (hw.tb d i)) ++
      [hw.rd d A.servo_state 0 + 16 * hw.rd d A.servo_state 2 + 256 * hw.rd d A.servo_state 3]), hw)

/-- TB_STEP (R392): one step while armed; the reply gives the TB1 apply time (R391). -/
def execTbStep (h : Hdr) (tb : Nat) (offset : Int) (s : State) : Host.Outcome State Fault Refusal :=
  s.command h 0x0B02 (opObj 0x0B02 tb) fun _ _ hw =>
    if ¬(tb = 0 ∨ tb = 2 ∨ tb = 3) then refuse .range hw
    else if hw.rd 0 A.step_arm tb = 0 then refuse .state hw
    else (.words (words64 (hw.tb hw.leadDie 1 + 2000)), hw.tbSend tb (some offset) none)

end Sys2Proof.Machine
end

