-- ==== Sys2Proof/Machine/Links.lean ====
section
/-!
DEFINITION. Links, host ports and system joining (spec/14_links_system.md): the PCIe endpoints and apertures, ITV training,
frames and replay, sleep, eye figures, Ethernet link state, node addresses and enumeration, time over ITV.
-/
namespace Sys2Proof.Machine

/-! ### Host accesses (R36, R426, R427) -/

/-- BAR_REJECT (R36): endpoint, BAR, address (the device address where an aperture gives one, the offset in the BAR elsewhere), read
or write, source; counted in `bar_rejects`. -/
def Hw.barReject (h : Hw) (ep bar addr : Nat) (write : Bool) : Hw :=
  let h := (h.add 0 A.bar_rejects ep).seeSource ep (.pcie ep 0)
  h.event ep Ev.barReject (leBytes 1 ep ++ leBytes 1 bar ++ leBytes 5 addr ++ leBytes 1 (b2n write) ++
    leBytes 2 (h.srcIndex (.pcie ep 0)))

/-- The device address and die that a BAR2 offset reaches through its aperture (R427), if the aperture is enabled and
names a die of the package. -/
def Hw.aperture (h : Hw) (ep off : Nat) : Option (Nat × Nat) :=
  let r := (h.eps.getD ep Endpoint.reset).apertures.getD (off / 2 ^ 28) 0
  if bit r 63 ∧ bits r 42 40 < h.n ∧ off < 2 ^ 32 then some (bits r 42 40, bits r 39 28 * 2 ^ 28 + off % 2 ^ 28) else none

/-- The domains' bits in `pd_on` (R531). -/
abbrev domAO := 0
abbrev domMGMT := 1
abbrev domMEM := 2
abbrev domLINE := 3
abbrev domHEAD := 4
abbrev domLINK := 5
abbrev domVIEW := 6
abbrev domCODEC := 7

/-- Whether a domain of a die is on (R504). -/
def Hw.on (h : Hw) (d dom : Nat) : Bool := bit (h.rd d A.pd_on 0) dom

/-- A host write to device memory (R35, R36): reserved, read-only, inaccessible and unmapped addresses discard it and
record BAR_REJECT; with MEM off there is no DRAM (R505). -/
def Hw.deviceWrite (h : Hw) (ep d a : Nat) (bs : List Byte) : Hw :=
  match region a with
  | .qct | .ct | .lamp | .pool => h.store d a bs
  | .dram => if h.on d domMEM then h.store d a bs else h.barReject ep 2 a true
  | .reserved | .rildin | .bank _ | .tile | .unmapped => h.barReject ep 2 a true

/-! ### The PCIe endpoints (R428) -/

/-- A Function Level Reset or hot reset of an endpoint (R428): apertures disabled, MSI-X table cleared and MSI-X off,
counted and recorded; held messages stay pending. -/
def Hw.flr (h : Hw) (ep : Nat) : Hw :=
  let h := { h with eps := h.eps.modify ep fun e => { Endpoint.reset with msixPending := e.msixPending } }
  ((h.wr 0 A.msix_en ep 0).add 0 A.flr_count ep).event ep Ev.pcieFlr (leBytes 1 ep)

/-- PCIE_FLR (R428). -/
def execPcieFlr (ep : Nat) (s : State) : Host.Outcome State Fault Refusal := s.onUnit 0 ep 2 fun _ h => h.flr ep

/-- PERST_L_LOW (R544): a low level held for 1 µs acts as a hot reset of that endpoint. -/
def execPerstLLow (ep : Nat) (s : State) : Host.Outcome State Fault Refusal := s.onUnit 0 ep 2 fun _ h => h.flr ep

/-- MSIX_ENABLE_WRITE (R428): once enabled, the held messages are sent. -/
def execMsixEnableWrite (ep : Nat) (on : Bool) (s : State) : Host.Outcome State Fault Refusal :=
  s.onUnit 0 ep 2 fun _ h => (h.wr 0 A.msix_en ep (b2n on)).msixFlush ep

/-- PCIE_LINK_CHANGE (R425, R428, R438): generation and width after link training, or down (generation 0). -/
def execPcieLinkChange (ep gen width : Nat) (s : State) : Host.Outcome State Fault Refusal :=
  s.onUnit 0 ep 2 fun _ h =>
    let up := gen ≠ 0
    let h := ((h.wr 0 A.pcie_link ep (b2n up)).wr 0 A.pcie_gen ep gen).wr 0 A.pcie_width ep (if up then width else 0)
    (h.event ep Ev.pcieLink (leBytes 1 ep ++ leBytes 1 gen ++ leBytes 1 (if up then width else 0))).msixFlush ep

/-- UNMAPPED_READ (R36): a read of an address without host access returns 0 and is recorded. -/
def execUnmappedRead (ep bar addr : Nat) (s : State) : Host.Outcome State Fault Refusal :=
  s.onUnit 0 ep 2 fun _ h => (h.emit (.read 0)).barReject ep bar addr false

/-! ### Links: frames and replay (R414 to R417, R424) -/

/-- The link record of a link: 0 to 7 the ITV port of that die, 8 to 23 a tunnel peer (`upstream`, R439). -/
def Hw.link (h : Hw) (l : Nat) : Link := if l < 8 then (h.die l).itv.link else h.tunnels.getD (l - 8) {}

/-- The link record changed. -/
def Hw.onLink (h : Hw) (l : Nat) (f : Link → Link) : Hw :=
  if l < 8 then h.onDie l fun D => { D with itv := { D.itv with link := f D.itv.link } }
  else { h with tunnels := h.tunnels.modify (l - 8) f }

/-- A counter of the ITV port, for a link that is one. -/
def Hw.linkAdd (h : Hw) (l : Nat) (a : AttrId) (n : Nat := 1) : Hw := if l < 8 then h.add l a 0 n else h

/-- The ITV port's power state of a direction changed and recorded (R419): direction 0 transmit, 1 receive. -/
def Hw.itvPm (h : Hw) (d dir new : Nat) : Hw :=
  let a := if dir = 0 then A.tx_pm else A.rx_pm
  if h.rd d a 0 = new then h
  else (h.wr d a 0 new).event d Ev.itvPm (leBytes 1 d ++ leBytes 1 dir ++ leBytes 1 new)

/-- A frame put on the wire with the present acknowledge number; a sleeping transmitter wakes (R415, R418). -/
def Hw.linkOut (h : Hw) (l : Nat) (f : ItvFrame) : Hw :=
  let h := if l < 8 ∧ h.rd l A.tx_pm 0 = 1 then h.itvPm l 0 0 else h
  (h.emit (.itv l { f with ack := (h.link l).rxNext })).linkAdd l A.frames_tx

/-- Waiting frames sent while fewer than 64 are unacknowledged (R416); in DEEP they wait for the link (R419). -/
def Hw.linkPump (h : Hw) (l : Nat) : Nat → Hw
  | 0 => h
  | n + 1 =>
    let L := h.link l
    match L.waiting with
    | f :: fs =>
      if L.unacked.length < 64 ∧ (8 ≤ l ∨ (L.up ∧ h.rd l A.tx_pm 0 ≠ 2)) then
        let g := { f with seq := L.txNext }
        let h := h.onLink l fun L =>
          { L with waiting := fs, unacked := L.unacked ++ [g], txNext := (L.txNext + 1) % 2 ^ 16 }
        (h.linkOut l g).linkPump l n
      else h
    | [] => h

/-- A new frame for a link (R416, R417): it starts with hops at 63 unless it is being forwarded. -/
def Hw.linkSend (h : Hw) (l type hops dst src : Nat) (payload : List Byte) : Hw :=
  let f : ItvFrame := { type := type, hops := hops, dst := dst, src := src, seq := 0, ack := 0, payload := payload }
  (h.onLink l fun L => { L with waiting := L.waiting ++ [f] }).linkPump l 64

/-- Frames acknowledged up to `ack` leave the unacknowledged ones (R416); progress ends a run of replays. -/
def Hw.linkAck (h : Hw) (l ack : Nat) : Hw :=
  let keep := (h.link l).unacked.filter fun f => (f.seq + 2 ^ 16 - ack) % 2 ^ 16 < 2 ^ 15
  let h := if keep.length < (h.link l).unacked.length then
      h.onLink l fun L => { L with unacked := keep, replayRun := 0, txAcked := true } else h
  h.linkPump l 64

/-- The nodes of another package, from what it announced. -/
def Peer.nodes (p : Peer) : List Node :=
  [⟨0, 1, 0, 0, 0, p.serial⟩] ++ ((List.range p.dies).map fun d => ⟨0, 2, d, 0, 0, p.serial⟩) ++
    (List.range (4 * p.dies)).flatMap fun c =>
      (List.range (p.chains.getD c 0)).map fun i => ⟨0, 3, c / 4, c % 4, i, p.serial⟩

/-- The role of the package among those it is joined to (R429): among the candidates the lowest priority value is
master, then the lowest serial number; without a candidate the package stays SELF. -/
def Hw.roleUpdate (h : Hw) : Hw :=
  let own := if h.rd 0 A.sys_master_en 0 = 1 then [(h.rd 0 A.sys_priority 0, Config.serial)] else []
  let cands := own ++ (h.pkg.peers.filter (·.masterEn)).map fun p => (p.priority, p.serial)
  match cands with
  | [] => (h.wr 0 A.sys_role 0 0).wr 0 A.master_serial 0 Config.serial
  | c :: cs =>
    let m := cs.foldl (fun b x => if x.1 < b.1 ∨ (x.1 = b.1 ∧ x.2 < b.2) then x else b) c
    let joined := !h.pkg.peers.isEmpty
    (h.wr 0 A.sys_role 0 (if m.2 = Config.serial then (if joined then 1 else 0) else 2)).wr 0 A.master_serial 0 m.2

/-- A link that carried the tree is lost (R429, R432): the packages behind it leave; SYS_TOPOLOGY names the link and the nodes
affected. -/
def Hw.linkLost (h : Hw) (l : Nat) : Hw :=
  let gone := h.pkg.peers.filter fun p => p.link == l
  if gone.isEmpty then h
  else
    let h := { h with pkg := { h.pkg with peers := h.pkg.peers.filter (fun p => p.link != l),
                                          routes := h.pkg.routes.filter fun r => r.link != l } }
    let h := if h.rd 0 A.upstream 0 = l then h.wr 0 A.upstream 0 0xFF else h
    h.roleUpdate.eventPkg h.leadDie Ev.sysTopology (leBytes 1 l ++ leBytes 3 (gone.map fun p => p.nodes.length).sum)

/-- A tunnel peer's state recorded (R424): 0 up, 1 down. -/
def Hw.tunPeer (h : Hw) (l : Nat) (up : Bool) : Hw :=
  let h := h.onLink l fun L => if up then { L with up := true } else { L with up := false, rxAcked := false, txAcked := false }
  let h := h.eventPkg h.leadDie Ev.tunPeer (leBytes 1 (l - 8) ++ leBytes 1 (b2n (!up)))
  if up then h else h.linkLost l

/-- The state of an ITV port changed and recorded (R413, R436). -/
def Hw.itvTo (h : Hw) (d new : Nat) : Hw :=
  let old := h.rd d A.itv_state 0
  if old = new then h
  else
    let h := if old = 2 then (h.add d A.link_downs 0).linkLost d else h
    let gen := if new = 2 then (h.die d).itv.gen else 0
    ((h.wr d A.itv_state 0 new).wr d A.itv_gen 0 gen).event d Ev.itvLinkState
      (leBytes 1 d ++ leBytes 1 old ++ leBytes 1 new ++ leBytes 1 (h.die d).itv.gen)

/-- Training of a port begins at ITV-1 (R413), with both directions awake. -/
def Hw.itvTrain (h : Hw) (d : Nat) : Hw :=
  let h := (h.itvPm d 0 0).itvPm d 1 0
  let h := h.onDie d fun D =>
    { D with itv := { D.itv with gen := 1, limit := 3, failRun := 0, eqDone := false, fromDeep := false, proposed := false,
                                 link := { D.itv.link with up := false } } }
  (h.itvTo d 1).wr d A.train_step 0 1

/-- Every unacknowledged frame sent again (R416); after 16 replays without progress the link is retrained or, for a
tunnel, goes down. -/
def Hw.linkReplay (h : Hw) (l : Nat) : Hw :=
  let L := h.link l
  if L.unacked.isEmpty then h
  else
    let h := (h.linkAdd l A.replays).onLink l fun L => { L with replayRun := L.replayRun + 1 }
    if (h.link l).replayRun = 16 then
      let h := h.onLink l fun L => { L with replayRun := 0 }
      let h := h.event (if l < 8 then l else h.leadDie) Ev.itvReplayLimit
        (leBytes 1 l ++ leBytes 2 ((L.unacked.head?.map (·.seq)).getD 0))
      if l < 8 then h.itvTrain l else h.tunPeer l false
    else L.unacked.foldl (fun h f => h.linkOut l f) h

/-- A NAK sent, at most one per microsecond (R415). -/
def Hw.linkNak (h : Hw) (l : Nat) : Hw :=
  let h := h.linkAdd l A.itv_crc_errs
  if (h.link l).nakAt.any fun t => decide (h.clk < t + 1000) then h
  else
    (h.onLink l fun L => { L with nakAt := some h.clk }).linkOut l
      { type := 1, hops := 63, dst := 0, src := 0, seq := 0, ack := 0, payload := [] }

/-- An ACK sent (R415). -/
def Hw.linkAckOut (h : Hw) (l : Nat) : Hw :=
  h.linkOut l { type := 0, hops := 63, dst := 0, src := 0, seq := 0, ack := 0, payload := [] }

/-- The receiver's decision about a frame (R415): accepted or not, and the link after it. -/
def Hw.linkAccept (h : Hw) (l : Nat) (crcOk : Bool) (f : ItvFrame) : Bool × Hw :=
  let L := h.link l
  if !crcOk || 7 < f.type then (false, h.linkNak l)
  else if f.type = 0 then (false, h.linkAck l f.ack)
  else if f.type = 1 then (false, (h.linkAck l f.ack).linkReplay l)
  else
    let h := h.linkAck l f.ack
    let ahead := (f.seq + 2 ^ 16 - L.rxNext) % 2 ^ 16
    if ahead = 0 then
      let h := (h.onLink l fun L => { L with rxNext := (L.rxNext + 1) % 2 ^ 16, rxAcked := true }).linkAdd l A.frames_rx
      (true, h.linkAckOut l)
    else if 2 ^ 15 ≤ ahead then (false, h.linkAckOut l)
    else (false, h.linkNak l)

/-- ITV_ACK_TIMEOUT (R416, R424): the oldest unacknowledged frame has waited its time. -/
def execItvAckTimeout (link : Nat) (s : State) : Host.Outcome State Fault Refusal :=
  s.onUnit 0 link 24 fun _ h => h.linkReplay link

/-! ### Training (R410 to R413) -/

/-- A failed step (R412, R413): counted and recorded; the third failure in a row lowers the generation, or at ITV-1
leaves the port DOWN. -/
def Hw.itvFail (h : Hw) (d : Nat) : Hw :=
  let I := (h.die d).itv
  let h := (h.add d A.train_fails 0).event d Ev.itvTrainFail
    (leBytes 1 d ++ leBytes 1 I.gen ++ leBytes 1 (h.rd d A.train_step 0))
  if I.failRun + 1 < 3 then
    (h.onDie d fun D => { D with itv := { D.itv with failRun := D.itv.failRun + 1, eqDone := false, fromDeep := false } }).wr d A.train_step 0 1
  else if 1 < I.gen then
    (h.onDie d fun D =>
      { D with itv := { D.itv with failRun := 0, eqDone := false, fromDeep := false, gen := D.itv.gen - 1, limit := D.itv.gen - 1 } }).wr
        d A.train_step 0 1
  else ((h.onDie d fun D => { D with itv := { D.itv with failRun := 0, fromDeep := false } }).wr d A.train_step 0 0).itvTo d 3

/-- The link is up (R411, R413): unacknowledged frames are sent again (R440). -/
def Hw.itvUp (h : Hw) (d : Nat) (serial : Nat) : Hw :=
  let h := h.onDie d fun D => { D with itv := { D.itv with failRun := 0, fromDeep := false, link := { D.itv.link with up := true } } }
  let h := ((h.wr d A.train_step 0 0).wr d A.peer_serial 0 serial).itvTo d 2
  ((h.link d).unacked.foldl (fun h f => h.linkOut d f) h).linkPump d 64

/-- A completed training step (R411): what it found decides the next step, a failure, a retraining at a higher
generation, or link up. -/
def Hw.itvStepDone (h : Hw) (d : Nat) (r : TrainResult) : Hw :=
  let I := (h.die d).itv
  match h.rd d A.train_step 0 with
  | 1 => h.wr d A.train_step 0 2
  | 2 => (h.onDie d fun D => { D with itv := { D.itv with invert := r.invert } }).wr d A.train_step 0 3
  | 3 =>
    if r.order = List.range 8 ∨ r.order = (List.range 8).reverse then
      (h.onDie d fun D => { D with itv := { D.itv with reversed := r.order != List.range 8 } }).wr d A.train_step 0 4
    else h.itvFail d
  | 4 =>
    if 24000 < r.skewPs then h.itvFail d
    else (h.onDie d fun D => { D with itv := { D.itv with skewPs := r.skewPs } }).wr d A.train_step 0
      (if 1 < I.gen ∧ !I.fromDeep then 5 else 6)
  | 5 => ((h.onDie d fun D => { D with itv := { D.itv with eqDone := true } }).wr d A.tx_taps 0 r.taps).wr d A.train_step 0 6
  | 6 =>
    let target := min (min (h.rd d A.itv_gen_max 0) r.peerGen) I.limit
    if I.gen = 1 ∧ 1 < target ∧ !I.fromDeep then
      (h.onDie d fun D => { D with itv := { D.itv with gen := target, failRun := 0, eqDone := false } }).wr d A.train_step 0 1
    else h.itvUp d r.peerSerial
  | _ => h

/-- ITV_TRAINING_START (R411): step 1 begins on an enabled port; a link leaving the deep state keeps its generation. -/
def execItvTrainingStart (die : Nat) (s : State) : Host.Outcome State Fault Refusal :=
  s.onDie die fun _ h =>
    if h.rd die A.itv_enable 0 = 0 then h
    else if (h.die die).itv.fromDeep then (h.itvTo die 1).wr die A.train_step 0 1 else h.itvTrain die

/-- ITV_TRAIN_STEP_DONE (R411): a step completes, at the latest in the cycle of its timer's expiry (R412). -/
def execItvTrainStepDone (die : Nat) (res : TrainResult) (s : State) : Host.Outcome State Fault Refusal :=
  s.onDie die fun _ h => if h.rd die A.itv_state 0 = 1 then h.itvStepDone die res else h

/-- ITV_TRAIN_FAIL (R412): the step in progress fails or its timer expires. -/
def execItvTrainFail (die : Nat) (s : State) : Host.Outcome State Fault Refusal :=
  s.onDie die fun _ h => if h.rd die A.itv_state 0 = 1 then h.itvFail die else h

/-- ITV_RETRY (R413): a DOWN port tries again. -/
def execItvRetry (die : Nat) (s : State) : Host.Outcome State Fault Refusal :=
  s.onDie die fun _ h => if h.rd die A.itv_state 0 = 3 then h.itvTrain die else h

/-- ITV_CTRL ENABLE (R440). -/
def execItvEnable (h : Hdr) (s : State) : Host.Outcome State Fault Refusal :=
  s.command h 0x0C01 (opObj 0x0C01 0) fun _ d hw =>
    if hw.rd d A.itv_enable 0 = 1 then refuse .state hw else okWith ((hw.wr d A.itv_enable 0 1).itvTrain d)

/-- ITV_CTRL DISABLE (R440): the lanes stop at once; unacknowledged frames are lost. -/
def execItvDisable (h : Hdr) (s : State) : Host.Outcome State Fault Refusal :=
  s.command h 0x0C01 (opObj 0x0C01 0) fun _ d hw =>
    if hw.rd d A.itv_enable 0 = 0 then refuse .state hw
    else
      let hw := hw.onDie d fun D => { D with itv := { eyeLow := D.itv.eyeLow, eyeAt := D.itv.eyeAt } }
      okWith (((((hw.wr d A.itv_enable 0 0).wr d A.train_step 0 0).itvTo d 0).itvPm d 0 0).itvPm d 1 0)

/-- ITV_CTRL RETRAIN (R440): unacknowledged frames are kept. -/
def execItvRetrain (h : Hdr) (s : State) : Host.Outcome State Fault Refusal :=
  s.command h 0x0C01 (opObj 0x0C01 0) fun _ d hw =>
    if hw.rd d A.itv_enable 0 = 0 then refuse .state hw else okWith (hw.itvTrain d)

/-! ### Sleep (R418, R419) -/

/-- Nothing waits and nothing is unacknowledged on an ITV port. -/
def Hw.itvQuiet (h : Hw) (d : Nat) : Bool := (h.link d).waiting.isEmpty && (h.link d).unacked.isEmpty

/-- ITV_SLEEP_ENTER (R418): a quiet transmitter sends a block of type 0x33 and sleeps. -/
def execItvSleepEnter (die : Nat) (s : State) : Host.Outcome State Fault Refusal :=
  s.onDie die fun _ h =>
    if h.rd die A.itv_state 0 = 2 ∧ h.rd die A.tx_pm 0 = 0 ∧ h.rd die A.sleep_after_ns 0 ≠ 0 ∧ h.itvQuiet die then
      ((h.emit (.itvCtl die 0x33)).itvPm die 0 1).onDie die fun D => { D with itv := { D.itv with proposed := false } }
    else h

/-- Both directions enter DEEP (R419). -/
def Hw.itvDeep (h : Hw) (d : Nat) : Hw :=
  ((h.onDie d fun D => { D with itv := { D.itv with proposed := false } }).itvPm d 0 2).itvPm d 1 2

/-- ITV_DEEP_PROPOSE (R419): with both directions asleep and nothing waiting, the side wakes and proposes. -/
def execItvDeepPropose (die : Nat) (s : State) : Host.Outcome State Fault Refusal :=
  s.onDie die fun _ h =>
    if h.rd die A.itv_state 0 = 2 ∧ h.rd die A.tx_pm 0 = 1 ∧ h.rd die A.rx_pm 0 = 1 ∧ h.rd die A.deep_after_ms 0 ≠ 0 ∧
        h.itvQuiet die then
      ((h.itvPm die 0 0).emit (.itvCtl die 0x55)).onDie die fun D => { D with itv := { D.itv with proposed := true } }
    else h

/-- ITV_PM_BLOCK_RECEIVE (R418, R419): 0x33 puts the receive direction to sleep; 0x55 grants this side's proposal or
proposes, which a sleeping transmitter with nothing waiting grants; another block wakes the direction. -/
def execItvPmBlockReceive (die type : Nat) (s : State) : Host.Outcome State Fault Refusal :=
  s.onDie die fun _ h =>
    if h.rd die A.itv_state 0 ≠ 2 then h
    else if type = 0x33 then h.itvPm die 1 1
    else if type = 0x55 then
      if (h.die die).itv.proposed then h.itvDeep die
      else if h.rd die A.tx_pm 0 = 1 ∧ h.itvQuiet die then (h.emit (.itvCtl die 0x55)).itvDeep die
      else h.itvPm die 1 0
    else h.itvPm die 1 0

/-- ITV_DEEP_EXIT (R419): a side starts its clock lane; the link runs steps 1 to 4 and 6 with the taps it held. -/
def execItvDeepExit (die : Nat) (s : State) : Host.Outcome State Fault Refusal :=
  s.onDie die fun _ h =>
    if h.rd die A.tx_pm 0 = 2 then
      let h := h.onDie die fun D =>
        { D with itv := { D.itv with fromDeep := true, failRun := 0, link := { D.itv.link with up := false } } }
      (((h.itvPm die 0 0).itvPm die 1 0).itvTo die 1).wr die A.train_step 0 1
    else h

/-! ### Eye figures (R420, R421) -/

/-- EYE_SCAN_COMPLETE (R420, R421): a lane's figures, ITV_EYE_LOW when they fall below the limits, and the end of a
measurement that was asked for. -/
def execEyeScanComplete (die lane width height : Nat) (s : State) : Host.Outcome State Fault Refusal :=
  s.onUnit die lane 8 fun _ h =>
    let h := (h.wrBlk die A.eye_width 0 (2 * lane) 2 width).wrBlk die A.eye_height 0 (2 * lane) 2 height
    let h := h.onDie die fun D => { D with itv := { D.itv with eyeAt := D.itv.eyeAt.set lane (h.tb die 1) } }
    let h := h.wr die A.eye_tb1 0 ((h.die die).itv.eyeAt.foldl min (h.tb die 1))
    let low := width < h.rd die A.eye_min_ui 0 ∨ height < h.rd die A.eye_min_mv 0
    let was := bit (h.die die).itv.eyeLow lane
    let h := if low ∧ !was then
        h.event die Ev.itvEyeLow (leBytes 1 die ++ leBytes 1 lane ++ leBytes 2 width ++ leBytes 2 height) else h
    let h := h.onDie die fun D =>
      { D with itv := { D.itv with
          eyeLow := if low then D.itv.eyeLow ||| 2 ^ lane else D.itv.eyeLow &&& (255 - 2 ^ lane),
          eyeWork := D.itv.eyeWork.map fun w => (w.1, w.2 &&& (255 - 2 ^ lane)) } }
    let done := (h.die die).itv.eyeWork.filter fun w => w.2 = 0
    let h := done.foldl (fun h w => h.settle w.1 0) h
    h.onDie die fun D => { D with itv := { D.itv with eyeWork := D.itv.eyeWork.filter fun w => w.2 ≠ 0 } }

/-- ITV_EYE READ: the 40-byte reply. -/
def execItvEyeRead (h : Hdr) (lanes : Nat) (s : State) : Host.Outcome State Fault Refusal :=
  s.command h 0x0C02 (opObj 0x0C02 0) fun _ d hw =>
    if hw.rd d A.itv_state 0 ≠ 2 then refuse .state hw
    else (.words (((List.range 8).map fun i =>
        if bit lanes i then hw.blkNum d A.eye_height 0 (2 * i) 2 * 2 ^ 16 + hw.blkNum d A.eye_width 0 (2 * i) 2 else 0) ++
      words64 (hw.rd d A.eye_tb1 0)), hw)

/-- ITV_EYE MEASURE (R39, R421): continuous on a DKG8, otherwise long work. -/
def execItvEyeMeasure (h : Hdr) (lanes : Nat) (s : State) : Host.Outcome State Fault Refusal :=
  s.command h 0x0C02 (opObj 0x0C02 0) fun _ d hw =>
    if hw.rd d A.itv_state 0 ≠ 2 then refuse .state hw
    else if hw.n = 8 then okWith hw
    else
      let (id, r, hw) := hw.deferWork d h false
      if lanes % 256 = 0 then (r, hw.settle id 0)
      else (r, hw.onDie d fun D => { D with itv := { D.itv with eyeWork := D.itv.eyeWork ++ [(id, lanes % 256)] } })

/-! ### Ethernet link state (R437) -/

/-- ETH_LINK_CHANGE (R422, R437): 0 up, 1 down in the record (R573). -/
def execEthLinkChange (die port : Nat) (up : Bool) (s : State) : Host.Outcome State Fault Refusal :=
  s.onUnit die port 2 fun _ h =>
    let up := up && h.rd die A.eth_enable port == 1
    if h.rd die A.link_up port = b2n up then h
    else (h.wr die A.link_up port (b2n up)).event die Ev.ethLink
      (leBytes 1 die ++ leBytes 1 port ++ leBytes 1 (b2n (!up)) ++ leBytes 1 (h.rd die A.eth_rate port))

/-! ### The system (R429 to R434) -/

/-- The package's own nodes in the order of R431: itself, its dies, the drivers of each die's chains that are not OFF. -/
def Hw.ownNodes (h : Hw) : List Node :=
  [⟨0, 1, 0, 0, 0, Config.serial⟩] ++ ((List.range h.n).map fun d => ⟨0, 2, d, 0, 0, Config.serial⟩) ++
    (List.range h.n).flatMap fun d => (List.range 4).flatMap fun c =>
      (List.range (if h.rd d A.chain_state c = 0 then 0 else h.rd d A.chain_drivers c)).map fun i =>
        ⟨0, 3, d, c, i, Config.serial⟩

/-- The same node by package serial number and position (R432). -/
def Node.same (a b : Node) : Bool :=
  a.kind % 4 == b.kind % 4 && a.die == b.die && a.chain == b.chain && a.driver == b.driver && a.serial == b.serial

/-- The number of node addresses, 0 to 0x3_FFFF (R431). -/
def addrMax : Nat := 0x40000

/-- Addresses given from `a` upward in order; nodes beyond the last address get none. -/
def numberFrom (a : Nat) : List Node → List Node
  | [] => []
  | x :: xs => if a < addrMax then { x with addr := a } :: numberFrom (a + 1) xs else []

/-- KEEP (R432): known nodes keep their addresses, those gone stay reserved (kind 4), new ones follow the highest. -/
def keepNodes (old new : List Node) (top : Nat) : List Node :=
  let kept := new.filterMap fun x => (old.find? fun o => o.same x || (o.kind == 4 && { o with kind := x.kind }.same x)).map
    fun o => { x with addr := o.addr }
  let gone := old.filter fun o => !(kept.any fun x => x.addr == o.addr)
  let fresh := new.filter fun x => !(kept.any fun k => k.same x)
  kept ++ (gone.map fun o => { o with kind := 4 }) ++ numberFrom top fresh

/-- An enumeration (R430 to R432): FRESH from address 0 (or from the address the master gave), KEEP from what stands. -/
def Hw.enumerate (h : Hw) (fresh : Bool) : Hw :=
  let role := h.rd 0 A.sys_role 0
  let peers := if role = 1 then h.pkg.peers.take 4095 else []
  let all := h.ownNodes ++ peers.flatMap Peer.nodes
  let nodes := if fresh then numberFrom h.pkg.base all else keepNodes h.pkg.nodes all h.pkg.nodeTop
  let live := nodes.filter fun x => x.kind != 4
  let missing := all.length - live.length
  let top := nodes.foldl (fun t x => max t (x.addr + 1)) 0
  let mine := live.filter fun x => x.serial == Config.serial
  let base := ((mine.find? fun x => x.kind == 1).map (·.addr)).getD 0
  let routes := peers.map fun p =>
    let r := live.filter fun x => x.serial == p.serial
    { link := p.link, lo := r.foldl (fun t x => min t x.addr) addrMax, hi := r.foldl (fun t x => max t x.addr) 0 }
  let h := { h with pkg := { h.pkg with nodes := nodes, nodeTop := top, routes := if role = 1 then routes else h.pkg.routes } }
  let h := ((h.wr 0 A.node_base 0 base).wr 0 A.node_count 0 mine.length).wr 0 A.sys_nodes 0 live.length
  let h := (h.wr 0 A.sys_packages 0 (1 + peers.length)).add 0 A.sys_gen 0
  let h := if role = 2 then h else h.wr 0 A.depth 0 0
  let h := h.add 0 A.addr_full 0 missing
  let h := if missing ≠ 0 ∧ !h.pkg.addrFullSeen then
      ({ h with pkg := { h.pkg with addrFullSeen := true } }).eventPkg h.leadDie Ev.sysAddrFull (leBytes 4 missing) else h
  h.eventPkg h.leadDie Ev.sysEnumDone (leBytes 4 (h.rd 0 A.sys_gen 0) ++ leBytes 1 (b2n (!fresh)) ++
    leBytes 2 (1 + peers.length) ++ leBytes 3 live.length)

/-- ENUM_FRAME (R429, R430): what a package reached over a link announces of itself, the place that the master gives this
package, and the range reached through the link; a package already in the tree makes its link STANDBY, and a place beyond level
63 is none. -/
def execEnumFrame (link serial : Nat) (masterEn : Bool) (priority dies : Nat) (chains : List Nat) (place : Option EnumPlace)
    (lo hi : Nat) (s : State) : Host.Outcome State Fault Refusal :=
  s.onUnit 0 link 24 fun _ h =>
    if serial = Config.serial ∨ h.pkg.peers.any fun p => p.serial == serial && p.link != link then
      h.eventPkg h.leadDie Ev.sysLinkStandby (leBytes 1 link ++ leBytes 8 serial)
    else
      let p : Peer := { link := link, serial := serial, masterEn := masterEn, priority := priority, dies := dies,
                        chains := chains, lo := lo, hi := hi }
      let h := { h with pkg := { h.pkg with peers := (h.pkg.peers.filter fun (x : Peer) => x.serial != serial) ++ [p] } }
      let h := h.roleUpdate
      match place with
      | some P =>
        if h.rd 0 A.sys_role 0 = 2 ∧ P.depth ≤ 63 then
          let rs := (h.pkg.routes.filter fun (r : Route) => r.link != link) ++ [{ link := link, lo := lo, hi := hi }]
          let h := { h with pkg := { h.pkg with base := P.base, routes := rs } }
          let h := (h.wr 0 A.upstream 0 link).enumerate true
          ((h.wr 0 A.depth 0 P.depth).wr 0 A.sys_nodes 0 P.nodes).wr 0 A.sys_packages 0 P.packages
        else h
      | none => h

/-- AUTO_ENUM (R432): the master, or a SELF package, runs KEEP within 100 ms of a change. -/
def execAutoEnum (s : State) : Host.Outcome State Fault Refusal :=
  s.onPkg fun _ h =>
    if h.rd 0 A.auto_enum 0 = 1 ∧ h.rd 0 A.sys_role 0 ≠ 2 ∧ h.lead.isSome then h.roleUpdate.enumerate false else h

/-- SYS_ENUM (R432): the enumeration ends with SYS_ENUM_DONE and the record's fate is then 0. -/
def sysEnum (q : Hdr) (fresh : Bool) (d : Nat) (h : Hw) : Reply × Hw :=
  if h.rd 0 A.sys_role 0 = 2 then refuse .state h
  else
    let (id, r, h) := h.deferWork d q true
    (r, (h.roleUpdate.enumerate fresh).settle id 0)

/-- SYS_ENUM FRESH (R431, R432). -/
def execSysEnumFresh (h : Hdr) (s : State) : Host.Outcome State Fault Refusal :=
  s.command h 0x0C03 (opObj 0x0C03 0) fun _ d hw => sysEnum h true d hw

/-- SYS_ENUM KEEP (R432). -/
def execSysEnumKeep (h : Hdr) (s : State) : Host.Outcome State Fault Refusal :=
  s.command h 0x0C03 (opObj 0x0C03 0) fun _ d hw => sysEnum h false d hw

/-- SYS_NODE: what an address names; an address that nothing has names kind 0. -/
def execSysNode (h : Hdr) (addr : Nat) (s : State) : Host.Outcome State Fault Refusal :=
  s.command h 0x0C04 (opObj 0x0C04 0) fun _ _ hw =>
    match hw.pkg.nodes.find? fun x => x.addr = addr with
    | some x => (.words ([x.kind * 2 ^ 24 + x.die * 2 ^ 16 + x.chain * 2 ^ 8, x.driver] ++ words64 x.serial), hw)
    | none => (.words [0, 0, 0, 0], hw)

/-- TIME_SYNC_EXCHANGE (R435): the offset sample of an exchange with the side nearer the time master, over a link of the tree,
feeds TB0's servo when its source is ITV. Times in ps. -/
def execTimeSyncExchange (link : Nat) (t1 t2 t3 t4 : Int) (t : Nat) (s : State) : Host.Outcome State Fault Refusal :=
  s.onUnit 0 link 24 fun _ h =>
    let h := h.until h.leadDie t
    let asym : Int := if link < 8 then h.rdS link A.itv_asym_ps 0 32 else 0
    let theta := t2 - t1 - ((t2 - t1) + (t4 - t3)) / 2 + asym
    if h.rd 0 A.tb_source 0 = 2 ∧ h.rd 0 A.time_master 0 = 0 ∧ h.pkg.peers.any (fun p => p.link == link) then h.servoSample 0 0 theta t else h

end Sys2Proof.Machine
end

