-- ==== Sys2Proof/Machine/Position.lean ====
section
/-!
DEFINITION. Web position and motion feedback (spec/04_web_position.md): counting, index, absolute words, homing, WPOS and
LPOS, pairs with speed and acceleration, stretch, compare units. What a published pair starts in the line engine and
beyond is in Motion.lean.
-/
namespace Sys2Proof.Machine

/-! ### Channels -/

/-- Channel `ch` of die `d`. -/
def Hw.enc (h : Hw) (d ch : Nat) : Enc := (h.die d).enc.getD ch {}

/-- Channel `ch` of die `d` changed. -/
def Hw.onEnc (h : Hw) (d ch : Nat) (f : Enc → Enc) : Hw := h.onDie d fun D => { D with enc := D.enc.modify ch f }

/-- The position unit of a die. -/
def Hw.pos (h : Hw) (d : Nat) : PosUnit := (h.die d).pos

/-- The value in force of a configuration attribute of the position unit: a change waits for the next published pair (R141). -/
def Hw.posEff (h : Hw) (d : Nat) (a : AttrId) : Nat := ((h.pos d).held.lookup a.id).getD (h.rd d a 0)

/-- The position unit changed. -/
def Hw.onPos (h : Hw) (d : Nat) (f : PosUnit → PosUnit) : Hw := h.onDie d fun D => { D with pos := f D.pos }

/-- The raw count *n* and the reported count *c*, 48 bits signed (R113). -/
def Hw.rawN (h : Hw) (d ch : Nat) : Int := h.rdS d A.raw_count ch 48
def Hw.cntC (h : Hw) (d ch : Nat) : Int := h.rdS d A.count ch 48

/-- Flag bits of a pair (R129). -/
abbrev fFWD := 0
abbrev fSTILL := 1
abbrev fLOS := 2
abbrev fSLEW := 3
abbrev fABSOK := 4
abbrev fHOLD := 5
abbrev fPARTNER := 6
abbrev fHOMED := 7

/-- Bit `i` of a number set to `b`. -/
def putBit (v i : Nat) (b : Bool) : Nat := if b then v ||| 2 ^ i else if v.testBit i then v - 2 ^ i else v

/-- A flag of a channel (`enc_flags`). -/
def Hw.encFlag (h : Hw) (d ch i : Nat) : Bool := bit (h.rd d A.enc_flags ch) i

/-- A flag of a channel set. -/
def Hw.setEncFlag (h : Hw) (d ch i : Nat) (b : Bool) : Hw := h.wr d A.enc_flags ch (putBit (h.rd d A.enc_flags ch) i b)

/-- A channel counts: enabled and not in LOS (R112, R140). -/
def Hw.encOn (h : Hw) (d ch : Nat) : Bool := h.rd d A.enc_enable ch == 1 && !h.encFlag d ch fLOS

/-- The channel from which a die takes WPOS, none for the partner (R109). -/
def Hw.posCh (h : Hw) (d : Nat) : Option Nat := if h.rd d A.pos_source 0 < 2 then some (h.rd d A.pos_source 0) else none

/-- The contexts of a die that are printing (R265). -/
def Hw.printingCtxs (h : Hw) (d : Nat) : List Ctx := (h.die d).ctxs.filter fun c => h.rd d A.printing c.num == 1

/-- A context of the die is printing. -/
def Hw.printing (h : Hw) (d : Nat) : Bool := !(h.printingCtxs d).isEmpty

/-! ### WPOS and LPOS (R124, R134) -/

/-- WPOS in units of 2^-40 nm (R124); the partner's for a die that takes its position from it (R125). -/
def Hw.wfx (h : Hw) (d : Nat) : Int :=
  match h.posCh d with
  | some ch => (h.pos d).o + h.cntC d ch * h.rd d A.scale ch
  | none => (h.pos d).partner.wpos * 2 ^ 40

/-- WPOS in nm. -/
def Hw.wposNow (h : Hw) (d : Nat) : Int := h.wfx d / 2 ^ 40

/-- LPOS in nm. -/
def Hw.lposNow (h : Hw) (d : Nat) : Int :=
  if (h.posCh d).isSome then (h.pos d).lfx / 2 ^ 40 else (h.pos d).partner.lpos

/-- The origin recomputed so that WPOS is `w` (in 2^-40 nm) with the source, scale and count as they stand (R125). -/
def Hw.rebase (h : Hw) (d : Nat) (w : Int) : Hw :=
  match h.posCh d with
  | some ch => h.onPos d fun p => { p with o := w - h.cntC d ch * h.rd d A.scale ch }
  | none => h

/-! ### Pairs (R127 to R131) -/

/-- The 40-byte pair record (R129). -/
def Pair.bytes (p : Pair) : List Byte :=
  leInt 8 p.wpos ++ leBytes 8 p.tb1 ++ leBytes 4 p.flags ++ leInt 4 p.speed ++ leInt 4 p.accel ++ leBytes 4 p.seq ++
    leInt 8 p.lpos

/-- The 28-byte form of a pair in event data (R567). -/
def Pair.evt (p : Pair) : List Byte :=
  leInt 8 p.wpos ++ leBytes 8 p.tb1 ++ leInt 4 p.speed ++ leBytes 4 p.seq ++ leBytes 1 p.flags ++ [0, 0, 0]

/-- Flags that a pair can show. -/
def Pair.fwd (p : Pair) : Bool := bit p.flags fFWD
def Pair.still (p : Pair) : Bool := bit p.flags fSTILL
def Pair.los (p : Pair) : Bool := bit p.flags fLOS

/-- The old pair of R130: the newest whose time is at or before `t` less the window, else the oldest. -/
def oldPair (hist : List Pair) (t win : Nat) : Option Pair :=
  match hist.find? fun p => p.tb1 + win ≤ t with
  | some p => some p
  | none => hist.getLast?

/-- The stretch factor in force after a change (R132, R133): 1 on the reference die. -/
def Hw.stretchOf (h : Hw) (d : Nat) : Nat :=
  if h.posEff d A.stretch_ref = d then 2 ^ 30
  else
    let lim : Int := 2 ^ 30 * h.posEff d A.stretch_limit_ppm / 10 ^ 6
    (clampInt (2 ^ 30 - lim) (2 ^ 30 + lim) ((h.pos d).sf + toSigned 32 (h.posEff d A.stretch_trim))).toNat

/-- Speed and acceleration of a new pair at time `t` and position `w` (R130); of two pairs at one time the spec gives no
speed (a free value, assumption log 3). -/
def Hw.motion (h : Hw) (d t : Nat) (w : Int) (moved : Bool) : (Int × Int) × Hw :=
  let win := h.posEff d A.speed_window_us * 1000
  match oldPair (h.pos d).hist t win with
  | none => ((0, 0), h)
  | some p =>
    if t ≤ p.tb1 then
      let (f, h) := h.fresh
      let (g, h) := h.fresh
      ((toSigned 32 f, toSigned 32 g), h)
    else
      let dt : Int := (t : Int) - p.tb1
      let v := ((w - p.wpos) * 10 ^ 6).tdiv dt
      let v := match h.posCh d with
        | some ch =>
          let since := t - (h.enc d ch).lastAt
          if !moved ∧ win < since then
            let m : Int := (h.rd d A.scale ch * 10 ^ 6 / 2 ^ 40 / since : Nat)
            clampInt (-m) m v
          else v
        | none => v
      ((v, ((v - p.speed) * 10 ^ 9).tdiv dt), h)

/-- The longest speed window in ns; older pairs beyond it are never used again. -/
def histSpan : Nat := 50000000

/-- The history with a new pair, pairs that no window can reach left out. -/
def histPut (p : Pair) (hist : List Pair) : List Pair :=
  let young := hist.takeWhile fun q => p.tb1 < q.tb1 + histSpan
  p :: young ++ (hist.drop young.length).take 1

/-- A pair of the die becomes its newest (R128, R141): next sequence number, attributes, history. -/
def Hw.putPair (h : Hw) (d : Nat) (p : Pair) : Hw :=
  let p := { p with seq := (h.rd d A.pair_seq 0 + 1) % 2 ^ 32 }
  let h := h.onPos d fun u => { u with newest := p, hist := histPut p u.hist, lastPub := some p.tb1 }
  let h := (((h.wrS d A.wpos 0 64 p.wpos).wrS d A.lpos 0 64 p.lpos).wrS d A.speed 0 32 p.speed).wrS d A.accel 0 32 p.accel
  let h := (h.wr d A.pos_flags 0 p.flags).wr d A.pair_seq 0 p.seq
  h.setBlk (rkey d A.pair 0) p.bytes

/-- A pair published from the source channel at TB1 time `t` (R128): `moved` at a change of *c*; a still pair has speed and
acceleration 0 (R131). A change of the stretch factor or of the configuration takes effect with it (R133, R141). -/
def Hw.publish (h : Hw) (d t : Nat) (moved : Bool) : Hw :=
  match h.posCh d with
  | none => h
  | some ch =>
    let h := h.onPos d fun p => { p with held := [] }
    let h := h.wr d A.stretch 0 (h.stretchOf d)
    let flags := putBit (h.rd d A.enc_flags ch) fHOLD (h.pos d).hold
    let w := h.wposNow d
    let r := if bit flags fSTILL then ((0, 0), h) else h.motion d t w moved
    r.2.putPair d { wpos := w, lpos := h.lposNow d, tb1 := t, flags := flags, speed := r.1.1, accel := r.1.2,
                    s := h.rd d A.stretch 0 }

/-- Whether a change of *c* at `t` publishes: the first at least `pair_interval_ns` after the last publication (R128). -/
def Hw.pairDue (h : Hw) (d t : Nat) : Bool :=
  match (h.pos d).lastPub with
  | none => true
  | some l => l + h.posEff d A.pair_interval_ns ≤ t

/-! ### Compare units (R135 to R139) -/

/-- The basis of a compare unit: LPOS or WPOS. -/
def Hw.cmpBasis (h : Hw) (d u : Nat) : Int := if bit (h.rd d A.cmp_ctl u) 6 then h.lposNow d else h.wposNow d

/-- `x` is at or beyond `v` in the direction (reverse: at or below). -/
def beyond (rev : Bool) (x v : Int) : Bool := if rev then x ≤ v else v ≤ x

/-- The value after a fire at `basis` (R139): one step on, and further steps until it lies ahead; with the number skipped. -/
def cmpNext (rev : Bool) (value basis : Int) (step : Nat) : Int × Nat :=
  let dir : Int := if rev then -1 else 1
  let v := value + dir * step
  if beyond rev basis v then
    let n := ((basis - v) * dir).toNat / step + 1
    (v + dir * step * n, n)
  else (v, 0)

/-- A unit fires (R136, R139): its pulse outputs, CMP_FIRE, counters, the step. -/
def Hw.cmpFire (h : Hw) (d u : Nat) : Hw :=
  let ctl := h.rd d A.cmp_ctl u
  let rev := bit ctl 5
  let basis := h.cmpBasis d u
  let h := ((List.range 8).filter fun p => bit ctl (16 + p)).foldl (fun h p => h.poTrigger d p) h
  let h := if bit ctl 7 then h.event d Ev.cmpFire (leBytes 1 u ++ (h.pos d).newest.evt) else h
  let h := (h.wr d A.cmp_last_tb1 u (h.tb d 1)).add d A.cmp_fires u
  let step := h.rd d A.cmp_step u
  if step = 0 then h.wr d A.cmp_state u 3
  else
    let (v, n) := cmpNext rev (h.rdS d A.cmp_value u 64) basis step
    let h := (h.wrS d A.cmp_value u 64 v).wr d A.cmp_state u 1
    if n = 0 then h else (h.add d A.cmp_missed u n).event d Ev.cmpMissed (leBytes 1 u ++ leBytes 4 n)

/-- One unit judged against its basis (R136, R137). -/
def Hw.cmpOne (h : Hw) (d u : Nat) : Hw :=
  let rev := bit (h.rd d A.cmp_ctl u) 5
  let at_ := beyond rev (h.cmpBasis d u) (h.rdS d A.cmp_value u 64)
  if h.rd d A.cmp_state u = 1 then (if at_ then h.cmpFire d u else h)
  else if h.rd d A.cmp_state u = 2 then (if at_ then h else h.wr d A.cmp_state u 1)
  else h

/-- Every unit of a die judged after a change of position. -/
def Hw.cmpEval (h : Hw) (d : Nat) : Hw := (List.range 16).foldl (fun h u => h.cmpOne d u) h

/-! ### Counting (R110 to R117) -/

/-- The procedure of R113: direction and reported count after a change of the raw count. -/
def trackCount (fwd : Bool) (n c : Int) : Bool × Int :=
  if fwd then (if c < n then (true, n) else if n ≤ c - 2 then (false, n + 1) else (true, c))
  else if n < c - 1 then (false, n + 1)
  else if c + 1 ≤ n then (true, n)
  else (false, c)

/-- A change of *n* at TB1 time `t` (ns) that follows edges or an absolute word in mode ABS (R113, R127, R128, R131, R134):
`word` publishes whatever *c* does. -/
def Hw.changeN (h : Hw) (d ch : Nat) (n : Int) (t : Nat) (word : Bool) : Hw :=
  let fwd0 := (h.enc d ch).fwd
  let c0 := h.cntC d ch
  let (fwd, c) := trackCount fwd0 n c0
  let src := h.posCh d == some ch
  let h := (h.wrS d A.raw_count ch 48 n).wrS d A.count ch 48 c
  let h := (h.onEnc d ch fun e => { e with fwd := fwd }).setEncFlag d ch fFWD fwd
  let wasStill := h.encFlag d ch fSTILL
  let h := if c = c0 then h
    else (h.onEnc d ch fun e => { e with lastAt := t }).setEncFlag d ch fSTILL false
  let h := if src ∧ c ≠ c0 then
      h.onPos d fun p => { p with lfx := p.lfx + (c - c0) * h.rd d A.scale ch * 2 ^ 30 / (h.rd d A.stretch 0 : Nat) }
    else h
  if !src then h
  else
    let h := if c ≠ c0 ∧ (fwd ≠ fwd0 ∨ wasStill ∨ h.pairDue d t) ∨ word then h.publish d t (c ≠ c0) else h
    if c = c0 then h else h.cmpEval d

/-- The place of the levels of A and B in the quadrature cycle; A leads B forward (R110). -/
def quadPlace (a b : Bool) : Nat := match a, b with
  | false, false => 0
  | true, false => 1
  | true, true => 2
  | false, true => 3

/-- A pending correction changed; SLEW is set while it is not 0 (R117). -/
def Hw.setPending (h : Hw) (d ch : Nat) (p : Int) : Hw :=
  (h.wrS d A.slip_pending ch 16 p).setEncFlag d ch fSLEW (p ≠ 0)

/-- One raw count in a direction, with the pending correction on every `slip_slew`-th (R117). -/
def Hw.rawCount (h : Hw) (d ch : Nat) (dir : Int) (t : Nat) : Hw :=
  let p := h.rdS d A.slip_pending ch 16
  let n := h.rawN d ch
  if p = 0 then (h.onEnc d ch fun e => { e with slew := 0 }).changeN d ch (n + dir) t false
  else if (h.enc d ch).slew + 1 < h.rd d A.slip_slew ch then
    (h.onEnc d ch fun e => { e with slew := e.slew + 1 }).changeN d ch (n + dir) t false
  else
    let sg : Int := if 0 < p then 1 else -1
    let h := (h.onEnc d ch fun e => { e with slew := 0 }).setPending d ch (p - sg)
    if sg = dir then h.changeN d ch (n + 2 * dir) t false else h

/-- The levels of A and B at a channel (R110, R111): one count, or a quadrature error when both change. -/
def Hw.encEdge (h : Hw) (d ch : Nat) (a b : Bool) (t : Nat) : Hw :=
  let e := h.enc d ch
  let step := (quadPlace a b + 4 - quadPlace e.a e.b) % 4
  let h := h.onEnc d ch fun e => { e with a := a, b := b }
  if !h.encOn d ch ∨ h.rd d A.enc_mode ch = 1 ∨ step = 0 then h
  else if step = 2 then
    (h.add d A.quad_errs ch).event d Ev.encQuadErr (leBytes 1 ch ++ leInt 8 (h.rawN d ch))
  else
    let dir : Int := if (step = 1) = (h.rd d A.dir_invert ch = 0) then 1 else -1
    h.rawCount d ch dir t

/-- Homing (R115, R122, R123): *n* and *c* set to `v` and moved on by `past` counts made since; WPOS moves by a set, which
the history follows (R130). -/
def Hw.homeTo (h : Hw) (d ch : Nat) (v : Int) (src t : Nat) : Hw :=
  let w0 := h.wposNow d
  let h := (h.wrS d A.raw_count ch 48 v).wrS d A.count ch 48 v
  let h := (h.setEncFlag d ch fHOMED true).event d Ev.posHomed (leBytes 1 ch ++ leBytes 1 src ++ leInt 8 v)
  if h.posCh d = some ch then
    let dw := h.wposNow d - w0
    let h := h.onPos d fun p => { p with hist := p.hist.map fun q => { q with wpos := q.wpos + dw } }
    (h.publish d t false).cmpEval d
  else h

/-- The difference of R116, folded to more than minus half a period and at most half. -/
def indexDiff (n ref : Int) (period : Nat) : Int :=
  let e := (n - ref) % period
  if (period : Int) < 2 * e then e - period else e

/-- A recognised index (R114 to R116). -/
def Hw.indexPulse (h : Hw) (d ch t : Nat) : Hw :=
  let e := h.enc d ch
  if !h.encOn d ch ∨ (h.rd d A.index_gate ch = 1 ∧ !(e.a && e.b)) then h
  else
    match e.ref with
    | none =>
      if h.rd d A.home_on_index ch = 1 ∧ !h.printing d then
        let v := h.rdS d A.home_value ch 48
        (h.onEnc d ch fun e => { e with ref := some v, errRun := 0 }).homeTo d ch v 0 t
      else h.onEnc d ch fun e => { e with ref := some (h.rawN d ch), errRun := 0 }
    | some ref =>
      let period := h.rd d A.index_period ch
      if period = 0 then h
      else
        let x := indexDiff (h.rawN d ch) ref period
        let pair := (h.pos d).newest.evt
        if x = 0 then h.onEnc d ch fun e => { e with errRun := 0 }
        else if x.natAbs ≤ h.rd d A.index_window ch then
          let h := (h.onEnc d ch fun e => { e with errRun := 0 }).setPending d ch (h.rdS d A.slip_pending ch 16 - x)
          let h := (h.add d A.slips ch).wrS d A.slip_total ch 32 (h.rdS d A.slip_total ch 32 + x)
          h.event d Ev.encSlip (leBytes 1 ch ++ leBytes 1 0 ++ leInt 4 x ++ pair)
        else
          let run := e.errRun + 1
          let h := (h.add d A.index_errs ch).event d Ev.encIndexErr (leBytes 1 ch ++ leInt 4 x ++ pair)
          if run = 3 then
            (h.onEnc d ch fun e => { e with ref := none, errRun := 0 }).event d Ev.encIndexLost (leBytes 1 ch)
          else h.onEnc d ch fun e => { e with errRun := run }

/-! ### Loss of signal, standstill, magnetic switches (R112, R123, R131) -/

/-- LOS set (R112): pin 0 A, 1 B, 2 Z; the channel loses its reference and HOMED; a change of LOS publishes (R128). -/
def Hw.losSet (h : Hw) (d ch pin : Nat) : Hw :=
  if h.rd d A.enc_enable ch = 0 ∨ h.encFlag d ch fLOS ∨ (pin = 2 ∧ h.rd d A.index_period ch = 0) then h
  else
    let h := ((h.setEncFlag d ch fLOS true).setEncFlag d ch fHOMED false).onEnc d ch fun e => { e with ref := none, errRun := 0 }
    let h := h.event d Ev.encLos (leBytes 1 ch ++ leBytes 1 pin ++ leBytes 1 0)
    if h.posCh d = some ch then h.publish d (h.tb d 1) false else h

/-- LOS clear (R112): the history starts empty (R130). -/
def Hw.losClear (h : Hw) (d ch : Nat) : Hw :=
  if !h.encFlag d ch fLOS then h
  else
    let h := (h.setEncFlag d ch fLOS false).event d Ev.encLos (leBytes 1 ch ++ leBytes 1 3 ++ leBytes 1 1)
    if h.posCh d = some ch then (h.onPos d fun p => { p with hist := [] }).publish d (h.tb d 1) false else h

/-- `still_time_us` without a change of *c* (R131). -/
def Hw.stillTimeout (h : Hw) (d ch : Nat) : Hw :=
  if !h.encOn d ch ∨ h.encFlag d ch fSTILL then h
  else
    let h := h.setEncFlag d ch fSTILL true
    if h.posCh d = some ch then h.publish d (h.tb d 1) false else h

/-- An accepted edge of a magnetic switch (R123). -/
def Hw.encMag (h : Hw) (d ch input : Nat) (rising : Bool) (t : Nat) : Hw :=
  let want := h.rd d A.mag_home ch
  let used := decide (want = 1 + 2 * input + b2n (!rising)) && !h.printing d && h.rd d A.enc_enable ch == 1
  let pair := (h.pos d).newest.evt
  let h := h.wr d A.mag_state ch (putBit (h.rd d A.mag_state ch) input rising)
  let h := h.event d Ev.encMag (leBytes 1 ch ++ leBytes 1 input ++ leBytes 1 (b2n (!rising)) ++ pair ++ leBytes 1 (b2n used))
  if used then h.homeTo d ch (h.rdS d A.home_value ch 48) 2 t else h

/-! ### Absolute words (R118 to R122) -/

/-- A word discarded (R120): counted, ABS_OK clear. -/
def Hw.absDiscard (h : Hw) (d ch : Nat) : Hw := (h.add d A.abs_errs ch).setEncFlag d ch fABSOK false

/-- ABS_ERR: kind 0 IDLE, 1 NO_ACK, 2 CRC, 3 SENSOR. -/
def Hw.absErr (h : Hw) (d ch kind : Nat) : Hw := h.event d Ev.absErr (leBytes 1 ch ++ leBytes 1 kind)

/-- A request (R118, steps 1 and 2): the latch point is stamped with TB1. -/
def Hw.absRequest (h : Hw) (d ch : Nat) : Hw :=
  if h.rd d A.enc_enable ch = 0 ∨ h.rd d A.enc_mode ch = 0 ∨ (h.enc d ch).word.isSome then h
  else if !(h.enc d ch).dat then h.absErr d ch 0
  else h.onEnc d ch fun e => { e with word := some (h.tb d 1, h.rawN d ch) }

/-- ABS_WORD_REQUEST (R118): the period timer, with the level that DAT has held for a clock period. -/
def execAbsWordRequest (die ch : Nat) (dat : Bool) (s : State) : Host.Outcome State Fault Refusal :=
  s.onUnit die ch 2 fun _ h => (h.onEnc die ch fun e => { e with dat := dat }).absRequest die ch

/-- ABS_REQUEST (R140): a write of `abs_request`. -/
def execAbsRequest (h : Hdr) (ch : Nat) (s : State) : Host.Outcome State Fault Refusal :=
  s.command h 0x0011 ⟨0x03, ch, 0x2A⟩ fun _ d hw =>
    if 2 ≤ ch then refuse .badObject hw
    else if (hw.enc d ch).word.isSome then refuse .state hw
    else okWith (hw.absRequest d ch)

/-- The bits of a number from bit `n` - 1 down. -/
def bitsMsb : Nat → Nat → List Bool
  | 0, _ => []
  | n + 1, v => v.testBit n :: bitsMsb n v

/-- A CRC of width `w`: polynomial without its top bit, initial value 0, MSB first (R120, R192). -/
def crcMsb (w poly : Nat) (bs : List Bool) : Nat :=
  bs.foldl (fun r b =>
    let top := (r.testBit (w - 1)) != b
    let r := r * 2 % 2 ^ w
    if top then r ^^^ poly else r) 0

/-- Gray code to binary. -/
def grayToBin (n v : Nat) : Nat :=
  ((bitsMsb n v).foldl (fun (acc : Nat × Bool) b => (2 * acc.1 + b2n (acc.2 != b), acc.2 != b)) (0, false)).1

/-- The CRC length of a word (R120). -/
def absCrcLen (c : Nat) : Nat := if c = 0 then 0 else if c = 3 then 8 else 6

/-- The CRC of a word over its position and flag bits (R120). -/
def absCrc (c : Nat) (bs : List Bool) : Nat :=
  if c = 0 then 0 else if c = 3 then crcMsb 8 0x07 bs else if c = 2 then crcMsb 6 0x03 bs ^^^ 0x3F else crcMsb 6 0x03 bs

/-- The absolute count nearest to `n` (R121), `cpl` in Q16.16. -/
def absExtend (w bits cpl : Nat) (n : Int) : Int :=
  let a : Int := w * cpl
  let m : Int := 2 ^ bits * cpl
  let j := if m = 0 then 0 else (2 * (n * 2 ^ 16 - a) + m) / (2 * m)
  (a + j * m).tdiv (2 ^ 16)

/-- A valid word (R121, R122). -/
def Hw.absValid (h : Hw) (d ch : Nat) (w : Nat) (latch : Nat × Int) : Hw :=
  let h := h.wr d A.abs_last ch w
  let a := absExtend w (h.rd d A.abs_bits ch) (h.rd d A.abs_cpl ch) latch.2
  if h.rd d A.enc_mode ch = 1 then (h.onEnc d ch fun e => { e with absSeen := true }).changeN d ch a latch.1 true
  else if !(h.enc d ch).absSeen ∧ !h.printing d then
    (h.onEnc d ch fun e => { e with absSeen := true }).homeTo d ch (a + (h.rawN d ch - latch.2)) 1 (h.tb d 1)
  else
    let h := h.onEnc d ch fun e => { e with absSeen := true }
    let e := a - latch.2
    if e = 0 then h
    else if e.natAbs ≤ h.rd d A.abs_window ch then
      (h.setPending d ch (h.rdS d A.slip_pending ch 16 + e)).event d Ev.encSlip
        (leBytes 1 ch ++ leBytes 1 1 ++ leInt 4 e ++ (h.pos d).newest.evt)
    else h.event d Ev.absMismatch (leBytes 1 ch ++ leInt 4 e)

/-- A word with its acknowledge and its *m* bits as sampled, MSB first (R118 to R122). -/
def Hw.absComplete (h : Hw) (d ch : Nat) (ack : Bool) (v : Nat) : Hw :=
  match (h.enc d ch).word with
  | none => h
  | some latch =>
    let h := h.onEnc d ch fun e => { e with word := none, dat := true }
    let nb := h.rd d A.abs_bits ch
    let nf := h.rd d A.abs_flag_bits ch
    let c := h.rd d A.abs_crc ch
    let nc := absCrcLen c
    let pos := v / 2 ^ (nf + nc) % 2 ^ nb
    let flags := v / 2 ^ nc % 2 ^ nf
    if h.encFlag d ch fLOS then h
    else if !ack then (h.absErr d ch 1).absDiscard d ch
    else if absCrc c (bitsMsb (nb + nf) (v / 2 ^ nc)) ≠ v % 2 ^ nc then (h.absErr d ch 2).absDiscard d ch
    else if 0 < nf ∧ !flags.testBit (nf - 1) then (h.absErr d ch 3).absDiscard d ch
    else
      let h := h.setEncFlag d ch fABSOK (nf < 2 || flags.testBit 0)
      h.absValid d ch (if h.rd d A.abs_gray ch = 1 then grayToBin nb pos else pos) latch

/-- ABS_TIMEOUT (R119): the monoflop wait expires before DAT rises. -/
def execAbsTimeout (die ch : Nat) (s : State) : Host.Outcome State Fault Refusal :=
  s.onUnit die ch 2 fun _ h =>
    if (h.enc die ch).word.isNone then h
    else ((h.onEnc die ch fun e => { e with word := none, dat := false }).absDiscard die ch).event die Ev.absTimeout (leBytes 1 ch)

/-! ### Enable and source (R113, R125) -/

/-- `enc_enable` written (R113, R130, R133): *n* and *c* start at 0, forward; WPOS and LPOS keep their values. -/
def Hw.setEncEnable (h : Hw) (d ch v : Nat) : Hw :=
  let w := h.wfx d
  let h := h.wr d A.enc_enable ch v
  if v = 0 then h.onEnc d ch fun e => { e with word := none }
  else
    let h := ((h.wr d A.raw_count ch 0).wr d A.count ch 0).wr d A.enc_flags ch 1
    let h := ((h.wr d A.slip_pending ch 0).wr d A.slip_total ch 0).onEnc d ch fun e =>
      { e with fwd := true, ref := none, errRun := 0, slew := 0, lastAt := h.tb d 1, word := none, absSeen := false }
    if h.posCh d = some ch then
      (h.rebase d w).onPos d fun p =>
        { p with hist := [], lastPub := none, sf := h.rd d A.stretch_init 0, win := none, mark := none }
    else h

/-- `pos_source` written (R125): WPOS continuous, except towards the partner, where the compare units see the jump (R136); an
open stretch window is discarded. -/
def Hw.setPosSource (h : Hw) (d v : Nat) : Hw :=
  let w := h.wfx d
  let l := h.lposNow d
  let wasPartner := (h.posCh d).isNone
  let h := h.wr d A.pos_source 0 v
  if v = 2 then
    (h.onPos d fun p => { p with partner := (h.pos (d - 1)).newest, win := none, mark := none }).cmpEval d
  else
    let h := (h.rebase d w).onPos d fun p => { p with win := none, mark := none }
    if wasPartner then h.onPos d fun p => { p with lfx := l * 2 ^ 40 } else h

/-- A configuration attribute of the position unit written (R141): the value before stays in force until the next published
pair; `stretch_init` is read at enable only (R133). -/
def Hw.holdPosCfg (h : Hw) (d id old : Nat) : Hw :=
  h.onPos d fun p =>
    if id = A.stretch_init.id ∨ (p.held.lookup id).isSome then p else { p with held := (id, old) :: p.held }

/-- `scale` written (R125). -/
def Hw.setScale (h : Hw) (d ch v : Nat) : Hw :=
  let w := h.wfx d
  let h := h.wr d A.scale ch v
  if h.posCh d = some ch then h.rebase d w else h

/-! ### Stretch and the partner (R132 to R134) -/

/-- STRETCH_HOLD set or cleared; the cause is not coded by the manual (byte 0). -/
def Hw.setHold (h : Hw) (d : Nat) (b : Bool) : Hw :=
  if (h.pos d).hold = b then h
  else (h.onPos d fun p => { p with hold := b }).event d Ev.stretchHold (leBytes 1 (b2n (!b)) ++ leBytes 1 0)

/-- The die's own WPOS (2^-40 nm) at TB1 time `t`, between the two local pairs that bracket it. -/
def bracket (hist : List Pair) (t : Nat) : Option Int :=
  match hist with
  | p :: q :: r =>
    if t < q.tb1 then bracket (q :: r) t
    else if t ≤ p.tb1 then
      some (if p.tb1 = q.tb1 then p.wpos * 2 ^ 40
        else q.wpos * 2 ^ 40 + (p.wpos - q.wpos) * 2 ^ 40 * ((t : Int) - q.tb1) / ((p.tb1 : Int) - q.tb1))
    else none
  | _ => none

/-- A window closed at reference position `refW` and local position `locW` (R132, R133). -/
def Hw.closeWindow (h : Hw) (d : Nat) (w : Window) (refW locW : Int) : Hw :=
  let raw := ((locW - w.locW) * 2 ^ 30 / ((refW - w.refW) * 2 ^ 40)).toNat % 2 ^ 32
  if (h.posEff d A.stretch_limit_ppm : Int) * 2 ^ 30 < ((raw : Int) - 2 ^ 30).natAbs * 10 ^ 6 then
    h.event d Ev.stretchLimit (leBytes 4 raw)
  else
    let sf := (h.pos d).sf
    let sf' : Int := sf + (((raw : Int) - sf) * h.posEff d A.stretch_window_mm).tdiv (h.posEff d A.stretch_tc_mm)
    ((h.onPos d fun p => { p with sf := sf'.toNat }).wr d A.stretch_raw 0 raw).add d A.stretch_windows 0

/-- A pending window boundary taken once local pairs bracket its time. -/
def Hw.stretchMark (h : Hw) (d : Nat) : Hw :=
  match (h.pos d).mark with
  | none => h
  | some m =>
    match bracket (h.pos d).hist m.tb1 with
    | none => h
    | some locW =>
      let h := match (h.pos d).win with
        | some w => if w.ok ∧ w.refW < m.wpos then h.closeWindow d w m.wpos locW else h
        | none => h
      h.onPos d fun p => { p with mark := none, win := some { refW := m.wpos, locW := locW, ok := true } }

/-- A reference pair arrives (R132, R133). -/
def Hw.stretchPair (h : Hw) (d : Nat) (rp : Pair) : Hw :=
  let prev := (h.pos d).refPair
  let missing := match prev with
    | some q => rp.seq ≠ (q.seq + 1) % 2 ^ 32
    | none => false
  let turned := match prev with
    | some q => q.fwd != rp.fwd
    | none => false
  let h := h.setHold d missing
  let bad := decide missing || turned || rp.still || rp.los || rp.speed < h.posEff d A.stretch_min_speed
  let h := h.onPos d fun p => { p with refPair := some rp, win := if bad then none else p.win, mark := if bad then none else p.mark }
  let reached : Bool := match (h.pos d).win with
    | some w => decide (w.refW + h.posEff d A.stretch_window_mm * 10 ^ 6 ≤ rp.wpos)
    | none => true
  if (h.pos d).mark.isNone ∧ reached ∧ !bad then (h.onPos d fun p => { p with mark := some rp }).stretchMark d
  else h.stretchMark d

/-- What a published local pair does to the stretch windows (R133): STILL, LOS or a change of direction discards. -/
def Hw.stretchLocal (h : Hw) (d : Nat) (before : Pair) : Hw :=
  let p := (h.pos d).newest
  if h.posEff d A.stretch_ref = d then h
  else if p.still || p.los || (before.seq != 0 && before.fwd != p.fwd) then
    h.onPos d fun u => { u with win := none, mark := none }
  else h.stretchMark d

/-- A pair from another die (R30, R132, R134): a reference pair for the stretch windows, the partner's for the position. -/
def Hw.pairReceive (h : Hw) (d src : Nat) : Hw :=
  let rp := (h.pos src).newest
  let h := if src ≠ d ∧ h.posEff d A.stretch_ref = src then h.stretchPair d rp else h
  if (h.posCh d).isNone ∧ src + 1 = d then
    let h := (h.onPos d fun p => { p with partner := rp, held := [] }).wr d A.stretch 0 rp.s
    (h.putPair d { rp with flags := putBit rp.flags fPARTNER true }).cmpEval d
  else h

/-! ### Commands -/

/-- POS_SET's effect (R126): fraction 0; the history follows a set of WPOS (R130). -/
def Hw.posSet (h : Hw) (d what : Nat) (v : Int) : Hw :=
  let w0 := h.wposNow d
  let h := if bit what 0 then
      (h.rebase d (v * 2 ^ 40)).onPos d fun p => { p with hist := p.hist.map fun q => { q with wpos := q.wpos + (v - w0) } }
    else h
  let h := if bit what 1 then h.onPos d fun p => { p with lfx := v * 2 ^ 40 } else h
  ((h.event d Ev.posSet (leBytes 1 what ++ leInt 8 v)).publish d (h.tb d 1) false).cmpEval d

/-- POS_LATCH (R129): the newest pair and the stretch factor. -/
def execPosLatch (h : Hdr) (s : State) : Host.Outcome State Fault Refusal :=
  s.command h 0x0202 (opObj 0x0202 0) fun _ d hw =>
    (⟨.ok, (hw.pos d).newest.bytes ++ leBytes 4 (hw.rd d A.stretch 0)⟩, hw)

/-- CMP_ARM's ARM (R135, R137): judged at once against the basis; the reply's state and FIRED. -/
def cmpArm (d ctl : Nat) (value : Int) (step : Nat) (h : Hw) : Reply × Hw :=
  let u := ctl % 16
  let rev := bit ctl 5
  let h := ((h.wr d A.cmp_ctl u ctl).wrS d A.cmp_value u 64 value).wr d A.cmp_step u step
  let basis := h.cmpBasis d u
  if beyond rev basis value then
    if bit ctl 4 then
      let h := h.cmpFire d u
      (.words [256 + h.rd d A.cmp_state u], h)
    else
      (.words [2], (h.wr d A.cmp_state u 2).event d Ev.cmpBehind (leBytes 1 u ++ leInt 8 value ++ leInt 8 basis))
  else (.words [1], h.wr d A.cmp_state u 1)

/-- Word 0 of CMP_ARM. -/
def cmpWord (op pulse : Nat) (event lpos rev lateOk : Bool) (unit_ : Nat) : Nat :=
  op * 2 ^ 24 + pulse % 256 * 2 ^ 16 + b2n event * 128 + b2n lpos * 64 + b2n rev * 32 + b2n lateOk * 16 + unit_ % 16

/-- CMP_ARM (R135 to R138). -/
def execCmpArm (h : Hdr) (unit_ pulse : Nat) (event lpos rev lateOk : Bool) (value : Int) (step : Nat) (s : State) :
    Host.Outcome State Fault Refusal :=
  s.command h 0x0203 (opObj 0x0203 unit_) fun _ d hw =>
    if 16 ≤ unit_ ∨ 256 ≤ pulse ∨ 2 ^ 32 ≤ step then refuse .range hw
    else cmpArm d (cmpWord 1 pulse event lpos rev lateOk unit_) value step hw

/-- CMP_DISARM (R135): IDLE. -/
def execCmpDisarm (h : Hdr) (unit_ : Nat) (s : State) : Host.Outcome State Fault Refusal :=
  s.command h 0x0203 (opObj 0x0203 unit_) fun _ d hw =>
    if 16 ≤ unit_ then refuse .range hw else (.words [0], hw.wr d A.cmp_state unit_ 0)

end Sys2Proof.Machine
end

