-- ==== Sys2Proof/Machine/Slots.lean ====
section
/-!
DEFINITION. Contexts, slots and image lines as every part of the print path uses them (spec/07_line_pipeline.md,
spec/09_ingest_runway.md, spec/05_fire_timing.md): values in force for a line, the target of R143, the tone stage, slot
states, changes at a named line, the defect log.
-/
namespace Sys2Proof.Machine

/-! ### Contexts (R264, R265) -/

abbrev ctxCLOSED := 0
abbrev ctxOPEN := 1
abbrev ctxPRINTING := 2
abbrev ctxSTOPPED := 3
abbrev ctxDONE := 4
abbrev ctxFAILED := 5

/-- A context of die `d` that is not CLOSED. -/
def Hw.ctx? (h : Hw) (d c : Nat) : Option Ctx := (h.die d).ctxs.find? fun x => x.num = c

/-- A context changed. -/
def Hw.onCtx (h : Hw) (d c : Nat) (f : Ctx → Ctx) : Hw :=
  h.onDie d fun D => { D with ctxs := D.ctxs.map fun x => if x.num = c then f x else x }

/-- State of a context. -/
def Hw.ctxState (h : Hw) (d c : Nat) : Nat := h.rd d A.ctx_state c

/-- Whether a context is printing. -/
def Hw.ctxPrints (h : Hw) (d c : Nat) : Bool := h.rd d A.printing c == 1

/-- The ports of a mask. -/
def portsOf (mask : Nat) : List Nat := (List.range 24).filter fun p => mask.testBit p

/-- Head port `p` of die `d`. -/
def Hw.port (h : Hw) (d p : Nat) : Port := (h.die d).ports.getD p {}

/-- A head port changed. -/
def Hw.onPort (h : Hw) (d p : Nat) (f : Port → Port) : Hw := h.onDie d fun D => { D with ports := D.ports.modify p f }

/-- *n*, the row groups of a port (R180). -/
def Hw.rgCount (h : Hw) (d p : Nat) : Nat := h.rd d A.row_groups p

/-- *d*_g of row group `g` (R181). -/
def Hw.rgDelay (h : Hw) (d p g : Nat) : Nat := h.rd d ⟨0x07, 0x10 + g⟩ p

/-- The delays of row groups 0 to *n* − 1 (R181). -/
def Hw.delays (h : Hw) (d p : Nat) : List Nat := (List.range (h.rgCount d p)).map (h.rgDelay d p)

/-- The smallest and the largest `rg_line_delay` of a port. -/
def Hw.dMin (h : Hw) (d p : Nat) : Nat := (h.delays d p).foldl min 31
def Hw.dMax (h : Hw) (d p : Nat) : Nat := (h.delays d p).foldl max 0

/-- The first slot of a context on a port that has not been fired or dropped. -/
def Ctx.slotAt (c : Ctx) (p : Nat) : Nat := c.slot.getD p 0

/-- The line after the highest held line of a port, lines 0 on unbroken (R273, R285). -/
def Ctx.heldTo (c : Ctx) (p : Nat) : Nat := c.next.getD p 0

/-- The last slot of a context on a port, once its last line is known (R181, R268). -/
def Hw.lastSlot (h : Hw) (d : Nat) (c : Ctx) (p : Nat) : Option Nat := c.last.map (· + h.dMax d p)

/-- A context has fired or dropped its every slot on a port (R268). -/
def Hw.portEnded (h : Hw) (d : Nat) (c : Ctx) (p : Nat) : Bool :=
  match h.lastSlot d c p with
  | some k => k < c.slotAt p
  | none => false

/-- The context whose slots a port carries now: the first in order of start that has not ended on the port (R206, R217). -/
def Hw.portCtx (h : Hw) (d p : Nat) : Option Ctx :=
  (h.die d).ctxs.find? fun c =>
    c.ports.testBit p && (h.ctxPrints d c.num || h.ctxState d c.num == ctxSTOPPED) && !h.portEnded d c p

/-- *f*_p as the attributes show it (R206, R230, R171). -/
def Hw.showPort (h : Hw) (d p : Nat) : Hw :=
  let P := h.port d p
  let h := match h.portCtx d p with
    | some c => (h.wr d A.slot_next (p + 1) (c.slotAt p)).wr d A.slot_context (p + 1) c.num |>.wr d A.armed_line (p + 1) (c.slotAt p)
    | none => h
  let cnt (f : Slot → Bool) := (P.slots.filter f).length
  let h := h.wr d A.slots_prepared (p + 1) (cnt fun x => x.st = .prepared ∨ x.st = .staged)
  h.wr d A.slots_staged (p + 1) (cnt fun x => x.st = .staged ∨ x.st = .shifted)

/-- The lowest, over the ports, of the highest line held in an unbroken run (R271, word 18). -/
def Ctx.heldLine (c : Ctx) : Int := ((portsOf c.ports).map fun p => (c.heldTo p : Int) - 1).foldl min 0xFFFFFFFF

/-- Words 16 to 31 of a Context Table entry written back (R271, R272). -/
def Hw.ctxWriteback (h : Hw) (d : Nat) (c : Ctx) : Hw :=
  let n := c.num
  h.store d (0x1000 + 128 * n + 64) (wordBytes ([c.failPort * 2 ^ 16 + h.rd d A.fail_cause n * 2 ^ 8 + h.ctxState d n,
    c.stored % 2 ^ 32, ofSigned 32 c.heldLine, h.rd d A.stop_line n, satNat 0xFFFF c.stops * 2 ^ 16 + satNat 0xFFFF c.seams,
    h.rd d A.pages_used n] ++ words64 (h.rd d A.x0 n) ++ words64 c.failLine ++ words64 c.startAt ++ words64 c.bytes ++
    words64 (h.tb d 1)))

/-- A bar of colour hold enters a state (R382); cause 0 command, 1 context, 2 references, 3 stale, 4 tile data, 5 usable
page. -/
def Hw.chTo (h : Hw) (b new cause : Nat) : Hw :=
  let old := h.rd 0 A.bar_state (b + 1)
  if old = new then h
  else
    let h := (h.wr 0 A.bar_state (b + 1) new).eventPkg h.leadDie Ev.chState
      (leBytes 1 b ++ leBytes 1 old ++ leBytes 1 new ++ leBytes 1 cause)
    h.wr 0 A.ch_state 0 (b2n ((List.range h.n).any fun i => h.rd 0 A.bar_state (i + 1) != 0))

/-- A context leaves printing for DONE, FAILED or CLOSED on a die: its bar goes OFF, or passes to the context started after
it (R269, R382). -/
def Hw.chEnd (h : Hw) (d c new : Nat) : Hw :=
  if h.rd 0 A.ch_context 0 ≠ c ∨ h.rd 0 A.bar_state (d + 1) = 0 then h
  else
    match (h.die d).ctxs.find? fun x => x.from_ = some c ∧ h.ctxPrints d x.num with
    | some y =>
      if new = ctxDONE then
        { h.wr 0 A.ch_context 0 y.num with pkg := { h.pkg with ch := { h.pkg.ch with next := none, plan := none } } }
      else h.chTo d 0 1
    | none => h.chTo d 0 1

/-- A line named by LE_DROP, LE_DATA_LATE or LE_SEAM, kept while colour hold runs the die's bar (R368). -/
def Hw.lineFault (h : Hw) (d c first last : Nat) : Hw :=
  if h.rd 0 A.bar_state (d + 1) = 0 ∧ h.gh.print.isNone then h
  else h.onDie d fun D => { D with lineFaults := (c, first, last) :: D.lineFaults }

/-- A change of a context's state (R264, R272): recorded and written back; the test page (context 0) has no entry. -/
def Hw.ctxTo (h : Hw) (d c new : Nat) : Hw :=
  let old := h.ctxState d c
  let h := h.wr d A.ctx_state c new
  let h := if new = ctxPRINTING then h.wr d A.printing c 1 else if new = ctxFAILED then h else h.wr d A.printing c 0
  let h := if new = ctxDONE ∨ new = ctxFAILED ∨ new = ctxCLOSED then h.chEnd d c new else h
  match h.ctx? d c with
  | some x =>
    if c = 0 then h
    else (h.event d Ev.ctxState (leBytes 1 c ++ leBytes 4 x.job ++ leBytes 1 old ++ leBytes 1 new)).ctxWriteback d x
  | none => h

/-! ### Values in force for a line (R170, R212) -/

/-- The value of a line-effective attribute in force for line `k` of context `c`. -/
def Hw.lineVal (h : Hw) (d : Nat) (key : RegKey) (c k : Nat) : Nat :=
  ((h.die d).changes.filter fun x => x.key = key ∧ x.ctx = c ∧ x.fixed ∧ x.line ≤ k).foldl (fun _ x => x.val) (h.rdk key)

/-- The target of R143 in units of 2^-32 nm. -/
def Hw.target (h : Hw) (d : Nat) (c : Ctx) (k p g s : Nat) : Int :=
  let v (a : AttrId) (i w : Nat) := toSigned w (h.lineVal d (rkey d a i) c.num k)
  let o := v A.port_offset_nm (p + 1) 32 + h.lineVal d (rkey d ⟨0x06, 0x10 + g⟩ (p + 1)) c.num k
  h.rdS d A.x0 c.num 64 * 2 ^ 32 + c.x0lo + k * h.rd d A.line_pitch 0 + v A.bar_offset_nm 0 64 * 2 ^ 32 + o * 2 ^ 62 / (s : Nat)

/-- The stretch factor of the newest pair. -/
def Hw.sNow (h : Hw) (d : Nat) : Nat := (h.pos d).newest.s

/-! ### The defect log (R162, R163) -/

/-- A defect record: DROP_SPEED (1) and DROP_DATA (2) to Q60, SEAM (3) to Q61; lost when the queue does not take it.
The test page writes none (R527). -/
def Hw.defect (h : Hw) (d kind ctx port lines late line : Nat) : Hw :=
  if ctx = 0 then h else
  let w0 := kind * 2 ^ 56 + ctx * 2 ^ 48 + port * 2 ^ 40 + satNat 0xFFFF lines * 2 ^ 16 + 5
  let w1 := satNat 0xFFFFFFFF late * 2 ^ 32 + line % 2 ^ 32
  let (r, h) := h.qPushPacket d (if kind = 3 then 61 else 60) 0x0A
    [w0, w1, ofSigned 64 (h.wposNow d), ofSigned 64 (h.lposNow d), h.tb d 1]
  let h := if kind = 3 then h.add d A.seams 0 else h
  if r = .committed then h else h.add d A.defect_lost 0

/-! ### Changes at a named line (R212 to R214, R64 to R67) -/

/-- The squash horizon *H* (R213). -/
def squashH : Nat := 6

/-- The effective line of a change on the ports (R213): tone-keyed or slot-keyed. -/
def Hw.fixLine (h : Hw) (d c : Nat) (ports : List Nat) (tone : Bool) (line : Nat) : Nat :=
  ports.foldl (fun l p =>
    match h.portCtx d p with
    | some x =>
      if x.num = c then max l (x.slotAt p + 1 + squashH - if tone then h.dMin d p else 0) else l
    | none => l) line

/-- What a squash takes from a port (R214): lines of the context from `line` on untoned, their slots back to WAITING. -/
def Hw.squashPort (h : Hw) (d c p line : Nat) (tone : Bool) : (Nat × Nat) × Hw :=
  let P := h.port d p
  let hit (x : Slot) : Bool := x.ctx == c && (x.st == .prepared || x.st == .staged) &&
    decide ((if tone then line + h.dMin d p else line) ≤ x.k)
  let cut (t : TonedLine) : Bool := tone && t.ctx == c && decide (line ≤ t.line)
  let n := (P.slots.filter hit).length
  let m := (P.toned.filter cut).length
  ((n, m), (h.onPort d p fun P => { P with slots := P.slots.filter (!hit ·), toned := P.toned.filter (!cut ·) }).showPort d p)

/-- A squash over ports (R214), counted and recorded when it took anything. -/
def Hw.squash (h : Hw) (d c : Nat) (ports : List Nat) (line : Nat) (tone : Bool) : Hw :=
  let r := ports.foldl (fun (acc : (Nat × Nat) × Hw) p =>
    let q := acc.2.squashPort d c p line tone
    ((acc.1.1 + q.1.1, acc.1.2 + q.1.2), q.2)) ((0, 0), h)
  let h := (r.2.add d A.squashes 0 r.1.1).add d A.retones 0 r.1.2
  if r.1.1 + r.1.2 = 0 then h
  else h.event d Ev.plSquash (leBytes 4 ((ports.map (2 ^ ·)).sum) ++ leBytes 1 c ++ leBytes 4 line ++ leBytes 4 r.1.1)

/-- PL_DEFER when the line used differs from the line requested (R213). -/
def Hw.plDefer (h : Hw) (d kind c want used : Nat) : Hw :=
  if want = used then h
  else h.event d Ev.plDefer (leBytes 1 kind ++ leBytes 1 c ++ leBytes 4 want ++ leBytes 4 used)

/-- A pending change superseded (R66). -/
def Hw.supersede (h : Hw) (d old new : Nat) : Hw :=
  (h.event d Ev.mbxSuperseded (leBytes 2 (h.deferredTag old) ++ leBytes 2 new)).settle old 0x0D

/-- Ports that a line-effective attribute affects (R212). -/
def changePorts (k : RegKey) : List Nat := if k.inst = 0 then List.range 24 else [k.inst - 1]

/-- The kind of change in PL_DEFER (R573). -/
def changeKind (k : RegKey) : Nat :=
  if k.cls = 0x08 then 1 else if k.inst = 0 then 3 else if k.id = 1 then 4 else if k.id = 2 then 5 else 6

/-- Tone-keyed attributes (R212): the cross-web shift. -/
def changeTone (k : RegKey) : Bool := k.cls == 0x08

/-- A change fixed in a printing context, or held unfixed for one that does not print yet (R213, R575); earlier pending
changes of the attribute at or beyond its line are superseded (R66). The answer is the line used. -/
def Hw.addChange (h : Hw) (d id tag : Nat) (key : RegKey) (val c line : Nat) : Nat × Hw :=
  let prints := h.ctxPrints d c
  let used := if prints then h.fixLine d c (changePorts key) (changeTone key) line else line
  let old := (h.die d).changes.filter fun x => x.key = key ∧ x.ctx = c ∧ !x.taken ∧ used ≤ x.line
  let h := old.foldl (fun h x => h.supersede d x.id tag) h
  let h := h.onDie d fun D => { D with changes := (D.changes.filter fun x => !(old.contains x)) ++
    [{ id := id, key := key, val := val, ctx := c, line := used, fixed := prints, taken := false }] }
  let h := h.movePoint id { kind := 1, ctx := c, point := used }
  let h := if prints then h.plDefer d (changeKind key) c line used else h
  (used, if prints ∧ changeTone key then h.squash d c (changePorts key) used true else h)

/-- A change made at once supersedes every pending change of its attribute (R66). -/
def Hw.changeNow (h : Hw) (d tag : Nat) (key : RegKey) (val : Nat) : Hw :=
  let old := (h.die d).changes.filter fun x => x.key = key
  let h := (old.filter fun x => !x.taken).foldl (fun h x => h.supersede d x.id tag) h
  (h.onDie d fun D => { D with changes := D.changes.filter fun x => x.key ≠ key }).wrk key val

/-- The contexts that print on the ports an attribute affects (R67). -/
def Hw.changeCtxs (h : Hw) (d : Nat) (key : RegKey) : List Ctx :=
  (h.printingCtxs d).filter fun c => (changePorts key).any fun p => c.ports.testBit p

/-- Changes whose line the first affected port has reached have taken effect: their fate is settled. -/
def Hw.takeChanges (h : Hw) (d : Nat) : Hw :=
  let due (x : LineChange) : Bool := x.fixed && !x.taken && (changePorts x.key).any fun p =>
    match h.portCtx d p with
    | some c => c.num == x.ctx && decide (x.line ≤ c.slotAt p)
    | none => false
  let ids := ((h.die d).changes.filter due).map (·.id)
  let h := h.onDie d fun D => { D with changes := D.changes.map fun x => if due x then { x with taken := true } else x }
  let h := ids.foldl (fun h id => h.settle id 0) h
  let bands := (List.range 24).flatMap fun p => match h.portCtx d p with
    | some c => ((h.port d p).bands.filter fun b => b.ctx = c.num ∧ b.first < c.slotAt p).map (·.id)
    | none => []
  bands.foldl (fun h id => h.settle id 0) h

/-- The changes of a context that ends (R576): taken values become the attribute's; untaken ones wait for the next context
that prints on the affected ports, from its line 0 (context number 0 marks them). -/
def Hw.endChanges (h : Hw) (d c : Nat) : Hw :=
  let mine := (h.die d).changes.filter fun x => x.ctx = c
  let h := (mine.filter (·.taken)).foldl (fun h x => h.wrk x.key x.val) h
  h.onDie d fun D => { D with changes := (D.changes.filter fun x => !(x.ctx = c ∧ x.taken)).map fun x =>
    if x.ctx = c then { x with ctx := 0, line := 0, fixed := false } else x }

/-- A context begins to print: changes carried over or in force elsewhere hold from its line 0, changes named for it are
fixed (R67, R213, R575, R576). -/
def Hw.beginChanges (h : Hw) (d : Nat) (c : Ctx) : Hw :=
  let serves (x : LineChange) : Bool := (changePorts x.key).any fun p => c.ports.testBit p
  let carried := (h.die d).changes.filter fun x => x.ctx = 0 ∧ serves x
  let others := (h.die d).changes.filter fun x => x.ctx ≠ 0 ∧ x.ctx ≠ c.num ∧ x.fixed ∧ serves x
  let h := carried.foldl (fun h x => (h.settle x.id 0).movePoint x.id { kind := 1, ctx := c.num, point := 0 }) h
  h.onDie d fun D =>
    { D with changes := others.map (fun x => { x with ctx := c.num, line := 0, taken := true }) ++ D.changes.map fun x =>
        if x.ctx = 0 ∧ serves x then { x with ctx := c.num, line := 0, fixed := true, taken := true }
        else if x.ctx = c.num then { x with fixed := true } else x }

/-! ### The tone stage (R218 to R223) -/

/-- The fields of a bank entry for input level `x` (1 to 3): threshold, upper and lower output level (R218). -/
def entT (e x : Nat) : Nat := bits e (16 * x - 1) (16 * x - 8)
def entH (e x : Nat) : Nat := bits e (16 * x - 9) (16 * x - 12)
def entL (e x : Nat) : Nat := bits e (16 * x - 13) (16 * x - 16)
def entDead (e : Nat) : Bool := bit e 63
def entSpillL (e : Nat) : Bool := bit e 62
def entSpillR (e : Nat) : Bool := bit e 61
def entMask (e : Nat) : Nat := bits e 60 56
def entMax (e : Nat) : Nat := bits e 55 52

/-- Zone gain of nozzle `j` of the die in units of 2^-14 / 3072, interpolated between zone centres 1,536 z + 767.5 (R225). -/
def zoneGain (gains : List Nat) (j : Nat) : Nat :=
  let g (z : Nat) := gains.getD z 0x4000
  let x := 2 * j
  if x ≤ 1535 then g 0 * 3072
  else
    let z := (x - 1535) / 3072
    if 63 ≤ z then g 63 * 3072
    else
      let r := (x - 1535) % 3072
      g z * (3072 - r) + g (z + 1) * r

/-- The highest level up to `lmax` whose weight in `unit` does not exceed `v`. -/
def levelFor (w : Nat → Nat) (v : Nat) : Nat → Nat
  | 0 => 0
  | l + 1 => if w (l + 1) ≤ v then l + 1 else levelFor w v l

/-- The three fields of one input level as the Orangery builds them (R225): threshold, upper, lower, and whether it
saturated. -/
def buildLevel (w : Nat → Nat) (lmax gain t hi lo : Nat) : (Nat × Nat × Nat) × Bool :=
  -- V in units of 1 / (256 * 2^14 * 3072)
  let v := (w lo * 256 + w hi * t - w lo * t) * gain
  let u := 256 * 2 ^ 14 * 3072
  let l := levelFor (fun x => w x * u) v lmax
  if l = lmax then ((0, lmax, lmax), decide (w lmax * u < v))
  else ((min 255 ((v - w l * u) * 256 / ((w (l + 1) - w l) * u)), l + 1, l), false)

/-- Base entry *J* of a build: the stored bytes, else the identity entry (R574). -/
def baseEntry (base : List Byte) (j : Nat) : Nat :=
  leNat ((List.range 8).map fun i => (base[8 * j + i]?).getD (BitVec.ofNat 8 (0x0000_0033_0022_0011 / 256 ^ i)))

/-- Entry *J* of a bank (R225), with the number of saturated levels. -/
def bankEntry (b : BankInput) (j : Nat) : Nat × Nat :=
  let e := baseEntry b.base j
  let w (l : Nat) := b.weights.getD l 0
  let lmax := if b.g4.getD (j / 4096) false then 15 else 3
  let gain := zoneGain b.gains j
  let r (x : Nat) := buildLevel w lmax gain (entT e x) (entH e x) (entL e x)
  let f (x : Nat) : Nat := ((r x).1.1 * 256 + (r x).1.2.1 * 16 + (r x).1.2.2) * 2 ^ (16 * (x - 1))
  let hs := ((b.health[j / 4]?).getD 0).toNat / 4 ^ (j % 4) % 4
  let top := bits e 63 48
  let top := if hs = 1 then top ||| 0x8000
    else if hs = 2 then (top ||| 0x8000) &&& 0x9FFF
    else if hs = 3 then top &&& 0xE0FF else top
  (top * 2 ^ 48 + f 3 + f 2 + f 1, b2n (r 1).2 + b2n (r 2).2 + b2n (r 3).2)

/-- Bank `b` of die `d`. -/
def Hw.bank (h : Hw) (d b : Nat) : Bank := (h.die d).banks.getD b {}

/-- A bank changed. -/
def Hw.onBank (h : Hw) (d b : Nat) (f : Bank → Bank) : Hw := h.onDie d fun D => { D with banks := D.banks.modify b f }

/-- Entry *J* of bank `b` of die `d` as the tone stage and the host read it; a bank that nothing was built into reads 0
(assumption log 2), a torn one is open (assumption log 3). -/
def Hw.bankWord (h : Hw) (d b j : Nat) : Nat :=
  let B := h.bank d b
  if B.torn then (Config.openBank d b B.buildAt j).toNat
  else
    match B.input with
    | some i => (bankEntry i j).1
    | none => 0

/-- A block attribute's number read by bits. -/
def Hw.blkBit (h : Hw) (d : Nat) (a : AttrId) (n : Nat) : Bool := (h.blkByte (rkey d a 0) (n / 8)).toNat.testBit (n % 8)

/-- Bit `c` of line `r` of stitch-blend mask `m` (R221). -/
def Hw.maskBit (h : Hw) (d m r c : Nat) : Bool := h.blkBit d A.blend_masks ((m - 1) * 16384 + r * 256 + c)

/-- The bank in force for line `k` of context `c` (R216, R224, R227). -/
def Hw.bankFor (h : Hw) (d c k : Nat) : Nat :=
  match (h.die d).bankFrom.find? fun x => x.2.1 = c ∧ x.2.2 ≤ k with
  | some x => x.1
  | none =>
    let dflt := ((List.range 2).find? fun b => h.rd d A.bank_state b = 3).getD 0
    -- lines before the swap line of this context keep the bank that the swap retires
    if (h.die d).bankFrom.any fun x => x.2.1 = c then 1 - dflt else dflt

/-- One spill of a dead nozzle (R220): the levels after it and whether the drop was lost. -/
def spillOne (ent : Nat → Nat) (n k j : Nat) (v : List Nat) : List Nat × Nat :=
  let vd := v.getD j 0
  if vd = 0 then (v.set j 0, 0)
  else
    let left : Option Nat := if 0 < j ∧ entSpillL (ent j) then some (j - 1) else none
    let right : Option Nat := if j + 1 < n ∧ entSpillR (ent j) then some (j + 1) else none
    let order := if k % 2 = 0 then [left, right] else [right, left]
    let ok (t : Nat) : Bool := !entDead (ent t) && decide (v.getD t 0 < entMax (ent t))
    match (order.filterMap id).find? ok with
    | some t => ((v.set t (min (entMax (ent t)) (v.getD t 0 + vd))).set j 0, 0)
    | none => (v.set j 0, 1)

/-- The toned levels of a decoded line (R219 to R223), with spills lost and levels clamped. -/
def Hw.toneLine (h : Hw) (d p c k : Nat) (l : DecLine) : List Nat × Nat × Nat :=
  let n := h.rd d A.nozzles p
  let m := h.rd d A.xweb_margin 0
  let shift := toSigned 8 (h.lineVal d (rkey d A.xweb_shift (p + 1)) c k)
  let b := h.bankFor d c k
  let ent (j : Nat) := h.bankWord d b (4096 * p + j)
  let xo := h.rd d A.dither_xoff 0
  let yo := h.rd d A.dither_yoff 0
  let lim := if h.rd d A.greyscale p = 1 then 15 else 3
  let raw (j : Nat) : Nat :=
    let x := l.cols.getD ((j + m : Nat) - shift : Int).toNat 0
    if l.g4 then x
    else if x = 0 then 0
    else
      let t := (h.blkByte (rkey d A.dither_tile 0) ((k + yo) % 64 * 64 + (4096 * p + j + xo) % 64)).toNat
      if t < entT (ent j) x then entH (ent j) x else entL (ent j) x
  let masked (j v : Nat) : Nat :=
    if entMask (ent j) ≠ 0 ∧ !h.maskBit d (entMask (ent j)) (k % 64) (j % 256) then 0 else v
  let v := (List.range n).map fun j => masked j (raw j)
  let r := ((List.range n).filter fun j => entDead (ent j)).foldl (fun (acc : List Nat × Nat) j =>
    let q := spillOne ent n k j acc.1
    (q.1, acc.2 + q.2)) (v, 0)
  (r.1.map (min lim), r.2, (r.1.filter (lim < ·)).length)

/-! ### Slots (R180, R181, R208) -/

/-- The row group of nozzle `j` (R180). -/
def Hw.rgOf (h : Hw) (d p j : Nat) : Nat :=
  let n := h.rgCount d p
  if h.rd d A.rg_layout p = 0 then j % n else j * n / h.rd d A.nozzles p

/-- The spit level of nozzle `j` on spit line `i` of a port (R196). -/
def Hw.spitLevel (h : Hw) (d p i j : Nat) : Nat :=
  match h.rd d A.spit_pattern p with
  | 0 => h.rd d A.spit_level p
  | 1 => if j % 2 = i % 2 then h.rd d A.spit_level p else 0
  | _ =>
    let b := (h.blkByte (rkey d A.spit_user p) ((i % 16 * 4096 + j) / 2)).toNat
    if j % 2 = 0 then b % 16 else b / 16

/-- An image line that a row group may carry: outside the job it is level 0 (R181). -/
def lineIn (c : Ctx) (k dg : Nat) : Bool :=
  decide (dg ≤ k) && match c.last with
    | some l => decide (k - dg ≤ l)
    | none => true

/-- The spit band that covers a slot, with its spit line (R198). -/
def Port.bandAt (P : Port) (c k : Nat) : Option Nat :=
  (P.bands.find? fun b => b.ctx = c ∧ b.first ≤ k ∧ k < b.first + b.count).map fun b => k - b.first

/-- Every source image line of slot `k` is toned (R208). -/
def Hw.slotReady (h : Hw) (d p : Nat) (c : Ctx) (k : Nat) : Bool :=
  let P := h.port d p
  (P.bandAt c.num k).isSome || (h.delays d p).all fun dg =>
    !lineIn c k dg || P.toned.any fun t => t.ctx = c.num ∧ t.line + dg = k

/-- The levels of slot `k` (R181, R198). -/
def Hw.slotLevels (h : Hw) (d p : Nat) (c : Ctx) (k : Nat) : List Nat :=
  let P := h.port d p
  let n := h.rd d A.nozzles p
  match P.bandAt c.num k with
  | some i => (List.range n).map (h.spitLevel d p i)
  | none => (List.range n).map fun j =>
    let dg := h.rgDelay d p (h.rgOf d p j)
    if lineIn c k dg then
      match P.toned.find? fun t => t.ctx = c.num ∧ t.line + dg = k with
      | some t => t.levels.getD j 0
      | none => 0
    else 0

/-- The contexts whose slots a port will carry, in order: the present one and those that follow it. -/
def Hw.portQueue (h : Hw) (d p : Nat) : List Ctx :=
  (h.die d).ctxs.filter fun c =>
    c.ports.testBit p && (h.ctxPrints d c.num || h.ctxState d c.num == ctxSTOPPED) && !h.portEnded d c p

/-- The next `r` slots of a port across its contexts (R206, R217). -/
def Hw.aheadSlots (h : Hw) (d p : Nat) : List Ctx → Nat → List (Ctx × Nat)
  | [], _ => []
  | c :: cs, r =>
    let n := match h.lastSlot d c p with
      | some l => min r (l + 1 - c.slotAt p)
      | none => r
    ((List.range n).map fun i => (c, c.slotAt p + i)) ++ h.aheadSlots d p cs (r - n)

/-- Slots whose lines are all toned become PREPARED, and the first of them STAGED as buffer space allows (R206, R208):
within the run-ahead, in order, 8 slots of buffer. -/
def Hw.prepare (h : Hw) (d p : Nat) : Hw :=
  let ahead := h.aheadSlots d p (h.portQueue d p) (h.rd d A.run_ahead 0)
  let h := ahead.foldl (fun h x =>
    if (h.port d p).slots.any (fun y => y.ctx = x.1.num ∧ y.k = x.2) ∨ !h.slotReady d p x.1 x.2 then h
    else h.onPort d p fun P => { P with slots := P.slots ++ [{ ctx := x.1.num, k := x.2, st := .prepared }] }) h
  let isAhead (y : Slot) : Bool := ahead.any fun x => x.1.num == y.ctx && x.2 == y.k
  let h := h.onPort d p fun P =>
    { P with slots := P.slots.filter (fun y => !isAhead y) ++ ahead.filterMap fun x => P.slots.find? fun y => y.ctx = x.1.num ∧ y.k = x.2 }
  let h := (ahead.take 8).foldl (fun h x =>
    let inBuf : Nat := ((h.port d p).slots.filter fun y => y.st = .staged ∨ y.st = .shifted).length
    if 8 ≤ inBuf then h
    else
      let lv := h.slotLevels d p x.1 x.2
      h.onPort d p fun P => { P with slots := P.slots.map fun y =>
        if y.ctx = x.1.num ∧ y.k = x.2 ∧ y.st = .prepared then { y with st := .staged, levels := lv } else y }) h
  h.showPort d p

/-- The slot record of slot `k` of context `c`. -/
def Port.slot? (P : Port) (c k : Nat) : Option Slot := P.slots.find? fun x => x.ctx = c ∧ x.k = k

/-- The slot that a port shifts next (R186, step 1): the first of its slots that is neither latched nor dropped, once it is staged. -/
def Hw.nextShift (h : Hw) (d p : Nat) : Option Slot :=
  let P := h.port d p
  let done (x : Ctx × Nat) : Bool := match P.slot? x.1.num x.2 with
    | some y => y.st == .shifted || y.st == .dropped
    | none => false
  match (h.aheadSlots d p (h.portQueue d p) (h.rd d A.run_ahead 0)).dropWhile done with
  | x :: _ => (P.slot? x.1.num x.2).filter fun y => y.st == .staged
  | [] => none

/-- Slots of a port made stale (R211): SHIFTED, or STAGED in the shift registers; their arms are withdrawn. -/
def Port.makeStale (P : Port) (cause : Nat) : Port :=
  let hit (x : Slot) : Bool := x.st == .shifted || (x.st == .staged && x.inRegs)
  { P with slots := P.slots.map (fun x => if hit x then { x with stale := some (x.stale.getD cause) } else x),
           arms := P.arms.filter fun a => !(P.slots.any fun x => hit x && x.ctx == a.ctx && x.k == a.k) }

/-- Every port's latched slots stale. -/
def Hw.staleAll (h : Hw) (d cause : Nat) : Hw := h.onDie d fun D => { D with ports := D.ports.map (·.makeStale cause) }

/-! ### The end of a slot and of a context (R206, R210, R228, R248, R268) -/

/-- Lines that no slot left on the port needs leave the rings (R210, R248); a decoded line stays at least until it is toned. -/
def Hw.trimRings (h : Hw) (d p : Nat) : Hw :=
  match h.portCtx d p with
  | none => h
  | some c =>
    let f := c.slotAt p
    h.onPort d p fun P =>
      { P with decoded := P.decoded.filter fun l =>
                 !(l.ctx = c.num ∧ (l.line + h.dMax d p < f ∨
                   (l.line + h.dMin d p < f + 7 ∧ P.toned.any fun t => t.ctx = l.ctx ∧ t.line = l.line))),
               toned := P.toned.filter fun l => !(l.ctx = c.num ∧ l.line + h.dMax d p < f) }

/-- A RETIRING bank becomes FREE (R228); its bytes stay until the next build. -/
def Hw.retireBank (h : Hw) (d : Nat) : Hw :=
  (List.range 2).foldl (fun h b =>
    let other := 1 - b
    let c := h.rd d A.swap_context other
    let l := h.rd d A.swap_line other
    let clear (p : Nat) : Bool :=
      match h.ctx? d c with
      | some x => !x.ports.testBit p || !h.ctxPrints d c || decide (l + h.dMax d p ≤ x.slotAt p + 7)
      | none => true
    let used := (h.printingCtxs d).any fun x => x.num ≠ c ∧ h.bankFor d x.num (x.slot.foldl min 0xFFFFFFFF) = b
    if h.rd d A.bank_state b = 4 ∧ (List.range 24).all clear ∧ !used then
      (h.wr d A.bank_state b 0).event d Ev.tbRetired (leBytes 1 b ++ leBytes 1 c ++ leBytes 4 l)
    else h) h

/-- Bands of a context that never reached their lines end with fate STATE (R576); those reached took effect. -/
def Hw.endBands (h : Hw) (d c : Nat) : Hw :=
  let ids := (h.die d).ports.flatMap fun P => (P.bands.filter fun b => b.ctx = c).map fun b => b.id
  let reached (i : Nat) : Bool := (List.range 24).any fun p =>
    (h.port d p).bands.any fun b => b.id == i && b.ctx == c && (match h.ctx? d c with
      | some x => decide (b.first < x.slotAt p)
      | none => false)
  let h := ids.eraseDups.foldl (fun h i => h.settle i (if reached i then 0 else Status.state.code)) h
  h.onDie d fun D => { D with ports := D.ports.map fun P => { P with bands := P.bands.filter fun b => b.ctx ≠ c } }

/-- The SEAM record of a port whose slots were lost to a fault (R200), written once. -/
def Hw.writeLost (h : Hw) (d c p : Nat) : Hw :=
  match (h.port d p).lost with
  | none => h
  | some (first, n) =>
    let h := h.onPort d p fun P => { P with lost := none }
    if n = 0 then h else h.defect d 3 c p n 0 first

/-- A slot has fired and has row-group pulses still to give (R153). -/
def Port.tailOf (P : Port) (c k : Nat) : Bool := P.firing.any fun f => f.ctx == c && f.k == k

/-- What a context leaves behind when it ends by DONE, CLOSE or ABORT (R200, R252, R576); a fired line keeps its remaining
pulses (R153). -/
def Hw.endCtx (h : Hw) (d c : Nat) : Hw :=
  let ports := ((h.ctx? d c).map fun x => portsOf x.ports).getD []
  let h := ports.foldl (fun h p => h.writeLost d c p) h
  let h := (h.endChanges d c).endBands d c
  h.onDie d fun D => { D with ports := D.ports.map fun P =>
    { P with slots := P.slots.filter (fun x => x.ctx ≠ c ∨ P.tailOf x.ctx x.k), decoded := P.decoded.filter (fun x => x.ctx ≠ c),
             toned := P.toned.filter (fun x => x.ctx ≠ c), arms := P.arms.filter fun a => a.ctx ≠ c ∨ P.tailOf a.ctx a.k } }

/-- With no context printing the line engine is IDLE; ESTOP stays (R155, R265, R167). -/
def Hw.idleEngine (h : Hw) (d : Nat) : Hw :=
  if h.printing d then h
  else
    let h := h.onDie d fun D => { D with hwmOn := false, leaving := false }
    if h.rd d A.le_state 0 = 5 then h else h.wr d A.le_state 0 0

/-- A context whose every port has ended enters DONE (R268). -/
def Hw.ctxDone (h : Hw) (d c : Nat) : Hw :=
  match h.ctx? d c with
  | some x =>
    if h.ctxState d c = ctxPRINTING ∧ (portsOf x.ports).all (h.portEnded d x) then
      ((h.endCtx d c).ctxTo d c ctxDONE).idleEngine d
    else h
  | none => h

/-- The first unfired slot of a port moves past `k` and past the slots dropped before their turn (R206). -/
def Hw.advance (h : Hw) (d p : Nat) (c : Ctx) (k : Nat) : Hw :=
  let dropped (j : Nat) : Bool := (h.port d p).slots.any fun x => x.ctx = c.num ∧ x.k = j ∧ x.st = .dropped
  let n := ((List.range 128).takeWhile fun i => dropped (k + 1 + i)).length
  let f := k + 1 + n
  let h := h.onCtx d c.num fun x => { x with slot := x.slot.set p f }
  let h := h.onPort d p fun P =>
    { P with slots := P.slots.filter fun x => !(x.ctx = c.num ∧ x.k < f ∧ x.st ≠ .shifted),
             arms := P.arms.filter fun a => !(a.ctx = c.num ∧ a.k < f ∧ (P.firing.map (·.k)) ≠ some a.k) }
  let h := (h.takeChanges d).trimRings d p
  let h := (h.prepare d p).ctxDone d c.num
  h.retireBank d

end Sys2Proof.Machine
end

