-- ==== Sys2Proof/Machine/Runway.lean ====
section
/-!
DEFINITION. Prediction of fire times, seams, the handshake outputs, runway and the seamless stop (spec/05_fire_timing.md
R146, R164, R165; spec/09_ingest_runway.md R285 to R296).
-/
namespace Sys2Proof.Machine

/-! ### From position to time (R144, R146) -/

/-- The integer square root by bits, from bit `i` down. -/
def isqrtFrom (n : Nat) : Nat → Nat → Nat
  | 0, r => if (r + 1) * (r + 1) ≤ n then r + 1 else r
  | i + 1, r => isqrtFrom n i (if (r + 2 ^ (i + 1)) * (r + 2 ^ (i + 1)) ≤ n then r + 2 ^ (i + 1) else r)

/-- The integer square root. -/
def isqrt (n : Nat) : Nat := isqrtFrom n (n.log2 / 2 + 1) 0

/-- A quotient rounded to the nearest integer, a tie to the later (R146); the divisor is positive. -/
def roundDiv (num den : Int) : Int := (2 * num + den) / (2 * den)

/-- τ of R146 in units of 125 ps for a target in 2^-32 nm, from a pair: none when the web is predicted to stop short or
does not move forward. -/
def tau (p : Pair) (useAccel : Bool) (x : Int) : Option Int :=
  let dx := x - p.lpos * 2 ^ 32
  if p.speed ≤ 0 then none
  else if useAccel ∧ p.accel ≠ 0 then
    let dn := p.speed * p.speed * (500 * 2 ^ 62) + p.accel * (p.s : Nat) * dx
    if dn ≤ 0 then none
    else
      let r : Int := (isqrt (dn.toNat * 2 ^ 128 / (500 * 2 ^ 62)) : Nat)
      some (roundDiv (dx * 64 * 10 ^ 6 * (p.s : Nat)) (p.speed * 2 ^ 64 + r))
  else some (roundDiv (dx * 8 * 10 ^ 6 * (p.s : Nat)) (p.speed * 2 ^ 62))

/-- *t*_fire in units of 125 ps (R144, R146) of row group `g` of slot `k` on port `p`, from the newest pair. -/
def Hw.tFire (h : Hw) (d : Nat) (c : Ctx) (k p g : Nat) : Option Int :=
  let q := (h.pos d).newest
  let lead := h.lineVal d (rkey d A.fire_lead_ns (p + 1)) c.num k
  (tau q (h.rd d A.use_accel 0 = 1) (h.target d c k p g q.s)).map fun t => 8 * (q.tb1 : Int) - 8 * (lead : Int) + t

/-- TB1 of a die in units of 125 ps. -/
def Hw.now8 (h : Hw) (d : Nat) : Nat := h.tb16 d 1 / ps125

/-! ### Seams (R162, R169, R294) -/

/-- Slots of a context on a port, from its first unfired one on, whose fire time lies more than `late_budget_ns` in the
past: the largest count below 2^24, found bit by bit as fire times rise with the slot. -/
def Hw.pastSlots (h : Hw) (d : Nat) (c : Ctx) (p : Nat) : Nat :=
  let f := c.slotAt p
  let past (n : Nat) : Bool :=
    match h.tFire d c (f + n - 1) p 0 with
    | some t => t + 8 * h.rd d A.late_budget_ns (p + 1) < h.now8 d
    | none => false
  let n := (List.range 24).reverse.foldl (fun n i => if past (n + 2 ^ i) then n + 2 ^ i else n) 0
  match h.lastSlot d c p with
  | some l => min n (l + 1 - f)
  | none => n

/-- The slots of a context that lie in the past are skipped on all its ports: the lowest first slot and the largest count. -/
def Hw.skipPast (h : Hw) (d : Nat) (c : Ctx) : (Nat × Nat) × Hw :=
  (portsOf c.ports).foldl (fun (acc : (Nat × Nat) × Hw) p =>
    let n := acc.2.pastSlots d c p
    if n = 0 then acc
    else
      let f := c.slotAt p
      let h := acc.2.onPort d p fun P =>
        { P with slots := P.slots.filter fun x => !(x.ctx = c.num ∧ x.k < f + n),
                 arms := P.arms.filter fun a => !(a.ctx = c.num ∧ a.k < f + n) }
      (((if acc.1.2 = 0 then f else min acc.1.1 f), max acc.1.2 n), h.advance d p c (f + n - 1))) ((0, 0), h)

/-- One seam of a context over all ports of the die (R162): record, LE_SEAM, counters. -/
def Hw.seam (h : Hw) (d : Nat) (c : Ctx) (first n : Nat) : Hw :=
  if n = 0 then h
  else
    let h := h.defect d 3 c.num 0xFF n 0 first
    ((h.onCtx d c.num fun x => { x with seams := x.seams + 1 }).lineFault d c.num first (first + n - 1)).event d Ev.leSeam
      (leBytes 1 c.num ++ leBytes 4 first ++ leBytes 4 (first + n - 1))

/-! ### The handshake outputs (R164, R165, R172) -/

/-- The pins follow the requests of all dies, or the levels that are forced; LE_HS_OUT at each change. -/
def Hw.showPins (h : Hw) : Hw :=
  let want := if !h.hsOn then 0
    else h.hsForce.getD ((List.range h.n).foldl (fun v d => v ||| h.rd d A.hs_out 0) 0)
  let old := h.hsPins
  let h := { h with hsPins := want }
  ((List.range 5).filter fun i => old.testBit i != want.testBit i).foldl
    (fun h i => h.eventPkg h.leadDie Ev.leHsOut (leBytes 1 i ++ leBytes 1 (b2n (want.testBit i)))) h

/-- A request of a die set or cleared. -/
def Hw.setReq (h : Hw) (d i : Nat) (b : Bool) : Hw := (h.wr d A.hs_out 0 (putBit (h.rd d A.hs_out 0) i b)).showPins

/-- SLOW_REQ (0), STOP_REQ (1) or BACKUP_REQ (2) of a die, recorded as RUNWAY_REQ at each change. -/
def Hw.runwayReq (h : Hw) (d i : Nat) (b : Bool) : Hw :=
  if bit (h.rd d A.hs_out 0) i = b then h
  else (h.setReq d i b).event d Ev.runwayReq
    (leBytes 1 i ++ leBytes 1 (b2n (!b)) ++ leBytes 8 (h.rd d A.runway_nm 0) ++ leBytes 8 (h.rd d A.stop_dist_nm 0))

/-! ### Runway (R285 to R287) -/

/-- A port of a context is complete (R285). -/
def Ctx.portComplete (c : Ctx) (p : Nat) : Bool :=
  match c.last with
  | some l => l < c.heldTo p
  | none => false

/-- *Z*_c in 2^-32 nm over the incomplete ports (R285); none when every port is complete. -/
def Hw.dataEnd32 (h : Hw) (d : Nat) (c : Ctx) : Option Int :=
  ((portsOf c.ports).filter fun p => !c.portComplete p).foldl (fun (z : Option Int) p =>
    let x := h.target d c (c.heldTo p + h.dMin d p) p 0 (h.sNow d)
    some (match z with
      | some y => min x y
      | none => x)) none

/-- *Z*_c in nm. -/
def Hw.dataEnd (h : Hw) (d : Nat) (c : Ctx) : Option Int := (h.dataEnd32 d c).map (· / 2 ^ 32)

/-- The contexts that the runway counts: printing, or stopped in the present stop and about to resume (R285,
R293); the test page has no end of data (R527). -/
def Hw.runwayCtxs (h : Hw) (d : Nat) : List Ctx :=
  (h.die d).ctxs.filter fun c => c.num != 0 && (h.ctxPrints d c.num || h.ctxState d c.num == ctxSTOPPED)

/-- *W* in nm, none when unlimited (R285). -/
def Hw.runway (h : Hw) (d : Nat) : Option Int :=
  (h.runwayCtxs d).foldl (fun (w : Option Int) c =>
    match h.dataEnd d c with
    | some z => some (match w with
      | some y => min y (z - h.lposNow d)
      | none => z - h.lposNow d)
    | none => w) none

/-- *d*_stop in nm (R286), evaluated in µm. -/
def Hw.stopDist (h : Hw) (d : Nat) : Nat :=
  let q := (h.pos d).newest
  let u := (q.speed * 2 ^ 30 / (q.s : Nat)).toNat
  (u * h.rd d A.press_react_ms 0 / 1000 + u * u / (2 * h.rd d A.press_decel 0)) * 1000

/-- The attributes of runway and data ends. -/
def Hw.showRunway (h : Hw) (d : Nat) : Hw :=
  let ones := 2 ^ 64 - 1
  let h := (h.wr d A.runway_nm 0 ((h.runway d).elim ones (ofSigned 64))).wr d A.stop_dist_nm 0 (h.stopDist d)
  (h.die d).ctxs.foldl (fun h c =>
    ((h.wr d A.data_end c.num ((h.dataEnd d c).elim ones (ofSigned 64))).wr d A.held_line c.num (ofSigned 32 c.heldLine)).wr d
      A.pages_used c.num ((c.blocks.map fun b => (b.len + 63) / 64 * 64).sum + 4095 |> (· / 4096))) h

/-- *W* lies below a margin in mm. -/
def Hw.below (h : Hw) (d : Nat) (extra : Nat) : Bool :=
  match h.runway d with
  | some w => decide (w < h.stopDist d + extra * 10 ^ 6)
  | none => false

/-! ### The seamless stop (R288 to R296) -/

/-- A die takes part in a stop (R288): phase, cause, count, STOP_REQ, STOP_START. -/
def Hw.stopOn (h : Hw) (d cause : Nat) : Hw :=
  if (h.die d).stop.active then h
  else
    let h := h.onDie d fun D => { D with stop := { active := true } }
    let h := ((h.wr d A.stop_phase 0 1).wr d A.stop_cause 0 cause).add d A.stops 0
    let h := (h.printingCtxs d).foldl (fun h c => h.onCtx d c.num fun x => { x with stops := x.stops + 1 }) h
    (h.runwayReq d 1 true).event d Ev.stopStart (leBytes 1 cause ++ leInt 8 (h.lposNow d))

/-- A stop started on a die: every other die with a printing context joins with cause 5 (R288). -/
def Hw.startStop (h : Hw) (d cause : Nat) : Hw :=
  if (h.die d).stop.active then h
  else (List.range h.n).foldl (fun h e => if e ≠ d ∧ h.printing e then h.stopOn e 5 else h) (h.stopOn d cause)

/-- The first slot of a port whose target is at or beyond `z` (2^-32 nm), with the settings of its first unfired slot. -/
def Hw.firstBeyond (h : Hw) (d : Nat) (c : Ctx) (p : Nat) (z : Int) : Nat :=
  let f := c.slotAt p
  let x := h.target d c f p 0 (h.sNow d)
  let pitch := h.rd d A.line_pitch 0
  let n := (z - x + pitch - 1) / (pitch : Nat)
  ((f : Int) + n).toNat

/-- The stop end of a context fixed at the present *Z*_c, and the stop slots (R289, R296). -/
def Hw.fixStop (h : Hw) (d : Nat) (c : Ctx) : Hw :=
  match h.dataEnd d c with
  | none => h
  | some z =>
    let es := (List.range 24).map fun p => h.firstBeyond d c p (z * 2 ^ 32)
    let h := (h.onCtx d c.num fun x => { x with stopSlots := some es }).wr d A.stop_end c.num (ofSigned 64 z)
    h.event d Ev.stopFixed (leBytes 1 c.num ++ leInt 8 z)

/-- The test of R289 on a context of a die in a stop: some port's first incomplete slot is near its first unfired slot. -/
def Hw.stopTest (h : Hw) (d : Nat) (c : Ctx) : Bool :=
  (h.die d).stop.active && h.ctxPrints d c.num && c.stopSlots.isNone && (portsOf c.ports).any fun p =>
    !c.portComplete p && decide (c.heldTo p + h.dMin d p ≤ c.slotAt p + h.rd d A.fix_slots 0)

/-- Stop ends fixed where the test passes. -/
def Hw.stopTests (h : Hw) (d : Nat) : Hw :=
  (h.printingCtxs d).foldl (fun h c => if h.stopTest d c then h.fixStop d c else h) h

/-- A context leaves printing in a stop (R290): STOPPED, or FAILED without printing; the die's stop line. -/
def Hw.leavePrinting (h : Hw) (d : Nat) (c : Ctx) : Hw :=
  let line := ((portsOf c.ports).map fun p => c.slotAt p - 1).foldl max 0
  let h := h.wr d A.stop_line c.num line
  let h := h.onDie d fun D => { D with ports := D.ports.map fun P => { P with arms := P.arms.filter fun a => a.ctx ≠ c.num } }
  let h := if h.ctxState d c.num = ctxFAILED then h.wr d A.printing c.num 0
    else (h.onCtx d c.num fun x => { x with resume := true }).ctxTo d c.num ctxSTOPPED
  h.idleEngine d

/-- Every slot of a context below its stop slots has fired or been dropped (R290). -/
def Ctx.reachedStop (c : Ctx) : Bool :=
  match c.stopSlots with
  | some es => (portsOf c.ports).all fun p => decide (es.getD p 0 ≤ c.slotAt p)
  | none => false

/-- R290 at a pair of the die: contexts that reached their stop end, or all of them at STILL unless the die is HELD (R295). -/
def Hw.stopLeave (h : Hw) (d : Nat) : Hw :=
  if !(h.die d).stop.active then h
  else
    let q := (h.pos d).newest
    let held := h.rd d A.le_state 0 = 4
    (h.printingCtxs d).foldl (fun h c =>
      let s := toSigned 64 (h.rd d A.stop_end c.num)
      if (c.reachedStop ∧ s ≤ q.lpos) ∨ (q.still ∧ !held) then h.leavePrinting d c else h) h

/-- A die in the stop stands still (R291, R295). -/
def Hw.dieStands (h : Hw) (d : Nat) : Bool :=
  (!h.printing d || h.rd d A.le_state 0 == 4) && (h.pos d).newest.still

/-- *q*_b of a die (R291, R295): the least target among its stopped contexts' next slots, HWM where it is HELD. -/
def Hw.backupFrom (h : Hw) (d : Nat) : Option Int :=
  if h.rd d A.le_state 0 = 4 then some (h.rdS d A.hwm 0 64)
  else
    ((h.die d).ctxs.filter fun c => c.num != 0 && h.ctxState d c.num == ctxSTOPPED).foldl (fun (q : Option Int) c =>
      (portsOf c.ports).foldl (fun (q : Option Int) p =>
        let x := h.target d c (c.slotAt p) p 0 (h.sNow d) / 2 ^ 32
        some (match q with
          | some y => min x y
          | none => x)) q) none

/-- STOP_NO_BACKUP: reason 0 disabled, 1 limited, 2 timeout. -/
def Hw.noBackup (h : Hw) (d reason : Nat) (short : Int) : Hw :=
  h.event d Ev.stopNoBackup (leBytes 1 reason ++ leInt 8 short)

/-- A die forms its backup target at standstill (R291, R292). -/
def Hw.standstill (h : Hw) (d : Nat) : Hw :=
  let h := h.onDie d fun D => { D with stop := { D.stop with standstill := true } }
  match h.backupFrom d with
  | none => (h.wr d A.stop_phase 0 4).onDie d fun D => { D with stop := { D.stop with backupDone := true } }
  | some q =>
    let l := h.lposNow d
    let r := max 0 (l - q) + h.rd d A.runup_mm 0 * 10 ^ 6
    let lim : Int := h.rd d A.backup_max_mm 0 * 10 ^ 6
    let t := l - min r lim
    let h := (h.wrS d A.backup_target 0 64 t).event d Ev.stopStandstill (leInt 8 l ++ leInt 8 t ++ leInt 8 r)
    if h.rd d A.backup_en 0 = 1 then
      let h := if lim < r then h.noBackup d 1 (r - lim) else h
      let h := (h.runwayReq d 2 true).wr d A.stop_phase 0 3
      h.onDie d fun D => { D with stop := { D.stop with backupAt := some h.clk } }
    else
      let h := (h.noBackup d 0 r).wr d A.stop_phase 0 4
      h.onDie d fun D => { D with stop := { D.stop with backupDone := true } }

/-- Package standstill (R291): once every die in the stop stands, each forms its target, once for the stop. -/
def Hw.standstillCheck (h : Hw) : Hw :=
  let ds := (List.range h.n).filter fun d => (h.die d).stop.active
  let h := (ds.filter fun d => h.dieStands d && h.rd d A.stop_phase 0 == 1).foldl (fun h d => h.wr d A.stop_phase 0 2) h
  if ds ≠ [] ∧ ds.all h.dieStands then
    (ds.filter fun d => !(h.die d).stop.standstill).foldl (fun h d => h.standstill d) h
  else h

/-- BACKUP_REQ of a die ends (R291, R292). -/
def Hw.endBackup (h : Hw) (d : Nat) : Hw :=
  ((h.runwayReq d 2 false).wr d A.stop_phase 0 4).onDie d fun D =>
    { D with stop := { D.stop with backupAt := none, backupDone := true } }

/-- The first pair at or behind the backup target ends the request (R291). -/
def Hw.backupReached (h : Hw) (d : Nat) : Hw :=
  if (h.die d).stop.backupAt.isSome ∧ (h.pos d).newest.lpos ≤ h.rdS d A.backup_target 0 64 then h.endBackup d else h

/-- BACKUP_TIMEOUT (R292): `backup_timeout_ms` after BACKUP_REQ rose; a pair at the target in that cycle counts. -/
def execBackupTimeout (die : Nat) (s : State) : Host.Outcome State Fault Refusal :=
  s.onDie die fun _ h =>
    let h := h.backupReached die
    if (h.die die).stop.backupAt.isSome then
      (h.endBackup die).noBackup die 2 (h.lposNow die - h.rdS die A.backup_target 0 64)
    else h

/-- The conditions under which a die releases STOP_REQ (R293, R296). -/
def Hw.mayRelease (h : Hw) (d : Nat) : Bool :=
  let st := (h.die d).stop
  st.active && st.standstill && st.backupDone && !h.hsPins.testBit 2 && (h.pos d).newest.still &&
    (match h.runway d with
      | some w => decide ((h.rd d A.resume_runway_mm 0 * 10 ^ 6 : Nat) ≤ w)
      | none => true) &&
    (h.die d).ctxs.all fun c => h.ctxState d c.num != ctxFAILED

/-- STOP_RELEASE (R293): the die releases STOP_REQ; when the pin falls, stopped contexts await the first forward pair. -/
def execStopRelease (die : Nat) (s : State) : Host.Outcome State Fault Refusal :=
  s.onDie die fun _ h =>
    if !h.mayRelease die then h
    else
      let h := h.onDie die fun D => { D with stop := {} }
      let h := ((h.wr die A.stop_phase 0 0).runwayReq die 1 false).event die Ev.stopRelease (leBytes 8 (h.rd die A.runway_nm 0))
      if h.hsPins.testBit 1 then h
      else
        { h with dies := h.dies.map fun D =>
            if D.ctxs.any (·.resume) then { D with stop := { D.stop with resume := true } } else D }

/-- STOP_FIXED (R289): the test in the core cycle of the row. -/
def execStopFixed (die : Nat) (s : State) : Host.Outcome State Fault Refusal := s.onDie die fun _ h => h.stopTests die

/-- CTX_STOP (R288, R300). -/
def execCtxStop (h : Hdr) (ctx : Nat) (s : State) : Host.Outcome State Fault Refusal :=
  s.command h 0x0702 (opObj 0x0702 ctx) fun _ d hw =>
    if ctx = 0 ∨ 256 ≤ ctx then refuse .range hw
    else if !hw.printing d then refuse .state hw
    else okWith (hw.startStop d 4)

/-- The runway logic at a pair and at a change of held data (R287, R288): SLOW_REQ with its hysteresis, the start of a stop,
the stop test. -/
def Hw.runwayEval (h : Hw) (d : Nat) : Hw :=
  let h := h.showRunway d
  let slow := h.rd d A.slow_margin_mm 0
  if !h.printing d then
    if (h.die d).stop.active ∧ h.below d (slow + h.rd d A.req_hyst_mm 0) then h else h.runwayReq d 0 false
  else
    let h := if h.below d slow then h.runwayReq d 0 true
      else if h.below d (slow + h.rd d A.req_hyst_mm 0) then h else h.runwayReq d 0 false
    let zero := match h.runway d with
      | some w => decide (w ≤ 0)
      | none => false
    let h := if h.below d (h.rd d A.stop_margin_mm 0) || zero then h.startStop d 1 else h
    h.stopTests d

/-- RUNWAY_STATUS (R287): runway and stop state together. -/
def execRunwayStatus (h : Hdr) (s : State) : Host.Outcome State Fault Refusal :=
  s.command h 0x0703 (opObj 0x0703 0) fun _ d hw =>
    (.words (words64 (hw.rd d A.runway_nm 0) ++ words64 (hw.rd d A.stop_dist_nm 0) ++ words64 (hw.rd d A.backup_target 0) ++
      [hw.rd d A.stop_phase 0 * 2 ^ 24 + hw.rd d A.stop_cause 0 * 2 ^ 16 + hw.rd d A.hs_out 0 % 8 * 2 ^ 8]), hw)

end Sys2Proof.Machine
end

