-- ==== Sys2Proof/Machine/Fire.lean ====
section
/-!
DEFINITION. Line triggering and fire timing (spec/05_fire_timing.md): line-engine states, arming and retiming, fire and drop
decisions, commit deadlines, speed limit, the press handshake inputs and LE_CTRL.
-/
namespace Sys2Proof.Machine

/-! ### Floors and limits (R156, R159) -/

/-- The floors of R156 in ns: commit lead and minimum fire period, by generation and greyscale. -/
def fireFloors (gen g4 : Nat) : Nat × Nat :=
  match gen, g4 with
  | 1, 0 => (41460, 50000)
  | 1, _ => (82420, 100000)
  | 2, 0 => (10740, 15625)
  | 2, _ => (20980, 31250)
  | _, 0 => (5620, 7813)
  | _, _ => (10740, 15625)

/-- The floors of a port at its present generation and greyscale. -/
def Hw.floors (h : Hw) (d p : Nat) : Nat × Nat := fireFloors (h.rd d A.hp_gen p) (h.rd d A.greyscale p)

/-- `min_fire_period_ns` and `commit_lead_ns` in force (R156). -/
def Hw.minPeriod (h : Hw) (d p : Nat) : Nat := max (h.rd d A.min_fire_period_ns (p + 1)) (h.floors d p).2
def Hw.commitLead (h : Hw) (d p : Nat) : Nat := max (h.rd d A.commit_lead_ns (p + 1)) (h.floors d p).1

/-- A port can fire: enabled and not in FAULT (R159, R200). -/
def Hw.portLive (h : Hw) (d p : Nat) : Bool := h.rd d A.hp_enable p == 1 && h.rd d A.hp_state p != 5

/-- *v*_lim in µm/s (R159) as a fraction, none when no enabled port is outside FAULT. -/
def Hw.vLimitFrac (h : Hw) (d : Nat) : Option (Nat × Nat) :=
  let ms := ((List.range 24).filter (h.portLive d)).map (h.minPeriod d)
  match ms.foldl max 0 with
  | 0 => none
  | m => some (h.sNow d * h.rd d A.line_pitch 0 * 10 ^ 6, 2 ^ 62 * m)

/-- *v*_lim in whole µm/s, rounded down (assumption log 64). -/
def Hw.vLimit (h : Hw) (d : Nat) : Option Nat := (h.vLimitFrac d).map fun x => x.1 / x.2

/-- `speed_limit` (R159): all ones when unlimited. -/
def Hw.speedLimit (h : Hw) (d : Nat) : Nat := satNat 0xFFFFFFFF ((h.vLimit d).getD 0xFFFFFFFF)

/-- SPEED_HI at a pair (R159): its thresholds are compared exactly. -/
def Hw.speedHi (h : Hw) (d : Nat) : Hw :=
  let q := (h.pos d).newest
  let fig := 1000 * q.speed + q.accel * h.rd d A.speed_lookahead_ms 0
  let on := bit (h.rd d A.hs_out 0) 3
  let lim := h.vLimitFrac d
  let h := h.wr d A.speed_limit 0 (h.speedLimit d)
  let want := match lim with
    | none => false
    | some (x, y) => decide ((((if on then 93 else 95) * 10 * x : Nat) : Int) ≤ y * fig)
  if want = on then h
  else (h.setReq d 3 want).event d Ev.leSpeedHi
    (leBytes 1 (b2n (!want)) ++ leInt 4 q.speed ++ leInt 4 q.accel ++ leBytes 4 (h.rd d A.speed_limit 0))

/-! ### Arming (R147, R151, R157) -/

/-- Nothing of the die is armed. -/
def Hw.disarm (h : Hw) (d : Nat) : Hw := h.onDie d fun D => { D with ports := D.ports.map fun P => { P with arms := [] } }

/-- The arming bound of a context on a port (R289): below the stop slot, or targets before *Z*_c. -/
def Hw.armBound (h : Hw) (d : Nat) (c : Ctx) (p k : Nat) : Bool :=
  match c.stopSlots with
  | some es => decide (k < es.getD p 0)
  | none =>
    match h.dataEnd32 d c with
    | some z => decide (h.target d c k p 0 (h.sNow d) < z)
    | none => true

/-- The fire point lies no more than `predict_horizon` counts beyond the pair (R147). -/
def Hw.inHorizon (h : Hw) (d : Nat) (t : Int) : Bool :=
  let q := (h.pos d).newest
  let nm := h.rd d A.scale ((h.posCh d).getD 0)
  decide ((t - 8 * (q.tb1 : Int)) * q.speed * 2 ^ 40 ≤ (h.rd d A.predict_horizon 0 * nm * 8 * 10 ^ 6 : Nat))

/-- The pair allows arming (R147). -/
def Pair.armable (q : Pair) : Bool := q.fwd && !q.still && !q.los && decide (0 < q.speed)

/-- The lateness that R157 gives line `k` (units of 125 ps). -/
def Hw.periodLate (h : Hw) (d : Nat) (c : Ctx) (k p : Nat) : Nat :=
  let P := h.port d p
  match h.tFire d c k p 0 with
  | some t =>
    if P.firedOnce then ((h.rd d A.last_fire_time (p + 1) + 8 * h.minPeriod d p : Nat) - t : Int).toNat else 0
  | none => 0

/-- One row group armed, or armed again under R151. -/
def Hw.armOne (h : Hw) (d p : Nat) (c : Ctx) (k g late : Nat) : Hw :=
  match h.tFire d c k p g with
  | none => h
  | some t =>
    let t' := (t + late).toNat
    let P := h.port d p
    match P.arms.find? fun a => a.ctx = c.num ∧ a.k = k ∧ a.g = g with
    | some a =>
      let move := (t' : Int) - a.t
      if h.rd d A.retime_tol_ps 0 < move.natAbs * 125 ∧ h.now8 d + 8 * h.rd d A.arm_lock_ns 0 < a.t then
        (h.onPort d p fun P => { P with arms := P.arms.map fun x => if x = a then { x with t := t', late := late } else x }).add
          d A.rearms 0
      else h
    | none =>
      if h.inHorizon d t then h.onPort d p fun P => { P with arms := P.arms ++ [{ ctx := c.num, k := k, g := g, t := t', late := late }] }
      else h

/-- A port armed at the newest pair (R147): what is left of a fired line, then its first unfired line. -/
def Hw.armPort (h : Hw) (d p : Nat) : Hw :=
  if !h.portLive d p || 2 ≤ h.rd d A.le_state 0 || !(h.pos d).newest.armable then h
  else
    let n := h.rgCount d p
    let h : Hw := match (h.port d p).firing with
      | some f =>
        match h.ctx? d f.ctx with
        | some c => ((List.range n).filter fun g => f.g ≤ g).foldl (fun h g => h.armOne d p c f.k g f.late) h
        | none => h
      | none => h
    match h.portCtx d p with
    | none => h
    | some c =>
      let k := c.slotAt p
      let stale := match (h.port d p).slot? c.num k with
        | some x => x.stale.isSome
        | none => false
      if h.rd d A.le_state 0 != 1 || !h.ctxPrints d c.num || stale || !h.armBound d c p k then h
      else
        let late := h.periodLate d c k p
        let h : Hw := (List.range n).foldl (fun h g => h.armOne d p c k g late) h
        match (h.port d p).arms.find? fun a => a.ctx = c.num ∧ a.k = k ∧ a.g = 0 with
        | some a => h.wr d A.armed_time (p + 1) a.t
        | none => h

/-- Every port of a die armed. -/
def Hw.armAll (h : Hw) (d : Nat) : Hw := (List.range 24).foldl (fun h p => h.armPort d p) h

/-! ### States (R154, R155, R169) -/

/-- The rearm distance *D* in LPOS nm (R154). -/
def Hw.rearmDist (h : Hw) (d : Nat) : Nat :=
  h.rd d A.rearm_counts 0 * h.rd d A.scale ((h.posCh d).getD 0) * 2 ^ 30 / (2 ^ 40 * h.sNow d)

/-- Entry to REVERSED. -/
def Hw.reversed (h : Hw) (d : Nat) : Hw :=
  let h := ((h.disarm d).wr d A.le_state 0 3).add d A.reversals 0
  (h.event d Ev.leReversal (leInt 8 (h.rdS d A.hwm 0 64) ++ leInt 8 (h.lposNow d))).staleAll d 1

/-- Every printing context skips what lies in the past: one seam for all ports (R169). -/
def Hw.seamAll (h : Hw) (d : Nat) : Hw :=
  (h.printingCtxs d).foldl (fun h c =>
    let r := h.skipPast d c
    r.2.seam d c r.1.1 r.1.2) h

/-- The causes of HELD on a die (R155). -/
def Hw.heldCause (h : Hw) (d : Nat) : Bool :=
  (!h.hsIn.testBit 0 && h.rd d A.require_press_run 0 == 1) || h.hsIn.testBit 1

/-- The state machine of R155 and R169 at a new pair. -/
def Hw.leState (h : Hw) (d : Nat) : Hw :=
  let q := (h.pos d).newest
  let hwm := h.rdS d A.hwm 0 64
  let dist : Int := h.rearmDist d
  match h.rd d A.le_state 0 with
  | 1 =>
    if q.fwd then h
    else
      let h := (h.disarm d).wr d A.le_state 0 2
      if (h.die d).hwmOn ∧ dist ≤ hwm - q.lpos then h.reversed d else h
  | 2 =>
    if dist ≤ hwm - q.lpos then h.reversed d
    else if q.fwd then h.wr d A.le_state 0 1 else h
  | 3 =>
    if q.fwd ∧ hwm < q.lpos then
      (h.wr d A.le_state 0 1).event d Ev.leResume (leInt 8 hwm ++ leInt 8 q.lpos)
    else h
  | 4 | 5 =>
    if (h.die d).leaving ∧ q.fwd ∧ !q.still then
      let h := h.onDie d fun D => { D with leaving := false }
      if (h.die d).hwmOn ∧ q.lpos ≤ hwm - dist then h.reversed d else (h.wr d A.le_state 0 1).seamAll d
    else h
  | _ => h

/-- HWM at a pair published while a context prints (R154, R155, R265). -/
def Hw.raiseHwm (h : Hw) (d : Nat) : Hw :=
  let q := (h.pos d).newest
  if h.rd d A.le_state 0 = 4 ∨ h.rd d A.le_state 0 = 5 then h
  else if !(h.die d).hwmOn then (h.wrS d A.hwm 0 64 q.lpos).onDie d fun D => { D with hwmOn := true }
  else if h.rdS d A.hwm 0 64 < q.lpos then h.wrS d A.hwm 0 64 q.lpos else h

/-- HELD entered: every armed slot disarmed, latched slots stale (R155, R211). -/
def Hw.enterHeld (h : Hw) (d : Nat) : Hw :=
  (((h.disarm d).wr d A.le_state 0 4).onDie d fun D => { D with leaving := false }).staleAll d 2

/-- HELD and its end as the inputs stand (R155). -/
def Hw.holdCheck (h : Hw) (d : Nat) : Hw :=
  let st := h.rd d A.le_state 0
  if !h.printing d ∨ st = 5 then h
  else if h.heldCause d then (if st = 4 then h.onDie d fun D => { D with leaving := false } else h.enterHeld d)
  else if st = 4 then h.onDie d fun D => { D with leaving := true } else h

/-- A context starts printing on an idle engine: a printing period begins in RUN, HELD or ESTOP (R155, R265). -/
def Hw.startEngine (h : Hw) (d : Nat) : Hw :=
  let h := if h.hsForce.isSome then { h with hsForce := none }.showPins else h
  if h.rd d A.le_state 0 = 0 then
    let h := (h.wr d A.le_state 0 1).onDie d fun D => { D with hwmOn := false, leaving := false }
    if h.hsIn.testBit 2 then h.wr d A.le_state 0 5 else h.holdCheck d
  else h

/-- The ports of a die show IDLE or PRINT by their contexts (`hp_state`). -/
def Hw.refreshPorts (h : Hw) (d : Nat) : Hw :=
  (List.range 24).foldl (fun h p =>
    let st := h.rd d A.hp_state p
    if st = 1 ∨ st = 2 then
      h.wr d A.hp_state p (if (h.printingCtxs d).any fun c => c.ports.testBit p && !h.portEnded d c p then 2 else 1)
    else h) h

/-- R294: the first forward pair after STOP_REQ has fallen returns stopped contexts to PRINTING with one seam. -/
def Hw.resumeCtxs (h : Hw) (d : Nat) : Hw :=
  let q := (h.pos d).newest
  if !(h.die d).stop.resume ∨ h.hsPins.testBit 1 ∨ !q.fwd ∨ q.still then h
  else
    let h := h.onDie d fun D => { D with stop := { D.stop with resume := false } }
    ((h.die d).ctxs.filter fun c => c.resume && h.ctxState d c.num == ctxSTOPPED).foldl (fun h c =>
      let h := h.onCtx d c.num fun x => { x with resume := false, stopSlots := none }
      let h := (h.ctxTo d c.num ctxPRINTING).startEngine d
      let c := (h.ctx? d c.num).getD c
      let r := h.skipPast d c
      let h := r.2.seam d c r.1.1 r.1.2
      h.event d Ev.ctxResume (leBytes 1 c.num ++ leBytes 4 (h.rd d A.stop_line c.num) ++ leBytes 4 r.1.2)) h

/-- The line engine at a new pair (R147): resume, states, HWM, speed, runway and stop, arming. -/
def Hw.lePair (h : Hw) (d : Nat) : Hw :=
  let q := (h.pos d).newest
  let h := if q.still then h.staleAll d 0 else h
  let h := (h.resumeCtxs d).refreshPorts d
  let h := if h.printing d then ((h.leState d).raiseHwm d) else h
  let h := ((h.speedHi d).runwayEval d).stopLeave d
  let h := ((h.standstillCheck.backupReached d).refreshPorts d)
  h.armAll d

/-! ### Fire and drop (R148 to R153, R158, R161) -/

/-- The context of the port left its slot `k` behind: dropped for speed or data, or fired. -/
def Hw.dropSlot (h : Hw) (d p : Nat) (c : Ctx) (k : Nat) : Hw :=
  let h := h.onPort d p fun P =>
    { P with slots := P.slots.filter fun x => !(x.ctx = c.num ∧ x.k = k),
             arms := P.arms.filter fun a => !(a.ctx = c.num ∧ a.k = k) }
  if c.slotAt p = k then (h.advance d p c k).armPort d p
  else h.onPort d p fun P => { P with slots := P.slots ++ [{ ctx := c.num, k := k, st := .dropped }] }

/-- A line dropped for data (R161); slots of a spit band write no defect record (R198). -/
def Hw.dropData (h : Hw) (d p : Nat) (c : Ctx) (k : Nat) : Hw :=
  let band := ((h.port d p).bandAt c.num k).isSome
  let h := h.add d A.drops_data 0
  let h := if band then h else h.defect d 2 c.num p 1 0 k
  ((h.lineFault d c.num k k).event d Ev.leDataLate (leBytes 1 p ++ leBytes 1 c.num ++ leBytes 4 k)).dropSlot d p c k

/-- A line dropped for speed with lateness `late` in units of 125 ps (R158). -/
def Hw.dropSpeed (h : Hw) (d p : Nat) (c : Ctx) (k late : Nat) : Hw :=
  let band := ((h.port d p).bandAt c.num k).isSome
  let h := h.add d A.drops_speed 0
  let h := if band then h else h.defect d 1 c.num p 1 (late / 8) k
  ((h.lineFault d c.num k k).event d Ev.leDrop (leBytes 1 p ++ leBytes 1 c.num ++ leBytes 4 k ++ leBytes 4 (late / 8))).dropSlot d p c k

/-- A FIRE pulse of row group `g` at `t` (R149, R186, R187). -/
def Hw.pulseFire (h : Hw) (d p g t : Nat) : Hw :=
  ((h.emit (.fire d p g t)).onPort d p fun P => { P with lastPulse := t }).add d A.fire_pulses p

/-- LAT of a slot that waits in the shift registers, once the previous slot's pulses are done (R186, steps 3 and 4). -/
def Hw.latchNext (h : Hw) (d p : Nat) : Hw :=
  let P := h.port d p
  if P.firing.isSome ∨ P.slots.any (fun x => x.st = .shifted) then h
  else
    match P.slots.find? fun x => x.inRegs ∧ x.st = .staged with
    | none => h
    | some x =>
      let hold := P.lastPulse + 8 * (h.rd d A.fire_width_ns p + h.rd d A.fire_hold_ns p)
      let rise := max (P.shiftEnd + 80) (if P.lastPulse = 0 then 0 else hold)
      let h := h.onPort d p fun P =>
        { P with latchKnown := true, slots := P.slots.map fun y =>
            if y.ctx = x.ctx ∧ y.k = x.k then { y with st := .shifted, inRegs := false, stale := none, latAt := rise + 320 } else y }
      (h.emit (.latch d p x.k)).showPort d p

/-- The first pulse of slot `k` due (R158, R161, R188): in time only when staged; held back until its LAT has fallen. -/
def Hw.judgeLine (h : Hw) (d p : Nat) (c : Ctx) (a : Arm) : Hw :=
  match (h.port d p).slot? c.num a.k with
  | none => h.dropData d p c a.k
  | some x =>
    if x.st = .prepared then h.dropData d p c a.k
    else if x.st ≠ .shifted ∨ x.stale.isSome ∨ !(h.port d p).latchKnown then h
    else
      let P := h.port d p
      let spaced := if P.lastPulse = 0 then 0 else P.lastPulse + 8 * h.rd d A.fire_spacing_ns p
      let t := max (max a.t (h.now8 d)) (max spaced (x.latAt + 8 * h.rd d A.lat_setup_ns p))
      let late := t - (a.t - a.late)
      if 8 * h.rd d A.late_budget_ns (p + 1) < late then h.dropSpeed d p c a.k late
      else
        let ns := late / 8
        let h := if late = 0 then h else h.add d A.late_fires 0
        let h := if h.rd d A.max_late_ns 0 < ns then h.wr d A.max_late_ns 0 ns else h
        let h := (h.wr d A.last_fire_time (p + 1) t).wr d A.last_late_ns (p + 1) ns
        let n := h.rgCount d p
        let h := h.pulseFire d p 0 t
        let h := h.onPort d p fun P =>
          { P with firedOnce := true, firing := if 1 < n then some { ctx := c.num, k := a.k, g := 1, late := a.late } else none,
                   arms := P.arms.filter (fun y => y ≠ a),
                   slots := if 1 < n then P.slots else P.slots.filter fun y => !(y.ctx = c.num ∧ y.k = a.k) }
        ((h.advance d p c a.k).latchNext d p).armPort d p

/-- A later row-group pulse of a fired line (R149, R153, R186, step 6). -/
def Hw.laterPulse (h : Hw) (d p : Nat) (f : Firing) (a : Arm) : Hw :=
  let P := h.port d p
  let t := max (max a.t (h.now8 d)) (P.lastPulse + 8 * h.rd d A.fire_spacing_ns p)
  let h := h.pulseFire d p f.g t
  let last : Bool := h.rgCount d p ≤ f.g + 1
  let h := h.onPort d p fun P =>
    { P with firing := if last then none else some { f with g := f.g + 1 }, arms := P.arms.filter (fun y => y ≠ a),
             slots := if last then P.slots.filter fun y => !(y.ctx = f.ctx ∧ y.k = f.k) else P.slots }
  if last then (h.latchNext d p).prepare d p else h

/-- An armed time of a port is reached: a later pulse of the slot that fires, or the line of the next slot is judged. -/
def Hw.timerAt (h : Hw) (die port : Nat) (a : Arm) : Hw :=
  match (h.port die port).firing with
  | some f => if f.ctx = a.ctx ∧ f.k = a.k then h.laterPulse die port f a else h
  | none =>
    match h.portCtx die port with
    | some c => if c.num = a.ctx ∧ c.slotAt port = a.k then h.judgeLine die port c a else h
    | none => h

/-- The earliest armed time of a port. -/
def Hw.timerMatch (h : Hw) (die port : Nat) : Hw :=
  let arms := (h.port die port).arms
  match arms.find? fun a => arms.all fun b => a.t ≤ b.t with
  | none => h
  | some a => ((((h.until die (a.t * ps125)).timerAt die port a).stopTests die).refreshPorts die)

/-- FIRE_TIMER_MATCH (R150, R153, R158): the earliest armed time of a port is reached. -/
def execFireTimerMatch (die port : Nat) (s : State) : Host.Outcome State Fault Refusal :=
  s.onUnit die port 24 fun _ h => h.timerMatch die port

/-- COMMIT_DEADLINE (R160, R161): the deadline of a slot is recognised; a slot not staged is dropped for data. No deadline
runs outside RUN, without a prediction, or beyond the arming bound (R289). -/
def execCommitDeadline (die port slot : Nat) (s : State) : Host.Outcome State Fault Refusal :=
  s.onUnit die port 24 fun _ h =>
    match h.portCtx die port with
    | none => h
    | some c =>
      if slot < c.slotAt port ∨ !h.ctxPrints die c.num ∨ h.rd die A.le_state 0 ≠ 1 ∨ !h.portLive die port ∨
          !h.armBound die c port slot ∨ (h.tFire die c slot port 0).isNone then h
      else
        match (h.port die port).slot? c.num slot with
        | some x => if x.st = .prepared then (h.dropData die port c slot).refreshPorts die else h
        | none => (h.dropData die port c slot).refreshPorts die

/-! ### The press handshake inputs (R165 to R168, R578, R523) -/

/-- Parked spitting ended by HEAD_PARKED low (0) or ESTOP (1) (R197). -/
def Hw.spitAbort (h : Hw) (d cause : Nat) : Hw :=
  let jobs := (h.die d).spits
  let h := h.onDie d fun D => { D with spits := [] }
  let h := jobs.foldl (fun h j =>
    let h := j.ports.foldl (fun h x => h.wr d A.hp_state x.1 1) h
    h.event d Ev.hpSpitAbort (leBytes 4 ((j.ports.map (2 ^ ·.1)).sum) ++ leBytes 4 ((j.ports.map (·.2)).foldl max 0) ++ leBytes 1 cause)) h
  h.refreshPorts d

/-- The accepted inputs shown on every die (`hs_in`). -/
def Hw.showIn (h : Hw) : Hw := (List.range h.n).foldl (fun h d => h.wr d A.hs_in 0 h.hsIn) h

/-- An input's accepted level: answers whether it is a change, or the first acceptance (R166, R578). -/
def Hw.acceptIn (h : Hw) (i : Nat) (b : Bool) : Bool × Hw :=
  if !h.hsOn ∨ (h.hsSeen.testBit i ∧ h.hsIn.testBit i = b) then (false, h)
  else (true, { h with hsIn := putBit h.hsIn i b, hsSeen := h.hsSeen ||| 2 ^ i }.showIn)

/-- Some die of the package is in ESTOP. -/
def Hw.anyEstop (h : Hw) : Bool := (List.range h.n).any fun d => h.rd d A.le_state 0 == 5

/-- ESTOP released on every die (R167, R169): IDLE, HELD, or the first forward pair is awaited. -/
def Hw.estopRelease (h : Hw) : Hw :=
  let h := h.eventPkg h.leadDie Ev.leEstop [2]
  (List.range h.n).foldl (fun h d =>
    if h.rd d A.le_state 0 ≠ 5 then h
    else if !h.printing d then h.wr d A.le_state 0 0
    else if h.heldCause d then h.enterHeld d
    else h.onDie d fun D => { D with leaving := true }) { h with ghRelease := false }

/-- PRESS_RUN accepted at a level (R166, R523). -/
def Hw.pressRun (h : Hw) (level : Bool) : Hw :=
  let r := h.acceptIn 0 level
  if !r.1 then h
  else
    let h := r.2.eventPkg r.2.leadDie Ev.lePressRun (leBytes 1 (b2n level))
    let h := if level ∧ h.mode = .gatehouse ∧ h.ghRelease ∧ !h.hsIn.testBit 2 then h.estopRelease
      else if !level ∧ !h.hsIn.testBit 2 ∧ h.anyEstop then { h with ghRelease := true }
      else h
    (List.range h.n).foldl (fun h d => h.holdCheck d) h

/-- HEAD_PARKED accepted at a level (R166, R197). -/
def Hw.headParked (h : Hw) (level : Bool) : Hw :=
  let r := h.acceptIn 1 level
  if !r.1 then h
  else
    let h := r.2.eventPkg r.2.leadDie Ev.leHeadParked (leBytes 1 (b2n level))
    (List.range h.n).foldl (fun h d => (if level then h else h.spitAbort d 0).holdCheck d) h

/-- E_STOP_L low accepted (R167): every die enters ESTOP and gives no further pulse. -/
def Hw.estop (h : Hw) : Hw :=
  let r := h.acceptIn 2 true
  if !r.1 then h
  else
    let h := { r.2 with ghRelease := false }.eventPkg r.2.leadDie Ev.leEstop [0]
    (List.range h.n).foldl (fun h d =>
      let h := if h.printing d ∧ h.rd d A.le_state 0 ≠ 5 then h.staleAll d 3 else h
      let h := ((h.disarm d).wr d A.le_state 0 5).onDie d fun D => { D with leaving := false }
      h.spitAbort d 1) h

/-- E_STOP_ACCEPT (R166, R167). -/
def execEStopAccept (s : State) : Host.Outcome State Fault Refusal := s.onPkg fun _ h => h.estop

/-- E_STOP_RELEASE_ACCEPT (R166): ESTOP stays in force; in GATEHOUSE the release of R523 is prepared. -/
def execEStopReleaseAccept (s : State) : Host.Outcome State Fault Refusal :=
  s.onPkg fun _ h =>
    let r := h.acceptIn 2 false
    if !r.1 then h else { r.2 with ghRelease := !r.2.hsIn.testBit 0 && h.anyEstop }.eventPkg r.2.leadDie Ev.leEstop [1]

/-! ### LE_CTRL and LE_STATUS (R172) -/

/-- LE_RESUME: LE_CTRL RESUME. -/
def execLeResume (h : Hdr) (s : State) : Host.Outcome State Fault Refusal :=
  s.command h 0x0301 (opObj 0x0301 0) fun _ _ hw =>
    if !((List.range hw.n).all fun d => hw.rd d A.le_state 0 == 5) || hw.hsIn.testBit 2 then refuse .state hw
    else okWith hw.estopRelease

/-- HS_FORCE: LE_CTRL HS_FORCE. -/
def execHsForce (h : Hdr) (levels : Nat) (s : State) : Host.Outcome State Fault Refusal :=
  s.command h 0x0301 (opObj 0x0301 0) fun _ _ hw =>
    if 32 ≤ levels then refuse .range hw
    else if (List.range hw.n).any hw.printing then refuse .state hw
    else okWith { hw with hsForce := some levels }.showPins

/-- HS_RELEASE: LE_CTRL HS_RELEASE. -/
def execHsRelease (h : Hdr) (s : State) : Host.Outcome State Fault Refusal :=
  s.command h 0x0301 (opObj 0x0301 0) fun _ _ hw => okWith { hw with hsForce := none }.showPins

/-- LE_STATUS: line-engine state and newest position in one core cycle. -/
def execLeStatus (h : Hdr) (s : State) : Host.Outcome State Fault Refusal :=
  s.command h 0x0302 (opObj 0x0302 0) fun _ d hw =>
    (.words ([hw.rd d A.le_state 0, hw.rd d A.hs_in 0 * 2 ^ 8 + hw.hsPins] ++ words64 (hw.rd d A.hwm 0) ++
      words64 (ofSigned 64 (hw.pos d).newest.lpos) ++ [hw.speedLimit d]), hw)

end Sys2Proof.Machine
end

