-- ==== Sys2Proof/Machine/Heads.lean ====
section
/-!
DEFINITION. Head ports and dot delivery (spec/06_head_ports.md): shifting and latching, shifting again, queries, spitting,
port faults, HP_CTRL, HP_QUERY and HP_SPIT.
-/
namespace Sys2Proof.Machine

/-! ### A slot on the wire (R177, R183, R184, R186) -/

/-- The bits of the levels of a lane in the order sent: nozzles in shift order, nozzle-major or plane-major. -/
def laneBits (w : Nat) (planes lowFirst : Bool) (levels : List Nat) : List Bool :=
  let l := if lowFirst then levels else levels.reverse
  let ws := (List.range w).reverse
  if planes then ws.flatMap fun b => l.map (·.testBit b) else l.flatMap fun v => ws.map (v.testBit ·)

/-- Bits per nozzle at a port's greyscale. -/
def Hw.bitsPer (h : Hw) (d p : Nat) : Nat := if h.rd d A.greyscale p = 1 then 4 else 2

/-- The shift time of a line in units of 125 ps (R177). -/
def Hw.shiftTime (h : Hw) (d p : Nat) : Nat :=
  let n := h.rd d A.nozzles p * h.bitsPer d p
  match h.rd d A.hp_gen p with
  | 1 => n * 40
  | 2 => n / 2 * 20
  | _ => n / 2 * 10

/-- The levels of a line put on the data lanes (R183). -/
def Hw.sendLine (h : Hw) (d p k : Nat) (levels : List Nat) : Hw :=
  let f := laneBits (h.bitsPer d p) (h.rd d A.bit_planes p = 1) (h.rd d A.shift_order p = 1)
  let n := h.rd d A.nozzles p / 2
  let h := if h.rd d A.hp_gen p = 1 then h.emit (.shift d p k (f levels) [])
    else h.emit (.shift d p k (f (levels.take n)) (f (levels.drop n)))
  let h := h.onPort d p fun P => { P with shiftEnd := h.now8 d + h.shiftTime d p }
  h.add d A.lines_shifted p

/-- The end of a shift of a port over LVDS: the slot in the registers latches, or the next one is sent and latches. -/
def Hw.slotShift (h : Hw) (die port : Nat) : Hw :=
  if !h.portLive die port ∨ h.rd die A.hp_state port = 3 ∨ h.rd die A.hp_state port = 4 then h
  else if (h.port die port).slots.any (fun x => x.inRegs) then h.latchNext die port
  else
    match h.nextShift die port with
    | none => h
    | some x =>
      let h := h.sendLine die port x.k x.levels
      let h := h.onPort die port fun P => { P with slots := P.slots.map fun y => if y = x then { y with inRegs := true, stale := none } else y }
      h.latchNext die port

/-- SLOT_SHIFT (R186): the next staged slot is shifted, and latched once the slot before it is done. -/
def execSlotShift (die port t : Nat) (s : State) : Host.Outcome State Fault Refusal :=
  s.onUnit die port 24 fun _ h => (h.until die t).slotShift die port

/-- STALE_RESHIFT (R190, R211): a stale slot is shifted again, and latched again when it had been latched. -/
def execStaleReshift (die port : Nat) (s : State) : Host.Outcome State Fault Refusal :=
  s.onUnit die port 24 fun _ h =>
    let q := (h.pos die).newest
    let P := h.port die port
    if !h.portLive die port ∨ h.rd die A.le_state 0 ≠ 1 ∨ !q.fwd ∨ q.still then h
    else
      match P.slots.find? fun x => x.stale.isSome with
      | none => h
      | some x =>
        let h := h.sendLine die port x.k x.levels
        let was := x.st = .shifted
        let h := h.onPort die port fun P =>
          { P with latchKnown := P.latchKnown || was, slots := P.slots.map fun y =>
              if y = x then { y with stale := none, inRegs := !was, latAt := if was then P.shiftEnd + 400 else y.latAt }
              else if was ∧ y.inRegs then { y with inRegs := false, stale := none } else y }
        let h := if was then h.emit (.latch die port x.k) else h
        let h := (h.add die A.reshifts port).add die A.stale_reshifts 0
        let h := h.event die Ev.plStaleReshift (leBytes 1 port ++ leBytes 4 x.k ++ leBytes 1 (x.stale.getD 0))
        h.armPort die port

/-! ### Queries (R191 to R195) -/

/-- A port's latch counts as unknown (R176), its latched slots as stale (R211). -/
def Hw.latchLost (h : Hw) (d p : Nat) : Hw := h.onPort d p fun P => { (P.makeStale 4) with latchKnown := false }

/-- The queries of an enable or a restart (R194): IDENT and TEMP 0. -/
def enableQueries : List Query := [⟨1, 0, 16, none⟩, ⟨2, 0, 2, none⟩]

/-- An enabled port's first state: QUERY while it has queries to make, else IDLE or PRINT. -/
def Hw.portUp (h : Hw) (d p : Nat) : Hw :=
  let qs := if h.rd d A.query_on_enable p = 1 then enableQueries else []
  let h := (h.latchLost d p).onPort d p fun P => { P with queries := P.queries ++ qs, queryFails := 0 }
  if (h.port d p).queries.isEmpty then (h.wr d A.hp_state p 1).refreshPorts d else h.wr d A.hp_state p 4

/-- Ports leave SPIT. -/
def Hw.spitOff (h : Hw) (d : Nat) (ports : List Nat) : Hw :=
  (ports.foldl (fun h p => if h.rd d A.hp_state p = 3 then (h.latchLost d p).wr d A.hp_state p 1 else h) h).refreshPorts d

/-- Ports taken out of parked spitting; a count that the ports left have completed is done (R204). -/
def Hw.spitDrop (h : Hw) (d : Nat) (gone : Nat → Bool) : Hw :=
  let jobs := ((h.die d).spits.map fun j => { j with ports := j.ports.filter fun x => !gone x.1 }).filter fun j => !j.ports.isEmpty
  let over_ (j : SpitJob) : Bool := j.lines != 0 && j.ports.all fun x => decide (j.lines ≤ x.2)
  let h := h.onDie d fun D => { D with spits := jobs.filter (!over_ ·) }
  (jobs.filter over_).foldl (fun (h : Hw) j =>
    (h.event d Ev.hpSpitDone (leBytes 4 ((j.ports.map (2 ^ ·.1)).sum) ++ leBytes 4 j.lines)).spitOff d (j.ports.map (·.1))) h

/-- The queries of a port given up: HP_QUERY is answered with NO_RESPONSE. -/
def Hw.dropQueries (h : Hw) (d p : Nat) : Hw :=
  let h := (h.port d p).queries.foldl (fun h q => match q.asker with
    | some a => h.putReply a.1 a.2 ⟨.ok, wordBytes [256] ++ List.replicate 32 0⟩
    | none => h) h
  h.onPort d p fun P => { P with queries := [] }

/-- A port enters FAULT (R199, R200). -/
def Hw.portFault (h : Hw) (d p b : Nat) : Hw :=
  let f := match h.portCtx d p with
    | some c => c.slotAt p
    | none => 0
  let h := h.wr d A.hp_fault p (h.rd d A.hp_fault p ||| 2 ^ b)
  if h.rd d A.hp_state p = 5 then h
  else
    let h := h.wr d A.hp_state p 5
    let h := h.onPort d p fun P =>
      { P with arms := [], firing := none, latchKnown := false, lost := some (f, 0), slots := P.slots.filter (fun x => x.st = .prepared) }
    let h := (h.dropQueries d p).spitDrop d (· == p)
    let h := (h.event d Ev.hpFault (leBytes 1 p ++ leBytes 1 (h.rd d A.hp_fault p) ++ leBytes 4 f)).showPort d p
    if h.rd d A.fault_action p = 1 then h.startStop d 3 else h

/-- LVDS_FAULT (R199): the driver of pair `bit` of an enabled port. -/
def execLvdsFault (die port pair : Nat) (s : State) : Host.Outcome State Fault Refusal :=
  s.onUnit die port 24 fun _ h =>
    if h.rd die A.hp_enable port = 0 ∨ 5 ≤ pair then h else h.portFault die port pair

/-- What an answered query leaves (R193, R194). -/
def Hw.queryAnswer (h : Hw) (d p : Nat) (q : Query) (data : List Byte) : Hw :=
  let h := if h.rd d A.head_query p = 0 then h.wr d A.head_query p 1 else h
  if q.cmd = 1 then
    let old := (h.port d p).ident
    let h := (h.setBlk (rkey d A.head_id p) data).onPort d p fun P => { P with ident := data }
    if old = [] ∨ old = data then h
    else h.event d Ev.hpHeadChanged (leBytes 1 p ++ old.take 8 ++ data.take 8)
  else if q.cmd = 2 ∧ q.arg = 0 then (h.wr d A.head_temp p (leNat data)).wr d A.head_temp_tb1 p (h.tb d 1)
  else h

/-- The reply of HP_QUERY: result, length, data padded to 32 bytes. -/
def queryReply (result : Nat) (data : List Byte) : Reply :=
  ⟨.ok, wordBytes [result * 256 + data.length] ++ data ++ List.replicate (32 - data.length) 0⟩

/-- The end of the query under way: result 0 answered, 1 NO_RESPONSE, 2 CRC_FAIL (R192, R199). -/
def Hw.queryEnd (h : Hw) (d p : Nat) (q : Query) (result : Nat) (data : List Byte) : Hw :=
  let h := h.onPort d p fun P => { P with queries := P.queries.drop 1 }
  let supported := h.rd d A.head_query p = 1
  let bad := result = 2 ∨ (result = 1 ∧ supported)
  let h := if result = 0 then h.queryAnswer d p q data
    else if result = 1 ∧ h.rd d A.head_query p = 0 then h.wr d A.head_query p 2 else h
  let h := if bad then (h.add d A.query_errs p).event d Ev.hpQueryErr (leBytes 1 p ++ leBytes 1 q.cmd ++ leBytes 1 result) else h
  let h := h.onPort d p fun P => { P with queryFails := if result = 0 then 0 else P.queryFails + 1 }
  let h := match q.asker with
    | some a => h.putReply a.1 a.2 (queryReply result (if result = 0 then data else []))
    | none => h
  let h := h.latchLost d p
  if supported ∧ 3 ≤ (h.port d p).queryFails then h.portFault d p 7
  else if (h.port d p).queries.isEmpty then (h.wr d A.hp_state p 1).refreshPorts d else h

/-- HEAD_QUERY (R191 to R193): the query under way ends, with the start bit seen or not, the reply bytes and their CRC. -/
def execHeadQuery (die port : Nat) (start : Bool) (data : List Byte) (crc : Nat) (s : State) :
    Host.Outcome State Fault Refusal :=
  s.onUnit die port 24 fun _ h =>
    match (h.port die port).queries with
    | [] => h
    | q :: _ =>
      let bs := data.take q.len
      let ok := decide (bs.length = q.len) && crcMsb 8 0x07 (bs.flatMap fun b => bitsMsb 8 b.toNat) == crc
      h.queryEnd die port q (if !start then 1 else if ok then 0 else 2) bs

/-- HP_QUERY (R195): completes with the query's end. -/
def execHpQuery (h : Hdr) (port arg cmd len : Nat) (s : State) : Host.Outcome State Fault Refusal :=
  s.commandHold h 0x0402 (opObj 0x0402 port) fun _ d hw =>
    let known := (cmd = 1 ∧ arg = 0) ∨ (cmd = 2 ∧ arg < 4) ∨ (cmd = 3 ∧ arg = 0) ∨
      (0x80 ≤ cmd ∧ cmd < 256 ∧ arg < 256 ∧ 1 ≤ len ∧ len ≤ 32)
    if 24 ≤ port ∨ ¬known then (some (.err .range), hw)
    else if hw.rd d A.hp_state port ≠ 1 then (some (.err .state), hw)
    else
      let n := if cmd = 1 then 16 else if cmd < 0x80 then 2 else len
      (none, (hw.onPort d port fun P => { P with queries := P.queries ++ [⟨cmd, arg, n, some (h.origin, h.tag)⟩] }).wr d
        A.hp_state port 4)

/-! ### HP_CTRL (R201, R203) -/

/-- The offsets of a port do not decrease over its row groups (R182). -/
def Hw.rgOrdered (h : Hw) (d p : Nat) : Bool :=
  (List.range (h.rgCount d p - 1)).all fun g => decide (h.rd d ⟨0x06, 0x10 + g⟩ (p + 1) ≤ h.rd d ⟨0x06, 0x11 + g⟩ (p + 1))

/-- HP_CTRL acts on every named port or on none (R203): the first that fails, and why. -/
def hpCtrl (ports : Nat) (check : Nat → Option Status) (act : Hw → Nat → Hw) (h : Hw) : Reply × Hw :=
  if 2 ^ 24 ≤ ports then refuse .range h
  else
    match (portsOf ports).findSome? fun p => (check p).map fun st => (p, st) with
    | some (p, st) => (⟨st, wordBytes [p]⟩, h)
    | none => (.words [0xFF], (portsOf ports).foldl act h)

/-- HP_ENABLE. -/
def execHpEnable (h : Hdr) (ports : Nat) (s : State) : Host.Outcome State Fault Refusal :=
  s.command h 0x0401 (opObj 0x0401 (lowBit ports)) fun _ d hw =>
    hpCtrl ports (fun p => if hw.rd d A.hp_enable p = 1 then some .state else if !hw.rgOrdered d p then some .range else none)
      (fun hw p => (hw.wr d A.hp_enable p 1).portUp d p) hw

/-- A port disabled: OFF; the SEAM record of a port in FAULT is written (R200, R203). -/
def Hw.portOff (h : Hw) (d p : Nat) : Hw :=
  let c := ((h.portCtx d p).map (·.num)).getD 0
  let h := if h.rd d A.hp_state p = 5 then h.writeLost d c p else h
  let h := (((h.dropQueries d p).wr d A.hp_enable p 0).wr d A.hp_state p 0).wr d A.hp_fault p 0
  h.onPort d p fun P => { P with latchKnown := false, arms := [], firing := none, lost := none }

/-- HP_DISABLE. -/
def execHpDisable (h : Hdr) (ports : Nat) (s : State) : Host.Outcome State Fault Refusal :=
  s.command h 0x0401 (opObj 0x0401 (lowBit ports)) fun _ d hw =>
    hpCtrl ports (fun p => if hw.rd d A.hp_state p = 2 ∨ hw.rd d A.hp_state p = 3 then some .state else none)
      (fun hw p => hw.portOff d p) hw

/-- Slots of a port, from its first unfired one, whose commit deadline has passed (R201). -/
def Hw.missedSlots (h : Hw) (d : Nat) (c : Ctx) (p : Nat) : Nat :=
  let f := c.slotAt p
  let past (n : Nat) : Bool :=
    match h.tFire d c (f + n - 1) p 0 with
    | some t => t ≤ h.now8 d + 8 * h.commitLead d p
    | none => false
  (List.range 24).reverse.foldl (fun n i => if past (n + 2 ^ i) then n + 2 ^ i else n) 0

/-- Slots of a port in FAULT that pass are lost to the fault (R200, R201). -/
def Hw.loseSlots (h : Hw) (d p : Nat) (c : Ctx) (n : Nat) : Hw :=
  if n = 0 then h
  else
    let f := c.slotAt p
    let h := h.onPort d p fun P =>
      { P with lost := match P.lost with
          | some (a, m) => if m = 0 then some (f, n) else some (a, m + n)
          | none => some (f, n),
               slots := P.slots.filter fun x => !(x.ctx = c.num ∧ x.k < f + n) }
    (h.add d A.lines_lost p n).advance d p c (f + n - 1)

/-- At a pair, the slots of ports in FAULT that have passed are lost (R200). -/
def Hw.faultPass (h : Hw) (d : Nat) : Hw :=
  (List.range 24).foldl (fun h p =>
    match h.portCtx d p with
    | some c =>
      if h.rd d A.hp_enable p = 1 ∧ h.rd d A.hp_state p = 5 ∧ h.rd d A.le_state 0 = 1 ∧ h.ctxPrints d c.num then
        h.loseSlots d p c (h.pastSlots d c p)
      else h
    | none => h) h

/-- A port restarted (R201): resumed at the first slot whose commit deadline lies ahead. -/
def Hw.portRestart (h : Hw) (d p : Nat) : Hw :=
  let h := h.wr d A.hp_fault p 0
  match h.portCtx d p with
  | none => ((h.onPort d p fun P => { P with lost := none }).portUp d p).event d Ev.hpRecover (leBytes 1 p ++ leBytes 4 0)
  | some c =>
    let h := if h.ctxPrints d c.num ∧ h.rd d A.le_state 0 = 1 then h.loseSlots d p c (h.missedSlots d c p) else h
    let f := ((h.ctx? d c.num).map (·.slotAt p)).getD 0
    let h := ((h.writeLost d c.num p).portUp d p).event d Ev.hpRecover (leBytes 1 p ++ leBytes 4 f)
    h.prepare d p

/-- HP_RESTART (R201, R203): a port whose driver is still faulty keeps its FAULT. -/
def execHpRestart (h : Hdr) (ports bad : Nat) (s : State) : Host.Outcome State Fault Refusal :=
  s.command h 0x0401 (opObj 0x0401 (lowBit ports)) fun _ d hw =>
    hpCtrl ports (fun p => if hw.rd d A.hp_state p ≠ 5 ∨ bad.testBit p then some .state else none)
      (fun hw p => hw.portRestart d p) hw

/-! ### Spitting (R196 to R198, R204) -/

/-- Parked spitting begun (R196, R197). -/
def hpSpitBody (ports lines d : Nat) (hw : Hw) : Reply × Hw :=
  let st := hw.rd d A.le_state 0
  let bad (p : Nat) : Bool := [0, 5, 4, 3].contains (hw.rd d A.hp_state p) || (hw.rd d A.hp_state p == 2 && st != 4)
  if 2 ^ 24 ≤ ports ∨ 1000000 < lines then refuse .range hw
  else if !hw.hsIn.testBit 1 ∨ st = 5 ∨ st = 1 ∨ st = 2 ∨ st = 3 ∨ (portsOf ports).any bad then refuse .state hw
  else
    let hw := (portsOf ports).foldl (fun hw p => (hw.latchLost d p).wr d A.hp_state p 3) hw
    okWith (hw.onDie d fun D => { D with spits := D.spits ++ [{ ports := (portsOf ports).map (·, 0), lines := lines }] })

/-- HP_SPIT_PARKED. -/
def execHpSpitParked (h : Hdr) (ports lines : Nat) (s : State) : Host.Outcome State Fault Refusal :=
  s.command h 0x0403 (opObj 0x0403 (lowBit ports)) fun _ d hw => hpSpitBody ports lines d hw

/-- HP_SPIT_STOP. -/
def execHpSpitStop (h : Hdr) (ports : Nat) (s : State) : Host.Outcome State Fault Refusal :=
  s.command h 0x0403 (opObj 0x0403 (lowBit ports)) fun _ d hw =>
    if 2 ^ 24 ≤ ports then refuse .range hw
    else
      okWith ((hw.spitDrop d ports.testBit).spitOff d (portsOf ports))

/-- The pulses of a spit line, one for each row group. -/
def Hw.spitPulses (h : Hw) (d p t : Nat) : Hw :=
  (List.range (h.rgCount d p)).foldl (fun h g => h.pulseFire d p g (t + g * 8 * h.rd d A.fire_spacing_ns p)) h

/-- SPIT_LINE (R196, R197): the next spit line of a port is shifted, latched and fired at TB1 time `t`. -/
def execSpitLine (die port t : Nat) (s : State) : Host.Outcome State Fault Refusal :=
  s.onUnit die port 24 fun _ h =>
    let h := h.until die t
    match (h.die die).spits.find? fun j => j.ports.any fun x => x.1 = port with
    | none => h
    | some (j : SpitJob) =>
      let i : Nat := ((j.ports.find? fun x => x.1 = port).map (·.2)).getD 0
      if !h.hsIn.testBit 1 ∨ (List.range h.n).any (fun e => h.rd e A.le_state 0 == 5) ∨ (j.lines ≠ 0 ∧ j.lines ≤ i) then h
      else
        let lv := (List.range (h.rd die A.nozzles port)).map (h.spitLevel die port i)
        let h := (h.sendLine die port i lv).emit (.latch die port i)
        let h := (h.spitPulses die port (h.now8 die)).add die A.spit_lines port
        let j' : SpitJob := { j with ports := j.ports.map fun x => if x.1 = port then (port, i + 1) else x }
        if (j.lines != 0 && j'.ports.all (fun x => decide (j.lines ≤ x.2))) then
          let h := h.onDie die fun D => { D with spits := D.spits.filter fun x => x ≠ j }
          (h.event die Ev.hpSpitDone (leBytes 4 ((j.ports.map (2 ^ ·.1)).sum) ++ leBytes 4 j.lines)).spitOff die (j.ports.map (·.1))
        else h.onDie die fun D => { D with spits := D.spits.map fun x => if x = j then j' else x }

/-- HP_SPIT_WEB (R198, R213): a band in named slots of a host context. -/
def execHpSpitWeb (h : Hdr) (ctx ports first count : Nat) (s : State) : Host.Outcome State Fault Refusal :=
  s.command h 0x0403 (opObj 0x0403 (lowBit ports)) fun _ d hw =>
    if hw.bl = 1 ∨ 2 ^ 24 ≤ ports ∨ ctx = 0 ∨ 256 ≤ ctx ∨ count = 0 ∨ 65536 ≤ count ∨ 2 ^ 32 ≤ first then refuse .range hw
    else
      match hw.ctx? d ctx with
      | none => refuse .state hw
      | some c =>
        let st := hw.ctxState d ctx
        if st = ctxDONE ∨ st = ctxFAILED ∨ !((portsOf ports).all fun p => c.ports.testBit p) then refuse .state hw
        else
          let ps := portsOf ports
          let used := if hw.ctxPrints d ctx then hw.fixLine d ctx ps false first else first
          let e : Effect := { kind := 1, ctx := ctx, point := used }
          let (id, hw) := hw.defer d h false e
          let hw := ps.foldl (fun hw p => hw.onPort d p fun P => { P with bands := P.bands ++ [⟨id, ctx, used, count⟩] }) hw
          let hw := hw.plDefer d 2 ctx first used
          let hw := hw.squash d ctx ps used false
          (.deferred e, ps.foldl (fun hw p => hw.prepare d p) hw)

end Sys2Proof.Machine
end

