-- ==== Sys2Proof/Machine/Pipeline.lean ====
section
/-!
DEFINITION. The line pipeline and density tables (spec/07_line_pipeline.md): toning, bank swaps, Orangery builds, status.
-/
namespace Sys2Proof.Machine

/-! ### CRC-32C (R242) -/

/-- One bit of the reflected CRC. -/
def crcBit (c : Nat) : Nat := if c % 2 = 1 then (c / 2) ^^^ 0x82F63B78 else c / 2

/-- One byte of the CRC. -/
def crcByte (c : Nat) (b : Byte) : Nat := crcBit (crcBit (crcBit (crcBit (crcBit (crcBit (crcBit (crcBit (c ^^^ b.toNat))))))))

/-- CRC-32C of bytes (R242). -/
def crc32c (bs : List Byte) : Nat := (bs.foldl crcByte 0xFFFFFFFF) ^^^ 0xFFFFFFFF

/-! ### Swaps (R227, R233) -/

/-- Some port of the die has toned a line of context `c` at or after `line`. -/
def Hw.tonedFrom (h : Hw) (d c line : Nat) : Bool :=
  (h.die d).ports.any fun P => P.toned.any fun t => t.ctx = c ∧ line ≤ t.line

/-- The decision on a pending swap to bank `b` (R227): it takes effect from its line, or moves to the next page boundary. -/
def Hw.swapDecide (h : Hw) (d b : Nat) : Hw :=
  let c := h.rd d A.swap_context b
  let l := h.rd d A.swap_line b
  let id := ((h.bank d b).swapId).getD 0
  if h.rd d A.swap_pending b = 0 then h
  else if h.rd d A.bank_state b = 2 then
    let old := 1 - b
    let others := (h.printingCtxs d).filter fun x => x.num ≠ c
    let h := (h.wr d A.bank_state b 3).wr d A.bank_state old 4
    let h := h.onDie d fun D => { D with bankFrom :=
      (others.filterMap fun x => if D.bankFrom.any (fun y => y.2.1 = x.num) then none else some (old, x.num, 0)) ++
        (b, c, l) :: D.bankFrom }
    let h := (h.wr d A.swap_pending b 0).settle id 0
    let h := (h.bank d b).later.foldl (fun h i => h.settle i 0) h
    let h := h.onBank d b fun B => { B with swapId := none, later := [] }
    let h := if h.tonedFrom d c l then h.squash d c (List.range 24) l true else h
    let h := h.event d Ev.tbSwapDone (leBytes 1 b ++ leBytes 1 c ++ leBytes 4 l)
    let h := (List.range 24).foldl (fun h p => h.prepare d p) h
    h.retireBank d
  else
    let page := match h.ctx? d c with
      | some x => if x.page = 0 then 4096 else x.page
      | none => 4096
    let l' := (l / page + 1) * page
    let h := (h.wr d A.swap_line b l').add d A.swaps_late 0
    (h.movePoint id { kind := 1, ctx := c, point := l' }).event d Ev.tbSwapLate
      (leBytes 1 b ++ leBytes 1 c ++ leBytes 4 l ++ leBytes 4 l')

/-- The tone stage is about to tone line `k` of context `c`: swaps that name an earlier or this line are decided. -/
def Hw.swapsFor (h : Hw) (d c k : Nat) : Hw :=
  (List.range 2).foldl (fun h b =>
    if h.rd d A.swap_pending b = 1 ∧ h.rd d A.swap_context b = c ∧ h.rd d A.swap_line b ≤ k then h.swapDecide d b else h) h

/-- Line `k` of context `c` belongs to the run-ahead of a port (R206). -/
def Hw.lineAhead (h : Hw) (d p c k : Nat) : Bool :=
  let ahead := h.aheadSlots d p (h.portQueue d p) (h.rd d A.run_ahead 0)
  ahead.any fun x => x.1.num = c ∧ k + h.dMin d p ≤ x.2 ∧ x.2 ≤ k + h.dMax d p

/-- TB_SWAP_DECISION (R227): the tone stage has reached the swap's line on some port. -/
def execTbSwapDecision (die bank : Nat) (s : State) : Host.Outcome State Fault Refusal :=
  s.onUnit die bank 2 fun _ h =>
    let c := h.rd die A.swap_context bank
    let l := h.rd die A.swap_line bank
    let reached := (List.range 24).any fun p => (h.portQueue die p).any fun x =>
      x.num = c ∧ l + h.dMin die p < x.slotAt p + h.rd die A.run_ahead 0
    if h.rd die A.swap_pending bank = 1 ∧ (reached ∨ h.tonedFrom die c l) then h.swapDecide die bank else h

/-- The input level of nozzle `j` of port `p` of bar `b` on a test-page line (R528). -/
def testLevel (b p j line : Nat) : Nat :=
  if line < 384 then (if j % 16 = line / 24 then 3 else 0)
  else if line < 576 then 2
  else if line < 648 then 0
  else if line < 696 then (if p % 4 = 0 ∧ 232 + 448 * b ≤ j ∧ j ≤ 279 + 448 * b then 3 else 0)
  else if line < 768 then 0
  else if (4096 * p + j) / 512 % 8 = b then 1 + (line - 768) / 128 else 0

/-- A generated line of the test page for a port: margins blank (R527, R528). -/
def Hw.testLine (h : Hw) (d p line : Nat) : DecLine :=
  let n := h.rd d A.nozzles p
  let m := h.rd d A.xweb_margin 0
  { ctx := 0, line := line, g4 := false,
    cols := (List.range (n + 2 * m)).map fun i => if m ≤ i ∧ i < n + m then testLevel d p (i - m) (line % 1152) else 0 }

/-- The next line that a port can tone: decoded, or of the test page under way. -/
def Hw.lineToTone (h : Hw) (d p line : Nat) : Option DecLine :=
  let P := h.port d p
  let open_ (c : Nat) : Bool := h.lineAhead d p c line && !(P.toned.any fun t => t.ctx == c && t.line == line)
  match P.decoded.find? fun l => l.line == line && open_ l.ctx with
  | some l => some l
  | none => if h.gh.print.isSome ∧ open_ 0 then some (h.testLine d p line) else none

/-- TONE_LINE (R206, R215, R216, R219, R527): one image line of a port toned through the bank and shift in force for it. -/
def execToneLine (die port line : Nat) (s : State) : Host.Outcome State Fault Refusal :=
  s.onUnit die port 24 fun _ h =>
    match h.lineToTone die port line with
    | none => h
    | some l =>
      let h := h.swapsFor die l.ctx line
      let (v, lost, clamps) := h.toneLine die port l.ctx line l
      let h := h.onPort die port fun P =>
        { P with toned := P.toned ++ [{ ctx := l.ctx, line := line, bank := h.bankFor die l.ctx line, levels := v }] }
      let h := (h.add die A.spill_lost 0 lost).add die A.level_clamps 0 clamps
      let h := if h.rd die A.toned_max (port + 1) < line then h.wr die A.toned_max (port + 1) line else h
      h.prepare die port

/-- TB_SWAP's work (R213, R233, R66). -/
def tbSwapBody (q : Hdr) (ctx bank line d : Nat) (hw : Hw) : Reply × Hw :=
  let st := hw.ctxState d ctx
  if 2 ≤ bank ∨ ctx = 0 ∨ 256 ≤ ctx ∨ 2 ^ 32 ≤ line then refuse .range hw
  else if !([1, 2].contains (hw.rd d A.bank_state bank)) ∨ hw.rd d A.bank_state (1 - bank) ≠ 3 ∨
      st = ctxCLOSED ∨ st = ctxDONE ∨ st = ctxFAILED then refuse .state hw
  else
    let used := if hw.ctxPrints d ctx then hw.fixLine d ctx (List.range 24) true line else line
    let e : Effect := { kind := 1, ctx := ctx, point := used }
    let (id, hw) := hw.defer d q false e
    let hw := hw.plDefer d 0 ctx line used
    let pend := hw.rd d A.swap_pending bank = 1
    let earlier := hw.rd d A.swap_context bank = ctx ∧ used ≤ hw.rd d A.swap_line bank
    if pend ∧ ¬earlier then (.deferred e, hw.onBank d bank fun B => { B with later := B.later ++ [id] })
    else
      let hw := if pend then hw.supersede d (((hw.bank d bank).swapId).getD 0) q.tag else hw
      let hw := ((hw.wr d A.swap_pending bank 1).wr d A.swap_context bank ctx).wr d A.swap_line bank used
      let hw := hw.onBank d bank fun B => { B with swapId := some id }
      (.deferred e, if hw.tonedFrom d ctx used then hw.swapDecide d bank else hw)

/-- TB_SWAP (R213, R233, R66). -/
def execTbSwap (h : Hdr) (ctx bank line : Nat) (s : State) : Host.Outcome State Fault Refusal :=
  s.command h 0x0502 (opObj 0x0502 bank) fun _ d hw => tbSwapBody h ctx bank line d hw

/-- A context ends with a swap pending: it waits for the next context that the die prints (R227). -/
def Hw.endSwaps (h : Hw) (d c : Nat) : Hw :=
  (List.range 2).foldl (fun h b =>
    if h.rd d A.swap_pending b = 1 ∧ h.rd d A.swap_context b = c then (h.wr d A.swap_context b 0).wr d A.swap_line b 0 else h) h

/-- A context begins to print: it uses the ACTIVE bank, or a swap that waits for it from its first line (R224, R227). -/
def Hw.beginSwaps (h : Hw) (d c : Nat) : Hw :=
  let h := h.onDie d fun D => { D with bankFrom := D.bankFrom.filter fun x => x.2.1 ≠ c }
  (List.range 2).foldl (fun h b =>
    if h.rd d A.swap_pending b = 1 ∧ h.rd d A.swap_context b = 0 then
      (h.wr d A.swap_context b c).movePoint (((h.bank d b).swapId).getD 0) { kind := 1, ctx := c, point := 0 }
    else h) h

/-! ### The Orangery (R224 to R226, R232) -/

/-- The inputs of a build as they stand (R225). -/
def Hw.bankInputs (h : Hw) (d : Nat) : BankInput :=
  { gains := (List.range 64).map fun z => h.blkNum d A.zone_gain 0 (2 * z) 2, health := h.blk (rkey d A.health_map 0),
    base := h.blk (rkey d A.base_table 0), weights := (List.range 16).map fun l => h.blkNum d A.level_weight 0 l 1,
    g4 := (List.range 24).map fun p => h.rd d A.greyscale p == 1 }

/-- `level_weight` rises strictly from 0 to the highest level of a greyscale (R225). -/
def weightsRise (w : List Nat) (lmax : Nat) : Bool := (List.range lmax).all fun l => decide (w.getD l 0 < w.getD (l + 1) 0)

/-- A build passes its check for every enabled port (R225). -/
def Hw.buildOk (h : Hw) (d : Nat) (i : BankInput) : Bool :=
  (List.range 24).all fun p => h.rd d A.hp_enable p == 0 || weightsRise i.weights (if i.g4.getD p false then 15 else 3)

/-- Nozzles of a die. -/
def nozzleCount : Nat := 98304

/-- The bytes of a built bank (R218). -/
def bankBytes (i : BankInput) : List Byte := (List.range nozzleCount).flatMap fun j => leBytes 8 (bankEntry i j).1

/-- A build of bank `b` started (R225, R232). -/
def Hw.tbBuild (h : Hw) (d b id : Nat) : Hw :=
  (h.wr d A.bank_state b 1).onBank d b fun B => { B with input := some (h.bankInputs d), buildId := some id, buildAt := h.clk, torn := true }

/-- TB_BUILD's work (R225, R232). -/
def tbBuildBody (q : Hdr) (bank d : Nat) (hw : Hw) : Reply × Hw :=
  let st := hw.rd d A.bank_state bank
  if 2 ≤ bank then refuse .range hw
  else if ¬(st = 0 ∨ (st = 2 ∧ hw.rd d A.swap_pending bank = 0)) then refuse .state hw
  else
    let (id, r, hw) := hw.deferWork d q false
    (r, hw.tbBuild d bank id)

/-- TB_BUILD (R225, R232). -/
def execTbBuild (h : Hdr) (bank : Nat) (s : State) : Host.Outcome State Fault Refusal :=
  s.command h 0x0501 (opObj 0x0501 bank) fun _ d hw => tbBuildBody h bank d hw

/-- TB_BUILD_ABORT (R232): the bank is FREE and a swap pending to it is cancelled with fate STATE. -/
def execTbBuildAbort (h : Hdr) (bank : Nat) (s : State) : Host.Outcome State Fault Refusal :=
  s.command h 0x0501 (opObj 0x0501 bank) fun _ d hw =>
    if 2 ≤ bank then refuse .range hw
    else if hw.rd d A.bank_state bank ≠ 1 then refuse .state hw
    else
      let B := hw.bank d bank
      let ids := B.buildId.toList ++ (if hw.rd d A.swap_pending bank = 1 then B.swapId.toList ++ B.later else [])
      let hw := ids.foldl (fun hw i => hw.settle i Status.state.code) hw
      okWith (((hw.wr d A.bank_state bank 0).wr d A.swap_pending bank 0).onBank d bank fun B => { buildAt := B.buildAt, torn := true })

/-- TB_BUILT (R225, R226): the build of a bank completes at TB1 time `t`. -/
def execTbBuilt (die bank t : Nat) (s : State) : Host.Outcome State Fault Refusal :=
  s.onUnit die bank 2 fun _ h =>
    let h := h.until die t
    match (h.bank die bank).input with
    | none => h
    | some i =>
      if h.rd die A.bank_state bank ≠ 1 then h
      else
        let B := h.bank die bank
        let us := (h.clk - B.buildAt) / 1000
        let id := B.buildId.getD 0
        let h := (h.wr die A.build_us bank us).onBank die bank fun B => { B with buildId := none }
        if !h.buildOk die i then
          let h := ((h.wr die A.bank_state bank 0).settle id Status.check.code).onBank die bank fun B => { B with input := none }
          h.event die Ev.tbBuilt (leBytes 1 bank ++ leBytes 4 us ++ leBytes 4 0 ++ leBytes 1 Status.check.code)
        else
          let sat := ((List.range nozzleCount).map fun j => (bankEntry i j).2).sum
          let h := h.onBank die bank fun B => { B with torn := false }
          let h := ((h.wr die A.bank_state bank 2).add die A.build_seq bank).settle id 0
          let h := ((h.wr die A.build_tb1 bank (h.tb die 1)).wr die A.bank_crc bank (crc32c (bankBytes i))).wr die A.saturated bank sat
          h.event die Ev.tbBuilt (leBytes 1 bank ++ leBytes 4 us ++ leBytes 4 sat ++ leBytes 1 0)

/-- PL_STATUS (R230): one port's pipeline state and the banks' states. -/
def execPlStatus (h : Hdr) (port : Nat) (s : State) : Host.Outcome State Fault Refusal :=
  s.command h 0x0503 (opObj 0x0503 port) fun _ d hw =>
    if 24 ≤ port then refuse .range hw
    else
      let i := port + 1
      (.words [hw.rd d A.slot_next i, hw.rd d A.toned_max i,
        hw.rd d A.slot_context i * 2 ^ 24 + hw.rd d A.slots_prepared i * 2 ^ 16 + hw.rd d A.slots_staged i * 2 ^ 8 +
          hw.rd d A.bank_state 1 * 8 + hw.rd d A.bank_state 0, 0], hw)

/-- A byte of die `d`'s device memory as an access sees it (R35): the banks show what was built, the tile what is in
force. -/
def Hw.devByte (h : Hw) (ms : List (List Host.Cell)) (d a : Nat) : Byte :=
  match region a with
  | .bank b =>
    let o := a - 0x1000100000 - b * 0xC0000
    BitVec.ofNat 8 (h.bankWord d b (o / 8) / 256 ^ (o % 8))
  | .tile => h.blkByte (rkey d A.dither_tile 0) (a - 0x1000280000)
  | _ => h.byte ms d a

end Sys2Proof.Machine
end

