-- ==== Sys2Proof/Machine/Codec.lean ====
section
/-!
DEFINITION. Golmi block format and the codec engines (spec/08_raster_codec.md): block header and tokens, decompression
descriptors and engines, release and failure, verification, the outbound compressor; the failure of a context
(spec/09_ingest_runway.md R274, R296).
-/
namespace Sys2Proof.Machine

/-! ### The format (R234 to R243) -/

/-- Bytes of a decoded line of `n` nozzles and margin `m` (R234). -/
def lineWidth (n m : Nat) (g4 : Bool) : Nat := ((n + 2 * m) * (if g4 then 4 else 2) + 7) / 8

/-- The columns of a decoded line of `w` bytes (R234). -/
def lineCols (g4 : Bool) (bs : List Byte) : List Nat :=
  bs.flatMap fun b => if g4 then [b.toNat % 16, b.toNat / 16]
    else [b.toNat % 4, b.toNat / 4 % 4, b.toNat / 16 % 4, b.toNat / 64]

/-- The codes of R243. -/
abbrev kOK := 0
abbrev kHEADER := 1
abbrev kTOKEN := 2
abbrev kREF := 3
abbrev kOVERRUN := 4
abbrev kTRUNC := 5
abbrev kTRAIL := 6
abbrev kCRC := 7
abbrev kMEM := 8

/-- What decoding gives: kind, payload offset of the failing token, lines ended, bytes written (latest first), EOLs that
filled nothing. -/
structure Dec where
  kind : Nat
  off : Nat
  lines : Nat
  rev : List Byte
  eols : Nat
  deriving DecidableEq, Repr

/-- `n` bytes copied from `d` bytes back, one at a time (R237). -/
def copyBack (d : Nat) : Nat → List Byte → List Byte
  | 0, rev => rev
  | n + 1, rev => copyBack d n (rev.getD (d - 1) 0 :: rev)

/-- The count that a length code and the bytes after it give, with the bytes left (R237). -/
def tokenCount (code : Nat) (bs : List Byte) : Option (Nat × List Byte × Nat) :=
  if code < 30 then some (code + 1, bs, 0)
  else if code = 30 then
    match bs with
    | b :: bs => some (31 + b.toNat, bs, 1)
    | [] => none
  else
    match bs with
    | b :: c :: bs => some (1 + b.toNat + 256 * c.toNat, bs, 2)
    | _ => none

/-- Operand bytes of a token kind with count `n` (R237). -/
def operandBytes (kind n : Nat) : Nat := match kind with
  | 0 => n
  | 1 => 1
  | 3 => 1
  | 4 => 2
  | _ => 0

/-- A token stream of a block of `cnt` lines of `w` bytes (R237 to R240). `off` is the offset of the next byte, `i` the
line being built, `q` its bytes so far, `len` the payload length; `fuel` bounds the tokens. -/
def decodeTokens (w cnt len : Nat) : Nat → List Byte → Nat → Nat → Nat → List Byte → Nat → Dec
  | 0, _, off, i, _, rev, e => ⟨kTRUNC, off, i, rev, e⟩
  | fuel + 1, bs, off, i, q, rev, e =>
    match bs with
    | [] => if i = cnt then ⟨kOK, 0xFFFFFFFF, i, rev, e⟩ else ⟨kTRUNC, len, i, rev, e⟩
    | b :: bs =>
      let kind := b.toNat / 32
      if cnt ≤ i then ⟨kTRAIL, off, i, rev, e⟩
      else if 6 ≤ kind then ⟨kTOKEN, off, i, rev, e⟩
      else if kind = 5 then
        if b ≠ 0xA0 then ⟨kTOKEN, off, i, rev, e⟩
        else decodeTokens w cnt len fuel bs (off + 1) (i + 1) 0 (List.replicate (w - q) 0 ++ rev) (if q = w then e + 1 else e)
      else
        match tokenCount (b.toNat % 32) bs with
        | none => ⟨kTRUNC, off, i, rev, e⟩
        | some (n, bs, used) =>
          let k := operandBytes kind n
          if bs.length < k then ⟨kTRUNC, off, i, rev, e⟩
          else
            let ops := bs.take k
            let arg := leNat ops
            let d := if kind = 2 then w else if kind = 3 then arg * w else arg % 4096 + 1
            if kind = 4 ∧ 4096 ≤ arg then ⟨kTOKEN, off, i, rev, e⟩
            else if w < q + n then ⟨kOVERRUN, off, i, rev, e⟩
            else if (kind = 2 ∧ i = 0) ∨ (kind = 3 ∧ (arg = 0 ∨ i < arg)) ∨ (kind = 4 ∧ rev.length < d) then ⟨kREF, off, i, rev, e⟩
            else
              let rev := if kind = 0 then ops.reverse ++ rev
                else if kind = 1 then List.replicate n (ops.getD 0 0) ++ rev else copyBack d n rev
              decodeTokens w cnt len fuel (bs.drop k) (off + 1 + used + k) i (q + n) rev e

/-- Fields of a block header (R235). -/
structure BlkHead where
  g4 : Bool
  last : Bool
  raw : Bool
  ok : Bool
  port : Nat
  first : Nat
  count : Nat
  u : Nat
  crc : Nat
  deriving DecidableEq, Repr

/-- A header read from a block's bytes. -/
def blkHead (bs : List Byte) : BlkHead :=
  let b (i : Nat) := (bs.getD i 0).toNat
  { g4 := (b 2).testBit 2, last := (b 2).testBit 1, raw := (b 2).testBit 0,
    ok := b 0 == 0x47 && b 1 == 0x42 && b 2 / 8 == 2, port := b 3, first := leNat ((bs.drop 4).take 4),
    count := leNat ((bs.drop 8).take 2), u := leNat ((bs.drop 10).take 2) + 1, crc := leNat ((bs.drop 12).take 4) }

/-- A stored block decoded under a geometry (R236, R241, R242): descriptor port and first line (none: not checked). -/
def decodeBlock (bs : List Byte) (port : Nat) (first : Option Nat) (n m : Nat) (g4Port : Bool) : Dec :=
  let hd := blkHead bs
  let w := lineWidth n m hd.g4
  let pay := bs.drop 16
  if bs.length < 17 ∨ 65552 < bs.length ∨ !hd.ok ∨ hd.port ≠ port ∨ (first.isSome ∧ first ≠ some hd.first) ∨ (hd.g4 ∧ !g4Port) ∨
      hd.u ≠ hd.count * w ∨ (hd.raw ∧ pay.length ≠ hd.u) then ⟨kHEADER, 0xFFFFFFFF, 0, [], 0⟩
  else
    let r := if hd.raw then ⟨kOK, 0xFFFFFFFF, hd.count, pay.reverse, 0⟩
      else decodeTokens w hd.count pay.length (pay.length + 1) pay 0 0 0 [] 0
    if r.kind = kOK ∧ crc32c r.rev.reverse ≠ hd.crc then { r with kind := kCRC, off := 0xFFFFFFFF } else r

/-! ### A context fails (R244, R274, R296) -/

/-- The line after the last one released in order on a port: lines below it are held by a FAILED context (R273). -/
def Ctx.releasedTo (c : Ctx) (p : Nat) : Nat :=
  ((c.blocks.filter fun b => b.port = p ∧ !b.done).map (·.first)).foldl min (c.heldTo p)

/-- A context fails as a whole, once (R244, R245, R274): CTX_FAILED; when it prints, its stop end is fixed from the lines
released and the stop procedure runs (R288, R296). -/
def Hw.ctxFail (h : Hw) (d c cause port line : Nat) : Hw :=
  match h.ctx? d c with
  | none => h
  | some x =>
    let st := h.ctxState d c
    if st = ctxFAILED ∨ st = ctxDONE ∨ c = 0 then h
    else
      let prints := h.ctxPrints d c
      let h := h.onCtx d c fun y =>
        { y with failPort := port, failLine := line, resume := false, next := (List.range 24).map x.releasedTo }
      let h := (h.wr d A.fail_cause c cause).event d Ev.ctxFailed (leBytes 1 c ++ leBytes 1 cause ++ leBytes 1 port ++ leBytes 4 line)
      let h := h.ctxTo d c ctxFAILED
      if prints then
        let h := match h.ctx? d c with
          | some y => if y.stopSlots.isSome then h else h.fixStop d y
          | none => h
        h.startStop d 2
      else h

/-! ### Descriptors (R246 to R249) -/

/-- A decompression descriptor's words (R246). -/
def descWords (ctx port : Nat) (verify : Bool) (addr first len : Nat) : List Nat :=
  [ctx * 2 ^ 56 + port * 2 ^ 48 + b2n verify * 2 ^ 40 + 3, addr % 2 ^ 40, first * 2 ^ 32 + len]

/-- A descriptor read back. -/
def descJob (queue : Nat) (ws : List Nat) : DecJob :=
  let w (i : Nat) := ws.getD i 0
  { queue := queue, ctx := bits (w 0) 63 56, port := bits (w 0) 55 48, verify := bit (w 0) 40, addr := bits (w 1) 39 0,
    line := bits (w 2) 63 32, len := bits (w 2) 16 0 }

/-- DESCRIPTOR_PUSH (R247): the first block of a port that has no descriptor yet, when it is eligible and fewer than
`dec_limit` descriptors are in flight. -/
def execDescriptorPush (die ctx port : Nat) (s : State) : Host.Outcome State Fault Refusal :=
  s.onUnit die port 24 fun _ h =>
    match h.ctx? die ctx with
    | none => h
    | some c =>
      match c.blocks.find? fun b => b.port = port ∧ !b.pushed with
      | none => h
      | some b =>
        let serves := h.ctxPrints die ctx ∨ h.ctxState die ctx = ctxSTOPPED
        let eligible := b.first + b.count - 1 + h.dMin die port ≤ c.slotAt port + 134
        if ¬serves ∨ h.ctxState die ctx = ctxFAILED ∨ ¬eligible ∨
            min (h.rd die A.dec_limit 0) 96 ≤ h.rd die A.dec_in_flight 0 then h
        else
          let (r, h) := h.qPushPacket die (16 + port % 8) 0x04 (descWords ctx port false b.addr b.first b.len)
          if r = .committed ∨ r = .waiting then
            (h.onCtx die ctx fun c => { c with blocks := c.blocks.map fun x => if x = b then { x with pushed := true } else x }).add
              die A.dec_in_flight 0
          else h

/-- One descriptor leaves flight. -/
def Hw.decLand (h : Hw) (d : Nat) : Hw := h.wr d A.dec_in_flight 0 (h.rd d A.dec_in_flight 0 - 1)

/-- The most urgent head of Q16 to Q23 (R249): least first line less *f*_p, a tie to the lowest queue. -/
def Hw.decHead (h : Hw) (ms : List (List Host.Cell)) (d : Nat) : Option Nat :=
  let urgency (q : Nat) : Int :=
    let Q := h.q d q
    let j := descJob q ((List.range 3).map fun i => h.num ms d (Q.addr (Q.rd + i)) 8)
    (j.line : Int) - h.rd d A.slot_next (j.port + 1)
  (((List.range 8).map (16 + ·)).filter fun q => (h.q d q).enabled && !(h.q d q).empty).foldl (fun (b : Option Nat) q =>
    match b with
    | none => some q
    | some x => if urgency q < urgency x then some q else b) none

/-- An engine of a die. -/
def Hw.engine (h : Hw) (d e : Nat) : Option DecJob := (h.die d).codec.engines.getD e none

/-- The codec changed. -/
def Hw.onCodec (h : Hw) (d : Nat) (f : Codec → Codec) : Hw := h.onDie d fun D => { D with codec := f D.codec }

/-- DECODE_START (R249): an idle engine takes the most urgent head. -/
def execDecodeStart (die engine : Nat) (s : State) : Host.Outcome State Fault Refusal :=
  s.onUnit die engine 4 fun ms h =>
    if (h.engine die engine).isSome then h
    else
      match h.decHead ms die with
      | none => h
      | some q =>
        let (ws, h) := h.qPopPacket ms die q
        let h := h.qRetry die q (h.q die q).held.length
        let j := descJob q ws
        let h := h.onCodec die fun C => { C with engines := C.engines.set engine (some j) }
        let h := (h.wr die A.eng_busy (engine + 1) 1).wr die A.eng_port (engine + 1) j.port
        (h.wr die A.eng_line (engine + 1) j.line).add die A.eng_blocks (engine + 1)

/-! ### The end of a block (R243 to R245, R250 to R252) -/

/-- A block's store space is reclaimed in storage order (R273). -/
def reclaim (bs : List Blk) : List Blk := bs.dropWhile (·.done)

/-- A block of a context is done with. -/
def Hw.blkDone (h : Hw) (d c addr : Nat) : Hw :=
  h.onCtx d c fun x => { x with blocks := reclaim (x.blocks.map fun b => if b.addr = addr then { b with done := true } else b) }

/-- A block discarded whole (R252): cause 0 closed, 1 aborted, 2 FAILED. -/
def Hw.decDiscard (h : Hw) (d : Nat) (j : DecJob) (cause : Nat) : Hw :=
  ((h.add d A.dec_discarded 0).event d Ev.codecDiscard (leBytes 1 j.ctx ++ leBytes 1 j.port ++ leBytes 4 j.line ++
    leBytes 1 cause)).blkDone d j.ctx j.addr

/-- The lines of a block released in one cycle (R251, R252). -/
def Hw.decRelease (h : Hw) (d : Nat) (j : DecJob) (c : Ctx) (hd : BlkHead) (out : List Byte) : Hw :=
  let w := out.length / hd.count
  let f := c.slotAt j.port
  let needed (l : Nat) : Bool := decide (f ≤ l + h.dMax d j.port)
  let ls := (List.range hd.count).map fun i => (hd.first + i, (out.drop (i * w)).take w)
  let keep := ls.filter fun x => needed x.1
  let h := h.onPort d j.port fun P =>
    { P with decoded := P.decoded ++ keep.map fun x => { ctx := j.ctx, line := x.1, g4 := hd.g4, cols := lineCols hd.g4 x.2 } }
  let h := (h.add d A.dec_lines_discarded 0 (ls.length - keep.length)).add d A.dec_blocks 0
  let h := if hd.raw then h.add d A.dec_raw_blocks 0 else h
  ((h.add d A.dec_bytes 0 (keep.length * w)).blkDone d j.ctx j.addr).trimRings d j.port

/-- A block fails (R244): recorded, then its context fails. -/
def Hw.decFail (h : Hw) (d e : Nat) (j : DecJob) (kind off : Nat) : Hw :=
  let h := (h.add d A.dec_fails 0).setBlk (rkey d A.last_fail 0)
    (leBytes 4 j.line ++ leBytes 1 j.port ++ leBytes 1 j.ctx ++ leBytes 1 kind ++ leBytes 1 e ++ leBytes 4 off ++ leBytes 4 (h.tb d 1))
  let h := h.event d Ev.codecBlockFail
    (leBytes 1 j.ctx ++ leBytes 1 j.port ++ leBytes 4 j.line ++ leBytes 1 kind ++ leBytes 1 e ++ leBytes 4 off)
  ((h.ctxFail d j.ctx 1 j.port j.line).blkDone d j.ctx j.addr).runwayEval d

/-- The end of a VERIFY descriptor: the reply of its CODEC_VERIFY, the bytes decoded to its output address (R262). Where a
memory error ends it, and the cycles beyond the bytes written, are free (R250; assumption log 3). -/
def Hw.verifyEnd (h : Hw) (ms : List (List Host.Cell)) (d e : Nat) (j : DecJob) (mem : Bool) : Hw :=
  match (h.die d).codec.verifies.find? fun v => v.addr = j.addr ∧ v.port = j.port ∧ v.len = j.len with
  | none => h
  | some v =>
    let r := decodeBlock (h.bytes ms d j.addr j.len) j.port none v.nozzles v.margin v.g4
    let (g, h) := h.fresh
    let n := if mem then g % (r.rev.length + 1) else r.rev.length
    let out := r.rev.reverse.take n
    let lines := if mem then n / lineWidth v.nozzles v.margin v.g4 else r.lines
    let h := if v.out = 0 then h else h.store d v.out out
    let h := h.onCodec d fun C => { C with verifies := C.verifies.erase v }
    let (f, h) := h.fresh
    let cycles := out.length + r.eols + f % 401
    (h.add d A.eng_cycles (e + 1) cycles).putReply v.origin v.tag
      (.words [(if mem then kMEM else r.kind) * 2 ^ 16 + lines % 2 ^ 16, if mem then g % 2 ^ 32 else r.off, crc32c out, cycles % 2 ^ 32])

/-- DECODE_COMPLETE (R244, R245, R250 to R252): an engine ends its block; `mem` is an uncorrectable memory error. -/
def execDecodeComplete (die engine : Nat) (mem : Bool) (s : State) : Host.Outcome State Fault Refusal :=
  s.onUnit die engine 4 fun ms h =>
    match h.engine die engine with
    | none => h
    | some j =>
      let h := (h.onCodec die fun C => { C with engines := C.engines.set engine none }).decLand die
      let h := h.wr die A.eng_busy (engine + 1) 0
      if j.verify then h.verifyEnd ms die engine j mem
      else
        let bs := h.bytes ms die j.addr j.len
        let hd := blkHead bs
        let r := decodeBlock bs j.port (some j.line) (h.rd die A.nozzles j.port) (h.rd die A.xweb_margin 0)
          (h.rd die A.greyscale j.port = 1)
        let (f, h) := h.fresh
        let h := h.add die A.eng_cycles (engine + 1) (r.rev.length + r.eols + f % 401)
        match h.ctx? die j.ctx with
        | none => h.decDiscard die j (b2n ((h.die die).codec.aborted.contains j.ctx))
        | some c =>
          if h.ctxState die j.ctx = ctxFAILED then h.decDiscard die j 2
          else if mem then
            let (g, h) := h.fresh
            h.decFail die engine j kMEM (g % 2 ^ 32)
          else if r.kind ≠ kOK then h.decFail die engine j r.kind r.off
          else (h.decRelease die j c hd r.rev.reverse).prepare die j.port

/-- General DRAM (R35): the range that host buffers and job stores may use. -/
def inDram (a n : Nat) : Bool := decide (0x1000000 ≤ a) && decide (a + n ≤ dramTop + 1)

/-- CODEC_VERIFY (R262): completes when the engine ends the block. -/
def execCodecVerify (h : Hdr) (port greyscale margin nozzles addr stored out : Nat) (s : State) :
    Host.Outcome State Fault Refusal :=
  s.commandHold h 0x0601 (opObj 0x0601 0) fun ms d hw =>
    if 24 ≤ port ∨ 1 < greyscale ∨ 64 < margin ∨ nozzles < 256 ∨ 4096 < nozzles ∨ nozzles % 256 ≠ 0 ∨ stored < 17 ∨
        65552 < stored ∨ 2 ^ 40 ≤ addr ∨ (out ≠ 0 ∧ !inDram out 1) then (some (.err .range), hw)
    else if min (hw.rd d A.dec_limit 0) 96 ≤ hw.rd d A.dec_in_flight 0 then (some (.err .noSpace), hw)
    else
      let first := hw.num ms d (addr + 4) 4
      let (r, hw) := hw.qPushPacket d (16 + port % 8) 0x02 (descWords 0 port true addr first stored)
      if r = .committed ∨ r = .waiting then
        let v : Verify := ⟨port, nozzles, margin, greyscale = 1, addr, stored, out, h.origin, h.tag⟩
        (none, (hw.add d A.dec_in_flight 0).onCodec d fun C => { C with verifies := C.verifies ++ [v] })
      else (some (.err .noSpace), hw)

/-! ### The outbound compressor (R253 to R259, R263) -/

/-- The number of jobs shown. -/
def Hw.showJobs (h : Hw) (d : Nat) : Hw :=
  let C := (h.die d).codec
  (h.wr d A.out_jobs 0 C.jobs.length).wr d A.out_state 0 (if C.running then 1 else 0)

/-- CODEC_COMPRESS_SUBMIT (R253, R263). -/
def execCodecCompressSubmit (h : Hdr) (queue back tag addr row stride rows line limit per : Nat) (s : State) :
    Host.Outcome State Fault Refusal :=
  s.command h 0x0602 (opObj 0x0602 0) fun _ d hw =>
    let C := (hw.die d).codec
    if queue < 40 ∨ 47 < queue ∨ back = 1 ∨ 255 < back ∨ 65535 < tag ∨ row = 0 ∨ 65536 < row ∨ stride < row ∨ 2 ^ 32 ≤ stride ∨
        rows = 0 ∨ 2 ^ 32 ≤ rows ∨ 2 ^ 32 ≤ line ∨ limit < 32 ∨ 16384 < limit ∨ per = 0 ∨ 65535 < per ∨ 65536 < per * row ∨
        !inDram addr ((rows - 1) * stride + row) then refuse .range hw
    else if 8 ≤ C.jobs.length then refuse .noSpace hw
    else if !(hw.q d queue).enabled ∨ C.jobs.any (fun j => j.src = srcOf h.origin ∧ j.tag = tag) then refuse .state hw
    else
      let (id, r, hw) := hw.deferWork d h false
      let j : CompJob := { id := id, src := srcOf h.origin, tag := tag, queue := queue, back := back, addr := addr, row := row,
                           stride := stride, rows := rows, line := line, limit := limit, per := per }
      (r, (hw.onCodec d fun C => { C with jobs := C.jobs ++ [j] }).showJobs d)

/-- COMPRESS_JOB_START (R253): jobs run one at a time in submission order. -/
def execCompressJobStart (die : Nat) (s : State) : Host.Outcome State Fault Refusal :=
  s.onDie die fun _ h =>
    let C := (h.die die).codec
    if C.running ∨ C.jobs = [] then h else (h.onCodec die fun C => { C with running := true }).showJobs die

/-- A job ends with a trailer (R256): its status, fate and counts. -/
def Hw.jobEnd (h : Hw) (d : Nat) (j : CompJob) (st : Status) : Hw :=
  let (_, h) := h.qPushPacket d j.queue 0x08 [j.tag * 2 ^ 32 + 2 * 2 ^ 24 + 3, st.code * 2 ^ 56 + j.block % 2 ^ 32, j.bytesIn]
  let h := (h.onCodec d fun C => { C with jobs := C.jobs.erase j, running := false }).showJobs d
  let h := h.settle j.id st.code
  if st = .ok then
    (h.add d A.out_done 0).event d Ev.codecJobDone
      (leBytes 2 j.tag ++ leBytes 1 j.queue ++ leBytes 4 j.block ++ leBytes 8 j.bytesIn ++ leBytes 8 j.bytesOut)
  else
    (h.add d A.out_failed 0).event d Ev.codecJobFail
      (leBytes 2 j.tag ++ leBytes 1 j.queue ++ leBytes 1 st.code ++ leBytes 4 j.block)

/-- The 64-bit words of bytes, the last one padded with zeros. -/
def bytesWords (n : Nat) (bs : List Byte) : List Nat := (List.range n).map fun i => leNat ((bs.drop (8 * i)).take 8)

/-- A block packet of the output queue (R235, R256). -/
def blockPacket (j : CompJob) (raw last : Bool) (count u crc : Nat) (pay : List Byte) : List Nat :=
  let n := (pay.length + 7) / 8
  let pad := 8 * n - pay.length
  let hdr := leBytes 2 0x4247 ++ leBytes 1 (0x10 + 2 * b2n last + b2n raw) ++ leBytes 1 0xFF ++
    leBytes 4 (j.line + j.block * j.per) ++ leBytes 2 count ++ leBytes 2 (u - 1) ++ leBytes 4 crc
  [j.block % 2 ^ 16 * 2 ^ 48 + j.tag * 2 ^ 32 + 2 ^ 24 + pad * 2 ^ 16 + (3 + n)] ++ bytesWords 2 hdr ++ bytesWords n pay

/-- The tokens of a stream use BACK only with period `k`, and not at all when `k` is 0 (R255). -/
def backsOk (k : Nat) : Nat → List Byte → Bool
  | 0, _ => true
  | _, [] => true
  | fuel + 1, b :: bs =>
    let kind := b.toNat / 32
    if kind = 5 then backsOk k fuel bs
    else
      match tokenCount (b.toNat % 32) bs with
      | none => true
      | some (n, bs, _) =>
        (kind != 3 || (k != 0 && leNat (bs.take 1) == k)) && backsOk k fuel (bs.drop (operandBytes kind n))

/-- A rewind of the block packet under way is counted (R88, R257, R258). -/
def Hw.countRewind (h : Hw) (d q : Nat) : Hw :=
  (h.onQ d q fun Q => { Q with rewinds := satNat 0xFFFF (Q.rewinds + 1) }).add d A.q_rewinds q

/-- COMPRESS_BLOCK_END (R254 to R258): the running job's next block is committed as the tokens that the compressor chose,
or RAW, or the job fails. `tokens` must decode to the block's rows and use BACK as R255 says; others are no behaviour of the part and leave
the state. `mem` is an uncorrectable memory error in the source. -/
def execCompressBlockEnd (die : Nat) (tokens : List Byte) (mem : Bool) (s : State) : Host.Outcome State Fault Refusal :=
  s.onDie die fun ms h =>
    let C := (h.die die).codec
    match C.running, C.jobs with
    | true, j :: _ =>
      let r0 := j.block * j.per
      let n := min j.per (j.rows - r0)
      let u := n * j.row
      let src := (List.range n).flatMap fun i => h.bytes ms die (j.addr + (r0 + i) * j.stride) j.row
      let dec := decodeTokens j.row n tokens.length (tokens.length + 1) tokens 0 0 0 [] 0
      let space := 8 * (min j.limit (h.q die j.queue).size - 3)
      if mem then (h.countRewind die j.queue).jobEnd die j .check
      else if dec.kind ≠ kOK ∨ dec.rev.reverse ≠ src ∨ !backsOk j.back tokens.length tokens then h
      else
        let raw := u ≤ tokens.length ∧ u ≤ space
        let j1 := { j with bytesIn := j.bytesIn + u }
        let h := h.add die A.out_bytes_in 0 u
        if ¬raw ∧ space < tokens.length then
          let h := (h.countRewind die j.queue).onCodec die fun C => { C with jobs := j1 :: C.jobs.drop 1 }
          h.jobEnd die j1 .noSpace
        else
          let last := decide (j.rows ≤ r0 + n)
          let pkt := blockPacket j raw last n u (crc32c src) (if raw then src else tokens)
          let h := if raw then (h.countRewind die j.queue).add die A.out_raw_blocks 0 else h
          let (_, h) := h.qPushPacket die j.queue 0x08 pkt
          let j2 := { j1 with block := j.block + 1, bytesOut := j.bytesOut + 8 * pkt.length }
          let h := (h.add die A.out_bytes_out 0 (8 * pkt.length)).onCodec die fun C => { C with jobs := j2 :: C.jobs.drop 1 }
          if last then h.jobEnd die j2 .ok else h
    | _, _ => h

/-- CODEC_COMPRESS_ABORT (R263): a pending job is removed, a running one ends with a STATE trailer. -/
def execCodecCompressAbort (h : Hdr) (queue tag : Nat) (s : State) : Host.Outcome State Fault Refusal :=
  s.command h 0x0602 (opObj 0x0602 0) fun _ d hw =>
    let C := (hw.die d).codec
    if queue < 40 ∨ 47 < queue ∨ 65535 < tag then refuse .range hw
    else
      match C.jobs.find? fun j => j.src = srcOf h.origin ∧ j.tag = tag with
      | none => refuse .state hw
      | some j =>
        if C.running ∧ C.jobs.head? = some j then okWith ((hw.countRewind d j.queue).jobEnd d j .state)
        else
          let hw := (hw.onCodec d fun C => { C with jobs := C.jobs.erase j }).showJobs d
          okWith ((hw.settle j.id Status.state.code).add d A.out_failed 0)

end Sys2Proof.Machine
end

