-- ==== Sys2Proof/Machine/Ingest.lean ====
section
/-!
DEFINITION. Contexts and ingest (spec/09_ingest_runway.md): CTX_CTRL, the switch between contexts, Golmi Raster Transport,
PCIe DMA, the job store.
-/
namespace Sys2Proof.Machine

/-! ### Opening and starting (R266 to R269, R300) -/

/-- Host words of a Context Table entry as OPEN uses them: the cached copy, or words 0 to 6 of the memory copy (R73, R271). -/
def Hw.ctxEntry (h : Hw) (ms : List (List Host.Cell)) (d c : Nat) : List Nat :=
  match (h.die d).ctxCache.find? fun x => x.1 = c with
  | some x => x.2
  | none => (List.range 7).map fun i => h.num ms d (0x1000 + 128 * c + 4 * i) 4

/-- The context that an entry describes. -/
def entryCtx (c : Nat) (w : List Nat) : Ctx :=
  let g (i : Nat) := w.getD i 0
  { num := c, job := g 0, ports := g 1 % 2 ^ 24, page := g 3, base := g 5 % 256 * 2 ^ 32 + g 4, pages := g 6,
    last := if g 2 = 0xFFFFFFFF then none else some (g 2), next := List.replicate 24 0, slot := List.replicate 24 0 }

/-- Size of a job store in bytes. -/
def Ctx.size (c : Ctx) : Nat := c.pages * 4096

/-- An entry that keeps R269, R271 and R272 against the contexts that are not CLOSED. -/
def Hw.ctxEntryOk (h : Hw) (d : Nat) (c : Ctx) : Bool :=
  (match c.last with
    | some l => decide (l ≤ 0xFFFFFFDF)
    | none => true) && c.base % 4096 == 0 && decide (32 ≤ c.pages) && inDram c.base c.size &&
    (h.die d).ctxs.all fun x => decide (x.base + x.size ≤ c.base) || decide (c.base + c.size ≤ x.base)

/-- TABLE_READ_ERR (R77): table 0 Queue Context, 1 Context, 2 Lamp, in the order of R73. -/
def Hw.tableErr (h : Hw) (d table i : Nat) : Hw := h.event d Ev.tableReadErr (leBytes 1 table ++ leBytes 2 i)

/-- CTX_OPEN (R266, R269, R272, R300); `bad` is an uncorrectable error in reading the entry (R77). -/
def execCtxOpen (h : Hdr) (ctx : Nat) (bad : Bool) (s : State) : Host.Outcome State Fault Refusal :=
  s.command h 0x0702 (opObj 0x0702 ctx) fun ms d hw =>
    if ctx = 0 ∨ 256 ≤ ctx then refuse .range hw
    else if hw.ctxState d ctx ≠ ctxCLOSED then refuse .state hw
    else if bad ∧ !(hw.die d).ctxCache.any (fun x => x.1 = ctx) then refuse .check (hw.tableErr d 1 ctx)
    else
      let w := hw.ctxEntry ms d ctx
      let c := entryCtx ctx w
      let hw := hw.onDie d fun D => { D with ctxCache := (ctx, w) :: D.ctxCache.filter fun x => x.1 ≠ ctx }
      if !hw.ctxEntryOk d c then refuse .range hw
      else
        let hw := hw.onDie d fun D => { D with ctxs := D.ctxs ++ [c] }
        let hw := hw.onCodec d fun C => { C with aborted := C.aborted.erase ctx }
        let hw := ((hw.wr d A.fail_cause ctx 0).wr d A.last_line ctx (c.last.getD 0xFFFFFFFF)).wr d A.stop_line ctx 0
        let hw := ((hw.wr d A.stop_end ctx (2 ^ 64 - 1)).wr d A.switch_line ctx 0).wr d A.x0 ctx 0
        okWith ((hw.ctxTo d ctx ctxOPEN).showRunway d)

/-- A context enters PRINTING at start position `x0` nm and `lo` 2^-32 nm (R265, R266); while another die is in a stop, this
one joins it (R288). -/
def Hw.beginCtx (h : Hw) (d c : Nat) (x0 : Int) (lo : Nat) : Hw :=
  let h := h.wrS d A.x0 c 64 x0
  let h := h.onDie d fun D => { D with ctxs := D.ctxs.filter (fun x => x.num ≠ c) ++ D.ctxs.filter (fun x => x.num = c) }
  let h := h.onCtx d c fun x => { x with startAt := h.tb d 1, x0lo := lo, after := none, slot := List.replicate 24 0 }
  let h := (h.beginSwaps d c).ctxTo d c ctxPRINTING
  let h : Hw := match h.ctx? d c with
    | some x => (portsOf x.ports).foldl (fun (h : Hw) p => h.showPort d p) (h.beginChanges d x)
    | none => h
  let h := (h.startEngine d).refreshPorts d
  let h := if h.dies.any (·.stop.active) then h.stopOn d 5 else h
  h.runwayEval d

/-- A port of the context belongs to another context that prints or has a pending start. -/
def Hw.portsTaken (h : Hw) (d c except_ : Nat) : Bool :=
  match h.ctx? d c with
  | none => false
  | some x => (h.die d).ctxs.any fun y => y.num != c && y.num != except_ && (h.ctxPrints d y.num || y.after.isSome) &&
      (portsOf x.ports).any fun p => y.ports.testBit p

/-- CTX_START_ABS (R266). -/
def execCtxStartAbs (h : Hdr) (ctx : Nat) (x0 : Int) (s : State) : Host.Outcome State Fault Refusal :=
  s.command h 0x0702 (opObj 0x0702 ctx) fun _ d hw =>
    if ctx = 0 ∨ 256 ≤ ctx then refuse .range hw
    else
      match hw.ctx? d ctx with
      | none => refuse .state hw
      | some c =>
        if hw.ctxState d ctx ≠ ctxOPEN ∨ c.after.isSome ∨ hw.portsTaken d ctx ctx ∨ hw.anyEstop then refuse .state hw
        else
          let trial := hw.wrS d A.x0 ctx 64 x0
          let floor_ := trial.lposNow d * 2 ^ 32 + (trial.rd d A.fix_slots 0 * trial.rd d A.line_pitch 0 : Nat)
          if (portsOf c.ports).any fun p => decide (trial.target d c 0 p 0 (trial.sNow d) < floor_) then refuse .range hw
          else okWith (hw.beginCtx d ctx x0 0)

/-- The start position of an incoming context in 2^-32 nm (R267). -/
def Hw.switchX0 (h : Hw) (d out l : Nat) : Int :=
  let lo := ((h.ctx? d out).map (·.x0lo)).getD 0
  let dd := (((List.range 24).filter fun p => h.rd d A.hp_enable p == 1).map (h.dMax d)).foldl max 0
  h.rdS d A.x0 out 64 * 2 ^ 32 + (lo + (l + 1 + dd) * h.rd d A.line_pitch 0 : Nat)

/-- A switch fixed (R213, R217, R267): the effective line; the incoming context enters PRINTING. -/
def Hw.switchFix (h : Hw) (d c out last id : Nat) : Nat × Hw :=
  let ports := ((h.ctx? d out).map fun x => portsOf x.ports).getD []
  let l := h.fixLine d out ports false last
  let x0 := h.switchX0 d out l
  let h := (h.wr d A.switch_line c l).plDefer d 7 out last l
  let h := (h.movePoint id { kind := 1, ctx := out, point := l }).settle id 0
  let h := h.onCtx d c fun x => { x with from_ := some out }
  (l, (h.squash d out ports l false).beginCtx d c (x0 / 2 ^ 32) (x0 % 2 ^ 32).toNat)

/-- Pending switches whose outgoing context knows its last line are fixed (R267). -/
def Hw.switchFixes (h : Hw) (d : Nat) : Hw :=
  (h.die d).ctxs.foldl (fun h c =>
    match c.after with
    | some (out, id) =>
      match (h.ctx? d out).bind (·.last) with
      | some l => (h.switchFix d c.num out l id).2
      | none => h
    | none => h) h

/-- SWITCH_FIX (R267). -/
def execSwitchFix (die : Nat) (s : State) : Host.Outcome State Fault Refusal := s.onDie die fun _ h => h.switchFixes die

/-- CTX_START_AFTER (R267): DEFERRED, kind 1 once the outgoing context's last line is known, else kind 5. -/
def execCtxStartAfter (h : Hdr) (ctx after : Nat) (s : State) : Host.Outcome State Fault Refusal :=
  s.command h 0x0702 (opObj 0x0702 ctx) fun _ d hw =>
    if ctx = 0 ∨ 256 ≤ ctx ∨ after = 0 ∨ 256 ≤ after then refuse .range hw
    else
      match hw.ctx? d ctx, hw.ctx? d after with
      | some c, some o =>
        if hw.ctxState d ctx ≠ ctxOPEN ∨ c.after.isSome ∨ ctx = after ∨ !hw.ctxPrints d after ∨
            hw.ctxState d after ≠ ctxPRINTING ∨ hw.portsTaken d ctx after ∨ hw.anyEstop then refuse .state hw
        else
          match o.last with
          | some l =>
            let (id, hw) := hw.defer d h false { kind := 1, ctx := after, point := l }
            let (used, hw) := hw.switchFix d ctx after l id
            (.deferred { kind := 1, ctx := after, point := used }, hw)
          | none =>
            let (id, r, hw) := hw.deferWork d h false
            (r, hw.onCtx d ctx fun x => { x with after := some (after, id) })
      | _, _ => refuse .state hw

/-! ### Closing (R270, R272) -/

/-- A context leaves the die: what it leaves behind, CLOSED, its store freed. -/
def Hw.closeCtx (h : Hw) (d c : Nat) : Hw :=
  let pend := ((h.ctx? d c).bind (·.after)).toList ++ ((h.die d).ctxs.filterMap (·.after)).filter fun x => x.1 = c
  let h := pend.foldl (fun h x => h.settle x.2 Status.state.code) h
  let unpend (x : Ctx) : Ctx := if x.after.any (fun a => a.1 = c) then { x with after := none } else x
  let h := h.onDie d fun D => { D with ctxs := D.ctxs.map unpend }
  let h := ((h.endCtx d c).endSwaps d c).ctxTo d c ctxCLOSED
  let h := (h.wr d A.data_end c (2 ^ 64 - 1)).wr d A.pages_used c 0
  let untail (P : Port) : Port :=
    if P.firing.any (fun f => f.ctx = c ∧ !P.arms.any fun a => a.ctx = c ∧ a.k = f.k ∧ a.g = f.g) then
      { P with firing := none, slots := P.slots.filter fun x => x.ctx ≠ c }
    else P
  let h := h.onDie d fun D => { D with ctxs := D.ctxs.filter fun x => x.num ≠ c, ports := D.ports.map untail }
  ((h.idleEngine d).refreshPorts d).runwayEval d

/-- CTX_CLOSE (R270). -/
def execCtxClose (h : Hdr) (ctx : Nat) (s : State) : Host.Outcome State Fault Refusal :=
  s.command h 0x0702 (opObj 0x0702 ctx) fun _ d hw =>
    let st := hw.ctxState d ctx
    if ctx = 0 ∨ 256 ≤ ctx then refuse .range hw
    else if ¬(st = ctxOPEN ∨ st = ctxDONE ∨ st = ctxFAILED) ∨ hw.ctxPrints d ctx then refuse .state hw
    else okWith (hw.closeCtx d ctx)

/-- Slots of a context armed within `arm_lock_ns` of their time still fire (R270). -/
def Hw.fireLocked (h : Hw) (d : Nat) (c : Ctx) : Hw :=
  (portsOf c.ports).foldl (fun h p =>
    match (h.port d p).arms.find? fun a => a.ctx = c.num ∧ a.k = c.slotAt p ∧ a.g = 0 with
    | some a => if a.t ≤ h.now8 d + 8 * h.rd d A.arm_lock_ns 0 then h.judgeLine d p c a else h
    | none => h) h

/-- The remaining slots of an aborted context as one seam: first slot and number, saturating when the last line is not
known (R162, R270). -/
def Hw.abortSeam (h : Hw) (d : Nat) (c : Ctx) : Hw :=
  let left := (portsOf c.ports).filter fun p => !h.portEnded d c p
  let first := (left.map c.slotAt).foldl min 0xFFFFFFFF
  let n := (left.map fun p => match h.lastSlot d c p with
    | some l => l + 1 - c.slotAt p
    | none => 0xFFFF).foldl max 0
  if n = 0 then h else h.defect d 3 c.num 0xFF n 0 first

/-- CTX_ABORT (R270). -/
def execCtxAbort (h : Hdr) (ctx : Nat) (s : State) : Host.Outcome State Fault Refusal :=
  s.command h 0x0702 (opObj 0x0702 ctx) fun _ d hw =>
    if ctx = 0 ∨ 256 ≤ ctx then refuse .range hw
    else
      match hw.ctx? d ctx with
      | none => refuse .state hw
      | some c =>
        let hw := if hw.ctxPrints d ctx then hw.fireLocked d c else hw
        let forget (P : Port) : Port := { P with lost := none }
        let hw : Hw := match hw.ctx? d ctx with
          | some x =>
            if hw.ctxPrints d ctx ∨ hw.ctxState d ctx = ctxSTOPPED then
              (hw.abortSeam d x).onDie d fun D => { D with ports := D.ports.map forget }
            else hw
          | none => hw
        let hw := hw.onCodec d fun C => { C with aborted := ctx :: C.aborted.erase ctx }
        okWith (hw.closeCtx d ctx).standstillCheck

/-- CTX_INVALIDATE (R74, R272). -/
def execCtxInvalidate (h : Hdr) (first count : Nat) (s : State) : Host.Outcome State Fault Refusal :=
  s.command h 0x0701 (opObj 0x0701 first) fun _ d hw =>
    if 256 ≤ first ∨ count = 0 ∨ 256 < first + count then refuse .range hw
    else if (hw.die d).ctxs.any (fun c => decide (first ≤ c.num) && decide (c.num < first + count)) then refuse .state hw
    else
      okWith (hw.onDie d fun D =>
        { D with ctxCache := D.ctxCache.filter fun x => decide (x.1 < first) || decide (first + count ≤ x.1) })

/-- CONTEXT_WRITEBACK (R272): every 10 ms while the context is not CLOSED. -/
def execContextWriteback (die ctx : Nat) (s : State) : Host.Outcome State Fault Refusal :=
  s.onDie die fun _ h =>
    match h.ctx? die ctx with
    | some c => if ctx = 0 then h else (h.showRunway die).ctxWriteback die c
    | none => h

/-! ### Golmi Raster Transport (R276 to R281) -/

/-- A stream of a die. -/
def Hw.stream (h : Hw) (d s : Nat) : Stream := (h.die d).streams.getD s {}

/-- A stream changed. -/
def Hw.onStream (h : Hw) (d s : Nat) (f : Stream → Stream) : Hw :=
  h.onDie d fun D => { D with streams := D.streams.modify s f }

/-- A context accepts blocks (R264). -/
def Hw.accepts (h : Hw) (d c : Nat) : Bool := [ctxOPEN, ctxPRINTING, ctxSTOPPED].contains (h.ctxState d c)

/-- The free space of a context's store (R273, R280). -/
def Ctx.free (c : Ctx) : Nat := c.size - (c.blocks.map fun b => (b.len + 63) / 64 * 64).sum

/-- *C* of a stream (R280). -/
def Hw.credit (h : Hw) (d s : Nat) : Nat :=
  let e := h.rd d A.st_next_seq (s + 1)
  let c := h.rd d A.st_context (s + 1)
  match h.ctx? d c with
  | some x => if h.accepts d c then (e + min 256 ((x.free - (h.stream d s).queued) / 8192)) % 2 ^ 32 else e
  | none => e

/-- An ACK (2) or NAK (3) to the stream's peer (R277, R280). -/
def Hw.grtReply (h : Hw) (d s type : Nat) : Hw :=
  let c := h.credit d s
  let h := (h.wr d A.st_credit (s + 1) c).emit
    (.grt d s (h.stream d s).peer type (h.rd d A.st_next_seq (s + 1)) (h.ctxState d (h.rd d A.st_context (s + 1))) c)
  if type = 2 then h.onStream d s fun t => { t with unacked := 0 } else h

/-- The words of an ingest packet (R87; the manual gives only the length field): length, payload bytes, flags, sequence
number; offset; payload. -/
def grtWords (seq flags off : Nat) (data : List Byte) : List Nat :=
  let n := (data.length + 7) / 8
  [seq % 2 ^ 32 * 2 ^ 32 + flags % 4 * 2 ^ 30 + data.length * 2 ^ 16 + (2 + n), off] ++ bytesWords n data

/-- The signed difference of two sequence numbers (R278). -/
def seqDiff (a b : Nat) : Int := toSigned 32 ((a + 2 ^ 32 - b % 2 ^ 32) % 2 ^ 32)

/-- A DATA datagram whose header has passed magic, version and type (R276, R278, R280). -/
def Hw.grtData (h : Hw) (d eth ip udp s seq ctx flags off : Nat) (data : List Byte) : Hw :=
  let i := s + 1
  if (h.rd d A.grt_port_en 0).testBit eth = false then h
  else if 16 ≤ s ∨ h.rd d A.st_type i ≠ 1 ∨ ctx ≠ h.rd d A.st_context i ∨ ctx = 0 ∨ data = [] ∨ 8192 < data.length then
    h.add d A.grt_bad 0
  else
    let e := h.rd d A.st_next_seq i
    let diff := seqDiff seq e
    let ws := grtWords seq flags off data
    let Q := h.q d s
    if diff < 0 then (h.add d A.grt_dup i).grtReply d s 2
    else if diff = 0 ∧ seqDiff seq (h.credit d s) < 0 ∧ Q.enabled ∧ ws.length ≤ Q.size - Q.occupied then
      let (_, h) := h.qPushPacket d s 0x03 ws
      let h := h.onStream d s fun t =>
        { t with peer := some (eth, ip, udp), unacked := t.unacked + 1, queued := t.queued + data.length }
      let h := h.wr d A.st_next_seq i ((e + 1) % 2 ^ 32)
      let h := h.wr d A.st_credit i (h.credit d s)
      if h.rd d A.ack_every i ≤ (h.stream d s).unacked ∨ bit flags 1 then h.grtReply d s 2 else h
    else if diff = 0 then (h.add d A.grt_over_credit i).grtReply d s 2
    else
      let h := h.add d A.grt_gaps i
      match (h.stream d s).nakAt with
      | some t =>
        if h.clk < t + 1000 * h.rd d A.nak_holdoff_us i then h
        else (h.onStream d s fun t => { t with nakAt := some h.clk }).grtReply d s 3
      | none => (h.onStream d s fun t => { t with nakAt := some h.clk }).grtReply d s 3

/-- GRT_DATA (R278). -/
def execGrtData (die eth ip udp stream seq ctx flags off : Nat) (data : List Byte) (s : State) :
    Host.Outcome State Fault Refusal :=
  s.onUnit die stream 16 fun _ h => h.grtData die eth ip udp stream seq ctx flags off data

/-- A RESET (R281). -/
def Hw.grtReset (h : Hw) (d eth ip udp s seq ctx : Nat) : Hw :=
  let i := s + 1
  if (h.rd d A.grt_port_en 0).testBit eth = false then h
  else if 16 ≤ s ∨ h.rd d A.st_type i ≠ 1 ∨ ctx ≠ h.rd d A.st_context i then h.add d A.grt_bad 0
  else
    let h := h.onStream d s fun t =>
      { t with peer := some (eth, ip, udp), queued := t.queued - t.frag.length, frag := [], fragOn := false }
    (h.wr d A.st_next_seq i (seq % 2 ^ 32)).grtReply d s 2

/-- GRT_RESET (R281). -/
def execGrtReset (die eth ip udp stream seq ctx : Nat) (s : State) : Host.Outcome State Fault Refusal :=
  s.onUnit die stream 16 fun _ h => h.grtReset die eth ip udp stream seq ctx

/-- GRT_ACK_TIMER (R280): `ack_us` after the first accepted datagram that has not been acknowledged. -/
def execGrtAckTimer (die stream : Nat) (s : State) : Host.Outcome State Fault Refusal :=
  s.onUnit die stream 16 fun _ h => if (h.stream die stream).unacked = 0 then h else h.grtReply die stream 2

/-! ### PCIe DMA (R282 to R284) -/

/-- A write of `dma_tail` (R282). -/
def Hw.dmaTail (h : Hw) (d ep s v : Nat) : Hw :=
  h.onStream d s fun t => { t with dmaTail := v % 2 ^ h.rd d A.dma_ring_log2 (s + 1), dmaEp := ep }

/-- DMA_TAIL_WRITE (R282, R284). -/
def execDmaTailWrite (die ep stream value : Nat) (s : State) : Host.Outcome State Fault Refusal :=
  s.onUnit die stream 16 fun _ h => h.dmaTail die ep stream value

/-- DMA_BLOCK_FETCH (R284): the next descriptor's stored length and block as read from host memory, `ok` clear on a read
error. -/
def execDmaBlockFetch (die stream stored : Nat) (ok : Bool) (data : List Byte) (s : State) :
    Host.Outcome State Fault Refusal :=
  s.onUnit die stream 16 fun _ h =>
    let t := h.stream die stream
    let ctx := h.rd die A.st_context (stream + 1)
    if h.rd die A.st_type (stream + 1) ≠ 2 ∨ t.dmaHead = t.dmaTail ∨ t.waiting.isSome then h
    else
      let long := stored < 17 ∨ 65552 < stored
      if long ∨ !ok ∨ data.length ≠ stored then
        let h := h.event die Ev.dmaBad (leBytes 1 stream ++ leBytes 2 t.dmaHead ++ leBytes 1 (if long then 0 else 1))
        (h.ctxFail die ctx 7 0xFF 0).runwayEval die
      else h.onStream die stream fun t => { t with waiting := some data }

/-! ### The job store (R273 to R275, R279) -/

/-- Where the next block of `n` bytes goes in the ring of a store, contiguous and on a 64-byte boundary; none when it does
not fit now. -/
def Ctx.place (c : Ctx) (n : Nat) : Option Nat :=
  match c.blocks with
  | [] => if n ≤ c.size then some 0 else none
  | b :: _ =>
    let o := b.addr - c.base
    if o < c.head then
      if c.head + n ≤ c.size then some c.head else if n < o then some 0 else none
    else if c.head + n < o then some c.head else none

/-- A partial block breaks its order (R279): discarded with `n` bytes more, counted and recorded. -/
def Hw.fragErr (h : Hw) (d s n seq : Nat) : Hw :=
  let h := h.onStream d s fun t => { t with frag := [], fragOn := false, queued := t.queued - (t.frag.length + n) }
  (h.add d A.frag_errs (s + 1)).event d Ev.grtFragErr (leBytes 1 s ++ leBytes 4 seq)

/-- A fragment joins its stream's partial block (R279): the complete block at END. A FIRST within a partial block breaks that
block and begins the next one. -/
def Hw.fragment (h : Hw) (d s : Nat) (ws : List Nat) : Hw :=
  let w0 := ws.getD 0 0
  let n := bits w0 29 16
  let data := ((ws.drop 2).flatMap (leBytes 8)).take n
  let first := bit w0 30
  let last := bit w0 31
  let off := ws.getD 1 0
  let t := h.stream d s
  let good := if first then off = 0 else t.fragOn ∧ off = t.frag.length
  let base := if first then [] else t.frag
  if !decide good ∨ 65552 < base.length + n then h.fragErr d s n (bits w0 63 32)
  else
    let h := if first ∧ t.fragOn then h.fragErr d s 0 (bits w0 63 32) else h
    h.onStream d s fun t =>
      if last then { t with frag := [], fragOn := false, waiting := some (base ++ data) }
      else { t with frag := base ++ data, fragOn := true }

/-- A stream's block has left it: stored, discarded or refused; a PCIe stream takes its descriptor as done (R284). -/
def Hw.streamDone (h : Hw) (d s n : Nat) : Hw :=
  h.onStream d s fun t =>
    { t with waiting := none, queued := t.queued - n,
             dmaHead := if h.rd d A.st_type (s + 1) = 2 then (t.dmaHead + 1) % 2 ^ h.rd d A.dma_ring_log2 (s + 1) else t.dmaHead }

/-- An accepted block stored (R273, R268): bytes, held lines, last line, and what now follows. -/
def Hw.storeBlock (h : Hw) (d s : Nat) (c : Ctx) (hd : BlkHead) (bs : List Byte) (at_ : Nat) : Hw :=
  let n := bs.length
  let lastLine := hd.first + hd.count - 1
  let h := h.store d (c.base + at_) bs
  let b : Blk := { addr := c.base + at_, len := n, port := hd.port, first := hd.first, count := hd.count, pushed := false, done := false }
  let h := h.onCtx d c.num fun x =>
    { x with blocks := x.blocks ++ [b], head := at_ + (n + 63) / 64 * 64, next := x.next.set hd.port (lastLine + 1),
             stored := x.stored + 1, bytes := x.bytes + n, last := if hd.last ∧ x.last.isNone then some lastLine else x.last }
  let h := if hd.last ∧ c.last.isNone then h.wr d A.last_line c.num lastLine else h
  let h := (h.add d A.st_blocks (s + 1)).streamDone d s n
  (((h.switchFixes d).runwayEval d).ctxDone d c.num).refreshPorts d

/-- A complete block judged by its context (R274, R275). -/
def Hw.takeBlock (h : Hw) (d s : Nat) (bs : List Byte) : Hw :=
  let hd := blkHead bs
  let n := bs.length
  let ctx := h.rd d A.st_context (s + 1)
  let fail (cause : Nat) : Hw := ((h.streamDone d s n).ctxFail d ctx cause hd.port hd.first).runwayEval d
  match if ctx = 0 then none else h.ctx? d ctx with
  | none => (h.streamDone d s n).event d Ev.ingestRefused (leBytes 1 s ++ leBytes 1 ctx ++ leBytes 1 hd.port ++ leBytes 4 hd.first)
  | some c =>
    let lastLine := hd.first + hd.count - 1
    if !h.accepts d ctx then
      (h.streamDone d s n).event d Ev.ingestRefused (leBytes 1 s ++ leBytes 1 ctx ++ leBytes 1 hd.port ++ leBytes 4 hd.first)
    else if 24 ≤ hd.port ∨ !c.ports.testBit hd.port then fail 5
    else if hd.first + hd.count ≤ c.heldTo hd.port then (h.streamDone d s n).add d A.dup_blocks (s + 1)
    else if hd.first ≠ c.heldTo hd.port then fail 2
    else if 0xFFFFFFDF < lastLine ∨ c.last.any (fun l => l < lastLine) then fail 3
    else if hd.last ∧ c.last.any (fun l => l ≠ lastLine) then fail 4
    else if hd.last ∧ c.last.isNone ∧ c.next.any (fun x => decide (lastLine + 1 < x)) then fail 3
    else
      match c.place n with
      | some at_ => h.storeBlock d s c hd bs at_
      | none => h

/-- BLOCK_STORE (R273, R274, R279): the ingest engine takes a stream's next packet, or the block that waits for room;
`mem` is an uncorrectable memory error in the job store. -/
def execBlockStore (die stream : Nat) (mem : Bool) (s : State) : Host.Outcome State Fault Refusal :=
  s.onUnit die stream 16 fun ms h =>
    let h : Hw :=
      if (h.stream die stream).waiting.isSome ∨ (h.q die stream).empty ∨ !(h.q die stream).enabled then h
      else
        let (ws, h) := h.qPopPacket ms die stream
        h.fragment die stream ws
    match (h.stream die stream).waiting with
    | none => h
    | some bs =>
      if mem then
        ((h.streamDone die stream bs.length).ctxFail die (h.rd die A.st_context (stream + 1)) 6 (blkHead bs).port
          (blkHead bs).first).runwayEval die
      else
        let h := h.takeBlock die stream bs
        h.wr die A.st_credit (stream + 1) (h.credit die stream)

end Sys2Proof.Machine
end

