-- ==== Sys2Proof/Machine/Isp.lean ====
section
/-!
DEFINITION. The ISP as functions of a frame (spec/10_belvedere_camera.md R315, R316, R319 to R321): its stages, the
statistics, the words of the records.
-/
namespace Sys2Proof.Machine

/-! ### Stage parameters of a frame -/

/-- A stage parameter in force for the frame (R317). -/
def Frame.rd (f : Frame) (a : AttrId) : Nat :=
  (regFind f.regs (rkey f.isp a f.stream)).getD (regReset (rkey f.isp a f.stream))

/-- A field of a block stage parameter in force for the frame: `n` bytes at byte `o`. -/
def Frame.blkNum (f : Frame) (a : AttrId) (o n : Nat) : Nat :=
  let k := rkey f.isp a f.stream
  let b := (regFind f.blks k).getD []
  leNat ((List.range n).map fun j => (b[o + j]?).getD (blkReset k (o + j)))

/-- The CFA channel at (`x`, `y`) (R315). -/
def Frame.chan (f : Frame) (x y : Nat) : Nat := f.rd A.cfa_map / 4 ^ (4 * (y % 4) + x % 4) % 4

/-- Stage `i` is bypassed; 5 and 6 only together (R316). -/
def Frame.bypass (f : Frame) (i : Nat) : Bool := bit (f.rd A.isp_bypass) (i - 1)

/-! ### Images -/

/-- A plane of an image, line by line. -/
abbrev Plane := List (List Nat)

/-- The sample at (`x`, `y`). -/
def Plane.at_ (p : Plane) (x y : Nat) : Nat := (p.getD y []).getD x 0

/-- A plane of the frame's width and received lines from a function of the place. -/
def Frame.plane (f : Frame) (g : Nat → Nat → Nat) : Plane :=
  (List.range f.lines).map fun y => (List.range f.w).map fun x => g x y

/-- Every stage clamps to 0 to 65,535 (R315). -/
def clamp16 (v : Nat) : Nat := min v 65535

/-- The places of the (2`n` + 1) square window around (`x`, `y`) inside the frame (R316). -/
def Frame.around (f : Frame) (n x y : Nat) : List (Nat × Nat) :=
  (List.range (2 * n + 1)).flatMap fun j => (List.range (2 * n + 1)).filterMap fun i =>
    if n ≤ x + i ∧ x + i < f.w + n ∧ n ≤ y + j ∧ y + j < f.lines + n then some (x + i - n, y + j - n) else none

/-- The mean of samples rounded down; without a sample the value is open. -/
def meanDown (l : List Nat) : Nat := if l = [] then Config.emptyMean 0 % 65536 else l.sum / l.length

/-- The mean rounded to nearest with halves up (R319); open without a sample. -/
def meanNear (l : List Nat) : Nat := if l = [] then Config.emptyMean 1 % 65536 else (2 * l.sum + l.length) / (2 * l.length)

/-! ### The stages (R316) -/

/-- Entries of the static defect map. -/
def Frame.defects (f : Frame) : List (Nat × Nat) :=
  (List.range (f.rd A.dpc_count)).map fun i => (f.blkNum A.dpc_static (4 * i) 2, f.blkNum A.dpc_static (4 * i + 2) 2)

/-- Stage 1: black level. -/
def Frame.stage1 (f : Frame) (p : Plane) : Plane := f.plane fun x y => p.at_ x y - f.black.getD (f.chan x y) 0

/-- Stage 2, static: an entry of the map takes the mean of the sound pixels of its channel in its 5 × 5 window. -/
def Frame.stage2s (f : Frame) (p : Plane) : Plane :=
  let m := f.defects
  f.plane fun x y =>
    if m.contains (x, y) then
      meanDown (((f.around 2 x y).filter fun q => f.chan q.1 q.2 == f.chan x y && !m.contains q).map fun q => p.at_ q.1 q.2)
    else p.at_ x y

/-- The neighbours of the dynamic detection: the 8 adjacent pixels of a MONO stream, else the same-channel pixels of the
5 × 5 window. -/
def Frame.neighbours (f : Frame) (p : Plane) (x y : Nat) : List Nat :=
  let mono := f.rd A.demosaic == 0
  (((f.around (if mono then 1 else 2) x y).filter fun q => q != (x, y) && (mono || f.chan q.1 q.2 == f.chan x y))).map
    fun q => p.at_ q.1 q.2

/-- Stage 2, dynamic: a pixel above its neighbours' maximum, or below their minimum, by more than `dpc_thresh`. -/
def Frame.stage2d (f : Frame) (p : Plane) : Plane :=
  f.plane fun x y =>
    let v := p.at_ x y
    match f.neighbours p x y with
    | [] => v
    | n :: ns =>
      let hi := ns.foldl max n
      let lo := ns.foldl min n
      if hi + f.rd A.dpc_thresh < v then hi else if v + f.rd A.dpc_thresh < lo then lo else v

/-- The number of places in which two planes differ. -/
def planeDiff (p q : Plane) : Nat := ((List.zipWith (fun a b => (List.zipWith (fun u v => b2n (u != v)) a b).sum) p q)).sum

/-- Node (`i`, `j`) of channel `c` of the shading grid. -/
def Frame.node (f : Frame) (c i j : Nat) : Nat := if i ≤ 32 ∧ j ≤ 24 then f.blkNum A.lsc_grid (2 * ((c * 25 + j) * 33 + i)) 2 else 0

/-- Stage 3: lens shading, the gain bilinear between nodes at multiples of (width − 1) ÷ 32 and (height − 1) ÷ 24. -/
def Frame.stage3 (f : Frame) (p : Plane) : Plane :=
  let a := f.w - 1
  let b := max 1 (f.h - 1)
  f.plane fun x y =>
    let i := 32 * x / a
    let j := 24 * y / b
    let u := 32 * x % a
    let v := 24 * y % b
    let c := f.chan x y
    let g := (f.node c i j * (a - u) + f.node c (i + 1) j * u) * (b - v) +
      (f.node c i (j + 1) * (a - u) + f.node c (i + 1) (j + 1) * u) * v
    clamp16 (p.at_ x y * g / (4096 * a * b))

/-- Stage 4: channel gains. -/
def Frame.stage4 (f : Frame) (p : Plane) : Plane :=
  f.plane fun x y => clamp16 (p.at_ x y * f.gain.getD (f.chan x y) 0 / 4096)

/-- Stage 5: plane `c` (0 R, 1 G, 2 B, 3 X) of the demosaic. -/
def Frame.stage5 (f : Frame) (p : Plane) (c : Nat) : Plane :=
  let m := f.rd A.demosaic
  f.plane fun x y =>
    if m = 0 then (if c = 3 then 0 else p.at_ x y)
    else if m = 1 ∧ c = 3 then 0
    else if f.chan x y = c then p.at_ x y
    else
      let pick (n : Nat) := ((f.around n x y).filter fun q => f.chan q.1 q.2 == c).map fun q => p.at_ q.1 q.2
      if pick 1 = [] then meanDown (pick 2) else meanDown (pick 1)

/-- Stage 6: output `o` of the colour matrix; X passes. -/
def Frame.stage6 (f : Frame) (ps : List Plane) (o : Nat) : Plane :=
  if o = 3 then ps.getD 3 []
  else
    f.plane fun x y =>
      let s := ((List.range 4).map fun i =>
        toSigned 16 (f.blkNum A.ccm (2 * (4 * o + i)) 2) * ((ps.getD i []).at_ x y : Int)).sum
      (clampInt 0 65535 (s / 4096)).toNat

/-- The frame after stage 3, with the number of pixels replaced dynamically. -/
def Frame.shaded (f : Frame) (raw : Plane) : Plane × Nat :=
  let p := if f.bypass 1 then raw else f.stage1 raw
  let s := if f.bypass 2 then p else f.stage2s p
  let q := if f.bypass 2 ∨ f.rd A.dpc_dyn_en = 0 then s else f.stage2d s
  (if f.bypass 3 then q else f.stage3 q, planeDiff s q)

/-- A view of the frame: the sample of plane `c` at a place, where that plane has one there. -/
abbrev View := Nat → Nat → Nat → Option Nat

/-- The CFA planes, each over its own pixels. -/
def Frame.cfaView (f : Frame) (p : Plane) : View := fun c x y => if f.chan x y = c then some (p.at_ x y) else none

/-- The planes after demosaic; with stages 5 and 6 bypassed the CFA planes remain. -/
def Frame.demosaicView (f : Frame) (p : Plane) : View :=
  if f.bypass 5 then f.cfaView p
  else
    let ps := (List.range 4).map (f.stage5 p)
    fun c x y => some ((ps.getD c []).at_ x y)

/-- The planes after the colour matrix. -/
def Frame.colourView (f : Frame) (p : Plane) : View :=
  if f.bypass 6 then f.cfaView p
  else
    let ps := (List.range 4).map (f.stage5 p)
    let qs := (List.range 4).map (f.stage6 ps)
    fun c x y => some ((qs.getD c []).at_ x y)

/-! ### Statistics (R319) -/

/-- The samples of plane `c` in a rectangle. -/
def View.box (v : View) (c x y w h : Nat) : List (Nat × Nat × Nat) :=
  (List.range h).flatMap fun j => (List.range w).filterMap fun i => (v c (x + i) (y + j)).map fun s => (x + i, y + j, s)

/-- A rectangle of 8 bytes at byte `o` of a table: x, y, w, h. -/
def Frame.rect (f : Frame) (a : AttrId) (o : Nat) : Nat × Nat × Nat × Nat :=
  (f.blkNum a o 2, f.blkNum a (o + 2) 2, f.blkNum a (o + 4) 2, f.blkNum a (o + 6) 2)

/-- A rectangle lies wholly within the received lines. -/
def Frame.within (f : Frame) (r : Nat × Nat × Nat × Nat) : Bool :=
  decide (r.1 + r.2.2.1 ≤ f.w) && decide (r.2.1 + r.2.2.2 ≤ f.lines)

/-- The word of a ROI: the mean of each plane, 0xFFFF where the ROI is not wholly received. -/
def Frame.roiWord (f : Frame) (v : View) (i : Nat) : Nat :=
  let r := f.rect A.roi_table (8 * i)
  ((List.range 4).map fun c =>
    (if f.within r then min 0xFFFE (meanNear ((v.box c r.1 r.2.1 r.2.2.1 r.2.2.2).map (·.2.2))) else 0xFFFF) * 2 ^ (16 * c)).sum

/-- The part of a rectangle inside the received lines. -/
def Frame.inside (f : Frame) (r : Nat × Nat × Nat × Nat) : Nat × Nat × Nat × Nat :=
  (r.1, r.2.1, min r.2.2.1 (f.w - r.1), min r.2.2.2 (f.lines - r.2.1))

/-- The 128 words of plane `c`'s histogram. -/
def Frame.histWords (f : Frame) (v : View) (c : Nat) : List Nat :=
  let b := f.rd A.hist_roi
  let r := f.inside (bits b 15 0, bits b 31 16, bits b 47 32, bits b 63 48)
  let l := (v.box c r.1 r.2.1 r.2.2.1 r.2.2.2).map fun s => min 255 (s.2.2 / 2 ^ f.rd A.hist_shift)
  let n (i : Nat) := satNat (2 ^ 32 - 1) (l.count i)
  (List.range 128).map fun i => n (2 * i) + n (2 * i + 1) * 2 ^ 32

/-- The bins of the column profile, over the received lines. -/
def Frame.profile (f : Frame) (v : View) : List Nat :=
  let b := f.rd A.cp_y0
  let y := bits b 31 16
  let h := min (bits b 15 0) (f.lines - y)
  let n := f.rd A.cp_bin
  (List.range ((f.w + n - 1) / n)).map fun i =>
    meanNear ((v.box (f.rd A.cp_plane) (n * i) y (min n (f.w - n * i)) h).map (·.2.2))

/-- The word of mark window `i`: centroid in 1/256 pixel and the number of pixels below the threshold. -/
def Frame.markWord (f : Frame) (v : View) (i : Nat) : Nat :=
  let r := f.rect A.mark_table (8 * i)
  let t := f.rd A.mark_thresh
  let l := if f.within r then (v.box (f.rd A.mark_plane) r.1 r.2.1 r.2.2.1 r.2.2.2).filter fun s => decide (s.2.2 < t) else []
  let wsum := (l.map fun s => t - s.2.2).sum
  let near (a : Nat) := (2 * 256 * a + wsum) / (2 * wsum)
  if l = [] then 0
  else near ((l.map fun s => (t - s.2.2) * s.1).sum) * 2 ^ 40 + near ((l.map fun s => (t - s.2.2) * s.2.1).sum) * 2 ^ 16 +
    satNat 0xFFFF l.length

/-! ### Records (R320, R321) -/

/-- The header of a record. -/
def Frame.header (f : Frame) (kind part len : Nat) : List Nat :=
  [kind * 2 ^ 56 + f.cam * 2 ^ 48 + part % 256 * 2 ^ 40 + f.flags % 256 * 2 ^ 32 + f.band * 2 ^ 24 + f.gen * 2 ^ 16 + len,
    f.num * 2 ^ 32 + f.pset * 2 ^ 16 + f.lines % 2 ^ 16, f.exposure % 2 ^ 64, ofSigned 64 f.pair.lpos, f.pair.tb1,
    f.pair.seq % 2 ^ 32 * 2 ^ 32 + ofSigned 32 f.pair.speed]

/-- Kinds of record. -/
abbrev kFrame : Nat := 1
abbrev kRoi : Nat := 2
abbrev kHist : Nat := 3
abbrev kCol : Nat := 4
abbrev kMark : Nat := 5
abbrev kDesc : Nat := 6

/-- Groups of `n`. -/
def chunks (n : Nat) (l : List Nat) : List (List Nat) :=
  (List.range ((l.length + n - 1) / n)).map fun i => (l.drop (n * i)).take n

/-- Four 16-bit values to a word, the lowest first. -/
def pack16 (l : List Nat) : List Nat :=
  (chunks 4 l).map fun g => ((List.range 4).map fun i => g.getD i 0 % 65536 * 2 ^ (16 * i)).sum

/-- Chunks numbered from 0. -/
def numbered (l : List (List Nat)) : List (Nat × List Nat) := (List.range l.length).zip l

/-- The statistics of a frame in their order (R322): kind, part, body words. -/
def Frame.stats (f : Frame) (v : View) : List (Nat × Nat × List Nat) :=
  (numbered (chunks 256 ((List.range (f.rd A.roi_count)).map (f.roiWord v)))).map (fun x => (kRoi, x.1, x.2)) ++
    ((List.range 4).filter fun c => bit (f.rd A.hist_en) c).map (fun c => (kHist, c, f.histWords v c)) ++
    (if f.rd A.cp_plane < 4 then (numbered (chunks 1024 (f.profile v))).map (fun x => (kCol, x.1, pack16 x.2)) else []) ++
    if f.rd A.stats_mark_count = 0 then [] else [(kMark, 0, (List.range (f.rd A.stats_mark_count)).map (f.markWord v))]

/-- The body of a FRAME record. -/
def Frame.frameBody (f : Frame) : List Nat :=
  [f.sensor % 2 ^ 16 * 2 ^ 48 + satNat 0xFFFF f.crcs * 2 ^ 32 + satNat 0xFFFF f.lens * 2 ^ 16 + satNat 0xFFFF f.lost]

end Sys2Proof.Machine
end

