-- ==== Sys2Proof/Machine/Camera.lean ====
section
/-!
DEFINITION. Camera ports, frames, parameter sets and the ISP's work (spec/10_belvedere_camera.md).
-/
namespace Sys2Proof.Machine

/-! ### Ports and slots (R303, R308) -/

/-- The states of a camera port (`cam_state`). -/
abbrev camOFF : Nat := 0
abbrev camREADY : Nat := 1
abbrev camRUN : Nat := 2

/-- Camera port `c` of die `d`. -/
def Hw.cam (h : Hw) (d c : Nat) : Cam := (h.die d).cams.getD c {}

/-- A camera port changed. -/
def Hw.onCam (h : Hw) (d c : Nat) (f : Cam → Cam) : Hw := h.onDie d fun D => { D with cams := D.cams.modify c f }

/-- A camera port enters a state. -/
def Hw.camTo (h : Hw) (d c new : Nat) : Hw :=
  let old := h.rd d A.cam_state c
  (h.wr d A.cam_state c new).event d Ev.camState (leBytes 1 (2 * d + c) ++ leBytes 1 old ++ leBytes 1 new)

/-- The states of a frame-store slot. -/
abbrev slFREE : Nat := 0
abbrev slFILLING : Nat := 1
abbrev slPROCESS : Nat := 2
abbrev slHELD : Nat := 3

/-- The state of slot `i` of a camera. -/
def Hw.slotOf (h : Hw) (d c i : Nat) : Nat := h.rd d A.slot_state c / 4 ^ i % 4

/-- A slot's state set. -/
def Hw.setSlot (h : Hw) (d c i v : Nat) : Hw :=
  h.wr d A.slot_state c (h.rd d A.slot_state c - h.slotOf d c i * 4 ^ i + v * 4 ^ i)

/-- The lowest FREE slot of a camera (R309). -/
def Hw.freeSlot (h : Hw) (d c : Nat) : Option Nat := (List.range (h.rd d A.fs_slots c)).find? fun i => h.slotOf d c i == slFREE

/-- The address of a slot on the camera's ISP die. -/
def Hw.slotAddr (h : Hw) (d c i : Nat) : Nat := h.rd d A.fs_base c + i * h.rd d A.fs_slot_bytes c

/-- Bits that RAW*m* samples are shifted left by (R315). -/
def rawShift (dt : Nat) : Nat := if dt = 0x2A then 6 else if dt = 0x2B then 4 else if dt = 0x2C then 2 else 0

/-! ### Parameter sets (R324, R325) -/

/-- A field of parameter set `s`. -/
def Hw.psetNum (h : Hw) (d c s o n : Nat) : Nat := h.blkNum d A.pset_table c (160 * s + o) n

/-- The ID of a set. -/
def Hw.psetId (h : Hw) (d c s : Nat) : Nat := h.psetNum d c s 0 2

/-- Register and value bytes of an I2C write. -/
def Hw.i2cReg (h : Hw) (d c : Nat) : Nat := bits (h.rd d A.i2c_reg_bytes c) 3 2
def Hw.i2cVal (h : Hw) (d c : Nat) : Nat := bits (h.rd d A.i2c_reg_bytes c) 1 0

/-- The time of a set's write list in ns (R325). -/
def Hw.listTime (h : Hw) (d c s : Nat) : Nat :=
  h.psetNum d c s 2 1 * (9 * (1 + h.i2cReg d c + h.i2cVal d c) + 2) * 10 ^ 6 / h.rd d A.i2c_khz c

/-- The most significant byte first. -/
def beBytes (n v : Nat) : List Byte := (leBytes n v).reverse

/-- A set's write list starts on the pins (R325, R326). -/
def Hw.listStart (h : Hw) (d c s : Nat) : Hw :=
  let h := (List.range (h.psetNum d c s 2 1)).foldl (fun (h : Hw) w =>
    h.emit (.i2c d c (h.rd d A.i2c_addr c)
      (beBytes (h.i2cReg d c) (h.psetNum d c s (34 + 4 * w) 2) ++ beBytes (h.i2cVal d c) (h.psetNum d c s (32 + 4 * w) 2)) 0)) h
  let h := match (h.cam d c).gap with
    | some g =>
      if g < h.listTime d c s + 1000 * h.rd d A.i2c_guard_us c then
        h.event d Ev.camGapShort (leBytes 1 (2 * d + c) ++ leBytes 4 (h.listTime d c s / 1000) ++ leBytes 4 (g / 1000))
      else h
    | none => h
  h.onCam d c fun C => { C with writing := some s }

/-- The signed difference of two frame numbers (R310). -/
def frameDiff (a b : Nat) : Int := seqDiff a b

/-- A pending apply's effect moves to the next frame (R328). -/
def Hw.applyLate (h : Hw) (d c : Nat) (a : Apply) (shift : Bool) : Hw :=
  let e := (a.effect + 1) % 2 ^ 32
  let upd (x : Apply) : Apply :=
    if x.id = a.id then { x with effect := e, window := if shift then (x.window + 1) % 2 ^ 32 else x.window } else x
  let h := h.onCam d c fun C => { C with applies := C.applies.map upd }
  (h.movePoint a.id { kind := 3, ctx := 0, point := e }).event d Ev.camPsetLate
    (leBytes 1 (2 * d + c) ++ leBytes 2 (h.psetId d c a.set) ++ leBytes 4 a.effect ++ leBytes 4 e)

/-! ### Frames (R310 to R313) -/

/-- Flag bits of a frame (R320). -/
abbrev flSHORT : Nat := 1
abbrev flLONG : Nat := 2
abbrev flNOFE : Nat := 4
abbrev flPKTERR : Nat := 8
abbrev flNOTRIG : Nat := 16
abbrev flMIXED : Nat := 32
abbrev flRECLOST : Nat := 64
abbrev flNOSLOT : Nat := 128

/-- A flag set. -/
def Frame.flag (f : Frame) (b : Nat) : Frame := { f with flags := f.flags ||| b }

/-- A record of a frame pushed (R322, R323): a lost one is counted and marks the frame's later records. -/
def Hw.record (h : Hw) (queue agent : Nat) (f : Frame) (kind part : Nat) (body : List Nat) : Frame × Hw :=
  let ws := f.header kind part (6 + body.length) ++ body
  let (r, h) := h.qPushPacket f.isp queue agent ws
  if r = .committed then (f, h.add f.isp A.records f.stream)
  else
    (f.flag flRECLOST, (h.add f.isp A.records_lost f.stream).event f.isp Ev.statsLost
      (leBytes 1 f.stream ++ leBytes 4 f.num ++ leBytes 1 kind))

/-- The records of a frame's statistics and its FRAME record (R322). -/
def Hw.records (h : Hw) (f : Frame) (l : List (Nat × Nat × List Nat)) : Frame × Hw :=
  (l ++ [(kFrame, 0, f.frameBody)]).foldl
    (fun (x : Frame × Hw) (r : Nat × Nat × List Nat) => x.2.record (x.1.rd A.stats_queue) 0x07 x.1 r.1 r.2.1 r.2.2) (f, h)

/-- A slot handed to the consumer by a descriptor (R308, R322); a slot whose descriptor is lost is FREE again. -/
def Hw.descriptor (h : Hw) (f : Frame) (content slot bytesPer : Nat) : Hw :=
  let d := f.cam / 2
  let c := f.cam % 2
  let (g, h) := h.record (h.rd d A.desc_queue c) 0x06 f kDesc 0
    [content * 2 ^ 48 + slot * 2 ^ 40 + h.slotAddr d c slot, f.lines * f.w * bytesPer * 2 ^ 32 + f.w * 2 ^ 16 + f.lines]
  h.setSlot d c slot (if g.flags &&& flRECLOST = f.flags &&& flRECLOST then slHELD else slFREE)

/-- The open frame closes (R312, R313). -/
def Hw.closeFrame (h : Hw) (d c : Nat) (noFe : Bool) : Hw :=
  match (h.cam d c).open_ with
  | none => h
  | some f =>
    let f : Frame := if f.lines < f.h then f.flag flSHORT else f
    let f : Frame := { (if noFe then f.flag flNOFE else f) with endAt := h.clk }
    let h := h.add d A.frames c
    let h := if f.lines < f.h then h.add d A.short_frames c else h
    let h := if f.flags.testBit 1 then h.add d A.long_frames c else h
    let h := if noFe then h.add d A.no_fe c else h
    let h := if f.flags % 16 ≠ 0 then
        h.event d Ev.camFrameErr (leBytes 1 f.cam ++ leBytes 4 f.num ++ leBytes 1 f.flags ++ leBytes 2 f.lines)
      else h
    let h := h.onCam d c fun C => { C with open_ := none, lastEnd := some h.clk }
    if f.stream ≠ 0 ∧ f.slot = none then (h.records f []).2
    else h.onCam d c fun C => { C with closed := C.closed ++ [f] }

/-- The camera's write window opens at the frame end of frame `n` (R326): the list planned for it starts. -/
def Hw.window (h : Hw) (d c n : Nat) : Hw :=
  match (h.cam d c).applies.find? fun a => a.window = n ∧ !a.written with
  | some a => if (h.cam d c).writing.isSome then h else h.listStart d c a.set
  | none => h

/-- A frame end after the frame's closure by timeout opens the write window all the same (R326). -/
def Hw.lateEnd (h : Hw) (d c : Nat) : Hw :=
  match (h.cam d c).newest with
  | some n => if (h.cam d c).timedOut then h.window d c n else h
  | none => h

/-- Before frame `n` opens: the list that is still written, or whose window did not open, is late (R328). -/
def Hw.lateLists (h : Hw) (d c n : Nat) : Hw :=
  (h.cam d c).applies.foldl (fun h a =>
    if a.written ∨ frameDiff n a.window ≤ 0 then h
    else if (h.cam d c).writing = some a.set then
      (h.onCam d c fun C => { C with mixed := a.effect :: C.mixed }).applyLate d c a false
    else h.applyLate d c a true) h

/-- The completed list that takes effect on frame `n` (R326). -/
def Hw.takeSet (h : Hw) (d c n : Nat) : Hw :=
  match (h.cam d c).applies.find? fun a => a.written && decide (0 ≤ frameDiff n a.effect) with
  | none => h
  | some a =>
    let h := h.onCam d c fun C => { C with applies := C.applies.filter fun x => x.id ≠ a.id, unknown := none }
    let h := (h.settle a.id 0).wr d A.pset_active c a.set
    h.event d Ev.camPsetDone (leBytes 1 (2 * d + c) ++ leBytes 2 (h.psetId d c a.set) ++ leBytes 4 n)

/-- The stage parameters of a stream as they stand (R317). -/
def ofStream (isp stream : Nat) (k : RegKey) : Bool := k.die == isp && (k.cls == 0x0E || k.cls == 0x0F) && k.inst == stream

/-- A frame with its exposure: the trigger within the window, or its own start (R311). -/
def Hw.expose (h : Hw) (d c : Nat) (f : Frame) : Frame :=
  let own : Frame := { f with exposure := h.tb d 1, pair := (h.pos d).newest, band := 0xFF }.flag flNOTRIG
  if 8 ≤ h.rd d A.trig_pulse c then own
  else
    match (h.cam d c).trig with
    | some t =>
      if h.tb d 1 ≤ t.t + 1000 * h.rd d A.trig_window_us c then { f with exposure := t.t, pair := t.pair, band := t.band } else own
    | none => own

/-- The tap of a frame asked for by `tap_every` or SNAP (R318). -/
def Hw.tapped (h : Hw) (d c n : Nat) : Bool :=
  h.rd d A.tap c != 0 && (if h.rd d A.tap_every c = 0 then (h.cam d c).snap else n % h.rd d A.tap_every c == 0)

/-- A slot taken for a frame or tap; none FREE gives NO_SLOT (R309). -/
def Hw.takeSlot (h : Hw) (d c : Nat) (f : Frame) : Option Nat × Frame × Hw :=
  match h.freeSlot d c with
  | some i => (some i, f, h.setSlot d c i slFILLING)
  | none => (none, f.flag flNOSLOT, h.event d Ev.camNoSlot (leBytes 1 (2 * d + c) ++ leBytes 4 f.num))

/-- A frame opens (R310). -/
def Hw.openFrame (h : Hw) (d c sensor : Nat) : Hw :=
  let C := h.cam d c
  let n := match C.newest with
    | some m => (m + 1) % 2 ^ 32
    | none => 0
  let h := match C.lastEnd with
    | some t => h.onCam d c fun C => { C with gap := some (h.clk - t) }
    | none => h
  let h := (h.lateLists d c n).takeSet d c n
  let C := h.cam d c
  let set := h.rd d A.pset_active c
  let isp := h.rd d A.isp_die c
  let stream := h.rd d A.stream c
  let black := (List.range 4).map fun i => h.psetNum d c set (4 + 2 * i) 2
  let gain := (List.range 4).map fun i => h.psetNum d c set (12 + 2 * i) 2
  let pack (l : List Nat) := l.foldr (fun v acc => acc * 65536 + v) 0
  let h := (h.wr isp A.black stream (pack black)).wr isp A.gain stream (pack gain)
  let mixed := C.mixed.contains n || C.unknown.any fun u => decide (0 ≤ frameDiff n u)
  let f : Frame := {
    cam := 2 * d + c, num := n, sensor := sensor, flags := 0, band := 0xFF, gen := h.rd isp A.cfg_gen stream,
    pset := if mixed then 0xFFFF else h.psetId d c set, exposure := 0, pair := {}, isp := isp, stream := stream,
    w := h.rd d A.width c, h := h.rd d A.height c, black := black, gain := gain,
    regs := h.regs.filter fun x => ofStream isp stream x.1, blks := h.blks.filter fun x => ofStream isp stream x.1 }
  let f := h.expose d c (if mixed then f.flag flMIXED else f)
  let (slot, f, h) := if stream = 0 then (none, f, h) else h.takeSlot d c f
  let h := if stream ≠ 0 ∧ slot = none then h.add d A.no_slot c else h
  let tap := h.tapped d c n
  let kind := h.rd d A.tap c
  let own := tap ∧ !(stream ≠ 0 ∧ (kind = 1 ∨ slot = none))
  let (tslot, f, h) := if own then h.takeSlot d c f else (none, f, h)
  let f := { f with slot := slot, tap := if own then tslot else slot,
                    tapKind := if tap ∧ (own → tslot ≠ none) then kind else 0 }
  let h := h.wr d A.frame_count c n
  h.onCam d c fun C =>
    { C with open_ := some f, newest := some n, trig := none, timedOut := false, mixed := C.mixed.filter fun m => m ≠ n,
             snap := C.snap && !(tap && h.rd d A.tap_every c == 0) }

/-- A camera in RUN whose first write list has ended receives. -/
def Hw.receiving (h : Hw) (d c : Nat) : Bool := h.rd d A.cam_state c == camRUN && !(h.cam d c).first

/-- CSI_FRAME_START (R310, R312); `t` is TB1 in units of 2^-16 ns. -/
def execCsiFrameStart (die cam num t : Nat) (s : State) : Host.Outcome State Fault Refusal :=
  s.onUnit die cam 2 fun _ h =>
    let h := h.until die t
    if h.receiving die cam then (h.closeFrame die cam true).openFrame die cam num else h

/-- CSI_FRAME_END (R312, R326): the frame end of a frame that its timeout has closed still opens the write window. -/
def execCsiFrameEnd (die cam t : Nat) (s : State) : Host.Outcome State Fault Refusal :=
  s.onUnit die cam 2 fun _ h =>
    let h := h.until die t
    match (h.cam die cam).open_ with
    | some f => if h.receiving die cam then (h.closeFrame die cam false).window die cam f.num else h
    | none => if h.receiving die cam then h.lateEnd die cam else h

/-- FRAME_TIMEOUT (R312). -/
def execFrameTimeout (die cam : Nat) (s : State) : Host.Outcome State Fault Refusal :=
  s.onUnit die cam 2 fun _ h =>
    if (h.cam die cam).open_.isSome then
      (h.closeFrame die cam true).onCam die cam fun C => { C with timedOut := true }
    else h

/-- A line of samples as the formatter hands it on (R314, R315): shifted to 14 bits, padded with the channel's black level,
truncated. -/
def Frame.line (f : Frame) (dt : Nat) (px : List Nat) : List Nat :=
  (List.range f.w).map fun x =>
    match px[x]? with
    | some v => v % 2 ^ (14 - rawShift dt) * 2 ^ rawShift dt
    | none => f.black.getD (f.chan x f.lines) 0

/-- CSI_LINE (R302, R306, R312 to R314): a long packet on virtual channel `vc` of data type `dt`; `ecc` 0 a good header, 1
corrected, 2 uncorrectable; `lost`, two lines of stream 0 wait for the ISP. -/
def execCsiLine (die cam vc dt ecc : Nat) (crcOk lost : Bool) (px : List Nat) (s : State) : Host.Outcome State Fault Refusal :=
  s.onUnit die cam 2 fun _ h =>
    if !h.receiving die cam then h
    else if 2 ≤ ecc then h.add die A.ecc_fatal cam
    else
      let h := if ecc = 1 then h.add die A.ecc_fixed cam else h
      if vc ≠ h.rd die A.vc cam then h
      else if dt ≠ h.rd die A.data_type cam then h.add die A.other_pkts cam
      else
        match (h.cam die cam).open_ with
        | none => if (h.cam die cam).timedOut then h.add die A.orphan_lines cam else h
        | some f =>
          if f.h ≤ f.lines then h.onCam die cam fun C => { C with open_ := some (f.flag flLONG) }
          else
            let short := px.length ≠ f.w
            let full := lost ∧ f.stream = 0
            let h := if short then h.add die A.len_errs cam else h
            let h := if crcOk then h else h.add die A.cam_crc_errs cam
            let h := if full then h.add f.isp A.isp_overruns 0 else h
            let f := if short ∨ !crcOk ∨ full then f.flag flPKTERR else f
            let row := f.line dt px
            let row := if full then f.rows.getLast?.getD row else row
            let h := match f.slot with
              | some i => h.store f.isp (h.slotAddr die cam i + 2 * f.w * f.lines) (row.flatMap (leBytes 2))
              | none => h
            let g := { f with lines := f.lines + 1, rows := if f.stream = 0 then f.rows ++ [row] else f.rows,
                              crcs := f.crcs + b2n (!crcOk), lens := f.lens + b2n (decide short), lost := f.lost + b2n (decide full) }
            h.onCam die cam fun C => { C with open_ := some g }

/-- PSET_LIST_COMPLETE (R326, R328, R329): the final STOP of the list under way, `result` 0, or its early end at write
`index`. -/
def execPsetListComplete (die cam result index : Nat) (s : State) : Host.Outcome State Fault Refusal :=
  s.onUnit die cam 2 fun _ h =>
    let C := h.cam die cam
    match C.writing with
    | none => h
    | some set =>
      let h := h.onCam die cam fun C => { C with writing := none, first := false }
      let h := if result = 0 then h
        else h.event die Ev.camI2cErr (leBytes 1 (2 * die + cam) ++ leBytes 1 index ++ leBytes 1 result)
      if C.first then (if result = 0 then h else h.onCam die cam fun C => { C with unknown := some 0 })
      else
        match C.applies.find? fun a => a.set = set ∧ !a.written with
        | none => h
        | some a =>
          if result = 0 then
            let upd (x : Apply) : Apply := if x.id = a.id then { x with written := true } else x
            h.onCam die cam fun C => { C with applies := C.applies.map upd }
          else
            (h.settle a.id Status.check.code).onCam die cam fun C =>
              { C with applies := C.applies.filter fun x => x.id ≠ a.id, unknown := some (C.unknown.getD a.effect) }

/-! ### The ISP's work (R305, R317 to R322) -/

/-- The raw lines of a frame: kept for stream 0, read from its slot otherwise. -/
def Hw.rawLines (h : Hw) (ms : List (List Host.Cell)) (f : Frame) : Plane :=
  match f.slot with
  | some i =>
    let a := h.slotAddr (f.cam / 2) (f.cam % 2) i
    f.plane fun x y => h.num ms f.isp (a + 2 * (f.w * y + x)) 2
  | none => f.rows

/-- The bytes of a tap (R318). -/
def Frame.tapBytes (f : Frame) (raw shaded : Plane) : List Byte :=
  let one (p : Plane) := p.flatMap fun l => l.flatMap (leBytes 2)
  match f.tapKind with
  | 1 => one raw
  | 2 => one shaded
  | _ =>
    let v := f.demosaicView (if f.bypass 4 then shaded else f.stage4 shaded)
    (List.range f.lines).flatMap fun y => (List.range f.w).flatMap fun x =>
      (List.range 4).flatMap fun c => leBytes 2 ((v c x y).getD 0)

/-- A processed frame: statistics, FRAME record, tap and raw slot. -/
def Hw.frameDone (h : Hw) (ms : List (List Host.Cell)) (f : Frame) : Hw :=
  let d := f.cam / 2
  let c := f.cam % 2
  let raw := h.rawLines ms f
  let (sh, n) := f.shaded raw
  let p4 := if f.bypass 4 then sh else f.stage4 sh
  let h := h.add f.isp A.dpc_dynamic f.stream n
  let (f, h) := h.records f (f.stats (if f.rd A.stats_point = 0 then f.cfaView p4 else f.colourView p4))
  let h := match f.slot with
    | some i => if f.tapKind = 1 then h.descriptor f 1 i 2 else h.setSlot d c i slFREE
    | none => h
  match f.tap with
  | some i =>
    if f.tapKind = 0 ∨ f.slot = some i then h
    else
      (h.store f.isp (h.slotAddr d c i) (f.tapBytes raw sh)).descriptor f f.tapKind i (if f.tapKind = 3 then 8 else 2)
  | none => h

/-- Closed memory-path frames of the cameras that a die processes: priority, frame end, die, port, frame. -/
def Hw.mpWaiting (h : Hw) (isp : Nat) : List (Nat × Nat × Frame) :=
  (List.range h.n).flatMap fun d => (List.range 2).flatMap fun c =>
    ((h.cam d c).closed.filter fun f => f.isp == isp && f.stream != 0).map fun f => (h.rd isp A.mp_priority f.stream, f.endAt, f)

/-- MP_FRAME_PROCESS (R305): the waiting frame of the lowest `mp_priority`, the earliest frame end among equals, starts
unless one of the same or a lower value is under way. -/
def execMpFrameProcess (die : Nat) (s : State) : Host.Outcome State Fault Refusal :=
  s.onDie die fun _ h =>
    match h.mpWaiting die with
    | [] => h
    | x :: xs =>
      let (p, _, f) := xs.foldl (fun b y => if y.1 < b.1 ∨ (y.1 = b.1 ∧ y.2.1 < b.2.1) then y else b) x
      if (h.die die).ispRun.any fun g => decide (h.rd die A.mp_priority g.stream ≤ p) then h
      else
        let d := f.cam / 2
        let c := f.cam % 2
        let h := h.onCam d c fun C => { C with closed := C.closed.filter fun g => g.num ≠ f.num }
        let h := match f.slot with
          | some i => h.setSlot d c i slPROCESS
          | none => h
        h.onDie die fun D => { D with ispRun := D.ispRun ++ [f] }

/-- ISP_FRAME_DONE (R322): stream 0's oldest closed frame, or the memory-path frame of that stream under way. -/
def execIspFrameDone (die stream : Nat) (s : State) : Host.Outcome State Fault Refusal :=
  s.onUnit die stream 9 fun ms h =>
    if stream = 0 then
      match (h.cam die 0).closed.find? fun f => f.stream = 0 with
      | some f => (h.onCam die 0 fun C => { C with closed := C.closed.filter fun g => g.num ≠ f.num || g.stream ≠ 0 }).frameDone ms f
      | none => h
    else
      match (h.die die).ispRun.find? fun f => f.stream = stream with
      | some f =>
        let h := h.onDie die fun D => { D with ispRun := D.ispRun.filter fun g => g.stream ≠ stream }
        let us := (h.clk - f.endAt) / 1000
        let h := if h.rd die A.mp_latency_max_us stream < us then h.wr die A.mp_latency_max_us stream us else h
        h.frameDone ms f
      | none => h

/-! ### Triggers (R311) -/

/-- A pulse on output `out`: each camera of the die that it triggers latches the newest pair and the band. -/
def Hw.camTrigger (h : Hw) (d out band : Nat) : Hw :=
  (List.range 2).foldl (fun (h : Hw) c =>
    if h.rd d A.trig_pulse c = out ∧ h.rd d A.cam_state c = camRUN then
      let h := if (h.cam d c).trig.isSome then h.add d A.trig_miss c else h
      h.onCam d c fun C => { C with trig := some { t := h.tb d 1, pair := (h.pos d).newest, band := band } }
    else h) h

/-! ### CAM_CTRL (R303, R304, R308, R322, R333) -/

/-- CAM_WAKE. -/
def execCamWake (h : Hdr) (port : Nat) (s : State) : Host.Outcome State Fault Refusal :=
  s.command h 0x0801 (opObj 0x0801 port) fun _ d hw =>
    if 2 ≤ port then refuse .range hw
    else if hw.rd d A.cam_state port ≠ camOFF then refuse .state hw
    else okWith ((hw.wr d A.stream port 15).camTo d port camREADY)

/-- The cameras of other dies that a die processes. -/
def Hw.forwarded (h : Hw) (isp : Nat) : Nat := ((List.range 7).filter fun i => h.rd isp A.stream_cam (i + 2) != 0xFF).length

/-- The stream that a camera would take on its ISP die (R304): a die takes one forwarded camera less than its package has
dies (spec/01_architecture.md, the variant table). -/
def Hw.streamFor (h : Hw) (d c isp : Nat) : Option Nat :=
  if isp = d then some c
  else if h.n - 1 ≤ h.forwarded isp then none
  else (List.range 7).findSome? fun i => if h.rd isp A.stream_cam (i + 2) = 0xFF then some (i + 2) else none

/-- A queue that CAM_CTRL ENABLE accepts (R322). -/
def Hw.camQueueOk (h : Hw) (isp q : Nat) : Bool := (h.q isp q).enabled && decide (512 ≤ (h.q isp q).size)

/-- CAM_ENABLE. -/
def execCamEnable (h : Hdr) (port : Nat) (s : State) : Host.Outcome State Fault Refusal :=
  s.command h 0x0801 (opObj 0x0801 port) fun _ d hw =>
    let isp := hw.rd d A.isp_die port
    let px := hw.rd d A.width port * hw.rd d A.height port
    if 2 ≤ port then refuse .range hw
    else if hw.rd d A.cam_state port ≠ camREADY then refuse .state hw
    else if hw.n ≤ isp ∨ hw.rd d A.fs_slot_bytes port < (if hw.rd d A.tap port = 3 then 8 else 2) * px then refuse .range hw
    else
      match hw.streamFor d port isp with
      | none => refuse .noSpace hw
      | some st =>
        if (st ≠ 0 ∧ hw.rd d A.fs_slots port = 0) ∨ !hw.camQueueOk isp (hw.rd isp A.stats_queue st) ∨
            !hw.camQueueOk isp (hw.rd d A.desc_queue port) then refuse .range hw
        else
          let hw := (hw.wr isp A.stream_cam st (2 * d + port)).wr d A.stream port st
          let hw := (hw.wr d A.frame_count port 0).wr d A.pset_active port 0
          let hw := hw.onCam d port fun C => { closed := C.closed, first := true }
          okWith ((hw.camTo d port camRUN).listStart d port 0)

/-- A frame whose tap has lost its slot. -/
def dropTap (f : Frame) : Frame := { f with tap := none, tapKind := 0 }

/-- CAM_DISABLE. -/
def execCamDisable (h : Hdr) (port : Nat) (s : State) : Host.Outcome State Fault Refusal :=
  s.command h 0x0801 (opObj 0x0801 port) fun _ d hw =>
    if 2 ≤ port then refuse .range hw
    else if hw.rd d A.cam_state port ≠ camRUN then refuse .state hw
    else
      let hw := hw.closeFrame d port true
      let hw := (hw.cam d port).applies.foldl (fun hw a => hw.settle a.id Status.state.code) hw
      let st := hw.rd d A.stream port
      let hw := hw.onDie (hw.rd d A.isp_die port) fun D => { D with ispRun := D.ispRun.filter fun f => f.cam ≠ 2 * d + port }
      let hw := hw.onCam d port fun C => { closed := (C.closed.filter fun f => f.stream = 0).map dropTap }
      let hw := (List.range 64).foldl (fun (hw : Hw) i =>
        if hw.slotOf d port i = slHELD then hw else hw.setSlot d port i slFREE) hw
      let hw := (hw.wr (hw.rd d A.isp_die port) A.stream_cam st 0xFF).wr d A.stream port 15
      okWith (hw.camTo d port camREADY)

/-- CAM_SLEEP. -/
def execCamSleep (h : Hdr) (port : Nat) (s : State) : Host.Outcome State Fault Refusal :=
  s.command h 0x0801 (opObj 0x0801 port) fun _ d hw =>
    if 2 ≤ port then refuse .range hw
    else if hw.rd d A.cam_state port ≠ camREADY then refuse .state hw
    else okWith (hw.camTo d port camOFF)

/-- CAM_SNAP (R318). -/
def execCamSnap (h : Hdr) (port : Nat) (s : State) : Host.Outcome State Fault Refusal :=
  s.command h 0x0801 (opObj 0x0801 port) fun _ d hw =>
    if 2 ≤ port then refuse .range hw
    else if hw.rd d A.cam_state port ≠ camRUN then refuse .state hw
    else okWith (hw.onCam d port fun C => { C with snap := true })

/-- CAM_RELEASE (R333): every named slot, or none. -/
def execCamRelease (h : Hdr) (port slots : Nat) (s : State) : Host.Outcome State Fault Refusal :=
  s.command h 0x0801 (opObj 0x0801 port) fun _ d hw =>
    let l := (List.range 64).filter fun i => slots.testBit i
    if 2 ≤ port then refuse .range hw
    else if l.any fun i => hw.slotOf d port i != slHELD then refuse .state hw
    else okWith (l.foldl (fun (hw : Hw) i => hw.setSlot d port i slFREE) hw)

/-! ### CAM_APPLY and CAM_I2C -/

/-- The earliest write window (R327): that of the open frame, else of the next one. -/
def Cam.firstWindow (C : Cam) : Nat :=
  match C.newest with
  | some n => if C.open_.isSome then n else (n + 1) % 2 ^ 32
  | none => 0

/-- CAM_APPLY (R327). -/
def execCamApply (h : Hdr) (port set frame : Nat) (s : State) : Host.Outcome State Fault Refusal :=
  s.command h 0x0802 (opObj 0x0802 port) fun _ d hw =>
    if 2 ≤ port ∨ 16 ≤ set then refuse .range hw
    else if hw.rd d A.cam_state port ≠ camRUN then refuse .state hw
    else
      let C := hw.cam d port
      let lam := hw.rd d A.sensor_latency port
      let w0 := C.firstWindow
      let want := (frame + 2 ^ 32 - 1 - lam) % 2 ^ 32
      let w := if 0 ≤ frameDiff w0 want then w0 else want
      let e := (w + 1 + lam) % 2 ^ 32
      let beaten := C.applies.filter fun a => decide (frameDiff e a.effect ≤ 0)
      if 4 ≤ (C.applies.filter fun a => !beaten.contains a).length then refuse .noSpace hw
      else
        let hw := beaten.foldl (fun (hw : Hw) a => hw.supersede d a.id h.tag) hw
        let (id, hw) := hw.defer d h false { kind := 3, point := e }
        let kept := C.applies.filter fun a => !beaten.contains a
        (.deferred { kind := 3, point := e }, hw.onCam d port fun C =>
          { C with applies := kept ++ [{ id := id, set := set, window := w, effect := e }] })

/-- CAM_I2C (R325, R572): one transaction; the reply follows its end. -/
def execCamI2c (h : Hdr) (read : Bool) (port addr reg len : Nat) (data : List Byte) (s : State) :
    Host.Outcome State Fault Refusal :=
  s.commandHold h 0x0803 (opObj 0x0803 port) fun _ d hw =>
    if 2 ≤ port ∨ len = 0 ∨ 32 < len ∨ 128 ≤ addr ∨ (!read ∧ data.length < len) then (some (.err .range), hw)
    else if hw.rd d A.cam_state port ≠ camREADY then (some (.err .state), hw)
    else if (hw.cam d port).i2c.isSome then (some (.err .busy), hw)
    else
      let bytes := beBytes (hw.i2cReg d port) reg ++ if read then [] else data.take len
      (none, (hw.emit (.i2c d port addr bytes (if read then len else 0))).onCam d port fun C =>
        { C with i2c := some ((h.origin, h.tag), read, len) })

/-- CAM_I2C_END (R325, R572): the final STOP, or the bus timeout, with the bytes read. -/
def execCamI2cEnd (die cam result : Nat) (data : List Byte) (s : State) : Host.Outcome State Fault Refusal :=
  s.onUnit die cam 2 fun _ h =>
    match (h.cam die cam).i2c with
    | none => h
    | some (q, read, len) =>
      let r := min result 3
      let h := h.onCam die cam fun C => { C with i2c := none }
      h.putReply q.1 q.2 ⟨.ok, leBytes 4 r ++ if read then (List.range len).map (fun i => data.getD i 0) else []⟩

end Sys2Proof.Machine
end

