-- ==== Sys2Proof/Machine/Lamps.lean ====
section
/-!
DEFINITION. Lamp chains and the matrix (spec/11_illumination.md).
-/
namespace Sys2Proof.Machine

/-! ### Lamp Table (R345 to R347) -/

/-- The states of a chain (`chain_state`). -/
abbrev chOFF : Nat := 0
abbrev chENUM : Nat := 1
abbrev chRUN : Nat := 2
abbrev chLOST : Nat := 3

/-- A chain's record. -/
def Hw.chain (h : Hw) (d c : Nat) : Chain := (h.die d).chains.getD c {}

/-- A chain's record changed. -/
def Hw.onChain (h : Hw) (d c : Nat) (f : Chain → Chain) : Hw := h.onDie d fun D => { D with chains := D.chains.modify c f }

/-- A chain enters a state. -/
def Hw.chainTo (h : Hw) (d c new : Nat) : Hw :=
  let old := h.rd d A.chain_state c
  if old = new then h
  else (h.wr d A.chain_state c new).event d Ev.chainState (leBytes 1 c ++ leBytes 1 old ++ leBytes 1 new)

/-- The entry of a channel (R345). -/
def lampEntry (chain driver ch : Nat) : Nat := (512 * chain + driver) * 4 + ch

/-- A cached entry. -/
def Hw.lamp? (h : Hw) (d e : Nat) : Option Lamp := ((h.die d).lamps.find? fun x => x.1 = e).map (·.2)

/-- An entry put into the cache. -/
def Hw.setLamp (h : Hw) (d e : Nat) (l : Lamp) : Hw :=
  h.onDie d fun D => { D with lamps := (e, l) :: D.lamps.filter fun x => x.1 ≠ e }

/-- The level formula of R346. -/
def lampFormula (req gain offset max_ : Nat) : Nat := if req = 0 then 0 else min max_ (req * gain / 2 ^ 22 + offset)

/-- ENABLE and DIAG_OFF. -/
def Lamp.enabled (l : Lamp) : Bool := bit l.w1 0
def Lamp.diagOff (l : Lamp) : Bool := bit l.w1 1

/-- The level to send (R346). -/
def Lamp.want (l : Lamp) : Nat :=
  if l.enabled then lampFormula (bits l.w0 31 16) (bits l.w0 15 0) (bits l.w1 31 22) (bits l.w1 21 12) else 0

/-- Words 2 and 3 written back (R347). -/
def Hw.lampWriteback (h : Hw) (d e : Nat) : Hw :=
  match h.lamp? d e with
  | some l => h.store d (0x10000 + 16 * e + 8) (wordBytes [l.level * 2 ^ 22 + l.age, l.flags * 2 ^ 24])
  | none => h

/-- The entry as the next frame uses it (R73, R74, R345): the cached copy, with its host words read again when an
invalidate asks for it; `bad`, an uncorrectable error in the read, leaves the channel dark (R77). -/
def Hw.lampRead (h : Hw) (ms : List (List Host.Cell)) (d c e : Nat) (bad : List Nat) : Hw :=
  match h.lamp? d e with
  | some l =>
    if !(h.chain d c).reread.contains e then h
    else if bad.contains e then (h.setLamp d e { l with w0 := 0, w1 := 0 }).tableErr d 2 e
    else
      let l := { l with w0 := h.num ms d (0x10000 + 16 * e) 4, w1 := h.num ms d (0x10000 + 16 * e + 4) 4 }
      (h.setLamp d e l).onChain d c fun C => { C with reread := C.reread.erase e }
  | none =>
    if bad.contains e then h.tableErr d 2 e
    else h.setLamp d e { w0 := h.num ms d (0x10000 + 16 * e) 4, w1 := h.num ms d (0x10000 + 16 * e + 4) 4 }

/-! ### Refresh (R341, R349) -/

/-- The bits of a share (R337). -/
def share (op mask : Nat) (levels : List Nat) : Nat :=
  op * 2 ^ 44 + mask * 2 ^ 40 + levels.getD 0 0 * 2 ^ 30 + levels.getD 1 0 * 2 ^ 20 + levels.getD 2 0 * 2 ^ 10 + levels.getD 3 0

/-- The channels of a driver in a list of (driver, channel), as a mask. -/
def chMask (l : List (Nat × Nat)) (i : Nat) : Nat :=
  ((List.range 4).map fun ch => if l.contains (i, ch) then 2 ^ ch else 0).sum

/-- CHAIN_REFRESH (R341, R345, R346, R349). -/
def execChainRefresh (die chain : Nat) (bad : List Nat) (s : State) : Host.Outcome State Fault Refusal :=
  s.onUnit die chain 4 fun ms h =>
    let st := h.rd die A.chain_state chain
    if ¬(st = chRUN ∨ st = chLOST) then h
    else
      let n := h.rd die A.chain_drivers chain
      let es := (List.range n).map fun i => (List.range 4).map fun ch => lampEntry chain i ch
      let h := es.flatten.foldl (fun (h : Hw) e => h.lampRead ms die chain e bad) h
      let C := h.chain die chain
      let levels := es.map fun l => l.map fun e => ((h.lamp? die e).map Lamp.want).getD 0
      let mask (i : Nat) : Nat :=
        if C.clears.contains i then 0
        else
          let low := C.due.filter fun x => decide ((levels.getD x.1 []).getD x.2 0 < 200)
          chMask (low ++ C.forced) i
      let masks := (List.range n).map mask
      let shares := (List.range n).map fun i =>
        share (if C.clears.contains i then 4 else if mask i ≠ 0 then 2 else 1) (mask i) (levels.getD i [])
      let pulses := ((List.range n).map fun i => ((List.range 4).filter fun ch => (mask i).testBit ch).length).sum
      let sent (l : Nat × Lamp) : Nat × Lamp :=
        if chain * 2048 ≤ l.1 ∧ l.1 < chain * 2048 + 4 * n then (l.1, { l.2 with level := l.2.want }) else l
      let h := h.onDie die fun D => { D with lamps := D.lamps.map sent }
      let h := h.onChain die chain fun C =>
        { C with prev := C.cur, cur := some { levels := levels, masks := masks }, waiting := true, clears := [],
                 due := C.due.filter fun x => C.clears.contains x.1, forced := C.forced.filter fun x => C.clears.contains x.1 }
      ((h.add die A.refreshes chain).add die A.diag_pulses chain pulses).emit (.chain die chain shares)

/-! ### Returns (R339, R342, R343, R348) -/

/-- CRC-4 of a status word (R339): x^4 + x + 1 from 0 over bits 15 to 4, most significant first. -/
def crc4 (w : Nat) : Nat :=
  (List.range 12).foldl (fun c i =>
    let c' := 2 * c % 16
    if (c.testBit 3) != (w.testBit (15 - i)) then c' ^^^ 3 else c') 0

/-- A word of bits sent most significant first (R335). -/
def bitsWord (l : List Bool) : Nat := l.foldl (fun v b => 2 * v + b2n b) 0

/-- The words of a return, `n` bits each. -/
def returnWords (n : Nat) (l : List Bool) : List Nat := (List.range (l.length / n)).map fun i => bitsWord ((l.drop (n * i)).take n)

/-- A status word passes its CRC. -/
def statusOk (w : Nat) : Bool := crc4 w == w % 16

/-- A flag event when a flag of an entry changes. -/
def Hw.lampEvent (h : Hw) (d code e : Nat) (old new : Nat) (b : Nat) : Hw :=
  if old.testBit b = new.testBit b then h else h.event d code (leBytes 2 e ++ leBytes 1 (b2n (!new.testBit b)))

/-- A channel's state after a return without error (R348); `w` the status, none when its word was discarded. -/
def Hw.lampStatus (h : Hw) (d e ch : Nat) (w : Option Nat) (fresh : Bool) : Hw :=
  match h.lamp? d e with
  | none => h
  | some l =>
    let old := l.flags
    let (flags, age) := match w with
      | none => (old - (if old.testBit 4 then 16 else 0), satNat 0xFFFF (l.age + 1))
      | some s =>
        let dev := (if bit s 15 then 4 else 0) + (if bit s 13 then 8 else 0)
        if fresh then ((if bit s (8 + ch) then 1 else 0) + (if bit s (4 + ch) then 2 else 0) + dev + 16, 0)
        else (old % 4 + dev, satNat 0xFFFF (l.age + 1))
    let h := h.setLamp d e { l with flags := flags, age := age }
    let h := (h.lampEvent d Ev.lampOpen e old flags 0).lampEvent d Ev.lampShort e old flags 1
    if flags = old then h else h.lampWriteback d e

/-- A driver's status in a return (R348, R349). -/
def Hw.driverStatus (h : Hw) (d c i : Nat) (w : Option Nat) : Hw :=
  let C := h.chain d c
  let hot := (h.lamp? d (lampEntry c i 0)).any fun l => l.flags.testBit 2
  let fresh (ch : Nat) : Bool := C.prev.any fun p => decide (200 ≤ (p.levels.getD i []).getD ch 0) || (p.masks.getD i 0).testBit ch
  let h := (List.range 4).foldl (fun (h : Hw) ch => h.lampStatus d (lampEntry c i ch) ch w (fresh ch)) h
  let h := match w with
    | some s =>
      let h := if bit s 14 then h.add d A.rx_err_reports c else h
      if bit s 15 = hot then h
      else h.event d Ev.lampOt (leBytes 1 c ++ leBytes 2 i ++ leBytes 1 (b2n (!bit s 15)))
    | none => h
  let due := (List.range 4).filter fun ch => (h.lamp? d (lampEntry c i ch)).any fun l =>
    decide (h.rd d A.chain_diag_n c ≤ l.age) && l.enabled && (decide (1 ≤ l.level ∧ l.level < 200) || (l.diagOff && l.level == 0)) &&
      !(C.cur.any fun f => (f.masks.getD i 0).testBit ch)
  h.onChain d c fun C => { C with due := C.due ++ (due.map fun ch => (i, ch)).filter fun x => !C.due.contains x }

/-- A return error (R342, R343): kind 0 late, 1 length, 2 CRC. -/
def Hw.returnError (h : Hw) (d c kind got : Nat) : Hw :=
  let h := (h.add d A.ret_errs c).event d Ev.chainRetErr (leBytes 1 c ++ leBytes 1 kind ++ leBytes 2 got)
  let h := h.onChain d c fun C => { C with errRun := C.errRun + 1, waiting := false }
  if 3 ≤ (h.chain d c).errRun ∧ h.rd d A.chain_state c = chRUN then h.chainTo d c chLOST else h

/-- The number of drivers that an enumeration's return shows (R344): none when it fails. -/
def enumCount (k : Nat) (l : List Bool) : Option (Nat × List Nat) :=
  let x := 48 * k - l.length
  let n := x / 32
  let idents := returnWords 16 (l.drop (48 * (k - n)))
  if 48 * k ≤ l.length ∨ x % 32 ≠ 0 ∨ n = 0 ∨ k < n then none
  else if (returnWords 48 (l.take (48 * (k - n)))).any fun s => s != share 3 0 [] then none
  else if idents.any fun w => !statusOk w || !bit w 12 then none
  else some (n, idents.map fun w => bits w 11 4)

/-- The floor of `refresh_us` for `n` drivers (R343). -/
def refreshLow (n refresh slack mbps : Nat) : Bool := decide (refresh * mbps < 66 * n + 8 + slack * mbps)

/-- The part of one chain in a CHAIN_CTRL that ends as long work: a failure decides, success when no chain is left. -/
def Hw.enumSettle (h : Hw) (d id fate : Nat) : Hw :=
  let pending := (((h.pkg.deferred ++ h.dies.flatMap fun D => D.mbx.deferred).find? fun r => r.id = id).map (·.fate)) == some 0x0C
  let left := (h.die d).chains.any fun C => C.enum.any fun e => e.1 == id
  if !pending then h
  else if fate ≠ 0 then h.settle id fate
  else if left then h else h.settle id 0

/-- The return of an IDENT frame (R344, R361). -/
def Hw.enumReturn (h : Hw) (d c id old : Nat) (enable : Bool) (got : Option (Nat × List Nat)) : Hw :=
  let h := h.onChain d c fun C => { C with enum := none, prev := none, cur := none, waiting := false }
  match got with
  | none => (h.chainTo d c (if enable then chOFF else old)).enumSettle d id Status.check.code
  | some (n, types) =>
    let was := h.rd d A.chain_drivers c
    let h := (h.wr d A.chain_drivers c n).setBlk (rkey d A.types c) (types.map (BitVec.ofNat 8))
    let h := if was = n then h else h.event d Ev.chainCount (leBytes 1 c ++ leBytes 2 was ++ leBytes 2 n)
    if enable ∧ refreshLow n (h.rd d A.refresh_us c) (h.rd d A.ret_slack_us c) (h.rd d A.chain_mbps c) then
      (h.chainTo d c chOFF).enumSettle d id Status.range.code
    else (h.chainTo d c (if enable then chRUN else old)).enumSettle d id 0

/-- CHAIN_RETURN (R342 to R344, R348): the bits received and whether the end of frame came by the deadline. -/
def execChainReturn (die chain : Nat) (inTime : Bool) (got : List Bool) (s : State) : Host.Outcome State Fault Refusal :=
  s.onUnit die chain 4 fun _ h =>
    let C := h.chain die chain
    match C.enum with
    | some (id, enable, old) =>
      h.enumReturn die chain id old enable (if inTime then enumCount (h.rd die A.chain_max chain) got else none)
    | none =>
      match C.cur with
      | none => h
      | some f =>
        let n := f.levels.length
        let ws := returnWords 16 got
        let bad := (ws.filter fun w => !statusOk w).length
        if !C.waiting ∨ h.rd die A.chain_state chain = chOFF then h
        else if !inTime then h.returnError die chain 0 got.length
        else if got.length ≠ 16 * n then h.returnError die chain 1 got.length
        else if 2 ≤ bad then h.returnError die chain 2 got.length
        else
          let h : Hw := if bad = 1 then h.returnError die chain 2 got.length
            else (h.onChain die chain fun C => { C with errRun := 0, waiting := false }).chainTo die chain chRUN
          (List.range n).foldl (fun (h : Hw) i =>
            h.driverStatus die chain i ((ws[i]?).bind fun w => if statusOk w then some w else none)) h

/-- LAMP_WRITEBACK (R347). -/
def execLampWriteback (die chain : Nat) (s : State) : Host.Outcome State Fault Refusal :=
  s.onUnit die chain 4 fun _ h =>
    if h.rd die A.chain_state chain = chOFF then h
    else (((h.die die).lamps.map (·.1)).filter fun e => e / 2048 == chain).foldl (fun (h : Hw) e => h.lampWriteback die e) h

/-! ### Commands of the chains (R361) -/

/-- The chains that a bit mask names. -/
def chainsOf (m : Nat) : List Nat := (List.range 4).filter fun c => m.testBit c

/-- An IDENT frame sent (R344). -/
def Hw.enumStart (h : Hw) (d c id : Nat) (enable : Bool) : Hw :=
  let old := h.rd d A.chain_state c
  let h := (h.chainTo d c chENUM).onChain d c fun C => { C with enum := some (id, enable, old) }
  h.emit (.chain d c (List.replicate (h.rd d A.chain_max c) (share 3 0 [])))

/-- CHAIN_ENABLE (R361). -/
def execChainEnable (h : Hdr) (chains : Nat) (s : State) : Host.Outcome State Fault Refusal :=
  s.command h 0x0902 (opObj 0x0902 (lowBit chains)) fun _ d hw =>
    if chains = 0 ∨ 16 ≤ chains then refuse .range hw
    else if (chainsOf chains).any fun c => hw.rd d A.chain_state c != chOFF then refuse .state hw
    else
      let (id, r, hw) := hw.deferWork d h false
      (r, (chainsOf chains).foldl (fun (hw : Hw) c => hw.enumStart d c id true) hw)

/-- CHAIN_ENUM (R344, R361). -/
def execChainEnum (h : Hdr) (chains : Nat) (s : State) : Host.Outcome State Fault Refusal :=
  s.command h 0x0902 (opObj 0x0902 (lowBit chains)) fun _ d hw =>
    if chains = 0 ∨ 16 ≤ chains then refuse .range hw
    else if (chainsOf chains).any fun c => hw.rd d A.chain_state c == chOFF || hw.rd d A.chain_state c == chENUM then
      refuse .state hw
    else
      let (id, r, hw) := hw.deferWork d h false
      (r, (chainsOf chains).foldl (fun (hw : Hw) c => hw.enumStart d c id false) hw)

/-- A chain switched off: one frame of SET with every level 0 (R361). -/
def Hw.chainOff (h : Hw) (d c : Nat) : Hw :=
  let h := h.emit (.chain d c (List.replicate (h.rd d A.chain_drivers c) (share 1 0 [])))
  let h := match (h.chain d c).enum with
    | some e => h.enumSettle d e.1 Status.state.code
    | none => h
  let dark (l : Nat × Lamp) : Nat × Lamp := if l.1 / 2048 = c then (l.1, { l.2 with level := 0 }) else l
  let h := h.onDie d fun D => { D with lamps := D.lamps.map dark }
  (h.onChain d c fun C => { reread := C.reread }).chainTo d c chOFF

/-- CHAIN_DISABLE (R361). -/
def execChainDisable (h : Hdr) (chains : Nat) (s : State) : Host.Outcome State Fault Refusal :=
  s.command h 0x0902 (opObj 0x0902 (lowBit chains)) fun _ d hw =>
    if chains = 0 ∨ 16 ≤ chains then refuse .range hw
    else if (chainsOf chains).any fun c => hw.rd d A.chain_state c == chOFF then refuse .state hw
    else okWith ((chainsOf chains).foldl (fun (hw : Hw) c => hw.chainOff d c) hw)

/-- LAMP_INVALIDATE (R74): the cached entries of the range are read again at the next refresh of their chains. -/
def execLampInvalidate (h : Hdr) (first count : Nat) (s : State) : Host.Outcome State Fault Refusal :=
  s.command h 0x0901 (opObj 0x0901 first) fun _ d hw =>
    if 8192 ≤ first ∨ count = 0 ∨ 8192 < first + count then refuse .range hw
    else
      let es := ((hw.die d).lamps.map (·.1)).filter fun e => decide (first ≤ e) && decide (e < first + count)
      okWith (es.foldl (fun (hw : Hw) e => hw.onChain d (e / 2048) fun C => { C with reread := e :: C.reread.erase e }) hw)

/-- The range and state that LAMP_CTRL accepts. -/
def Hw.lampRange (h : Hw) (d chain first count : Nat) : Option Status :=
  let st := h.rd d A.chain_state chain
  if 4 ≤ chain then some .range
  else if ¬(st = chRUN ∨ st = chLOST) then some .state
  else if count = 0 ∨ h.rd d A.chain_drivers chain < first + count then some .range
  else none

/-- LAMP_CTRL CLEAR (R341). -/
def execLampCtrlClear (h : Hdr) (chain first count : Nat) (s : State) : Host.Outcome State Fault Refusal :=
  s.command h 0x0903 (opObj 0x0903 chain) fun _ d hw =>
    match hw.lampRange d chain first count with
    | some st => refuse st hw
    | none => okWith (hw.onChain d chain fun C => { C with clears := (List.range count).map (first + ·) ++ C.clears })

/-- LAMP_CTRL DIAG (R341): a forced pulse on the channels of the mask. -/
def execLampCtrlDiag (h : Hdr) (chain mask first count : Nat) (s : State) : Host.Outcome State Fault Refusal :=
  s.command h 0x0903 (opObj 0x0903 chain) fun _ d hw =>
    match hw.lampRange d chain first count with
    | some st => refuse st hw
    | none =>
      let l := (List.range count).flatMap fun i => ((List.range 4).filter fun ch => mask.testBit ch).map fun ch => (first + i, ch)
      okWith (hw.onChain d chain fun C => { C with forced := l ++ C.forced })

/-! ### The matrix (R351 to R357) -/

/-- The matrix changed. -/
def Hw.onMx (h : Hw) (d : Nat) (f : Matrix → Matrix) : Hw := h.onDie d fun D => { D with mx := f D.mx }

/-- The level of element `e` (R352). -/
def Hw.mxLevel (h : Hw) (d e : Nat) : Nat :=
  let cal := h.blkNum d A.mx_cal 0 (8 * e) 8
  lampFormula (h.blkNum d A.mx_level 0 (2 * e) 2) (bits cal 63 48) (bits cal 47 38) (bits cal 37 28)

/-- The age of element `e`. -/
def Hw.mxAge (h : Hw) (d e : Nat) : Nat := h.blkNum d A.mx_age 0 (2 * e) 2

/-- Steps 2 to 4 take this long, in ns. -/
def Hw.mxLead (h : Hw) (d : Nat) : Nat := h.rd d A.mx_blank_ns 0 + h.rd d A.mx_pch_ns 0 + h.rd d A.mx_settle_ns 0

/-- Step 5 of a step on the model clock. -/
def Hw.mxEnd (h : Hw) (d : Nat) (p : MxStep) : Nat := p.start + h.mxLead d + 1000 * h.rd d A.row_on_us 0

/-- A sample of columns of a row (R355): OPEN where CSNS is low. -/
def Hw.mxSample (h : Hw) (d row csns : Nat) (cols : List Nat) : Hw :=
  cols.foldl (fun (h : Hw) c =>
    let e := 16 * row + c
    let was := (h.rd d A.mx_open 0).testBit e
    let now := !csns.testBit c
    let h := if was = now then h
      else (h.wr d A.mx_open 0 (h.rd d A.mx_open 0 ^^^ 2 ^ e)).event d Ev.mxOpen
        (leBytes 1 row ++ leBytes 1 c ++ leBytes 1 (b2n (!now)))
    h.onMx d fun M => { M with fresh := M.fresh.map (e :: ·), waits := M.waits.erase e }) h

/-- The diagnostic row of the window at step 5 (R356): the next pulse of the output at a known time, the row of the oldest
due element. -/
def Hw.mxWindow (h : Hw) (d : Nat) (p : MxStep) : Option MxDiag :=
  let out := h.rd d A.mx_pulse 0
  let known := (h.rd d A.po_mode out == 1 || h.rd d A.po_mode out == 2) && h.rd d A.po_state out != 0
  let tn : Int := h.clk + ((h.rd d A.po_next out : Int) - h.poNow d out) / 8
  let need := 2000 * h.rd d A.mx_guard_us 0 + h.mxLead d + 4000
  let n := h.rd d A.mx_diag_n 0
  let ages := (List.range 256).map (h.mxAge d)
  let top := ages.foldl max 0
  if h.rd d A.mx_state 0 ≠ 2 ∨ !known ∨ tn - h.mxEnd d p < need ∨ top < n then none
  else
    let row := ages.idxOf top / 16
    some { row := row, start := h.mxEnd d p + 1000 * h.rd d A.mx_guard_us 0,
           cols := (List.range 16).filter fun c => decide (n ≤ ages.getD (16 * row + c) 0), csns := p.diagCsns }

/-- What the matrix has done by now of the step under way: the sample, the end, the diagnostic row. -/
def Hw.mxSettle (h : Hw) (d : Nat) : Hw :=
  match (h.die d).mx.step with
  | none => h
  | some p =>
    let ripe := !p.sampled && decide (p.start + h.mxLead d + 3500 ≤ h.clk)
    let cols := (List.range 16).filter fun c => decide (4000 ≤ p.on.getD c 0)
    let h := if ripe ∧ p.row < 16 then
        match p.csns with
        | some v => h.mxSample d p.row v cols
        | none => h
      else h
    let p := { p with sampled := p.sampled || ripe }
    if h.clk < h.mxEnd d p then h.onMx d fun M => { M with step := some p }
    else if (h.die d).mx.stopping then (h.wr d A.mx_state 0 0).onMx d fun _ => {}
    else
      let p := if p.tried then p else { p with tried := true, diag := h.mxWindow d p }
      match p.diag with
      | none => h.onMx d fun M => { M with step := some p }
      | some g =>
        if h.clk ≤ g.start then h.onMx d fun M => { M with step := some p }
        else
          let h := if g.counted then h else
            (h.add d A.mx_diag_rows 0).emit (.matrix d g.row ((List.range 16).map fun c => if g.cols.contains c then 4000 else 0))
          if g.start + h.mxLead d + 3500 ≤ h.clk then
            (h.mxSample d g.row g.csns g.cols).onMx d fun M => { M with step := some { p with diag := none } }
          else h.onMx d fun M => { M with step := some { p with diag := some { g with counted := true } } }

/-- Ages at the start of a scan (R355, R357). -/
def Hw.mxScan (h : Hw) (d : Nat) : Hw :=
  let aged (h : Hw) (fresh : List Nat) (e : Nat) : Hw :=
    if fresh.contains e then h.wrBlk d A.mx_age 0 (2 * e) 2 0
    else if h.mxLevel d e = 0 then h
    else
      let a := satNat 0xFFFF (h.mxAge d e + 1)
      let h := h.wrBlk d A.mx_age 0 (2 * e) 2 a
      if h.rd d A.po_mode (h.rd d A.mx_pulse 0) = 3 ∧ h.rd d A.mx_state 0 = 2 ∧ 4 * h.rd d A.mx_diag_n 0 ≤ a ∧
          !(h.die d).mx.waits.contains e then
        (h.event d Ev.mxNoWindow (leBytes 1 (e / 16) ++ leBytes 1 (e % 16) ++ leBytes 2 a)).onMx d
          fun M => { M with waits := e :: M.waits }
      else h
  let h := match (h.die d).mx.fresh with
    | some fresh => (List.range 256).foldl (fun (h : Hw) e => aged h fresh e) h
    | none => h
  h.onMx d fun M => { M with fresh := some [] }

/-- Step 1 (R351 to R354): the next entry of the sequence; a step still under way is cut. -/
def Hw.mxStart (h : Hw) (d : Nat) : Hw :=
  let h := h.mxSettle d
  if h.rd d A.mx_state 0 = 0 then h
  else
    let i := (h.die d).mx.next
    let h := if i = 0 then h.mxScan d else h
    let r := bits (h.blkNum d A.mx_seq 0 0 10) (5 * i + 4) (5 * i)
    let n := h.rd d A.mx_diag_n 0
    let time (c : Nat) : Nat :=
      let o := h.rd d A.row_on_us 0 * 1000 * h.mxLevel d (16 * r + c) / 1023
      if h.rd d A.mx_state 0 = 1 ∧ n ≤ h.mxAge d (16 * r + c) then max o 4000 else o
    let on := if r < 16 then (List.range 16).map time else List.replicate 16 0
    let h := match (h.die d).mx.step with
      | some p =>
        if h.clk < h.mxEnd d p then
          (h.add d A.mx_overlaps 0).event d Ev.mxOverlap (leBytes 1 p.row ++ leBytes 1 r)
        else h
      | none => h
    let strobe := h.rd d A.mx_state 0 == 2
    (h.onMx d fun M => { M with step := some { row := r, start := h.clk, on := on }, next := (i + 1) % h.rd d A.mx_seq_len 0,
                                band := if strobe ∧ r < 16 then r else 0xFF }).emit (.matrix d r on)

/-- MX_STEP (R351, R355, R356): in SCAN the step time; in STROBE the step that a pulse began lights its row. `csns` and `diag`
are the CSNS levels at the samples of the step and of a diagnostic row after it. -/
def execMxStep (die csns diag : Nat) (s : State) : Host.Outcome State Fault Refusal :=
  s.onDie die fun _ h =>
    let h := if h.rd die A.mx_state 0 = 1 then h.mxStart die else h.mxSettle die
    let upd (p : MxStep) : MxStep := if p.csns.isSome then p else { p with csns := some csns, diagCsns := diag }
    h.onMx die fun M => { M with step := M.step.map upd }

/-- `mx_row` as it reads now. -/
def Hw.mxRow (h : Hw) (d : Nat) : Nat :=
  let on (row start stop : Nat) : Bool :=
    decide (row < 16) && decide (start + h.rd d A.mx_blank_ns 0 + h.rd d A.mx_pch_ns 0 ≤ h.clk) && decide (h.clk < stop)
  match (h.die d).mx.step with
  | none => 16
  | some p =>
    if on p.row p.start (h.mxEnd d p) then p.row
    else
      match p.diag with
      | some g => if on g.row g.start (g.start + h.mxLead d + 4000) then g.row else 16
      | none => 16

/-- MX_START. -/
def execMxStart (h : Hdr) (s : State) : Host.Outcome State Fault Refusal :=
  s.command h 0x0904 (opObj 0x0904 0) fun _ d hw =>
    let hw := hw.mxSettle d
    if hw.rd d A.mx_state 0 ≠ 0 then refuse .state hw
    else okWith ((hw.wr d A.mx_state 0 (hw.rd d A.mx_mode 0 + 1)).onMx d fun _ => {})

/-- MX_STOP: after step 5 of the present step, at once between steps. -/
def execMxStop (h : Hdr) (s : State) : Host.Outcome State Fault Refusal :=
  s.command h 0x0904 (opObj 0x0904 0) fun _ d hw =>
    let hw := hw.mxSettle d
    if hw.rd d A.mx_state 0 = 0 then refuse .state hw
    else
      match (hw.die d).mx.step with
      | none => okWith ((hw.wr d A.mx_state 0 0).onMx d fun _ => {})
      | some _ => okWith ((hw.onMx d fun M => { M with stopping := true }).mxSettle d)

/-! ### Pulse outputs at their time (R311, R354, R400, R401) -/

/-- The clocks run on until a pulse output's time base reaches its next time (assumption log 7). -/
def Hw.untilPulse (h : Hw) (d out : Nat) : Hw :=
  let t := h.rd d A.po_next out * ps125 * 2 ^ 32
  let b := (h.die d).tbs.getD (h.rd d A.po_tb out) {}
  let step := ((2 : Int) ^ 49 + b.rho).toNat
  if b.time < t then h.tick ((t - b.time + step - 1) / step) else h

/-- An output has a pulse to give: armed for one, running, or triggered (R400). -/
def Hw.poDue (h : Hw) (d out : Nat) : Bool :=
  h.rd d A.po_mode out != 0 && (h.rd d A.po_state out == 2 || (h.rd d A.po_mode out == 1 && h.rd d A.po_state out == 1))

/-- The pulse of an output at its time, the matrix step that it starts, the cameras that it triggers. -/
def Hw.pulseMatch (h : Hw) (d out : Nat) : Hw :=
  let h := (h.untilPulse d out).mxSettle d
  let h := h.poGive d out
  let strobe := h.rd d A.mx_state 0 = 2 ∧ h.rd d A.mx_pulse 0 = out
  let h := if strobe then h.mxStart d else h
  h.camTrigger d out (if strobe then (h.die d).mx.band else 0xFF)

end Sys2Proof.Machine
end

