-- ==== Sys2Proof/Machine/Resilience.lean ====
section
/-!
DEFINITION. Lead-die fail-over and the event recorder (spec/16_resilience.md): the lead states, the Kennel, the takeover and
its reissue list, numbering, programming and reading of events, rate limits.
-/
namespace Sys2Proof.Machine

/-! ### Modes and the lead states -/

/-- The code of a package mode (`sb_mode`). -/
def Mode.code : Mode → Nat
  | .boot => 0 | .gatehouse => 1 | .hosted => 2 | .safe => 3

/-- The package mode changed and recorded (R522). -/
def Hw.modeTo (h : Hw) (m : Mode) : Hw :=
  if h.mode = m then h
  else
    let old := h.mode
    ({ h with mode := m }).eventPkg h.leadDie Ev.pkgMode (leBytes 1 old.code ++ leBytes 1 m.code)

/-- The code of a lead state (`ld_states`). -/
def LeadSt.code : LeadSt → Nat
  | .active => 0 | .standby => 1 | .syncing => 2 | .faulted => 3

/-- The lead state of die 0 or 1. -/
def Hw.ldState (h : Hw) (d : Nat) : LeadSt := h.leadSt.getD d .faulted

/-- The lead state of die 0 or 1 set; the other dies have none (R472). -/
def Hw.setLd (h : Hw) (d : Nat) (x : LeadSt) : Hw :=
  let h := { h with leadSt := h.leadSt.set d x }
  h.wr 0 A.ld_states 0 ((h.ldState 0).code + 16 * (h.ldState 1).code)

/-- A die's bit of the SYS_STATE fault mask (R543). -/
def Hw.setFault (h : Hw) (d : Nat) (on : Bool) : Hw :=
  { h with faultMask := if on then h.faultMask ||| 2 ^ d else h.faultMask &&& (2 ^ 8 - 1 - 2 ^ d) }

/-- The last cause of die 0 or 1 (`ld_causes`). -/
def Hw.setCause (h : Hw) (d c : Nat) : Hw :=
  let v := h.rd 0 A.ld_causes 0
  h.wr 0 A.ld_causes 0 (if d = 0 then v / 16 * 16 + c else v % 16 + 16 * c)

/-- The token released for a cause (R473): 1 WATCHDOG, 2 ECC, 3 SELFTEST, 4 MGMT_POWER put the die in FAULTED and set its
fault bit; 5 MOVE leaves it STANDBY (R489). -/
def Hw.leadRelease (h : Hw) (d cause : Nat) : Hw :=
  let h := { h with lead := none, takeover := some d, kennelWriting := none }
  let h := (h.setLd d (if cause = 5 then .standby else .faulted)).setCause d cause
  let h := if cause = 5 then h else h.setFault d true
  h.event d Ev.leadFault (leBytes 1 d ++ leBytes 1 cause)

/-- A management processor that stops (R473): on the lead die the token is released; on the other die of the pair the
standby is lost; on any die the fault mask shows it. -/
def Hw.mgmtStop (h : Hw) (d cause : Nat) : Hw :=
  let h := h.onDie d fun D => { D with up := false }
  if h.lead = some d then h.leadRelease d cause
  else
    let h := h.setFault d true
    if d < 2 ∧ h.ldState d ≠ .active then (h.setLd d .faulted).setCause d cause else h

/-- WATCHDOG_EXPIRY (R473, R474): a service that becomes visible in the cycle of the expiry counts. -/
def execWatchdogExpiry (die : Nat) (serviced : Bool) (s : State) : Host.Outcome State Fault Refusal :=
  s.onDie die fun _ h => if serviced then h else h.mgmtStop die 1

/-- SRAM_ECC_ERROR (R473). -/
def execSramEccError (die : Nat) (s : State) : Host.Outcome State Fault Refusal := s.onDie die fun _ h => h.mgmtStop die 2

/-- MGMT_POWER_LOSS (R473). -/
def execMgmtPowerLoss (die : Nat) (s : State) : Host.Outcome State Fault Refusal :=
  s.onDie die fun _ h => (h.wr die A.pd_on 0 (h.rd die A.pd_on 0 &&& 0xFD)).mgmtStop die 4

/-! ### The Kennel (R477 to R480, R489) -/

/-- Registers that a checkpoint carries (R480): COLOUR_HOLD, SYSTEM, `evq_mask`, the servo values of TIMEBASE, and the
package values that the lead die holds (LEAD settings, `hs_filter_us`; assumption log 11). -/
def inCheckpoint (k : RegKey) : Bool :=
  k.die == pkgDie && (k.cls == 0x13 || k.cls == 0x1A || k.cls == 0x14 || (k.cls == 0x1F && k.id == 7) || k.cls == 0x06 ||
    (k.cls == 0x1E && [0x0004, 0x0005, 0x000A, 0x000B].contains k.id))

/-- The newest valid checkpoint: the valid slot with the higher seq (R478). -/
def Hw.newestSlot (h : Hw) : Option Nat :=
  let a := h.kennel.getD 0 KennelSlot.blank
  let b := h.kennel.getD 1 KennelSlot.blank
  if a.valid && (!b.valid || b.seq < a.seq) then some 0 else if b.valid then some 1 else none

/-- Whether package NV may be written (R455): the lead die's window. -/
def Hw.nvOk (h : Hw) : Bool := h.rd h.leadDie A.nv_write_ok 0 == 1

/-- A checkpoint begins (R477): the snapshot at one instant, the header of the slot that does not hold the newest valid
checkpoint erased. -/
def Hw.kennelStart (h : Hw) : Hw :=
  let slot := match h.newestSlot with
    | some 0 => 1
    | _ => 0
  let seq := (h.kennel.foldl (fun m s => max m s.seq) (h.rd 0 A.kennel_seq 0)) + 1
  let c : KennelSlot := { valid := true, seq := seq, evtSeq := h.evtNext - 1, length := Config.kennelBytes seq, tb0 := h.tb h.leadDie 0,
                          regs := h.regs.filter fun x => inCheckpoint x.1, blks := h.blks.filter fun x => inCheckpoint x.1,
                          pkg := h.pkg }
  { h with kennelWriting := some (slot, c), kennel := h.kennel.modify slot fun s => { s with valid := false } }

/-- KENNEL_LATE when the age passes ten intervals (R479). -/
def Hw.kennelAge (h : Hw) : Hw :=
  let age := (h.clk - h.kennelAt) / 10 ^ 6
  let h := h.wr 0 A.kennel_age_ms 0 (satNat (2 ^ 32 - 1) age)
  if 10 * h.rd 0 A.kennel_interval_ms 0 < age ∧ !h.kennelLateSeen then
    ({ h with kennelLateSeen := true }).eventPkg h.leadDie Ev.kennelLate (leBytes 4 age)
  else h

/-- KENNEL_CHECKPOINT (R477, R479): one falls due; one under way delays it, forbidden NV writing holds it. -/
def execKennelCheckpoint (s : State) : Host.Outcome State Fault Refusal :=
  s.onPkg fun _ h =>
    if h.lead = none ∨ h.mode = .boot then h
    else
      let h := h.kennelAge
      if h.kennelWriting.isSome then h.add 0 A.kennel_late 0
      else if h.nvOk then h.kennelStart else h

/-- A checkpoint read back well while the package moves (R478): the lead role is released once the checkpoint holds the move;
a checkpoint taken before the move was asked for is followed by another. -/
def Hw.moveOn (h : Hw) (d : Nat) (c : KennelSlot) : Hw :=
  match h.moving with
  | some id => if c.pkg.deferred.any fun r => r.id == id then h.leadRelease d 5 else h.kennelStart
  | none => h

/-- KENNEL_WRITE_DONE (R478, R489): the slot read back and checked. A move waits for the checkpoint taken after it was asked for.
The second failure in a row is cause SELFTEST, and a failure during a move turns the move into a fail-over. -/
def execKennelWriteDone (ok : Bool) (s : State) : Host.Outcome State Fault Refusal :=
  s.onPkg fun _ h =>
    match h.kennelWriting, h.lead with
    | some (slot, c), some d =>
      let h := { h with kennelWriting := none }
      if ok then
        let h := { h with kennel := h.kennel.set slot c, kennelFailRun := 0, kennelAt := h.clk, kennelLateSeen := false }
        let h := (((h.wr 0 A.kennel_seq 0 c.seq).wr 0 A.kennel_tb0 0 c.tb0).wr 0 A.kennel_bytes 0 c.length).wr 0 A.kennel_age_ms 0 0
        let h := match h.ckptWork with
          | some id => ({ h with ckptWork := none }).settle id 0
          | none => h
        h.moveOn d c
      else
        let h := (h.add 0 A.kennel_errs 0).eventPkg d Ev.kennelWriteErr (leBytes 1 slot ++ leBytes 8 c.seq)
        let h := match h.ckptWork with
          | some id => ({ h with ckptWork := none }).settle id Status.check.code
          | none => h
        let h := { h with kennelFailRun := h.kennelFailRun + 1 }
        if h.kennelFailRun = 2 ∨ h.moving.isSome then ({ h with kennelFailRun := 0 }).leadRelease d 3 else h
    | _, _ => h

/-! ### Takeover (R481 to R487) -/

/-- The event data of a numbered entry and its first continuation, and the entry's code. -/
def entryCode (e : Entry) : Nat := leNat ((e.bytes.drop 18).take 2)

/-- A CONFIG_CHANGE entry with its continuation as an entry of the reissue list, if R486 takes it: status OK or DEFERRED,
and an object or opcode of the package. -/
def reissueOf (ring : List Entry) (e : Entry) : Option (List Byte) :=
  if entryCode e ≠ Ev.configChange then none
  else
    let op := leNat ((e.bytes.drop 23).take 2)
    let cls := leNat ((e.bytes.drop 25).take 1)
    let inst := leNat ((e.bytes.drop 26).take 2)
    let c := ((ring.find? fun x => x.seq = e.seq + 1).map fun x => x.bytes.drop 23).getD []
    let attr := leNat (c.take 2)
    let st := leNat ((c.drop 2).take 1)
    let src := leNat ((c.drop 3).take 2)
    if (st = 0x00 ∨ st = 0x0C) ∧ (cls = 0x13 ∨ cls = 0x1A ∨ cls = 0x1E ∨ cls = 0x1F ∨ (cls = 0x14 ∧ attr ≠ 1 ∧ attr ≠ 3) ∨
        pkgAddressed op ⟨cls, inst, attr⟩) then
      some (leBytes 8 e.seq ++ leBytes 2 op ++ leBytes 1 cls ++ leBytes 1 st ++ leBytes 2 inst ++ leBytes 2 attr ++
        leBytes 2 src ++ leBytes 6 0)
    else none

/-- Staging copies of package objects discarded, each recorded (R481, R63). -/
def Hw.dropPkgStages (h : Hw) : Hw :=
  let gone := h.stages.filter fun s => s.key.die = pkgDie
  let h := { h with stages := h.stages.filter fun s => s.key.die ≠ pkgDie }
  gone.foldl (fun h s => h.eventPkg h.leadDie Ev.stageDiscard
    (leBytes 1 s.key.cls ++ leBytes 2 s.key.inst ++ leBytes 2 s.key.id ++ leBytes 2 (h.srcIndex s.owner))) h

/-- The code of a slot state (`fw_a_state`). -/
def SlotSt.code : SlotSt → Nat
  | .empty => 0 | .valid => 1 | .pending => 2 | .active => 3 | .failed => 4

/-- The image slot that FW_UPDATE writes: the one not booted; in mode BOOT slot A (R519). -/
def Hw.fwTarget (h : Hw) : Nat := if h.fwBooted = some 0 then 1 else 0

/-- An open FW_UPDATE session aborted; its slot is left invalid (R69, R481). -/
def Hw.fwAbort (h : Hw) : Hw :=
  if h.fw.isNone then h
  else
    let t := h.fwTarget
    { h with fw := none, fwSlots := h.fwSlots.modify t fun _ => FwSlot.blank }

/-- The lead state loaded from a checkpoint (R480, R482): the registers it carries and the package state; what the dies
hold is left. -/
def Hw.loadCheckpoint (h : Hw) (c : KennelSlot) : Hw :=
  { h with regs := (h.regs.filter fun x => !inCheckpoint x.1) ++ c.regs,
           blks := (h.blks.filter fun x => !inCheckpoint x.1) ++ c.blks, pkg := c.pkg }

/-- Lead state of no checkpoint (R484): defaults, every colour-hold bar OFF. -/
def Hw.loadCold (h : Hw) : Hw :=
  let h := { h with regs := h.regs.filter fun x => !inCheckpoint x.1, blks := h.blks.filter fun x => !inCheckpoint x.1,
                    pkg := PkgState.reset }
  (h.wr 0 A.reissue_over 0 1).eventPkg h.leadDie Ev.leadCold (leBytes 1 h.leadDie)

/-- The new lead's work of steps 2 to 5 of a takeover (R483): `moved` marks a move, whose reissue list is empty (R489). -/
def Hw.takeToken (h : Hw) (d us : Nat) (moved : Bool) : Hw :=
  let h := ({ h with lead := some d, takeover := none, moving := none, repairArmed := !moved }).setLd d .active
  let h := h.wr 0 A.lead_die 0 d
  let h := h.dropPkgStages.fwAbort
  let old := h.newestSlot
  let h := match old with
    | some i => h.loadCheckpoint (h.kennel.getD i KennelSlot.blank)
    | none => h.loadCold
  let from_ := (old.map fun i => (h.kennel.getD i KennelSlot.blank).evtSeq).getD 0
  let found := if moved ∨ old = none then [] else
    ((h.ring.filter fun e => from_ < e.seq).reverse).filterMap (reissueOf h.ring)
  let h := h.setBlk (rkey 0 A.reissue 0) (found.take 64).flatten
  let h := h.wr 0 A.reissue_count 0 (min 64 found.length)
  let h := if old.isSome then h.wr 0 A.reissue_over 0 (b2n (64 < found.length)) else h
  let h := (h.add 0 A.takeovers 0).wr 0 A.last_takeover_us 0 us
  let h := h.eventPkg d Ev.leadTakeover (leBytes 1 d ++
    leBytes 8 ((old.map fun i => (h.kennel.getD i KennelSlot.blank).seq).getD 0) ++ leBytes 4 us)
  h.eventPkg d Ev.leadReissue (leBytes 1 (h.rd 0 A.reissue_count 0) ++ leBytes 1 (h.rd 0 A.reissue_over 0))

/-- LEAD_TAKEOVER (R475, R483): a release is visible and the other die of the pair takes the token if it is STANDBY,
otherwise the package enters SAFE; in SAFE a repaired die that is STANDBY takes it and SAFE ends (R476). -/
def execLeadTakeover (us : Nat) (s : State) : Host.Outcome State Fault Refusal :=
  s.onPkg fun _ h =>
    match h.takeover with
    | some d =>
      let o := 1 - d
      if h.ldState o = .standby then
        let id := h.moving
        let moved := h.rd 0 A.ld_causes 0 / 16 ^ d % 16 = 5
        let h := h.takeToken o us moved
        match id with
        | some i => h.settle i (if moved then 0 else Status.check.code)
        | none => h
      else
        let m := h.mode
        let h := ({ h with takeover := none, safeFrom := m }).modeTo .safe
        h.eventPkg o Ev.leadSafe [0]
    | none =>
      if h.mode = .safe ∧ h.lead = none then
        if h.ldState 0 = .standby ∨ h.ldState 1 = .standby then
          let d := if h.ldState 0 = .standby then 0 else 1
          let h := h.takeToken d us false
          (h.modeTo h.safeFrom).eventPkg d Ev.leadSafe [1]
        else h
      else h

/-! ### Repair and LEAD_CTRL (R487 to R489, R503) -/

/-- A repair begins (R488): MGMT power-cycled, the die SYNCING; the die's other domains stay on. -/
def Hw.repairStart (h : Hw) (d : Nat) : Hw := (h.onDie d fun D => { D with up := false }).setLd d .syncing

/-- LEAD_REPAIR (R488): the automatic repair after a takeover, once. -/
def execLeadRepair (s : State) : Host.Outcome State Fault Refusal :=
  s.onPkg fun _ h =>
    match h.lead with
    | some l =>
      if h.rd 0 A.auto_repair 0 = 1 ∧ h.repairArmed ∧ h.ldState (1 - l) = .faulted then
        ({ h with repairArmed := false }).repairStart (1 - l)
      else h
    | none => h

/-- LEAD_STANDBY (R488): the end of a repair. -/
def execLeadStandby (die : Nat) (pass : Bool) (s : State) : Host.Outcome State Fault Refusal :=
  s.onUnit die die 2 fun _ h =>
    if h.ldState die ≠ .syncing then h
    else
      let id := h.repairWork
      let h := { h with repairWork := none }
      let h := if pass then
          ((((h.setLd die .standby).setFault die false).onDie die fun D => { D with up := true }).wr die A.pd_on 0
            (h.rd die A.pd_on 0 ||| 2)).event die Ev.leadStandby (leBytes 1 die)
        else h.setLd die .faulted
      match id with
      | some i => h.settle i (if pass then 0 else Status.check.code)
      | none => h

/-- LEAD_CTRL MOVE (R489): a checkpoint is written and then the token released. -/
def execLeadMove (h : Hdr) (s : State) : Host.Outcome State Fault Refusal :=
  s.command h 0x0E01 (opObj 0x0E01 0) fun _ d hw =>
    if hw.ldState (1 - d) ≠ .standby ∨ hw.moving.isSome then refuse .state hw
    else if !hw.nvOk then refuse .nvTemp hw
    else
      let (id, r, hw) := hw.deferWork d h true
      let hw := { hw with moving := some id }
      (r, if hw.kennelWriting.isSome then hw else hw.kennelStart)

/-- LEAD_CTRL REPAIR (R488, R503). -/
def execLeadCtrlRepair (h : Hdr) (die : Nat) (s : State) : Host.Outcome State Fault Refusal :=
  s.command h 0x0E01 (opObj 0x0E01 0) fun _ d hw =>
    if 1 < die then refuse .range hw
    else if hw.ldState die ≠ .faulted then refuse .state hw
    else
      let (id, r, hw) := hw.deferWork d h true
      (r, ({ hw with repairWork := some id }).repairStart die)

/-- LEAD_CTRL CHECKPOINT (R503). -/
def execLeadCheckpoint (h : Hdr) (s : State) : Host.Outcome State Fault Refusal :=
  s.command h 0x0E01 (opObj 0x0E01 0) fun _ d hw =>
    if !hw.nvOk ∨ hw.kennelWriting.isSome then refuse .state hw
    else
      let (id, r, hw) := hw.deferWork d h true
      (r, ({ hw with ckptWork := some id }).kennelStart)

/-- LEAD_CTRL ACK (R487): the reissue list is cleared. -/
def execLeadAck (h : Hdr) (s : State) : Host.Outcome State Fault Refusal :=
  s.command h 0x0E01 (opObj 0x0E01 0) fun _ _ hw =>
    if hw.rd 0 A.reissue_count 0 = 0 ∧ hw.rd 0 A.reissue_over 0 = 0 then refuse .state hw
    else okWith (((hw.setBlk (rkey 0 A.reissue 0) []).wr 0 A.reissue_count 0 0).wr 0 A.reissue_over 0 0)

/-! ### Numbering, programming, reading (R490 to R500) -/

/-- EVENT_RAISE (R491, R567): an event that hardware or Rildin of a die raises. -/
def execEventRaise (die code : Nat) (data : List Byte) (s : State) : Host.Outcome State Fault Refusal :=
  s.onDie die fun _ h => h.event die code data

/-- One 32-byte entry (R490). -/
def entryBytes (seq tb0 code supp node die cont : Nat) (data : List Byte) : List Byte :=
  leBytes 8 seq ++ leBytes 8 tb0 ++ leBytes 4 (code * 2 ^ 16 + supp) ++
    leBytes 4 (node * 2 ^ 14 + die * 2 ^ 11 + cont * 2 ^ 8 + ((data[0]?).getD 0).toNat) ++
    (List.range 4).map (fun i => (data[i + 1]?).getD 0) ++ leBytes 4 seq

/-- The continuation entries of an event from data byte 5 on (R491): `j` the index of the next, `n` their number. -/
def contEntries (e : Evt) (seq n : Nat) : Nat → Nat → List Entry
  | 0, _ => []
  | k + 1, j =>
    ⟨seq, entryBytes seq e.tb0 Ev.evtCont j e.node e.die (n - j) (e.data.drop (5 * j))⟩ :: contEntries e (seq + 1) n k (j + 1)

/-- The numbered entries of an event, the main entry first. -/
def Evt.entries (e : Evt) (seq : Nat) : List Entry :=
  let n := e.places - 1
  ⟨seq, entryBytes seq e.tb0 e.code e.suppressed e.node e.die n e.data⟩ :: contEntries e (seq + 1) n n 1

/-- The packet of an event in the event stream (R495): the length word, then the entries. -/
def eventPacket (es : List Entry) : List Nat :=
  (1 + 4 * es.length) :: es.flatMap fun e => (List.range 4).map fun i => leNat ((e.bytes.drop (8 * i)).take 8)

/-- The recorder's package values follow the ring (R490, R492, R498). -/
def Hw.erRegs (h : Hw) : Hw :=
  let newest := h.evtNext - 1
  ((h.wr 0 A.er_newest 0 newest).wr 0 A.er_durable 0 h.evtDurable).wr 0 A.er_oldest 0
    (if newest = 0 then 0 else max 1 (newest + 1 - 1048576))

/-- The event numbered next (R34, R492, R495): its entries enter the ring, the event-stream queues of the lead die whose
mask passes the code's high byte get the packet. -/
def Hw.numberEvent (h : Hw) (d : Nat) (e : Evt) : Hw :=
  let es := e.entries h.evtNext
  let h := h.onDie d fun D => { D with front := D.front.drop 1 }
  let h := { h with ring := (es.reverse ++ h.ring).take 1048576, evtNext := h.evtNext + es.length }
  let h := (h.wr d A.fb_depth 0 (h.frontUsed d)).erRegs
  let l := h.leadDie
  (List.range 4).foldl (fun h i =>
    if bit (h.rd 0 A.evq_mask 0) (16 * i + e.code / 256 % 16) then (h.qPushPacket l (56 + i) 0x09 (eventPacket es)).2 else h) h

/-- EVENT_NUMBER (R34, R492, R493): the lead die numbers the oldest entry of a die's front buffer, unless its own front
buffer is full, the lead role is vacant or the package is in SAFE. -/
def execEventNumber (die : Nat) (s : State) : Host.Outcome State Fault Refusal :=
  s.onDie die fun _ h =>
    match h.lead, (h.die die).front with
    | some l, e :: _ =>
      if h.mode = .safe ∨ (die ≠ l ∧ 8192 < h.frontUsed l + e.places) then h else h.numberEvent die e
    | _, _ => h

/-- EVENT_PROGRAM (R492): the next numbered entry and its continuations are programmed while NV writing is allowed. -/
def execEventProgram (s : State) : Host.Outcome State Fault Refusal :=
  s.onPkg fun _ h =>
    if h.mode = .safe ∨ !h.nvOk ∨ h.evtNext ≤ h.evtDurable + 1 then h
    else
      let cont := ((h.ring.find? fun e => e.seq = h.evtDurable + 1).map fun e => bits (leNat ((e.bytes.drop 20).take 4)) 10 8).getD 0
      let h := { h with evtDurable := min (h.evtNext - 1) (h.evtDurable + 1 + cont) }
      (h.wr h.leadDie A.fb_depth 0 (h.frontUsed h.leadDie)).erRegs

/-- BUCKET_REFILL_FLUSH (R496): a bucket with a count has refilled; its latest suppressed occurrence is recorded with the
rest of the count and takes no token. -/
def execBucketRefillFlush (die code : Nat) (s : State) : Host.Outcome State Fault Refusal :=
  s.onDie die fun _ h =>
    let b := h.bucket die code
    match b.latest with
    | some e =>
      if b.count = 0 ∨ (¬ fixedCode code ∧ 8192 < h.frontUsed die + e.places + 512) then h
      else
        let h := h.setBucket die { b with level := (h.limit code).2 * tokenUnit, count := 0, latest := none }
        h.frontPut die { e with suppressed := satNat 0xFFFF (b.count - 1) }
    | none => h

/-- EVT_BACKLOG (R493): the buffer has space again and the number folded is recorded. -/
def execEvtBacklog (die : Nat) (s : State) : Host.Outcome State Fault Refusal :=
  s.onDie die fun _ h =>
    let n := (h.die die).folded
    if n = 0 ∨ 8192 < h.frontUsed die + 513 then h
    else (h.onDie die fun D => { D with folded := 0 }).event die Ev.evtBacklog (leBytes 1 die ++ leBytes 4 n)

/-- The 32 bytes that the recorder shows for a sequence number (R499): 0 in every byte for an entry not held. -/
def Hw.entryAt (h : Hw) (seq : Nat) : List Byte :=
  ((h.ring.find? fun e => e.seq = seq).map (·.bytes)).getD (List.replicate 32 0)

/-- EVT_READ. -/
def execEvtRead (h : Hdr) (first count : Nat) (s : State) : Host.Outcome State Fault Refusal :=
  s.command h 0x0E02 (opObj 0x0E02 0) fun _ _ hw =>
    if count = 0 ∨ 7 < count then refuse .range hw
    else (⟨.ok, leBytes 8 (hw.rd 0 A.er_oldest 0) ++ leBytes 8 (hw.rd 0 A.er_newest 0) ++
      (List.range count).flatMap fun i => hw.entryAt (first + i)⟩, hw)

/-- EVT_LIMIT SET (R496, R497): kept in package NV. -/
def execEvtLimitSet (h : Hdr) (code rate burst : Nat) (s : State) : Host.Outcome State Fault Refusal :=
  s.command h 0x0E03 (opObj 0x0E03 0) fun _ _ hw =>
    if rate = 0 then refuse .range hw
    else if fixedCode code then refuse .state hw
    else if !hw.nvOk then refuse .nvTemp hw
    else okWith { hw with limits := { code := code, rate := rate, burst := burst } :: hw.limits.filter fun l => l.code ≠ code }

/-- EVT_LIMIT GET. -/
def execEvtLimitGet (h : Hdr) (code : Nat) (s : State) : Host.Outcome State Fault Refusal :=
  s.command h 0x0E03 (opObj 0x0E03 0) fun _ _ hw => (.words [(hw.limit code).1 * 2 ^ 16 + (hw.limit code).2], hw)

end Sys2Proof.Machine
end

