-- ==== Sys2Proof/Machine/Domains.lean ====
section
/-!
DEFINITION. Power domains (spec/17_power_reset_boot.md R504, R505): what each domain holds and loses, the order of switching
off.
-/
namespace Sys2Proof.Machine

/-- The classes whose attributes a domain holds (R504; assumption log 13). -/
def domainClasses : Nat → List Nat
  | 3 => [0x02, 0x03, 0x04, 0x05, 0x06, 0x08, 0x09, 0x0B, 0x0C]
  | 4 => [0x07]
  | 5 => [0x15, 0x17, 0x19]
  | 6 => [0x0D, 0x0E, 0x0F, 0x10, 0x11, 0x12]
  | 7 => [0x0A]
  | _ => []

/-- The domain that must be on for a class to be read or written; AO and the core where none is named. -/
def classDomain (c : Nat) : Option Nat := [3, 4, 5, 6, 7].find? fun d => (domainClasses d).contains c

/-- The hidden state that a domain holds, after its loss. -/
def Die.lose (D : Die) (dom : Nat) : Die :=
  match dom with
  | 1 => { D with up := false, mbx := { D.mbx with deferred := [] } }
  | 3 => { D with queues := List.replicate 64 {}, enc := List.replicate 2 {}, pos := {}, hwmOn := false, leaving := false,
                  spits := [], changes := [], banks := List.replicate 2 {}, bankFrom := [], ctxs := [], ctxCache := [],
                  streams := List.replicate 16 {}, stop := {}, lineFaults := [] }
  | 4 => { D with ports := D.ports.map fun P => { ident := P.ident }, spits := [] }
  | 5 => { D with itv := {}, ptp := List.replicate 2 {} }
  | 6 => { D with cams := List.replicate 2 {}, ispRun := [], chains := List.replicate 4 {}, lamps := [], mx := {} }
  | 7 => { D with codec := {} }
  | _ => D

/-- A domain of a die loses all its state (R505). -/
def Hw.lose (h : Hw) (d dom : Nat) : Hw :=
  let mine (k : RegKey) : Bool := k.die == d && (domainClasses dom).contains k.cls
  let h := { h with regs := h.regs.filter fun x => !mine x.1, blks := h.blks.filter fun x => !mine x.1,
                    stages := h.stages.filter fun s => !(dom == 1 && s.key.die == d) }
  let h := h.onDie d fun D => D.lose dom
  match dom with
  | 2 => { h with wipes := h.wipes ++ [(d, 0, dramTop)] }
  | 3 => ({ h with wipes := h.wipes ++ [(d, 0x1000000000, 0x10000FFFFF)] }).showPins
  | 5 => if d < 2 then { h with eps := h.eps.set d Endpoint.reset, regs := h.regs.filter fun x => !(x.1.cls == 0x18 && x.1.inst == d) } else h
  | _ => h

/-- PD_CHANGE. -/
def Hw.pdChange (h : Hw) (d before cause : Nat) : Hw :=
  if before = h.rd d A.pd_on 0 then h
  else h.event d Ev.pdChange (leBytes 1 d ++ leBytes 1 before ++ leBytes 1 (h.rd d A.pd_on 0) ++ leBytes 1 cause)

/-- The order in which domains switch off (R505). -/
def offOrder : List Nat := [domHEAD, domVIEW, domCODEC, domLINE, domMEM, domLINK, domMGMT]

/-- The domains of a mask that are on switched off in the order of R505; a management processor that stops is handled as
R473 says. -/
def Hw.domainsOff (h : Hw) (d mask cause : Nat) : Hw :=
  let before := h.rd d A.pd_on 0
  let l := offOrder.filter fun b => mask.testBit b && before.testBit b
  let h := l.foldl (fun (h : Hw) b => (h.lose d b).wr d A.pd_on 0 (putBit (h.rd d A.pd_on 0) b false)) h
  let h := if l.contains domMGMT then h.mgmtStop d 4 else h
  h.pdChange d before cause

end Sys2Proof.Machine
end

