-- ==== Sys2Proof/Machine/Colour.lean ====
section
/-!
DEFINITION. Colour hold's exposures and measurements (spec/12_colour_hold.md R362 to R372, R376, R379).
-/
namespace Sys2Proof.Machine

/-! ### Pages and exposures (R362, R366, R367) -/

/-- Colour hold's loop changed. -/
def Hw.onCh (h : Hw) (f : ChLoop → ChLoop) : Hw := { h with pkg := { h.pkg with ch := f h.pkg.ch } }

/-- A bar's loop record. -/
def Hw.chBar (h : Hw) (b : Nat) : ChBar := h.pkg.ch.bars.getD b {}

/-- A bar's loop record changed. -/
def Hw.onBar (h : Hw) (b : Nat) (f : ChBar → ChBar) : Hw := h.onCh fun C => { C with bars := C.bars.modify b f }

/-- The die of the illuminator. -/
def Hw.mxDie (h : Hw) : Nat := h.rd 0 A.mx_die 0

/-- The context whose pages are exposed: the test page's (R529), or that of CH_CTRL START. -/
def Hw.chCtx (h : Hw) : Nat := if h.gh.print.isSome then 0 else h.rd 0 A.ch_context 0

/-- The die whose copy of the context gives X₀ and the page length: the illuminator's, or the lowest that holds it. -/
def Hw.chDie (h : Hw) : Nat :=
  let c := h.chCtx
  if (h.ctx? h.mxDie c).isSome then h.mxDie
  else ((List.range h.n).find? fun d => (h.ctx? d c).isSome).getD h.mxDie

/-- PL in lines (R362, R528). -/
def Hw.pageLen (h : Hw) : Nat := if h.gh.print.isSome then 1152 else ((h.ctx? h.chDie h.chCtx).map (·.page)).getD 0

/-- The image position of page `q`'s start in nm. -/
def Hw.pageStart (h : Hw) (q : Nat) : Int :=
  let lo := ((h.ctx? h.chDie h.chCtx).map (·.x0lo)).getD 0
  h.rdS h.chDie A.x0 h.chCtx 64 + ((lo + q * h.pageLen * h.rd h.chDie A.line_pitch 0) / 2 ^ 32 : Nat)

/-- The LPOS at which page `q` is exposed (R366). -/
def Hw.exposePos (h : Hw) (q : Nat) : Int := h.pageStart q + h.rd 0 A.expose_nm 0

/-- Entry of `mx_seq` for page `q`: *r*(*q*) (R367). -/
def Hw.bandOf (h : Hw) (q : Nat) : Nat :=
  let d := h.mxDie
  let i := q % max 1 (h.rd d A.mx_seq_len 0)
  bits (h.blkNum d A.mx_seq 0 0 10) (5 * i + 4) (5 * i)

/-- The band that a record of page `q` shows on the illuminator's die (R354): 0xFF for a dark step. -/
def Hw.bandSeen (h : Hw) (q : Nat) : Nat := if h.bandOf q < 16 then h.bandOf q else 0xFF

/-- Cameras named in `cameras`, as (die, port). -/
def Hw.chCams (h : Hw) : List (Nat × Nat) :=
  ((List.range 16).filter fun k => (h.rd 0 A.cameras 0).testBit k).map fun k => (k / 2, k % 2)

/-- The outputs that an exposure fires: the matrix's and each camera's. -/
def Hw.chOutputs (h : Hw) : List (Nat × Nat) :=
  ((h.mxDie, h.rd h.mxDie A.mx_pulse 0) ::
    (h.chCams.map fun k => (k.1, h.rd k.1 A.trig_pulse k.2)).filter fun o => decide (o.2 < 8)).eraseDups

/-- Colour hold, or Gatehouse in its place, exposes pages. -/
def Hw.chActive (h : Hw) : Bool :=
  h.rd 0 A.ch_state 0 == 1 || (h.gh.print.isSome && h.chCams.any fun k => h.rd k.1 A.cam_state k.2 == camRUN)

/-- The matrix stopped and started again in STROBE from its first entry (R367). -/
def Hw.chAlign (h : Hw) : Hw := (h.wr h.mxDie A.mx_state 0 2).onMx h.mxDie fun _ => {}

/-- The predicted TB1 time of page `q`'s exposure in units of 125 ps (R146, R366). -/
def Hw.exposeAt (h : Hw) (q : Nat) : Option Int :=
  let p := (h.pos h.mxDie).newest
  (tau p (h.rd h.mxDie A.use_accel 0 = 1) (h.exposePos q * 2 ^ 32)).map fun t => 8 * (p.tb1 : Int) + t

/-- Bytes `o` to `o` + `n` - 1 of a package block attribute, signed. -/
def Hw.chInt (h : Hw) (a : AttrId) (i o n : Nat) : Int := toSigned (8 * n) (h.blkNum 0 a i o n)

/-- The values of `cam_map` entry `k`: `cam_x_nm`, `cam_xpitch_pnm`, `cam_offset_nm`, `cam_ypitch_pnm` (R376). -/
def Hw.camX (h : Hw) (k : Nat) : Int := h.chInt A.cam_map 0 (32 * k) 8
def Hw.camXp (h : Hw) (k : Nat) : Int := h.chInt A.cam_map 0 (32 * k + 8) 4
def Hw.camOff (h : Hw) (k : Nat) : Int := h.chInt A.cam_map 0 (32 * k + 12) 8
def Hw.camYp (h : Hw) (k : Nat) : Int := h.chInt A.cam_map 0 (32 * k + 20) 4

/-- The row of a camera at which image position `y` of a page (nm from its start) lies at the exposure (R376, R379). -/
def Hw.rowAt (h : Hw) (k : Nat) (y : Int) : Int :=
  if h.camYp k = 0 then 0 else (y - h.rd 0 A.expose_nm 0 + h.camOff k) * 1000 / (h.camYp k * 256)

/-- The plane that colour hold reads: X of an RGBW stream, G of a MONO one (R365). -/
def Hw.chPlane (h : Hw) (isp st : Nat) : Nat := if h.rd isp A.demosaic st = 2 then 3 else 1

/-- A stage parameter set by colour hold; a change takes a new `cfg_gen` (R317, R379). -/
def Hw.setStage (h : Hw) (isp st : Nat) (l : List (AttrId × Nat)) : Hw :=
  if l.all fun x => h.rd isp x.1 st == x.2 then h
  else (l.foldl (fun (h : Hw) x => h.wr isp x.1 st x.2) h).add isp A.cfg_gen st

/-- The bar to which the health band of page `q` belongs (R379). -/
def Hw.bandBar (h : Hw) (q : Nat) : Option Nat := (List.range h.n).find? fun b => h.rd 0 A.bar_band (b + 1) == h.bandOf q

/-- XPOS of nozzle `j` of port `p` of bar `b` in units of 2^-32 nm (R363). -/
def Hw.nozzleX (h : Hw) (b p j : Nat) : Int := h.chInt A.port_x_nm (b + 1) (4 * p) 4 * 2 ^ 32 + j * h.rdS 0 A.xpitch (b + 1) 64

/-- The ports of a bar: those of the context on its die, or all enabled ones for the test page. -/
def Hw.barPorts (h : Hw) (b : Nat) : List Nat :=
  match h.ctx? b h.chCtx with
  | some c => portsOf c.ports
  | none => (List.range 24).filter fun p => h.rd b A.hp_enable p == 1

/-- The column predicted for an XPOS (2^-32 nm) on a camera, in 1/256 pixel. -/
def Hw.columnOf (h : Hw) (cam : Nat) (x : Int) : Int :=
  if h.camXp cam = 0 then 0 else (x - h.camX cam * 2 ^ 32) * 1000 / (h.camXp cam * 2 ^ 32)

/-- Before a page's exposure each camera's profile is set to cover its health band (R379); the test page's nozzle check lies
in its lines 24 *m* to 24 *m* + 23 (R528, R529). -/
def Hw.bandWindows (h : Hw) (q : Nat) : Hw :=
  let gh := h.gh.print.isSome
  let first := if gh then 24 * (q % 16) else h.rd 0 A.hb_first 0
  let n := if gh then 24 else h.rd 0 A.hb_lines 0
  if n = 0 ∨ h.bandBar q = none then h
  else
    h.chCams.foldl (fun (h : Hw) k =>
      let cam := 2 * k.1 + k.2
      let isp := h.rd k.1 A.isp_die k.2
      let st := h.rd k.1 A.stream k.2
      let y (line : Nat) : Int := (line * h.rd h.chDie A.line_pitch 0 / 2 ^ 32 : Nat)
      let a := h.rowAt cam (y first)
      let b := h.rowAt cam (y (first + n))
      let m : Int := h.rd 0 A.hb_margin 0
      let y0 := clampInt 0 65535 (min a b + m)
      let y1 := clampInt y0 65535 (max a b - m)
      h.setStage isp st [(A.cp_plane, h.chPlane isp st), (A.cp_bin, 1), (A.cp_y0, y0.toNat * 65536 + (y1 - y0).toNat)]) h

/-- The page's test targets of a bar (R528): XPOS from and to, in 2^-32 nm: registration squares, or the blocks of 512 nozzles
of the colour strip. -/
def Hw.ghSpans (h : Hw) (b : Nat) (strip : Bool) : List (Int × Int) :=
  (h.barPorts b).flatMap fun p =>
    let n := h.rd b A.nozzles p
    let js := if strip then (List.range 8).filterMap (fun i => if (8 * p + i) % 8 = b then some (512 * i, 512 * i + 511) else none)
      else if p % 4 = 0 then [(232 + 448 * b, 279 + 448 * b)] else []
    (js.filter fun j => decide (j.2 < n)).map fun j => (h.nozzleX b p j.1, h.nozzleX b p j.2)

/-- The rectangle (*x*, *y*, *w*, *h* in pixels) in which camera `k` sees page lines `first` to `last` over the span nearest to
its centre column (R529; assumption log 16); none outside the picture. -/
def Hw.ghRect (h : Hw) (k b : Nat) (strip : Bool) (first last : Nat) : Option (Nat × Nat × Nat × Nat) :=
  let w := h.rd (k / 2) A.width (k % 2)
  let far (s : Int × Int) : Nat := (h.columnOf k s.1 + h.columnOf k s.2 - 256 * (w : Int)).natAbs
  match h.ghSpans b strip with
  | [] => none
  | s :: ss =>
    let t := ss.foldl (fun a y => if far y < far a then y else a) s
    let y (line : Nat) : Int := (line * h.rd h.chDie A.line_pitch 0 / 2 ^ 32 : Nat)
    let (r0, r1) := (h.rowAt k (y first), h.rowAt k (y (last + 1)))
    let (c0, c1) := (h.columnOf k t.1 / 256, h.columnOf k t.2 / 256)
    let (x0, x1, y0, y1) := (min c0 c1, max c0 c1, min r0 r1, max r0 r1)
    if x0 < 0 ∨ (w : Int) ≤ x1 ∨ y0 < 0 then none
    else some (x0.toNat, y0.toNat, (x1 - x0 + 1).toNat, (y1 - y0 + 1).toNat)

/-- A window entry of `roi_table` form. -/
def rectBytes : Option (Nat × Nat × Nat × Nat) → List Byte
  | none => List.replicate 8 0
  | some (x, y, w, n) => leBytes 2 x ++ leBytes 2 y ++ leBytes 2 w ++ leBytes 2 n

/-- The ROI and mark windows of the test page set on each camera's stream (R529): window *b* the registration square of bar
*b* in a frame twice its size, ROI 3 *b* + *i* the colour-strip row *i* of bar *b*. -/
def Hw.ghWindows (h : Hw) : Hw :=
  h.chCams.foldl (fun (h : Hw) c =>
    let k := 2 * c.1 + c.2
    let isp := h.rd c.1 A.isp_die c.2
    let st := h.rd c.1 A.stream c.2
    let grow (r : Nat × Nat × Nat × Nat) := (r.1 - r.2.2.1 / 2, r.2.1 - r.2.2.2 / 2, 2 * r.2.2.1, 2 * r.2.2.2)
    let marks := (List.range 8).flatMap fun b => rectBytes ((h.ghRect k b false 648 695).map grow)
    let rois := (List.range 24).flatMap fun i => rectBytes (h.ghRect k (i / 3) true (768 + 128 * (i % 3)) (895 + 128 * (i % 3)))
    let same := (h.blk (rkey isp A.mark_table st)).take 64 = marks ∧ (h.blk (rkey isp A.roi_table st)).take 192 = rois
    if same then h
    else
      let h := (h.setBlk (rkey isp A.mark_table st) marks).setBlk (rkey isp A.roi_table st) rois
      (h.setStage isp st [(A.stats_mark_count, 8), (A.roi_count, 24)]).add isp A.cfg_gen st) h

/-- An exposure programmed as one-shot pulses at a TB1 time (R366). -/
def Hw.chProgram (h : Hw) (q : Nat) (t : Nat) : Hw :=
  let h := h.bandWindows q
  let h := if h.gh.print.isSome then h.ghWindows else h
  let h := h.chOutputs.foldl (fun (h : Hw) o => (poArm o.1 1 o.2 t 0 0 (h.wr o.1 A.po_tb o.2 1)).2) h
  h.onCh fun C => { C with plan := some { q := q, t := t, pos := h.exposePos q } }

/-- The first page that the band sequence may start with (R367): the first multiple of `mx_seq_len` still ahead. -/
def Hw.chFirst (h : Hw) : Nat :=
  let len := max 1 (h.rd h.mxDie A.mx_seq_len 0)
  let pitch : Int := (h.pageLen * h.rd h.chDie A.line_pitch 0 / 2 ^ 32 : Nat)
  let ahead := h.lposNow h.mxDie - h.exposePos 0
  if ahead < 0 ∨ pitch ≤ 0 then 0 else ((ahead / pitch).toNat / len + 1) * len

/-- At each pair of the illuminator's die: the next exposure programmed at least `sched_lead_ms` ahead, or programmed again
when the prediction has moved by more than `sched_tol_us` and the pulses are more than 1 ms ahead (R366). A page that can
no longer be programmed in time is not exposed. -/
def Hw.chPair (h : Hw) (d : Nat) : Hw :=
  if d ≠ h.mxDie ∨ !h.chActive ∨ h.pageLen = 0 then h
  else
    let q := h.pkg.ch.next.getD h.chFirst
    let h := h.onCh fun C => { C with next := some q }
    match h.exposeAt q with
    | none => h
    | some t =>
      let now : Int := h.now8 d
      match h.pkg.ch.plan with
      | some p =>
        if 8000 * (h.rd 0 A.sched_tol_us 0 : Int) < (t - p.t).natAbs ∧ now + 8000000 < t ∧ now + 8000000 < p.t then
          h.chProgram q t.toNat
        else h
      | none =>
        if now + 8000000 * (h.rd 0 A.sched_lead_ms 0 : Int) ≤ t then h.chProgram q t.toNat
        else h.onCh fun C => { C with next := some (q + 1), resync := if C.resync.isSome then C.resync else some q }

/-- The matrix pulse of a planned exposure has been given (R366, R367): the page is exposed; a lost band sequence is taken
up again before the next page that is a multiple of `mx_seq_len`. -/
def Hw.chPulse (h : Hw) (d out : Nat) : Hw :=
  match h.pkg.ch.plan with
  | none => h
  | some p =>
    if d ≠ h.mxDie ∨ out ≠ h.rd d A.mx_pulse 0 then h
    else
      let len := max 1 (h.rd d A.mx_seq_len 0)
      let h := h.wr 0 A.page_q 0 p.q
      let ok := h.pkg.ch.resync.isNone
      let h := h.onCh fun C => { C with plan := none, next := some (p.q + 1), exposed := C.exposed ++ [{ p with ok := ok }] }
      if !ok ∧ (p.q + 1) % len = 0 then h.chAlign.onCh fun C => { C with resync := none } else h

/-- PULSE_OUTPUT_MATCH (R311, R354, R366, R400, R401): the pulse, the matrix step that it starts, the cameras that it
triggers, colour hold's exposure. -/
def execPulseOutputMatch (die out : Nat) (s : State) : Host.Outcome State Fault Refusal :=
  s.onUnit die out 8 fun _ h =>
    if h.poDue die out then (h.pulseMatch die out).chPulse die out else h

/-! ### Records (R320, R321, R368) -/

/-- Fields of a record's header. -/
def recKind (w : List Nat) : Nat := bits (w.getD 0 0) 63 56
def recCam (w : List Nat) : Nat := bits (w.getD 0 0) 55 48
def recPart (w : List Nat) : Nat := bits (w.getD 0 0) 47 40
def recFlags (w : List Nat) : Nat := bits (w.getD 0 0) 39 32
def recBand (w : List Nat) : Nat := bits (w.getD 0 0) 31 24
def recFrame (w : List Nat) : Nat := bits (w.getD 1 0) 63 32
def recTime (w : List Nat) : Nat := w.getD 2 0
def recLpos (w : List Nat) : Int := toSigned 64 (w.getD 3 0)
def recPairTime (w : List Nat) : Nat := w.getD 4 0
def recSpeed (w : List Nat) : Int := toSigned 32 (w.getD 5 0)

/-- LPOS at exposure, extrapolated from the latched pair (R368). -/
def recPos (w : List Nat) : Int := recLpos w + recSpeed w * ((recTime w : Int) - recPairTime w) / 10 ^ 6

/-- Packets of a queue read by Rildin until it is EMPTY. -/
def Hw.popAll (h : Hw) (ms : List (List Host.Cell)) (d i : Nat) : Nat → List (List Nat) × Hw
  | 0 => ([], h)
  | n + 1 =>
    let (w, h) := h.qPopPacket ms d i
    if w = [] then ([], h)
    else
      let (ws, h) := h.popAll ms d i n
      (w :: ws, h)

/-- The statistics queues that Rildin consumes for the named cameras are emptied into colour hold's records. -/
def Hw.chCollect (h : Hw) (ms : List (List Host.Cell)) : Hw :=
  let qs := (h.chCams.map fun k =>
    let isp := h.rd k.1 A.isp_die k.2
    (isp, h.rd isp A.stats_queue (h.rd k.1 A.stream k.2))).eraseDups
  qs.foldl (fun (h : Hw) q =>
    if (h.q q.1 q.2).consumer = 0x02 then
      let (ws, h) := h.popAll ms q.1 q.2 (h.q q.1 q.2).depth
      h.onCh fun C => { C with recs := C.recs ++ ws }
    else h) h

/-- The FRAME record of camera `cam` whose exposure is nearest to the planned time. -/
def frameFor (recs : List (List Nat)) (cam t : Nat) : Option (List Nat) :=
  let far (w : List Nat) : Nat := ((recTime w : Int) - t).natAbs
  match recs.filter fun w => recKind w == kFrame && recCam w == cam with
  | [] => none
  | w :: ws => some (ws.foldl (fun b x => if far x < far b then x else b) w)

/-- Records of a frame of one kind, in the order of their parts. -/
def partsOf (recs : List (List Nat)) (f : List Nat) (kind : Nat) : List (List Nat) :=
  let l := recs.filter fun w => recKind w == kind && recCam w == recCam f && recFrame w == recFrame f
  (List.range l.length).filterMap fun i => l.find? fun w => recPart w == i

/-- A frame of page `p` is usable, the condition on the bar apart (R368). -/
def Hw.frameUsable (h : Hw) (p : ChPage) (f : List Nat) : Bool :=
  p.ok && recFlags f &&& 127 == 0 && decide ((recPos f - p.pos).natAbs ≤ h.rd 0 A.expose_tol_nm 0) &&
    decide ((h.rd 0 A.min_speed 0 : Int) ≤ recSpeed f)

/-- The last condition of R368, per bar. -/
def Hw.barUsable (h : Hw) (q b : Nat) : Bool :=
  let pl := h.pageLen
  !((h.die b).lineFaults.any fun x => x.1 == h.chCtx && decide (x.2.1 < (q + 1) * pl) && decide (q * pl ≤ x.2.2))

/-! ### Reflectance and spectra (R364, R369, R371) -/

/-- Fields of patch entry `i` (R364). -/
def Hw.patchCam (h : Hw) (i : Nat) : Nat := h.blkNum 0 A.patch_table 0 (16 * i) 1
def Hw.patchBar (h : Hw) (i : Nat) : Nat := h.blkNum 0 A.patch_table 0 (16 * i + 1) 1
def Hw.patchRoi (h : Hw) (i : Nat) : Nat := h.blkNum 0 A.patch_table 0 (16 * i + 2) 2
def Hw.patchX (h : Hw) (i : Nat) : Int := h.chInt A.patch_table 0 (16 * i + 4) 4

/-- The mean of ROI `i` in a frame's records on colour hold's plane; none when it is invalid. -/
def Hw.roiMean (h : Hw) (recs : List (List Nat)) (f : List Nat) (i : Nat) : Option Nat :=
  let cam := recCam f
  let isp := h.rd (cam / 2) A.isp_die (cam % 2)
  let plane := h.chPlane isp (h.rd (cam / 2) A.stream (cam % 2))
  let words := (partsOf recs f kRoi).flatMap fun w => w.drop 6
  (words[i]?).bind fun v =>
    let m := v / 2 ^ (16 * plane) % 65536
    if m = 0xFFFF then none else some m

/-- White and dark mean of a camera from the CAMERA calibration (R369, R462): the values in force hold, for each camera, the
white mean of each band and then the dark mean, 16 bits each (assumption log 14). -/
def Hw.tileMean (h : Hw) (cam i : Nat) : Nat :=
  leNat (((((h.die h.leadDie).cals.getD 4 {}).values).drop (2 * (17 * cam + i))).take 2)

/-- The dark value of a camera and ROI: the newest dark step's, unless it is older than `dark_max_s` (R369). -/
def Hw.darkOf (h : Hw) (cam roi now : Nat) : Nat :=
  match h.pkg.ch.darks.find? fun x => x.1 = (cam, roi) with
  | some x => if now ≤ x.2.1 + 10 ^ 9 * h.rd 0 A.dark_max_s 0 then x.2.2 else h.tileMean cam 16
  | none => h.tileMean cam 16

/-- ρ of a mean in band `r`, Q1.15, limited to 0 to 2.0 (R369). -/
def Hw.reflectance (h : Hw) (cam roi r now m : Nat) : Nat :=
  let d := h.darkOf cam roi now
  let w := h.tileMean cam r
  if w = d then Config.reflectanceOpen cam m % 65536
  else
    let x := nearest ((h.blkNum 0 A.tile_white 0 (2 * r) 2 : Int) * ((m : Int) - d) * (if w < d then -1 else 1))
      ((w : Int) - d).natAbs
    (clampInt 0 65535 x).toNat

/-- −log10 of a reflectance in units of 2^-48. -/
def absorbance (rho : Nat) : Int := -(log10Q rho 32768)

/-- Band centre of row `r` (R371). -/
def Hw.bandNm (h : Hw) (r : Nat) : Nat := h.blkNum 0 A.band_nm 0 (2 * r) 2

/-- The rows that form a spectrum, in the order of their centres. -/
def Hw.bands (h : Hw) : List Nat :=
  ((List.range 16).filter fun r => h.bandNm r != 0).mergeSort fun a b => decide (h.bandNm a ≤ h.bandNm b)

/-- A 5 nm table interpolated linearly at a wavelength, times 5 (R371). -/
def cieAt (curve nm : Nat) : Nat :=
  let a := nm / 5 * 5
  Config.cieTable curve a * (5 - nm % 5) + Config.cieTable curve (a + 5) * (nm % 5)

/-- The trapezoid rule over points (wavelength, value), times 2. -/
def trapezoid : List (Nat × Nat) → Nat
  | (a, u) :: (b, v) :: l => (b - a) * (u + v) + trapezoid ((b, v) :: l)
  | _ => 0

/-- XYZ of a spectrum (band centre, ρ): numerators and common denominator, Y = 100 for ρ = 1 in every band (R371). -/
def xyz (sp : List (Nat × Nat)) : List Nat × Nat :=
  let integral (curve : Nat) (f : Nat → Nat) := trapezoid (sp.map fun x => (x.1, cieAt curve x.1 * cieAt 3 x.1 * f x.2))
  ((List.range 3).map fun c => 100 * integral c id, integral 1 fun _ => 32768)

/-- The newest usable sample of each band of a patch within `spectrum_span_m` before the newest (R371): complete, or none. -/
def Hw.spectrum (h : Hw) (patch : Nat) : Option (List (Nat × Nat)) :=
  let l := h.pkg.ch.samples.filter fun x => x.1.1 == patch
  let top := l.foldl (fun (t : Int) x => max t x.2.1) (-2 ^ 62)
  let span : Int := 10 ^ 9 * h.rd 0 A.spectrum_span_m 0
  h.bands.mapM fun r =>
    (l.find? fun x => x.1.2 == r && decide (top - span ≤ x.2.1)).map fun x => (h.bandNm r, x.2.2)

/-- The reference spectrum of a patch. -/
def Hw.refSpectrum (h : Hw) (patch : Nat) : List (Nat × Nat) :=
  h.bands.map fun r => (h.bandNm r, h.blkNum 0 A.ref_spectra 0 (32 * patch + 2 * r) 2)

/-- ΔE00 × 100 of a spectrum against a reference (R371). -/
def deltaE (sp ref : List (Nat × Nat)) : Nat :=
  let a := xyz sp
  let b := xyz ref
  Config.ciede2000 a.1 a.2 b.1 b.2

/-! ### Nozzles and zones (R225, R363, R364) -/

/-- The nozzle *J* of a bar nearest to an XPOS in nm, the lower *J* among equals (R364). -/
def Hw.nearestNozzle (h : Hw) (b : Nat) (x : Int) : Option Nat :=
  let pitch := h.rdS 0 A.xpitch (b + 1) 64
  let cands := (h.barPorts b).map fun p =>
    let n := h.rd b A.nozzles p
    let j := if pitch = 0 then 0 else
      (clampInt 0 ((n : Int) - 1) (nearest ((x * 2 ^ 32 - h.nozzleX b p 0) * (if pitch < 0 then -1 else 1)) pitch.natAbs)).toNat
    ((x * 2 ^ 32 - h.nozzleX b p j).natAbs, 4096 * p + j)
  match cands with
  | [] => none
  | c :: cs => some (cs.foldl (fun m y => if y.1 < m.1 ∨ (y.1 = m.1 ∧ y.2 < m.2) then y else m) c).2

/-- The zone of a patch (R364). -/
def Hw.patchZone (h : Hw) (i : Nat) : Option Nat := (h.nearestNozzle (h.patchBar i) (h.patchX i)).map (· / 1536)

/-- The health state of nozzle `j` of a die (R225). -/
def Hw.healthOf (h : Hw) (b j : Nat) : Nat := h.blkNum b A.health_map 0 (j / 4) 1 / 4 ^ (j % 4) % 4

/-! ### Health judgements (R379, R380) -/

/-- The column profile of a frame. -/
def profileOf (recs : List (List Nat)) (f : List Nat) : List Nat :=
  (partsOf recs f kCol).flatMap fun w => (w.drop 6).flatMap fun v => (List.range 4).map fun i => v / 2 ^ (16 * i) % 65536

/-- Nozzle *J* judged on the frames of the usable cameras (R380): whether it is missing (open where the contrast has no value);
none without a frame. -/
def Hw.judgeNozzle (h : Hw) (recs : List (List Nat)) (frames : List (List Nat)) (b j : Nat) : Option Bool :=
  let x := h.nozzleX b (j / 4096) (j % 4096)
  let off (f : List Nat) : Nat :=
    let cam := recCam f
    (h.columnOf cam x - 128 * ((h.rd (cam / 2) A.width (cam % 2) : Int) - 1)).natAbs
  match frames with
  | [] => none
  | f :: fs =>
    let g := fs.foldl (fun a y => if off y < off a then y else a) f
    let cam := recCam g
    let p := profileOf recs g
    let step := 8 * h.rdS 0 A.xpitch (b + 1) 64
    let w := h.rd (cam / 2) A.width (cam % 2)
    let at? (x : Int) : Option Nat :=
      let c := nearest (h.columnOf cam x) 256
      if 0 ≤ c ∧ c < w then p[c.toNat]? else none
    match at? x, at? (x - step), at? (x + step) with
    | some v, some a, some b' =>
      let bg2 := a + b'
      if bg2 = 0 then some (Config.contrastOpen (recTime g) b j)
      else some (decide (((bg2 : Int) - 2 * v) * 2 ^ 15 < h.rd 0 A.hb_contrast (b + 1) * bg2))
    | _, _, _ => some (Config.contrastOpen (recTime g) b j)

/-! ### Mark errors (R365, R376) -/

/-- Fields of mark entry `i` (R365). -/
def Hw.markField (h : Hw) (i o n : Nat) : Nat := h.blkNum 0 A.mark_tbl 0 (16 * i + o) n

/-- The error (δy, δx) in nm of a mark centroid of a frame against its nominal place (R376). -/
def Hw.markError (h : Hw) (q : Nat) (f : List Nat) (word : Nat) (yNom xNom : Int) : Int × Int :=
  let cam := recCam f
  let y := recPos f - h.pageStart q - h.camOff cam + (bits word 39 16 : Int) * h.camYp cam / 1000
  let x := h.camX cam + (bits word 63 40 : Int) * h.camXp cam / 1000
  (y - yNom, x - xNom)

/-- The mean of errors. -/
def meanError (l : List (Int × Int)) : Option (Int × Int) :=
  if l = [] then none
  else some (nearest ((l.map (·.1)).sum) l.length, nearest ((l.map (·.2)).sum) l.length)

/-- The valid mark errors of group `g` of bar `b` on the usable frames. -/
def Hw.groupErrors (h : Hw) (q : Nat) (recs frames : List (List Nat)) (b g : Nat) : List (Int × Int) :=
  (List.range (h.rd 0 A.ch_mark_count 0)).filterMap fun i =>
    if h.markField i 1 1 ≠ b ∨ h.markField i 2 1 ≠ g then none
    else
      (frames.find? fun f => recCam f == h.markField i 0 1).bind fun f =>
        (((partsOf recs f kMark).flatMap fun w => w.drop 6)[h.markField i 3 1]?).bind fun w =>
          if w % 65536 = 0 then none
          else some (h.markError q f w (h.markField i 4 4) (toSigned 32 (h.markField i 8 4)))

end Sys2Proof.Machine
end

