-- ==== Sys2Proof/Machine/Objects.lean ====
section
/-!
DEFINITION. Objects and their attributes (spec/02_mailbox_interface.md R60 to R67, R575, R577 and the attribute section of each
chapter): which attributes exist, what a read gives, what refuses a write, what a write does.
-/
namespace Sys2Proof.Machine

/-! ### Which objects and attributes exist -/

/-- Whether an object exists on the executing die; CAMERA calibration exists on the lead die alone (R458). -/
def Hw.objKnown (h : Hw) (d : Nat) (o : ObjRef) : Bool :=
  classKnown o.cls && instOk h d o.cls o.inst && !(o.cls == 0x1D && o.inst == 4 && d != h.leadDie)

/-- Attributes that exist on some instances of a class only (R407, R467, R469, R532). -/
def attrHere (o : ObjRef) : Bool :=
  match o.cls with
  | 0x16 => if o.inst < 8 then decide (o.attr ≤ 0x0A) else decide (0x20 ≤ o.attr)
  | 0x1B =>
    let k := sensorKind o.inst
    if 0x10 ≤ o.attr ∧ o.attr ≤ 0x16 then k == 0 || k == 1
    else if o.attr = 0x17 ∨ o.attr = 0x18 then k == 1
    else if o.attr = 0x19 ∨ o.attr = 0x1A then k == 2 || k == 4 || k == 5
    else true
  | 0x1D => if o.attr = 0x20 then o.inst == 1 else if 0x21 ≤ o.attr then o.inst == 4 else true
  | 0x21 => o.inst == 0 || decide (o.attr ≤ 2)
  | _ => true

/-- The row of an attribute that exists on the object at the behaviour level in force (R82). -/
def Hw.attr? (h : Hw) (o : ObjRef) : Option AttrRow :=
  match attrRow? o.cls o.inst o.attr with
  | some r => if attrHere o && !(h.bl == 1 && r.bl2) then some r else none
  | none => none

/-- The home of the value that an object address names on die `d`. -/
def okey (d : Nat) (o : ObjRef) : RegKey := rkey d ⟨o.cls, o.attr⟩ o.inst

/-- Whether the domain that holds a class is on (R504, R505; assumption log 15). -/
def Hw.classOn (h : Hw) (d c : Nat) : Bool :=
  match classDomain c with
  | some dom => h.on d dom
  | none => true

/-! ### Reads (R61, R577) -/

/-- The value in force of a line-effective attribute (R577): at each affected port's first slot not yet fired, or for a
tone-keyed one at the line that row group 0 of that slot carries; where the ports differ, that of the earliest slot. -/
def Hw.lineNow (h : Hw) (d : Nat) (k : RegKey) : Nat :=
  let time (x : Nat × Ctx) : Int := (h.tFire d x.2 (x.2.slotAt x.1) x.1 0).getD (2 ^ 62)
  match (changePorts k).filterMap fun p => (h.portCtx d p).map fun c => (p, c) with
  | [] => h.rdk k
  | x :: xs =>
    let b := xs.foldl (fun b y => if time y < time b then y else b) x
    h.lineVal d k b.2.num (b.2.slotAt b.1 - if changeTone k then h.rgDelay d b.1 0 else 0)

/-- Scalar attributes that show what other records hold. -/
def Hw.view (h : Hw) (d : Nat) (o : ObjRef) : Option Nat :=
  match o.cls, o.attr with
  | 0x01, 0x0003 => some h.bl
  | 0x02, 0x0002 => some (if (h.q d o.inst).cached then (h.q d o.inst).size else 0)
  | 0x02, 0x0003 => some (if (h.q d o.inst).cached then (h.q d o.inst).w1 else 0)
  | 0x02, 0x0004 => some (if (h.q d o.inst).enabled then (h.q d o.inst).depth else 0)
  | 0x06, 0x0005 => if o.inst = 0 then some (h.speedLimit d) else none
  | 0x11, 0x0001 => some (((h.lamp? d o.inst).map (·.level)).getD 0)
  | 0x11, 0x0002 => some (((h.lamp? d o.inst).map (·.flags)).getD 0)
  | 0x11, 0x0003 => some (((h.lamp? d o.inst).map (·.age)).getD 0)
  | 0x12, 0x0014 => some (h.mxRow d)
  | 0x14, 0x0001 => some (h.tb d o.inst)
  | 0x14, 0x0013 => some (match (h.servo o.inst).st, (h.servo o.inst).lastAt with
    | .holdover, some t => satNat 0xFFFFFFFF ((h.tb h.leadDie 1 - t) / 10 ^ 6)
    | _, _ => 0)
  | 0x1E, 0x0009 => some (satNat 0xFFFFFFFF ((h.clk - h.kennelAt) / 10 ^ 6))
  | 0x1F, 0x0005 => some (h.frontUsed d)
  | 0x21, 0x0003 => some ((h.fwSlots.getD 0 FwSlot.blank).st.code)
  | 0x21, 0x0004 => some ((h.fwSlots.getD 1 FwSlot.blank).st.code)
  | 0x21, 0x0005 => some (h.fwSlots.getD 0 FwSlot.blank).ver
  | 0x21, 0x0006 => some (h.fwSlots.getD 1 FwSlot.blank).ver
  | 0x21, 0x0007 => some (satNat 15 (h.fwSlots.getD 0 FwSlot.blank).fails + 16 * satNat 15 (h.fwSlots.getD 1 FwSlot.blank).fails)
  | _, _ => none

/-- A scalar attribute read: the value, and the state after the read (an RC attribute is cleared, R12). -/
def Hw.getScalar (h : Hw) (d : Nat) (o : ObjRef) (r : AttrRow) : Nat × Hw :=
  let k := okey d o
  let v := match h.view d o with
    | some v => v
    | none => if r.lineEff then h.lineNow d k else h.rdk k
  (v % 2 ^ r.width, if r.acc = .rc then h.wrk k (regReset k) else h)

/-- The bytes of a stored calibration record (R465): values, count, TB0 time, die mean, CRC-32C. -/
def CalRec.bytes (c : CalRec) : List Byte :=
  let b := c.values ++ leBytes 4 c.runs ++ leBytes 8 c.tb0 ++ leBytes 2 c.temp
  b ++ leBytes 4 (crc32c b)

/-- Block attributes that show what other records hold. -/
def Hw.blkView (h : Hw) (d : Nat) (o : ObjRef) : Option (List Byte) :=
  match o.cls, o.attr with
  | 0x11, 0x0004 => some (match h.lamp? d o.inst with
    | some l => wordBytes [l.w0, l.w1, l.level * 2 ^ 22 + l.age, l.flags * 2 ^ 24]
    | none => List.replicate 16 0)
  | 0x18, 0x0010 => some ((h.eps.getD o.inst Endpoint.reset).apertures.flatMap (leBytes 8))
  | 0x1D, 0x000C => some ((((h.die d).cals.getD o.inst {}).stored.map CalRec.bytes).getD [])
  | _, _ => none

/-- The size of a block attribute in bytes. -/
def Hw.blkSize (h : Hw) (d : Nat) (o : ObjRef) (r : AttrRow) : Nat :=
  match h.blkView d o with
  | some b => b.length
  | none => r.width / 8

/-- Bytes of a block attribute in force. -/
def Hw.getBlock (h : Hw) (d : Nat) (o : ObjRef) (off len : Nat) : List Byte :=
  match h.blkView d o with
  | some b => (b.drop off).take len
  | none => (List.range len).map fun i => h.blkByte (okey d o) (off + i)

/-! ### What refuses a write -/

/-- A check that fails with a status. -/
def failIf (b : Bool) (st : Status) : Option Status := if b then some st else none

/-- The first check that fails. -/
def firstFail (l : List (Option Status)) : Option Status := l.findSome? id

/-- ENCODER (R125, R140). -/
def Hw.setEncoder (h : Hw) (d i id v : Nat) : Option Status :=
  let rd (a : AttrId) := h.rd d a i
  firstFail [
    failIf (rd A.enc_enable == 1 && ([2, 3, 4].contains id || (decide (0x20 ≤ id) && decide (id ≤ 0x29)))) .state,
    failIf (id == 0x01 && v == 1 && rd A.scale == 0) .state,
    failIf (id == 0x05 && v != rd A.scale && h.posCh d == some i && h.printing d) .state,
    failIf (id == 0x10 && v != 0 && decide (v < 2 * rd A.index_window)) .range,
    failIf (id == 0x11 && rd A.index_period != 0 && decide (rd A.index_period < 2 * v)) .range,
    failIf (id == 0x2A && (h.enc d i).word.isSome) .state]

/-- POSITION (R125, R141). -/
def Hw.setPosition (h : Hw) (d id v : Nat) : Option Status :=
  firstFail [
    failIf (id == 0x01 && v == 2 && d % 2 == 0) .range,
    failIf (id == 0x01 && v != h.rd d A.pos_source 0 && h.printing d) .state,
    failIf (id == 0x20 && decide (h.n ≤ v)) .range,
    failIf (id == 0x25 && decide (h.rd d A.stretch_tc_mm 0 < v)) .range,
    failIf (id == 0x26 && decide (v < h.rd d A.stretch_window_mm 0)) .range]

/-- LINE_ENGINE (R156, R170, R171, R182). -/
def Hw.setLineEngine (h : Hw) (d i id v : Nat) : Option Status :=
  if i = 0 then failIf (id == 0x10 && h.printing d) .state
  else
    let p := i - 1
    let g := id - 0x10
    let o (g : Nat) := h.rd d ⟨0x06, 0x10 + g⟩ i
    firstFail [
      failIf (id == 0x03 && v != 0 && decide (v < (h.floors d p).2)) .range,
      failIf (id == 0x04 && v != 0 && decide (v < (h.floors d p).1)) .range,
      failIf (decide (0x10 ≤ id) && decide (id ≤ 0x17) && h.rd d A.hp_enable p == 1 && decide (g < h.rgCount d p) &&
        ((decide (0 < g) && decide (v < o (g - 1))) || (decide (g + 1 < h.rgCount d p) && decide (o (g + 1) < v)))) .range]

/-- HEADPORT (R82, R179, R202). -/
def Hw.setHeadport (h : Hw) (d p id v : Nat) : Option Status :=
  let rd (a : AttrId) := h.rd d a p
  firstFail [
    failIf (rd A.hp_enable == 1 && ((decide (0x03 ≤ id) && decide (id ≤ 0x09)) || id == 0x0E ||
      (decide (0x10 ≤ id) && decide (id ≤ 0x17)))) .state,
    failIf (decide (0x03 ≤ id) && decide (id ≤ 0x05) && rd A.hp_state != 0) .state,
    failIf (id == 0x03 && v == 3 && h.bl == 1) .range,
    failIf (id == 0x04 && v == 0 && decide (3 < rd A.spit_level)) .range,
    failIf (id == 0x50 && rd A.greyscale == 0 && decide (3 < v)) .range,
    failIf (id == 0x0A && decide (rd A.fire_spacing_ns < v + 20)) .range,
    failIf (id == 0x0B && decide (v < rd A.fire_width_ns + 20)) .range,
    failIf (id == 0x53 && decide (v < (h.floors d p).2)) .range]

/-- PIPELINE (R229, R231). -/
def Hw.setPipeline (h : Hw) (d i id v : Nat) : Option Status :=
  if i = 0 then
    firstFail [
      failIf ([1, 3, 4, 5, 0x10, 0x11].contains id && h.printing d) .state,
      failIf (id == 3 && (List.range 24).any fun p => decide (v < (h.rdS d A.xweb_shift (p + 1) 8).natAbs)) .range]
  else failIf (id == 1 && decide (h.rd d A.xweb_margin 0 < (toSigned 8 v).natAbs)) .range

/-- INGEST (R297, R298). -/
def Hw.setIngest (h : Hw) (d i id v : Nat) : Option Status :=
  if i = 0 then
    firstFail [
      failIf (id == 0x01 && (v == 50420 || v == h.rd 0 A.tun_udp_port 0)) .range,
      failIf (id == 0x12 && decide (v ≤ h.rd d A.stop_margin_mm 0)) .range,
      failIf (id == 0x13 && decide (h.rd d A.slow_margin_mm 0 ≤ v)) .range]
  else
    let S := h.stream d (i - 1)
    firstFail [
      failIf ([1, 2, 8, 9].contains id && (S.fragOn || S.waiting.isSome || S.queued != 0 || S.dmaHead != S.dmaTail)) .state,
      failIf (id == 8 && v % 16 != 0) .range]

/-- CAMERA (R330). -/
def Hw.setCamera (h : Hw) (d i id v : Nat) : Option Status :=
  firstFail [
    failIf (h.rd d A.cam_state i == camRUN && ((decide (3 ≤ id) && decide (id ≤ 0x11)) ||
      (decide (0x18 ≤ id) && decide (id ≤ 0x1C)))) .state,
    failIf (id == 8 && decide (h.n ≤ v)) .range,
    failIf ((id == 0x0C || id == 0x0E) && v % 4096 != 0) .range,
    failIf (id == 0x1B && !(([1, 2].contains (bits v 3 2)) && [1, 2].contains (bits v 1 0))) .range]

/-- The camera of a stream is in RUN (R317). -/
def Hw.streamRuns (h : Hw) (d st : Nat) : Bool :=
  let c := h.rd d A.stream_cam st
  c != 0xFF && h.rd (c / 2) A.cam_state (c % 2) == camRUN

/-- ISP (R317, R331). -/
def Hw.setIsp (h : Hw) (d i id v : Nat) : Option Status :=
  firstFail [
    failIf ((id == 4 || id == 5) && h.streamRuns d i) .state,
    failIf (id == 3 && bit v 4 != bit v 5) .range]

/-- CHAIN (R343, R358). -/
def Hw.setChain (h : Hw) (d i id v : Nat) : Option Status :=
  let n := h.rd d A.chain_drivers i
  let refresh := if id = 3 then v else h.rd d A.refresh_us i
  let slack := if id = 6 then v else h.rd d A.ret_slack_us i
  let mbps := if id = 2 then v else h.rd d A.chain_mbps i
  firstFail [
    failIf ((id == 2 || id == 4) && h.rd d A.chain_state i != 0) .state,
    failIf ((id == 2 || id == 3 || id == 6) && refreshLow n refresh slack mbps) .range]

/-- MATRIX (R360): in SCAN `row_us` lies above the sum of the step times. -/
def Hw.setMatrix (h : Hw) (d id v : Nat) : Option Status :=
  let x (i : Nat) (a : AttrId) := if id = i then v else h.rd d a 0
  let sum := x 6 A.mx_blank_ns + x 7 A.mx_pch_ns + x 8 A.mx_settle_ns + 1000 * x 9 A.row_on_us
  firstFail [
    failIf (decide (2 ≤ id) && decide (id ≤ 0x0A) && h.rd d A.mx_state 0 != 0) .state,
    failIf ([2, 6, 7, 8, 9, 0x0A].contains id && x 2 A.mx_mode == 0 && decide (1000 * x 0x0A A.row_us ≤ sum)) .range]

/-- COLOUR_HOLD (R385, R386). -/
def Hw.setColour (h : Hw) (i id v : Nat) : Option Status :=
  if i = 0 then
    firstFail [
      failIf (h.rd 0 A.ch_state 0 == 1 && decide (4 ≤ id) && decide (id ≤ 0x17) && !(id == 0x11 && h.rd 0 A.ref_mode 0 == 1)) .state,
      failIf ((id == 9 || id == 0x14) && decide (h.n ≤ v)) .range]
  else failIf (h.rd 0 A.bar_state i != 0 && (id == 2 || (decide (8 ≤ id) && decide (id ≤ 0x0A)))) .state

/-- TIMEBASE (R405). -/
def Hw.setTimebase (h : Hw) (i id v : Nat) : Option Status :=
  let rd (a : AttrId) := h.rd 0 a i
  firstFail [
    failIf (i == 1 && decide (4 ≤ id) && decide (id ≤ 0x1B)) .state,
    failIf (id == 4 && v == 2 && i != 0) .range,
    failIf (id == 0x0A && decide (v < rd A.slew_max_ppb)) .range,
    failIf (id == 0x0B && decide (rd A.max_rate_ppb < v)) .range,
    failIf (id == 0x0C && decide (rd A.unlock_ns ≤ v)) .range,
    failIf (id == 0x0D && (decide (v ≤ rd A.lock_ns) || decide (rd A.outlier_ns ≤ v))) .range,
    failIf (id == 0x10 && decide (v ≤ rd A.unlock_ns)) .range]

/-- ETH_PORT (R437). -/
def Hw.setEth (h : Hw) (d i id v : Nat) : Option Status :=
  firstFail [
    failIf (h.rd d A.eth_enable i == 1 && [2, 3, 6, 0x0C].contains id) .state,
    failIf (id == 2 && v != 3 && h.rd d A.eth_fec i == 2) .range,
    failIf (id == 3 && v == 2 && h.rd d A.eth_rate i != 3) .range,
    failIf (id == 5 && bit v 40) .range,
    failIf (id == 7 && (decide (4094 < v % 4096) || (bit v 12 && v % 4096 == 0))) .range]

/-- SENSOR (R445, R447, R467). -/
def Hw.setSensor (h : Hw) (d i id v : Nat) : Option Status :=
  let s (x : Nat) : Int := toSigned 16 x
  let rd (a : AttrId) : Int := toSigned 16 (h.rd d a i)
  let top (x : Nat) : Int := toSigned 16 (regReset ⟨d, 0x1B, i, x⟩)
  firstFail [
    failIf ((id == 0x10 || id == 0x11 || id == 0x12) && decide (top id < s v)) .range,
    failIf (id == 0x14 && decide (regReset ⟨d, 0x1B, i, id⟩ < v)) .range,
    failIf (id == 0x10 && decide (rd A.hot ≤ s v)) .range,
    failIf (id == 0x11 && (decide (s v ≤ rd A.warm) || decide (rd A.critical ≤ s v))) .range,
    failIf (id == 0x12 && decide (s v ≤ rd A.hot)) .range,
    failIf (id == 0x16 && v == 1 && sensorKind i == 0) .range]

/-- What refuses a value of a scalar attribute that lies in its own range: relations between attributes (R11), states in
which the attribute cannot be written, NV writing forbidden (R456, R532), its domain off (assumption log 15). -/
def Hw.setRefuse (h : Hw) (d : Nat) (o : ObjRef) (v : Nat) : Option Status :=
  let own :=
    match o.cls with
    | 0x03 => h.setEncoder d o.inst o.attr v
    | 0x04 => h.setPosition d o.attr v
    | 0x06 => h.setLineEngine d o.inst o.attr v
    | 0x07 => h.setHeadport d o.inst o.attr v
    | 0x08 => h.setPipeline d o.inst o.attr v
    | 0x0C => h.setIngest d o.inst o.attr v
    | 0x0D => h.setCamera d o.inst o.attr v
    | 0x0E => h.setIsp d o.inst o.attr v
    | 0x10 => h.setChain d o.inst o.attr v
    | 0x12 => h.setMatrix d o.attr v
    | 0x13 => h.setColour o.inst o.attr v
    | 0x14 => h.setTimebase o.inst o.attr v
    | 0x15 => failIf (h.rd d A.ptp_enable o.inst == 1 && decide (3 ≤ o.attr) && decide (o.attr ≤ 0x0B)) .state
    | 0x16 => failIf (decide (2 ≤ o.attr) && decide (o.attr ≤ 5) && h.rd d A.po_state o.inst != 0) .state
    | 0x17 => h.setEth d o.inst o.attr v
    | 0x19 => firstFail [
        failIf (o.attr == 4 && (h.rd d A.itv_state 0 == 1 || h.rd d A.itv_state 0 == 2)) .state,
        failIf (o.attr == 4 && h.bl == 1 && decide (1 < v)) .range]
    | 0x1A => failIf (o.attr == 0x0D && (v == 50420 || (List.range h.n).any fun e => h.rd e A.grt_udp_port 0 == v)) .range
    | 0x1B => h.setSensor d o.inst o.attr v
    | 0x21 => failIf (!h.nvOk) .nvTemp
    | _ => none
  firstFail [own, failIf (!h.classOn d o.cls) .state]

/-! ### What a write does -/

/-- A disabled Ethernet port has no link (R437). -/
def Hw.setEthEnable (h : Hw) (d p v : Nat) : Hw :=
  let h := h.wr d A.eth_enable p v
  if v = 0 ∧ h.rd d A.link_up p = 1 then
    (h.wr d A.link_up p 0).event d Ev.ethLink (leBytes 1 d ++ leBytes 1 p ++ leBytes 1 1 ++ leBytes 1 (h.rd d A.eth_rate p))
  else h

/-- A change of port rate loads the latencies for it (R461). -/
def Hw.setEthRate (h : Hw) (d p v : Nat) : Hw :=
  let lat (u : Nat) : Nat := Config.factoryLat d (2 * p + u) v ((h.die d).cals.getD 2 {}).values
  ((h.wr d A.eth_rate p v).wr d A.rx_lat_ps p (lat 0)).wr d A.tx_lat_ps p (lat 1)

/-- A scalar attribute set at once. -/
def Hw.setNow (h : Hw) (d : Nat) (o : ObjRef) (v : Nat) : Hw :=
  let k := okey d o
  match o.cls, o.attr with
  | 0x03, 0x0001 => if h.rdk k = v then h else h.setEncEnable d o.inst v
  | 0x03, 0x0005 => h.setScale d o.inst v
  | 0x03, 0x002A => if v = 1 then h.absRequest d o.inst else h
  | 0x04, 0x0001 => if h.rdk k = v then h else h.setPosSource d v
  | 0x04, id => (h.holdPosCfg d id (h.rdk k)).wrk k v
  | 0x0E, _ | 0x0F, _ => if h.rdk k = v then h else (h.wrk k v).add d A.cfg_gen o.inst
  | 0x14, 0x0004 => if h.rdk k = v then h else h.setTbSource o.inst v
  | 0x15, 0x0001 => if h.rdk k = v then h else h.setPtpEnable d o.inst v
  | 0x17, 0x0001 => h.setEthEnable d o.inst v
  | 0x17, 0x0002 => if h.rdk k = v then h else h.setEthRate d o.inst v
  | _, _ => h.wrk k v

/-- A change of a line-effective attribute at a named line (R575), or named for no line (R67). -/
def Hw.setLine (h : Hw) (d : Nat) (q : Hdr) (k : RegKey) (v : Nat) (line : Option LineRef) : Reply × Hw :=
  match line with
  | some l =>
    let st := h.ctxState d l.ctx
    if l.ctx = 0 ∨ 256 ≤ l.ctx ∨ 2 ^ 32 ≤ l.line then refuse .range h
    else if st = ctxCLOSED ∨ st = ctxDONE ∨ st = ctxFAILED then refuse .state h
    else
      let (id, h) := h.defer d q false { kind := 1, ctx := l.ctx, point := l.line }
      let (used, h) := h.addChange d id q.tag k v l.ctx l.line
      (.deferred { kind := 1, ctx := l.ctx, point := used }, h)
  | none =>
    match h.changeCtxs d k with
    | [] => (.ok, h.changeNow d q.tag k v)
    | c :: cs =>
      let (id, h) := h.defer d q false { kind := 1, ctx := c.num, point := 0 }
      let time (c : Ctx) (n : Nat) : Int :=
        (((changePorts k).find? fun p => c.ports.testBit p).bind fun p => h.tFire d c n p 0).getD (2 ^ 62)
      let r := (c :: cs).foldl (fun (acc : List (Ctx × Nat) × Hw) c =>
        let (used, h) := acc.2.addChange d id q.tag k v c.num 0
        (acc.1 ++ [(c, used)], h)) (([] : List (Ctx × Nat)), h)
      let b := r.1.foldl (fun (b : Ctx × Nat) y => if time b.1 b.2 < time y.1 y.2 then y else b) ((r.1.head?).getD (c, 0))
      let e : Effect := { kind := 1, ctx := b.1.num, point := b.2 }
      (.deferred e, r.2.movePoint id e)

/-- OBJ_SET's work (R11, R61, R67). -/
def objSetBody (q : Hdr) (o : ObjRef) (v : Nat) (line : Option LineRef) (d : Nat) (h : Hw) : Reply × Hw :=
  if !h.objKnown d o then refuse .badObject h
  else
    match h.attr? o with
    | none => refuse .badAttr h
    | some r =>
      if r.acc = .ro ∨ r.acc = .rc ∨ 64 < r.width ∨ (line.isSome ∧ !r.lineEff) then refuse .badAttr h
      else if 2 ^ r.width ≤ v ∨ !r.rng.has r.signed r.width v then refuse .range h
      else
        match h.setRefuse d o v with
        | some st => refuse st h
        | none =>
          if r.lineEff then h.setLine d q (okey d o) v line
          else if r.acc = .w1c then (.ok, h.wrk (okey d o) (h.rdk (okey d o) &&& (2 ^ r.width - 1 - v)))
          else (.ok, h.setNow d o v)

/-- OBJ_SET (R61, R66, R67, R575). -/
def execObjSet (h : Hdr) (obj : ObjRef) (value : Nat) (line : Option LineRef) (s : State) : Host.Outcome State Fault Refusal :=
  s.command h 0x0011 obj fun _ d hw => objSetBody h obj value line d hw

/-- OBJ_GET (R61, R577); a WO attribute reads 0 (R10). -/
def execObjGet (h : Hdr) (obj : ObjRef) (s : State) : Host.Outcome State Fault Refusal :=
  s.command h 0x0010 obj fun _ d hw =>
    if !hw.objKnown d obj then refuse .badObject hw
    else
      match hw.attr? obj with
      | none => refuse .badAttr hw
      | some r =>
        if 64 < r.width then refuse .badAttr hw
        else
          let (v, hw) := hw.getScalar d obj r
          (.words (words64 v ++ [r.width]), hw)

/-- OBJ_GET_BLOCK (R61): 1 to 240 bytes in force. -/
def execObjGetBlock (h : Hdr) (obj : ObjRef) (off len : Nat) (s : State) : Host.Outcome State Fault Refusal :=
  s.command h 0x0012 obj fun _ d hw =>
    if !hw.objKnown d obj then refuse .badObject hw
    else
      match hw.attr? obj with
      | none => refuse .badAttr hw
      | some r =>
        if r.width ≤ 64 then refuse .badAttr hw
        else if len = 0 ∨ 240 < len ∨ hw.blkSize d obj r < off + len then refuse .range hw
        else (⟨.ok, hw.getBlock d obj off len⟩, hw)

/-! ### Block attributes (R62, R63) -/

/-- A little-endian field of a staged copy. -/
def fieldOf (b : List Byte) (o n : Nat) : Nat := leNat ((b.drop o).take n)

/-- Every entry of `n` bytes of a table passes a test. -/
def entriesOk (b : List Byte) (n count : Nat) (ok : List Byte → Bool) : Bool :=
  (List.range count).all fun i => ok ((b.drop (n * i)).take n)

/-- The attribute's own checks of a commit (R225, R229, R324, R329, R364, R365, R370, R385, R438, R469 and the attribute
tables). -/
def Hw.blkCheck (h : Hw) (d : Nat) (o : ObjRef) (b : List Byte) : Option Status :=
  match o.cls, o.attr with
  | 0x07, 0x0052 =>
    failIf (h.rd d A.greyscale o.inst == 0 && !(b.all fun x => decide (x.toNat % 16 ≤ 3) && decide (x.toNat / 16 ≤ 3))) .range
  | 0x08, 0x0012 => failIf (fieldOf b 0 1 != 0) .range
  | 0x08, 0x0013 => failIf (!(entriesOk b 2 64 fun e => decide (0x2000 ≤ leNat e) && decide (leNat e ≤ 0x6000))) .range
  | 0x0D, 0x0013 =>
    let set (i : Nat) := (b.drop (160 * i)).take 160
    let old (i : Nat) := (List.range 160).map fun j => h.blkByte (okey d o) (160 * i + j)
    firstFail [
      failIf (!(entriesOk b 160 16 fun e => fieldOf e 0 2 != 0xFFFF && decide (fieldOf e 2 1 ≤ 32) && fieldOf e 3 1 == 0 &&
        fieldOf e 20 12 == 0)) .range,
      failIf ((h.cam d o.inst).applies.any fun a => set a.set != old a.set) .state]
  | 0x12, 0x0004 => failIf ((List.range 16).any fun i => decide (16 < bits (leNat b) (5 * i + 4) (5 * i))) .range
  | 0x12, 0x0011 => failIf (!(entriesOk b 8 256 fun e => leNat e % 2 ^ 28 == 0)) .range
  | 0x13, 0x000A =>
    failIf (!(entriesOk b 2 16 fun e => leNat e == 0 || (decide (380 ≤ leNat e) && decide (leNat e ≤ 1100)))) .range
  | 0x13, 0x000B => failIf (!(entriesOk b 32 16 fun e => fieldOf e 24 8 == 0)) .range
  | 0x13, 0x000C =>
    failIf (!(entriesOk b 16 1024 fun e => decide (fieldOf e 0 1 ≤ 15) && (decide (fieldOf e 1 1 ≤ 7) || fieldOf e 1 1 == 0xFF) &&
      decide (fieldOf e 2 2 < 1024) && fieldOf e 8 8 == 0)) .range
  | 0x13, 0x000E =>
    failIf (!(entriesOk b 16 512 fun e => decide (fieldOf e 0 1 ≤ 15) && decide (fieldOf e 1 1 ≤ 7) && decide (fieldOf e 2 1 ≤ 7) &&
      decide (fieldOf e 3 1 < 64) && fieldOf e 12 4 == 0)) .range
  | 0x13, 0x0012 => failIf (!(entriesOk b 2 16 fun e => leNat e != 0)) .range
  | 0x13, 0x0013 => failIf (!(entriesOk b 2 192 fun e => leNat e != 0)) .range
  | 0x1A, 0x000E =>
    failIf (!(entriesOk b 32 16 fun e => decide (fieldOf e 18 1 < h.n) && decide (fieldOf e 19 1 ≤ 1) && decide (fieldOf e 20 1 ≤ 1) &&
      fieldOf e 21 11 == 0)) .range
  | 0x1D, 0x0021 =>
    failIf (!(entriesOk b 32 16 fun e => entriesOk e 2 13 (fun r => decide (leNat r < 1024)) && fieldOf e 26 6 == 0)) .range
  | _, _ => none

/-- CAL_STALE (R463): a calibration that was valid becomes stale; cause 0 temperature, 1 period, 2 tile data. -/
def Hw.calStale (h : Hw) (d i cause : Nat) : Hw :=
  if h.rd d A.cal_state i ≠ 1 then h
  else
    (h.wr d A.cal_state i 2).event d Ev.calStale (leBytes 1 i ++ leBytes 1 cause ++ leBytes 2 (h.rd d A.tj_mean 0))

/-- Tile data committed (R370): the camera-chain calibration is stale and every bar in RUN holds. -/
def Hw.tilesChanged (h : Hw) : Hw :=
  let h := h.calStale h.leadDie 4 2
  (List.range h.n).foldl (fun (h : Hw) b =>
    if h.rd 0 A.bar_state (b + 1) = 2 then (h.chTo b 3 4).onBar b fun B => { B with tile := true } else h) h

/-- The copies of a die's committed `dither_tile` and `base_table` in NV (R574): stored as soon as NV writing is allowed. -/
def Hw.nvKeep (h : Hw) (d : Nat) (k : RegKey) (b : List Byte) : Hw :=
  if h.nvOk then h.onDie d fun D => { D with nvTables := regPut D.nvTables k b }
  else h.onDie d fun D => { D with nvWait := k :: D.nvWait.erase k }

/-- Tunnel peers whose entry has changed are new links (R424). -/
def Hw.tunChanged (h : Hw) (old new : List Byte) : Hw :=
  (List.range 16).foldl (fun (h : Hw) i =>
    if (old.drop (32 * i)).take 32 = (new.drop (32 * i)).take 32 then h
    else
      let h := if (h.link (8 + i)).up then h.tunPeer (8 + i) false else h
      h.onLink (8 + i) fun _ => {}) h

/-- A block attribute committed. -/
def Hw.setBlock (h : Hw) (d : Nat) (o : ObjRef) (b : List Byte) : Hw :=
  let k := okey d o
  let old := h.blk k
  let h := h.setBlk k b
  match o.cls, o.attr with
  | 0x08, 0x0010 | 0x08, 0x0015 => h.nvKeep d k b
  | 0x0E, _ | 0x0F, _ => h.add d A.cfg_gen o.inst
  | 0x13, 0x0012 | 0x13, 0x0013 => h.tilesChanged
  | 0x1A, 0x000E => h.tunChanged (blkSplice k old 0 [] ++ List.replicate 512 0) (b ++ List.replicate 512 0)
  | _, _ => h

/-- OBJ_SET_BLOCK's work (R61 to R63). -/
def objSetBlockBody (q : Hdr) (o : ObjRef) (commit : Bool) (line : Option LineRef) (off : Nat) (data : List Byte) (d : Nat)
    (h : Hw) : Reply × Hw :=
  if !h.objKnown d o then refuse .badObject h
  else
    match h.attr? o with
    | none => refuse .badAttr h
    | some r =>
      let k := okey d o
      let src := srcOf q.origin
      if r.acc ≠ .rw ∨ r.width ≤ 64 ∨ line.isSome then refuse .badAttr h
      else if 216 < data.length ∨ r.width / 8 < off + data.length then refuse .range h
      else
        match h.setRefuse d o 0 with
        | some st => refuse st h
        | none =>
          let mine := h.stages.find? fun s => s.key = k
          if (mine.any fun s => decide (s.owner ≠ src)) then refuse .state h
          else
            let base := match mine with
              | some s => s.bytes
              | none => blkSplice k (h.blk k) 0 []
            let b := blkSplice k base off data
            let h := { h with stages := h.stages.filter fun s => s.key ≠ k }
            if commit then
              match h.blkCheck d o (blkSplice k b (r.width / 8) []) with
              | some st => refuse st h
              | none => (.ok, h.setBlock d o b)
            else (.ok, { h with stages := { key := k, owner := src, bytes := b } :: h.stages })

/-- OBJ_SET_BLOCK (R62, R63). -/
def execObjSetBlock (h : Hdr) (obj : ObjRef) (commit : Bool) (line : Option LineRef) (off : Nat) (data : List Byte) (s : State) :
    Host.Outcome State Fault Refusal :=
  s.command h 0x0013 obj fun _ d hw => objSetBlockBody h obj commit line off data d hw

/-- STAGE_DISCARD (R63): a staging copy that received no write for `stage_idle` is discarded. -/
def execStageDiscard (die : Nat) (obj : ObjRef) (s : State) : Host.Outcome State Fault Refusal :=
  s.onDie die fun _ h =>
    match h.stages.find? fun x => x.key = okey die obj with
    | none => h
    | some x =>
      ({ h with stages := h.stages.filter fun y => y.key ≠ okey die obj }).event die Ev.stageDiscard
        (leBytes 1 obj.cls ++ leBytes 2 obj.inst ++ leBytes 2 obj.attr ++ leBytes 2 (h.srcIndex x.owner))

end Sys2Proof.Machine
end

