-- ==== Sys2Proof/Machine/ColourHold.lean ====
section
/-!
DEFINITION. Colour hold's evaluation and corrections (spec/12_colour_hold.md R367 to R387), the test page's measurement (R529)
and the colour-hold commands.
-/
namespace Sys2Proof.Machine

/-! ### Commands of Rildin's own loops (R79) -/

/-- A command that Rildin issues on die `d`: the checks, the work and the record of any source's. -/
def Hw.rildin (h : Hw) (d op : Nat) (o : ObjRef) (body : Hdr → Hw → Reply × Hw) : Reply × Hw :=
  let q : Hdr := ⟨d, .rildin d, h.nextId % 65536⟩
  match h.turnedAway d .rildin op o with
  | some st => (.err st, if opCfg op ∧ st ≠ .busy ∧ st ≠ .badOpcode then h.configChange d op o st .rildin else h)
  | none =>
    let r := body q h
    (r.1, if opCfg op ∧ r.1.status ≠ .busy then r.2.configChange d op o r.1.status .rildin else r.2)

/-- The line of a DEFERRED reply's effect record. -/
def effectLine (r : Reply) : Nat := wordAt r.data 1

/-- A commit of a block attribute by Rildin. -/
def Hw.rildinCommit (h : Hw) (d : Nat) (a : AttrId) (bs : List Byte) : Hw :=
  (h.rildin d 0x0013 ⟨a.cls, 0, a.id⟩ fun q h => objSetBlockBody q ⟨a.cls, 0, a.id⟩ true none 0 bs d h).2

/-- An OBJ_SET by Rildin. -/
def Hw.rildinSet (h : Hw) (d : Nat) (a : AttrId) (i v : Nat) (line : Option LineRef) : Reply × Hw :=
  h.rildin d 0x0011 ⟨a.cls, i, a.id⟩ fun q h => objSetBody q ⟨a.cls, i, a.id⟩ v line d h

/-! ### Spectra and references (R371, R372, R383) -/

/-- Patch entries in use. -/
def Hw.patches (h : Hw) : List Nat := List.range (h.rd 0 A.patch_count 0)

/-- Every patch of a bar has its reference; a bar in ACQUIRE that has them enters RUN (R372, R382), and holds at once while tile
data is stale (R370). -/
def Hw.chAcquired (h : Hw) (b q : Nat) : Hw :=
  let all := (h.patches.filter fun i => h.patchBar i == b).all fun i => (h.chBar b).captured.contains i
  if h.rd 0 A.bar_state (b + 1) ≠ 1 then h
  else if h.rd 0 A.ref_mode 0 = 1 then h.chTo b 2 2
  else if !all then h
  else
    let h := (h.eventPkg h.leadDie Ev.chRefCaptured (leBytes 1 b ++ leBytes 4 q)).chTo b 2 2
    if (h.chBar b).tile then h.chTo b 3 4 else h

/-- The largest of the newest ΔE00 values, over all patches or those of a bar (R383). -/
def Hw.showDe (h : Hw) : Hw :=
  let top (l : List (Nat × Nat)) : Nat := satNat 0xFFFF (l.foldl (fun m x => max m x.2) 0)
  let h := h.wr 0 A.de_max 0 (top h.pkg.ch.des)
  (List.range h.n).foldl (fun (h : Hw) b =>
    h.wr 0 A.bar_de_max (b + 1) (top (h.pkg.ch.des.filter fun x => h.patchBar x.1 == b))) h

/-- The complete spectrum of a patch: its reference while the bar acquires, its ΔE00 otherwise (R371, R372, R383). -/
def Hw.patchSpectrum (h : Hw) (i : Nat) : Hw :=
  match h.spectrum i with
  | none => h
  | some sp =>
    let b := h.patchBar i
    let acquiring := b < 8 ∧ h.rd 0 A.bar_state (b + 1) = 1 ∧ h.rd 0 A.ref_mode 0 = 0 ∧ !(h.chBar b).captured.contains i
    let putDe (h : Hw) (de : Nat) : Hw := h.onCh fun C => { C with des := (i, de) :: C.des.filter fun x => x.1 ≠ i }
    if acquiring then
      let rho (r : Nat) : Nat := ((h.pkg.ch.samples.find? fun x => x.1 = (i, r)).map fun x => x.2.2).getD 0
      let h := h.bands.foldl (fun (h : Hw) r => h.wrBlk 0 A.ref_spectra 0 (32 * i + 2 * r) 2 (rho r)) h
      (putDe h 0).onBar b fun B => { B with captured := i :: B.captured }
    else if b < 8 ∧ h.rd 0 A.bar_state (b + 1) ≤ 1 then h
    else
      let de := deltaE sp (h.refSpectrum i)
      let h := putDe h de
      if h.rd 0 A.de_alarm 0 < de then h.eventPkg h.leadDie Ev.chDeAlarm (leBytes 2 i ++ leBytes 2 de) else h

/-- Dark samples of a usable frame (R367, R369). -/
def Hw.darkFrame (h : Hw) (recs : List (List Nat)) (f : List Nat) : Hw :=
  let cam := recCam f
  let isp := h.rd (cam / 2) A.isp_die (cam % 2)
  let n := h.rd isp A.roi_count (h.rd (cam / 2) A.stream (cam % 2))
  (List.range n).foldl (fun (h : Hw) i =>
    match h.roiMean recs f i with
    | none => h
    | some m => h.onCh fun C => { C with darks := ((cam, i), (recTime f, m)) :: C.darks.filter fun x => x.1 ≠ (cam, i) }) h

/-- The reflectance of patch `i` on the usable frames in band `r` (R369). -/
def Hw.patchRho (h : Hw) (recs frames : List (List Nat)) (i r : Nat) : Option Nat :=
  (frames.find? fun f => recCam f == h.patchCam i).bind fun f =>
    (h.roiMean recs f (h.patchRoi i)).map fun m => h.reflectance (h.patchCam i) (h.patchRoi i) r (recTime f) m

/-- The samples of a page (R369, R371). -/
def Hw.patchSamples (h : Hw) (q r : Nat) (recs frames : List (List Nat)) : Hw :=
  h.patches.foldl (fun (h : Hw) i =>
    if h.patchBar i < 8 ∧ !h.barUsable q (h.patchBar i) then h
    else
      match h.patchRho recs frames i r with
      | none => h
      | some rho =>
        (h.onCh fun C => { C with samples := ((i, r), (h.pageStart q, rho)) :: C.samples.filter fun x => x.1 ≠ (i, r) }).patchSpectrum i) h

/-! ### Tone (R373 to R375) -/

/-- The tone error of a patch in units of 2^-32 (R373). -/
def toneError (rho ref : Nat) : Int :=
  let a := absorbance ref
  if rho = 0 ∨ ref = 0 ∨ a = 0 then Config.toneOpen rho ref
  else nearest ((absorbance rho - a) * 2 ^ 32 * (if a < 0 then -1 else 1)) a.natAbs

/-- The measured zones of a bar with their mean errors (R373). -/
def Hw.zoneErrors (h : Hw) (b r : Nat) (recs frames : List (List Nat)) : List (Nat × Int) :=
  let es := (h.patches.filter fun i => h.patchBar i == b).filterMap fun i =>
    match h.patchRho recs frames i r, h.patchZone i with
    | some rho, some z => some (z, toneError rho (h.blkNum 0 A.ref_spectra 0 (32 * i + 2 * r) 2))
    | _, _ => none
  (List.range 64).filterMap fun z =>
    match (es.filter fun x => x.1 == z).map (·.2) with
    | [] => none
    | l => some (z, nearest l.sum l.length)

/-- `tone_err` of the measured zones in units of 0.01 %. -/
def Hw.showTone (h : Hw) (b : Nat) (es : List (Nat × Int)) : Hw :=
  es.foldl (fun (h : Hw) x =>
    h.wrBlk 0 A.tone_err (b + 1) (2 * x.1) 2 (ofSigned 16 (clampInt (-32768) 32767 (nearest (x.2 * 10000) (2 ^ 32))))) h

/-- The largest row-group delay of a bar (R373). -/
def Hw.barDelay (h : Hw) (b : Nat) : Nat := (h.barPorts b).foldl (fun m p => max m (h.dMax b p)) 0

/-- The line at which a correction decided now takes effect (R375). -/
def Hw.corrLine (h : Hw) (b : Nat) : Nat :=
  ((h.ctx? b h.chCtx).map fun c => (portsOf c.ports).foldl (fun m p => max m (c.slotAt p)) 0).getD 0 + h.rd 0 A.lead_lines 0

/-- A gain moved from `g` towards `x`, limited in its step and its range (R374). -/
def Hw.limitGain (h : Hw) (b g : Nat) (x : Int) : Nat :=
  let st : Int := h.rd 0 A.gain_step_max (b + 1)
  (clampInt 0x2000 0x6000 (clampInt ((g : Int) - st) (g + st) x)).toNat

/-- The zone gains of an update (R374). -/
def Hw.newGains (h : Hw) (b : Nat) (es : List (Nat × Int)) : List Nat :=
  let g (z : Nat) : Nat := h.blkNum b A.zone_gain 0 (2 * z) 2
  let k : Int := h.rd 0 A.gain_k (b + 1)
  let new (z : Nat) (e : Int) : Nat := h.limitGain b (g z) (nearest (g z * (2 ^ 47 - k * e)) (2 ^ 47))
  let rel := (es.map fun x => (new x.1 x.2 * 2 ^ 32 / max 1 (g x.1) : Nat)).sum / max 1 es.length
  (List.range 64).map fun z =>
    match es.find? fun x => x.1 == z with
    | some x => new z x.2
    | none => if h.rd 0 A.zone_follow (b + 1) = 1 then h.limitGain b (g z) (nearest (g z * rel) (2 ^ 32)) else g z

/-- The bytes of a bar's health map with its pending marks. -/
def Hw.healthBytes (h : Hw) (b : Nat) : List Byte :=
  (h.chBar b).marks.foldl (fun bs x =>
    let i := x.1 / 4
    bs.set i (BitVec.ofNat 8 ((bs.getD i 0).toNat - (bs.getD i 0).toNat / 4 ^ (x.1 % 4) % 4 * 4 ^ (x.1 % 4) + x.2 * 4 ^ (x.1 % 4))))
    ((List.range 24576).map fun i => h.blkByte (rkey b A.health_map 0) i)

/-- CH_UPDATE_SKIP: cause 0 a staging copy owned, 1 no bank FREE, 2 build or swap refused. -/
def Hw.chSkip (h : Hw) (b cause : Nat) : Hw := h.eventPkg h.leadDie Ev.chUpdateSkip (leBytes 1 b ++ leBytes 1 cause)

/-- The health map committed in writes of 216 bytes, the last with COMMIT (R63, R381). -/
def Hw.commitHealth (h : Hw) (b : Nat) (bs : List Byte) : Hw :=
  let o : ObjRef := ⟨0x08, 0, 0x0014⟩
  (List.range 114).foldl (fun (h : Hw) i =>
    (h.rildin b 0x0013 o fun q h => objSetBlockBody q o (i == 113) none (216 * i) ((bs.drop (216 * i)).take 216) b h).2) h

/-- Gains and health marks committed, built and swapped in (R375, R381); the line of the swap, unless the update is skipped. -/
def Hw.chUpdate (h : Hw) (b : Nat) (gains : Option (List Nat)) : Option Nat × Hw :=
  let owned := h.stages.any fun s => (s.key == rkey b A.zone_gain 0 || s.key == rkey b A.health_map 0) && s.owner != .rildin
  if owned then (none, h.chSkip b 0)
  else
    match (List.range 2).find? fun k => h.rd b A.bank_state k == 0 with
    | none => (none, h.chSkip b 1)
    | some k =>
      let line := h.corrLine b
      let h := match gains with
        | some g => h.rildinCommit b A.zone_gain (g.flatMap (leBytes 2))
        | none => h
      let h := if (h.chBar b).marks = [] then h else h.commitHealth b (h.healthBytes b)
      let (r, h) := h.rildin b 0x0501 (opObj 0x0501 k) fun q h => tbBuildBody q k b h
      if r.status ≠ .deferred then (none, h.chSkip b 2)
      else
        let (r, h) := h.rildin b 0x0502 (opObj 0x0502 k) fun q h => tbSwapBody q h.chCtx k line b h
        if r.status ≠ .deferred then (none, h.chSkip b 2)
        else (some (effectLine r), (h.wr 0 A.last_gain_line (b + 1) (effectLine r)).onBar b fun B => { B with marks := [] })

/-- The pitch of pages in nm. -/
def Hw.pageNm (h : Hw) : Nat := h.pageLen * h.rd h.chDie A.line_pitch 0 / 2 ^ 32

/-- The dead-time guard: page `q` lies at or after `line` + *d*_max (R373). -/
def Hw.guardPast (h : Hw) (b q line : Nat) : Bool := decide (line + h.barDelay b ≤ q * h.pageLen)

/-- A zone whose new gain stands at a limit. -/
def gainAtLimit (g : Nat) : Bool := g == 0x2000 || g == 0x6000

/-- The tone evaluation of a page lit by the bar's band and the update it calls for (R373 to R375); health changes go out by
themselves when no gain update is due (R381). -/
def Hw.barTone (h : Hw) (q b : Nat) (recs frames : List (List Nat)) : Hw :=
  let es := h.zoneErrors b (h.bandOf q) recs frames
  let h := h.showTone b es
  let apart := match (h.chBar b).lastUpd with
    | some u => decide (10 ^ 9 * h.rd 0 A.update_min_m (b + 1) ≤ (q - u) * h.pageNm)
    | none => true
  let out := es.any fun x => decide (h.rd 0 A.tone_deadband_ppm (b + 1) * 2 ^ 32 < x.2.natAbs * 10 ^ 6)
  let due := out && apart && h.guardPast b q (h.rd 0 A.last_gain_line (b + 1))
  if h.rd 0 A.bar_state (b + 1) ≠ 2 then h
  else if due then
    let g := h.newGains b es
    match h.chUpdate b (some g) with
    | (none, h) => h
    | (some line, h) =>
      let top := es.foldl (fun (m : Nat × Int) x => if m.2.natAbs < x.2.natAbs then x else m) ((es.head?).getD (0, 0))
      let lim := (List.range 64).filter fun z => gainAtLimit (g.getD z 0)
      let h := lim.foldl (fun (h : Hw) z =>
        h.eventPkg h.leadDie Ev.chGainLimit (leBytes 1 b ++ leBytes 1 z ++ leBytes 2 (g.getD z 0))) h
      let h := (h.add 0 A.gain_updates (b + 1)).onBar b fun B => { B with lastUpd := some q, limits := lim.length }
      h.eventPkg h.leadDie Ev.chGainUpdate (leBytes 1 b ++ leBytes 4 q ++ leBytes 4 line ++
        leBytes 2 (ofSigned 16 (clampInt (-32768) 32767 (nearest (top.2 * 10000) (2 ^ 32)))) ++ leBytes 1 top.1)
  else if (h.chBar b).marks = [] then h
  else (h.chUpdate b none).2

/-! ### Registration (R376 to R378, R384) -/

/-- The registration group of a port. -/
def Hw.regGroup (h : Hw) (b p : Nat) : Nat := bits (h.blkNum 0 A.reg_group (b + 1) 0 9) (3 * p + 2) (3 * p)

/-- The value that the next correction of an attribute starts from: that of the latest pending effect line (R384). -/
def Hw.pendingVal (h : Hw) (b : Nat) (a : AttrId) (i : Nat) : Nat :=
  let k := rkey b a i
  match (h.die b).changes.filter fun x => x.key = k ∧ x.ctx = h.chCtx ∧ !x.taken with
  | [] => h.lineNow b k
  | x :: xs => (xs.foldl (fun m y => if m.line ≤ y.line then y else m) x).val

/-- Changes of an attribute on the ports of a group, each to the value `f` gives; the largest line used, if any was taken. -/
def Hw.groupSet (h : Hw) (b g line : Nat) (a : AttrId) (f : Hw → Nat → Nat) : Option Nat × Hw :=
  ((h.barPorts b).filter fun p => h.regGroup b p == g).foldl (fun (acc : Option Nat × Hw) p =>
    let (r, h) := acc.2.rildinSet b a (p + 1) (f acc.2 p) (some ⟨acc.2.chCtx, line⟩)
    if r.status = .deferred then (some (max (acc.1.getD 0) (effectLine r)), h) else (acc.1, h)) ((none : Option Nat), h)

/-- The along-web step of a group in nm (R377). -/
def Hw.regStep (h : Hw) (b : Nat) (ey : Int) : Int :=
  let m : Int := h.rd 0 A.reg_step_max_nm (b + 1)
  clampInt (-m) m (nearest (-(h.rd 0 A.reg_k (b + 1) : Int) * ey * h.sNow b) (2 ^ 45))

/-- The cross-web step of a group in nozzles (R377). -/
def Hw.xregStep (h : Hw) (b : Nat) (ex : Int) : Int :=
  let pitch := h.rdS 0 A.xpitch (b + 1) 64
  if pitch = 0 then 0 else -(nearest (ex * 2 ^ 32 * (if pitch < 0 then -1 else 1)) pitch.natAbs)

/-- One group's corrections (R377). -/
def Hw.regGroupStep (h : Hw) (q b g : Nat) (e : Int × Int) : Hw :=
  let line := h.corrLine b
  let dy : Int := if (h.rd 0 A.reg_deadband_nm (b + 1) : Int) < e.1.natAbs ∧ h.guardPast b q (h.rd 0 A.last_reg_line (b + 1)) then
    h.regStep b e.1 else 0
  let pitch := h.rdS 0 A.xpitch (b + 1) 64
  let dx : Int := if h.rd 0 A.xreg_deadband (b + 1) * pitch.natAbs ≤ e.2.natAbs * 2 ^ 32 * 256 then h.xregStep b e.2 else 0
  let m : Int := h.rd b A.xweb_margin 0
  let (ly, h) := if dy = 0 then ((none : Option Nat), h) else
    h.groupSet b g line A.port_offset_nm fun (h : Hw) p => ofSigned 32 (toSigned 32 (h.pendingVal b A.port_offset_nm (p + 1)) + dy)
  let shift (h : Hw) (p : Nat) : Int := toSigned 8 (h.pendingVal b A.xweb_shift (p + 1)) + dx
  let beyond := ((h.barPorts b).filter fun p => h.regGroup b p == g).find? fun p => decide (m < (shift h p).natAbs)
  let h := match beyond with
    | some p => if dx = 0 then h else
        h.eventPkg h.leadDie Ev.chXregLimit (leBytes 1 b ++ leBytes 1 g ++ leBytes 1 (ofSigned 8 (clampInt (-m) m (shift h p))))
    | none => h
  let (lx, h) := if dx = 0 then ((none : Option Nat), h) else
    h.groupSet b g line A.xweb_shift fun h p => ofSigned 8 (clampInt (-m) m (shift h p))
  let h := if ly.isSome ∧ g = 0 ∧ b ≠ h.rd 0 A.reg_ref_bar 0 then
    h.onBar b fun B => { B with trim := (h.pageStart q, dy) :: B.trim } else h
  match ly, lx with
  | none, none => h
  | y, x =>
    let l := max (y.getD 0) (x.getD 0)
    ((h.wr 0 A.last_reg_line (b + 1) l).add 0 A.reg_updates (b + 1)).eventPkg h.leadDie Ev.chRegUpdate
      (leBytes 1 b ++ leBytes 1 g ++ leInt 4 e.1 ++ leInt 4 e.2 ++ leBytes 4 l)

/-- The stretch trim (R378). -/
def Hw.regTrim (h : Hw) (q b : Nat) : Hw :=
  let win := h.rd 0 A.trim_window_m (b + 1)
  let near := (h.chBar b).trim.filter fun x => decide (h.pageStart q - 10 ^ 9 * win ≤ x.1)
  let sum := (near.map (·.2)).sum
  let h := h.onBar b fun B => { B with trim := near }
  if sum.natAbs ≤ h.rd 0 A.trim_thresh_ppm (b + 1) * win * 1000 then h
  else
    let t := h.rdS b A.stretch_trim 0 32 + nearest (h.rd 0 A.trim_k (b + 1) * sum * 2 ^ 15) (10 ^ 9 * win)
    let (r, h) := h.rildinSet b A.stretch_trim 0 (ofSigned 32 t) none
    if r.status.good then
      (h.onBar b fun B => { B with trim := [] }).eventPkg h.leadDie Ev.chTrim
        (leBytes 1 b ++ leInt 4 (nearest (sum * 2 ^ 30) (10 ^ 9 * win)) ++ leInt 4 t)
    else h

/-- The registration of a bar on a page's usable frames (R376 to R378). -/
def Hw.barReg (h : Hw) (q b : Nat) (recs frames : List (List Nat)) : Hw :=
  let ref := h.rd 0 A.reg_ref_bar 0
  match meanError (h.groupErrors q recs frames ref 0) with
  | none => h
  | some r0 =>
    if !h.barUsable q ref then h
    else
      let h := (List.range 8).foldl (fun (h : Hw) g =>
        match meanError (h.groupErrors q recs frames b g) with
        | none => h
        | some m =>
          let e := (m.1 - r0.1, m.2 - r0.2)
          let h := (h.wrBlk 0 A.reg_err (b + 1) (8 * g) 4 (ofSigned 32 e.1)).wrBlk 0 A.reg_err (b + 1) (8 * g + 4) 4 (ofSigned 32 e.2)
          if h.rd 0 A.bar_state (b + 1) = 2 then h.regGroupStep q b g e else h) h
      if h.rd 0 A.bar_state (b + 1) = 2 ∧ b ≠ ref then h.regTrim q b else h

/-! ### Nozzle health (R379 to R381) -/

/-- The health state of a nozzle with the marks that are still to be committed. -/
def Hw.healthNow (h : Hw) (b j : Nat) : Nat :=
  (((h.chBar b).marks.filter fun x => x.1 = j).getLast?.map (·.2)).getD (h.healthOf b j)

/-- Nozzles of a bar's port that are DEAD. -/
def Hw.deadOn (h : Hw) (b p : Nat) : Nat :=
  ((List.range (h.rd b A.nozzles p)).filter fun j => h.healthNow b (4096 * p + j) == 1).length

/-- The stitch partner of a nozzle: one of another port of the bar within half a pitch of its XPOS (R380). -/
def Hw.partner (h : Hw) (b j : Nat) : Option Nat :=
  let pitch := (h.rdS 0 A.xpitch (b + 1) 64).natAbs
  let x := h.nozzleX b (j / 4096) (j % 4096)
  let near (p : Nat) : Nat :=
    if pitch = 0 then 0 else
      let s : Int := if h.rdS 0 A.xpitch (b + 1) 64 < 0 then -1 else 1
      (clampInt 0 ((h.rd b A.nozzles p : Int) - 1) (nearest ((x - h.nozzleX b p 0) * s) pitch)).toNat
  (((h.barPorts b).filter (· ≠ j / 4096)).find? fun p => decide (2 * (h.nozzleX b p (near p) - x).natAbs ≤ pitch)).map
    fun p => 4096 * p + near p

/-- CH_HEALTH_ALARM, once, for a port that holds `dead_max` DEAD nozzles (R381). -/
def Hw.deadAlarm (h : Hw) (b p : Nat) : Hw :=
  if h.deadOn b p < h.rd 0 A.dead_max (b + 1) ∨ (h.chBar b).alarms.contains p then h
  else (h.onBar b fun B => { B with alarms := p :: B.alarms }).eventPkg h.leadDie Ev.chHealthAlarm (leBytes 1 b ++ leBytes 1 p)

/-- A nozzle missing often enough becomes DEAD, its partner SOLO, unless the port holds `dead_max` DEAD nozzles (R380, R381). -/
def Hw.markDead (h : Hw) (b j : Nat) : Hw :=
  let p := j / 4096
  if h.rd 0 A.dead_max (b + 1) ≤ h.deadOn b p then h.deadAlarm b p
  else
    let mate := h.partner b j
    let solo := match mate with
      | some m => if h.healthNow b m = 0 then [(m, 3)] else []
      | none => []
    let h := h.onBar b fun B => { B with marks := B.marks ++ (j, 1) :: solo }
    ((h.add 0 A.nozzles_dead (b + 1)).eventPkg h.leadDie Ev.chNozzleDead
      (leBytes 1 b ++ leBytes 4 j ++ leBytes 4 (mate.getD 0xFFFFFFFF))).deadAlarm b p

/-- One judgement of a nozzle (R380). -/
def Hw.judge (h : Hw) (recs frames : List (List Nat)) (b j : Nat) : Hw :=
  if !([0, 3] : List Nat).contains (h.healthNow b j) then h
  else
    match h.judgeNozzle recs frames b j with
    | none => h
    | some false => h.onBar b fun B => { B with misses := B.misses.filter fun x => x.1 ≠ j }
    | some true =>
      let n := (((h.chBar b).misses.find? fun x => x.1 = j).map (·.2)).getD 0 + 1
      let rest (n : Nat) := fun (B : ChBar) =>
        { B with misses := (if n = 0 then [] else [(j, n)]) ++ B.misses.filter fun x => x.1 ≠ j }
      if n < h.rd 0 A.hb_confirm (b + 1) then h.onBar b (rest n) else (h.onBar b (rest 0)).markDead b j

/-- Nozzles of a bar judged on a page whose ladder is `m`. -/
def Hw.ladder (h : Hw) (b m : Nat) : List Nat :=
  (h.barPorts b).flatMap fun p => ((List.range (h.rd b A.nozzles p)).filter fun j => j % 16 == m).map (4096 * p + ·)

/-- The health band of a page (R379, R380). -/
def Hw.bandHealth (h : Hw) (q : Nat) (recs frames : List (List Nat)) : Hw :=
  match h.bandBar q with
  | none => h
  | some b =>
    if h.rd 0 A.hb_lines 0 = 0 ∨ h.rd 0 A.bar_state (b + 1) ≠ 2 ∨ !h.barUsable q b then h
    else (h.ladder b (q / max 1 (h.rd h.mxDie A.mx_seq_len 0) % 16)).foldl (fun (h : Hw) j => h.judge recs frames b j) h

/-! ### Guards (R382) -/

/-- A bar in HOLD for which no cause of HOLD stands any longer runs again. -/
def Hw.chRelease (h : Hw) (b cause : Nat) : Hw :=
  let B := h.chBar b
  if h.rd 0 A.bar_state (b + 1) = 3 ∧ !B.frozen ∧ !B.tile ∧ !B.stale then h.chTo b 2 cause else h

/-- A page lit by a bar's band has passed: usable, it ends staleness; without one for `stale_m` of image the bar holds. -/
def Hw.barFresh (h : Hw) (q b : Nat) (usable : Bool) : Hw :=
  let pos := h.pageStart q
  if usable then (h.onBar b fun B => { B with lastUse := pos, stale := false }).chRelease b 5
  else if h.rd 0 A.bar_state (b + 1) = 2 ∧ (h.chBar b).lastUse + 10 ^ 9 * h.rd 0 A.stale_m 0 ≤ pos then
    (h.onBar b fun B => { B with stale := true }).chTo b 3 3
  else h

/-! ### The test page's measurement (R529) -/

/-- The XPOS nominal of the registration square of bar `b` that camera `k` sees, in nm. -/
def Hw.ghMarkX (h : Hw) (k b : Nat) : Option Int :=
  let w := h.rd (k / 2) A.width (k % 2)
  let far (s : Int × Int) : Nat := (h.columnOf k s.1 + h.columnOf k s.2 - 256 * (w : Int)).natAbs
  match h.ghSpans b false with
  | [] => none
  | s :: ss =>
    let t := ss.foldl (fun a y => if far y < far a then y else a) s
    some (nearest (t.1 + t.2) (2 ^ 33))

/-- The errors of bar `b`'s squares on the usable frames. -/
def Hw.ghErrors (h : Hw) (q : Nat) (recs frames : List (List Nat)) (b : Nat) : List (Int × Int) :=
  let y : Int := (1343 * h.rd h.chDie A.line_pitch 0 / 2 ^ 33 : Nat)
  frames.filterMap fun f =>
    match h.ghMarkX (recCam f) b, ((partsOf recs f kMark).flatMap fun w => w.drop 6)[b]? with
    | some x, some w => if w % 65536 = 0 then none else some (h.markError q f w y x)
    | _, _ => none

/-- The mean absorbance × 1,000 of row `i` of bar `b`'s colour strip; 0xFFFF without a valid camera-chain calibration. -/
def Hw.ghAbsorb (h : Hw) (r : Nat) (recs frames : List (List Nat)) (b i : Nat) : Option Nat :=
  if h.rd h.leadDie A.cal_state 4 ≠ 1 then some 0xFFFF
  else
    match frames.filterMap fun f =>
        (h.roiMean recs f (3 * b + i)).map fun m => absorbance (h.reflectance (recCam f) (3 * b + i) r (recTime f) m) with
    | [] => none
    | l => some (clampInt 0 0xFFFF (nearest (1000 * l.sum) (2 ^ 48 * l.length))).toNat

/-- Gatehouse's measurement of a test page (R529, R530). -/
def Hw.ghMeasure (h : Hw) (q : Nat) (recs frames : List (List Nat)) : Hw :=
  let r := h.bandOf q
  let e (b : Nat) := meanError (h.ghErrors q recs frames b)
  let g := h.gh
  let reg (b : Nat) : Option (Int × Int) :=
    match if h.barUsable q b then e b else none, if h.barUsable q 0 then e 0 else none with
    | some x, some z => some (x.1 - z.1, x.2 - z.2)
    | _, _ => none
  let bar := h.bandBar q
  let missing (b : Nat) : Nat := ((h.ladder b (q % 16)).filter fun j =>
    [0, 3].contains (h.healthOf b j) && (h.judgeNozzle recs frames b j).getD false).length
  let new := (List.range 8).map fun b => if b < h.n then (reg b).getD (g.ey.getD b 0, g.ex.getD b 0) else ((0, 0) : Int × Int)
  let gone := (List.range 8).map fun b => g.missing.getD b 0 + (if bar = some b ∧ h.barUsable q b then missing b else 0)
  let dark := (List.range 24).map fun i =>
    if bar = some (i / 3) ∧ h.barUsable q (i / 3) then (h.ghAbsorb r recs frames (i / 3) (i % 3)).getD (g.abs.getD i 0) else g.abs.getD i 0
  let ys := new.map fun x => x.1
  let xs := new.map fun x => x.2
  { h with gh := { g with measured := g.measured + 1, ey := ys, ex := xs, missing := gone, abs := dark } }

/-! ### The evaluation of a page -/

/-- A record of a camera on the illuminator's die shows a band other than *r*(*q*): every frame from that page on is unused
until the sequence is taken up again (R367). -/
def Hw.bandCheck (h : Hw) (p : ChPage) (frames : List (List Nat)) : Bool × Hw :=
  match frames.find? fun f => recCam f / 2 == h.mxDie && recBand f != h.bandSeen p.q with
  | none => (p.ok, h)
  | some f =>
    if !p.ok then (false, h)
    else
      let h := h.onCh fun C =>
        { C with resync := some (C.resync.getD p.q), exposed := C.exposed.map fun x => { x with ok := false } }
      (false, h.eventPkg h.leadDie Ev.chBandResync (leBytes 4 p.q ++ leBytes 1 (recBand f)))

/-- A page's records, with their frames that are usable, evaluated (R368 to R383, R529). -/
def Hw.pageEval (h : Hw) (p : ChPage) (recs frames : List (List Nat)) : Hw :=
  let q := p.q
  let r := h.bandOf q
  let h := if r = 16 then frames.foldl (fun (h : Hw) f => h.darkFrame recs f) h else h
  if h.gh.print.isSome then (if r = 16 ∨ frames = [] then h else h.ghMeasure q recs frames)
  else
    let sees := decide (r < 16) && !frames.isEmpty
    let h := if sees ∧ h.bandNm r ≠ 0 then (h.patchSamples q r recs frames).showDe else h
    let h := if sees then h.bandHealth q recs frames else h
    (List.range h.n).foldl (fun (h : Hw) b =>
      if h.rd 0 A.bar_state (b + 1) = 0 then h
      else
        let usable := sees && h.barUsable q b
        let h := h.chAcquired b q
        let h := if h.rd 0 A.bar_band (b + 1) = r then h.barFresh q b usable else h.barFresh q b false
        let h := if usable && h.rd 0 A.bar_band (b + 1) == r then h.barTone q b recs frames else h
        if usable then h.barReg q b recs frames else h) h

/-- CH_PAGE_EVALUATE (R366 to R384, R529): Rildin has the records of the oldest exposed page from all dies. -/
def execChPageEvaluate (s : State) : Host.Outcome State Fault Refusal :=
  s.onPkg fun ms h =>
    match h.pkg.ch.exposed with
    | [] => h
    | p :: rest =>
      let h := h.chCollect ms
      let h := h.onCh fun C => { C with exposed := rest }
      let recs := h.pkg.ch.recs
      let frames := h.chCams.filterMap fun k => frameFor recs (2 * k.1 + k.2) (p.t / 8)
      let (ok, h) := h.bandCheck p frames
      let good := if ok then frames.filter (h.frameUsable p ·) else []
      let bars := (List.range h.n).filter fun b => h.rd 0 A.bar_state (b + 1) != 0
      let full := if bars.all (h.barUsable p.q ·) then good.length else 0
      let h := h.add 0 A.frames_unused 0 (frames.length - full)
      let h := if good = [] then h else h.add 0 A.pages_measured 0
      let h := h.pageEval p recs good
      let seen (w : List Nat) := frames.any fun f => recCam f == recCam w && decide (recFrame w ≤ recFrame f)
      let h := h.onCh fun C => { C with recs := C.recs.filter (!seen ·) }
      let late (x : Nat × Nat × Nat) : Bool := x.1 == h.chCtx && decide (p.q * h.pageLen ≤ x.2.2)
      { h with dies := h.dies.map fun D => { D with lineFaults := D.lineFaults.filter late } }

/-! ### Commands (R387) -/

/-- Bars named by a mask. -/
def barsOf (m : Nat) : List Nat := (List.range 8).filter fun b => m.testBit b

/-- A command on named bars: RANGE for a bar that the package does not have, STATE unless every bar passes. -/
def chCommand (q : Hdr) (bars : Nat) (ok : Hw → Nat → Bool) (act : Hw → Nat → Hw) (s : State) : Host.Outcome State Fault Refusal :=
  s.command q 0x0A01 (opObj 0x0A01 0) fun _ _ h =>
    if 2 ^ h.n ≤ bars then refuse .range h
    else if !((barsOf bars).all (ok h ·)) then refuse .state h
    else okWith ((barsOf bars).foldl act h)

/-- A camera whose records colour hold can read (R365). -/
def Hw.cameraReads (h : Hw) (k : Nat × Nat) : Bool :=
  let isp := h.rd k.1 A.isp_die k.2
  let st := h.rd k.1 A.stream k.2
  [0, 2].contains (h.rd isp A.demosaic st) && h.rd isp A.stats_point st != 0

/-- The camera-chain calibration is valid, or was before the run in progress (R387). -/
def Hw.cameraCalOk (h : Hw) : Bool :=
  let st := h.rd h.leadDie A.cal_state 4
  st == 1 || (st == 3 && (((h.die h.leadDie).cals.getD 4 {}).before == 1))

/-- CH_CTRL START (R366, R367, R382, R387). -/
def execChStart (h : Hdr) (ctx bars : Nat) (s : State) : Host.Outcome State Fault Refusal :=
  s.command h 0x0A01 (opObj 0x0A01 0) fun _ _ hw =>
    let named := barsOf bars
    let prints (b : Nat) : Bool := hw.ctxPrints b ctx && ((hw.ctx? b ctx).map (·.page)).getD 0 != 0
    if ctx = 0 ∨ 256 ≤ ctx ∨ 2 ^ hw.n ≤ bars then refuse .range hw
    else if !(named.all fun b => hw.rd 0 A.bar_state (b + 1) == 0 && prints b) ∨ !hw.cameraCalOk ∨
        !(hw.chCams.all (hw.cameraReads ·)) then refuse .state hw
    else
      let hw := hw.wr 0 A.ch_context 0 ctx
      let pos := hw.lposNow hw.mxDie
      let hw := named.foldl (fun (hw : Hw) b =>
        ((hw.onBar b fun _ => { lastUse := pos }).wr 0 A.nozzles_dead (b + 1) 0).chTo b 1 0) hw
      let hw := hw.onCh fun C =>
        { C with next := none, plan := none, resync := none, samples := C.samples.filter fun x => !named.contains (hw.patchBar x.1.1) }
      okWith (named.foldl (fun (hw : Hw) b => if hw.rd 0 A.ref_mode 0 = 1 then hw.chAcquired b 0 else hw) hw.chAlign)

/-- CH_CTRL STOP (R382). -/
def execChStop (h : Hdr) (bars : Nat) (s : State) : Host.Outcome State Fault Refusal :=
  chCommand h bars (fun _ _ => true) (fun h b => h.chTo b 0 0) s

/-- CH_CTRL FREEZE (R382, R387). -/
def execChFreeze (h : Hdr) (bars : Nat) (s : State) : Host.Outcome State Fault Refusal :=
  chCommand h bars (fun h b => h.rd 0 A.bar_state (b + 1) == 2)
    (fun h b => (h.onBar b fun B => { B with frozen := true }).chTo b 3 0) s

/-- CH_CTRL RESUME (R382, R387). -/
def execChResume (h : Hdr) (bars : Nat) (s : State) : Host.Outcome State Fault Refusal :=
  chCommand h bars (fun h b => h.rd 0 A.bar_state (b + 1) == 3 && (h.chBar b).frozen)
    (fun h b => (h.onBar b fun B => { B with frozen := false }).chRelease b 0) s

/-- CH_CTRL CAPTURE_REF (R372, R382, R387). -/
def execChCaptureRef (h : Hdr) (bars : Nat) (s : State) : Host.Outcome State Fault Refusal :=
  chCommand h bars (fun h b => [2, 3].contains (h.rd 0 A.bar_state (b + 1)) && h.rd 0 A.ref_mode 0 == 0)
    (fun h b => (h.onBar b fun B => { B with frozen := false, stale := false, captured := [] }).chTo b 1 0) s

/-- CH_STATUS (R386). -/
def execChStatus (h : Hdr) (bar : Nat) (s : State) : Host.Outcome State Fault Refusal :=
  s.command h 0x0A02 (opObj 0x0A02 0) fun _ _ hw =>
    if hw.n ≤ bar then refuse .range hw
    else
      let i := bar + 1
      (.words [hw.rd 0 A.bar_state i * 2 ^ 24 + satNat 255 (hw.chBar bar).limits * 2 ^ 16 + hw.rd 0 A.bar_de_max i,
        hw.rd 0 A.last_gain_line i, hw.rd 0 A.last_reg_line i, hw.rd 0 A.page_q 0], hw)

end Sys2Proof.Machine
end

