-- ==== Sys2Proof/Machine/Thermal.lean ====
section
/-!
DEFINITION. Housekeeping, the thermal policy, NV writing and calibration (spec/15_thermal_calibration.md).
-/
namespace Sys2Proof.Machine

/-! ### Readings (R441 to R444) -/

/-- A sensor's record. -/
def Hw.sensor (h : Hw) (d ch : Nat) : Sensor := (h.die d).sensors.getD ch {}

/-- A sensor's record changed. -/
def Hw.onSensor (h : Hw) (d ch : Nat) (f : Sensor → Sensor) : Hw := h.onDie d fun D => { D with sensors := D.sensors.modify ch f }

/-- A code after the subtraction of the analog offset of odd-numbered rounds (R443). -/
def codeOf (odd : Bool) (raw : Nat) : Nat := if odd then raw - 16 else raw

/-- A head temperature in 1/16 °C from a code (R444); none where the formula gives no temperature above absolute zero. -/
def headTemp (x ohm beta : Nat) : Option Int :=
  if x = 0 ∨ 4095 ≤ x then none
  else
    let l := lnQ (10000 * x) ((4095 - x) * ohm)
    let scale : Int := 281474976710656 * beta
    let den : Int := 20 * scale + 5963 * l
    if den ≤ 0 then none else some (nearest (16 * (20 * 5963 * scale - 5463 * den)) (20 * den))

/-- The cases of BROKEN that a reading shows (R448), as bits: 1 short, 2 open, 3 stuck, 4 out of range. -/
def brokenBits (raw same : Nat) (temp : Option Int) : Nat :=
  (if raw ≤ 15 then 2 else 0) + (if 4080 ≤ raw then 4 else 0) + (if 10 ≤ same then 8 else 0) +
    match temp with
    | some t => if t < -880 ∨ 2400 < t then 16 else 0
    | none => 16

/-- The case that THERM_BROKEN names: 0 short, 1 open, 2 stuck, 3 out of range. -/
def brokenCase (bits : Nat) : Nat := ((List.range 4).find? fun i => bits.testBit (i + 1)).getD 0

/-- The highest threshold that a reading is at or above (R446). -/
def thermLevel (t warm hot critical : Int) : Nat := if critical ≤ t then 3 else if hot ≤ t then 2 else if warm ≤ t then 1 else 0

/-- A sensor's state at a round (R446): up at once, back by one state below the threshold less `hyst`. -/
def nextLevel (old : Nat) (t warm hot critical hyst : Int) : Nat :=
  let up := thermLevel t warm hot critical
  let own := if old = 3 then critical else if old = 2 then hot else warm
  if old ≤ up then up else if t < own - hyst then old - 1 else old

/-- The throttle level by temperature (R450): up at once, down below the temperature at which a level begins, less `hyst`. -/
def nextThrottle (t warm step hyst : Int) : Nat → Nat
  | 0 => if t < warm then 0 else min 7 (1 + ((t - warm) / max 1 step).toNat)
  | n + 1 =>
    let up := if t < warm then 0 else min 7 (1 + ((t - warm) / max 1 step).toNat)
    if n + 1 ≤ up then up else if t < warm + n * step - hyst then nextThrottle t warm step hyst n else n + 1

/-- A die's newest values of `sn_value`, `sn_raw`, `sn_tb1`, and the extremes since the last read (R467). -/
def Hw.sensorShow (h : Hw) (d ch raw : Nat) (v : Option Int) : Hw :=
  let h := ((h.wr d A.sn_raw ch raw).wr d A.sn_tb1 ch (h.tb d 1)).wr d A.sn_kind ch (sensorKind ch)
  match v with
  | none => h.wr d A.sn_value ch 0x7FFF
  | some t =>
    let h := h.wrS d A.sn_value ch 16 t
    let h := if h.rdS d A.sn_max ch 16 < t then h.wrS d A.sn_max ch 16 t else h
    if t < h.rdS d A.sn_min ch 16 then h.wrS d A.sn_min ch 16 t else h

/-- THERM_RISE: set (0) or clear (1). -/
def Hw.riseEvent (h : Hw) (d ch : Nat) (old new : Bool) (by_ : Int) : Hw :=
  if old = new then h else h.event d Ev.thermRise (leBytes 1 ch ++ leBytes 1 (b2n (!new)) ++ leInt 2 by_)

/-- A DIE or HEAD channel at a round (R445 to R450). -/
def Hw.thermRead (h : Hw) (d ch raw : Nat) (temp : Option Int) : Hw :=
  let S := h.sensor d ch
  let same := if raw = h.rd d A.sn_raw ch ∧ h.rd d A.rounds 0 ≠ 0 then S.same + 1 else 1
  let bad := brokenBits raw same temp
  let clear := if bad ≠ 0 then 0 else S.clear + 1
  let broken : Bool := bad != 0 || (S.broken && decide (clear < 3))
  let h := if broken = S.broken then h
    else h.event d Ev.thermBroken (leBytes 1 ch ++ leBytes 1 (brokenCase bad) ++ leBytes 1 (b2n (!broken)))
  let flags := bad % 16 / 2 * 2
  match if broken then none else temp with
  | none =>
    let h := (h.sensorShow d ch raw none).riseEvent d ch S.rise false 0
    let h := (h.wr d A.sn_state ch 4).wr d A.sn_flags ch flags
    h.onSensor d ch fun S => { S with same := same, clear := clear, broken := true, rise := false, thr := 7 }
  | some t =>
    let v (a : AttrId) : Int := h.rdS d a ch 16
    let window := h.rd d A.rise_window_ms ch
    let hist := S.hist.filter fun x => decide (h.clk ≤ x.1 + 10 ^ 6 * window)
    let up := t - ((hist.getLast?).map (·.2)).getD t
    let rise := decide ((h.rd d A.rise_limit ch * window : Nat) < 1000 * up)
    let level := nextLevel S.level t (v A.warm) (v A.hot) (v A.critical) (h.rd d A.hyst ch)
    let thr := if rise then 7 else nextThrottle t (v A.warm) (h.rd d A.throttle_step 0) (h.rd d A.hyst ch) S.thr
    let h := (h.sensorShow d ch raw (some t)).riseEvent d ch S.rise rise up
    let h := if level = S.level then h
      else h.event d Ev.thermLevel (leBytes 1 ch ++ leBytes 1 S.level ++ leBytes 1 level ++ leInt 2 t)
    let h := (h.wr d A.sn_state ch level).wr d A.sn_flags ch (flags + b2n rise)
    h.onSensor d ch fun S =>
      { S with same := same, clear := clear, broken := false, level := level, thr := thr, rise := rise, hist := (h.clk, t) :: hist }

/-- A channel in mV at a round; AUX_LIMIT when an AUX, RAIL or DOMAIN value passes a limit: 0 low, 1 high (R467). -/
def Hw.voltRead (h : Hw) (d ch raw : Nat) (mv : Int) : Hw :=
  let h := h.sensorShow d ch raw (some mv)
  if !([2, 4, 5] : List Nat).contains (sensorKind ch) then h
  else
    let low := decide (mv < h.rd d A.lim_lo_mv ch)
    let high := decide ((h.rd d A.lim_hi_mv ch : Int) < mv)
    let was := (h.sensor d ch).limit
    let ev (h : Hw) (k : Nat) (on : Bool) : Hw :=
      if on ∧ !was.testBit k then h.event d Ev.auxLimit (leBytes 1 ch ++ leBytes 1 k ++ leInt 2 mv) else h
    (ev (ev h 0 low) 1 high).onSensor d ch fun S => { S with limit := b2n low + 2 * b2n high }

/-! ### The policy (R445, R450 to R453) -/

/-- Channels of DIE and of DIE and HEAD sensors. -/
def dieChannels : List Nat := List.range 6
def thermChannels : List Nat := List.range 30

/-- The sensor takes action: `policy` NORMAL (R449). -/
def Hw.acts (h : Hw) (d ch : Nat) : Bool := h.rd d A.policy ch == 0

/-- The throttle level of the die (R450). -/
def Hw.throttleRound (h : Hw) (d : Nat) : Hw :=
  let top := dieChannels.foldl (fun (m : Nat × Nat) ch => if m.1 < (h.sensor d ch).thr then ((h.sensor d ch).thr, ch) else m)
    (h.rd d A.throttle_min 0, 0xFF)
  let old := h.rd d A.throttle 0
  if old = top.1 then h
  else (h.wr d A.throttle 0 top.1).event d Ev.thermThrottle (leBytes 1 old ++ leBytes 1 top.1 ++ leBytes 1 top.2)

/-- SPEED_LIMIT asked for (R452). -/
def Hw.speedRound (h : Hw) (d : Nat) : Hw :=
  let ask := thermChannels.any fun ch =>
    let S := h.sensor d ch
    h.acts d ch && (decide (2 ≤ S.level) || S.rise || S.broken)
  (h.wr d A.speed_lim_req 0 (b2n ask)).setReq d 4 ask

/-- The hottest and the mean DIE reading, BROKEN sensors apart. -/
def Hw.tjRound (h : Hw) (d : Nat) : Hw :=
  match (dieChannels.filter fun ch => !(h.sensor d ch).broken).map fun ch => h.rdS d A.sn_value ch 16 with
  | [] => (h.wr d A.tj_max 0 0x7FFF).wr d A.tj_mean 0 0x7FFF
  | t :: ts => (h.wrS d A.tj_max 0 16 (ts.foldl max t)).wrS d A.tj_mean 0 16 (nearest ((t :: ts).sum) (ts.length + 1))

/-- Sensors that reached CRITICAL or became BROKEN this round: recorded, and the die stops (R453). -/
def Hw.criticalRound (h : Hw) (d : Nat) (old : List Sensor) : Hw :=
  let severe (S : Sensor) : Bool := S.broken || S.level == 3
  match thermChannels.filter fun ch => h.acts d ch && severe (h.sensor d ch) && !severe (old.getD ch {}) with
  | [] => h
  | l =>
    let h := l.foldl (fun (h : Hw) ch => h.event d Ev.thermCritical (leBytes 1 ch ++ leBytes 2 (h.rd d A.sn_value ch))) h
    let h := h.onDie d fun D => { D with crit := match D.crit with
      | some c => some (c.1, c.2 ++ l)
      | none => some (h.clk, l) }
    h.startStop d 4

/-! ### NV writing (R455, R456, R574) -/

/-- The record of a calibration as its registers stand (R465). -/
def Hw.calRecord (h : Hw) (d i : Nat) : CalRec :=
  { values := (((h.die d).cals.getD i {}).values), runs := h.rd d A.cal_runs i, tb0 := h.rd d A.cal_tb0 i,
    temp := h.rd d A.cal_temp i, quality := h.rd d A.quality i }

/-- A calibration instance changed. -/
def Hw.onCal (h : Hw) (d i : Nat) (f : Cal → Cal) : Hw := h.onDie d fun D => { D with cals := D.cals.modify i f }

/-- A calibration's record stored, or kept until writing is allowed (R456, R465). -/
def Hw.calStore (h : Hw) (d i : Nat) : Hw :=
  if h.rd d A.nv_write_ok 0 = 1 then (h.onCal d i fun C => { C with stored := some (h.calRecord d i) }).wr d A.cal_unsaved i 0
  else h.wr d A.cal_unsaved i 1

/-- What a die kept until NV writing was allowed is written: its calibrations, and with the lead die the committed tables of
every die (R456, R574). -/
def Hw.nvFlush (h : Hw) (d : Nat) : Hw :=
  let h := ((List.range 5).filter fun i => h.rd d A.cal_unsaved i == 1).foldl (fun (h : Hw) i => h.calStore d i) h
  if d ≠ h.leadDie then h
  else
    let h := { h with fwKept := none }
    (List.range h.n).foldl (fun (h : Hw) e =>
      let ks := (h.die e).nvWait
      h.onDie e fun D => { D with nvWait := [], nvTables := ks.foldl (fun l k => regPut l k (h.blk k)) D.nvTables }) h

/-- The window of NV writing at a round (R455): NV_TEMP_WINDOW with 0 forbidden or 1 allowed. -/
def Hw.nvRound (h : Hw) (d : Nat) : Hw :=
  let outside (lo hi : Int) (ch : Nat) : Bool :=
    (h.sensor d ch).broken || decide (h.rdS d A.sn_value ch 16 < lo) || decide (hi < h.rdS d A.sn_value ch 16)
  let ev (h : Hw) (v ch : Nat) : Hw := h.event d Ev.nvTempWindow (leBytes 1 v ++ leBytes 1 ch ++ leBytes 2 (h.rd d A.sn_value ch))
  if h.rd d A.nv_write_ok 0 = 1 then
    match dieChannels.find? (outside 0 1600) with
    | some ch => ev (h.wr d A.nv_write_ok 0 0) 0 ch
    | none => h
  else if dieChannels.any (outside 32 1568) then h
  else
    let hot := dieChannels.foldl (fun m ch => if h.rdS d A.sn_value m 16 < h.rdS d A.sn_value ch 16 then ch else m) 0
    ev ((h.wr d A.nv_write_ok 0 1).nvFlush d) 1 hot

/-! ### Calibration (R458 to R466, R470) -/

/-- The calibration instances of a die (R458). -/
def Hw.calsOf (h : Hw) (d : Nat) : List Nat := if d = h.leadDie then [0, 1, 2, 3, 4] else [0, 1, 2, 3]

/-- The end of an instance's part of a CAL_RUN: a failure decides, success when no instance is left (R470). -/
def Hw.calSettle (h : Hw) (d id fate : Nat) : Hw :=
  let pending := (((h.pkg.deferred ++ h.dies.flatMap fun D => D.mbx.deferred).find? fun r => r.id = id).map (·.fate)) == some 0x0C
  let left := (h.die d).cals.any fun C => C.id == some id
  if !pending then h
  else if fate ≠ 0 then h.settle id fate
  else if left then h else h.settle id 0

/-- An instance leaves its work; its command's part ends with a fate. -/
def Hw.calEnd (h : Hw) (d i fate : Nat) : Hw :=
  let id := ((h.die d).cals.getD i {}).id
  let h := h.onCal d i fun C => { C with work := 0, id := none }
  match id with
  | some x => h.calSettle d x fate
  | none => h

/-- A run without result: the state `to`, the previous values in force, CAL_FAIL with cause 0 CHECK, 1 NO_GAP or 2 ABORT. -/
def Hw.calFail (h : Hw) (d i to_ cause detail : Nat) : Hw :=
  (((h.wr d A.cal_state i to_).add d A.cal_fails i).event d Ev.calFail (leBytes 1 i ++ leBytes 1 cause ++ leBytes 4 detail)).calEnd
    d i Status.check.code

/-- The nominal gain of the ADC, 1,800 mV over 4,096 codes (assumption log 17), as the error of a gain in ppm: `vref` mV
read as `n` codes. -/
def gainError (vref n : Nat) : Nat := if n = 0 then 10 ^ 6 else ((vref * 4096 : Int) - 1800 * n).natAbs * 10 ^ 6 / (1800 * n)

/-- The values of an ADC calibration: reference voltage, and the codes of channels 38 and 58 (R460; assumption log 14). -/
def adcValues (vref r38 r58 : Nat) : List Byte := leBytes 2 vref ++ leBytes 2 r38 ++ leBytes 2 r58

/-- Gain and offset refreshed from the round and stored when the gain has moved by more than 200 ppm (R460). -/
def Hw.adcRound (h : Hw) (d r38 r58 : Nat) : Hw :=
  let vref := h.rd d A.vref_mv 1
  let q := gainError vref (r38 - r58)
  if vref = 0 ∨ h.rd d A.cal_auto 1 = 0 ∨ h.rd d A.cal_state 1 ≠ 1 ∨ 20000 < q then h
  else
    let h := h.onCal d 1 fun C => { C with values := adcValues vref r38 r58 }
    let h := (h.wr d A.quality 1 q).wr d A.quality_tb1 1 (h.tb d 1)
    match ((h.die d).cals.getD 1 {}).stored with
    | none => h.calStore d 1
    | some c =>
      let a : Int := vref * ((fieldOf c.values 2 2 : Int) - fieldOf c.values 4 2)
      let b : Int := (fieldOf c.values 0 2 : Int) * ((r38 : Int) - r58)
      if 200 * b.natAbs < (a - b).natAbs * 10 ^ 6 then h.calStore d 1 else h

/-- A gap-fitted run begun (R463). -/
def Hw.gapStart (h : Hw) (d i : Nat) (id : Option Nat) : Hw :=
  let old := h.rd d A.cal_state i
  (h.wr d A.cal_state i 3).onCal d i fun C => { C with work := 2, before := old, since := h.clk, id := id, retry := none }

/-- Quality figures refreshed on a DKG8 before they are 10 s old; their values are measurements (R466). -/
def Hw.qualityRound (h : Hw) (d i : Nat) : Hw :=
  if h.n ≠ 8 ∨ i = 1 ∨ !([1, 2] : List Nat).contains (h.rd d A.cal_state i) ∨
      h.tb d 1 + 10 ^ 6 * h.rd d A.round_ms 0 < h.rd d A.quality_tb1 i + 10 ^ 10 then h
  else
    let r := h.fresh
    (r.2.wr d A.quality i (r.1 % 2 ^ 32)).wr d A.quality_tb1 i (r.2.tb d 1)

/-- Calibrations that become STALE at a round, and gap-fitted runs of those that are (R463): cause 0 temperature, 1 period. -/
def Hw.calRound (h : Hw) (d i : Nat) : Hw :=
  let moved := (h.rdS d A.tj_mean 0 16 - h.rdS d A.cal_temp i 16).natAbs
  let period := h.rd d A.cal_period_s i
  let h := if h.rd d A.cal_retrigger i < moved then h.calStale d i 0
    else if period ≠ 0 ∧ h.rd d A.cal_tb0 i + 10 ^ 9 * period ≤ h.tb d 0 then h.calStale d i 1 else h
  let again : Bool := match ((h.die d).cals.getD i {}).retry with
    | some t => decide (t ≤ h.clk)
    | none => true
  if h.rd d A.cal_state i = 2 ∧ h.rd d A.cal_auto i = 1 ∧ again then h.gapStart d i none else h.qualityRound d i

/-- HOUSEKEEPING_ROUND (R441 to R456, R460, R463): raw codes of the 64 channels as converted, and for each channel but the
HEAD ones the value that the conversion gives, in 1/16 °C or mV. -/
def execHousekeepingRound (die t : Nat) (raws : List Nat) (vals : List Int) (s : State) : Host.Outcome State Fault Refusal :=
  s.onDie die fun _ h =>
    let h := h.until die t
    let old := (h.die die).sensors
    let odd := (h.rd die A.rounds 0 + 1) % 2 == 1
    let raw (ch : Nat) : Nat := raws.getD ch 0 % 4096
    let h := (List.range 64).foldl (fun (h : Hw) ch =>
      if ch < 6 then h.thermRead die ch (raw ch) (some (vals.getD ch 0))
      else if ch < 30 then
        h.thermRead die ch (raw ch) (headTemp (codeOf odd (raw ch)) (h.rd die A.ohm_25c ch) (h.rd die A.beta ch))
      else h.voltRead die ch (raw ch) (vals.getD ch 0)) h
    let h := (h.tjRound die).add die A.rounds 0
    let h := (((h.throttleRound die).speedRound die).nvRound die).criticalRound die old
    let h := h.adcRound die (codeOf odd (raw 38)) (codeOf odd (raw 58))
    (h.calsOf die).foldl (fun (h : Hw) i => h.calRound die i) h

/-- CRITICAL_SHUTDOWN (R453): at package standstill, or `crit_stop_ms` after the stop began. -/
def execCriticalShutdown (die : Nat) (s : State) : Host.Outcome State Fault Refusal :=
  s.onDie die fun _ h =>
    match (h.die die).crit with
    | none => h
    | some (since, chs) =>
      let ds := (List.range h.n).filter fun d => (h.die d).stop.active
      let stands := ds ≠ [] ∧ ds.all fun d => (h.die d).stop.standstill
      let until_ := since + 10 ^ 6 * h.rd die A.crit_stop_ms 0
      let h := if stands then h else h.tick ((until_ - h.clk + 1) / 2)
      let h := h.onDie die fun D => { D with crit := none }
      let h := (chs.filter fun ch => 6 ≤ ch).foldl (fun (h : Hw) ch => h.portOff die (ch - 6)) h
      if chs.any (· < 6) then
        let mask := 2 ^ domHEAD + 2 ^ domVIEW + 2 ^ domCODEC + 2 ^ domLINE + 2 ^ domMEM
        (h.wr die A.shutdown 0 (h.rd die A.shutdown 0 ||| (mask &&& h.rd die A.pd_on 0))).domainsOff die mask 2
      else h

/-- THERM_TRIP (R454): sensor `sensor` passes 125 °C; one that the comparator finds open or shorted is excluded. -/
def execThermTrip (die sensor t : Nat) (s : State) : Host.Outcome State Fault Refusal :=
  s.onUnit die sensor 6 fun _ h =>
    let h := h.until die t
    if h.rd die A.sn_flags sensor &&& 6 ≠ 0 then h
    else
      let on := h.rd die A.pd_on 0
      let others := (List.range h.n).filter fun e => e != die && h.printing e
      let h := ((h.disarm die).wr die A.trip_latched 0 1).add die A.trips 0
      let h := (h.wr die A.shutdown 0 (h.rd die A.shutdown 0 ||| (on &&& 0xFE))).domainsOff die 0xFE 3
      let h := (h.setFault die true).event die Ev.thermTrip (leBytes 1 sensor ++ leBytes 8 (h.tb die 1))
      others.foldl (fun (h : Hw) e => h.stopOn e 4) (h.onDie die fun D => { D with crit := none })

/-- Instances named by a mask. -/
def instsOf (m : Nat) : List Nat := (List.range 5).filter fun i => m.testBit i

/-- CAL_RUN (R464, R470): what refuses named instances, for RUN, RUN_GAP, QUALITY and ABORT alike. -/
def Hw.calNamed (h : Hw) (d insts : Nat) : Option Status :=
  if insts = 0 ∨ 32 ≤ insts then some .range else if insts.testBit 4 ∧ d ≠ h.leadDie then some .badObject else none

/-- CAL_RUN RUN: an interrupting run (R464). -/
def execCalRun (h : Hdr) (insts : Nat) (s : State) : Host.Outcome State Fault Refusal :=
  s.command h 0x0D01 (opObj 0x0D01 (lowBit insts)) fun _ d hw =>
    match hw.calNamed d insts with
    | some st => refuse st hw
    | none =>
      if hw.printing d ∨ (insts.testBit 4 ∧ hw.rd 0 A.ch_state 0 = 1) ∨
          (instsOf insts).any fun i => hw.rd d A.cal_state i == 3 then refuse .state hw
      else
        let (id, r, hw) := hw.deferWork d h false
        (r, (instsOf insts).foldl (fun (hw : Hw) i =>
          (hw.gapStart d i (some id)).onCal d i fun C => { C with work := 1 }) hw)

/-- CAL_RUN RUN_GAP (R463, R470). -/
def execCalRunGap (h : Hdr) (insts : Nat) (s : State) : Host.Outcome State Fault Refusal :=
  s.command h 0x0D01 (opObj 0x0D01 (lowBit insts)) fun _ d hw =>
    match hw.calNamed d insts with
    | some st => refuse st hw
    | none =>
      if (instsOf insts).any fun i => hw.rd d A.cal_state i == 3 then refuse .state hw
      else
        let (id, r, hw) := hw.deferWork d h false
        (r, (instsOf insts).foldl (fun (hw : Hw) i => hw.gapStart d i (some id)) hw)

/-- CAL_RUN QUALITY (R39, R466, R470): measured on request on a smaller variant; OK on a DKG8. -/
def execCalQuality (h : Hdr) (insts : Nat) (s : State) : Host.Outcome State Fault Refusal :=
  s.command h 0x0D01 (opObj 0x0D01 (lowBit insts)) fun _ d hw =>
    match hw.calNamed d insts with
    | some st => refuse st hw
    | none =>
      if hw.n = 8 then okWith hw
      else
        let (id, r, hw) := hw.deferWork d h false
        let l := (instsOf insts).filter fun i => ((hw.die d).cals.getD i {}).work == 0
        (r, if l = [] then hw.settle id 0 else l.foldl (fun (hw : Hw) i => hw.onCal d i fun C => { C with work := 3, id := some id }) hw)

/-- CAL_RUN ABORT (R470). -/
def execCalAbort (h : Hdr) (insts : Nat) (s : State) : Host.Outcome State Fault Refusal :=
  s.command h 0x0D01 (opObj 0x0D01 (lowBit insts)) fun _ d hw =>
    match hw.calNamed d insts with
    | some st => refuse st hw
    | none =>
      if (instsOf insts).any fun i => hw.rd d A.cal_state i != 3 then refuse .state hw
      else okWith ((instsOf insts).foldl (fun (hw : Hw) i => hw.calFail d i ((hw.die d).cals.getD i {}).before 2 0) hw)

/-- Whether a run's figure fails it (R459, R460, R462). -/
def Hw.calBad (h : Hw) (d i quality : Nat) : Bool :=
  match i with
  | 0 => decide (100 < quality)
  | 1 => decide (20000 < quality)
  | 4 => decide (h.rd d A.cam_res_max 4 < quality)
  | _ => false

/-- A run that succeeds: its values in force and its record stored (R458 to R465). ETH loads the latencies of both ports; a
CAMERA run frees bars that tile data held (R382). -/
def Hw.calSucceed (h : Hw) (d i quality : Nat) (values : List Byte) : Hw :=
  let h := (h.add d A.cal_runs i).wr d A.cal_tb0 i (h.tb d 0)
  let h := (h.wr d A.cal_temp i (h.rd d A.tj_mean 0)).wr d A.quality i quality
  let h := (h.wr d A.quality_tb1 i (h.tb d 1)).wr d A.cal_state i 1
  let h := (h.onCal d i fun C => { C with values := values }).calStore d i
  let h := match i with
    | 2 => (List.range 2).foldl (fun (h : Hw) p =>
        (h.wr d A.rx_lat_ps p (fieldOf values (8 * p) 4)).wr d A.tx_lat_ps p (fieldOf values (8 * p + 4) 4)) h
    | 4 => (List.range h.n).foldl (fun (h : Hw) b => (h.onBar b fun B => { B with tile := false }).chRelease b 4) h
    | _ => h
  (h.event d Ev.calDone (leBytes 1 i ++ leBytes 4 quality ++ leBytes 4 (h.rd d A.cal_runs i))).calEnd d i 0

/-- CAL_DONE (R459 to R466, R470): the work of an instance ends with its quality figure and values. -/
def execCalDone (die inst quality : Nat) (values : List Byte) (s : State) : Host.Outcome State Fault Refusal :=
  s.onUnit die inst 5 fun _ h =>
    let C := (h.die die).cals.getD inst {}
    if C.work = 0 then h
    else if C.work = 3 then ((h.wr die A.quality inst quality).wr die A.quality_tb1 inst (h.tb die 1)).calEnd die inst 0
    else if inst = 1 ∧ h.rd die A.vref_mv 1 = 0 then h.calFail die inst C.before 0 0
    else if h.calBad die inst quality then h.calFail die inst 4 0 quality
    else h.calSucceed die inst quality values

/-- CAL_NO_GAP (R463): a gap-fitted run has not completed within 10 s. -/
def execCalNoGap (die inst : Nat) (s : State) : Host.Outcome State Fault Refusal :=
  s.onUnit die inst 5 fun _ h =>
    let C := (h.die die).cals.getD inst {}
    if C.work ≠ 2 then h
    else
      let h := h.tick ((C.since + 10 ^ 10 - h.clk + 1) / 2)
      (h.calFail die inst C.before 1 0).onCal die inst fun C => { C with retry := some (h.clk + 10 ^ 10) }

/-- THERM_STATUS (R468). -/
def execThermStatus (h : Hdr) (s : State) : Host.Outcome State Fault Refusal :=
  s.command h 0x0D02 (opObj 0x0D02 0) fun _ d hw =>
    let sound := thermChannels.filter fun ch => hw.acts d ch && !(hw.sensor d ch).broken
    let hot := sound.foldl (fun m ch => if hw.rdS d A.sn_value m 16 < hw.rdS d A.sn_value ch 16 then ch else m) ((sound.head?).getD 0)
    let flags := hw.rd d A.speed_lim_req 0 + 2 * hw.rd d A.nv_write_ok 0 + 4 * hw.rd d A.trip_latched 0 +
      8 * b2n (hw.die d).crit.isSome
    let broken := (thermChannels.filter fun ch => (hw.sensor d ch).broken).length
    (.words [hw.rd d A.tj_max 0 * 2 ^ 16 + hw.rd d A.tj_mean 0,
      hw.rd d A.throttle 0 * 2 ^ 24 + flags * 2 ^ 16 + hot * 2 ^ 8 + broken, hw.rd d A.rounds 0,
      ((List.range 5).map fun i => hw.rd d A.cal_state i * 16 ^ i).sum], hw)

end Sys2Proof.Machine
end

