-- ==== Sys2Proof/Machine/QueueCtl.lean ====
section
/-!
DEFINITION. The queue commands (spec/03_hardware_queues.md R98, R101, R102, R108, R570; R73, R74): QUEUE_INVALIDATE,
QUEUE_CTRL, QUEUE_STATUS.
-/
namespace Sys2Proof.Machine

/-- A fixed queue's agent is active (R570). -/
def Hw.agentActive (h : Hw) (d i : Nat) : Bool :=
  if i < 16 then h.rd d A.st_type (i + 1) != 0
  else if i < 24 then (h.die d).ctxs.any (·.num != 0) || h.rd d A.dec_in_flight 0 != 0
  else if i < 32 then (List.range h.n).any fun e => (List.range 2).any fun p =>
    h.rd e A.cam_state p == camRUN && h.rd e A.isp_die p == d && h.rd e A.desc_queue p == i
  else if i < 40 then (List.range 9).any fun st => h.streamRuns d st && h.rd d A.stats_queue st == i
  else if i < 48 then (h.die d).codec.jobs.any fun j => j.queue == i
  else if i < 56 then false
  else if i < 60 then h.lead == some d && bits (h.rd d A.evq_mask 0) (16 * (i - 56) + 15) (16 * (i - 56)) != 0
  else if i < 62 then h.rd d A.le_state 0 != 0
  else true

/-- QUEUE_INVALIDATE (R73, R74, R101). -/
def execQueueInvalidate (h : Hdr) (first count : Nat) (s : State) : Host.Outcome State Fault Refusal :=
  s.command h 0x0101 (opObj 0x0101 first) fun _ d hw =>
    let qs := (List.range count).map (first + ·)
    if !queueRange first count then refuse .range hw
    else if qs.any fun i => i == 63 || (hw.q d i).enabled then refuse .state hw
    else okWith (qs.foldl (fun (hw : Hw) i => hw.onQ d i fun q => { q with cached := false }) hw)

/-- QUEUE_CTRL ENABLE (R101, R102, R108): `bad` names the queues whose entries cannot be read. -/
def execQueueEnable (h : Hdr) (first count : Nat) (bad : List Nat) (s : State) : Host.Outcome State Fault Refusal :=
  s.command h 0x0102 (opObj 0x0102 first) fun ms d hw =>
    let qs := (List.range count).map (first + ·)
    if !queueRange first count then refuse .range hw
    else
      match hw.enableFail ms d bad [] qs with
      | some (i, st) =>
        (queueReply st i, if st = .check then hw.event d Ev.tableReadErr (leBytes 1 0 ++ leBytes 2 i) else hw)
      | none => (queueReply .ok 0xFFFF, qs.foldl (fun (hw : Hw) i => hw.enableOne ms d i) hw)

/-- The first queue of a range that a check refuses with STATE. -/
def queueState (qs : List Nat) (bad : Nat → Bool) (act : Hw → Nat → Hw) (hw : Hw) : Reply × Hw :=
  match qs.find? bad with
  | some i => (queueReply .state i, hw)
  | none => (queueReply .ok 0xFFFF, qs.foldl act hw)

/-- QUEUE_CTRL DISABLE (R98, R102, R108, R570). -/
def execQueueDisable (h : Hdr) (first count : Nat) (s : State) : Host.Outcome State Fault Refusal :=
  s.command h 0x0102 (opObj 0x0102 first) fun _ d hw =>
    if !queueRange first count then refuse .range hw
    else queueState ((List.range count).map (first + ·)) (fun i => !(hw.q d i).enabled || hw.agentActive d i)
      (fun hw i => hw.disableOne d i) hw

/-- QUEUE_CTRL FLUSH (R98, R102, R108). -/
def execQueueFlush (h : Hdr) (first count : Nat) (s : State) : Host.Outcome State Fault Refusal :=
  s.command h 0x0102 (opObj 0x0102 first) fun _ d hw =>
    if !queueRange first count then refuse .range hw
    else queueState ((List.range count).map (first + ·)) (fun i => i == 63 || !(hw.q d i).enabled)
      (fun hw i => (hw.onQ d i fun q => { q with rd := q.cmt }).qWatermark d i) hw

/-- QUEUE_STATUS (R103). -/
def execQueueStatus (h : Hdr) (q : Nat) (s : State) : Host.Outcome State Fault Refusal :=
  s.command h 0x0103 (opObj 0x0103 q) fun _ d hw =>
    if 64 ≤ q then refuse .range hw
    else
      let Q := hw.q d q
      (.words ([Q.cmt * 2 ^ 16 + Q.wr, Q.depth * 2 ^ 16 + Q.rd, (if Q.cached then Q.size else 0) * 2 ^ 16 + Q.sticky * 2 ^ 8 + Q.stateBits, 0] ++
        words64 Q.last), hw)

end Sys2Proof.Machine
end

