-- ==== Sys2Proof/Machine/Gatehouse.lean ====
section
/-!
DEFINITION. Gatehouse (spec/17_power_reset_boot.md R526 to R530): spitting, the test page as context 0, its results.
-/
namespace Sys2Proof.Machine

/-- Enabled ports of a die as a mask. -/
def Hw.enabledPorts (h : Hw) (d : Nat) : Nat := (((List.range 24).filter fun p => h.rd d A.hp_enable p == 1).map (2 ^ ·)).sum

/-! ### Spitting (R526) -/

/-- Gatehouse spits on every enabled port of every die, as a command of Rildin (R79, R526). -/
def Hw.ghSpit (h : Hw) : Hw :=
  (List.range h.n).foldl (fun (h : Hw) d =>
    let m := h.enabledPorts d
    if m = 0 ∨ !(h.die d).up then h
    else
      let r := hpSpitBody m h.gh.spitLines d h
      r.2.configChange d 0x0403 (opObj 0x0403 (lowBit m)) r.1.status .rildin) h

/-- GH_SPIT_TIMER (R526): `gh_spit_interval_s` has passed while HEAD_PARKED stays high. -/
def execGhSpitTimer (s : State) : Host.Outcome State Fault Refusal :=
  s.onPkg fun _ h => if h.mode = .gatehouse ∧ h.gh.interval ≠ 0 ∧ h.hsIn.testBit 1 then h.ghSpit else h

/-! ### The test page (R527, R528) -/

/-- Strap TESTPRINT_EN as latched (R515, R531). -/
def Hw.testprintEn (h : Hw) : Bool := bit (h.rd h.leadDie A.straps 0) 1

/-- The test page as a context of a die. -/
def testCtx (ports : Nat) : Ctx :=
  { num := 0, job := 0, ports := ports, page := 1152, base := 0, pages := 0, last := none,
    next := List.replicate 24 0xFFFFFFFF, slot := List.replicate 24 0 }

/-- Test pages fired: whole pages that every port of the page has passed (`gh_pages`). -/
def Hw.ghFired (h : Hw) : Nat :=
  let slots := (List.range h.n).flatMap fun d => match h.ctx? d 0 with
    | some c => (portsOf c.ports).map c.slotAt
    | none => []
  match slots with
  | [] => h.gh.pages
  | k :: ks => ks.foldl min k / 1152

/-- A test print begins: X₀ fixed and carried to every die, the results reset, one exposure per page (R527, R529, R530). -/
def Hw.ghStart (h : Hw) (x0 : Int) : Hw :=
  let g := h.gh
  let h := { h with gh := { print := some x0, spitLines := g.spitLines, interval := g.interval, runin := g.runin, x0 := x0 } }
  let h := (List.range h.n).foldl (fun (h : Hw) d =>
    let m := h.enabledPorts d
    if m = 0 then h
    else ((h.onDie d fun D => { D with ctxs := D.ctxs.filter (fun c => c.num ≠ 0) ++ [testCtx m] }).beginCtx d 0 x0 0)) h
  let h := (h.onCh fun C => { C with next := none, plan := none, resync := none, exposed := [], recs := [] }).chAlign
  h.eventPkg h.leadDie Ev.ghPrint (leBytes 1 0 ++ leInt 8 x0 ++ leBytes 4 0)

/-- A test print ends: slots not fired are dropped without records (R527). -/
def Hw.ghEnd (h : Hw) : Hw :=
  match h.gh.print with
  | none => h
  | some x0 =>
    let pages := h.ghFired
    let h := (List.range h.n).foldl (fun (h : Hw) d => if (h.ctx? d 0).isSome then h.closeCtx d 0 else h) h
    let h := { h with gh := { h.gh with print := none, pages := pages } }
    let h := h.onCh fun C => { C with next := none, plan := none, exposed := [] }
    h.eventPkg h.leadDie Ev.ghPrint (leBytes 1 1 ++ leInt 8 x0 ++ leBytes 4 pages)

/-- HOSTED is entered at standstill once MODE_SET HOSTED has stopped the test page (R522). -/
def Hw.hostedCheck (h : Hw) : Hw :=
  let stopped := (List.range h.n).filter fun d => (h.die d).stop.active
  if h.hostedWait.isEmpty ∨ h.mode ≠ .gatehouse ∨ !stopped.all h.dieStands then h
  else h.hostedWait.foldl (fun (h : Hw) id => h.settle id 0) (({ h with hostedWait := [] }).ghEnd.modeTo .hosted)

/-- A pair of the lead die under which a test print begins (R527). -/
def Hw.ghPair (h : Hw) (d : Nat) : Hw :=
  let q := (h.pos d).newest
  if h.mode = .gatehouse ∧ h.lead = some d ∧ h.gh.print.isNone ∧ h.hostedWait.isEmpty ∧ h.testprintEn ∧ h.hsIn.testBit 0 ∧
      !h.hsIn.testBit 1 ∧ !h.anyEstop ∧ (List.range h.n).any (fun e => h.enabledPorts e != 0) ∧ q.fwd ∧ !q.still then
    h.ghStart (q.lpos + h.gh.runin * 10 ^ 6)
  else h

/-! ### Results (R530) -/

/-- `gh_state`: 0 IDLE, 1 SPIT, 2 PRINT. -/
def Hw.ghState (h : Hw) : Nat :=
  if h.gh.print.isSome then 2
  else if h.mode = .gatehouse ∧ h.dies.any (fun D => !D.spits.isEmpty) then 1 else 0

/-- The 144 bytes of Gatehouse's results. -/
def Hw.ghBytes (h : Hw) : List Byte :=
  let g := h.gh
  let flags := b2n g.ran + 2 * b2n g.err + 4 * b2n h.testprintEn + 8 * b2n (h.rd h.leadDie A.cal_state 4 == 1)
  leBytes 1 h.ghState ++ leBytes 1 flags ++ [0, 0] ++ leBytes 4 h.ghFired ++ leBytes 4 g.measured ++
    leBytes 4 (ofSigned 64 g.x0 % 2 ^ 32) ++
    (List.range 8).flatMap fun b => leBytes 2 (satNat 0xFFFF (g.missing.getD b 0)) ++ leInt 4 (g.ey.getD b 0) ++
      leInt 4 (g.ex.getD b 0) ++ (List.range 3).flatMap fun i => leBytes 2 (g.abs.getD (3 * b + i) 0)

/-- GH_STATUS (R530). -/
def execGhStatus (h : Hdr) (s : State) : Host.Outcome State Fault Refusal :=
  s.command h 0x0F03 (opObj 0x0F03 0) fun _ _ hw => (⟨.ok, hw.ghBytes⟩, hw)

end Sys2Proof.Machine
end

