-- ==== Sys2Proof/Machine/Motion.lean ====
section
/-!
DEFINITION. What moves the web and the press handshake (spec/04_web_position.md, spec/05_fire_timing.md R166): each event of an
encoder or of another die's position unit, and what follows where it has published a pair.
-/
namespace Sys2Proof.Machine

/-- What follows a pair of a die published since `before`: stretch windows (R132), Gatehouse (R527), slots of faulted ports
(R200), the line engine (R147), colour hold's schedule (R366). -/
def Hw.afterPair (h : Hw) (d : Nat) (before : Pair) : Hw :=
  if (h.pos d).newest.seq = before.seq then h
  else (((((h.stretchLocal d before).ghPair d).faultPass d).lePair d).chPair d).hostedCheck

/-- An effect on a die's position unit, and what follows the pair it may publish. -/
def Hw.motionOn (h : Hw) (d : Nat) (f : Hw → Hw) : Hw := (f h).afterPair d (h.pos d).newest

/-- ENC_EDGE (R110, R111, R117, R128): the levels of A and B of a channel at TB1 time `t`. -/
def execEncEdge (die ch : Nat) (a b : Bool) (t : Nat) (s : State) : Host.Outcome State Fault Refusal :=
  s.onUnit die ch 2 fun _ h =>
    let h := h.until die t
    h.motionOn die fun h => h.encEdge die ch a b (h.tb die 1)

/-- ENC_LOS_SET (R112). -/
def execEncLosSet (die ch pin t : Nat) (s : State) : Host.Outcome State Fault Refusal :=
  s.onUnit die ch 2 fun _ h =>
    let h := h.until die t
    h.motionOn die fun h => h.losSet die ch pin

/-- ENC_LOS_CLEAR (R112). -/
def execEncLosClear (die ch t : Nat) (s : State) : Host.Outcome State Fault Refusal :=
  s.onUnit die ch 2 fun _ h =>
    let h := h.until die t
    h.motionOn die fun h => h.losClear die ch

/-- INDEX_PULSE (R114 to R116). -/
def execIndexPulse (die ch t : Nat) (s : State) : Host.Outcome State Fault Refusal :=
  s.onUnit die ch 2 fun _ h =>
    let h := h.until die t
    h.motionOn die fun h => h.indexPulse die ch (h.tb die 1)

/-- ABS_WORD_COMPLETE (R118 to R122). -/
def execAbsWordComplete (die ch : Nat) (ack : Bool) (word : Nat) (s : State) : Host.Outcome State Fault Refusal :=
  s.onUnit die ch 2 fun _ h => h.motionOn die fun h => h.absComplete die ch ack word

/-- ENC_MAG (R123). -/
def execEncMag (die ch input : Nat) (rising : Bool) (t : Nat) (s : State) : Host.Outcome State Fault Refusal :=
  s.onUnit die ch 2 fun _ h =>
    let h := h.until die t
    h.motionOn die fun h => h.encMag die ch input rising (h.tb die 1)

/-- STILL_TIMEOUT (R131). -/
def execStillTimeout (die ch : Nat) (s : State) : Host.Outcome State Fault Refusal :=
  s.onUnit die ch 2 fun _ h => h.motionOn die fun h => h.stillTimeout die ch

/-- PERGOLA_PAIR_RECEIVE (R30, R132, R134): the newest pair of die `src` reaches die `die`. -/
def execPergolaPairReceive (die src : Nat) (s : State) : Host.Outcome State Fault Refusal :=
  s.onUnit die src s.hw.dies.length fun _ h => h.motionOn die fun h => h.pairReceive die src

/-- POS_SET (R126): the pair that it publishes answers it. -/
def execPosSet (h : Hdr) (what : Nat) (value : Int) (s : State) : Host.Outcome State Fault Refusal :=
  s.command h 0x0201 (opObj 0x0201 0) fun _ d hw =>
    if what = 0 ∨ 4 ≤ what then refuse .range hw
    else if hw.printing d ∨ (hw.posCh d).isNone then refuse .state hw
    else
      let hw := hw.motionOn d fun h => h.posSet d what value
      (⟨.ok, (hw.pos d).newest.bytes⟩, hw)

/-- PRESS_RUN_ACCEPT (R155, R166, R523, R527). -/
def execPressRunAccept (level : Bool) (s : State) : Host.Outcome State Fault Refusal :=
  s.onPkg fun _ h =>
    let h := h.pressRun level
    if level then h else h.ghEnd.hostedCheck

/-- HEAD_PARKED_ACCEPT (R155, R166, R197, R526). -/
def execHeadParkedAccept (level : Bool) (s : State) : Host.Outcome State Fault Refusal :=
  s.onPkg fun _ h =>
    let rise := level && !h.hsIn.testBit 1
    let h := h.headParked level
    if rise ∧ h.hsIn.testBit 1 ∧ h.mode = .gatehouse then h.ghSpit else h

end Sys2Proof.Machine
end

