-- ==== Sys2Proof/Machine/Firmware.lean ====
section
/-!
DEFINITION. The system commands of spec/02_mailbox_interface.md that read the package's identity and state, the behaviour level
(R81), the fate of deferred commands (R65, R68), firmware update sessions (R69 to R71, R519), and the status block (R42).
-/
namespace Sys2Proof.Machine

/-! ### Identity and state -/

/-- The ordering code of the package of `State.reset`, 12 ASCII characters (R2; assumption log 1). -/
def orderCode : List Byte := [0x44, 0x4B, 0x47, 0x38, 0x2D, 0x31, 0x36, 0x49, 0, 0, 0, 0]

/-- The firmware version in force (`sb_fw_ver`); 0 while no image runs. -/
def Hw.fwVer (h : Hw) : Nat :=
  match h.fwBooted with
  | some s => (h.fwSlots.getD s FwSlot.blank).ver % 2 ^ 32
  | none => 0

/-- The firmware image running (`sb_fw_slot`). -/
def Hw.fwSlotNo (h : Hw) : Nat := h.fwBooted.getD 0

/-- ID_READ: the identity of the package and of each die (R521). -/
def execIdRead (h : Hdr) (s : State) : Host.Outcome State Fault Refusal :=
  s.command h 0x0001 (opObj 0x0001 0) fun _ _ hw =>
    (⟨.ok, leBytes 8 Config.serial ++ orderCode ++ wordBytes [hw.bl * 2 ^ 16 + hw.n * 2 ^ 8 + hw.leadDie] ++
      (List.range hw.n).flatMap fun d => leBytes 8 (Config.lot d) ++
        leBytes 1 (Config.wafer d) ++ leBytes 1 (Config.dieX d) ++ leBytes 1 (Config.dieY d) ++
        leBytes 1 (Config.stepLetter d) ++ leBytes 4 0⟩, hw)

/-- The dies that run, as a mask. -/
def Hw.runMask (h : Hw) : Nat := (((List.range h.n).filter fun d => (h.die d).up).map (2 ^ ·)).sum

/-- SYS_STATE: mode, lead die, level, slot, version, masks, TB1 and the newest event number (R543). -/
def execSysState (h : Hdr) (s : State) : Host.Outcome State Fault Refusal :=
  s.command h 0x0002 (opObj 0x0002 0) fun _ d hw =>
    (.words ([hw.fwSlotNo * 2 ^ 24 + hw.bl * 2 ^ 16 + hw.leadDie * 2 ^ 8 + hw.mode.code, hw.fwVer,
      hw.faultMask * 2 ^ 8 + hw.runMask] ++ words64 (hw.tb d 1) ++ words64 (hw.evtNext - 1)), hw)

/-- BL_SET (R81, R515): recorded in NV for the next boot; refused while strap BL_SEL forces BL1 or FW_WP protects. -/
def execBlSet (h : Hdr) (level : Nat) (s : State) : Host.Outcome State Fault Refusal :=
  s.command h 0x0004 (opObj 0x0004 0) fun _ d hw =>
    if level ≠ 1 ∧ level ≠ 2 then refuse .range hw
    else if bit (hw.rd d A.straps 0) 0 ∨ bit (hw.rd d A.straps 0) 3 then refuse .state hw
    else if !hw.nvOk then refuse .nvTemp hw
    else
      let r := (hw.wr 0 A.bl_nv 0 level).defer d h false { kind := 4 }
      (.deferred { kind := 4 }, r.2)

/-- The record of a deferred command by tag and source: the die's own, and on the lead die those of the package (R68). -/
def Hw.deferredOf (h : Hw) (d tag : Nat) (src : Source) : Option Deferred :=
  let mine := (h.die d).mbx.deferred ++ (if d = h.leadDie then h.pkg.deferred else [])
  (mine.filter fun r => r.tag == tag && decide (r.src = src)).foldl (fun (b : Option Deferred) r => match b with
    | some x => if x.id < r.id then some r else b
    | none => some r) none

/-- CMD_STATUS (R65, R68): fate and effect record as they stand. -/
def execCmdStatus (h : Hdr) (tag : Nat) (s : State) : Host.Outcome State Fault Refusal :=
  s.command h 0x0005 (opObj 0x0005 0) fun _ d hw =>
    match hw.deferredOf d tag (srcOf h.origin) with
    | some r => (⟨.ok, wordBytes [r.fate] ++ r.eff.bytes⟩, hw)
    | none => refuse .range hw

/-! ### FW_UPDATE (R69 to R71) -/

/-- A change of the image slots; while NV writing is forbidden NV keeps what it holds (R517). -/
def Hw.onSlots (h : Hw) (f : List FwSlot → List FwSlot) : Hw :=
  { h with fwKept := if h.nvOk then none else some (h.fwKept.getD h.fwSlots), fwSlots := f h.fwSlots }

/-- The work of an FW_UPDATE command in its session: another source's session refuses it (R69). -/
def fwCommand (q : Hdr) (s : State) (body : Nat → Hw → Reply × Hw) : Host.Outcome State Fault Refusal :=
  s.command q 0x0F20 (opObj 0x0F20 0) fun _ d hw =>
    if hw.fw.any fun f => decide (f.src ≠ srcOf q.origin) then refuse .state hw else body d hw

/-- FW_BEGIN (R69, R515): a session opens and the inactive slot is erased. -/
def execFwBegin (h : Hdr) (size : Nat) (s : State) : Host.Outcome State Fault Refusal :=
  fwCommand h s fun d hw =>
    if bit (hw.rd d A.straps 0) 3 then refuse .state hw
    else if 2 ^ 24 < size then refuse .noSpace hw
    else if !hw.nvOk then refuse .nvTemp hw
    else
      let f : FwSession := { src := srcOf h.origin, size := size, received := 0, lastOff := 0, lastLen := 0, data := [], ended := false }
      okWith (({ hw with fw := some f }).onSlots fun l => l.set hw.fwTarget FwSlot.blank)

/-- FW_DATA (R70). -/
def execFwData (h : Hdr) (off : Nat) (data : List Byte) (s : State) : Host.Outcome State Fault Refusal :=
  fwCommand h s fun _ hw =>
    match hw.fw with
    | none => refuse .state hw
    | some f =>
      let n := data.length
      if n = 0 ∨ 228 < n then refuse .range hw
      else if f.ended then refuse .state hw
      else if f.lastLen = n ∧ f.lastOff = off then okWith hw
      else if off ≠ f.received ∨ f.size < off + n then refuse .range hw
      else if !hw.nvOk then refuse .nvTemp hw
      else okWith { hw with fw := some { f with received := off + n, lastOff := off, lastLen := n, data := f.data ++ data } }

/-- FW_END (R71, R517): a sound image that lists the level in force leaves the slot VALID, any other leaves it invalid. -/
def execFwEnd (h : Hdr) (s : State) : Host.Outcome State Fault Refusal :=
  fwCommand h s fun _ hw =>
    match hw.fw with
    | none => refuse .state hw
    | some f =>
      if f.ended then refuse .state hw
      else if !hw.nvOk then refuse .nvTemp hw
      else if f.received ≠ f.size ∨ !Config.imageCheck f.data then (.err .check, { hw with fw := none })
      else if !bit (Config.imageLevels f.data) hw.bl then (.err .state, { hw with fw := none })
      else okWith (({ hw with fw := some { f with ended := true } }).onSlots fun l => l.set hw.fwTarget
        ⟨.valid, f.data, Config.imageVersion f.data, 0, false, true, Config.imageLevels f.data⟩)

/-- FW_ACTIVATE (R71, R517): the inactive slot, VALID, is PENDING for the next boot; the session ends. -/
def execFwActivate (h : Hdr) (s : State) : Host.Outcome State Fault Refusal :=
  fwCommand h s fun d hw =>
    if (hw.fwSlots.getD hw.fwTarget FwSlot.blank).st ≠ .valid then refuse .state hw
    else if !hw.nvOk then refuse .nvTemp hw
    else
      let r := (({ hw with fw := none }).onSlots fun l =>
        l.modify hw.fwTarget fun x => { x with st := .pending, tried := false, fails := 0 }).defer d h true { kind := 4 }
      (.deferred { kind := 4 }, r.2)

/-- FW_ABORT (R69): the session's slot is left invalid. -/
def execFwAbort (h : Hdr) (s : State) : Host.Outcome State Fault Refusal :=
  fwCommand h s fun _ hw => if hw.fw.isNone then refuse .state hw else okWith hw.fwAbort

/-- FW_SESSION_TIMEOUT (R69): no command for 60 s aborts the session. -/
def execFwSessionTimeout (s : State) : Host.Outcome State Fault Refusal := s.onPkg fun _ h => h.fwAbort

/-! ### The status block (R42, R43, R530) -/

/-- STATUS_BLOCK_UPDATE (R42): a die's Rildin updates its status block; the generation is even once it is done. -/
def execStatusBlockUpdate (die : Nat) (s : State) : Host.Outcome State Fault Refusal :=
  s.onDie die fun _ h =>
    if !(h.die die).up then h
    else h.onDie die fun D => { D with sb := {
      gen := (D.sb.gen + 2) % 2 ^ 32, heartbeat := (D.sb.heartbeat + 1) % 2 ^ 32, mode := h.mode.code, lead := h.leadDie,
      tb1 := h.tb die 1, evtSeq := h.evtNext - 1, busy := D.mbx.busy, gh := h.ghBytes } }

/-- The 4 KiB of a die's status block (the status block table, R530). -/
def Hw.sbBytes (h : Hw) (d : Nat) : List Byte :=
  let b := (h.die d).sb
  let head := leBytes 4 0x4B524344 ++ leBytes 4 b.gen ++ leBytes 2 1 ++ leBytes 1 h.bl ++ leBytes 1 (Config.stepLetter d) ++
    leBytes 1 b.mode ++ leBytes 1 b.lead ++ leBytes 1 d ++ leBytes 1 h.fwSlotNo ++ leBytes 4 h.fwVer ++ leBytes 4 b.heartbeat ++
    leBytes 8 b.tb1 ++ leBytes 8 b.evtSeq ++ leBytes 2 b.busy
  head ++ List.replicate (0x100 - head.length) 0 ++ b.gh ++ List.replicate (0xF00 - b.gh.length) 0

end Sys2Proof.Machine
end

