-- ==== Sys2Proof/Machine/Frames.lean ====
section
/-!
DEFINITION. The frame (spec/02_mailbox_interface.md R44 to R48, R60) and the request tables of every command card: what a
frame needs, the longest reply it can bring, the command that it spells.
-/
namespace Sys2Proof.Machine

/-- What a request and its variant fix (R47): payload bytes that it needs, the longest reply, and the command it spells
(none where a field that it reads lies outside its range, R11). -/
structure Variant where
  need : Nat
  reply : Nat
  cmd : Option Instr

/-- A request without a meaning of its own: a field outside its range. -/
def Variant.bad (need : Nat) : Variant := ⟨need, 0, none⟩

/-- A request of `need` bytes, spelled if its reserved fields are 0. -/
def spell (need reply : Nat) (ok : Bool) (i : Instr) : Variant := ⟨need, reply, if ok then some i else none⟩

/-- Bits of a word of the payload. -/
def fld (p : List Byte) (n hi lo : Nat) : Nat := bits (wordAt p n) hi lo

/-- Reserved bits of a word of the payload are 0 (R11). -/
def rz (p : List Byte) (n hi lo : Nat) : Bool := fld p n hi lo == 0

/-- A 64-bit field in words `n` and `n + 1`. -/
def wide (p : List Byte) (n : Nat) : Nat := wordAt p n + 2 ^ 32 * wordAt p (n + 1)

/-- A signed 64-bit field. -/
def wideInt (p : List Byte) (n : Nat) : Int := toSigned 64 (wide p n)

/-- The object that words 0 and 1 name; a lamp driver's node turns instances 0 to 3 into its channels (R433). -/
def objRefOf (p : List Byte) (lamp : Option Nat) : ObjRef :=
  ⟨fld p 0 7 0, fld p 0 31 16 + (if fld p 0 7 0 = 0x11 ∧ fld p 0 31 16 < 4 then lamp.getD 0 else 0), fld p 1 15 0⟩

/-- The longest reply of a write to an attribute: the effect record where it is line-effective (R47). -/
def setReply (o : ObjRef) : Nat := if (attrRow? o.cls o.inst o.attr).any (·.lineEff) then 16 else 0

/-- The line that words 4 and 5 name, if AT_LINE is set. -/
def lineOf (p : List Byte) : Option LineRef := if fld p 1 16 16 = 1 then some ⟨fld p 5 7 0, wordAt p 4⟩ else none

/-- System, object and firmware commands (chapter 02). -/
def sysFrame (h : Hw) (q : Hdr) (lamp : Option Nat) (op : Nat) (p : List Byte) : Variant :=
  let o := objRefOf p lamp
  match op with
  | 0x0001 => spell 0 (24 + 16 * h.n) true (.idRead q)
  | 0x0002 => spell 0 28 true (.sysState q)
  | 0x0004 => spell 4 16 (rz p 0 31 8) (.blSet q (fld p 0 7 0))
  | 0x0005 => spell 4 20 (rz p 0 31 16) (.cmdStatus q (fld p 0 15 0))
  | 0x0010 => spell 8 12 (rz p 0 15 8 && rz p 1 31 16) (.objGet q o)
  | 0x0011 =>
    let l := lineOf p
    spell (if l.isSome then 24 else 16) (setReply o) (rz p 0 15 8 && rz p 1 31 17 && (l.isNone || rz p 5 31 8))
      (.objSet q o (wide p 2) l)
  | 0x0012 => spell 16 (fld p 3 7 0) (rz p 0 15 8 && rz p 1 31 16 && rz p 3 31 8) (.objGetBlock q o (wordAt p 2) (fld p 3 7 0))
  | 0x0013 =>
    let l := lineOf p
    let n := fld p 3 7 0
    let commit := fld p 1 17 17 == 1
    spell (if n = 0 ∧ l.isNone then 16 else 24 + n) (if commit then setReply o else 0)
      (rz p 0 15 8 && rz p 1 31 18 && rz p 3 31 8 && (l.isNone || rz p 5 31 8))
      (.objSetBlock q o commit l (wordAt p 2) ((p.drop 24).take n))
  | 0x0F20 =>
    let ok := rz p 0 31 8
    match fld p 0 7 0 with
    | 1 => spell 8 0 ok (.fwBegin q (wordAt p 1))
    | 2 => spell (12 + fld p 2 7 0) 0 (ok && rz p 2 31 8) (.fwData q (wordAt p 1) ((p.drop 12).take (fld p 2 7 0)))
    | 3 => spell 4 0 ok (.fwEnd q)
    | 4 => spell 4 16 ok (.fwActivate q)
    | 5 => spell 4 0 ok (.fwAbort q)
    | _ => .bad 4
  | _ => .bad 0

/-- Queues, position, line engine and head ports (chapters 03 to 06). -/
def webFrame (q : Hdr) (op : Nat) (p : List Byte) : Variant :=
  let opc := fld p 0 31 24
  match op with
  | 0x0101 => spell 8 0 (rz p 0 31 16 && rz p 1 31 16) (.queueInvalidate q (fld p 0 15 0) (fld p 1 15 0))
  | 0x0102 =>
    let ok := rz p 0 23 16 && rz p 1 31 16
    match opc with
    | 1 => spell 8 4 ok (.queueEnable q (fld p 0 15 0) (fld p 1 15 0) [])
    | 2 => spell 8 4 ok (.queueDisable q (fld p 0 15 0) (fld p 1 15 0))
    | 3 => spell 8 4 ok (.queueFlush q (fld p 0 15 0) (fld p 1 15 0))
    | _ => .bad 8
  | 0x0103 => spell 4 24 (rz p 0 31 16) (.queueStatus q (fld p 0 15 0))
  | 0x0201 => spell 12 40 (rz p 0 31 8) (.posSet q (fld p 0 7 0) (wideInt p 1))
  | 0x0202 => spell 0 44 true (.posLatch q)
  | 0x0203 =>
    match opc with
    | 1 => spell 16 4 (rz p 0 15 8) (.cmpArm q (fld p 0 3 0) (fld p 0 23 16) (fld p 0 7 7 == 1) (fld p 0 6 6 == 1)
        (fld p 0 5 5 == 1) (fld p 0 4 4 == 1) (wideInt p 1) (wordAt p 3))
    | 2 => spell 4 4 (rz p 0 15 8) (.cmpDisarm q (fld p 0 3 0))
    | _ => .bad 4
  | 0x0301 =>
    match opc with
    | 1 => spell 4 0 (rz p 0 23 5) (.leResume q)
    | 2 => spell 4 0 (rz p 0 23 5) (.hsForce q (fld p 0 4 0))
    | 3 => spell 4 0 (rz p 0 23 5) (.hsRelease q)
    | _ => .bad 4
  | 0x0302 => spell 0 28 true (.leStatus q)
  | 0x0401 =>
    let ok := rz p 0 23 0 && rz p 1 31 24
    match opc with
    | 1 => spell 8 4 ok (.hpEnable q (fld p 1 23 0))
    | 2 => spell 8 4 ok (.hpDisable q (fld p 1 23 0))
    | 3 => spell 8 4 ok (.hpRestart q (fld p 1 23 0) 0)
    | _ => .bad 8
  | 0x0402 =>
    let cmd := fld p 0 7 0
    if cmd < 0x80 then spell 4 36 (rz p 0 31 24) (.hpQuery q (fld p 0 23 16) (fld p 0 15 8) cmd 0)
    else spell 8 36 (rz p 0 31 24 && rz p 1 31 8) (.hpQuery q (fld p 0 23 16) (fld p 0 15 8) cmd (fld p 1 7 0))
  | 0x0403 =>
    let ok := rz p 0 23 8 && rz p 1 31 24
    match opc with
    | 1 => spell 12 0 ok (.hpSpitParked q (fld p 1 23 0) (wordAt p 2))
    | 2 => spell 8 0 ok (.hpSpitStop q (fld p 1 23 0))
    | 3 => spell 16 16 (ok && rz p 3 31 16) (.hpSpitWeb q (fld p 0 7 0) (fld p 1 23 0) (wordAt p 2) (fld p 3 15 0))
    | _ => .bad 8
  | _ => .bad 0

/-- Pipeline, codec and contexts (chapters 07 to 09). -/
def printFrame (q : Hdr) (op : Nat) (p : List Byte) : Variant :=
  let opc := fld p 0 31 24
  match op with
  | 0x0501 =>
    match opc with
    | 1 => spell 4 16 (rz p 0 23 8) (.tbBuild q (fld p 0 7 0))
    | 2 => spell 4 0 (rz p 0 23 8) (.tbBuildAbort q (fld p 0 7 0))
    | _ => .bad 4
  | 0x0502 => spell 8 16 (rz p 0 31 16) (.tbSwap q (fld p 0 15 8) (fld p 0 7 0) (wordAt p 1))
  | 0x0503 => spell 4 16 (rz p 0 31 8) (.plStatus q (fld p 0 7 0))
  | 0x0601 => spell 28 16 (rz p 0 31 24 && rz p 1 31 16 && rz p 3 31 8 && rz p 6 31 8)
      (.codecVerify q (fld p 0 7 0) (fld p 0 23 16) (fld p 0 15 8) (fld p 1 15 0) (wordAt p 2 + 2 ^ 32 * fld p 3 7 0)
        (wordAt p 4) (wordAt p 5 + 2 ^ 32 * fld p 6 7 0))
  | 0x0602 =>
    let ok := rz p 0 7 0 && rz p 1 31 16
    match opc with
    | 1 => spell 36 16 (ok && rz p 3 31 8) (.codecCompressSubmit q (fld p 0 23 16) (fld p 0 15 8) (fld p 1 15 0)
        (wordAt p 2 + 2 ^ 32 * fld p 3 7 0) (wordAt p 4) (wordAt p 5) (wordAt p 6) (wordAt p 7) (fld p 8 31 16) (fld p 8 15 0))
    | 2 => spell 8 0 ok (.codecCompressAbort q (fld p 0 23 16) (fld p 1 15 0))
    | _ => .bad 8
  | 0x0701 => spell 8 0 (rz p 0 31 16 && rz p 1 31 16) (.ctxInvalidate q (fld p 0 15 0) (fld p 1 15 0))
  | 0x0702 =>
    let c := fld p 0 7 0
    match opc, fld p 0 23 16 with
    | 1, _ => spell 4 0 true (.ctxOpen q c false)
    | 2, 0 => spell 12 0 true (.ctxStartAbs q c (wideInt p 1))
    | 2, 1 => spell 4 16 true (.ctxStartAfter q c (fld p 0 15 8))
    | 3, _ => spell 4 0 true (.ctxStop q c)
    | 4, _ => spell 4 0 true (.ctxClose q c)
    | 5, _ => spell 4 0 true (.ctxAbort q c)
    | _, _ => .bad 4
  | 0x0703 => spell 0 28 true (.runwayStatus q)
  | _ => .bad 0

/-- Belvedere, illumination and colour hold (chapters 10 to 12). -/
def viewFrame (q : Hdr) (op : Nat) (p : List Byte) : Variant :=
  let opc := fld p 0 31 24
  match op with
  | 0x0801 =>
    let ok := rz p 0 23 8
    let c := fld p 0 7 0
    match opc with
    | 1 => spell 4 0 ok (.camWake q c)
    | 2 => spell 4 0 ok (.camEnable q c)
    | 3 => spell 4 0 ok (.camDisable q c)
    | 4 => spell 4 0 ok (.camSleep q c)
    | 5 => spell 4 0 ok (.camSnap q c)
    | 6 => spell 12 0 ok (.camRelease q c (wide p 1))
    | _ => .bad 4
  | 0x0802 => spell 8 16 (rz p 0 31 16) (.camApply q (fld p 0 7 0) (fld p 0 15 8) (wordAt p 1))
  | 0x0803 =>
    let n := fld p 0 23 16
    match opc with
    | 1 => spell (8 + n) 4 (rz p 1 31 16) (.camI2c q false (fld p 0 7 0) (fld p 0 15 8) (fld p 1 15 0) n ((p.drop 8).take n))
    | 2 => spell 8 (4 + n) (rz p 1 31 16) (.camI2c q true (fld p 0 7 0) (fld p 0 15 8) (fld p 1 15 0) n [])
    | _ => .bad 8
  | 0x0901 => spell 8 0 (rz p 0 31 16 && rz p 1 31 16) (.lampInvalidate q (fld p 0 15 0) (fld p 1 15 0))
  | 0x0902 =>
    match opc with
    | 1 => spell 4 16 (rz p 0 23 4) (.chainEnable q (fld p 0 3 0))
    | 2 => spell 4 0 (rz p 0 23 4) (.chainDisable q (fld p 0 3 0))
    | 3 => spell 4 16 (rz p 0 23 4) (.chainEnum q (fld p 0 3 0))
    | _ => .bad 4
  | 0x0903 =>
    let ok := rz p 0 19 18 && rz p 1 31 16
    match opc with
    | 1 => spell 8 0 ok (.lampCtrlClear q (fld p 0 17 16) (fld p 0 15 0) (fld p 1 15 0))
    | 2 => spell 8 0 ok (.lampCtrlDiag q (fld p 0 17 16) (fld p 0 23 20) (fld p 0 15 0) (fld p 1 15 0))
    | _ => .bad 8
  | 0x0904 =>
    match opc with
    | 1 => spell 4 0 (rz p 0 23 0) (.mxStart q)
    | 2 => spell 4 0 (rz p 0 23 0) (.mxStop q)
    | _ => .bad 4
  | 0x0A01 =>
    let ok := rz p 0 23 16
    let m := fld p 0 7 0
    match opc with
    | 1 => spell 4 0 ok (.chStart q (fld p 0 15 8) m)
    | 2 => spell 4 0 ok (.chStop q m)
    | 3 => spell 4 0 ok (.chFreeze q m)
    | 4 => spell 4 0 ok (.chResume q m)
    | 5 => spell 4 0 ok (.chCaptureRef q m)
    | _ => .bad 4
  | 0x0A02 => spell 4 16 (rz p 0 31 8) (.chStatus q (fld p 0 7 0))
  | _ => .bad 0

/-- Time, links, thermal, fail-over and power (chapters 13 to 17): `target` is the die addressed, which the lead die stands in
for when its MGMT is off (R533). -/
def packageFrame (h : Hw) (q : Hdr) (target op : Nat) (p : List Byte) : Variant :=
  let opc := fld p 0 31 24
  match op with
  | 0x0B01 => spell 0 36 true (.tbRead q)
  | 0x0B02 => spell 12 8 (rz p 0 31 8) (.tbStep q (fld p 0 7 0) (wideInt p 1))
  | 0x0B03 =>
    let out := fld p 0 7 0
    let ok := rz p 0 23 8
    match opc with
    | 1 => spell 12 4 ok (.poArm q 1 out (wide p 1) 0 0)
    | 2 => spell 24 4 (ok && rz p 4 15 0) (.poArm q 2 out (wide p 1) (wordAt p 3 * 2 ^ 16 + fld p 4 31 16) (wordAt p 5))
    | m => spell 4 4 ok (.poArm q m out 0 0 0)
  | 0x0C01 =>
    match opc with
    | 1 => spell 4 0 (rz p 0 23 0) (.itvEnable q)
    | 2 => spell 4 0 (rz p 0 23 0) (.itvDisable q)
    | 3 => spell 4 0 (rz p 0 23 0) (.itvRetrain q)
    | _ => .bad 4
  | 0x0C02 =>
    match opc with
    | 1 => spell 4 40 (rz p 0 23 8) (.itvEyeRead q (fld p 0 7 0))
    | 2 => spell 4 (if h.n = 8 then 0 else 16) (rz p 0 23 8) (.itvEyeMeasure q (fld p 0 7 0))
    | _ => .bad 4
  | 0x0C03 =>
    match opc with
    | 1 => spell 4 16 (rz p 0 23 0) (.sysEnumFresh q)
    | 2 => spell 4 16 (rz p 0 23 0) (.sysEnumKeep q)
    | _ => .bad 4
  | 0x0C04 => spell 4 16 (rz p 0 31 18) (.sysNode q (fld p 0 17 0))
  | 0x0D01 =>
    let m := fld p 0 4 0
    match opc with
    | 1 => spell 4 16 (rz p 0 23 5) (.calRun q m)
    | 2 => spell 4 16 (rz p 0 23 5) (.calRunGap q m)
    | 3 => spell 4 (if h.n = 8 then 0 else 16) (rz p 0 23 5) (.calQuality q m)
    | 4 => spell 4 0 (rz p 0 23 5) (.calAbort q m)
    | _ => .bad 4
  | 0x0D02 => spell 0 16 true (.thermStatus q)
  | 0x0E01 =>
    let ok := rz p 0 23 8
    match opc with
    | 1 => spell 4 16 ok (.leadMove q)
    | 2 => spell 4 16 ok (.leadCtrlRepair q (fld p 0 7 0))
    | 3 => spell 4 16 ok (.leadCheckpoint q)
    | 4 => spell 4 0 ok (.leadAck q)
    | _ => .bad 4
  | 0x0E02 => spell 12 (16 + 32 * fld p 2 7 0) (rz p 2 31 8) (.evtRead q (wide p 0) (fld p 2 7 0))
  | 0x0E03 =>
    match opc with
    | 1 => spell 8 0 (rz p 0 23 16) (.evtLimitSet q (fld p 0 15 0) (fld p 1 31 16) (fld p 1 15 0))
    | 2 => spell 4 4 (rz p 0 23 16) (.evtLimitGet q (fld p 0 15 0))
    | _ => .bad 4
  | 0x0F01 =>
    let ok := rz p 0 23 16 && rz p 0 7 0
    match opc with
    | 1 => spell 4 16 ok (.domainOn q target (fld p 0 15 8))
    | 2 => spell 4 0 ok (.domainOff q target (fld p 0 15 8))
    | 3 => spell 4 16 ok (.dieReset q target)
    | 4 => spell 4 0 ok (.pkgReset q)
    | 5 => spell 4 16 ok (.tripClear q target)
    | _ => .bad 4
  | 0x0F02 =>
    match fld p 0 7 0 with
    | 1 => spell 4 0 (rz p 0 31 8) (.modeSetGatehouse q)
    | 2 => spell 4 16 (rz p 0 31 8) (.modeSetHosted q)
    | _ => .bad 4
  | 0x0F03 => spell 0 144 true (.ghStatus q)
  | _ => .bad 0

/-- The request tables of every card. -/
def frameVariant (h : Hw) (q : Hdr) (target : Nat) (lamp : Option Nat) (op : Nat) (p : List Byte) : Variant :=
  if op < 0x0100 ∨ op = 0x0F20 then sysFrame h q lamp op p
  else if op < 0x0500 then webFrame q op p
  else if op < 0x0800 then printFrame q op p
  else if op < 0x0B00 then viewFrame q op p
  else packageFrame h q target op p

/-! ### Header, checks and routes -/

/-- The header's fields (R44, R45). -/
def frTag (b : List Byte) : Nat := bits (wordAt b 0) 31 16
def frOp (b : List Byte) : Nat := bits (wordAt b 0) 15 0
def frTgt (b : List Byte) : Nat := bits (wordAt b 1) 27 26
def frQ62 (b : List Byte) : Bool := bit (wordAt b 1) 25
def frIrq (b : List Byte) : Bool := bit (wordAt b 1) 24
def frNode (b : List Byte) : Nat := bits (wordAt b 1) 17 0
def frMax (b : List Byte) : Nat := bits (wordAt b 2) 31 16
def frLen (b : List Byte) : Nat := bits (wordAt b 2) 15 0

/-- The header with status and reply length, and the reply payload (R44). -/
def replyFrame (b : List Byte) (r : Reply) : List Byte :=
  b.take 12 ++ wordBytes [r.status.code * 2 ^ 24 + r.data.length] ++ r.data

/-- Where a frame goes (R18, R45, R434). -/
inductive Dest where
  /-- a die of this package, with the first Lamp Table entry of the driver that the node names -/
  | die (d : Nat) (lamp : Option Nat)
  /-- another package, over a link -/
  | link (l : Nat)
  /-- the lead role is vacant -/
  | vacant
  | unreachable
  deriving DecidableEq, Repr

/-- The link that leads to a node address: down the link whose range holds it, otherwise up toward the master (R434). -/
def Hw.linkTo (h : Hw) (node : Nat) : Option Nat :=
  let up := h.rd 0 A.upstream 0
  match h.pkg.routes.find? fun r => r.lo ≤ node && node ≤ r.hi && r.link != up with
  | some r => some r.link
  | none => if h.rd 0 A.sys_role 0 = 2 ∧ up ≠ 0xFF then some up else none

/-- The die that stands for the package (R18). -/
def Hw.leadDest (h : Hw) (d : Nat) : Dest :=
  match h.lead with
  | some l => .die l none
  | none => if h.mode = .boot then .die d none else .vacant

/-- Where a node address lies: in this package, or over a link. -/
def Hw.nodeDest (h : Hw) (d node : Nat) : Dest :=
  match h.pkg.nodes.find? fun x => x.addr == node && x.serial == Config.serial && x.kind != 4 with
  | some x =>
    match x.kind with
    | 1 => h.leadDest d
    | 2 => .die x.die none
    | _ => .die x.die (some ((x.chain * 512 + x.driver) * 4))
  | none =>
    match h.linkTo node with
    | some l => .link l
    | none => .unreachable

/-- Where a frame that die `d` received goes. -/
def Hw.frameDest (h : Hw) (d : Nat) (b : List Byte) : Dest :=
  match frTgt b with
  | 0 => .die d none
  | 1 => h.leadDest d
  | _ => h.nodeDest d (frNode b)

/-- What the frame check and the route make of a frame (R47, R48, R60, R78): refused, with whether CONFIG_CHANGE takes it;
forwarded; or a command for a die of this package. -/
inductive Parsed where
  | refused (st : Status)
  | forward (l : Nat)
  | command (die : Nat) (obj : ObjRef) (i : Instr)
  deriving DecidableEq, Repr

/-- The object address of a frame's CONFIG_CHANGE entry when it is refused before execution (R571): that of an OBJ_SET or
OBJ_SET_BLOCK whose request holds it, otherwise the class of the opcode with instance 0. -/
def frameObj (b : List Byte) : ObjRef :=
  if (frOp b = 0x0011 ∨ frOp b = 0x0013) ∧ 8 ≤ frLen b then objRefOf (b.drop 16) none else opObj (frOp b) 0

/-- The frame that die `d` received from `src` checked and routed. -/
def Hw.parseFrame (h : Hw) (d : Nat) (o : Origin) (b : List Byte) : Parsed :=
  let op := frOp b
  let p := (b.drop 16).take (min 240 (frLen b))
  if !h.opKnown op || (h.mode == .boot && !([0x0001, 0x0002, 0x0F20] : List Nat).contains op) then .refused .badOpcode
  else if 240 < frLen b ∨ 240 < frMax b ∨ bits (wordAt b 1) 31 28 ≠ 0 ∨ bits (wordAt b 1) 23 18 ≠ 0 ∨ frTgt b = 3 then .refused .range
  else
    match h.frameDest d b with
    | .unreachable => .refused .nodeUnreachable
    | .vacant => .refused (if h.takeover.isSome then .busy else .state)
    | .link l => .forward l
    | .die t lamp =>
      let at_ := if op = 0x0F01 ∧ !h.on t domMGMT then h.lead.getD t else t
      let v := frameVariant h ⟨at_, o, frTag b⟩ t lamp op p
      let obj := objRefOf p none
      if p.length < v.need ∨ frMax b < v.reply then .refused .range
      else if lamp.isSome ∧ [0x0010, 0x0011, 0x0012, 0x0013].contains op ∧ ¬(obj.cls = 0x11 ∧ obj.inst < 4) then .refused .badObject
      else
        match v.cmd with
        | some i => .command at_ obj i
        | none => .refused .range

end Sys2Proof.Machine
end

