-- ==== Sys2Proof/Machine/Boot.lean ====
section
/-!
DEFINITION. Resets and boot (spec/17_power_reset_boot.md R504 to R521): what each reset clears and keeps, the choice of the image
slot, the steps of a boot, rail and clock faults. A boot is two rows: the one that starts it carries steps 1 to 7, BOOT_CONFIRM
steps 8 and 9 (assumption log 18).
-/
namespace Sys2Proof.Machine

/-- The code of a reset cause (R513). -/
def Cause.code : Cause → Nat
  | .por => 0 | .pin => 1 | .pkgCmd => 2 | .dieCmd => 3 | .rail => 4 | .clock => 5 | .bootFail => 6

/-! ### What a reset clears -/

/-- Registers of the package and of management processors that a package reset leaves: those of AO and NV; of the LEAD object
the figures of the Kennel in NV and the count of takeovers. -/
def keptByReset (k : RegKey) : Bool :=
  match k.cls with
  | 0x01 => k.id == 5
  | 0x06 | 0x13 | 0x18 | 0x1A => false
  | 0x14 => k.die != pkgDie
  | 0x1E => [0x0006, 0x0007, 0x0008, 0x0010].contains k.id
  | 0x1F => k.id != 7
  | _ => true

/-- Registers that a power-on reset leaves: those kept in NV (R513). -/
def keptByPor (k : RegKey) : Bool :=
  match k.cls with
  | 0x01 => k.id == 5
  | 0x1C => k.id == 0x000C
  | 0x1E => [0x0006, 0x0007, 0x0008, 0x0010].contains k.id
  | 0x1F => k.id == 0x000A
  | 0x20 => k.id == 4
  | 0x21 => true
  | _ => false

/-- A die's management processor in reset: its mailbox hardware, status block, staging and long work gone. -/
def Die.mgmtReset (d : Nat) (D : Die) : Die :=
  { D with mbx := Mbx.reset d, sb := StatusBlock.reset, erSel := 0, up := false, crit := none, pdWork := [],
           cals := D.cals.map fun C => { C with work := 0, id := none, retry := none } }

/-- Every domain of a die but AO loses its state at once (R505, R513). -/
def Hw.dieDown (h : Hw) (d : Nat) : Hw :=
  let h := offOrder.foldl (fun (h : Hw) b => h.lose d b) h
  let h := { h with stages := h.stages.filter fun s => s.key.die != d,
                    regs := h.regs.filter fun x => !(x.1.die == d && x.1.cls == 0x01) }
  ((h.wr d A.pd_on 0 1).wr d A.pd_busy 0 0).onDie d fun D => D.mgmtReset d

/-- The package's firmware state in reset: lead role, system, colour hold, sessions, Gatehouse, replies, the tunnels. -/
def Hw.pkgDown (h : Hw) : Hw :=
  let h := { h with regs := h.regs.filter fun x => keptByReset x.1, blks := h.blks.filter fun x => keptByReset x.1, stages := [],
                    replies := [], mode := .boot, lead := none, takeover := none, kennelWriting := none, kennelFailRun := 0,
                    kennelLateSeen := false, moving := none, ckptWork := none, repairWork := none, repairArmed := false,
                    safeFrom := .boot, pkg := PkgState.reset, fwBooted := none, bootWatch := false,
                    tunnels := List.replicate 16 {}, hsIn := 0, hsSeen := 0, ghRelease := false, hostedWait := [],
                    resetDue := none, gh := {} }
  (h.setLd 0 .faulted).setLd 1 .faulted

/-- The boot under way ends unconfirmed: one more unconfirmed boot of its slot (R517). -/
def Hw.unconfirmed (h : Hw) : Hw :=
  match h.bootWatch, h.fwBooted with
  | true, some i => h.onSlots fun l => l.modify i fun x => { x with fails := x.fails + 1 }
  | _, _ => h

/-- A package reset (R513): every domain but AO of every die, the handshake outputs low (R165); an update session is
aborted (R69). -/
def Hw.resetPkg (h : Hw) : Hw :=
  let h := ({ h with hsOn := false, hsForce := none }).showPins
  let h := h.unconfirmed.fwAbort
  ((List.range h.n).foldl (fun (h : Hw) d => h.dieDown d) h).pkgDown

/-- A power-on reset (R513, R494, R517): AO too is cleared; NV and fuses stay; event entries not programmed are lost. -/
def Hw.resetPor (h : Hw) : Hw :=
  let h := h.unconfirmed
  let h := { h with fwSlots := h.fwKept.getD h.fwSlots, fwKept := none, fw := none }
  let h := ((List.range h.n).foldl (fun (h : Hw) d => h.dieDown d) { h with hsOn := false, hsForce := none, hsPins := 0 }).pkgDown
  let dies := (List.range h.n).map fun d =>
    let D := h.die d
    { Die.reset d with ports := D.ports.map fun P => { ident := P.ident }, nvTables := D.nvTables,
                       cals := D.cals.map fun C => { stored := C.stored } }
  let h := { h with dies := dies, regs := h.regs.filter fun x => keptByPor x.1, blks := h.blks.filter fun x => keptByPor x.1,
                    ring := h.ring.filter fun e => e.seq ≤ h.evtDurable, evtNext := h.evtDurable + 1, faultMask := 0,
                    eps := [Endpoint.reset, Endpoint.reset], railFault := false, clkFault := false, porst := true, alive := 0 }
  h.erRegs

/-- PORST_L_LOW (R508, R513, R543): power-on reset, or the loss of VDD_AO. -/
def execPorstLLow (s : State) : Host.Outcome State Fault Refusal := s.onPkg fun _ h => h.resetPor

/-! ### Steps 1 to 7 -/

/-- The image slots in the order in which the boot ROM tries them (R517): PENDING once, ACTIVE, other VALID, an ACTIVE one that
three boots in a row have not confirmed. -/
def bootOrder (slots : List FwSlot) (bFirst : Bool) : List Nat :=
  let order := if bFirst then [1, 0] else [0, 1]
  let pick (p : FwSlot → Bool) := order.filter fun i => p (slots.getD i FwSlot.blank)
  pick (fun x => decide (x.st = .pending) && !x.tried) ++ pick (fun x => decide (x.st = .active) && x.fails < 3) ++
    pick (fun x => decide (x.st = .valid)) ++ pick (fun x => decide (x.st = .active) && 3 ≤ x.fails)

/-- The slot that boots at a level: its check word passes and it supports the level (R517). -/
def bootSlot (slots : List FwSlot) (bFirst : Bool) (bl : Nat) : Option Nat :=
  (bootOrder slots bFirst).find? fun i =>
    let x := slots.getD i FwSlot.blank
    x.sound && x.levels.testBit bl

/-- Whether a die answers and its trip latch lets it boot (R454, R513, R520). -/
def Hw.mayBoot (h : Hw) (d : Nat) : Bool := h.alive.testBit d && h.rd d A.trip_latched 0 == 0

/-- A calibration instance's record of NV in force (R465); ETH gives the latencies of both ports (R461). -/
def Hw.calLoad (h : Hw) (d i : Nat) : Hw :=
  match ((h.die d).cals.getD i {}).stored with
  | none => (h.wr d A.cal_state i 0).onCal d i fun C => { C with values := [] }
  | some c =>
    let h := (((h.wr d A.cal_state i 1).wr d A.cal_runs i c.runs).wr d A.cal_tb0 i c.tb0).wr d A.cal_temp i c.temp
    let h := (h.wr d A.quality i c.quality).onCal d i fun C => { C with values := c.values }
    if i ≠ 2 then h
    else (List.range 2).foldl (fun (h : Hw) p =>
      (h.wr d A.rx_lat_ps p (fieldOf c.values (8 * p) 4)).wr d A.tx_lat_ps p (fieldOf c.values (8 * p + 4) 4)) h

/-- Steps 5 to 7 on a die (R516): Rildin runs, MEM is on, calibration records are loaded and those without one run
interrupting (R464). -/
def Hw.dieUp (h : Hw) (d : Nat) (insts : List Nat) : Hw :=
  let h := ((h.wr d A.pd_on 0 7).wr d A.shutdown 0 0).onDie d fun D => { D with up := true }
  insts.foldl (fun (h : Hw) i =>
    let h := h.calLoad d i
    if h.rd d A.cal_state i = 1 then h else (h.gapStart d i none).onCal d i fun C => { C with work := 1 }) h

/-- The die that boots the package: die 0, or die 1 when die 0 does not boot (R16, R520). -/
def Hw.bootDie (h : Hw) (on : Hw → Nat → Bool) : Option Nat := if on h 0 then some 0 else if on h 1 then some 1 else none

/-- A boot begins (R516, steps 1 to 7): straps latched, behaviour level fixed (R81), MGMT on in every die that boots, an image
slot chosen and handed to them; without a slot the package stays in mode BOOT (R519). -/
def Hw.bootStart (h : Hw) (cause : Cause) (straps : Nat) : Hw :=
  let h := { h with railFault := false, clkFault := false, faultMask := 0 }
  let level := if straps.testBit 0 then 1 else if h.rd 0 A.bl_nv 0 = 0 then 2 else h.rd 0 A.bl_nv 0
  let h := ({ h with bl := level }).wr 0 A.bl_strap 0 (b2n (straps.testBit 0))
  let h := (List.range h.n).foldl (fun (h : Hw) d =>
    let h := (h.wr d A.straps 0 (straps % 16)).wr d A.reset_cause 0 cause.code
    if h.mayBoot d then (h.wr d A.pd_on 0 3).add d A.boot_count 0
    else if h.rd d A.trip_latched 0 = 1 then h.setFault d true else h) h
  match h.bootDie Hw.mayBoot, bootSlot h.fwSlots (straps.testBit 2) level with
  | some b, some i =>
    let h := h.onSlots fun l => l.modify i fun x => { x with tried := true }
    let h := { h with fwBooted := some i, bootWatch := true }
    (List.range h.n).foldl (fun (h : Hw) d =>
      if h.mayBoot d then h.dieUp d (if d = b then [0, 1, 2, 3, 4] else [0, 1, 2, 3]) else h) h
  | _, _ => h

/-- Straps as last latched, for a reset whose row does not sample them anew. -/
def Hw.latched (h : Hw) : Nat := h.rd 0 A.straps 0

/-- PORST_RISE (R508, R515, R516): the package boots from power-on reset once every rail is good; `alive` names the dies that
answer (R521). -/
def execPorstRise (straps railsGood alive : Nat) (s : State) : Host.Outcome State Fault Refusal :=
  s.onPkg fun _ h =>
    if !h.porst then h
    else
      let h := { h with porst := false, alive := alive % 2 ^ h.n }
      let h := (List.range h.n).foldl (fun (h : Hw) d => h.wr d A.rails_good 0 (railsGood % 1024)) h
      if railsGood % 1024 = 1023 then h.bootStart .por straps else { h with railFault := true }

/-- SYS_RST_L (R514): it acts whatever the package is doing; power-on reset, a rail fault and a clock fault hold it in reset
anyway. -/
def execSysRstL (straps : Nat) (s : State) : Host.Outcome State Fault Refusal :=
  s.onPkg fun _ h => if h.porst ∨ h.railFault ∨ h.clkFault then h else h.resetPkg.bootStart .pin straps

/-! ### Faults of rails and clock (R509, R512) -/

/-- Every FIRE ended and every domain but AO held in reset. -/
def Hw.holdReset (h : Hw) : Hw := ((List.range h.n).foldl (fun (h : Hw) d => h.disarm d) h).resetPkg

/-- RAIL_FAULT (R509): rail `rail` in the order of `rails_good`, measured by die `die` at `value` mV; VDD_AO is no rail fault. -/
def execRailFault (die rail value : Nat) (s : State) : Host.Outcome State Fault Refusal :=
  s.onUnit die rail 10 fun _ h =>
    if h.porst ∨ rail = 9 then h
    else
      let h := (h.add die A.rail_faults 0).wr die A.rails_good 0 (putBit (h.rd die A.rails_good 0) rail false)
      let h := { h.holdReset with railFault := true }
      h.event die Ev.railFault (leBytes 1 rail ++ leBytes 2 value)

/-- RAIL_GOOD (R509): every rail has been good for 10 ms. -/
def execRailGood (straps : Nat) (s : State) : Host.Outcome State Fault Refusal :=
  s.onPkg fun _ h =>
    if h.porst ∨ !h.railFault then h
    else
      let h := (List.range h.n).foldl (fun (h : Hw) d => h.wr d A.rails_good 0 1023) { h with railFault := false }
      if h.clkFault then h else h.bootStart .rail straps

/-- CLK_FAULT (R512): REFCLK absent for 1 µs or off by more than 1,000 ppm as seen by a die; its event is recorded when the
duration is known (assumption log 19). -/
def execClkFault (die : Nat) (s : State) : Host.Outcome State Fault Refusal :=
  s.onDie die fun _ h =>
    if h.porst then h else { (h.add die A.clk_faults 0).holdReset with clkFault := true }

/-- CLOCK_GOOD (R512): REFCLK has been good for 10 ms; the time bases held for `gapNs`. -/
def execClockGood (straps gapNs : Nat) (s : State) : Host.Outcome State Fault Refusal :=
  s.onPkg fun _ h =>
    if h.porst ∨ !h.clkFault then h
    else
      let h := { h with clk := h.clk + gapNs, clkFault := false }
      let h := (List.range h.n).foldl (fun (h : Hw) d =>
        if h.alive.testBit d then h.event d Ev.clkFault (leBytes 8 gapNs) else h) h
      if h.railFault then h else h.bootStart .clock straps

/-! ### The boot watchdog and dies that do not boot -/

/-- BOOT_WATCHDOG (R518, R27): 3 s without confirmation; one that becomes visible in the cycle of the expiry counts. -/
def execBootWatchdog (straps : Nat) (confirmed : Bool) (s : State) : Host.Outcome State Fault Refusal :=
  s.onPkg fun _ h => if !h.bootWatch ∨ confirmed then h else h.resetPkg.bootStart .bootFail straps

/-- DIE_BOOT_TIMEOUT (R520): a die not at step 5 within 1 s is left with every domain but AO off. -/
def execDieBootTimeout (die : Nat) (s : State) : Host.Outcome State Fault Refusal :=
  s.onDie die fun _ h =>
    if h.porst ∨ h.railFault ∨ h.clkFault then h
    else if h.bootWatch then
      let h := (h.dieDown die).setFault die true
      match h.bootDie fun h d => (h.die d).up with
      | some _ => h
      | none => { h with bootWatch := false, fwBooted := none }
    else if !(h.die die).up ∧ !h.alive.testBit die then h.setFault die true
    else h

/-! ### Steps 8 and 9 -/

/-- The default entries of the Queue Context Table (R568): first queue, number of queues, base of the first, k, producer,
consumer, packet mode, STALL. Those of Q63 are Rildin's own. -/
def defaultQueues : List (Nat × Nat × Nat × Nat × Nat × Nat × Bool × Bool) := [
  (0, 16, 0x00000, 12, 0x03, 0x04, true, false), (56, 4, 0x11000, 11, 0x09, 0x01, true, false),
  (60, 2, 0x13000, 11, 0x0A, 0x01, true, false), (32, 8, 0x14000, 10, 0x07, 0x02, true, false),
  (40, 8, 0x16000, 10, 0x08, 0x01, true, true), (24, 8, 0x18000, 9, 0x06, 0x02, true, false),
  (16, 8, 0x19000, 8, 0x04, 0x05, true, true), (62, 1, 0x19800, 8, 0x0B, 0x01, false, false)]

/-- Words 0 to 3 of a queue entry. -/
def entryWords (base k prod cons : Nat) (packet stall : Bool) : List Nat :=
  [base, cons * 2 ^ 24 + prod * 2 ^ 16 + b2n stall * 2 ^ 9 + b2n packet * 2 ^ 8 + k, 0, 0]

/-- A default entry written to the Queue Context Table and its queue enabled (R97, R102). -/
def Hw.queueBoot (h : Hw) (d i : Nat) (ws : List Nat) : Hw :=
  let h := h.store d (64 * i) (wordBytes ws ++ List.replicate 48 0)
  (h.onQ d i fun _ => { queueOf ws with enabled := true }).wr d A.q_enabled i 1

/-- The default queues of a die; the entries of Q48 to Q55 are 0 (R568). Mode and policy of Q63 are free (assumption log 3). -/
def Hw.queuesBoot (h : Hw) (d : Nat) : Hw :=
  let h := defaultQueues.foldl (fun (h : Hw) (f, n, b, k, p, c, pk, st) => (List.range n).foldl (fun (h : Hw) j =>
    h.queueBoot d (f + j) (entryWords (b + j * 2 ^ k) k p c pk st)) h) h
  let h := h.store d (64 * 48) (List.replicate 512 0)
  let r := h.fresh
  r.2.queueBoot d 63 (entryWords 0x10000 12 0x02 0x02 (r.1.testBit 0) (r.1.testBit 1))

/-- Bank 0 of a die built and ACTIVE from line 0 of every context (R224); the tables kept in NV are loaded first (R574). -/
def Hw.bankBoot (h : Hw) (d : Nat) : Hw :=
  let h := (h.die d).nvTables.foldl (fun (h : Hw) x => h.setBlk x.1 x.2) h
  let i := h.bankInputs d
  let us := h.fresh
  let h := ((us.2.wr d A.bank_state 0 3).add d A.build_seq 0).wr d A.build_us 0 (us.1 % 126)
  let h := h.wr d A.saturated 0 (((List.range nozzleCount).map fun j => (bankEntry i j).2).sum)
  h.onBank d 0 fun B => { B with input := some i }

/-- Step 8 on a die: LINE, HEAD, LINK, VIEW and CODEC on, default queues, bank 0. -/
def Hw.lineBoot (h : Hw) (d : Nat) : Hw := ((h.wr d A.pd_on 0 0xFF).queuesBoot d).bankBoot d

/-- The numbered EVT_RESTART, first entry of a boot from power-on (R494). -/
def Hw.evtRestart (h : Hw) (d : Nat) : Hw :=
  let e : Evt := { code := Ev.evtRestart, tb0 := h.tb d 0, node := h.rd 0 A.node_base 0, die := d, suppressed := 0,
                   data := leBytes 8 h.evtDurable }
  let h := h.onDie d fun D => { D with front := e :: D.front }
  (h.numberEvent d e).add 0 A.power_losses 0

/-- Die 0 or 1 holds the LEAD token after a boot, the other one that booted is STANDBY (R16, R472). -/
def Hw.leadBoot (h : Hw) (b : Nat) : Hw :=
  let h := (({ h with lead := some b }).setLd b .active).wr 0 A.lead_die 0 b
  let h := if (h.die (1 - b)).up then h.setLd (1 - b) .standby else h.setLd (1 - b) .faulted
  (h.wr 0 A.master_serial 0 Config.serial).enumerate true

/-- The slots settled by a confirmed boot (R517): a PENDING slot booted becomes ACTIVE and the other ACTIVE slot VALID; a PENDING
slot that was tried and has not been confirmed becomes FAILED. -/
def settleSlots (slots : List FwSlot) (i : Nat) : List FwSlot :=
  let now := (slots.getD i FwSlot.blank).st
  (List.range slots.length).map fun j =>
    let x := slots.getD j FwSlot.blank
    if j = i then { x with st := if x.st = .pending then .active else x.st, fails := 0, tried := false }
    else if x.st = .pending ∧ x.tried then { x with st := .failed }
    else if x.st = .active ∧ now = .pending then { x with st := .valid }
    else x

/-- The confirmation: slots settled, a failed trial recorded (R517). -/
def Hw.confirmSlots (h : Hw) (b i : Nat) : Hw :=
  let old := h.fwSlots
  let h := h.onSlots fun l => settleSlots l i
  (List.range old.length).foldl (fun (h : Hw) j =>
    let x := old.getD j FwSlot.blank
    if j ≠ i ∧ x.st = .pending ∧ x.tried then h.eventPkg b Ev.fwTrialFail (leBytes 1 j ++ leBytes 4 x.ver) else h) h

/-- BOOT_ID (R521). -/
def Hw.bootId (h : Hw) (d : Nat) : Hw :=
  h.event d Ev.bootId (leBytes 1 d ++ leBytes 8 (Config.lot d) ++ leBytes 1 (Config.wafer d) ++ leBytes 1 (Config.dieX d) ++
    leBytes 1 (Config.dieY d) ++ leBytes 1 (Config.stepLetter d))

/-- The identity events of a boot (R521). -/
def Hw.bootEvents (h : Hw) (b i bootMs : Nat) : Hw :=
  let h := (List.range h.n).foldl (fun (h : Hw) d => if (h.die d).up then h.bootId d else h) h
  let h := (List.range h.n).foldl (fun (h : Hw) d =>
    if h.alive.testBit d then h else h.eventPkg b Ev.pkgDieMissing (leBytes 1 d)) h
  h.eventPkg b Ev.pkgBoot (leBytes 8 Config.serial ++ orderCode ++ leBytes 1 (h.rd b A.reset_cause 0) ++ leBytes 1 h.bl ++
    leBytes 1 i ++ leBytes 4 h.fwVer ++ leBytes 4 bootMs)

/-- Steps 8 and 9 up to the entry to GATEHOUSE (R516). -/
def Hw.bootFinish (h : Hw) (b i bootMs : Nat) : Hw :=
  let ds := (List.range h.n).filter fun d => (h.die d).up
  let h := ds.foldl (fun (h : Hw) d => (h.lineBoot d).wr d A.boot_ms 0 bootMs) { h with bootWatch := false, hsOn := true }
  let h := if h.rd b A.reset_cause 0 = Cause.por.code then ({ h with lead := some b }).evtRestart b else h
  (((h.leadBoot b).confirmSlots b i).bootEvents b i bootMs)

end Sys2Proof.Machine
end

