-- ==== Sys2Proof/Machine/Power.lean ====
section
/-!
DEFINITION. POWER_CTRL and the switching of domains (spec/17_power_reset_boot.md R504, R505, R533).
-/
namespace Sys2Proof.Machine

/-- The domain that a domain needs besides AO (R504). -/
def domainNeeds (b : Nat) : Nat :=
  if b = domLINE ∨ b = domVIEW ∨ b = domCODEC then domMEM else if b = domHEAD then domLINE else domAO

/-- A sensor of kind DIE or HEAD stands at WARM, HOT or CRITICAL. -/
def Hw.warm (h : Hw) (d ch : Nat) : Bool := 1 ≤ h.rd d A.sn_state ch && h.rd d A.sn_state ch ≤ 3

/-- A POWER_CTRL for die `die`: a die outside the package does not exist. -/
def powerCommand (q : Hdr) (die : Nat) (s : State) (body : Nat → Hw → Reply × Hw) : Host.Outcome State Fault Refusal :=
  if die < s.hw.dies.length then s.command q 0x0F01 (opObj 0x0F01 0) fun _ => body else .fault .noSuchDie

/-- Domains of a die start to switch on; `boots` when its image is handed to it and Rildin starts. -/
def Hw.switchOn (h : Hw) (die id mask : Nat) (boots : Bool) : Hw :=
  (h.wr die A.pd_busy 0 (h.rd die A.pd_busy 0 ||| mask)).onDie die fun D => { D with pdWork := D.pdWork ++ [(id, mask, boots)] }

/-- DOMAIN_ON (R504, R533): the named domains that are off switch on; done at DOMAIN_SWITCH_DONE. -/
def execDomainOn (h : Hdr) (die mask : Nat) (s : State) : Host.Outcome State Fault Refusal :=
  powerCommand h die s fun d hw =>
    let on := hw.rd die A.pd_on 0
    let named := (List.range 8).filter fun b => mask.testBit b
    if mask.testBit 0 ∨ 256 ≤ mask then refuse .range hw
    else if (named.any fun b => !(on ||| mask ||| 1).testBit (domainNeeds b)) ∨ hw.rd die A.trip_latched 0 = 1 ∨
        dieChannels.any (hw.warm die) then refuse .state hw
    else
      let todo := ((named.filter fun b => !on.testBit b).map (2 ^ ·)).sum
      let (id, r, hw) := hw.deferWork d h false
      (r, if todo = 0 then hw.settle id 0 else hw.switchOn die id todo false)

/-- DOMAIN_OFF (R505, R533): dependent domains first. A management processor switched off by command is no fault. -/
def execDomainOff (h : Hdr) (die mask : Nat) (s : State) : Host.Outcome State Fault Refusal :=
  powerCommand h die s fun _ hw =>
    let on := hw.rd die A.pd_on 0
    let stays := (List.range 8).filter fun b => on.testBit b && !mask.testBit b
    if mask.testBit 0 ∨ 256 ≤ mask then refuse .range hw
    else if (hw.printing die ∧ (mask.testBit domLINE ∨ mask.testBit domHEAD ∨ mask.testBit domMEM)) ∨
        (stays.any fun b => mask.testBit (domainNeeds b)) ∨ (mask.testBit domMGMT ∧ hw.lead = some die) then refuse .state hw
    else
      let fault := hw.faultMask.testBit die
      let hw := (hw.wr die A.pd_busy 0 (hw.rd die A.pd_busy 0 ||| (mask &&& on))).domainsOff die mask 1
      okWith (hw.setFault die fault)

/-- A die in reset with the work of the command that resets it kept, so that its reply can be sent. -/
def Hw.dieResetFor (h : Hw) (die : Nat) (q : Hdr) : Hw :=
  let mbx := (h.die die).mbx
  let work := mbx.work.filter fun w => decide (w.origin = q.origin) && w.tag == q.tag
  let slots := work.foldl (fun m w => match w.origin with
    | .slot _ _ i => m ||| 2 ^ i
    | _ => m) 0
  let h := { h with replies := h.replies.filter fun x => originDie x.1.1 ≠ die }
  let h := if die < 2 then h.setLd die .faulted else h
  (h.dieDown die).onDie die fun D => { D with mbx := { D.mbx with work := work, busy := slots } }

/-- DIE_RESET (R513, R533): one die, and its boot with cause DIE_CMD. -/
def execDieReset (h : Hdr) (die : Nat) (s : State) : Host.Outcome State Fault Refusal :=
  powerCommand h die s fun d hw =>
    if hw.lead = some die ∨ hw.printing die then refuse .state hw
    else
      let hw := hw.dieResetFor die h
      let (id, r, hw) := hw.deferWork d h false
      (r, (hw.wr die A.reset_cause 0 Cause.dieCmd.code).switchOn die id 0xFE true)

/-- PKG_RESET (R513, R533): it acts 1 ms after its reply is sent. -/
def execPkgReset (h : Hdr) (s : State) : Host.Outcome State Fault Refusal :=
  s.command h 0x0F01 (opObj 0x0F01 0) fun _ _ hw =>
    if (List.range hw.n).any hw.printing then refuse .state hw
    else okWith { hw with resetDue := some (h.origin, h.tag) }

/-- The package reset that a PKG_RESET asked for, 1 ms after its reply. -/
def Hw.resetNow (h : Hw) : Hw :=
  let h := h.tick 500000
  h.resetPkg.bootStart .pkgCmd h.latched

/-- TRIP_CLEAR (R454, R533): the latch cleared, the die boots with cause DIE_CMD; without a latch there is nothing to do. -/
def execTripClear (h : Hdr) (die : Nat) (s : State) : Host.Outcome State Fault Refusal :=
  powerCommand h die s fun d hw =>
    if thermChannels.any (hw.warm die) then refuse .state hw
    else
      let (id, r, hw) := hw.deferWork d h false
      if hw.rd die A.trip_latched 0 = 0 then (r, hw.settle id 0)
      else
        let hw := (hw.wr die A.trip_latched 0 0).wr die A.reset_cause 0 Cause.dieCmd.code
        (r, hw.switchOn die id 0xFE true)

/-- Inputs accepted before a die's line engine came on act on it: levels shown, ESTOP (R166, R167). -/
def Hw.lineOn (h : Hw) (d : Nat) : Hw :=
  let h := h.wr d A.hs_in 0 h.hsIn
  if h.hsIn.testBit 2 then h.wr d A.le_state 0 5 else h

/-- A single die boots (R513, R516): steps 5 to 9 on it; the other die of the pair becomes STANDBY. -/
def Hw.dieBoot (h : Hw) (d : Nat) : Hw :=
  let ms := h.fresh
  let h := ((ms.2.add d A.boot_count 0).wr d A.boot_ms 0 (ms.1 % 2 ^ 32)).dieUp d [0, 1, 2, 3]
  let h := ((h.lineBoot d).bootId d).lineOn d
  let h := if d < 2 ∧ h.lead ≠ some d then h.setLd d .standby else h
  h.setFault d false

/-- One switching-on done: the domains usable, or the die booted; a die that does not boot (R454, R520) ends the work with
STATE. -/
def Hw.switchedOn (h : Hw) (die : Nat) (w : Nat × Nat × Bool) : Hw :=
  let before := h.rd die A.pd_on 0
  if w.2.2 ∧ !h.mayBoot die then h.settle w.1 Status.state.code
  else
  let h := if w.2.2 then h.dieBoot die
    else
      let h := (h.wr die A.pd_on 0 (before ||| w.2.1)).wr die A.shutdown 0 (h.rd die A.shutdown 0 &&& (0xFF - w.2.1 % 256))
      let h := if w.2.1.testBit domMGMT then
          (if die < 2 then h else h.setFault die false).onDie die fun D => { D with up := true }
        else h
      if w.2.1.testBit domLINE then h.lineOn die else h
  (h.pdChange die before 1).settle w.1 0

/-- DOMAIN_SWITCH_DONE (R504): domains switching on or off on a die are usable or fully off. -/
def execDomainSwitchDone (die : Nat) (s : State) : Host.Outcome State Fault Refusal :=
  s.onDie die fun _ h =>
    if h.porst ∨ h.railFault ∨ h.clkFault then h
    else
      let l := (h.die die).pdWork
      let h := (h.wr die A.pd_busy 0 0).onDie die fun D => { D with pdWork := [] }
      l.foldl (fun (h : Hw) w => h.switchedOn die w) h

end Sys2Proof.Machine
end

