-- ==== Sys2Proof/Machine/Run.lean ====
section
/-!
DEFINITION. The mailbox commands as a frame names them: the meaning that carries each out (R44, R60). MODE_SET runs the Gatehouse
script and is carried out apart from them (Script.lean).
-/
namespace Sys2Proof.Machine

/-- The meaning of a mailbox command; the other rows of the table are no commands of a frame. -/
def runCommand (i : Instr) (s : State) : Option (Host.Outcome State Fault Refusal) :=
  match i with
  | .idRead h => some (execIdRead h s)
  | .sysState h => some (execSysState h s)
  | .blSet h level => some (execBlSet h level s)
  | .cmdStatus h tag => some (execCmdStatus h tag s)
  | .objGet h obj => some (execObjGet h obj s)
  | .objSet h obj value line => some (execObjSet h obj value line s)
  | .objGetBlock h obj off len => some (execObjGetBlock h obj off len s)
  | .objSetBlock h obj commit line off data => some (execObjSetBlock h obj commit line off data s)
  | .fwBegin h size => some (execFwBegin h size s)
  | .fwData h off data => some (execFwData h off data s)
  | .fwEnd h => some (execFwEnd h s)
  | .fwActivate h => some (execFwActivate h s)
  | .fwAbort h => some (execFwAbort h s)
  | .queueInvalidate h first count => some (execQueueInvalidate h first count s)
  | .queueEnable h first count bad => some (execQueueEnable h first count bad s)
  | .queueDisable h first count => some (execQueueDisable h first count s)
  | .queueFlush h first count => some (execQueueFlush h first count s)
  | .queueStatus h q => some (execQueueStatus h q s)
  | .absRequest h ch => some (execAbsRequest h ch s)
  | .posSet h what value => some (execPosSet h what value s)
  | .posLatch h => some (execPosLatch h s)
  | .cmpArm h unit_ pulse event lpos rev lateOk value step => some (execCmpArm h unit_ pulse event lpos rev lateOk value step s)
  | .cmpDisarm h unit_ => some (execCmpDisarm h unit_ s)
  | .leResume h => some (execLeResume h s)
  | .hsForce h levels => some (execHsForce h levels s)
  | .hsRelease h => some (execHsRelease h s)
  | .leStatus h => some (execLeStatus h s)
  | .hpEnable h ports => some (execHpEnable h ports s)
  | .hpDisable h ports => some (execHpDisable h ports s)
  | .hpRestart h ports bad => some (execHpRestart h ports bad s)
  | .hpQuery h port arg cmd len => some (execHpQuery h port arg cmd len s)
  | .hpSpitParked h ports lines => some (execHpSpitParked h ports lines s)
  | .hpSpitStop h ports => some (execHpSpitStop h ports s)
  | .hpSpitWeb h ctx ports first count => some (execHpSpitWeb h ctx ports first count s)
  | .tbBuild h bank => some (execTbBuild h bank s)
  | .tbBuildAbort h bank => some (execTbBuildAbort h bank s)
  | .tbSwap h ctx bank line => some (execTbSwap h ctx bank line s)
  | .plStatus h port => some (execPlStatus h port s)
  | .codecVerify h port greyscale margin nozzles addr stored out => some (execCodecVerify h port greyscale margin nozzles addr stored out s)
  | .codecCompressSubmit h queue back tag addr row stride rows line limit per => some (execCodecCompressSubmit h queue back tag addr row stride rows line limit per s)
  | .codecCompressAbort h queue tag => some (execCodecCompressAbort h queue tag s)
  | .ctxOpen h ctx bad => some (execCtxOpen h ctx bad s)
  | .ctxStartAbs h ctx x0 => some (execCtxStartAbs h ctx x0 s)
  | .ctxStartAfter h ctx after => some (execCtxStartAfter h ctx after s)
  | .ctxStop h ctx => some (execCtxStop h ctx s)
  | .ctxClose h ctx => some (execCtxClose h ctx s)
  | .ctxAbort h ctx => some (execCtxAbort h ctx s)
  | .ctxInvalidate h first count => some (execCtxInvalidate h first count s)
  | .runwayStatus h => some (execRunwayStatus h s)
  | .camWake h port => some (execCamWake h port s)
  | .camEnable h port => some (execCamEnable h port s)
  | .camDisable h port => some (execCamDisable h port s)
  | .camSleep h port => some (execCamSleep h port s)
  | .camSnap h port => some (execCamSnap h port s)
  | .camRelease h port slots => some (execCamRelease h port slots s)
  | .camApply h port set frame => some (execCamApply h port set frame s)
  | .camI2c h read port addr reg len data => some (execCamI2c h read port addr reg len data s)
  | .chainEnable h chains => some (execChainEnable h chains s)
  | .chainDisable h chains => some (execChainDisable h chains s)
  | .chainEnum h chains => some (execChainEnum h chains s)
  | .lampInvalidate h first count => some (execLampInvalidate h first count s)
  | .lampCtrlClear h chain first count => some (execLampCtrlClear h chain first count s)
  | .lampCtrlDiag h chain mask first count => some (execLampCtrlDiag h chain mask first count s)
  | .mxStart h => some (execMxStart h s)
  | .mxStop h => some (execMxStop h s)
  | .chStart h ctx bars => some (execChStart h ctx bars s)
  | .chStop h bars => some (execChStop h bars s)
  | .chFreeze h bars => some (execChFreeze h bars s)
  | .chResume h bars => some (execChResume h bars s)
  | .chCaptureRef h bars => some (execChCaptureRef h bars s)
  | .chStatus h bar => some (execChStatus h bar s)
  | .tbRead h => some (execTbRead h s)
  | .tbStep h tb offset => some (execTbStep h tb offset s)
  | .poArm h mode out start period count => some (execPoArm h mode out start period count s)
  | .itvEnable h => some (execItvEnable h s)
  | .itvDisable h => some (execItvDisable h s)
  | .itvRetrain h => some (execItvRetrain h s)
  | .itvEyeRead h lanes => some (execItvEyeRead h lanes s)
  | .itvEyeMeasure h lanes => some (execItvEyeMeasure h lanes s)
  | .sysEnumFresh h => some (execSysEnumFresh h s)
  | .sysEnumKeep h => some (execSysEnumKeep h s)
  | .sysNode h addr => some (execSysNode h addr s)
  | .calRun h insts => some (execCalRun h insts s)
  | .calRunGap h insts => some (execCalRunGap h insts s)
  | .calQuality h insts => some (execCalQuality h insts s)
  | .calAbort h insts => some (execCalAbort h insts s)
  | .thermStatus h => some (execThermStatus h s)
  | .leadMove h => some (execLeadMove h s)
  | .leadCtrlRepair h die => some (execLeadCtrlRepair h die s)
  | .leadCheckpoint h => some (execLeadCheckpoint h s)
  | .leadAck h => some (execLeadAck h s)
  | .evtRead h first count => some (execEvtRead h first count s)
  | .evtLimitSet h code rate burst => some (execEvtLimitSet h code rate burst s)
  | .evtLimitGet h code => some (execEvtLimitGet h code s)
  | .ghStatus h => some (execGhStatus h s)
  | .domainOn h die mask => some (execDomainOn h die mask s)
  | .domainOff h die mask => some (execDomainOff h die mask s)
  | .dieReset h die => some (execDieReset h die s)
  | .pkgReset h => some (execPkgReset h s)
  | .tripClear h die => some (execTripClear h die s)
  | _ => none

end Sys2Proof.Machine
end

