-- ==== Sys2Proof/Machine/Script.lean ====
section
/-!
DEFINITION. Modes and the Gatehouse script (spec/17_power_reset_boot.md R522 to R525), and the confirmation of a boot, which enters
GATEHOUSE (R516, R517).
-/
namespace Sys2Proof.Machine

/-! ### A step of several effects -/

/-- A further effect within one step: its outputs follow those so far. -/
def State.more (s : State) (f : List (List Host.Cell) → Hw → Hw) : State :=
  let t := s.run f
  { t with hw := { t.hw with out := s.hw.out ++ t.hw.out } }

/-- A command carried out within a step; one that stops changes nothing. -/
def State.also (s : State) (r : Option (Host.Outcome State Fault Refusal)) : State :=
  match r with
  | some (.next t) => { t with hw := { t.hw with out := s.hw.out ++ t.hw.out } }
  | _ => s

/-! ### Entry to GATEHOUSE -/

/-- Gatehouse's settings at an entry: the NV attributes taken up (R532), every port of a running die a PTP slave of domain 0 for
TB0 over Layer 2 with end-to-end delay, `tb_source` PTP (R525). -/
def Hw.ghEnter (h : Hw) : Hw :=
  let h := { h with gh := { h.gh with ran := false, err := false, spitLines := h.rd 0 A.gh_spit_lines 0,
                                      interval := h.rd 0 A.gh_spit_interval_s 0, runin := h.rd 0 A.gh_runin_mm 0 } }
  let h := (h.wr 0 A.ptp_domain 0 0).wr 0 A.slave_only 0 1
  let ports := ((List.range h.n).filter fun d => (h.die d).up).flatMap fun d => [(d, 0), (d, 1)]
  let h := ports.foldl (fun (h : Hw) x =>
    (((h.wr x.1 A.transport x.2 0).wr x.1 A.delay_mech x.2 0).wr x.1 A.ptp_tb x.2 0).setPtpEnable x.1 x.2 1) h
  h.setTbSource 0 1

/-- GH_SCRIPT_ERR (R524). -/
def Hw.scriptErr (h : Hw) (index op status : Nat) : Hw :=
  ({ h with gh := { h.gh with err := true } }).eventPkg h.leadDie Ev.ghScriptErr (leBytes 2 index ++ leBytes 2 op ++ leBytes 1 status)

/-- GH_SCRIPT_ERR for a length that does not end on a frame boundary; opcode and status of no frame are free (assumption log
3). -/
def Hw.scriptEnd (h : Hw) : Hw :=
  let op := h.fresh
  let st := op.2.fresh
  st.2.scriptErr 0xFFFF (op.1 % 65536) (st.1 % 256)

/-- MODE_SET GATEHOUSE's work (R522): STATE while any host context is not CLOSED; a MODE_SET HOSTED that waits is superseded. -/
def modeGatehouse (hw : Hw) : Reply × Hw :=
  if hw.dies.any fun D => D.ctxs.any fun c => c.num != 0 then refuse .state hw
  else
    let hw := hw.hostedWait.foldl (fun (hw : Hw) id => hw.settle id Status.superseded.code) { hw with hostedWait := [] }
    okWith (hw.modeTo .gatehouse)

/-- MODE_SET HOSTED's work (R522): a test page that prints is stopped first, and HOSTED is entered at standstill. -/
def modeHosted (q : Hdr) (d : Nat) (hw : Hw) : Reply × Hw :=
  if hw.mode = .hosted then okWith hw
  else if hw.gh.print.isNone ∧ hw.hostedWait.isEmpty then okWith (hw.modeTo .hosted)
  else
    let (id, r, hw) := hw.deferWork d q true
    (r, (({ hw with hostedWait := hw.hostedWait ++ [id] }).startStop d 4).hostedCheck)

/-- A frame's command carried out; MODE_SET without a run of the script. -/
def runFrame (i : Instr) (s : State) : Option (Host.Outcome State Fault Refusal) :=
  match i with
  | .modeSetGatehouse q => some (s.command q 0x0F02 (opObj 0x0F02 0) fun _ _ hw => modeGatehouse hw)
  | .modeSetHosted q => some (s.command q 0x0F02 (opObj 0x0F02 0) fun _ d hw => modeHosted q d hw)
  | i => runCommand i s

/-! ### The script (R524) -/

/-- What a script frame's status leaves: GH_SCRIPT_ERR when it is neither OK nor DEFERRED. -/
def Hw.scriptStatus (h : Hw) (index op : Nat) (st : Status) : Hw := if st.good then h else h.scriptErr index op st.code

/-- One frame of the script, as though it came from source index 0. A frame for another package waits for its reply under its
index. -/
def State.scriptFrame (s : State) (index : Nat) (b : List Byte) : State :=
  let l := s.hw.leadDie
  match s.hw.parseFrame l .script b with
  | .refused st => s.more fun _ h =>
    (if opCfg (frOp b) ∧ st ≠ .busy ∧ st ≠ .badOpcode then h.configChange l (frOp b) (frameObj b) st .script else h).scriptStatus
      index (frOp b) st
  | .forward k => s.more fun _ h =>
    let f := wordBytes [index % 65536 * 65536 + frOp b] ++ b.drop 4
    let h := h.onDie l fun D => { D with mbx := { D.mbx with work := D.mbx.work ++
      [{ origin := .script, tag := index % 65536, op := frOp b, frame := f, target := 256 + k, cmd := none, since := h.clk }] } }
    h.linkSend k 2 63 (frNode b) (h.dieNode l) f
  | .command _ _ i =>
    let s := s.also (runFrame i s)
    s.more fun _ h =>
      let r := h.reply? .script (frTag b)
      let h := { h with replies := h.replies.filter fun x => decide (x.1.1 ≠ .script) }
      match r with
      | some x => h.scriptStatus index (frOp b) x.status
      | none => h

/-- The frames of the script in order; a PKG_RESET among them ends the run with the reset it asks for. -/
def State.scriptRun (s : State) : Nat → Nat → List Byte → State
  | 0, _, _ => s
  | n + 1, index, b =>
    if b.isEmpty then s
    else if b.length < 16 ∨ b.length < 16 + frLen b then s.more fun _ h => h.scriptEnd
    else
      let s := s.scriptFrame index (b.take (16 + frLen b))
      if s.hw.resetDue.any fun x => decide (x.1 = .script) then s.more fun _ h => h.resetNow
      else s.scriptRun n (index + 1) (b.drop (16 + frLen b))

/-- The script run at an entry to GATEHOUSE (R524). -/
def State.script (s : State) : State :=
  let n := s.hw.rd 0 A.gh_script_len 0
  let b := (s.hw.blk (rkey 0 A.gh_script 0)).take n
  let s := s.more fun _ h => { h.ghEnter with gh := { h.ghEnter.gh with ran := decide (0 < n) } }
  s.scriptRun (n / 16 + 1) 0 (b ++ List.replicate (n - b.length) 0)

/-! ### MODE_SET and the confirmation of a boot -/

/-- The script runs when a step has entered GATEHOUSE. -/
def State.entered (s : State) (before : Mode) : State :=
  if s.hw.mode = .gatehouse ∧ before ≠ .gatehouse then s.script else s

/-- MODE_SET_GATEHOUSE (R522, R524). -/
def execModeSetGatehouse (h : Hdr) (s : State) : Host.Outcome State Fault Refusal :=
  match s.command h 0x0F02 (opObj 0x0F02 0) fun _ _ hw => modeGatehouse hw with
  | .next t => .next (t.entered s.hw.mode)
  | r => r

/-- MODE_SET_HOSTED (R522). -/
def execModeSetHosted (h : Hdr) (s : State) : Host.Outcome State Fault Refusal :=
  s.command h 0x0F02 (opObj 0x0F02 0) fun _ d hw => modeHosted h d hw

/-- BOOT_CONFIRM (R516, R517): steps 8 and 9; the identity events, then GATEHOUSE. -/
def execBootConfirm (bootMs : Nat) (s : State) : Host.Outcome State Fault Refusal :=
  match s.hw.bootWatch, s.hw.bootDie fun h d => (h.die d).up, s.hw.fwBooted with
  | true, some b, some i => .next ((s.run fun _ h => (h.bootFinish b i bootMs).modeTo .gatehouse).entered .boot)
  | _, _, _ => s.onPkg fun _ h => h

end Sys2Proof.Machine
end

