-- ==== Sys2Proof/Machine/Mailbox.lean ====
section
/-!
DEFINITION. The mailbox (spec/02_mailbox_interface.md R40 to R59, R572): slots, rings, remote datagrams, completion and timeout,
frames of other packages; the BAR windows as a host writes and reads them (R36, R38, R426, R427); datagrams (R423, R424).
-/
namespace Sys2Proof.Machine

/-! ### Commands in progress -/

/-- The command in progress with an origin and a tag, on the die that accepted it. -/
def Hw.work? (h : Hw) (o : Origin) (tag : Nat) : Option Work :=
  (h.dies.flatMap fun D => D.mbx.work).find? fun w => decide (w.origin = o) && w.tag == tag

/-- A command in progress added on a die. -/
def Hw.addWork (h : Hw) (d : Nat) (w : Work) : Hw := h.onDie d fun D => { D with mbx := { D.mbx with work := D.mbx.work ++ [w] } }

/-- A command in progress and its reply dropped. -/
def Hw.dropWork (h : Hw) (o : Origin) (tag : Nat) : Hw :=
  { h with replies := h.replies.filter fun x => x.1 ≠ (o, tag),
           dies := h.dies.map fun D => { D with mbx := { D.mbx with
             work := D.mbx.work.filter fun w => !(decide (w.origin = o) && w.tag == tag) } } }

/-- A mailbox record of a die changed. -/
def Hw.onMbx (h : Hw) (d : Nat) (f : Mbx → Mbx) : Hw := h.onDie d fun D => { D with mbx := f D.mbx }

/-- A frame refused by the die that received it: CONFIG_CHANGE for a configuration command (R78), BUSY in its place when the kept
places are short (R493). -/
def Hw.refuseFrame (h : Hw) (d : Nat) (o : Origin) (b : List Byte) (st : Status) : Hw :=
  if !opCfg (frOp b) ∨ st = .busy ∨ st = .badOpcode then h.putReply o (frTag b) (.err st)
  else if h.frontTight d then h.putReply o (frTag b) (.err .busy)
  else (h.configChange d (frOp b) (frameObj b) st (srcOf o)).putReply o (frTag b) (.err st)

/-- A frame starts on the die that received it (R49, R53): its timer runs; it is refused, forwarded, or carried out in its turn. A
die whose Rildin does not run carries nothing out. A new source gets its index (R79). -/
def Hw.startFrame (h : Hw) (d : Nat) (o : Origin) (b : List Byte) : Hw :=
  let w : Work := { origin := o, tag := frTag b, op := frOp b, frame := b, target := d, cmd := none, since := h.clk }
  if !h.serves d then h.addWork d w
  else if !h.pkg.sources.contains (srcOf o) ∧ h.frontTight d then (h.addWork d w).putReply o (frTag b) (.err .busy)
  else
    let h := h.seeSource d (srcOf o)
    match h.parseFrame d o b with
    | .refused st => (h.addWork d w).refuseFrame d o b st
    | .forward l => (h.addWork d { w with target := 256 + l }).linkSend l 2 63 (frNode b) (h.dieNode d) b
    | .command t _ i => h.addWork d { w with target := t, cmd := some i }

/-! ### Slots and rings (R40, R41, R49) -/

/-- A slot of a die. -/
def Hw.slot (h : Hw) (d s : Nat) : List Byte := (h.die d).mbx.slots.getD s []

/-- Bytes put into a slot. -/
def Hw.slotPut (h : Hw) (d s off : Nat) (bs : List Byte) : Hw :=
  h.onMbx d fun M => { M with slots := M.slots.modify s fun b => b.take off ++ bs.take (256 - off) ++ b.drop (off + bs.length) }

/-- A ring or a write of a busy slot is discarded, counted and recorded (R41). -/
def Hw.busyHit (h : Hw) (d s : Nat) : Hw :=
  (h.onMbx d fun M => { M with busyHits := (M.busyHits + 1) % 2 ^ 32 }).event d Ev.mbxBusyHit (leBytes 1 s)

/-- A host write into a slot. -/
def Hw.slotWrite (h : Hw) (d s off : Nat) (bs : List Byte) : Hw :=
  if bit (h.die d).mbx.busy s then h.busyHit d s else h.slotPut d s off bs

/-- A slot rung (R49): its busy bit, status 0xFF, its frame as it stands. -/
def Hw.ringSlot (h : Hw) (d ep s : Nat) : Hw :=
  if bit (h.die d).mbx.busy s then h.busyHit d s
  else
    let h := (h.onMbx d fun M => { M with busy := M.busy ||| 2 ^ s }).slotPut d s 15 [0xFF]
    h.startFrame d (.slot d ep s) (h.slot d s)

/-- Slots rung in ascending order. -/
def Hw.rings (h : Hw) (d ep mask : Nat) : Hw :=
  ((List.range 16).filter fun s => mask.testBit s).foldl (fun (h : Hw) s => h.ringSlot d ep s) h

/-- MBX_SLOT_WRITE (R41). -/
def execMbxSlotWrite (die ep slot off : Nat) (data : List Byte) (s : State) : Host.Outcome State Fault Refusal :=
  if 2 ≤ ep then .fault .noSuchUnit
  else s.onUnit die slot 16 fun _ h => if 256 < off + data.length then h.barReject ep 0 (die * 2 ^ 16 + slot * 256 + off) true
    else h.slotWrite die slot off data

/-- MBX_RING (R49). -/
def execMbxRing (die ep mask : Nat) (s : State) : Host.Outcome State Fault Refusal :=
  s.onUnit die ep 2 fun _ h => h.rings die ep mask

/-! ### Completion (R50 to R54, R572) -/

/-- A completion in a slot (R49 to R52): reply, busy clear, done set, the MSI-X message and the Q62 word. -/
def Hw.slotDone (h : Hw) (d ep s : Nat) (w : Work) (r : Reply) : Hw :=
  let h := h.slotPut d s 0 (replyFrame w.frame r)
  let h := h.onMbx d fun M => { M with busy := M.busy &&& (0xFFFF - 2 ^ s), done := M.done ||| 2 ^ s }
  let h := if frIrq w.frame ∧ bit (h.die d).mbx.irqEn s then h.msix ep (h.die d).mbx.vec else h
  if frQ62 w.frame then
    (h.qPush d 62 0x0B (w.tag * 2 ^ 48 + w.op * 2 ^ 32 + r.status.code * 2 ^ 24 + s * 2 ^ 20) true).2
  else h

/-- A reply sent to a remote source and kept with its request, the last 64 of the source; a BUSY is not kept (R57, R59). -/
def Hw.remoteDone (h : Hw) (d eth ip port : Nat) (w : Work) (r : Reply) : Hw :=
  let f := replyFrame w.frame r
  let h := h.emit (.udp d eth ip port f)
  if r.status = .busy then h
  else
    let src := srcOf w.origin
    let k : Kept := { src := src, tag := w.tag, request := w.frame, reply := f, at_ := w.since }
    h.onMbx d fun M =>
      let mine := (M.kept.filter fun x => decide (x.src = src) && x.tag != w.tag).take 63
      { M with kept := k :: mine ++ M.kept.filter fun x => decide (x.src ≠ src) }

/-- A completion delivered to its origin; the reply to another package's command travels back over the link (R434), a script
frame's status is judged (R524). -/
def Hw.deliver (h : Hw) (w : Work) (r : Reply) : Hw :=
  let h := h.dropWork w.origin w.tag
  match w.origin with
  | .slot d ep s => h.slotDone d ep s w r
  | .remote d e ip p => h.remoteDone d e ip p w r
  | .itv d node _ =>
    match h.linkTo node with
    | some l => h.linkSend l 3 63 node (h.dieNode d) (replyFrame w.frame r)
    | none => h
  | .rildin _ => h
  | .script => h.scriptStatus w.tag w.op r.status

/-- A completion after the timer's expiry (R54): discarded, counted and recorded. -/
def Hw.lateReply (h : Hw) (o : Origin) (tag : Nat) (st : Status) : Hw :=
  let d := originDie o
  let h := h.dropWork o tag
  match o with
  | .rildin _ | .script => h
  | _ => (h.add d A.mbx_late_replies 0).event d Ev.mbxLateReply (leBytes 2 tag ++ leBytes 1 st.code)

/-- The end of a command whose reply stands: delivered, or late; then the package reset that it may have asked for (R533). -/
def Hw.complete (h : Hw) (o : Origin) (tag : Nat) : Hw :=
  match h.reply? o tag with
  | none => h
  | some r =>
    let h' := match h.work? o tag with
      | some w => h.deliver w r
      | none => h.lateReply o tag r.status
    if h'.resetDue = some (o, tag) then h'.resetNow else h'

/-- A frame's command carried out, MODE_SET with its run of the script. -/
def carryOut (i : Instr) (s : State) : Option (Host.Outcome State Fault Refusal) :=
  match i with
  | .modeSetGatehouse q => some (execModeSetGatehouse q s)
  | i => runFrame i s

/-- COMMAND_COMPLETE (R49, R54, R572): a command that still waits is carried out; once its reply stands it completes. -/
def execCommandComplete (origin : Origin) (tag : Nat) (s : State) : Host.Outcome State Fault Refusal :=
  let s0 := s.run fun _ h => h
  let s1 := match (s0.hw.work? origin tag).bind (·.cmd) with
    | some i => s0.also (carryOut i s0)
    | none => s0
  .next (s1.more fun _ h => h.complete origin tag)

/-- MBX_TIMEOUT's first field (R573): the slot, or 0xFF for a command of no slot. -/
def slotCode : Origin → Nat
  | .slot _ _ s => s
  | _ => 0xFF

/-- COMMAND_TIMEOUT (R53, R54): the mailbox hardware completes the command with TIMEOUT; a completion that is visible stands. A
command of another package runs under the timer of the die that accepted it there (R434). -/
def execCommandTimeout (origin : Origin) (tag : Nat) (s : State) : Host.Outcome State Fault Refusal :=
  s.onPkg fun _ h =>
    let fromLink : Bool := match origin with
      | .itv _ _ _ => true
      | _ => false
    match h.work? origin tag with
    | none => h
    | some w =>
      if fromLink ∨ (h.reply? origin tag).isSome then h
      else
        let d := originDie origin
        let h := h.add d A.mbx_timeouts 0
        let h := h.event d Ev.mbxTimeout (leBytes 1 (slotCode origin) ++ leBytes 2 tag ++ leBytes 2 w.op)
        let h := if opCfg w.op then h.configChange d w.op (frameObj w.frame) .timeout (srcOf origin) else h
        h.deliver w (.err .timeout)

/-! ### Remote mailbox (R57 to R59) -/

/-- Remote commands in progress on a die. -/
def Hw.remoteWork (h : Hw) (d : Nat) : List Work :=
  (h.die d).mbx.work.filter fun w => match w.origin with
    | .remote _ _ _ _ => true
    | _ => false

/-- A datagram on UDP port 50420. -/
def Hw.remoteDatagram (h : Hw) (d eth ip port : Nat) (b : List Byte) : Hw :=
  let o : Origin := .remote d eth ip port
  if !bit (h.rd d A.rmbx_port_en 0) eth then h.add d A.eth_drops eth
  else if b.length < 16 ∨ b.length ≠ 16 + frLen b then
    let h := (h.seeSource d (srcOf o)).add d A.rmbx_bad 0
    h.event d Ev.rmbxBadDatagram (leBytes 1 eth ++ leBytes 2 (h.srcIndex (srcOf o)))
  else
    let window := 10 ^ 6 * h.rd d A.rmbx_dup_window 0
    match (h.die d).mbx.kept.find? fun k => decide (k.src = srcOf o) && k.request == b && h.clk ≤ k.at_ + window with
    | some k => h.emit (.udp d eth ip port k.reply)
    | none =>
      if (h.remoteWork d).any fun w => decide (w.origin = o) && w.frame == b then h
      else if 32 ≤ (h.remoteWork d).length then h.emit (.udp d eth ip port (replyFrame b (.err .busy)))
      else h.startFrame d o b

/-- Whether a datagram reaches die `d` through port `p`: LINK on, the port enabled, its link up. -/
def Hw.ethUp (h : Hw) (d p : Nat) : Bool := h.on d domLINK && h.rd d A.eth_enable p == 1 && h.rd d A.link_up p == 1

/-- REMOTE_MAILBOX_DATAGRAM (R57 to R59). -/
def execRemoteMailboxDatagram (die eth ip port : Nat) (data : List Byte) (s : State) : Host.Outcome State Fault Refusal :=
  s.onUnit die eth 2 fun _ h => if h.ethUp die eth then h.remoteDatagram die eth ip port data else h

/-! ### Frames of other packages (R417, R434) -/

/-- The status of a code in a reply from another package (R46). -/
def Status.ofCode (c : Nat) : Status :=
  ([.ok, .busy, .badOpcode, .badObject, .badAttr, .range, .state, .noSpace, .timeout, .nvTemp, .check, .nodeUnreachable, .deferred,
    .superseded] : List Status).getD c .check

/-- The reply that a frame carries. -/
def replyOf (b : List Byte) : Reply :=
  ⟨Status.ofCode (bits (wordAt b 3) 31 24), (b.drop 16).take (bits (wordAt b 3) 15 0)⟩

/-- The reply to a forwarded command reaches the die that accepted it; one that has timed out is late. -/
def Hw.linkReply (h : Hw) (l dst : Nat) (b : List Byte) : Hw :=
  let ws := h.dies.flatMap fun D => D.mbx.work
  match ws.find? fun w => w.target == 256 + l && w.tag == frTag b && w.op == frOp b with
  | some w => h.putReply w.origin w.tag (replyOf b)
  | none =>
    let d := (List.range h.n).find? fun d => h.dieNode d == dst
    (h.add (d.getD h.leadDie) A.mbx_late_replies 0).event (d.getD h.leadDie) Ev.mbxLateReply
      (leBytes 2 (frTag b) ++ leBytes 1 (bits (wordAt b 3) 31 24))

/-- The serial number of the package that owns a node address. -/
def Hw.nodeSerial (h : Hw) (node : Nat) : Nat := ((h.pkg.nodes.find? fun x => x.addr == node).map (·.serial)).getD 0

/-- A frame accepted on a link by die `d` (R417, R434): taken by this package, forwarded with one hop less, or refused when there
is no route. The payloads of ENUM and TIME frames have rows of their own. -/
def Hw.linkFrame (h : Hw) (l d : Nat) (f : ItvFrame) : Hw :=
  if f.hops = 0 then h.eventPkg h.leadDie Ev.sysTopology (leBytes 1 0xFF ++ leBytes 3 0)
  else if f.type ≠ 2 ∧ f.type ≠ 3 then h
  else if h.pkg.nodes.any fun x => x.addr == f.dst && x.serial == Config.serial && x.kind != 4 then
    if f.type = 3 then h.linkReply l f.dst f.payload
    else h.startFrame d (.itv d f.src (h.nodeSerial f.src)) f.payload
  else
    match h.linkTo f.dst with
    | some k => h.linkSend k f.type (f.hops - 1) f.dst f.src f.payload
    | none =>
      if f.type = 2 then h.linkSend l 3 63 f.src f.dst (replyFrame f.payload (.err .nodeUnreachable)) else h

/-- ITV_FRAME_RECEIVE (R414 to R418): a frame on the ITV link of a die; one whose link is not UP carries nothing, and a frame
shows that the peer's direction is awake. -/
def execItvFrameReceive (die : Nat) (crcOk : Bool) (type hops dst src seq ack : Nat) (payload : List Byte) (s : State) :
    Host.Outcome State Fault Refusal :=
  s.onDie die fun _ h =>
    if h.rd die A.itv_state 0 ≠ 2 then h
    else
      let f : ItvFrame := { type := type, hops := hops, dst := dst, src := src, seq := seq, ack := ack, payload := payload }
      let h := if h.rd die A.rx_pm 0 = 1 then h.itvPm die 1 0 else h
      let r := h.linkAccept die crcOk f
      if r.1 then r.2.linkFrame die die f else r.2

/-! ### Tunnel and other datagrams (R423, R424) -/

/-- The entry of `tun_peers` that an address, a UDP port and a local port name. -/
def Hw.tunnelOf (h : Hw) (d port ip udp : Nat) : Option Nat :=
  (List.range 16).find? fun i =>
    let e := (List.range 21).map fun j => h.blkByte (rkey 0 A.tun_peers 0) (32 * i + j)
    fieldOf e 20 1 == 1 && leNat ((e.take 16).reverse) == ip && fieldOf e 16 2 == udp && fieldOf e 18 1 == d && fieldOf e 19 1 == port

/-- An ITV frame in a datagram (R424): one from an address and port that no entry names is discarded; the link is up once frames
in both directions have been acknowledged. -/
def Hw.tunnelFrame (h : Hw) (d port ip udp : Nat) (crcOk : Bool) (f : ItvFrame) : Hw :=
  match h.tunnelOf d port ip udp with
  | none => h.add d A.eth_drops port
  | some i =>
    let l := 8 + i
    let r := h.linkAccept l crcOk f
    let L := r.2.link l
    let h := if !L.up ∧ L.rxAcked ∧ L.txAcked then (r.2.tunPeer l true).linkPump l 64 else r.2
    if r.1 then h.linkFrame l d f else h

/-- TUNNEL_DATAGRAM (R424). -/
def execTunnelDatagram (die port ip udp : Nat) (crcOk : Bool) (type hops dst src seq ack : Nat) (payload : List Byte) (s : State) :
    Host.Outcome State Fault Refusal :=
  s.onUnit die port 2 fun _ h =>
    if h.ethUp die port then h.tunnelFrame die port ip udp crcOk
      { type := type, hops := hops, dst := dst, src := src, seq := seq, ack := ack, payload := payload }
    else h

/-- The bytes of a datagram read as an ITV frame (R414): whether its CRC, version and length are right. -/
def itvOf (b : List Byte) : Bool × ItvFrame :=
  let len := bits (wordAt b 0) 15 0
  let ok := 20 ≤ b.length && b.length == 20 + len && bits (wordAt b 0) 31 28 == 1 &&
    leNat (b.drop (b.length - 4)) == crc32c (b.take (b.length - 4))
  (ok, { type := bits (wordAt b 0) 27 24, hops := bits (wordAt b 0) 23 16, dst := bits (wordAt b 1) 17 0,
         src := bits (wordAt b 2) 17 0, seq := bits (wordAt b 3) 31 16, ack := bits (wordAt b 3) 15 0,
         payload := (b.drop 16).take len })

/-- A datagram on `grt_udp_port` (R276, R277). -/
def Hw.grtDatagram (h : Hw) (d port ip udp : Nat) (b : List Byte) : Hw :=
  let type := bits (fieldOf b 2 1) 3 0
  let len := fieldOf b 10 2
  let s := bits (fieldOf b 3 1) 3 0
  if (h.rd d A.grt_port_en 0).testBit port = false then h.add d A.eth_drops port
  else if b.length < 16 ∨ fieldOf b 0 2 ≠ 0x5247 ∨ bits (fieldOf b 2 1) 7 4 ≠ 1 ∨ b.length ≠ 16 + len ∨
      !((type == 1 && decide (1 ≤ len ∧ len ≤ 8192)) || (type == 4 && len == 0)) then h.add d A.grt_bad 0
  else if type = 1 then h.grtData d port ip udp s (fieldOf b 4 4) (fieldOf b 8 1) (fieldOf b 9 1) (fieldOf b 12 4) (b.drop 16)
  else h.grtReset d port ip udp s (fieldOf b 4 4) (fieldOf b 8 1)

/-- ETH_DATAGRAM (R423): a UDP datagram dispatched by its port. The stamps that PTP messages need come with PTP_MESSAGE. -/
def execEthDatagram (die port ip src dst : Nat) (data : List Byte) (s : State) : Host.Outcome State Fault Refusal :=
  s.onUnit die port 2 fun _ h =>
    if !h.ethUp die port then h
    else if dst = 50420 then h.remoteDatagram die port ip src data
    else if dst = h.rd die A.grt_udp_port 0 then h.grtDatagram die port ip src data
    else if dst = h.rd 0 A.tun_udp_port 0 then
      let f := itvOf data
      h.tunnelFrame die port ip src f.1 f.2
    else if dst = 319 ∨ dst = 320 then h
    else h.add die A.eth_drops port

/-! ### The BAR windows (R36, R38, R40, R103, R282, R426, R427, R498) -/

/-- A register's value after a write of `width` bytes at byte `o` of its `n` bytes. -/
def putAt (old n o width v : Nat) : Nat :=
  leNat ((List.range n).map fun i => if o ≤ i ∧ i < o + width then BitVec.ofNat 8 (v / 256 ^ (i - o)) else BitVec.ofNat 8 (old / 256 ^ i))

/-- The bits of `bar2_ap` that are not reserved (R427). -/
def apertureMask : Nat := 2 ^ 63 + 7 * 2 ^ 40 + 0xFFF * 2 ^ 28

/-- A host write to a doorbell register (R40, R282, R427); anything else there is discarded and recorded. -/
def Hw.doorbellWrite (h : Hw) (d ep o width v : Nat) : Hw :=
  if o = 0 then h.rings d ep v
  else if o = 4 then h.onMbx d fun M => { M with done := M.done &&& (0xFFFF - v % 2 ^ 16) }
  else if o = 8 then h.onMbx d fun M => { M with irqEn := v % 2 ^ 16 }
  else if o = 0xC then h.onMbx d fun M => { M with vec := v % 64 }
  else if 0x100 ≤ o ∧ o < 0x180 ∧ o % 8 = 0 then h.dmaTail d ep ((o - 0x100) / 8) v
  else if 0x200 ≤ o ∧ o < 0x280 then
    let put (r : Nat) : Nat := putAt r 8 (o % 8) width v &&& apertureMask
    { h with eps := h.eps.modify ep fun e => { e with apertures := e.apertures.modify ((o - 0x200) / 8) put } }
  else h.barReject ep 0 (d * 2 ^ 16 + 0x1000 + o) true

/-- A host write to the queue pointer window (R103, R105). -/
def Hw.pointerWrite (h : Hw) (ms : List (List Host.Cell)) (d ep o v : Nat) : Hw :=
  let q := o / 64
  if o % 64 = 0 then qpWrWrite d ep q v ms h
  else if o % 64 = 4 then qpRdWrite d ep q v ms h
  else if o % 64 = 0x14 then h.onQ d q fun q => { q with sticky := q.sticky &&& (15 - v % 16) }
  else h.barReject ep 0 (d * 2 ^ 16 + 0x3000 + o) true

/-- A host write to BAR4: the MSI-X table; the pending-bit array and the rest are not written (R426). -/
def Hw.bar4Write (h : Hw) (ep o width v : Nat) : Hw :=
  if o < 1024 then
    { h with eps := h.eps.modify ep fun e => { e with msixTable := e.msixTable.modify (o / 4) fun r => putAt r 4 (o % 4) width v } }
  else h.barReject ep 4 o true

/-- A write of the selector of the event ring at byte `i` (R498). -/
def Hw.selectWrite (h : Hw) (die i width value : Nat) : Hw :=
  h.onDie die fun D => { D with erSel := putAt D.erSel 8 i width value }

/-- REGISTER_WRITE (R36): `off` names a byte of the die's 64 KiB window of BAR0, and from 0x10000 on a byte of the endpoint's
BAR4 (assumption log 20); `width` in bytes. -/
def execRegisterWrite (die ep off width value : Nat) (s : State) : Host.Outcome State Fault Refusal :=
  s.onUnit die ep 2 fun ms h =>
    if off < 0x1000 then h.slotWrite die (off / 256) (off % 256) (leBytes width value)
    else if off < 0x2000 then h.doorbellWrite die ep (off - 0x1000) width value
    else if 0x3000 ≤ off ∧ off < 0x4000 then h.pointerWrite ms die ep (off - 0x3000) value
    else if 0x4000 ≤ off ∧ off < 0x4008 then h.selectWrite die (off - 0x4000) width value
    else if 0x10000 ≤ off ∧ off < 0x14000 then h.bar4Write ep (off - 0x10000) width value
    else h.barReject ep 0 (die * 2 ^ 16 + off) true

/-- A byte of a register of `n` bytes at `a`, if the offset lies in it. -/
def regByte (off a n v : Nat) : Option Byte := if a ≤ off ∧ off < a + n then some (BitVec.ofNat 8 (v / 256 ^ (off - a))) else none

/-- A byte of the doorbell registers. -/
def Hw.doorbellByte (h : Hw) (d ep o : Nat) : Byte :=
  let M := (h.die d).mbx
  if 0x100 ≤ o ∧ o < 0x180 then
    let t := h.stream d ((o - 0x100) / 8)
    BitVec.ofNat 8 ((t.dmaHead * 2 ^ 32 + t.dmaTail) / 256 ^ (o % 8))
  else if 0x200 ≤ o ∧ o < 0x280 then
    BitVec.ofNat 8 ((h.eps.getD ep Endpoint.reset).apertures.getD ((o - 0x200) / 8) 0 / 256 ^ (o % 8))
  else
    (([(0, M.busy), (4, M.done), (8, M.irqEn), (0xC, M.vec), (0x10, M.busyHits)] : List (Nat × Nat)).findSome? fun x =>
      regByte o x.1 4 x.2).getD 0

/-- A byte of the queue pointer window (R103). -/
def Hw.pointerByte (h : Hw) (d o : Nat) : Byte :=
  let q := h.q d (o / 64)
  (([(0, 4, q.wr), (4, 4, q.rd), (8, 4, q.cmt), (0xC, 4, q.depth), (0x10, 4, q.stateBits), (0x14, 4, q.sticky), (0x18, 8, q.last)] :
    List (Nat × Nat × Nat)).findSome? fun x => regByte (o % 64) x.1 x.2.1 x.2.2).getD 0

/-- A byte of the event recorder's window (R498, R499). -/
def Hw.recorderByte (h : Hw) (d o : Nat) : Byte :=
  if 0x400 ≤ o ∧ o < 0x8400 then ((h.entryAt ((h.die d).erSel + (o - 0x400) / 32)).getD (o % 32) 0)
  else (([(0, (h.die d).erSel), (8, h.rd 0 A.er_oldest 0), (0x10, h.rd 0 A.er_newest 0), (0x18, h.rd 0 A.er_durable 0)] :
    List (Nat × Nat)).findSome? fun x => regByte o x.1 8 x.2).getD 0

/-- A byte that a host reads in a die's window of BAR0, or from 0x10000 on in BAR4; reserved bytes read 0. -/
def Hw.windowByte (h : Hw) (d ep off : Nat) : Byte :=
  let E := h.eps.getD ep Endpoint.reset
  if off < 0x1000 then (h.slot d (off / 256)).getD (off % 256) 0
  else if off < 0x2000 then h.doorbellByte d ep (off - 0x1000)
  else if off < 0x3000 then (h.sbBytes d).getD (off - 0x2000) 0
  else if off < 0x4000 then h.pointerByte d (off - 0x3000)
  else if off < 0x10000 then h.recorderByte d (off - 0x4000)
  else if off < 0x10400 then BitVec.ofNat 8 (E.msixTable.getD ((off - 0x10000) / 4) 0 / 256 ^ (off % 4))
  else if 0x12000 ≤ off ∧ off < 0x12008 then BitVec.ofNat 8 (E.msixPending / 256 ^ (off - 0x12000))
  else 0

/-- BAR_RC_READ (R12, R40): a host read of a window; a read of `mbx_busy_hits` clears it. -/
def execBarRcRead (die ep off width : Nat) (s : State) : Host.Outcome State Fault Refusal :=
  s.onUnit die ep 2 fun _ h =>
    let h' := h.emit (.readBytes ((List.range width).map fun i => h.windowByte die ep (off + i)))
    if off < 0x1014 ∧ 0x1010 < off + width then h'.onMbx die fun M => { M with busyHits := 0 } else h'

/-- A byte of device memory as a host reads it (R35, R36); a range without host access reads 0. -/
def Hw.hostByte (h : Hw) (ms : List (List Host.Cell)) (d a : Nat) : Byte :=
  match region a with
  | .qct | .ct | .lamp | .pool => h.byte ms d a
  | .dram => if h.on d domMEM then h.byte ms d a else 0
  | .bank b =>
    let o := a - (if b = 0 then 0x1000100000 else 0x10001C0000)
    BitVec.ofNat 8 (h.bankWord d b (o / 8) / 256 ^ (o % 8))
  | .tile => h.blkByte (rkey d A.dither_tile 0) (a - 0x1000280000)
  | .reserved | .rildin | .unmapped => 0

/-- Whether a host read of an address is recorded as BAR_REJECT (R36). -/
def Hw.readRejected (h : Hw) (d a : Nat) : Bool :=
  match region a with
  | .rildin | .unmapped => true
  | .dram => !h.on d domMEM
  | _ => false

/-- BAR2_ACCESS (R36, R426, R427): a host write of bytes, or a read of as many, through an aperture. -/
def execBar2Access (ep off : Nat) (write : Bool) (data : List Byte) (s : State) : Host.Outcome State Fault Refusal :=
  s.onUnit 0 ep 2 fun ms h =>
    match h.aperture ep off, write with
    | some (d, a), true => h.deviceWrite ep d a data
    | some (d, a), false =>
      let h := if h.readRejected d a then h.barReject ep 2 a false else h
      h.emit (.readBytes ((List.range data.length).map fun i => h.hostByte ms d (a + i)))
    | none, true => h.barReject ep 2 off true
    | none, false => (h.barReject ep 2 off false).emit (.readBytes (data.map fun _ => 0))

end Sys2Proof.Machine
end

