-- ==== Sys2Proof/Machine/Dispatch.lean ====
section
/-! DEFINITION. The dispatch: one arm per command of the opcode table, each one direct call of its meaning. -/
namespace Sys2Proof.Machine

/-- The effect of a command on everything but the queue. -/
def exec (i : Instr) (s : State) : Host.Outcome State Fault Refusal :=
  match i with
  | .registerWrite die ep off width value => Sys2Proof.Machine.execRegisterWrite die ep off width value s
  | .barRcRead die ep off width => Sys2Proof.Machine.execBarRcRead die ep off width s
  | .mbxSlotWrite die ep slot off data => Sys2Proof.Machine.execMbxSlotWrite die ep slot off data s
  | .mbxRing die ep mask => Sys2Proof.Machine.execMbxRing die ep mask s
  | .remoteMailboxDatagram die eth ip port data => Sys2Proof.Machine.execRemoteMailboxDatagram die eth ip port data s
  | .commandComplete origin tag => Sys2Proof.Machine.execCommandComplete origin tag s
  | .commandTimeout origin tag => Sys2Proof.Machine.execCommandTimeout origin tag s
  | .stageDiscard die obj => Sys2Proof.Machine.execStageDiscard die obj s
  | .statusBlockUpdate die => Sys2Proof.Machine.execStatusBlockUpdate die s
  | .idRead h => Sys2Proof.Machine.execIdRead h s
  | .sysState h => Sys2Proof.Machine.execSysState h s
  | .blSet h level => Sys2Proof.Machine.execBlSet h level s
  | .cmdStatus h tag => Sys2Proof.Machine.execCmdStatus h tag s
  | .objGet h obj => Sys2Proof.Machine.execObjGet h obj s
  | .objSet h obj value line => Sys2Proof.Machine.execObjSet h obj value line s
  | .objGetBlock h obj off len => Sys2Proof.Machine.execObjGetBlock h obj off len s
  | .objSetBlock h obj commit line off data => Sys2Proof.Machine.execObjSetBlock h obj commit line off data s
  | .fwBegin h size => Sys2Proof.Machine.execFwBegin h size s
  | .fwData h off data => Sys2Proof.Machine.execFwData h off data s
  | .fwEnd h => Sys2Proof.Machine.execFwEnd h s
  | .fwActivate h => Sys2Proof.Machine.execFwActivate h s
  | .fwAbort h => Sys2Proof.Machine.execFwAbort h s
  | .fwSessionTimeout => Sys2Proof.Machine.execFwSessionTimeout s
  | .qpWrWrite die ep q value => Sys2Proof.Machine.execQpWrWrite die ep q value s
  | .qpRdWrite die ep q value => Sys2Proof.Machine.execQpRdWrite die ep q value s
  | .stallPushRetry die q => Sys2Proof.Machine.execStallPushRetry die q s
  | .queueWriteback die q => Sys2Proof.Machine.execQueueWriteback die q s
  | .queueInvalidate h first count => Sys2Proof.Machine.execQueueInvalidate h first count s
  | .queueEnable h first count bad => Sys2Proof.Machine.execQueueEnable h first count bad s
  | .queueDisable h first count => Sys2Proof.Machine.execQueueDisable h first count s
  | .queueFlush h first count => Sys2Proof.Machine.execQueueFlush h first count s
  | .queueStatus h q => Sys2Proof.Machine.execQueueStatus h q s
  | .encEdge die ch a b t => Sys2Proof.Machine.execEncEdge die ch a b t s
  | .encLosSet die ch pin t => Sys2Proof.Machine.execEncLosSet die ch pin t s
  | .encLosClear die ch t => Sys2Proof.Machine.execEncLosClear die ch t s
  | .indexPulse die ch t => Sys2Proof.Machine.execIndexPulse die ch t s
  | .absWordRequest die ch dat => Sys2Proof.Machine.execAbsWordRequest die ch dat s
  | .absRequest h ch => Sys2Proof.Machine.execAbsRequest h ch s
  | .absWordComplete die ch ack word => Sys2Proof.Machine.execAbsWordComplete die ch ack word s
  | .absTimeout die ch => Sys2Proof.Machine.execAbsTimeout die ch s
  | .encMag die ch input rising t => Sys2Proof.Machine.execEncMag die ch input rising t s
  | .stillTimeout die ch => Sys2Proof.Machine.execStillTimeout die ch s
  | .pergolaPairReceive die src => Sys2Proof.Machine.execPergolaPairReceive die src s
  | .posSet h what value => Sys2Proof.Machine.execPosSet h what value s
  | .posLatch h => Sys2Proof.Machine.execPosLatch h s
  | .cmpArm h unit_ pulse event lpos rev lateOk value step => Sys2Proof.Machine.execCmpArm h unit_ pulse event lpos rev lateOk value step s
  | .cmpDisarm h unit_ => Sys2Proof.Machine.execCmpDisarm h unit_ s
  | .fireTimerMatch die port => Sys2Proof.Machine.execFireTimerMatch die port s
  | .commitDeadline die port slot => Sys2Proof.Machine.execCommitDeadline die port slot s
  | .pressRunAccept level => Sys2Proof.Machine.execPressRunAccept level s
  | .headParkedAccept level => Sys2Proof.Machine.execHeadParkedAccept level s
  | .eStopAccept => Sys2Proof.Machine.execEStopAccept s
  | .eStopReleaseAccept => Sys2Proof.Machine.execEStopReleaseAccept s
  | .leResume h => Sys2Proof.Machine.execLeResume h s
  | .hsForce h levels => Sys2Proof.Machine.execHsForce h levels s
  | .hsRelease h => Sys2Proof.Machine.execHsRelease h s
  | .leStatus h => Sys2Proof.Machine.execLeStatus h s
  | .slotShift die port t => Sys2Proof.Machine.execSlotShift die port t s
  | .staleReshift die port => Sys2Proof.Machine.execStaleReshift die port s
  | .headQuery die port start data crc => Sys2Proof.Machine.execHeadQuery die port start data crc s
  | .lvdsFault die port pair => Sys2Proof.Machine.execLvdsFault die port pair s
  | .hpEnable h ports => Sys2Proof.Machine.execHpEnable h ports s
  | .hpDisable h ports => Sys2Proof.Machine.execHpDisable h ports s
  | .hpRestart h ports bad => Sys2Proof.Machine.execHpRestart h ports bad s
  | .hpQuery h port arg cmd len => Sys2Proof.Machine.execHpQuery h port arg cmd len s
  | .hpSpitParked h ports lines => Sys2Proof.Machine.execHpSpitParked h ports lines s
  | .hpSpitStop h ports => Sys2Proof.Machine.execHpSpitStop h ports s
  | .hpSpitWeb h ctx ports first count => Sys2Proof.Machine.execHpSpitWeb h ctx ports first count s
  | .spitLine die port t => Sys2Proof.Machine.execSpitLine die port t s
  | .toneLine die port line => Sys2Proof.Machine.execToneLine die port line s
  | .tbSwapDecision die bank => Sys2Proof.Machine.execTbSwapDecision die bank s
  | .tbBuild h bank => Sys2Proof.Machine.execTbBuild h bank s
  | .tbBuildAbort h bank => Sys2Proof.Machine.execTbBuildAbort h bank s
  | .tbBuilt die bank t => Sys2Proof.Machine.execTbBuilt die bank t s
  | .tbSwap h ctx bank line => Sys2Proof.Machine.execTbSwap h ctx bank line s
  | .plStatus h port => Sys2Proof.Machine.execPlStatus h port s
  | .descriptorPush die ctx port => Sys2Proof.Machine.execDescriptorPush die ctx port s
  | .decodeStart die engine => Sys2Proof.Machine.execDecodeStart die engine s
  | .decodeComplete die engine mem => Sys2Proof.Machine.execDecodeComplete die engine mem s
  | .codecVerify h port greyscale margin nozzles addr stored out => Sys2Proof.Machine.execCodecVerify h port greyscale margin nozzles addr stored out s
  | .codecCompressSubmit h queue back tag addr row stride rows line limit per => Sys2Proof.Machine.execCodecCompressSubmit h queue back tag addr row stride rows line limit per s
  | .codecCompressAbort h queue tag => Sys2Proof.Machine.execCodecCompressAbort h queue tag s
  | .compressJobStart die => Sys2Proof.Machine.execCompressJobStart die s
  | .compressBlockEnd die tokens mem => Sys2Proof.Machine.execCompressBlockEnd die tokens mem s
  | .ctxOpen h ctx bad => Sys2Proof.Machine.execCtxOpen h ctx bad s
  | .ctxStartAbs h ctx x0 => Sys2Proof.Machine.execCtxStartAbs h ctx x0 s
  | .ctxStartAfter h ctx after => Sys2Proof.Machine.execCtxStartAfter h ctx after s
  | .switchFix die => Sys2Proof.Machine.execSwitchFix die s
  | .ctxStop h ctx => Sys2Proof.Machine.execCtxStop h ctx s
  | .ctxClose h ctx => Sys2Proof.Machine.execCtxClose h ctx s
  | .ctxAbort h ctx => Sys2Proof.Machine.execCtxAbort h ctx s
  | .ctxInvalidate h first count => Sys2Proof.Machine.execCtxInvalidate h first count s
  | .contextWriteback die ctx => Sys2Proof.Machine.execContextWriteback die ctx s
  | .runwayStatus h => Sys2Proof.Machine.execRunwayStatus h s
  | .grtData die eth ip udp stream seq ctx flags off data => Sys2Proof.Machine.execGrtData die eth ip udp stream seq ctx flags off data s
  | .grtReset die eth ip udp stream seq ctx => Sys2Proof.Machine.execGrtReset die eth ip udp stream seq ctx s
  | .grtAckTimer die stream => Sys2Proof.Machine.execGrtAckTimer die stream s
  | .dmaTailWrite die ep stream value => Sys2Proof.Machine.execDmaTailWrite die ep stream value s
  | .dmaBlockFetch die stream stored ok data => Sys2Proof.Machine.execDmaBlockFetch die stream stored ok data s
  | .blockStore die stream mem => Sys2Proof.Machine.execBlockStore die stream mem s
  | .stopFixed die => Sys2Proof.Machine.execStopFixed die s
  | .backupTimeout die => Sys2Proof.Machine.execBackupTimeout die s
  | .stopRelease die => Sys2Proof.Machine.execStopRelease die s
  | .csiFrameStart die cam num t => Sys2Proof.Machine.execCsiFrameStart die cam num t s
  | .csiLine die cam vc dt ecc crcOk lost px => Sys2Proof.Machine.execCsiLine die cam vc dt ecc crcOk lost px s
  | .csiFrameEnd die cam t => Sys2Proof.Machine.execCsiFrameEnd die cam t s
  | .frameTimeout die cam => Sys2Proof.Machine.execFrameTimeout die cam s
  | .ispFrameDone die stream => Sys2Proof.Machine.execIspFrameDone die stream s
  | .mpFrameProcess die => Sys2Proof.Machine.execMpFrameProcess die s
  | .psetListComplete die cam result index => Sys2Proof.Machine.execPsetListComplete die cam result index s
  | .camWake h port => Sys2Proof.Machine.execCamWake h port s
  | .camEnable h port => Sys2Proof.Machine.execCamEnable h port s
  | .camDisable h port => Sys2Proof.Machine.execCamDisable h port s
  | .camSleep h port => Sys2Proof.Machine.execCamSleep h port s
  | .camSnap h port => Sys2Proof.Machine.execCamSnap h port s
  | .camRelease h port slots => Sys2Proof.Machine.execCamRelease h port slots s
  | .camApply h port set frame => Sys2Proof.Machine.execCamApply h port set frame s
  | .camI2c h read port addr reg len data => Sys2Proof.Machine.execCamI2c h read port addr reg len data s
  | .chainRefresh die chain bad => Sys2Proof.Machine.execChainRefresh die chain bad s
  | .chainReturn die chain inTime got => Sys2Proof.Machine.execChainReturn die chain inTime got s
  | .lampWriteback die chain => Sys2Proof.Machine.execLampWriteback die chain s
  | .chainEnable h chains => Sys2Proof.Machine.execChainEnable h chains s
  | .chainDisable h chains => Sys2Proof.Machine.execChainDisable h chains s
  | .chainEnum h chains => Sys2Proof.Machine.execChainEnum h chains s
  | .lampInvalidate h first count => Sys2Proof.Machine.execLampInvalidate h first count s
  | .lampCtrlClear h chain first count => Sys2Proof.Machine.execLampCtrlClear h chain first count s
  | .lampCtrlDiag h chain mask first count => Sys2Proof.Machine.execLampCtrlDiag h chain mask first count s
  | .mxStep die csns diag => Sys2Proof.Machine.execMxStep die csns diag s
  | .mxStart h => Sys2Proof.Machine.execMxStart h s
  | .mxStop h => Sys2Proof.Machine.execMxStop h s
  | .chPageEvaluate => Sys2Proof.Machine.execChPageEvaluate s
  | .chStart h ctx bars => Sys2Proof.Machine.execChStart h ctx bars s
  | .chStop h bars => Sys2Proof.Machine.execChStop h bars s
  | .chFreeze h bars => Sys2Proof.Machine.execChFreeze h bars s
  | .chResume h bars => Sys2Proof.Machine.execChResume h bars s
  | .chCaptureRef h bars => Sys2Proof.Machine.execChCaptureRef h bars s
  | .chStatus h bar => Sys2Proof.Machine.execChStatus h bar s
  | .servoSample tb gm thetaPs t => Sys2Proof.Machine.execServoSample tb gm thetaPs t s
  | .slewEnd tb => Sys2Proof.Machine.execSlewEnd tb s
  | .holdoverTimeout tb => Sys2Proof.Machine.execHoldoverTimeout tb s
  | .tbChangeApply die => Sys2Proof.Machine.execTbChangeApply die s
  | .timeAlign die tb => Sys2Proof.Machine.execTimeAlign die tb s
  | .ptpMessage die port msg => Sys2Proof.Machine.execPtpMessage die port msg s
  | .announceTimeout die port => Sys2Proof.Machine.execAnnounceTimeout die port s
  | .pulseOutputMatch die out => Sys2Proof.Machine.execPulseOutputMatch die out s
  | .captureEdge die input rising t => Sys2Proof.Machine.execCaptureEdge die input rising t s
  | .tbRead h => Sys2Proof.Machine.execTbRead h s
  | .tbStep h tb offset => Sys2Proof.Machine.execTbStep h tb offset s
  | .poArm h mode out start period count => Sys2Proof.Machine.execPoArm h mode out start period count s
  | .itvTrainingStart die => Sys2Proof.Machine.execItvTrainingStart die s
  | .itvTrainStepDone die res => Sys2Proof.Machine.execItvTrainStepDone die res s
  | .itvTrainFail die => Sys2Proof.Machine.execItvTrainFail die s
  | .itvRetry die => Sys2Proof.Machine.execItvRetry die s
  | .itvFrameReceive die crcOk type hops dst src seq ack payload => Sys2Proof.Machine.execItvFrameReceive die crcOk type hops dst src seq ack payload s
  | .itvAckTimeout link => Sys2Proof.Machine.execItvAckTimeout link s
  | .itvSleepEnter die => Sys2Proof.Machine.execItvSleepEnter die s
  | .itvDeepPropose die => Sys2Proof.Machine.execItvDeepPropose die s
  | .itvDeepExit die => Sys2Proof.Machine.execItvDeepExit die s
  | .eyeScanComplete die lane width height => Sys2Proof.Machine.execEyeScanComplete die lane width height s
  | .ethDatagram die port ip src dst data => Sys2Proof.Machine.execEthDatagram die port ip src dst data s
  | .tunnelDatagram die port ip udp crcOk type hops dst src seq ack payload => Sys2Proof.Machine.execTunnelDatagram die port ip udp crcOk type hops dst src seq ack payload s
  | .pcieFlr ep => Sys2Proof.Machine.execPcieFlr ep s
  | .perstLLow ep => Sys2Proof.Machine.execPerstLLow ep s
  | .bar2Access ep off write data => Sys2Proof.Machine.execBar2Access ep off write data s
  | .enumFrame link serial masterEn priority dies chains place lo hi => Sys2Proof.Machine.execEnumFrame link serial masterEn priority dies chains place lo hi s
  | .autoEnum => Sys2Proof.Machine.execAutoEnum s
  | .timeSyncExchange link t1 t2 t3 t4 t => Sys2Proof.Machine.execTimeSyncExchange link t1 t2 t3 t4 t s
  | .itvEnable h => Sys2Proof.Machine.execItvEnable h s
  | .itvDisable h => Sys2Proof.Machine.execItvDisable h s
  | .itvRetrain h => Sys2Proof.Machine.execItvRetrain h s
  | .itvEyeRead h lanes => Sys2Proof.Machine.execItvEyeRead h lanes s
  | .itvEyeMeasure h lanes => Sys2Proof.Machine.execItvEyeMeasure h lanes s
  | .sysEnumFresh h => Sys2Proof.Machine.execSysEnumFresh h s
  | .sysEnumKeep h => Sys2Proof.Machine.execSysEnumKeep h s
  | .sysNode h addr => Sys2Proof.Machine.execSysNode h addr s
  | .housekeepingRound die t raws vals => Sys2Proof.Machine.execHousekeepingRound die t raws vals s
  | .criticalShutdown die => Sys2Proof.Machine.execCriticalShutdown die s
  | .thermTrip die sensor t => Sys2Proof.Machine.execThermTrip die sensor t s
  | .calRun h insts => Sys2Proof.Machine.execCalRun h insts s
  | .calRunGap h insts => Sys2Proof.Machine.execCalRunGap h insts s
  | .calQuality h insts => Sys2Proof.Machine.execCalQuality h insts s
  | .calAbort h insts => Sys2Proof.Machine.execCalAbort h insts s
  | .calDone die inst quality values => Sys2Proof.Machine.execCalDone die inst quality values s
  | .calNoGap die inst => Sys2Proof.Machine.execCalNoGap die inst s
  | .thermStatus h => Sys2Proof.Machine.execThermStatus h s
  | .watchdogExpiry die serviced => Sys2Proof.Machine.execWatchdogExpiry die serviced s
  | .sramEccError die => Sys2Proof.Machine.execSramEccError die s
  | .mgmtPowerLoss die => Sys2Proof.Machine.execMgmtPowerLoss die s
  | .leadTakeover us => Sys2Proof.Machine.execLeadTakeover us s
  | .kennelCheckpoint => Sys2Proof.Machine.execKennelCheckpoint s
  | .kennelWriteDone ok => Sys2Proof.Machine.execKennelWriteDone ok s
  | .leadRepair => Sys2Proof.Machine.execLeadRepair s
  | .leadStandby die pass => Sys2Proof.Machine.execLeadStandby die pass s
  | .leadMove h => Sys2Proof.Machine.execLeadMove h s
  | .leadCtrlRepair h die => Sys2Proof.Machine.execLeadCtrlRepair h die s
  | .leadCheckpoint h => Sys2Proof.Machine.execLeadCheckpoint h s
  | .leadAck h => Sys2Proof.Machine.execLeadAck h s
  | .eventRaise die code data => Sys2Proof.Machine.execEventRaise die code data s
  | .eventNumber die => Sys2Proof.Machine.execEventNumber die s
  | .eventProgram => Sys2Proof.Machine.execEventProgram s
  | .bucketRefillFlush die code => Sys2Proof.Machine.execBucketRefillFlush die code s
  | .evtBacklog die => Sys2Proof.Machine.execEvtBacklog die s
  | .evtRead h first count => Sys2Proof.Machine.execEvtRead h first count s
  | .evtLimitSet h code rate burst => Sys2Proof.Machine.execEvtLimitSet h code rate burst s
  | .evtLimitGet h code => Sys2Proof.Machine.execEvtLimitGet h code s
  | .porstRise straps railsGood alive => Sys2Proof.Machine.execPorstRise straps railsGood alive s
  | .sysRstL straps => Sys2Proof.Machine.execSysRstL straps s
  | .railFault die rail value => Sys2Proof.Machine.execRailFault die rail value s
  | .railGood straps => Sys2Proof.Machine.execRailGood straps s
  | .clkFault die => Sys2Proof.Machine.execClkFault die s
  | .clockGood straps gapNs => Sys2Proof.Machine.execClockGood straps gapNs s
  | .bootConfirm bootMs => Sys2Proof.Machine.execBootConfirm bootMs s
  | .bootWatchdog straps confirmed => Sys2Proof.Machine.execBootWatchdog straps confirmed s
  | .dieBootTimeout die => Sys2Proof.Machine.execDieBootTimeout die s
  | .modeSetGatehouse h => Sys2Proof.Machine.execModeSetGatehouse h s
  | .modeSetHosted h => Sys2Proof.Machine.execModeSetHosted h s
  | .ghSpitTimer => Sys2Proof.Machine.execGhSpitTimer s
  | .ghStatus h => Sys2Proof.Machine.execGhStatus h s
  | .domainOn h die mask => Sys2Proof.Machine.execDomainOn h die mask s
  | .domainOff h die mask => Sys2Proof.Machine.execDomainOff h die mask s
  | .dieReset h die => Sys2Proof.Machine.execDieReset h die s
  | .pkgReset h => Sys2Proof.Machine.execPkgReset h s
  | .tripClear h die => Sys2Proof.Machine.execTripClear h die s
  | .domainSwitchDone die => Sys2Proof.Machine.execDomainSwitchDone die s
  | .porstLLow => Sys2Proof.Machine.execPorstLLow s
  | .unmappedRead ep bar addr => Sys2Proof.Machine.execUnmappedRead ep bar addr s
  | .ethLinkChange die port up => Sys2Proof.Machine.execEthLinkChange die port up s
  | .pcieLinkChange ep gen width => Sys2Proof.Machine.execPcieLinkChange ep gen width s
  | .msixEnableWrite ep on => Sys2Proof.Machine.execMsixEnableWrite ep on s
  | .camI2cEnd die cam result data => Sys2Proof.Machine.execCamI2cEnd die cam result data s
  | .ptpMessageInterval die port kind => Sys2Proof.Machine.execPtpMessageInterval die port kind s
  | .itvPmBlockReceive die type => Sys2Proof.Machine.execItvPmBlockReceive die type s

end Sys2Proof.Machine
end

