-- ==== Sys2Proof/Safety.lean ====
section
/-!
DEFINITION. The terms in which claims about the block are stated: when a mailbox command is carried out, what a step leaves
behind, and the invariant of the memories. A run is safe while each of its steps answers a next state.
-/
namespace Sys2Proof.Machine

/-- A mailbox command with header `q`, opcode `op` and object address `o` reaches its own work: its die is in the package, the
die that executes it (R18) serves commands, and nothing refuses it beforehand (R82, R476, R484, R493, R519, R523). -/
def State.Admits (s : State) (q : Hdr) (op : Nat) (o : ObjRef) : Prop :=
  q.die < s.hw.dies.length ∧ s.hw.serves (s.hw.execDie q op o) = true ∧
    s.hw.turnedAway (s.hw.execDie q op o) (srcOf q.origin) op o = none

/-- The record on which a step's effect works: the outputs and stores of the last step are gone. -/
def State.begun (s : State) : Hw := { s.hw with stores := [], wipes := [], out := [] }

/-- The hardware as the mailbox command of `q` finds it: the command is marked under way. -/
def State.atWork (s : State) (q : Hdr) : Hw := s.begun.started q

/-- The reply that stands for a command of origin and tag of `q` until its completion is visible (R54). -/
def State.replyOf (t : State) (q : Hdr) : Option Reply := t.hw.reply? q.origin q.tag

/-- The status of that reply. -/
def State.statusOf (t : State) (q : Hdr) : Option Status := (t.replyOf q).map (·.status)

/-! ### Frames -/

/-- The records of a die. -/
inductive DieRec where
  | mbx | sb | queues | front | buckets | folded | erSel | tbs | tbChanges | pulses | capFresh | ptp | itv | up | enc | pos | hwmOn | leaving | ports | spits
  | changes | banks | bankFrom | codec | ctxs | ctxCache | streams | stop | cams | ispRun | chains | lamps | mx | sensors | crit | cals | nvTables | nvWait | lineFaults | pdWork
  deriving DecidableEq, Repr

/-- The records of the package. -/
inductive HwRec where
  | blks | stages | clk | free | nextId | replies | bl | mode | lead | leadSt | takeover | kennelWriting | kennel | kennelFailRun | kennelAt | kennelLateSeen
  | moving | ckptWork | repairWork | repairArmed | safeFrom | pkg | faultMask | ring | evtNext | evtDurable | limits | fwSlots | fw | fwBooted | bootWatch | eps
  | tunnels | hsIn | ghRelease | hostedWait | porst | alive | fwKept | resetDue | railFault | clkFault | hsForce | hsPins | hsOn | hsSeen | gh | stores | wipes | out
  deriving DecidableEq, Repr

/-- A record of two dies is the same. -/
def DieRec.same : DieRec → Die → Die → Prop
  | .mbx, D, E => E.mbx = D.mbx
  | .sb, D, E => E.sb = D.sb
  | .queues, D, E => E.queues = D.queues
  | .front, D, E => E.front = D.front
  | .buckets, D, E => E.buckets = D.buckets
  | .folded, D, E => E.folded = D.folded
  | .erSel, D, E => E.erSel = D.erSel
  | .tbs, D, E => E.tbs = D.tbs
  | .tbChanges, D, E => E.tbChanges = D.tbChanges
  | .pulses, D, E => E.pulses = D.pulses
  | .capFresh, D, E => E.capFresh = D.capFresh
  | .ptp, D, E => E.ptp = D.ptp
  | .itv, D, E => E.itv = D.itv
  | .up, D, E => E.up = D.up
  | .enc, D, E => E.enc = D.enc
  | .pos, D, E => E.pos = D.pos
  | .hwmOn, D, E => E.hwmOn = D.hwmOn
  | .leaving, D, E => E.leaving = D.leaving
  | .ports, D, E => E.ports = D.ports
  | .spits, D, E => E.spits = D.spits
  | .changes, D, E => E.changes = D.changes
  | .banks, D, E => E.banks = D.banks
  | .bankFrom, D, E => E.bankFrom = D.bankFrom
  | .codec, D, E => E.codec = D.codec
  | .ctxs, D, E => E.ctxs = D.ctxs
  | .ctxCache, D, E => E.ctxCache = D.ctxCache
  | .streams, D, E => E.streams = D.streams
  | .stop, D, E => E.stop = D.stop
  | .cams, D, E => E.cams = D.cams
  | .ispRun, D, E => E.ispRun = D.ispRun
  | .chains, D, E => E.chains = D.chains
  | .lamps, D, E => E.lamps = D.lamps
  | .mx, D, E => E.mx = D.mx
  | .sensors, D, E => E.sensors = D.sensors
  | .crit, D, E => E.crit = D.crit
  | .cals, D, E => E.cals = D.cals
  | .nvTables, D, E => E.nvTables = D.nvTables
  | .nvWait, D, E => E.nvWait = D.nvWait
  | .lineFaults, D, E => E.lineFaults = D.lineFaults
  | .pdWork, D, E => E.pdWork = D.pdWork

/-- A record of two packages is the same. -/
def HwRec.same : HwRec → Hw → Hw → Prop
  | .blks, h, k => k.blks = h.blks
  | .stages, h, k => k.stages = h.stages
  | .clk, h, k => k.clk = h.clk
  | .free, h, k => k.free = h.free
  | .nextId, h, k => k.nextId = h.nextId
  | .replies, h, k => k.replies = h.replies
  | .bl, h, k => k.bl = h.bl
  | .mode, h, k => k.mode = h.mode
  | .lead, h, k => k.lead = h.lead
  | .leadSt, h, k => k.leadSt = h.leadSt
  | .takeover, h, k => k.takeover = h.takeover
  | .kennelWriting, h, k => k.kennelWriting = h.kennelWriting
  | .kennel, h, k => k.kennel = h.kennel
  | .kennelFailRun, h, k => k.kennelFailRun = h.kennelFailRun
  | .kennelAt, h, k => k.kennelAt = h.kennelAt
  | .kennelLateSeen, h, k => k.kennelLateSeen = h.kennelLateSeen
  | .moving, h, k => k.moving = h.moving
  | .ckptWork, h, k => k.ckptWork = h.ckptWork
  | .repairWork, h, k => k.repairWork = h.repairWork
  | .repairArmed, h, k => k.repairArmed = h.repairArmed
  | .safeFrom, h, k => k.safeFrom = h.safeFrom
  | .pkg, h, k => k.pkg = h.pkg
  | .faultMask, h, k => k.faultMask = h.faultMask
  | .ring, h, k => k.ring = h.ring
  | .evtNext, h, k => k.evtNext = h.evtNext
  | .evtDurable, h, k => k.evtDurable = h.evtDurable
  | .limits, h, k => k.limits = h.limits
  | .fwSlots, h, k => k.fwSlots = h.fwSlots
  | .fw, h, k => k.fw = h.fw
  | .fwBooted, h, k => k.fwBooted = h.fwBooted
  | .bootWatch, h, k => k.bootWatch = h.bootWatch
  | .eps, h, k => k.eps = h.eps
  | .tunnels, h, k => k.tunnels = h.tunnels
  | .hsIn, h, k => k.hsIn = h.hsIn
  | .ghRelease, h, k => k.ghRelease = h.ghRelease
  | .hostedWait, h, k => k.hostedWait = h.hostedWait
  | .porst, h, k => k.porst = h.porst
  | .alive, h, k => k.alive = h.alive
  | .fwKept, h, k => k.fwKept = h.fwKept
  | .resetDue, h, k => k.resetDue = h.resetDue
  | .railFault, h, k => k.railFault = h.railFault
  | .clkFault, h, k => k.clkFault = h.clkFault
  | .hsForce, h, k => k.hsForce = h.hsForce
  | .hsPins, h, k => k.hsPins = h.hsPins
  | .hsOn, h, k => k.hsOn = h.hsOn
  | .hsSeen, h, k => k.hsSeen = h.hsSeen
  | .gh, h, k => k.gh = h.gh
  | .stores, h, k => k.stores = h.stores
  | .wipes, h, k => k.wipes = h.wipes
  | .out, h, k => k.out = h.out

/-- The number of an attribute, by which frames name it. -/
def AttrId.code (a : AttrId) : Nat := a.cls * 65536 + a.id

/-- `h'` differs from `h` at most in the attributes `C` (by number; a class number stands for the whole class, 0 for every class),
in the records `F` of the dies and in the records `G` of the package. -/
structure Hw.Only (C : List Nat) (F : List DieRec) (G : List HwRec) (h h' : Hw) : Prop where
  len : h'.dies.length = h.dies.length
  rd : ∀ e a i, 0 ∉ C → a.cls ∉ C → a.code ∉ C → h'.rd e a i = h.rd e a i
  die : ∀ e f, f ∉ F → f.same (h.die e) (h'.die e)
  hw : ∀ g, g ∉ G → g.same h h'

/-- The frame of a command: the attributes it may change (by number; 0x1F stands for every attribute of the event recorder, 0 for
any attribute), and the records of the dies and of the package. -/
structure Touch where
  attrs : List Nat
  dies : List DieRec
  pkg : List HwRec
  deriving DecidableEq, Repr

/-- What each command may change, whatever its operands and the state: `none` for the power-on reset, and for the commands that carry
out others. -/
def Instr.touches : Instr → Option Touch
  | .registerWrite _ _ _ _ _ => some ⟨[0x1F, A.sources_seen.code, A.cfg_changes.code, A.q_max_depth.code, A.q_pushes.code,
      A.q_pops.code, A.q_underruns.code, A.q_overflows.code, A.q_pkt_bad.code, A.bar_rejects.code, A.tx_pm.code, A.rx_pm.code,
      A.frames_tx.code], [.mbx, .queues, .front, .buckets, .folded, .erSel, .itv, .streams], [.replies, .pkg, .eps, .tunnels]⟩
  | .barRcRead _ _ _ _ => some ⟨[], [.mbx, .streams], []⟩
  | .mbxSlotWrite _ _ _ _ _ => some ⟨[0x1F, A.sources_seen.code, A.cfg_changes.code, A.bar_rejects.code], [.mbx, .front, .buckets,
      .folded], [.pkg]⟩
  | .mbxRing _ _ _ => some ⟨[0x1F, A.sources_seen.code, A.cfg_changes.code, A.tx_pm.code, A.rx_pm.code, A.frames_tx.code], [.mbx,
      .front, .buckets, .folded, .itv], [.replies, .pkg, .tunnels]⟩
  | .remoteMailboxDatagram _ _ _ _ _ => some ⟨[0x1F, A.rmbx_bad.code, A.sources_seen.code, A.cfg_changes.code, A.eth_drops.code,
      A.tx_pm.code, A.rx_pm.code, A.frames_tx.code], [.mbx, .front, .buckets, .folded, .itv], [.replies, .pkg, .tunnels]⟩
  | .commandComplete _ _ => none
  | .commandTimeout _ _ => some ⟨[0x1F, A.mbx_timeouts.code, A.cfg_changes.code, A.q_max_depth.code, A.q_pushes.code,
      A.q_overflows.code, A.q_rewinds.code, A.q_oversize.code, A.q_pkt_bad.code, A.tx_pm.code, A.rx_pm.code, A.frames_tx.code], [.mbx,
      .queues, .front, .buckets, .folded, .itv], [.replies, .eps, .tunnels, .gh, .stores]⟩
  | .stageDiscard _ _ => some ⟨[0x1F, A.cfg_changes.code], [.front, .buckets, .folded], [.stages]⟩
  | .statusBlockUpdate _ => some ⟨[], [.sb], []⟩
  | .idRead _ => some ⟨[0x1F, A.cfg_changes.code], [.mbx, .front, .buckets, .folded], [.replies]⟩
  | .sysState _ => some ⟨[0x1F, A.cfg_changes.code], [.mbx, .front, .buckets, .folded], [.replies]⟩
  | .blSet _ _ => some ⟨[0x1F, A.bl_nv.code, A.cfg_changes.code], [.mbx, .front, .buckets, .folded], [.nextId, .replies, .pkg]⟩
  | .cmdStatus _ _ => some ⟨[0x1F, A.cfg_changes.code], [.mbx, .front, .buckets, .folded], [.replies]⟩
  | .objGet _ _ => some ⟨[0], [.mbx, .front, .buckets, .folded], [.replies]⟩
  | .objSet _ _ _ _ => some ⟨[0], [.mbx, .front, .buckets, .folded, .tbChanges, .pulses, .ptp, .enc, .pos, .ports, .changes], [.nextId,
      .replies, .pkg]⟩
  | .objGetBlock _ _ _ _ => some ⟨[0x1F, A.cfg_changes.code], [.mbx, .front, .buckets, .folded], [.replies]⟩
  | .objSetBlock _ _ _ _ _ _ => some ⟨[0x1F, A.cfg_changes.code, A.cfg_gen.code, A.bar_state.code, A.sys_role.code,
      A.master_serial.code, A.upstream.code, A.cal_state.code], [.mbx, .front, .buckets, .folded, .itv, .nvTables, .nvWait], [.blks,
      .stages, .replies, .pkg, .tunnels]⟩
  | .fwBegin _ _ => some ⟨[0x1F, A.cfg_changes.code], [.mbx, .front, .buckets, .folded], [.replies, .fwSlots, .fw, .fwKept]⟩
  | .fwData _ _ _ => some ⟨[0x1F, A.cfg_changes.code], [.mbx, .front, .buckets, .folded], [.replies, .fw]⟩
  | .fwEnd _ => some ⟨[0x1F, A.cfg_changes.code], [.mbx, .front, .buckets, .folded], [.replies, .fwSlots, .fw, .fwKept]⟩
  | .fwActivate _ => some ⟨[0x1F, A.cfg_changes.code], [.mbx, .front, .buckets, .folded], [.nextId, .replies, .pkg, .fwSlots, .fw,
      .fwKept]⟩
  | .fwAbort _ => some ⟨[0x1F, A.cfg_changes.code], [.mbx, .front, .buckets, .folded], [.replies, .fwSlots, .fw]⟩
  | .fwSessionTimeout => some ⟨[], [], [.fwSlots, .fw]⟩
  | .qpWrWrite _ _ _ _ => some ⟨[0x1F, A.sources_seen.code, A.cfg_changes.code, A.q_max_depth.code, A.q_pushes.code,
      A.q_overflows.code, A.q_pkt_bad.code], [.queues, .front, .buckets, .folded], [.pkg, .eps]⟩
  | .qpRdWrite _ _ _ _ => some ⟨[0x1F, A.sources_seen.code, A.cfg_changes.code, A.q_pops.code, A.q_underruns.code], [.queues, .front,
      .buckets, .folded], [.pkg, .eps]⟩
  | .stallPushRetry _ _ => some ⟨[0x1F, A.q_max_depth.code, A.q_pushes.code, A.q_overflows.code, A.q_rewinds.code, A.q_oversize.code,
      A.q_pkt_bad.code], [.queues, .front, .buckets, .folded], [.eps, .stores]⟩
  | .queueWriteback _ _ => some ⟨[], [], [.stores]⟩
  | .queueInvalidate _ _ _ => some ⟨[0x1F, A.cfg_changes.code], [.mbx, .queues, .front, .buckets, .folded], [.replies]⟩
  | .queueEnable _ _ _ _ => some ⟨[0x1F, A.cfg_changes.code, A.q_enabled.code], [.mbx, .queues, .front, .buckets, .folded], [.replies]⟩
  | .queueDisable _ _ _ => some ⟨[0x1F, A.cfg_changes.code, A.q_enabled.code, A.q_rewinds.code], [.mbx, .queues, .front, .buckets,
      .folded], [.replies, .stores]⟩
  | .queueFlush _ _ _ => some ⟨[0x1F, A.cfg_changes.code], [.mbx, .queues, .front, .buckets, .folded], [.replies, .eps]⟩
  | .queueStatus _ _ => some ⟨[0x1F, A.cfg_changes.code], [.mbx, .front, .buckets, .folded], [.replies]⟩
  | .encEdge _ _ _ _ _ => some ⟨[0], [.mbx, .queues, .front, .buckets, .folded, .tbs, .pulses, .enc, .pos, .hwmOn, .leaving, .ports,
      .changes, .banks, .bankFrom, .ctxs, .stop, .mx, .lineFaults], [.blks, .clk, .free, .mode, .pkg, .eps, .hostedWait, .hsForce,
      .hsPins, .gh, .stores]⟩
  | .encLosSet _ _ _ _ => some ⟨[0], [.mbx, .queues, .front, .buckets, .folded, .tbs, .pulses, .enc, .pos, .hwmOn, .leaving, .ports,
      .changes, .banks, .bankFrom, .ctxs, .stop, .mx, .lineFaults], [.blks, .clk, .free, .mode, .pkg, .eps, .hostedWait, .hsForce,
      .hsPins, .gh, .stores]⟩
  | .encLosClear _ _ _ => some ⟨[0], [.mbx, .queues, .front, .buckets, .folded, .tbs, .pulses, .pos, .hwmOn, .leaving, .ports,
      .changes, .banks, .bankFrom, .ctxs, .stop, .mx, .lineFaults], [.blks, .clk, .free, .mode, .pkg, .eps, .hostedWait, .hsForce,
      .hsPins, .gh, .stores]⟩
  | .indexPulse _ _ _ => some ⟨[0], [.mbx, .queues, .front, .buckets, .folded, .tbs, .pulses, .enc, .pos, .hwmOn, .leaving, .ports,
      .changes, .banks, .bankFrom, .ctxs, .stop, .mx, .lineFaults], [.blks, .clk, .free, .mode, .pkg, .eps, .hostedWait, .hsForce,
      .hsPins, .gh, .stores]⟩
  | .absWordRequest _ _ _ => some ⟨[0x1F], [.front, .buckets, .folded, .enc], []⟩
  | .absRequest _ _ => some ⟨[0x1F, A.cfg_changes.code], [.mbx, .front, .buckets, .folded, .enc], [.replies]⟩
  | .absWordComplete _ _ _ _ => some ⟨[0], [.mbx, .queues, .front, .buckets, .folded, .pulses, .enc, .pos, .hwmOn, .leaving, .ports,
      .changes, .banks, .bankFrom, .ctxs, .stop, .mx, .lineFaults], [.blks, .free, .mode, .pkg, .eps, .hostedWait, .hsForce, .hsPins,
      .gh, .stores]⟩
  | .absTimeout _ _ => some ⟨[0x1F, A.enc_flags.code, A.abs_errs.code], [.front, .buckets, .folded, .enc], []⟩
  | .encMag _ _ _ _ _ => some ⟨[0], [.mbx, .queues, .front, .buckets, .folded, .tbs, .pulses, .pos, .hwmOn, .leaving, .ports, .changes,
      .banks, .bankFrom, .ctxs, .stop, .mx, .lineFaults], [.blks, .clk, .free, .mode, .pkg, .eps, .hostedWait, .hsForce, .hsPins, .gh,
      .stores]⟩
  | .stillTimeout _ _ => some ⟨[0], [.mbx, .queues, .front, .buckets, .folded, .pulses, .pos, .hwmOn, .leaving, .ports, .changes,
      .banks, .bankFrom, .ctxs, .stop, .mx, .lineFaults], [.blks, .free, .mode, .pkg, .eps, .hostedWait, .hsForce, .hsPins, .gh,
      .stores]⟩
  | .pergolaPairReceive _ _ => some ⟨[0], [.mbx, .queues, .front, .buckets, .folded, .pulses, .pos, .hwmOn, .leaving, .ports, .changes,
      .banks, .bankFrom, .ctxs, .stop, .mx, .lineFaults], [.blks, .mode, .pkg, .eps, .hostedWait, .hsForce, .hsPins, .gh, .stores]⟩
  | .posSet _ _ _ => some ⟨[0], [.mbx, .queues, .front, .buckets, .folded, .pulses, .pos, .hwmOn, .leaving, .ports, .changes, .banks,
      .bankFrom, .ctxs, .stop, .mx, .lineFaults], [.blks, .free, .replies, .mode, .pkg, .eps, .hostedWait, .hsForce, .hsPins, .gh,
      .stores]⟩
  | .posLatch _ => some ⟨[0x1F, A.cfg_changes.code], [.mbx, .front, .buckets, .folded], [.replies]⟩
  | .cmpArm _ _ _ _ _ _ _ _ _ => some ⟨[0x1F, A.cfg_changes.code, A.cmp_state.code, A.cmp_value.code, A.cmp_ctl.code, A.cmp_step.code,
      A.cmp_fires.code, A.cmp_missed.code, A.cmp_last_tb1.code, A.po_state.code, A.po_next.code, A.po_skipped.code], [.mbx, .front,
      .buckets, .folded], [.replies]⟩
  | .cmpDisarm _ _ => some ⟨[0x1F, A.cfg_changes.code, A.cmp_state.code], [.mbx, .front, .buckets, .folded], [.replies]⟩
  | .fireTimerMatch _ _ => some ⟨[0], [.mbx, .queues, .front, .buckets, .folded, .tbs, .hwmOn, .leaving, .ports, .changes, .banks,
      .ctxs, .lineFaults], [.clk, .pkg, .eps, .stores]⟩
  | .commitDeadline _ _ _ => some ⟨[0], [.mbx, .queues, .front, .buckets, .folded, .hwmOn, .leaving, .ports, .changes, .banks, .ctxs,
      .lineFaults], [.pkg, .eps, .stores]⟩
  | .pressRunAccept _ => some ⟨[0], [.mbx, .queues, .front, .buckets, .folded, .hwmOn, .leaving, .ports, .changes, .ctxs, .stop],
      [.mode, .pkg, .eps, .hsIn, .ghRelease, .hostedWait, .hsPins, .hsSeen, .gh, .stores]⟩
  | .headParkedAccept _ => some ⟨[0x1F, A.cfg_changes.code, A.port_offset_nm.code, A.commit_lead_ns.code, A.hp_state.code], [.front,
      .buckets, .folded, .leaving, .ports, .spits], [.hsIn, .hsSeen]⟩
  | .eStopAccept => some ⟨[0x1F, A.port_offset_nm.code, A.commit_lead_ns.code, A.hp_state.code], [.front, .buckets, .folded, .leaving,
      .ports, .spits], [.hsIn, .ghRelease, .hsSeen]⟩
  | .eStopReleaseAccept => some ⟨[0x1F, A.commit_lead_ns.code], [.front, .buckets, .folded], [.hsIn, .ghRelease, .hsSeen]⟩
  | .leResume _ => some ⟨[0x1F, A.cfg_changes.code, A.port_offset_nm.code], [.mbx, .front, .buckets, .folded, .leaving, .ports],
      [.replies, .ghRelease]⟩
  | .hsForce _ _ => some ⟨[0x1F, A.cfg_changes.code], [.mbx, .front, .buckets, .folded], [.replies, .hsForce, .hsPins]⟩
  | .hsRelease _ => some ⟨[0x1F, A.cfg_changes.code], [.mbx, .front, .buckets, .folded], [.replies, .hsForce, .hsPins]⟩
  | .leStatus _ => some ⟨[0x1F, A.cfg_changes.code], [.mbx, .front, .buckets, .folded], [.replies]⟩
  | .slotShift _ _ _ => some ⟨[A.armed_line.code, A.lines_shifted.code, A.slot_next.code, A.slot_context.code, A.slots_prepared.code,
      A.slots_staged.code], [.tbs, .ports], [.clk]⟩
  | .staleReshift _ _ => some ⟨[0x1F, A.armed_time.code, A.rearms.code, A.lines_shifted.code, A.reshifts.code, A.stale_reshifts.code],
      [.front, .buckets, .folded, .ports], []⟩
  | .headQuery _ _ _ _ _ => some ⟨[0x1F, A.min_fire_period_ns.code, A.armed_line.code, A.hp_state.code, A.head_temp.code,
      A.head_temp_tb1.code, A.head_query.code, A.hp_fault.code, A.query_errs.code, A.slot_next.code, A.slot_context.code,
      A.slots_prepared.code, A.slots_staged.code, A.stop_phase.code, A.stop_cause.code, A.stops.code], [.front, .buckets, .folded,
      .ports, .spits, .ctxs, .stop], [.blks, .replies, .hsPins]⟩
  | .lvdsFault _ _ _ => some ⟨[0x1F, A.min_fire_period_ns.code, A.armed_line.code, A.hp_state.code, A.hp_fault.code, A.slot_next.code,
      A.slot_context.code, A.slots_prepared.code, A.slots_staged.code, A.stop_phase.code, A.stop_cause.code, A.stops.code], [.front,
      .buckets, .folded, .ports, .spits, .ctxs, .stop], [.replies, .hsPins]⟩
  | .hpEnable _ _ => some ⟨[0x1F, A.cfg_changes.code, A.hp_enable.code, A.hp_state.code], [.mbx, .front, .buckets, .folded, .ports],
      [.replies]⟩
  | .hpDisable _ _ => some ⟨[0x1F, A.cfg_changes.code, A.q_max_depth.code, A.q_pushes.code, A.q_overflows.code, A.q_rewinds.code,
      A.q_oversize.code, A.q_pkt_bad.code, A.seams.code, A.defect_lost.code, A.hp_enable.code, A.hp_state.code, A.hp_fault.code],
      [.mbx, .queues, .front, .buckets, .folded, .ports], [.replies, .eps, .stores]⟩
  | .hpRestart _ _ _ => some ⟨[0], [.mbx, .queues, .front, .buckets, .folded, .hwmOn, .leaving, .ports, .changes, .banks, .ctxs],
      [.replies, .pkg, .eps, .stores]⟩
  | .hpQuery _ _ _ _ _ => some ⟨[0x1F, A.cfg_changes.code, A.hp_state.code], [.mbx, .front, .buckets, .folded, .ports], [.replies]⟩
  | .hpSpitParked _ _ _ => some ⟨[0x1F, A.cfg_changes.code, A.hp_state.code], [.mbx, .front, .buckets, .folded, .ports, .spits],
      [.replies]⟩
  | .hpSpitStop _ _ => some ⟨[0x1F, A.cfg_changes.code, A.hp_state.code], [.mbx, .front, .buckets, .folded, .ports, .spits],
      [.replies]⟩
  | .hpSpitWeb _ _ _ _ _ => some ⟨[0x1F, A.cfg_changes.code, A.armed_line.code, A.slot_next.code, A.slot_context.code,
      A.slots_prepared.code, A.slots_staged.code, A.squashes.code, A.retones.code], [.mbx, .front, .buckets, .folded, .ports],
      [.nextId, .replies, .pkg]⟩
  | .spitLine _ _ _ => some ⟨[0x1F, A.hp_state.code, A.lines_shifted.code, A.fire_pulses.code, A.spit_lines.code], [.front, .buckets,
      .folded, .tbs, .ports, .spits], [.clk]⟩
  | .toneLine _ _ _ => some ⟨[0x1F, A.armed_line.code, A.slot_next.code, A.slot_context.code, A.slots_prepared.code,
      A.slots_staged.code, A.toned_max.code, A.squashes.code, A.retones.code, A.swaps_late.code, A.spill_lost.code,
      A.level_clamps.code, A.bank_state.code, A.swap_pending.code, A.swap_line.code], [.mbx, .front, .buckets, .folded, .ports, .banks,
      .bankFrom], [.pkg]⟩
  | .tbSwapDecision _ _ => some ⟨[0x1F, A.armed_line.code, A.slot_next.code, A.slot_context.code, A.slots_prepared.code,
      A.slots_staged.code, A.squashes.code, A.retones.code, A.swaps_late.code, A.bank_state.code, A.swap_pending.code,
      A.swap_line.code], [.mbx, .front, .buckets, .folded, .ports, .banks, .bankFrom], [.pkg]⟩
  | .tbBuild _ _ => some ⟨[0x1F, A.cfg_changes.code, A.bank_state.code], [.mbx, .front, .buckets, .folded, .banks], [.nextId, .replies,
      .pkg]⟩
  | .tbBuildAbort _ _ => some ⟨[0x1F, A.cfg_changes.code, A.bank_state.code, A.swap_pending.code], [.mbx, .front, .buckets, .folded,
      .banks], [.replies, .pkg]⟩
  | .tbBuilt _ _ _ => some ⟨[0x1F, A.bank_state.code, A.build_seq.code, A.build_us.code, A.build_tb1.code, A.bank_crc.code,
      A.saturated.code], [.mbx, .front, .buckets, .folded, .tbs, .banks], [.clk, .pkg]⟩
  | .tbSwap _ _ _ _ => some ⟨[0x1F, A.cfg_changes.code, A.armed_line.code, A.slot_next.code, A.slot_context.code,
      A.slots_prepared.code, A.slots_staged.code, A.squashes.code, A.retones.code, A.swaps_late.code, A.bank_state.code,
      A.swap_pending.code, A.swap_context.code, A.swap_line.code], [.mbx, .front, .buckets, .folded, .ports, .banks, .bankFrom],
      [.nextId, .replies, .pkg]⟩
  | .plStatus _ _ => some ⟨[0x1F, A.cfg_changes.code], [.mbx, .front, .buckets, .folded], [.replies]⟩
  | .descriptorPush _ _ _ => some ⟨[0x1F, A.q_max_depth.code, A.q_pushes.code, A.q_overflows.code, A.q_rewinds.code, A.q_oversize.code,
      A.q_pkt_bad.code, A.eng_busy.code], [.queues, .front, .buckets, .folded, .ctxs], [.eps, .stores]⟩
  | .decodeStart _ _ => some ⟨[0x1F, A.q_max_depth.code, A.q_pushes.code, A.q_pops.code, A.q_underruns.code, A.q_overflows.code,
      A.q_rewinds.code, A.q_oversize.code, A.q_pkt_bad.code, A.eng_busy.code, A.eng_port.code, A.eng_line.code, A.eng_blocks.code],
      [.queues, .front, .buckets, .folded, .codec], [.eps, .stores]⟩
  | .decodeComplete _ _ _ => some ⟨[0x1F, A.min_fire_period_ns.code, A.armed_line.code, A.slot_next.code, A.slot_context.code,
      A.slots_prepared.code, A.slots_staged.code, A.eng_busy.code, A.eng_line.code, A.eng_blocks.code, A.eng_cycles.code,
      A.dec_discarded.code, A.dec_lines_discarded.code, A.dec_bytes.code, A.ctx_state.code, A.printing.code, A.fail_cause.code,
      A.held_line.code, A.data_end.code, A.pages_used.code, A.stop_end.code, A.runway_nm.code, A.stop_dist_nm.code, A.stop_phase.code,
      A.stop_cause.code, A.stops.code, A.bar_state.code, A.bar_band.code], [.front, .buckets, .folded, .ports, .codec, .ctxs, .stop],
      [.blks, .free, .replies, .pkg, .hsPins, .stores]⟩
  | .codecVerify _ _ _ _ _ _ _ _ => some ⟨[0x1F, A.cfg_changes.code, A.q_max_depth.code, A.q_pushes.code, A.q_overflows.code,
      A.q_rewinds.code, A.q_oversize.code, A.q_pkt_bad.code, A.eng_busy.code], [.mbx, .queues, .front, .buckets, .folded, .codec],
      [.replies, .eps, .stores]⟩
  | .codecCompressSubmit _ _ _ _ _ _ _ _ _ _ _ => some ⟨[0x1F, A.cfg_changes.code, A.out_jobs.code, A.out_state.code], [.mbx, .front,
      .buckets, .folded, .codec], [.nextId, .replies, .pkg]⟩
  | .codecCompressAbort _ _ _ => some ⟨[0x1F, A.cfg_changes.code, A.q_max_depth.code, A.q_pushes.code, A.q_overflows.code,
      A.q_rewinds.code, A.q_oversize.code, A.q_pkt_bad.code, A.out_jobs.code, A.out_state.code, A.out_done.code, A.out_failed.code],
      [.mbx, .queues, .front, .buckets, .folded, .codec], [.replies, .pkg, .eps, .stores]⟩
  | .compressJobStart _ => some ⟨[A.out_jobs.code, A.out_state.code], [.codec], []⟩
  | .compressBlockEnd _ _ _ => some ⟨[0x1F, A.q_max_depth.code, A.q_pushes.code, A.q_overflows.code, A.q_rewinds.code,
      A.q_oversize.code, A.q_pkt_bad.code, A.out_jobs.code, A.out_state.code, A.out_done.code, A.out_failed.code,
      A.out_raw_blocks.code, A.out_bytes_in.code, A.out_bytes_out.code], [.mbx, .queues, .front, .buckets, .folded, .codec], [.pkg,
      .eps, .stores]⟩
  | .ctxOpen _ _ _ => some ⟨[0x1F, A.cfg_changes.code, A.ctx_state.code, A.printing.code, A.fail_cause.code, A.x0.code,
      A.last_line.code, A.held_line.code, A.data_end.code, A.stop_line.code, A.switch_line.code, A.pages_used.code, A.stop_end.code,
      A.runway_nm.code, A.stop_dist_nm.code, A.bar_state.code, A.bar_band.code], [.mbx, .front, .buckets, .folded, .codec, .ctxs,
      .ctxCache], [.replies, .pkg, .stores]⟩
  | .ctxStartAbs _ _ _ => some ⟨[0x1F, A.cfg_changes.code, A.port_offset_nm.code, A.min_fire_period_ns.code, A.armed_line.code,
      A.hp_state.code, A.slot_next.code, A.slot_context.code, A.slots_prepared.code, A.slots_staged.code, A.swap_context.code,
      A.ctx_state.code, A.printing.code, A.x0.code, A.held_line.code, A.data_end.code, A.pages_used.code, A.stop_end.code,
      A.runway_nm.code, A.stop_dist_nm.code, A.stop_phase.code, A.stop_cause.code, A.stops.code, A.bar_state.code, A.bar_band.code],
      [.mbx, .front, .buckets, .folded, .hwmOn, .leaving, .ports, .changes, .bankFrom, .ctxs, .stop], [.replies, .pkg, .hsForce,
      .hsPins, .stores]⟩
  | .ctxStartAfter _ _ _ => some ⟨[0x1F, A.cfg_changes.code, A.port_offset_nm.code, A.min_fire_period_ns.code, A.armed_line.code,
      A.hp_state.code, A.slot_next.code, A.slot_context.code, A.slots_prepared.code, A.slots_staged.code, A.squashes.code,
      A.retones.code, A.swap_context.code, A.ctx_state.code, A.printing.code, A.x0.code, A.held_line.code, A.data_end.code,
      A.switch_line.code, A.pages_used.code, A.stop_end.code, A.runway_nm.code, A.stop_dist_nm.code, A.stop_phase.code,
      A.stop_cause.code, A.stops.code, A.bar_state.code, A.bar_band.code], [.mbx, .front, .buckets, .folded, .hwmOn, .leaving, .ports,
      .changes, .bankFrom, .ctxs, .stop], [.nextId, .replies, .pkg, .hsForce, .hsPins, .stores]⟩
  | .switchFix _ => some ⟨[0x1F, A.port_offset_nm.code, A.min_fire_period_ns.code, A.armed_line.code, A.hp_state.code,
      A.slot_next.code, A.slot_context.code, A.slots_prepared.code, A.slots_staged.code, A.squashes.code, A.retones.code,
      A.swap_context.code, A.ctx_state.code, A.printing.code, A.x0.code, A.held_line.code, A.data_end.code, A.switch_line.code,
      A.pages_used.code, A.stop_end.code, A.runway_nm.code, A.stop_dist_nm.code, A.stop_phase.code, A.stop_cause.code, A.stops.code,
      A.bar_state.code, A.bar_band.code], [.mbx, .front, .buckets, .folded, .hwmOn, .leaving, .ports, .changes, .bankFrom, .ctxs,
      .stop], [.pkg, .hsForce, .hsPins, .stores]⟩
  | .ctxStop _ _ => some ⟨[0x1F, A.cfg_changes.code, A.min_fire_period_ns.code, A.stop_phase.code, A.stop_cause.code, A.stops.code],
      [.mbx, .front, .buckets, .folded, .ctxs, .stop], [.replies, .hsPins]⟩
  | .ctxClose _ _ => some ⟨[0], [.mbx, .queues, .front, .buckets, .folded, .hwmOn, .leaving, .ports, .changes, .ctxs, .stop],
      [.replies, .pkg, .eps, .hsPins, .stores]⟩
  | .ctxAbort _ _ => some ⟨[0], [.mbx, .queues, .front, .buckets, .folded, .hwmOn, .leaving, .ports, .changes, .banks, .codec, .ctxs,
      .stop, .lineFaults], [.replies, .pkg, .eps, .hsPins, .stores]⟩
  | .ctxInvalidate _ _ _ => some ⟨[0x1F, A.cfg_changes.code], [.mbx, .front, .buckets, .folded, .ctxCache], [.replies]⟩
  | .contextWriteback _ _ => some ⟨[A.held_line.code, A.data_end.code, A.pages_used.code, A.runway_nm.code, A.stop_dist_nm.code], [],
      [.stores]⟩
  | .runwayStatus _ => some ⟨[0x1F, A.cfg_changes.code], [.mbx, .front, .buckets, .folded], [.replies]⟩
  | .grtData _ _ _ _ _ _ _ _ _ _ => some ⟨[0x1F, A.q_max_depth.code, A.q_pushes.code, A.q_overflows.code, A.q_rewinds.code,
      A.q_oversize.code, A.q_pkt_bad.code, A.st_next_seq.code, A.st_credit.code, A.grt_dup.code, A.grt_gaps.code,
      A.grt_over_credit.code, A.grt_bad.code], [.queues, .front, .buckets, .folded, .streams], [.eps, .stores]⟩
  | .grtReset _ _ _ _ _ _ _ => some ⟨[A.st_next_seq.code, A.st_credit.code, A.grt_bad.code], [.streams], []⟩
  | .grtAckTimer _ _ => some ⟨[A.st_credit.code], [.streams], []⟩
  | .dmaTailWrite _ _ _ _ => some ⟨[], [.streams], []⟩
  | .dmaBlockFetch _ _ _ _ _ => some ⟨[0x1F, A.cfg_changes.code, A.min_fire_period_ns.code, A.ctx_state.code, A.printing.code,
      A.fail_cause.code, A.held_line.code, A.data_end.code, A.pages_used.code, A.stop_end.code, A.runway_nm.code, A.stop_dist_nm.code,
      A.stop_phase.code, A.stop_cause.code, A.stops.code, A.bar_state.code, A.bar_band.code], [.front, .buckets, .folded, .ctxs,
      .streams, .stop], [.pkg, .hsPins, .stores]⟩
  | .blockStore _ _ _ => some ⟨[0], [.mbx, .queues, .front, .buckets, .folded, .hwmOn, .leaving, .ports, .changes, .bankFrom, .ctxs,
      .streams, .stop], [.pkg, .eps, .hsForce, .hsPins, .stores]⟩
  | .stopFixed _ => some ⟨[0x1F, A.stop_end.code], [.front, .buckets, .folded, .ctxs], []⟩
  | .backupTimeout _ => some ⟨[0x1F, A.min_fire_period_ns.code, A.stop_phase.code], [.front, .buckets, .folded, .stop], [.hsPins]⟩
  | .stopRelease _ => some ⟨[0x1F, A.min_fire_period_ns.code, A.stop_phase.code, A.backup_target.code], [.front, .buckets, .folded,
      .stop], [.hsPins]⟩
  | .csiFrameStart _ _ _ _ => some ⟨[0x1F, A.q_max_depth.code, A.q_pushes.code, A.q_overflows.code, A.q_rewinds.code,
      A.q_oversize.code, A.q_pkt_bad.code, A.frame_count.code, A.slot_state.code, A.pset_active.code, A.frames.code,
      A.short_frames.code, A.long_frames.code, A.no_fe.code, A.no_slot.code, A.black.code, A.gain.code, A.records.code,
      A.records_lost.code], [.mbx, .queues, .front, .buckets, .folded, .tbs, .cams], [.clk, .pkg, .eps, .stores]⟩
  | .csiLine _ _ _ _ _ _ _ _ => some ⟨[A.cam_crc_errs.code, A.len_errs.code, A.ecc_fixed.code, A.ecc_fatal.code, A.other_pkts.code,
      A.orphan_lines.code, A.isp_overruns.code], [.cams], [.stores]⟩
  | .csiFrameEnd _ _ _ => some ⟨[0x1F, A.q_max_depth.code, A.q_pushes.code, A.q_overflows.code, A.q_rewinds.code, A.q_oversize.code,
      A.q_pkt_bad.code, A.frames.code, A.short_frames.code, A.long_frames.code, A.no_fe.code, A.records.code, A.records_lost.code],
      [.queues, .front, .buckets, .folded, .tbs, .cams], [.clk, .eps, .stores]⟩
  | .frameTimeout _ _ => some ⟨[0x1F, A.q_max_depth.code, A.q_pushes.code, A.q_overflows.code, A.q_rewinds.code, A.q_oversize.code,
      A.q_pkt_bad.code, A.frames.code, A.short_frames.code, A.long_frames.code, A.no_fe.code, A.records.code, A.records_lost.code],
      [.queues, .front, .buckets, .folded, .cams], [.eps, .stores]⟩
  | .ispFrameDone _ _ => some ⟨[0x1F, A.q_max_depth.code, A.q_pushes.code, A.q_overflows.code, A.q_rewinds.code, A.q_oversize.code,
      A.q_pkt_bad.code, A.slot_state.code, A.dpc_dynamic.code, A.mp_latency_max_us.code, A.records.code, A.records_lost.code],
      [.queues, .front, .buckets, .folded, .cams, .ispRun], [.eps, .stores]⟩
  | .mpFrameProcess _ => some ⟨[A.slot_state.code], [.cams, .ispRun], []⟩
  | .psetListComplete _ _ _ _ => some ⟨[0x1F], [.mbx, .front, .buckets, .folded, .cams], [.pkg]⟩
  | .camWake _ _ => some ⟨[0x1F, A.cfg_changes.code, A.cam_state.code, A.stream.code], [.mbx, .front, .buckets, .folded], [.replies]⟩
  | .camEnable _ _ => some ⟨[0x1F, A.cfg_changes.code, A.cam_state.code, A.frame_count.code, A.pset_active.code, A.stream.code,
      A.stream_cam.code], [.mbx, .front, .buckets, .folded, .cams], [.replies]⟩
  | .camDisable _ _ => some ⟨[0x1F, A.cfg_changes.code, A.q_max_depth.code, A.q_pushes.code, A.q_overflows.code, A.q_rewinds.code,
      A.q_oversize.code, A.q_pkt_bad.code, A.cam_state.code, A.slot_state.code, A.stream.code, A.frames.code, A.short_frames.code,
      A.long_frames.code, A.no_fe.code, A.stream_cam.code, A.records.code, A.records_lost.code], [.mbx, .queues, .front, .buckets,
      .folded, .cams, .ispRun], [.replies, .pkg, .eps, .stores]⟩
  | .camSleep _ _ => some ⟨[0x1F, A.cfg_changes.code, A.cam_state.code], [.mbx, .front, .buckets, .folded], [.replies]⟩
  | .camSnap _ _ => some ⟨[0x1F, A.cfg_changes.code], [.mbx, .front, .buckets, .folded, .cams], [.replies]⟩
  | .camRelease _ _ _ => some ⟨[0x1F, A.cfg_changes.code, A.slot_state.code], [.mbx, .front, .buckets, .folded], [.replies]⟩
  | .camApply _ _ _ _ => some ⟨[0x1F, A.cfg_changes.code], [.mbx, .front, .buckets, .folded, .cams], [.nextId, .replies, .pkg]⟩
  | .camI2c _ _ _ _ _ _ _ => some ⟨[0x1F, A.cfg_changes.code], [.mbx, .front, .buckets, .folded, .cams], [.replies]⟩
  | .chainRefresh _ _ _ => some ⟨[0x1F, A.refreshes.code, A.diag_pulses.code], [.front, .buckets, .folded, .chains, .lamps], []⟩
  | .chainReturn _ _ _ _ => some ⟨[0x1F, A.chain_state.code, A.chain_drivers.code, A.ret_errs.code, A.rx_err_reports.code], [.mbx,
      .front, .buckets, .folded, .chains, .lamps], [.blks, .pkg, .stores]⟩
  | .lampWriteback _ _ => some ⟨[], [], [.stores]⟩
  | .chainEnable _ _ => some ⟨[0x1F, A.cfg_changes.code, A.chain_state.code], [.mbx, .front, .buckets, .folded, .chains], [.nextId,
      .replies, .pkg]⟩
  | .chainDisable _ _ => some ⟨[0x1F, A.cfg_changes.code, A.chain_state.code], [.mbx, .front, .buckets, .folded, .chains, .lamps],
      [.replies, .pkg]⟩
  | .chainEnum _ _ => some ⟨[0x1F, A.cfg_changes.code, A.chain_state.code], [.mbx, .front, .buckets, .folded, .chains], [.nextId,
      .replies, .pkg]⟩
  | .lampInvalidate _ _ _ => some ⟨[0x1F, A.cfg_changes.code], [.mbx, .front, .buckets, .folded, .chains], [.replies]⟩
  | .lampCtrlClear _ _ _ _ => some ⟨[0x1F, A.cfg_changes.code], [.mbx, .front, .buckets, .folded, .chains], [.replies]⟩
  | .lampCtrlDiag _ _ _ _ _ => some ⟨[0x1F, A.cfg_changes.code], [.mbx, .front, .buckets, .folded, .chains], [.replies]⟩
  | .mxStep _ _ _ => some ⟨[0x1F, A.mx_state.code, A.mx_open.code, A.mx_overlaps.code, A.mx_diag_rows.code], [.front, .buckets,
      .folded, .mx], [.blks, .free]⟩
  | .mxStart _ => some ⟨[0x1F, A.cfg_changes.code, A.mx_state.code, A.mx_open.code, A.mx_diag_rows.code], [.mbx, .front, .buckets,
      .folded, .mx], [.free, .replies]⟩
  | .mxStop _ => some ⟨[0x1F, A.cfg_changes.code, A.mx_state.code, A.mx_open.code, A.mx_diag_rows.code], [.mbx, .front, .buckets,
      .folded, .mx], [.free, .replies]⟩
  | .chPageEvaluate => some ⟨[0], [.mbx, .queues, .front, .buckets, .folded, .tbChanges, .pulses, .ptp, .itv, .enc, .pos, .ports, .changes,
      .banks, .bankFrom, .nvTables, .nvWait, .lineFaults], [.blks, .stages, .nextId, .pkg, .eps, .tunnels, .gh]⟩
  | .chStart _ _ _ => some ⟨[0x1F, A.cfg_changes.code, A.mx_state.code, A.bar_state.code, A.bar_band.code, A.nozzles_dead.code], [.mbx,
      .front, .buckets, .folded, .mx], [.replies, .pkg]⟩
  | .chStop _ _ => some ⟨[0x1F, A.cfg_changes.code, A.bar_state.code], [.mbx, .front, .buckets, .folded], [.replies]⟩
  | .chFreeze _ _ => some ⟨[0x1F, A.cfg_changes.code, A.bar_state.code], [.mbx, .front, .buckets, .folded], [.replies, .pkg]⟩
  | .chResume _ _ => some ⟨[0x1F, A.cfg_changes.code, A.bar_state.code], [.mbx, .front, .buckets, .folded], [.replies, .pkg]⟩
  | .chCaptureRef _ _ => some ⟨[0x1F, A.cfg_changes.code, A.bar_state.code], [.mbx, .front, .buckets, .folded], [.replies, .pkg]⟩
  | .chStatus _ _ => some ⟨[0x1F, A.cfg_changes.code], [.mbx, .front, .buckets, .folded], [.replies]⟩
  | .servoSample _ _ _ _ => some ⟨[0x1F, A.servo_state.code, A.freq_ppt.code, A.offset_ns.code, A.outliers.code], [.front, .buckets,
      .folded, .tbs, .tbChanges, .capFresh], [.clk, .pkg]⟩
  | .slewEnd _ => some ⟨[0x1F, A.servo_state.code], [.front, .buckets, .folded, .tbChanges], [.pkg]⟩
  | .holdoverTimeout _ => some ⟨[0x1F, A.servo_state.code, A.holdover_tb1.code], [.front, .buckets, .folded, .tbChanges], [.pkg]⟩
  | .tbChangeApply _ => some ⟨[0x1F, A.rate_ppt.code, A.step_arm.code, A.steps.code, A.po_state.code, A.po_next.code, A.po_late.code,
      A.po_skipped.code], [.front, .buckets, .folded, .tbs, .tbChanges, .pulses], [.clk]⟩
  | .timeAlign _ _ => some ⟨[], [.tbs], []⟩
  | .ptpMessage _ _ _ => some ⟨[0x1F, A.servo_state.code, A.holdover_tb1.code, A.gm_id.code, A.utc_offset.code, A.port_state.code,
      A.mean_delay_ps.code, A.port_offset_ns.code, A.ptp_rx.code, A.ptp_tx.code, A.ts_missing.code, A.ptp_bad.code], [.front, .buckets,
      .folded, .tbChanges, .ptp], [.pkg]⟩
  | .announceTimeout _ _ => some ⟨[0x1F, A.servo_state.code, A.holdover_tb1.code, A.gm_id.code, A.utc_offset.code, A.port_state.code],
      [.front, .buckets, .folded, .tbChanges, .ptp], [.pkg]⟩
  | .pulseOutputMatch _ _ => some ⟨[0x1F, A.trig_miss.code, A.mx_state.code, A.mx_open.code, A.mx_overlaps.code, A.mx_diag_rows.code,
      A.gain_k.code, A.po_state.code, A.po_next.code, A.po_pulses.code], [.front, .buckets, .folded, .tbs, .pulses, .cams, .mx],
      [.blks, .clk, .free, .pkg]⟩
  | .captureEdge _ _ _ _ => some ⟨[0x1F, A.cap_overruns.code], [.front, .buckets, .folded, .tbs, .capFresh], [.blks, .clk]⟩
  | .tbRead _ => some ⟨[0x1F, A.cfg_changes.code], [.mbx, .front, .buckets, .folded], [.replies]⟩
  | .tbStep _ _ _ => some ⟨[0x1F, A.cfg_changes.code], [.mbx, .front, .buckets, .folded, .tbChanges], [.replies]⟩
  | .poArm _ _ _ _ _ _ => some ⟨[0x1F, A.cfg_changes.code, A.po_state.code, A.po_mode.code, A.po_next.code, A.po_late.code], [.mbx,
      .front, .buckets, .folded, .pulses], [.replies]⟩
  | .itvTrainingStart _ => some ⟨[0x1F, A.itv_state.code, A.itv_gen.code, A.train_step.code, A.link_downs.code, A.sys_role.code,
      A.master_serial.code, A.upstream.code, A.tx_pm.code, A.rx_pm.code], [.front, .buckets, .folded, .itv], [.pkg]⟩
  | .itvTrainStepDone _ _ => some ⟨[0x1F, A.itv_state.code, A.itv_gen.code, A.train_step.code, A.peer_serial.code, A.tx_taps.code,
      A.tx_pm.code, A.rx_pm.code, A.train_fails.code, A.frames_tx.code, A.link_downs.code, A.sys_role.code, A.master_serial.code,
      A.upstream.code], [.front, .buckets, .folded, .itv], [.pkg, .tunnels]⟩
  | .itvTrainFail _ => some ⟨[0x1F, A.itv_state.code, A.itv_gen.code, A.train_step.code, A.train_fails.code, A.link_downs.code,
      A.sys_role.code, A.master_serial.code, A.upstream.code], [.front, .buckets, .folded, .itv], [.pkg]⟩
  | .itvRetry _ => some ⟨[0x1F, A.itv_state.code, A.itv_gen.code, A.train_step.code, A.link_downs.code, A.sys_role.code,
      A.master_serial.code, A.upstream.code, A.tx_pm.code, A.rx_pm.code], [.front, .buckets, .folded, .itv], [.pkg]⟩
  | .itvFrameReceive _ _ _ _ _ _ _ _ _ => some ⟨[0x1F, A.mbx_late_replies.code, A.sources_seen.code, A.cfg_changes.code,
      A.itv_state.code, A.itv_gen.code, A.train_step.code, A.tx_pm.code, A.rx_pm.code, A.itv_crc_errs.code, A.replays.code,
      A.frames_tx.code, A.frames_rx.code, A.link_downs.code, A.sys_role.code, A.master_serial.code, A.upstream.code], [.mbx, .front,
      .buckets, .folded, .itv], [.replies, .pkg, .tunnels]⟩
  | .itvAckTimeout _ => some ⟨[0x1F, A.itv_state.code, A.itv_gen.code, A.train_step.code, A.tx_pm.code, A.rx_pm.code, A.replays.code,
      A.frames_tx.code, A.link_downs.code, A.sys_role.code, A.master_serial.code, A.upstream.code], [.front, .buckets, .folded, .itv],
      [.pkg, .tunnels]⟩
  | .itvSleepEnter _ => some ⟨[0x1F, A.tx_pm.code, A.rx_pm.code], [.front, .buckets, .folded, .itv], []⟩
  | .itvDeepPropose _ => some ⟨[0x1F, A.tx_pm.code, A.rx_pm.code], [.front, .buckets, .folded, .itv], []⟩
  | .itvDeepExit _ => some ⟨[0x1F, A.itv_state.code, A.itv_gen.code, A.train_step.code, A.tx_pm.code, A.rx_pm.code, A.link_downs.code,
      A.sys_role.code, A.master_serial.code, A.upstream.code], [.front, .buckets, .folded, .itv], [.pkg]⟩
  | .eyeScanComplete _ _ _ _ => some ⟨[0x1F, A.eye_tb1.code], [.mbx, .front, .buckets, .folded, .itv], [.blks, .pkg]⟩
  | .ethDatagram _ _ _ _ _ _ => some ⟨[0x1F, A.mbx_late_replies.code, A.rmbx_bad.code, A.sources_seen.code, A.cfg_changes.code,
      A.q_max_depth.code, A.q_pushes.code, A.q_overflows.code, A.q_rewinds.code, A.q_oversize.code, A.q_pkt_bad.code,
      A.st_next_seq.code, A.st_credit.code, A.grt_dup.code, A.grt_gaps.code, A.grt_over_credit.code, A.grt_bad.code, A.eth_drops.code,
      A.itv_state.code, A.itv_gen.code, A.train_step.code, A.tx_pm.code, A.rx_pm.code, A.itv_crc_errs.code, A.replays.code,
      A.frames_tx.code, A.frames_rx.code, A.link_downs.code, A.sys_role.code, A.master_serial.code, A.upstream.code], [.mbx, .queues,
      .front, .buckets, .folded, .itv, .streams], [.replies, .pkg, .eps, .tunnels, .stores]⟩
  | .tunnelDatagram _ _ _ _ _ _ _ _ _ _ _ _ => some ⟨[0x1F, A.mbx_late_replies.code, A.sources_seen.code, A.cfg_changes.code,
      A.eth_drops.code, A.itv_state.code, A.itv_gen.code, A.train_step.code, A.tx_pm.code, A.rx_pm.code, A.itv_crc_errs.code,
      A.replays.code, A.frames_tx.code, A.frames_rx.code, A.link_downs.code, A.sys_role.code, A.master_serial.code, A.upstream.code],
      [.mbx, .front, .buckets, .folded, .itv], [.replies, .pkg, .tunnels]⟩
  | .pcieFlr _ => some ⟨[0x1F, A.msix_en.code, A.flr_count.code], [.front, .buckets, .folded], [.eps]⟩
  | .perstLLow _ => some ⟨[0x1F, A.msix_en.code, A.flr_count.code], [.front, .buckets, .folded], [.eps]⟩
  | .bar2Access _ _ _ _ => some ⟨[0x1F, A.sources_seen.code, A.cfg_changes.code, A.bar_rejects.code], [.front, .buckets, .folded],
      [.pkg, .stores]⟩
  | .enumFrame _ _ _ _ _ _ _ _ _ => some ⟨[0x1F, A.sys_role.code, A.node_base.code, A.node_count.code, A.sys_nodes.code,
      A.sys_packages.code, A.master_serial.code, A.sys_gen.code, A.upstream.code, A.addr_full.code, A.depth.code], [.front, .buckets,
      .folded],
      [.pkg]⟩
  | .autoEnum => some ⟨[0x1F, A.sys_role.code, A.node_base.code, A.node_count.code, A.sys_nodes.code, A.sys_packages.code,
      A.master_serial.code, A.sys_gen.code, A.addr_full.code, A.depth.code], [.front, .buckets, .folded], [.pkg]⟩
  | .timeSyncExchange _ _ _ _ _ _ => some ⟨[0x1F, A.servo_state.code, A.freq_ppt.code, A.offset_ns.code, A.outliers.code], [.front,
      .buckets, .folded, .tbs, .tbChanges, .capFresh], [.clk, .pkg]⟩
  | .itvEnable _ => some ⟨[0x1F, A.cfg_changes.code, A.itv_enable.code, A.itv_state.code, A.itv_gen.code, A.train_step.code,
      A.link_downs.code, A.sys_role.code, A.master_serial.code, A.upstream.code, A.tx_pm.code, A.rx_pm.code], [.mbx, .front, .buckets, .folded, .itv], [.replies,
      .pkg]⟩
  | .itvDisable _ => some ⟨[0x1F, A.cfg_changes.code, A.itv_enable.code, A.itv_state.code, A.itv_gen.code, A.train_step.code,
      A.tx_pm.code, A.rx_pm.code, A.link_downs.code, A.sys_role.code, A.master_serial.code, A.upstream.code], [.mbx, .front, .buckets,
      .folded, .itv], [.replies, .pkg]⟩
  | .itvRetrain _ => some ⟨[0x1F, A.cfg_changes.code, A.itv_state.code, A.itv_gen.code, A.train_step.code, A.link_downs.code,
      A.sys_role.code, A.master_serial.code, A.upstream.code, A.tx_pm.code, A.rx_pm.code], [.mbx, .front, .buckets, .folded, .itv], [.replies, .pkg]⟩
  | .itvEyeRead _ _ => some ⟨[0x1F, A.cfg_changes.code], [.mbx, .front, .buckets, .folded], [.replies]⟩
  | .itvEyeMeasure _ _ => some ⟨[0x1F, A.cfg_changes.code], [.mbx, .front, .buckets, .folded, .itv], [.nextId, .replies, .pkg]⟩
  | .sysEnumFresh _ => some ⟨[0x1F, A.cfg_changes.code, A.sys_role.code, A.node_base.code, A.node_count.code, A.sys_nodes.code,
      A.sys_packages.code, A.master_serial.code, A.sys_gen.code, A.addr_full.code, A.depth.code], [.mbx, .front, .buckets, .folded], [.nextId,
      .replies, .pkg]⟩
  | .sysEnumKeep _ => some ⟨[0x1F, A.cfg_changes.code, A.sys_role.code, A.node_base.code, A.node_count.code, A.sys_nodes.code,
      A.sys_packages.code, A.master_serial.code, A.sys_gen.code, A.addr_full.code, A.depth.code], [.mbx, .front, .buckets, .folded], [.nextId,
      .replies, .pkg]⟩
  | .sysNode _ _ => some ⟨[0x1F, A.cfg_changes.code], [.mbx, .front, .buckets, .folded], [.replies]⟩
  | .housekeepingRound _ _ _ _ => some ⟨[0x1F, A.min_fire_period_ns.code, A.stop_phase.code, A.stop_cause.code, A.stops.code,
      A.sn_kind.code, A.sn_value.code, A.sn_raw.code, A.sn_state.code, A.sn_flags.code, A.sn_tb1.code, A.sn_max.code, A.sn_min.code,
      A.rounds.code, A.throttle.code, A.tj_max.code, A.tj_mean.code, A.speed_lim_req.code, A.nv_write_ok.code, A.cal_state.code,
      A.quality.code, A.quality_tb1.code, A.cal_unsaved.code], [.front, .buckets, .folded, .tbs, .ctxs, .stop, .sensors, .crit, .cals,
      .nvTables, .nvWait], [.clk, .free, .fwKept, .hsPins]⟩
  | .criticalShutdown _ => some ⟨[0], [.mbx, .queues, .front, .buckets, .folded, .tbs, .ptp, .itv, .up, .enc, .pos, .hwmOn, .leaving,
      .ports, .spits, .changes, .banks, .bankFrom, .codec, .ctxs, .ctxCache, .streams, .stop, .cams, .ispRun, .chains, .lamps, .mx,
      .crit, .lineFaults], [.blks, .stages, .clk, .replies, .lead, .leadSt, .takeover, .kennelWriting, .faultMask, .eps, .hsPins,
      .stores, .wipes]⟩
  | .thermTrip _ _ _ => some ⟨[0], [.mbx, .queues, .front, .buckets, .folded, .tbs, .ptp, .itv, .up, .enc, .pos, .hwmOn, .leaving,
      .ports, .spits, .changes, .banks, .bankFrom, .codec, .ctxs, .ctxCache, .streams, .stop, .cams, .ispRun, .chains, .lamps, .mx,
      .crit, .lineFaults], [.blks, .stages, .clk, .lead, .leadSt, .takeover, .kennelWriting, .faultMask, .eps, .hsPins, .wipes]⟩
  | .calRun _ _ => some ⟨[0x1F, A.cfg_changes.code, A.cal_state.code], [.mbx, .front, .buckets, .folded, .cals], [.nextId, .replies,
      .pkg]⟩
  | .calRunGap _ _ => some ⟨[0x1F, A.cfg_changes.code, A.cal_state.code], [.mbx, .front, .buckets, .folded, .cals], [.nextId, .replies,
      .pkg]⟩
  | .calQuality _ _ => some ⟨[0x1F, A.cfg_changes.code], [.mbx, .front, .buckets, .folded, .cals], [.nextId, .replies, .pkg]⟩
  | .calAbort _ _ => some ⟨[0x1F, A.cfg_changes.code, A.cal_state.code, A.cal_fails.code], [.mbx, .front, .buckets, .folded, .cals],
      [.replies, .pkg]⟩
  | .calDone _ _ _ _ => some ⟨[0x1F, A.bar_state.code, A.rx_lat_ps.code, A.tx_lat_ps.code, A.cal_state.code, A.cal_runs.code,
      A.cal_tb0.code, A.cal_temp.code, A.quality.code, A.quality_tb1.code, A.cal_unsaved.code, A.cal_fails.code], [.mbx, .front,
      .buckets, .folded, .cals], [.pkg]⟩
  | .calNoGap _ _ => some ⟨[0x1F, A.cal_state.code, A.cal_fails.code], [.mbx, .front, .buckets, .folded, .tbs, .cals], [.clk, .pkg]⟩
  | .thermStatus _ => some ⟨[0x1F, A.cfg_changes.code], [.mbx, .front, .buckets, .folded], [.replies]⟩
  | .watchdogExpiry _ _ => some ⟨[0x1F, A.ld_states.code, A.ld_causes.code], [.front, .buckets, .folded, .up], [.lead, .leadSt,
      .takeover, .kennelWriting, .faultMask]⟩
  | .sramEccError _ => some ⟨[0x1F, A.ld_states.code, A.ld_causes.code], [.front, .buckets, .folded, .up], [.lead, .leadSt, .takeover,
      .kennelWriting, .faultMask]⟩
  | .mgmtPowerLoss _ => some ⟨[0x1F, A.ld_states.code, A.ld_causes.code, A.pd_on.code], [.front, .buckets, .folded, .up], [.lead,
      .leadSt, .takeover, .kennelWriting, .faultMask]⟩
  | .leadTakeover _ => some ⟨[0], [.mbx, .front, .buckets, .folded], [.blks, .stages, .mode, .lead, .leadSt, .takeover, .moving,
      .repairArmed, .safeFrom, .pkg, .fwSlots, .fw]⟩
  | .kennelCheckpoint => some ⟨[0x1F, A.kennel_age_ms.code, A.kennel_late.code], [.front, .buckets, .folded], [.kennelWriting, .kennel,
      .kennelLateSeen]⟩
  | .kennelWriteDone _ => some ⟨[0x1F, A.ld_states.code, A.ld_causes.code, A.kennel_seq.code, A.kennel_tb0.code, A.kennel_bytes.code,
      A.kennel_age_ms.code, A.kennel_errs.code], [.mbx, .front, .buckets, .folded], [.lead, .leadSt, .takeover, .kennelWriting,
      .kennel, .kennelFailRun, .kennelAt, .kennelLateSeen, .ckptWork, .pkg, .faultMask]⟩
  | .leadRepair => some ⟨[A.ld_states.code], [.up], [.leadSt, .repairArmed]⟩
  | .leadStandby _ _ => some ⟨[0x1F, A.ld_states.code, A.pd_on.code], [.mbx, .front, .buckets, .folded, .up], [.leadSt, .repairWork,
      .pkg, .faultMask]⟩
  | .leadMove _ => some ⟨[0x1F, A.cfg_changes.code], [.mbx, .front, .buckets, .folded], [.nextId, .replies, .kennelWriting, .kennel,
      .moving, .pkg]⟩
  | .leadCtrlRepair _ _ => some ⟨[0x1F, A.cfg_changes.code, A.ld_states.code], [.mbx, .front, .buckets, .folded, .up], [.nextId,
      .replies, .leadSt, .repairWork, .pkg]⟩
  | .leadCheckpoint _ => some ⟨[0x1F, A.cfg_changes.code], [.mbx, .front, .buckets, .folded], [.nextId, .replies, .kennelWriting,
      .kennel, .ckptWork, .pkg]⟩
  | .leadAck _ => some ⟨[0x1F, A.cfg_changes.code, A.reissue_count.code, A.reissue_over.code], [.mbx, .front, .buckets, .folded],
      [.blks, .replies]⟩
  | .eventRaise _ _ _ => some ⟨[0x1F], [.front, .buckets, .folded], []⟩
  | .eventNumber _ => some ⟨[0x1F, A.q_max_depth.code, A.q_pushes.code, A.q_overflows.code, A.q_rewinds.code, A.q_oversize.code,
      A.q_pkt_bad.code, A.er_oldest.code, A.er_newest.code, A.er_durable.code, A.fb_depth.code], [.queues, .front, .buckets, .folded],
      [.ring, .evtNext, .eps, .stores]⟩
  | .eventProgram => some ⟨[A.er_oldest.code, A.er_newest.code, A.er_durable.code, A.fb_depth.code], [], [.evtDurable]⟩
  | .bucketRefillFlush _ _ => some ⟨[0x1F, A.fb_depth.code, A.fb_max.code], [.front, .buckets, .folded], []⟩
  | .evtBacklog _ => some ⟨[0x1F], [.front, .buckets, .folded], []⟩
  | .evtRead _ _ _ => some ⟨[0x1F, A.cfg_changes.code], [.mbx, .front, .buckets, .folded], [.replies]⟩
  | .evtLimitSet _ _ _ _ => some ⟨[0x1F, A.cfg_changes.code], [.mbx, .front, .buckets, .folded], [.replies, .limits]⟩
  | .evtLimitGet _ _ => some ⟨[0x1F, A.cfg_changes.code], [.mbx, .front, .buckets, .folded], [.replies]⟩
  | .porstRise _ _ _ => some ⟨[A.bl_strap.code, A.rx_lat_ps.code, A.tx_lat_ps.code, A.shutdown.code, A.cal_state.code, A.cal_runs.code,
      A.cal_tb0.code, A.cal_temp.code, A.quality.code, A.pd_on.code, A.reset_cause.code, A.boot_count.code, A.straps.code,
      A.rails_good.code], [.up, .cals], [.bl, .faultMask, .fwSlots, .fwBooted, .bootWatch, .porst, .alive, .fwKept, .railFault,
      .clkFault]⟩
  | .sysRstL _ => some ⟨[0], [.mbx, .sb, .queues, .front, .buckets, .folded, .erSel, .ptp, .itv, .up, .enc, .pos, .hwmOn, .leaving,
      .ports, .spits, .changes, .banks, .bankFrom, .codec, .ctxs, .ctxCache, .streams, .stop, .cams, .ispRun, .chains, .lamps, .mx,
      .crit, .cals, .lineFaults, .pdWork], [.blks, .stages, .replies, .bl, .mode, .lead, .leadSt, .takeover, .kennelWriting,
      .kennelFailRun, .kennelLateSeen, .moving, .ckptWork, .repairWork, .repairArmed, .safeFrom, .pkg, .faultMask, .fwSlots, .fw,
      .fwBooted, .bootWatch, .eps, .tunnels, .hsIn, .ghRelease, .hostedWait, .fwKept, .resetDue, .railFault, .clkFault, .hsForce,
      .hsPins, .hsOn, .hsSeen, .gh, .wipes]⟩
  | .railFault _ _ _ => some ⟨[0], [.mbx, .sb, .queues, .front, .buckets, .folded, .erSel, .ptp, .itv, .up, .enc, .pos, .hwmOn,
      .leaving, .ports, .spits, .changes, .banks, .bankFrom, .codec, .ctxs, .ctxCache, .streams, .stop, .cams, .ispRun, .chains,
      .lamps, .mx, .crit, .cals, .lineFaults, .pdWork], [.blks, .stages, .replies, .mode, .lead, .leadSt, .takeover, .kennelWriting,
      .kennelFailRun, .kennelLateSeen, .moving, .ckptWork, .repairWork, .repairArmed, .safeFrom, .pkg, .fwSlots, .fw, .fwBooted,
      .bootWatch, .eps, .tunnels, .hsIn, .ghRelease, .hostedWait, .fwKept, .resetDue, .railFault, .hsForce, .hsPins, .hsOn, .hsSeen,
      .gh, .wipes]⟩
  | .railGood _ => some ⟨[A.bl_strap.code, A.rx_lat_ps.code, A.tx_lat_ps.code, A.shutdown.code, A.cal_state.code, A.cal_runs.code,
      A.cal_tb0.code, A.cal_temp.code, A.quality.code, A.pd_on.code, A.reset_cause.code, A.boot_count.code, A.straps.code,
      A.rails_good.code], [.up, .cals], [.bl, .faultMask, .fwSlots, .fwBooted, .bootWatch, .fwKept, .railFault, .clkFault]⟩
  | .clkFault _ => some ⟨[0], [.mbx, .sb, .queues, .front, .buckets, .folded, .erSel, .ptp, .itv, .up, .enc, .pos, .hwmOn, .leaving,
      .ports, .spits, .changes, .banks, .bankFrom, .codec, .ctxs, .ctxCache, .streams, .stop, .cams, .ispRun, .chains, .lamps, .mx,
      .crit, .cals, .lineFaults, .pdWork], [.blks, .stages, .replies, .mode, .lead, .leadSt, .takeover, .kennelWriting, .kennelFailRun,
      .kennelLateSeen, .moving, .ckptWork, .repairWork, .repairArmed, .safeFrom, .pkg, .fwSlots, .fw, .fwBooted, .bootWatch, .eps,
      .tunnels, .hsIn, .ghRelease, .hostedWait, .fwKept, .resetDue, .clkFault, .hsForce, .hsPins, .hsOn, .hsSeen, .gh, .wipes]⟩
  | .clockGood _ _ => some ⟨[0x1F, A.bl_strap.code, A.rx_lat_ps.code, A.tx_lat_ps.code, A.shutdown.code, A.cal_state.code,
      A.cal_runs.code, A.cal_tb0.code, A.cal_temp.code, A.quality.code, A.pd_on.code, A.reset_cause.code, A.boot_count.code,
      A.straps.code], [.front, .buckets, .folded, .up, .cals], [.clk, .bl, .faultMask, .fwSlots, .fwBooted, .bootWatch, .fwKept,
      .railFault, .clkFault]⟩
  | .bootConfirm _ => none
  | .bootWatchdog _ _ => some ⟨[0], [.mbx, .sb, .queues, .front, .buckets, .folded, .erSel, .ptp, .itv, .up, .enc, .pos, .hwmOn,
      .leaving, .ports, .spits, .changes, .banks, .bankFrom, .codec, .ctxs, .ctxCache, .streams, .stop, .cams, .ispRun, .chains,
      .lamps, .mx, .crit, .cals, .lineFaults, .pdWork], [.blks, .stages, .replies, .bl, .mode, .lead, .leadSt, .takeover,
      .kennelWriting, .kennelFailRun, .kennelLateSeen, .moving, .ckptWork, .repairWork, .repairArmed, .safeFrom, .pkg, .faultMask,
      .fwSlots, .fw, .fwBooted, .bootWatch, .eps, .tunnels, .hsIn, .ghRelease, .hostedWait, .fwKept, .resetDue, .railFault, .clkFault,
      .hsForce, .hsPins, .hsOn, .hsSeen, .gh, .wipes]⟩
  | .dieBootTimeout _ => some ⟨[0], [.mbx, .sb, .queues, .front, .buckets, .folded, .erSel, .ptp, .itv, .up, .enc, .pos, .hwmOn,
      .leaving, .ports, .spits, .changes, .banks, .bankFrom, .codec, .ctxs, .ctxCache, .streams, .stop, .cams, .ispRun, .chains,
      .lamps, .mx, .crit, .cals, .lineFaults, .pdWork], [.blks, .stages, .faultMask, .fwBooted, .bootWatch, .eps, .hsPins, .wipes]⟩
  | .modeSetGatehouse _ => none
  | .modeSetHosted _ => some ⟨[0], [.mbx, .queues, .front, .buckets, .folded, .hwmOn, .leaving, .ports, .changes, .ctxs, .stop],
      [.nextId, .replies, .mode, .pkg, .eps, .hostedWait, .hsPins, .gh, .stores]⟩
  | .ghSpitTimer => some ⟨[0x1F, A.cfg_changes.code, A.hp_state.code], [.front, .buckets, .folded, .ports, .spits], []⟩
  | .ghStatus _ => some ⟨[0x1F, A.cfg_changes.code], [.mbx, .front, .buckets, .folded], [.replies]⟩
  | .domainOn _ _ _ => some ⟨[0x1F, A.cfg_changes.code, A.pd_busy.code], [.mbx, .front, .buckets, .folded, .pdWork], [.nextId,
      .replies, .pkg]⟩
  | .domainOff _ _ _ => some ⟨[0], [.mbx, .queues, .front, .buckets, .folded, .ptp, .itv, .up, .enc, .pos, .hwmOn, .leaving, .ports,
      .spits, .changes, .banks, .bankFrom, .codec, .ctxs, .ctxCache, .streams, .stop, .cams, .ispRun, .chains, .lamps, .mx,
      .lineFaults], [.blks, .stages, .replies, .lead, .leadSt, .takeover, .kennelWriting, .faultMask, .eps, .hsPins, .wipes]⟩
  | .dieReset _ _ => some ⟨[0], [.mbx, .sb, .queues, .front, .buckets, .folded, .erSel, .ptp, .itv, .up, .enc, .pos, .hwmOn, .leaving,
      .ports, .spits, .changes, .banks, .bankFrom, .codec, .ctxs, .ctxCache, .streams, .stop, .cams, .ispRun, .chains, .lamps, .mx,
      .crit, .cals, .lineFaults, .pdWork], [.blks, .stages, .nextId, .replies, .leadSt, .pkg, .eps, .hsPins, .wipes]⟩
  | .pkgReset _ => some ⟨[0x1F, A.cfg_changes.code], [.mbx, .front, .buckets, .folded], [.replies, .resetDue]⟩
  | .tripClear _ _ => some ⟨[0x1F, A.cfg_changes.code, A.trip_latched.code, A.pd_busy.code, A.reset_cause.code], [.mbx, .front,
      .buckets, .folded, .pdWork], [.nextId, .replies, .pkg]⟩
  | .domainSwitchDone _ => some ⟨[0x1F, A.q_enabled.code, A.port_offset_nm.code, A.commit_lead_ns.code, A.bank_state.code,
      A.build_seq.code, A.build_us.code, A.saturated.code, A.rx_lat_ps.code, A.tx_lat_ps.code, A.shutdown.code, A.cal_state.code,
      A.cal_runs.code, A.cal_tb0.code, A.cal_temp.code, A.quality.code, A.ld_states.code, A.pd_on.code, A.pd_busy.code,
      A.boot_count.code, A.boot_ms.code], [.mbx, .queues, .front, .buckets, .folded, .up, .banks, .cals, .pdWork], [.blks, .free,
      .leadSt, .pkg, .faultMask, .stores]⟩
  | .porstLLow => none
  | .unmappedRead _ _ _ => some ⟨[0x1F, A.sources_seen.code, A.cfg_changes.code, A.bar_rejects.code], [.front, .buckets, .folded],
      [.pkg]⟩
  | .ethLinkChange _ _ _ => some ⟨[0x1F, A.link_up.code], [.front, .buckets, .folded], []⟩
  | .pcieLinkChange _ _ _ => some ⟨[0x1F, A.pcie_link.code, A.pcie_gen.code, A.pcie_width.code], [.front, .buckets, .folded], [.eps]⟩
  | .msixEnableWrite _ _ => some ⟨[A.msix_en.code], [], [.eps]⟩
  | .camI2cEnd _ _ _ _ => some ⟨[], [.cams], [.replies]⟩
  | .ptpMessageInterval _ _ _ => some ⟨[A.ptp_tx.code, A.ts_missing.code], [.ptp], []⟩
  | .itvPmBlockReceive _ _ => some ⟨[0x1F, A.tx_pm.code, A.rx_pm.code], [.front, .buckets, .folded, .itv], []⟩

/-- The step changes no byte of any memory. -/
def State.SameMem (s t : State) : Prop := ∀ d a, memRead (t.mems.getD d []) a = memRead (s.mems.getD d []) a

/-- A step from `s` to `t` stays within its frame: the attributes, the records of the dies and of the package that are not named
keep their values, and so does every byte of memory unless `G` names stores or losses. -/
structure State.Within (C : List Nat) (F : List DieRec) (G : List HwRec) (s t : State) : Prop where
  hw : Hw.Only C F (.stores :: .wipes :: .out :: G) s.hw t.hw
  mem : .stores ∉ G → .wipes ∉ G → s.SameMem t
  pending : t.pending = s.pending

/-- The invariant of the memories: one per die, each in canonical form inside the 40-bit address space (R35), and no store or
loss left over from the last step. -/
def State.Inv (s : State) : Prop :=
  s.mems.length = dieCount ∧ s.mems.all Memory.wf = true ∧ s.hw.stores = [] ∧ s.hw.wipes = []

/-- A step is safe when it answers a next state. -/
def State.SafeStep (s : State) : Prop := ∃ t, step s = .next t

end Sys2Proof.Machine
end

