-- ==== Sys2Proof/Certificates/Slice0/Obligations.lean ====
section
/-!
DEFINITION. The statements for the provers. A hypothesis on a function of the hardware is stated at the record on which the step works:
`s.begun` for an event, `s.atWork h` for a mailbox command.
-/
open Sys2Proof Sys2Proof.Machine

/-- A step takes the command at the front of the queue and answers what that command answers with the queue's rest (the queue
of waiting commands is the model's form of the block's input). -/
def Obligations.StepRunsFrontCommand : Prop :=
  ∀ (c : Instr) (s : State), step { s with pending := c :: s.pending } = exec c s

/-- The model's choice (assumption log 21): on an empty queue a step answers a next state in which 2 ns have passed on the
model's clock and nothing but the clock and the time bases has changed. -/
def Obligations.StepOnEmptyQueueTicks : Prop :=
  ∀ s : State, s.pending = [] → ∃ t, step s = .next t ∧ t.hw.clk = s.hw.clk + 2 ∧ s.Within [] [.tbs] [.clk] t

/-- After reset no command waits, no memory byte is listed, the package is held in power-on reset in mode BOOT without a lead
die, no event is recorded, no queue is enabled, and every attribute reads its reset value (the spec's own, or where the spec
gives none the one of assumption log 5). -/
def Obligations.ResetLeavesTheBlockHeld : Prop :=
  State.reset.pending = [] ∧ (∀ m ∈ State.reset.mems, m = []) ∧ State.reset.hw.mode = .boot ∧ State.reset.hw.porst = true ∧
  State.reset.hw.lead = none ∧ State.reset.hw.ring = [] ∧ State.reset.hw.evtNext = State.reset.hw.evtDurable + 1 ∧
  (∀ D ∈ State.reset.hw.dies, D.up = false ∧ ∀ q ∈ D.queues, q.enabled = false) ∧
  (∀ k, State.reset.hw.rdk k = regReset k) ∧ ∀ k i, State.reset.hw.blkByte k i = blkReset k i

/-- After reset there is one memory per die, each in canonical form inside the 40-bit address space, and no store of a step is
left over. -/
def Obligations.ResetHasTheInvariant : Prop :=
  State.reset.Inv

/-- From every state in which there is one memory per die, each in canonical form (addresses rising, none above 40 bits, no
entry equal to what an unlisted address reads), and no store is left over, a step that answers a next state leads to a state
of the same kind, whatever the command. -/
def Obligations.EveryStepKeepsTheInvariant : Prop :=
  ∀ s t : State, s.Inv → step s = .next t → t.Inv

/-- Whatever a command does, the commands that still wait stay as they are and in their order. -/
def Obligations.CommandsLeaveTheQueue : Prop :=
  ∀ (c : Instr) (s t : State), exec c s = .next t → t.pending = s.pending

/-- For each command whose frame is listed (all but the power-on reset and the three that carry out other commands) a next
state differs only in the attributes, the records of the dies and the records of the package that the frame names; every other
attribute of every unit reads as before, every byte of device memory reads as before unless the frame names stores or losses,
and the queue stays. -/
def Obligations.EveryCommandStaysInItsFrame : Prop :=
  ∀ (c : Instr) (T : Touch) (s t : State), Instr.touches c = some T → exec c s = .next t → s.Within T.attrs T.dies T.pkg t

/-- Every command answers a next state, or the fault of a die that the package does not have, or the fault of a unit that a
die does not have; none is refused. -/
def Obligations.NoCommandIsRefused : Prop :=
  ∀ (c : Instr) (s : State), (∃ t, exec c s = .next t) ∨ exec c s = .fault .noSuchDie ∨ exec c s = .fault .noSuchUnit

/-- In reset every reserved or unmapped address (and every address of the density banks and the tile, which are held
elsewhere) reads 0 in the memories, and every command keeps it so. -/
def Obligations.AddressesWithoutStorageStayZero : Prop :=
  (∀ d a, stored a = false → memRead (State.reset.mems.getD d []) a = 0) ∧
  ∀ (c : Instr) (s t : State), s.Inv → (∀ d a, stored a = false → memRead (s.mems.getD d []) a = 0) → exec c s = .next t →
    ∀ d a, stored a = false → memRead (t.mems.getD d []) a = 0

/-- A hardware push stores nothing, or exactly the eight bytes of its word at the address in the pool that `wr` names; it
stores it when the queue is enabled, the agent's packet is not being discarded, nothing makes it wait and there is room. -/
def Obligations.PushStoresOneQueueWord : Prop :=
  (∀ (h : Hw) (d i agent word : Nat) (last : Bool), (h.qPush d i agent word last).2.stores = h.stores ∨
    (h.qPush d i agent word last).2.stores = h.stores ++ [(d, (h.q d i).addr (h.q d i).wr, leBytes 8 word)]) ∧
  (∀ (h : Hw) (d i agent word : Nat) (last : Bool), (h.q d i).enabled = true → (h.q d i).discard.contains agent = false →
    (h.q d i).mustWait i agent = false → ((h.q d i).packet = true → (h.q d i).uncommitted ≠ (h.q d i).size) → (h.q d i).full = false →
    (h.qPush d i agent word last).2.stores = h.stores ++ [(d, (h.q d i).addr (h.q d i).wr, leBytes 8 word)])

/-- The host's access to the BAR windows (R36, R38, R40, R41, R426, R427, R498): every access of a die and an endpoint that
exist completes. A write of a slot that is not busy puts its bytes, one of a busy slot is discarded; the doorbell registers,
the selector of the event window, and a write that hits nothing follow the rules; a read of `mbx_busy_hits` clears it; an
aperture write puts its bytes into the memory of the die it names and nowhere else. -/
def Obligations.HostAccessesComplete : Prop :=
  (∀ (s : State) (die ep off width value : Nat), die < s.hw.dies.length → ep < 2 →
    ∃ t, exec (.registerWrite die ep off width value) s = .next t ∧
      (off = 0x1004 → (t.hw.die die).mbx.done = (s.hw.die die).mbx.done &&& (0xFFFF - value % 2 ^ 16)) ∧
      (off = 0x1008 → (t.hw.die die).mbx.irqEn = value % 2 ^ 16) ∧
      (off = 0x100C → (t.hw.die die).mbx.vec = value % 64) ∧
      (0x4000 ≤ off → off < 0x4008 → (t.hw.die die).erSel = putAt (s.hw.die die).erSel 8 (off - 0x4000) width value) ∧
      (0x4008 ≤ off → off < 0x10000 → t.hw.rd 0 A.bar_rejects ep = (s.hw.rd 0 A.bar_rejects ep + 1) % 2 ^ 32) ∧
      s.SameMem t) ∧
  (∀ (s : State) (die ep off width : Nat), die < s.hw.dies.length → ep < 2 →
    ∃ t, exec (.barRcRead die ep off width) s = .next t ∧
      t.hw.out = [.readBytes ((List.range width).map fun i => s.hw.windowByte die ep (off + i))] ∧
      (off < 0x1014 → 0x1010 < off + width → (t.hw.die die).mbx.busyHits = 0) ∧ s.SameMem t) ∧
  (∀ (s : State) (die ep slot off : Nat) (data : List Byte), die < s.hw.dies.length → ep < 2 → slot < 16 →
    ∃ t, exec (.mbxSlotWrite die ep slot off data) s = .next t ∧ s.SameMem t ∧
      (off + data.length ≤ 256 → bit (s.hw.die die).mbx.busy slot = false → slot < (s.hw.die die).mbx.slots.length →
        (t.hw.die die).mbx.slots.getD slot [] = ((s.hw.die die).mbx.slots.getD slot []).take off ++ data ++
          ((s.hw.die die).mbx.slots.getD slot []).drop (off + data.length)) ∧
      (off + data.length ≤ 256 → bit (s.hw.die die).mbx.busy slot = true →
        (t.hw.die die).mbx.slots = (s.hw.die die).mbx.slots ∧
          (t.hw.die die).mbx.busyHits = ((s.hw.die die).mbx.busyHits + 1) % 2 ^ 32) ∧
      (256 < off + data.length → t.hw.rd 0 A.bar_rejects ep = (s.hw.rd 0 A.bar_rejects ep + 1) % 2 ^ 32)) ∧
  (∀ (s : State) (ep off d a : Nat) (data : List Byte), 0 < s.hw.dies.length → ep < 2 → s.hw.aperture ep off = some (d, a) →
    region a = .qct ∨ region a = .ct ∨ region a = .lamp ∨ region a = .pool ∨ region a = .dram ∧ s.hw.on d domMEM = true →
    ∃ t, exec (.bar2Access ep off true data) s = .next t ∧
      ∀ e x, memRead (t.mems.getD e []) x = memRead ((applyStores s.mems [(d, a, data)]).getD e []) x)

/-- The life of a command (R49 to R54, R57 to R59, R423, R572). Rung slots become busy and the others keep their bits; a
slot's completion writes its reply into the slot, clears busy and sets done; a timeout is counted, clears busy and sets done;
a datagram of a remote mailbox starts a command with its frame, a repeated one is answered with the kept reply, a malformed
one is counted. -/
def Obligations.CommandLifeCompletes : Prop :=
  (∀ (s : State) (die ep mask : Nat), die < s.hw.dies.length → ep < 2 →
    ∃ t, exec (.mbxRing die ep mask) s = .next t ∧ s.SameMem t ∧
      ∀ slot < 16, (t.hw.die die).mbx.busy.testBit slot = ((s.hw.die die).mbx.busy.testBit slot || mask.testBit slot)) ∧
  (∀ (s : State) (d ep slot tag : Nat) (w : Work) (r : Reply), d < s.hw.dies.length →
    s.hw.work? (.slot d ep slot) tag = some w → w.cmd = none → w.origin = .slot d ep slot → w.tag = tag →
    s.hw.reply? (.slot d ep slot) tag = some r → s.hw.resetDue = none →
    ∃ t, exec (.commandComplete (.slot d ep slot) tag) s = .next t ∧
      (t.hw.die d).mbx.busy = (s.hw.die d).mbx.busy &&& (0xFFFF - 2 ^ slot) ∧
      (t.hw.die d).mbx.done = (s.hw.die d).mbx.done ||| 2 ^ slot ∧
      (slot < (s.hw.die d).mbx.slots.length → (t.hw.die d).mbx.slots.getD slot [] = (replyFrame w.frame r).take 256 ++
        ((s.hw.die d).mbx.slots.getD slot []).drop (replyFrame w.frame r).length)) ∧
  (∀ (s : State) (d ep slot tag : Nat) (w : Work), d < s.hw.dies.length →
    s.hw.work? (.slot d ep slot) tag = some w → w.origin = .slot d ep slot → s.hw.reply? (.slot d ep slot) tag = none →
    ∃ t, exec (.commandTimeout (.slot d ep slot) tag) s = .next t ∧
      t.hw.rd d A.mbx_timeouts 0 = (s.hw.rd d A.mbx_timeouts 0 + 1) % 2 ^ 32 ∧
      (t.hw.die d).mbx.busy = (s.hw.die d).mbx.busy &&& (0xFFFF - 2 ^ slot) ∧
      (t.hw.die d).mbx.done = (s.hw.die d).mbx.done ||| 2 ^ slot) ∧
  (∀ (s : State) (die eth ip port : Nat) (data : List Byte), die < s.hw.dies.length → eth < 2 → s.hw.ethUp die eth = true →
    bit (s.hw.rd die A.rmbx_port_en 0) eth = true →
    (16 ≤ data.length → data.length = 16 + frLen data →
      (∀ k ∈ (s.hw.die die).mbx.kept, k.request ≠ data) → (∀ w ∈ s.hw.remoteWork die, w.frame ≠ data) →
      (s.hw.remoteWork die).length < 32 →
      (∃ t, exec (.remoteMailboxDatagram die eth ip port data) s = .next t ∧ s.SameMem t ∧
        ∃ w ∈ (t.hw.die die).mbx.work, w.origin = .remote die eth ip port ∧ w.frame = data ∧ w.since = s.hw.clk) ∧
      ∃ t, exec (.ethDatagram die eth ip port 50420 data) s = .next t ∧
        ∃ w ∈ (t.hw.die die).mbx.work, w.origin = .remote die eth ip port ∧ w.frame = data ∧ w.since = s.hw.clk) ∧
    (data.length < 16 ∨ data.length ≠ 16 + frLen data →
      ∃ t, exec (.remoteMailboxDatagram die eth ip port data) s = .next t ∧ s.SameMem t ∧
        t.hw.rd die A.rmbx_bad 0 = (s.hw.rd die A.rmbx_bad 0 + 1) % 2 ^ 32)) ∧
  (∀ (s : State) (die port ip src dst : Nat) (data : List Byte), die < s.hw.dies.length → port < 2 → s.hw.ethUp die port = true →
    dst ≠ 50420 → dst ≠ s.hw.rd die A.grt_udp_port 0 → dst ≠ s.hw.rd 0 A.tun_udp_port 0 → dst ≠ 319 → dst ≠ 320 →
    ∃ t, exec (.ethDatagram die port ip src dst data) s = .next t ∧
      t.hw.rd die A.eth_drops port = (s.hw.rd die A.eth_drops port + 1) % 2 ^ 32)

/-- PCIe and the links' events (R36, R411 to R413, R415, R416, R418, R419, R422, R424, R425, R428, R544). Every clause names
the state in which the event does its own work and what it leaves. -/
def Obligations.LinkEventsComplete : Prop :=
  (∀ (s : State) (ep : Nat), 0 < s.hw.dies.length → ep < 2 →
    ∀ i ∈ [Instr.pcieFlr ep, Instr.perstLLow ep], ∃ t, exec i s = .next t ∧ s.SameMem t ∧ t.hw.rd 0 A.msix_en ep = 0 ∧
      t.hw.rd 0 A.flr_count ep = (s.hw.rd 0 A.flr_count ep + 1) % 2 ^ 32 ∧
      (ep < s.hw.eps.length → (t.hw.eps.getD ep Endpoint.reset).apertures = Endpoint.reset.apertures ∧
        (t.hw.eps.getD ep Endpoint.reset).msixPending = (s.hw.eps.getD ep Endpoint.reset).msixPending)) ∧
  (∀ (s : State) (ep : Nat) (on : Bool), 0 < s.hw.dies.length → ep < 2 →
    ∃ t, exec (.msixEnableWrite ep on) s = .next t ∧ s.SameMem t ∧ t.hw.rd 0 A.msix_en ep = b2n on ∧
      (on = true → s.hw.rd 0 A.pcie_link ep = 1 → ep < s.hw.eps.length →
        (t.hw.eps.getD ep Endpoint.reset).msixPending = 0)) ∧
  (∀ (s : State) (ep gen width : Nat), 0 < s.hw.dies.length → ep < 2 →
    ∃ t, exec (.pcieLinkChange ep gen width) s = .next t ∧ s.SameMem t ∧ t.hw.rd 0 A.pcie_gen ep = gen ∧
      t.hw.rd 0 A.pcie_link ep = (if gen = 0 then 0 else 1) ∧ t.hw.rd 0 A.pcie_width ep = (if gen = 0 then 0 else width)) ∧
  (∀ (s : State) (ep bar addr : Nat), 0 < s.hw.dies.length → ep < 2 →
    ∃ t, exec (.unmappedRead ep bar addr) s = .next t ∧ s.SameMem t ∧ t.hw.out = [.read 0] ∧
      t.hw.rd 0 A.bar_rejects ep = (s.hw.rd 0 A.bar_rejects ep + 1) % 2 ^ 32) ∧
  (∀ (s : State) (link : Nat), link < s.hw.dies.length → link < 8 → (s.hw.link link).unacked ≠ [] →
    ∃ t, exec (.itvAckTimeout link) s = .next t ∧ s.SameMem t ∧
      t.hw.rd link A.replays 0 = (s.hw.rd link A.replays 0 + 1) % 2 ^ 32) ∧
  (∀ (s : State) (die : Nat), die < s.hw.dies.length → s.hw.rd die A.itv_enable 0 ≠ 0 →
    ∃ t, exec (.itvTrainingStart die) s = .next t ∧ s.SameMem t ∧ t.hw.rd die A.itv_state 0 = 1 ∧
      t.hw.rd die A.train_step 0 = 1) ∧
  (∀ (s : State) (die : Nat) (res : TrainResult), die < s.hw.dies.length → s.hw.rd die A.itv_state 0 = 1 →
    s.hw.rd die A.train_step 0 = 1 ∨ s.hw.rd die A.train_step 0 = 2 ∨ s.hw.rd die A.train_step 0 = 5 ∨
      (s.hw.rd die A.train_step 0 = 3 ∧ (res.order = List.range 8 ∨ res.order = (List.range 8).reverse)) →
    ∃ t, exec (.itvTrainStepDone die res) s = .next t ∧ s.SameMem t ∧
      t.hw.rd die A.train_step 0 = s.hw.rd die A.train_step 0 + 1) ∧
  (∀ (s : State) (die : Nat), die < s.hw.dies.length → s.hw.rd die A.itv_state 0 = 1 →
    ∃ t, exec (.itvTrainFail die) s = .next t ∧ s.SameMem t ∧
      t.hw.rd die A.train_fails 0 = (s.hw.rd die A.train_fails 0 + 1) % 2 ^ 32 ∧
      ((s.hw.die die).itv.failRun + 1 < 3 → t.hw.rd die A.train_step 0 = 1 ∧ t.hw.rd die A.itv_state 0 = 1) ∧
      (3 ≤ (s.hw.die die).itv.failRun + 1 → (s.hw.die die).itv.gen ≤ 1 → t.hw.rd die A.itv_state 0 = 3)) ∧
  (∀ (s : State) (die : Nat), die < s.hw.dies.length → s.hw.rd die A.itv_state 0 = 3 →
    ∃ t, exec (.itvRetry die) s = .next t ∧ s.SameMem t ∧ t.hw.rd die A.itv_state 0 = 1 ∧ t.hw.rd die A.train_step 0 = 1) ∧
  (∀ (s : State) (die : Nat), die < s.hw.dies.length → s.hw.rd die A.itv_state 0 = 2 → s.hw.rd die A.tx_pm 0 = 0 →
    s.hw.rd die A.sleep_after_ns 0 ≠ 0 → s.hw.itvQuiet die = true →
    ∃ t, exec (.itvSleepEnter die) s = .next t ∧ s.SameMem t ∧ t.hw.rd die A.tx_pm 0 = 1 ∧ t.hw.out = [.itvCtl die 0x33]) ∧
  (∀ (s : State) (die : Nat), die < s.hw.dies.length → s.hw.rd die A.itv_state 0 = 2 → s.hw.rd die A.tx_pm 0 = 1 →
    s.hw.rd die A.rx_pm 0 = 1 → s.hw.rd die A.deep_after_ms 0 ≠ 0 → s.hw.itvQuiet die = true →
    ∃ t, exec (.itvDeepPropose die) s = .next t ∧ s.SameMem t ∧ t.hw.rd die A.tx_pm 0 = 0 ∧ t.hw.out = [.itvCtl die 0x55] ∧
      (t.hw.die die).itv.proposed = true) ∧
  (∀ (s : State) (die type : Nat), die < s.hw.dies.length → s.hw.rd die A.itv_state 0 = 2 →
    ∃ t, exec (.itvPmBlockReceive die type) s = .next t ∧ s.SameMem t ∧
      (type = 0x33 → t.hw.rd die A.rx_pm 0 = 1) ∧ (type ≠ 0x33 → type ≠ 0x55 → t.hw.rd die A.rx_pm 0 = 0) ∧
      (type = 0x55 → (s.hw.die die).itv.proposed = true → t.hw.rd die A.tx_pm 0 = 2 ∧ t.hw.rd die A.rx_pm 0 = 2)) ∧
  (∀ (s : State) (die : Nat), die < s.hw.dies.length → s.hw.rd die A.tx_pm 0 = 2 →
    ∃ t, exec (.itvDeepExit die) s = .next t ∧ s.SameMem t ∧ t.hw.rd die A.train_step 0 = 1 ∧ t.hw.rd die A.itv_state 0 = 1 ∧
      t.hw.rd die A.tx_pm 0 = 0 ∧ t.hw.rd die A.rx_pm 0 = 0) ∧
  (∀ (s : State) (die lane width height : Nat), die < s.hw.dies.length → lane < 8 → width < 2 ^ 16 →
    ∃ t, exec (.eyeScanComplete die lane width height) s = .next t ∧ s.SameMem t ∧
      (lane < (s.hw.die die).itv.eyeAt.length → (t.hw.die die).itv.eyeAt.getD lane 0 = s.hw.tb die 1)) ∧
  (∀ (s : State) (die port : Nat) (up : Bool), die < s.hw.dies.length → port < 2 →
    ∃ t, exec (.ethLinkChange die port up) s = .next t ∧ s.SameMem t ∧
      t.hw.rd die A.link_up port = (if up = true ∧ s.hw.rd die A.eth_enable port = 1 then 1 else 0))

/-- The link and system commands (R39, R421, R429 to R432, R435, R440). The link is switched on, off and trained anew, its eye
read or measured, the system numbered afresh or kept, a node read, a frame of the system tree handled and an exchange of time
taken, each in the state that its clause names. -/
def Obligations.LinkCommandsComplete : Prop :=
  (∀ (s : State) (h : Hdr), s.Admits h 0x0C01 (opObj 0x0C01 0) →
    (s.hw.rd h.die A.itv_enable 0 ≠ 1 → ∃ t, exec (.itvEnable h) s = .next t ∧ s.SameMem t ∧ t.replyOf h = some .ok ∧
      t.hw.rd h.die A.itv_enable 0 = 1 ∧ t.hw.rd h.die A.itv_state 0 = 1 ∧ t.hw.rd h.die A.train_step 0 = 1) ∧
    (s.hw.rd h.die A.itv_enable 0 ≠ 0 → ∃ t, exec (.itvDisable h) s = .next t ∧ s.SameMem t ∧ t.replyOf h = some .ok ∧
      t.hw.rd h.die A.itv_enable 0 = 0 ∧ t.hw.rd h.die A.itv_state 0 = 0 ∧ t.hw.rd h.die A.train_step 0 = 0) ∧
    (s.hw.rd h.die A.itv_enable 0 ≠ 0 → ∃ t, exec (.itvRetrain h) s = .next t ∧ s.SameMem t ∧ t.replyOf h = some .ok ∧
      t.hw.rd h.die A.itv_state 0 = 1 ∧ t.hw.rd h.die A.train_step 0 = 1)) ∧
  (∀ (s : State) (h : Hdr) (lanes : Nat), s.Admits h 0x0C02 (opObj 0x0C02 0) → s.hw.rd h.die A.itv_state 0 = 2 →
    (∃ t, exec (.itvEyeRead h lanes) s = .next t ∧ s.SameMem t ∧ t.replyOf h = some (.words (((List.range 8).map fun i =>
        if bit lanes i then s.hw.blkNum h.die A.eye_height 0 (2 * i) 2 * 2 ^ 16 + s.hw.blkNum h.die A.eye_width 0 (2 * i) 2 else 0) ++
      words64 (s.hw.rd h.die A.eye_tb1 0)))) ∧
    ∃ t, exec (.itvEyeMeasure h lanes) s = .next t ∧ s.SameMem t ∧
      t.statusOf h = some (if s.hw.n = 8 then .ok else .deferred)) ∧
  (∀ (s : State) (h : Hdr), s.Admits h 0x0C03 (opObj 0x0C03 0) → s.hw.rd 0 A.sys_role 0 ≠ 2 →
    ∀ i ∈ [Instr.sysEnumFresh h, Instr.sysEnumKeep h], ∃ t, exec i s = .next t ∧ s.SameMem t ∧ t.statusOf h = some .deferred ∧
      t.hw.rd 0 A.sys_gen 0 = (s.hw.rd 0 A.sys_gen 0 + 1) % 2 ^ 32) ∧
  (∀ (s : State) (h : Hdr) (addr : Nat), s.Admits h 0x0C04 (opObj 0x0C04 0) →
    ∃ t, exec (.sysNode h addr) s = .next t ∧ s.SameMem t ∧ t.replyOf h = some (.words
      (match s.hw.pkg.nodes.find? fun x => x.addr = addr with
        | some x => [x.kind * 2 ^ 24 + x.die * 2 ^ 16 + x.chain * 2 ^ 8, x.driver] ++ words64 x.serial
        | none => [0, 0, 0, 0]))) ∧
  (∀ (s : State) (link serial : Nat) (masterEn : Bool) (priority dies : Nat) (chains : List Nat) (lo hi : Nat),
    0 < s.hw.dies.length → link < 24 → serial ≠ Config.serial → (∀ p ∈ s.hw.pkg.peers, p.serial = serial → p.link = link) →
    ∃ t, exec (.enumFrame link serial masterEn priority dies chains none lo hi) s = .next t ∧ s.SameMem t ∧
      ∃ p ∈ t.hw.pkg.peers, p.link = link ∧ p.serial = serial ∧ p.priority = priority ∧ p.dies = dies) ∧
  (∀ s : State, s.hw.rd 0 A.auto_enum 0 = 1 → s.hw.rd 0 A.sys_role 0 ≠ 2 → s.hw.lead.isSome →
    ∃ t, exec .autoEnum s = .next t ∧ s.SameMem t ∧ t.hw.rd 0 A.sys_gen 0 = (s.hw.rd 0 A.sys_gen 0 + 1) % 2 ^ 32) ∧
  (∀ (s : State) (link : Nat) (t1 t2 t3 t4 : Int) (at_ : Nat), 0 < s.hw.dies.length → link < 8 → s.hw.rd 0 A.tb_source 0 = 2 →
    (∃ p ∈ s.hw.pkg.peers, p.link = link) → s.hw.rd 0 A.time_master 0 = 0 → s.hw.lead.isSome → (s.hw.servo 0).st = .acquire →
    ∃ t, exec (.timeSyncExchange link t1 t2 t3 t4 at_) s = .next t ∧ s.SameMem t ∧
      t.hw.rd 0 A.offset_ns 0 = ofSigned 32 ((t2 - t1 - ((t2 - t1) + (t4 - t3)) / 2 + s.hw.rdS link A.itv_asym_ps 0 32) / 1000)) ∧
  (∀ (s : State) (die type hops dst src seq ack : Nat) (payload : List Byte), die < s.hw.dies.length → die < 8 →
    s.hw.rd die A.itv_state 0 = 2 → 2 ≤ type → type ≤ 7 → seq < 2 ^ 16 → (s.hw.link die).rxNext = seq →
    ∃ t, exec (.itvFrameReceive die true type hops dst src seq ack payload) s = .next t ∧ s.SameMem t ∧
      t.hw.rd die A.frames_rx 0 = (s.hw.rd die A.frames_rx 0 + 1) % 2 ^ 32 ∧
      (4 ≤ type → hops ≠ 0 → (t.hw.link die).rxNext = (seq + 1) % 2 ^ 16)) ∧
  (∀ (s : State) (die port ip udp k type hops dst src seq ack : Nat) (payload : List Byte), die < s.hw.dies.length → port < 2 →
    s.hw.ethUp die port = true → s.hw.tunnelOf die port ip udp = some k → k < s.hw.tunnels.length →
    (s.hw.link (8 + k)).up = true → 4 ≤ type → type ≤ 7 → hops ≠ 0 → seq < 2 ^ 16 → (s.hw.link (8 + k)).rxNext = seq →
    ∃ t, exec (.tunnelDatagram die port ip udp true type hops dst src seq ack payload) s = .next t ∧ s.SameMem t ∧
      (t.hw.link (8 + k)).rxNext = (seq + 1) % 2 ^ 16)

/-- The queues (R73, R88 to R91, R98 to R105, R108). A pointer write that passes the checks moves its pointer and no other, a
held word is stored at the address that `wr` names, the write-back stores words 8 to 15 of the entry of an enabled queue and
nothing else, and invalidate, enable, disable, flush and status act on every queue of a range that passes their checks. -/
def Obligations.QueueRowsComplete : Prop :=
  (∀ (s : State) (die ep q value : Nat), die < s.hw.dies.length → q < 64 → q < (s.hw.die die).queues.length →
    (s.hw.q die q).enabled = true → (s.hw.q die q).producer = 1 → value < (s.hw.q die q).ptrMod →
    (value + (s.hw.q die q).ptrMod - (s.hw.q die q).wr) % (s.hw.q die q).ptrMod ≤ (s.hw.q die q).size - (s.hw.q die q).occupied →
    ((s.hw.q die q).packet = true → s.begun.qChainOk s.mems die (s.hw.q die q) (s.hw.q die q).cmt value (s.hw.q die q).size = true) →
    ∃ t, exec (.qpWrWrite die ep q value) s = .next t ∧ s.SameMem t ∧
      (t.hw.q die q).wr = value ∧ (t.hw.q die q).cmt = value ∧ (t.hw.q die q).rd = (s.hw.q die q).rd) ∧
  (∀ (s : State) (die ep q value : Nat), die < s.hw.dies.length → q < 64 → q < (s.hw.die die).queues.length →
    (s.hw.q die q).enabled = true → (s.hw.q die q).consumer = 1 → value < (s.hw.q die q).ptrMod →
    (value + (s.hw.q die q).ptrMod - (s.hw.q die q).rd) % (s.hw.q die q).ptrMod ≤ (s.hw.q die q).depth →
    ∃ t, exec (.qpRdWrite die ep q value) s = .next t ∧ s.SameMem t ∧
      (t.hw.q die q).rd = value ∧ (t.hw.q die q).wr = (s.hw.q die q).wr ∧ (t.hw.q die q).cmt = (s.hw.q die q).cmt) ∧
  (∀ (s : State) (die q : Nat) (w : HeldWord), die < s.hw.dies.length → q < 64 → q < (s.hw.die die).queues.length →
    (s.hw.q die q).enabled = true → (s.hw.q die q).held = [w] → (s.hw.q die q).discard.contains w.agent = false →
    ({ s.hw.q die q with held := [] } : Queue).mustWait q w.agent = false → (s.hw.q die q).full = false →
    ((s.hw.q die q).packet = true → (s.hw.q die q).uncommitted ≠ (s.hw.q die q).size) →
    ∃ t, exec (.stallPushRetry die q) s = .next t ∧ (t.hw.q die q).held = [] ∧
      ∀ e x, memRead (t.mems.getD e []) x =
        memRead ((applyStores s.mems [(die, (s.hw.q die q).addr (s.hw.q die q).wr, leBytes 8 w.word)]).getD e []) x) ∧
  (∀ (s : State) (die q : Nat), die < s.hw.dies.length → q < 64 → ∃ t, exec (.queueWriteback die q) s = .next t ∧
    ∀ e x, memRead (t.mems.getD e []) x = if (s.hw.q die q).enabled then
      memRead ((applyStores s.mems [(die, 64 * q + 32, wordBytes ([(s.hw.q die q).cmt * 2 ^ 16 + (s.hw.q die q).wr,
        (s.hw.q die q).maxDepth * 2 ^ 16 + (s.hw.q die q).rd, (s.hw.q die q).pushes, (s.hw.q die q).pops,
        (s.hw.q die q).overflows * 2 ^ 16 + (s.hw.q die q).underruns, (s.hw.q die q).oversize * 2 ^ 16 + (s.hw.q die q).rewinds] ++
        words64 (s.hw.tb die 1)))]).getD e []) x
      else memRead (s.mems.getD e []) x) ∧
  (∀ (s : State) (h : Hdr) (first count : Nat), s.Admits h 0x0101 (opObj 0x0101 first) → queueRange first count = true →
    (∀ i, first ≤ i → i < first + count → i ≠ 63 ∧ (s.hw.q h.die i).enabled = false) →
    ∃ t, exec (.queueInvalidate h first count) s = .next t ∧ s.SameMem t ∧ t.replyOf h = some .ok ∧
      ∀ i, first ≤ i → i < first + count → (t.hw.q h.die i).cached = false) ∧
  (∀ (s : State) (h : Hdr) (first count : Nat) (bad : List Nat), s.Admits h 0x0102 (opObj 0x0102 first) →
    queueRange first count = true →
    (s.atWork h).enableFail s.mems h.die bad [] ((List.range count).map (first + ·)) = none →
    ∃ t, exec (.queueEnable h first count bad) s = .next t ∧ s.SameMem t ∧ t.replyOf h = some (queueReply .ok 0xFFFF) ∧
      ∀ i, first ≤ i → i < first + count → t.hw.rd h.die A.q_enabled i = 1) ∧
  (∀ (s : State) (h : Hdr) (first count : Nat), s.Admits h 0x0102 (opObj 0x0102 first) → queueRange first count = true →
    (∀ i, first ≤ i → i < first + count → (s.hw.q h.die i).enabled = true ∧ s.hw.agentActive h.die i = false) →
    ∃ t, exec (.queueDisable h first count) s = .next t ∧ t.replyOf h = some (queueReply .ok 0xFFFF) ∧
      ∀ i, first ≤ i → i < first + count → t.hw.rd h.die A.q_enabled i = 0) ∧
  (∀ (s : State) (h : Hdr) (first count : Nat), s.Admits h 0x0102 (opObj 0x0102 first) → queueRange first count = true →
    (s.hw.die h.die).queues.length = 64 →
    (∀ i, first ≤ i → i < first + count → i ≠ 63 ∧ (s.hw.q h.die i).enabled = true) →
    ∃ t, exec (.queueFlush h first count) s = .next t ∧ s.SameMem t ∧ t.replyOf h = some (queueReply .ok 0xFFFF) ∧
      ∀ i, first ≤ i → i < first + count → (t.hw.q h.die i).rd = (s.hw.q h.die i).cmt) ∧
  (∀ (s : State) (h : Hdr) (q : Nat), s.Admits h 0x0103 (opObj 0x0103 q) → q < 64 →
    ∃ t, exec (.queueStatus h q) s = .next t ∧ s.SameMem t ∧ t.replyOf h = some (.words ([(s.hw.q h.die q).cmt * 2 ^ 16 +
      (s.hw.q h.die q).wr, (s.hw.q h.die q).depth * 2 ^ 16 + (s.hw.q h.die q).rd,
      (if (s.hw.q h.die q).cached then (s.hw.q h.die q).size else 0) * 2 ^ 16 + (s.hw.q h.die q).sticky * 2 ^ 8 +
        (s.hw.q h.die q).stateBits, 0] ++ words64 (s.hw.q h.die q).last)))

/-- The encoder inputs (R110 to R112, R114, R115, R117 to R119, R123, R131, R140). The levels of A and B are taken at every
edge and an edge that skips a state counts as a quadrature error; a lost signal sets LOS and drops the reference; the first
index pulse after it gives the reference and a later one outside the window is an index error; an absolute word's end frees
the interface, and one without acknowledge, or a monoflop that does not answer, is an absolute error; the home inputs and
STILL show their state. Where a fact speaks of a flag of the channel, the channel is not the die's position source, so no pair
is published with it. -/
def Obligations.MotionRowsComplete : Prop :=
  (∀ (s : State) (die ch : Nat) (a b : Bool) (tm : Nat), die < s.hw.dies.length → ch < 2 → ch < (s.hw.die die).enc.length → ∃ t,
    exec (.encEdge die ch a b tm) s = .next t ∧ (t.hw.enc die ch).a = a ∧ (t.hw.enc die ch).b = b) ∧
  (∀ (s : State) (die ch : Nat) (a b : Bool) (tm : Nat), die < s.hw.dies.length → ch < 2 → ch < (s.hw.die die).enc.length →
    s.hw.encOn die ch = true → s.hw.rd die A.enc_mode ch ≠ 1 → (quadPlace a b +
    4 - quadPlace (s.hw.enc die ch).a (s.hw.enc die ch).b) % 4 = 2 → ∃ t, exec (.encEdge die ch a b tm) s = .next t ∧
    t.hw.rd die A.quad_errs ch = (s.hw.rd die A.quad_errs ch + 1) % 2 ^ 32) ∧
  (∀ (s : State) (die ch pin tm : Nat), die < s.hw.dies.length → ch < 2 → ch < (s.hw.die die).enc.length →
    s.hw.rd die A.enc_enable ch = 1 → s.hw.encFlag die ch fLOS = false → pin ≠ 2 → s.hw.posCh die ≠ some ch → ∃ t,
    exec (.encLosSet die ch pin tm) s = .next t ∧ t.hw.encFlag die ch fLOS = true ∧ t.hw.encFlag die ch fHOMED = false ∧
    (t.hw.enc die ch).ref = none) ∧
  (∀ (s : State) (die ch tm : Nat), die < s.hw.dies.length → ch < 2 → s.hw.encFlag die ch fLOS = true → s.hw.posCh die ≠
    some ch → ∃ t, exec (.encLosClear die ch tm) s = .next t ∧ t.hw.encFlag die ch fLOS = false) ∧
  (∀ (s : State) (die ch tm : Nat), die < s.hw.dies.length → ch < 2 → ch < (s.hw.die die).enc.length → s.hw.encOn die ch =
    true → s.hw.rd die A.index_gate ch = 0 → (s.hw.enc die ch).ref = none → s.hw.rd die A.home_on_index ch = 0 → ∃ t,
    exec (.indexPulse die ch tm) s = .next t ∧ (t.hw.enc die ch).ref = some (s.hw.rawN die ch)) ∧
  (∀ (s : State) (die ch tm : Nat) (r : Int), die < s.hw.dies.length → ch < 2 → ch < (s.hw.die die).enc.length →
    s.hw.encOn die ch = true → s.hw.rd die A.index_gate ch = 0 → (s.hw.enc die ch).ref = some r →
    s.hw.rd die A.index_period ch ≠ 0 → s.hw.rd die A.index_window ch <
    (indexDiff (s.hw.rawN die ch) r (s.hw.rd die A.index_period ch)).natAbs → ∃ t, exec (.indexPulse die ch tm) s = .next t ∧
    t.hw.rd die A.index_errs ch = (s.hw.rd die A.index_errs ch + 1) % 2 ^ 32 ∧ ((s.hw.enc die ch).errRun = 2 →
    (t.hw.enc die ch).ref = none)) ∧
  (∀ (s : State) (die ch : Nat) (ack : Bool) (word : Nat), die < s.hw.dies.length → ch < 2 → ch < (s.hw.die die).enc.length →
    (s.hw.enc die ch).word.isSome → ∃ t, exec (.absWordComplete die ch ack word) s = .next t ∧ (t.hw.enc die ch).word = none ∧
    (t.hw.enc die ch).dat = true ∧ (ack = false → s.hw.encFlag die ch fLOS = false → t.hw.rd die A.abs_errs ch =
    (s.hw.rd die A.abs_errs ch + 1) % 2 ^ 32)) ∧
  (∀ (s : State) (die ch input : Nat) (rising : Bool) (tm : Nat), die < s.hw.dies.length → ch < 2 → s.hw.rd die A.mag_home ch ≠
    1 + 2 * input + b2n (!rising) → ∃ t, exec (.encMag die ch input rising tm) s = .next t ∧ t.hw.rd die A.mag_state ch =
    putBit (s.hw.rd die A.mag_state ch) input rising) ∧
  (∀ (s : State) (die ch : Nat), die < s.hw.dies.length → ch < 2 → s.hw.encOn die ch = true → s.hw.posCh die ≠ some ch → ∃ t,
    exec (.stillTimeout die ch) s = .next t ∧ t.hw.encFlag die ch fSTILL = true) ∧
  (∀ (s : State) (die ch : Nat) (dat : Bool), die < s.hw.dies.length → ch < 2 → ch < (s.hw.die die).enc.length →
    s.hw.rd die A.enc_enable ch = 1 → s.hw.rd die A.enc_mode ch ≠ 0 → (s.hw.enc die ch).word = none → ∃ t,
    exec (.absWordRequest die ch dat) s = .next t ∧ s.SameMem t ∧ ((t.hw.enc die ch).word = if dat then some (s.hw.tb die 1,
    s.hw.rawN die ch) else none)) ∧
  (∀ (s : State) (h : Hdr) (ch : Nat), s.Admits h 0x0011 ⟨0x03, ch, 0x2A⟩ → ch < 2 → ch < (s.hw.die h.die).enc.length →
    s.hw.rd h.die A.enc_enable ch = 1 → s.hw.rd h.die A.enc_mode ch ≠ 0 → (s.hw.enc h.die ch).word = none →
    (s.hw.enc h.die ch).dat = true → ∃ t, exec (.absRequest h ch) s = .next t ∧ s.SameMem t ∧ t.replyOf h = some .ok ∧
    (t.hw.enc h.die ch).word = some (s.hw.tb h.die 1, s.hw.rawN h.die ch)) ∧
  (∀ (s : State) (die ch : Nat), die < s.hw.dies.length → ch < 2 → ch < (s.hw.die die).enc.length →
    (s.hw.enc die ch).word.isSome → ∃ t, exec (.absTimeout die ch) s = .next t ∧ s.SameMem t ∧ (t.hw.enc die ch).word = none ∧
    t.hw.rd die A.abs_errs ch = (s.hw.rd die A.abs_errs ch + 1) % 2 ^ 32)

/-- Position, comparators and the hardware inputs (R126, R129, R132, R135 to R138, R155, R166, R167). POS_SET answers with the
pair that it publishes, POS_LATCH with the newest pair and the stretch factor; CMP_ARM takes its operands, CMP_DISARM leaves
the unit IDLE; a pair of the partner die becomes the partner pair of a die without encoder; an accepted level of an input
shows in `hs_in`, and E_STOP puts every die into ESTOP. -/
def Obligations.PositionRowsComplete : Prop :=
  (∀ (s : State) (h : Hdr) (what : Nat) (value : Int), s.Admits h 0x0201 (opObj 0x0201 0) → 1 ≤ what → what ≤ 3 →
    s.hw.printing h.die = false → (s.hw.posCh h.die).isSome → ∃ t, exec (.posSet h what value) s = .next t ∧ t.replyOf h =
    some ⟨.ok, (t.hw.pos h.die).newest.bytes⟩) ∧
  (∀ (s : State) (h : Hdr), s.Admits h 0x0202 (opObj 0x0202 0) → ∃ t, exec (.posLatch h) s = .next t ∧ s.SameMem t ∧
    t.replyOf h = some ⟨.ok, (s.hw.pos h.die).newest.bytes ++ leBytes 4 (s.hw.rd h.die A.stretch 0)⟩) ∧
  (∀ (s : State) (h : Hdr) (unit_ pulse : Nat) (event lpos rev lateOk : Bool) (value : Int) (step : Nat),
    s.Admits h 0x0203 (opObj 0x0203 unit_) → unit_ < 16 → pulse < 256 → step < 2 ^ 32 → ∃ t,
    exec (.cmpArm h unit_ pulse event lpos rev lateOk value step) s = .next t ∧ s.SameMem t ∧ t.statusOf h = some .ok ∧
    t.hw.rd h.die A.cmp_ctl unit_ = cmpWord 1 pulse event lpos rev lateOk unit_ ∧ t.hw.rd h.die A.cmp_step unit_ = step) ∧
  (∀ (s : State) (h : Hdr) (unit_ : Nat), s.Admits h 0x0203 (opObj 0x0203 unit_) → unit_ < 16 → ∃ t,
    exec (.cmpDisarm h unit_) s = .next t ∧ s.SameMem t ∧ t.replyOf h = some (.words [0]) ∧ t.hw.rd h.die A.cmp_state unit_ =
    0) ∧
  (∀ (s : State) (die src : Nat), die < s.hw.dies.length → src < s.hw.dies.length → src + 1 = die → s.hw.posCh die = none → ∃ t,
    exec (.pergolaPairReceive die src) s = .next t ∧ (t.hw.pos die).partner = (s.hw.pos src).newest) ∧
  (∀ (s : State) (level : Bool), s.hw.hsOn = true → ((s.hw.hsSeen.testBit 0 = true → s.hw.hsIn.testBit 0 ≠ level)) → ∃ t,
    exec (.pressRunAccept level) s = .next t ∧ t.hw.hsIn.testBit 0 = level) ∧
  (∀ (s : State) (level : Bool), s.hw.hsOn = true → ((s.hw.hsSeen.testBit 1 = true → s.hw.hsIn.testBit 1 ≠ level)) → ∃ t,
    exec (.headParkedAccept level) s = .next t ∧ t.hw.hsIn.testBit 1 = level) ∧
  (∀ (s : State), s.hw.hsOn = true → ((s.hw.hsSeen.testBit 2 = true → s.hw.hsIn.testBit 2 ≠ true)) → ∃ t,
    exec (.eStopAccept) s = .next t ∧ s.SameMem t ∧ t.hw.hsIn.testBit 2 = true ∧ (∀ d < s.hw.dies.length,
    t.hw.rd d A.le_state 0 = 5)) ∧
  (∀ (s : State), s.hw.hsOn = true → ((s.hw.hsSeen.testBit 2 = true → s.hw.hsIn.testBit 2 ≠ false)) → ∃ t,
    exec (.eStopReleaseAccept) s = .next t ∧ s.SameMem t ∧ t.hw.hsIn.testBit 2 = false)

/-- The object commands (R11, R61 to R63). A readable scalar answers its value and width, a block its bytes in force; a write
that nothing refuses answers OK and, for an attribute whose write has no effect of its own, leaves the value; a block written
without COMMIT stays in a staging copy of its owner, COMMIT takes the copy away, and a copy left alone is discarded. -/
def Obligations.ObjectRowsComplete : Prop :=
  (∀ (s : State) (h : Hdr) (obj : ObjRef) (r : AttrRow), s.Admits h 0x0010 obj →
    (s.atWork h).objKnown (s.hw.execDie h 0x0010 obj) obj = true → (s.atWork h).attr? obj = some r → r.width ≤ 64 → ∃ t,
    exec (.objGet h obj) s = .next t ∧ s.SameMem t ∧ t.replyOf h =
    some (.words (words64 ((s.atWork h).getScalar (s.hw.execDie h 0x0010 obj) obj r).1 ++ [r.width]))) ∧
  (∀ (s : State) (h : Hdr) (obj : ObjRef) (r : AttrRow) (value : Nat), s.Admits h 0x0011 obj →
    (s.atWork h).objKnown (s.hw.execDie h 0x0011 obj) obj = true → (s.atWork h).attr? obj = some r → r.acc = .rw → r.width ≤
    64 → value < 2 ^ r.width → r.rng.has r.signed r.width value = true →
    (s.atWork h).setRefuse (s.hw.execDie h 0x0011 obj) obj value = none → r.lineEff = false →
    (∀ c ∈ [0x03, 0x04, 0x0E, 0x0F, 0x14, 0x15, 0x17, 0x1F], obj.cls ≠ c) → (⟨obj.cls, obj.attr⟩ : AttrId) ≠ A.cfg_changes →
    ∃ t, exec (.objSet h obj value none) s = .next t ∧ t.replyOf h = some .ok ∧
    t.hw.rdk (okey (s.hw.execDie h 0x0011 obj) obj) = value) ∧
  (∀ (s : State) (h : Hdr) (obj : ObjRef) (r : AttrRow) (off len : Nat), s.Admits h 0x0012 obj →
    (s.atWork h).objKnown (s.hw.execDie h 0x0012 obj) obj = true → (s.atWork h).attr? obj = some r → 64 < r.width → 1 ≤ len →
    len ≤ 240 → off + len ≤ (s.atWork h).blkSize (s.hw.execDie h 0x0012 obj) obj r → ∃ t,
    exec (.objGetBlock h obj off len) s = .next t ∧ s.SameMem t ∧ t.replyOf h =
    some ⟨.ok, (s.atWork h).getBlock (s.hw.execDie h 0x0012 obj) obj off len⟩) ∧
  (∀ (s : State) (h : Hdr) (obj : ObjRef) (r : AttrRow) (off : Nat) (data : List Byte), s.Admits h 0x0013 obj →
    (s.atWork h).objKnown (s.hw.execDie h 0x0013 obj) obj = true → (s.atWork h).attr? obj = some r → r.acc = .rw → 64 <
    r.width → data.length ≤ 216 → off + data.length ≤ r.width / 8 → (s.atWork h).setRefuse (s.hw.execDie h 0x0013 obj) obj 0 =
    none → (∀ x ∈ s.hw.stages, x.key ≠ okey (s.hw.execDie h 0x0013 obj) obj) → ∃ t,
    exec (.objSetBlock h obj false none off data) s = .next t ∧ t.replyOf h = some .ok ∧ (∃ x ∈ t.hw.stages, x.key =
    okey (s.hw.execDie h 0x0013 obj) obj ∧ x.owner = srcOf h.origin ∧ x.bytes =
    blkSplice (okey (s.hw.execDie h 0x0013 obj) obj) (blkSplice (okey (s.hw.execDie h 0x0013 obj) obj) (s.hw.blk (okey (s.hw.execDie h 0x0013 obj) obj)) 0 []) off data)) ∧
  (∀ (s : State) (h : Hdr) (obj : ObjRef) (r : AttrRow) (off : Nat) (data : List Byte), s.Admits h 0x0013 obj →
    (s.atWork h).objKnown (s.hw.execDie h 0x0013 obj) obj = true → (s.atWork h).attr? obj = some r → r.acc = .rw → 64 <
    r.width → data.length ≤ 216 → off + data.length ≤ r.width / 8 → (s.atWork h).setRefuse (s.hw.execDie h 0x0013 obj) obj 0 =
    none → (∀ x ∈ s.hw.stages, x.key ≠ okey (s.hw.execDie h 0x0013 obj) obj) →
    (({ (s.atWork h) with stages := (s.atWork h).stages.filter fun x => x.key ≠ okey (s.hw.execDie h 0x0013 obj) obj } : Hw).blkCheck (s.hw.execDie h 0x0013 obj) obj (blkSplice (okey (s.hw.execDie h 0x0013 obj) obj) (blkSplice (okey (s.hw.execDie h 0x0013 obj) obj) (blkSplice (okey (s.hw.execDie h 0x0013 obj) obj) (s.hw.blk (okey (s.hw.execDie h 0x0013 obj) obj)) 0 []) off data) (r.width / 8) []) =
    none) → ∃ t, exec (.objSetBlock h obj true none off data) s = .next t ∧ t.replyOf h = some .ok ∧ (∀ x ∈ t.hw.stages,
    x.key ≠ okey (s.hw.execDie h 0x0013 obj) obj)) ∧
  (∀ (s : State) (die : Nat) (obj : ObjRef), die < s.hw.dies.length → (∃ x ∈ s.hw.stages, x.key = okey die obj) → ∃ t,
    exec (.stageDiscard die obj) s = .next t ∧ s.SameMem t ∧ (∀ x ∈ t.hw.stages, x.key ≠ okey die obj))

/-- Identity, state and firmware (R42, R65, R68 to R71, R81, R515, R517, R521, R543). The identity and the state are read as
the part holds them; BL_SET records the level for the next boot; a firmware session opens, takes its bytes in order, ends in a
VALID slot when the image is sound, is activated for the next boot, and is left by ABORT or by its timeout; a die's status
block steps its generation by two. -/
def Obligations.FirmwareRowsComplete : Prop :=
  (∀ (s : State) (h : Hdr), s.Admits h 0x0001 (opObj 0x0001 0) → ∃ t, exec (.idRead h) s = .next t ∧ s.SameMem t ∧
    (t.replyOf h =
    some ⟨.ok, leBytes 8 Config.serial ++ orderCode ++ wordBytes [s.hw.bl * 2 ^ 16 + (s.atWork h).n * 2 ^ 8 + (s.atWork h).leadDie] ++ (List.range (s.atWork h).n).flatMap fun d => leBytes 8 (Config.lot d) ++ leBytes 1 (Config.wafer d) ++ leBytes 1 (Config.dieX d) ++ leBytes 1 (Config.dieY d) ++ leBytes 1 (Config.stepLetter d) ++ leBytes 4 0⟩)) ∧
  (∀ (s : State) (h : Hdr), s.Admits h 0x0002 (opObj 0x0002 0) → ∃ t, exec (.sysState h) s = .next t ∧ s.SameMem t ∧
    t.replyOf h =
    some (.words ([(s.atWork h).fwSlotNo * 2 ^ 24 + s.hw.bl * 2 ^ 16 + (s.atWork h).leadDie * 2 ^ 8 + s.hw.mode.code, (s.atWork h).fwVer, s.hw.faultMask * 2 ^ 8 + (s.atWork h).runMask] ++
    words64 ((s.atWork h).tb (s.hw.execDie h 0x0002 (opObj 0x0002 0)) 1) ++ words64 (s.hw.evtNext - 1)))) ∧
  (∀ (s : State) (h : Hdr) (level : Nat), s.Admits h 0x0004 (opObj 0x0004 0) → (level = 1 ∨ level = 2) →
    bit (s.hw.rd (s.hw.execDie h 0x0004 (opObj 0x0004 0)) A.straps 0) 0 = false →
    bit (s.hw.rd (s.hw.execDie h 0x0004 (opObj 0x0004 0)) A.straps 0) 3 = false → (s.atWork h).nvOk = true → ∃ t,
    exec (.blSet h level) s = .next t ∧ s.SameMem t ∧ t.statusOf h = some .deferred ∧ t.hw.rd 0 A.bl_nv 0 = level) ∧
  (∀ (s : State) (h : Hdr) (tag : Nat) (r : Deferred), s.Admits h 0x0005 (opObj 0x0005 0) →
    (s.atWork h).deferredOf (s.hw.execDie h 0x0005 (opObj 0x0005 0)) tag (srcOf h.origin) = some r → ∃ t,
    exec (.cmdStatus h tag) s = .next t ∧ s.SameMem t ∧ t.replyOf h = some ⟨.ok, wordBytes [r.fate] ++ r.eff.bytes⟩) ∧
  (∀ (s : State) (h : Hdr) (size : Nat), s.Admits h 0x0F20 (opObj 0x0F20 0) → ((s.hw.fw.any fun f => decide (f.src ≠
    srcOf h.origin)) = false) → bit (s.hw.rd (s.hw.execDie h 0x0F20 (opObj 0x0F20 0)) A.straps 0) 3 = false → size ≤ 2 ^ 24 →
    (s.atWork h).nvOk = true → ∃ t, exec (.fwBegin h size) s = .next t ∧ s.SameMem t ∧ t.replyOf h = some .ok ∧ t.hw.fw =
    some { src := srcOf h.origin, size := size, received := 0, lastOff := 0, lastLen := 0, data := [], ended := false } ∧
    t.hw.fwSlots = s.hw.fwSlots.set (s.atWork h).fwTarget FwSlot.blank) ∧
  (∀ (s : State) (h : Hdr) (f : FwSession) (off : Nat) (data : List Byte), s.Admits h 0x0F20 (opObj 0x0F20 0) → s.hw.fw =
    some f → f.src = srcOf h.origin → f.ended = false → data ≠ [] → data.length ≤ 228 → ¬(f.lastLen = data.length ∧
    f.lastOff = off) → off = f.received → off + data.length ≤ f.size → (s.atWork h).nvOk = true → ∃ t,
    exec (.fwData h off data) s = .next t ∧ s.SameMem t ∧ t.replyOf h = some .ok ∧ t.hw.fw =
    some { f with received := off + data.length, lastOff := off, lastLen := data.length, data := f.data ++ data }) ∧
  (∀ (s : State) (h : Hdr) (f : FwSession), s.Admits h 0x0F20 (opObj 0x0F20 0) → s.hw.fw = some f → f.src = srcOf h.origin →
    f.ended = false → (s.atWork h).nvOk = true → f.received = f.size → ∃ t, exec (.fwEnd h) s = .next t ∧ s.SameMem t ∧
    (Config.imageCheck f.data = true → bit (Config.imageLevels f.data) s.hw.bl = true → t.replyOf h = some .ok ∧ t.hw.fw =
    some { f with ended := true } ∧ ((s.atWork h).fwTarget < s.hw.fwSlots.length →
    (t.hw.fwSlots.getD (s.atWork h).fwTarget FwSlot.blank).st = .valid)) ∧ (Config.imageCheck f.data = false → t.statusOf h =
    some .check ∧ t.hw.fw = none)) ∧
  (∀ (s : State) (h : Hdr), s.Admits h 0x0F20 (opObj 0x0F20 0) → ((s.hw.fw.any fun f => decide (f.src ≠ srcOf h.origin)) =
    false) → (s.hw.fwSlots.getD (s.atWork h).fwTarget FwSlot.blank).st = .valid → (s.atWork h).nvOk = true → ∃ t,
    exec (.fwActivate h) s = .next t ∧ s.SameMem t ∧ t.statusOf h = some .deferred ∧ t.hw.fw = none ∧ ((s.atWork h).fwTarget <
    s.hw.fwSlots.length → (t.hw.fwSlots.getD (s.atWork h).fwTarget FwSlot.blank).st = .pending)) ∧
  (∀ (s : State) (h : Hdr) (f : FwSession), s.Admits h 0x0F20 (opObj 0x0F20 0) → s.hw.fw = some f → f.src = srcOf h.origin →
    ∃ t, exec (.fwAbort h) s = .next t ∧ s.SameMem t ∧ t.replyOf h = some .ok ∧ t.hw.fw = none) ∧
  (∀ (s : State), ∃ t, exec (.fwSessionTimeout) s = .next t ∧ s.SameMem t ∧ t.hw.fw = none) ∧
  (∀ (s : State) (die : Nat), die < s.hw.dies.length → (s.hw.die die).up = true → ∃ t, exec (.statusBlockUpdate die) s =
    .next t ∧ s.SameMem t ∧ (t.hw.die die).sb.gen = ((s.hw.die die).sb.gen + 2) % 2 ^ 32 ∧ (t.hw.die die).sb.heartbeat =
    ((s.hw.die die).sb.heartbeat + 1) % 2 ^ 32)

/-- The line engine (R153, R158, R160 to R162, R166, R167). A later row group fires when its time is reached; a slot beyond
the next one that is not staged at its deadline is dropped for data; LE_RESUME leaves ESTOP, HS_FORCE and HS_RELEASE take and
leave the outputs, LE_STATUS reads the state and the newest position together. -/
def Obligations.FireRowsComplete : Prop :=
  (∀ (s : State) (die port : Nat) (a : Arm) (f : Firing), die < s.hw.dies.length → port < 24 →
    ((s.hw.port die port).arms.find? (fun a => (s.hw.port die port).arms.all fun b => a.t ≤ b.t) = some a) →
    (s.hw.port die port).firing = some f → f.ctx = a.ctx → f.k = a.k → ∃ t, exec (.fireTimerMatch die port) s = .next t ∧
    t.hw.rd die A.fire_pulses port = (s.hw.rd die A.fire_pulses port + 1) % 2 ^ 32) ∧
  (∀ (s : State) (die port slot : Nat) (c : Ctx), die < s.hw.dies.length → port < 24 → s.begun.portCtx die port = some c →
    c.slotAt port < slot → s.begun.ctxPrints die c.num = true → s.hw.rd die A.le_state 0 = 1 → s.begun.portLive die port =
    true → s.begun.armBound die c port slot = true → (s.begun.tFire die c slot port 0).isSome →
    (s.hw.port die port).slot? c.num slot = none → ∃ t, exec (.commitDeadline die port slot) s = .next t ∧
    t.hw.rd die A.drops_data 0 = (s.hw.rd die A.drops_data 0 + 1) % 2 ^ 32) ∧
  (∀ (s : State) (h : Hdr), s.Admits h 0x0301 (opObj 0x0301 0) →
    (((List.range (s.atWork h).n).all fun d => s.hw.rd d A.le_state 0 == 5) = true) → s.hw.hsIn.testBit 2 = false → ∃ t,
    exec (.leResume h) s = .next t ∧ s.SameMem t ∧ t.replyOf h = some .ok ∧ t.hw.ghRelease = false) ∧
  (∀ (s : State) (h : Hdr) (levels : Nat), s.Admits h 0x0301 (opObj 0x0301 0) → levels < 32 →
    ((List.range (s.atWork h).n).any (s.atWork h).printing) = false → ∃ t, exec (.hsForce h levels) s = .next t ∧
    s.SameMem t ∧ t.replyOf h = some .ok ∧ t.hw.hsForce = some levels) ∧
  (∀ (s : State) (h : Hdr), s.Admits h 0x0301 (opObj 0x0301 0) → ∃ t, exec (.hsRelease h) s = .next t ∧ s.SameMem t ∧
    t.replyOf h = some .ok ∧ t.hw.hsForce = none) ∧
  (∀ (s : State) (h : Hdr), s.Admits h 0x0302 (opObj 0x0302 0) → ∃ t, exec (.leStatus h) s = .next t ∧ s.SameMem t ∧
    t.replyOf h = some (.words ([s.hw.rd h.die A.le_state 0, s.hw.rd h.die A.hs_in 0 * 2 ^ 8 + s.hw.hsPins] ++
    words64 (s.hw.rd h.die A.hwm 0) ++ words64 (ofSigned 64 (s.hw.pos h.die).newest.lpos) ++
    [(s.atWork h).speedLimit h.die])))

/-- The head ports (R186, R190 to R193, R195 to R201, R203, R211, R213). The next staged slot and a stale slot are shifted, a
fault of a pair leaves the port in FAULT, a query's end takes it from the queries and a bad reply is counted, the port
commands enable, disable, restart and spit, and a spit line is counted; a band of spits in a context's slots is DEFERRED. -/
def Obligations.HeadRowsComplete : Prop :=
  (∀ (s : State) (die port tm : Nat) (x : Slot), die < s.hw.dies.length → port < 24 → (s.begun.until die tm).portLive die port =
    true → s.hw.rd die A.hp_state port ≠ 3 → s.hw.rd die A.hp_state port ≠ 4 →
    ((s.hw.port die port).slots.any (fun x => x.inRegs) = false) → (s.begun.until die tm).nextShift die port = some x → ∃ t,
    exec (.slotShift die port tm) s = .next t ∧ s.SameMem t ∧ t.hw.rd die A.lines_shifted port =
    (s.hw.rd die A.lines_shifted port + 1) % 2 ^ 32) ∧
  (∀ (s : State) (die port : Nat) (x : Slot), die < s.hw.dies.length → port < 24 → s.begun.portLive die port = true →
    s.hw.rd die A.le_state 0 = 1 → (s.hw.pos die).newest.fwd = true → (s.hw.pos die).newest.still = false →
    ((s.hw.port die port).slots.find? (fun x => x.stale.isSome) = some x) → ∃ t, exec (.staleReshift die port) s = .next t ∧
    s.SameMem t ∧ t.hw.rd die A.reshifts port = (s.hw.rd die A.reshifts port + 1) % 2 ^ 32 ∧ t.hw.rd die A.stale_reshifts 0 =
    (s.hw.rd die A.stale_reshifts 0 + 1) % 2 ^ 32) ∧
  (∀ (s : State) (die port pair : Nat), die < s.hw.dies.length → port < 24 → s.hw.rd die A.hp_enable port ≠ 0 → pair < 5 →
    s.hw.rd die A.hp_state port ≠ 5 → ∃ t, exec (.lvdsFault die port pair) s = .next t ∧ s.SameMem t ∧
    t.hw.rd die A.hp_state port = 5 ∧ t.hw.rd die A.hp_fault port = s.hw.rd die A.hp_fault port ||| 2 ^ pair) ∧
  (∀ (s : State) (die port : Nat) (start : Bool) (data : List Byte) (crc : Nat) (q : Query) (qs : List Query), die <
    s.hw.dies.length → port < 24 → (s.hw.port die port).queries = q :: qs → s.hw.rd die A.head_query port = 0 → start = true →
    data.length = q.len → (crcMsb 8 0x07 (data.flatMap fun b => bitsMsb 8 b.toNat) ≠ crc) → ∃ t,
    exec (.headQuery die port start data crc) s = .next t ∧ t.hw.rd die A.query_errs port = (s.hw.rd die A.query_errs port +
    1) % 2 ^ 32) ∧
  (∀ (s : State) (die port : Nat) (start : Bool) (data : List Byte) (crc : Nat) (q : Query) (qs : List Query), die <
    s.hw.dies.length → port < 24 → (s.hw.port die port).queries = q :: qs → port < (s.hw.die die).ports.length →
    s.hw.rd die A.head_query port = 0 → start = false → ∃ t, exec (.headQuery die port start data crc) s = .next t ∧
    t.hw.rd die A.head_query port = 2 ∧ (t.hw.port die port).queries = qs) ∧
  (∀ (s : State) (h : Hdr) (port arg cmd len : Nat), s.Admits h 0x0402 (opObj 0x0402 port) → port < 24 → ((cmd = 1 ∧ arg = 0) ∨
    (cmd = 2 ∧ arg < 4) ∨ (cmd = 3 ∧ arg = 0) ∨ (0x80 ≤ cmd ∧ cmd < 256 ∧ arg < 256 ∧ 1 ≤ len ∧ len ≤ 32)) →
    s.hw.rd h.die A.hp_state port = 1 → port < (s.hw.die h.die).ports.length → ∃ t, exec (.hpQuery h port arg cmd len) s =
    .next t ∧ s.SameMem t ∧ t.replyOf h = s.replyOf h ∧ t.hw.rd h.die A.hp_state port = 4 ∧ ((t.hw.port h.die port).queries =
    (s.hw.port h.die port).queries ++
    [⟨cmd, arg, if cmd = 1 then 16 else if cmd < 0x80 then 2 else len, some (h.origin, h.tag)⟩])) ∧
  (∀ (s : State) (h : Hdr) (ports : Nat), s.Admits h 0x0401 (opObj 0x0401 (lowBit ports)) → ports < 2 ^ 24 →
    (∀ p ∈ portsOf ports, s.hw.rd h.die A.hp_enable p ≠ 1 ∧ (s.atWork h).rgOrdered h.die p = true) → ∃ t,
    exec (.hpEnable h ports) s = .next t ∧ s.SameMem t ∧ t.replyOf h = some (.words [0xFF]) ∧ (∀ p ∈ portsOf ports,
    t.hw.rd h.die A.hp_enable p = 1)) ∧
  (∀ (s : State) (h : Hdr) (ports : Nat), s.Admits h 0x0401 (opObj 0x0401 (lowBit ports)) → ports < 2 ^ 24 →
    (∀ p ∈ portsOf ports, s.hw.rd h.die A.hp_state p ≠ 2 ∧ s.hw.rd h.die A.hp_state p ≠ 3) → ∃ t,
    exec (.hpDisable h ports) s = .next t ∧ t.replyOf h = some (.words [0xFF]) ∧ (∀ p ∈ portsOf ports,
    t.hw.rd h.die A.hp_enable p = 0)) ∧
  (∀ (s : State) (h : Hdr) (ports bad : Nat), s.Admits h 0x0401 (opObj 0x0401 (lowBit ports)) → ports < 2 ^ 24 →
    (∀ p ∈ portsOf ports, s.hw.rd h.die A.hp_state p = 5 ∧ bad.testBit p = false) → ∃ t, exec (.hpRestart h ports bad) s =
    .next t ∧ t.replyOf h = some (.words [0xFF])) ∧
  (∀ (s : State) (h : Hdr) (port bad : Nat), s.Admits h 0x0401 (opObj 0x0401 (lowBit (2 ^ port))) → port < 24 →
    s.hw.rd h.die A.hp_state port = 5 → bad.testBit port = false → (s.atWork h).portCtx h.die port = none → ∃ t,
    exec (.hpRestart h (2 ^ port) bad) s = .next t ∧ t.hw.rd h.die A.hp_fault port = 0 ∧ t.hw.rd h.die A.hp_state port ≠ 5) ∧
  (∀ (s : State) (h : Hdr) (ports lines : Nat), s.Admits h 0x0403 (opObj 0x0403 (lowBit ports)) → ports < 2 ^ 24 → lines ≤
    1000000 → s.hw.hsIn.testBit 1 = true → (s.hw.rd h.die A.le_state 0 = 0 ∨ s.hw.rd h.die A.le_state 0 = 4) →
    (∀ p ∈ portsOf ports, s.hw.rd h.die A.hp_state p = 1) → ∃ t, exec (.hpSpitParked h ports lines) s = .next t ∧
    s.SameMem t ∧ t.replyOf h = some .ok ∧ (∀ p ∈ portsOf ports, t.hw.rd h.die A.hp_state p = 3) ∧ (t.hw.die h.die).spits =
    (s.hw.die h.die).spits ++ [{ ports := (portsOf ports).map (·, 0), lines := lines }]) ∧
  (∀ (s : State) (h : Hdr) (ports : Nat), s.Admits h 0x0403 (opObj 0x0403 (lowBit ports)) → ports < 2 ^ 24 → ∃ t,
    exec (.hpSpitStop h ports) s = .next t ∧ s.SameMem t ∧ t.replyOf h = some .ok ∧ (∀ j ∈ (t.hw.die h.die).spits,
    ∀ x ∈ j.ports, ports.testBit x.1 = false)) ∧
  (∀ (s : State) (die port tm : Nat) (j : SpitJob), die < s.hw.dies.length → port < 24 →
    ((s.hw.die die).spits.find? (fun j => j.ports.any fun x => x.1 = port) = some j) → s.hw.hsIn.testBit 1 = true →
    ((List.range s.hw.dies.length).any (fun e => s.hw.rd e A.le_state 0 == 5) = false) → (j.lines = 0 ∨
    ((j.ports.find? fun x => x.1 = port).map (·.2)).getD 0 < j.lines) → ∃ t, exec (.spitLine die port tm) s = .next t ∧
    s.SameMem t ∧ t.hw.rd die A.spit_lines port = (s.hw.rd die A.spit_lines port + 1) % 2 ^ 32) ∧
  (∀ (s : State) (h : Hdr) (ctx ports first count : Nat) (c : Ctx), s.Admits h 0x0403 (opObj 0x0403 (lowBit ports)) → s.hw.bl ≠
    1 → ports < 2 ^ 24 → 1 ≤ ctx → ctx < 256 → 1 ≤ count → count < 65536 → first < 2 ^ 32 → (s.atWork h).ctx? h.die ctx =
    some c → (s.atWork h).ctxState h.die ctx ≠ ctxDONE → (s.atWork h).ctxState h.die ctx ≠ ctxFAILED →
    (((portsOf ports).all fun p => c.ports.testBit p) = true) → ∃ t, exec (.hpSpitWeb h ctx ports first count) s = .next t ∧
    s.SameMem t ∧ t.statusOf h = some .deferred)

/-- Tone banks (R213, R215, R216, R219, R225 to R227, R230, R232, R233). A decided swap prints from the new bank, or moves to
the next page while the bank is not built; a toned line shows in `toned_max`; TB_SWAP and TB_BUILD are DEFERRED,
TB_BUILD_ABORT frees the bank, and a completed build is READY with its CRC or FREE; PL_STATUS reads one port's state. -/
def Obligations.PipelineRowsComplete : Prop :=
  (∀ (s : State) (die bank : Nat), die < s.hw.dies.length → bank < 2 → s.hw.rd die A.swap_pending bank = 1 →
    s.begun.tonedFrom die (s.hw.rd die A.swap_context bank) (s.hw.rd die A.swap_line bank) = true →
    s.hw.rd die A.bank_state bank = 2 → ∃ t, exec (.tbSwapDecision die bank) s = .next t ∧ s.SameMem t ∧
    t.hw.rd die A.bank_state bank = 3 ∧ t.hw.rd die A.swap_pending bank = 0) ∧
  (∀ (s : State) (die bank : Nat), die < s.hw.dies.length → bank < 2 → s.hw.rd die A.swap_pending bank = 1 →
    s.begun.tonedFrom die (s.hw.rd die A.swap_context bank) (s.hw.rd die A.swap_line bank) = true →
    s.hw.rd die A.bank_state bank ≠ 2 → ∃ t, exec (.tbSwapDecision die bank) s = .next t ∧ s.SameMem t ∧
    t.hw.rd die A.swaps_late 0 = (s.hw.rd die A.swaps_late 0 + 1) % 2 ^ 32 ∧ t.hw.rd die A.swap_pending bank = 1) ∧
  (∀ (s : State) (die port line : Nat) (l : DecLine), die < s.hw.dies.length → port < 24 → s.begun.lineToTone die port line =
    some l → ∃ t, exec (.toneLine die port line) s = .next t ∧ s.SameMem t ∧ line ≤ t.hw.rd die A.toned_max (port + 1)) ∧
  (∀ (s : State) (h : Hdr) (ctx bank line : Nat), s.Admits h 0x0502 (opObj 0x0502 bank) → bank < 2 → 1 ≤ ctx → ctx < 256 →
    line < 2 ^ 32 → (s.hw.rd h.die A.bank_state bank = 1 ∨ s.hw.rd h.die A.bank_state bank = 2) →
    s.hw.rd h.die A.bank_state (1 - bank) = 3 → ((s.atWork h).ctxState h.die ctx = ctxOPEN ∨ (s.atWork h).ctxState h.die ctx =
    ctxPRINTING) → s.hw.rd h.die A.swap_pending bank = 0 → ∃ t, exec (.tbSwap h ctx bank line) s = .next t ∧ s.SameMem t ∧
    t.statusOf h = some .deferred ∧ t.hw.rd h.die A.swap_context bank = ctx) ∧
  (∀ (s : State) (h : Hdr) (bank : Nat), s.Admits h 0x0501 (opObj 0x0501 bank) → bank < 2 → (s.hw.rd h.die A.bank_state bank =
    0 ∨ s.hw.rd h.die A.bank_state bank = 2) → s.hw.rd h.die A.swap_pending bank = 0 → ∃ t, exec (.tbBuild h bank) s =
    .next t ∧ s.SameMem t ∧ t.statusOf h = some .deferred ∧ t.hw.rd h.die A.bank_state bank = 1) ∧
  (∀ (s : State) (h : Hdr) (bank : Nat), s.Admits h 0x0501 (opObj 0x0501 bank) → bank < 2 → s.hw.rd h.die A.bank_state bank =
    1 → ∃ t, exec (.tbBuildAbort h bank) s = .next t ∧ s.SameMem t ∧ t.replyOf h = some .ok ∧
    t.hw.rd h.die A.bank_state bank = 0 ∧ t.hw.rd h.die A.swap_pending bank = 0) ∧
  (∀ (s : State) (die bank tm : Nat) (i : BankInput), die < s.hw.dies.length → bank < 2 → (s.begun.bank die bank).input =
    some i → s.hw.rd die A.bank_state bank = 1 → ∃ t, exec (.tbBuilt die bank tm) s = .next t ∧ s.SameMem t ∧
    (t.hw.rd die A.bank_state bank = 0 ∨ (t.hw.rd die A.bank_state bank = 2 ∧ t.hw.rd die A.bank_crc bank =
    crc32c (bankBytes i) ∧ t.hw.rd die A.build_seq bank = (s.hw.rd die A.build_seq bank + 1) % 2 ^ 32))) ∧
  (∀ (s : State) (h : Hdr) (port : Nat), s.Admits h 0x0503 (opObj 0x0503 port) → port < 24 → ∃ t, exec (.plStatus h port) s =
    .next t ∧ s.SameMem t ∧ t.replyOf h =
    some (.words [s.hw.rd h.die A.slot_next (port + 1), s.hw.rd h.die A.toned_max (port + 1), s.hw.rd h.die A.slot_context (port + 1) * 2 ^ 24 + s.hw.rd h.die A.slots_prepared (port + 1) * 2 ^ 16 + s.hw.rd h.die A.slots_staged (port + 1) * 2 ^ 8 + s.hw.rd h.die A.bank_state 1 * 8 + s.hw.rd h.die A.bank_state 0, 0]))

/-- The codec (R244, R247, R249 to R256, R262, R263). An eligible descriptor is pushed, an idle engine takes the most urgent
head and is idle again at the block's end; a verification is taken and answered at its end; compression jobs are taken in
order, started, advanced block by block and aborted. -/
def Obligations.CodecRowsComplete : Prop :=
  (∀ (s : State) (die ctx port : Nat) (c : Ctx) (b : Blk), die < s.hw.dies.length → port < 24 → s.begun.ctx? die ctx = some c →
    (c.blocks.find? (fun b => b.port = port ∧ !b.pushed) = some b) → s.begun.ctxPrints die ctx = true →
    s.begun.ctxState die ctx ≠ ctxFAILED → b.first + b.count - 1 + s.begun.dMin die port ≤ c.slotAt port + 134 →
    s.hw.rd die A.dec_in_flight 0 < min (s.hw.rd die A.dec_limit 0) 96 → (s.begun.qPushPacket die (16 +
    port % 8) 0x04 (descWords ctx port false b.addr b.first b.len)).1 = .committed → ∃ t,
    exec (.descriptorPush die ctx port) s = .next t ∧ t.hw.rd die A.dec_in_flight 0 = (s.hw.rd die A.dec_in_flight 0 +
    1) % 2 ^ 7) ∧
  (∀ (s : State) (die engine q : Nat), die < s.hw.dies.length → engine < 4 → s.begun.engine die engine = none →
    s.begun.decHead s.mems die = some q → ∃ t, exec (.decodeStart die engine) s = .next t ∧ t.hw.rd die A.eng_busy (engine +
    1) = 1 ∧ t.hw.rd die A.eng_blocks (engine + 1) = (s.hw.rd die A.eng_blocks (engine + 1) + 1) % 2 ^ 32) ∧
  (∀ (s : State) (die engine : Nat) (mem : Bool) (j : DecJob), die < s.hw.dies.length → engine < 4 → s.begun.engine die engine =
    some j → ∃ t, exec (.decodeComplete die engine mem) s = .next t ∧ t.hw.rd die A.eng_busy (engine + 1) = 0) ∧
  (∀ (s : State) (h : Hdr) (port greyscale margin nozzles addr stored out : Nat) (v : List Nat),
    s.Admits h 0x0601 (opObj 0x0601 0) → port < 24 → greyscale ≤ 1 → margin ≤ 64 → 256 ≤ nozzles → nozzles ≤ 4096 →
    nozzles % 256 = 0 → 17 ≤ stored → stored ≤ 65552 → addr < 2 ^ 40 → (out = 0 ∨ inDram out 1 = true) →
    s.hw.rd h.die A.dec_in_flight 0 < min (s.hw.rd h.die A.dec_limit 0) 96 → v =
    descWords 0 port true addr ((s.atWork h).num s.mems h.die (addr + 4) 4) stored → ((s.atWork h).qPushPacket h.die (16 +
    port % 8) 0x02 v).1 = .committed → ∃ t, exec (.codecVerify h port greyscale margin nozzles addr stored out) s = .next t ∧
    t.replyOf h = s.replyOf h ∧ t.hw.rd h.die A.dec_in_flight 0 = (s.hw.rd h.die A.dec_in_flight 0 + 1) % 2 ^ 7) ∧
  (∀ (s : State) (h : Hdr) (queue back tag addr row stride rows line limit per : Nat), s.Admits h 0x0602 (opObj 0x0602 0) → 40 ≤
    queue → queue ≤ 47 → back ≠ 1 → back ≤ 255 → tag ≤ 65535 → 1 ≤ row → row ≤ 65536 → row ≤ stride → stride < 2 ^ 32 → 1 ≤
    rows → rows < 2 ^ 32 → line < 2 ^ 32 → 32 ≤ limit → limit ≤ 16384 → 1 ≤ per → per ≤ 65535 → per * row ≤ 65536 →
    inDram addr ((rows - 1) * stride + row) = true → (s.hw.die h.die).codec.jobs.length < 8 → (s.hw.q h.die queue).enabled =
    true → (((s.hw.die h.die).codec.jobs.any fun j => j.src = srcOf h.origin ∧ j.tag = tag) = false) → ∃ t,
    exec (.codecCompressSubmit h queue back tag addr row stride rows line limit per) s = .next t ∧ s.SameMem t ∧
    t.statusOf h = some .deferred ∧ (t.hw.die h.die).codec.jobs.length = (s.hw.die h.die).codec.jobs.length + 1) ∧
  (∀ (s : State) (die : Nat), die < s.hw.dies.length → (s.hw.die die).codec.running = false → (s.hw.die die).codec.jobs ≠ [] →
    ∃ t, exec (.compressJobStart die) s = .next t ∧ s.SameMem t ∧ (t.hw.die die).codec.running = true ∧
    (t.hw.die die).codec.jobs = (s.hw.die die).codec.jobs) ∧
  (∀ (s : State) (die : Nat) (tokens : List Byte) (j : CompJob) (js : List CompJob), die < s.hw.dies.length →
    (s.hw.die die).codec.running = true → (s.hw.die die).codec.jobs = j :: js → ∃ t,
    exec (.compressBlockEnd die tokens true) s = .next t ∧ t.hw.rd die A.out_failed 0 = (s.hw.rd die A.out_failed 0 +
    1) % 2 ^ 32) ∧
  (∀ (s : State) (die : Nat) (tokens : List Byte) (j : CompJob) (js : List CompJob) (n : Nat), die < s.hw.dies.length →
    (s.hw.die die).codec.running = true → (s.hw.die die).codec.jobs = j :: js → n = min j.per (j.rows - j.block * j.per) →
    (decodeTokens j.row n tokens.length (tokens.length + 1) tokens 0 0 0 [] 0).kind = kOK →
    backsOk j.back tokens.length tokens = true → ((decodeTokens j.row n tokens.length (tokens.length +
    1) tokens 0 0 0 [] 0).rev.reverse = (List.range n).flatMap fun i => s.begun.bytes s.mems die (j.addr + (j.block * j.per +
    i) * j.stride) j.row) → ∃ t, exec (.compressBlockEnd die tokens false) s = .next t ∧ t.hw.rd die A.out_bytes_in 0 =
    (s.hw.rd die A.out_bytes_in 0 + n * j.row) % 2 ^ 64) ∧
  (∀ (s : State) (h : Hdr) (queue tag : Nat) (j : CompJob), s.Admits h 0x0602 (opObj 0x0602 0) → 40 ≤ queue → queue ≤ 47 → tag ≤
    65535 → ((s.hw.die h.die).codec.jobs.find? (fun j => j.src = srcOf h.origin ∧ j.tag = tag) = some j) → ∃ t,
    exec (.codecCompressAbort h queue tag) s = .next t ∧ t.replyOf h = some .ok ∧ t.hw.rd h.die A.out_failed 0 =
    (s.hw.rd h.die A.out_failed 0 + 1) % 2 ^ 32)

/-- Contexts (R266, R267, R269 to R272). CTX_OPEN opens a context from its entry, CTX_START_ABS prints it from `x0`, a context
that waits for the end of another begins once that line is known, CTX_CLOSE and CTX_ABORT take it out, CTX_INVALIDATE empties
the cache of entries, and the write-back stores 64 bytes into the context's entry and nothing else. -/
def Obligations.IngestRowsComplete : Prop :=
  (∀ (s : State) (h : Hdr) (ctx : Nat) (w : List Nat), s.Admits h 0x0702 (opObj 0x0702 ctx) → 1 ≤ ctx → ctx < 256 →
    (s.atWork h).ctxState h.die ctx = ctxCLOSED → w = (s.atWork h).ctxEntry s.mems h.die ctx →
    (((s.atWork h).onDie h.die fun D => { D with ctxCache := (ctx, w) :: D.ctxCache.filter fun x => x.1 ≠ ctx }).ctxEntryOk h.die (entryCtx ctx w) =
    true) → ∃ t, exec (.ctxOpen h ctx false) s = .next t ∧ t.replyOf h = some .ok ∧ t.hw.rd h.die A.ctx_state ctx = ctxOPEN) ∧
  (∀ (s : State) (h : Hdr) (ctx : Nat) (x0 : Int) (c : Ctx), s.Admits h 0x0702 (opObj 0x0702 ctx) → 1 ≤ ctx → ctx < 256 →
    (s.atWork h).ctx? h.die ctx = some c → (s.atWork h).ctxState h.die ctx = ctxOPEN → c.after = none →
    (s.atWork h).portsTaken h.die ctx ctx = false → (s.atWork h).anyEstop = false → (∀ p ∈ portsOf c.ports,
    ((s.atWork h).wrS h.die A.x0 ctx 64 x0).lposNow h.die * 2 ^ 32 + (s.hw.rd h.die A.fix_slots 0 *
    s.hw.rd h.die A.line_pitch 0 : Nat) ≤
    ((s.atWork h).wrS h.die A.x0 ctx 64 x0).target h.die c 0 p 0 (((s.atWork h).wrS h.die A.x0 ctx 64 x0).sNow h.die)) → ∃ t,
    exec (.ctxStartAbs h ctx x0) s = .next t ∧ t.replyOf h = some .ok ∧ t.hw.rd h.die A.printing ctx = 1 ∧
    t.hw.rd h.die A.x0 ctx = ofSigned 64 x0) ∧
  (∀ (s : State) (die l id : Nat) (c o : Ctx), die < s.hw.dies.length → (s.hw.die die).ctxs = [o, c] → o.after = none → o.num ≠
    c.num → c.after = some (o.num, id) → o.last = some l → ∃ t, exec (.switchFix die) s = .next t ∧
    t.hw.rd die A.printing c.num = 1) ∧
  (∀ (s : State) (h : Hdr) (ctx after : Nat) (c o : Ctx), s.Admits h 0x0702 (opObj 0x0702 ctx) → 1 ≤ ctx → ctx < 256 → 1 ≤
    after → after < 256 → ctx ≠ after → (s.atWork h).ctx? h.die ctx = some c → (s.atWork h).ctx? h.die after = some o →
    (s.atWork h).ctxState h.die ctx = ctxOPEN → c.after = none → (s.atWork h).ctxPrints h.die after = true →
    (s.atWork h).ctxState h.die after = ctxPRINTING → (s.atWork h).portsTaken h.die ctx after = false →
    (s.atWork h).anyEstop = false → o.last.isSome → ∃ t, exec (.ctxStartAfter h ctx after) s = .next t ∧ t.statusOf h =
    some .deferred ∧ t.hw.rd h.die A.printing ctx = 1) ∧
  (∀ (s : State) (h : Hdr) (ctx after : Nat) (c o : Ctx), s.Admits h 0x0702 (opObj 0x0702 ctx) → 1 ≤ ctx → ctx < 256 → 1 ≤
    after → after < 256 → ctx ≠ after → (s.atWork h).ctx? h.die ctx = some c → (s.atWork h).ctx? h.die after = some o →
    (s.atWork h).ctxState h.die ctx = ctxOPEN → c.after = none → (s.atWork h).ctxPrints h.die after = true →
    (s.atWork h).ctxState h.die after = ctxPRINTING → (s.atWork h).portsTaken h.die ctx after = false →
    (s.atWork h).anyEstop = false → o.last = none → ∃ t, exec (.ctxStartAfter h ctx after) s = .next t ∧ t.statusOf h =
    some .deferred) ∧
  (∀ (s : State) (h : Hdr) (ctx : Nat), s.Admits h 0x0702 (opObj 0x0702 ctx) → 1 ≤ ctx → ctx < 256 →
    ((s.atWork h).ctxState h.die ctx = ctxOPEN ∨ (s.atWork h).ctxState h.die ctx = ctxDONE ∨ (s.atWork h).ctxState h.die ctx =
    ctxFAILED) → (s.atWork h).ctxPrints h.die ctx = false → ∃ t, exec (.ctxClose h ctx) s = .next t ∧ t.replyOf h = some .ok ∧
    (∀ x ∈ (t.hw.die h.die).ctxs, x.num ≠ ctx)) ∧
  (∀ (s : State) (h : Hdr) (ctx : Nat) (c : Ctx), s.Admits h 0x0702 (opObj 0x0702 ctx) → 1 ≤ ctx → ctx < 256 →
    (s.atWork h).ctx? h.die ctx = some c → ∃ t, exec (.ctxAbort h ctx) s = .next t ∧ t.replyOf h = some .ok ∧
    ctx ∈ (t.hw.die h.die).codec.aborted) ∧
  (∀ (s : State) (h : Hdr) (first count : Nat), s.Admits h 0x0701 (opObj 0x0701 first) → first < 256 → 1 ≤ count → first +
    count ≤ 256 → (∀ c ∈ (s.hw.die h.die).ctxs, c.num < first ∨ first + count ≤ c.num) → ∃ t,
    exec (.ctxInvalidate h first count) s = .next t ∧ s.SameMem t ∧ t.replyOf h = some .ok ∧ (∀ x ∈ (t.hw.die h.die).ctxCache,
    x.1 < first ∨ first + count ≤ x.1)) ∧
  (∀ (s : State) (die ctx : Nat) (c : Ctx), die < s.hw.dies.length → ctx ≠ 0 → s.begun.ctx? die ctx = some c → ∃ t,
    exec (.contextWriteback die ctx) s = .next t ∧ (∃ bs : List Byte, bs.length = 64 ∧ ∀ e x, memRead (t.mems.getD e []) x =
    memRead ((applyStores s.mems [(die, 0x1000 + 128 * ctx + 64, bs)]).getD e []) x))

/-- Streams (R273, R274, R278 to R282, R284). An in-order datagram moves the expected sequence number on, a repeated one is
counted, a reset sets the number, the acknowledge timer answers with the credit, a tail write takes the tail modulo the ring,
a good block fetched waits for room, and the ingest engine leaves the stream's credit as the room allows. -/
def Obligations.StreamRowsComplete : Prop :=
  (∀ (s : State) (die eth ip udp stream sq ctx flags off : Nat) (data : List Byte), die < s.hw.dies.length → stream < 16 →
    (s.hw.rd die A.grt_port_en 0).testBit eth = true → s.hw.rd die A.st_type (stream + 1) = 1 → ctx =
    s.hw.rd die A.st_context (stream + 1) → ctx ≠ 0 → data ≠ [] → data.length ≤ 8192 →
    seqDiff sq (s.hw.rd die A.st_next_seq (stream + 1)) = 0 → seqDiff sq (s.begun.credit die stream) < 0 →
    (s.hw.q die stream).enabled = true → (grtWords sq flags off data).length ≤
    (s.hw.q die stream).size - (s.hw.q die stream).occupied → ∃ t,
    exec (.grtData die eth ip udp stream sq ctx flags off data) s = .next t ∧ t.hw.rd die A.st_next_seq (stream + 1) =
    (s.hw.rd die A.st_next_seq (stream + 1) + 1) % 2 ^ 32) ∧
  (∀ (s : State) (die eth ip udp stream sq ctx flags off : Nat) (data : List Byte), die < s.hw.dies.length → stream < 16 →
    (s.hw.rd die A.grt_port_en 0).testBit eth = true → s.hw.rd die A.st_type (stream + 1) = 1 → ctx =
    s.hw.rd die A.st_context (stream + 1) → ctx ≠ 0 → data ≠ [] → data.length ≤ 8192 →
    seqDiff sq (s.hw.rd die A.st_next_seq (stream + 1)) < 0 → ∃ t,
    exec (.grtData die eth ip udp stream sq ctx flags off data) s = .next t ∧ t.hw.rd die A.grt_dup (stream + 1) =
    (s.hw.rd die A.grt_dup (stream + 1) + 1) % 2 ^ 32 ∧ t.hw.rd die A.st_next_seq (stream + 1) =
    s.hw.rd die A.st_next_seq (stream + 1)) ∧
  (∀ (s : State) (die eth ip udp stream sq ctx : Nat), die < s.hw.dies.length → stream < 16 →
    (s.hw.rd die A.grt_port_en 0).testBit eth = true → s.hw.rd die A.st_type (stream + 1) = 1 → ctx =
    s.hw.rd die A.st_context (stream + 1) → ∃ t, exec (.grtReset die eth ip udp stream sq ctx) s = .next t ∧ s.SameMem t ∧
    t.hw.rd die A.st_next_seq (stream + 1) = sq % 2 ^ 32) ∧
  (∀ (s : State) (die stream : Nat), die < s.hw.dies.length → stream < 16 → (s.hw.stream die stream).unacked ≠ 0 → stream <
    (s.hw.die die).streams.length → ∃ t, exec (.grtAckTimer die stream) s = .next t ∧ s.SameMem t ∧
    t.hw.rd die A.st_credit (stream + 1) = s.begun.credit die stream ∧ (t.hw.stream die stream).unacked = 0 ∧ t.hw.out =
    [.grt die stream (s.hw.stream die stream).peer 2 (s.hw.rd die A.st_next_seq (stream + 1)) (s.begun.ctxState die (s.hw.rd die A.st_context (stream + 1))) (s.begun.credit die stream)]) ∧
  (∀ (s : State) (die ep stream value : Nat), die < s.hw.dies.length → stream < 16 → stream < (s.hw.die die).streams.length →
    ∃ t, exec (.dmaTailWrite die ep stream value) s = .next t ∧ s.SameMem t ∧ (t.hw.stream die stream).dmaTail =
    value % 2 ^ s.hw.rd die A.dma_ring_log2 (stream + 1) ∧ (t.hw.stream die stream).dmaEp = ep) ∧
  (∀ (s : State) (die stream stored : Nat) (data : List Byte), die < s.hw.dies.length → stream < 16 → stream <
    (s.hw.die die).streams.length → s.hw.rd die A.st_type (stream + 1) = 2 → (s.hw.stream die stream).dmaHead ≠
    (s.hw.stream die stream).dmaTail → (s.hw.stream die stream).waiting = none → 17 ≤ stored → stored ≤ 65552 → data.length =
    stored → ∃ t, exec (.dmaBlockFetch die stream stored true data) s = .next t ∧ (t.hw.stream die stream).waiting =
    some data) ∧
  (∀ (s : State) (die stream : Nat) (bs : List Byte), die < s.hw.dies.length → stream < 16 → (s.hw.stream die stream).waiting =
    some bs → ∃ t, exec (.blockStore die stream false) s = .next t ∧ t.hw.rd die A.st_credit (stream + 1) =
    t.hw.credit die stream)

/-- The stop (R287 to R293, R300). A backup that ends without reaching its target is given up, a release takes the die out of
the stop, the test of R289 fixes the stop end of a context whose data ends, CTX_STOP starts the stop of a printing die, and
RUNWAY_STATUS reads runway and stop state together. -/
def Obligations.RunwayRowsComplete : Prop :=
  (∀ (s : State) (die : Nat), die < s.hw.dies.length → (s.hw.die die).stop.backupAt.isSome → s.hw.rdS die A.backup_target 0 64 <
    (s.hw.pos die).newest.lpos → ∃ t, exec (.backupTimeout die) s = .next t ∧ s.SameMem t ∧ (t.hw.die die).stop.backupAt =
    none ∧ (t.hw.die die).stop.backupDone = true ∧ t.hw.rd die A.stop_phase 0 = 4) ∧
  (∀ (s : State) (die : Nat), die < s.hw.dies.length → s.begun.mayRelease die = true → ∃ t, exec (.stopRelease die) s =
    .next t ∧ s.SameMem t ∧ (t.hw.die die).stop.active = false ∧ t.hw.rd die A.stop_phase 0 = 0) ∧
  (∀ (s : State) (die : Nat) (c : Ctx) (z : Int), die < s.hw.dies.length → s.begun.printingCtxs die = [c] →
    s.begun.stopTest die c = true → s.begun.dataEnd die c = some z → ∃ t, exec (.stopFixed die) s = .next t ∧ s.SameMem t ∧
    t.hw.rd die A.stop_end c.num = ofSigned 64 z) ∧
  (∀ (s : State) (h : Hdr) (ctx : Nat), s.Admits h 0x0702 (opObj 0x0702 ctx) → 1 ≤ ctx → ctx < 256 →
    (s.atWork h).printing h.die = true → (s.hw.die h.die).stop.active = false → ∃ t, exec (.ctxStop h ctx) s = .next t ∧
    s.SameMem t ∧ t.replyOf h = some .ok ∧ (t.hw.die h.die).stop.active = true ∧ t.hw.rd h.die A.stop_cause 0 = 4) ∧
  (∀ (s : State) (h : Hdr), s.Admits h 0x0703 (opObj 0x0703 0) → ∃ t, exec (.runwayStatus h) s = .next t ∧ s.SameMem t ∧
    t.replyOf h = some (.words (words64 (s.hw.rd h.die A.runway_nm 0) ++ words64 (s.hw.rd h.die A.stop_dist_nm 0) ++
    words64 (s.hw.rd h.die A.backup_target 0) ++
    [s.hw.rd h.die A.stop_phase 0 * 2 ^ 24 + s.hw.rd h.die A.stop_cause 0 * 2 ^ 16 + s.hw.rd h.die A.hs_out 0 % 8 * 2 ^ 8])))

/-- Camera frames (R302, R305, R310, R312 to R314, R322, R329). A frame opens at its start and ends at its end or its timeout,
a line of the open frame is counted and, with a slot, stored at its place in it, a parameter list ends, a frame of the memory
path is taken in its turn and done. -/
def Obligations.CameraRowsComplete : Prop :=
  (∀ (s : State) (die cam num tm : Nat), die < s.hw.dies.length → cam < 2 → cam < (s.hw.die die).cams.length →
    s.hw.rd die A.cam_state cam = camRUN → (s.hw.cam die cam).first = false → (s.hw.cam die cam).open_ = none → ∃ t,
    exec (.csiFrameStart die cam num tm) s = .next t ∧ (t.hw.cam die cam).open_.isSome) ∧
  (∀ (s : State) (die cam tm : Nat) (f : Frame), die < s.hw.dies.length → cam < 2 → cam < (s.hw.die die).cams.length →
    s.hw.rd die A.cam_state cam = camRUN → (s.hw.cam die cam).first = false → (s.hw.cam die cam).open_ = some f → ∃ t,
    exec (.csiFrameEnd die cam tm) s = .next t ∧ (t.hw.cam die cam).open_ = none ∧ t.hw.rd die A.frames cam =
    (s.hw.rd die A.frames cam + 1) % 2 ^ 32) ∧
  (∀ (s : State) (die cam : Nat) (f : Frame), die < s.hw.dies.length → cam < 2 → cam < (s.hw.die die).cams.length →
    (s.hw.cam die cam).open_ = some f → ∃ t, exec (.frameTimeout die cam) s = .next t ∧ (t.hw.cam die cam).open_ = none ∧
    (t.hw.cam die cam).timedOut = true ∧ t.hw.rd die A.no_fe cam = (s.hw.rd die A.no_fe cam + 1) % 2 ^ 32) ∧
  (∀ (s : State) (die cam vc dt : Nat) (crcOk lost : Bool) (px : List Nat) (f : Frame), die < s.hw.dies.length → cam < 2 → cam <
    (s.hw.die die).cams.length → s.hw.rd die A.cam_state cam = camRUN → (s.hw.cam die cam).first = false → vc =
    s.hw.rd die A.vc cam → dt = s.hw.rd die A.data_type cam → (s.hw.cam die cam).open_ = some f → f.lines < f.h → ∃ t,
    exec (.csiLine die cam vc dt 0 crcOk lost px) s = .next t ∧ (∃ g, (t.hw.cam die cam).open_ = some g ∧ g.lines = f.lines +
    1 ∧ g.num = f.num)) ∧
  (∀ (s : State) (die cam vc dt i : Nat) (crcOk : Bool) (px : List Nat) (f : Frame), die < s.hw.dies.length → cam < 2 → cam <
    (s.hw.die die).cams.length → s.hw.rd die A.cam_state cam = camRUN → (s.hw.cam die cam).first = false → vc =
    s.hw.rd die A.vc cam → dt = s.hw.rd die A.data_type cam → (s.hw.cam die cam).open_ = some f → f.lines < f.h → f.slot =
    some i → ∃ t, exec (.csiLine die cam vc dt 0 crcOk false px) s = .next t ∧ (∀ e x, memRead (t.mems.getD e []) x =
    memRead ((applyStores s.mems [(f.isp, s.hw.slotAddr die cam i + 2 * f.w * f.lines, (f.line dt px).flatMap (leBytes 2))]).getD e []) x)) ∧
  (∀ (s : State) (die cam vc dt ecc : Nat) (crcOk lost : Bool) (px : List Nat), die < s.hw.dies.length → cam < 2 →
    s.hw.rd die A.cam_state cam = camRUN → (s.hw.cam die cam).first = false → 2 ≤ ecc → ∃ t,
    exec (.csiLine die cam vc dt ecc crcOk lost px) s = .next t ∧ t.hw.rd die A.ecc_fatal cam = (s.hw.rd die A.ecc_fatal cam +
    1) % 2 ^ 32) ∧
  (∀ (s : State) (die cam result index set : Nat), die < s.hw.dies.length → cam < 2 → cam < (s.hw.die die).cams.length →
    (s.hw.cam die cam).writing = some set → ∃ t, exec (.psetListComplete die cam result index) s = .next t ∧ s.SameMem t ∧
    (t.hw.cam die cam).writing = none ∧ (t.hw.cam die cam).first = false) ∧
  (∀ (s : State) (die p e : Nat) (f : Frame), die < s.hw.dies.length → s.begun.mpWaiting die = [(p, e, f)] →
    (((s.hw.die die).ispRun.any fun g => decide (s.hw.rd die A.mp_priority g.stream ≤ p)) = false) → ∃ t,
    exec (.mpFrameProcess die) s = .next t ∧ s.SameMem t ∧ (t.hw.die die).ispRun = (s.hw.die die).ispRun ++ [f]) ∧
  (∀ (s : State) (die stream : Nat) (f : Frame), die < s.hw.dies.length → stream < 9 → stream ≠ 0 →
    ((s.hw.die die).ispRun.find? (fun f => f.stream = stream) = some f) → ∃ t, exec (.ispFrameDone die stream) s = .next t ∧
    (∀ g ∈ (t.hw.die die).ispRun, g.stream ≠ stream))

/-- Camera commands (R303, R308, R318, R325 to R328, R333, R572). The port commands move a camera between OFF, READY and RUN,
take one frame, release slots, schedule a parameter set and carry out one transaction. -/
def Obligations.CameraCommandsComplete : Prop :=
  (∀ (s : State) (h : Hdr) (port : Nat), s.Admits h 0x0801 (opObj 0x0801 port) → port < 2 → s.hw.rd h.die A.cam_state port =
    camOFF → ∃ t, exec (.camWake h port) s = .next t ∧ s.SameMem t ∧ t.replyOf h = some .ok ∧ t.hw.rd h.die A.cam_state port =
    camREADY ∧ t.hw.rd h.die A.stream port = 15) ∧
  (∀ (s : State) (h : Hdr) (port stm isp : Nat), s.Admits h 0x0801 (opObj 0x0801 port) → port < 2 →
    s.hw.rd h.die A.cam_state port = camREADY → isp = s.hw.rd h.die A.isp_die port → isp < s.hw.dies.length →
    (if s.hw.rd h.die A.tap port = 3 then 8 else 2) * (s.hw.rd h.die A.width port * s.hw.rd h.die A.height port) ≤
    s.hw.rd h.die A.fs_slot_bytes port → (s.atWork h).streamFor h.die port isp = some stm → (stm = 0 ∨
    s.hw.rd h.die A.fs_slots port ≠ 0) → (s.atWork h).camQueueOk isp (s.hw.rd isp A.stats_queue stm) = true →
    (s.atWork h).camQueueOk isp (s.hw.rd h.die A.desc_queue port) = true → ∃ t, exec (.camEnable h port) s = .next t ∧
    s.SameMem t ∧ t.replyOf h = some .ok ∧ t.hw.rd h.die A.cam_state port = camRUN ∧ t.hw.rd h.die A.stream port = stm ∧
    t.hw.rd h.die A.pset_active port = 0) ∧
  (∀ (s : State) (h : Hdr) (port : Nat), s.Admits h 0x0801 (opObj 0x0801 port) → port < 2 → s.hw.rd h.die A.cam_state port =
    camRUN → ∃ t, exec (.camDisable h port) s = .next t ∧ t.replyOf h = some .ok ∧ t.hw.rd h.die A.cam_state port = camREADY) ∧
  (∀ (s : State) (h : Hdr) (port : Nat), s.Admits h 0x0801 (opObj 0x0801 port) → port < 2 → s.hw.rd h.die A.cam_state port =
    camREADY → ∃ t, exec (.camSleep h port) s = .next t ∧ s.SameMem t ∧ t.replyOf h = some .ok ∧
    t.hw.rd h.die A.cam_state port = camOFF) ∧
  (∀ (s : State) (h : Hdr) (port : Nat), s.Admits h 0x0801 (opObj 0x0801 port) → port < 2 → s.hw.rd h.die A.cam_state port =
    camRUN → port < (s.hw.die h.die).cams.length → ∃ t, exec (.camSnap h port) s = .next t ∧ s.SameMem t ∧ t.replyOf h =
    some .ok ∧ (t.hw.cam h.die port).snap = true) ∧
  (∀ (s : State) (h : Hdr) (port i : Nat), s.Admits h 0x0801 (opObj 0x0801 port) → port < 2 → i < 64 →
    s.hw.slotOf h.die port i = slHELD → ∃ t, exec (.camRelease h port (2 ^ i)) s = .next t ∧ s.SameMem t ∧ t.replyOf h =
    some .ok ∧ t.hw.rd h.die A.slot_state port = s.hw.rd h.die A.slot_state port - slHELD * 4 ^ i + slFREE * 4 ^ i) ∧
  (∀ (s : State) (h : Hdr) (port slots : Nat), s.Admits h 0x0801 (opObj 0x0801 port) → port < 2 → (∀ i < 64, slots.testBit i =
    true → s.hw.slotOf h.die port i = slHELD) → ∃ t, exec (.camRelease h port slots) s = .next t ∧ s.SameMem t ∧ t.replyOf h =
    some .ok) ∧
  (∀ (s : State) (h : Hdr) (port set frame : Nat), s.Admits h 0x0802 (opObj 0x0802 port) → port < 2 → set < 16 →
    s.hw.rd h.die A.cam_state port = camRUN → (s.hw.cam h.die port).applies = [] → ∃ t, exec (.camApply h port set frame) s =
    .next t ∧ s.SameMem t ∧ t.statusOf h = some .deferred ∧ (port < (s.hw.die h.die).cams.length → ∃ a,
    (t.hw.cam h.die port).applies = [a] ∧ a.set = set)) ∧
  (∀ (s : State) (h : Hdr) (read : Bool) (port addr reg len : Nat) (data : List Byte), s.Admits h 0x0803 (opObj 0x0803 port) →
    port < 2 → 1 ≤ len → len ≤ 32 → addr < 128 → (read = true ∨ len ≤ data.length) → s.hw.rd h.die A.cam_state port =
    camREADY → (s.hw.cam h.die port).i2c = none → port < (s.hw.die h.die).cams.length → ∃ t,
    exec (.camI2c h read port addr reg len data) s = .next t ∧ s.SameMem t ∧ t.replyOf h = s.replyOf h ∧
    (t.hw.cam h.die port).i2c = some ((h.origin, h.tag), read, len)) ∧
  (∀ (s : State) (die cam result len tag : Nat) (o : Origin) (data : List Byte), die < s.hw.dies.length → cam < 2 → cam <
    (s.hw.die die).cams.length → (s.hw.cam die cam).i2c = some ((o, tag), true, len) → ∃ t,
    exec (.camI2cEnd die cam result data) s = .next t ∧ s.SameMem t ∧ (t.hw.cam die cam).i2c = none ∧ (t.hw.reply? o tag =
    some ⟨.ok, leBytes 4 (min result 3) ++ (List.range len).map (fun i => data.getD i 0)⟩))

/-- Lamp chains (R341 to R344, R347). A refresh counts a frame, a return that comes late is an error, a good return keeps the
chain in RUN, an enumeration's return gives the chain its state, the write-back stores words 2 and 3 of an entry and nothing
else. -/
def Obligations.LampRowsComplete : Prop :=
  (∀ (s : State) (die chain : Nat) (bad : List Nat), die < s.hw.dies.length → chain < 4 → (s.hw.rd die A.chain_state chain =
    chRUN ∨ s.hw.rd die A.chain_state chain = chLOST) → ∃ t, exec (.chainRefresh die chain bad) s = .next t ∧ s.SameMem t ∧
    t.hw.rd die A.refreshes chain = (s.hw.rd die A.refreshes chain + 1) % 2 ^ 32) ∧
  (∀ (s : State) (die chain : Nat) (got : List Bool) (f : ChainFrame), die < s.hw.dies.length → chain < 4 →
    (s.hw.chain die chain).enum = none → (s.hw.chain die chain).cur = some f → (s.hw.chain die chain).waiting = true →
    s.hw.rd die A.chain_state chain ≠ chOFF → ∃ t, exec (.chainReturn die chain false got) s = .next t ∧
    t.hw.rd die A.ret_errs chain = (s.hw.rd die A.ret_errs chain + 1) % 2 ^ 32) ∧
  (∀ (s : State) (die chain : Nat) (got : List Bool) (f : ChainFrame), die < s.hw.dies.length → chain < 4 → chain <
    (s.hw.die die).chains.length → (s.hw.chain die chain).enum = none → (s.hw.chain die chain).cur = some f →
    (s.hw.chain die chain).waiting = true → s.hw.rd die A.chain_state chain ≠ chOFF → got.length = 16 * f.levels.length →
    (∀ w ∈ returnWords 16 got, statusOk w = true) → ∃ t, exec (.chainReturn die chain true got) s = .next t ∧
    t.hw.rd die A.chain_state chain = chRUN ∧ (t.hw.chain die chain).waiting = false ∧ (t.hw.chain die chain).errRun = 0) ∧
  (∀ (s : State) (die chain id old : Nat) (got : List Bool), die < s.hw.dies.length → chain < 4 → chain <
    (s.hw.die die).chains.length → (s.hw.chain die chain).enum = some (id, true, old) →
    enumCount (s.hw.rd die A.chain_max chain) got = none → ∃ t, exec (.chainReturn die chain true got) s = .next t ∧
    t.hw.rd die A.chain_state chain = chOFF ∧ (t.hw.chain die chain).enum = none) ∧
  (∀ (s : State) (die chain id old n : Nat) (types : List Nat) (got : List Bool), die < s.hw.dies.length → chain < 4 → chain <
    (s.hw.die die).chains.length → (s.hw.chain die chain).enum = some (id, true, old) →
    enumCount (s.hw.rd die A.chain_max chain) got = some (n, types) →
    refreshLow n (s.hw.rd die A.refresh_us chain) (s.hw.rd die A.ret_slack_us chain) (s.hw.rd die A.chain_mbps chain) =
    false → ∃ t, exec (.chainReturn die chain true got) s = .next t ∧ t.hw.rd die A.chain_state chain = chRUN ∧
    t.hw.rd die A.chain_drivers chain = n) ∧
  (∀ (s : State) (die chain e : Nat) (l : Lamp), die < s.hw.dies.length → chain < 4 → s.hw.rd die A.chain_state chain ≠ chOFF →
    (s.hw.die die).lamps = [(e, l)] → e / 2048 = chain → s.hw.stores = [] → ∃ t, exec (.lampWriteback die chain) s = .next t ∧
    (∀ d x, memRead (t.mems.getD d []) x =
    memRead ((applyStores s.mems [(die, 0x10000 + 16 * e + 8, wordBytes [l.level * 2 ^ 22 + l.age, l.flags * 2 ^ 24])]).getD d []) x) ∧
    t.hw = s.begun)

/-- Lamp commands (R74, R341, R344, R361). The chain commands move the chains between their states, an invalidate marks cached
entries to be read again, CLEAR and DIAG wait for the next frame. -/
def Obligations.LampCommandsComplete : Prop :=
  (∀ (s : State) (h : Hdr) (chains : Nat), s.Admits h 0x0902 (opObj 0x0902 (lowBit chains)) → chains ≠ 0 → chains < 16 →
    (∀ c ∈ chainsOf chains, s.hw.rd h.die A.chain_state c = chOFF) → ∃ t, exec (.chainEnable h chains) s = .next t ∧
    s.SameMem t ∧ t.statusOf h = some .deferred ∧ (∀ c ∈ chainsOf chains, t.hw.rd h.die A.chain_state c = chENUM)) ∧
  (∀ (s : State) (h : Hdr) (chains : Nat), s.Admits h 0x0902 (opObj 0x0902 (lowBit chains)) → chains ≠ 0 → chains < 16 →
    (∀ c ∈ chainsOf chains, s.hw.rd h.die A.chain_state c = chRUN ∨ s.hw.rd h.die A.chain_state c = chLOST) → ∃ t,
    exec (.chainEnum h chains) s = .next t ∧ s.SameMem t ∧ t.statusOf h = some .deferred ∧ (∀ c ∈ chainsOf chains,
    t.hw.rd h.die A.chain_state c = chENUM)) ∧
  (∀ (s : State) (h : Hdr) (chains : Nat), s.Admits h 0x0902 (opObj 0x0902 (lowBit chains)) → chains ≠ 0 → chains < 16 →
    (∀ c ∈ chainsOf chains, s.hw.rd h.die A.chain_state c ≠ chOFF) → ∃ t, exec (.chainDisable h chains) s = .next t ∧
    s.SameMem t ∧ t.replyOf h = some .ok ∧ (∀ c ∈ chainsOf chains, t.hw.rd h.die A.chain_state c = chOFF)) ∧
  (∀ (s : State) (h : Hdr) (first count : Nat), s.Admits h 0x0901 (opObj 0x0901 first) → first < 8192 → 1 ≤ count → first +
    count ≤ 8192 → (s.hw.die h.die).chains.length = 4 → ∃ t, exec (.lampInvalidate h first count) s = .next t ∧ s.SameMem t ∧
    t.replyOf h = some .ok ∧ (∀ e ∈ (s.hw.die h.die).lamps.map (·.1), first ≤ e → e < first + count →
    e ∈ (t.hw.chain h.die (e / 2048)).reread)) ∧
  (∀ (s : State) (h : Hdr) (chain first count : Nat), s.Admits h 0x0903 (opObj 0x0903 chain) → chain < 4 →
    (s.hw.rd h.die A.chain_state chain = chRUN ∨ s.hw.rd h.die A.chain_state chain = chLOST) → 1 ≤ count → first + count ≤
    s.hw.rd h.die A.chain_drivers chain → chain < (s.hw.die h.die).chains.length → ∃ t,
    exec (.lampCtrlClear h chain first count) s = .next t ∧ s.SameMem t ∧ t.replyOf h = some .ok ∧
    (t.hw.chain h.die chain).clears = (List.range count).map (first + ·) ++ (s.hw.chain h.die chain).clears) ∧
  (∀ (s : State) (h : Hdr) (chain mask first count : Nat), s.Admits h 0x0903 (opObj 0x0903 chain) → chain < 4 →
    (s.hw.rd h.die A.chain_state chain = chRUN ∨ s.hw.rd h.die A.chain_state chain = chLOST) → 1 ≤ count → first + count ≤
    s.hw.rd h.die A.chain_drivers chain → chain < (s.hw.die h.die).chains.length → ∃ t,
    exec (.lampCtrlDiag h chain mask first count) s = .next t ∧ s.SameMem t ∧ t.replyOf h = some .ok ∧ (∀ i ch, i < count →
    ch < 4 → mask.testBit ch = true → (first + i, ch) ∈ (t.hw.chain h.die chain).forced))

/-- The matrix (R351 to R358). A step in SCAN lights the next entry of the sequence and is under way, MX_START enters the
state of the mode, MX_STOP ends at once between steps and after step 5 within one; a pulse output's match gives its pulse
(R400). -/
def Obligations.MatrixRowsComplete : Prop :=
  (∀ (s : State) (die csns diag : Nat), die < s.hw.dies.length → s.hw.rd die A.mx_state 0 = 1 → (s.hw.die die).mx.step = none →
    ∃ t, exec (.mxStep die csns diag) s = .next t ∧ s.SameMem t ∧ (t.hw.die die).mx.step.isSome ∧ (t.hw.die die).mx.next =
    ((s.hw.die die).mx.next + 1) % s.hw.rd die A.mx_seq_len 0) ∧
  (∀ (s : State) (h : Hdr), s.Admits h 0x0904 (opObj 0x0904 0) → (s.hw.die h.die).mx.step = none → s.hw.rd h.die A.mx_state 0 =
    0 → ∃ t, exec (.mxStart h) s = .next t ∧ s.SameMem t ∧ t.replyOf h = some .ok ∧ t.hw.rd h.die A.mx_state 0 =
    s.hw.rd h.die A.mx_mode 0 + 1) ∧
  (∀ (s : State) (h : Hdr), s.Admits h 0x0904 (opObj 0x0904 0) → (s.hw.die h.die).mx.step = none → s.hw.rd h.die A.mx_state 0 ≠
    0 → ∃ t, exec (.mxStop h) s = .next t ∧ s.SameMem t ∧ t.replyOf h = some .ok ∧ t.hw.rd h.die A.mx_state 0 = 0) ∧
  (∀ (s : State) (h : Hdr) (p : MxStep), s.Admits h 0x0904 (opObj 0x0904 0) → (s.hw.die h.die).mx.step = some p →
    ((s.atWork h).mxSettle h.die).rd h.die A.mx_state 0 ≠ 0 → (((s.atWork h).mxSettle h.die).die h.die).mx.step = some p →
    ∃ t, exec (.mxStop h) s = .next t ∧ s.SameMem t ∧ t.replyOf h = some .ok ∧ ((t.hw.die h.die).mx.stopping = true ∨
    t.hw.rd h.die A.mx_state 0 = 0)) ∧
  (∀ (s : State) (die out : Nat), die < s.hw.dies.length → out < 8 → s.hw.poDue die out = true → ∃ t,
    exec (.pulseOutputMatch die out) s = .next t ∧ s.SameMem t ∧ t.hw.rd die A.po_pulses out = (s.hw.rd die A.po_pulses out +
    1) % 2 ^ 32)

/-- Colour hold (R367, R372, R382, R386, R387). The page evaluated is the oldest exposed one and the line faults of its lines
are dropped, START takes bars from OFF to ACQUIRE (to RUN with loaded references), STOP takes them to OFF, FREEZE to HOLD,
RESUME lets a bar run again that has no other cause of HOLD, CAPTURE_REF acquires anew, CH_STATUS reads a bar. -/
def Obligations.ColourHoldRowsComplete : Prop :=
  (∀ (s : State) (p : ChPage) (rest : List ChPage), s.hw.pkg.ch.exposed = p :: rest → ∃ t, exec (.chPageEvaluate) s = .next t ∧
    (∀ D ∈ t.hw.dies, ∀ x ∈ D.lineFaults, x.1 = t.hw.chCtx ∧ p.q * t.hw.pageLen ≤ x.2.2)) ∧
  (∀ (s : State) (h : Hdr) (ctx bars : Nat), s.Admits h 0x0A01 (opObj 0x0A01 0) → 1 ≤ ctx → ctx < 256 → bars < 2 ^ s.hw.n →
    (∀ b ∈ barsOf bars, s.hw.rd 0 A.bar_state (b + 1) = 0 ∧ (s.atWork h).ctxPrints b ctx = true ∧
    (((s.atWork h).ctx? b ctx).map (·.page)).getD 0 ≠ 0) → (s.atWork h).cameraCalOk = true →
    (s.atWork h).chCams.all ((s.atWork h).cameraReads ·) = true → ∃ t, exec (.chStart h ctx bars) s = .next t ∧ t.replyOf h =
    some .ok ∧ t.hw.rd 0 A.ch_context 0 = ctx ∧ (∀ b ∈ barsOf bars, t.hw.rd 0 A.bar_state (b + 1) =
    if s.hw.rd 0 A.ref_mode 0 = 1 then 2 else 1)) ∧
  (∀ (s : State) (h : Hdr) (bars : Nat), s.Admits h 0x0A01 (opObj 0x0A01 0) → bars < 2 ^ s.hw.n → ∃ t, exec (.chStop h bars) s =
    .next t ∧ s.SameMem t ∧ t.replyOf h = some .ok ∧ (∀ b ∈ barsOf bars, t.hw.rd 0 A.bar_state (b + 1) = 0)) ∧
  (∀ (s : State) (h : Hdr) (bars : Nat), s.Admits h 0x0A01 (opObj 0x0A01 0) → bars < 2 ^ s.hw.n → (∀ b ∈ barsOf bars,
    s.hw.rd 0 A.bar_state (b + 1) = 2) → ∃ t, exec (.chFreeze h bars) s = .next t ∧ s.SameMem t ∧ t.replyOf h = some .ok ∧
    (∀ b ∈ barsOf bars, t.hw.rd 0 A.bar_state (b + 1) = 3)) ∧
  (∀ (s : State) (h : Hdr) (bars : Nat), s.Admits h 0x0A01 (opObj 0x0A01 0) → bars < 2 ^ s.hw.n → s.hw.pkg.ch.bars.length = 8 →
    (∀ b ∈ barsOf bars, s.hw.rd 0 A.bar_state (b + 1) = 3 ∧ (s.hw.chBar b).frozen = true) → ∃ t, exec (.chResume h bars) s =
    .next t ∧ s.SameMem t ∧ t.replyOf h = some .ok ∧ (∀ b ∈ barsOf bars, (t.hw.chBar b).frozen = false ∧
    t.hw.rd 0 A.bar_state (b + 1) = if (s.hw.chBar b).tile || (s.hw.chBar b).stale then 3 else 2)) ∧
  (∀ (s : State) (h : Hdr) (bars : Nat), s.Admits h 0x0A01 (opObj 0x0A01 0) → bars < 2 ^ s.hw.n → s.hw.rd 0 A.ref_mode 0 = 0 →
    (∀ b ∈ barsOf bars, s.hw.rd 0 A.bar_state (b + 1) = 2 ∨ s.hw.rd 0 A.bar_state (b + 1) = 3) → ∃ t,
    exec (.chCaptureRef h bars) s = .next t ∧ s.SameMem t ∧ t.replyOf h = some .ok ∧ (∀ b ∈ barsOf bars,
    t.hw.rd 0 A.bar_state (b + 1) = 1)) ∧
  (∀ (s : State) (h : Hdr) (bar : Nat), s.Admits h 0x0A02 (opObj 0x0A02 0) → bar < s.hw.n → ∃ t, exec (.chStatus h bar) s =
    .next t ∧ s.SameMem t ∧ t.replyOf h =
    some (.words [s.hw.rd 0 A.bar_state (bar + 1) * 2 ^ 24 + satNat 255 (s.hw.chBar bar).limits * 2 ^ 16 + s.hw.rd 0 A.bar_de_max (bar + 1), s.hw.rd 0 A.last_gain_line (bar + 1), s.hw.rd 0 A.last_reg_line (bar + 1), s.hw.rd 0 A.page_q 0]))

/-- Time bases, pulse outputs and captures (R389 to R392, R400, R402, R404). A change is applied once: a rate becomes the rate
of the time base, a step on the lead die is counted and disarms; a die's time base is drawn to the lead die's; PO_ARM sets an
output; an edge latches all time bases; TB_READ reads them and TB_STEP sends a step to every die. -/
def Obligations.TimeBaseRowsComplete : Prop :=
  (∀ (s : State) (die : Nat) (c : TbChange) (cs : List TbChange) (r : Int), die < s.hw.dies.length → (s.hw.die die).tbChanges =
    c :: cs → c.rate = some r → ∃ t, exec (.tbChangeApply die) s = .next t ∧ s.SameMem t ∧ (t.hw.die die).tbChanges = cs ∧
    t.hw.rd die A.rate_ppt c.tb = ofSigned 64 r) ∧
  (∀ (s : State) (die : Nat) (c : TbChange) (cs : List TbChange) (off : Int), die < s.hw.dies.length →
    (s.hw.die die).tbChanges = c :: cs → c.step = some off → die = s.hw.leadDie → ∃ t, exec (.tbChangeApply die) s = .next t ∧
    s.SameMem t ∧ t.hw.rd die A.steps c.tb = (s.hw.rd die A.steps c.tb + 1) % 2 ^ 32 ∧ t.hw.rd die A.step_arm c.tb = 0) ∧
  (∀ (s : State) (die tb : Nat), die < s.hw.dies.length → tb < 4 → die ≠ s.hw.leadDie → tb < (s.hw.die die).tbs.length → ∃ t,
    exec (.timeAlign die tb) s = .next t ∧ s.SameMem t ∧ ((t.hw.die die).tbs.getD tb {}).rho =
    ((s.hw.die s.hw.leadDie).tbs.getD tb {}).rho +
    clampInt (-(2 ^ 49 / 10 ^ 6)) (2 ^ 49 / 10 ^ 6) (-((((s.hw.die die).tbs.getD tb {}).time - ((s.hw.die s.hw.leadDie).tbs.getD tb {}).time : Int) *
    2 / 10 ^ 6))) ∧
  (∀ (s : State) (h : Hdr) (mode out start period count : Nat), s.Admits h 0x0B03 (opObj 0x0B03 out) → mode ≤ 3 → out < 8 →
    (mode = 2 → (s.hw.rd h.die A.po_width_ns out + 10) * 2 ^ 16 ≤ period) → s.hw.rd h.die A.po_state out = 0 → ∃ t,
    exec (.poArm h mode out start period count) s = .next t ∧ s.SameMem t ∧ t.statusOf h = some .ok ∧
    t.hw.rd h.die A.po_mode out = mode ∧ (t.hw.rd h.die A.po_state out = if mode = 0 then 0 else if mode = 2 then 2 else 1) ∧
    ((mode = 1 ∨ mode = 2) → s.hw.poNow h.die out ≤ start → t.hw.rd h.die A.po_next out = start)) ∧
  (∀ (s : State) (die input at_ : Nat) (rising : Bool), die < s.hw.dies.length → input < 4 → (s.hw.rd die A.cap_edge (8 +
    input) = 3 ∨ s.hw.rd die A.cap_edge (8 + input) = if rising then 1 else 2) → ∃ t,
    exec (.captureEdge die input rising at_) s = .next t ∧ s.SameMem t ∧ (∀ i < 4, t.hw.blkNum die A.cap_last (8 + input) (8 *
    i) 8 = t.hw.tb die i % 2 ^ 64)) ∧
  (∀ (s : State) (h : Hdr), s.Admits h 0x0B01 (opObj 0x0B01 0) → ∃ t, exec (.tbRead h) s = .next t ∧ s.SameMem t ∧
    (t.replyOf h = some (.words ((List.range 4).flatMap (fun i => words64 (s.hw.tb h.die i)) ++
    [s.hw.rd h.die A.servo_state 0 + 16 * s.hw.rd h.die A.servo_state 2 + 256 * s.hw.rd h.die A.servo_state 3])))) ∧
  (∀ (s : State) (h : Hdr) (tb : Nat) (off : Int), s.Admits h 0x0B02 (opObj 0x0B02 tb) → (tb = 0 ∨ tb = 2 ∨ tb = 3) →
    s.hw.rd 0 A.step_arm tb ≠ 0 → ∃ t, exec (.tbStep h tb off) s = .next t ∧ s.SameMem t ∧ t.replyOf h =
    some (.words (words64 (s.hw.tb s.hw.leadDie 1 + 2000))) ∧ (∀ D ∈ t.hw.dies, ∃ c ∈ D.tbChanges, c.tb = tb ∧ c.step =
    some off ∧ c.apply = s.hw.tb s.hw.leadDie 1 + 2000))

/-- The servos (R393 to R396). A first sample sets the offset and leaves ACQUIRE, an outlier is counted and moves nothing, a
slew ends in ACQUIRE, and TRACK or LOCKED without a valid sample for the time set becomes HOLDOVER. -/
def Obligations.ServoRowsComplete : Prop :=
  (∀ (s : State) (tb gm at_ : Nat) (theta : Int), s.hw.leadDie < s.hw.dies.length → tb < 4 → s.hw.lead ≠ none → tb ≠ 1 →
    s.hw.rd 0 A.tb_source tb ≠ 1 → tb < s.hw.pkg.servos.length → (s.hw.servo tb).st = .acquire → ∃ t,
    exec (.servoSample tb gm theta at_) s = .next t ∧ s.SameMem t ∧ t.hw.rd 0 A.offset_ns tb = ofSigned 32 (theta / 1000) ∧
    (t.hw.servo tb).st ≠ .acquire ∧ (t.hw.servo tb).lastAt = some at_) ∧
  (∀ (s : State) (tb gm at_ : Nat) (theta : Int), s.hw.leadDie < s.hw.dies.length → tb < 4 → s.hw.lead ≠ none → tb ≠ 1 →
    s.hw.rd 0 A.tb_source tb ≠ 1 → ((s.hw.servo tb).st = .track ∨ (s.hw.servo tb).st = .locked) → (s.hw.rd 0 A.outlier_ns tb *
    1000 : Int) < theta.natAbs → ∃ t, exec (.servoSample tb gm theta at_) s = .next t ∧ s.SameMem t ∧
    t.hw.rd 0 A.outliers tb = (s.hw.rd 0 A.outliers tb + 1) % 2 ^ 32 ∧ t.hw.rd 0 A.offset_ns tb = s.hw.rd 0 A.offset_ns tb) ∧
  (∀ (s : State) (tb : Nat), s.hw.leadDie < s.hw.dies.length → tb < 4 → (s.hw.servo tb).st = .slew → s.hw.lead.isSome → ∃ t,
    exec (.slewEnd tb) s = .next t ∧ s.SameMem t ∧ t.hw.rd 0 A.servo_state tb = ServoState.code .acquire) ∧
  (∀ (s : State) (tb : Nat), s.hw.leadDie < s.hw.dies.length → tb < 4 → ((s.hw.servo tb).st = .track ∨ (s.hw.servo tb).st =
    .locked) → ∃ t, exec (.holdoverTimeout tb) s = .next t ∧ s.SameMem t ∧ t.hw.rd 0 A.servo_state tb =
    ServoState.code .holdover ∧ t.hw.rd 0 A.holdover_tb1 tb = s.hw.tb s.hw.leadDie 1)

/-- Network time (R397, R399). A message is counted as received or as bad, a Sync with its origin from the parent gives the
offset from the master, a port that serves answers a request, an announce timeout forgets the master, and an interval of a
port sends its message. -/
def Obligations.PtpRowsComplete : Prop :=
  (∀ (s : State) (die port : Nat) (msg : PtpMsg), die < s.hw.dies.length → port < 2 → s.hw.rd die A.ptp_enable port ≠ 0 → msg ≠
    .other → (∀ a b, msg ≠ .requestSent a b) → ∃ t, exec (.ptpMessage die port msg) s = .next t ∧ s.SameMem t ∧
    t.hw.rd die A.ptp_rx port = (s.hw.rd die A.ptp_rx port + 1) % 2 ^ 32) ∧
  (∀ (s : State) (die port : Nat), die < s.hw.dies.length → port < 2 → s.hw.rd die A.ptp_enable port ≠ 0 → ∃ t,
    exec (.ptpMessage die port .other) s = .next t ∧ s.SameMem t ∧ t.hw.rd die A.ptp_bad port = (s.hw.rd die A.ptp_bad port +
    1) % 2 ^ 32) ∧
  (∀ (s : State) (die port sq : Nat) (tx : Int), die < s.hw.dies.length → port < 2 → s.hw.rd die A.ptp_enable port ≠ 0 → port <
    (s.hw.die die).ptp.length → ∃ t, exec (.ptpMessage die port (.requestSent sq tx)) s = .next t ∧ s.SameMem t ∧
    (t.hw.ptpPort die port).t3 = some (tx + s.hw.rdS die A.tx_lat_ps port 32) ∧ (t.hw.ptpPort die port).reqSeq = sq) ∧
  (∀ (s : State) (die port sq : Nat) (rx o : Int), die < s.hw.dies.length → port < 2 → s.hw.rd die A.ptp_enable port ≠ 0 →
    s.hw.rd die A.port_state port = 9 → ∃ t,
    exec (.ptpMessage die port (.sync (s.hw.ptpPort die port).parent sq rx (some o))) s = .next t ∧ s.SameMem t ∧
    t.hw.rd die A.port_offset_ns port =
    ofSigned 32 ((rx - s.hw.rdS die A.rx_lat_ps port 32 - o - s.hw.rd die A.mean_delay_ps port - s.hw.rdS die A.asym_ps port 32) / 1000)) ∧
  (∀ (s : State) (die port a b : Nat) (rx : Int), die < s.hw.dies.length → port < 2 → s.hw.rd die A.ptp_enable port ≠ 0 →
    s.hw.rd die A.port_state port = 6 → ∃ t, exec (.ptpMessage die port (.delayReq a b rx)) s = .next t ∧ s.SameMem t ∧
    t.hw.out = [.ptp die port 9] ∧ t.hw.rd die A.ptp_tx port = (s.hw.rd die A.ptp_tx port + 1) % 2 ^ 32) ∧
  (∀ (s : State) (die port : Nat), die < s.hw.dies.length → port < 2 → s.hw.rd die A.ptp_enable port ≠ 0 → port <
    (s.hw.die die).ptp.length → ∃ t, exec (.announceTimeout die port) s = .next t ∧ s.SameMem t ∧
    (t.hw.ptpPort die port).heard = false) ∧
  (∀ (s : State) (die port : Nat), die < s.hw.dies.length → port < 2 → s.hw.rd die A.ptp_enable port ≠ 0 →
    s.hw.rd die A.port_state port = 6 → ∃ t, exec (.ptpMessageInterval die port 0) s = .next t ∧ s.SameMem t ∧ (t.hw.out =
    if s.hw.rd die A.one_step port = 0 then [.ptp die port 0, .ptp die port 8] else [.ptp die port 0])) ∧
  (∀ (s : State) (die port : Nat), die < s.hw.dies.length → port < 2 → s.hw.rd die A.ptp_enable port ≠ 0 →
    s.hw.rd die A.port_state port = 6 → ∃ t, exec (.ptpMessageInterval die port 1) s = .next t ∧ s.SameMem t ∧ t.hw.out =
    [.ptp die port 11] ∧ t.hw.rd die A.ptp_tx port = (s.hw.rd die A.ptp_tx port + 1) % 2 ^ 32) ∧
  (∀ (s : State) (die port : Nat), die < s.hw.dies.length → port < 2 → s.hw.rd die A.ptp_enable port ≠ 0 →
    (s.hw.rd die A.delay_mech port = 1 ∨ s.hw.rd die A.port_state port = 8 ∨ s.hw.rd die A.port_state port = 9) → ∃ t,
    exec (.ptpMessageInterval die port 2) s = .next t ∧ s.SameMem t ∧ (t.hw.out = if s.hw.rd die A.delay_mech port =
    1 then [.ptp die port 2] else [.ptp die port 1]) ∧ t.hw.rd die A.ptp_tx port = (s.hw.rd die A.ptp_tx port + 1) % 2 ^ 32)

/-- Housekeeping and shutdown (R441, R442, R453, R454, R468). A round counts and shows the raw codes, a critical shutdown ends
the critical state, a trip latches, shows in the fault mask and ends it, THERM_STATUS reads the die. -/
def Obligations.ThermalRowsComplete : Prop :=
  (∀ (s : State) (die at_ : Nat) (raws : List Nat) (vals : List Int), die < s.hw.dies.length → ∃ t,
    exec (.housekeepingRound die at_ raws vals) s = .next t ∧ s.SameMem t ∧ t.hw.rd die A.rounds 0 = (s.hw.rd die A.rounds 0 +
    1) % 2 ^ 32 ∧ (∀ ch < 64, t.hw.rd die A.sn_raw ch = raws.getD ch 0 % 4096)) ∧
  (∀ (s : State) (die : Nat), die < s.hw.dies.length → (s.hw.die die).crit.isSome → ∃ t, exec (.criticalShutdown die) s =
    .next t ∧ (t.hw.die die).crit = none) ∧
  (∀ (s : State) (die sensor at_ : Nat), die < s.hw.dies.length → sensor < 6 → s.hw.rd die A.sn_flags sensor &&& 6 = 0 → ∃ t,
    exec (.thermTrip die sensor at_) s = .next t ∧ t.hw.rd die A.trip_latched 0 = 1 ∧ t.hw.faultMask.testBit die = true ∧
    (t.hw.die die).crit = none) ∧
  (∀ (s : State) (h : Hdr), s.Admits h 0x0D02 (opObj 0x0D02 0) → ∃ t, exec (.thermStatus h) s = .next t ∧ s.SameMem t ∧ (∃ w,
    t.replyOf h =
    some (.words [s.hw.rd h.die A.tj_max 0 * 2 ^ 16 + s.hw.rd h.die A.tj_mean 0, w, s.hw.rd h.die A.rounds 0, ((List.range 5).map fun i => s.hw.rd h.die A.cal_state i * 16 ^ i).sum])))

/-- Calibration (R459, R462 to R466, R470). CAL_RUN starts the named instances, measures their quality or aborts them with the
values before in force; the work of an instance ends with its values or its failure; a gap-fitted run without a gap is given
up for a time. -/
def Obligations.CalibrationRowsComplete : Prop :=
  (∀ (s : State) (h : Hdr) (insts : Nat), s.Admits h 0x0D01 (opObj 0x0D01 (lowBit insts)) → insts ≠ 0 → insts < 32 →
    (insts.testBit 4 = true → h.die = s.hw.leadDie) → (∀ i ∈ instsOf insts, s.hw.rd h.die A.cal_state i ≠ 3) →
    (s.atWork h).printing h.die = false → (insts.testBit 4 = true → s.hw.rd 0 A.ch_state 0 ≠ 1) → ∃ t,
    exec (.calRun h insts) s = .next t ∧ s.SameMem t ∧ t.statusOf h = some .deferred ∧ (∀ i ∈ instsOf insts,
    t.hw.rd h.die A.cal_state i = 3)) ∧
  (∀ (s : State) (h : Hdr) (insts : Nat), s.Admits h 0x0D01 (opObj 0x0D01 (lowBit insts)) → insts ≠ 0 → insts < 32 →
    (insts.testBit 4 = true → h.die = s.hw.leadDie) → (∀ i ∈ instsOf insts, s.hw.rd h.die A.cal_state i ≠ 3) → ∃ t,
    exec (.calRunGap h insts) s = .next t ∧ s.SameMem t ∧ t.statusOf h = some .deferred ∧ (∀ i ∈ instsOf insts,
    t.hw.rd h.die A.cal_state i = 3)) ∧
  (∀ (s : State) (h : Hdr) (insts : Nat), s.Admits h 0x0D01 (opObj 0x0D01 (lowBit insts)) → insts ≠ 0 → insts < 32 →
    (insts.testBit 4 = true → h.die = s.hw.leadDie) → ∃ t, exec (.calQuality h insts) s = .next t ∧ s.SameMem t ∧
    (t.statusOf h = if s.hw.n = 8 then some .ok else some .deferred)) ∧
  (∀ (s : State) (h : Hdr) (insts : Nat), s.Admits h 0x0D01 (opObj 0x0D01 (lowBit insts)) → insts ≠ 0 → insts < 32 →
    (insts.testBit 4 = true → h.die = s.hw.leadDie) → (∀ i ∈ instsOf insts, s.hw.rd h.die A.cal_state i = 3) → ∃ t,
    exec (.calAbort h insts) s = .next t ∧ s.SameMem t ∧ t.replyOf h = some .ok ∧ (∀ i ∈ instsOf insts,
    t.hw.rd h.die A.cal_state i = ((s.hw.die h.die).cals.getD i {}).before ∧ t.hw.rd h.die A.cal_fails i =
    (s.hw.rd h.die A.cal_fails i + 1) % 2 ^ 32)) ∧
  (∀ (s : State) (die inst quality : Nat) (values : List Byte), die < s.hw.dies.length → inst < 5 → inst <
    (s.hw.die die).cals.length → ((s.hw.die die).cals.getD inst {}).work ≠ 0 → ((s.hw.die die).cals.getD inst {}).work ≠ 3 →
    (inst = 1 → s.hw.rd die A.vref_mv 1 ≠ 0) → s.begun.calBad die inst quality = false → ∃ t,
    exec (.calDone die inst quality values) s = .next t ∧ s.SameMem t ∧ t.hw.rd die A.cal_state inst = 1 ∧
    t.hw.rd die A.quality inst = quality ∧ ((t.hw.die die).cals.getD inst {}).values = values ∧
    ((t.hw.die die).cals.getD inst {}).work = 0) ∧
  (∀ (s : State) (die inst quality : Nat) (values : List Byte), die < s.hw.dies.length → inst < 5 → inst <
    (s.hw.die die).cals.length → ((s.hw.die die).cals.getD inst {}).work ≠ 0 → ((s.hw.die die).cals.getD inst {}).work ≠ 3 →
    (inst = 1 → s.hw.rd die A.vref_mv 1 ≠ 0) → s.begun.calBad die inst quality = true → ∃ t,
    exec (.calDone die inst quality values) s = .next t ∧ s.SameMem t ∧ t.hw.rd die A.cal_state inst = 4 ∧
    ((t.hw.die die).cals.getD inst {}).values = ((s.hw.die die).cals.getD inst {}).values ∧
    ((t.hw.die die).cals.getD inst {}).work = 0) ∧
  (∀ (s : State) (die inst : Nat), die < s.hw.dies.length → inst < 5 → inst < (s.hw.die die).cals.length →
    ((s.hw.die die).cals.getD inst {}).work = 2 → ∃ t, exec (.calNoGap die inst) s = .next t ∧ s.SameMem t ∧
    t.hw.rd die A.cal_state inst = ((s.hw.die die).cals.getD inst {}).before ∧ ((t.hw.die die).cals.getD inst {}).retry =
    some (t.hw.clk + 10 ^ 10))

/-- Domains and resets by command (R454, R504, R505, R513, R533). Named domains that are off start to switch on and end
usable, named domains switch off, one die is reset, a package reset waits for its reply, a trip latch is cleared and its die
boots. -/
def Obligations.PowerRowsComplete : Prop :=
  (∀ (s : State) (h : Hdr) (die mask : Nat), s.Admits h 0x0F01 (opObj 0x0F01 0) → die < s.hw.dies.length → mask.testBit 0 =
    false → mask < 256 → (∀ b < 8, mask.testBit b = true → (s.hw.rd die A.pd_on 0 ||| mask ||| 1).testBit (domainNeeds b) =
    true) → s.hw.rd die A.trip_latched 0 ≠ 1 → (∀ ch < 6, s.begun.warm die ch = false) → ∃ t, exec (.domainOn h die mask) s =
    .next t ∧ s.SameMem t ∧ t.statusOf h = some .deferred ∧ (mask ≠ 0 → s.hw.rd die A.pd_on 0 &&& mask = 0 → ∃ id,
    (t.hw.die die).pdWork = (s.hw.die die).pdWork ++ [(id, mask, false)])) ∧
  (∀ (s : State) (h : Hdr) (die mask : Nat), s.Admits h 0x0F01 (opObj 0x0F01 0) → die < s.hw.dies.length → mask.testBit 0 =
    false → mask < 256 → s.begun.printing die = false → (∀ b < 8, (s.hw.rd die A.pd_on 0).testBit b = true → mask.testBit b =
    false → mask.testBit (domainNeeds b) = false) → (mask.testBit 1 = true → s.hw.lead ≠ some die) → ∃ t,
    exec (.domainOff h die mask) s = .next t ∧ t.replyOf h = some .ok ∧ (∀ b < 8, (t.hw.rd die A.pd_on 0).testBit b =
    ((s.hw.rd die A.pd_on 0).testBit b && !mask.testBit b))) ∧
  (∀ (s : State) (h : Hdr) (die : Nat), s.Admits h 0x0F01 (opObj 0x0F01 0) → die < s.hw.dies.length → s.hw.lead ≠ some die →
    s.begun.printing die = false → ∃ t, exec (.dieReset h die) s = .next t ∧ t.statusOf h = some .deferred ∧
    t.hw.rd die A.reset_cause 0 = Cause.code .dieCmd ∧ (∃ id, (t.hw.die die).pdWork = [(id, 0xFE, true)])) ∧
  (∀ (s : State) (h : Hdr), s.Admits h 0x0F01 (opObj 0x0F01 0) → (∀ d < s.hw.n, s.begun.printing d = false) → ∃ t,
    exec (.pkgReset h) s = .next t ∧ s.SameMem t ∧ t.replyOf h = some .ok ∧ t.hw.resetDue = some (h.origin, h.tag)) ∧
  (∀ (s : State) (h : Hdr) (die : Nat), s.Admits h 0x0F01 (opObj 0x0F01 0) → die < s.hw.dies.length → (∀ ch < 30,
    s.begun.warm die ch = false) → s.hw.rd die A.trip_latched 0 = 1 → ∃ t, exec (.tripClear h die) s = .next t ∧ s.SameMem t ∧
    t.statusOf h = some .deferred ∧ t.hw.rd die A.trip_latched 0 = 0 ∧ t.hw.rd die A.reset_cause 0 = Cause.code .dieCmd) ∧
  (∀ (s : State) (die : Nat), die < s.hw.dies.length → s.hw.porst = false → s.hw.railFault = false → s.hw.clkFault = false →
    ∃ t, exec (.domainSwitchDone die) s = .next t ∧ t.hw.rd die A.pd_busy 0 = 0 ∧ (t.hw.die die).pdWork = []) ∧
  (∀ (s : State) (die id mask : Nat), die < s.hw.dies.length → s.hw.porst = false → s.hw.railFault = false → s.hw.clkFault =
    false → (s.hw.die die).pdWork = [(id, mask, false)] → ∃ t, exec (.domainSwitchDone die) s = .next t ∧
    t.hw.rd die A.pd_on 0 = s.hw.rd die A.pd_on 0 ||| mask)

/-- Resets and boot (R508 to R520). Power-on reset clears the package and the events not programmed, its end starts the boot
once every rail is good, the reset pin, rails that are good again, a clock that is good again and an unconfirmed boot start it
with their cause, a rail or clock fault holds the package, a die that does not boot is left off, the confirmed boot gives the
lead die and GATEHOUSE. -/
def Obligations.BootRowsComplete : Prop :=
  (∀ (s : State), ∃ t, exec (.porstLLow) s = .next t ∧ t.hw.porst = true ∧ t.hw.mode = .boot ∧ t.hw.lead = none ∧
    t.hw.evtDurable = s.hw.evtDurable ∧ t.hw.evtNext = s.hw.evtDurable + 1 ∧ (∀ e ∈ t.hw.ring, e.seq ≤ s.hw.evtDurable)) ∧
  (∀ (s : State) (straps alive : Nat), s.hw.porst = true → ∃ t, exec (.porstRise straps 1023 alive) s = .next t ∧ s.SameMem t ∧
    t.hw.porst = false ∧ t.hw.alive = alive % 2 ^ s.hw.n ∧ (∀ d < s.hw.n, t.hw.rd d A.reset_cause 0 = Cause.code .por) ∧
    (∀ d < s.hw.n, t.hw.rd d A.straps 0 = straps % 16)) ∧
  (∀ (s : State) (straps good alive : Nat), s.hw.porst = true → good % 1024 ≠ 1023 → ∃ t,
    exec (.porstRise straps good alive) s = .next t ∧ s.SameMem t ∧ t.hw.porst = false ∧ t.hw.railFault = true) ∧
  (∀ (s : State) (straps : Nat), s.hw.porst = false → s.hw.railFault = false → s.hw.clkFault = false → ∃ t,
    exec (.sysRstL straps) s = .next t ∧ t.hw.mode = .boot ∧ t.hw.lead = none ∧ (∀ d < s.hw.n, t.hw.rd d A.reset_cause 0 =
    Cause.code .pin)) ∧
  (∀ (s : State) (die rail value : Nat), die < s.hw.dies.length → rail < 10 → s.hw.porst = false → rail ≠ 9 → ∃ t,
    exec (.railFault die rail value) s = .next t ∧ t.hw.railFault = true ∧ t.hw.mode = .boot ∧ t.hw.hsOn = false) ∧
  (∀ (s : State) (straps : Nat), s.hw.porst = false → s.hw.railFault = true → s.hw.clkFault = false → ∃ t,
    exec (.railGood straps) s = .next t ∧ s.SameMem t ∧ t.hw.railFault = false ∧ (∀ d < s.hw.n, t.hw.rd d A.reset_cause 0 =
    Cause.code .rail) ∧ (∀ d < s.hw.n, t.hw.rd d A.rails_good 0 = 1023)) ∧
  (∀ (s : State) (die : Nat), die < s.hw.dies.length → s.hw.porst = false → ∃ t, exec (.clkFault die) s = .next t ∧
    t.hw.clkFault = true ∧ t.hw.mode = .boot ∧ t.hw.hsOn = false) ∧
  (∀ (s : State) (straps gap : Nat), s.hw.porst = false → s.hw.railFault = false → s.hw.clkFault = true → ∃ t,
    exec (.clockGood straps gap) s = .next t ∧ s.SameMem t ∧ t.hw.clkFault = false ∧ t.hw.clk = s.hw.clk + gap ∧ (∀ d <
    s.hw.n, t.hw.rd d A.reset_cause 0 = Cause.code .clock)) ∧
  (∀ (s : State) (straps : Nat), s.hw.bootWatch = true → ∃ t, exec (.bootWatchdog straps false) s = .next t ∧ t.hw.mode =
    .boot ∧ (∀ d < s.hw.n, t.hw.rd d A.reset_cause 0 = Cause.code .bootFail)) ∧
  (∀ (s : State) (straps : Nat), ∃ t, exec (.bootWatchdog straps true) s = .next t ∧ t.hw = s.begun) ∧
  (∀ (s : State) (die : Nat), die < s.hw.dies.length → s.hw.porst = false → s.hw.railFault = false → s.hw.clkFault = false →
    s.hw.bootWatch = true → ∃ t, exec (.dieBootTimeout die) s = .next t ∧ (t.hw.die die).up = false ∧
    t.hw.faultMask.testBit die = true)

/-- Modes and Gatehouse (R516, R517, R522 to R530). With no context open and no script, MODE_SET GATEHOUSE enters GATEHOUSE
with PTP on TB0, MODE_SET HOSTED enters HOSTED, at once when no test page prints; a confirmed boot ends in GATEHOUSE with its
lead die; the spit timer spits on the enabled ports; GH_STATUS reads the results. -/
def Obligations.ModeRowsComplete : Prop :=
  (∀ (s : State) (h : Hdr), s.Admits h 0x0F02 (opObj 0x0F02 0) → (∀ D ∈ s.hw.dies, ∀ c ∈ D.ctxs, c.num = 0) → s.hw.mode ≠
    .gatehouse → s.hw.rd 0 A.gh_script_len 0 = 0 → ∃ t, exec (.modeSetGatehouse h) s = .next t ∧ t.replyOf h = some .ok ∧
    t.hw.mode = .gatehouse ∧ t.hw.rd 0 A.tb_source 0 = 1 ∧ t.hw.rd 0 A.slave_only 0 = 1) ∧
  (∀ (s : State) (h : Hdr), s.Admits h 0x0F02 (opObj 0x0F02 0) → s.hw.gh.print = none → s.hw.hostedWait = [] → ∃ t,
    exec (.modeSetHosted h) s = .next t ∧ t.replyOf h = some .ok ∧ t.hw.mode = .hosted) ∧
  (∀ (s : State) (h : Hdr), s.Admits h 0x0F02 (opObj 0x0F02 0) → s.hw.mode = .gatehouse → s.hw.gh.print.isSome → ∃ t,
    exec (.modeSetHosted h) s = .next t ∧ t.statusOf h = some .deferred) ∧
  (∀ (s : State) (ms b i : Nat), s.hw.bootWatch = true → (s.hw.bootDie (fun h d => (h.die d).up) = some b) → s.hw.fwBooted =
    some i → s.hw.rd 0 A.gh_script_len 0 = 0 → ∃ t, exec (.bootConfirm ms) s = .next t ∧ t.hw.mode = .gatehouse ∧ t.hw.lead =
    some b ∧ t.hw.bootWatch = false ∧ t.hw.hsOn = true) ∧
  (∀ (s : State) (d : Nat), s.hw.mode = .gatehouse → s.hw.gh.interval ≠ 0 → s.hw.hsIn.testBit 1 = true → d < s.hw.n →
    (s.hw.die d).up = true → s.hw.enabledPorts d ≠ 0 → s.hw.rd d A.le_state 0 = 0 → s.hw.gh.spitLines ≤ 1000000 →
    (∀ p ∈ portsOf (s.hw.enabledPorts d), s.hw.rd d A.hp_state p = 1) → ∃ t, exec (.ghSpitTimer) s = .next t ∧ s.SameMem t ∧
    (t.hw.die d).spits = (s.hw.die d).spits ++
    [{ ports := (portsOf (s.hw.enabledPorts d)).map (·, 0), lines := s.hw.gh.spitLines }]) ∧
  (∀ (s : State) (h : Hdr), s.Admits h 0x0F03 (opObj 0x0F03 0) → ∃ t, exec (.ghStatus h) s = .next t ∧ s.SameMem t ∧
    t.replyOf h = some ⟨.ok, (s.atWork h).ghBytes⟩)

/-- The lead die, the Kennel and the takeover (R473, R475 to R479, R481, R483, R488). A management processor that stops
releases the lead role if its die holds it and shows in the fault mask; a checkpoint begins when one is due and counts once
written; the other die of the pair takes the role if it is STANDBY, else the package enters SAFE; the failed die is repaired
and becomes STANDBY. -/
def Obligations.LeadRowsComplete : Prop :=
  (∀ (s : State) (die : Nat), die < s.hw.dies.length → ∃ t, exec (.watchdogExpiry die false) s = .next t ∧ s.SameMem t ∧
    (t.hw.die die).up = false ∧ t.hw.faultMask.testBit die = true ∧ (t.hw.lead = if s.hw.lead =
    some die then none else s.hw.lead)) ∧
  (∀ (s : State) (die : Nat), die < s.hw.dies.length → ∃ t, exec (.sramEccError die) s = .next t ∧ s.SameMem t ∧
    (t.hw.die die).up = false ∧ t.hw.faultMask.testBit die = true ∧ (t.hw.lead = if s.hw.lead =
    some die then none else s.hw.lead)) ∧
  (∀ (s : State) (die : Nat), die < s.hw.dies.length → ∃ t, exec (.mgmtPowerLoss die) s = .next t ∧ s.SameMem t ∧
    (t.hw.die die).up = false ∧ t.hw.faultMask.testBit die = true ∧ (t.hw.lead = if s.hw.lead =
    some die then none else s.hw.lead) ∧ t.hw.rd die A.pd_on 0 = s.hw.rd die A.pd_on 0 &&& 0xFD) ∧
  (∀ (s : State), s.hw.lead ≠ none → s.hw.mode ≠ .boot → s.hw.kennelWriting = none → s.hw.nvOk = true → ∃ t,
    exec (.kennelCheckpoint) s = .next t ∧ s.SameMem t ∧ t.hw.kennelWriting.isSome) ∧
  (∀ (s : State), s.hw.lead ≠ none → s.hw.mode ≠ .boot → s.hw.kennelWriting.isSome → ∃ t, exec (.kennelCheckpoint) s = .next t ∧
    s.SameMem t ∧ t.hw.rd 0 A.kennel_late 0 = (s.hw.rd 0 A.kennel_late 0 + 1) % 2 ^ 32) ∧
  (∀ (s : State) (slot d : Nat) (c : KennelSlot), s.hw.kennelWriting = some (slot, c) → s.hw.lead = some d → s.hw.moving =
    none → ∃ t, exec (.kennelWriteDone true) s = .next t ∧ s.SameMem t ∧ t.hw.kennelWriting = none ∧ t.hw.kennel =
    s.hw.kennel.set slot c ∧ t.hw.rd 0 A.kennel_seq 0 = c.seq ∧ t.hw.ckptWork = none) ∧
  (∀ (s : State) (slot d : Nat) (c : KennelSlot), s.hw.kennelWriting = some (slot, c) → s.hw.lead = some d → ∃ t,
    exec (.kennelWriteDone false) s = .next t ∧ s.SameMem t ∧ t.hw.kennelWriting = none ∧ t.hw.kennel = s.hw.kennel ∧
    t.hw.rd 0 A.kennel_errs 0 = (s.hw.rd 0 A.kennel_errs 0 + 1) % 2 ^ 32) ∧
  (∀ (s : State) (us d : Nat), s.hw.takeover = some d → s.hw.ldState (1 - d) = .standby → ∃ t, exec (.leadTakeover us) s =
    .next t ∧ s.SameMem t ∧ t.hw.lead = some (1 - d) ∧ t.hw.takeover = none ∧ t.hw.moving = none ∧ t.hw.fw = none) ∧
  (∀ (s : State) (us d : Nat), s.hw.takeover = some d → s.hw.ldState (1 - d) ≠ .standby → ∃ t, exec (.leadTakeover us) s =
    .next t ∧ s.SameMem t ∧ t.hw.mode = .safe ∧ t.hw.takeover = none ∧ t.hw.safeFrom = s.hw.mode) ∧
  (∀ (s : State) (us : Nat), s.hw.takeover = none → s.hw.mode = .safe → s.hw.lead = none → s.hw.ldState 0 = .standby → ∃ t,
    exec (.leadTakeover us) s = .next t ∧ s.SameMem t ∧ t.hw.lead = some 0 ∧ t.hw.mode = s.hw.safeFrom) ∧
  (∀ (s : State) (l : Nat), s.hw.leadSt.length = 2 → s.hw.lead = some l → s.hw.rd 0 A.auto_repair 0 = 1 → s.hw.repairArmed =
    true → s.hw.ldState (1 - l) = .faulted → ∃ t, exec (.leadRepair) s = .next t ∧ s.SameMem t ∧ t.hw.repairArmed = false ∧
    t.hw.ldState (1 - l) = .syncing) ∧
  (∀ (s : State) (die : Nat) (pass : Bool), die < s.hw.dies.length → die < 2 → s.hw.leadSt.length = 2 → s.hw.ldState die =
    .syncing → ∃ t, exec (.leadStandby die pass) s = .next t ∧ s.SameMem t ∧ (t.hw.ldState die =
    if pass then .standby else .faulted) ∧ t.hw.repairWork = none ∧ (pass = true → (t.hw.die die).up = true ∧
    t.hw.faultMask.testBit die = false))

/-- LEAD_CTRL (R487 to R489, R503). MOVE begins a checkpoint and defers, REPAIR puts the die into SYNCING, CHECKPOINT begins
one, ACK clears the reissue list. -/
def Obligations.LeadCommandsComplete : Prop :=
  (∀ (s : State) (h : Hdr), s.Admits h 0x0E01 (opObj 0x0E01 0) → s.hw.ldState (1 - s.hw.execDie h 0x0E01 (opObj 0x0E01 0)) =
    .standby → s.hw.moving = none → s.hw.nvOk = true → ∃ t, exec (.leadMove h) s = .next t ∧ s.SameMem t ∧ t.statusOf h =
    some .deferred ∧ t.hw.moving.isSome ∧ t.hw.kennelWriting.isSome) ∧
  (∀ (s : State) (h : Hdr) (die : Nat), s.Admits h 0x0E01 (opObj 0x0E01 0) → s.hw.leadSt.length = 2 → die ≤ 1 →
    s.hw.ldState die = .faulted → ∃ t, exec (.leadCtrlRepair h die) s = .next t ∧ s.SameMem t ∧ t.statusOf h =
    some .deferred ∧ t.hw.repairWork.isSome ∧ t.hw.ldState die = .syncing) ∧
  (∀ (s : State) (h : Hdr), s.Admits h 0x0E01 (opObj 0x0E01 0) → s.hw.nvOk = true → s.hw.kennelWriting = none → ∃ t,
    exec (.leadCheckpoint h) s = .next t ∧ s.SameMem t ∧ t.statusOf h = some .deferred ∧ t.hw.ckptWork.isSome ∧
    t.hw.kennelWriting.isSome) ∧
  (∀ (s : State) (h : Hdr), s.Admits h 0x0E01 (opObj 0x0E01 0) → (s.hw.rd 0 A.reissue_count 0 ≠ 0 ∨ s.hw.rd 0 A.reissue_over 0 ≠
    0) → ∃ t, exec (.leadAck h) s = .next t ∧ s.SameMem t ∧ t.replyOf h = some .ok ∧ t.hw.rd 0 A.reissue_count 0 = 0 ∧
    t.hw.rd 0 A.reissue_over 0 = 0)

/-- The event recorder (R490 to R499). An event takes its place at the end of its die's front buffer, one without a token is
counted; the lead die numbers the oldest entry into the ring; the next entry is programmed; a bucket that has refilled and a
buffer with space again record what they kept; the recorder is read, and a limit set and read. -/
def Obligations.EventRowsComplete : Prop :=
  (∀ (s : State) (die code : Nat) (data : List Byte), die < s.hw.dies.length → ((s.hw.limit code).2 = 0 ∨ tokenUnit ≤
    (s.hw.bucket die code).level) → (fixedCode code = true ∨ s.hw.frontUsed die + 520 ≤ 8192) → ∃ t,
    exec (.eventRaise die code data) s = .next t ∧ s.SameMem t ∧ (∃ e : Evt, (t.hw.die die).front = (s.hw.die die).front ++
    [e] ∧ e.code = code ∧ e.die = die ∧ e.tb0 = s.hw.tb die 0 ∧ e.data = data.take 40)) ∧
  (∀ (s : State) (die code : Nat) (data : List Byte), die < s.hw.dies.length → (s.hw.limit code).2 ≠ 0 →
    (s.hw.bucket die code).level < tokenUnit → ∃ t, exec (.eventRaise die code data) s = .next t ∧ s.SameMem t ∧
    (t.hw.die die).front = (s.hw.die die).front ∧ t.hw.rd die A.suppressed 0 = (s.hw.rd die A.suppressed 0 + 1) % 2 ^ 32) ∧
  (∀ (s : State) (die l : Nat) (e : Evt) (rest : List Evt), die < s.hw.dies.length → s.hw.lead = some l → (s.hw.die die).front =
    e :: rest → s.hw.mode ≠ .safe → (die = l ∨ s.hw.frontUsed l + e.places ≤ 8192) → ∃ t, exec (.eventNumber die) s =
    .next t ∧ t.hw.ring = ((e.entries s.hw.evtNext).reverse ++ s.hw.ring).take 1048576 ∧ t.hw.evtNext = s.hw.evtNext +
    (e.entries s.hw.evtNext).length) ∧
  (∀ (s : State), s.hw.mode ≠ .safe → s.hw.nvOk = true → s.hw.evtDurable + 1 < s.hw.evtNext → ∃ t, exec (.eventProgram) s =
    .next t ∧ s.SameMem t ∧ s.hw.evtDurable < t.hw.evtDurable ∧ t.hw.evtDurable < s.hw.evtNext ∧ t.hw.rd 0 A.er_durable 0 =
    t.hw.evtDurable) ∧
  (∀ (s : State) (die code : Nat) (e : Evt), die < s.hw.dies.length → (s.hw.bucket die code).latest = some e →
    (s.hw.bucket die code).count ≠ 0 → (fixedCode code = true ∨ s.hw.frontUsed die + e.places + 512 ≤ 8192) → ∃ t,
    exec (.bucketRefillFlush die code) s = .next t ∧ s.SameMem t ∧ (t.hw.die die).front = (s.hw.die die).front ++
    [{ e with suppressed := satNat 0xFFFF ((s.hw.bucket die code).count - 1) }]) ∧
  (∀ (s : State) (die : Nat), die < s.hw.dies.length → (s.hw.die die).folded ≠ 0 → s.hw.frontUsed die + 513 ≤ 8192 → ∃ t,
    exec (.evtBacklog die) s = .next t ∧ s.SameMem t ∧ (t.hw.die die).folded = 0) ∧
  (∀ (s : State) (h : Hdr) (first count : Nat), s.Admits h 0x0E02 (opObj 0x0E02 0) → 1 ≤ count → count ≤ 7 → ∃ t,
    exec (.evtRead h first count) s = .next t ∧ s.SameMem t ∧ (t.replyOf h =
    some ⟨.ok, leBytes 8 (s.hw.rd 0 A.er_oldest 0) ++ leBytes 8 (s.hw.rd 0 A.er_newest 0) ++ (List.range count).flatMap fun i => (s.atWork h).entryAt (first + i)⟩)) ∧
  (∀ (s : State) (h : Hdr) (code rate burst : Nat), s.Admits h 0x0E03 (opObj 0x0E03 0) → rate ≠ 0 → fixedCode code = false →
    s.hw.nvOk = true → ∃ t, exec (.evtLimitSet h code rate burst) s = .next t ∧ s.SameMem t ∧ t.replyOf h = some .ok ∧
    t.hw.limit code = (rate, burst)) ∧
  (∀ (s : State) (h : Hdr) (code : Nat), s.Admits h 0x0E03 (opObj 0x0E03 0) → ∃ t, exec (.evtLimitGet h code) s = .next t ∧
    s.SameMem t ∧ t.replyOf h = some (.words [(s.hw.limit code).1 * 2 ^ 16 + (s.hw.limit code).2]))

/-- R474: when the service becomes visible in the cycle of the expiry, the expiry does nothing: the lead role stays where it
is, and so does everything else. -/
def Obligations.WatchdogServiceCounts : Prop :=
  ∀ (s : State) (die : Nat), die < s.hw.dies.length → ∃ t, exec (.watchdogExpiry die true) s = .next t ∧ t.hw = s.begun ∧
    t.hw.lead = s.hw.lead ∧ t.hw.takeover = s.hw.takeover ∧ s.SameMem t

/-- R346: after a refresh of a chain in RUN or LOST, the level sent that each entry of its drivers records is 0 when ENABLE is
clear or req is 0, and otherwise the smaller of cal_max and the floor of req × cal_gain ÷ 2^22 plus cal_offset. -/
def Obligations.LampLevelSent : Prop :=
  ∀ (s : State) (die chain : Nat) (bad : List Nat), die < s.hw.dies.length → chain < 4 →
    (s.hw.rd die A.chain_state chain = chRUN ∨ s.hw.rd die A.chain_state chain = chLOST) →
    ∃ t, exec (.chainRefresh die chain bad) s = .next t ∧ ∀ x ∈ (t.hw.die die).lamps, 2048 * chain ≤ x.1 →
      x.1 < 2048 * chain + 4 * s.hw.rd die A.chain_drivers chain →
      x.2.level = if bit x.2.w1 0 = false ∨ bits x.2.w0 31 16 = 0 then 0
        else min (bits x.2.w1 21 12) (bits x.2.w0 31 16 * bits x.2.w0 15 0 / 2 ^ 22 + bits x.2.w1 31 22)

/-- R70: in an open session a DATA of 1 to 228 bytes at the byte count received so far is taken and its bytes follow those
received, one that repeats the previous offset and length is accepted and changes nothing of the session, and any other offset
answers RANGE and changes nothing of the session. -/
def Obligations.FirmwareDataOffsets : Prop :=
  ∀ (s : State) (h : Hdr) (off : Nat) (data : List Byte) (f : FwSession), s.Admits h 0x0F20 (opObj 0x0F20 0) → s.hw.fw = some f →
    f.src = srcOf h.origin → f.ended = false → 1 ≤ data.length → data.length ≤ 228 →
    (off = f.received → ¬(f.lastLen = data.length ∧ f.lastOff = off) → off + data.length ≤ f.size → s.hw.nvOk = true →
      ∃ t, exec (.fwData h off data) s = .next t ∧ t.replyOf h = some .ok ∧
        ∃ g, t.hw.fw = some g ∧ g.received = f.received + data.length ∧ g.data = f.data ++ data) ∧
    (f.lastLen = data.length ∧ f.lastOff = off →
      ∃ t, exec (.fwData h off data) s = .next t ∧ t.replyOf h = some .ok ∧ t.hw.fw = some f) ∧
    (off ≠ f.received → ¬(f.lastLen = data.length ∧ f.lastOff = off) →
      ∃ t, exec (.fwData h off data) s = .next t ∧ t.statusOf h = some .range ∧ t.hw.fw = some f)

/-- R93: a pop of an enabled queue that is EMPTY gives the last word popped, sets UNDERRUN and moves neither `rd` nor the last
word; QUEUE_CTRL ENABLE leaves the last word popped 0; a pop that is not EMPTY makes its word the last word popped. -/
def Obligations.PopWhileEmpty : Prop :=
  (∀ (h : Hw) (ms : List (List Host.Cell)) (d i : Nat), d < h.dies.length → i < (h.die d).queues.length →
    (h.q d i).enabled = true → (h.q d i).empty = true → (h.qPop ms d i).1 = (h.q d i).last ∧
      ((h.qPop ms d i).2.q d i).sticky.testBit 0 = true ∧ ((h.qPop ms d i).2.q d i).rd = (h.q d i).rd ∧
      ((h.qPop ms d i).2.q d i).last = (h.q d i).last) ∧
  (∀ (h : Hw) (ms : List (List Host.Cell)) (d i : Nat), d < h.dies.length → i < (h.die d).queues.length →
    (h.q d i).enabled = true → (h.q d i).empty = false → ((h.qPop ms d i).2.q d i).last = (h.qPop ms d i).1) ∧
  (∀ (s : State) (h : Hdr) (i : Nat) (bad : List Nat), s.Admits h 0x0102 (opObj 0x0102 i) → i < 63 →
    i < (s.hw.die h.die).queues.length → (s.atWork h).enableFail s.mems h.die bad [] [i] = none →
    ∃ t, exec (.queueEnable h i 1 bad) s = .next t ∧ (t.hw.q h.die i).enabled = true ∧ (t.hw.q h.die i).last = 0)

/-- R80: an occurrence of CONFIG_CHANGE or SOURCE_SEEN always enters its die's front buffer and adds nothing to the count of
suppressed events, and EVT_LIMIT SET of either code answers STATE and changes no limit. -/
def Obligations.ConfigRecordsAreNeverLimited : Prop :=
  (∀ (s : State) (die code : Nat) (data : List Byte), die < s.hw.dies.length → code = 0x0020 ∨ code = 0x0021 →
    (s.hw.limits.find? fun l => l.code = code) = none → ∃ t, exec (.eventRaise die code data) s = .next t ∧
      (∃ e : Evt, (t.hw.die die).front = (s.hw.die die).front ++ [e] ∧ e.code = code ∧ e.die = die ∧ e.data = data.take 40) ∧
      t.hw.rd die A.suppressed 0 = s.hw.rd die A.suppressed 0 ∧ (t.hw.die die).folded = (s.hw.die die).folded) ∧
  (∀ (s : State) (h : Hdr) (code rate burst : Nat), s.Admits h 0x0E03 (opObj 0x0E03 0) → code = 0x0020 ∨ code = 0x0021 → rate ≠ 0 →
    ∃ t, exec (.evtLimitSet h code rate burst) s = .next t ∧ t.statusOf h = some .state ∧ t.hw.limits = s.hw.limits)

/-- R81: a boot from power-on, after a rail fault or after a clock fault fixes the level: BL1 with strap BL_SEL (strap bit 0)
high, otherwise the level in `bl_nv`, BL2 when it is 0; a command whose frame does not name the level (every command that
starts no boot) leaves it. -/
def Obligations.BehaviourLevelChosenAtBoot : Prop :=
  (∀ (s : State) (straps alive : Nat), s.hw.porst = true → ∃ t, exec (.porstRise straps 1023 alive) s = .next t ∧
    t.hw.bl = if straps.testBit 0 then 1 else if s.hw.rd 0 A.bl_nv 0 = 0 then 2 else s.hw.rd 0 A.bl_nv 0) ∧
  (∀ (s : State) (straps : Nat), s.hw.porst = false → s.hw.railFault = true → s.hw.clkFault = false →
    ∃ t, exec (.railGood straps) s = .next t ∧
      t.hw.bl = if straps.testBit 0 then 1 else if s.hw.rd 0 A.bl_nv 0 = 0 then 2 else s.hw.rd 0 A.bl_nv 0) ∧
  (∀ (s : State) (straps gap : Nat), s.hw.porst = false → s.hw.railFault = false → s.hw.clkFault = true →
    ∃ t, exec (.clockGood straps gap) s = .next t ∧
      t.hw.bl = if straps.testBit 0 then 1 else if s.hw.rd 0 A.bl_nv 0 = 0 then 2 else s.hw.rd 0 A.bl_nv 0) ∧
  (∀ (c : Instr) (T : Touch) (s t : State), Instr.touches c = some T → .bl ∉ T.pkg → exec c s = .next t → t.hw.bl = s.hw.bl)

/-- R494: a power-on reset drops the entries above the last one programmed and the next number is the one after it; a
confirmed boot from power-on (with no script to run) puts EVT_RESTART into the ring first, with the number of the last entry
programmed. -/
def Obligations.EventsLostAtPowerOn : Prop :=
  (∀ s : State, ∃ t, exec .porstLLow s = .next t ∧ t.hw.ring = s.hw.ring.filter (fun e => e.seq ≤ s.hw.evtDurable) ∧
    t.hw.evtDurable = s.hw.evtDurable ∧ t.hw.evtNext = s.hw.evtDurable + 1) ∧
  (∀ (s : State) (ms b i : Nat), s.hw.bootWatch = true → s.hw.bootDie (fun h d => (h.die d).up) = some b → s.hw.fwBooted = some i →
    s.hw.rd 0 A.gh_script_len 0 = 0 → s.hw.rd b A.reset_cause 0 = Cause.code .por → ∃ t, exec (.bootConfirm ms) s = .next t ∧
      ∃ e : Evt, e.code = Ev.evtRestart ∧ e.data = leBytes 8 s.hw.evtDurable ∧
        t.hw.ring = ((e.entries s.hw.evtNext).reverse ++ s.hw.ring).take 1048576)
end

