-- ==== Sys2Proof/Laws/State.lean ====
section
/-!
SUPPORT. The records of the state under the primitive updates: one lemma for each field that an update leaves, so that no
proof unfolds a record update.
-/
namespace Sys2Proof.Machine

/-! ### `Hw.wrk` -/

@[simp] theorem Hw.wrk_blks (h : Hw) (k : RegKey) (v : Nat) : (h.wrk k v).blks = h.blks := rfl
@[simp] theorem Hw.wrk_stages (h : Hw) (k : RegKey) (v : Nat) : (h.wrk k v).stages = h.stages := rfl
@[simp] theorem Hw.wrk_clk (h : Hw) (k : RegKey) (v : Nat) : (h.wrk k v).clk = h.clk := rfl
@[simp] theorem Hw.wrk_free (h : Hw) (k : RegKey) (v : Nat) : (h.wrk k v).free = h.free := rfl
@[simp] theorem Hw.wrk_nextId (h : Hw) (k : RegKey) (v : Nat) : (h.wrk k v).nextId = h.nextId := rfl
@[simp] theorem Hw.wrk_replies (h : Hw) (k : RegKey) (v : Nat) : (h.wrk k v).replies = h.replies := rfl
@[simp] theorem Hw.wrk_bl (h : Hw) (k : RegKey) (v : Nat) : (h.wrk k v).bl = h.bl := rfl
@[simp] theorem Hw.wrk_mode (h : Hw) (k : RegKey) (v : Nat) : (h.wrk k v).mode = h.mode := rfl
@[simp] theorem Hw.wrk_lead (h : Hw) (k : RegKey) (v : Nat) : (h.wrk k v).lead = h.lead := rfl
@[simp] theorem Hw.wrk_leadSt (h : Hw) (k : RegKey) (v : Nat) : (h.wrk k v).leadSt = h.leadSt := rfl
@[simp] theorem Hw.wrk_takeover (h : Hw) (k : RegKey) (v : Nat) : (h.wrk k v).takeover = h.takeover := rfl
@[simp] theorem Hw.wrk_kennel (h : Hw) (k : RegKey) (v : Nat) : (h.wrk k v).kennel = h.kennel := rfl
@[simp] theorem Hw.wrk_pkg (h : Hw) (k : RegKey) (v : Nat) : (h.wrk k v).pkg = h.pkg := rfl
@[simp] theorem Hw.wrk_faultMask (h : Hw) (k : RegKey) (v : Nat) : (h.wrk k v).faultMask = h.faultMask := rfl
@[simp] theorem Hw.wrk_ring (h : Hw) (k : RegKey) (v : Nat) : (h.wrk k v).ring = h.ring := rfl
@[simp] theorem Hw.wrk_evtNext (h : Hw) (k : RegKey) (v : Nat) : (h.wrk k v).evtNext = h.evtNext := rfl
@[simp] theorem Hw.wrk_evtDurable (h : Hw) (k : RegKey) (v : Nat) : (h.wrk k v).evtDurable = h.evtDurable := rfl
@[simp] theorem Hw.wrk_limits (h : Hw) (k : RegKey) (v : Nat) : (h.wrk k v).limits = h.limits := rfl
@[simp] theorem Hw.wrk_fwSlots (h : Hw) (k : RegKey) (v : Nat) : (h.wrk k v).fwSlots = h.fwSlots := rfl
@[simp] theorem Hw.wrk_fw (h : Hw) (k : RegKey) (v : Nat) : (h.wrk k v).fw = h.fw := rfl
@[simp] theorem Hw.wrk_fwBooted (h : Hw) (k : RegKey) (v : Nat) : (h.wrk k v).fwBooted = h.fwBooted := rfl
@[simp] theorem Hw.wrk_eps (h : Hw) (k : RegKey) (v : Nat) : (h.wrk k v).eps = h.eps := rfl
@[simp] theorem Hw.wrk_tunnels (h : Hw) (k : RegKey) (v : Nat) : (h.wrk k v).tunnels = h.tunnels := rfl
@[simp] theorem Hw.wrk_hsIn (h : Hw) (k : RegKey) (v : Nat) : (h.wrk k v).hsIn = h.hsIn := rfl
@[simp] theorem Hw.wrk_hostedWait (h : Hw) (k : RegKey) (v : Nat) : (h.wrk k v).hostedWait = h.hostedWait := rfl
@[simp] theorem Hw.wrk_porst (h : Hw) (k : RegKey) (v : Nat) : (h.wrk k v).porst = h.porst := rfl
@[simp] theorem Hw.wrk_railFault (h : Hw) (k : RegKey) (v : Nat) : (h.wrk k v).railFault = h.railFault := rfl
@[simp] theorem Hw.wrk_clkFault (h : Hw) (k : RegKey) (v : Nat) : (h.wrk k v).clkFault = h.clkFault := rfl
@[simp] theorem Hw.wrk_hsForce (h : Hw) (k : RegKey) (v : Nat) : (h.wrk k v).hsForce = h.hsForce := rfl
@[simp] theorem Hw.wrk_hsPins (h : Hw) (k : RegKey) (v : Nat) : (h.wrk k v).hsPins = h.hsPins := rfl
@[simp] theorem Hw.wrk_hsOn (h : Hw) (k : RegKey) (v : Nat) : (h.wrk k v).hsOn = h.hsOn := rfl
@[simp] theorem Hw.wrk_gh (h : Hw) (k : RegKey) (v : Nat) : (h.wrk k v).gh = h.gh := rfl
@[simp] theorem Hw.wrk_stores (h : Hw) (k : RegKey) (v : Nat) : (h.wrk k v).stores = h.stores := rfl
@[simp] theorem Hw.wrk_wipes (h : Hw) (k : RegKey) (v : Nat) : (h.wrk k v).wipes = h.wipes := rfl
@[simp] theorem Hw.wrk_out (h : Hw) (k : RegKey) (v : Nat) : (h.wrk k v).out = h.out := rfl
@[simp] theorem Hw.wrk_dies (h : Hw) (k : RegKey) (v : Nat) : (h.wrk k v).dies = h.dies := rfl

/-! ### `Hw.wr` -/

@[simp] theorem Hw.wr_blks (h : Hw) (d : Nat) (a : AttrId) (i v : Nat) : (h.wr d a i v).blks = h.blks := rfl
@[simp] theorem Hw.wr_stages (h : Hw) (d : Nat) (a : AttrId) (i v : Nat) : (h.wr d a i v).stages = h.stages := rfl
@[simp] theorem Hw.wr_clk (h : Hw) (d : Nat) (a : AttrId) (i v : Nat) : (h.wr d a i v).clk = h.clk := rfl
@[simp] theorem Hw.wr_free (h : Hw) (d : Nat) (a : AttrId) (i v : Nat) : (h.wr d a i v).free = h.free := rfl
@[simp] theorem Hw.wr_nextId (h : Hw) (d : Nat) (a : AttrId) (i v : Nat) : (h.wr d a i v).nextId = h.nextId := rfl
@[simp] theorem Hw.wr_replies (h : Hw) (d : Nat) (a : AttrId) (i v : Nat) : (h.wr d a i v).replies = h.replies := rfl
@[simp] theorem Hw.wr_bl (h : Hw) (d : Nat) (a : AttrId) (i v : Nat) : (h.wr d a i v).bl = h.bl := rfl
@[simp] theorem Hw.wr_mode (h : Hw) (d : Nat) (a : AttrId) (i v : Nat) : (h.wr d a i v).mode = h.mode := rfl
@[simp] theorem Hw.wr_lead (h : Hw) (d : Nat) (a : AttrId) (i v : Nat) : (h.wr d a i v).lead = h.lead := rfl
@[simp] theorem Hw.wr_leadSt (h : Hw) (d : Nat) (a : AttrId) (i v : Nat) : (h.wr d a i v).leadSt = h.leadSt := rfl
@[simp] theorem Hw.wr_takeover (h : Hw) (d : Nat) (a : AttrId) (i v : Nat) : (h.wr d a i v).takeover = h.takeover := rfl
@[simp] theorem Hw.wr_kennel (h : Hw) (d : Nat) (a : AttrId) (i v : Nat) : (h.wr d a i v).kennel = h.kennel := rfl
@[simp] theorem Hw.wr_pkg (h : Hw) (d : Nat) (a : AttrId) (i v : Nat) : (h.wr d a i v).pkg = h.pkg := rfl
@[simp] theorem Hw.wr_faultMask (h : Hw) (d : Nat) (a : AttrId) (i v : Nat) : (h.wr d a i v).faultMask = h.faultMask := rfl
@[simp] theorem Hw.wr_ring (h : Hw) (d : Nat) (a : AttrId) (i v : Nat) : (h.wr d a i v).ring = h.ring := rfl
@[simp] theorem Hw.wr_evtNext (h : Hw) (d : Nat) (a : AttrId) (i v : Nat) : (h.wr d a i v).evtNext = h.evtNext := rfl
@[simp] theorem Hw.wr_evtDurable (h : Hw) (d : Nat) (a : AttrId) (i v : Nat) : (h.wr d a i v).evtDurable = h.evtDurable := rfl
@[simp] theorem Hw.wr_limits (h : Hw) (d : Nat) (a : AttrId) (i v : Nat) : (h.wr d a i v).limits = h.limits := rfl
@[simp] theorem Hw.wr_fwSlots (h : Hw) (d : Nat) (a : AttrId) (i v : Nat) : (h.wr d a i v).fwSlots = h.fwSlots := rfl
@[simp] theorem Hw.wr_fw (h : Hw) (d : Nat) (a : AttrId) (i v : Nat) : (h.wr d a i v).fw = h.fw := rfl
@[simp] theorem Hw.wr_fwBooted (h : Hw) (d : Nat) (a : AttrId) (i v : Nat) : (h.wr d a i v).fwBooted = h.fwBooted := rfl
@[simp] theorem Hw.wr_eps (h : Hw) (d : Nat) (a : AttrId) (i v : Nat) : (h.wr d a i v).eps = h.eps := rfl
@[simp] theorem Hw.wr_tunnels (h : Hw) (d : Nat) (a : AttrId) (i v : Nat) : (h.wr d a i v).tunnels = h.tunnels := rfl
@[simp] theorem Hw.wr_hsIn (h : Hw) (d : Nat) (a : AttrId) (i v : Nat) : (h.wr d a i v).hsIn = h.hsIn := rfl
@[simp] theorem Hw.wr_hostedWait (h : Hw) (d : Nat) (a : AttrId) (i v : Nat) : (h.wr d a i v).hostedWait = h.hostedWait := rfl
@[simp] theorem Hw.wr_porst (h : Hw) (d : Nat) (a : AttrId) (i v : Nat) : (h.wr d a i v).porst = h.porst := rfl
@[simp] theorem Hw.wr_railFault (h : Hw) (d : Nat) (a : AttrId) (i v : Nat) : (h.wr d a i v).railFault = h.railFault := rfl
@[simp] theorem Hw.wr_clkFault (h : Hw) (d : Nat) (a : AttrId) (i v : Nat) : (h.wr d a i v).clkFault = h.clkFault := rfl
@[simp] theorem Hw.wr_hsForce (h : Hw) (d : Nat) (a : AttrId) (i v : Nat) : (h.wr d a i v).hsForce = h.hsForce := rfl
@[simp] theorem Hw.wr_hsPins (h : Hw) (d : Nat) (a : AttrId) (i v : Nat) : (h.wr d a i v).hsPins = h.hsPins := rfl
@[simp] theorem Hw.wr_hsOn (h : Hw) (d : Nat) (a : AttrId) (i v : Nat) : (h.wr d a i v).hsOn = h.hsOn := rfl
@[simp] theorem Hw.wr_gh (h : Hw) (d : Nat) (a : AttrId) (i v : Nat) : (h.wr d a i v).gh = h.gh := rfl
@[simp] theorem Hw.wr_stores (h : Hw) (d : Nat) (a : AttrId) (i v : Nat) : (h.wr d a i v).stores = h.stores := rfl
@[simp] theorem Hw.wr_wipes (h : Hw) (d : Nat) (a : AttrId) (i v : Nat) : (h.wr d a i v).wipes = h.wipes := rfl
@[simp] theorem Hw.wr_out (h : Hw) (d : Nat) (a : AttrId) (i v : Nat) : (h.wr d a i v).out = h.out := rfl
@[simp] theorem Hw.wr_dies (h : Hw) (d : Nat) (a : AttrId) (i v : Nat) : (h.wr d a i v).dies = h.dies := rfl

/-! ### `Hw.wrS` -/

@[simp] theorem Hw.wrS_blks (h : Hw) (d : Nat) (a : AttrId) (i w : Nat) (v : Int) : (h.wrS d a i w v).blks = h.blks := rfl
@[simp] theorem Hw.wrS_stages (h : Hw) (d : Nat) (a : AttrId) (i w : Nat) (v : Int) : (h.wrS d a i w v).stages = h.stages := rfl
@[simp] theorem Hw.wrS_clk (h : Hw) (d : Nat) (a : AttrId) (i w : Nat) (v : Int) : (h.wrS d a i w v).clk = h.clk := rfl
@[simp] theorem Hw.wrS_free (h : Hw) (d : Nat) (a : AttrId) (i w : Nat) (v : Int) : (h.wrS d a i w v).free = h.free := rfl
@[simp] theorem Hw.wrS_nextId (h : Hw) (d : Nat) (a : AttrId) (i w : Nat) (v : Int) : (h.wrS d a i w v).nextId = h.nextId := rfl
@[simp] theorem Hw.wrS_replies (h : Hw) (d : Nat) (a : AttrId) (i w : Nat) (v : Int) : (h.wrS d a i w v).replies = h.replies := rfl
@[simp] theorem Hw.wrS_bl (h : Hw) (d : Nat) (a : AttrId) (i w : Nat) (v : Int) : (h.wrS d a i w v).bl = h.bl := rfl
@[simp] theorem Hw.wrS_mode (h : Hw) (d : Nat) (a : AttrId) (i w : Nat) (v : Int) : (h.wrS d a i w v).mode = h.mode := rfl
@[simp] theorem Hw.wrS_lead (h : Hw) (d : Nat) (a : AttrId) (i w : Nat) (v : Int) : (h.wrS d a i w v).lead = h.lead := rfl
@[simp] theorem Hw.wrS_leadSt (h : Hw) (d : Nat) (a : AttrId) (i w : Nat) (v : Int) : (h.wrS d a i w v).leadSt = h.leadSt := rfl
@[simp] theorem Hw.wrS_takeover (h : Hw) (d : Nat) (a : AttrId) (i w : Nat) (v : Int) : (h.wrS d a i w v).takeover = h.takeover := rfl
@[simp] theorem Hw.wrS_kennel (h : Hw) (d : Nat) (a : AttrId) (i w : Nat) (v : Int) : (h.wrS d a i w v).kennel = h.kennel := rfl
@[simp] theorem Hw.wrS_pkg (h : Hw) (d : Nat) (a : AttrId) (i w : Nat) (v : Int) : (h.wrS d a i w v).pkg = h.pkg := rfl
@[simp] theorem Hw.wrS_faultMask (h : Hw) (d : Nat) (a : AttrId) (i w : Nat) (v : Int) : (h.wrS d a i w v).faultMask = h.faultMask := rfl
@[simp] theorem Hw.wrS_ring (h : Hw) (d : Nat) (a : AttrId) (i w : Nat) (v : Int) : (h.wrS d a i w v).ring = h.ring := rfl
@[simp] theorem Hw.wrS_evtNext (h : Hw) (d : Nat) (a : AttrId) (i w : Nat) (v : Int) : (h.wrS d a i w v).evtNext = h.evtNext := rfl
@[simp] theorem Hw.wrS_evtDurable (h : Hw) (d : Nat) (a : AttrId) (i w : Nat) (v : Int) : (h.wrS d a i w v).evtDurable = h.evtDurable := rfl
@[simp] theorem Hw.wrS_limits (h : Hw) (d : Nat) (a : AttrId) (i w : Nat) (v : Int) : (h.wrS d a i w v).limits = h.limits := rfl
@[simp] theorem Hw.wrS_fwSlots (h : Hw) (d : Nat) (a : AttrId) (i w : Nat) (v : Int) : (h.wrS d a i w v).fwSlots = h.fwSlots := rfl
@[simp] theorem Hw.wrS_fw (h : Hw) (d : Nat) (a : AttrId) (i w : Nat) (v : Int) : (h.wrS d a i w v).fw = h.fw := rfl
@[simp] theorem Hw.wrS_fwBooted (h : Hw) (d : Nat) (a : AttrId) (i w : Nat) (v : Int) : (h.wrS d a i w v).fwBooted = h.fwBooted := rfl
@[simp] theorem Hw.wrS_eps (h : Hw) (d : Nat) (a : AttrId) (i w : Nat) (v : Int) : (h.wrS d a i w v).eps = h.eps := rfl
@[simp] theorem Hw.wrS_tunnels (h : Hw) (d : Nat) (a : AttrId) (i w : Nat) (v : Int) : (h.wrS d a i w v).tunnels = h.tunnels := rfl
@[simp] theorem Hw.wrS_hsIn (h : Hw) (d : Nat) (a : AttrId) (i w : Nat) (v : Int) : (h.wrS d a i w v).hsIn = h.hsIn := rfl
@[simp] theorem Hw.wrS_hostedWait (h : Hw) (d : Nat) (a : AttrId) (i w : Nat) (v : Int) : (h.wrS d a i w v).hostedWait = h.hostedWait := rfl
@[simp] theorem Hw.wrS_porst (h : Hw) (d : Nat) (a : AttrId) (i w : Nat) (v : Int) : (h.wrS d a i w v).porst = h.porst := rfl
@[simp] theorem Hw.wrS_railFault (h : Hw) (d : Nat) (a : AttrId) (i w : Nat) (v : Int) : (h.wrS d a i w v).railFault = h.railFault := rfl
@[simp] theorem Hw.wrS_clkFault (h : Hw) (d : Nat) (a : AttrId) (i w : Nat) (v : Int) : (h.wrS d a i w v).clkFault = h.clkFault := rfl
@[simp] theorem Hw.wrS_hsForce (h : Hw) (d : Nat) (a : AttrId) (i w : Nat) (v : Int) : (h.wrS d a i w v).hsForce = h.hsForce := rfl
@[simp] theorem Hw.wrS_hsPins (h : Hw) (d : Nat) (a : AttrId) (i w : Nat) (v : Int) : (h.wrS d a i w v).hsPins = h.hsPins := rfl
@[simp] theorem Hw.wrS_hsOn (h : Hw) (d : Nat) (a : AttrId) (i w : Nat) (v : Int) : (h.wrS d a i w v).hsOn = h.hsOn := rfl
@[simp] theorem Hw.wrS_gh (h : Hw) (d : Nat) (a : AttrId) (i w : Nat) (v : Int) : (h.wrS d a i w v).gh = h.gh := rfl
@[simp] theorem Hw.wrS_stores (h : Hw) (d : Nat) (a : AttrId) (i w : Nat) (v : Int) : (h.wrS d a i w v).stores = h.stores := rfl
@[simp] theorem Hw.wrS_wipes (h : Hw) (d : Nat) (a : AttrId) (i w : Nat) (v : Int) : (h.wrS d a i w v).wipes = h.wipes := rfl
@[simp] theorem Hw.wrS_out (h : Hw) (d : Nat) (a : AttrId) (i w : Nat) (v : Int) : (h.wrS d a i w v).out = h.out := rfl
@[simp] theorem Hw.wrS_dies (h : Hw) (d : Nat) (a : AttrId) (i w : Nat) (v : Int) : (h.wrS d a i w v).dies = h.dies := rfl

/-! ### `Hw.add` -/

@[simp] theorem Hw.add_blks (h : Hw) (d : Nat) (a : AttrId) (i n : Nat) : (h.add d a i n).blks = h.blks := rfl
@[simp] theorem Hw.add_stages (h : Hw) (d : Nat) (a : AttrId) (i n : Nat) : (h.add d a i n).stages = h.stages := rfl
@[simp] theorem Hw.add_clk (h : Hw) (d : Nat) (a : AttrId) (i n : Nat) : (h.add d a i n).clk = h.clk := rfl
@[simp] theorem Hw.add_free (h : Hw) (d : Nat) (a : AttrId) (i n : Nat) : (h.add d a i n).free = h.free := rfl
@[simp] theorem Hw.add_nextId (h : Hw) (d : Nat) (a : AttrId) (i n : Nat) : (h.add d a i n).nextId = h.nextId := rfl
@[simp] theorem Hw.add_replies (h : Hw) (d : Nat) (a : AttrId) (i n : Nat) : (h.add d a i n).replies = h.replies := rfl
@[simp] theorem Hw.add_bl (h : Hw) (d : Nat) (a : AttrId) (i n : Nat) : (h.add d a i n).bl = h.bl := rfl
@[simp] theorem Hw.add_mode (h : Hw) (d : Nat) (a : AttrId) (i n : Nat) : (h.add d a i n).mode = h.mode := rfl
@[simp] theorem Hw.add_lead (h : Hw) (d : Nat) (a : AttrId) (i n : Nat) : (h.add d a i n).lead = h.lead := rfl
@[simp] theorem Hw.add_leadSt (h : Hw) (d : Nat) (a : AttrId) (i n : Nat) : (h.add d a i n).leadSt = h.leadSt := rfl
@[simp] theorem Hw.add_takeover (h : Hw) (d : Nat) (a : AttrId) (i n : Nat) : (h.add d a i n).takeover = h.takeover := rfl
@[simp] theorem Hw.add_kennel (h : Hw) (d : Nat) (a : AttrId) (i n : Nat) : (h.add d a i n).kennel = h.kennel := rfl
@[simp] theorem Hw.add_pkg (h : Hw) (d : Nat) (a : AttrId) (i n : Nat) : (h.add d a i n).pkg = h.pkg := rfl
@[simp] theorem Hw.add_faultMask (h : Hw) (d : Nat) (a : AttrId) (i n : Nat) : (h.add d a i n).faultMask = h.faultMask := rfl
@[simp] theorem Hw.add_ring (h : Hw) (d : Nat) (a : AttrId) (i n : Nat) : (h.add d a i n).ring = h.ring := rfl
@[simp] theorem Hw.add_evtNext (h : Hw) (d : Nat) (a : AttrId) (i n : Nat) : (h.add d a i n).evtNext = h.evtNext := rfl
@[simp] theorem Hw.add_evtDurable (h : Hw) (d : Nat) (a : AttrId) (i n : Nat) : (h.add d a i n).evtDurable = h.evtDurable := rfl
@[simp] theorem Hw.add_limits (h : Hw) (d : Nat) (a : AttrId) (i n : Nat) : (h.add d a i n).limits = h.limits := rfl
@[simp] theorem Hw.add_fwSlots (h : Hw) (d : Nat) (a : AttrId) (i n : Nat) : (h.add d a i n).fwSlots = h.fwSlots := rfl
@[simp] theorem Hw.add_fw (h : Hw) (d : Nat) (a : AttrId) (i n : Nat) : (h.add d a i n).fw = h.fw := rfl
@[simp] theorem Hw.add_fwBooted (h : Hw) (d : Nat) (a : AttrId) (i n : Nat) : (h.add d a i n).fwBooted = h.fwBooted := rfl
@[simp] theorem Hw.add_eps (h : Hw) (d : Nat) (a : AttrId) (i n : Nat) : (h.add d a i n).eps = h.eps := rfl
@[simp] theorem Hw.add_tunnels (h : Hw) (d : Nat) (a : AttrId) (i n : Nat) : (h.add d a i n).tunnels = h.tunnels := rfl
@[simp] theorem Hw.add_hsIn (h : Hw) (d : Nat) (a : AttrId) (i n : Nat) : (h.add d a i n).hsIn = h.hsIn := rfl
@[simp] theorem Hw.add_hostedWait (h : Hw) (d : Nat) (a : AttrId) (i n : Nat) : (h.add d a i n).hostedWait = h.hostedWait := rfl
@[simp] theorem Hw.add_porst (h : Hw) (d : Nat) (a : AttrId) (i n : Nat) : (h.add d a i n).porst = h.porst := rfl
@[simp] theorem Hw.add_railFault (h : Hw) (d : Nat) (a : AttrId) (i n : Nat) : (h.add d a i n).railFault = h.railFault := rfl
@[simp] theorem Hw.add_clkFault (h : Hw) (d : Nat) (a : AttrId) (i n : Nat) : (h.add d a i n).clkFault = h.clkFault := rfl
@[simp] theorem Hw.add_hsForce (h : Hw) (d : Nat) (a : AttrId) (i n : Nat) : (h.add d a i n).hsForce = h.hsForce := rfl
@[simp] theorem Hw.add_hsPins (h : Hw) (d : Nat) (a : AttrId) (i n : Nat) : (h.add d a i n).hsPins = h.hsPins := rfl
@[simp] theorem Hw.add_hsOn (h : Hw) (d : Nat) (a : AttrId) (i n : Nat) : (h.add d a i n).hsOn = h.hsOn := rfl
@[simp] theorem Hw.add_gh (h : Hw) (d : Nat) (a : AttrId) (i n : Nat) : (h.add d a i n).gh = h.gh := rfl
@[simp] theorem Hw.add_stores (h : Hw) (d : Nat) (a : AttrId) (i n : Nat) : (h.add d a i n).stores = h.stores := rfl
@[simp] theorem Hw.add_wipes (h : Hw) (d : Nat) (a : AttrId) (i n : Nat) : (h.add d a i n).wipes = h.wipes := rfl
@[simp] theorem Hw.add_out (h : Hw) (d : Nat) (a : AttrId) (i n : Nat) : (h.add d a i n).out = h.out := rfl
@[simp] theorem Hw.add_dies (h : Hw) (d : Nat) (a : AttrId) (i n : Nat) : (h.add d a i n).dies = h.dies := rfl

/-! ### `Hw.setBlk` -/

@[simp] theorem Hw.setBlk_stages (h : Hw) (k : RegKey) (b : List Byte) : (h.setBlk k b).stages = h.stages := rfl
@[simp] theorem Hw.setBlk_clk (h : Hw) (k : RegKey) (b : List Byte) : (h.setBlk k b).clk = h.clk := rfl
@[simp] theorem Hw.setBlk_free (h : Hw) (k : RegKey) (b : List Byte) : (h.setBlk k b).free = h.free := rfl
@[simp] theorem Hw.setBlk_nextId (h : Hw) (k : RegKey) (b : List Byte) : (h.setBlk k b).nextId = h.nextId := rfl
@[simp] theorem Hw.setBlk_replies (h : Hw) (k : RegKey) (b : List Byte) : (h.setBlk k b).replies = h.replies := rfl
@[simp] theorem Hw.setBlk_bl (h : Hw) (k : RegKey) (b : List Byte) : (h.setBlk k b).bl = h.bl := rfl
@[simp] theorem Hw.setBlk_mode (h : Hw) (k : RegKey) (b : List Byte) : (h.setBlk k b).mode = h.mode := rfl
@[simp] theorem Hw.setBlk_lead (h : Hw) (k : RegKey) (b : List Byte) : (h.setBlk k b).lead = h.lead := rfl
@[simp] theorem Hw.setBlk_leadSt (h : Hw) (k : RegKey) (b : List Byte) : (h.setBlk k b).leadSt = h.leadSt := rfl
@[simp] theorem Hw.setBlk_takeover (h : Hw) (k : RegKey) (b : List Byte) : (h.setBlk k b).takeover = h.takeover := rfl
@[simp] theorem Hw.setBlk_kennel (h : Hw) (k : RegKey) (b : List Byte) : (h.setBlk k b).kennel = h.kennel := rfl
@[simp] theorem Hw.setBlk_pkg (h : Hw) (k : RegKey) (b : List Byte) : (h.setBlk k b).pkg = h.pkg := rfl
@[simp] theorem Hw.setBlk_faultMask (h : Hw) (k : RegKey) (b : List Byte) : (h.setBlk k b).faultMask = h.faultMask := rfl
@[simp] theorem Hw.setBlk_ring (h : Hw) (k : RegKey) (b : List Byte) : (h.setBlk k b).ring = h.ring := rfl
@[simp] theorem Hw.setBlk_evtNext (h : Hw) (k : RegKey) (b : List Byte) : (h.setBlk k b).evtNext = h.evtNext := rfl
@[simp] theorem Hw.setBlk_evtDurable (h : Hw) (k : RegKey) (b : List Byte) : (h.setBlk k b).evtDurable = h.evtDurable := rfl
@[simp] theorem Hw.setBlk_limits (h : Hw) (k : RegKey) (b : List Byte) : (h.setBlk k b).limits = h.limits := rfl
@[simp] theorem Hw.setBlk_fwSlots (h : Hw) (k : RegKey) (b : List Byte) : (h.setBlk k b).fwSlots = h.fwSlots := rfl
@[simp] theorem Hw.setBlk_fw (h : Hw) (k : RegKey) (b : List Byte) : (h.setBlk k b).fw = h.fw := rfl
@[simp] theorem Hw.setBlk_fwBooted (h : Hw) (k : RegKey) (b : List Byte) : (h.setBlk k b).fwBooted = h.fwBooted := rfl
@[simp] theorem Hw.setBlk_eps (h : Hw) (k : RegKey) (b : List Byte) : (h.setBlk k b).eps = h.eps := rfl
@[simp] theorem Hw.setBlk_tunnels (h : Hw) (k : RegKey) (b : List Byte) : (h.setBlk k b).tunnels = h.tunnels := rfl
@[simp] theorem Hw.setBlk_hsIn (h : Hw) (k : RegKey) (b : List Byte) : (h.setBlk k b).hsIn = h.hsIn := rfl
@[simp] theorem Hw.setBlk_hostedWait (h : Hw) (k : RegKey) (b : List Byte) : (h.setBlk k b).hostedWait = h.hostedWait := rfl
@[simp] theorem Hw.setBlk_porst (h : Hw) (k : RegKey) (b : List Byte) : (h.setBlk k b).porst = h.porst := rfl
@[simp] theorem Hw.setBlk_railFault (h : Hw) (k : RegKey) (b : List Byte) : (h.setBlk k b).railFault = h.railFault := rfl
@[simp] theorem Hw.setBlk_clkFault (h : Hw) (k : RegKey) (b : List Byte) : (h.setBlk k b).clkFault = h.clkFault := rfl
@[simp] theorem Hw.setBlk_hsForce (h : Hw) (k : RegKey) (b : List Byte) : (h.setBlk k b).hsForce = h.hsForce := rfl
@[simp] theorem Hw.setBlk_hsPins (h : Hw) (k : RegKey) (b : List Byte) : (h.setBlk k b).hsPins = h.hsPins := rfl
@[simp] theorem Hw.setBlk_hsOn (h : Hw) (k : RegKey) (b : List Byte) : (h.setBlk k b).hsOn = h.hsOn := rfl
@[simp] theorem Hw.setBlk_gh (h : Hw) (k : RegKey) (b : List Byte) : (h.setBlk k b).gh = h.gh := rfl
@[simp] theorem Hw.setBlk_stores (h : Hw) (k : RegKey) (b : List Byte) : (h.setBlk k b).stores = h.stores := rfl
@[simp] theorem Hw.setBlk_wipes (h : Hw) (k : RegKey) (b : List Byte) : (h.setBlk k b).wipes = h.wipes := rfl
@[simp] theorem Hw.setBlk_out (h : Hw) (k : RegKey) (b : List Byte) : (h.setBlk k b).out = h.out := rfl
@[simp] theorem Hw.setBlk_dies (h : Hw) (k : RegKey) (b : List Byte) : (h.setBlk k b).dies = h.dies := rfl
@[simp] theorem Hw.setBlk_regs (h : Hw) (k : RegKey) (b : List Byte) : (h.setBlk k b).regs = h.regs := rfl

/-! ### `Hw.onDie` -/

@[simp] theorem Hw.onDie_blks (h : Hw) (d : Nat) (f : Die → Die) : (h.onDie d f).blks = h.blks := rfl
@[simp] theorem Hw.onDie_stages (h : Hw) (d : Nat) (f : Die → Die) : (h.onDie d f).stages = h.stages := rfl
@[simp] theorem Hw.onDie_clk (h : Hw) (d : Nat) (f : Die → Die) : (h.onDie d f).clk = h.clk := rfl
@[simp] theorem Hw.onDie_free (h : Hw) (d : Nat) (f : Die → Die) : (h.onDie d f).free = h.free := rfl
@[simp] theorem Hw.onDie_nextId (h : Hw) (d : Nat) (f : Die → Die) : (h.onDie d f).nextId = h.nextId := rfl
@[simp] theorem Hw.onDie_replies (h : Hw) (d : Nat) (f : Die → Die) : (h.onDie d f).replies = h.replies := rfl
@[simp] theorem Hw.onDie_bl (h : Hw) (d : Nat) (f : Die → Die) : (h.onDie d f).bl = h.bl := rfl
@[simp] theorem Hw.onDie_mode (h : Hw) (d : Nat) (f : Die → Die) : (h.onDie d f).mode = h.mode := rfl
@[simp] theorem Hw.onDie_lead (h : Hw) (d : Nat) (f : Die → Die) : (h.onDie d f).lead = h.lead := rfl
@[simp] theorem Hw.onDie_leadSt (h : Hw) (d : Nat) (f : Die → Die) : (h.onDie d f).leadSt = h.leadSt := rfl
@[simp] theorem Hw.onDie_takeover (h : Hw) (d : Nat) (f : Die → Die) : (h.onDie d f).takeover = h.takeover := rfl
@[simp] theorem Hw.onDie_kennel (h : Hw) (d : Nat) (f : Die → Die) : (h.onDie d f).kennel = h.kennel := rfl
@[simp] theorem Hw.onDie_pkg (h : Hw) (d : Nat) (f : Die → Die) : (h.onDie d f).pkg = h.pkg := rfl
@[simp] theorem Hw.onDie_faultMask (h : Hw) (d : Nat) (f : Die → Die) : (h.onDie d f).faultMask = h.faultMask := rfl
@[simp] theorem Hw.onDie_ring (h : Hw) (d : Nat) (f : Die → Die) : (h.onDie d f).ring = h.ring := rfl
@[simp] theorem Hw.onDie_evtNext (h : Hw) (d : Nat) (f : Die → Die) : (h.onDie d f).evtNext = h.evtNext := rfl
@[simp] theorem Hw.onDie_evtDurable (h : Hw) (d : Nat) (f : Die → Die) : (h.onDie d f).evtDurable = h.evtDurable := rfl
@[simp] theorem Hw.onDie_limits (h : Hw) (d : Nat) (f : Die → Die) : (h.onDie d f).limits = h.limits := rfl
@[simp] theorem Hw.onDie_fwSlots (h : Hw) (d : Nat) (f : Die → Die) : (h.onDie d f).fwSlots = h.fwSlots := rfl
@[simp] theorem Hw.onDie_fw (h : Hw) (d : Nat) (f : Die → Die) : (h.onDie d f).fw = h.fw := rfl
@[simp] theorem Hw.onDie_fwBooted (h : Hw) (d : Nat) (f : Die → Die) : (h.onDie d f).fwBooted = h.fwBooted := rfl
@[simp] theorem Hw.onDie_eps (h : Hw) (d : Nat) (f : Die → Die) : (h.onDie d f).eps = h.eps := rfl
@[simp] theorem Hw.onDie_tunnels (h : Hw) (d : Nat) (f : Die → Die) : (h.onDie d f).tunnels = h.tunnels := rfl
@[simp] theorem Hw.onDie_hsIn (h : Hw) (d : Nat) (f : Die → Die) : (h.onDie d f).hsIn = h.hsIn := rfl
@[simp] theorem Hw.onDie_hostedWait (h : Hw) (d : Nat) (f : Die → Die) : (h.onDie d f).hostedWait = h.hostedWait := rfl
@[simp] theorem Hw.onDie_porst (h : Hw) (d : Nat) (f : Die → Die) : (h.onDie d f).porst = h.porst := rfl
@[simp] theorem Hw.onDie_railFault (h : Hw) (d : Nat) (f : Die → Die) : (h.onDie d f).railFault = h.railFault := rfl
@[simp] theorem Hw.onDie_clkFault (h : Hw) (d : Nat) (f : Die → Die) : (h.onDie d f).clkFault = h.clkFault := rfl
@[simp] theorem Hw.onDie_hsForce (h : Hw) (d : Nat) (f : Die → Die) : (h.onDie d f).hsForce = h.hsForce := rfl
@[simp] theorem Hw.onDie_hsPins (h : Hw) (d : Nat) (f : Die → Die) : (h.onDie d f).hsPins = h.hsPins := rfl
@[simp] theorem Hw.onDie_hsOn (h : Hw) (d : Nat) (f : Die → Die) : (h.onDie d f).hsOn = h.hsOn := rfl
@[simp] theorem Hw.onDie_gh (h : Hw) (d : Nat) (f : Die → Die) : (h.onDie d f).gh = h.gh := rfl
@[simp] theorem Hw.onDie_stores (h : Hw) (d : Nat) (f : Die → Die) : (h.onDie d f).stores = h.stores := rfl
@[simp] theorem Hw.onDie_wipes (h : Hw) (d : Nat) (f : Die → Die) : (h.onDie d f).wipes = h.wipes := rfl
@[simp] theorem Hw.onDie_out (h : Hw) (d : Nat) (f : Die → Die) : (h.onDie d f).out = h.out := rfl
@[simp] theorem Hw.onDie_regs (h : Hw) (d : Nat) (f : Die → Die) : (h.onDie d f).regs = h.regs := rfl

/-! ### `Hw.emit` -/

@[simp] theorem Hw.emit_blks (h : Hw) (o : Output) : (h.emit o).blks = h.blks := rfl
@[simp] theorem Hw.emit_stages (h : Hw) (o : Output) : (h.emit o).stages = h.stages := rfl
@[simp] theorem Hw.emit_clk (h : Hw) (o : Output) : (h.emit o).clk = h.clk := rfl
@[simp] theorem Hw.emit_free (h : Hw) (o : Output) : (h.emit o).free = h.free := rfl
@[simp] theorem Hw.emit_nextId (h : Hw) (o : Output) : (h.emit o).nextId = h.nextId := rfl
@[simp] theorem Hw.emit_replies (h : Hw) (o : Output) : (h.emit o).replies = h.replies := rfl
@[simp] theorem Hw.emit_bl (h : Hw) (o : Output) : (h.emit o).bl = h.bl := rfl
@[simp] theorem Hw.emit_mode (h : Hw) (o : Output) : (h.emit o).mode = h.mode := rfl
@[simp] theorem Hw.emit_lead (h : Hw) (o : Output) : (h.emit o).lead = h.lead := rfl
@[simp] theorem Hw.emit_leadSt (h : Hw) (o : Output) : (h.emit o).leadSt = h.leadSt := rfl
@[simp] theorem Hw.emit_takeover (h : Hw) (o : Output) : (h.emit o).takeover = h.takeover := rfl
@[simp] theorem Hw.emit_kennel (h : Hw) (o : Output) : (h.emit o).kennel = h.kennel := rfl
@[simp] theorem Hw.emit_pkg (h : Hw) (o : Output) : (h.emit o).pkg = h.pkg := rfl
@[simp] theorem Hw.emit_faultMask (h : Hw) (o : Output) : (h.emit o).faultMask = h.faultMask := rfl
@[simp] theorem Hw.emit_ring (h : Hw) (o : Output) : (h.emit o).ring = h.ring := rfl
@[simp] theorem Hw.emit_evtNext (h : Hw) (o : Output) : (h.emit o).evtNext = h.evtNext := rfl
@[simp] theorem Hw.emit_evtDurable (h : Hw) (o : Output) : (h.emit o).evtDurable = h.evtDurable := rfl
@[simp] theorem Hw.emit_limits (h : Hw) (o : Output) : (h.emit o).limits = h.limits := rfl
@[simp] theorem Hw.emit_fwSlots (h : Hw) (o : Output) : (h.emit o).fwSlots = h.fwSlots := rfl
@[simp] theorem Hw.emit_fw (h : Hw) (o : Output) : (h.emit o).fw = h.fw := rfl
@[simp] theorem Hw.emit_fwBooted (h : Hw) (o : Output) : (h.emit o).fwBooted = h.fwBooted := rfl
@[simp] theorem Hw.emit_eps (h : Hw) (o : Output) : (h.emit o).eps = h.eps := rfl
@[simp] theorem Hw.emit_tunnels (h : Hw) (o : Output) : (h.emit o).tunnels = h.tunnels := rfl
@[simp] theorem Hw.emit_hsIn (h : Hw) (o : Output) : (h.emit o).hsIn = h.hsIn := rfl
@[simp] theorem Hw.emit_hostedWait (h : Hw) (o : Output) : (h.emit o).hostedWait = h.hostedWait := rfl
@[simp] theorem Hw.emit_porst (h : Hw) (o : Output) : (h.emit o).porst = h.porst := rfl
@[simp] theorem Hw.emit_railFault (h : Hw) (o : Output) : (h.emit o).railFault = h.railFault := rfl
@[simp] theorem Hw.emit_clkFault (h : Hw) (o : Output) : (h.emit o).clkFault = h.clkFault := rfl
@[simp] theorem Hw.emit_hsForce (h : Hw) (o : Output) : (h.emit o).hsForce = h.hsForce := rfl
@[simp] theorem Hw.emit_hsPins (h : Hw) (o : Output) : (h.emit o).hsPins = h.hsPins := rfl
@[simp] theorem Hw.emit_hsOn (h : Hw) (o : Output) : (h.emit o).hsOn = h.hsOn := rfl
@[simp] theorem Hw.emit_gh (h : Hw) (o : Output) : (h.emit o).gh = h.gh := rfl
@[simp] theorem Hw.emit_stores (h : Hw) (o : Output) : (h.emit o).stores = h.stores := rfl
@[simp] theorem Hw.emit_wipes (h : Hw) (o : Output) : (h.emit o).wipes = h.wipes := rfl
@[simp] theorem Hw.emit_dies (h : Hw) (o : Output) : (h.emit o).dies = h.dies := rfl
@[simp] theorem Hw.emit_regs (h : Hw) (o : Output) : (h.emit o).regs = h.regs := rfl

/-! ### `Hw.store` -/

@[simp] theorem Hw.store_blks (h : Hw) (d a : Nat) (bs : List Byte) : (h.store d a bs).blks = h.blks := rfl
@[simp] theorem Hw.store_stages (h : Hw) (d a : Nat) (bs : List Byte) : (h.store d a bs).stages = h.stages := rfl
@[simp] theorem Hw.store_clk (h : Hw) (d a : Nat) (bs : List Byte) : (h.store d a bs).clk = h.clk := rfl
@[simp] theorem Hw.store_free (h : Hw) (d a : Nat) (bs : List Byte) : (h.store d a bs).free = h.free := rfl
@[simp] theorem Hw.store_nextId (h : Hw) (d a : Nat) (bs : List Byte) : (h.store d a bs).nextId = h.nextId := rfl
@[simp] theorem Hw.store_replies (h : Hw) (d a : Nat) (bs : List Byte) : (h.store d a bs).replies = h.replies := rfl
@[simp] theorem Hw.store_bl (h : Hw) (d a : Nat) (bs : List Byte) : (h.store d a bs).bl = h.bl := rfl
@[simp] theorem Hw.store_mode (h : Hw) (d a : Nat) (bs : List Byte) : (h.store d a bs).mode = h.mode := rfl
@[simp] theorem Hw.store_lead (h : Hw) (d a : Nat) (bs : List Byte) : (h.store d a bs).lead = h.lead := rfl
@[simp] theorem Hw.store_leadSt (h : Hw) (d a : Nat) (bs : List Byte) : (h.store d a bs).leadSt = h.leadSt := rfl
@[simp] theorem Hw.store_takeover (h : Hw) (d a : Nat) (bs : List Byte) : (h.store d a bs).takeover = h.takeover := rfl
@[simp] theorem Hw.store_kennel (h : Hw) (d a : Nat) (bs : List Byte) : (h.store d a bs).kennel = h.kennel := rfl
@[simp] theorem Hw.store_pkg (h : Hw) (d a : Nat) (bs : List Byte) : (h.store d a bs).pkg = h.pkg := rfl
@[simp] theorem Hw.store_faultMask (h : Hw) (d a : Nat) (bs : List Byte) : (h.store d a bs).faultMask = h.faultMask := rfl
@[simp] theorem Hw.store_ring (h : Hw) (d a : Nat) (bs : List Byte) : (h.store d a bs).ring = h.ring := rfl
@[simp] theorem Hw.store_evtNext (h : Hw) (d a : Nat) (bs : List Byte) : (h.store d a bs).evtNext = h.evtNext := rfl
@[simp] theorem Hw.store_evtDurable (h : Hw) (d a : Nat) (bs : List Byte) : (h.store d a bs).evtDurable = h.evtDurable := rfl
@[simp] theorem Hw.store_limits (h : Hw) (d a : Nat) (bs : List Byte) : (h.store d a bs).limits = h.limits := rfl
@[simp] theorem Hw.store_fwSlots (h : Hw) (d a : Nat) (bs : List Byte) : (h.store d a bs).fwSlots = h.fwSlots := rfl
@[simp] theorem Hw.store_fw (h : Hw) (d a : Nat) (bs : List Byte) : (h.store d a bs).fw = h.fw := rfl
@[simp] theorem Hw.store_fwBooted (h : Hw) (d a : Nat) (bs : List Byte) : (h.store d a bs).fwBooted = h.fwBooted := rfl
@[simp] theorem Hw.store_eps (h : Hw) (d a : Nat) (bs : List Byte) : (h.store d a bs).eps = h.eps := rfl
@[simp] theorem Hw.store_tunnels (h : Hw) (d a : Nat) (bs : List Byte) : (h.store d a bs).tunnels = h.tunnels := rfl
@[simp] theorem Hw.store_hsIn (h : Hw) (d a : Nat) (bs : List Byte) : (h.store d a bs).hsIn = h.hsIn := rfl
@[simp] theorem Hw.store_hostedWait (h : Hw) (d a : Nat) (bs : List Byte) : (h.store d a bs).hostedWait = h.hostedWait := rfl
@[simp] theorem Hw.store_porst (h : Hw) (d a : Nat) (bs : List Byte) : (h.store d a bs).porst = h.porst := rfl
@[simp] theorem Hw.store_railFault (h : Hw) (d a : Nat) (bs : List Byte) : (h.store d a bs).railFault = h.railFault := rfl
@[simp] theorem Hw.store_clkFault (h : Hw) (d a : Nat) (bs : List Byte) : (h.store d a bs).clkFault = h.clkFault := rfl
@[simp] theorem Hw.store_hsForce (h : Hw) (d a : Nat) (bs : List Byte) : (h.store d a bs).hsForce = h.hsForce := rfl
@[simp] theorem Hw.store_hsPins (h : Hw) (d a : Nat) (bs : List Byte) : (h.store d a bs).hsPins = h.hsPins := rfl
@[simp] theorem Hw.store_hsOn (h : Hw) (d a : Nat) (bs : List Byte) : (h.store d a bs).hsOn = h.hsOn := rfl
@[simp] theorem Hw.store_gh (h : Hw) (d a : Nat) (bs : List Byte) : (h.store d a bs).gh = h.gh := rfl
@[simp] theorem Hw.store_wipes (h : Hw) (d a : Nat) (bs : List Byte) : (h.store d a bs).wipes = h.wipes := rfl
@[simp] theorem Hw.store_out (h : Hw) (d a : Nat) (bs : List Byte) : (h.store d a bs).out = h.out := rfl
@[simp] theorem Hw.store_dies (h : Hw) (d a : Nat) (bs : List Byte) : (h.store d a bs).dies = h.dies := rfl
@[simp] theorem Hw.store_regs (h : Hw) (d a : Nat) (bs : List Byte) : (h.store d a bs).regs = h.regs := rfl

/-! ### `Hw.putReply` -/

@[simp] theorem Hw.putReply_blks (h : Hw) (o : Origin) (tag : Nat) (r : Reply) : (h.putReply o tag r).blks = h.blks := rfl
@[simp] theorem Hw.putReply_stages (h : Hw) (o : Origin) (tag : Nat) (r : Reply) : (h.putReply o tag r).stages = h.stages := rfl
@[simp] theorem Hw.putReply_clk (h : Hw) (o : Origin) (tag : Nat) (r : Reply) : (h.putReply o tag r).clk = h.clk := rfl
@[simp] theorem Hw.putReply_free (h : Hw) (o : Origin) (tag : Nat) (r : Reply) : (h.putReply o tag r).free = h.free := rfl
@[simp] theorem Hw.putReply_nextId (h : Hw) (o : Origin) (tag : Nat) (r : Reply) : (h.putReply o tag r).nextId = h.nextId := rfl
@[simp] theorem Hw.putReply_bl (h : Hw) (o : Origin) (tag : Nat) (r : Reply) : (h.putReply o tag r).bl = h.bl := rfl
@[simp] theorem Hw.putReply_mode (h : Hw) (o : Origin) (tag : Nat) (r : Reply) : (h.putReply o tag r).mode = h.mode := rfl
@[simp] theorem Hw.putReply_lead (h : Hw) (o : Origin) (tag : Nat) (r : Reply) : (h.putReply o tag r).lead = h.lead := rfl
@[simp] theorem Hw.putReply_leadSt (h : Hw) (o : Origin) (tag : Nat) (r : Reply) : (h.putReply o tag r).leadSt = h.leadSt := rfl
@[simp] theorem Hw.putReply_takeover (h : Hw) (o : Origin) (tag : Nat) (r : Reply) : (h.putReply o tag r).takeover = h.takeover := rfl
@[simp] theorem Hw.putReply_kennel (h : Hw) (o : Origin) (tag : Nat) (r : Reply) : (h.putReply o tag r).kennel = h.kennel := rfl
@[simp] theorem Hw.putReply_pkg (h : Hw) (o : Origin) (tag : Nat) (r : Reply) : (h.putReply o tag r).pkg = h.pkg := rfl
@[simp] theorem Hw.putReply_faultMask (h : Hw) (o : Origin) (tag : Nat) (r : Reply) : (h.putReply o tag r).faultMask = h.faultMask := rfl
@[simp] theorem Hw.putReply_ring (h : Hw) (o : Origin) (tag : Nat) (r : Reply) : (h.putReply o tag r).ring = h.ring := rfl
@[simp] theorem Hw.putReply_evtNext (h : Hw) (o : Origin) (tag : Nat) (r : Reply) : (h.putReply o tag r).evtNext = h.evtNext := rfl
@[simp] theorem Hw.putReply_evtDurable (h : Hw) (o : Origin) (tag : Nat) (r : Reply) : (h.putReply o tag r).evtDurable = h.evtDurable := rfl
@[simp] theorem Hw.putReply_limits (h : Hw) (o : Origin) (tag : Nat) (r : Reply) : (h.putReply o tag r).limits = h.limits := rfl
@[simp] theorem Hw.putReply_fwSlots (h : Hw) (o : Origin) (tag : Nat) (r : Reply) : (h.putReply o tag r).fwSlots = h.fwSlots := rfl
@[simp] theorem Hw.putReply_fw (h : Hw) (o : Origin) (tag : Nat) (r : Reply) : (h.putReply o tag r).fw = h.fw := rfl
@[simp] theorem Hw.putReply_fwBooted (h : Hw) (o : Origin) (tag : Nat) (r : Reply) : (h.putReply o tag r).fwBooted = h.fwBooted := rfl
@[simp] theorem Hw.putReply_eps (h : Hw) (o : Origin) (tag : Nat) (r : Reply) : (h.putReply o tag r).eps = h.eps := rfl
@[simp] theorem Hw.putReply_tunnels (h : Hw) (o : Origin) (tag : Nat) (r : Reply) : (h.putReply o tag r).tunnels = h.tunnels := rfl
@[simp] theorem Hw.putReply_hsIn (h : Hw) (o : Origin) (tag : Nat) (r : Reply) : (h.putReply o tag r).hsIn = h.hsIn := rfl
@[simp] theorem Hw.putReply_hostedWait (h : Hw) (o : Origin) (tag : Nat) (r : Reply) : (h.putReply o tag r).hostedWait = h.hostedWait := rfl
@[simp] theorem Hw.putReply_porst (h : Hw) (o : Origin) (tag : Nat) (r : Reply) : (h.putReply o tag r).porst = h.porst := rfl
@[simp] theorem Hw.putReply_railFault (h : Hw) (o : Origin) (tag : Nat) (r : Reply) : (h.putReply o tag r).railFault = h.railFault := rfl
@[simp] theorem Hw.putReply_clkFault (h : Hw) (o : Origin) (tag : Nat) (r : Reply) : (h.putReply o tag r).clkFault = h.clkFault := rfl
@[simp] theorem Hw.putReply_hsForce (h : Hw) (o : Origin) (tag : Nat) (r : Reply) : (h.putReply o tag r).hsForce = h.hsForce := rfl
@[simp] theorem Hw.putReply_hsPins (h : Hw) (o : Origin) (tag : Nat) (r : Reply) : (h.putReply o tag r).hsPins = h.hsPins := rfl
@[simp] theorem Hw.putReply_hsOn (h : Hw) (o : Origin) (tag : Nat) (r : Reply) : (h.putReply o tag r).hsOn = h.hsOn := rfl
@[simp] theorem Hw.putReply_gh (h : Hw) (o : Origin) (tag : Nat) (r : Reply) : (h.putReply o tag r).gh = h.gh := rfl
@[simp] theorem Hw.putReply_stores (h : Hw) (o : Origin) (tag : Nat) (r : Reply) : (h.putReply o tag r).stores = h.stores := rfl
@[simp] theorem Hw.putReply_wipes (h : Hw) (o : Origin) (tag : Nat) (r : Reply) : (h.putReply o tag r).wipes = h.wipes := rfl
@[simp] theorem Hw.putReply_out (h : Hw) (o : Origin) (tag : Nat) (r : Reply) : (h.putReply o tag r).out = h.out := rfl
@[simp] theorem Hw.putReply_dies (h : Hw) (o : Origin) (tag : Nat) (r : Reply) : (h.putReply o tag r).dies = h.dies := rfl
@[simp] theorem Hw.putReply_regs (h : Hw) (o : Origin) (tag : Nat) (r : Reply) : (h.putReply o tag r).regs = h.regs := rfl

end Sys2Proof.Machine
end

