-- ==== Sys2Proof/Laws/Regs.lean ====
section
/-!
SUPPORT. The laws of registers and of the records of dies: what a read gives after each primitive update.
-/
namespace Sys2Proof.Machine

/-! ### Association lists -/

@[simp] theorem regFind_put_self {α : Type} (l : List (RegKey × α)) (k : RegKey) (v : α) : regFind (regPut l k v) k = some v := by
  induction l with
  | nil => simp [regPut, regFind]
  | cons x l ih =>
    obtain ⟨k', v'⟩ := x
    simp only [regPut]
    split
    · simp [regFind]
    · rename_i h
      simp [regFind, h, ih]

theorem regFind_put_ne {α : Type} (l : List (RegKey × α)) {k k' : RegKey} (v : α) (h : k ≠ k') :
    regFind (regPut l k v) k' = regFind l k' := by
  induction l with
  | nil => simp [regPut, regFind, h]
  | cons x l ih =>
    obtain ⟨k₁, v₁⟩ := x
    simp only [regPut]
    split
    · rename_i e
      subst e
      simp [regFind, h]
    · simp [regFind, ih]

/-! ### Keys -/

theorem rkey_cls (d : Nat) (a : AttrId) (i : Nat) : (rkey d a i).cls = a.cls := rfl
theorem rkey_id (d : Nat) (a : AttrId) (i : Nat) : (rkey d a i).id = a.id := rfl

/-- Two attributes never share a register. -/
theorem rkey_ne_of_attr {a b : AttrId} (h : a ≠ b) (d i e j : Nat) : rkey d a i ≠ rkey e b j := by
  intro hk
  apply h
  have h1 : a.cls = b.cls := congrArg RegKey.cls hk
  have h2 : a.id = b.id := congrArg RegKey.id hk
  cases a
  cases b
  simp_all

/-- Two units of a die do not share an attribute, but for the chip's own class 0x01. -/
theorem rkey_ne_of_unit {a : AttrId} {i j : Nat} (hc : a.cls ≠ 0x01) (h : i ≠ j) (d e : Nat) : rkey d a i ≠ rkey e a j := by
  intro hk
  have h1 : (rkey d a i).inst = (rkey e a j).inst := congrArg RegKey.inst hk
  simp only [rkey, if_neg hc] at h1
  exact h h1

/-- A die's attribute is its own where its class has no package value. -/
theorem rkey_ne_of_die {a : AttrId} {d e : Nat} (h : d ≠ e) (i j : Nat) (hp : isPkgObj a.cls i a.id = false)
    (hd : d ≠ pkgDie) : rkey d a i ≠ rkey e a j := by
  intro hk
  have h1 : (rkey d a i).die = (rkey e a j).die := congrArg RegKey.die hk
  simp only [rkey, hp, Bool.false_eq_true, if_false] at h1
  split at h1
  · exact hd h1
  · exact h h1

/-! ### A read after a write -/

@[simp] theorem Hw.rdk_wrk_self (h : Hw) (k : RegKey) (v : Nat) : (h.wrk k v).rdk k = v := by simp [Hw.rdk, Hw.wrk]

theorem Hw.rdk_wrk_ne (h : Hw) {k k' : RegKey} (v : Nat) (hk : k ≠ k') : (h.wrk k v).rdk k' = h.rdk k' := by
  simp [Hw.rdk, Hw.wrk, regFind_put_ne _ _ hk]

@[simp] theorem Hw.rd_wr_self (h : Hw) (d : Nat) (a : AttrId) (i v : Nat) : (h.wr d a i v).rd d a i = v :=
  h.rdk_wrk_self _ v

/-- A write leaves every other attribute. -/
@[simp] theorem Hw.rd_wr_ne (h : Hw) {a b : AttrId} (hab : a ≠ b) (d i v e j : Nat) : (h.wr d a i v).rd e b j = h.rd e b j :=
  h.rdk_wrk_ne v (rkey_ne_of_attr hab d i e j)

/-- A write leaves the attribute of every other unit. -/
theorem Hw.rd_wr_unit (h : Hw) {a : AttrId} {i j : Nat} (hc : a.cls ≠ 0x01) (hij : i ≠ j) (d v e : Nat) :
    (h.wr d a i v).rd e a j = h.rd e a j :=
  h.rdk_wrk_ne v (rkey_ne_of_unit hc hij d e)

/-- A write leaves the attribute of every other die. -/
theorem Hw.rd_wr_die (h : Hw) {a : AttrId} {d e : Nat} (hde : d ≠ e) (i v j : Nat) (hp : isPkgObj a.cls i a.id = false)
    (hd : d ≠ pkgDie) : (h.wr d a i v).rd e a j = h.rd e a j :=
  h.rdk_wrk_ne v (rkey_ne_of_die hde i j hp hd)

@[simp] theorem Hw.rd_wrS_ne (h : Hw) {a b : AttrId} (hab : a ≠ b) (d i w : Nat) (v : Int) (e j : Nat) :
    (h.wrS d a i w v).rd e b j = h.rd e b j := h.rd_wr_ne hab ..

@[simp] theorem Hw.rd_wrS_self (h : Hw) (d : Nat) (a : AttrId) (i w : Nat) (v : Int) :
    (h.wrS d a i w v).rd d a i = ofSigned w v := h.rd_wr_self ..

@[simp] theorem Hw.rd_add_ne (h : Hw) {a b : AttrId} (hab : a ≠ b) (d i n e j : Nat) : (h.add d a i n).rd e b j = h.rd e b j :=
  h.rd_wr_ne hab ..

@[simp] theorem Hw.rd_add_self (h : Hw) (d : Nat) (a : AttrId) (i n : Nat) :
    (h.add d a i n).rd d a i = (h.rd d a i + n) % 2 ^ (((attrRow? a.cls i a.id).map (·.width)).getD 64) := h.rd_wr_self ..

@[simp] theorem Hw.rd_onDie (h : Hw) (d : Nat) (f : Die → Die) (e : Nat) (a : AttrId) (i : Nat) :
    (h.onDie d f).rd e a i = h.rd e a i := rfl
@[simp] theorem Hw.rd_setBlk (h : Hw) (k : RegKey) (b : List Byte) (e : Nat) (a : AttrId) (i : Nat) :
    (h.setBlk k b).rd e a i = h.rd e a i := rfl
@[simp] theorem Hw.rd_emit (h : Hw) (o : Output) (e : Nat) (a : AttrId) (i : Nat) : (h.emit o).rd e a i = h.rd e a i := rfl
@[simp] theorem Hw.rd_store (h : Hw) (d x : Nat) (bs : List Byte) (e : Nat) (a : AttrId) (i : Nat) :
    (h.store d x bs).rd e a i = h.rd e a i := rfl
@[simp] theorem Hw.rd_putReply (h : Hw) (o : Origin) (tag : Nat) (r : Reply) (e : Nat) (a : AttrId) (i : Nat) :
    (h.putReply o tag r).rd e a i = h.rd e a i := rfl
@[simp] theorem Hw.rd_fresh (h : Hw) (e : Nat) (a : AttrId) (i : Nat) : h.fresh.2.rd e a i = h.rd e a i := rfl

/-- A signed attribute is the reading of the register. -/
theorem Hw.rdS_eq (h : Hw) (d : Nat) (a : AttrId) (i w : Nat) : h.rdS d a i w = toSigned w (h.rd d a i) := rfl

@[simp] theorem Hw.blk_setBlk_self (h : Hw) (k : RegKey) (b : List Byte) : (h.setBlk k b).blk k = b := by
  simp [Hw.blk, Hw.setBlk]

/-! ### Two's complement (R8) -/

/-- A signed value written and read in the same width. -/
theorem toSigned_ofSigned {w : Nat} (hw : 0 < w) (x : Int) (h1 : -(2 ^ (w - 1) : Int) ≤ x) (h2 : x < 2 ^ (w - 1)) :
    toSigned w (ofSigned w x) = x := by
  obtain ⟨k, rfl⟩ : ∃ k, w = k + 1 := ⟨w - 1, by omega⟩
  have hp : (2 : Int) ^ (k + 1) = 2 * 2 ^ k := by rw [Int.pow_succ]; omega
  have hpn : (2 : Nat) ^ (k + 1) = 2 * 2 ^ k := by rw [Nat.pow_succ]; omega
  have hc : ((2 ^ k : Nat) : Int) = (2 : Int) ^ k := by simp
  have hpos : (0 : Int) < 2 ^ k := Int.pow_pos (by omega)
  simp only [Nat.add_sub_cancel] at h1 h2
  have hm0 : 0 ≤ x % (2 ^ (k + 1) : Int) := Int.emod_nonneg _ (by omega)
  have hm1 : x % (2 ^ (k + 1) : Int) < 2 ^ (k + 1) := Int.emod_lt_of_pos _ (by omega)
  have hv : ((ofSigned (k + 1) x : Nat) : Int) = x % (2 ^ (k + 1) : Int) := Int.toNat_of_nonneg hm0
  have hlt : ofSigned (k + 1) x < 2 ^ (k + 1) := by omega
  unfold toSigned
  rw [Nat.mod_eq_of_lt hlt, Nat.add_sub_cancel, hv]
  have hx : x % (2 ^ (k + 1) : Int) = if 0 ≤ x then x else x + 2 ^ (k + 1) := by
    split
    · exact Int.emod_eq_of_lt (by omega) (by omega)
    · have : (x + 2 ^ (k + 1)) % (2 ^ (k + 1) : Int) = x % (2 ^ (k + 1) : Int) := by simp
      rw [← this]
      exact Int.emod_eq_of_lt (by omega) (by omega)
  split at hx <;> split <;> omega

/-- A signed attribute reads what was written. -/
theorem Hw.rdS_wrS_self (h : Hw) (d : Nat) (a : AttrId) (i : Nat) {w : Nat} (hw : 0 < w) (x : Int)
    (h1 : -(2 ^ (w - 1) : Int) ≤ x) (h2 : x < 2 ^ (w - 1)) : (h.wrS d a i w x).rdS d a i w = x := by
  rw [Hw.rdS_eq, Hw.rd_wrS_self, toSigned_ofSigned hw x h1 h2]

/-! ### Dies -/

@[simp] theorem Hw.n_onDie (h : Hw) (d : Nat) (f : Die → Die) : (h.onDie d f).n = h.n := by simp [Hw.n, Hw.onDie]

theorem Hw.die_onDie_self (h : Hw) {d : Nat} (f : Die → Die) (hd : d < h.dies.length) : (h.onDie d f).die d = f (h.die d) := by
  simp [Hw.die, Hw.onDie, List.getD_eq_getElem?_getD, hd]

theorem Hw.die_onDie_ne (h : Hw) {d e : Nat} (f : Die → Die) (hde : d ≠ e) : (h.onDie d f).die e = h.die e := by
  simp [Hw.die, Hw.onDie, List.getD_eq_getElem?_getD, hde]

/-- A field that an update of a die leaves is the same on every die. -/
theorem Hw.die_onDie_field {β : Type} (h : Hw) (d : Nat) (f : Die → Die) (g : Die → β) (hg : ∀ D, g (f D) = g D) (e : Nat) :
    g ((h.onDie d f).die e) = g (h.die e) := by
  by_cases hde : d = e
  · subst hde
    by_cases hd : d < h.dies.length
    · rw [h.die_onDie_self f hd, hg]
    · simp [Hw.die, Hw.onDie, List.getD_eq_getElem?_getD, hd]
  · rw [h.die_onDie_ne f hde]

@[simp] theorem Hw.die_wr (h : Hw) (d : Nat) (a : AttrId) (i v e : Nat) : (h.wr d a i v).die e = h.die e := rfl
@[simp] theorem Hw.die_wrS (h : Hw) (d : Nat) (a : AttrId) (i w : Nat) (v : Int) (e : Nat) : (h.wrS d a i w v).die e = h.die e := rfl
@[simp] theorem Hw.die_add (h : Hw) (d : Nat) (a : AttrId) (i n e : Nat) : (h.add d a i n).die e = h.die e := rfl
@[simp] theorem Hw.die_setBlk (h : Hw) (k : RegKey) (b : List Byte) (e : Nat) : (h.setBlk k b).die e = h.die e := rfl
@[simp] theorem Hw.die_emit (h : Hw) (o : Output) (e : Nat) : (h.emit o).die e = h.die e := rfl
@[simp] theorem Hw.die_store (h : Hw) (d x : Nat) (bs : List Byte) (e : Nat) : (h.store d x bs).die e = h.die e := rfl
@[simp] theorem Hw.die_putReply (h : Hw) (o : Origin) (tag : Nat) (r : Reply) (e : Nat) :
    (h.putReply o tag r).die e = h.die e := rfl
@[simp] theorem Hw.die_fresh (h : Hw) (e : Nat) : h.fresh.2.die e = h.die e := rfl

/-! ### Replies -/

@[simp] theorem Hw.reply?_putReply_self (h : Hw) (o : Origin) (tag : Nat) (r : Reply) :
    (h.putReply o tag r).reply? o tag = some r := by simp [Hw.reply?, Hw.putReply]

theorem find?_filter_of_imp {α : Type} {p q : α → Bool} (hpq : ∀ x, q x = true → p x = true) (l : List α) :
    (l.filter p).find? q = l.find? q := by
  induction l with
  | nil => rfl
  | cons x l ih =>
    by_cases hq : q x = true
    · simp [hpq x hq, hq]
    · by_cases hp : p x = true <;> simp [hp, hq, ih]

theorem Hw.reply?_putReply_ne (h : Hw) {o o' : Origin} {tag tag' : Nat} (r : Reply) (hne : (o, tag) ≠ (o', tag')) :
    (h.putReply o tag r).reply? o' tag' = h.reply? o' tag' := by
  unfold Hw.reply? Hw.putReply
  rw [List.find?_cons_of_neg (by simpa using hne), find?_filter_of_imp]
  intro x hx
  simp only [decide_eq_true_eq] at hx ⊢
  rw [hx]
  exact fun e => hne e.symm

end Sys2Proof.Machine
end

