-- ==== Sys2Proof/Laws/Events.lean ====
section
/-!
SUPPORT. What recording an event can change (R491 to R493, R496): the front buffer, the buckets and the folded count of one
die, and the EVTREC registers; nothing else of the block.
-/
namespace Sys2Proof.Machine

/-- An update that changes at most the front buffers, the buckets, the folded counts and registers of class 0x1F. -/
structure Hw.Rec (h h' : Hw) : Prop where
  rest : h' = { h with dies := h'.dies, regs := h'.regs }
  len : h'.dies.length = h.dies.length
  die : ∀ e, ∃ f b n, h'.die e = { h.die e with front := f, buckets := b, folded := n }
  rd : ∀ e a i, a.cls ≠ 0x1F → h'.rd e a i = h.rd e a i

theorem Hw.Rec.refl (h : Hw) : h.Rec h := ⟨rfl, rfl, fun _ => ⟨_, _, _, rfl⟩, fun _ _ _ _ => rfl⟩

theorem Hw.Rec.trans {h h' h'' : Hw} (a : h.Rec h') (b : h'.Rec h'') : h.Rec h'' := by
  refine ⟨?_, b.len.trans a.len, fun e => ?_, fun e x i hx => (b.rd e x i hx).trans (a.rd e x i hx)⟩
  · rw [b.rest, a.rest]
  · obtain ⟨f, k, n, he⟩ := b.die e
    obtain ⟨f', k', n', he'⟩ := a.die e
    exact ⟨f, k, n, by rw [he, he']⟩

theorem Hw.Rec.onDie (h : Hw) (d : Nat) (f : Die → Die)
    (hf : ∀ D, ∃ x y z, f D = { D with front := x, buckets := y, folded := z }) : h.Rec (h.onDie d f) := by
  refine ⟨rfl, by simp [Hw.onDie], fun e => ?_, fun _ _ _ _ => rfl⟩
  by_cases hde : d = e
  · subst hde
    by_cases hd : d < h.dies.length
    · rw [h.die_onDie_self f hd]
      exact hf _
    · exact ⟨_, _, _, by simp [Hw.die, Hw.onDie, List.getD_eq_getElem?_getD, hd]; rfl⟩
  · rw [h.die_onDie_ne f hde]
    exact ⟨_, _, _, rfl⟩

theorem Hw.Rec.wr (h : Hw) (d : Nat) {a : AttrId} (i v : Nat) (ha : a.cls = 0x1F) : h.Rec (h.wr d a i v) := by
  refine ⟨rfl, rfl, fun _ => ⟨_, _, _, rfl⟩, fun e b j hb => h.rd_wr_ne ?_ d i v e j⟩
  intro hab
  subst hab
  exact hb ha

theorem Hw.rec_setBucket (h : Hw) (d : Nat) (b : Bucket) : h.Rec (h.setBucket d b) :=
  .onDie h d _ fun _ => ⟨_, _, _, rfl⟩

theorem Hw.rec_frontPut (h : Hw) (d : Nat) (e : Evt) : h.Rec (h.frontPut d e) := by
  have h1 : h.Rec (h.onDie d fun D => { D with front := D.front ++ [e] }) := .onDie h d _ fun _ => ⟨_, _, _, rfl⟩
  have h2 : ∀ (h : Hw) v, h.Rec (h.wr d A.fb_depth 0 v) := fun h v => .wr h d 0 v rfl
  have h3 : ∀ (h : Hw) v, h.Rec (h.wr d A.fb_max 0 v) := fun h v => .wr h d 0 v rfl
  unfold Hw.frontPut
  simp only
  split
  · exact (h1.trans (h2 _ _)).trans (h3 _ _)
  · exact h1.trans (h2 _ _)

/-- Everything that an event can change. -/
theorem Hw.rec_eventNode (h : Hw) (d code node : Nat) (data : List Byte) : h.Rec (h.eventNode d code node data) := by
  unfold Hw.eventNode
  simp only
  split
  · exact (h.rec_setBucket d _).trans (.wr _ d (a := A.suppressed) 0 _ rfl)
  · split
    · exact ((h.rec_setBucket d _).trans (.wr _ d (a := A.backlog_folds) 0 _ rfl)).trans (.onDie _ d _ fun _ => ⟨_, _, _, rfl⟩)
    · exact (h.rec_setBucket d _).trans (Hw.rec_frontPut _ d _)

theorem Hw.rec_event (h : Hw) (d code : Nat) (data : List Byte) : h.Rec (h.event d code data) := h.rec_eventNode ..
theorem Hw.rec_eventPkg (h : Hw) (d code : Nat) (data : List Byte) : h.Rec (h.eventPkg d code data) := h.rec_eventNode ..

@[simp] theorem Hw.rd_event (h : Hw) (d code : Nat) (data : List Byte) (e : Nat) {a : AttrId} (i : Nat) (ha : a.cls ≠ 0x1F) :
    (h.event d code data).rd e a i = h.rd e a i := (h.rec_event d code data).rd e a i ha
@[simp] theorem Hw.rd_eventPkg (h : Hw) (d code : Nat) (data : List Byte) (e : Nat) {a : AttrId} (i : Nat) (ha : a.cls ≠ 0x1F) :
    (h.eventPkg d code data).rd e a i = h.rd e a i := (h.rec_eventPkg d code data).rd e a i ha
@[simp] theorem Hw.rdk_event (h : Hw) (d code : Nat) (data : List Byte) (e : Nat) {a : AttrId} (i : Nat) (ha : a.cls ≠ 0x1F) :
    (h.event d code data).rdk (rkey e a i) = h.rdk (rkey e a i) := h.rd_event d code data e i ha
@[simp] theorem Hw.dies_length_event (h : Hw) (d code : Nat) (data : List Byte) :
    (h.event d code data).dies.length = h.dies.length := (h.rec_event d code data).len
@[simp] theorem Hw.dies_length_eventPkg (h : Hw) (d code : Nat) (data : List Byte) :
    (h.eventPkg d code data).dies.length = h.dies.length := (h.rec_eventPkg d code data).len

/-! ### Fields under `Hw.event` -/

@[simp] theorem Hw.event_blks (h : Hw) (d code : Nat) (data : List Byte) : (h.event d code data).blks = h.blks := by
  rw [(h.rec_event d code data).rest]
@[simp] theorem Hw.event_stages (h : Hw) (d code : Nat) (data : List Byte) : (h.event d code data).stages = h.stages := by
  rw [(h.rec_event d code data).rest]
@[simp] theorem Hw.event_clk (h : Hw) (d code : Nat) (data : List Byte) : (h.event d code data).clk = h.clk := by
  rw [(h.rec_event d code data).rest]
@[simp] theorem Hw.event_free (h : Hw) (d code : Nat) (data : List Byte) : (h.event d code data).free = h.free := by
  rw [(h.rec_event d code data).rest]
@[simp] theorem Hw.event_nextId (h : Hw) (d code : Nat) (data : List Byte) : (h.event d code data).nextId = h.nextId := by
  rw [(h.rec_event d code data).rest]
@[simp] theorem Hw.event_replies (h : Hw) (d code : Nat) (data : List Byte) : (h.event d code data).replies = h.replies := by
  rw [(h.rec_event d code data).rest]
@[simp] theorem Hw.event_bl (h : Hw) (d code : Nat) (data : List Byte) : (h.event d code data).bl = h.bl := by
  rw [(h.rec_event d code data).rest]
@[simp] theorem Hw.event_mode (h : Hw) (d code : Nat) (data : List Byte) : (h.event d code data).mode = h.mode := by
  rw [(h.rec_event d code data).rest]
@[simp] theorem Hw.event_lead (h : Hw) (d code : Nat) (data : List Byte) : (h.event d code data).lead = h.lead := by
  rw [(h.rec_event d code data).rest]
@[simp] theorem Hw.event_leadSt (h : Hw) (d code : Nat) (data : List Byte) : (h.event d code data).leadSt = h.leadSt := by
  rw [(h.rec_event d code data).rest]
@[simp] theorem Hw.event_takeover (h : Hw) (d code : Nat) (data : List Byte) : (h.event d code data).takeover = h.takeover := by
  rw [(h.rec_event d code data).rest]
@[simp] theorem Hw.event_kennel (h : Hw) (d code : Nat) (data : List Byte) : (h.event d code data).kennel = h.kennel := by
  rw [(h.rec_event d code data).rest]
@[simp] theorem Hw.event_pkg (h : Hw) (d code : Nat) (data : List Byte) : (h.event d code data).pkg = h.pkg := by
  rw [(h.rec_event d code data).rest]
@[simp] theorem Hw.event_faultMask (h : Hw) (d code : Nat) (data : List Byte) : (h.event d code data).faultMask = h.faultMask := by
  rw [(h.rec_event d code data).rest]
@[simp] theorem Hw.event_ring (h : Hw) (d code : Nat) (data : List Byte) : (h.event d code data).ring = h.ring := by
  rw [(h.rec_event d code data).rest]
@[simp] theorem Hw.event_evtNext (h : Hw) (d code : Nat) (data : List Byte) : (h.event d code data).evtNext = h.evtNext := by
  rw [(h.rec_event d code data).rest]
@[simp] theorem Hw.event_evtDurable (h : Hw) (d code : Nat) (data : List Byte) : (h.event d code data).evtDurable = h.evtDurable := by
  rw [(h.rec_event d code data).rest]
@[simp] theorem Hw.event_limits (h : Hw) (d code : Nat) (data : List Byte) : (h.event d code data).limits = h.limits := by
  rw [(h.rec_event d code data).rest]
@[simp] theorem Hw.event_fwSlots (h : Hw) (d code : Nat) (data : List Byte) : (h.event d code data).fwSlots = h.fwSlots := by
  rw [(h.rec_event d code data).rest]
@[simp] theorem Hw.event_fw (h : Hw) (d code : Nat) (data : List Byte) : (h.event d code data).fw = h.fw := by
  rw [(h.rec_event d code data).rest]
@[simp] theorem Hw.event_fwBooted (h : Hw) (d code : Nat) (data : List Byte) : (h.event d code data).fwBooted = h.fwBooted := by
  rw [(h.rec_event d code data).rest]
@[simp] theorem Hw.event_eps (h : Hw) (d code : Nat) (data : List Byte) : (h.event d code data).eps = h.eps := by
  rw [(h.rec_event d code data).rest]
@[simp] theorem Hw.event_tunnels (h : Hw) (d code : Nat) (data : List Byte) : (h.event d code data).tunnels = h.tunnels := by
  rw [(h.rec_event d code data).rest]
@[simp] theorem Hw.event_hsIn (h : Hw) (d code : Nat) (data : List Byte) : (h.event d code data).hsIn = h.hsIn := by
  rw [(h.rec_event d code data).rest]
@[simp] theorem Hw.event_hostedWait (h : Hw) (d code : Nat) (data : List Byte) : (h.event d code data).hostedWait = h.hostedWait := by
  rw [(h.rec_event d code data).rest]
@[simp] theorem Hw.event_porst (h : Hw) (d code : Nat) (data : List Byte) : (h.event d code data).porst = h.porst := by
  rw [(h.rec_event d code data).rest]
@[simp] theorem Hw.event_railFault (h : Hw) (d code : Nat) (data : List Byte) : (h.event d code data).railFault = h.railFault := by
  rw [(h.rec_event d code data).rest]
@[simp] theorem Hw.event_clkFault (h : Hw) (d code : Nat) (data : List Byte) : (h.event d code data).clkFault = h.clkFault := by
  rw [(h.rec_event d code data).rest]
@[simp] theorem Hw.event_hsForce (h : Hw) (d code : Nat) (data : List Byte) : (h.event d code data).hsForce = h.hsForce := by
  rw [(h.rec_event d code data).rest]
@[simp] theorem Hw.event_hsPins (h : Hw) (d code : Nat) (data : List Byte) : (h.event d code data).hsPins = h.hsPins := by
  rw [(h.rec_event d code data).rest]
@[simp] theorem Hw.event_hsOn (h : Hw) (d code : Nat) (data : List Byte) : (h.event d code data).hsOn = h.hsOn := by
  rw [(h.rec_event d code data).rest]
@[simp] theorem Hw.event_gh (h : Hw) (d code : Nat) (data : List Byte) : (h.event d code data).gh = h.gh := by
  rw [(h.rec_event d code data).rest]
@[simp] theorem Hw.event_stores (h : Hw) (d code : Nat) (data : List Byte) : (h.event d code data).stores = h.stores := by
  rw [(h.rec_event d code data).rest]
@[simp] theorem Hw.event_wipes (h : Hw) (d code : Nat) (data : List Byte) : (h.event d code data).wipes = h.wipes := by
  rw [(h.rec_event d code data).rest]
@[simp] theorem Hw.event_out (h : Hw) (d code : Nat) (data : List Byte) : (h.event d code data).out = h.out := by
  rw [(h.rec_event d code data).rest]
@[simp] theorem Hw.event_die_mbx (h : Hw) (d code : Nat) (data : List Byte) (e : Nat) :
    ((h.event d code data).die e).mbx = (h.die e).mbx := by
  obtain ⟨_, _, _, hd⟩ := (h.rec_event d code data).die e
  rw [hd]
@[simp] theorem Hw.event_die_sb (h : Hw) (d code : Nat) (data : List Byte) (e : Nat) :
    ((h.event d code data).die e).sb = (h.die e).sb := by
  obtain ⟨_, _, _, hd⟩ := (h.rec_event d code data).die e
  rw [hd]
@[simp] theorem Hw.event_die_queues (h : Hw) (d code : Nat) (data : List Byte) (e : Nat) :
    ((h.event d code data).die e).queues = (h.die e).queues := by
  obtain ⟨_, _, _, hd⟩ := (h.rec_event d code data).die e
  rw [hd]
@[simp] theorem Hw.event_die_erSel (h : Hw) (d code : Nat) (data : List Byte) (e : Nat) :
    ((h.event d code data).die e).erSel = (h.die e).erSel := by
  obtain ⟨_, _, _, hd⟩ := (h.rec_event d code data).die e
  rw [hd]
@[simp] theorem Hw.event_die_tbs (h : Hw) (d code : Nat) (data : List Byte) (e : Nat) :
    ((h.event d code data).die e).tbs = (h.die e).tbs := by
  obtain ⟨_, _, _, hd⟩ := (h.rec_event d code data).die e
  rw [hd]
@[simp] theorem Hw.event_die_tbChanges (h : Hw) (d code : Nat) (data : List Byte) (e : Nat) :
    ((h.event d code data).die e).tbChanges = (h.die e).tbChanges := by
  obtain ⟨_, _, _, hd⟩ := (h.rec_event d code data).die e
  rw [hd]
@[simp] theorem Hw.event_die_pulses (h : Hw) (d code : Nat) (data : List Byte) (e : Nat) :
    ((h.event d code data).die e).pulses = (h.die e).pulses := by
  obtain ⟨_, _, _, hd⟩ := (h.rec_event d code data).die e
  rw [hd]
@[simp] theorem Hw.event_die_capFresh (h : Hw) (d code : Nat) (data : List Byte) (e : Nat) :
    ((h.event d code data).die e).capFresh = (h.die e).capFresh := by
  obtain ⟨_, _, _, hd⟩ := (h.rec_event d code data).die e
  rw [hd]
@[simp] theorem Hw.event_die_ptp (h : Hw) (d code : Nat) (data : List Byte) (e : Nat) :
    ((h.event d code data).die e).ptp = (h.die e).ptp := by
  obtain ⟨_, _, _, hd⟩ := (h.rec_event d code data).die e
  rw [hd]
@[simp] theorem Hw.event_die_itv (h : Hw) (d code : Nat) (data : List Byte) (e : Nat) :
    ((h.event d code data).die e).itv = (h.die e).itv := by
  obtain ⟨_, _, _, hd⟩ := (h.rec_event d code data).die e
  rw [hd]
@[simp] theorem Hw.event_die_up (h : Hw) (d code : Nat) (data : List Byte) (e : Nat) :
    ((h.event d code data).die e).up = (h.die e).up := by
  obtain ⟨_, _, _, hd⟩ := (h.rec_event d code data).die e
  rw [hd]
@[simp] theorem Hw.event_die_enc (h : Hw) (d code : Nat) (data : List Byte) (e : Nat) :
    ((h.event d code data).die e).enc = (h.die e).enc := by
  obtain ⟨_, _, _, hd⟩ := (h.rec_event d code data).die e
  rw [hd]
@[simp] theorem Hw.event_die_pos (h : Hw) (d code : Nat) (data : List Byte) (e : Nat) :
    ((h.event d code data).die e).pos = (h.die e).pos := by
  obtain ⟨_, _, _, hd⟩ := (h.rec_event d code data).die e
  rw [hd]
@[simp] theorem Hw.event_die_hwmOn (h : Hw) (d code : Nat) (data : List Byte) (e : Nat) :
    ((h.event d code data).die e).hwmOn = (h.die e).hwmOn := by
  obtain ⟨_, _, _, hd⟩ := (h.rec_event d code data).die e
  rw [hd]
@[simp] theorem Hw.event_die_leaving (h : Hw) (d code : Nat) (data : List Byte) (e : Nat) :
    ((h.event d code data).die e).leaving = (h.die e).leaving := by
  obtain ⟨_, _, _, hd⟩ := (h.rec_event d code data).die e
  rw [hd]
@[simp] theorem Hw.event_die_ports (h : Hw) (d code : Nat) (data : List Byte) (e : Nat) :
    ((h.event d code data).die e).ports = (h.die e).ports := by
  obtain ⟨_, _, _, hd⟩ := (h.rec_event d code data).die e
  rw [hd]
@[simp] theorem Hw.event_die_spits (h : Hw) (d code : Nat) (data : List Byte) (e : Nat) :
    ((h.event d code data).die e).spits = (h.die e).spits := by
  obtain ⟨_, _, _, hd⟩ := (h.rec_event d code data).die e
  rw [hd]
@[simp] theorem Hw.event_die_changes (h : Hw) (d code : Nat) (data : List Byte) (e : Nat) :
    ((h.event d code data).die e).changes = (h.die e).changes := by
  obtain ⟨_, _, _, hd⟩ := (h.rec_event d code data).die e
  rw [hd]
@[simp] theorem Hw.event_die_banks (h : Hw) (d code : Nat) (data : List Byte) (e : Nat) :
    ((h.event d code data).die e).banks = (h.die e).banks := by
  obtain ⟨_, _, _, hd⟩ := (h.rec_event d code data).die e
  rw [hd]
@[simp] theorem Hw.event_die_bankFrom (h : Hw) (d code : Nat) (data : List Byte) (e : Nat) :
    ((h.event d code data).die e).bankFrom = (h.die e).bankFrom := by
  obtain ⟨_, _, _, hd⟩ := (h.rec_event d code data).die e
  rw [hd]
@[simp] theorem Hw.event_die_codec (h : Hw) (d code : Nat) (data : List Byte) (e : Nat) :
    ((h.event d code data).die e).codec = (h.die e).codec := by
  obtain ⟨_, _, _, hd⟩ := (h.rec_event d code data).die e
  rw [hd]
@[simp] theorem Hw.event_die_ctxs (h : Hw) (d code : Nat) (data : List Byte) (e : Nat) :
    ((h.event d code data).die e).ctxs = (h.die e).ctxs := by
  obtain ⟨_, _, _, hd⟩ := (h.rec_event d code data).die e
  rw [hd]
@[simp] theorem Hw.event_die_ctxCache (h : Hw) (d code : Nat) (data : List Byte) (e : Nat) :
    ((h.event d code data).die e).ctxCache = (h.die e).ctxCache := by
  obtain ⟨_, _, _, hd⟩ := (h.rec_event d code data).die e
  rw [hd]
@[simp] theorem Hw.event_die_streams (h : Hw) (d code : Nat) (data : List Byte) (e : Nat) :
    ((h.event d code data).die e).streams = (h.die e).streams := by
  obtain ⟨_, _, _, hd⟩ := (h.rec_event d code data).die e
  rw [hd]
@[simp] theorem Hw.event_die_stop (h : Hw) (d code : Nat) (data : List Byte) (e : Nat) :
    ((h.event d code data).die e).stop = (h.die e).stop := by
  obtain ⟨_, _, _, hd⟩ := (h.rec_event d code data).die e
  rw [hd]
@[simp] theorem Hw.event_die_cams (h : Hw) (d code : Nat) (data : List Byte) (e : Nat) :
    ((h.event d code data).die e).cams = (h.die e).cams := by
  obtain ⟨_, _, _, hd⟩ := (h.rec_event d code data).die e
  rw [hd]
@[simp] theorem Hw.event_die_ispRun (h : Hw) (d code : Nat) (data : List Byte) (e : Nat) :
    ((h.event d code data).die e).ispRun = (h.die e).ispRun := by
  obtain ⟨_, _, _, hd⟩ := (h.rec_event d code data).die e
  rw [hd]
@[simp] theorem Hw.event_die_chains (h : Hw) (d code : Nat) (data : List Byte) (e : Nat) :
    ((h.event d code data).die e).chains = (h.die e).chains := by
  obtain ⟨_, _, _, hd⟩ := (h.rec_event d code data).die e
  rw [hd]
@[simp] theorem Hw.event_die_lamps (h : Hw) (d code : Nat) (data : List Byte) (e : Nat) :
    ((h.event d code data).die e).lamps = (h.die e).lamps := by
  obtain ⟨_, _, _, hd⟩ := (h.rec_event d code data).die e
  rw [hd]
@[simp] theorem Hw.event_die_mx (h : Hw) (d code : Nat) (data : List Byte) (e : Nat) :
    ((h.event d code data).die e).mx = (h.die e).mx := by
  obtain ⟨_, _, _, hd⟩ := (h.rec_event d code data).die e
  rw [hd]
@[simp] theorem Hw.event_die_sensors (h : Hw) (d code : Nat) (data : List Byte) (e : Nat) :
    ((h.event d code data).die e).sensors = (h.die e).sensors := by
  obtain ⟨_, _, _, hd⟩ := (h.rec_event d code data).die e
  rw [hd]
@[simp] theorem Hw.event_die_crit (h : Hw) (d code : Nat) (data : List Byte) (e : Nat) :
    ((h.event d code data).die e).crit = (h.die e).crit := by
  obtain ⟨_, _, _, hd⟩ := (h.rec_event d code data).die e
  rw [hd]
@[simp] theorem Hw.event_die_cals (h : Hw) (d code : Nat) (data : List Byte) (e : Nat) :
    ((h.event d code data).die e).cals = (h.die e).cals := by
  obtain ⟨_, _, _, hd⟩ := (h.rec_event d code data).die e
  rw [hd]
@[simp] theorem Hw.event_die_nvTables (h : Hw) (d code : Nat) (data : List Byte) (e : Nat) :
    ((h.event d code data).die e).nvTables = (h.die e).nvTables := by
  obtain ⟨_, _, _, hd⟩ := (h.rec_event d code data).die e
  rw [hd]
@[simp] theorem Hw.event_die_nvWait (h : Hw) (d code : Nat) (data : List Byte) (e : Nat) :
    ((h.event d code data).die e).nvWait = (h.die e).nvWait := by
  obtain ⟨_, _, _, hd⟩ := (h.rec_event d code data).die e
  rw [hd]
@[simp] theorem Hw.event_die_lineFaults (h : Hw) (d code : Nat) (data : List Byte) (e : Nat) :
    ((h.event d code data).die e).lineFaults = (h.die e).lineFaults := by
  obtain ⟨_, _, _, hd⟩ := (h.rec_event d code data).die e
  rw [hd]
@[simp] theorem Hw.event_die_pdWork (h : Hw) (d code : Nat) (data : List Byte) (e : Nat) :
    ((h.event d code data).die e).pdWork = (h.die e).pdWork := by
  obtain ⟨_, _, _, hd⟩ := (h.rec_event d code data).die e
  rw [hd]

/-! ### Fields under `Hw.eventPkg` -/

@[simp] theorem Hw.eventPkg_blks (h : Hw) (d code : Nat) (data : List Byte) : (h.eventPkg d code data).blks = h.blks := by
  rw [(h.rec_eventPkg d code data).rest]
@[simp] theorem Hw.eventPkg_stages (h : Hw) (d code : Nat) (data : List Byte) : (h.eventPkg d code data).stages = h.stages := by
  rw [(h.rec_eventPkg d code data).rest]
@[simp] theorem Hw.eventPkg_clk (h : Hw) (d code : Nat) (data : List Byte) : (h.eventPkg d code data).clk = h.clk := by
  rw [(h.rec_eventPkg d code data).rest]
@[simp] theorem Hw.eventPkg_free (h : Hw) (d code : Nat) (data : List Byte) : (h.eventPkg d code data).free = h.free := by
  rw [(h.rec_eventPkg d code data).rest]
@[simp] theorem Hw.eventPkg_nextId (h : Hw) (d code : Nat) (data : List Byte) : (h.eventPkg d code data).nextId = h.nextId := by
  rw [(h.rec_eventPkg d code data).rest]
@[simp] theorem Hw.eventPkg_replies (h : Hw) (d code : Nat) (data : List Byte) : (h.eventPkg d code data).replies = h.replies := by
  rw [(h.rec_eventPkg d code data).rest]
@[simp] theorem Hw.eventPkg_bl (h : Hw) (d code : Nat) (data : List Byte) : (h.eventPkg d code data).bl = h.bl := by
  rw [(h.rec_eventPkg d code data).rest]
@[simp] theorem Hw.eventPkg_mode (h : Hw) (d code : Nat) (data : List Byte) : (h.eventPkg d code data).mode = h.mode := by
  rw [(h.rec_eventPkg d code data).rest]
@[simp] theorem Hw.eventPkg_lead (h : Hw) (d code : Nat) (data : List Byte) : (h.eventPkg d code data).lead = h.lead := by
  rw [(h.rec_eventPkg d code data).rest]
@[simp] theorem Hw.eventPkg_leadSt (h : Hw) (d code : Nat) (data : List Byte) : (h.eventPkg d code data).leadSt = h.leadSt := by
  rw [(h.rec_eventPkg d code data).rest]
@[simp] theorem Hw.eventPkg_takeover (h : Hw) (d code : Nat) (data : List Byte) : (h.eventPkg d code data).takeover = h.takeover := by
  rw [(h.rec_eventPkg d code data).rest]
@[simp] theorem Hw.eventPkg_kennel (h : Hw) (d code : Nat) (data : List Byte) : (h.eventPkg d code data).kennel = h.kennel := by
  rw [(h.rec_eventPkg d code data).rest]
@[simp] theorem Hw.eventPkg_pkg (h : Hw) (d code : Nat) (data : List Byte) : (h.eventPkg d code data).pkg = h.pkg := by
  rw [(h.rec_eventPkg d code data).rest]
@[simp] theorem Hw.eventPkg_faultMask (h : Hw) (d code : Nat) (data : List Byte) : (h.eventPkg d code data).faultMask = h.faultMask := by
  rw [(h.rec_eventPkg d code data).rest]
@[simp] theorem Hw.eventPkg_ring (h : Hw) (d code : Nat) (data : List Byte) : (h.eventPkg d code data).ring = h.ring := by
  rw [(h.rec_eventPkg d code data).rest]
@[simp] theorem Hw.eventPkg_evtNext (h : Hw) (d code : Nat) (data : List Byte) : (h.eventPkg d code data).evtNext = h.evtNext := by
  rw [(h.rec_eventPkg d code data).rest]
@[simp] theorem Hw.eventPkg_evtDurable (h : Hw) (d code : Nat) (data : List Byte) : (h.eventPkg d code data).evtDurable = h.evtDurable := by
  rw [(h.rec_eventPkg d code data).rest]
@[simp] theorem Hw.eventPkg_limits (h : Hw) (d code : Nat) (data : List Byte) : (h.eventPkg d code data).limits = h.limits := by
  rw [(h.rec_eventPkg d code data).rest]
@[simp] theorem Hw.eventPkg_fwSlots (h : Hw) (d code : Nat) (data : List Byte) : (h.eventPkg d code data).fwSlots = h.fwSlots := by
  rw [(h.rec_eventPkg d code data).rest]
@[simp] theorem Hw.eventPkg_fw (h : Hw) (d code : Nat) (data : List Byte) : (h.eventPkg d code data).fw = h.fw := by
  rw [(h.rec_eventPkg d code data).rest]
@[simp] theorem Hw.eventPkg_fwBooted (h : Hw) (d code : Nat) (data : List Byte) : (h.eventPkg d code data).fwBooted = h.fwBooted := by
  rw [(h.rec_eventPkg d code data).rest]
@[simp] theorem Hw.eventPkg_eps (h : Hw) (d code : Nat) (data : List Byte) : (h.eventPkg d code data).eps = h.eps := by
  rw [(h.rec_eventPkg d code data).rest]
@[simp] theorem Hw.eventPkg_tunnels (h : Hw) (d code : Nat) (data : List Byte) : (h.eventPkg d code data).tunnels = h.tunnels := by
  rw [(h.rec_eventPkg d code data).rest]
@[simp] theorem Hw.eventPkg_hsIn (h : Hw) (d code : Nat) (data : List Byte) : (h.eventPkg d code data).hsIn = h.hsIn := by
  rw [(h.rec_eventPkg d code data).rest]
@[simp] theorem Hw.eventPkg_hostedWait (h : Hw) (d code : Nat) (data : List Byte) : (h.eventPkg d code data).hostedWait = h.hostedWait := by
  rw [(h.rec_eventPkg d code data).rest]
@[simp] theorem Hw.eventPkg_porst (h : Hw) (d code : Nat) (data : List Byte) : (h.eventPkg d code data).porst = h.porst := by
  rw [(h.rec_eventPkg d code data).rest]
@[simp] theorem Hw.eventPkg_railFault (h : Hw) (d code : Nat) (data : List Byte) : (h.eventPkg d code data).railFault = h.railFault := by
  rw [(h.rec_eventPkg d code data).rest]
@[simp] theorem Hw.eventPkg_clkFault (h : Hw) (d code : Nat) (data : List Byte) : (h.eventPkg d code data).clkFault = h.clkFault := by
  rw [(h.rec_eventPkg d code data).rest]
@[simp] theorem Hw.eventPkg_hsForce (h : Hw) (d code : Nat) (data : List Byte) : (h.eventPkg d code data).hsForce = h.hsForce := by
  rw [(h.rec_eventPkg d code data).rest]
@[simp] theorem Hw.eventPkg_hsPins (h : Hw) (d code : Nat) (data : List Byte) : (h.eventPkg d code data).hsPins = h.hsPins := by
  rw [(h.rec_eventPkg d code data).rest]
@[simp] theorem Hw.eventPkg_hsOn (h : Hw) (d code : Nat) (data : List Byte) : (h.eventPkg d code data).hsOn = h.hsOn := by
  rw [(h.rec_eventPkg d code data).rest]
@[simp] theorem Hw.eventPkg_gh (h : Hw) (d code : Nat) (data : List Byte) : (h.eventPkg d code data).gh = h.gh := by
  rw [(h.rec_eventPkg d code data).rest]
@[simp] theorem Hw.eventPkg_stores (h : Hw) (d code : Nat) (data : List Byte) : (h.eventPkg d code data).stores = h.stores := by
  rw [(h.rec_eventPkg d code data).rest]
@[simp] theorem Hw.eventPkg_wipes (h : Hw) (d code : Nat) (data : List Byte) : (h.eventPkg d code data).wipes = h.wipes := by
  rw [(h.rec_eventPkg d code data).rest]
@[simp] theorem Hw.eventPkg_out (h : Hw) (d code : Nat) (data : List Byte) : (h.eventPkg d code data).out = h.out := by
  rw [(h.rec_eventPkg d code data).rest]
@[simp] theorem Hw.eventPkg_die_mbx (h : Hw) (d code : Nat) (data : List Byte) (e : Nat) :
    ((h.eventPkg d code data).die e).mbx = (h.die e).mbx := by
  obtain ⟨_, _, _, hd⟩ := (h.rec_eventPkg d code data).die e
  rw [hd]
@[simp] theorem Hw.eventPkg_die_sb (h : Hw) (d code : Nat) (data : List Byte) (e : Nat) :
    ((h.eventPkg d code data).die e).sb = (h.die e).sb := by
  obtain ⟨_, _, _, hd⟩ := (h.rec_eventPkg d code data).die e
  rw [hd]
@[simp] theorem Hw.eventPkg_die_queues (h : Hw) (d code : Nat) (data : List Byte) (e : Nat) :
    ((h.eventPkg d code data).die e).queues = (h.die e).queues := by
  obtain ⟨_, _, _, hd⟩ := (h.rec_eventPkg d code data).die e
  rw [hd]
@[simp] theorem Hw.eventPkg_die_erSel (h : Hw) (d code : Nat) (data : List Byte) (e : Nat) :
    ((h.eventPkg d code data).die e).erSel = (h.die e).erSel := by
  obtain ⟨_, _, _, hd⟩ := (h.rec_eventPkg d code data).die e
  rw [hd]
@[simp] theorem Hw.eventPkg_die_tbs (h : Hw) (d code : Nat) (data : List Byte) (e : Nat) :
    ((h.eventPkg d code data).die e).tbs = (h.die e).tbs := by
  obtain ⟨_, _, _, hd⟩ := (h.rec_eventPkg d code data).die e
  rw [hd]
@[simp] theorem Hw.eventPkg_die_tbChanges (h : Hw) (d code : Nat) (data : List Byte) (e : Nat) :
    ((h.eventPkg d code data).die e).tbChanges = (h.die e).tbChanges := by
  obtain ⟨_, _, _, hd⟩ := (h.rec_eventPkg d code data).die e
  rw [hd]
@[simp] theorem Hw.eventPkg_die_pulses (h : Hw) (d code : Nat) (data : List Byte) (e : Nat) :
    ((h.eventPkg d code data).die e).pulses = (h.die e).pulses := by
  obtain ⟨_, _, _, hd⟩ := (h.rec_eventPkg d code data).die e
  rw [hd]
@[simp] theorem Hw.eventPkg_die_capFresh (h : Hw) (d code : Nat) (data : List Byte) (e : Nat) :
    ((h.eventPkg d code data).die e).capFresh = (h.die e).capFresh := by
  obtain ⟨_, _, _, hd⟩ := (h.rec_eventPkg d code data).die e
  rw [hd]
@[simp] theorem Hw.eventPkg_die_ptp (h : Hw) (d code : Nat) (data : List Byte) (e : Nat) :
    ((h.eventPkg d code data).die e).ptp = (h.die e).ptp := by
  obtain ⟨_, _, _, hd⟩ := (h.rec_eventPkg d code data).die e
  rw [hd]
@[simp] theorem Hw.eventPkg_die_itv (h : Hw) (d code : Nat) (data : List Byte) (e : Nat) :
    ((h.eventPkg d code data).die e).itv = (h.die e).itv := by
  obtain ⟨_, _, _, hd⟩ := (h.rec_eventPkg d code data).die e
  rw [hd]
@[simp] theorem Hw.eventPkg_die_up (h : Hw) (d code : Nat) (data : List Byte) (e : Nat) :
    ((h.eventPkg d code data).die e).up = (h.die e).up := by
  obtain ⟨_, _, _, hd⟩ := (h.rec_eventPkg d code data).die e
  rw [hd]
@[simp] theorem Hw.eventPkg_die_enc (h : Hw) (d code : Nat) (data : List Byte) (e : Nat) :
    ((h.eventPkg d code data).die e).enc = (h.die e).enc := by
  obtain ⟨_, _, _, hd⟩ := (h.rec_eventPkg d code data).die e
  rw [hd]
@[simp] theorem Hw.eventPkg_die_pos (h : Hw) (d code : Nat) (data : List Byte) (e : Nat) :
    ((h.eventPkg d code data).die e).pos = (h.die e).pos := by
  obtain ⟨_, _, _, hd⟩ := (h.rec_eventPkg d code data).die e
  rw [hd]
@[simp] theorem Hw.eventPkg_die_hwmOn (h : Hw) (d code : Nat) (data : List Byte) (e : Nat) :
    ((h.eventPkg d code data).die e).hwmOn = (h.die e).hwmOn := by
  obtain ⟨_, _, _, hd⟩ := (h.rec_eventPkg d code data).die e
  rw [hd]
@[simp] theorem Hw.eventPkg_die_leaving (h : Hw) (d code : Nat) (data : List Byte) (e : Nat) :
    ((h.eventPkg d code data).die e).leaving = (h.die e).leaving := by
  obtain ⟨_, _, _, hd⟩ := (h.rec_eventPkg d code data).die e
  rw [hd]
@[simp] theorem Hw.eventPkg_die_ports (h : Hw) (d code : Nat) (data : List Byte) (e : Nat) :
    ((h.eventPkg d code data).die e).ports = (h.die e).ports := by
  obtain ⟨_, _, _, hd⟩ := (h.rec_eventPkg d code data).die e
  rw [hd]
@[simp] theorem Hw.eventPkg_die_spits (h : Hw) (d code : Nat) (data : List Byte) (e : Nat) :
    ((h.eventPkg d code data).die e).spits = (h.die e).spits := by
  obtain ⟨_, _, _, hd⟩ := (h.rec_eventPkg d code data).die e
  rw [hd]
@[simp] theorem Hw.eventPkg_die_changes (h : Hw) (d code : Nat) (data : List Byte) (e : Nat) :
    ((h.eventPkg d code data).die e).changes = (h.die e).changes := by
  obtain ⟨_, _, _, hd⟩ := (h.rec_eventPkg d code data).die e
  rw [hd]
@[simp] theorem Hw.eventPkg_die_banks (h : Hw) (d code : Nat) (data : List Byte) (e : Nat) :
    ((h.eventPkg d code data).die e).banks = (h.die e).banks := by
  obtain ⟨_, _, _, hd⟩ := (h.rec_eventPkg d code data).die e
  rw [hd]
@[simp] theorem Hw.eventPkg_die_bankFrom (h : Hw) (d code : Nat) (data : List Byte) (e : Nat) :
    ((h.eventPkg d code data).die e).bankFrom = (h.die e).bankFrom := by
  obtain ⟨_, _, _, hd⟩ := (h.rec_eventPkg d code data).die e
  rw [hd]
@[simp] theorem Hw.eventPkg_die_codec (h : Hw) (d code : Nat) (data : List Byte) (e : Nat) :
    ((h.eventPkg d code data).die e).codec = (h.die e).codec := by
  obtain ⟨_, _, _, hd⟩ := (h.rec_eventPkg d code data).die e
  rw [hd]
@[simp] theorem Hw.eventPkg_die_ctxs (h : Hw) (d code : Nat) (data : List Byte) (e : Nat) :
    ((h.eventPkg d code data).die e).ctxs = (h.die e).ctxs := by
  obtain ⟨_, _, _, hd⟩ := (h.rec_eventPkg d code data).die e
  rw [hd]
@[simp] theorem Hw.eventPkg_die_ctxCache (h : Hw) (d code : Nat) (data : List Byte) (e : Nat) :
    ((h.eventPkg d code data).die e).ctxCache = (h.die e).ctxCache := by
  obtain ⟨_, _, _, hd⟩ := (h.rec_eventPkg d code data).die e
  rw [hd]
@[simp] theorem Hw.eventPkg_die_streams (h : Hw) (d code : Nat) (data : List Byte) (e : Nat) :
    ((h.eventPkg d code data).die e).streams = (h.die e).streams := by
  obtain ⟨_, _, _, hd⟩ := (h.rec_eventPkg d code data).die e
  rw [hd]
@[simp] theorem Hw.eventPkg_die_stop (h : Hw) (d code : Nat) (data : List Byte) (e : Nat) :
    ((h.eventPkg d code data).die e).stop = (h.die e).stop := by
  obtain ⟨_, _, _, hd⟩ := (h.rec_eventPkg d code data).die e
  rw [hd]
@[simp] theorem Hw.eventPkg_die_cams (h : Hw) (d code : Nat) (data : List Byte) (e : Nat) :
    ((h.eventPkg d code data).die e).cams = (h.die e).cams := by
  obtain ⟨_, _, _, hd⟩ := (h.rec_eventPkg d code data).die e
  rw [hd]
@[simp] theorem Hw.eventPkg_die_ispRun (h : Hw) (d code : Nat) (data : List Byte) (e : Nat) :
    ((h.eventPkg d code data).die e).ispRun = (h.die e).ispRun := by
  obtain ⟨_, _, _, hd⟩ := (h.rec_eventPkg d code data).die e
  rw [hd]
@[simp] theorem Hw.eventPkg_die_chains (h : Hw) (d code : Nat) (data : List Byte) (e : Nat) :
    ((h.eventPkg d code data).die e).chains = (h.die e).chains := by
  obtain ⟨_, _, _, hd⟩ := (h.rec_eventPkg d code data).die e
  rw [hd]
@[simp] theorem Hw.eventPkg_die_lamps (h : Hw) (d code : Nat) (data : List Byte) (e : Nat) :
    ((h.eventPkg d code data).die e).lamps = (h.die e).lamps := by
  obtain ⟨_, _, _, hd⟩ := (h.rec_eventPkg d code data).die e
  rw [hd]
@[simp] theorem Hw.eventPkg_die_mx (h : Hw) (d code : Nat) (data : List Byte) (e : Nat) :
    ((h.eventPkg d code data).die e).mx = (h.die e).mx := by
  obtain ⟨_, _, _, hd⟩ := (h.rec_eventPkg d code data).die e
  rw [hd]
@[simp] theorem Hw.eventPkg_die_sensors (h : Hw) (d code : Nat) (data : List Byte) (e : Nat) :
    ((h.eventPkg d code data).die e).sensors = (h.die e).sensors := by
  obtain ⟨_, _, _, hd⟩ := (h.rec_eventPkg d code data).die e
  rw [hd]
@[simp] theorem Hw.eventPkg_die_crit (h : Hw) (d code : Nat) (data : List Byte) (e : Nat) :
    ((h.eventPkg d code data).die e).crit = (h.die e).crit := by
  obtain ⟨_, _, _, hd⟩ := (h.rec_eventPkg d code data).die e
  rw [hd]
@[simp] theorem Hw.eventPkg_die_cals (h : Hw) (d code : Nat) (data : List Byte) (e : Nat) :
    ((h.eventPkg d code data).die e).cals = (h.die e).cals := by
  obtain ⟨_, _, _, hd⟩ := (h.rec_eventPkg d code data).die e
  rw [hd]
@[simp] theorem Hw.eventPkg_die_nvTables (h : Hw) (d code : Nat) (data : List Byte) (e : Nat) :
    ((h.eventPkg d code data).die e).nvTables = (h.die e).nvTables := by
  obtain ⟨_, _, _, hd⟩ := (h.rec_eventPkg d code data).die e
  rw [hd]
@[simp] theorem Hw.eventPkg_die_nvWait (h : Hw) (d code : Nat) (data : List Byte) (e : Nat) :
    ((h.eventPkg d code data).die e).nvWait = (h.die e).nvWait := by
  obtain ⟨_, _, _, hd⟩ := (h.rec_eventPkg d code data).die e
  rw [hd]
@[simp] theorem Hw.eventPkg_die_lineFaults (h : Hw) (d code : Nat) (data : List Byte) (e : Nat) :
    ((h.eventPkg d code data).die e).lineFaults = (h.die e).lineFaults := by
  obtain ⟨_, _, _, hd⟩ := (h.rec_eventPkg d code data).die e
  rw [hd]
@[simp] theorem Hw.eventPkg_die_pdWork (h : Hw) (d code : Nat) (data : List Byte) (e : Nat) :
    ((h.eventPkg d code data).die e).pdWork = (h.die e).pdWork := by
  obtain ⟨_, _, _, hd⟩ := (h.rec_eventPkg d code data).die e
  rw [hd]

end Sys2Proof.Machine
end

