-- ==== Sys2Proof/Laws/Commands.lean ====
section
/-!
SUPPORT. The laws of the lifts: what a step makes of an effect on the package, a die, a unit, and of a mailbox command with its
reply.
-/
namespace Sys2Proof.Machine

/-! ### A step's effect -/

@[simp] theorem State.begun_blks (s : State) : s.begun.blks = s.hw.blks := rfl
@[simp] theorem State.begun_stages (s : State) : s.begun.stages = s.hw.stages := rfl
@[simp] theorem State.begun_clk (s : State) : s.begun.clk = s.hw.clk := rfl
@[simp] theorem State.begun_free (s : State) : s.begun.free = s.hw.free := rfl
@[simp] theorem State.begun_nextId (s : State) : s.begun.nextId = s.hw.nextId := rfl
@[simp] theorem State.begun_replies (s : State) : s.begun.replies = s.hw.replies := rfl
@[simp] theorem State.begun_bl (s : State) : s.begun.bl = s.hw.bl := rfl
@[simp] theorem State.begun_mode (s : State) : s.begun.mode = s.hw.mode := rfl
@[simp] theorem State.begun_lead (s : State) : s.begun.lead = s.hw.lead := rfl
@[simp] theorem State.begun_leadSt (s : State) : s.begun.leadSt = s.hw.leadSt := rfl
@[simp] theorem State.begun_takeover (s : State) : s.begun.takeover = s.hw.takeover := rfl
@[simp] theorem State.begun_kennel (s : State) : s.begun.kennel = s.hw.kennel := rfl
@[simp] theorem State.begun_pkg (s : State) : s.begun.pkg = s.hw.pkg := rfl
@[simp] theorem State.begun_faultMask (s : State) : s.begun.faultMask = s.hw.faultMask := rfl
@[simp] theorem State.begun_ring (s : State) : s.begun.ring = s.hw.ring := rfl
@[simp] theorem State.begun_evtNext (s : State) : s.begun.evtNext = s.hw.evtNext := rfl
@[simp] theorem State.begun_evtDurable (s : State) : s.begun.evtDurable = s.hw.evtDurable := rfl
@[simp] theorem State.begun_limits (s : State) : s.begun.limits = s.hw.limits := rfl
@[simp] theorem State.begun_fwSlots (s : State) : s.begun.fwSlots = s.hw.fwSlots := rfl
@[simp] theorem State.begun_fw (s : State) : s.begun.fw = s.hw.fw := rfl
@[simp] theorem State.begun_fwBooted (s : State) : s.begun.fwBooted = s.hw.fwBooted := rfl
@[simp] theorem State.begun_eps (s : State) : s.begun.eps = s.hw.eps := rfl
@[simp] theorem State.begun_tunnels (s : State) : s.begun.tunnels = s.hw.tunnels := rfl
@[simp] theorem State.begun_hsIn (s : State) : s.begun.hsIn = s.hw.hsIn := rfl
@[simp] theorem State.begun_hostedWait (s : State) : s.begun.hostedWait = s.hw.hostedWait := rfl
@[simp] theorem State.begun_porst (s : State) : s.begun.porst = s.hw.porst := rfl
@[simp] theorem State.begun_railFault (s : State) : s.begun.railFault = s.hw.railFault := rfl
@[simp] theorem State.begun_clkFault (s : State) : s.begun.clkFault = s.hw.clkFault := rfl
@[simp] theorem State.begun_hsForce (s : State) : s.begun.hsForce = s.hw.hsForce := rfl
@[simp] theorem State.begun_hsPins (s : State) : s.begun.hsPins = s.hw.hsPins := rfl
@[simp] theorem State.begun_hsOn (s : State) : s.begun.hsOn = s.hw.hsOn := rfl
@[simp] theorem State.begun_gh (s : State) : s.begun.gh = s.hw.gh := rfl
@[simp] theorem State.begun_dies (s : State) : s.begun.dies = s.hw.dies := rfl
@[simp] theorem State.begun_regs (s : State) : s.begun.regs = s.hw.regs := rfl
@[simp] theorem State.begun_stores (s : State) : s.begun.stores = [] := rfl
@[simp] theorem State.begun_wipes (s : State) : s.begun.wipes = [] := rfl
@[simp] theorem State.begun_out (s : State) : s.begun.out = [] := rfl
@[simp] theorem State.rd_begun (s : State) (d : Nat) (a : AttrId) (i : Nat) : s.begun.rd d a i = s.hw.rd d a i := rfl
@[simp] theorem State.die_begun (s : State) (d : Nat) : s.begun.die d = s.hw.die d := rfl
@[simp] theorem State.blk_begun (s : State) (k : RegKey) : s.begun.blk k = s.hw.blk k := rfl

@[simp] theorem State.run_pending (s : State) (f : List (List Host.Cell) → Hw → Hw) : (s.run f).pending = s.pending := rfl
@[simp] theorem State.run_stores (s : State) (f : List (List Host.Cell) → Hw → Hw) : (s.run f).hw.stores = [] := rfl
@[simp] theorem State.run_wipes (s : State) (f : List (List Host.Cell) → Hw → Hw) : (s.run f).hw.wipes = [] := rfl

/-- The record after a step. -/
theorem State.run_hw (s : State) (f : List (List Host.Cell) → Hw → Hw) :
    (s.run f).hw = { f s.mems s.begun with stores := [], wipes := [] } := rfl

theorem State.run_mems (s : State) (f : List (List Host.Cell) → Hw → Hw) :
    (s.run f).mems = applyStores (applyWipes s.mems (f s.mems s.begun).wipes) (f s.mems s.begun).stores := rfl

/-- A step that stores and loses nothing leaves the memories. -/
theorem State.run_mems_same (s : State) (f : List (List Host.Cell) → Hw → Hw) (h1 : (f s.mems s.begun).stores = [])
    (h2 : (f s.mems s.begun).wipes = []) : (s.run f).mems = s.mems := by rw [State.run_mems, h1, h2]; rfl

@[simp] theorem State.run_rd (s : State) (f : List (List Host.Cell) → Hw → Hw) (d : Nat) (a : AttrId) (i : Nat) :
    (s.run f).hw.rd d a i = (f s.mems s.begun).rd d a i := rfl
@[simp] theorem State.run_die (s : State) (f : List (List Host.Cell) → Hw → Hw) (d : Nat) :
    (s.run f).hw.die d = (f s.mems s.begun).die d := rfl
@[simp] theorem State.run_blk (s : State) (f : List (List Host.Cell) → Hw → Hw) (k : RegKey) :
    (s.run f).hw.blk k = (f s.mems s.begun).blk k := rfl
@[simp] theorem State.run_reply? (s : State) (f : List (List Host.Cell) → Hw → Hw) (o : Origin) (tag : Nat) :
    (s.run f).hw.reply? o tag = (f s.mems s.begun).reply? o tag := rfl
@[simp] theorem State.run_blks (s : State) (f : List (List Host.Cell) → Hw → Hw) : (s.run f).hw.blks = (f s.mems s.begun).blks := rfl
@[simp] theorem State.run_stages (s : State) (f : List (List Host.Cell) → Hw → Hw) : (s.run f).hw.stages = (f s.mems s.begun).stages := rfl
@[simp] theorem State.run_clk (s : State) (f : List (List Host.Cell) → Hw → Hw) : (s.run f).hw.clk = (f s.mems s.begun).clk := rfl
@[simp] theorem State.run_free (s : State) (f : List (List Host.Cell) → Hw → Hw) : (s.run f).hw.free = (f s.mems s.begun).free := rfl
@[simp] theorem State.run_nextId (s : State) (f : List (List Host.Cell) → Hw → Hw) : (s.run f).hw.nextId = (f s.mems s.begun).nextId := rfl
@[simp] theorem State.run_replies (s : State) (f : List (List Host.Cell) → Hw → Hw) : (s.run f).hw.replies = (f s.mems s.begun).replies := rfl
@[simp] theorem State.run_bl (s : State) (f : List (List Host.Cell) → Hw → Hw) : (s.run f).hw.bl = (f s.mems s.begun).bl := rfl
@[simp] theorem State.run_mode (s : State) (f : List (List Host.Cell) → Hw → Hw) : (s.run f).hw.mode = (f s.mems s.begun).mode := rfl
@[simp] theorem State.run_lead (s : State) (f : List (List Host.Cell) → Hw → Hw) : (s.run f).hw.lead = (f s.mems s.begun).lead := rfl
@[simp] theorem State.run_leadSt (s : State) (f : List (List Host.Cell) → Hw → Hw) : (s.run f).hw.leadSt = (f s.mems s.begun).leadSt := rfl
@[simp] theorem State.run_takeover (s : State) (f : List (List Host.Cell) → Hw → Hw) : (s.run f).hw.takeover = (f s.mems s.begun).takeover := rfl
@[simp] theorem State.run_kennel (s : State) (f : List (List Host.Cell) → Hw → Hw) : (s.run f).hw.kennel = (f s.mems s.begun).kennel := rfl
@[simp] theorem State.run_pkg (s : State) (f : List (List Host.Cell) → Hw → Hw) : (s.run f).hw.pkg = (f s.mems s.begun).pkg := rfl
@[simp] theorem State.run_faultMask (s : State) (f : List (List Host.Cell) → Hw → Hw) : (s.run f).hw.faultMask = (f s.mems s.begun).faultMask := rfl
@[simp] theorem State.run_ring (s : State) (f : List (List Host.Cell) → Hw → Hw) : (s.run f).hw.ring = (f s.mems s.begun).ring := rfl
@[simp] theorem State.run_evtNext (s : State) (f : List (List Host.Cell) → Hw → Hw) : (s.run f).hw.evtNext = (f s.mems s.begun).evtNext := rfl
@[simp] theorem State.run_evtDurable (s : State) (f : List (List Host.Cell) → Hw → Hw) : (s.run f).hw.evtDurable = (f s.mems s.begun).evtDurable := rfl
@[simp] theorem State.run_limits (s : State) (f : List (List Host.Cell) → Hw → Hw) : (s.run f).hw.limits = (f s.mems s.begun).limits := rfl
@[simp] theorem State.run_fwSlots (s : State) (f : List (List Host.Cell) → Hw → Hw) : (s.run f).hw.fwSlots = (f s.mems s.begun).fwSlots := rfl
@[simp] theorem State.run_fw (s : State) (f : List (List Host.Cell) → Hw → Hw) : (s.run f).hw.fw = (f s.mems s.begun).fw := rfl
@[simp] theorem State.run_fwBooted (s : State) (f : List (List Host.Cell) → Hw → Hw) : (s.run f).hw.fwBooted = (f s.mems s.begun).fwBooted := rfl
@[simp] theorem State.run_eps (s : State) (f : List (List Host.Cell) → Hw → Hw) : (s.run f).hw.eps = (f s.mems s.begun).eps := rfl
@[simp] theorem State.run_tunnels (s : State) (f : List (List Host.Cell) → Hw → Hw) : (s.run f).hw.tunnels = (f s.mems s.begun).tunnels := rfl
@[simp] theorem State.run_hsIn (s : State) (f : List (List Host.Cell) → Hw → Hw) : (s.run f).hw.hsIn = (f s.mems s.begun).hsIn := rfl
@[simp] theorem State.run_hostedWait (s : State) (f : List (List Host.Cell) → Hw → Hw) : (s.run f).hw.hostedWait = (f s.mems s.begun).hostedWait := rfl
@[simp] theorem State.run_porst (s : State) (f : List (List Host.Cell) → Hw → Hw) : (s.run f).hw.porst = (f s.mems s.begun).porst := rfl
@[simp] theorem State.run_railFault (s : State) (f : List (List Host.Cell) → Hw → Hw) : (s.run f).hw.railFault = (f s.mems s.begun).railFault := rfl
@[simp] theorem State.run_clkFault (s : State) (f : List (List Host.Cell) → Hw → Hw) : (s.run f).hw.clkFault = (f s.mems s.begun).clkFault := rfl
@[simp] theorem State.run_hsForce (s : State) (f : List (List Host.Cell) → Hw → Hw) : (s.run f).hw.hsForce = (f s.mems s.begun).hsForce := rfl
@[simp] theorem State.run_hsPins (s : State) (f : List (List Host.Cell) → Hw → Hw) : (s.run f).hw.hsPins = (f s.mems s.begun).hsPins := rfl
@[simp] theorem State.run_hsOn (s : State) (f : List (List Host.Cell) → Hw → Hw) : (s.run f).hw.hsOn = (f s.mems s.begun).hsOn := rfl
@[simp] theorem State.run_gh (s : State) (f : List (List Host.Cell) → Hw → Hw) : (s.run f).hw.gh = (f s.mems s.begun).gh := rfl
@[simp] theorem State.run_out (s : State) (f : List (List Host.Cell) → Hw → Hw) : (s.run f).hw.out = (f s.mems s.begun).out := rfl
@[simp] theorem State.run_dies (s : State) (f : List (List Host.Cell) → Hw → Hw) : (s.run f).hw.dies = (f s.mems s.begun).dies := rfl
@[simp] theorem State.run_regs (s : State) (f : List (List Host.Cell) → Hw → Hw) : (s.run f).hw.regs = (f s.mems s.begun).regs := rfl

theorem State.onPkg_next (s : State) (f : List (List Host.Cell) → Hw → Hw) : s.onPkg f = .next (s.run f) := rfl

theorem State.onDie_next (s : State) {d : Nat} (f : List (List Host.Cell) → Hw → Hw) (hd : d < s.hw.dies.length) :
    s.onDie d f = .next (s.run f) := by simp [State.onDie, hd]

theorem State.onUnit_next (s : State) {d u n : Nat} (f : List (List Host.Cell) → Hw → Hw) (hd : d < s.hw.dies.length)
    (hu : u < n) : s.onUnit d u n f = .next (s.run f) := by simp [State.onUnit, hd, hu]

/-- What an answer of the die lift says. -/
theorem State.of_onDie {s t : State} {d : Nat} {f : List (List Host.Cell) → Hw → Hw} (h : s.onDie d f = .next t) :
    d < s.hw.dies.length ∧ t = s.run f := by
  unfold State.onDie at h
  split at h
  · rename_i hd
    exact ⟨hd, by injection h with h; exact h.symm⟩
  · cases h

/-- What an answer of the unit lift says. -/
theorem State.of_onUnit {s t : State} {d u n : Nat} {f : List (List Host.Cell) → Hw → Hw} (h : s.onUnit d u n f = .next t) :
    d < s.hw.dies.length ∧ u < n ∧ t = s.run f := by
  unfold State.onUnit at h
  split at h
  · rename_i hd
    split at h
    · rename_i hu
      exact ⟨hd, hu, by injection h with h; exact h.symm⟩
    · cases h
  · cases h

/-! ### The start of a mailbox command -/

@[simp] theorem Hw.started_blks (h : Hw) (q : Hdr) : (h.started q).blks = h.blks := rfl
@[simp] theorem Hw.started_stages (h : Hw) (q : Hdr) : (h.started q).stages = h.stages := rfl
@[simp] theorem Hw.started_clk (h : Hw) (q : Hdr) : (h.started q).clk = h.clk := rfl
@[simp] theorem Hw.started_free (h : Hw) (q : Hdr) : (h.started q).free = h.free := rfl
@[simp] theorem Hw.started_nextId (h : Hw) (q : Hdr) : (h.started q).nextId = h.nextId := rfl
@[simp] theorem Hw.started_replies (h : Hw) (q : Hdr) : (h.started q).replies = h.replies := rfl
@[simp] theorem Hw.started_bl (h : Hw) (q : Hdr) : (h.started q).bl = h.bl := rfl
@[simp] theorem Hw.started_mode (h : Hw) (q : Hdr) : (h.started q).mode = h.mode := rfl
@[simp] theorem Hw.started_lead (h : Hw) (q : Hdr) : (h.started q).lead = h.lead := rfl
@[simp] theorem Hw.started_leadSt (h : Hw) (q : Hdr) : (h.started q).leadSt = h.leadSt := rfl
@[simp] theorem Hw.started_takeover (h : Hw) (q : Hdr) : (h.started q).takeover = h.takeover := rfl
@[simp] theorem Hw.started_kennel (h : Hw) (q : Hdr) : (h.started q).kennel = h.kennel := rfl
@[simp] theorem Hw.started_pkg (h : Hw) (q : Hdr) : (h.started q).pkg = h.pkg := rfl
@[simp] theorem Hw.started_faultMask (h : Hw) (q : Hdr) : (h.started q).faultMask = h.faultMask := rfl
@[simp] theorem Hw.started_ring (h : Hw) (q : Hdr) : (h.started q).ring = h.ring := rfl
@[simp] theorem Hw.started_evtNext (h : Hw) (q : Hdr) : (h.started q).evtNext = h.evtNext := rfl
@[simp] theorem Hw.started_evtDurable (h : Hw) (q : Hdr) : (h.started q).evtDurable = h.evtDurable := rfl
@[simp] theorem Hw.started_limits (h : Hw) (q : Hdr) : (h.started q).limits = h.limits := rfl
@[simp] theorem Hw.started_fwSlots (h : Hw) (q : Hdr) : (h.started q).fwSlots = h.fwSlots := rfl
@[simp] theorem Hw.started_fw (h : Hw) (q : Hdr) : (h.started q).fw = h.fw := rfl
@[simp] theorem Hw.started_fwBooted (h : Hw) (q : Hdr) : (h.started q).fwBooted = h.fwBooted := rfl
@[simp] theorem Hw.started_eps (h : Hw) (q : Hdr) : (h.started q).eps = h.eps := rfl
@[simp] theorem Hw.started_tunnels (h : Hw) (q : Hdr) : (h.started q).tunnels = h.tunnels := rfl
@[simp] theorem Hw.started_hsIn (h : Hw) (q : Hdr) : (h.started q).hsIn = h.hsIn := rfl
@[simp] theorem Hw.started_hostedWait (h : Hw) (q : Hdr) : (h.started q).hostedWait = h.hostedWait := rfl
@[simp] theorem Hw.started_porst (h : Hw) (q : Hdr) : (h.started q).porst = h.porst := rfl
@[simp] theorem Hw.started_railFault (h : Hw) (q : Hdr) : (h.started q).railFault = h.railFault := rfl
@[simp] theorem Hw.started_clkFault (h : Hw) (q : Hdr) : (h.started q).clkFault = h.clkFault := rfl
@[simp] theorem Hw.started_hsForce (h : Hw) (q : Hdr) : (h.started q).hsForce = h.hsForce := rfl
@[simp] theorem Hw.started_hsPins (h : Hw) (q : Hdr) : (h.started q).hsPins = h.hsPins := rfl
@[simp] theorem Hw.started_hsOn (h : Hw) (q : Hdr) : (h.started q).hsOn = h.hsOn := rfl
@[simp] theorem Hw.started_gh (h : Hw) (q : Hdr) : (h.started q).gh = h.gh := rfl
@[simp] theorem Hw.started_stores (h : Hw) (q : Hdr) : (h.started q).stores = h.stores := rfl
@[simp] theorem Hw.started_wipes (h : Hw) (q : Hdr) : (h.started q).wipes = h.wipes := rfl
@[simp] theorem Hw.started_out (h : Hw) (q : Hdr) : (h.started q).out = h.out := rfl
@[simp] theorem Hw.started_regs (h : Hw) (q : Hdr) : (h.started q).regs = h.regs := rfl
@[simp] theorem Hw.started_length (h : Hw) (q : Hdr) : (h.started q).dies.length = h.dies.length := by simp [Hw.started]
@[simp] theorem Hw.rd_started (h : Hw) (q : Hdr) (d : Nat) (a : AttrId) (i : Nat) : (h.started q).rd d a i = h.rd d a i := rfl
@[simp] theorem Hw.blk_started (h : Hw) (q : Hdr) (k : RegKey) : (h.started q).blk k = h.blk k := rfl
@[simp] theorem Hw.reply?_started (h : Hw) (q : Hdr) (o : Origin) (tag : Nat) : (h.started q).reply? o tag = h.reply? o tag := rfl

theorem Hw.started_field {β : Type} (h : Hw) (q : Hdr) (g : Die → β) (hg : ∀ D m, g { D with mbx := m } = g D) (e : Nat) :
    g ((h.started q).die e) = g (h.die e) := by
  unfold Hw.die Hw.started
  simp only [List.getD_eq_getElem?_getD, List.getElem?_map]
  cases h.dies[e]? <;> simp [hg]

@[simp] theorem Hw.started_die_sb (h : Hw) (q : Hdr) (e : Nat) : ((h.started q).die e).sb = (h.die e).sb :=
  h.started_field q (·.sb) (fun _ _ => rfl) e
@[simp] theorem Hw.started_die_queues (h : Hw) (q : Hdr) (e : Nat) : ((h.started q).die e).queues = (h.die e).queues :=
  h.started_field q (·.queues) (fun _ _ => rfl) e
@[simp] theorem Hw.started_die_front (h : Hw) (q : Hdr) (e : Nat) : ((h.started q).die e).front = (h.die e).front :=
  h.started_field q (·.front) (fun _ _ => rfl) e
@[simp] theorem Hw.started_die_buckets (h : Hw) (q : Hdr) (e : Nat) : ((h.started q).die e).buckets = (h.die e).buckets :=
  h.started_field q (·.buckets) (fun _ _ => rfl) e
@[simp] theorem Hw.started_die_folded (h : Hw) (q : Hdr) (e : Nat) : ((h.started q).die e).folded = (h.die e).folded :=
  h.started_field q (·.folded) (fun _ _ => rfl) e
@[simp] theorem Hw.started_die_erSel (h : Hw) (q : Hdr) (e : Nat) : ((h.started q).die e).erSel = (h.die e).erSel :=
  h.started_field q (·.erSel) (fun _ _ => rfl) e
@[simp] theorem Hw.started_die_tbs (h : Hw) (q : Hdr) (e : Nat) : ((h.started q).die e).tbs = (h.die e).tbs :=
  h.started_field q (·.tbs) (fun _ _ => rfl) e
@[simp] theorem Hw.started_die_tbChanges (h : Hw) (q : Hdr) (e : Nat) : ((h.started q).die e).tbChanges = (h.die e).tbChanges :=
  h.started_field q (·.tbChanges) (fun _ _ => rfl) e
@[simp] theorem Hw.started_die_pulses (h : Hw) (q : Hdr) (e : Nat) : ((h.started q).die e).pulses = (h.die e).pulses :=
  h.started_field q (·.pulses) (fun _ _ => rfl) e
@[simp] theorem Hw.started_die_capFresh (h : Hw) (q : Hdr) (e : Nat) : ((h.started q).die e).capFresh = (h.die e).capFresh :=
  h.started_field q (·.capFresh) (fun _ _ => rfl) e
@[simp] theorem Hw.started_die_ptp (h : Hw) (q : Hdr) (e : Nat) : ((h.started q).die e).ptp = (h.die e).ptp :=
  h.started_field q (·.ptp) (fun _ _ => rfl) e
@[simp] theorem Hw.started_die_itv (h : Hw) (q : Hdr) (e : Nat) : ((h.started q).die e).itv = (h.die e).itv :=
  h.started_field q (·.itv) (fun _ _ => rfl) e
@[simp] theorem Hw.started_die_up (h : Hw) (q : Hdr) (e : Nat) : ((h.started q).die e).up = (h.die e).up :=
  h.started_field q (·.up) (fun _ _ => rfl) e
@[simp] theorem Hw.started_die_enc (h : Hw) (q : Hdr) (e : Nat) : ((h.started q).die e).enc = (h.die e).enc :=
  h.started_field q (·.enc) (fun _ _ => rfl) e
@[simp] theorem Hw.started_die_pos (h : Hw) (q : Hdr) (e : Nat) : ((h.started q).die e).pos = (h.die e).pos :=
  h.started_field q (·.pos) (fun _ _ => rfl) e
@[simp] theorem Hw.started_die_hwmOn (h : Hw) (q : Hdr) (e : Nat) : ((h.started q).die e).hwmOn = (h.die e).hwmOn :=
  h.started_field q (·.hwmOn) (fun _ _ => rfl) e
@[simp] theorem Hw.started_die_leaving (h : Hw) (q : Hdr) (e : Nat) : ((h.started q).die e).leaving = (h.die e).leaving :=
  h.started_field q (·.leaving) (fun _ _ => rfl) e
@[simp] theorem Hw.started_die_ports (h : Hw) (q : Hdr) (e : Nat) : ((h.started q).die e).ports = (h.die e).ports :=
  h.started_field q (·.ports) (fun _ _ => rfl) e
@[simp] theorem Hw.started_die_spits (h : Hw) (q : Hdr) (e : Nat) : ((h.started q).die e).spits = (h.die e).spits :=
  h.started_field q (·.spits) (fun _ _ => rfl) e
@[simp] theorem Hw.started_die_changes (h : Hw) (q : Hdr) (e : Nat) : ((h.started q).die e).changes = (h.die e).changes :=
  h.started_field q (·.changes) (fun _ _ => rfl) e
@[simp] theorem Hw.started_die_banks (h : Hw) (q : Hdr) (e : Nat) : ((h.started q).die e).banks = (h.die e).banks :=
  h.started_field q (·.banks) (fun _ _ => rfl) e
@[simp] theorem Hw.started_die_bankFrom (h : Hw) (q : Hdr) (e : Nat) : ((h.started q).die e).bankFrom = (h.die e).bankFrom :=
  h.started_field q (·.bankFrom) (fun _ _ => rfl) e
@[simp] theorem Hw.started_die_codec (h : Hw) (q : Hdr) (e : Nat) : ((h.started q).die e).codec = (h.die e).codec :=
  h.started_field q (·.codec) (fun _ _ => rfl) e
@[simp] theorem Hw.started_die_ctxs (h : Hw) (q : Hdr) (e : Nat) : ((h.started q).die e).ctxs = (h.die e).ctxs :=
  h.started_field q (·.ctxs) (fun _ _ => rfl) e
@[simp] theorem Hw.started_die_ctxCache (h : Hw) (q : Hdr) (e : Nat) : ((h.started q).die e).ctxCache = (h.die e).ctxCache :=
  h.started_field q (·.ctxCache) (fun _ _ => rfl) e
@[simp] theorem Hw.started_die_streams (h : Hw) (q : Hdr) (e : Nat) : ((h.started q).die e).streams = (h.die e).streams :=
  h.started_field q (·.streams) (fun _ _ => rfl) e
@[simp] theorem Hw.started_die_stop (h : Hw) (q : Hdr) (e : Nat) : ((h.started q).die e).stop = (h.die e).stop :=
  h.started_field q (·.stop) (fun _ _ => rfl) e
@[simp] theorem Hw.started_die_cams (h : Hw) (q : Hdr) (e : Nat) : ((h.started q).die e).cams = (h.die e).cams :=
  h.started_field q (·.cams) (fun _ _ => rfl) e
@[simp] theorem Hw.started_die_ispRun (h : Hw) (q : Hdr) (e : Nat) : ((h.started q).die e).ispRun = (h.die e).ispRun :=
  h.started_field q (·.ispRun) (fun _ _ => rfl) e
@[simp] theorem Hw.started_die_chains (h : Hw) (q : Hdr) (e : Nat) : ((h.started q).die e).chains = (h.die e).chains :=
  h.started_field q (·.chains) (fun _ _ => rfl) e
@[simp] theorem Hw.started_die_lamps (h : Hw) (q : Hdr) (e : Nat) : ((h.started q).die e).lamps = (h.die e).lamps :=
  h.started_field q (·.lamps) (fun _ _ => rfl) e
@[simp] theorem Hw.started_die_mx (h : Hw) (q : Hdr) (e : Nat) : ((h.started q).die e).mx = (h.die e).mx :=
  h.started_field q (·.mx) (fun _ _ => rfl) e
@[simp] theorem Hw.started_die_sensors (h : Hw) (q : Hdr) (e : Nat) : ((h.started q).die e).sensors = (h.die e).sensors :=
  h.started_field q (·.sensors) (fun _ _ => rfl) e
@[simp] theorem Hw.started_die_crit (h : Hw) (q : Hdr) (e : Nat) : ((h.started q).die e).crit = (h.die e).crit :=
  h.started_field q (·.crit) (fun _ _ => rfl) e
@[simp] theorem Hw.started_die_cals (h : Hw) (q : Hdr) (e : Nat) : ((h.started q).die e).cals = (h.die e).cals :=
  h.started_field q (·.cals) (fun _ _ => rfl) e
@[simp] theorem Hw.started_die_nvTables (h : Hw) (q : Hdr) (e : Nat) : ((h.started q).die e).nvTables = (h.die e).nvTables :=
  h.started_field q (·.nvTables) (fun _ _ => rfl) e
@[simp] theorem Hw.started_die_nvWait (h : Hw) (q : Hdr) (e : Nat) : ((h.started q).die e).nvWait = (h.die e).nvWait :=
  h.started_field q (·.nvWait) (fun _ _ => rfl) e
@[simp] theorem Hw.started_die_lineFaults (h : Hw) (q : Hdr) (e : Nat) : ((h.started q).die e).lineFaults = (h.die e).lineFaults :=
  h.started_field q (·.lineFaults) (fun _ _ => rfl) e
@[simp] theorem Hw.started_die_pdWork (h : Hw) (q : Hdr) (e : Nat) : ((h.started q).die e).pdWork = (h.die e).pdWork :=
  h.started_field q (·.pdWork) (fun _ _ => rfl) e

/-- The start of a command changes nothing that admits it. -/
@[simp] theorem Hw.serves_started (h : Hw) (q : Hdr) (d : Nat) : (h.started q).serves d = h.serves d := by simp [Hw.serves]
@[simp] theorem Hw.execDie_started (h : Hw) (q r : Hdr) (op : Nat) (o : ObjRef) : (h.started q).execDie r op o = h.execDie r op o := rfl
@[simp] theorem Hw.frontUsed_started (h : Hw) (q : Hdr) (d : Nat) : (h.started q).frontUsed d = h.frontUsed d := by
  unfold Hw.frontUsed
  rw [Hw.started_die_front]
  rfl
@[simp] theorem Hw.admit_started (h : Hw) (q : Hdr) (d : Nat) (src : Source) (op : Nat) (o : ObjRef) :
    (h.started q).turnedAway d src op o = h.turnedAway d src op o := by simp [Hw.turnedAway, Hw.opKnown, Hw.frontTight]
@[simp] theorem State.serves_begun (s : State) (d : Nat) : s.begun.serves d = s.hw.serves d := rfl
@[simp] theorem State.execDie_begun (s : State) (q : Hdr) (op : Nat) (o : ObjRef) : s.begun.execDie q op o = s.hw.execDie q op o := rfl
@[simp] theorem State.admit_begun (s : State) (d : Nat) (src : Source) (op : Nat) (o : ObjRef) :
    s.begun.turnedAway d src op o = s.hw.turnedAway d src op o := rfl

/-- A command not addressed to the package is executed by the die it names (R18). -/
theorem Hw.execDie_own (h : Hw) (q : Hdr) {op : Nat} {o : ObjRef} (hp : pkgAddressed op o = false) : h.execDie q op o = q.die := by
  simp [Hw.execDie, hp]

/-! ### The end of a mailbox command -/

/-- A configuration record changes what an event changes and `cfg_changes`. -/
@[simp] theorem Hw.rd_configChange (h : Hw) (d op : Nat) (o : ObjRef) (st : Status) (src : Source) (e : Nat) {a : AttrId} (i : Nat)
    (ha : a.cls ≠ 0x1F) (hc : a ≠ A.cfg_changes) : (h.configChange d op o st src).rd e a i = h.rd e a i := by
  unfold Hw.configChange
  rw [Hw.rd_add_ne _ (Ne.symm hc), Hw.rd_event _ _ _ _ _ _ ha]

@[simp] theorem Hw.rd_finish (h : Hw) (d : Nat) (q : Hdr) (op : Nat) (o : ObjRef) (r : Reply) (e : Nat) {a : AttrId} (i : Nat)
    (ha : a.cls ≠ 0x1F) (hc : a ≠ A.cfg_changes) : (h.finish d q op o r).rd e a i = h.rd e a i := by
  unfold Hw.finish
  simp only [Hw.rd_putReply]
  split
  · exact Hw.rd_configChange _ _ _ _ _ _ _ _ ha hc
  · rfl

@[simp] theorem Hw.reply?_finish (h : Hw) (d : Nat) (q : Hdr) (op : Nat) (o : ObjRef) (r : Reply) :
    (h.finish d q op o r).reply? q.origin q.tag = some r := by simp [Hw.finish]

@[simp] theorem Hw.finish_blks (h : Hw) (d : Nat) (q : Hdr) (op : Nat) (o : ObjRef) (r : Reply) : (h.finish d q op o r).blks = h.blks := by
  unfold Hw.finish Hw.configChange
  simp only [Hw.putReply_blks]
  split <;> simp
@[simp] theorem Hw.finish_stages (h : Hw) (d : Nat) (q : Hdr) (op : Nat) (o : ObjRef) (r : Reply) : (h.finish d q op o r).stages = h.stages := by
  unfold Hw.finish Hw.configChange
  simp only [Hw.putReply_stages]
  split <;> simp
@[simp] theorem Hw.finish_clk (h : Hw) (d : Nat) (q : Hdr) (op : Nat) (o : ObjRef) (r : Reply) : (h.finish d q op o r).clk = h.clk := by
  unfold Hw.finish Hw.configChange
  simp only [Hw.putReply_clk]
  split <;> simp
@[simp] theorem Hw.finish_free (h : Hw) (d : Nat) (q : Hdr) (op : Nat) (o : ObjRef) (r : Reply) : (h.finish d q op o r).free = h.free := by
  unfold Hw.finish Hw.configChange
  simp only [Hw.putReply_free]
  split <;> simp
@[simp] theorem Hw.finish_nextId (h : Hw) (d : Nat) (q : Hdr) (op : Nat) (o : ObjRef) (r : Reply) : (h.finish d q op o r).nextId = h.nextId := by
  unfold Hw.finish Hw.configChange
  simp only [Hw.putReply_nextId]
  split <;> simp
@[simp] theorem Hw.finish_bl (h : Hw) (d : Nat) (q : Hdr) (op : Nat) (o : ObjRef) (r : Reply) : (h.finish d q op o r).bl = h.bl := by
  unfold Hw.finish Hw.configChange
  simp only [Hw.putReply_bl]
  split <;> simp
@[simp] theorem Hw.finish_mode (h : Hw) (d : Nat) (q : Hdr) (op : Nat) (o : ObjRef) (r : Reply) : (h.finish d q op o r).mode = h.mode := by
  unfold Hw.finish Hw.configChange
  simp only [Hw.putReply_mode]
  split <;> simp
@[simp] theorem Hw.finish_lead (h : Hw) (d : Nat) (q : Hdr) (op : Nat) (o : ObjRef) (r : Reply) : (h.finish d q op o r).lead = h.lead := by
  unfold Hw.finish Hw.configChange
  simp only [Hw.putReply_lead]
  split <;> simp
@[simp] theorem Hw.finish_leadSt (h : Hw) (d : Nat) (q : Hdr) (op : Nat) (o : ObjRef) (r : Reply) : (h.finish d q op o r).leadSt = h.leadSt := by
  unfold Hw.finish Hw.configChange
  simp only [Hw.putReply_leadSt]
  split <;> simp
@[simp] theorem Hw.finish_takeover (h : Hw) (d : Nat) (q : Hdr) (op : Nat) (o : ObjRef) (r : Reply) : (h.finish d q op o r).takeover = h.takeover := by
  unfold Hw.finish Hw.configChange
  simp only [Hw.putReply_takeover]
  split <;> simp
@[simp] theorem Hw.finish_kennel (h : Hw) (d : Nat) (q : Hdr) (op : Nat) (o : ObjRef) (r : Reply) : (h.finish d q op o r).kennel = h.kennel := by
  unfold Hw.finish Hw.configChange
  simp only [Hw.putReply_kennel]
  split <;> simp
@[simp] theorem Hw.finish_pkg (h : Hw) (d : Nat) (q : Hdr) (op : Nat) (o : ObjRef) (r : Reply) : (h.finish d q op o r).pkg = h.pkg := by
  unfold Hw.finish Hw.configChange
  simp only [Hw.putReply_pkg]
  split <;> simp
@[simp] theorem Hw.finish_faultMask (h : Hw) (d : Nat) (q : Hdr) (op : Nat) (o : ObjRef) (r : Reply) : (h.finish d q op o r).faultMask = h.faultMask := by
  unfold Hw.finish Hw.configChange
  simp only [Hw.putReply_faultMask]
  split <;> simp
@[simp] theorem Hw.finish_ring (h : Hw) (d : Nat) (q : Hdr) (op : Nat) (o : ObjRef) (r : Reply) : (h.finish d q op o r).ring = h.ring := by
  unfold Hw.finish Hw.configChange
  simp only [Hw.putReply_ring]
  split <;> simp
@[simp] theorem Hw.finish_evtNext (h : Hw) (d : Nat) (q : Hdr) (op : Nat) (o : ObjRef) (r : Reply) : (h.finish d q op o r).evtNext = h.evtNext := by
  unfold Hw.finish Hw.configChange
  simp only [Hw.putReply_evtNext]
  split <;> simp
@[simp] theorem Hw.finish_evtDurable (h : Hw) (d : Nat) (q : Hdr) (op : Nat) (o : ObjRef) (r : Reply) : (h.finish d q op o r).evtDurable = h.evtDurable := by
  unfold Hw.finish Hw.configChange
  simp only [Hw.putReply_evtDurable]
  split <;> simp
@[simp] theorem Hw.finish_limits (h : Hw) (d : Nat) (q : Hdr) (op : Nat) (o : ObjRef) (r : Reply) : (h.finish d q op o r).limits = h.limits := by
  unfold Hw.finish Hw.configChange
  simp only [Hw.putReply_limits]
  split <;> simp
@[simp] theorem Hw.finish_fwSlots (h : Hw) (d : Nat) (q : Hdr) (op : Nat) (o : ObjRef) (r : Reply) : (h.finish d q op o r).fwSlots = h.fwSlots := by
  unfold Hw.finish Hw.configChange
  simp only [Hw.putReply_fwSlots]
  split <;> simp
@[simp] theorem Hw.finish_fw (h : Hw) (d : Nat) (q : Hdr) (op : Nat) (o : ObjRef) (r : Reply) : (h.finish d q op o r).fw = h.fw := by
  unfold Hw.finish Hw.configChange
  simp only [Hw.putReply_fw]
  split <;> simp
@[simp] theorem Hw.finish_fwBooted (h : Hw) (d : Nat) (q : Hdr) (op : Nat) (o : ObjRef) (r : Reply) : (h.finish d q op o r).fwBooted = h.fwBooted := by
  unfold Hw.finish Hw.configChange
  simp only [Hw.putReply_fwBooted]
  split <;> simp
@[simp] theorem Hw.finish_eps (h : Hw) (d : Nat) (q : Hdr) (op : Nat) (o : ObjRef) (r : Reply) : (h.finish d q op o r).eps = h.eps := by
  unfold Hw.finish Hw.configChange
  simp only [Hw.putReply_eps]
  split <;> simp
@[simp] theorem Hw.finish_tunnels (h : Hw) (d : Nat) (q : Hdr) (op : Nat) (o : ObjRef) (r : Reply) : (h.finish d q op o r).tunnels = h.tunnels := by
  unfold Hw.finish Hw.configChange
  simp only [Hw.putReply_tunnels]
  split <;> simp
@[simp] theorem Hw.finish_hsIn (h : Hw) (d : Nat) (q : Hdr) (op : Nat) (o : ObjRef) (r : Reply) : (h.finish d q op o r).hsIn = h.hsIn := by
  unfold Hw.finish Hw.configChange
  simp only [Hw.putReply_hsIn]
  split <;> simp
@[simp] theorem Hw.finish_hostedWait (h : Hw) (d : Nat) (q : Hdr) (op : Nat) (o : ObjRef) (r : Reply) : (h.finish d q op o r).hostedWait = h.hostedWait := by
  unfold Hw.finish Hw.configChange
  simp only [Hw.putReply_hostedWait]
  split <;> simp
@[simp] theorem Hw.finish_porst (h : Hw) (d : Nat) (q : Hdr) (op : Nat) (o : ObjRef) (r : Reply) : (h.finish d q op o r).porst = h.porst := by
  unfold Hw.finish Hw.configChange
  simp only [Hw.putReply_porst]
  split <;> simp
@[simp] theorem Hw.finish_railFault (h : Hw) (d : Nat) (q : Hdr) (op : Nat) (o : ObjRef) (r : Reply) : (h.finish d q op o r).railFault = h.railFault := by
  unfold Hw.finish Hw.configChange
  simp only [Hw.putReply_railFault]
  split <;> simp
@[simp] theorem Hw.finish_clkFault (h : Hw) (d : Nat) (q : Hdr) (op : Nat) (o : ObjRef) (r : Reply) : (h.finish d q op o r).clkFault = h.clkFault := by
  unfold Hw.finish Hw.configChange
  simp only [Hw.putReply_clkFault]
  split <;> simp
@[simp] theorem Hw.finish_hsForce (h : Hw) (d : Nat) (q : Hdr) (op : Nat) (o : ObjRef) (r : Reply) : (h.finish d q op o r).hsForce = h.hsForce := by
  unfold Hw.finish Hw.configChange
  simp only [Hw.putReply_hsForce]
  split <;> simp
@[simp] theorem Hw.finish_hsPins (h : Hw) (d : Nat) (q : Hdr) (op : Nat) (o : ObjRef) (r : Reply) : (h.finish d q op o r).hsPins = h.hsPins := by
  unfold Hw.finish Hw.configChange
  simp only [Hw.putReply_hsPins]
  split <;> simp
@[simp] theorem Hw.finish_hsOn (h : Hw) (d : Nat) (q : Hdr) (op : Nat) (o : ObjRef) (r : Reply) : (h.finish d q op o r).hsOn = h.hsOn := by
  unfold Hw.finish Hw.configChange
  simp only [Hw.putReply_hsOn]
  split <;> simp
@[simp] theorem Hw.finish_gh (h : Hw) (d : Nat) (q : Hdr) (op : Nat) (o : ObjRef) (r : Reply) : (h.finish d q op o r).gh = h.gh := by
  unfold Hw.finish Hw.configChange
  simp only [Hw.putReply_gh]
  split <;> simp
@[simp] theorem Hw.finish_stores (h : Hw) (d : Nat) (q : Hdr) (op : Nat) (o : ObjRef) (r : Reply) : (h.finish d q op o r).stores = h.stores := by
  unfold Hw.finish Hw.configChange
  simp only [Hw.putReply_stores]
  split <;> simp
@[simp] theorem Hw.finish_wipes (h : Hw) (d : Nat) (q : Hdr) (op : Nat) (o : ObjRef) (r : Reply) : (h.finish d q op o r).wipes = h.wipes := by
  unfold Hw.finish Hw.configChange
  simp only [Hw.putReply_wipes]
  split <;> simp
@[simp] theorem Hw.finish_out (h : Hw) (d : Nat) (q : Hdr) (op : Nat) (o : ObjRef) (r : Reply) : (h.finish d q op o r).out = h.out := by
  unfold Hw.finish Hw.configChange
  simp only [Hw.putReply_out]
  split <;> simp
@[simp] theorem Hw.finish_die_sb (h : Hw) (d : Nat) (q : Hdr) (op : Nat) (o : ObjRef) (r : Reply) (e : Nat) :
    ((h.finish d q op o r).die e).sb = (h.die e).sb := by
  unfold Hw.finish Hw.configChange
  simp only [Hw.die_putReply]
  split <;> simp
@[simp] theorem Hw.finish_die_queues (h : Hw) (d : Nat) (q : Hdr) (op : Nat) (o : ObjRef) (r : Reply) (e : Nat) :
    ((h.finish d q op o r).die e).queues = (h.die e).queues := by
  unfold Hw.finish Hw.configChange
  simp only [Hw.die_putReply]
  split <;> simp
@[simp] theorem Hw.finish_die_erSel (h : Hw) (d : Nat) (q : Hdr) (op : Nat) (o : ObjRef) (r : Reply) (e : Nat) :
    ((h.finish d q op o r).die e).erSel = (h.die e).erSel := by
  unfold Hw.finish Hw.configChange
  simp only [Hw.die_putReply]
  split <;> simp
@[simp] theorem Hw.finish_die_tbs (h : Hw) (d : Nat) (q : Hdr) (op : Nat) (o : ObjRef) (r : Reply) (e : Nat) :
    ((h.finish d q op o r).die e).tbs = (h.die e).tbs := by
  unfold Hw.finish Hw.configChange
  simp only [Hw.die_putReply]
  split <;> simp
@[simp] theorem Hw.finish_die_tbChanges (h : Hw) (d : Nat) (q : Hdr) (op : Nat) (o : ObjRef) (r : Reply) (e : Nat) :
    ((h.finish d q op o r).die e).tbChanges = (h.die e).tbChanges := by
  unfold Hw.finish Hw.configChange
  simp only [Hw.die_putReply]
  split <;> simp
@[simp] theorem Hw.finish_die_pulses (h : Hw) (d : Nat) (q : Hdr) (op : Nat) (o : ObjRef) (r : Reply) (e : Nat) :
    ((h.finish d q op o r).die e).pulses = (h.die e).pulses := by
  unfold Hw.finish Hw.configChange
  simp only [Hw.die_putReply]
  split <;> simp
@[simp] theorem Hw.finish_die_capFresh (h : Hw) (d : Nat) (q : Hdr) (op : Nat) (o : ObjRef) (r : Reply) (e : Nat) :
    ((h.finish d q op o r).die e).capFresh = (h.die e).capFresh := by
  unfold Hw.finish Hw.configChange
  simp only [Hw.die_putReply]
  split <;> simp
@[simp] theorem Hw.finish_die_ptp (h : Hw) (d : Nat) (q : Hdr) (op : Nat) (o : ObjRef) (r : Reply) (e : Nat) :
    ((h.finish d q op o r).die e).ptp = (h.die e).ptp := by
  unfold Hw.finish Hw.configChange
  simp only [Hw.die_putReply]
  split <;> simp
@[simp] theorem Hw.finish_die_itv (h : Hw) (d : Nat) (q : Hdr) (op : Nat) (o : ObjRef) (r : Reply) (e : Nat) :
    ((h.finish d q op o r).die e).itv = (h.die e).itv := by
  unfold Hw.finish Hw.configChange
  simp only [Hw.die_putReply]
  split <;> simp
@[simp] theorem Hw.finish_die_up (h : Hw) (d : Nat) (q : Hdr) (op : Nat) (o : ObjRef) (r : Reply) (e : Nat) :
    ((h.finish d q op o r).die e).up = (h.die e).up := by
  unfold Hw.finish Hw.configChange
  simp only [Hw.die_putReply]
  split <;> simp
@[simp] theorem Hw.finish_die_enc (h : Hw) (d : Nat) (q : Hdr) (op : Nat) (o : ObjRef) (r : Reply) (e : Nat) :
    ((h.finish d q op o r).die e).enc = (h.die e).enc := by
  unfold Hw.finish Hw.configChange
  simp only [Hw.die_putReply]
  split <;> simp
@[simp] theorem Hw.finish_die_pos (h : Hw) (d : Nat) (q : Hdr) (op : Nat) (o : ObjRef) (r : Reply) (e : Nat) :
    ((h.finish d q op o r).die e).pos = (h.die e).pos := by
  unfold Hw.finish Hw.configChange
  simp only [Hw.die_putReply]
  split <;> simp
@[simp] theorem Hw.finish_die_hwmOn (h : Hw) (d : Nat) (q : Hdr) (op : Nat) (o : ObjRef) (r : Reply) (e : Nat) :
    ((h.finish d q op o r).die e).hwmOn = (h.die e).hwmOn := by
  unfold Hw.finish Hw.configChange
  simp only [Hw.die_putReply]
  split <;> simp
@[simp] theorem Hw.finish_die_leaving (h : Hw) (d : Nat) (q : Hdr) (op : Nat) (o : ObjRef) (r : Reply) (e : Nat) :
    ((h.finish d q op o r).die e).leaving = (h.die e).leaving := by
  unfold Hw.finish Hw.configChange
  simp only [Hw.die_putReply]
  split <;> simp
@[simp] theorem Hw.finish_die_ports (h : Hw) (d : Nat) (q : Hdr) (op : Nat) (o : ObjRef) (r : Reply) (e : Nat) :
    ((h.finish d q op o r).die e).ports = (h.die e).ports := by
  unfold Hw.finish Hw.configChange
  simp only [Hw.die_putReply]
  split <;> simp
@[simp] theorem Hw.finish_die_spits (h : Hw) (d : Nat) (q : Hdr) (op : Nat) (o : ObjRef) (r : Reply) (e : Nat) :
    ((h.finish d q op o r).die e).spits = (h.die e).spits := by
  unfold Hw.finish Hw.configChange
  simp only [Hw.die_putReply]
  split <;> simp
@[simp] theorem Hw.finish_die_changes (h : Hw) (d : Nat) (q : Hdr) (op : Nat) (o : ObjRef) (r : Reply) (e : Nat) :
    ((h.finish d q op o r).die e).changes = (h.die e).changes := by
  unfold Hw.finish Hw.configChange
  simp only [Hw.die_putReply]
  split <;> simp
@[simp] theorem Hw.finish_die_banks (h : Hw) (d : Nat) (q : Hdr) (op : Nat) (o : ObjRef) (r : Reply) (e : Nat) :
    ((h.finish d q op o r).die e).banks = (h.die e).banks := by
  unfold Hw.finish Hw.configChange
  simp only [Hw.die_putReply]
  split <;> simp
@[simp] theorem Hw.finish_die_bankFrom (h : Hw) (d : Nat) (q : Hdr) (op : Nat) (o : ObjRef) (r : Reply) (e : Nat) :
    ((h.finish d q op o r).die e).bankFrom = (h.die e).bankFrom := by
  unfold Hw.finish Hw.configChange
  simp only [Hw.die_putReply]
  split <;> simp
@[simp] theorem Hw.finish_die_codec (h : Hw) (d : Nat) (q : Hdr) (op : Nat) (o : ObjRef) (r : Reply) (e : Nat) :
    ((h.finish d q op o r).die e).codec = (h.die e).codec := by
  unfold Hw.finish Hw.configChange
  simp only [Hw.die_putReply]
  split <;> simp
@[simp] theorem Hw.finish_die_ctxs (h : Hw) (d : Nat) (q : Hdr) (op : Nat) (o : ObjRef) (r : Reply) (e : Nat) :
    ((h.finish d q op o r).die e).ctxs = (h.die e).ctxs := by
  unfold Hw.finish Hw.configChange
  simp only [Hw.die_putReply]
  split <;> simp
@[simp] theorem Hw.finish_die_ctxCache (h : Hw) (d : Nat) (q : Hdr) (op : Nat) (o : ObjRef) (r : Reply) (e : Nat) :
    ((h.finish d q op o r).die e).ctxCache = (h.die e).ctxCache := by
  unfold Hw.finish Hw.configChange
  simp only [Hw.die_putReply]
  split <;> simp
@[simp] theorem Hw.finish_die_streams (h : Hw) (d : Nat) (q : Hdr) (op : Nat) (o : ObjRef) (r : Reply) (e : Nat) :
    ((h.finish d q op o r).die e).streams = (h.die e).streams := by
  unfold Hw.finish Hw.configChange
  simp only [Hw.die_putReply]
  split <;> simp
@[simp] theorem Hw.finish_die_stop (h : Hw) (d : Nat) (q : Hdr) (op : Nat) (o : ObjRef) (r : Reply) (e : Nat) :
    ((h.finish d q op o r).die e).stop = (h.die e).stop := by
  unfold Hw.finish Hw.configChange
  simp only [Hw.die_putReply]
  split <;> simp
@[simp] theorem Hw.finish_die_cams (h : Hw) (d : Nat) (q : Hdr) (op : Nat) (o : ObjRef) (r : Reply) (e : Nat) :
    ((h.finish d q op o r).die e).cams = (h.die e).cams := by
  unfold Hw.finish Hw.configChange
  simp only [Hw.die_putReply]
  split <;> simp
@[simp] theorem Hw.finish_die_ispRun (h : Hw) (d : Nat) (q : Hdr) (op : Nat) (o : ObjRef) (r : Reply) (e : Nat) :
    ((h.finish d q op o r).die e).ispRun = (h.die e).ispRun := by
  unfold Hw.finish Hw.configChange
  simp only [Hw.die_putReply]
  split <;> simp
@[simp] theorem Hw.finish_die_chains (h : Hw) (d : Nat) (q : Hdr) (op : Nat) (o : ObjRef) (r : Reply) (e : Nat) :
    ((h.finish d q op o r).die e).chains = (h.die e).chains := by
  unfold Hw.finish Hw.configChange
  simp only [Hw.die_putReply]
  split <;> simp
@[simp] theorem Hw.finish_die_lamps (h : Hw) (d : Nat) (q : Hdr) (op : Nat) (o : ObjRef) (r : Reply) (e : Nat) :
    ((h.finish d q op o r).die e).lamps = (h.die e).lamps := by
  unfold Hw.finish Hw.configChange
  simp only [Hw.die_putReply]
  split <;> simp
@[simp] theorem Hw.finish_die_mx (h : Hw) (d : Nat) (q : Hdr) (op : Nat) (o : ObjRef) (r : Reply) (e : Nat) :
    ((h.finish d q op o r).die e).mx = (h.die e).mx := by
  unfold Hw.finish Hw.configChange
  simp only [Hw.die_putReply]
  split <;> simp
@[simp] theorem Hw.finish_die_sensors (h : Hw) (d : Nat) (q : Hdr) (op : Nat) (o : ObjRef) (r : Reply) (e : Nat) :
    ((h.finish d q op o r).die e).sensors = (h.die e).sensors := by
  unfold Hw.finish Hw.configChange
  simp only [Hw.die_putReply]
  split <;> simp
@[simp] theorem Hw.finish_die_crit (h : Hw) (d : Nat) (q : Hdr) (op : Nat) (o : ObjRef) (r : Reply) (e : Nat) :
    ((h.finish d q op o r).die e).crit = (h.die e).crit := by
  unfold Hw.finish Hw.configChange
  simp only [Hw.die_putReply]
  split <;> simp
@[simp] theorem Hw.finish_die_cals (h : Hw) (d : Nat) (q : Hdr) (op : Nat) (o : ObjRef) (r : Reply) (e : Nat) :
    ((h.finish d q op o r).die e).cals = (h.die e).cals := by
  unfold Hw.finish Hw.configChange
  simp only [Hw.die_putReply]
  split <;> simp
@[simp] theorem Hw.finish_die_nvTables (h : Hw) (d : Nat) (q : Hdr) (op : Nat) (o : ObjRef) (r : Reply) (e : Nat) :
    ((h.finish d q op o r).die e).nvTables = (h.die e).nvTables := by
  unfold Hw.finish Hw.configChange
  simp only [Hw.die_putReply]
  split <;> simp
@[simp] theorem Hw.finish_die_nvWait (h : Hw) (d : Nat) (q : Hdr) (op : Nat) (o : ObjRef) (r : Reply) (e : Nat) :
    ((h.finish d q op o r).die e).nvWait = (h.die e).nvWait := by
  unfold Hw.finish Hw.configChange
  simp only [Hw.die_putReply]
  split <;> simp
@[simp] theorem Hw.finish_die_lineFaults (h : Hw) (d : Nat) (q : Hdr) (op : Nat) (o : ObjRef) (r : Reply) (e : Nat) :
    ((h.finish d q op o r).die e).lineFaults = (h.die e).lineFaults := by
  unfold Hw.finish Hw.configChange
  simp only [Hw.die_putReply]
  split <;> simp
@[simp] theorem Hw.finish_die_pdWork (h : Hw) (d : Nat) (q : Hdr) (op : Nat) (o : ObjRef) (r : Reply) (e : Nat) :
    ((h.finish d q op o r).die e).pdWork = (h.die e).pdWork := by
  unfold Hw.finish Hw.configChange
  simp only [Hw.die_putReply]
  split <;> simp

@[simp] theorem Hw.finish_length (h : Hw) (d : Nat) (q : Hdr) (op : Nat) (o : ObjRef) (r : Reply) :
    (h.finish d q op o r).dies.length = h.dies.length := by
  unfold Hw.finish Hw.configChange
  simp only [Hw.putReply_dies]
  split <;> simp

/-- A mailbox command that reaches its work: the next state, and that its reply is the work's. -/
theorem State.command_next {s : State} {q : Hdr} {op : Nat} {o : ObjRef} (hA : s.Admits q op o)
    (body : List (List Host.Cell) → Nat → Hw → Reply × Hw) :
    s.command q op o body = .next (s.run fun ms h =>
      ((body ms (s.hw.execDie q op o) (h.started q)).2).finish (s.hw.execDie q op o) q op o
        (body ms (s.hw.execDie q op o) (h.started q)).1) := by
  obtain ⟨hd, hs, ha⟩ := hA
  unfold State.command
  rw [State.onDie_next s _ hd]
  congr 1
  unfold State.run
  have key : (s.begun.started q).command q op o (body s.mems) = ((body s.mems (s.hw.execDie q op o) (s.begun.started q)).2).finish
      (s.hw.execDie q op o) q op o (body s.mems (s.hw.execDie q op o) (s.begun.started q)).1 := by
    simp [Hw.command, hs, ha]
  simp only [State.begun] at key
  simp only [key]

/-- The same of a command whose reply may come later. -/
theorem State.commandHold_next {s : State} {q : Hdr} {op : Nat} {o : ObjRef} (hA : s.Admits q op o)
    (body : List (List Host.Cell) → Nat → Hw → Option Reply × Hw) :
    s.commandHold q op o body = .next (s.run fun ms h =>
      match (body ms (s.hw.execDie q op o) (h.started q)).1 with
      | some x => ((body ms (s.hw.execDie q op o) (h.started q)).2).finish (s.hw.execDie q op o) q op o x
      | none => (body ms (s.hw.execDie q op o) (h.started q)).2) := by
  obtain ⟨hd, hs, ha⟩ := hA
  unfold State.commandHold
  rw [State.onDie_next s _ hd]
  congr 1
  unfold State.run
  have h1 : (s.begun.started q).execDie q op o = s.hw.execDie q op o := by simp
  have h2 : (s.begun.started q).serves (s.hw.execDie q op o) = true := by simp [hs]
  have h3 : (s.begun.started q).turnedAway (s.hw.execDie q op o) (srcOf q.origin) op o = none := by simp [ha]
  simp only [State.begun] at h1 h2 h3
  simp only [h1, h2, h3]
  rfl

theorem State.of_command {s t : State} {q : Hdr} {op : Nat} {o : ObjRef} {body : List (List Host.Cell) → Nat → Hw → Reply × Hw}
    (h : s.command q op o body = .next t) : q.die < s.hw.dies.length ∧ ∃ f, t = s.run f :=
  ⟨(State.of_onDie h).1, _, (State.of_onDie h).2⟩

theorem State.of_commandHold {s t : State} {q : Hdr} {op : Nat} {o : ObjRef}
    {body : List (List Host.Cell) → Nat → Hw → Option Reply × Hw} (h : s.commandHold q op o body = .next t) :
    q.die < s.hw.dies.length ∧ ∃ f, t = s.run f :=
  ⟨(State.of_onDie h).1, _, (State.of_onDie h).2⟩

end Sys2Proof.Machine
end

