-- ==== Sys2Proof/Laws/Only.lean ====
section
/-!
SUPPORT. What an operation can change, said once: `Hw.Only C F G h h'` says that `h'` differs from `h` at most in the attributes of
the classes `C` (0 in `C`: of any class), in the records `F` of the dies and in the records `G` of the package. Each shared
operation has one lemma of this form (Only*.lean); frames of commands follow from them.
-/
namespace Sys2Proof.Machine

theorem DieRec.same_refl (f : DieRec) (D : Die) : f.same D D := by cases f <;> rfl
theorem HwRec.same_refl (f : HwRec) (h : Hw) : f.same h h := by cases f <;> rfl
theorem DieRec.same_trans {f : DieRec} {D E F : Die} (a : f.same D E) (b : f.same E F) : f.same D F := by
  cases f <;> exact Eq.trans b a
theorem HwRec.same_trans {f : HwRec} {D E F : Hw} (a : f.same D E) (b : f.same E F) : f.same D F := by
  cases f <;> exact Eq.trans b a

/-- The parts of one operation are among those of another. -/
abbrev Parts (c : List Nat) (f : List DieRec) (g : List HwRec) (C : List Nat) (F : List DieRec) (G : List HwRec) : Prop :=
  (∀ x ∈ c, x ∈ C ∨ 0 ∈ C) ∧ (∀ x ∈ f, x ∈ F) ∧ (∀ x ∈ g, x ∈ G)

variable {C : List Nat} {F : List DieRec} {G : List HwRec} {h0 h h' : Hw}

theorem Hw.Only.refl (C : List Nat) (F : List DieRec) (G : List HwRec) (h : Hw) : Hw.Only C F G h h :=
  ⟨rfl, fun _ _ _ _ _ _ => rfl, fun _ f _ => f.same_refl _, fun g _ => g.same_refl _⟩

theorem Hw.Only.step {c : List Nat} {f : List DieRec} {g : List HwRec} (H : Hw.Only C F G h0 h) (K : Hw.Only c f g h h')
    (hs : Parts c f g C F G) : Hw.Only C F G h0 h' := by
  refine ⟨K.len.trans H.len, fun e a i h1 h2 h3 => (K.rd e a i ?_ ?_ ?_).trans (H.rd e a i h1 h2 h3), fun e x hx => ?_, fun x hx => ?_⟩
  · exact fun hc => (hs.1 0 hc).elim h1 h1
  · exact fun hc => (hs.1 _ hc).elim h2 h1
  · exact fun hc => (hs.1 _ hc).elim h3 h1
  · exact DieRec.same_trans (H.die e x hx) (K.die e x fun hc => hx (hs.2.1 x hc))
  · exact HwRec.same_trans (H.hw x hx) (K.hw x fun hc => hx (hs.2.2 x hc))

theorem Hw.Only.mono {c : List Nat} {f : List DieRec} {g : List HwRec} (K : Hw.Only c f g h h') (hs : Parts c f g C F G) :
    Hw.Only C F G h h' := (Hw.Only.refl C F G h).step K hs

theorem Hw.Only.trans (H : Hw.Only C F G h0 h) (K : Hw.Only C F G h h') : Hw.Only C F G h0 h' :=
  H.step K ⟨fun _ hx => .inl hx, fun _ hx => hx, fun _ hx => hx⟩

theorem Hw.Only.cut {y z : Hw} (H : Hw.Only C F G h0 y) (K : Hw.Only C F G h0 y → Hw.Only C F G h0 z) : Hw.Only C F G h0 z := K H

theorem Hw.Only.foldl {α : Type} {f : Hw → α → Hw} (H : Hw.Only C F G h0 h) (hf : ∀ h x, Hw.Only C F G h (f h x)) (l : List α) :
    Hw.Only C F G h0 (l.foldl f h) := by
  induction l generalizing h with
  | nil => exact H
  | cons x l ih => exact ih (H.step (hf h x) ⟨fun _ hx => .inl hx, fun _ hx => hx, fun _ hx => hx⟩)

theorem Hw.Only.foldl2 {α β : Type} {f : β × Hw → α → β × Hw} {b : β} (H : Hw.Only C F G h0 h)
    (hf : ∀ b h x, Hw.Only C F G h (f (b, h) x).2) (l : List α) : Hw.Only C F G h0 (l.foldl f (b, h)).2 := by
  induction l generalizing b h with
  | nil => exact H
  | cons x l ih => exact ih (b := (f (b, h) x).1) (H.step (hf b h x) ⟨fun _ hx => .inl hx, fun _ hx => hx, fun _ hx => hx⟩)

theorem Hw.Only.foldlP {α β : Type} {f : β × Hw → α → β × Hw} {b : β × Hw} (H : Hw.Only C F G h0 b.2)
    (hf : ∀ p x, Hw.Only C F G p.2 (f p x).2) (l : List α) : Hw.Only C F G h0 (l.foldl f b).2 := by
  induction l generalizing b with
  | nil => exact H
  | cons x l ih => exact ih (H.trans (hf b x))

theorem Hw.Only.ite {c : Prop} [Decidable c] {a b : Hw} (H : c → Hw.Only C F G h0 a) (K : ¬c → Hw.Only C F G h0 b) :
    Hw.Only C F G h0 (if c then a else b) := by
  split
  · exact H ‹_›
  · exact K ‹_›

theorem Hw.Only.of_pair {α : Type} {p : α × Hw} {r : α} (he : p = (r, h')) (K : Hw.Only C F G h0 p.2) : Hw.Only C F G h0 h' := by
  subst he
  exact K

theorem Hw.Only.of_triple {α β : Type} {p : α × β × Hw} {r : α} {x : β} (he : p = (r, x, h')) (K : Hw.Only C F G h0 p.2.2) :
    Hw.Only C F G h0 h' := by
  subst he
  exact K

theorem Hw.Only.ite2 {α : Type} {c : Prop} [Decidable c] {a b : α × Hw} (H : c → Hw.Only C F G h0 a.2)
    (K : ¬c → Hw.Only C F G h0 b.2) : Hw.Only C F G h0 (if c then a else b).2 := by
  split
  · exact H ‹_›
  · exact K ‹_›

/-! ### The primitive updates -/

theorem Hw.wr_only (d : Nat) (a : AttrId) (i v : Nat) (h : Hw) : Hw.Only [a.code] [] [] h (h.wr d a i v) := by
  refine ⟨rfl, fun e b j _ _ hb => h.rd_wr_ne ?_ d i v e j, fun _ f _ => f.same_refl _, fun g _ => by cases g <;> rfl⟩
  intro hab
  subst hab
  exact hb (List.mem_singleton.2 rfl)
theorem Hw.wrS_only (d : Nat) (a : AttrId) (i w : Nat) (v : Int) (h : Hw) : Hw.Only [a.code] [] [] h (h.wrS d a i w v) := h.wr_only ..
theorem Hw.add_only (d : Nat) (a : AttrId) (i n : Nat) (h : Hw) : Hw.Only [a.code] [] [] h (h.add d a i n) := h.wr_only ..
theorem Hw.wrk_only (k : RegKey) (v : Nat) (h : Hw) : Hw.Only [0] [] [] h (h.wrk k v) :=
  ⟨rfl, fun _ _ _ h0 _ _ => absurd (List.mem_singleton.2 rfl) h0, fun _ f _ => f.same_refl _, fun g _ => by cases g <;> rfl⟩
theorem Hw.setBlk_only (k : RegKey) (b : List Byte) (h : Hw) : Hw.Only [] [] [.blks] h (h.setBlk k b) :=
  ⟨rfl, fun _ _ _ _ _ _ => rfl, fun _ f _ => f.same_refl _, fun g hg => by cases g <;> first | rfl | exact absurd (List.mem_singleton.2 rfl) hg⟩
theorem Hw.emit_only (o : Output) (h : Hw) : Hw.Only [] [] [.out] h (h.emit o) :=
  ⟨rfl, fun _ _ _ _ _ _ => rfl, fun _ f _ => f.same_refl _, fun g hg => by cases g <;> first | rfl | exact absurd (List.mem_singleton.2 rfl) hg⟩
theorem Hw.store_only (d a : Nat) (bs : List Byte) (h : Hw) : Hw.Only [] [] [.stores] h (h.store d a bs) :=
  ⟨rfl, fun _ _ _ _ _ _ => rfl, fun _ f _ => f.same_refl _, fun g hg => by cases g <;> first | rfl | exact absurd (List.mem_singleton.2 rfl) hg⟩
theorem Hw.fresh_only (h : Hw) : Hw.Only [] [] [.free] h h.fresh.2 :=
  ⟨rfl, fun _ _ _ _ _ _ => rfl, fun _ f _ => f.same_refl _, fun g hg => by cases g <;> first | rfl | exact absurd (List.mem_singleton.2 rfl) hg⟩
theorem Hw.putReply_only (o : Origin) (tag : Nat) (r : Reply) (h : Hw) : Hw.Only [] [] [.replies] h (h.putReply o tag r) :=
  ⟨rfl, fun _ _ _ _ _ _ => rfl, fun _ f _ => f.same_refl _, fun g hg => by cases g <;> first | rfl | exact absurd (List.mem_singleton.2 rfl) hg⟩

/-- An update of a die that leaves every record but those of `F`. -/
theorem Hw.onDie_only (F : List DieRec) (d : Nat) (f : Die → Die) (h : Hw) (hf : ∀ D x, x ∉ F → x.same D (f D)) :
    Hw.Only [] F [] h (h.onDie d f) := by
  refine ⟨by simp [Hw.onDie], fun _ _ _ _ _ _ => rfl, fun e x hx => ?_, fun g _ => by cases g <;> rfl⟩
  by_cases hde : d = e
  · subst hde
    by_cases hd : d < h.dies.length
    · rw [h.die_onDie_self f hd]
      exact hf _ x hx
    · have : (h.onDie d f).die d = h.die d := by simp [Hw.die, Hw.onDie, List.getD_eq_getElem?_getD, hd]
      rw [this]
      exact x.same_refl _
  · rw [h.die_onDie_ne f hde]
    exact x.same_refl _

/-- An update of every die that leaves every record but those of `F`. -/
theorem Hw.allDies_only (F : List DieRec) (f : Die → Die) (h : Hw) (hf : ∀ D x, x ∉ F → x.same D (f D)) :
    Hw.Only [] F [] h { h with dies := h.dies.map f } := by
  refine ⟨by simp, fun _ _ _ _ _ _ => rfl, fun e x hx => ?_, fun g _ => by cases g <;> rfl⟩
  by_cases hd : e < h.dies.length
  · have : ({ h with dies := h.dies.map f } : Hw).die e = f (h.die e) := by
      simp [Hw.die, List.getD_eq_getElem?_getD, hd]
    rw [this]
    exact hf _ x hx
  · have : ({ h with dies := h.dies.map f } : Hw).die e = h.die e := by
      simp [Hw.die, List.getD_eq_getElem?_getD, hd]
    rw [this]
    exact x.same_refl _

/-- An update of records of the package. -/
theorem Hw.Only.recs (h h' : Hw) (G : List HwRec) (hr : h'.regs = h.regs) (hd : h'.dies = h.dies) (hg : ∀ g, g ∉ G → g.same h h') :
    Hw.Only [] [] G h h' := by
  refine ⟨by rw [hd], fun e a i _ _ _ => ?_, fun e x _ => ?_, hg⟩
  · unfold Hw.rd Hw.rdk
    rw [hr]
  · unfold Hw.die
    rw [hd]
    exact x.same_refl _

/-! ### Record updates -/

theorem Hw.with_alive_porst (E : Hw) (x0 : Nat) (x1 : Bool) : Hw.Only [] [] [.alive, .porst] E { E with alive := x0, porst := x1 } :=
  ⟨rfl, fun _ _ _ _ _ _ => rfl, fun _ f _ => f.same_refl _, fun g hg => by cases g <;> first | rfl | exact absurd (by decide) hg⟩
theorem Hw.with_bl (E : Hw) (x0 : Nat) : Hw.Only [] [] [.bl] E { E with bl := x0 } :=
  ⟨rfl, fun _ _ _ _ _ _ => rfl, fun _ f _ => f.same_refl _, fun g hg => by cases g <;> first | rfl | exact absurd (by decide) hg⟩
theorem Hw.with_blks (E : Hw) (x0 : List (RegKey × List Byte)) : Hw.Only [] [] [.blks] E { E with blks := x0 } :=
  ⟨rfl, fun _ _ _ _ _ _ => rfl, fun _ f _ => f.same_refl _, fun g hg => by cases g <;> first | rfl | exact absurd (by decide) hg⟩
theorem Hw.with_blks_bootWatch_ckptWork_fwBooted_gh_ghRelease_hostedWait_hsIn_hsSeen_kennelFailRun_kennelLateSeen_kennelWriting_lead_mode_moving_pkg_regs_repairArmed_repairWork_replies_resetDue_safeFrom_stages_takeover_tunnels (E : Hw) (x0 : List (RegKey × List Byte)) (x1 : Bool) (x2 : Option Nat) (x3 : Option Nat) (x4 : Gh) (x5 : Bool) (x6 : List Nat) (x7 : Nat) (x8 : Nat) (x9 : Nat) (x10 : Bool) (x11 : Option (Nat × KennelSlot)) (x12 : Option Nat) (x13 : Mode) (x14 : Option Nat) (x15 : PkgState) (x16 : Bool) (x17 : Option Nat) (x18 : List ((Origin × Nat) × Reply)) (x19 : Option (Origin × Nat)) (x20 : Mode) (x21 : List Stage) (x22 : Option Nat) (x23 : List Link) (r : List (RegKey × Nat)) : Hw.Only [0] [] [.blks, .bootWatch, .ckptWork, .fwBooted, .gh, .ghRelease, .hostedWait, .hsIn, .hsSeen, .kennelFailRun, .kennelLateSeen, .kennelWriting, .lead, .mode, .moving, .pkg, .repairArmed, .repairWork, .replies, .resetDue, .safeFrom, .stages, .takeover, .tunnels] E { E with blks := x0, bootWatch := x1, ckptWork := x2, fwBooted := x3, gh := x4, ghRelease := x5, hostedWait := x6, hsIn := x7, hsSeen := x8, kennelFailRun := x9, kennelLateSeen := x10, kennelWriting := x11, lead := x12, mode := x13, moving := x14, pkg := x15, repairArmed := x16, repairWork := x17, replies := x18, resetDue := x19, safeFrom := x20, stages := x21, takeover := x22, tunnels := x23, regs := r } :=
  ⟨rfl, fun _ _ _ h0 _ _ => absurd (List.mem_singleton.2 rfl) h0, fun _ f _ => f.same_refl _, fun g hg => by cases g <;> first | rfl | exact absurd (by decide) hg⟩
theorem Hw.with_blks_pkg_regs (E : Hw) (x0 : List (RegKey × List Byte)) (x1 : PkgState) (r : List (RegKey × Nat)) : Hw.Only [0] [] [.blks, .pkg] E { E with blks := x0, pkg := x1, regs := r } :=
  ⟨rfl, fun _ _ _ h0 _ _ => absurd (List.mem_singleton.2 rfl) h0, fun _ f _ => f.same_refl _, fun g hg => by cases g <;> first | rfl | exact absurd (by decide) hg⟩
theorem Hw.with_blks_regs_stages (E : Hw) (x0 : List (RegKey × List Byte)) (x1 : List Stage) (r : List (RegKey × Nat)) : Hw.Only [0] [] [.blks, .stages] E { E with blks := x0, stages := x1, regs := r } :=
  ⟨rfl, fun _ _ _ h0 _ _ => absurd (List.mem_singleton.2 rfl) h0, fun _ f _ => f.same_refl _, fun g hg => by cases g <;> first | rfl | exact absurd (by decide) hg⟩
theorem Hw.with_bootWatch_fwBooted (E : Hw) (x0 : Bool) (x1 : Option Nat) : Hw.Only [] [] [.bootWatch, .fwBooted] E { E with bootWatch := x0, fwBooted := x1 } :=
  ⟨rfl, fun _ _ _ _ _ _ => rfl, fun _ f _ => f.same_refl _, fun g hg => by cases g <;> first | rfl | exact absurd (by decide) hg⟩
theorem Hw.with_bootWatch_hsOn (E : Hw) (x0 : Bool) (x1 : Bool) : Hw.Only [] [] [.bootWatch, .hsOn] E { E with bootWatch := x0, hsOn := x1 } :=
  ⟨rfl, fun _ _ _ _ _ _ => rfl, fun _ f _ => f.same_refl _, fun g hg => by cases g <;> first | rfl | exact absurd (by decide) hg⟩
theorem Hw.with_ckptWork (E : Hw) (x0 : Option Nat) : Hw.Only [] [] [.ckptWork] E { E with ckptWork := x0 } :=
  ⟨rfl, fun _ _ _ _ _ _ => rfl, fun _ f _ => f.same_refl _, fun g hg => by cases g <;> first | rfl | exact absurd (by decide) hg⟩
theorem Hw.with_clk (E : Hw) (x0 : Nat) : Hw.Only [] [] [.clk] E { E with clk := x0 } :=
  ⟨rfl, fun _ _ _ _ _ _ => rfl, fun _ f _ => f.same_refl _, fun g hg => by cases g <;> first | rfl | exact absurd (by decide) hg⟩
theorem Hw.with_clk_clkFault (E : Hw) (x0 : Nat) (x1 : Bool) : Hw.Only [] [] [.clk, .clkFault] E { E with clk := x0, clkFault := x1 } :=
  ⟨rfl, fun _ _ _ _ _ _ => rfl, fun _ f _ => f.same_refl _, fun g hg => by cases g <;> first | rfl | exact absurd (by decide) hg⟩
theorem Hw.with_clkFault (E : Hw) (x0 : Bool) : Hw.Only [] [] [.clkFault] E { E with clkFault := x0 } :=
  ⟨rfl, fun _ _ _ _ _ _ => rfl, fun _ f _ => f.same_refl _, fun g hg => by cases g <;> first | rfl | exact absurd (by decide) hg⟩
theorem Hw.with_clkFault_faultMask_railFault (E : Hw) (x0 : Bool) (x1 : Nat) (x2 : Bool) : Hw.Only [] [] [.clkFault, .faultMask, .railFault] E { E with clkFault := x0, faultMask := x1, railFault := x2 } :=
  ⟨rfl, fun _ _ _ _ _ _ => rfl, fun _ f _ => f.same_refl _, fun g hg => by cases g <;> first | rfl | exact absurd (by decide) hg⟩
theorem Hw.with_eps (E : Hw) (x0 : List Endpoint) : Hw.Only [] [] [.eps] E { E with eps := x0 } :=
  ⟨rfl, fun _ _ _ _ _ _ => rfl, fun _ f _ => f.same_refl _, fun g hg => by cases g <;> first | rfl | exact absurd (by decide) hg⟩
theorem Hw.with_eps_regs (E : Hw) (x0 : List Endpoint) (r : List (RegKey × Nat)) : Hw.Only [0] [] [.eps] E { E with eps := x0, regs := r } :=
  ⟨rfl, fun _ _ _ h0 _ _ => absurd (List.mem_singleton.2 rfl) h0, fun _ f _ => f.same_refl _, fun g hg => by cases g <;> first | rfl | exact absurd (by decide) hg⟩
theorem Hw.with_evtDurable (E : Hw) (x0 : Nat) : Hw.Only [] [] [.evtDurable] E { E with evtDurable := x0 } :=
  ⟨rfl, fun _ _ _ _ _ _ => rfl, fun _ f _ => f.same_refl _, fun g hg => by cases g <;> first | rfl | exact absurd (by decide) hg⟩
theorem Hw.with_evtNext_ring (E : Hw) (x0 : Nat) (x1 : List Entry) : Hw.Only [] [] [.evtNext, .ring] E { E with evtNext := x0, ring := x1 } :=
  ⟨rfl, fun _ _ _ _ _ _ => rfl, fun _ f _ => f.same_refl _, fun g hg => by cases g <;> first | rfl | exact absurd (by decide) hg⟩
theorem Hw.with_faultMask (E : Hw) (x0 : Nat) : Hw.Only [] [] [.faultMask] E { E with faultMask := x0 } :=
  ⟨rfl, fun _ _ _ _ _ _ => rfl, fun _ f _ => f.same_refl _, fun g hg => by cases g <;> first | rfl | exact absurd (by decide) hg⟩
theorem Hw.with_free (E : Hw) (x0 : Nat) : Hw.Only [] [] [.free] E { E with free := x0 } :=
  ⟨rfl, fun _ _ _ _ _ _ => rfl, fun _ f _ => f.same_refl _, fun g hg => by cases g <;> first | rfl | exact absurd (by decide) hg⟩
theorem Hw.with_fw (E : Hw) (x0 : Option FwSession) : Hw.Only [] [] [.fw] E { E with fw := x0 } :=
  ⟨rfl, fun _ _ _ _ _ _ => rfl, fun _ f _ => f.same_refl _, fun g hg => by cases g <;> first | rfl | exact absurd (by decide) hg⟩
theorem Hw.with_fw_fwKept_fwSlots (E : Hw) (x0 : Option FwSession) (x1 : Option (List FwSlot)) (x2 : List FwSlot) : Hw.Only [] [] [.fw, .fwKept, .fwSlots] E { E with fw := x0, fwKept := x1, fwSlots := x2 } :=
  ⟨rfl, fun _ _ _ _ _ _ => rfl, fun _ f _ => f.same_refl _, fun g hg => by cases g <;> first | rfl | exact absurd (by decide) hg⟩
theorem Hw.with_fw_fwSlots (E : Hw) (x0 : Option FwSession) (x1 : List FwSlot) : Hw.Only [] [] [.fw, .fwSlots] E { E with fw := x0, fwSlots := x1 } :=
  ⟨rfl, fun _ _ _ _ _ _ => rfl, fun _ f _ => f.same_refl _, fun g hg => by cases g <;> first | rfl | exact absurd (by decide) hg⟩
theorem Hw.with_fwKept (E : Hw) (x0 : Option (List FwSlot)) : Hw.Only [] [] [.fwKept] E { E with fwKept := x0 } :=
  ⟨rfl, fun _ _ _ _ _ _ => rfl, fun _ f _ => f.same_refl _, fun g hg => by cases g <;> first | rfl | exact absurd (by decide) hg⟩
theorem Hw.with_fwKept_fwSlots (E : Hw) (x0 : Option (List FwSlot)) (x1 : List FwSlot) : Hw.Only [] [] [.fwKept, .fwSlots] E { E with fwKept := x0, fwSlots := x1 } :=
  ⟨rfl, fun _ _ _ _ _ _ => rfl, fun _ f _ => f.same_refl _, fun g hg => by cases g <;> first | rfl | exact absurd (by decide) hg⟩
theorem Hw.with_gh (E : Hw) (x0 : Gh) : Hw.Only [] [] [.gh] E { E with gh := x0 } :=
  ⟨rfl, fun _ _ _ _ _ _ => rfl, fun _ f _ => f.same_refl _, fun g hg => by cases g <;> first | rfl | exact absurd (by decide) hg⟩
theorem Hw.with_ghRelease (E : Hw) (x0 : Bool) : Hw.Only [] [] [.ghRelease] E { E with ghRelease := x0 } :=
  ⟨rfl, fun _ _ _ _ _ _ => rfl, fun _ f _ => f.same_refl _, fun g hg => by cases g <;> first | rfl | exact absurd (by decide) hg⟩
theorem Hw.with_hostedWait (E : Hw) (x0 : List Nat) : Hw.Only [] [] [.hostedWait] E { E with hostedWait := x0 } :=
  ⟨rfl, fun _ _ _ _ _ _ => rfl, fun _ f _ => f.same_refl _, fun g hg => by cases g <;> first | rfl | exact absurd (by decide) hg⟩
theorem Hw.with_hsForce (E : Hw) (x0 : Option Nat) : Hw.Only [] [] [.hsForce] E { E with hsForce := x0 } :=
  ⟨rfl, fun _ _ _ _ _ _ => rfl, fun _ f _ => f.same_refl _, fun g hg => by cases g <;> first | rfl | exact absurd (by decide) hg⟩
theorem Hw.with_hsForce_hsOn (E : Hw) (x0 : Option Nat) (x1 : Bool) : Hw.Only [] [] [.hsForce, .hsOn] E { E with hsForce := x0, hsOn := x1 } :=
  ⟨rfl, fun _ _ _ _ _ _ => rfl, fun _ f _ => f.same_refl _, fun g hg => by cases g <;> first | rfl | exact absurd (by decide) hg⟩
theorem Hw.with_hsForce_hsOn_hsPins (E : Hw) (x0 : Option Nat) (x1 : Bool) (x2 : Nat) : Hw.Only [] [] [.hsForce, .hsOn, .hsPins] E { E with hsForce := x0, hsOn := x1, hsPins := x2 } :=
  ⟨rfl, fun _ _ _ _ _ _ => rfl, fun _ f _ => f.same_refl _, fun g hg => by cases g <;> first | rfl | exact absurd (by decide) hg⟩
theorem Hw.with_hsIn_hsSeen (E : Hw) (x0 : Nat) (x1 : Nat) : Hw.Only [] [] [.hsIn, .hsSeen] E { E with hsIn := x0, hsSeen := x1 } :=
  ⟨rfl, fun _ _ _ _ _ _ => rfl, fun _ f _ => f.same_refl _, fun g hg => by cases g <;> first | rfl | exact absurd (by decide) hg⟩
theorem Hw.with_hsPins (E : Hw) (x0 : Nat) : Hw.Only [] [] [.hsPins] E { E with hsPins := x0 } :=
  ⟨rfl, fun _ _ _ _ _ _ => rfl, fun _ f _ => f.same_refl _, fun g hg => by cases g <;> first | rfl | exact absurd (by decide) hg⟩
theorem Hw.with_kennel_kennelAt_kennelFailRun_kennelLateSeen (E : Hw) (x0 : List KennelSlot) (x1 : Nat) (x2 : Nat) (x3 : Bool) : Hw.Only [] [] [.kennel, .kennelAt, .kennelFailRun, .kennelLateSeen] E { E with kennel := x0, kennelAt := x1, kennelFailRun := x2, kennelLateSeen := x3 } :=
  ⟨rfl, fun _ _ _ _ _ _ => rfl, fun _ f _ => f.same_refl _, fun g hg => by cases g <;> first | rfl | exact absurd (by decide) hg⟩
theorem Hw.with_kennel_kennelWriting (E : Hw) (x0 : List KennelSlot) (x1 : Option (Nat × KennelSlot)) : Hw.Only [] [] [.kennel, .kennelWriting] E { E with kennel := x0, kennelWriting := x1 } :=
  ⟨rfl, fun _ _ _ _ _ _ => rfl, fun _ f _ => f.same_refl _, fun g hg => by cases g <;> first | rfl | exact absurd (by decide) hg⟩
theorem Hw.with_kennelFailRun (E : Hw) (x0 : Nat) : Hw.Only [] [] [.kennelFailRun] E { E with kennelFailRun := x0 } :=
  ⟨rfl, fun _ _ _ _ _ _ => rfl, fun _ f _ => f.same_refl _, fun g hg => by cases g <;> first | rfl | exact absurd (by decide) hg⟩
theorem Hw.with_kennelLateSeen (E : Hw) (x0 : Bool) : Hw.Only [] [] [.kennelLateSeen] E { E with kennelLateSeen := x0 } :=
  ⟨rfl, fun _ _ _ _ _ _ => rfl, fun _ f _ => f.same_refl _, fun g hg => by cases g <;> first | rfl | exact absurd (by decide) hg⟩
theorem Hw.with_kennelWriting (E : Hw) (x0 : Option (Nat × KennelSlot)) : Hw.Only [] [] [.kennelWriting] E { E with kennelWriting := x0 } :=
  ⟨rfl, fun _ _ _ _ _ _ => rfl, fun _ f _ => f.same_refl _, fun g hg => by cases g <;> first | rfl | exact absurd (by decide) hg⟩
theorem Hw.with_kennelWriting_lead_takeover (E : Hw) (x0 : Option (Nat × KennelSlot)) (x1 : Option Nat) (x2 : Option Nat) : Hw.Only [] [] [.kennelWriting, .lead, .takeover] E { E with kennelWriting := x0, lead := x1, takeover := x2 } :=
  ⟨rfl, fun _ _ _ _ _ _ => rfl, fun _ f _ => f.same_refl _, fun g hg => by cases g <;> first | rfl | exact absurd (by decide) hg⟩
theorem Hw.with_lead (E : Hw) (x0 : Option Nat) : Hw.Only [] [] [.lead] E { E with lead := x0 } :=
  ⟨rfl, fun _ _ _ _ _ _ => rfl, fun _ f _ => f.same_refl _, fun g hg => by cases g <;> first | rfl | exact absurd (by decide) hg⟩
theorem Hw.with_lead_moving_repairArmed_takeover (E : Hw) (x0 : Option Nat) (x1 : Option Nat) (x2 : Bool) (x3 : Option Nat) : Hw.Only [] [] [.lead, .moving, .repairArmed, .takeover] E { E with lead := x0, moving := x1, repairArmed := x2, takeover := x3 } :=
  ⟨rfl, fun _ _ _ _ _ _ => rfl, fun _ f _ => f.same_refl _, fun g hg => by cases g <;> first | rfl | exact absurd (by decide) hg⟩
theorem Hw.with_leadSt (E : Hw) (x0 : List LeadSt) : Hw.Only [] [] [.leadSt] E { E with leadSt := x0 } :=
  ⟨rfl, fun _ _ _ _ _ _ => rfl, fun _ f _ => f.same_refl _, fun g hg => by cases g <;> first | rfl | exact absurd (by decide) hg⟩
theorem Hw.with_limits (E : Hw) (x0 : List Limit) : Hw.Only [] [] [.limits] E { E with limits := x0 } :=
  ⟨rfl, fun _ _ _ _ _ _ => rfl, fun _ f _ => f.same_refl _, fun g hg => by cases g <;> first | rfl | exact absurd (by decide) hg⟩
theorem Hw.with_mode (E : Hw) (x0 : Mode) : Hw.Only [] [] [.mode] E { E with mode := x0 } :=
  ⟨rfl, fun _ _ _ _ _ _ => rfl, fun _ f _ => f.same_refl _, fun g hg => by cases g <;> first | rfl | exact absurd (by decide) hg⟩
theorem Hw.with_moving (E : Hw) (x0 : Option Nat) : Hw.Only [] [] [.moving] E { E with moving := x0 } :=
  ⟨rfl, fun _ _ _ _ _ _ => rfl, fun _ f _ => f.same_refl _, fun g hg => by cases g <;> first | rfl | exact absurd (by decide) hg⟩
theorem Hw.with_nextId (E : Hw) (x0 : Nat) : Hw.Only [] [] [.nextId] E { E with nextId := x0 } :=
  ⟨rfl, fun _ _ _ _ _ _ => rfl, fun _ f _ => f.same_refl _, fun g hg => by cases g <;> first | rfl | exact absurd (by decide) hg⟩
theorem Hw.with_out (E : Hw) (x0 : List Output) : Hw.Only [] [] [.out] E { E with out := x0 } :=
  ⟨rfl, fun _ _ _ _ _ _ => rfl, fun _ f _ => f.same_refl _, fun g hg => by cases g <;> first | rfl | exact absurd (by decide) hg⟩
theorem Hw.with_pkg (E : Hw) (x0 : PkgState) : Hw.Only [] [] [.pkg] E { E with pkg := x0 } :=
  ⟨rfl, fun _ _ _ _ _ _ => rfl, fun _ f _ => f.same_refl _, fun g hg => by cases g <;> first | rfl | exact absurd (by decide) hg⟩
theorem Hw.with_railFault (E : Hw) (x0 : Bool) : Hw.Only [] [] [.railFault] E { E with railFault := x0 } :=
  ⟨rfl, fun _ _ _ _ _ _ => rfl, fun _ f _ => f.same_refl _, fun g hg => by cases g <;> first | rfl | exact absurd (by decide) hg⟩
theorem Hw.with_regs (E : Hw)  (r : List (RegKey × Nat)) : Hw.Only [0] [] [] E { E with regs := r } :=
  ⟨rfl, fun _ _ _ h0 _ _ => absurd (List.mem_singleton.2 rfl) h0, fun _ f _ => f.same_refl _, fun g hg => by cases g <;> first | rfl | exact absurd (by decide) hg⟩
theorem Hw.with_regs_stages (E : Hw) (x0 : List Stage) (r : List (RegKey × Nat)) : Hw.Only [0] [] [.stages] E { E with stages := x0, regs := r } :=
  ⟨rfl, fun _ _ _ h0 _ _ => absurd (List.mem_singleton.2 rfl) h0, fun _ f _ => f.same_refl _, fun g hg => by cases g <;> first | rfl | exact absurd (by decide) hg⟩
theorem Hw.with_repairArmed (E : Hw) (x0 : Bool) : Hw.Only [] [] [.repairArmed] E { E with repairArmed := x0 } :=
  ⟨rfl, fun _ _ _ _ _ _ => rfl, fun _ f _ => f.same_refl _, fun g hg => by cases g <;> first | rfl | exact absurd (by decide) hg⟩
theorem Hw.with_repairWork (E : Hw) (x0 : Option Nat) : Hw.Only [] [] [.repairWork] E { E with repairWork := x0 } :=
  ⟨rfl, fun _ _ _ _ _ _ => rfl, fun _ f _ => f.same_refl _, fun g hg => by cases g <;> first | rfl | exact absurd (by decide) hg⟩
theorem Hw.with_replies (E : Hw) (x0 : List ((Origin × Nat) × Reply)) : Hw.Only [] [] [.replies] E { E with replies := x0 } :=
  ⟨rfl, fun _ _ _ _ _ _ => rfl, fun _ f _ => f.same_refl _, fun g hg => by cases g <;> first | rfl | exact absurd (by decide) hg⟩
theorem Hw.with_resetDue (E : Hw) (x0 : Option (Origin × Nat)) : Hw.Only [] [] [.resetDue] E { E with resetDue := x0 } :=
  ⟨rfl, fun _ _ _ _ _ _ => rfl, fun _ f _ => f.same_refl _, fun g hg => by cases g <;> first | rfl | exact absurd (by decide) hg⟩
theorem Hw.with_safeFrom_takeover (E : Hw) (x0 : Mode) (x1 : Option Nat) : Hw.Only [] [] [.safeFrom, .takeover] E { E with safeFrom := x0, takeover := x1 } :=
  ⟨rfl, fun _ _ _ _ _ _ => rfl, fun _ f _ => f.same_refl _, fun g hg => by cases g <;> first | rfl | exact absurd (by decide) hg⟩
theorem Hw.with_stages (E : Hw) (x0 : List Stage) : Hw.Only [] [] [.stages] E { E with stages := x0 } :=
  ⟨rfl, fun _ _ _ _ _ _ => rfl, fun _ f _ => f.same_refl _, fun g hg => by cases g <;> first | rfl | exact absurd (by decide) hg⟩
theorem Hw.with_stores (E : Hw) (x0 : List (Nat × Nat × List Byte)) : Hw.Only [] [] [.stores] E { E with stores := x0 } :=
  ⟨rfl, fun _ _ _ _ _ _ => rfl, fun _ f _ => f.same_refl _, fun g hg => by cases g <;> first | rfl | exact absurd (by decide) hg⟩
theorem Hw.with_tunnels (E : Hw) (x0 : List Link) : Hw.Only [] [] [.tunnels] E { E with tunnels := x0 } :=
  ⟨rfl, fun _ _ _ _ _ _ => rfl, fun _ f _ => f.same_refl _, fun g hg => by cases g <;> first | rfl | exact absurd (by decide) hg⟩
theorem Hw.with_wipes (E : Hw) (x0 : List (Nat × Nat × Nat)) : Hw.Only [] [] [.wipes] E { E with wipes := x0 } :=
  ⟨rfl, fun _ _ _ _ _ _ => rfl, fun _ f _ => f.same_refl _, fun g hg => by cases g <;> first | rfl | exact absurd (by decide) hg⟩
theorem Hw.with_clk_dies (F : List DieRec) (E : Hw) (f : Die → Die) (x0 : Nat) (hf : ∀ D x, x ∉ F → x.same D (f D)) :
    Hw.Only [] F [.clk] E { E with clk := x0, dies := E.dies.map f } := by
  refine Hw.Only.step ((Hw.allDies_only F f E hf).mono (by simp [Parts])) (Hw.with_clk _ x0) (by simp [Parts])
theorem Hw.with_dies_pkg (F : List DieRec) (E : Hw) (f : Die → Die) (x0 : PkgState) (hf : ∀ D x, x ∉ F → x.same D (f D)) :
    Hw.Only [] F [.pkg] E { E with pkg := x0, dies := E.dies.map f } := by
  refine Hw.Only.step ((Hw.allDies_only F f E hf).mono (by simp [Parts])) (Hw.with_pkg _ x0) (by simp [Parts])
theorem Hw.with_dies_replies (F : List DieRec) (E : Hw) (f : Die → Die) (x0 : List ((Origin × Nat) × Reply)) (hf : ∀ D x, x ∉ F → x.same D (f D)) :
    Hw.Only [] F [.replies] E { E with replies := x0, dies := E.dies.map f } := by
  refine Hw.Only.step ((Hw.allDies_only F f E hf).mono (by simp [Parts])) (Hw.with_replies _ x0) (by simp [Parts])

theorem Hw.eventNode_only (d code node : Nat) (data : List Byte) (h : Hw) :
    Hw.Only [0x1F] [.front, .buckets, .folded] [] h (h.eventNode d code node data) := by
  have R := h.rec_eventNode d code node data
  refine ⟨R.len, fun e a i _ ha _ => R.rd e a i fun hc => ha (List.mem_singleton.2 hc), fun e x hx => ?_, fun g _ => ?_⟩
  · obtain ⟨_, _, _, he⟩ := R.die e
    rw [he]
    cases x <;> first | rfl | exact absurd (by decide) hx
  · rw [R.rest]
    cases g <;> rfl

theorem Hw.event_only (d code : Nat) (data : List Byte) (h : Hw) :
    Hw.Only [0x1F] [.front, .buckets, .folded] [] h (h.event d code data) := h.eventNode_only ..
theorem Hw.eventPkg_only (d code : Nat) (data : List Byte) (h : Hw) :
    Hw.Only [0x1F] [.front, .buckets, .folded] [] h (h.eventPkg d code data) := h.eventNode_only ..

end Sys2Proof.Machine
end

