-- ==== Sys2Proof/Laws/OnlyBase.lean ====
section
/-!
SUPPORT. Frames of the operations of the shared operations, time and the links: what each can change, from the frames of the operations it calls.
-/
namespace Sys2Proof.Machine

/-! ### Ops -/

theorem Hw.wrBlk_only (h : Hw) (d : Nat) (a : AttrId) (i o n v : Nat) :
    Hw.Only [] [] [.blks] h (Hw.wrBlk h d a i o n v) := by
  unfold Hw.wrBlk
  try simp only
  repeat' (first
    | with_reducible apply Hw.Only.refl
    | decide
    | (with_reducible apply Hw.Only.step ?_ (Hw.setBlk_only ..))
    | dsimp only
    | split)

theorem Hw.tick_only (h : Hw) (k : Nat) :
    Hw.Only [] [.tbs] [.clk] h (Hw.tick h k) := by
  unfold Hw.tick
  try simp only
  repeat' (first
    | with_reducible apply Hw.Only.refl
    | (intro D x hx; cases x <;> first | exact absurd (by decide) hx | exact rfl)
    | decide
    | (with_reducible apply Hw.Only.ite <;> intro _)
    | (with_reducible apply Hw.Only.ite2 <;> intro _)
    | dsimp only
    | split
    | (with_reducible apply Hw.Only.step ?_ (Hw.with_clk_dies [.tbs] _ _ _  ?_))
    | (with_reducible apply Hw.Only.step ?_ (Hw.with_clk ..)))

theorem Hw.until_only (h : Hw) (d t : Nat) :
    Hw.Only [] [.tbs] [.clk] h (Hw.until h d t) := by
  unfold Hw.until
  try simp only
  repeat' (first
    | with_reducible apply Hw.Only.refl
    | decide
    | (with_reducible apply Hw.Only.ite <;> intro _)
    | (with_reducible apply Hw.Only.ite2 <;> intro _)
    | (with_reducible apply Hw.Only.step ?_ (Hw.tick_only ..))
    | dsimp only
    | split)

/-! ### Flags -/

theorem Hw.msix_only (h : Hw) (ep vec : Nat) :
    Hw.Only [] [] [.eps, .out] h (Hw.msix h ep vec) := by
  unfold Hw.msix
  try simp only
  repeat' (first
    | with_reducible apply Hw.Only.refl
    | decide
    | (with_reducible apply Hw.Only.ite <;> intro _)
    | (with_reducible apply Hw.Only.ite2 <;> intro _)
    | (with_reducible apply Hw.Only.step ?_ (Hw.emit_only ..))
    | dsimp only
    | split
    | (with_reducible apply Hw.Only.step ?_ (Hw.with_eps ..)))

theorem Hw.msixFlush_only (h : Hw) (ep : Nat) :
    Hw.Only [] [] [.eps, .out] h (Hw.msixFlush h ep) := by
  unfold Hw.msixFlush
  try simp only
  repeat' (first
    | with_reducible apply Hw.Only.refl
    | decide
    | (with_reducible apply Hw.Only.ite <;> intro _)
    | (with_reducible apply Hw.Only.ite2 <;> intro _)
    | (with_reducible apply Hw.Only.foldl)
    | (intro (_ : Hw); intro _)
    | (intro (_ : Hw))
    | (with_reducible apply Hw.Only.foldlP)
    | (intro (_ : _ × Hw); intro _)
    | (with_reducible apply Hw.Only.step ?_ (Hw.emit_only ..))
    | (with_reducible apply Hw.Only.step ?_ (Hw.msix_only ..))
    | dsimp only
    | split
    | (with_reducible apply Hw.Only.step ?_ (Hw.with_eps ..)))

theorem Hw.setBucket_only (h : Hw) (d : Nat) (b : Bucket) :
    Hw.Only [] [.buckets] [] h (Hw.setBucket h d b) := by
  unfold Hw.setBucket
  try simp only
  repeat' (first
    | with_reducible apply Hw.Only.refl
    | (intro D x hx; cases x <;> first | exact absurd (by decide) hx | exact rfl)
    | decide
    | (with_reducible apply Hw.Only.step ?_ (Hw.onDie_only [.buckets] _ _ _ ?_))
    | dsimp only
    | split)

theorem Hw.frontPut_only (h : Hw) (d : Nat) (e : Evt) :
    Hw.Only [0x1f0005, 0x1f0006] [.front] [] h (Hw.frontPut h d e) := by
  unfold Hw.frontPut
  try simp only
  repeat' (first
    | with_reducible apply Hw.Only.refl
    | (intro D x hx; cases x <;> first | exact absurd (by decide) hx | exact rfl)
    | decide
    | (with_reducible apply Hw.Only.ite <;> intro _)
    | (with_reducible apply Hw.Only.ite2 <;> intro _)
    | (with_reducible apply Hw.Only.step ?_ (Hw.wr_only ..))
    | (with_reducible apply Hw.Only.step ?_ (Hw.onDie_only [.front] _ _ _ ?_))
    | dsimp only
    | split)

theorem Hw.fold_only (h : Hw) (d : Nat) (b : Bucket) (e : Evt) :
    Hw.Only [] [.buckets] [] h (Hw.fold h d b e) := by
  unfold Hw.fold
  try simp only
  repeat' (first
    | with_reducible apply Hw.Only.refl
    | decide
    | (with_reducible apply Hw.Only.step ?_ (Hw.setBucket_only ..))
    | dsimp only
    | split)

theorem Hw.configChange_only (h : Hw) (d op : Nat) (o : ObjRef) (st : Status) (src : Source) :
    Hw.Only [0x1f, 0x10021] [.front, .buckets, .folded] [] h (Hw.configChange h d op o st src) := by
  unfold Hw.configChange
  try simp only
  repeat' (first
    | with_reducible apply Hw.Only.refl
    | decide
    | (with_reducible apply Hw.Only.step ?_ (Hw.add_only ..))
    | (with_reducible apply Hw.Only.step ?_ (Hw.event_only ..))
    | dsimp only
    | split)

theorem Hw.seeSource_only (h : Hw) (d : Nat) (s : Source) :
    Hw.Only [0x1f, 0x10020, 0x10021] [.front, .buckets, .folded] [.pkg] h (Hw.seeSource h d s) := by
  unfold Hw.seeSource
  try simp only
  repeat' (first
    | with_reducible apply Hw.Only.refl
    | decide
    | (with_reducible apply Hw.Only.ite <;> intro _)
    | (with_reducible apply Hw.Only.ite2 <;> intro _)
    | (intro (_ : Hw); intro _)
    | (intro (_ : Hw))
    | (with_reducible apply Hw.Only.step ?_ (Hw.add_only ..))
    | (with_reducible apply Hw.Only.step ?_ (Hw.rildin_only (C := [0x1f, 0x10020, 0x10021]) (F := [.front, .buckets, .folded]) (G := [.pkg]) ?_ ?_ ..))
    | (with_reducible apply Hw.Only.step ?_ (Hw.event_only ..))
    | dsimp only
    | split
    | (apply Hw.Only.of_pair; assumption)
    | (apply Hw.Only.of_triple; assumption)
    | (with_reducible apply Hw.Only.step ?_ (Hw.with_pkg ..)))

/-! ### Queues -/

theorem Hw.onQ_only (h : Hw) (d i : Nat) (f : Queue → Queue) :
    Hw.Only [] [.queues] [] h (Hw.onQ h d i f) := by
  unfold Hw.onQ
  try simp only
  repeat' (first
    | with_reducible apply Hw.Only.refl
    | (intro D x hx; cases x <;> first | exact absurd (by decide) hx | exact rfl)
    | decide
    | (with_reducible apply Hw.Only.step ?_ (Hw.onDie_only [.queues] _ _ _ ?_))
    | dsimp only
    | split)

theorem Hw.qSticky_only (h : Hw) (d i b code : Nat) (data : List Byte) :
    Hw.Only [0x1f] [.queues, .front, .buckets, .folded] [] h (Hw.qSticky h d i b code data) := by
  unfold Hw.qSticky
  try simp only
  repeat' (first
    | with_reducible apply Hw.Only.refl
    | decide
    | (with_reducible apply Hw.Only.ite <;> intro _)
    | (with_reducible apply Hw.Only.ite2 <;> intro _)
    | (with_reducible apply Hw.Only.step ?_ (Hw.onQ_only ..))
    | (with_reducible apply Hw.Only.step ?_ (Hw.event_only ..))
    | dsimp only
    | split)

theorem Hw.qUnderrun_only (h : Hw) (d i : Nat) :
    Hw.Only [0x1f] [.queues, .front, .buckets, .folded] [] h (Hw.qUnderrun h d i) := by
  unfold Hw.qUnderrun
  try simp only
  repeat' (first
    | with_reducible apply Hw.Only.refl
    | decide
    | (with_reducible apply Hw.Only.step ?_ (Hw.qSticky_only ..))
    | dsimp only
    | split)

theorem Hw.qOverflow_only (h : Hw) (d i agent : Nat) :
    Hw.Only [0x1f] [.queues, .front, .buckets, .folded] [] h (Hw.qOverflow h d i agent) := by
  unfold Hw.qOverflow
  try simp only
  repeat' (first
    | with_reducible apply Hw.Only.refl
    | decide
    | (with_reducible apply Hw.Only.step ?_ (Hw.qSticky_only ..))
    | dsimp only
    | split)

theorem Hw.qWatermark_only (h : Hw) (d i : Nat) :
    Hw.Only [] [.queues] [.eps, .out] h (Hw.qWatermark h d i) := by
  unfold Hw.qWatermark
  try simp only
  repeat' (first
    | with_reducible apply Hw.Only.refl
    | decide
    | (with_reducible apply Hw.Only.ite <;> intro _)
    | (with_reducible apply Hw.Only.ite2 <;> intro _)
    | (with_reducible apply Hw.Only.step ?_ (Hw.onQ_only ..))
    | (with_reducible apply Hw.Only.step ?_ (Hw.msix_only ..))
    | dsimp only
    | split)

theorem Hw.qRewind_only (h : Hw) (d i : Nat) :
    Hw.Only [0x20014] [.queues] [] h (Hw.qRewind h d i) := by
  unfold Hw.qRewind
  try simp only
  repeat' (first
    | with_reducible apply Hw.Only.refl
    | decide
    | (with_reducible apply Hw.Only.step ?_ (Hw.add_only ..))
    | (with_reducible apply Hw.Only.step ?_ (Hw.onQ_only ..))
    | dsimp only
    | split)

theorem Hw.qCommit_only (h : Hw) (d i agent : Nat) :
    Hw.Only [0x1f, 0x20014, 0x20016] [.queues, .front, .buckets, .folded] [.eps, .out] h (Hw.qCommit h d i agent).2 := by
  unfold Hw.qCommit
  try simp only
  repeat' (first
    | with_reducible apply Hw.Only.refl
    | decide
    | (with_reducible apply Hw.Only.ite <;> intro _)
    | (with_reducible apply Hw.Only.ite2 <;> intro _)
    | (with_reducible apply Hw.Only.step ?_ (Hw.wr_only ..))
    | (with_reducible apply Hw.Only.step ?_ (Hw.add_only ..))
    | (with_reducible apply Hw.Only.step ?_ (Hw.qRewind_only ..))
    | (with_reducible apply Hw.Only.step ?_ (Hw.qWatermark_only ..))
    | (with_reducible apply Hw.Only.step ?_ (Hw.qSticky_only ..))
    | (with_reducible apply Hw.Only.step ?_ (Hw.onQ_only ..))
    | dsimp only
    | split)

theorem Hw.qWrite_only (h : Hw) (d i agent word : Nat) :
    Hw.Only [0x20005, 0x20010] [.queues] [.stores] h (Hw.qWrite h d i agent word) := by
  unfold Hw.qWrite
  try simp only
  repeat' (first
    | with_reducible apply Hw.Only.refl
    | decide
    | (with_reducible apply Hw.Only.ite <;> intro _)
    | (with_reducible apply Hw.Only.ite2 <;> intro _)
    | (with_reducible apply Hw.Only.step ?_ (Hw.wr_only ..))
    | (with_reducible apply Hw.Only.step ?_ (Hw.add_only ..))
    | (with_reducible apply Hw.Only.step ?_ (Hw.store_only ..))
    | (with_reducible apply Hw.Only.step ?_ (Hw.onQ_only ..))
    | dsimp only
    | split)

theorem Hw.qPushNow_only (h : Hw) (d i agent word : Nat) (last : Bool) :
    Hw.Only [0x1f, 0x20005, 0x20010, 0x20013, 0x20014, 0x20015, 0x20016] [.queues, .front, .buckets, .folded] [.eps, .stores, .out] h (Hw.qPushNow h d i agent word last).2 := by
  unfold Hw.qPushNow
  try simp only
  repeat' (first
    | with_reducible apply Hw.Only.refl
    | decide
    | (with_reducible apply Hw.Only.ite <;> intro _)
    | (with_reducible apply Hw.Only.ite2 <;> intro _)
    | (with_reducible apply Hw.Only.step ?_ (Hw.add_only ..))
    | (with_reducible apply Hw.Only.step ?_ (Hw.qWrite_only ..))
    | (with_reducible apply Hw.Only.step ?_ (Hw.qCommit_only ..))
    | (with_reducible apply Hw.Only.step ?_ (Hw.qRewind_only ..))
    | (with_reducible apply Hw.Only.step ?_ (Hw.qOverflow_only ..))
    | (with_reducible apply Hw.Only.step ?_ (Hw.qSticky_only ..))
    | (with_reducible apply Hw.Only.step ?_ (Hw.onQ_only ..))
    | dsimp only
    | split)

theorem Hw.qPush_only (h : Hw) (d i agent word : Nat) (last : Bool) :
    Hw.Only [0x1f, 0x20005, 0x20010, 0x20013, 0x20014, 0x20015, 0x20016] [.queues, .front, .buckets, .folded] [.eps, .stores, .out] h (Hw.qPush h d i agent word last).2 := by
  unfold Hw.qPush
  try simp only
  repeat' (first
    | with_reducible apply Hw.Only.refl
    | decide
    | (with_reducible apply Hw.Only.ite <;> intro _)
    | (with_reducible apply Hw.Only.ite2 <;> intro _)
    | (with_reducible apply Hw.Only.step ?_ (Hw.qPushNow_only ..))
    | (with_reducible apply Hw.Only.step ?_ (Hw.onQ_only ..))
    | dsimp only
    | split)

theorem Hw.qPushPacket_only (h : Hw) (d i agent : Nat) (l : List Nat) :
    Hw.Only [0x1f, 0x20005, 0x20010, 0x20013, 0x20014, 0x20015, 0x20016] [.queues, .front, .buckets, .folded] [.eps, .stores, .out] h (Hw.qPushPacket h d i agent l).2 := by
  induction l generalizing h with
  | nil => exact Hw.Only.refl _ _ _ _
  | cons w l ih =>
    unfold Hw.qPushPacket
    cases l with
    | nil => 
      simp only
      repeat' (first
          | with_reducible apply Hw.Only.refl
          | decide
          | (with_reducible apply Hw.Only.ite <;> intro _)
          | (with_reducible apply Hw.Only.ite2 <;> intro _)
          | (with_reducible apply Hw.Only.step ?_ (Hw.qPush_only ..))
          | dsimp only
          | (with_reducible apply Hw.Only.step ?_ (ih _))
          | split
          | (apply Hw.Only.of_pair; assumption)
          | (apply Hw.Only.of_triple; assumption))
    | cons w' l =>
      simp only
      repeat' (first
          | with_reducible apply Hw.Only.refl
          | decide
          | (with_reducible apply Hw.Only.ite <;> intro _)
          | (with_reducible apply Hw.Only.ite2 <;> intro _)
          | (with_reducible apply Hw.Only.step ?_ (Hw.qPush_only ..))
          | dsimp only
          | (with_reducible apply Hw.Only.step ?_ (ih _))
          | split
          | (apply Hw.Only.of_pair; assumption)
          | (apply Hw.Only.of_triple; assumption))

theorem Hw.qProducerRewind_only (h : Hw) (d i agent : Nat) :
    Hw.Only [0x20014] [.queues] [] h (Hw.qProducerRewind h d i agent) := by
  unfold Hw.qProducerRewind
  try simp only
  repeat' (first
    | with_reducible apply Hw.Only.refl
    | decide
    | (with_reducible apply Hw.Only.ite <;> intro _)
    | (with_reducible apply Hw.Only.ite2 <;> intro _)
    | (with_reducible apply Hw.Only.step ?_ (Hw.qRewind_only ..))
    | (with_reducible apply Hw.Only.step ?_ (Hw.onQ_only ..))
    | dsimp only
    | split)

theorem Hw.qPop_only (h : Hw) (ms : List (List Host.Cell)) (d i : Nat) :
    Hw.Only [0x1f, 0x20011, 0x20012] [.queues, .front, .buckets, .folded] [.eps, .out] h (Hw.qPop h ms d i).2 := by
  unfold Hw.qPop
  try simp only
  repeat' (first
    | with_reducible apply Hw.Only.refl
    | decide
    | (with_reducible apply Hw.Only.ite <;> intro _)
    | (with_reducible apply Hw.Only.ite2 <;> intro _)
    | (with_reducible apply Hw.Only.step ?_ (Hw.add_only ..))
    | (with_reducible apply Hw.Only.step ?_ (Hw.qWatermark_only ..))
    | (with_reducible apply Hw.Only.step ?_ (Hw.qUnderrun_only ..))
    | (with_reducible apply Hw.Only.step ?_ (Hw.onQ_only ..))
    | dsimp only
    | split)

theorem Hw.qPopN_only (h : Hw) (ms : List (List Host.Cell)) (d i : Nat) (n : Nat) :
    Hw.Only [0x1f, 0x20011, 0x20012] [.queues, .front, .buckets, .folded] [.eps, .out] h (Hw.qPopN h ms d i n).2 := by
  induction n generalizing h with
  | zero => exact Hw.Only.refl _ _ _ _
  | succ n ih =>
    unfold Hw.qPopN
    try simp only
    repeat' (first
        | with_reducible apply Hw.Only.refl
        | decide
        | (with_reducible apply Hw.Only.step ?_ (Hw.qPop_only ..))
        | dsimp only
        | (with_reducible apply Hw.Only.step ?_ (ih _))
        | split
        | (apply Hw.Only.of_pair; assumption)
        | (apply Hw.Only.of_triple; assumption))

theorem Hw.qPopPacket_only (h : Hw) (ms : List (List Host.Cell)) (d i : Nat) :
    Hw.Only [0x1f, 0x20011, 0x20012] [.queues, .front, .buckets, .folded] [.eps, .out] h (Hw.qPopPacket h ms d i).2 := by
  unfold Hw.qPopPacket
  try simp only
  repeat' (first
    | with_reducible apply Hw.Only.refl
    | decide
    | (with_reducible apply Hw.Only.ite <;> intro _)
    | (with_reducible apply Hw.Only.ite2 <;> intro _)
    | (with_reducible apply Hw.Only.step ?_ (Hw.qPopN_only ..))
    | dsimp only
    | split)

theorem Hw.qRetry_only (h : Hw) (d i : Nat) (n : Nat) :
    Hw.Only [0x1f, 0x20005, 0x20010, 0x20013, 0x20014, 0x20015, 0x20016] [.queues, .front, .buckets, .folded] [.eps, .stores, .out] h (Hw.qRetry h d i n) := by
  induction n generalizing h with
  | zero => exact Hw.Only.refl _ _ _ _
  | succ n ih =>
    unfold Hw.qRetry
    try simp only
    repeat' (first
        | with_reducible apply Hw.Only.refl
        | decide
        | (with_reducible apply Hw.Only.ite <;> intro _)
        | (with_reducible apply Hw.Only.ite2 <;> intro _)
        | (with_reducible apply Hw.Only.step ?_ (Hw.qPushNow_only ..))
        | (with_reducible apply Hw.Only.step ?_ (Hw.onQ_only ..))
        | dsimp only
        | (with_reducible apply Hw.Only.step ?_ (ih _))
        | split
        | (apply Hw.Only.of_pair; assumption)
        | (apply Hw.Only.of_triple; assumption))

theorem Hw.qReject_only (h : Hw) (d i reg v : Nat) (src : Source) :
    Hw.Only [0x1f, 0x10020, 0x10021] [.front, .buckets, .folded] [.pkg] h (Hw.qReject h d i reg v src) := by
  unfold Hw.qReject
  try simp only
  repeat' (first
    | with_reducible apply Hw.Only.refl
    | decide
    | (with_reducible apply Hw.Only.step ?_ (Hw.seeSource_only ..))
    | (with_reducible apply Hw.Only.step ?_ (Hw.event_only ..))
    | dsimp only
    | split)

theorem qpWrWrite_only (die ep i v : Nat) (ms : List (List Host.Cell)) (h : Hw) :
    Hw.Only [0x1f, 0x10020, 0x10021, 0x20005, 0x20010, 0x20013, 0x20016] [.queues, .front, .buckets, .folded] [.pkg, .eps, .out] h (qpWrWrite die ep i v ms h) := by
  unfold qpWrWrite
  try simp only
  repeat' (first
    | with_reducible apply Hw.Only.refl
    | decide
    | (with_reducible apply Hw.Only.ite <;> intro _)
    | (with_reducible apply Hw.Only.ite2 <;> intro _)
    | (with_reducible apply Hw.Only.step ?_ (Hw.wr_only ..))
    | (with_reducible apply Hw.Only.step ?_ (Hw.add_only ..))
    | (with_reducible apply Hw.Only.step ?_ (Hw.qReject_only ..))
    | (with_reducible apply Hw.Only.step ?_ (Hw.qWatermark_only ..))
    | (with_reducible apply Hw.Only.step ?_ (Hw.qOverflow_only ..))
    | (with_reducible apply Hw.Only.step ?_ (Hw.qSticky_only ..))
    | (with_reducible apply Hw.Only.step ?_ (Hw.onQ_only ..))
    | dsimp only
    | split)

theorem qpRdWrite_only (die ep i v : Nat) (ms : List (List Host.Cell)) (h : Hw) :
    Hw.Only [0x1f, 0x10020, 0x10021, 0x20011, 0x20012] [.queues, .front, .buckets, .folded] [.pkg, .eps, .out] h (qpRdWrite die ep i v ms h) := by
  unfold qpRdWrite
  try simp only
  repeat' (first
    | with_reducible apply Hw.Only.refl
    | decide
    | (with_reducible apply Hw.Only.ite <;> intro _)
    | (with_reducible apply Hw.Only.ite2 <;> intro _)
    | (with_reducible apply Hw.Only.step ?_ (Hw.add_only ..))
    | (with_reducible apply Hw.Only.step ?_ (Hw.qReject_only ..))
    | (with_reducible apply Hw.Only.step ?_ (Hw.qWatermark_only ..))
    | (with_reducible apply Hw.Only.step ?_ (Hw.qUnderrun_only ..))
    | (with_reducible apply Hw.Only.step ?_ (Hw.onQ_only ..))
    | dsimp only
    | split)

theorem Hw.qWriteback_only (h : Hw) (d i : Nat) :
    Hw.Only [] [] [.stores] h (Hw.qWriteback h d i) := by
  unfold Hw.qWriteback
  try simp only
  repeat' (first
    | with_reducible apply Hw.Only.refl
    | decide
    | (with_reducible apply Hw.Only.step ?_ (Hw.wr_only ..))
    | (with_reducible apply Hw.Only.step ?_ (Hw.store_only ..))
    | dsimp only
    | split)

theorem Hw.enableOne_only (h : Hw) (ms : List (List Host.Cell)) (d i : Nat) :
    Hw.Only [0x20001] [.queues] [] h (Hw.enableOne h ms d i) := by
  unfold Hw.enableOne
  try simp only
  repeat' (first
    | with_reducible apply Hw.Only.refl
    | decide
    | (with_reducible apply Hw.Only.step ?_ (Hw.wr_only ..))
    | (with_reducible apply Hw.Only.step ?_ (Hw.onQ_only ..))
    | dsimp only
    | split)

theorem Hw.disableOne_only (h : Hw) (d i : Nat) :
    Hw.Only [0x20001, 0x20014] [.queues] [.stores] h (Hw.disableOne h d i) := by
  unfold Hw.disableOne
  try simp only
  repeat' (first
    | with_reducible apply Hw.Only.refl
    | decide
    | (with_reducible apply Hw.Only.ite <;> intro _)
    | (with_reducible apply Hw.Only.ite2 <;> intro _)
    | (with_reducible apply Hw.Only.step ?_ (Hw.wr_only ..))
    | (with_reducible apply Hw.Only.step ?_ (Hw.qWriteback_only ..))
    | (with_reducible apply Hw.Only.step ?_ (Hw.qRewind_only ..))
    | (with_reducible apply Hw.Only.step ?_ (Hw.onQ_only ..))
    | dsimp only
    | split)

/-! ### Commands -/

theorem Hw.finish_only (h : Hw) (d : Nat) (q : Hdr) (op : Nat) (o : ObjRef) (r : Reply) :
    Hw.Only [0x1f, 0x10021] [.front, .buckets, .folded] [.replies] h (Hw.finish h d q op o r) := by
  unfold Hw.finish
  try simp only
  repeat' (first
    | with_reducible apply Hw.Only.refl
    | decide
    | (with_reducible apply Hw.Only.ite <;> intro _)
    | (with_reducible apply Hw.Only.ite2 <;> intro _)
    | (with_reducible apply Hw.Only.step ?_ (Hw.putReply_only ..))
    | (with_reducible apply Hw.Only.step ?_ (Hw.configChange_only ..))
    | dsimp only
    | split)

theorem Hw.command_only {C : List Nat} {F : List DieRec} {G : List HwRec} {body : Nat → Hw → Reply × Hw} (H : ∀ h d, Hw.Only C F G h (body d h).2)
    (hs : Parts [0x1f, 0x10021] [.front, .buckets, .folded] [.replies] C F G) (h : Hw) (q : Hdr) (op : Nat) (o : ObjRef) :
    Hw.Only C F G h (h.command q op o body) := by
  unfold Hw.command
  extract_lets d
  split
  · exact .refl _ _ _ _
  · split
    · exact (Hw.Only.refl _ _ _ _).step (Hw.finish_only ..) hs
    · exact (H h d).step (Hw.finish_only ..) hs

theorem Hw.started_only (h : Hw) (q : Hdr) :
    Hw.Only [] [.mbx] [] h (Hw.started h q) := by
  unfold Hw.started
  try simp only
  repeat' (first
    | with_reducible apply Hw.Only.refl
    | (intro D x hx; cases x <;> first | exact absurd (by decide) hx | exact rfl)
    | decide
    | (with_reducible apply Hw.Only.ite <;> intro _)
    | (with_reducible apply Hw.Only.ite2 <;> intro _)
    | dsimp only
    | split
    | (with_reducible apply Hw.Only.step ?_ (Hw.allDies_only [.mbx] _ _ ?_)))

theorem Hw.defer_only (h : Hw) (d : Nat) (q : Hdr) (pkg : Bool) (e : Effect) :
    Hw.Only [] [.mbx] [.nextId, .pkg] h (Hw.defer h d q pkg e).2 := by
  unfold Hw.defer
  try simp only
  repeat' (first
    | with_reducible apply Hw.Only.refl
    | (intro D x hx; cases x <;> first | exact absurd (by decide) hx | exact rfl)
    | (intro x hx; cases x <;> first | exact absurd (by decide) hx | exact rfl)
    | decide
    | (with_reducible apply Hw.Only.ite <;> intro _)
    | (with_reducible apply Hw.Only.ite2 <;> intro _)
    | (with_reducible apply Hw.Only.step ?_ (Hw.onDie_only [.mbx] _ _ _ ?_))
    | dsimp only
    | split
    | (with_reducible refine Hw.Only.mono (Hw.Only.recs h _ [.nextId, .pkg] (Eq.refl _) (Eq.refl _) ?_) ?_)
    | (with_reducible apply Hw.Only.step ?_ (Hw.with_nextId ..))
    | (with_reducible apply Hw.Only.step ?_ (Hw.with_pkg ..)))

theorem Hw.onDeferred_only (h : Hw) (id : Nat) (f : Deferred → Deferred) :
    Hw.Only [] [.mbx] [.pkg] h (Hw.onDeferred h id f) := by
  unfold Hw.onDeferred
  try simp only
  repeat' (first
    | with_reducible apply Hw.Only.refl
    | (intro D x hx; cases x <;> first | exact absurd (by decide) hx | exact rfl)
    | decide
    | (with_reducible apply Hw.Only.ite <;> intro _)
    | (with_reducible apply Hw.Only.ite2 <;> intro _)
    | dsimp only
    | split
    | (with_reducible apply Hw.Only.step ?_ (Hw.with_dies_pkg [.mbx] _ _ _  ?_)))

theorem Hw.settle_only (h : Hw) (id fate : Nat) :
    Hw.Only [] [.mbx] [.pkg] h (Hw.settle h id fate) := by
  unfold Hw.settle
  try simp only
  repeat' (first
    | with_reducible apply Hw.Only.refl
    | decide
    | (with_reducible apply Hw.Only.step ?_ (Hw.onDeferred_only ..))
    | dsimp only
    | split)

theorem Hw.movePoint_only (h : Hw) (id : Nat) (e : Effect) :
    Hw.Only [] [.mbx] [.pkg] h (Hw.movePoint h id e) := by
  unfold Hw.movePoint
  try simp only
  repeat' (first
    | with_reducible apply Hw.Only.refl
    | decide
    | (with_reducible apply Hw.Only.step ?_ (Hw.onDeferred_only ..))
    | dsimp only
    | split)

theorem Hw.deferWork_only (h : Hw) (d : Nat) (q : Hdr) (pkg : Bool) (ws : List Nat) :
    Hw.Only [] [.mbx] [.nextId, .pkg] h (Hw.deferWork h d q pkg ws).2.2 := by
  unfold Hw.deferWork
  try simp only
  repeat' (first
    | with_reducible apply Hw.Only.refl
    | decide
    | (with_reducible apply Hw.Only.step ?_ (Hw.defer_only ..))
    | dsimp only
    | split
    | (apply Hw.Only.of_pair; assumption)
    | (apply Hw.Only.of_triple; assumption))

theorem okWith_only (h : Hw) :
    Hw.Only [] [] [] h (okWith h).2 := by
  unfold okWith
  try simp only
  repeat' (first
    | with_reducible apply Hw.Only.refl
    | decide
    | dsimp only
    | split)

theorem refuse_only (st : Status) (h : Hw) :
    Hw.Only [] [] [] h (refuse st h).2 := by
  unfold refuse
  try simp only
  repeat' (first
    | with_reducible apply Hw.Only.refl
    | decide
    | dsimp only
    | split)

/-! ### Time -/

theorem Hw.tbSend_only (h : Hw) (tb : Nat) (step rate : Option Int) :
    Hw.Only [] [.tbChanges] [] h (Hw.tbSend h tb step rate) := by
  unfold Hw.tbSend
  try simp only
  repeat' (first
    | with_reducible apply Hw.Only.refl
    | (intro D x hx; cases x <;> first | exact absurd (by decide) hx | exact rfl)
    | decide
    | dsimp only
    | (with_reducible apply Hw.Only.step ?_ (Hw.allDies_only [.tbChanges] _ _ ?_)))

theorem Hw.tbRate_only (h : Hw) (tb : Nat) (rate : Int) :
    Hw.Only [] [.tbChanges] [] h (Hw.tbRate h tb rate) := by
  unfold Hw.tbRate
  try simp only
  repeat' (first
    | with_reducible apply Hw.Only.refl
    | decide
    | (with_reducible apply Hw.Only.step ?_ (Hw.tbSend_only ..))
    | dsimp only
    | split)

theorem Hw.onPulse_only (h : Hw) (d out : Nat) (f : Pulse → Pulse) :
    Hw.Only [] [.pulses] [] h (Hw.onPulse h d out f) := by
  unfold Hw.onPulse
  try simp only
  repeat' (first
    | with_reducible apply Hw.Only.refl
    | (intro D x hx; cases x <;> first | exact absurd (by decide) hx | exact rfl)
    | decide
    | (with_reducible apply Hw.Only.step ?_ (Hw.onDie_only [.pulses] _ _ _ ?_))
    | dsimp only
    | split)

theorem Hw.poStepped_only (h : Hw) (d out before after : Nat) :
    Hw.Only [0x1f, 0x160001, 0x160007, 0x160009, 0x16000a] [.front, .buckets, .folded, .pulses] [] h (Hw.poStepped h d out before after) := by
  unfold Hw.poStepped
  try simp only
  repeat' (first
    | with_reducible apply Hw.Only.refl
    | decide
    | (with_reducible apply Hw.Only.ite <;> intro _)
    | (with_reducible apply Hw.Only.ite2 <;> intro _)
    | (with_reducible apply Hw.Only.step ?_ (Hw.wr_only ..))
    | (with_reducible apply Hw.Only.step ?_ (Hw.add_only ..))
    | (with_reducible apply Hw.Only.step ?_ (Hw.onPulse_only ..))
    | (with_reducible apply Hw.Only.step ?_ (Hw.event_only ..))
    | dsimp only
    | split)

theorem Hw.tbApply_only (h : Hw) (d : Nat) (c : TbChange) :
    Hw.Only [0x1f, 0x140003, 0x140006, 0x14001b, 0x160001, 0x160007, 0x160009, 0x16000a] [.front, .buckets, .folded, .tbs, .pulses] [] h (Hw.tbApply h d c) := by
  unfold Hw.tbApply
  try simp only
  repeat' (first
    | with_reducible apply Hw.Only.refl
    | (intro D x hx; cases x <;> first | exact absurd (by decide) hx | exact rfl)
    | decide
    | (with_reducible apply Hw.Only.ite <;> intro _)
    | (with_reducible apply Hw.Only.ite2 <;> intro _)
    | (with_reducible apply Hw.Only.foldl)
    | (intro (_ : Hw); intro _)
    | (intro (_ : Hw))
    | (with_reducible apply Hw.Only.foldlP)
    | (intro (_ : _ × Hw); intro _)
    | (with_reducible apply Hw.Only.step ?_ (Hw.wr_only ..))
    | (with_reducible apply Hw.Only.step ?_ (Hw.wrS_only ..))
    | (with_reducible apply Hw.Only.step ?_ (Hw.add_only ..))
    | (with_reducible apply Hw.Only.step ?_ (Hw.poStepped_only ..))
    | (with_reducible apply Hw.Only.step ?_ (Hw.eventPkg_only ..))
    | (with_reducible apply Hw.Only.step ?_ (Hw.onDie_only [.tbs] _ _ _ ?_))
    | dsimp only
    | split
    | (apply Hw.Only.of_pair; assumption)
    | (apply Hw.Only.of_triple; assumption))

theorem Hw.onServo_only (h : Hw) (tb : Nat) (f : Servo → Servo) :
    Hw.Only [] [] [.pkg] h (Hw.onServo h tb f) := by
  unfold Hw.onServo
  try simp only
  repeat' (first
    | with_reducible apply Hw.Only.refl
    | decide
    | dsimp only
    | (with_reducible apply Hw.Only.step ?_ (Hw.with_pkg ..)))

theorem Hw.servoTo_only (h : Hw) (tb : Nat) (new : ServoState) (thetaNs : Int) :
    Hw.Only [0x1f, 0x140002] [.front, .buckets, .folded] [.pkg] h (Hw.servoTo h tb new thetaNs) := by
  unfold Hw.servoTo
  try simp only
  repeat' (first
    | with_reducible apply Hw.Only.refl
    | decide
    | (with_reducible apply Hw.Only.ite <;> intro _)
    | (with_reducible apply Hw.Only.ite2 <;> intro _)
    | (with_reducible apply Hw.Only.step ?_ (Hw.wr_only ..))
    | (with_reducible apply Hw.Only.step ?_ (Hw.onServo_only ..))
    | (with_reducible apply Hw.Only.step ?_ (Hw.eventPkg_only ..))
    | dsimp only
    | split)

theorem Hw.enterHoldover_only (h : Hw) (tb : Nat) :
    Hw.Only [0x1f, 0x140002, 0x140014] [.front, .buckets, .folded, .tbChanges] [.pkg] h (Hw.enterHoldover h tb) := by
  unfold Hw.enterHoldover
  try simp only
  repeat' (first
    | with_reducible apply Hw.Only.refl
    | decide
    | (with_reducible apply Hw.Only.step ?_ (Hw.wr_only ..))
    | (with_reducible apply Hw.Only.step ?_ (Hw.servoTo_only ..))
    | (with_reducible apply Hw.Only.step ?_ (Hw.onServo_only ..))
    | (with_reducible apply Hw.Only.step ?_ (Hw.tbRate_only ..))
    | dsimp only
    | split)

theorem Hw.firstSample_only (h : Hw) (tb : Nat) (theta : Int) (t : Nat) :
    Hw.Only [0x1f, 0x140002, 0x140012] [.front, .buckets, .folded, .tbChanges] [.pkg] h (Hw.firstSample h tb theta t) := by
  unfold Hw.firstSample
  try simp only
  repeat' (first
    | with_reducible apply Hw.Only.refl
    | decide
    | (with_reducible apply Hw.Only.ite <;> intro _)
    | (with_reducible apply Hw.Only.ite2 <;> intro _)
    | (with_reducible apply Hw.Only.step ?_ (Hw.wrS_only ..))
    | (with_reducible apply Hw.Only.step ?_ (Hw.servoTo_only ..))
    | (with_reducible apply Hw.Only.step ?_ (Hw.onServo_only ..))
    | (with_reducible apply Hw.Only.step ?_ (Hw.tbRate_only ..))
    | (with_reducible apply Hw.Only.step ?_ (Hw.tbSend_only ..))
    | (with_reducible apply Hw.Only.step ?_ (Hw.eventPkg_only ..))
    | dsimp only
    | split)

theorem Hw.piSample_only (h : Hw) (tb : Nat) (theta : Int) (t : Nat) :
    Hw.Only [0x1f, 0x140002, 0x140011, 0x140012] [.front, .buckets, .folded, .tbChanges] [.pkg] h (Hw.piSample h tb theta t) := by
  unfold Hw.piSample
  try simp only
  repeat' (first
    | with_reducible apply Hw.Only.refl
    | decide
    | (with_reducible apply Hw.Only.ite <;> intro _)
    | (with_reducible apply Hw.Only.ite2 <;> intro _)
    | (with_reducible apply Hw.Only.step ?_ (Hw.wrS_only ..))
    | (with_reducible apply Hw.Only.step ?_ (Hw.servoTo_only ..))
    | (with_reducible apply Hw.Only.step ?_ (Hw.onServo_only ..))
    | (with_reducible apply Hw.Only.step ?_ (Hw.tbRate_only ..))
    | dsimp only
    | split)

theorem Hw.outlier_only (h : Hw) (tb : Nat) (ns : Int) :
    Hw.Only [0x1f, 0x140002, 0x14001c] [.front, .buckets, .folded, .tbChanges] [.pkg] h (Hw.outlier h tb ns) := by
  unfold Hw.outlier
  try simp only
  repeat' (first
    | with_reducible apply Hw.Only.refl
    | decide
    | (with_reducible apply Hw.Only.ite <;> intro _)
    | (with_reducible apply Hw.Only.ite2 <;> intro _)
    | (with_reducible apply Hw.Only.step ?_ (Hw.add_only ..))
    | (with_reducible apply Hw.Only.step ?_ (Hw.servoTo_only ..))
    | (with_reducible apply Hw.Only.step ?_ (Hw.onServo_only ..))
    | (with_reducible apply Hw.Only.step ?_ (Hw.tbRate_only ..))
    | dsimp only
    | split)

theorem Hw.servoSample_only (h : Hw) (tb gm : Nat) (theta : Int) (t : Nat) :
    Hw.Only [0x1f, 0x140002, 0x140011, 0x140012, 0x14001c] [.front, .buckets, .folded, .tbChanges, .capFresh] [.pkg] h (Hw.servoSample h tb gm theta t) := by
  unfold Hw.servoSample
  try simp only
  repeat' (first
    | with_reducible apply Hw.Only.refl
    | (intro D x hx; cases x <;> first | exact absurd (by decide) hx | exact rfl)
    | decide
    | (with_reducible apply Hw.Only.ite <;> intro _)
    | (with_reducible apply Hw.Only.ite2 <;> intro _)
    | (with_reducible apply Hw.Only.step ?_ (Hw.outlier_only ..))
    | (with_reducible apply Hw.Only.step ?_ (Hw.piSample_only ..))
    | (with_reducible apply Hw.Only.step ?_ (Hw.firstSample_only ..))
    | (with_reducible apply Hw.Only.step ?_ (Hw.onDie_only [.capFresh] _ _ _ ?_))
    | dsimp only
    | split
    | (apply Hw.Only.of_pair; assumption)
    | (apply Hw.Only.of_triple; assumption))

theorem Hw.setTbSource_only (h : Hw) (tb v : Nat) :
    Hw.Only [0x1f, 0x140002, 0x140004] [.front, .buckets, .folded, .tbChanges] [.pkg] h (Hw.setTbSource h tb v) := by
  unfold Hw.setTbSource
  try simp only
  repeat' (first
    | with_reducible apply Hw.Only.refl
    | decide
    | (with_reducible apply Hw.Only.ite <;> intro _)
    | (with_reducible apply Hw.Only.ite2 <;> intro _)
    | (with_reducible apply Hw.Only.step ?_ (Hw.wr_only ..))
    | (with_reducible apply Hw.Only.step ?_ (Hw.servoTo_only ..))
    | (with_reducible apply Hw.Only.step ?_ (Hw.onServo_only ..))
    | (with_reducible apply Hw.Only.step ?_ (Hw.tbRate_only ..))
    | dsimp only
    | split)

theorem Hw.onPtp_only (h : Hw) (d p : Nat) (f : PtpPort → PtpPort) :
    Hw.Only [] [.ptp] [] h (Hw.onPtp h d p f) := by
  unfold Hw.onPtp
  try simp only
  repeat' (first
    | with_reducible apply Hw.Only.refl
    | (intro D x hx; cases x <;> first | exact absurd (by decide) hx | exact rfl)
    | decide
    | (with_reducible apply Hw.Only.step ?_ (Hw.onDie_only [.ptp] _ _ _ ?_))
    | dsimp only
    | split)

theorem Hw.ptpTo_only (h : Hw) (d p new : Nat) :
    Hw.Only [0x1f, 0x150002] [.front, .buckets, .folded] [] h (Hw.ptpTo h d p new) := by
  unfold Hw.ptpTo
  try simp only
  repeat' (first
    | with_reducible apply Hw.Only.refl
    | decide
    | (with_reducible apply Hw.Only.ite <;> intro _)
    | (with_reducible apply Hw.Only.ite2 <;> intro _)
    | (with_reducible apply Hw.Only.step ?_ (Hw.wr_only ..))
    | (with_reducible apply Hw.Only.step ?_ (Hw.event_only ..))
    | dsimp only
    | split)

theorem Hw.ptpMaster_only (h : Hw) (tb gm utc : Nat) :
    Hw.Only [0x1f, 0x140002, 0x140014, 0x140019, 0x14001a] [.front, .buckets, .folded, .tbChanges] [.pkg] h (Hw.ptpMaster h tb gm utc) := by
  unfold Hw.ptpMaster
  try simp only
  repeat' (first
    | with_reducible apply Hw.Only.refl
    | decide
    | (with_reducible apply Hw.Only.ite <;> intro _)
    | (with_reducible apply Hw.Only.ite2 <;> intro _)
    | (with_reducible apply Hw.Only.step ?_ (Hw.wr_only ..))
    | (with_reducible apply Hw.Only.step ?_ (Hw.enterHoldover_only ..))
    | (with_reducible apply Hw.Only.step ?_ (Hw.onServo_only ..))
    | (with_reducible apply Hw.Only.step ?_ (Hw.eventPkg_only ..))
    | dsimp only
    | split)

theorem Hw.bmca_only (h : Hw) (tb : Nat) :
    Hw.Only [0x1f, 0x140002, 0x140014, 0x140019, 0x14001a, 0x150002] [.front, .buckets, .folded, .tbChanges] [.pkg] h (Hw.bmca h tb) := by
  unfold Hw.bmca
  try simp only
  repeat' (first
    | with_reducible apply Hw.Only.refl
    | decide
    | (with_reducible apply Hw.Only.ite <;> intro _)
    | (with_reducible apply Hw.Only.ite2 <;> intro _)
    | (with_reducible apply Hw.Only.foldl)
    | (intro (_ : Hw); intro _)
    | (intro (_ : Hw))
    | (with_reducible apply Hw.Only.foldlP)
    | (intro (_ : _ × Hw); intro _)
    | (with_reducible apply Hw.Only.step ?_ (Hw.ptpMaster_only ..))
    | (with_reducible apply Hw.Only.step ?_ (Hw.ptpTo_only ..))
    | dsimp only
    | split
    | (apply Hw.Only.of_pair; assumption)
    | (apply Hw.Only.of_triple; assumption))

theorem Hw.ptpOffset_only (h : Hw) (d p : Nat) (rx origin : Int) :
    Hw.Only [0x1f, 0x150002, 0x150011] [.front, .buckets, .folded] [] h (Hw.ptpOffset h d p rx origin) := by
  unfold Hw.ptpOffset
  try simp only
  repeat' (first
    | with_reducible apply Hw.Only.refl
    | decide
    | (with_reducible apply Hw.Only.ite <;> intro _)
    | (with_reducible apply Hw.Only.ite2 <;> intro _)
    | (with_reducible apply Hw.Only.step ?_ (Hw.wrS_only ..))
    | (with_reducible apply Hw.Only.step ?_ (Hw.ptpTo_only ..))
    | dsimp only
    | split)

theorem Hw.ptpDelay_only (h : Hw) (d p : Nat) (x : Int) :
    Hw.Only [0x150010] [] [] h (Hw.ptpDelay h d p x) := by
  unfold Hw.ptpDelay
  try simp only
  repeat' (first
    | with_reducible apply Hw.Only.refl
    | decide
    | (with_reducible apply Hw.Only.step ?_ (Hw.wr_only ..))
    | dsimp only
    | split)

theorem Hw.ptpMessage_only (h : Hw) (d p : Nat) (m : PtpMsg) :
    Hw.Only [0x1f, 0x140002, 0x140014, 0x140019, 0x14001a, 0x150002, 0x150010, 0x150011, 0x150012, 0x150013, 0x150014, 0x150015] [.front, .buckets, .folded, .tbChanges, .ptp] [.pkg, .out] h (Hw.ptpMessage h d p m) := by
  unfold Hw.ptpMessage
  try simp only
  repeat' (first
    | with_reducible apply Hw.Only.refl
    | decide
    | (with_reducible apply Hw.Only.ite <;> intro _)
    | (with_reducible apply Hw.Only.ite2 <;> intro _)
    | (with_reducible apply Hw.Only.step ?_ (Hw.add_only ..))
    | (with_reducible apply Hw.Only.step ?_ (Hw.emit_only ..))
    | (with_reducible apply Hw.Only.step ?_ (Hw.ptpDelay_only ..))
    | (with_reducible apply Hw.Only.step ?_ (Hw.ptpOffset_only ..))
    | (with_reducible apply Hw.Only.step ?_ (Hw.bmca_only ..))
    | (with_reducible apply Hw.Only.step ?_ (Hw.onPtp_only ..))
    | dsimp only
    | split
    | (apply Hw.Only.of_pair; assumption)
    | (apply Hw.Only.of_triple; assumption))

theorem Hw.setPtpEnable_only (h : Hw) (d p v : Nat) :
    Hw.Only [0x1f, 0x140002, 0x140014, 0x140019, 0x14001a, 0x150001, 0x150002] [.front, .buckets, .folded, .tbChanges, .ptp] [.pkg] h (Hw.setPtpEnable h d p v) := by
  unfold Hw.setPtpEnable
  try simp only
  repeat' (first
    | with_reducible apply Hw.Only.refl
    | decide
    | (with_reducible apply Hw.Only.ite <;> intro _)
    | (with_reducible apply Hw.Only.ite2 <;> intro _)
    | (with_reducible apply Hw.Only.step ?_ (Hw.wr_only ..))
    | (with_reducible apply Hw.Only.step ?_ (Hw.bmca_only ..))
    | (with_reducible apply Hw.Only.step ?_ (Hw.ptpTo_only ..))
    | (with_reducible apply Hw.Only.step ?_ (Hw.onPtp_only ..))
    | dsimp only
    | split)

theorem poArm_only (d mode out start period count : Nat) (h : Hw) :
    Hw.Only [0x1f, 0x160001, 0x160006, 0x160007, 0x160009] [.front, .buckets, .folded, .pulses] [] h (poArm d mode out start period count h).2 := by
  unfold poArm
  try simp only
  repeat' (first
    | with_reducible apply Hw.Only.refl
    | decide
    | (with_reducible apply Hw.Only.ite <;> intro _)
    | (with_reducible apply Hw.Only.ite2 <;> intro _)
    | (with_reducible apply Hw.Only.step ?_ (Hw.wr_only ..))
    | (with_reducible apply Hw.Only.step ?_ (Hw.add_only ..))
    | (with_reducible apply Hw.Only.step ?_ (Hw.onPulse_only ..))
    | (with_reducible apply Hw.Only.step ?_ (refuse_only ..))
    | (with_reducible apply Hw.Only.step ?_ (Hw.event_only ..))
    | dsimp only
    | split)

theorem Hw.poTrigger_only (h : Hw) (d out : Nat) :
    Hw.Only [0x160001, 0x160007, 0x16000a] [.pulses] [] h (Hw.poTrigger h d out) := by
  unfold Hw.poTrigger
  try simp only
  repeat' (first
    | with_reducible apply Hw.Only.refl
    | decide
    | (with_reducible apply Hw.Only.ite <;> intro _)
    | (with_reducible apply Hw.Only.ite2 <;> intro _)
    | (with_reducible apply Hw.Only.step ?_ (Hw.wr_only ..))
    | (with_reducible apply Hw.Only.step ?_ (Hw.add_only ..))
    | (with_reducible apply Hw.Only.step ?_ (Hw.onPulse_only ..))
    | dsimp only
    | split)

theorem Hw.poGive_only (h : Hw) (d out : Nat) :
    Hw.Only [0x160001, 0x160007, 0x160008] [.pulses] [.out] h (Hw.poGive h d out) := by
  unfold Hw.poGive
  try simp only
  repeat' (first
    | with_reducible apply Hw.Only.refl
    | decide
    | (with_reducible apply Hw.Only.ite <;> intro _)
    | (with_reducible apply Hw.Only.ite2 <;> intro _)
    | (with_reducible apply Hw.Only.step ?_ (Hw.wr_only ..))
    | (with_reducible apply Hw.Only.step ?_ (Hw.add_only ..))
    | (with_reducible apply Hw.Only.step ?_ (Hw.emit_only ..))
    | (with_reducible apply Hw.Only.step ?_ (Hw.onPulse_only ..))
    | dsimp only
    | split
    | (apply Hw.Only.of_pair; assumption)
    | (apply Hw.Only.of_triple; assumption))

/-! ### Links -/

theorem Hw.barReject_only (h : Hw) (ep bar addr : Nat) (write : Bool) :
    Hw.Only [0x1f, 0x10020, 0x10021, 0x180023] [.front, .buckets, .folded] [.pkg] h (Hw.barReject h ep bar addr write) := by
  unfold Hw.barReject
  try simp only
  repeat' (first
    | with_reducible apply Hw.Only.refl
    | decide
    | (with_reducible apply Hw.Only.step ?_ (Hw.add_only ..))
    | (with_reducible apply Hw.Only.step ?_ (Hw.seeSource_only ..))
    | (with_reducible apply Hw.Only.step ?_ (Hw.event_only ..))
    | dsimp only
    | split)

theorem Hw.deviceWrite_only (h : Hw) (ep d a : Nat) (bs : List Byte) :
    Hw.Only [0x1f, 0x10020, 0x10021, 0x180023] [.front, .buckets, .folded] [.pkg, .stores] h (Hw.deviceWrite h ep d a bs) := by
  unfold Hw.deviceWrite
  try simp only
  repeat' (first
    | with_reducible apply Hw.Only.refl
    | decide
    | (with_reducible apply Hw.Only.ite <;> intro _)
    | (with_reducible apply Hw.Only.ite2 <;> intro _)
    | (intro (_ : Hw); intro _)
    | (intro (_ : Hw))
    | (with_reducible apply Hw.Only.step ?_ (Hw.store_only ..))
    | (with_reducible apply Hw.Only.step ?_ (Hw.rildin_only (C := [0x1f, 0x10020, 0x10021, 0x180023]) (F := [.front, .buckets, .folded]) (G := [.pkg, .stores]) ?_ ?_ ..))
    | (with_reducible apply Hw.Only.step ?_ (Hw.barReject_only ..))
    | dsimp only
    | split
    | (apply Hw.Only.of_pair; assumption)
    | (apply Hw.Only.of_triple; assumption))

theorem Hw.flr_only (h : Hw) (ep : Nat) :
    Hw.Only [0x1f, 0x180006, 0x180022] [.front, .buckets, .folded] [.eps] h (Hw.flr h ep) := by
  unfold Hw.flr
  try simp only
  repeat' (first
    | with_reducible apply Hw.Only.refl
    | decide
    | (with_reducible apply Hw.Only.step ?_ (Hw.wr_only ..))
    | (with_reducible apply Hw.Only.step ?_ (Hw.add_only ..))
    | (with_reducible apply Hw.Only.step ?_ (Hw.event_only ..))
    | dsimp only
    | (with_reducible apply Hw.Only.step ?_ (Hw.with_eps ..)))

theorem Hw.onLink_only (h : Hw) (l : Nat) (f : Link → Link) :
    Hw.Only [] [.itv] [.tunnels] h (Hw.onLink h l f) := by
  unfold Hw.onLink
  try simp only
  repeat' (first
    | with_reducible apply Hw.Only.refl
    | (intro D x hx; cases x <;> first | exact absurd (by decide) hx | exact rfl)
    | decide
    | (with_reducible apply Hw.Only.ite <;> intro _)
    | (with_reducible apply Hw.Only.ite2 <;> intro _)
    | (with_reducible apply Hw.Only.step ?_ (Hw.onDie_only [.itv] _ _ _ ?_))
    | dsimp only
    | split
    | (with_reducible apply Hw.Only.step ?_ (Hw.with_tunnels ..)))

theorem Hw.linkAdd_only (h : Hw) (l : Nat) (a : AttrId) (n : Nat) :
    Hw.Only [a.code] [] [] h (Hw.linkAdd h l a n) := by
  unfold Hw.linkAdd
  split
  · exact Hw.add_only ..
  · exact Hw.Only.refl _ _ _ _

theorem Hw.itvPm_only (h : Hw) (d dir new : Nat) :
    Hw.Only [0x1f, 0x19000c, 0x19000d] [.front, .buckets, .folded] [] h (Hw.itvPm h d dir new) := by
  unfold Hw.itvPm
  try simp only
  repeat' (first
    | with_reducible apply Hw.Only.refl
    | decide
    | (with_reducible apply Hw.Only.ite <;> intro _)
    | (with_reducible apply Hw.Only.ite2 <;> intro _)
    | (with_reducible apply Hw.Only.step ?_ (Hw.wr_only ..))
    | (with_reducible apply Hw.Only.step ?_ (Hw.event_only ..))
    | dsimp only
    | split)

theorem Hw.linkOut_only (h : Hw) (l : Nat) (f : ItvFrame) :
    Hw.Only [0x1f, 0x19000c, 0x19000d, 0x190024] [.front, .buckets, .folded] [.out] h (Hw.linkOut h l f) := by
  unfold Hw.linkOut
  try simp only
  repeat' (first
    | with_reducible apply Hw.Only.refl
    | decide
    | (with_reducible apply Hw.Only.ite <;> intro _)
    | (with_reducible apply Hw.Only.ite2 <;> intro _)
    | (with_reducible apply Hw.Only.step ?_ (Hw.emit_only ..))
    | (with_reducible apply Hw.Only.step ?_ (Hw.itvPm_only ..))
    | (with_reducible apply Hw.Only.step ?_ (Hw.linkAdd_only ..))
    | dsimp only
    | split)

theorem Hw.linkPump_only (h : Hw) (l : Nat) (n : Nat) :
    Hw.Only [0x1f, 0x19000c, 0x19000d, 0x190024] [.front, .buckets, .folded, .itv] [.tunnels, .out] h (Hw.linkPump h l n) := by
  induction n generalizing h with
  | zero => exact Hw.Only.refl _ _ _ _
  | succ n ih =>
    unfold Hw.linkPump
    try simp only
    repeat' (first
        | with_reducible apply Hw.Only.refl
        | decide
        | (with_reducible apply Hw.Only.ite <;> intro _)
        | (with_reducible apply Hw.Only.ite2 <;> intro _)
        | (with_reducible apply Hw.Only.step ?_ (Hw.linkOut_only ..))
        | (with_reducible apply Hw.Only.step ?_ (Hw.onLink_only ..))
        | dsimp only
        | (with_reducible apply Hw.Only.step ?_ (ih _))
        | split
        | (apply Hw.Only.of_pair; assumption)
        | (apply Hw.Only.of_triple; assumption))

theorem Hw.linkSend_only (h : Hw) (l type hops dst src : Nat) (payload : List Byte) :
    Hw.Only [0x1f, 0x19000c, 0x19000d, 0x190024] [.front, .buckets, .folded, .itv] [.tunnels, .out] h (Hw.linkSend h l type hops dst src payload) := by
  unfold Hw.linkSend
  try simp only
  repeat' (first
    | with_reducible apply Hw.Only.refl
    | decide
    | (with_reducible apply Hw.Only.step ?_ (Hw.linkPump_only ..))
    | (with_reducible apply Hw.Only.step ?_ (Hw.onLink_only ..))
    | dsimp only
    | split)

theorem Hw.linkAck_only (h : Hw) (l ack : Nat) :
    Hw.Only [0x1f, 0x19000c, 0x19000d, 0x190024] [.front, .buckets, .folded, .itv] [.tunnels, .out] h (Hw.linkAck h l ack) := by
  unfold Hw.linkAck
  try simp only
  repeat' (first
    | with_reducible apply Hw.Only.refl
    | decide
    | (with_reducible apply Hw.Only.ite <;> intro _)
    | (with_reducible apply Hw.Only.ite2 <;> intro _)
    | (with_reducible apply Hw.Only.step ?_ (Hw.linkPump_only ..))
    | (with_reducible apply Hw.Only.step ?_ (Hw.onLink_only ..))
    | dsimp only
    | split)

theorem Hw.roleUpdate_only (h : Hw) :
    Hw.Only [0x1a0001, 0x1a0008] [] [] h (Hw.roleUpdate h) := by
  unfold Hw.roleUpdate
  try simp only
  repeat' (first
    | with_reducible apply Hw.Only.refl
    | decide
    | (with_reducible apply Hw.Only.ite <;> intro _)
    | (with_reducible apply Hw.Only.ite2 <;> intro _)
    | (with_reducible apply Hw.Only.foldl)
    | (intro (_ : Hw); intro _)
    | (intro (_ : Hw))
    | (with_reducible apply Hw.Only.foldlP)
    | (intro (_ : _ × Hw); intro _)
    | (with_reducible apply Hw.Only.step ?_ (Hw.wr_only ..))
    | dsimp only
    | split
    | (apply Hw.Only.of_pair; assumption)
    | (apply Hw.Only.of_triple; assumption))

theorem Hw.linkLost_only (h : Hw) (l : Nat) :
    Hw.Only [0x1f, 0x1a0001, 0x1a0008, 0x1a0011] [.front, .buckets, .folded] [.pkg] h (Hw.linkLost h l) := by
  unfold Hw.linkLost
  try simp only
  repeat' (first
    | with_reducible apply Hw.Only.refl
    | decide
    | (with_reducible apply Hw.Only.ite <;> intro _)
    | (with_reducible apply Hw.Only.ite2 <;> intro _)
    | (with_reducible apply Hw.Only.step ?_ (Hw.wr_only ..))
    | (with_reducible apply Hw.Only.step ?_ (Hw.roleUpdate_only ..))
    | (with_reducible apply Hw.Only.step ?_ (Hw.eventPkg_only ..))
    | dsimp only
    | split
    | (with_reducible apply Hw.Only.step ?_ (Hw.with_pkg ..)))

theorem Hw.tunPeer_only (h : Hw) (l : Nat) (up : Bool) :
    Hw.Only [0x1f, 0x1a0001, 0x1a0008, 0x1a0011] [.front, .buckets, .folded, .itv] [.pkg, .tunnels] h (Hw.tunPeer h l up) := by
  unfold Hw.tunPeer
  try simp only
  repeat' (first
    | with_reducible apply Hw.Only.refl
    | decide
    | (with_reducible apply Hw.Only.ite <;> intro _)
    | (with_reducible apply Hw.Only.ite2 <;> intro _)
    | (with_reducible apply Hw.Only.step ?_ (Hw.linkLost_only ..))
    | (with_reducible apply Hw.Only.step ?_ (Hw.onLink_only ..))
    | (with_reducible apply Hw.Only.step ?_ (Hw.eventPkg_only ..))
    | dsimp only
    | split)

theorem Hw.itvTo_only (h : Hw) (d new : Nat) :
    Hw.Only [0x1f, 0x190002, 0x190003, 0x190026, 0x1a0001, 0x1a0008, 0x1a0011] [.front, .buckets, .folded] [.pkg] h (Hw.itvTo h d new) := by
  unfold Hw.itvTo
  try simp only
  repeat' (first
    | with_reducible apply Hw.Only.refl
    | decide
    | (with_reducible apply Hw.Only.ite <;> intro _)
    | (with_reducible apply Hw.Only.ite2 <;> intro _)
    | (with_reducible apply Hw.Only.step ?_ (Hw.wr_only ..))
    | (with_reducible apply Hw.Only.step ?_ (Hw.add_only ..))
    | (with_reducible apply Hw.Only.step ?_ (Hw.linkLost_only ..))
    | (with_reducible apply Hw.Only.step ?_ (Hw.event_only ..))
    | dsimp only
    | split)

theorem Hw.itvTrain_only (h : Hw) (d : Nat) :
    Hw.Only [0x1f, 0x190002, 0x190003, 0x190005, 0x190026, 0x1a0001, 0x1a0008, 0x1a0011, 0x19000c, 0x19000d] [.front, .buckets, .folded, .itv] [.pkg] h (Hw.itvTrain h d) := by
  unfold Hw.itvTrain
  try simp only
  repeat' (first
    | with_reducible apply Hw.Only.refl
    | (intro D x hx; cases x <;> first | exact absurd (by decide) hx | exact rfl)
    | decide
    | (with_reducible apply Hw.Only.step ?_ (Hw.wr_only ..))
    | (with_reducible apply Hw.Only.step ?_ (Hw.itvTo_only ..))
    | (with_reducible apply Hw.Only.step ?_ (Hw.itvPm_only ..))
    | (with_reducible apply Hw.Only.step ?_ (Hw.onDie_only [.itv] _ _ _ ?_))
    | dsimp only
    | split)

theorem Hw.linkReplay_only (h : Hw) (l : Nat) :
    Hw.Only [0x1f, 0x190002, 0x190003, 0x190005, 0x19000c, 0x19000d, 0x190022, 0x190024, 0x190026, 0x1a0001, 0x1a0008, 0x1a0011] [.front, .buckets, .folded, .itv] [.pkg, .tunnels, .out] h (Hw.linkReplay h l) := by
  unfold Hw.linkReplay
  try simp only
  repeat' (first
    | with_reducible apply Hw.Only.refl
    | decide
    | (with_reducible apply Hw.Only.ite <;> intro _)
    | (with_reducible apply Hw.Only.ite2 <;> intro _)
    | (with_reducible apply Hw.Only.foldl)
    | (intro (_ : Hw); intro _)
    | (intro (_ : Hw))
    | (with_reducible apply Hw.Only.foldlP)
    | (intro (_ : _ × Hw); intro _)
    | (with_reducible apply Hw.Only.step ?_ (Hw.itvTrain_only ..))
    | (with_reducible apply Hw.Only.step ?_ (Hw.tunPeer_only ..))
    | (with_reducible apply Hw.Only.step ?_ (Hw.linkOut_only ..))
    | (with_reducible apply Hw.Only.step ?_ (Hw.linkAdd_only ..))
    | (with_reducible apply Hw.Only.step ?_ (Hw.onLink_only ..))
    | (with_reducible apply Hw.Only.step ?_ (Hw.event_only ..))
    | dsimp only
    | split)

theorem Hw.linkNak_only (h : Hw) (l : Nat) :
    Hw.Only [0x1f, 0x19000c, 0x19000d, 0x190021, 0x190024] [.front, .buckets, .folded, .itv] [.tunnels, .out] h (Hw.linkNak h l) := by
  unfold Hw.linkNak
  try simp only
  repeat' (first
    | with_reducible apply Hw.Only.refl
    | (intro D x hx; cases x <;> first | exact absurd (by decide) hx | exact rfl)
    | decide
    | (with_reducible apply Hw.Only.ite <;> intro _)
    | (with_reducible apply Hw.Only.ite2 <;> intro _)
    | (with_reducible apply Hw.Only.step ?_ (Hw.linkOut_only ..))
    | (with_reducible apply Hw.Only.step ?_ (Hw.linkAdd_only ..))
    | (with_reducible apply Hw.Only.step ?_ (Hw.onLink_only ..))
    | dsimp only
    | split)

theorem Hw.linkAckOut_only (h : Hw) (l : Nat) :
    Hw.Only [0x1f, 0x19000c, 0x19000d, 0x190024] [.front, .buckets, .folded] [.out] h (Hw.linkAckOut h l) := by
  unfold Hw.linkAckOut
  try simp only
  repeat' (first
    | with_reducible apply Hw.Only.refl
    | decide
    | (with_reducible apply Hw.Only.step ?_ (Hw.linkOut_only ..))
    | dsimp only
    | split)

theorem Hw.linkAccept_only (h : Hw) (l : Nat) (crcOk : Bool) (f : ItvFrame) :
    Hw.Only [0x1f, 0x190002, 0x190003, 0x190005, 0x19000c, 0x19000d, 0x190021, 0x190022, 0x190024, 0x190025, 0x190026, 0x1a0001, 0x1a0008, 0x1a0011] [.front, .buckets, .folded, .itv] [.pkg, .tunnels, .out] h (Hw.linkAccept h l crcOk f).2 := by
  unfold Hw.linkAccept
  try simp only
  repeat' (first
    | with_reducible apply Hw.Only.refl
    | decide
    | (with_reducible apply Hw.Only.ite <;> intro _)
    | (with_reducible apply Hw.Only.ite2 <;> intro _)
    | (with_reducible apply Hw.Only.step ?_ (Hw.linkAckOut_only ..))
    | (with_reducible apply Hw.Only.step ?_ (Hw.linkNak_only ..))
    | (with_reducible apply Hw.Only.step ?_ (Hw.linkReplay_only ..))
    | (with_reducible apply Hw.Only.step ?_ (Hw.linkAck_only ..))
    | (with_reducible apply Hw.Only.step ?_ (Hw.linkAdd_only ..))
    | (with_reducible apply Hw.Only.step ?_ (Hw.onLink_only ..))
    | dsimp only
    | split)

theorem Hw.itvFail_only (h : Hw) (d : Nat) :
    Hw.Only [0x1f, 0x190002, 0x190003, 0x190005, 0x190020, 0x190026, 0x1a0001, 0x1a0008, 0x1a0011] [.front, .buckets, .folded, .itv] [.pkg] h (Hw.itvFail h d) := by
  unfold Hw.itvFail
  try simp only
  repeat' (first
    | with_reducible apply Hw.Only.refl
    | (intro D x hx; cases x <;> first | exact absurd (by decide) hx | exact rfl)
    | decide
    | (with_reducible apply Hw.Only.ite <;> intro _)
    | (with_reducible apply Hw.Only.ite2 <;> intro _)
    | (with_reducible apply Hw.Only.step ?_ (Hw.wr_only ..))
    | (with_reducible apply Hw.Only.step ?_ (Hw.add_only ..))
    | (with_reducible apply Hw.Only.step ?_ (Hw.itvTo_only ..))
    | (with_reducible apply Hw.Only.step ?_ (Hw.event_only ..))
    | (with_reducible apply Hw.Only.step ?_ (Hw.onDie_only [.itv] _ _ _ ?_))
    | dsimp only
    | split)

theorem Hw.itvUp_only (h : Hw) (d : Nat) (serial : Nat) :
    Hw.Only [0x1f, 0x190002, 0x190003, 0x190005, 0x190006, 0x19000c, 0x19000d, 0x190024, 0x190026, 0x1a0001, 0x1a0008, 0x1a0011] [.front, .buckets, .folded, .itv] [.pkg, .tunnels, .out] h (Hw.itvUp h d serial) := by
  unfold Hw.itvUp
  try simp only
  repeat' (first
    | with_reducible apply Hw.Only.refl
    | (intro D x hx; cases x <;> first | exact absurd (by decide) hx | exact rfl)
    | decide
    | (with_reducible apply Hw.Only.foldl)
    | (intro (_ : Hw); intro _)
    | (intro (_ : Hw))
    | (with_reducible apply Hw.Only.foldlP)
    | (intro (_ : _ × Hw); intro _)
    | (with_reducible apply Hw.Only.step ?_ (Hw.wr_only ..))
    | (with_reducible apply Hw.Only.step ?_ (Hw.itvTo_only ..))
    | (with_reducible apply Hw.Only.step ?_ (Hw.linkPump_only ..))
    | (with_reducible apply Hw.Only.step ?_ (Hw.linkOut_only ..))
    | (with_reducible apply Hw.Only.step ?_ (Hw.onDie_only [.itv] _ _ _ ?_))
    | dsimp only
    | split)

theorem Hw.itvStepDone_only (h : Hw) (d : Nat) (r : TrainResult) :
    Hw.Only [0x1f, 0x190002, 0x190003, 0x190005, 0x190006, 0x190009, 0x19000c, 0x19000d, 0x190020, 0x190024, 0x190026, 0x1a0001, 0x1a0008, 0x1a0011] [.front, .buckets, .folded, .itv] [.pkg, .tunnels, .out] h (Hw.itvStepDone h d r) := by
  unfold Hw.itvStepDone
  try simp only
  repeat' (first
    | with_reducible apply Hw.Only.refl
    | (intro D x hx; cases x <;> first | exact absurd (by decide) hx | exact rfl)
    | decide
    | (with_reducible apply Hw.Only.ite <;> intro _)
    | (with_reducible apply Hw.Only.ite2 <;> intro _)
    | (with_reducible apply Hw.Only.step ?_ (Hw.wr_only ..))
    | (with_reducible apply Hw.Only.step ?_ (Hw.itvUp_only ..))
    | (with_reducible apply Hw.Only.step ?_ (Hw.itvFail_only ..))
    | (with_reducible apply Hw.Only.step ?_ (Hw.onDie_only [.itv] _ _ _ ?_))
    | dsimp only
    | split
    | (apply Hw.Only.of_pair; assumption)
    | (apply Hw.Only.of_triple; assumption))

theorem Hw.itvDeep_only (h : Hw) (d : Nat) :
    Hw.Only [0x1f, 0x19000c, 0x19000d] [.front, .buckets, .folded, .itv] [] h (Hw.itvDeep h d) := by
  unfold Hw.itvDeep
  try simp only
  repeat' (first
    | with_reducible apply Hw.Only.refl
    | (intro D x hx; cases x <;> first | exact absurd (by decide) hx | exact rfl)
    | decide
    | (with_reducible apply Hw.Only.step ?_ (Hw.itvPm_only ..))
    | (with_reducible apply Hw.Only.step ?_ (Hw.onDie_only [.itv] _ _ _ ?_))
    | dsimp only
    | split)

theorem Hw.enumerate_only (h : Hw) (fresh : Bool) :
    Hw.Only [0x1f, 0x1a0002, 0x1a0003, 0x1a0004, 0x1a0005, 0x1a000c, 0x1a0012, 0x1a0010] [.front, .buckets, .folded] [.pkg] h (Hw.enumerate h fresh) := by
  unfold Hw.enumerate
  extract_lets role peers all nodes live missing top mine base routes src h1 h2 h3 hD h4 src2 h5
  have H1 : Hw.Only [0x1f, 0x1a0002, 0x1a0003, 0x1a0004, 0x1a0005, 0x1a000c, 0x1a0012, 0x1a0010] [.front, .buckets, .folded] [.pkg] h h1 := by
    refine Hw.Only.step (Hw.Only.refl _ _ _ _) (Hw.with_pkg h _) ?_
    decide
  clear_value h1
  have H2 : Hw.Only [0x1f, 0x1a0002, 0x1a0003, 0x1a0004, 0x1a0005, 0x1a000c, 0x1a0012, 0x1a0010] [.front, .buckets, .folded] [.pkg] h h2 :=
    ((H1.step (Hw.wr_only ..) (by decide)).step (Hw.wr_only ..) (by decide)).step (Hw.wr_only ..) (by decide)
  clear_value h2
  have H3 : Hw.Only [0x1f, 0x1a0002, 0x1a0003, 0x1a0004, 0x1a0005, 0x1a000c, 0x1a0012, 0x1a0010] [.front, .buckets, .folded] [.pkg] h h3 :=
    (H2.step (Hw.wr_only ..) (by decide)).step (Hw.add_only ..) (by decide)
  clear_value h3
  have HD : Hw.Only [0x1f, 0x1a0002, 0x1a0003, 0x1a0004, 0x1a0005, 0x1a000c, 0x1a0012, 0x1a0010] [.front, .buckets, .folded] [.pkg] h hD :=
    Hw.Only.ite (fun _ => H3) (fun _ => H3.step (Hw.wr_only ..) (by decide))
  clear_value hD
  have H4 : Hw.Only [0x1f, 0x1a0002, 0x1a0003, 0x1a0004, 0x1a0005, 0x1a000c, 0x1a0012, 0x1a0010] [.front, .buckets, .folded] [.pkg] h h4 := HD.step (Hw.add_only ..) (by decide)
  clear_value h4
  have H5 : Hw.Only [0x1f, 0x1a0002, 0x1a0003, 0x1a0004, 0x1a0005, 0x1a000c, 0x1a0012, 0x1a0010] [.front, .buckets, .folded] [.pkg] h h5 :=
    Hw.Only.ite (fun _ => (H4.step (Hw.with_pkg ..) (by decide)).step (Hw.eventPkg_only ..) (by decide)) (fun _ => H4)
  exact H5.step (Hw.eventPkg_only ..) (by decide)

theorem sysEnum_only (q : Hdr) (fresh : Bool) (d : Nat) (h : Hw) :
    Hw.Only [0x1f, 0x1a0001, 0x1a0002, 0x1a0003, 0x1a0004, 0x1a0005, 0x1a0008, 0x1a000c, 0x1a0012, 0x1a0010] [.mbx, .front, .buckets, .folded] [.nextId, .pkg] h (sysEnum q fresh d h).2 := by
  unfold sysEnum
  try simp only
  repeat' (first
    | with_reducible apply Hw.Only.refl
    | decide
    | (with_reducible apply Hw.Only.ite <;> intro _)
    | (with_reducible apply Hw.Only.ite2 <;> intro _)
    | (with_reducible apply Hw.Only.step ?_ (Hw.enumerate_only ..))
    | (with_reducible apply Hw.Only.step ?_ (Hw.roleUpdate_only ..))
    | (with_reducible apply Hw.Only.step ?_ (refuse_only ..))
    | (with_reducible apply Hw.Only.step ?_ (Hw.deferWork_only ..))
    | (with_reducible apply Hw.Only.step ?_ (Hw.settle_only ..))
    | dsimp only
    | split
    | (apply Hw.Only.of_pair; assumption)
    | (apply Hw.Only.of_triple; assumption))

end Sys2Proof.Machine
end

