-- ==== Sys2Proof/Laws/OnlyPrint.lean ====
section
/-!
SUPPORT. Frames of the operations of position, resilience, slots, runway, fire engine and heads: what each can change, from the frames of the operations it calls.
-/
namespace Sys2Proof.Machine

/-! ### Position -/

theorem Hw.onEnc_only (h : Hw) (d ch : Nat) (f : Enc → Enc) :
    Hw.Only [] [.enc] [] h (Hw.onEnc h d ch f) := by
  unfold Hw.onEnc
  try simp only
  repeat' (first
    | with_reducible apply Hw.Only.refl
    | (intro D x hx; cases x <;> first | exact absurd (by decide) hx | exact rfl)
    | decide
    | (with_reducible apply Hw.Only.step ?_ (Hw.onDie_only [.enc] _ _ _ ?_))
    | dsimp only
    | split)

theorem Hw.onPos_only (h : Hw) (d : Nat) (f : PosUnit → PosUnit) :
    Hw.Only [] [.pos] [] h (Hw.onPos h d f) := by
  unfold Hw.onPos
  try simp only
  repeat' (first
    | with_reducible apply Hw.Only.refl
    | (intro D x hx; cases x <;> first | exact absurd (by decide) hx | exact rfl)
    | decide
    | (with_reducible apply Hw.Only.step ?_ (Hw.onDie_only [.pos] _ _ _ ?_))
    | dsimp only
    | split)

theorem Hw.setEncFlag_only (h : Hw) (d ch i : Nat) (b : Bool) :
    Hw.Only [0x30008] [] [] h (Hw.setEncFlag h d ch i b) := by
  unfold Hw.setEncFlag
  try simp only
  repeat' (first
    | with_reducible apply Hw.Only.refl
    | decide
    | (with_reducible apply Hw.Only.step ?_ (Hw.wr_only ..))
    | dsimp only
    | split)

theorem Hw.rebase_only (h : Hw) (d : Nat) (w : Int) :
    Hw.Only [] [.pos] [] h (Hw.rebase h d w) := by
  unfold Hw.rebase
  try simp only
  repeat' (first
    | with_reducible apply Hw.Only.refl
    | decide
    | (with_reducible apply Hw.Only.step ?_ (Hw.onPos_only ..))
    | dsimp only
    | split
    | (apply Hw.Only.of_pair; assumption)
    | (apply Hw.Only.of_triple; assumption))

theorem Hw.motion_only (h : Hw) (d t : Nat) (w : Int) (moved : Bool) :
    Hw.Only [] [] [.free] h (Hw.motion h d t w moved).2 := by
  unfold Hw.motion
  try simp only
  repeat' (first
    | with_reducible apply Hw.Only.refl
    | decide
    | (with_reducible apply Hw.Only.ite <;> intro _)
    | (with_reducible apply Hw.Only.ite2 <;> intro _)
    | (with_reducible apply Hw.Only.step ?_ (Hw.fresh_only ..))
    | dsimp only
    | split
    | (apply Hw.Only.of_pair; assumption)
    | (apply Hw.Only.of_triple; assumption))

theorem Hw.putPair_only (h : Hw) (d : Nat) (p : Pair) :
    Hw.Only [0x40002, 0x40003, 0x40004, 0x40005, 0x40006, 0x40007] [.pos] [.blks] h (Hw.putPair h d p) := by
  unfold Hw.putPair
  try simp only
  repeat' (first
    | with_reducible apply Hw.Only.refl
    | decide
    | (with_reducible apply Hw.Only.step ?_ (Hw.wr_only ..))
    | (with_reducible apply Hw.Only.step ?_ (Hw.wrS_only ..))
    | (with_reducible apply Hw.Only.step ?_ (Hw.setBlk_only ..))
    | (with_reducible apply Hw.Only.step ?_ (Hw.onPos_only ..))
    | dsimp only
    | split)

theorem Hw.publish_only (h : Hw) (d t : Nat) (moved : Bool) :
    Hw.Only [0x40002, 0x40003, 0x40004, 0x40005, 0x40006, 0x40007, 0x40021] [.pos] [.blks, .free] h (Hw.publish h d t moved) := by
  unfold Hw.publish
  try simp only
  repeat' (first
    | with_reducible apply Hw.Only.refl
    | decide
    | (with_reducible apply Hw.Only.ite <;> intro _)
    | (with_reducible apply Hw.Only.ite2 <;> intro _)
    | (with_reducible apply Hw.Only.step ?_ (Hw.wr_only ..))
    | (with_reducible apply Hw.Only.step ?_ (Hw.putPair_only ..))
    | (with_reducible apply Hw.Only.step ?_ (Hw.motion_only ..))
    | (with_reducible apply Hw.Only.step ?_ (Hw.onPos_only ..))
    | dsimp only
    | split
    | (apply Hw.Only.of_pair; assumption)
    | (apply Hw.Only.of_triple; assumption))

theorem Hw.cmpFire_only (h : Hw) (d u : Nat) :
    Hw.Only [0x1f, 0x50001, 0x50002, 0x50005, 0x50006, 0x50007, 0x160001, 0x160007, 0x16000a] [.front, .buckets, .folded, .pulses] [] h (Hw.cmpFire h d u) := by
  unfold Hw.cmpFire
  try simp only
  repeat' (first
    | with_reducible apply Hw.Only.refl
    | decide
    | (with_reducible apply Hw.Only.ite <;> intro _)
    | (with_reducible apply Hw.Only.ite2 <;> intro _)
    | (with_reducible apply Hw.Only.foldl)
    | (intro (_ : Hw); intro _)
    | (intro (_ : Hw))
    | (with_reducible apply Hw.Only.foldlP)
    | (intro (_ : _ × Hw); intro _)
    | (with_reducible apply Hw.Only.step ?_ (Hw.wr_only ..))
    | (with_reducible apply Hw.Only.step ?_ (Hw.wrS_only ..))
    | (with_reducible apply Hw.Only.step ?_ (Hw.add_only ..))
    | (with_reducible apply Hw.Only.step ?_ (Hw.poTrigger_only ..))
    | (with_reducible apply Hw.Only.step ?_ (Hw.event_only ..))
    | dsimp only
    | split
    | (apply Hw.Only.of_pair; assumption)
    | (apply Hw.Only.of_triple; assumption))

theorem Hw.cmpOne_only (h : Hw) (d u : Nat) :
    Hw.Only [0x1f, 0x50001, 0x50002, 0x50005, 0x50006, 0x50007, 0x160001, 0x160007, 0x16000a] [.front, .buckets, .folded, .pulses] [] h (Hw.cmpOne h d u) := by
  unfold Hw.cmpOne
  try simp only
  repeat' (first
    | with_reducible apply Hw.Only.refl
    | decide
    | (with_reducible apply Hw.Only.ite <;> intro _)
    | (with_reducible apply Hw.Only.ite2 <;> intro _)
    | (with_reducible apply Hw.Only.step ?_ (Hw.wr_only ..))
    | (with_reducible apply Hw.Only.step ?_ (Hw.cmpFire_only ..))
    | dsimp only
    | split)

theorem Hw.cmpEval_only (h : Hw) (d : Nat) :
    Hw.Only [0x1f, 0x50001, 0x50002, 0x50005, 0x50006, 0x50007, 0x160001, 0x160007, 0x16000a] [.front, .buckets, .folded, .pulses] [] h (Hw.cmpEval h d) := by
  unfold Hw.cmpEval
  try simp only
  repeat' (first
    | with_reducible apply Hw.Only.refl
    | decide
    | (with_reducible apply Hw.Only.foldl)
    | (intro (_ : Hw); intro _)
    | (intro (_ : Hw))
    | (with_reducible apply Hw.Only.foldlP)
    | (intro (_ : _ × Hw); intro _)
    | (with_reducible apply Hw.Only.step ?_ (Hw.cmpOne_only ..))
    | dsimp only
    | split)

theorem Hw.changeN_only (h : Hw) (d ch : Nat) (n : Int) (t : Nat) (word : Bool) :
    Hw.Only [0x1f, 0x30006, 0x30007, 0x30008, 0x40002, 0x40003, 0x40004, 0x40005, 0x40006, 0x40007, 0x40021, 0x50001, 0x50002, 0x50005, 0x50006, 0x50007, 0x160001, 0x160007, 0x16000a] [.front, .buckets, .folded, .enc, .pos, .pulses] [.blks, .free] h (Hw.changeN h d ch n t word) := by
  unfold Hw.changeN
  repeat' (first
    | with_reducible apply Hw.Only.refl
    | decide
    | with_reducible assumption
    | (extract_lets +onlyGivenNames x; refine Hw.Only.cut (y := x) ?_ ?_; all_goals first | (intro hx; clear_value x) | subst x)
    | (extract_lets +onlyGivenNames x; refine Hw.Only.cut (y := x.2) ?_ ?_; all_goals first | (intro hx; clear_value x) | subst x)
    | (extract_lets +onlyGivenNames x; refine Hw.Only.cut (y := x.2.2) ?_ ?_; all_goals first | (intro hx; clear_value x) | subst x)
    | (extract_lets +onlyGivenNames x; clear_value x)
    | (with_reducible apply Hw.Only.ite <;> intro _)
    | (with_reducible apply Hw.Only.ite2 <;> intro _)
    | (with_reducible apply Hw.Only.step ?_ (Hw.wrS_only ..))
    | (with_reducible apply Hw.Only.step ?_ (Hw.cmpEval_only ..))
    | (with_reducible apply Hw.Only.step ?_ (Hw.publish_only ..))
    | (with_reducible apply Hw.Only.step ?_ (Hw.setEncFlag_only ..))
    | (with_reducible apply Hw.Only.step ?_ (Hw.onPos_only ..))
    | (with_reducible apply Hw.Only.step ?_ (Hw.onEnc_only ..))
    | dsimp only
    | split
    | (apply Hw.Only.of_pair; assumption)
    | (apply Hw.Only.of_triple; assumption))

theorem Hw.setPending_only (h : Hw) (d ch : Nat) (p : Int) :
    Hw.Only [0x30008, 0x30009] [] [] h (Hw.setPending h d ch p) := by
  unfold Hw.setPending
  try simp only
  repeat' (first
    | with_reducible apply Hw.Only.refl
    | decide
    | (with_reducible apply Hw.Only.step ?_ (Hw.wrS_only ..))
    | (with_reducible apply Hw.Only.step ?_ (Hw.setEncFlag_only ..))
    | dsimp only
    | split)

theorem Hw.rawCount_only (h : Hw) (d ch : Nat) (dir : Int) (t : Nat) :
    Hw.Only [0x1f, 0x30006, 0x30007, 0x30008, 0x30009, 0x40002, 0x40003, 0x40004, 0x40005, 0x40006, 0x40007, 0x40021, 0x50001, 0x50002, 0x50005, 0x50006, 0x50007, 0x160001, 0x160007, 0x16000a] [.front, .buckets, .folded, .enc, .pos, .pulses] [.blks, .free] h (Hw.rawCount h d ch dir t) := by
  unfold Hw.rawCount
  try simp only
  repeat' (first
    | with_reducible apply Hw.Only.refl
    | decide
    | (with_reducible apply Hw.Only.ite <;> intro _)
    | (with_reducible apply Hw.Only.ite2 <;> intro _)
    | (with_reducible apply Hw.Only.step ?_ (Hw.setPending_only ..))
    | (with_reducible apply Hw.Only.step ?_ (Hw.changeN_only ..))
    | (with_reducible apply Hw.Only.step ?_ (Hw.onEnc_only ..))
    | dsimp only
    | split)

theorem Hw.encEdge_only (h : Hw) (d ch : Nat) (a b : Bool) (t : Nat) :
    Hw.Only [0x1f, 0x30006, 0x30007, 0x30008, 0x30009, 0x30030, 0x40002, 0x40003, 0x40004, 0x40005, 0x40006, 0x40007, 0x40021, 0x50001, 0x50002, 0x50005, 0x50006, 0x50007, 0x160001, 0x160007, 0x16000a] [.front, .buckets, .folded, .enc, .pos, .pulses] [.blks, .free] h (Hw.encEdge h d ch a b t) := by
  unfold Hw.encEdge
  try simp only
  repeat' (first
    | with_reducible apply Hw.Only.refl
    | decide
    | (with_reducible apply Hw.Only.ite <;> intro _)
    | (with_reducible apply Hw.Only.ite2 <;> intro _)
    | (with_reducible apply Hw.Only.step ?_ (Hw.add_only ..))
    | (with_reducible apply Hw.Only.step ?_ (Hw.rawCount_only ..))
    | (with_reducible apply Hw.Only.step ?_ (Hw.onEnc_only ..))
    | (with_reducible apply Hw.Only.step ?_ (Hw.event_only ..))
    | dsimp only
    | split)

theorem Hw.homeTo_only (h : Hw) (d ch : Nat) (v : Int) (src t : Nat) :
    Hw.Only [0x1f, 0x30006, 0x30007, 0x30008, 0x40002, 0x40003, 0x40004, 0x40005, 0x40006, 0x40007, 0x40021, 0x50001, 0x50002, 0x50005, 0x50006, 0x50007, 0x160001, 0x160007, 0x16000a] [.front, .buckets, .folded, .pos, .pulses] [.blks, .free] h (Hw.homeTo h d ch v src t) := by
  unfold Hw.homeTo
  repeat' (first
    | with_reducible apply Hw.Only.refl
    | decide
    | with_reducible assumption
    | (extract_lets +onlyGivenNames x; refine Hw.Only.cut (y := x) ?_ ?_; all_goals first | (intro hx; clear_value x) | subst x)
    | (extract_lets +onlyGivenNames x; refine Hw.Only.cut (y := x.2) ?_ ?_; all_goals first | (intro hx; clear_value x) | subst x)
    | (extract_lets +onlyGivenNames x; refine Hw.Only.cut (y := x.2.2) ?_ ?_; all_goals first | (intro hx; clear_value x) | subst x)
    | (extract_lets +onlyGivenNames x; clear_value x)
    | (with_reducible apply Hw.Only.ite <;> intro _)
    | (with_reducible apply Hw.Only.ite2 <;> intro _)
    | (with_reducible apply Hw.Only.step ?_ (Hw.wrS_only ..))
    | (with_reducible apply Hw.Only.step ?_ (Hw.cmpEval_only ..))
    | (with_reducible apply Hw.Only.step ?_ (Hw.publish_only ..))
    | (with_reducible apply Hw.Only.step ?_ (Hw.setEncFlag_only ..))
    | (with_reducible apply Hw.Only.step ?_ (Hw.onPos_only ..))
    | (with_reducible apply Hw.Only.step ?_ (Hw.event_only ..))
    | dsimp only
    | split)

theorem Hw.indexPulse_only (h : Hw) (d ch t : Nat) :
    Hw.Only [0x1f, 0x30006, 0x30007, 0x30008, 0x30009, 0x30031, 0x30032, 0x30033, 0x40002, 0x40003, 0x40004, 0x40005, 0x40006, 0x40007, 0x40021, 0x50001, 0x50002, 0x50005, 0x50006, 0x50007, 0x160001, 0x160007, 0x16000a] [.front, .buckets, .folded, .enc, .pos, .pulses] [.blks, .free] h (Hw.indexPulse h d ch t) := by
  unfold Hw.indexPulse
  try simp only
  repeat' (first
    | with_reducible apply Hw.Only.refl
    | decide
    | (with_reducible apply Hw.Only.ite <;> intro _)
    | (with_reducible apply Hw.Only.ite2 <;> intro _)
    | (with_reducible apply Hw.Only.step ?_ (Hw.wrS_only ..))
    | (with_reducible apply Hw.Only.step ?_ (Hw.add_only ..))
    | (with_reducible apply Hw.Only.step ?_ (Hw.homeTo_only ..))
    | (with_reducible apply Hw.Only.step ?_ (Hw.setPending_only ..))
    | (with_reducible apply Hw.Only.step ?_ (Hw.onEnc_only ..))
    | (with_reducible apply Hw.Only.step ?_ (Hw.event_only ..))
    | dsimp only
    | split
    | (apply Hw.Only.of_pair; assumption)
    | (apply Hw.Only.of_triple; assumption))

theorem Hw.losSet_only (h : Hw) (d ch pin : Nat) :
    Hw.Only [0x1f, 0x30008, 0x40002, 0x40003, 0x40004, 0x40005, 0x40006, 0x40007, 0x40021] [.front, .buckets, .folded, .enc, .pos] [.blks, .free] h (Hw.losSet h d ch pin) := by
  unfold Hw.losSet
  try simp only
  repeat' (first
    | with_reducible apply Hw.Only.refl
    | decide
    | (with_reducible apply Hw.Only.ite <;> intro _)
    | (with_reducible apply Hw.Only.ite2 <;> intro _)
    | (with_reducible apply Hw.Only.step ?_ (Hw.publish_only ..))
    | (with_reducible apply Hw.Only.step ?_ (Hw.setEncFlag_only ..))
    | (with_reducible apply Hw.Only.step ?_ (Hw.onEnc_only ..))
    | (with_reducible apply Hw.Only.step ?_ (Hw.event_only ..))
    | dsimp only
    | split)

theorem Hw.losClear_only (h : Hw) (d ch : Nat) :
    Hw.Only [0x1f, 0x30008, 0x40002, 0x40003, 0x40004, 0x40005, 0x40006, 0x40007, 0x40021] [.front, .buckets, .folded, .pos] [.blks, .free] h (Hw.losClear h d ch) := by
  unfold Hw.losClear
  try simp only
  repeat' (first
    | with_reducible apply Hw.Only.refl
    | decide
    | (with_reducible apply Hw.Only.ite <;> intro _)
    | (with_reducible apply Hw.Only.ite2 <;> intro _)
    | (with_reducible apply Hw.Only.step ?_ (Hw.publish_only ..))
    | (with_reducible apply Hw.Only.step ?_ (Hw.setEncFlag_only ..))
    | (with_reducible apply Hw.Only.step ?_ (Hw.onPos_only ..))
    | (with_reducible apply Hw.Only.step ?_ (Hw.event_only ..))
    | dsimp only
    | split)

theorem Hw.stillTimeout_only (h : Hw) (d ch : Nat) :
    Hw.Only [0x30008, 0x40002, 0x40003, 0x40004, 0x40005, 0x40006, 0x40007, 0x40021] [.pos] [.blks, .free] h (Hw.stillTimeout h d ch) := by
  unfold Hw.stillTimeout
  try simp only
  repeat' (first
    | with_reducible apply Hw.Only.refl
    | decide
    | (with_reducible apply Hw.Only.ite <;> intro _)
    | (with_reducible apply Hw.Only.ite2 <;> intro _)
    | (with_reducible apply Hw.Only.step ?_ (Hw.publish_only ..))
    | (with_reducible apply Hw.Only.step ?_ (Hw.setEncFlag_only ..))
    | dsimp only
    | split)

theorem Hw.encMag_only (h : Hw) (d ch input : Nat) (rising : Bool) (t : Nat) :
    Hw.Only [0x1f, 0x30006, 0x30007, 0x30008, 0x30017, 0x40002, 0x40003, 0x40004, 0x40005, 0x40006, 0x40007, 0x40021, 0x50001, 0x50002, 0x50005, 0x50006, 0x50007, 0x160001, 0x160007, 0x16000a] [.front, .buckets, .folded, .pos, .pulses] [.blks, .free] h (Hw.encMag h d ch input rising t) := by
  unfold Hw.encMag
  try simp only
  repeat' (first
    | with_reducible apply Hw.Only.refl
    | decide
    | (with_reducible apply Hw.Only.ite <;> intro _)
    | (with_reducible apply Hw.Only.ite2 <;> intro _)
    | (with_reducible apply Hw.Only.step ?_ (Hw.wr_only ..))
    | (with_reducible apply Hw.Only.step ?_ (Hw.homeTo_only ..))
    | (with_reducible apply Hw.Only.step ?_ (Hw.event_only ..))
    | dsimp only
    | split)

theorem Hw.absDiscard_only (h : Hw) (d ch : Nat) :
    Hw.Only [0x30008, 0x30034] [] [] h (Hw.absDiscard h d ch) := by
  unfold Hw.absDiscard
  try simp only
  repeat' (first
    | with_reducible apply Hw.Only.refl
    | decide
    | (with_reducible apply Hw.Only.step ?_ (Hw.add_only ..))
    | (with_reducible apply Hw.Only.step ?_ (Hw.setEncFlag_only ..))
    | dsimp only
    | split)

theorem Hw.absErr_only (h : Hw) (d ch kind : Nat) :
    Hw.Only [0x1f] [.front, .buckets, .folded] [] h (Hw.absErr h d ch kind) := by
  unfold Hw.absErr
  try simp only
  repeat' (first
    | with_reducible apply Hw.Only.refl
    | decide
    | (with_reducible apply Hw.Only.step ?_ (Hw.event_only ..))
    | dsimp only
    | split)

theorem Hw.absRequest_only (h : Hw) (d ch : Nat) :
    Hw.Only [0x1f] [.front, .buckets, .folded, .enc] [] h (Hw.absRequest h d ch) := by
  unfold Hw.absRequest
  try simp only
  repeat' (first
    | with_reducible apply Hw.Only.refl
    | decide
    | (with_reducible apply Hw.Only.ite <;> intro _)
    | (with_reducible apply Hw.Only.ite2 <;> intro _)
    | (with_reducible apply Hw.Only.step ?_ (Hw.absErr_only ..))
    | (with_reducible apply Hw.Only.step ?_ (Hw.onEnc_only ..))
    | dsimp only
    | split)

theorem Hw.absValid_only (h : Hw) (d ch : Nat) (w : Nat) (latch : Nat × Int) :
    Hw.Only [0x1f, 0x30006, 0x30007, 0x30008, 0x30009, 0x3002b, 0x40002, 0x40003, 0x40004, 0x40005, 0x40006, 0x40007, 0x40021, 0x50001, 0x50002, 0x50005, 0x50006, 0x50007, 0x160001, 0x160007, 0x16000a] [.front, .buckets, .folded, .enc, .pos, .pulses] [.blks, .free] h (Hw.absValid h d ch w latch) := by
  unfold Hw.absValid
  repeat' (first
    | with_reducible apply Hw.Only.refl
    | decide
    | with_reducible assumption
    | (extract_lets +onlyGivenNames x; refine Hw.Only.cut (y := x) ?_ ?_; all_goals first | (intro hx; clear_value x) | subst x)
    | (extract_lets +onlyGivenNames x; refine Hw.Only.cut (y := x.2) ?_ ?_; all_goals first | (intro hx; clear_value x) | subst x)
    | (extract_lets +onlyGivenNames x; refine Hw.Only.cut (y := x.2.2) ?_ ?_; all_goals first | (intro hx; clear_value x) | subst x)
    | (extract_lets +onlyGivenNames x; clear_value x)
    | (with_reducible apply Hw.Only.ite <;> intro _)
    | (with_reducible apply Hw.Only.ite2 <;> intro _)
    | (with_reducible apply Hw.Only.step ?_ (Hw.wr_only ..))
    | (with_reducible apply Hw.Only.step ?_ (Hw.homeTo_only ..))
    | (with_reducible apply Hw.Only.step ?_ (Hw.setPending_only ..))
    | (with_reducible apply Hw.Only.step ?_ (Hw.changeN_only ..))
    | (with_reducible apply Hw.Only.step ?_ (Hw.onEnc_only ..))
    | (with_reducible apply Hw.Only.step ?_ (Hw.event_only ..))
    | dsimp only
    | split)

theorem Hw.absComplete_only (h : Hw) (d ch : Nat) (ack : Bool) (v : Nat) :
    Hw.Only [0x1f, 0x30006, 0x30007, 0x30008, 0x30009, 0x3002b, 0x30034, 0x40002, 0x40003, 0x40004, 0x40005, 0x40006, 0x40007, 0x40021, 0x50001, 0x50002, 0x50005, 0x50006, 0x50007, 0x160001, 0x160007, 0x16000a] [.front, .buckets, .folded, .enc, .pos, .pulses] [.blks, .free] h (Hw.absComplete h d ch ack v) := by
  unfold Hw.absComplete
  try simp only
  repeat' (first
    | with_reducible apply Hw.Only.refl
    | decide
    | (with_reducible apply Hw.Only.ite <;> intro _)
    | (with_reducible apply Hw.Only.ite2 <;> intro _)
    | (with_reducible apply Hw.Only.step ?_ (Hw.absValid_only ..))
    | (with_reducible apply Hw.Only.step ?_ (Hw.absErr_only ..))
    | (with_reducible apply Hw.Only.step ?_ (Hw.absDiscard_only ..))
    | (with_reducible apply Hw.Only.step ?_ (Hw.setEncFlag_only ..))
    | (with_reducible apply Hw.Only.step ?_ (Hw.onEnc_only ..))
    | dsimp only
    | split
    | (apply Hw.Only.of_pair; assumption)
    | (apply Hw.Only.of_triple; assumption))

theorem Hw.setEncEnable_only (h : Hw) (d ch v : Nat) :
    Hw.Only [0x30001, 0x30006, 0x30007, 0x30008, 0x30009, 0x30033] [.enc, .pos] [] h (Hw.setEncEnable h d ch v) := by
  unfold Hw.setEncEnable
  try simp only
  repeat' (first
    | with_reducible apply Hw.Only.refl
    | decide
    | (with_reducible apply Hw.Only.ite <;> intro _)
    | (with_reducible apply Hw.Only.ite2 <;> intro _)
    | (with_reducible apply Hw.Only.step ?_ (Hw.wr_only ..))
    | (with_reducible apply Hw.Only.step ?_ (Hw.rebase_only ..))
    | (with_reducible apply Hw.Only.step ?_ (Hw.onPos_only ..))
    | (with_reducible apply Hw.Only.step ?_ (Hw.onEnc_only ..))
    | dsimp only
    | split)

theorem Hw.holdPosCfg_only (h : Hw) (d id old : Nat) :
    Hw.Only [] [.pos] [] h (Hw.holdPosCfg h d id old) := by
  unfold Hw.holdPosCfg
  exact Hw.onPos_only ..

theorem Hw.setPosSource_only (h : Hw) (d v : Nat) :
    Hw.Only [0x1f, 0x40001, 0x50001, 0x50002, 0x50005, 0x50006, 0x50007, 0x160001, 0x160007, 0x16000a] [.front, .buckets, .folded, .pos, .pulses] [] h (Hw.setPosSource h d v) := by
  unfold Hw.setPosSource
  try simp only
  repeat' (first
    | with_reducible apply Hw.Only.refl
    | decide
    | (with_reducible apply Hw.Only.ite <;> intro _)
    | (with_reducible apply Hw.Only.ite2 <;> intro _)
    | (with_reducible apply Hw.Only.step ?_ (Hw.cmpEval_only ..))
    | (with_reducible apply Hw.Only.step ?_ (Hw.wr_only ..))
    | (with_reducible apply Hw.Only.step ?_ (Hw.rebase_only ..))
    | (with_reducible apply Hw.Only.step ?_ (Hw.onPos_only ..))
    | dsimp only
    | split)

theorem Hw.setScale_only (h : Hw) (d ch v : Nat) :
    Hw.Only [0x30005] [.pos] [] h (Hw.setScale h d ch v) := by
  unfold Hw.setScale
  try simp only
  repeat' (first
    | with_reducible apply Hw.Only.refl
    | decide
    | (with_reducible apply Hw.Only.ite <;> intro _)
    | (with_reducible apply Hw.Only.ite2 <;> intro _)
    | (with_reducible apply Hw.Only.step ?_ (Hw.wr_only ..))
    | (with_reducible apply Hw.Only.step ?_ (Hw.rebase_only ..))
    | dsimp only
    | split)

theorem Hw.setHold_only (h : Hw) (d : Nat) (b : Bool) :
    Hw.Only [0x1f] [.front, .buckets, .folded, .pos] [] h (Hw.setHold h d b) := by
  unfold Hw.setHold
  try simp only
  repeat' (first
    | with_reducible apply Hw.Only.refl
    | decide
    | (with_reducible apply Hw.Only.ite <;> intro _)
    | (with_reducible apply Hw.Only.ite2 <;> intro _)
    | (with_reducible apply Hw.Only.step ?_ (Hw.onPos_only ..))
    | (with_reducible apply Hw.Only.step ?_ (Hw.event_only ..))
    | dsimp only
    | split)

theorem Hw.closeWindow_only (h : Hw) (d : Nat) (w : Window) (refW locW : Int) :
    Hw.Only [0x1f, 0x40022, 0x40029] [.front, .buckets, .folded, .pos] [] h (Hw.closeWindow h d w refW locW) := by
  unfold Hw.closeWindow
  try simp only
  repeat' (first
    | with_reducible apply Hw.Only.refl
    | decide
    | (with_reducible apply Hw.Only.ite <;> intro _)
    | (with_reducible apply Hw.Only.ite2 <;> intro _)
    | (with_reducible apply Hw.Only.step ?_ (Hw.wr_only ..))
    | (with_reducible apply Hw.Only.step ?_ (Hw.add_only ..))
    | (with_reducible apply Hw.Only.step ?_ (Hw.onPos_only ..))
    | (with_reducible apply Hw.Only.step ?_ (Hw.event_only ..))
    | dsimp only
    | split)

theorem Hw.stretchMark_only (h : Hw) (d : Nat) :
    Hw.Only [0x1f, 0x40022, 0x40029] [.front, .buckets, .folded, .pos] [] h (Hw.stretchMark h d) := by
  unfold Hw.stretchMark
  try simp only
  repeat' (first
    | with_reducible apply Hw.Only.refl
    | decide
    | (with_reducible apply Hw.Only.ite <;> intro _)
    | (with_reducible apply Hw.Only.ite2 <;> intro _)
    | (with_reducible apply Hw.Only.step ?_ (Hw.closeWindow_only ..))
    | (with_reducible apply Hw.Only.step ?_ (Hw.onPos_only ..))
    | dsimp only
    | split
    | (apply Hw.Only.of_pair; assumption)
    | (apply Hw.Only.of_triple; assumption))

theorem Hw.stretchPair_only (h : Hw) (d : Nat) (rp : Pair) :
    Hw.Only [0x1f, 0x40022, 0x40029] [.front, .buckets, .folded, .pos] [] h (Hw.stretchPair h d rp) := by
  unfold Hw.stretchPair
  try simp only
  repeat' (first
    | with_reducible apply Hw.Only.refl
    | decide
    | (with_reducible apply Hw.Only.ite <;> intro _)
    | (with_reducible apply Hw.Only.ite2 <;> intro _)
    | (with_reducible apply Hw.Only.step ?_ (Hw.stretchMark_only ..))
    | (with_reducible apply Hw.Only.step ?_ (Hw.setHold_only ..))
    | (with_reducible apply Hw.Only.step ?_ (Hw.onPos_only ..))
    | dsimp only
    | split
    | (apply Hw.Only.of_pair; assumption)
    | (apply Hw.Only.of_triple; assumption))

theorem Hw.stretchLocal_only (h : Hw) (d : Nat) (before : Pair) :
    Hw.Only [0x1f, 0x40022, 0x40029] [.front, .buckets, .folded, .pos] [] h (Hw.stretchLocal h d before) := by
  unfold Hw.stretchLocal
  try simp only
  repeat' (first
    | with_reducible apply Hw.Only.refl
    | decide
    | (with_reducible apply Hw.Only.ite <;> intro _)
    | (with_reducible apply Hw.Only.ite2 <;> intro _)
    | (with_reducible apply Hw.Only.step ?_ (Hw.stretchMark_only ..))
    | (with_reducible apply Hw.Only.step ?_ (Hw.onPos_only ..))
    | dsimp only
    | split)

theorem Hw.pairReceive_only (h : Hw) (d src : Nat) :
    Hw.Only [0x1f, 0x40002, 0x40003, 0x40004, 0x40005, 0x40006, 0x40007, 0x40021, 0x40022, 0x40029, 0x50001, 0x50002, 0x50005, 0x50006, 0x50007, 0x160001, 0x160007, 0x16000a] [.front, .buckets, .folded, .pos, .pulses] [.blks] h (Hw.pairReceive h d src) := by
  unfold Hw.pairReceive
  try simp only
  repeat' (first
    | with_reducible apply Hw.Only.refl
    | decide
    | (with_reducible apply Hw.Only.ite <;> intro _)
    | (with_reducible apply Hw.Only.ite2 <;> intro _)
    | (with_reducible apply Hw.Only.step ?_ (Hw.wr_only ..))
    | (with_reducible apply Hw.Only.step ?_ (Hw.stretchPair_only ..))
    | (with_reducible apply Hw.Only.step ?_ (Hw.cmpEval_only ..))
    | (with_reducible apply Hw.Only.step ?_ (Hw.putPair_only ..))
    | (with_reducible apply Hw.Only.step ?_ (Hw.onPos_only ..))
    | dsimp only
    | split)

theorem Hw.posSet_only (h : Hw) (d what : Nat) (v : Int) :
    Hw.Only [0x1f, 0x40002, 0x40003, 0x40004, 0x40005, 0x40006, 0x40007, 0x40021, 0x50001, 0x50002, 0x50005, 0x50006, 0x50007, 0x160001, 0x160007, 0x16000a] [.front, .buckets, .folded, .pos, .pulses] [.blks, .free] h (Hw.posSet h d what v) := by
  unfold Hw.posSet
  repeat' (first
    | with_reducible apply Hw.Only.refl
    | decide
    | with_reducible assumption
    | (extract_lets +onlyGivenNames x; refine Hw.Only.cut (y := x) ?_ ?_; all_goals first | (intro hx; clear_value x) | subst x)
    | (extract_lets +onlyGivenNames x; refine Hw.Only.cut (y := x.2) ?_ ?_; all_goals first | (intro hx; clear_value x) | subst x)
    | (extract_lets +onlyGivenNames x; refine Hw.Only.cut (y := x.2.2) ?_ ?_; all_goals first | (intro hx; clear_value x) | subst x)
    | (extract_lets +onlyGivenNames x; clear_value x)
    | (with_reducible apply Hw.Only.ite <;> intro _)
    | (with_reducible apply Hw.Only.ite2 <;> intro _)
    | (with_reducible apply Hw.Only.step ?_ (Hw.cmpEval_only ..))
    | (with_reducible apply Hw.Only.step ?_ (Hw.publish_only ..))
    | (with_reducible apply Hw.Only.step ?_ (Hw.rebase_only ..))
    | (with_reducible apply Hw.Only.step ?_ (Hw.onPos_only ..))
    | (with_reducible apply Hw.Only.step ?_ (Hw.event_only ..))
    | dsimp only
    | split)

theorem cmpArm_only (d ctl : Nat) (value : Int) (step : Nat) (h : Hw) :
    Hw.Only [0x1f, 0x50001, 0x50002, 0x50003, 0x50004, 0x50005, 0x50006, 0x50007, 0x160001, 0x160007, 0x16000a] [.front, .buckets, .folded, .pulses] [] h (cmpArm d ctl value step h).2 := by
  unfold cmpArm
  try simp only
  repeat' (first
    | with_reducible apply Hw.Only.refl
    | decide
    | (with_reducible apply Hw.Only.ite <;> intro _)
    | (with_reducible apply Hw.Only.ite2 <;> intro _)
    | (with_reducible apply Hw.Only.step ?_ (Hw.wr_only ..))
    | (with_reducible apply Hw.Only.step ?_ (Hw.wrS_only ..))
    | (with_reducible apply Hw.Only.step ?_ (Hw.cmpFire_only ..))
    | (with_reducible apply Hw.Only.step ?_ (Hw.event_only ..))
    | dsimp only
    | split)

/-! ### Resilience -/

theorem Hw.modeTo_only (h : Hw) (m : Mode) :
    Hw.Only [0x1f] [.front, .buckets, .folded] [.mode] h (Hw.modeTo h m) := by
  unfold Hw.modeTo
  try simp only
  repeat' (first
    | with_reducible apply Hw.Only.refl
    | decide
    | (with_reducible apply Hw.Only.ite <;> intro _)
    | (with_reducible apply Hw.Only.ite2 <;> intro _)
    | (with_reducible apply Hw.Only.step ?_ (Hw.eventPkg_only ..))
    | dsimp only
    | split
    | (with_reducible apply Hw.Only.step ?_ (Hw.with_mode ..)))

theorem Hw.setLd_only (h : Hw) (d : Nat) (x : LeadSt) :
    Hw.Only [0x1e0002] [] [.leadSt] h (Hw.setLd h d x) := by
  unfold Hw.setLd
  try simp only
  repeat' (first
    | with_reducible apply Hw.Only.refl
    | decide
    | (with_reducible apply Hw.Only.step ?_ (Hw.wr_only ..))
    | dsimp only
    | (with_reducible apply Hw.Only.step ?_ (Hw.with_leadSt ..)))

theorem Hw.setFault_only (h : Hw) (d : Nat) (on : Bool) :
    Hw.Only [] [] [.faultMask] h (Hw.setFault h d on) := by
  unfold Hw.setFault
  try simp only
  repeat' (first
    | with_reducible apply Hw.Only.refl
    | decide
    | (with_reducible apply Hw.Only.ite <;> intro _)
    | (with_reducible apply Hw.Only.ite2 <;> intro _)
    | dsimp only
    | split
    | (with_reducible apply Hw.Only.step ?_ (Hw.with_faultMask ..)))

theorem Hw.setCause_only (h : Hw) (d c : Nat) :
    Hw.Only [0x1e0003] [] [] h (Hw.setCause h d c) := by
  unfold Hw.setCause
  try simp only
  repeat' (first
    | with_reducible apply Hw.Only.refl
    | decide
    | (with_reducible apply Hw.Only.ite <;> intro _)
    | (with_reducible apply Hw.Only.ite2 <;> intro _)
    | (with_reducible apply Hw.Only.step ?_ (Hw.wr_only ..))
    | dsimp only
    | split)

theorem Hw.leadRelease_only (h : Hw) (d cause : Nat) :
    Hw.Only [0x1f, 0x1e0002, 0x1e0003] [.front, .buckets, .folded] [.lead, .leadSt, .takeover, .kennelWriting, .faultMask] h (Hw.leadRelease h d cause) := by
  unfold Hw.leadRelease
  try simp only
  repeat' (first
    | with_reducible apply Hw.Only.refl
    | decide
    | (with_reducible apply Hw.Only.ite <;> intro _)
    | (with_reducible apply Hw.Only.ite2 <;> intro _)
    | (with_reducible apply Hw.Only.step ?_ (Hw.setCause_only ..))
    | (with_reducible apply Hw.Only.step ?_ (Hw.setFault_only ..))
    | (with_reducible apply Hw.Only.step ?_ (Hw.setLd_only ..))
    | (with_reducible apply Hw.Only.step ?_ (Hw.event_only ..))
    | dsimp only
    | split
    | (with_reducible apply Hw.Only.step ?_ (Hw.with_kennelWriting_lead_takeover ..)))

theorem Hw.mgmtStop_only (h : Hw) (d cause : Nat) :
    Hw.Only [0x1f, 0x1e0002, 0x1e0003] [.front, .buckets, .folded, .up] [.lead, .leadSt, .takeover, .kennelWriting, .faultMask] h (Hw.mgmtStop h d cause) := by
  unfold Hw.mgmtStop
  try simp only
  repeat' (first
    | with_reducible apply Hw.Only.refl
    | (intro D x hx; cases x <;> first | exact absurd (by decide) hx | exact rfl)
    | decide
    | (with_reducible apply Hw.Only.ite <;> intro _)
    | (with_reducible apply Hw.Only.ite2 <;> intro _)
    | (with_reducible apply Hw.Only.step ?_ (Hw.leadRelease_only ..))
    | (with_reducible apply Hw.Only.step ?_ (Hw.setCause_only ..))
    | (with_reducible apply Hw.Only.step ?_ (Hw.setFault_only ..))
    | (with_reducible apply Hw.Only.step ?_ (Hw.setLd_only ..))
    | (with_reducible apply Hw.Only.step ?_ (Hw.onDie_only [.up] _ _ _ ?_))
    | dsimp only
    | split)

theorem Hw.kennelStart_only (h : Hw) :
    Hw.Only [] [] [.kennelWriting, .kennel] h (Hw.kennelStart h) := by
  unfold Hw.kennelStart
  try simp only
  repeat' (first
    | with_reducible apply Hw.Only.refl
    | decide
    | (with_reducible apply Hw.Only.foldl)
    | (intro (_ : Hw); intro _)
    | (intro (_ : Hw))
    | (with_reducible apply Hw.Only.foldlP)
    | (intro (_ : _ × Hw); intro _)
    | dsimp only
    | split
    | (apply Hw.Only.of_pair; assumption)
    | (apply Hw.Only.of_triple; assumption)
    | (with_reducible apply Hw.Only.step ?_ (Hw.with_kennel_kennelWriting ..)))

theorem Hw.moveOn_only (h : Hw) (d : Nat) (c : KennelSlot) :
    Hw.Only [0x1f, 0x1e0002, 0x1e0003] [.front, .buckets, .folded] [.lead, .leadSt, .takeover, .kennelWriting, .kennel, .faultMask] h (Hw.moveOn h d c) := by
  unfold Hw.moveOn
  try simp only
  repeat' (first
    | with_reducible apply Hw.Only.refl
    | decide
    | (with_reducible apply Hw.Only.step ?_ (Hw.leadRelease_only ..))
    | (with_reducible apply Hw.Only.step ?_ (Hw.kennelStart_only ..))
    | dsimp only
    | split)

theorem Hw.kennelAge_only (h : Hw) :
    Hw.Only [0x1f, 0x1e0009] [.front, .buckets, .folded] [.kennelLateSeen] h (Hw.kennelAge h) := by
  unfold Hw.kennelAge
  try simp only
  repeat' (first
    | with_reducible apply Hw.Only.refl
    | decide
    | (with_reducible apply Hw.Only.ite <;> intro _)
    | (with_reducible apply Hw.Only.ite2 <;> intro _)
    | (with_reducible apply Hw.Only.step ?_ (Hw.wr_only ..))
    | (with_reducible apply Hw.Only.step ?_ (Hw.eventPkg_only ..))
    | dsimp only
    | split
    | (with_reducible apply Hw.Only.step ?_ (Hw.with_kennelLateSeen ..)))

theorem Hw.dropPkgStages_only (h : Hw) :
    Hw.Only [0x1f] [.front, .buckets, .folded] [.stages] h (Hw.dropPkgStages h) := by
  unfold Hw.dropPkgStages
  try simp only
  repeat' (first
    | with_reducible apply Hw.Only.refl
    | decide
    | (with_reducible apply Hw.Only.foldl)
    | (intro (_ : Hw); intro _)
    | (intro (_ : Hw))
    | (with_reducible apply Hw.Only.foldlP)
    | (intro (_ : _ × Hw); intro _)
    | (with_reducible apply Hw.Only.step ?_ (Hw.eventPkg_only ..))
    | dsimp only
    | (with_reducible apply Hw.Only.step ?_ (Hw.with_stages ..)))

theorem Hw.fwAbort_only (h : Hw) :
    Hw.Only [] [] [.fwSlots, .fw] h (Hw.fwAbort h) := by
  unfold Hw.fwAbort
  try simp only
  repeat' (first
    | with_reducible apply Hw.Only.refl
    | decide
    | (with_reducible apply Hw.Only.ite <;> intro _)
    | (with_reducible apply Hw.Only.ite2 <;> intro _)
    | dsimp only
    | split
    | (with_reducible apply Hw.Only.step ?_ (Hw.with_fw_fwSlots ..)))

theorem Hw.loadCheckpoint_only (h : Hw) (c : KennelSlot) :
    Hw.Only [0x0] [] [.blks, .pkg] h (Hw.loadCheckpoint h c) := by
  unfold Hw.loadCheckpoint
  try simp only
  repeat' (first
    | with_reducible apply Hw.Only.refl
    | decide
    | dsimp only
    | (with_reducible apply Hw.Only.step ?_ (Hw.with_blks_pkg_regs ..)))

theorem Hw.loadCold_only (h : Hw) :
    Hw.Only [0x0] [.front, .buckets, .folded] [.blks, .pkg] h (Hw.loadCold h) := by
  unfold Hw.loadCold
  try simp only
  repeat' (first
    | with_reducible apply Hw.Only.refl
    | decide
    | (with_reducible apply Hw.Only.step ?_ (Hw.wr_only ..))
    | (with_reducible apply Hw.Only.step ?_ (Hw.eventPkg_only ..))
    | dsimp only
    | (with_reducible apply Hw.Only.step ?_ (Hw.with_blks_pkg_regs ..)))

theorem Hw.takeToken_only (h : Hw) (d us : Nat) (moved : Bool) :
    Hw.Only [0x0] [.front, .buckets, .folded] [.blks, .stages, .lead, .leadSt, .takeover, .moving, .repairArmed, .pkg, .fwSlots, .fw] h (Hw.takeToken h d us moved) := by
  unfold Hw.takeToken
  try simp only
  repeat' (first
    | with_reducible apply Hw.Only.refl
    | decide
    | (with_reducible apply Hw.Only.ite <;> intro _)
    | (with_reducible apply Hw.Only.ite2 <;> intro _)
    | (with_reducible apply Hw.Only.step ?_ (Hw.wr_only ..))
    | (with_reducible apply Hw.Only.step ?_ (Hw.add_only ..))
    | (with_reducible apply Hw.Only.step ?_ (Hw.setBlk_only ..))
    | (with_reducible apply Hw.Only.step ?_ (Hw.loadCold_only ..))
    | (with_reducible apply Hw.Only.step ?_ (Hw.loadCheckpoint_only ..))
    | (with_reducible apply Hw.Only.step ?_ (Hw.fwAbort_only ..))
    | (with_reducible apply Hw.Only.step ?_ (Hw.dropPkgStages_only ..))
    | (with_reducible apply Hw.Only.step ?_ (Hw.setLd_only ..))
    | (with_reducible apply Hw.Only.step ?_ (Hw.eventPkg_only ..))
    | dsimp only
    | split
    | (apply Hw.Only.of_pair; assumption)
    | (apply Hw.Only.of_triple; assumption)
    | (with_reducible apply Hw.Only.step ?_ (Hw.with_lead_moving_repairArmed_takeover ..)))

theorem Hw.repairStart_only (h : Hw) (d : Nat) :
    Hw.Only [0x1e0002] [.up] [.leadSt] h (Hw.repairStart h d) := by
  unfold Hw.repairStart
  try simp only
  repeat' (first
    | with_reducible apply Hw.Only.refl
    | (intro D x hx; cases x <;> first | exact absurd (by decide) hx | exact rfl)
    | decide
    | (with_reducible apply Hw.Only.step ?_ (Hw.setLd_only ..))
    | (with_reducible apply Hw.Only.step ?_ (Hw.onDie_only [.up] _ _ _ ?_))
    | dsimp only
    | split)

theorem Hw.erRegs_only (h : Hw) :
    Hw.Only [0x1f0001, 0x1f0002, 0x1f0003] [] [] h (Hw.erRegs h) := by
  unfold Hw.erRegs
  try simp only
  repeat' (first
    | with_reducible apply Hw.Only.refl
    | decide
    | (with_reducible apply Hw.Only.ite <;> intro _)
    | (with_reducible apply Hw.Only.ite2 <;> intro _)
    | (with_reducible apply Hw.Only.step ?_ (Hw.wr_only ..))
    | dsimp only
    | split)

theorem Hw.numberEvent_only (h : Hw) (d : Nat) (e : Evt) :
    Hw.Only [0x1f, 0x20005, 0x20010, 0x20013, 0x20014, 0x20015, 0x20016, 0x1f0001, 0x1f0002, 0x1f0003, 0x1f0005] [.queues, .front, .buckets, .folded] [.ring, .evtNext, .eps, .stores, .out] h (Hw.numberEvent h d e) := by
  unfold Hw.numberEvent
  try simp only
  repeat' (first
    | with_reducible apply Hw.Only.refl
    | (intro D x hx; cases x <;> first | exact absurd (by decide) hx | exact rfl)
    | decide
    | (with_reducible apply Hw.Only.ite <;> intro _)
    | (with_reducible apply Hw.Only.ite2 <;> intro _)
    | (with_reducible apply Hw.Only.foldl)
    | (intro (_ : Hw); intro _)
    | (intro (_ : Hw))
    | (with_reducible apply Hw.Only.foldlP)
    | (intro (_ : _ × Hw); intro _)
    | (with_reducible apply Hw.Only.step ?_ (Hw.wr_only ..))
    | (with_reducible apply Hw.Only.step ?_ (Hw.erRegs_only ..))
    | (with_reducible apply Hw.Only.step ?_ (Hw.qPushPacket_only ..))
    | (with_reducible apply Hw.Only.step ?_ (Hw.onDie_only [.front] _ _ _ ?_))
    | dsimp only
    | split
    | (with_reducible apply Hw.Only.step ?_ (Hw.with_evtNext_ring ..)))

/-! ### Slots -/

theorem Hw.onCtx_only (h : Hw) (d c : Nat) (f : Ctx → Ctx) :
    Hw.Only [] [.ctxs] [] h (Hw.onCtx h d c f) := by
  unfold Hw.onCtx
  try simp only
  repeat' (first
    | with_reducible apply Hw.Only.refl
    | (intro D x hx; cases x <;> first | exact absurd (by decide) hx | exact rfl)
    | decide
    | (with_reducible apply Hw.Only.ite <;> intro _)
    | (with_reducible apply Hw.Only.ite2 <;> intro _)
    | (with_reducible apply Hw.Only.step ?_ (Hw.onDie_only [.ctxs] _ _ _ ?_))
    | dsimp only
    | split)

theorem Hw.onPort_only (h : Hw) (d p : Nat) (f : Port → Port) :
    Hw.Only [] [.ports] [] h (Hw.onPort h d p f) := by
  unfold Hw.onPort
  try simp only
  repeat' (first
    | with_reducible apply Hw.Only.refl
    | (intro D x hx; cases x <;> first | exact absurd (by decide) hx | exact rfl)
    | decide
    | (with_reducible apply Hw.Only.step ?_ (Hw.onDie_only [.ports] _ _ _ ?_))
    | dsimp only
    | split)

theorem Hw.showPort_only (h : Hw) (d p : Nat) :
    Hw.Only [0x60020, 0x80002, 0x80003, 0x80004, 0x80005] [] [] h (Hw.showPort h d p) := by
  unfold Hw.showPort
  try simp only
  repeat' (first
    | with_reducible apply Hw.Only.refl
    | decide
    | (with_reducible apply Hw.Only.step ?_ (Hw.wr_only ..))
    | dsimp only
    | split
    | (apply Hw.Only.of_pair; assumption)
    | (apply Hw.Only.of_triple; assumption))

theorem Hw.ctxWriteback_only (h : Hw) (d : Nat) (c : Ctx) :
    Hw.Only [] [] [.stores] h (Hw.ctxWriteback h d c) := by
  unfold Hw.ctxWriteback
  try simp only
  repeat' (first
    | with_reducible apply Hw.Only.refl
    | decide
    | (with_reducible apply Hw.Only.step ?_ (Hw.store_only ..))
    | dsimp only
    | split)

theorem Hw.chTo_only (h : Hw) (b new cause : Nat) :
    Hw.Only [0x1f, 0x130001] [.front, .buckets, .folded] [] h (Hw.chTo h b new cause) := by
  unfold Hw.chTo
  try simp only
  repeat' (first
    | with_reducible apply Hw.Only.refl
    | decide
    | (with_reducible apply Hw.Only.ite <;> intro _)
    | (with_reducible apply Hw.Only.ite2 <;> intro _)
    | (with_reducible apply Hw.Only.step ?_ (Hw.wr_only ..))
    | (with_reducible apply Hw.Only.step ?_ (Hw.eventPkg_only ..))
    | dsimp only
    | split)

theorem Hw.chEnd_only (h : Hw) (d c new : Nat) :
    Hw.Only [0x1f, 0x130001, 0x130002] [.front, .buckets, .folded] [.pkg] h (Hw.chEnd h d c new) := by
  unfold Hw.chEnd
  split
  · exact .refl _ _ _ _
  · split
    · split
      · exact ((Hw.Only.refl _ _ _ _).step (Hw.wr_only ..) (by decide)).step (Hw.with_pkg (h.wr 0 A.ch_context 0 _) _) (by decide)
      · exact (Hw.Only.refl _ _ _ _).step (Hw.chTo_only ..) (by decide)
    · exact (Hw.Only.refl _ _ _ _).step (Hw.chTo_only ..) (by decide)

theorem Hw.lineFault_only (h : Hw) (d c first last : Nat) :
    Hw.Only [] [.lineFaults] [] h (Hw.lineFault h d c first last) := by
  unfold Hw.lineFault
  try simp only
  repeat' (first
    | with_reducible apply Hw.Only.refl
    | (intro D x hx; cases x <;> first | exact absurd (by decide) hx | exact rfl)
    | decide
    | (with_reducible apply Hw.Only.ite <;> intro _)
    | (with_reducible apply Hw.Only.ite2 <;> intro _)
    | (with_reducible apply Hw.Only.step ?_ (Hw.onDie_only [.lineFaults] _ _ _ ?_))
    | dsimp only
    | split)

theorem Hw.ctxTo_only (h : Hw) (d c new : Nat) :
    Hw.Only [0x1f, 0xb0001, 0xb0002, 0x130001, 0x130002] [.front, .buckets, .folded] [.pkg, .stores] h (Hw.ctxTo h d c new) := by
  unfold Hw.ctxTo
  try simp only
  repeat' (first
    | with_reducible apply Hw.Only.refl
    | decide
    | (with_reducible apply Hw.Only.ite <;> intro _)
    | (with_reducible apply Hw.Only.ite2 <;> intro _)
    | (with_reducible apply Hw.Only.step ?_ (Hw.wr_only ..))
    | (with_reducible apply Hw.Only.step ?_ (Hw.chEnd_only ..))
    | (with_reducible apply Hw.Only.step ?_ (Hw.ctxWriteback_only ..))
    | (with_reducible apply Hw.Only.step ?_ (Hw.event_only ..))
    | dsimp only
    | split
    | (apply Hw.Only.of_pair; assumption)
    | (apply Hw.Only.of_triple; assumption))

theorem Hw.defect_only (h : Hw) (d kind ctx port lines late line : Nat) :
    Hw.Only [0x1f, 0x20005, 0x20010, 0x20013, 0x20014, 0x20015, 0x20016, 0x60026, 0x60027] [.queues, .front, .buckets, .folded] [.eps, .stores, .out] h (Hw.defect h d kind ctx port lines late line) := by
  unfold Hw.defect
  try simp only
  repeat' (first
    | with_reducible apply Hw.Only.refl
    | decide
    | (with_reducible apply Hw.Only.ite <;> intro _)
    | (with_reducible apply Hw.Only.ite2 <;> intro _)
    | (with_reducible apply Hw.Only.step ?_ (Hw.add_only ..))
    | (with_reducible apply Hw.Only.step ?_ (Hw.qPushPacket_only ..))
    | dsimp only
    | split
    | (apply Hw.Only.of_pair; assumption)
    | (apply Hw.Only.of_triple; assumption))

theorem Hw.squashPort_only (h : Hw) (d c p line : Nat) (tone : Bool) :
    Hw.Only [0x60020, 0x80002, 0x80003, 0x80004, 0x80005] [.ports] [] h (Hw.squashPort h d c p line tone).2 := by
  unfold Hw.squashPort
  try simp only
  repeat' (first
    | with_reducible apply Hw.Only.refl
    | decide
    | (with_reducible apply Hw.Only.ite <;> intro _)
    | (with_reducible apply Hw.Only.ite2 <;> intro _)
    | (with_reducible apply Hw.Only.step ?_ (Hw.showPort_only ..))
    | (with_reducible apply Hw.Only.step ?_ (Hw.onPort_only ..))
    | dsimp only
    | split)

theorem Hw.squash_only (h : Hw) (d c : Nat) (ports : List Nat) (line : Nat) (tone : Bool) :
    Hw.Only [0x1f, 0x60020, 0x80002, 0x80003, 0x80004, 0x80005, 0x80020, 0x80021] [.front, .buckets, .folded, .ports] [] h (Hw.squash h d c ports line tone) := by
  unfold Hw.squash
  try simp only
  repeat' (first
    | with_reducible apply Hw.Only.refl
    | decide
    | (with_reducible apply Hw.Only.ite <;> intro _)
    | (with_reducible apply Hw.Only.ite2 <;> intro _)
    | (with_reducible apply Hw.Only.foldl)
    | (intro (_ : Hw); intro _)
    | (intro (_ : Hw))
    | (with_reducible apply Hw.Only.foldlP)
    | (intro (_ : _ × Hw); intro _)
    | (with_reducible apply Hw.Only.step ?_ (Hw.add_only ..))
    | (with_reducible apply Hw.Only.step ?_ (Hw.squashPort_only ..))
    | (with_reducible apply Hw.Only.step ?_ (Hw.event_only ..))
    | dsimp only
    | split)

theorem Hw.plDefer_only (h : Hw) (d kind c want used : Nat) :
    Hw.Only [0x1f] [.front, .buckets, .folded] [] h (Hw.plDefer h d kind c want used) := by
  unfold Hw.plDefer
  try simp only
  repeat' (first
    | with_reducible apply Hw.Only.refl
    | decide
    | (with_reducible apply Hw.Only.ite <;> intro _)
    | (with_reducible apply Hw.Only.ite2 <;> intro _)
    | (with_reducible apply Hw.Only.step ?_ (Hw.event_only ..))
    | dsimp only
    | split)

theorem Hw.supersede_only (h : Hw) (d old new : Nat) :
    Hw.Only [0x1f] [.mbx, .front, .buckets, .folded] [.pkg] h (Hw.supersede h d old new) := by
  unfold Hw.supersede
  try simp only
  repeat' (first
    | with_reducible apply Hw.Only.refl
    | decide
    | (with_reducible apply Hw.Only.step ?_ (Hw.settle_only ..))
    | (with_reducible apply Hw.Only.step ?_ (Hw.event_only ..))
    | dsimp only
    | split)

theorem Hw.addChange_only (h : Hw) (d id tag : Nat) (key : RegKey) (val c line : Nat) :
    Hw.Only [0x1f, 0x60020, 0x80002, 0x80003, 0x80004, 0x80005, 0x80020, 0x80021] [.mbx, .front, .buckets, .folded, .ports, .changes] [.pkg] h (Hw.addChange h d id tag key val c line).2 := by
  unfold Hw.addChange
  try simp only
  repeat' (first
    | with_reducible apply Hw.Only.refl
    | (intro D x hx; cases x <;> first | exact absurd (by decide) hx | exact rfl)
    | decide
    | (with_reducible apply Hw.Only.ite <;> intro _)
    | (with_reducible apply Hw.Only.ite2 <;> intro _)
    | (with_reducible apply Hw.Only.foldl)
    | (intro (_ : Hw); intro _)
    | (intro (_ : Hw))
    | (with_reducible apply Hw.Only.foldlP)
    | (intro (_ : _ × Hw); intro _)
    | (with_reducible apply Hw.Only.step ?_ (Hw.supersede_only ..))
    | (with_reducible apply Hw.Only.step ?_ (Hw.plDefer_only ..))
    | (with_reducible apply Hw.Only.step ?_ (Hw.squash_only ..))
    | (with_reducible apply Hw.Only.step ?_ (Hw.movePoint_only ..))
    | (with_reducible apply Hw.Only.step ?_ (Hw.onDie_only [.changes] _ _ _ ?_))
    | dsimp only
    | split)

theorem Hw.changeNow_only (h : Hw) (d tag : Nat) (key : RegKey) (val : Nat) :
    Hw.Only [0x0] [.mbx, .front, .buckets, .folded, .changes] [.pkg] h (Hw.changeNow h d tag key val) := by
  unfold Hw.changeNow
  try simp only
  repeat' (first
    | with_reducible apply Hw.Only.refl
    | (intro D x hx; cases x <;> first | exact absurd (by decide) hx | exact rfl)
    | decide
    | (with_reducible apply Hw.Only.foldl)
    | (intro (_ : Hw); intro _)
    | (intro (_ : Hw))
    | (with_reducible apply Hw.Only.foldlP)
    | (intro (_ : _ × Hw); intro _)
    | (with_reducible apply Hw.Only.step ?_ (Hw.wrk_only ..))
    | (with_reducible apply Hw.Only.step ?_ (Hw.supersede_only ..))
    | (with_reducible apply Hw.Only.step ?_ (Hw.onDie_only [.changes] _ _ _ ?_))
    | dsimp only
    | split)

theorem Hw.takeChanges_only (h : Hw) (d : Nat) :
    Hw.Only [] [.mbx, .changes] [.pkg] h (Hw.takeChanges h d) := by
  unfold Hw.takeChanges
  try simp only
  repeat' (first
    | with_reducible apply Hw.Only.refl
    | (intro D x hx; cases x <;> first | exact absurd (by decide) hx | exact rfl)
    | decide
    | (with_reducible apply Hw.Only.ite <;> intro _)
    | (with_reducible apply Hw.Only.ite2 <;> intro _)
    | (with_reducible apply Hw.Only.foldl)
    | (intro (_ : Hw); intro _)
    | (intro (_ : Hw))
    | (with_reducible apply Hw.Only.foldlP)
    | (intro (_ : _ × Hw); intro _)
    | (with_reducible apply Hw.Only.step ?_ (Hw.settle_only ..))
    | (with_reducible apply Hw.Only.step ?_ (Hw.onDie_only [.changes] _ _ _ ?_))
    | dsimp only
    | split
    | (apply Hw.Only.of_pair; assumption)
    | (apply Hw.Only.of_triple; assumption))

theorem Hw.endChanges_only (h : Hw) (d c : Nat) :
    Hw.Only [0x0] [.changes] [] h (Hw.endChanges h d c) := by
  unfold Hw.endChanges
  try simp only
  repeat' (first
    | with_reducible apply Hw.Only.refl
    | (intro D x hx; cases x <;> first | exact absurd (by decide) hx | exact rfl)
    | decide
    | (with_reducible apply Hw.Only.ite <;> intro _)
    | (with_reducible apply Hw.Only.ite2 <;> intro _)
    | (with_reducible apply Hw.Only.foldl)
    | (intro (_ : Hw); intro _)
    | (intro (_ : Hw))
    | (with_reducible apply Hw.Only.foldlP)
    | (intro (_ : _ × Hw); intro _)
    | (with_reducible apply Hw.Only.step ?_ (Hw.wrk_only ..))
    | (with_reducible apply Hw.Only.step ?_ (Hw.onDie_only [.changes] _ _ _ ?_))
    | dsimp only
    | split)

theorem Hw.beginChanges_only (h : Hw) (d : Nat) (c : Ctx) :
    Hw.Only [] [.mbx, .changes] [.pkg] h (Hw.beginChanges h d c) := by
  unfold Hw.beginChanges
  try simp only
  repeat' (first
    | with_reducible apply Hw.Only.refl
    | (intro D x hx; cases x <;> first | exact absurd (by decide) hx | exact rfl)
    | decide
    | (with_reducible apply Hw.Only.ite <;> intro _)
    | (with_reducible apply Hw.Only.ite2 <;> intro _)
    | (with_reducible apply Hw.Only.foldl)
    | (intro (_ : Hw); intro _)
    | (intro (_ : Hw))
    | (with_reducible apply Hw.Only.foldlP)
    | (intro (_ : _ × Hw); intro _)
    | (with_reducible apply Hw.Only.step ?_ (Hw.movePoint_only ..))
    | (with_reducible apply Hw.Only.step ?_ (Hw.settle_only ..))
    | (with_reducible apply Hw.Only.step ?_ (Hw.onDie_only [.changes] _ _ _ ?_))
    | dsimp only
    | split)

theorem Hw.onBank_only (h : Hw) (d b : Nat) (f : Bank → Bank) :
    Hw.Only [] [.banks] [] h (Hw.onBank h d b f) := by
  unfold Hw.onBank
  try simp only
  repeat' (first
    | with_reducible apply Hw.Only.refl
    | (intro D x hx; cases x <;> first | exact absurd (by decide) hx | exact rfl)
    | decide
    | (with_reducible apply Hw.Only.step ?_ (Hw.onDie_only [.banks] _ _ _ ?_))
    | dsimp only
    | split)

theorem Hw.prepare_only (h : Hw) (d p : Nat) :
    Hw.Only [0x60020, 0x80002, 0x80003, 0x80004, 0x80005] [.ports] [] h (Hw.prepare h d p) := by
  unfold Hw.prepare
  try simp only
  repeat' (first
    | with_reducible apply Hw.Only.refl
    | decide
    | (with_reducible apply Hw.Only.ite <;> intro _)
    | (with_reducible apply Hw.Only.ite2 <;> intro _)
    | (with_reducible apply Hw.Only.foldl)
    | (intro (_ : Hw); intro _)
    | (intro (_ : Hw))
    | (with_reducible apply Hw.Only.foldlP)
    | (intro (_ : _ × Hw); intro _)
    | (with_reducible apply Hw.Only.step ?_ (Hw.showPort_only ..))
    | (with_reducible apply Hw.Only.step ?_ (Hw.onPort_only ..))
    | dsimp only
    | split)

theorem Hw.staleAll_only (h : Hw) (d cause : Nat) :
    Hw.Only [] [.ports] [] h (Hw.staleAll h d cause) := by
  unfold Hw.staleAll
  try simp only
  repeat' (first
    | with_reducible apply Hw.Only.refl
    | (intro D x hx; cases x <;> first | exact absurd (by decide) hx | exact rfl)
    | decide
    | (with_reducible apply Hw.Only.step ?_ (Hw.onDie_only [.ports] _ _ _ ?_))
    | dsimp only
    | split)

theorem Hw.trimRings_only (h : Hw) (d p : Nat) :
    Hw.Only [] [.ports] [] h (Hw.trimRings h d p) := by
  unfold Hw.trimRings
  try simp only
  repeat' (first
    | with_reducible apply Hw.Only.refl
    | decide
    | (with_reducible apply Hw.Only.step ?_ (Hw.onPort_only ..))
    | dsimp only
    | split
    | (apply Hw.Only.of_pair; assumption)
    | (apply Hw.Only.of_triple; assumption))

theorem Hw.retireBank_only (h : Hw) (d : Nat) :
    Hw.Only [0x1f, 0x90001] [.front, .buckets, .folded, .banks] [] h (Hw.retireBank h d) := by
  unfold Hw.retireBank
  try simp only
  repeat' (first
    | with_reducible apply Hw.Only.refl
    | decide
    | (with_reducible apply Hw.Only.ite <;> intro _)
    | (with_reducible apply Hw.Only.ite2 <;> intro _)
    | (with_reducible apply Hw.Only.foldl)
    | (intro (_ : Hw); intro _)
    | (intro (_ : Hw))
    | (with_reducible apply Hw.Only.foldlP)
    | (intro (_ : _ × Hw); intro _)
    | (with_reducible apply Hw.Only.step ?_ (Hw.wr_only ..))
    | (with_reducible apply Hw.Only.step ?_ (Hw.onBank_only ..))
    | (with_reducible apply Hw.Only.step ?_ (Hw.event_only ..))
    | dsimp only
    | split
    | (apply Hw.Only.of_pair; assumption)
    | (apply Hw.Only.of_triple; assumption))

theorem Hw.endBands_only (h : Hw) (d c : Nat) :
    Hw.Only [] [.mbx, .ports] [.pkg] h (Hw.endBands h d c) := by
  unfold Hw.endBands
  try simp only
  repeat' (first
    | with_reducible apply Hw.Only.refl
    | (intro D x hx; cases x <;> first | exact absurd (by decide) hx | exact rfl)
    | decide
    | (with_reducible apply Hw.Only.ite <;> intro _)
    | (with_reducible apply Hw.Only.ite2 <;> intro _)
    | (with_reducible apply Hw.Only.foldl)
    | (intro (_ : Hw); intro _)
    | (intro (_ : Hw))
    | (with_reducible apply Hw.Only.foldlP)
    | (intro (_ : _ × Hw); intro _)
    | (with_reducible apply Hw.Only.step ?_ (Hw.settle_only ..))
    | (with_reducible apply Hw.Only.step ?_ (Hw.onDie_only [.ports] _ _ _ ?_))
    | dsimp only
    | split
    | (apply Hw.Only.of_pair; assumption)
    | (apply Hw.Only.of_triple; assumption))

theorem Hw.writeLost_only (h : Hw) (d c p : Nat) :
    Hw.Only [0x1f, 0x20005, 0x20010, 0x20013, 0x20014, 0x20015, 0x20016, 0x60026, 0x60027] [.queues, .front, .buckets, .folded, .ports] [.eps, .stores, .out] h (Hw.writeLost h d c p) := by
  unfold Hw.writeLost
  try simp only
  repeat' (first
    | with_reducible apply Hw.Only.refl
    | decide
    | (with_reducible apply Hw.Only.ite <;> intro _)
    | (with_reducible apply Hw.Only.ite2 <;> intro _)
    | (with_reducible apply Hw.Only.step ?_ (Hw.defect_only ..))
    | (with_reducible apply Hw.Only.step ?_ (Hw.onPort_only ..))
    | dsimp only
    | split
    | (apply Hw.Only.of_pair; assumption)
    | (apply Hw.Only.of_triple; assumption))

theorem Hw.endCtx_only (h : Hw) (d c : Nat) :
    Hw.Only [0x0] [.mbx, .queues, .front, .buckets, .folded, .ports, .changes] [.pkg, .eps, .stores, .out] h (Hw.endCtx h d c) := by
  unfold Hw.endCtx
  try simp only
  repeat' (first
    | with_reducible apply Hw.Only.refl
    | (intro D x hx; cases x <;> first | exact absurd (by decide) hx | exact rfl)
    | decide
    | (with_reducible apply Hw.Only.foldl)
    | (intro (_ : Hw); intro _)
    | (intro (_ : Hw))
    | (with_reducible apply Hw.Only.foldlP)
    | (intro (_ : _ × Hw); intro _)
    | (with_reducible apply Hw.Only.step ?_ (Hw.writeLost_only ..))
    | (with_reducible apply Hw.Only.step ?_ (Hw.endBands_only ..))
    | (with_reducible apply Hw.Only.step ?_ (Hw.endChanges_only ..))
    | (with_reducible apply Hw.Only.step ?_ (Hw.onDie_only [.ports] _ _ _ ?_))
    | dsimp only
    | split)

theorem Hw.idleEngine_only (h : Hw) (d : Nat) :
    Hw.Only [0x60001] [.hwmOn, .leaving] [] h (Hw.idleEngine h d) := by
  unfold Hw.idleEngine
  try simp only
  repeat' (first
    | with_reducible apply Hw.Only.refl
    | (intro D x hx; cases x <;> first | exact absurd (by decide) hx | exact rfl)
    | decide
    | (with_reducible apply Hw.Only.ite <;> intro _)
    | (with_reducible apply Hw.Only.ite2 <;> intro _)
    | (with_reducible apply Hw.Only.step ?_ (Hw.wr_only ..))
    | (with_reducible apply Hw.Only.step ?_ (Hw.onDie_only [.hwmOn, .leaving] _ _ _ ?_))
    | dsimp only
    | split)

theorem Hw.ctxDone_only (h : Hw) (d c : Nat) :
    Hw.Only [0x0] [.mbx, .queues, .front, .buckets, .folded, .hwmOn, .leaving, .ports, .changes] [.pkg, .eps, .stores, .out] h (Hw.ctxDone h d c) := by
  unfold Hw.ctxDone
  try simp only
  repeat' (first
    | with_reducible apply Hw.Only.refl
    | decide
    | (with_reducible apply Hw.Only.ite <;> intro _)
    | (with_reducible apply Hw.Only.ite2 <;> intro _)
    | (with_reducible apply Hw.Only.step ?_ (Hw.idleEngine_only ..))
    | (with_reducible apply Hw.Only.step ?_ (Hw.endCtx_only ..))
    | (with_reducible apply Hw.Only.step ?_ (Hw.ctxTo_only ..))
    | dsimp only
    | split
    | (apply Hw.Only.of_pair; assumption)
    | (apply Hw.Only.of_triple; assumption))

theorem Hw.advance_only (h : Hw) (d p : Nat) (c : Ctx) (k : Nat) :
    Hw.Only [0x0] [.mbx, .queues, .front, .buckets, .folded, .hwmOn, .leaving, .ports, .changes, .banks, .ctxs] [.pkg, .eps, .stores, .out] h (Hw.advance h d p c k) := by
  unfold Hw.advance
  try simp only
  repeat' (first
    | with_reducible apply Hw.Only.refl
    | decide
    | (with_reducible apply Hw.Only.step ?_ (Hw.ctxDone_only ..))
    | (with_reducible apply Hw.Only.step ?_ (Hw.retireBank_only ..))
    | (with_reducible apply Hw.Only.step ?_ (Hw.trimRings_only ..))
    | (with_reducible apply Hw.Only.step ?_ (Hw.prepare_only ..))
    | (with_reducible apply Hw.Only.step ?_ (Hw.takeChanges_only ..))
    | (with_reducible apply Hw.Only.step ?_ (Hw.onPort_only ..))
    | (with_reducible apply Hw.Only.step ?_ (Hw.onCtx_only ..))
    | dsimp only
    | split)

/-! ### Runway -/

theorem Hw.skipPast_only (h : Hw) (d : Nat) (c : Ctx) :
    Hw.Only [0x0] [.mbx, .queues, .front, .buckets, .folded, .hwmOn, .leaving, .ports, .changes, .banks, .ctxs] [.pkg, .eps, .stores, .out] h (Hw.skipPast h d c).2 := by
  unfold Hw.skipPast
  try simp only
  repeat' (first
    | with_reducible apply Hw.Only.refl
    | decide
    | (with_reducible apply Hw.Only.ite <;> intro _)
    | (with_reducible apply Hw.Only.ite2 <;> intro _)
    | (with_reducible apply Hw.Only.foldl)
    | (intro (_ : Hw); intro _)
    | (intro (_ : Hw))
    | (with_reducible apply Hw.Only.foldlP)
    | (intro (_ : _ × Hw); intro _)
    | (with_reducible apply Hw.Only.step ?_ (Hw.advance_only ..))
    | (with_reducible apply Hw.Only.step ?_ (Hw.onPort_only ..))
    | dsimp only
    | split)

theorem Hw.seam_only (h : Hw) (d : Nat) (c : Ctx) (first n : Nat) :
    Hw.Only [0x1f, 0x20005, 0x20010, 0x20013, 0x20014, 0x20015, 0x20016, 0x60026, 0x60027] [.queues, .front, .buckets, .folded, .ctxs, .lineFaults] [.eps, .stores, .out] h (Hw.seam h d c first n) := by
  unfold Hw.seam
  try simp only
  repeat' (first
    | with_reducible apply Hw.Only.refl
    | decide
    | (with_reducible apply Hw.Only.ite <;> intro _)
    | (with_reducible apply Hw.Only.ite2 <;> intro _)
    | (with_reducible apply Hw.Only.step ?_ (Hw.defect_only ..))
    | (with_reducible apply Hw.Only.step ?_ (Hw.lineFault_only ..))
    | (with_reducible apply Hw.Only.step ?_ (Hw.onCtx_only ..))
    | (with_reducible apply Hw.Only.step ?_ (Hw.event_only ..))
    | dsimp only
    | split)

theorem Hw.showPins_only (h : Hw) :
    Hw.Only [0x1f] [.front, .buckets, .folded] [.hsPins] h (Hw.showPins h) := by
  unfold Hw.showPins
  try simp only
  repeat' (first
    | with_reducible apply Hw.Only.refl
    | decide
    | (with_reducible apply Hw.Only.ite <;> intro _)
    | (with_reducible apply Hw.Only.ite2 <;> intro _)
    | (with_reducible apply Hw.Only.foldl)
    | (intro (_ : Hw); intro _)
    | (intro (_ : Hw))
    | (with_reducible apply Hw.Only.foldlP)
    | (intro (_ : _ × Hw); intro _)
    | (with_reducible apply Hw.Only.step ?_ (Hw.eventPkg_only ..))
    | dsimp only
    | split
    | (with_reducible apply Hw.Only.step ?_ (Hw.with_hsPins ..)))

theorem Hw.setReq_only (h : Hw) (d i : Nat) (b : Bool) :
    Hw.Only [0x1f, 0x60003] [.front, .buckets, .folded] [.hsPins] h (Hw.setReq h d i b) := by
  unfold Hw.setReq
  try simp only
  repeat' (first
    | with_reducible apply Hw.Only.refl
    | decide
    | (with_reducible apply Hw.Only.step ?_ (Hw.wr_only ..))
    | (with_reducible apply Hw.Only.step ?_ (Hw.showPins_only ..))
    | dsimp only
    | split)

theorem Hw.runwayReq_only (h : Hw) (d i : Nat) (b : Bool) :
    Hw.Only [0x1f, 0x60003] [.front, .buckets, .folded] [.hsPins] h (Hw.runwayReq h d i b) := by
  unfold Hw.runwayReq
  try simp only
  repeat' (first
    | with_reducible apply Hw.Only.refl
    | decide
    | (with_reducible apply Hw.Only.ite <;> intro _)
    | (with_reducible apply Hw.Only.ite2 <;> intro _)
    | (with_reducible apply Hw.Only.step ?_ (Hw.setReq_only ..))
    | (with_reducible apply Hw.Only.step ?_ (Hw.event_only ..))
    | dsimp only
    | split)

theorem Hw.showRunway_only (h : Hw) (d : Nat) :
    Hw.Only [0xb0006, 0xb0007, 0xb000a, 0xc0020, 0xc0021] [] [] h (Hw.showRunway h d) := by
  unfold Hw.showRunway
  try simp only
  repeat' (first
    | with_reducible apply Hw.Only.refl
    | decide
    | (with_reducible apply Hw.Only.foldl)
    | (intro (_ : Hw); intro _)
    | (intro (_ : Hw))
    | (with_reducible apply Hw.Only.foldlP)
    | (intro (_ : _ × Hw); intro _)
    | (with_reducible apply Hw.Only.step ?_ (Hw.wr_only ..))
    | dsimp only
    | split)

theorem Hw.stopOn_only (h : Hw) (d cause : Nat) :
    Hw.Only [0x1f, 0x60003, 0xc0022, 0xc0023, 0xc0025] [.front, .buckets, .folded, .ctxs, .stop] [.hsPins] h (Hw.stopOn h d cause) := by
  unfold Hw.stopOn
  try simp only
  repeat' (first
    | with_reducible apply Hw.Only.refl
    | (intro D x hx; cases x <;> first | exact absurd (by decide) hx | exact rfl)
    | decide
    | (with_reducible apply Hw.Only.ite <;> intro _)
    | (with_reducible apply Hw.Only.ite2 <;> intro _)
    | (with_reducible apply Hw.Only.foldl)
    | (intro (_ : Hw); intro _)
    | (intro (_ : Hw))
    | (with_reducible apply Hw.Only.foldlP)
    | (intro (_ : _ × Hw); intro _)
    | (with_reducible apply Hw.Only.step ?_ (Hw.wr_only ..))
    | (with_reducible apply Hw.Only.step ?_ (Hw.add_only ..))
    | (with_reducible apply Hw.Only.step ?_ (Hw.runwayReq_only ..))
    | (with_reducible apply Hw.Only.step ?_ (Hw.onCtx_only ..))
    | (with_reducible apply Hw.Only.step ?_ (Hw.event_only ..))
    | (with_reducible apply Hw.Only.step ?_ (Hw.onDie_only [.stop] _ _ _ ?_))
    | dsimp only
    | split)

theorem Hw.startStop_only (h : Hw) (d cause : Nat) :
    Hw.Only [0x1f, 0x60003, 0xc0022, 0xc0023, 0xc0025] [.front, .buckets, .folded, .ctxs, .stop] [.hsPins] h (Hw.startStop h d cause) := by
  unfold Hw.startStop
  try simp only
  repeat' (first
    | with_reducible apply Hw.Only.refl
    | decide
    | (with_reducible apply Hw.Only.ite <;> intro _)
    | (with_reducible apply Hw.Only.ite2 <;> intro _)
    | (with_reducible apply Hw.Only.foldl)
    | (intro (_ : Hw); intro _)
    | (intro (_ : Hw))
    | (with_reducible apply Hw.Only.foldlP)
    | (intro (_ : _ × Hw); intro _)
    | (with_reducible apply Hw.Only.step ?_ (Hw.stopOn_only ..))
    | dsimp only
    | split)

theorem Hw.fixStop_only (h : Hw) (d : Nat) (c : Ctx) :
    Hw.Only [0x1f, 0xb000b] [.front, .buckets, .folded, .ctxs] [] h (Hw.fixStop h d c) := by
  unfold Hw.fixStop
  try simp only
  repeat' (first
    | with_reducible apply Hw.Only.refl
    | decide
    | (with_reducible apply Hw.Only.step ?_ (Hw.wr_only ..))
    | (with_reducible apply Hw.Only.step ?_ (Hw.onCtx_only ..))
    | (with_reducible apply Hw.Only.step ?_ (Hw.event_only ..))
    | dsimp only
    | split
    | (apply Hw.Only.of_pair; assumption)
    | (apply Hw.Only.of_triple; assumption))

theorem Hw.stopTests_only (h : Hw) (d : Nat) :
    Hw.Only [0x1f, 0xb000b] [.front, .buckets, .folded, .ctxs] [] h (Hw.stopTests h d) := by
  unfold Hw.stopTests
  try simp only
  repeat' (first
    | with_reducible apply Hw.Only.refl
    | decide
    | (with_reducible apply Hw.Only.ite <;> intro _)
    | (with_reducible apply Hw.Only.ite2 <;> intro _)
    | (with_reducible apply Hw.Only.foldl)
    | (intro (_ : Hw); intro _)
    | (intro (_ : Hw))
    | (with_reducible apply Hw.Only.foldlP)
    | (intro (_ : _ × Hw); intro _)
    | (with_reducible apply Hw.Only.step ?_ (Hw.fixStop_only ..))
    | dsimp only
    | split)

theorem Hw.leavePrinting_only (h : Hw) (d : Nat) (c : Ctx) :
    Hw.Only [0x1f, 0x60001, 0xb0001, 0xb0002, 0xb0008, 0x130001, 0x130002] [.front, .buckets, .folded, .hwmOn, .leaving, .ports, .ctxs] [.pkg, .stores] h (Hw.leavePrinting h d c) := by
  unfold Hw.leavePrinting
  try simp only
  repeat' (first
    | with_reducible apply Hw.Only.refl
    | (intro D x hx; cases x <;> first | exact absurd (by decide) hx | exact rfl)
    | decide
    | (with_reducible apply Hw.Only.ite <;> intro _)
    | (with_reducible apply Hw.Only.ite2 <;> intro _)
    | (with_reducible apply Hw.Only.foldl)
    | (intro (_ : Hw); intro _)
    | (intro (_ : Hw))
    | (with_reducible apply Hw.Only.foldlP)
    | (intro (_ : _ × Hw); intro _)
    | (with_reducible apply Hw.Only.step ?_ (Hw.wr_only ..))
    | (with_reducible apply Hw.Only.step ?_ (Hw.idleEngine_only ..))
    | (with_reducible apply Hw.Only.step ?_ (Hw.ctxTo_only ..))
    | (with_reducible apply Hw.Only.step ?_ (Hw.onCtx_only ..))
    | (with_reducible apply Hw.Only.step ?_ (Hw.onDie_only [.ports] _ _ _ ?_))
    | dsimp only
    | split)

theorem Hw.stopLeave_only (h : Hw) (d : Nat) :
    Hw.Only [0x1f, 0x60001, 0xb0001, 0xb0002, 0xb0008, 0x130001, 0x130002] [.front, .buckets, .folded, .hwmOn, .leaving, .ports, .ctxs] [.pkg, .stores] h (Hw.stopLeave h d) := by
  unfold Hw.stopLeave
  try simp only
  repeat' (first
    | with_reducible apply Hw.Only.refl
    | decide
    | (with_reducible apply Hw.Only.ite <;> intro _)
    | (with_reducible apply Hw.Only.ite2 <;> intro _)
    | (with_reducible apply Hw.Only.foldl)
    | (intro (_ : Hw); intro _)
    | (intro (_ : Hw))
    | (with_reducible apply Hw.Only.foldlP)
    | (intro (_ : _ × Hw); intro _)
    | (with_reducible apply Hw.Only.step ?_ (Hw.leavePrinting_only ..))
    | dsimp only
    | split)

theorem Hw.noBackup_only (h : Hw) (d reason : Nat) (short : Int) :
    Hw.Only [0x1f] [.front, .buckets, .folded] [] h (Hw.noBackup h d reason short) := by
  unfold Hw.noBackup
  try simp only
  repeat' (first
    | with_reducible apply Hw.Only.refl
    | decide
    | (with_reducible apply Hw.Only.step ?_ (Hw.event_only ..))
    | dsimp only
    | split)

theorem Hw.standstill_only (h : Hw) (d : Nat) :
    Hw.Only [0x1f, 0x60003, 0xc0022, 0xc0024] [.front, .buckets, .folded, .stop] [.hsPins] h (Hw.standstill h d) := by
  unfold Hw.standstill
  try simp only
  repeat' (first
    | with_reducible apply Hw.Only.refl
    | (intro D x hx; cases x <;> first | exact absurd (by decide) hx | exact rfl)
    | decide
    | (with_reducible apply Hw.Only.ite <;> intro _)
    | (with_reducible apply Hw.Only.ite2 <;> intro _)
    | (with_reducible apply Hw.Only.step ?_ (Hw.wr_only ..))
    | (with_reducible apply Hw.Only.step ?_ (Hw.wrS_only ..))
    | (with_reducible apply Hw.Only.step ?_ (Hw.noBackup_only ..))
    | (with_reducible apply Hw.Only.step ?_ (Hw.runwayReq_only ..))
    | (with_reducible apply Hw.Only.step ?_ (Hw.event_only ..))
    | (with_reducible apply Hw.Only.step ?_ (Hw.onDie_only [.stop] _ _ _ ?_))
    | dsimp only
    | split
    | (apply Hw.Only.of_pair; assumption)
    | (apply Hw.Only.of_triple; assumption))

theorem Hw.standstillCheck_only (h : Hw) :
    Hw.Only [0x1f, 0x60003, 0xc0022, 0xc0024] [.front, .buckets, .folded, .stop] [.hsPins] h (Hw.standstillCheck h) := by
  unfold Hw.standstillCheck
  try simp only
  repeat' (first
    | with_reducible apply Hw.Only.refl
    | decide
    | (with_reducible apply Hw.Only.ite <;> intro _)
    | (with_reducible apply Hw.Only.ite2 <;> intro _)
    | (with_reducible apply Hw.Only.foldl)
    | (intro (_ : Hw); intro _)
    | (intro (_ : Hw))
    | (with_reducible apply Hw.Only.foldlP)
    | (intro (_ : _ × Hw); intro _)
    | (with_reducible apply Hw.Only.step ?_ (Hw.wr_only ..))
    | (with_reducible apply Hw.Only.step ?_ (Hw.standstill_only ..))
    | dsimp only
    | split)

theorem Hw.endBackup_only (h : Hw) (d : Nat) :
    Hw.Only [0x1f, 0x60003, 0xc0022] [.front, .buckets, .folded, .stop] [.hsPins] h (Hw.endBackup h d) := by
  unfold Hw.endBackup
  try simp only
  repeat' (first
    | with_reducible apply Hw.Only.refl
    | (intro D x hx; cases x <;> first | exact absurd (by decide) hx | exact rfl)
    | decide
    | (with_reducible apply Hw.Only.step ?_ (Hw.wr_only ..))
    | (with_reducible apply Hw.Only.step ?_ (Hw.runwayReq_only ..))
    | (with_reducible apply Hw.Only.step ?_ (Hw.onDie_only [.stop] _ _ _ ?_))
    | dsimp only
    | split)

theorem Hw.backupReached_only (h : Hw) (d : Nat) :
    Hw.Only [0x1f, 0x60003, 0xc0022] [.front, .buckets, .folded, .stop] [.hsPins] h (Hw.backupReached h d) := by
  unfold Hw.backupReached
  try simp only
  repeat' (first
    | with_reducible apply Hw.Only.refl
    | decide
    | (with_reducible apply Hw.Only.ite <;> intro _)
    | (with_reducible apply Hw.Only.ite2 <;> intro _)
    | (with_reducible apply Hw.Only.step ?_ (Hw.endBackup_only ..))
    | dsimp only
    | split)

theorem Hw.runwayEval_only (h : Hw) (d : Nat) :
    Hw.Only [0x1f, 0x60003, 0xb0006, 0xb0007, 0xb000a, 0xb000b, 0xc0020, 0xc0021, 0xc0022, 0xc0023, 0xc0025] [.front, .buckets, .folded, .ctxs, .stop] [.hsPins] h (Hw.runwayEval h d) := by
  unfold Hw.runwayEval
  try simp only
  repeat' (first
    | with_reducible apply Hw.Only.refl
    | decide
    | (with_reducible apply Hw.Only.ite <;> intro _)
    | (with_reducible apply Hw.Only.ite2 <;> intro _)
    | (with_reducible apply Hw.Only.step ?_ (Hw.stopTests_only ..))
    | (with_reducible apply Hw.Only.step ?_ (Hw.startStop_only ..))
    | (with_reducible apply Hw.Only.step ?_ (Hw.showRunway_only ..))
    | (with_reducible apply Hw.Only.step ?_ (Hw.runwayReq_only ..))
    | dsimp only
    | split
    | (apply Hw.Only.of_pair; assumption)
    | (apply Hw.Only.of_triple; assumption))

/-! ### Fire -/

theorem Hw.speedHi_only (h : Hw) (d : Nat) :
    Hw.Only [0x1f, 0x60003, 0x60005] [.front, .buckets, .folded] [.hsPins] h (Hw.speedHi h d) := by
  unfold Hw.speedHi
  try simp only
  repeat' (first
    | with_reducible apply Hw.Only.refl
    | decide
    | (with_reducible apply Hw.Only.ite <;> intro _)
    | (with_reducible apply Hw.Only.ite2 <;> intro _)
    | (with_reducible apply Hw.Only.step ?_ (Hw.wr_only ..))
    | (with_reducible apply Hw.Only.step ?_ (Hw.setReq_only ..))
    | (with_reducible apply Hw.Only.step ?_ (Hw.event_only ..))
    | dsimp only
    | split
    | (apply Hw.Only.of_pair; assumption)
    | (apply Hw.Only.of_triple; assumption))

theorem Hw.disarm_only (h : Hw) (d : Nat) :
    Hw.Only [] [.ports] [] h (Hw.disarm h d) := by
  unfold Hw.disarm
  try simp only
  repeat' (first
    | with_reducible apply Hw.Only.refl
    | (intro D x hx; cases x <;> first | exact absurd (by decide) hx | exact rfl)
    | decide
    | (with_reducible apply Hw.Only.step ?_ (Hw.onDie_only [.ports] _ _ _ ?_))
    | dsimp only
    | split)

theorem Hw.armOne_only (h : Hw) (d p : Nat) (c : Ctx) (k g late : Nat) :
    Hw.Only [0x60024] [.ports] [] h (Hw.armOne h d p c k g late) := by
  unfold Hw.armOne
  try simp only
  repeat' (first
    | with_reducible apply Hw.Only.refl
    | decide
    | (with_reducible apply Hw.Only.ite <;> intro _)
    | (with_reducible apply Hw.Only.ite2 <;> intro _)
    | (with_reducible apply Hw.Only.step ?_ (Hw.add_only ..))
    | (with_reducible apply Hw.Only.step ?_ (Hw.onPort_only ..))
    | dsimp only
    | split
    | (apply Hw.Only.of_pair; assumption)
    | (apply Hw.Only.of_triple; assumption))

theorem Hw.armPort_only (h : Hw) (d p : Nat) :
    Hw.Only [0x60021, 0x60024] [.ports] [] h (Hw.armPort h d p) := by
  unfold Hw.armPort
  try simp only
  repeat' (first
    | with_reducible apply Hw.Only.refl
    | decide
    | (with_reducible apply Hw.Only.ite <;> intro _)
    | (with_reducible apply Hw.Only.ite2 <;> intro _)
    | (with_reducible apply Hw.Only.foldl)
    | (intro (_ : Hw); intro _)
    | (intro (_ : Hw))
    | (with_reducible apply Hw.Only.foldlP)
    | (intro (_ : _ × Hw); intro _)
    | (with_reducible apply Hw.Only.step ?_ (Hw.wr_only ..))
    | (with_reducible apply Hw.Only.step ?_ (Hw.armOne_only ..))
    | dsimp only
    | split
    | (apply Hw.Only.of_pair; assumption)
    | (apply Hw.Only.of_triple; assumption))

theorem Hw.armAll_only (h : Hw) (d : Nat) :
    Hw.Only [0x60021, 0x60024] [.ports] [] h (Hw.armAll h d) := by
  unfold Hw.armAll
  try simp only
  repeat' (first
    | with_reducible apply Hw.Only.refl
    | decide
    | (with_reducible apply Hw.Only.foldl)
    | (intro (_ : Hw); intro _)
    | (intro (_ : Hw))
    | (with_reducible apply Hw.Only.foldlP)
    | (intro (_ : _ × Hw); intro _)
    | (with_reducible apply Hw.Only.step ?_ (Hw.armPort_only ..))
    | dsimp only
    | split)

theorem Hw.reversed_only (h : Hw) (d : Nat) :
    Hw.Only [0x1f, 0x60001, 0x60025] [.front, .buckets, .folded, .ports] [] h (Hw.reversed h d) := by
  unfold Hw.reversed
  try simp only
  repeat' (first
    | with_reducible apply Hw.Only.refl
    | decide
    | (with_reducible apply Hw.Only.step ?_ (Hw.wr_only ..))
    | (with_reducible apply Hw.Only.step ?_ (Hw.add_only ..))
    | (with_reducible apply Hw.Only.step ?_ (Hw.disarm_only ..))
    | (with_reducible apply Hw.Only.step ?_ (Hw.staleAll_only ..))
    | (with_reducible apply Hw.Only.step ?_ (Hw.event_only ..))
    | dsimp only
    | split)

theorem Hw.seamAll_only (h : Hw) (d : Nat) :
    Hw.Only [0x0] [.mbx, .queues, .front, .buckets, .folded, .hwmOn, .leaving, .ports, .changes, .banks, .ctxs, .lineFaults] [.pkg, .eps, .stores, .out] h (Hw.seamAll h d) := by
  unfold Hw.seamAll
  try simp only
  repeat' (first
    | with_reducible apply Hw.Only.refl
    | decide
    | (with_reducible apply Hw.Only.foldl)
    | (intro (_ : Hw); intro _)
    | (intro (_ : Hw))
    | (with_reducible apply Hw.Only.foldlP)
    | (intro (_ : _ × Hw); intro _)
    | (with_reducible apply Hw.Only.step ?_ (Hw.seam_only ..))
    | (with_reducible apply Hw.Only.step ?_ (Hw.skipPast_only ..))
    | dsimp only
    | split)

theorem Hw.leState_only (h : Hw) (d : Nat) :
    Hw.Only [0x0] [.mbx, .queues, .front, .buckets, .folded, .hwmOn, .leaving, .ports, .changes, .banks, .ctxs, .lineFaults] [.pkg, .eps, .stores, .out] h (Hw.leState h d) := by
  unfold Hw.leState
  try simp only
  repeat' (first
    | with_reducible apply Hw.Only.refl
    | (intro D x hx; cases x <;> first | exact absurd (by decide) hx | exact rfl)
    | decide
    | (with_reducible apply Hw.Only.ite <;> intro _)
    | (with_reducible apply Hw.Only.ite2 <;> intro _)
    | (with_reducible apply Hw.Only.step ?_ (Hw.wr_only ..))
    | (with_reducible apply Hw.Only.step ?_ (Hw.seamAll_only ..))
    | (with_reducible apply Hw.Only.step ?_ (Hw.reversed_only ..))
    | (with_reducible apply Hw.Only.step ?_ (Hw.disarm_only ..))
    | (with_reducible apply Hw.Only.step ?_ (Hw.event_only ..))
    | (with_reducible apply Hw.Only.step ?_ (Hw.onDie_only [.leaving] _ _ _ ?_))
    | dsimp only
    | split
    | (apply Hw.Only.of_pair; assumption)
    | (apply Hw.Only.of_triple; assumption))

theorem Hw.raiseHwm_only (h : Hw) (d : Nat) :
    Hw.Only [0x60002] [.hwmOn] [] h (Hw.raiseHwm h d) := by
  unfold Hw.raiseHwm
  try simp only
  repeat' (first
    | with_reducible apply Hw.Only.refl
    | (intro D x hx; cases x <;> first | exact absurd (by decide) hx | exact rfl)
    | decide
    | (with_reducible apply Hw.Only.ite <;> intro _)
    | (with_reducible apply Hw.Only.ite2 <;> intro _)
    | (with_reducible apply Hw.Only.step ?_ (Hw.wrS_only ..))
    | (with_reducible apply Hw.Only.step ?_ (Hw.onDie_only [.hwmOn] _ _ _ ?_))
    | dsimp only
    | split)

theorem Hw.enterHeld_only (h : Hw) (d : Nat) :
    Hw.Only [0x60001] [.leaving, .ports] [] h (Hw.enterHeld h d) := by
  unfold Hw.enterHeld
  try simp only
  repeat' (first
    | with_reducible apply Hw.Only.refl
    | (intro D x hx; cases x <;> first | exact absurd (by decide) hx | exact rfl)
    | decide
    | (with_reducible apply Hw.Only.step ?_ (Hw.wr_only ..))
    | (with_reducible apply Hw.Only.step ?_ (Hw.disarm_only ..))
    | (with_reducible apply Hw.Only.step ?_ (Hw.staleAll_only ..))
    | (with_reducible apply Hw.Only.step ?_ (Hw.onDie_only [.leaving] _ _ _ ?_))
    | dsimp only
    | split)

theorem Hw.holdCheck_only (h : Hw) (d : Nat) :
    Hw.Only [0x60001] [.leaving, .ports] [] h (Hw.holdCheck h d) := by
  unfold Hw.holdCheck
  try simp only
  repeat' (first
    | with_reducible apply Hw.Only.refl
    | (intro D x hx; cases x <;> first | exact absurd (by decide) hx | exact rfl)
    | decide
    | (with_reducible apply Hw.Only.ite <;> intro _)
    | (with_reducible apply Hw.Only.ite2 <;> intro _)
    | (with_reducible apply Hw.Only.step ?_ (Hw.enterHeld_only ..))
    | (with_reducible apply Hw.Only.step ?_ (Hw.onDie_only [.leaving] _ _ _ ?_))
    | dsimp only
    | split)

theorem Hw.startEngine_only (h : Hw) (d : Nat) :
    Hw.Only [0x1f, 0x60001] [.front, .buckets, .folded, .hwmOn, .leaving, .ports] [.hsForce, .hsPins] h (Hw.startEngine h d) := by
  unfold Hw.startEngine
  try simp only
  repeat' (first
    | with_reducible apply Hw.Only.refl
    | (intro D x hx; cases x <;> first | exact absurd (by decide) hx | exact rfl)
    | decide
    | (with_reducible apply Hw.Only.ite <;> intro _)
    | (with_reducible apply Hw.Only.ite2 <;> intro _)
    | (with_reducible apply Hw.Only.step ?_ (Hw.wr_only ..))
    | (with_reducible apply Hw.Only.step ?_ (Hw.holdCheck_only ..))
    | (with_reducible apply Hw.Only.step ?_ (Hw.showPins_only ..))
    | (with_reducible apply Hw.Only.step ?_ (Hw.onDie_only [.hwmOn, .leaving] _ _ _ ?_))
    | dsimp only
    | split
    | (with_reducible apply Hw.Only.step ?_ (Hw.with_hsForce ..)))

theorem Hw.refreshPorts_only (h : Hw) (d : Nat) :
    Hw.Only [0x70002] [] [] h (Hw.refreshPorts h d) := by
  unfold Hw.refreshPorts
  try simp only
  repeat' (first
    | with_reducible apply Hw.Only.refl
    | decide
    | (with_reducible apply Hw.Only.ite <;> intro _)
    | (with_reducible apply Hw.Only.ite2 <;> intro _)
    | (with_reducible apply Hw.Only.foldl)
    | (intro (_ : Hw); intro _)
    | (intro (_ : Hw))
    | (with_reducible apply Hw.Only.foldlP)
    | (intro (_ : _ × Hw); intro _)
    | (with_reducible apply Hw.Only.step ?_ (Hw.wr_only ..))
    | dsimp only
    | split)

theorem Hw.resumeCtxs_only (h : Hw) (d : Nat) :
    Hw.Only [0x0] [.mbx, .queues, .front, .buckets, .folded, .hwmOn, .leaving, .ports, .changes, .banks, .ctxs, .stop, .lineFaults] [.pkg, .eps, .hsForce, .hsPins, .stores, .out] h (Hw.resumeCtxs h d) := by
  unfold Hw.resumeCtxs
  try simp only
  repeat' (first
    | with_reducible apply Hw.Only.refl
    | (intro D x hx; cases x <;> first | exact absurd (by decide) hx | exact rfl)
    | decide
    | (with_reducible apply Hw.Only.ite <;> intro _)
    | (with_reducible apply Hw.Only.ite2 <;> intro _)
    | (with_reducible apply Hw.Only.foldl)
    | (intro (_ : Hw); intro _)
    | (intro (_ : Hw))
    | (with_reducible apply Hw.Only.foldlP)
    | (intro (_ : _ × Hw); intro _)
    | (with_reducible apply Hw.Only.step ?_ (Hw.startEngine_only ..))
    | (with_reducible apply Hw.Only.step ?_ (Hw.seam_only ..))
    | (with_reducible apply Hw.Only.step ?_ (Hw.skipPast_only ..))
    | (with_reducible apply Hw.Only.step ?_ (Hw.ctxTo_only ..))
    | (with_reducible apply Hw.Only.step ?_ (Hw.onCtx_only ..))
    | (with_reducible apply Hw.Only.step ?_ (Hw.event_only ..))
    | (with_reducible apply Hw.Only.step ?_ (Hw.onDie_only [.stop] _ _ _ ?_))
    | dsimp only
    | split)

theorem Hw.lePair_only (h : Hw) (d : Nat) :
    Hw.Only [0x0] [.mbx, .queues, .front, .buckets, .folded, .hwmOn, .leaving, .ports, .changes, .banks, .ctxs, .stop, .lineFaults] [.pkg, .eps, .hsForce, .hsPins, .stores, .out] h (Hw.lePair h d) := by
  unfold Hw.lePair
  try simp only
  repeat' (first
    | with_reducible apply Hw.Only.refl
    | decide
    | (with_reducible apply Hw.Only.ite <;> intro _)
    | (with_reducible apply Hw.Only.ite2 <;> intro _)
    | (with_reducible apply Hw.Only.step ?_ (Hw.resumeCtxs_only ..))
    | (with_reducible apply Hw.Only.step ?_ (Hw.refreshPorts_only ..))
    | (with_reducible apply Hw.Only.step ?_ (Hw.raiseHwm_only ..))
    | (with_reducible apply Hw.Only.step ?_ (Hw.leState_only ..))
    | (with_reducible apply Hw.Only.step ?_ (Hw.armAll_only ..))
    | (with_reducible apply Hw.Only.step ?_ (Hw.speedHi_only ..))
    | (with_reducible apply Hw.Only.step ?_ (Hw.runwayEval_only ..))
    | (with_reducible apply Hw.Only.step ?_ (Hw.backupReached_only ..))
    | (with_reducible apply Hw.Only.step ?_ (Hw.standstillCheck_only ..))
    | (with_reducible apply Hw.Only.step ?_ (Hw.stopLeave_only ..))
    | (with_reducible apply Hw.Only.step ?_ (Hw.staleAll_only ..))
    | dsimp only
    | split)

theorem Hw.dropSlot_only (h : Hw) (d p : Nat) (c : Ctx) (k : Nat) :
    Hw.Only [0x0] [.mbx, .queues, .front, .buckets, .folded, .hwmOn, .leaving, .ports, .changes, .banks, .ctxs] [.pkg, .eps, .stores, .out] h (Hw.dropSlot h d p c k) := by
  unfold Hw.dropSlot
  try simp only
  repeat' (first
    | with_reducible apply Hw.Only.refl
    | decide
    | (with_reducible apply Hw.Only.ite <;> intro _)
    | (with_reducible apply Hw.Only.ite2 <;> intro _)
    | (with_reducible apply Hw.Only.step ?_ (Hw.armPort_only ..))
    | (with_reducible apply Hw.Only.step ?_ (Hw.advance_only ..))
    | (with_reducible apply Hw.Only.step ?_ (Hw.onPort_only ..))
    | dsimp only
    | split)

theorem Hw.dropData_only (h : Hw) (d p : Nat) (c : Ctx) (k : Nat) :
    Hw.Only [0x0] [.mbx, .queues, .front, .buckets, .folded, .hwmOn, .leaving, .ports, .changes, .banks, .ctxs, .lineFaults] [.pkg, .eps, .stores, .out] h (Hw.dropData h d p c k) := by
  unfold Hw.dropData
  try simp only
  repeat' (first
    | with_reducible apply Hw.Only.refl
    | decide
    | (with_reducible apply Hw.Only.ite <;> intro _)
    | (with_reducible apply Hw.Only.ite2 <;> intro _)
    | (with_reducible apply Hw.Only.step ?_ (Hw.add_only ..))
    | (with_reducible apply Hw.Only.step ?_ (Hw.dropSlot_only ..))
    | (with_reducible apply Hw.Only.step ?_ (Hw.defect_only ..))
    | (with_reducible apply Hw.Only.step ?_ (Hw.lineFault_only ..))
    | (with_reducible apply Hw.Only.step ?_ (Hw.event_only ..))
    | dsimp only
    | split)

theorem Hw.dropSpeed_only (h : Hw) (d p : Nat) (c : Ctx) (k late : Nat) :
    Hw.Only [0x0] [.mbx, .queues, .front, .buckets, .folded, .hwmOn, .leaving, .ports, .changes, .banks, .ctxs, .lineFaults] [.pkg, .eps, .stores, .out] h (Hw.dropSpeed h d p c k late) := by
  unfold Hw.dropSpeed
  try simp only
  repeat' (first
    | with_reducible apply Hw.Only.refl
    | decide
    | (with_reducible apply Hw.Only.ite <;> intro _)
    | (with_reducible apply Hw.Only.ite2 <;> intro _)
    | (with_reducible apply Hw.Only.step ?_ (Hw.add_only ..))
    | (with_reducible apply Hw.Only.step ?_ (Hw.dropSlot_only ..))
    | (with_reducible apply Hw.Only.step ?_ (Hw.defect_only ..))
    | (with_reducible apply Hw.Only.step ?_ (Hw.lineFault_only ..))
    | (with_reducible apply Hw.Only.step ?_ (Hw.event_only ..))
    | dsimp only
    | split)

theorem Hw.pulseFire_only (h : Hw) (d p g t : Nat) :
    Hw.Only [0x70042] [.ports] [.out] h (Hw.pulseFire h d p g t) := by
  unfold Hw.pulseFire
  try simp only
  repeat' (first
    | with_reducible apply Hw.Only.refl
    | decide
    | (with_reducible apply Hw.Only.step ?_ (Hw.add_only ..))
    | (with_reducible apply Hw.Only.step ?_ (Hw.emit_only ..))
    | (with_reducible apply Hw.Only.step ?_ (Hw.onPort_only ..))
    | dsimp only
    | split)

theorem Hw.latchNext_only (h : Hw) (d p : Nat) :
    Hw.Only [0x60020, 0x80002, 0x80003, 0x80004, 0x80005] [.ports] [.out] h (Hw.latchNext h d p) := by
  unfold Hw.latchNext
  try simp only
  repeat' (first
    | with_reducible apply Hw.Only.refl
    | decide
    | (with_reducible apply Hw.Only.ite <;> intro _)
    | (with_reducible apply Hw.Only.ite2 <;> intro _)
    | (with_reducible apply Hw.Only.step ?_ (Hw.emit_only ..))
    | (with_reducible apply Hw.Only.step ?_ (Hw.showPort_only ..))
    | (with_reducible apply Hw.Only.step ?_ (Hw.onPort_only ..))
    | dsimp only
    | split
    | (apply Hw.Only.of_pair; assumption)
    | (apply Hw.Only.of_triple; assumption))

theorem Hw.judgeLine_only (h : Hw) (d p : Nat) (c : Ctx) (a : Arm) :
    Hw.Only [0x0] [.mbx, .queues, .front, .buckets, .folded, .hwmOn, .leaving, .ports, .changes, .banks, .ctxs, .lineFaults] [.pkg, .eps, .stores, .out] h (Hw.judgeLine h d p c a) := by
  unfold Hw.judgeLine
  try simp only
  repeat' (first
    | with_reducible apply Hw.Only.refl
    | decide
    | (with_reducible apply Hw.Only.ite <;> intro _)
    | (with_reducible apply Hw.Only.ite2 <;> intro _)
    | (with_reducible apply Hw.Only.step ?_ (Hw.wr_only ..))
    | (with_reducible apply Hw.Only.step ?_ (Hw.add_only ..))
    | (with_reducible apply Hw.Only.step ?_ (Hw.latchNext_only ..))
    | (with_reducible apply Hw.Only.step ?_ (Hw.pulseFire_only ..))
    | (with_reducible apply Hw.Only.step ?_ (Hw.dropSpeed_only ..))
    | (with_reducible apply Hw.Only.step ?_ (Hw.dropData_only ..))
    | (with_reducible apply Hw.Only.step ?_ (Hw.armPort_only ..))
    | (with_reducible apply Hw.Only.step ?_ (Hw.advance_only ..))
    | (with_reducible apply Hw.Only.step ?_ (Hw.onPort_only ..))
    | dsimp only
    | split
    | (apply Hw.Only.of_pair; assumption)
    | (apply Hw.Only.of_triple; assumption))

theorem Hw.laterPulse_only (h : Hw) (d p : Nat) (f : Firing) (a : Arm) :
    Hw.Only [0x60020, 0x70042, 0x80002, 0x80003, 0x80004, 0x80005] [.ports] [.out] h (Hw.laterPulse h d p f a) := by
  unfold Hw.laterPulse
  try simp only
  repeat' (first
    | with_reducible apply Hw.Only.refl
    | decide
    | (with_reducible apply Hw.Only.ite <;> intro _)
    | (with_reducible apply Hw.Only.ite2 <;> intro _)
    | (with_reducible apply Hw.Only.step ?_ (Hw.latchNext_only ..))
    | (with_reducible apply Hw.Only.step ?_ (Hw.pulseFire_only ..))
    | (with_reducible apply Hw.Only.step ?_ (Hw.prepare_only ..))
    | (with_reducible apply Hw.Only.step ?_ (Hw.onPort_only ..))
    | dsimp only
    | split)

theorem Hw.timerAt_only (h : Hw) (die port : Nat) (a : Arm) :
    Hw.Only [0x0] [.mbx, .queues, .front, .buckets, .folded, .hwmOn, .leaving, .ports, .changes, .banks, .ctxs, .lineFaults] [.pkg, .eps, .stores, .out] h (Hw.timerAt h die port a) := by
  unfold Hw.timerAt
  try simp only
  repeat' (first
    | with_reducible apply Hw.Only.refl
    | decide
    | (with_reducible apply Hw.Only.ite <;> intro _)
    | (with_reducible apply Hw.Only.ite2 <;> intro _)
    | (with_reducible apply Hw.Only.step ?_ (Hw.laterPulse_only ..))
    | (with_reducible apply Hw.Only.step ?_ (Hw.judgeLine_only ..))
    | dsimp only
    | split
    | (apply Hw.Only.of_pair; assumption)
    | (apply Hw.Only.of_triple; assumption))

theorem Hw.timerMatch_only (h : Hw) (die port : Nat) :
    Hw.Only [0x0] [.mbx, .queues, .front, .buckets, .folded, .tbs, .hwmOn, .leaving, .ports, .changes, .banks, .ctxs, .lineFaults] [.clk, .pkg, .eps, .stores, .out] h (Hw.timerMatch h die port) := by
  unfold Hw.timerMatch
  try simp only
  repeat' (first
    | with_reducible apply Hw.Only.refl
    | decide
    | (with_reducible apply Hw.Only.step ?_ (Hw.timerAt_only ..))
    | (with_reducible apply Hw.Only.step ?_ (Hw.refreshPorts_only ..))
    | (with_reducible apply Hw.Only.step ?_ (Hw.stopTests_only ..))
    | (with_reducible apply Hw.Only.step ?_ (Hw.until_only ..))
    | dsimp only
    | split
    | (apply Hw.Only.of_pair; assumption)
    | (apply Hw.Only.of_triple; assumption))

theorem Hw.spitAbort_only (h : Hw) (d cause : Nat) :
    Hw.Only [0x1f, 0x70002] [.front, .buckets, .folded, .spits] [] h (Hw.spitAbort h d cause) := by
  unfold Hw.spitAbort
  try simp only
  repeat' (first
    | with_reducible apply Hw.Only.refl
    | (intro D x hx; cases x <;> first | exact absurd (by decide) hx | exact rfl)
    | decide
    | (with_reducible apply Hw.Only.foldl)
    | (intro (_ : Hw); intro _)
    | (intro (_ : Hw))
    | (with_reducible apply Hw.Only.foldlP)
    | (intro (_ : _ × Hw); intro _)
    | (with_reducible apply Hw.Only.step ?_ (Hw.wr_only ..))
    | (with_reducible apply Hw.Only.step ?_ (Hw.refreshPorts_only ..))
    | (with_reducible apply Hw.Only.step ?_ (Hw.event_only ..))
    | (with_reducible apply Hw.Only.step ?_ (Hw.onDie_only [.spits] _ _ _ ?_))
    | dsimp only
    | split)

theorem Hw.showIn_only (h : Hw) :
    Hw.Only [0x60004] [] [] h (Hw.showIn h) := by
  unfold Hw.showIn
  try simp only
  repeat' (first
    | with_reducible apply Hw.Only.refl
    | decide
    | (with_reducible apply Hw.Only.foldl)
    | (intro (_ : Hw); intro _)
    | (intro (_ : Hw))
    | (with_reducible apply Hw.Only.foldlP)
    | (intro (_ : _ × Hw); intro _)
    | (with_reducible apply Hw.Only.step ?_ (Hw.wr_only ..))
    | dsimp only
    | split)

theorem Hw.acceptIn_only (h : Hw) (i : Nat) (b : Bool) :
    Hw.Only [0x60004] [] [.hsIn, .hsSeen] h (Hw.acceptIn h i b).2 := by
  unfold Hw.acceptIn
  try simp only
  repeat' (first
    | with_reducible apply Hw.Only.refl
    | decide
    | (with_reducible apply Hw.Only.ite <;> intro _)
    | (with_reducible apply Hw.Only.ite2 <;> intro _)
    | (with_reducible apply Hw.Only.step ?_ (Hw.showIn_only ..))
    | dsimp only
    | split
    | (with_reducible apply Hw.Only.step ?_ (Hw.with_hsIn_hsSeen ..)))

theorem Hw.estopRelease_only (h : Hw) :
    Hw.Only [0x1f, 0x60001] [.front, .buckets, .folded, .leaving, .ports] [.ghRelease] h (Hw.estopRelease h) := by
  unfold Hw.estopRelease
  try simp only
  repeat' (first
    | with_reducible apply Hw.Only.refl
    | (intro D x hx; cases x <;> first | exact absurd (by decide) hx | exact rfl)
    | decide
    | (with_reducible apply Hw.Only.ite <;> intro _)
    | (with_reducible apply Hw.Only.ite2 <;> intro _)
    | (with_reducible apply Hw.Only.foldl)
    | (intro (_ : Hw); intro _)
    | (intro (_ : Hw))
    | (with_reducible apply Hw.Only.foldlP)
    | (intro (_ : _ × Hw); intro _)
    | (with_reducible apply Hw.Only.step ?_ (Hw.wr_only ..))
    | (with_reducible apply Hw.Only.step ?_ (Hw.enterHeld_only ..))
    | (with_reducible apply Hw.Only.step ?_ (Hw.eventPkg_only ..))
    | (with_reducible apply Hw.Only.step ?_ (Hw.onDie_only [.leaving] _ _ _ ?_))
    | dsimp only
    | split
    | (with_reducible apply Hw.Only.step ?_ (Hw.with_ghRelease ..)))

theorem Hw.pressRun_only (h : Hw) (level : Bool) :
    Hw.Only [0x1f, 0x60001, 0x60004] [.front, .buckets, .folded, .leaving, .ports] [.hsIn, .ghRelease, .hsSeen] h (Hw.pressRun h level) := by
  unfold Hw.pressRun
  try simp only
  repeat' (first
    | with_reducible apply Hw.Only.refl
    | decide
    | (with_reducible apply Hw.Only.ite <;> intro _)
    | (with_reducible apply Hw.Only.ite2 <;> intro _)
    | (with_reducible apply Hw.Only.foldl)
    | (intro (_ : Hw); intro _)
    | (intro (_ : Hw))
    | (with_reducible apply Hw.Only.foldlP)
    | (intro (_ : _ × Hw); intro _)
    | (with_reducible apply Hw.Only.step ?_ (Hw.estopRelease_only ..))
    | (with_reducible apply Hw.Only.step ?_ (Hw.acceptIn_only ..))
    | (with_reducible apply Hw.Only.step ?_ (Hw.holdCheck_only ..))
    | (with_reducible apply Hw.Only.step ?_ (Hw.eventPkg_only ..))
    | dsimp only
    | split
    | (with_reducible apply Hw.Only.step ?_ (Hw.with_ghRelease ..)))

theorem Hw.headParked_only (h : Hw) (level : Bool) :
    Hw.Only [0x1f, 0x60001, 0x60004, 0x70002] [.front, .buckets, .folded, .leaving, .ports, .spits] [.hsIn, .hsSeen] h (Hw.headParked h level) := by
  unfold Hw.headParked
  try simp only
  repeat' (first
    | with_reducible apply Hw.Only.refl
    | decide
    | (with_reducible apply Hw.Only.ite <;> intro _)
    | (with_reducible apply Hw.Only.ite2 <;> intro _)
    | (with_reducible apply Hw.Only.foldl)
    | (intro (_ : Hw); intro _)
    | (intro (_ : Hw))
    | (with_reducible apply Hw.Only.foldlP)
    | (intro (_ : _ × Hw); intro _)
    | (with_reducible apply Hw.Only.step ?_ (Hw.acceptIn_only ..))
    | (with_reducible apply Hw.Only.step ?_ (Hw.spitAbort_only ..))
    | (with_reducible apply Hw.Only.step ?_ (Hw.holdCheck_only ..))
    | (with_reducible apply Hw.Only.step ?_ (Hw.eventPkg_only ..))
    | dsimp only
    | split)

theorem Hw.estop_only (h : Hw) :
    Hw.Only [0x1f, 0x60001, 0x60004, 0x70002] [.front, .buckets, .folded, .leaving, .ports, .spits] [.hsIn, .ghRelease, .hsSeen] h (Hw.estop h) := by
  unfold Hw.estop
  try simp only
  repeat' (first
    | with_reducible apply Hw.Only.refl
    | (intro D x hx; cases x <;> first | exact absurd (by decide) hx | exact rfl)
    | decide
    | (with_reducible apply Hw.Only.ite <;> intro _)
    | (with_reducible apply Hw.Only.ite2 <;> intro _)
    | (with_reducible apply Hw.Only.foldl)
    | (intro (_ : Hw); intro _)
    | (intro (_ : Hw))
    | (with_reducible apply Hw.Only.foldlP)
    | (intro (_ : _ × Hw); intro _)
    | (with_reducible apply Hw.Only.step ?_ (Hw.wr_only ..))
    | (with_reducible apply Hw.Only.step ?_ (Hw.acceptIn_only ..))
    | (with_reducible apply Hw.Only.step ?_ (Hw.spitAbort_only ..))
    | (with_reducible apply Hw.Only.step ?_ (Hw.disarm_only ..))
    | (with_reducible apply Hw.Only.step ?_ (Hw.staleAll_only ..))
    | (with_reducible apply Hw.Only.step ?_ (Hw.eventPkg_only ..))
    | (with_reducible apply Hw.Only.step ?_ (Hw.onDie_only [.leaving] _ _ _ ?_))
    | dsimp only
    | split
    | (with_reducible apply Hw.Only.step ?_ (Hw.with_ghRelease ..)))

/-! ### Heads -/

theorem Hw.sendLine_only (h : Hw) (d p k : Nat) (levels : List Nat) :
    Hw.Only [0x70040] [.ports] [.out] h (Hw.sendLine h d p k levels) := by
  unfold Hw.sendLine
  try simp only
  repeat' (first
    | with_reducible apply Hw.Only.refl
    | decide
    | (with_reducible apply Hw.Only.ite <;> intro _)
    | (with_reducible apply Hw.Only.ite2 <;> intro _)
    | (with_reducible apply Hw.Only.step ?_ (Hw.add_only ..))
    | (with_reducible apply Hw.Only.step ?_ (Hw.emit_only ..))
    | (with_reducible apply Hw.Only.step ?_ (Hw.onPort_only ..))
    | dsimp only
    | split)

theorem Hw.slotShift_only (h : Hw) (die port : Nat) :
    Hw.Only [0x60020, 0x70040, 0x80002, 0x80003, 0x80004, 0x80005] [.ports] [.out] h (Hw.slotShift h die port) := by
  unfold Hw.slotShift
  try simp only
  repeat' (first
    | with_reducible apply Hw.Only.refl
    | decide
    | (with_reducible apply Hw.Only.ite <;> intro _)
    | (with_reducible apply Hw.Only.ite2 <;> intro _)
    | (with_reducible apply Hw.Only.step ?_ (Hw.sendLine_only ..))
    | (with_reducible apply Hw.Only.step ?_ (Hw.latchNext_only ..))
    | (with_reducible apply Hw.Only.step ?_ (Hw.onPort_only ..))
    | dsimp only
    | split
    | (apply Hw.Only.of_pair; assumption)
    | (apply Hw.Only.of_triple; assumption))

theorem Hw.latchLost_only (h : Hw) (d p : Nat) :
    Hw.Only [] [.ports] [] h (Hw.latchLost h d p) := by
  unfold Hw.latchLost
  try simp only
  repeat' (first
    | with_reducible apply Hw.Only.refl
    | decide
    | (with_reducible apply Hw.Only.step ?_ (Hw.onPort_only ..))
    | dsimp only
    | split)

theorem Hw.portUp_only (h : Hw) (d p : Nat) :
    Hw.Only [0x70002] [.ports] [] h (Hw.portUp h d p) := by
  unfold Hw.portUp
  try simp only
  repeat' (first
    | with_reducible apply Hw.Only.refl
    | decide
    | (with_reducible apply Hw.Only.ite <;> intro _)
    | (with_reducible apply Hw.Only.ite2 <;> intro _)
    | (with_reducible apply Hw.Only.step ?_ (Hw.wr_only ..))
    | (with_reducible apply Hw.Only.step ?_ (Hw.latchLost_only ..))
    | (with_reducible apply Hw.Only.step ?_ (Hw.refreshPorts_only ..))
    | (with_reducible apply Hw.Only.step ?_ (Hw.onPort_only ..))
    | dsimp only
    | split)

theorem Hw.spitOff_only (h : Hw) (d : Nat) (ports : List Nat) :
    Hw.Only [0x70002] [.ports] [] h (Hw.spitOff h d ports) := by
  unfold Hw.spitOff
  try simp only
  repeat' (first
    | with_reducible apply Hw.Only.refl
    | decide
    | (with_reducible apply Hw.Only.ite <;> intro _)
    | (with_reducible apply Hw.Only.ite2 <;> intro _)
    | (with_reducible apply Hw.Only.foldl)
    | (intro (_ : Hw); intro _)
    | (intro (_ : Hw))
    | (with_reducible apply Hw.Only.foldlP)
    | (intro (_ : _ × Hw); intro _)
    | (with_reducible apply Hw.Only.step ?_ (Hw.wr_only ..))
    | (with_reducible apply Hw.Only.step ?_ (Hw.latchLost_only ..))
    | (with_reducible apply Hw.Only.step ?_ (Hw.refreshPorts_only ..))
    | dsimp only
    | split)

theorem Hw.spitDrop_only (h : Hw) (d : Nat) (gone : Nat → Bool) :
    Hw.Only [0x1f, 0x70002] [.front, .buckets, .folded, .ports, .spits] [] h (Hw.spitDrop h d gone) := by
  unfold Hw.spitDrop
  try simp only
  repeat' (first
    | with_reducible apply Hw.Only.refl
    | (intro D x hx; cases x <;> first | exact absurd (by decide) hx | exact rfl)
    | decide
    | (with_reducible apply Hw.Only.foldl)
    | (intro (_ : Hw); intro _)
    | (intro (_ : Hw))
    | (with_reducible apply Hw.Only.step ?_ (Hw.spitOff_only ..))
    | (with_reducible apply Hw.Only.step ?_ (Hw.event_only ..))
    | (with_reducible apply Hw.Only.step ?_ (Hw.onDie_only [.spits] _ _ _ ?_))
    | dsimp only
    | split)

theorem Hw.dropQueries_only (h : Hw) (d p : Nat) :
    Hw.Only [] [.ports] [.replies] h (Hw.dropQueries h d p) := by
  unfold Hw.dropQueries
  try simp only
  repeat' (first
    | with_reducible apply Hw.Only.refl
    | decide
    | (with_reducible apply Hw.Only.foldl)
    | (intro (_ : Hw); intro _)
    | (intro (_ : Hw))
    | (with_reducible apply Hw.Only.step ?_ (Hw.putReply_only ..))
    | (with_reducible apply Hw.Only.step ?_ (Hw.onPort_only ..))
    | dsimp only
    | split)

theorem Hw.portFault_only (h : Hw) (d p b : Nat) :
    Hw.Only [0x1f, 0x60003, 0x60020, 0x70002, 0x70031, 0x80002, 0x80003, 0x80004, 0x80005, 0xc0022, 0xc0023, 0xc0025] [.front, .buckets, .folded, .ports, .spits, .ctxs, .stop] [.replies, .hsPins] h (Hw.portFault h d p b) := by
  unfold Hw.portFault
  try simp only
  repeat' (first
    | with_reducible apply Hw.Only.refl
    | (intro D x hx; cases x <;> first | exact absurd (by decide) hx | exact rfl)
    | decide
    | (with_reducible apply Hw.Only.ite <;> intro _)
    | (with_reducible apply Hw.Only.ite2 <;> intro _)
    | (with_reducible apply Hw.Only.step ?_ (Hw.wr_only ..))
    | (with_reducible apply Hw.Only.step ?_ (Hw.startStop_only ..))
    | (with_reducible apply Hw.Only.step ?_ (Hw.showPort_only ..))
    | (with_reducible apply Hw.Only.step ?_ (Hw.onPort_only ..))
    | (with_reducible apply Hw.Only.step ?_ (Hw.event_only ..))
    | (with_reducible apply Hw.Only.step ?_ (Hw.spitDrop_only ..))
    | (with_reducible apply Hw.Only.step ?_ (Hw.dropQueries_only ..))
    | dsimp only
    | split
    | (apply Hw.Only.of_pair; assumption)
    | (apply Hw.Only.of_triple; assumption))

theorem Hw.queryAnswer_only (h : Hw) (d p : Nat) (q : Query) (data : List Byte) :
    Hw.Only [0x1f, 0x70021, 0x70022, 0x70023] [.front, .buckets, .folded, .ports] [.blks] h (Hw.queryAnswer h d p q data) := by
  unfold Hw.queryAnswer
  try simp only
  repeat' (first
    | with_reducible apply Hw.Only.refl
    | decide
    | (with_reducible apply Hw.Only.ite <;> intro _)
    | (with_reducible apply Hw.Only.ite2 <;> intro _)
    | (with_reducible apply Hw.Only.step ?_ (Hw.wr_only ..))
    | (with_reducible apply Hw.Only.step ?_ (Hw.setBlk_only ..))
    | (with_reducible apply Hw.Only.step ?_ (Hw.onPort_only ..))
    | (with_reducible apply Hw.Only.step ?_ (Hw.event_only ..))
    | dsimp only
    | split)

theorem Hw.queryEnd_only (h : Hw) (d p : Nat) (q : Query) (result : Nat) (data : List Byte) :
    Hw.Only [0x1f, 0x60003, 0x60020, 0x70002, 0x70021, 0x70022, 0x70023, 0x70031, 0x70043, 0x80002, 0x80003, 0x80004, 0x80005, 0xc0022, 0xc0023, 0xc0025] [.front, .buckets, .folded, .ports, .spits, .ctxs, .stop] [.blks, .replies, .hsPins] h (Hw.queryEnd h d p q result data) := by
  unfold Hw.queryEnd
  try simp only
  repeat' (first
    | with_reducible apply Hw.Only.refl
    | decide
    | (with_reducible apply Hw.Only.ite <;> intro _)
    | (with_reducible apply Hw.Only.ite2 <;> intro _)
    | (with_reducible apply Hw.Only.step ?_ (Hw.wr_only ..))
    | (with_reducible apply Hw.Only.step ?_ (Hw.add_only ..))
    | (with_reducible apply Hw.Only.step ?_ (Hw.putReply_only ..))
    | (with_reducible apply Hw.Only.step ?_ (Hw.queryAnswer_only ..))
    | (with_reducible apply Hw.Only.step ?_ (Hw.portFault_only ..))
    | (with_reducible apply Hw.Only.step ?_ (Hw.latchLost_only ..))
    | (with_reducible apply Hw.Only.step ?_ (Hw.refreshPorts_only ..))
    | (with_reducible apply Hw.Only.step ?_ (Hw.onPort_only ..))
    | (with_reducible apply Hw.Only.step ?_ (Hw.event_only ..))
    | dsimp only
    | split
    | (apply Hw.Only.of_pair; assumption)
    | (apply Hw.Only.of_triple; assumption))

theorem hpCtrl_only {C : List Nat} {F : List DieRec} {G : List HwRec} {act : Hw → Nat → Hw} (H : ∀ h p, Hw.Only C F G h (act h p)) (ports : Nat)
    (check : Nat → Option Status) (h : Hw) : Hw.Only C F G h (hpCtrl ports check act h).2 := by
  unfold hpCtrl refuse
  split
  · exact .refl _ _ _ _
  · split
    · exact .refl _ _ _ _
    · exact .foldl (.refl _ _ _ _) H _

theorem Hw.portOff_only (h : Hw) (d p : Nat) :
    Hw.Only [0x1f, 0x20005, 0x20010, 0x20013, 0x20014, 0x20015, 0x20016, 0x60026, 0x60027, 0x70001, 0x70002, 0x70031] [.queues, .front, .buckets, .folded, .ports] [.replies, .eps, .stores, .out] h (Hw.portOff h d p) := by
  unfold Hw.portOff
  try simp only
  repeat' (first
    | with_reducible apply Hw.Only.refl
    | decide
    | (with_reducible apply Hw.Only.ite <;> intro _)
    | (with_reducible apply Hw.Only.ite2 <;> intro _)
    | (with_reducible apply Hw.Only.foldl)
    | (intro (_ : Hw); intro _)
    | (intro (_ : Hw))
    | (with_reducible apply Hw.Only.foldlP)
    | (intro (_ : _ × Hw); intro _)
    | (with_reducible apply Hw.Only.step ?_ (Hw.wr_only ..))
    | (with_reducible apply Hw.Only.step ?_ (Hw.putReply_only ..))
    | (with_reducible apply Hw.Only.step ?_ (Hw.writeLost_only ..))
    | (with_reducible apply Hw.Only.step ?_ (Hw.onPort_only ..))
    | (with_reducible apply Hw.Only.step ?_ (Hw.dropQueries_only ..))
    | dsimp only
    | split
    | (apply Hw.Only.of_pair; assumption)
    | (apply Hw.Only.of_triple; assumption))

theorem Hw.loseSlots_only (h : Hw) (d p : Nat) (c : Ctx) (n : Nat) :
    Hw.Only [0x0] [.mbx, .queues, .front, .buckets, .folded, .hwmOn, .leaving, .ports, .changes, .banks, .ctxs] [.pkg, .eps, .stores, .out] h (Hw.loseSlots h d p c n) := by
  unfold Hw.loseSlots
  try simp only
  repeat' (first
    | with_reducible apply Hw.Only.refl
    | decide
    | (with_reducible apply Hw.Only.ite <;> intro _)
    | (with_reducible apply Hw.Only.ite2 <;> intro _)
    | (with_reducible apply Hw.Only.step ?_ (Hw.add_only ..))
    | (with_reducible apply Hw.Only.step ?_ (Hw.advance_only ..))
    | (with_reducible apply Hw.Only.step ?_ (Hw.onPort_only ..))
    | dsimp only
    | split
    | (apply Hw.Only.of_pair; assumption)
    | (apply Hw.Only.of_triple; assumption))

theorem Hw.faultPass_only (h : Hw) (d : Nat) :
    Hw.Only [0x0] [.mbx, .queues, .front, .buckets, .folded, .hwmOn, .leaving, .ports, .changes, .banks, .ctxs] [.pkg, .eps, .stores, .out] h (Hw.faultPass h d) := by
  unfold Hw.faultPass
  try simp only
  repeat' (first
    | with_reducible apply Hw.Only.refl
    | decide
    | (with_reducible apply Hw.Only.ite <;> intro _)
    | (with_reducible apply Hw.Only.ite2 <;> intro _)
    | (with_reducible apply Hw.Only.foldl)
    | (intro (_ : Hw); intro _)
    | (intro (_ : Hw))
    | (with_reducible apply Hw.Only.foldlP)
    | (intro (_ : _ × Hw); intro _)
    | (with_reducible apply Hw.Only.step ?_ (Hw.loseSlots_only ..))
    | dsimp only
    | split
    | (apply Hw.Only.of_pair; assumption)
    | (apply Hw.Only.of_triple; assumption))

theorem Hw.portRestart_only (h : Hw) (d p : Nat) :
    Hw.Only [0x0] [.mbx, .queues, .front, .buckets, .folded, .hwmOn, .leaving, .ports, .changes, .banks, .ctxs] [.pkg, .eps, .stores, .out] h (Hw.portRestart h d p) := by
  unfold Hw.portRestart
  try simp only
  repeat' (first
    | with_reducible apply Hw.Only.refl
    | decide
    | (with_reducible apply Hw.Only.ite <;> intro _)
    | (with_reducible apply Hw.Only.ite2 <;> intro _)
    | (with_reducible apply Hw.Only.step ?_ (Hw.wr_only ..))
    | (with_reducible apply Hw.Only.step ?_ (Hw.loseSlots_only ..))
    | (with_reducible apply Hw.Only.step ?_ (Hw.portUp_only ..))
    | (with_reducible apply Hw.Only.step ?_ (Hw.writeLost_only ..))
    | (with_reducible apply Hw.Only.step ?_ (Hw.prepare_only ..))
    | (with_reducible apply Hw.Only.step ?_ (Hw.onPort_only ..))
    | (with_reducible apply Hw.Only.step ?_ (Hw.event_only ..))
    | dsimp only
    | split
    | (apply Hw.Only.of_pair; assumption)
    | (apply Hw.Only.of_triple; assumption))

theorem hpSpitBody_only (ports lines d : Nat) (hw : Hw) :
    Hw.Only [0x70002] [.ports, .spits] [] hw (hpSpitBody ports lines d hw).2 := by
  unfold hpSpitBody
  try simp only
  repeat' (first
    | with_reducible apply Hw.Only.refl
    | (intro D x hx; cases x <;> first | exact absurd (by decide) hx | exact rfl)
    | decide
    | (with_reducible apply Hw.Only.ite <;> intro _)
    | (with_reducible apply Hw.Only.ite2 <;> intro _)
    | (with_reducible apply Hw.Only.foldl)
    | (intro (_ : Hw); intro _)
    | (intro (_ : Hw))
    | (with_reducible apply Hw.Only.foldlP)
    | (intro (_ : _ × Hw); intro _)
    | (with_reducible apply Hw.Only.step ?_ (Hw.wr_only ..))
    | (with_reducible apply Hw.Only.step ?_ (Hw.latchLost_only ..))
    | (with_reducible apply Hw.Only.step ?_ (refuse_only ..))
    | (with_reducible apply Hw.Only.step ?_ (okWith_only ..))
    | (with_reducible apply Hw.Only.step ?_ (Hw.onDie_only [.spits] _ _ _ ?_))
    | dsimp only
    | split)

theorem Hw.spitPulses_only (h : Hw) (d p t : Nat) :
    Hw.Only [0x70042] [.ports] [.out] h (Hw.spitPulses h d p t) := by
  unfold Hw.spitPulses
  try simp only
  repeat' (first
    | with_reducible apply Hw.Only.refl
    | decide
    | (with_reducible apply Hw.Only.foldl)
    | (intro (_ : Hw); intro _)
    | (intro (_ : Hw))
    | (with_reducible apply Hw.Only.foldlP)
    | (intro (_ : _ × Hw); intro _)
    | (with_reducible apply Hw.Only.step ?_ (Hw.pulseFire_only ..))
    | dsimp only
    | split)

end Sys2Proof.Machine
end

