-- ==== Sys2Proof/Laws/OnlyData.lean ====
section
/-!
SUPPORT. Frames of the operations of the data path, the cameras and the lamps: what each can change, from the frames of the operations it calls.
-/
namespace Sys2Proof.Machine

/-! ### Pipeline -/

theorem Hw.swapDecide_only (h : Hw) (d b : Nat) :
    Hw.Only [0x1f, 0x60020, 0x80002, 0x80003, 0x80004, 0x80005, 0x80020, 0x80021, 0x80022, 0x90001, 0x90002, 0x90004] [.mbx, .front, .buckets, .folded, .ports, .banks, .bankFrom] [.pkg] h (Hw.swapDecide h d b) := by
  unfold Hw.swapDecide
  try simp only
  repeat' (first
    | with_reducible apply Hw.Only.refl
    | (intro D x hx; cases x <;> first | exact absurd (by decide) hx | exact rfl)
    | decide
    | (with_reducible apply Hw.Only.ite <;> intro _)
    | (with_reducible apply Hw.Only.ite2 <;> intro _)
    | (with_reducible apply Hw.Only.foldl)
    | (intro (_ : Hw); intro _)
    | (intro (_ : Hw))
    | (with_reducible apply Hw.Only.foldlP)
    | (intro (_ : _ × Hw); intro _)
    | (with_reducible apply Hw.Only.step ?_ (Hw.wr_only ..))
    | (with_reducible apply Hw.Only.step ?_ (Hw.add_only ..))
    | (with_reducible apply Hw.Only.step ?_ (Hw.retireBank_only ..))
    | (with_reducible apply Hw.Only.step ?_ (Hw.prepare_only ..))
    | (with_reducible apply Hw.Only.step ?_ (Hw.onBank_only ..))
    | (with_reducible apply Hw.Only.step ?_ (Hw.squash_only ..))
    | (with_reducible apply Hw.Only.step ?_ (Hw.movePoint_only ..))
    | (with_reducible apply Hw.Only.step ?_ (Hw.settle_only ..))
    | (with_reducible apply Hw.Only.step ?_ (Hw.event_only ..))
    | (with_reducible apply Hw.Only.step ?_ (Hw.onDie_only [.bankFrom] _ _ _ ?_))
    | dsimp only
    | split
    | (apply Hw.Only.of_pair; assumption)
    | (apply Hw.Only.of_triple; assumption))

theorem Hw.swapsFor_only (h : Hw) (d c k : Nat) :
    Hw.Only [0x1f, 0x60020, 0x80002, 0x80003, 0x80004, 0x80005, 0x80020, 0x80021, 0x80022, 0x90001, 0x90002, 0x90004] [.mbx, .front, .buckets, .folded, .ports, .banks, .bankFrom] [.pkg] h (Hw.swapsFor h d c k) := by
  unfold Hw.swapsFor
  try simp only
  repeat' (first
    | with_reducible apply Hw.Only.refl
    | decide
    | (with_reducible apply Hw.Only.ite <;> intro _)
    | (with_reducible apply Hw.Only.ite2 <;> intro _)
    | (with_reducible apply Hw.Only.foldl)
    | (intro (_ : Hw); intro _)
    | (intro (_ : Hw))
    | (with_reducible apply Hw.Only.foldlP)
    | (intro (_ : _ × Hw); intro _)
    | (with_reducible apply Hw.Only.step ?_ (Hw.swapDecide_only ..))
    | dsimp only
    | split)

theorem tbSwapBody_only (q : Hdr) (ctx bank line d : Nat) (hw : Hw) :
    Hw.Only [0x1f, 0x60020, 0x80002, 0x80003, 0x80004, 0x80005, 0x80020, 0x80021, 0x80022, 0x90001, 0x90002, 0x90003, 0x90004] [.mbx, .front, .buckets, .folded, .ports, .banks, .bankFrom] [.nextId, .pkg] hw (tbSwapBody q ctx bank line d hw).2 := by
  unfold tbSwapBody
  try simp only
  repeat' (first
    | with_reducible apply Hw.Only.refl
    | decide
    | (with_reducible apply Hw.Only.ite <;> intro _)
    | (with_reducible apply Hw.Only.ite2 <;> intro _)
    | (with_reducible apply Hw.Only.step ?_ (Hw.wr_only ..))
    | (with_reducible apply Hw.Only.step ?_ (Hw.swapDecide_only ..))
    | (with_reducible apply Hw.Only.step ?_ (Hw.onBank_only ..))
    | (with_reducible apply Hw.Only.step ?_ (Hw.supersede_only ..))
    | (with_reducible apply Hw.Only.step ?_ (Hw.plDefer_only ..))
    | (with_reducible apply Hw.Only.step ?_ (refuse_only ..))
    | (with_reducible apply Hw.Only.step ?_ (Hw.defer_only ..))
    | dsimp only
    | split
    | (apply Hw.Only.of_pair; assumption)
    | (apply Hw.Only.of_triple; assumption))

theorem Hw.endSwaps_only (h : Hw) (d c : Nat) :
    Hw.Only [0x90003, 0x90004] [] [] h (Hw.endSwaps h d c) := by
  unfold Hw.endSwaps
  try simp only
  repeat' (first
    | with_reducible apply Hw.Only.refl
    | decide
    | (with_reducible apply Hw.Only.ite <;> intro _)
    | (with_reducible apply Hw.Only.ite2 <;> intro _)
    | (with_reducible apply Hw.Only.foldl)
    | (intro (_ : Hw); intro _)
    | (intro (_ : Hw))
    | (with_reducible apply Hw.Only.foldlP)
    | (intro (_ : _ × Hw); intro _)
    | (with_reducible apply Hw.Only.step ?_ (Hw.wr_only ..))
    | dsimp only
    | split)

theorem Hw.beginSwaps_only (h : Hw) (d c : Nat) :
    Hw.Only [0x90003] [.mbx, .bankFrom] [.pkg] h (Hw.beginSwaps h d c) := by
  unfold Hw.beginSwaps
  try simp only
  repeat' (first
    | with_reducible apply Hw.Only.refl
    | (intro D x hx; cases x <;> first | exact absurd (by decide) hx | exact rfl)
    | decide
    | (with_reducible apply Hw.Only.ite <;> intro _)
    | (with_reducible apply Hw.Only.ite2 <;> intro _)
    | (with_reducible apply Hw.Only.foldl)
    | (intro (_ : Hw); intro _)
    | (intro (_ : Hw))
    | (with_reducible apply Hw.Only.foldlP)
    | (intro (_ : _ × Hw); intro _)
    | (with_reducible apply Hw.Only.step ?_ (Hw.wr_only ..))
    | (with_reducible apply Hw.Only.step ?_ (Hw.movePoint_only ..))
    | (with_reducible apply Hw.Only.step ?_ (Hw.onDie_only [.bankFrom] _ _ _ ?_))
    | dsimp only
    | split)

theorem Hw.tbBuild_only (h : Hw) (d b id : Nat) :
    Hw.Only [0x90001] [.banks] [] h (Hw.tbBuild h d b id) := by
  unfold Hw.tbBuild
  try simp only
  repeat' (first
    | with_reducible apply Hw.Only.refl
    | decide
    | (with_reducible apply Hw.Only.step ?_ (Hw.wr_only ..))
    | (with_reducible apply Hw.Only.step ?_ (Hw.onBank_only ..))
    | dsimp only
    | split)

theorem tbBuildBody_only (q : Hdr) (bank d : Nat) (hw : Hw) :
    Hw.Only [0x90001] [.mbx, .banks] [.nextId, .pkg] hw (tbBuildBody q bank d hw).2 := by
  unfold tbBuildBody
  try simp only
  repeat' (first
    | with_reducible apply Hw.Only.refl
    | decide
    | (with_reducible apply Hw.Only.ite <;> intro _)
    | (with_reducible apply Hw.Only.ite2 <;> intro _)
    | (with_reducible apply Hw.Only.step ?_ (Hw.tbBuild_only ..))
    | (with_reducible apply Hw.Only.step ?_ (refuse_only ..))
    | (with_reducible apply Hw.Only.step ?_ (Hw.deferWork_only ..))
    | dsimp only
    | split
    | (apply Hw.Only.of_pair; assumption)
    | (apply Hw.Only.of_triple; assumption))

/-! ### Codec -/

theorem Hw.ctxFail_only (h : Hw) (d c cause port line : Nat) :
    Hw.Only [0x1f, 0x60003, 0xb0001, 0xb0002, 0xb0003, 0xb000b, 0xc0022, 0xc0023, 0xc0025, 0x130001, 0x130002] [.front, .buckets, .folded, .ctxs, .stop] [.pkg, .hsPins, .stores] h (Hw.ctxFail h d c cause port line) := by
  unfold Hw.ctxFail
  try simp only
  repeat' (first
    | with_reducible apply Hw.Only.refl
    | decide
    | (with_reducible apply Hw.Only.ite <;> intro _)
    | (with_reducible apply Hw.Only.ite2 <;> intro _)
    | (with_reducible apply Hw.Only.step ?_ (Hw.wr_only ..))
    | (with_reducible apply Hw.Only.step ?_ (Hw.fixStop_only ..))
    | (with_reducible apply Hw.Only.step ?_ (Hw.startStop_only ..))
    | (with_reducible apply Hw.Only.step ?_ (Hw.ctxTo_only ..))
    | (with_reducible apply Hw.Only.step ?_ (Hw.onCtx_only ..))
    | (with_reducible apply Hw.Only.step ?_ (Hw.event_only ..))
    | dsimp only
    | split
    | (apply Hw.Only.of_pair; assumption)
    | (apply Hw.Only.of_triple; assumption))

theorem Hw.decLand_only (h : Hw) (d : Nat) :
    Hw.Only [0xa0001] [] [] h (Hw.decLand h d) := by
  unfold Hw.decLand
  try simp only
  repeat' (first
    | with_reducible apply Hw.Only.refl
    | decide
    | (with_reducible apply Hw.Only.step ?_ (Hw.wr_only ..))
    | dsimp only
    | split)

theorem Hw.onCodec_only (h : Hw) (d : Nat) (f : Codec → Codec) :
    Hw.Only [] [.codec] [] h (Hw.onCodec h d f) := by
  unfold Hw.onCodec
  try simp only
  repeat' (first
    | with_reducible apply Hw.Only.refl
    | (intro D x hx; cases x <;> first | exact absurd (by decide) hx | exact rfl)
    | decide
    | (with_reducible apply Hw.Only.step ?_ (Hw.onDie_only [.codec] _ _ _ ?_))
    | dsimp only
    | split)

theorem Hw.blkDone_only (h : Hw) (d c addr : Nat) :
    Hw.Only [] [.ctxs] [] h (Hw.blkDone h d c addr) := by
  unfold Hw.blkDone
  try simp only
  repeat' (first
    | with_reducible apply Hw.Only.refl
    | decide
    | (with_reducible apply Hw.Only.ite <;> intro _)
    | (with_reducible apply Hw.Only.ite2 <;> intro _)
    | (with_reducible apply Hw.Only.step ?_ (Hw.onCtx_only ..))
    | dsimp only
    | split)

theorem Hw.decDiscard_only (h : Hw) (d : Nat) (j : DecJob) (cause : Nat) :
    Hw.Only [0x1f, 0xa0006] [.front, .buckets, .folded, .ctxs] [] h (Hw.decDiscard h d j cause) := by
  unfold Hw.decDiscard
  try simp only
  repeat' (first
    | with_reducible apply Hw.Only.refl
    | decide
    | (with_reducible apply Hw.Only.step ?_ (Hw.add_only ..))
    | (with_reducible apply Hw.Only.step ?_ (Hw.blkDone_only ..))
    | (with_reducible apply Hw.Only.step ?_ (Hw.event_only ..))
    | dsimp only
    | split)

theorem Hw.decRelease_only (h : Hw) (d : Nat) (j : DecJob) (c : Ctx) (hd : BlkHead) (out : List Byte) :
    Hw.Only [0xa0003, 0xa0004, 0xa0007, 0xa0008] [.ports, .ctxs] [] h (Hw.decRelease h d j c hd out) := by
  unfold Hw.decRelease
  try simp only
  repeat' (first
    | with_reducible apply Hw.Only.refl
    | decide
    | (with_reducible apply Hw.Only.ite <;> intro _)
    | (with_reducible apply Hw.Only.ite2 <;> intro _)
    | (with_reducible apply Hw.Only.step ?_ (Hw.add_only ..))
    | (with_reducible apply Hw.Only.step ?_ (Hw.blkDone_only ..))
    | (with_reducible apply Hw.Only.step ?_ (Hw.trimRings_only ..))
    | (with_reducible apply Hw.Only.step ?_ (Hw.onPort_only ..))
    | dsimp only
    | split)

theorem Hw.decFail_only (h : Hw) (d e : Nat) (j : DecJob) (kind off : Nat) :
    Hw.Only [0x1f, 0x60003, 0xa0005, 0xb0001, 0xb0002, 0xb0003, 0xb0006, 0xb0007, 0xb000a, 0xb000b, 0xc0020, 0xc0021, 0xc0022, 0xc0023, 0xc0025, 0x130001, 0x130002] [.front, .buckets, .folded, .ctxs, .stop] [.blks, .pkg, .hsPins, .stores] h (Hw.decFail h d e j kind off) := by
  unfold Hw.decFail
  try simp only
  repeat' (first
    | with_reducible apply Hw.Only.refl
    | decide
    | (with_reducible apply Hw.Only.step ?_ (Hw.add_only ..))
    | (with_reducible apply Hw.Only.step ?_ (Hw.setBlk_only ..))
    | (with_reducible apply Hw.Only.step ?_ (Hw.blkDone_only ..))
    | (with_reducible apply Hw.Only.step ?_ (Hw.ctxFail_only ..))
    | (with_reducible apply Hw.Only.step ?_ (Hw.runwayEval_only ..))
    | (with_reducible apply Hw.Only.step ?_ (Hw.event_only ..))
    | dsimp only
    | split)

theorem Hw.verifyEnd_only (h : Hw) (ms : List (List Host.Cell)) (d e : Nat) (j : DecJob) (mem : Bool) :
    Hw.Only [0xa0005] [.codec] [.free, .replies, .stores] h (Hw.verifyEnd h ms d e j mem) := by
  unfold Hw.verifyEnd
  try simp only
  repeat' (first
    | with_reducible apply Hw.Only.refl
    | decide
    | (with_reducible apply Hw.Only.ite <;> intro _)
    | (with_reducible apply Hw.Only.ite2 <;> intro _)
    | (with_reducible apply Hw.Only.step ?_ (Hw.store_only ..))
    | (with_reducible apply Hw.Only.step ?_ (Hw.putReply_only ..))
    | (with_reducible apply Hw.Only.step ?_ (Hw.add_only ..))
    | (with_reducible apply Hw.Only.step ?_ (Hw.fresh_only ..))
    | (with_reducible apply Hw.Only.step ?_ (Hw.onCodec_only ..))
    | dsimp only
    | split
    | (apply Hw.Only.of_pair; assumption)
    | (apply Hw.Only.of_triple; assumption))

theorem Hw.showJobs_only (h : Hw) (d : Nat) :
    Hw.Only [0xa0010, 0xa0011] [] [] h (Hw.showJobs h d) := by
  unfold Hw.showJobs
  try simp only
  repeat' (first
    | with_reducible apply Hw.Only.refl
    | decide
    | (with_reducible apply Hw.Only.ite <;> intro _)
    | (with_reducible apply Hw.Only.ite2 <;> intro _)
    | (with_reducible apply Hw.Only.step ?_ (Hw.wr_only ..))
    | dsimp only
    | split)

theorem Hw.jobEnd_only (h : Hw) (d : Nat) (j : CompJob) (st : Status) :
    Hw.Only [0x1f, 0x20005, 0x20010, 0x20013, 0x20014, 0x20015, 0x20016, 0xa0010, 0xa0011, 0xa0012, 0xa0013] [.mbx, .queues, .front, .buckets, .folded, .codec] [.pkg, .eps, .stores, .out] h (Hw.jobEnd h d j st) := by
  unfold Hw.jobEnd
  try simp only
  repeat' (first
    | with_reducible apply Hw.Only.refl
    | decide
    | (with_reducible apply Hw.Only.ite <;> intro _)
    | (with_reducible apply Hw.Only.ite2 <;> intro _)
    | (with_reducible apply Hw.Only.step ?_ (Hw.add_only ..))
    | (with_reducible apply Hw.Only.step ?_ (Hw.showJobs_only ..))
    | (with_reducible apply Hw.Only.step ?_ (Hw.onCodec_only ..))
    | (with_reducible apply Hw.Only.step ?_ (Hw.settle_only ..))
    | (with_reducible apply Hw.Only.step ?_ (Hw.qPushPacket_only ..))
    | (with_reducible apply Hw.Only.step ?_ (Hw.event_only ..))
    | dsimp only
    | split
    | (apply Hw.Only.of_pair; assumption)
    | (apply Hw.Only.of_triple; assumption))

theorem Hw.countRewind_only (h : Hw) (d q : Nat) :
    Hw.Only [0x20014] [.queues] [] h (Hw.countRewind h d q) := by
  unfold Hw.countRewind
  try simp only
  repeat' (first
    | with_reducible apply Hw.Only.refl
    | decide
    | (with_reducible apply Hw.Only.step ?_ (Hw.add_only ..))
    | (with_reducible apply Hw.Only.step ?_ (Hw.onQ_only ..))
    | dsimp only
    | split)

/-! ### Ingest -/

theorem Hw.tableErr_only (h : Hw) (d table i : Nat) :
    Hw.Only [0x1f] [.front, .buckets, .folded] [] h (Hw.tableErr h d table i) := by
  unfold Hw.tableErr
  try simp only
  repeat' (first
    | with_reducible apply Hw.Only.refl
    | decide
    | (with_reducible apply Hw.Only.step ?_ (Hw.event_only ..))
    | dsimp only
    | split)

theorem Hw.beginCtx_only (h : Hw) (d c : Nat) (x0 : Int) (lo : Nat) :
    Hw.Only [0x1f, 0x60001, 0x60003, 0x60020, 0x70002, 0x80002, 0x80003, 0x80004, 0x80005, 0x90003, 0xb0001, 0xb0002, 0xb0004, 0xb0006, 0xb0007, 0xb000a, 0xb000b, 0xc0020, 0xc0021, 0xc0022, 0xc0023, 0xc0025, 0x130001, 0x130002] [.mbx, .front, .buckets, .folded, .hwmOn, .leaving, .ports, .changes, .bankFrom, .ctxs, .stop] [.pkg, .hsForce, .hsPins, .stores] h (Hw.beginCtx h d c x0 lo) := by
  unfold Hw.beginCtx
  try simp only
  repeat' (first
    | with_reducible apply Hw.Only.refl
    | (intro D x hx; cases x <;> first | exact absurd (by decide) hx | exact rfl)
    | decide
    | (with_reducible apply Hw.Only.ite <;> intro _)
    | (with_reducible apply Hw.Only.foldl)
    | (intro (_ : Hw); intro _)
    | (intro (_ : Hw))
    | (with_reducible apply Hw.Only.foldlP)
    | (intro (_ : _ × Hw); intro _)
    | (with_reducible apply Hw.Only.step ?_ (Hw.wrS_only ..))
    | (with_reducible apply Hw.Only.step ?_ (Hw.beginSwaps_only ..))
    | (with_reducible apply Hw.Only.step ?_ (Hw.refreshPorts_only ..))
    | (with_reducible apply Hw.Only.step ?_ (Hw.startEngine_only ..))
    | (with_reducible apply Hw.Only.step ?_ (Hw.runwayEval_only ..))
    | (with_reducible apply Hw.Only.step ?_ (Hw.stopOn_only ..))
    | (with_reducible apply Hw.Only.step ?_ (Hw.beginChanges_only ..))
    | (with_reducible apply Hw.Only.step ?_ (Hw.ctxTo_only ..))
    | (with_reducible apply Hw.Only.step ?_ (Hw.showPort_only ..))
    | (with_reducible apply Hw.Only.step ?_ (Hw.onCtx_only ..))
    | (with_reducible apply Hw.Only.step ?_ (Hw.onDie_only [.ctxs] _ _ _ ?_))
    | dsimp only
    | split
    | (apply Hw.Only.of_pair; assumption)
    | (apply Hw.Only.of_triple; assumption))

theorem Hw.switchFix_only (h : Hw) (d c out last id : Nat) :
    Hw.Only [0x1f, 0x60001, 0x60003, 0x60020, 0x70002, 0x80002, 0x80003, 0x80004, 0x80005, 0x80020, 0x80021, 0x90003, 0xb0001, 0xb0002, 0xb0004, 0xb0006, 0xb0007, 0xb0009, 0xb000a, 0xb000b, 0xc0020, 0xc0021, 0xc0022, 0xc0023, 0xc0025, 0x130001, 0x130002] [.mbx, .front, .buckets, .folded, .hwmOn, .leaving, .ports, .changes, .bankFrom, .ctxs, .stop] [.pkg, .hsForce, .hsPins, .stores] h (Hw.switchFix h d c out last id).2 := by
  unfold Hw.switchFix
  try simp only
  repeat' (first
    | with_reducible apply Hw.Only.refl
    | decide
    | (with_reducible apply Hw.Only.step ?_ (Hw.wr_only ..))
    | (with_reducible apply Hw.Only.step ?_ (Hw.beginCtx_only ..))
    | (with_reducible apply Hw.Only.step ?_ (Hw.plDefer_only ..))
    | (with_reducible apply Hw.Only.step ?_ (Hw.squash_only ..))
    | (with_reducible apply Hw.Only.step ?_ (Hw.onCtx_only ..))
    | (with_reducible apply Hw.Only.step ?_ (Hw.movePoint_only ..))
    | (with_reducible apply Hw.Only.step ?_ (Hw.settle_only ..))
    | dsimp only
    | split)

theorem Hw.switchFixes_only (h : Hw) (d : Nat) :
    Hw.Only [0x1f, 0x60001, 0x60003, 0x60020, 0x70002, 0x80002, 0x80003, 0x80004, 0x80005, 0x80020, 0x80021, 0x90003, 0xb0001, 0xb0002, 0xb0004, 0xb0006, 0xb0007, 0xb0009, 0xb000a, 0xb000b, 0xc0020, 0xc0021, 0xc0022, 0xc0023, 0xc0025, 0x130001, 0x130002] [.mbx, .front, .buckets, .folded, .hwmOn, .leaving, .ports, .changes, .bankFrom, .ctxs, .stop] [.pkg, .hsForce, .hsPins, .stores] h (Hw.switchFixes h d) := by
  unfold Hw.switchFixes
  try simp only
  repeat' (first
    | with_reducible apply Hw.Only.refl
    | decide
    | (with_reducible apply Hw.Only.foldl)
    | (intro (_ : Hw); intro _)
    | (intro (_ : Hw))
    | (with_reducible apply Hw.Only.foldlP)
    | (intro (_ : _ × Hw); intro _)
    | (with_reducible apply Hw.Only.step ?_ (Hw.switchFix_only ..))
    | dsimp only
    | split
    | (apply Hw.Only.of_pair; assumption)
    | (apply Hw.Only.of_triple; assumption))

theorem Hw.closeCtx_only (h : Hw) (d c : Nat) :
    Hw.Only [0x0] [.mbx, .queues, .front, .buckets, .folded, .hwmOn, .leaving, .ports, .changes, .ctxs, .stop] [.pkg, .eps, .hsPins, .stores, .out] h (Hw.closeCtx h d c) := by
  unfold Hw.closeCtx
  try simp only
  repeat' (first
    | with_reducible apply Hw.Only.refl
    | (intro D x hx; cases x <;> first | exact absurd (by decide) hx | exact rfl)
    | decide
    | (with_reducible apply Hw.Only.ite <;> intro _)
    | (with_reducible apply Hw.Only.ite2 <;> intro _)
    | (with_reducible apply Hw.Only.foldl)
    | (intro (_ : Hw); intro _)
    | (intro (_ : Hw))
    | (with_reducible apply Hw.Only.foldlP)
    | (intro (_ : _ × Hw); intro _)
    | (with_reducible apply Hw.Only.step ?_ (Hw.wr_only ..))
    | (with_reducible apply Hw.Only.step ?_ (Hw.endSwaps_only ..))
    | (with_reducible apply Hw.Only.step ?_ (Hw.refreshPorts_only ..))
    | (with_reducible apply Hw.Only.step ?_ (Hw.runwayEval_only ..))
    | (with_reducible apply Hw.Only.step ?_ (Hw.idleEngine_only ..))
    | (with_reducible apply Hw.Only.step ?_ (Hw.endCtx_only ..))
    | (with_reducible apply Hw.Only.step ?_ (Hw.ctxTo_only ..))
    | (with_reducible apply Hw.Only.step ?_ (Hw.settle_only ..))
    | (with_reducible apply Hw.Only.step ?_ (Hw.onDie_only [.ports, .ctxs] _ _ _ ?_))
    | dsimp only
    | split)

theorem Hw.fireLocked_only (h : Hw) (d : Nat) (c : Ctx) :
    Hw.Only [0x0] [.mbx, .queues, .front, .buckets, .folded, .hwmOn, .leaving, .ports, .changes, .banks, .ctxs, .lineFaults] [.pkg, .eps, .stores, .out] h (Hw.fireLocked h d c) := by
  unfold Hw.fireLocked
  try simp only
  repeat' (first
    | with_reducible apply Hw.Only.refl
    | decide
    | (with_reducible apply Hw.Only.ite <;> intro _)
    | (with_reducible apply Hw.Only.ite2 <;> intro _)
    | (with_reducible apply Hw.Only.foldl)
    | (intro (_ : Hw); intro _)
    | (intro (_ : Hw))
    | (with_reducible apply Hw.Only.foldlP)
    | (intro (_ : _ × Hw); intro _)
    | (with_reducible apply Hw.Only.step ?_ (Hw.judgeLine_only ..))
    | dsimp only
    | split
    | (apply Hw.Only.of_pair; assumption)
    | (apply Hw.Only.of_triple; assumption))

theorem Hw.abortSeam_only (h : Hw) (d : Nat) (c : Ctx) :
    Hw.Only [0x1f, 0x20005, 0x20010, 0x20013, 0x20014, 0x20015, 0x20016, 0x60026, 0x60027] [.queues, .front, .buckets, .folded] [.eps, .stores, .out] h (Hw.abortSeam h d c) := by
  unfold Hw.abortSeam
  try simp only
  repeat' (first
    | with_reducible apply Hw.Only.refl
    | decide
    | (with_reducible apply Hw.Only.ite <;> intro _)
    | (with_reducible apply Hw.Only.ite2 <;> intro _)
    | (with_reducible apply Hw.Only.foldl)
    | (intro (_ : Hw); intro _)
    | (intro (_ : Hw))
    | (with_reducible apply Hw.Only.foldlP)
    | (intro (_ : _ × Hw); intro _)
    | (with_reducible apply Hw.Only.step ?_ (Hw.defect_only ..))
    | dsimp only
    | split
    | (apply Hw.Only.of_pair; assumption)
    | (apply Hw.Only.of_triple; assumption))

theorem Hw.onStream_only (h : Hw) (d s : Nat) (f : Stream → Stream) :
    Hw.Only [] [.streams] [] h (Hw.onStream h d s f) := by
  unfold Hw.onStream
  try simp only
  repeat' (first
    | with_reducible apply Hw.Only.refl
    | (intro D x hx; cases x <;> first | exact absurd (by decide) hx | exact rfl)
    | decide
    | (with_reducible apply Hw.Only.step ?_ (Hw.onDie_only [.streams] _ _ _ ?_))
    | dsimp only
    | split)

theorem Hw.grtReply_only (h : Hw) (d s type : Nat) :
    Hw.Only [0xc0004] [.streams] [.out] h (Hw.grtReply h d s type) := by
  unfold Hw.grtReply
  try simp only
  repeat' (first
    | with_reducible apply Hw.Only.refl
    | decide
    | (with_reducible apply Hw.Only.ite <;> intro _)
    | (with_reducible apply Hw.Only.ite2 <;> intro _)
    | (with_reducible apply Hw.Only.step ?_ (Hw.wr_only ..))
    | (with_reducible apply Hw.Only.step ?_ (Hw.emit_only ..))
    | (with_reducible apply Hw.Only.step ?_ (Hw.onStream_only ..))
    | dsimp only
    | split)

theorem Hw.grtData_only (h : Hw) (d eth ip udp s seq ctx flags off : Nat) (data : List Byte) :
    Hw.Only [0x1f, 0x20005, 0x20010, 0x20013, 0x20014, 0x20015, 0x20016, 0xc0003, 0xc0004, 0xc0010, 0xc0011, 0xc0012, 0xc0026] [.queues, .front, .buckets, .folded, .streams] [.eps, .stores, .out] h (Hw.grtData h d eth ip udp s seq ctx flags off data) := by
  unfold Hw.grtData
  try simp only
  repeat' (first
    | with_reducible apply Hw.Only.refl
    | decide
    | (with_reducible apply Hw.Only.ite <;> intro _)
    | (with_reducible apply Hw.Only.ite2 <;> intro _)
    | (with_reducible apply Hw.Only.step ?_ (Hw.wr_only ..))
    | (with_reducible apply Hw.Only.step ?_ (Hw.add_only ..))
    | (with_reducible apply Hw.Only.step ?_ (Hw.grtReply_only ..))
    | (with_reducible apply Hw.Only.step ?_ (Hw.onStream_only ..))
    | (with_reducible apply Hw.Only.step ?_ (Hw.qPushPacket_only ..))
    | dsimp only
    | split
    | (apply Hw.Only.of_pair; assumption)
    | (apply Hw.Only.of_triple; assumption))

theorem Hw.grtReset_only (h : Hw) (d eth ip udp s seq ctx : Nat) :
    Hw.Only [0xc0003, 0xc0004, 0xc0026] [.streams] [.out] h (Hw.grtReset h d eth ip udp s seq ctx) := by
  unfold Hw.grtReset
  try simp only
  repeat' (first
    | with_reducible apply Hw.Only.refl
    | decide
    | (with_reducible apply Hw.Only.ite <;> intro _)
    | (with_reducible apply Hw.Only.ite2 <;> intro _)
    | (with_reducible apply Hw.Only.step ?_ (Hw.wr_only ..))
    | (with_reducible apply Hw.Only.step ?_ (Hw.add_only ..))
    | (with_reducible apply Hw.Only.step ?_ (Hw.grtReply_only ..))
    | (with_reducible apply Hw.Only.step ?_ (Hw.onStream_only ..))
    | dsimp only
    | split)

theorem Hw.dmaTail_only (h : Hw) (d ep s v : Nat) :
    Hw.Only [] [.streams] [] h (Hw.dmaTail h d ep s v) := by
  unfold Hw.dmaTail
  try simp only
  repeat' (first
    | with_reducible apply Hw.Only.refl
    | decide
    | (with_reducible apply Hw.Only.step ?_ (Hw.onStream_only ..))
    | dsimp only
    | split)

theorem Hw.fragErr_only (h : Hw) (d s : Nat) (n seq : Nat) :
    Hw.Only [0x1f, 0xc0013] [.front, .buckets, .folded, .streams] [] h (Hw.fragErr h d s n seq) := by
  unfold Hw.fragErr
  try simp only
  repeat' (first
    | with_reducible apply Hw.Only.refl
    | decide
    | (with_reducible apply Hw.Only.ite <;> intro _)
    | (with_reducible apply Hw.Only.ite2 <;> intro _)
    | (with_reducible apply Hw.Only.step ?_ (Hw.add_only ..))
    | (with_reducible apply Hw.Only.step ?_ (Hw.onStream_only ..))
    | (with_reducible apply Hw.Only.step ?_ (Hw.event_only ..))
    | dsimp only
    | split)

theorem Hw.fragment_only (h : Hw) (d s : Nat) (ws : List Nat) :
    Hw.Only [0x1f, 0xc0013] [.front, .buckets, .folded, .streams] [] h (Hw.fragment h d s ws) := by
  unfold Hw.fragment
  try simp only
  repeat' (first
    | with_reducible apply Hw.Only.refl
    | decide
    | (with_reducible apply Hw.Only.ite <;> intro _)
    | (with_reducible apply Hw.Only.ite2 <;> intro _)
    | (with_reducible apply Hw.Only.step ?_ (Hw.fragErr_only ..))
    | (with_reducible apply Hw.Only.step ?_ (Hw.onStream_only ..))
    | (with_reducible apply Hw.Only.step ?_ (Hw.event_only ..))
    | dsimp only
    | split)

theorem Hw.streamDone_only (h : Hw) (d s n : Nat) :
    Hw.Only [] [.streams] [] h (Hw.streamDone h d s n) := by
  unfold Hw.streamDone
  try simp only
  repeat' (first
    | with_reducible apply Hw.Only.refl
    | decide
    | (with_reducible apply Hw.Only.ite <;> intro _)
    | (with_reducible apply Hw.Only.ite2 <;> intro _)
    | (with_reducible apply Hw.Only.step ?_ (Hw.onStream_only ..))
    | dsimp only
    | split)

theorem Hw.storeBlock_only (h : Hw) (d s : Nat) (c : Ctx) (hd : BlkHead) (bs : List Byte) (at_ : Nat) :
    Hw.Only [0x0] [.mbx, .queues, .front, .buckets, .folded, .hwmOn, .leaving, .ports, .changes, .bankFrom, .ctxs, .streams, .stop] [.pkg, .eps, .hsForce, .hsPins, .stores, .out] h (Hw.storeBlock h d s c hd bs at_) := by
  unfold Hw.storeBlock
  try simp only
  repeat' (first
    | with_reducible apply Hw.Only.refl
    | decide
    | (with_reducible apply Hw.Only.ite <;> intro _)
    | (with_reducible apply Hw.Only.ite2 <;> intro _)
    | (with_reducible apply Hw.Only.step ?_ (Hw.wr_only ..))
    | (with_reducible apply Hw.Only.step ?_ (Hw.add_only ..))
    | (with_reducible apply Hw.Only.step ?_ (Hw.store_only ..))
    | (with_reducible apply Hw.Only.step ?_ (Hw.streamDone_only ..))
    | (with_reducible apply Hw.Only.step ?_ (Hw.switchFixes_only ..))
    | (with_reducible apply Hw.Only.step ?_ (Hw.refreshPorts_only ..))
    | (with_reducible apply Hw.Only.step ?_ (Hw.runwayEval_only ..))
    | (with_reducible apply Hw.Only.step ?_ (Hw.ctxDone_only ..))
    | (with_reducible apply Hw.Only.step ?_ (Hw.onCtx_only ..))
    | dsimp only
    | split)

theorem Hw.takeBlock_only (h : Hw) (d s : Nat) (bs : List Byte) :
    Hw.Only [0x0] [.mbx, .queues, .front, .buckets, .folded, .hwmOn, .leaving, .ports, .changes, .bankFrom, .ctxs, .streams, .stop] [.pkg, .eps, .hsForce, .hsPins, .stores, .out] h (Hw.takeBlock h d s bs) := by
  unfold Hw.takeBlock
  try simp only
  repeat' (first
    | with_reducible apply Hw.Only.refl
    | decide
    | (with_reducible apply Hw.Only.ite <;> intro _)
    | (with_reducible apply Hw.Only.ite2 <;> intro _)
    | (with_reducible apply Hw.Only.step ?_ (Hw.add_only ..))
    | (with_reducible apply Hw.Only.step ?_ (Hw.storeBlock_only ..))
    | (with_reducible apply Hw.Only.step ?_ (Hw.streamDone_only ..))
    | (with_reducible apply Hw.Only.step ?_ (Hw.ctxFail_only ..))
    | (with_reducible apply Hw.Only.step ?_ (Hw.runwayEval_only ..))
    | (with_reducible apply Hw.Only.step ?_ (Hw.event_only ..))
    | dsimp only
    | split
    | (apply Hw.Only.of_pair; assumption)
    | (apply Hw.Only.of_triple; assumption))

/-! ### Camera -/

theorem Hw.onCam_only (h : Hw) (d c : Nat) (f : Cam → Cam) :
    Hw.Only [] [.cams] [] h (Hw.onCam h d c f) := by
  unfold Hw.onCam
  try simp only
  repeat' (first
    | with_reducible apply Hw.Only.refl
    | (intro D x hx; cases x <;> first | exact absurd (by decide) hx | exact rfl)
    | decide
    | (with_reducible apply Hw.Only.step ?_ (Hw.onDie_only [.cams] _ _ _ ?_))
    | dsimp only
    | split)

theorem Hw.camTo_only (h : Hw) (d c new : Nat) :
    Hw.Only [0x1f, 0xd0001] [.front, .buckets, .folded] [] h (Hw.camTo h d c new) := by
  unfold Hw.camTo
  try simp only
  repeat' (first
    | with_reducible apply Hw.Only.refl
    | decide
    | (with_reducible apply Hw.Only.step ?_ (Hw.wr_only ..))
    | (with_reducible apply Hw.Only.step ?_ (Hw.event_only ..))
    | dsimp only
    | split)

theorem Hw.setSlot_only (h : Hw) (d c i v : Nat) :
    Hw.Only [0xd0012] [] [] h (Hw.setSlot h d c i v) := by
  unfold Hw.setSlot
  try simp only
  repeat' (first
    | with_reducible apply Hw.Only.refl
    | decide
    | (with_reducible apply Hw.Only.step ?_ (Hw.wr_only ..))
    | dsimp only
    | split)

theorem Hw.listStart_only (h : Hw) (d c s : Nat) :
    Hw.Only [0x1f] [.front, .buckets, .folded, .cams] [.out] h (Hw.listStart h d c s) := by
  unfold Hw.listStart
  try simp only
  repeat' (first
    | with_reducible apply Hw.Only.refl
    | decide
    | (with_reducible apply Hw.Only.ite <;> intro _)
    | (with_reducible apply Hw.Only.ite2 <;> intro _)
    | (with_reducible apply Hw.Only.foldl)
    | (intro (_ : Hw); intro _)
    | (intro (_ : Hw))
    | (with_reducible apply Hw.Only.foldlP)
    | (intro (_ : _ × Hw); intro _)
    | (with_reducible apply Hw.Only.step ?_ (Hw.emit_only ..))
    | (with_reducible apply Hw.Only.step ?_ (Hw.onCam_only ..))
    | (with_reducible apply Hw.Only.step ?_ (Hw.event_only ..))
    | dsimp only
    | split
    | (apply Hw.Only.of_pair; assumption)
    | (apply Hw.Only.of_triple; assumption))

theorem Hw.applyLate_only (h : Hw) (d c : Nat) (a : Apply) (shift : Bool) :
    Hw.Only [0x1f] [.mbx, .front, .buckets, .folded, .cams] [.pkg, .out] h (Hw.applyLate h d c a shift) := by
  unfold Hw.applyLate
  try simp only
  repeat' (first
    | with_reducible apply Hw.Only.refl
    | decide
    | (with_reducible apply Hw.Only.ite <;> intro _)
    | (with_reducible apply Hw.Only.ite2 <;> intro _)
    | (with_reducible apply Hw.Only.step ?_ (Hw.window_only ..))
    | (with_reducible apply Hw.Only.step ?_ (Hw.onCam_only ..))
    | (with_reducible apply Hw.Only.step ?_ (Hw.movePoint_only ..))
    | (with_reducible apply Hw.Only.step ?_ (Hw.event_only ..))
    | dsimp only
    | split)

theorem Hw.record_only (h : Hw) (queue agent : Nat) (f : Frame) (kind part : Nat) (body : List Nat) :
    Hw.Only [0x1f, 0x20005, 0x20010, 0x20013, 0x20014, 0x20015, 0x20016, 0xf0010, 0xf0011] [.queues, .front, .buckets, .folded] [.eps, .stores, .out] h (Hw.record h queue agent f kind part body).2 := by
  unfold Hw.record
  try simp only
  repeat' (first
    | with_reducible apply Hw.Only.refl
    | decide
    | (with_reducible apply Hw.Only.ite <;> intro _)
    | (with_reducible apply Hw.Only.ite2 <;> intro _)
    | (with_reducible apply Hw.Only.step ?_ (Hw.add_only ..))
    | (with_reducible apply Hw.Only.step ?_ (Hw.records_only ..))
    | (with_reducible apply Hw.Only.step ?_ (Hw.qPushPacket_only ..))
    | (with_reducible apply Hw.Only.step ?_ (Hw.event_only ..))
    | dsimp only
    | split
    | (apply Hw.Only.of_pair; assumption)
    | (apply Hw.Only.of_triple; assumption))

theorem Hw.records_only (h : Hw) (f : Frame) (l : List (Nat × Nat × List Nat)) :
    Hw.Only [0x1f, 0x20005, 0x20010, 0x20013, 0x20014, 0x20015, 0x20016, 0xf0010, 0xf0011] [.queues, .front, .buckets, .folded] [.eps, .stores, .out] h (Hw.records h f l).2 := by
  unfold Hw.records
  try simp only
  repeat' (first
    | with_reducible apply Hw.Only.refl
    | decide
    | (with_reducible apply Hw.Only.foldl)
    | (intro (_ : Hw); intro _)
    | (intro (_ : Hw))
    | (with_reducible apply Hw.Only.foldlP)
    | (intro (_ : _ × Hw); intro _)
    | (with_reducible apply Hw.Only.step ?_ (Hw.record_only ..))
    | dsimp only
    | split
    | (apply Hw.Only.of_pair; assumption)
    | (apply Hw.Only.of_triple; assumption))

theorem Hw.descriptor_only (h : Hw) (f : Frame) (content slot bytesPer : Nat) :
    Hw.Only [0x1f, 0x20005, 0x20010, 0x20013, 0x20014, 0x20015, 0x20016, 0xd0012, 0xf0010, 0xf0011] [.queues, .front, .buckets, .folded] [.eps, .stores, .out] h (Hw.descriptor h f content slot bytesPer) := by
  unfold Hw.descriptor
  try simp only
  repeat' (first
    | with_reducible apply Hw.Only.refl
    | decide
    | (with_reducible apply Hw.Only.ite <;> intro _)
    | (with_reducible apply Hw.Only.ite2 <;> intro _)
    | (with_reducible apply Hw.Only.step ?_ (Hw.record_only ..))
    | (with_reducible apply Hw.Only.step ?_ (Hw.setSlot_only ..))
    | dsimp only
    | split
    | (apply Hw.Only.of_pair; assumption)
    | (apply Hw.Only.of_triple; assumption))

theorem Hw.closeFrame_only (h : Hw) (d c : Nat) (noFe : Bool) :
    Hw.Only [0x1f, 0x20005, 0x20010, 0x20013, 0x20014, 0x20015, 0x20016, 0xd0020, 0xd0021, 0xd0022, 0xd0023, 0xf0010, 0xf0011] [.queues, .front, .buckets, .folded, .cams] [.eps, .stores, .out] h (Hw.closeFrame h d c noFe) := by
  unfold Hw.closeFrame
  try simp only
  repeat' (first
    | with_reducible apply Hw.Only.refl
    | decide
    | (with_reducible apply Hw.Only.ite <;> intro _)
    | (with_reducible apply Hw.Only.ite2 <;> intro _)
    | (with_reducible apply Hw.Only.step ?_ (Hw.add_only ..))
    | (with_reducible apply Hw.Only.step ?_ (Hw.records_only ..))
    | (with_reducible apply Hw.Only.step ?_ (Hw.onCam_only ..))
    | (with_reducible apply Hw.Only.step ?_ (Hw.event_only ..))
    | dsimp only
    | split
    | (apply Hw.Only.of_pair; assumption)
    | (apply Hw.Only.of_triple; assumption))

theorem Hw.window_only (h : Hw) (d c n : Nat) :
    Hw.Only [0x1f] [.front, .buckets, .folded, .cams] [.out] h (Hw.window h d c n) := by
  unfold Hw.window
  try simp only
  repeat' (first
    | with_reducible apply Hw.Only.refl
    | decide
    | (with_reducible apply Hw.Only.ite <;> intro _)
    | (with_reducible apply Hw.Only.ite2 <;> intro _)
    | (with_reducible apply Hw.Only.step ?_ (Hw.listStart_only ..))
    | dsimp only
    | split
    | (apply Hw.Only.of_pair; assumption)
    | (apply Hw.Only.of_triple; assumption))

theorem Hw.lateEnd_only (h : Hw) (d c : Nat) :
    Hw.Only [0x1f] [.front, .buckets, .folded, .cams] [.out] h (Hw.lateEnd h d c) := by
  unfold Hw.lateEnd
  try simp only
  repeat' (first
    | with_reducible apply Hw.Only.refl
    | decide
    | (with_reducible apply Hw.Only.ite <;> intro _)
    | (with_reducible apply Hw.Only.step ?_ (Hw.window_only ..))
    | dsimp only
    | split)

theorem Hw.lateLists_only (h : Hw) (d c n : Nat) :
    Hw.Only [0x1f] [.mbx, .front, .buckets, .folded, .cams] [.pkg, .out] h (Hw.lateLists h d c n) := by
  unfold Hw.lateLists
  try simp only
  repeat' (first
    | with_reducible apply Hw.Only.refl
    | decide
    | (with_reducible apply Hw.Only.ite <;> intro _)
    | (with_reducible apply Hw.Only.ite2 <;> intro _)
    | (with_reducible apply Hw.Only.foldl)
    | (intro (_ : Hw); intro _)
    | (intro (_ : Hw))
    | (with_reducible apply Hw.Only.foldlP)
    | (intro (_ : _ × Hw); intro _)
    | (with_reducible apply Hw.Only.step ?_ (Hw.window_only ..))
    | (with_reducible apply Hw.Only.step ?_ (Hw.applyLate_only ..))
    | (with_reducible apply Hw.Only.step ?_ (Hw.onCam_only ..))
    | dsimp only
    | split)

theorem Hw.takeSet_only (h : Hw) (d c n : Nat) :
    Hw.Only [0x1f, 0xd0014] [.mbx, .front, .buckets, .folded, .cams] [.pkg] h (Hw.takeSet h d c n) := by
  unfold Hw.takeSet
  try simp only
  repeat' (first
    | with_reducible apply Hw.Only.refl
    | decide
    | (with_reducible apply Hw.Only.step ?_ (Hw.wr_only ..))
    | (with_reducible apply Hw.Only.step ?_ (Hw.onCam_only ..))
    | (with_reducible apply Hw.Only.step ?_ (Hw.settle_only ..))
    | (with_reducible apply Hw.Only.step ?_ (Hw.event_only ..))
    | dsimp only
    | split
    | (apply Hw.Only.of_pair; assumption)
    | (apply Hw.Only.of_triple; assumption))

theorem Hw.takeSlot_only (h : Hw) (d c : Nat) (f : Frame) :
    Hw.Only [0x1f, 0xd0012] [.front, .buckets, .folded] [] h (Hw.takeSlot h d c f).2.2 := by
  unfold Hw.takeSlot
  try simp only
  repeat' (first
    | with_reducible apply Hw.Only.refl
    | decide
    | (with_reducible apply Hw.Only.step ?_ (Hw.setSlot_only ..))
    | (with_reducible apply Hw.Only.step ?_ (Hw.event_only ..))
    | dsimp only
    | split
    | (apply Hw.Only.of_pair; assumption)
    | (apply Hw.Only.of_triple; assumption))

theorem Hw.openFrame_only (h : Hw) (d c sensor : Nat) :
    Hw.Only [0x1f, 0xd0002, 0xd0012, 0xd0014, 0xd002a, 0xe0006, 0xe0007] [.mbx, .front, .buckets, .folded, .cams] [.pkg, .out] h (Hw.openFrame h d c sensor) := by
  unfold Hw.openFrame
  repeat' (first
    | with_reducible apply Hw.Only.refl
    | decide
    | with_reducible assumption
    | (extract_lets +onlyGivenNames x; refine Hw.Only.cut (y := x) ?_ ?_; all_goals first | (intro hx; clear_value x) | subst x)
    | (extract_lets +onlyGivenNames x; refine Hw.Only.cut (y := x.2) ?_ ?_; all_goals first | (intro hx; clear_value x) | subst x)
    | (extract_lets +onlyGivenNames x; refine Hw.Only.cut (y := x.2.2) ?_ ?_; all_goals first | (intro hx; clear_value x) | subst x)
    | (extract_lets +onlyGivenNames x; clear_value x)
    | (with_reducible apply Hw.Only.ite <;> intro _)
    | (with_reducible apply Hw.Only.ite2 <;> intro _)
    | (with_reducible apply Hw.Only.step ?_ (Hw.wr_only ..))
    | (with_reducible apply Hw.Only.step ?_ (Hw.add_only ..))
    | (with_reducible apply Hw.Only.step ?_ (Hw.takeSlot_only ..))
    | (with_reducible apply Hw.Only.step ?_ (Hw.takeSet_only ..))
    | (with_reducible apply Hw.Only.step ?_ (Hw.lateLists_only ..))
    | (with_reducible apply Hw.Only.step ?_ (Hw.onCam_only ..))
    | dsimp only
    | split
    | (apply Hw.Only.of_pair; assumption)
    | (apply Hw.Only.of_triple; assumption))

theorem Hw.frameDone_only (h : Hw) (ms : List (List Host.Cell)) (f : Frame) :
    Hw.Only [0x1f, 0x20005, 0x20010, 0x20013, 0x20014, 0x20015, 0x20016, 0xd0012, 0xe0010, 0xf0010, 0xf0011] [.queues, .front, .buckets, .folded] [.eps, .stores, .out] h (Hw.frameDone h ms f) := by
  unfold Hw.frameDone
  try simp only
  repeat' (first
    | with_reducible apply Hw.Only.refl
    | decide
    | (with_reducible apply Hw.Only.ite <;> intro _)
    | (with_reducible apply Hw.Only.ite2 <;> intro _)
    | (with_reducible apply Hw.Only.step ?_ (Hw.add_only ..))
    | (with_reducible apply Hw.Only.step ?_ (Hw.store_only ..))
    | (with_reducible apply Hw.Only.step ?_ (Hw.descriptor_only ..))
    | (with_reducible apply Hw.Only.step ?_ (Hw.records_only ..))
    | (with_reducible apply Hw.Only.step ?_ (Hw.setSlot_only ..))
    | dsimp only
    | split
    | (apply Hw.Only.of_pair; assumption)
    | (apply Hw.Only.of_triple; assumption))

theorem Hw.camTrigger_only (h : Hw) (d out band : Nat) :
    Hw.Only [0xd0029] [.cams] [] h (Hw.camTrigger h d out band) := by
  unfold Hw.camTrigger
  try simp only
  repeat' (first
    | with_reducible apply Hw.Only.refl
    | decide
    | (with_reducible apply Hw.Only.ite <;> intro _)
    | (with_reducible apply Hw.Only.ite2 <;> intro _)
    | (with_reducible apply Hw.Only.foldl)
    | (intro (_ : Hw); intro _)
    | (intro (_ : Hw))
    | (with_reducible apply Hw.Only.foldlP)
    | (intro (_ : _ × Hw); intro _)
    | (with_reducible apply Hw.Only.step ?_ (Hw.add_only ..))
    | (with_reducible apply Hw.Only.step ?_ (Hw.onCam_only ..))
    | dsimp only
    | split)

/-! ### Lamps -/

theorem Hw.onChain_only (h : Hw) (d c : Nat) (f : Chain → Chain) :
    Hw.Only [] [.chains] [] h (Hw.onChain h d c f) := by
  unfold Hw.onChain
  try simp only
  repeat' (first
    | with_reducible apply Hw.Only.refl
    | (intro D x hx; cases x <;> first | exact absurd (by decide) hx | exact rfl)
    | decide
    | (with_reducible apply Hw.Only.step ?_ (Hw.onDie_only [.chains] _ _ _ ?_))
    | dsimp only
    | split)

theorem Hw.chainTo_only (h : Hw) (d c new : Nat) :
    Hw.Only [0x1f, 0x100001] [.front, .buckets, .folded] [] h (Hw.chainTo h d c new) := by
  unfold Hw.chainTo
  try simp only
  repeat' (first
    | with_reducible apply Hw.Only.refl
    | decide
    | (with_reducible apply Hw.Only.ite <;> intro _)
    | (with_reducible apply Hw.Only.ite2 <;> intro _)
    | (with_reducible apply Hw.Only.step ?_ (Hw.wr_only ..))
    | (with_reducible apply Hw.Only.step ?_ (Hw.event_only ..))
    | dsimp only
    | split)

theorem Hw.setLamp_only (h : Hw) (d e : Nat) (l : Lamp) :
    Hw.Only [] [.lamps] [] h (Hw.setLamp h d e l) := by
  unfold Hw.setLamp
  try simp only
  repeat' (first
    | with_reducible apply Hw.Only.refl
    | (intro D x hx; cases x <;> first | exact absurd (by decide) hx | exact rfl)
    | decide
    | (with_reducible apply Hw.Only.step ?_ (Hw.onDie_only [.lamps] _ _ _ ?_))
    | dsimp only
    | split)

theorem Hw.lampWriteback_only (h : Hw) (d e : Nat) :
    Hw.Only [] [] [.stores] h (Hw.lampWriteback h d e) := by
  unfold Hw.lampWriteback
  try simp only
  repeat' (first
    | with_reducible apply Hw.Only.refl
    | decide
    | (with_reducible apply Hw.Only.step ?_ (Hw.store_only ..))
    | dsimp only
    | split
    | (apply Hw.Only.of_pair; assumption)
    | (apply Hw.Only.of_triple; assumption))

theorem Hw.lampRead_only (h : Hw) (ms : List (List Host.Cell)) (d c e : Nat) (bad : List Nat) :
    Hw.Only [0x1f] [.front, .buckets, .folded, .chains, .lamps] [] h (Hw.lampRead h ms d c e bad) := by
  unfold Hw.lampRead
  try simp only
  repeat' (first
    | with_reducible apply Hw.Only.refl
    | decide
    | (with_reducible apply Hw.Only.ite <;> intro _)
    | (with_reducible apply Hw.Only.ite2 <;> intro _)
    | (with_reducible apply Hw.Only.step ?_ (Hw.setLamp_only ..))
    | (with_reducible apply Hw.Only.step ?_ (Hw.onChain_only ..))
    | (with_reducible apply Hw.Only.step ?_ (Hw.tableErr_only ..))
    | dsimp only
    | split
    | (apply Hw.Only.of_pair; assumption)
    | (apply Hw.Only.of_triple; assumption))

theorem Hw.lampEvent_only (h : Hw) (d code e : Nat) (old new : Nat) (b : Nat) :
    Hw.Only [0x1f] [.front, .buckets, .folded] [] h (Hw.lampEvent h d code e old new b) := by
  unfold Hw.lampEvent
  try simp only
  repeat' (first
    | with_reducible apply Hw.Only.refl
    | decide
    | (with_reducible apply Hw.Only.ite <;> intro _)
    | (with_reducible apply Hw.Only.ite2 <;> intro _)
    | (with_reducible apply Hw.Only.step ?_ (Hw.event_only ..))
    | dsimp only
    | split)

theorem Hw.lampStatus_only (h : Hw) (d e ch : Nat) (w : Option Nat) (fresh : Bool) :
    Hw.Only [0x1f] [.front, .buckets, .folded, .lamps] [.stores] h (Hw.lampStatus h d e ch w fresh) := by
  unfold Hw.lampStatus
  try simp only
  repeat' (first
    | with_reducible apply Hw.Only.refl
    | decide
    | (with_reducible apply Hw.Only.ite <;> intro _)
    | (with_reducible apply Hw.Only.ite2 <;> intro _)
    | (with_reducible apply Hw.Only.step ?_ (Hw.lampEvent_only ..))
    | (with_reducible apply Hw.Only.step ?_ (Hw.lampWriteback_only ..))
    | (with_reducible apply Hw.Only.step ?_ (Hw.setLamp_only ..))
    | dsimp only
    | split
    | (apply Hw.Only.of_pair; assumption)
    | (apply Hw.Only.of_triple; assumption))

theorem Hw.driverStatus_only (h : Hw) (d c i : Nat) (w : Option Nat) :
    Hw.Only [0x1f, 0x100012] [.front, .buckets, .folded, .chains, .lamps] [.stores] h (Hw.driverStatus h d c i w) := by
  unfold Hw.driverStatus
  try simp only
  repeat' (first
    | with_reducible apply Hw.Only.refl
    | decide
    | (with_reducible apply Hw.Only.ite <;> intro _)
    | (with_reducible apply Hw.Only.ite2 <;> intro _)
    | (with_reducible apply Hw.Only.foldl)
    | (intro (_ : Hw); intro _)
    | (intro (_ : Hw))
    | (with_reducible apply Hw.Only.foldlP)
    | (intro (_ : _ × Hw); intro _)
    | (with_reducible apply Hw.Only.step ?_ (Hw.add_only ..))
    | (with_reducible apply Hw.Only.step ?_ (Hw.lampStatus_only ..))
    | (with_reducible apply Hw.Only.step ?_ (Hw.onChain_only ..))
    | (with_reducible apply Hw.Only.step ?_ (Hw.event_only ..))
    | dsimp only
    | split
    | (apply Hw.Only.of_pair; assumption)
    | (apply Hw.Only.of_triple; assumption))

theorem Hw.returnError_only (h : Hw) (d c kind got : Nat) :
    Hw.Only [0x1f, 0x100001, 0x100011] [.front, .buckets, .folded, .chains] [] h (Hw.returnError h d c kind got) := by
  unfold Hw.returnError
  try simp only
  repeat' (first
    | with_reducible apply Hw.Only.refl
    | decide
    | (with_reducible apply Hw.Only.ite <;> intro _)
    | (with_reducible apply Hw.Only.ite2 <;> intro _)
    | (with_reducible apply Hw.Only.step ?_ (Hw.add_only ..))
    | (with_reducible apply Hw.Only.step ?_ (Hw.chainTo_only ..))
    | (with_reducible apply Hw.Only.step ?_ (Hw.onChain_only ..))
    | (with_reducible apply Hw.Only.step ?_ (Hw.event_only ..))
    | dsimp only
    | split)

theorem Hw.enumSettle_only (h : Hw) (d id fate : Nat) :
    Hw.Only [] [.mbx] [.pkg] h (Hw.enumSettle h d id fate) := by
  unfold Hw.enumSettle
  try simp only
  repeat' (first
    | with_reducible apply Hw.Only.refl
    | (intro D x hx; cases x <;> first | exact absurd (by decide) hx | exact rfl)
    | decide
    | (with_reducible apply Hw.Only.ite <;> intro _)
    | (with_reducible apply Hw.Only.ite2 <;> intro _)
    | (with_reducible apply Hw.Only.step ?_ (Hw.settle_only ..))
    | dsimp only
    | split)

theorem Hw.enumReturn_only (h : Hw) (d c id old : Nat) (enable : Bool) (got : Option (Nat × List Nat)) :
    Hw.Only [0x1f, 0x100001, 0x100005] [.mbx, .front, .buckets, .folded, .chains] [.blks, .pkg] h (Hw.enumReturn h d c id old enable got) := by
  unfold Hw.enumReturn
  try simp only
  repeat' (first
    | with_reducible apply Hw.Only.refl
    | decide
    | (with_reducible apply Hw.Only.ite <;> intro _)
    | (with_reducible apply Hw.Only.ite2 <;> intro _)
    | (with_reducible apply Hw.Only.step ?_ (Hw.wr_only ..))
    | (with_reducible apply Hw.Only.step ?_ (Hw.setBlk_only ..))
    | (with_reducible apply Hw.Only.step ?_ (Hw.enumSettle_only ..))
    | (with_reducible apply Hw.Only.step ?_ (Hw.chainTo_only ..))
    | (with_reducible apply Hw.Only.step ?_ (Hw.onChain_only ..))
    | (with_reducible apply Hw.Only.step ?_ (Hw.event_only ..))
    | dsimp only
    | split
    | (apply Hw.Only.of_pair; assumption)
    | (apply Hw.Only.of_triple; assumption))

theorem Hw.enumStart_only (h : Hw) (d c id : Nat) (enable : Bool) :
    Hw.Only [0x1f, 0x100001] [.front, .buckets, .folded, .chains] [.out] h (Hw.enumStart h d c id enable) := by
  unfold Hw.enumStart
  try simp only
  repeat' (first
    | with_reducible apply Hw.Only.refl
    | decide
    | (with_reducible apply Hw.Only.step ?_ (Hw.emit_only ..))
    | (with_reducible apply Hw.Only.step ?_ (Hw.chainTo_only ..))
    | (with_reducible apply Hw.Only.step ?_ (Hw.onChain_only ..))
    | dsimp only
    | split)

theorem Hw.chainOff_only (h : Hw) (d c : Nat) :
    Hw.Only [0x1f, 0x100001] [.mbx, .front, .buckets, .folded, .chains, .lamps] [.pkg, .out] h (Hw.chainOff h d c) := by
  unfold Hw.chainOff
  try simp only
  repeat' (first
    | with_reducible apply Hw.Only.refl
    | (intro D x hx; cases x <;> first | exact absurd (by decide) hx | exact rfl)
    | decide
    | (with_reducible apply Hw.Only.ite <;> intro _)
    | (with_reducible apply Hw.Only.ite2 <;> intro _)
    | (with_reducible apply Hw.Only.step ?_ (Hw.emit_only ..))
    | (with_reducible apply Hw.Only.step ?_ (Hw.enumSettle_only ..))
    | (with_reducible apply Hw.Only.step ?_ (Hw.chainTo_only ..))
    | (with_reducible apply Hw.Only.step ?_ (Hw.onChain_only ..))
    | (with_reducible apply Hw.Only.step ?_ (Hw.onDie_only [.lamps] _ _ _ ?_))
    | dsimp only
    | split
    | (apply Hw.Only.of_pair; assumption)
    | (apply Hw.Only.of_triple; assumption))

theorem Hw.onMx_only (h : Hw) (d : Nat) (f : Matrix → Matrix) :
    Hw.Only [] [.mx] [] h (Hw.onMx h d f) := by
  unfold Hw.onMx
  try simp only
  repeat' (first
    | with_reducible apply Hw.Only.refl
    | (intro D x hx; cases x <;> first | exact absurd (by decide) hx | exact rfl)
    | decide
    | (with_reducible apply Hw.Only.step ?_ (Hw.onDie_only [.mx] _ _ _ ?_))
    | dsimp only
    | split)

theorem Hw.mxSample_only (h : Hw) (d row csns : Nat) (cols : List Nat) :
    Hw.Only [0x1f, 0x120012] [.front, .buckets, .folded, .mx] [.free] h (Hw.mxSample h d row csns cols) := by
  unfold Hw.mxSample
  try simp only
  repeat' (first
    | with_reducible apply Hw.Only.refl
    | decide
    | (with_reducible apply Hw.Only.ite <;> intro _)
    | (with_reducible apply Hw.Only.ite2 <;> intro _)
    | (with_reducible apply Hw.Only.foldl)
    | (intro (_ : Hw); intro _)
    | (intro (_ : Hw))
    | (with_reducible apply Hw.Only.foldlP)
    | (intro (_ : _ × Hw); intro _)
    | (with_reducible apply Hw.Only.step ?_ (Hw.wr_only ..))
    | (with_reducible apply Hw.Only.step ?_ (Hw.fresh_only ..))
    | (with_reducible apply Hw.Only.step ?_ (Hw.onMx_only ..))
    | (with_reducible apply Hw.Only.step ?_ (Hw.event_only ..))
    | dsimp only
    | split)

theorem Hw.mxSettle_only (h : Hw) (d : Nat) :
    Hw.Only [0x1f, 0x120001, 0x120012, 0x120021] [.front, .buckets, .folded, .mx] [.free, .out] h (Hw.mxSettle h d) := by
  unfold Hw.mxSettle
  try simp only
  repeat' (first
    | with_reducible apply Hw.Only.refl
    | decide
    | (with_reducible apply Hw.Only.ite <;> intro _)
    | (with_reducible apply Hw.Only.ite2 <;> intro _)
    | (with_reducible apply Hw.Only.step ?_ (Hw.wr_only ..))
    | (with_reducible apply Hw.Only.step ?_ (Hw.add_only ..))
    | (with_reducible apply Hw.Only.step ?_ (Hw.emit_only ..))
    | (with_reducible apply Hw.Only.step ?_ (Hw.mxSample_only ..))
    | (with_reducible apply Hw.Only.step ?_ (Hw.onMx_only ..))
    | dsimp only
    | split
    | (apply Hw.Only.of_pair; assumption)
    | (apply Hw.Only.of_triple; assumption))

theorem Hw.mxScan_only (h : Hw) (d : Nat) :
    Hw.Only [0x1f] [.front, .buckets, .folded, .mx] [.blks, .free] h (Hw.mxScan h d) := by
  unfold Hw.mxScan
  try simp only
  repeat' (first
    | with_reducible apply Hw.Only.refl
    | decide
    | (with_reducible apply Hw.Only.ite <;> intro _)
    | (with_reducible apply Hw.Only.ite2 <;> intro _)
    | (with_reducible apply Hw.Only.foldl)
    | (intro (_ : Hw); intro _)
    | (intro (_ : Hw))
    | (with_reducible apply Hw.Only.foldlP)
    | (intro (_ : _ × Hw); intro _)
    | (with_reducible apply Hw.Only.step ?_ (Hw.fresh_only ..))
    | (with_reducible apply Hw.Only.step ?_ (Hw.onMx_only ..))
    | (with_reducible apply Hw.Only.step ?_ (Hw.event_only ..))
    | (with_reducible apply Hw.Only.step ?_ (Hw.wrBlk_only ..))
    | dsimp only
    | split
    | (apply Hw.Only.of_pair; assumption)
    | (apply Hw.Only.of_triple; assumption))

theorem Hw.mxStart_only (h : Hw) (d : Nat) :
    Hw.Only [0x1f, 0x120001, 0x120012, 0x120020, 0x120021] [.front, .buckets, .folded, .mx] [.blks, .free, .out] h (Hw.mxStart h d) := by
  unfold Hw.mxStart
  try simp only
  repeat' (first
    | with_reducible apply Hw.Only.refl
    | decide
    | (with_reducible apply Hw.Only.ite <;> intro _)
    | (with_reducible apply Hw.Only.ite2 <;> intro _)
    | (with_reducible apply Hw.Only.step ?_ (Hw.add_only ..))
    | (with_reducible apply Hw.Only.step ?_ (Hw.emit_only ..))
    | (with_reducible apply Hw.Only.step ?_ (Hw.mxScan_only ..))
    | (with_reducible apply Hw.Only.step ?_ (Hw.mxSettle_only ..))
    | (with_reducible apply Hw.Only.step ?_ (Hw.onMx_only ..))
    | (with_reducible apply Hw.Only.step ?_ (Hw.event_only ..))
    | dsimp only
    | split
    | (apply Hw.Only.of_pair; assumption)
    | (apply Hw.Only.of_triple; assumption))

theorem Hw.untilPulse_only (h : Hw) (d out : Nat) :
    Hw.Only [] [.tbs] [.clk] h (Hw.untilPulse h d out) := by
  unfold Hw.untilPulse
  try simp only
  repeat' (first
    | with_reducible apply Hw.Only.refl
    | decide
    | (with_reducible apply Hw.Only.ite <;> intro _)
    | (with_reducible apply Hw.Only.ite2 <;> intro _)
    | (with_reducible apply Hw.Only.step ?_ (Hw.tick_only ..))
    | dsimp only
    | split)

theorem Hw.pulseMatch_only (h : Hw) (d out : Nat) :
    Hw.Only [0x1f, 0xd0029, 0x120001, 0x120012, 0x120020, 0x120021, 0x160001, 0x160007, 0x160008] [.front, .buckets, .folded, .tbs, .pulses, .cams, .mx] [.blks, .clk, .free, .out] h (Hw.pulseMatch h d out) := by
  unfold Hw.pulseMatch
  try simp only
  repeat' (first
    | with_reducible apply Hw.Only.refl
    | decide
    | (with_reducible apply Hw.Only.ite <;> intro _)
    | (with_reducible apply Hw.Only.ite2 <;> intro _)
    | (with_reducible apply Hw.Only.step ?_ (Hw.untilPulse_only ..))
    | (with_reducible apply Hw.Only.step ?_ (Hw.mxStart_only ..))
    | (with_reducible apply Hw.Only.step ?_ (Hw.mxSettle_only ..))
    | (with_reducible apply Hw.Only.step ?_ (Hw.camTrigger_only ..))
    | (with_reducible apply Hw.Only.step ?_ (Hw.poGive_only ..))
    | dsimp only
    | split)

/-! ### Domains -/

theorem Hw.lose_only (h : Hw) (d dom : Nat) :
    Hw.Only [0x0] [.mbx, .queues, .front, .buckets, .folded, .ptp, .itv, .up, .enc, .pos, .hwmOn, .leaving, .ports, .spits, .changes, .banks, .bankFrom, .codec, .ctxs, .ctxCache, .streams, .stop, .cams, .ispRun, .chains, .lamps, .mx, .lineFaults] [.blks, .stages, .eps, .hsPins, .wipes] h (Hw.lose h d dom) := by
  unfold Hw.lose
  try simp only
  repeat' (first
    | with_reducible apply Hw.Only.refl
    | (intro D x hx; cases x <;> first | exact absurd (by decide) hx | exact rfl)
    | (intro x hx; cases x <;> first | exact absurd (by decide) hx | exact rfl)
    | (intro D x hx; unfold Die.lose; split <;> (cases x <;> first | exact absurd (by decide) hx | exact rfl))
    | decide
    | (with_reducible apply Hw.Only.ite <;> intro _)
    | (with_reducible apply Hw.Only.ite2 <;> intro _)
    | (with_reducible apply Hw.Only.foldl)
    | (intro (_ : Hw); intro _)
    | (intro (_ : Hw))
    | (with_reducible apply Hw.Only.foldlP)
    | (intro (_ : _ × Hw); intro _)
    | (with_reducible apply Hw.Only.step ?_ (Hw.showPins_only ..))
    | (with_reducible apply Hw.Only.step ?_ (Hw.onDie_only [.mbx, .queues, .ptp, .itv, .up, .enc, .pos, .hwmOn, .leaving, .ports, .spits, .changes, .banks, .bankFrom, .codec, .ctxs, .ctxCache, .streams, .stop, .cams, .ispRun, .chains, .lamps, .mx, .lineFaults] _ _ _ ?_))
    | dsimp only
    | split
    | (apply Hw.Only.of_pair; assumption)
    | (apply Hw.Only.of_triple; assumption)
    | (with_reducible apply Hw.Only.step ?_ (Hw.with_blks_regs_stages ..))
    | (with_reducible apply Hw.Only.step ?_ (Hw.with_eps_regs ..))
    | (with_reducible apply Hw.Only.step ?_ (Hw.with_wipes ..)))

theorem Hw.pdChange_only (h : Hw) (d before cause : Nat) :
    Hw.Only [0x1f] [.front, .buckets, .folded] [] h (Hw.pdChange h d before cause) := by
  unfold Hw.pdChange
  try simp only
  repeat' (first
    | with_reducible apply Hw.Only.refl
    | decide
    | (with_reducible apply Hw.Only.ite <;> intro _)
    | (with_reducible apply Hw.Only.ite2 <;> intro _)
    | (with_reducible apply Hw.Only.step ?_ (Hw.event_only ..))
    | dsimp only
    | split)

theorem Hw.domainsOff_only (h : Hw) (d mask cause : Nat) :
    Hw.Only [0x0] [.mbx, .queues, .front, .buckets, .folded, .ptp, .itv, .up, .enc, .pos, .hwmOn, .leaving, .ports, .spits, .changes, .banks, .bankFrom, .codec, .ctxs, .ctxCache, .streams, .stop, .cams, .ispRun, .chains, .lamps, .mx, .lineFaults] [.blks, .stages, .lead, .leadSt, .takeover, .kennelWriting, .faultMask, .eps, .hsPins, .wipes] h (Hw.domainsOff h d mask cause) := by
  unfold Hw.domainsOff
  try simp only
  repeat' (first
    | with_reducible apply Hw.Only.refl
    | decide
    | (with_reducible apply Hw.Only.ite <;> intro _)
    | (with_reducible apply Hw.Only.ite2 <;> intro _)
    | (with_reducible apply Hw.Only.foldl)
    | (intro (_ : Hw); intro _)
    | (intro (_ : Hw))
    | (with_reducible apply Hw.Only.foldlP)
    | (intro (_ : _ × Hw); intro _)
    | (with_reducible apply Hw.Only.step ?_ (Hw.wr_only ..))
    | (with_reducible apply Hw.Only.step ?_ (Hw.pdChange_only ..))
    | (with_reducible apply Hw.Only.step ?_ (Hw.lose_only ..))
    | (with_reducible apply Hw.Only.step ?_ (Hw.mgmtStop_only ..))
    | dsimp only
    | split)

end Sys2Proof.Machine
end

