-- ==== Sys2Proof/Laws/OnlyColour.lean ====
section
/-!
SUPPORT. Frames of the operations of colour hold, objects, thermal management and firmware: what each can change, from the frames of the operations it calls.
-/
namespace Sys2Proof.Machine

/-! ### Colour -/

theorem Hw.onCh_only (h : Hw) (f : ChLoop → ChLoop) :
    Hw.Only [] [] [.pkg] h (Hw.onCh h f) := by
  unfold Hw.onCh
  try simp only
  repeat' (first
    | with_reducible apply Hw.Only.refl
    | decide
    | dsimp only
    | (with_reducible apply Hw.Only.step ?_ (Hw.with_pkg ..)))

theorem Hw.onBar_only (h : Hw) (b : Nat) (f : ChBar → ChBar) :
    Hw.Only [] [] [.pkg] h (Hw.onBar h b f) := by
  unfold Hw.onBar
  try simp only
  repeat' (first
    | with_reducible apply Hw.Only.refl
    | decide
    | (with_reducible apply Hw.Only.step ?_ (Hw.onCh_only ..))
    | dsimp only
    | split)

theorem Hw.chAlign_only (h : Hw) :
    Hw.Only [0x120001] [.mx] [] h (Hw.chAlign h) := by
  unfold Hw.chAlign
  try simp only
  repeat' (first
    | with_reducible apply Hw.Only.refl
    | decide
    | (with_reducible apply Hw.Only.step ?_ (Hw.wr_only ..))
    | (with_reducible apply Hw.Only.step ?_ (Hw.onMx_only ..))
    | dsimp only
    | split)

theorem Hw.setStage_only (isp st : Nat) (l : List (AttrId × Nat))
    (hl : (l.all fun x => [A.cp_plane.code, A.cp_bin.code, A.cp_y0.code, A.stats_mark_count.code, A.roi_count.code, A.cfg_gen.code].contains x.1.code) = true) (h : Hw) : Hw.Only [A.cp_plane.code, A.cp_bin.code, A.cp_y0.code, A.stats_mark_count.code, A.roi_count.code, A.cfg_gen.code] [] [] h (h.setStage isp st l) := by
  have H : ∀ (l : List (AttrId × Nat)) (k : Hw), (∀ x ∈ l, x.1.code ∈ [A.cp_plane.code, A.cp_bin.code, A.cp_y0.code, A.stats_mark_count.code, A.roi_count.code, A.cfg_gen.code]) →
      Hw.Only [A.cp_plane.code, A.cp_bin.code, A.cp_y0.code, A.stats_mark_count.code, A.roi_count.code, A.cfg_gen.code] [] [] h k → Hw.Only [A.cp_plane.code, A.cp_bin.code, A.cp_y0.code, A.stats_mark_count.code, A.roi_count.code, A.cfg_gen.code] [] [] h (l.foldl (fun (h : Hw) x => h.wr isp x.1 st x.2) k) := by
    intro l
    induction l with
    | nil => exact fun k _ hk => hk
    | cons x l ih =>
      intro k hl hk
      refine ih _ (fun y hy => hl y (List.mem_cons_of_mem _ hy)) (hk.step (Hw.wr_only ..) ?_)
      refine ⟨fun c hc => .inl ?_, nofun, nofun⟩
      rw [List.mem_singleton.1 hc]
      exact hl x List.mem_cons_self
  unfold Hw.setStage
  split
  · exact .refl _ _ _ _
  · exact (H l h (fun x hx => by simpa using List.all_eq_true.mp hl x hx) (.refl _ _ _ _)).step (Hw.add_only ..) (by decide)

theorem Hw.bandWindows_only (h : Hw) (q : Nat) :
    Hw.Only [0xe0002, 0xf0004, 0xf0008, 0xf0009, 0xf000a, 0xf000c] [] [] h (Hw.bandWindows h q) := by
  have hp : Parts [A.cp_plane.code, A.cp_bin.code, A.cp_y0.code, A.stats_mark_count.code, A.roi_count.code, A.cfg_gen.code] [] [] [0xe0002, 0xf0004, 0xf0008, 0xf0009, 0xf000a, 0xf000c] [] [] := by decide
  unfold Hw.bandWindows
  extract_lets gh first n
  clear_value n first
  refine .ite (fun _ => .refl _ _ _ _) (fun _ => .foldl (.refl _ _ _ _) (fun h k => ?_) _)
  refine .mono (Hw.setStage_only _ _ _ ?_ h) hp
  simp only [List.all_cons, List.all_nil]
  decide

theorem Hw.ghWindows_only (h : Hw) :
    Hw.Only [0xe0002, 0xf0004, 0xf0008, 0xf0009, 0xf000a, 0xf000c] [] [.blks] h (Hw.ghWindows h) := by
  unfold Hw.ghWindows
  try simp only
  repeat' (first
    | with_reducible apply Hw.Only.refl
    | decide
    | (with_reducible apply Hw.Only.ite <;> intro _)
    | (with_reducible apply Hw.Only.ite2 <;> intro _)
    | (with_reducible apply Hw.Only.foldl)
    | (intro (_ : Hw); intro _)
    | (intro (_ : Hw))
    | (with_reducible apply Hw.Only.foldlP)
    | (intro (_ : _ × Hw); intro _)
    | (with_reducible apply Hw.Only.step ?_ (Hw.add_only ..))
    | (with_reducible apply Hw.Only.step ?_ (Hw.setBlk_only ..))
    | (with_reducible apply Hw.Only.step ?_ (Hw.setStage_only _ _ _ ?_ _))
    | exact (rfl : _ = true)
    | dsimp only
    | split)

theorem Hw.chProgram_only (h : Hw) (q : Nat) (t : Nat) :
    Hw.Only [0x1f, 0xe0002, 0xf0004, 0xf0008, 0xf0009, 0xf000a, 0xf000c, 0x160001, 0x160002, 0x160006, 0x160007, 0x160009] [.front, .buckets, .folded, .pulses] [.blks, .pkg] h (Hw.chProgram h q t) := by
  unfold Hw.chProgram
  try simp only
  repeat' (first
    | with_reducible apply Hw.Only.refl
    | decide
    | (with_reducible apply Hw.Only.ite <;> intro _)
    | (with_reducible apply Hw.Only.ite2 <;> intro _)
    | (with_reducible apply Hw.Only.foldl)
    | (intro (_ : Hw); intro _)
    | (intro (_ : Hw))
    | (with_reducible apply Hw.Only.foldlP)
    | (intro (_ : _ × Hw); intro _)
    | (with_reducible apply Hw.Only.step ?_ (Hw.wr_only ..))
    | (with_reducible apply Hw.Only.step ?_ (Hw.ghWindows_only ..))
    | (with_reducible apply Hw.Only.step ?_ (Hw.bandWindows_only ..))
    | (with_reducible apply Hw.Only.step ?_ (Hw.onCh_only ..))
    | (with_reducible apply Hw.Only.step ?_ (poArm_only ..))
    | dsimp only
    | split)

theorem Hw.chPair_only (h : Hw) (d : Nat) :
    Hw.Only [0x1f, 0xe0002, 0xf0004, 0xf0008, 0xf0009, 0xf000a, 0xf000c, 0x160001, 0x160002, 0x160006, 0x160007, 0x160009] [.front, .buckets, .folded, .pulses] [.blks, .pkg] h (Hw.chPair h d) := by
  unfold Hw.chPair
  try simp only
  repeat' (first
    | with_reducible apply Hw.Only.refl
    | decide
    | (with_reducible apply Hw.Only.ite <;> intro _)
    | (with_reducible apply Hw.Only.ite2 <;> intro _)
    | (with_reducible apply Hw.Only.step ?_ (Hw.chProgram_only ..))
    | (with_reducible apply Hw.Only.step ?_ (Hw.onCh_only ..))
    | dsimp only
    | split
    | (apply Hw.Only.of_pair; assumption)
    | (apply Hw.Only.of_triple; assumption))

theorem Hw.chPulse_only (h : Hw) (d out : Nat) :
    Hw.Only [0x120001, 0x130003] [.mx] [.pkg] h (Hw.chPulse h d out) := by
  unfold Hw.chPulse
  try simp only
  repeat' (first
    | with_reducible apply Hw.Only.refl
    | decide
    | (with_reducible apply Hw.Only.ite <;> intro _)
    | (with_reducible apply Hw.Only.ite2 <;> intro _)
    | (with_reducible apply Hw.Only.step ?_ (Hw.wr_only ..))
    | (with_reducible apply Hw.Only.step ?_ (Hw.chAlign_only ..))
    | (with_reducible apply Hw.Only.step ?_ (Hw.onCh_only ..))
    | dsimp only
    | split
    | (apply Hw.Only.of_pair; assumption)
    | (apply Hw.Only.of_triple; assumption))

theorem Hw.popAll_only (h : Hw) (ms : List (List Host.Cell)) (d i : Nat) (n : Nat) :
    Hw.Only [0x1f, 0x20011, 0x20012] [.queues, .front, .buckets, .folded] [.eps, .out] h (Hw.popAll h ms d i n).2 := by
  induction n generalizing h with
  | zero => exact Hw.Only.refl _ _ _ _
  | succ n ih =>
    unfold Hw.popAll
    try simp only
    repeat' (first
        | with_reducible apply Hw.Only.refl
        | decide
        | (with_reducible apply Hw.Only.ite <;> intro _)
        | (with_reducible apply Hw.Only.ite2 <;> intro _)
        | (with_reducible apply Hw.Only.step ?_ (Hw.qPopPacket_only ..))
        | dsimp only
        | (with_reducible apply Hw.Only.step ?_ (ih _))
        | split
        | (apply Hw.Only.of_pair; assumption)
        | (apply Hw.Only.of_triple; assumption))

theorem Hw.chCollect_only (h : Hw) (ms : List (List Host.Cell)) :
    Hw.Only [0x1f, 0x20011, 0x20012] [.queues, .front, .buckets, .folded] [.pkg, .eps, .out] h (Hw.chCollect h ms) := by
  unfold Hw.chCollect
  try simp only
  repeat' (first
    | with_reducible apply Hw.Only.refl
    | decide
    | (with_reducible apply Hw.Only.ite <;> intro _)
    | (with_reducible apply Hw.Only.ite2 <;> intro _)
    | (with_reducible apply Hw.Only.foldl)
    | (intro (_ : Hw); intro _)
    | (intro (_ : Hw))
    | (with_reducible apply Hw.Only.foldlP)
    | (intro (_ : _ × Hw); intro _)
    | (with_reducible apply Hw.Only.step ?_ (Hw.popAll_only ..))
    | (with_reducible apply Hw.Only.step ?_ (Hw.onCh_only ..))
    | dsimp only
    | split
    | (apply Hw.Only.of_pair; assumption)
    | (apply Hw.Only.of_triple; assumption))

/-! ### Objects -/

theorem Hw.getScalar_only (h : Hw) (d : Nat) (o : ObjRef) (r : AttrRow) :
    Hw.Only [0x0] [] [] h (Hw.getScalar h d o r).2 := by
  unfold Hw.getScalar
  try simp only
  repeat' (first
    | with_reducible apply Hw.Only.refl
    | decide
    | (with_reducible apply Hw.Only.ite <;> intro _)
    | (with_reducible apply Hw.Only.ite2 <;> intro _)
    | (with_reducible apply Hw.Only.step ?_ (Hw.wrk_only ..))
    | dsimp only
    | split
    | (apply Hw.Only.of_pair; assumption)
    | (apply Hw.Only.of_triple; assumption))

theorem Hw.setEthEnable_only (h : Hw) (d p v : Nat) :
    Hw.Only [0x1f, 0x170001, 0x170004] [.front, .buckets, .folded] [] h (Hw.setEthEnable h d p v) := by
  unfold Hw.setEthEnable
  try simp only
  repeat' (first
    | with_reducible apply Hw.Only.refl
    | decide
    | (with_reducible apply Hw.Only.ite <;> intro _)
    | (with_reducible apply Hw.Only.ite2 <;> intro _)
    | (with_reducible apply Hw.Only.step ?_ (Hw.wr_only ..))
    | (with_reducible apply Hw.Only.step ?_ (Hw.event_only ..))
    | dsimp only
    | split)

theorem Hw.setEthRate_only (h : Hw) (d p v : Nat) :
    Hw.Only [0x170002, 0x15000c, 0x15000d] [] [] h (Hw.setEthRate h d p v) := by
  unfold Hw.setEthRate
  try simp only
  repeat' (first
    | with_reducible apply Hw.Only.refl
    | decide
    | (with_reducible apply Hw.Only.step ?_ (Hw.wr_only ..))
    | dsimp only
    | split)

theorem Hw.setNow_only (h : Hw) (d : Nat) (o : ObjRef) (v : Nat) :
    Hw.Only [0x0] [.front, .buckets, .folded, .tbChanges, .ptp, .enc, .pos, .pulses] [.pkg] h (Hw.setNow h d o v) := by
  unfold Hw.setNow
  try simp only
  repeat' (first
    | with_reducible apply Hw.Only.refl
    | decide
    | (with_reducible apply Hw.Only.ite <;> intro _)
    | (with_reducible apply Hw.Only.ite2 <;> intro _)
    | (with_reducible apply Hw.Only.step ?_ (Hw.add_only ..))
    | (with_reducible apply Hw.Only.step ?_ (Hw.wrk_only ..))
    | (with_reducible apply Hw.Only.step ?_ (Hw.setEthEnable_only ..))
    | (with_reducible apply Hw.Only.step ?_ (Hw.setEthRate_only ..))
    | (with_reducible apply Hw.Only.step ?_ (Hw.setScale_only ..))
    | (with_reducible apply Hw.Only.step ?_ (Hw.setPosSource_only ..))
    | (with_reducible apply Hw.Only.step ?_ (Hw.holdPosCfg_only ..))
    | (with_reducible apply Hw.Only.step ?_ (Hw.setEncEnable_only ..))
    | (with_reducible apply Hw.Only.step ?_ (Hw.absRequest_only ..))
    | (with_reducible apply Hw.Only.step ?_ (Hw.setPtpEnable_only ..))
    | (with_reducible apply Hw.Only.step ?_ (Hw.setTbSource_only ..))
    | dsimp only
    | split
    | (apply Hw.Only.of_pair; assumption)
    | (apply Hw.Only.of_triple; assumption))

theorem Hw.setLine_only (h : Hw) (d : Nat) (q : Hdr) (k : RegKey) (v : Nat) (line : Option LineRef) :
    Hw.Only [0x0] [.mbx, .front, .buckets, .folded, .ports, .changes] [.nextId, .pkg] h (Hw.setLine h d q k v line).2 := by
  unfold Hw.setLine
  try simp only
  repeat' (first
    | with_reducible apply Hw.Only.refl
    | decide
    | (with_reducible apply Hw.Only.ite <;> intro _)
    | (with_reducible apply Hw.Only.ite2 <;> intro _)
    | (with_reducible apply Hw.Only.foldl)
    | (intro (_ : Hw); intro _)
    | (intro (_ : Hw))
    | (with_reducible apply Hw.Only.foldlP)
    | (intro (_ : _ × Hw); intro _)
    | (with_reducible apply Hw.Only.step ?_ (Hw.changeNow_only ..))
    | (with_reducible apply Hw.Only.step ?_ (Hw.addChange_only ..))
    | (with_reducible apply Hw.Only.step ?_ (refuse_only ..))
    | (with_reducible apply Hw.Only.step ?_ (Hw.movePoint_only ..))
    | (with_reducible apply Hw.Only.step ?_ (Hw.defer_only ..))
    | dsimp only
    | split
    | (apply Hw.Only.of_pair; assumption)
    | (apply Hw.Only.of_triple; assumption))

theorem objSetBody_only (q : Hdr) (o : ObjRef) (v : Nat) (line : Option LineRef) (d : Nat) (h : Hw) :
    Hw.Only [0x0] [.mbx, .front, .buckets, .folded, .tbChanges, .ptp, .enc, .pos, .ports, .changes, .pulses] [.nextId, .pkg] h (objSetBody q o v line d h).2 := by
  unfold objSetBody
  try simp only
  repeat' (first
    | with_reducible apply Hw.Only.refl
    | decide
    | (with_reducible apply Hw.Only.ite <;> intro _)
    | (with_reducible apply Hw.Only.ite2 <;> intro _)
    | (with_reducible apply Hw.Only.step ?_ (Hw.wrk_only ..))
    | (with_reducible apply Hw.Only.step ?_ (Hw.setLine_only ..))
    | (with_reducible apply Hw.Only.step ?_ (Hw.setNow_only ..))
    | (with_reducible apply Hw.Only.step ?_ (refuse_only ..))
    | dsimp only
    | split
    | (apply Hw.Only.of_pair; assumption)
    | (apply Hw.Only.of_triple; assumption))

theorem Hw.calStale_only (h : Hw) (d i cause : Nat) :
    Hw.Only [0x1f, 0x1d0001] [.front, .buckets, .folded] [] h (Hw.calStale h d i cause) := by
  unfold Hw.calStale
  try simp only
  repeat' (first
    | with_reducible apply Hw.Only.refl
    | decide
    | (with_reducible apply Hw.Only.ite <;> intro _)
    | (with_reducible apply Hw.Only.ite2 <;> intro _)
    | (with_reducible apply Hw.Only.step ?_ (Hw.wr_only ..))
    | (with_reducible apply Hw.Only.step ?_ (Hw.event_only ..))
    | dsimp only
    | split)

theorem Hw.tilesChanged_only (h : Hw) :
    Hw.Only [0x1f, 0x130001, 0x1d0001] [.front, .buckets, .folded] [.pkg] h (Hw.tilesChanged h) := by
  unfold Hw.tilesChanged
  try simp only
  repeat' (first
    | with_reducible apply Hw.Only.refl
    | decide
    | (with_reducible apply Hw.Only.ite <;> intro _)
    | (with_reducible apply Hw.Only.ite2 <;> intro _)
    | (with_reducible apply Hw.Only.foldl)
    | (intro (_ : Hw); intro _)
    | (intro (_ : Hw))
    | (with_reducible apply Hw.Only.foldlP)
    | (intro (_ : _ × Hw); intro _)
    | (with_reducible apply Hw.Only.step ?_ (Hw.calStale_only ..))
    | (with_reducible apply Hw.Only.step ?_ (Hw.onBar_only ..))
    | (with_reducible apply Hw.Only.step ?_ (Hw.chTo_only ..))
    | dsimp only
    | split)

theorem Hw.nvKeep_only (h : Hw) (d : Nat) (k : RegKey) (b : List Byte) :
    Hw.Only [] [.nvTables, .nvWait] [] h (Hw.nvKeep h d k b) := by
  unfold Hw.nvKeep
  try simp only
  repeat' (first
    | with_reducible apply Hw.Only.refl
    | (intro D x hx; cases x <;> first | exact absurd (by decide) hx | exact rfl)
    | decide
    | (with_reducible apply Hw.Only.ite <;> intro _)
    | (with_reducible apply Hw.Only.ite2 <;> intro _)
    | (with_reducible apply Hw.Only.step ?_ (Hw.onDie_only [.nvTables, .nvWait] _ _ _ ?_))
    | dsimp only
    | split)

theorem Hw.tunChanged_only (h : Hw) (old new : List Byte) :
    Hw.Only [0x1f, 0x1a0001, 0x1a0008, 0x1a0011] [.front, .buckets, .folded, .itv] [.pkg, .tunnels] h (Hw.tunChanged h old new) := by
  unfold Hw.tunChanged
  try simp only
  repeat' (first
    | with_reducible apply Hw.Only.refl
    | decide
    | (with_reducible apply Hw.Only.ite <;> intro _)
    | (with_reducible apply Hw.Only.ite2 <;> intro _)
    | (with_reducible apply Hw.Only.foldl)
    | (intro (_ : Hw); intro _)
    | (intro (_ : Hw))
    | (with_reducible apply Hw.Only.foldlP)
    | (intro (_ : _ × Hw); intro _)
    | (with_reducible apply Hw.Only.step ?_ (Hw.tunPeer_only ..))
    | (with_reducible apply Hw.Only.step ?_ (Hw.onLink_only ..))
    | dsimp only
    | split)

theorem Hw.setBlock_only (h : Hw) (d : Nat) (o : ObjRef) (b : List Byte) :
    Hw.Only [0x1f, 0xe0002, 0x130001, 0x1a0001, 0x1a0008, 0x1a0011, 0x1d0001] [.front, .buckets, .folded, .itv, .nvTables, .nvWait] [.blks, .pkg, .tunnels] h (Hw.setBlock h d o b) := by
  unfold Hw.setBlock
  try simp only
  repeat' (first
    | with_reducible apply Hw.Only.refl
    | decide
    | (with_reducible apply Hw.Only.step ?_ (Hw.add_only ..))
    | (with_reducible apply Hw.Only.step ?_ (Hw.setBlk_only ..))
    | (with_reducible apply Hw.Only.step ?_ (Hw.tunChanged_only ..))
    | (with_reducible apply Hw.Only.step ?_ (Hw.nvKeep_only ..))
    | (with_reducible apply Hw.Only.step ?_ (Hw.tilesChanged_only ..))
    | dsimp only
    | split
    | (apply Hw.Only.of_pair; assumption)
    | (apply Hw.Only.of_triple; assumption))

theorem objSetBlockBody_only (q : Hdr) (o : ObjRef) (commit : Bool) (line : Option LineRef) (off : Nat) (data : List Byte) (d : Nat) (h : Hw) :
    Hw.Only [0x1f, 0xe0002, 0x130001, 0x1a0001, 0x1a0008, 0x1a0011, 0x1d0001] [.front, .buckets, .folded, .itv, .nvTables, .nvWait] [.blks, .stages, .pkg, .tunnels] h (objSetBlockBody q o commit line off data d h).2 := by
  unfold objSetBlockBody
  try simp only
  repeat' (first
    | with_reducible apply Hw.Only.refl
    | (intro x hx; cases x <;> first | exact absurd (by decide) hx | exact rfl)
    | decide
    | (with_reducible apply Hw.Only.ite <;> intro _)
    | (with_reducible apply Hw.Only.ite2 <;> intro _)
    | (with_reducible apply Hw.Only.step ?_ (Hw.setBlock_only ..))
    | (with_reducible apply Hw.Only.step ?_ (refuse_only ..))
    | dsimp only
    | split
    | (apply Hw.Only.of_pair; assumption)
    | (apply Hw.Only.of_triple; assumption)
    | (with_reducible refine Hw.Only.mono (Hw.Only.recs h _ [.stages] (Eq.refl _) (Eq.refl _) ?_) ?_)
    | (with_reducible apply Hw.Only.step ?_ (Hw.with_stages ..)))

/-! ### ColourHold -/

theorem Hw.rildin_only {C : List Nat} {F : List DieRec} {G : List HwRec} {body : Hdr → Hw → Reply × Hw} (H : ∀ h q, Hw.Only C F G h (body q h).2)
    (hs : Parts [0x1f, 0x10021] [.front, .buckets, .folded] [] C F G) (h : Hw) (d op : Nat) (o : ObjRef) :
    Hw.Only C F G h (h.rildin d op o body).2 := by
  unfold Hw.rildin
  extract_lets q
  split
  · simp only
    split
    · exact (Hw.Only.refl _ _ _ _).step (Hw.configChange_only ..) hs
    · exact .refl _ _ _ _
  · simp only
    split
    · exact (H h q).step (Hw.configChange_only ..) hs
    · exact H h q

theorem Hw.rildinCommit_only (h : Hw) (d : Nat) (a : AttrId) (bs : List Byte) :
    Hw.Only [0x1f, 0x10021, 0xe0002, 0x130001, 0x1a0001, 0x1a0008, 0x1a0011, 0x1d0001] [.front, .buckets, .folded, .itv, .nvTables, .nvWait] [.blks, .stages, .pkg, .tunnels] h (Hw.rildinCommit h d a bs) := by
  unfold Hw.rildinCommit
  try simp only
  repeat' (first
    | with_reducible apply Hw.Only.refl
    | decide
    | (intro (_ : Hw); intro _)
    | (intro (_ : Hw))
    | (with_reducible apply Hw.Only.step ?_ (Hw.rildin_only (C := [0x1f, 0x10021, 0xe0002, 0x130001, 0x1a0001, 0x1a0008, 0x1a0011, 0x1d0001]) (F := [.front, .buckets, .folded, .itv, .nvTables, .nvWait]) (G := [.blks, .stages, .pkg, .tunnels]) ?_ ?_ ..))
    | (with_reducible apply Hw.Only.step ?_ (objSetBlockBody_only ..))
    | dsimp only
    | split)

theorem Hw.rildinSet_only (h : Hw) (d : Nat) (a : AttrId) (i v : Nat) (line : Option LineRef) :
    Hw.Only [0x0] [.mbx, .front, .buckets, .folded, .tbChanges, .ptp, .enc, .pos, .ports, .changes, .pulses] [.nextId, .pkg] h (Hw.rildinSet h d a i v line).2 := by
  unfold Hw.rildinSet
  try simp only
  repeat' (first
    | with_reducible apply Hw.Only.refl
    | decide
    | (intro (_ : Hw); intro _)
    | (intro (_ : Hw))
    | (with_reducible apply Hw.Only.step ?_ (Hw.rildin_only (C := [0x0]) (F := [.mbx, .front, .buckets, .folded, .tbChanges, .ptp, .enc, .pos, .ports, .changes, .pulses]) (G := [.nextId, .pkg]) ?_ ?_ ..))
    | (with_reducible apply Hw.Only.step ?_ (objSetBody_only ..))
    | dsimp only
    | split)

theorem Hw.chAcquired_only (h : Hw) (b q : Nat) :
    Hw.Only [0x1f, 0x130001] [.front, .buckets, .folded] [] h (Hw.chAcquired h b q) := by
  unfold Hw.chAcquired
  try simp only
  repeat' (first
    | with_reducible apply Hw.Only.refl
    | decide
    | (with_reducible apply Hw.Only.ite <;> intro _)
    | (with_reducible apply Hw.Only.ite2 <;> intro _)
    | (with_reducible apply Hw.Only.step ?_ (Hw.chTo_only ..))
    | (with_reducible apply Hw.Only.step ?_ (Hw.eventPkg_only ..))
    | dsimp only
    | split)

theorem Hw.showDe_only (h : Hw) :
    Hw.Only [0x130020] [] [] h (Hw.showDe h) := by
  unfold Hw.showDe
  try simp only
  repeat' (first
    | with_reducible apply Hw.Only.refl
    | decide
    | (with_reducible apply Hw.Only.foldl)
    | (intro (_ : Hw); intro _)
    | (intro (_ : Hw))
    | (with_reducible apply Hw.Only.foldlP)
    | (intro (_ : _ × Hw); intro _)
    | (with_reducible apply Hw.Only.step ?_ (Hw.wr_only ..))
    | dsimp only
    | split)

theorem Hw.patchSpectrum_only (h : Hw) (i : Nat) :
    Hw.Only [0x1f] [.front, .buckets, .folded] [.blks, .pkg] h (Hw.patchSpectrum h i) := by
  unfold Hw.patchSpectrum
  try simp only
  repeat' (first
    | with_reducible apply Hw.Only.refl
    | decide
    | (with_reducible apply Hw.Only.ite <;> intro _)
    | (with_reducible apply Hw.Only.ite2 <;> intro _)
    | (with_reducible apply Hw.Only.foldl)
    | (intro (_ : Hw); intro _)
    | (intro (_ : Hw))
    | (with_reducible apply Hw.Only.foldlP)
    | (intro (_ : _ × Hw); intro _)
    | (with_reducible apply Hw.Only.step ?_ (Hw.onBar_only ..))
    | (with_reducible apply Hw.Only.step ?_ (Hw.onCh_only ..))
    | (with_reducible apply Hw.Only.step ?_ (Hw.eventPkg_only ..))
    | (with_reducible apply Hw.Only.step ?_ (Hw.wrBlk_only ..))
    | dsimp only
    | split
    | (apply Hw.Only.of_pair; assumption)
    | (apply Hw.Only.of_triple; assumption))

theorem Hw.darkFrame_only (h : Hw) (recs : List (List Nat)) (f : List Nat) :
    Hw.Only [] [] [.pkg] h (Hw.darkFrame h recs f) := by
  unfold Hw.darkFrame
  try simp only
  repeat' (first
    | with_reducible apply Hw.Only.refl
    | decide
    | (with_reducible apply Hw.Only.foldl)
    | (intro (_ : Hw); intro _)
    | (intro (_ : Hw))
    | (with_reducible apply Hw.Only.foldlP)
    | (intro (_ : _ × Hw); intro _)
    | (with_reducible apply Hw.Only.step ?_ (Hw.onCh_only ..))
    | dsimp only
    | split
    | (apply Hw.Only.of_pair; assumption)
    | (apply Hw.Only.of_triple; assumption))

theorem Hw.patchSamples_only (h : Hw) (q r : Nat) (recs frames : List (List Nat)) :
    Hw.Only [0x1f] [.front, .buckets, .folded] [.blks, .pkg] h (Hw.patchSamples h q r recs frames) := by
  unfold Hw.patchSamples
  try simp only
  repeat' (first
    | with_reducible apply Hw.Only.refl
    | decide
    | (with_reducible apply Hw.Only.ite <;> intro _)
    | (with_reducible apply Hw.Only.ite2 <;> intro _)
    | (with_reducible apply Hw.Only.foldl)
    | (intro (_ : Hw); intro _)
    | (intro (_ : Hw))
    | (with_reducible apply Hw.Only.foldlP)
    | (intro (_ : _ × Hw); intro _)
    | (with_reducible apply Hw.Only.step ?_ (Hw.patchSpectrum_only ..))
    | (with_reducible apply Hw.Only.step ?_ (Hw.onCh_only ..))
    | dsimp only
    | split
    | (apply Hw.Only.of_pair; assumption)
    | (apply Hw.Only.of_triple; assumption))

theorem Hw.showTone_only (h : Hw) (b : Nat) (es : List (Nat × Int)) :
    Hw.Only [] [] [.blks] h (Hw.showTone h b es) := by
  unfold Hw.showTone
  try simp only
  repeat' (first
    | with_reducible apply Hw.Only.refl
    | decide
    | (with_reducible apply Hw.Only.foldl)
    | (intro (_ : Hw); intro _)
    | (intro (_ : Hw))
    | (with_reducible apply Hw.Only.foldlP)
    | (intro (_ : _ × Hw); intro _)
    | (with_reducible apply Hw.Only.step ?_ (Hw.wrBlk_only ..))
    | dsimp only
    | split)

theorem Hw.chSkip_only (h : Hw) (b cause : Nat) :
    Hw.Only [0x1f] [.front, .buckets, .folded] [] h (Hw.chSkip h b cause) := by
  unfold Hw.chSkip
  try simp only
  repeat' (first
    | with_reducible apply Hw.Only.refl
    | decide
    | (with_reducible apply Hw.Only.step ?_ (Hw.eventPkg_only ..))
    | dsimp only
    | split)

theorem Hw.commitHealth_only (h : Hw) (b : Nat) (bs : List Byte) :
    Hw.Only [0x1f, 0x10021, 0xe0002, 0x130001, 0x1a0001, 0x1a0008, 0x1a0011, 0x1d0001] [.front, .buckets, .folded, .itv, .nvTables, .nvWait] [.blks, .stages, .pkg, .tunnels] h (Hw.commitHealth h b bs) := by
  unfold Hw.commitHealth
  try simp only
  repeat' (first
    | with_reducible apply Hw.Only.refl
    | decide
    | (with_reducible apply Hw.Only.foldl)
    | (intro (_ : Hw); intro _)
    | (intro (_ : Hw))
    | (with_reducible apply Hw.Only.foldlP)
    | (intro (_ : _ × Hw); intro _)
    | (with_reducible apply Hw.Only.step ?_ (Hw.rildin_only (C := [0x1f, 0x10021, 0xe0002, 0x130001, 0x1a0001, 0x1a0008, 0x1a0011, 0x1d0001]) (F := [.front, .buckets, .folded, .itv, .nvTables, .nvWait]) (G := [.blks, .stages, .pkg, .tunnels]) ?_ ?_ ..))
    | (with_reducible apply Hw.Only.step ?_ (objSetBlockBody_only ..))
    | dsimp only
    | split)

theorem Hw.chUpdate_only (h : Hw) (b : Nat) (gains : Option (List Nat)) :
    Hw.Only [0x1f, 0x10021, 0x60020, 0x80002, 0x80003, 0x80004, 0x80005, 0x80020, 0x80021, 0x80022, 0x90001, 0x90002, 0x90003, 0x90004, 0xe0002, 0x130001, 0x130023, 0x1a0001, 0x1a0008, 0x1a0011, 0x1d0001] [.mbx, .front, .buckets, .folded, .itv, .ports, .banks, .bankFrom, .nvTables, .nvWait] [.blks, .stages, .nextId, .pkg, .tunnels] h (Hw.chUpdate h b gains).2 := by
  unfold Hw.chUpdate
  try simp only
  repeat' (first
    | with_reducible apply Hw.Only.refl
    | decide
    | (with_reducible apply Hw.Only.ite <;> intro _)
    | (with_reducible apply Hw.Only.ite2 <;> intro _)
    | (intro (_ : Hw); intro _)
    | (intro (_ : Hw))
    | (with_reducible apply Hw.Only.step ?_ (Hw.wr_only ..))
    | (with_reducible apply Hw.Only.step ?_ (Hw.commitHealth_only ..))
    | (with_reducible apply Hw.Only.step ?_ (Hw.chSkip_only ..))
    | (with_reducible apply Hw.Only.step ?_ (Hw.rildinCommit_only ..))
    | (with_reducible apply Hw.Only.step ?_ (Hw.rildin_only (C := [0x1f, 0x10021, 0x60020, 0x80002, 0x80003, 0x80004, 0x80005, 0x80020, 0x80021, 0x80022, 0x90001, 0x90002, 0x90003, 0x90004, 0xe0002, 0x130001, 0x130023, 0x1a0001, 0x1a0008, 0x1a0011, 0x1d0001]) (F := [.mbx, .front, .buckets, .folded, .itv, .ports, .banks, .bankFrom, .nvTables, .nvWait]) (G := [.blks, .stages, .nextId, .pkg, .tunnels]) ?_ ?_ ..))
    | (with_reducible apply Hw.Only.step ?_ (Hw.onBar_only ..))
    | (with_reducible apply Hw.Only.step ?_ (tbBuildBody_only ..))
    | (with_reducible apply Hw.Only.step ?_ (tbSwapBody_only ..))
    | dsimp only
    | split
    | (apply Hw.Only.of_pair; assumption)
    | (apply Hw.Only.of_triple; assumption))

theorem Hw.barTone_only (h : Hw) (q b : Nat) (recs frames : List (List Nat)) :
    Hw.Only [0x1f, 0x10021, 0x60020, 0x80002, 0x80003, 0x80004, 0x80005, 0x80020, 0x80021, 0x80022, 0x90001, 0x90002, 0x90003, 0x90004, 0xe0002, 0x130001, 0x130023, 0x130025, 0x1a0001, 0x1a0008, 0x1a0011, 0x1d0001] [.mbx, .front, .buckets, .folded, .itv, .ports, .banks, .bankFrom, .nvTables, .nvWait] [.blks, .stages, .nextId, .pkg, .tunnels] h (Hw.barTone h q b recs frames) := by
  unfold Hw.barTone
  try simp only
  repeat' (first
    | with_reducible apply Hw.Only.refl
    | decide
    | (with_reducible apply Hw.Only.ite <;> intro _)
    | (with_reducible apply Hw.Only.ite2 <;> intro _)
    | (with_reducible apply Hw.Only.foldl)
    | (intro (_ : Hw); intro _)
    | (intro (_ : Hw))
    | (with_reducible apply Hw.Only.foldlP)
    | (intro (_ : _ × Hw); intro _)
    | (with_reducible apply Hw.Only.step ?_ (Hw.add_only ..))
    | (with_reducible apply Hw.Only.step ?_ (Hw.chUpdate_only ..))
    | (with_reducible apply Hw.Only.step ?_ (Hw.showTone_only ..))
    | (with_reducible apply Hw.Only.step ?_ (Hw.onBar_only ..))
    | (with_reducible apply Hw.Only.step ?_ (Hw.eventPkg_only ..))
    | dsimp only
    | split
    | (apply Hw.Only.of_pair; assumption)
    | (apply Hw.Only.of_triple; assumption))

theorem Hw.groupSet_only (h : Hw) (b g line : Nat) (a : AttrId) (f : Hw → Nat → Nat) :
    Hw.Only [0x0] [.mbx, .front, .buckets, .folded, .tbChanges, .ptp, .enc, .pos, .ports, .changes, .pulses] [.nextId, .pkg] h (Hw.groupSet h b g line a f).2 := by
  unfold Hw.groupSet
  try simp only
  repeat' (first
    | with_reducible apply Hw.Only.refl
    | decide
    | (with_reducible apply Hw.Only.ite <;> intro _)
    | (with_reducible apply Hw.Only.ite2 <;> intro _)
    | (with_reducible apply Hw.Only.foldl)
    | (intro (_ : Hw); intro _)
    | (intro (_ : Hw))
    | (with_reducible apply Hw.Only.foldlP)
    | (intro (_ : _ × Hw); intro _)
    | (with_reducible apply Hw.Only.step ?_ (Hw.rildinSet_only ..))
    | dsimp only
    | split
    | (apply Hw.Only.of_pair; assumption)
    | (apply Hw.Only.of_triple; assumption))

theorem Hw.regGroupStep_only (h : Hw) (q b g : Nat) (e : Int × Int) :
    Hw.Only [0x0] [.mbx, .front, .buckets, .folded, .tbChanges, .ptp, .enc, .pos, .ports, .changes, .pulses] [.nextId, .pkg] h (Hw.regGroupStep h q b g e) := by
  unfold Hw.regGroupStep
  try simp only
  repeat' (first
    | with_reducible apply Hw.Only.refl
    | decide
    | (with_reducible apply Hw.Only.ite <;> intro _)
    | (with_reducible apply Hw.Only.ite2 <;> intro _)
    | (with_reducible apply Hw.Only.step ?_ (Hw.wr_only ..))
    | (with_reducible apply Hw.Only.step ?_ (Hw.add_only ..))
    | (with_reducible apply Hw.Only.step ?_ (Hw.groupSet_only ..))
    | (with_reducible apply Hw.Only.step ?_ (Hw.onBar_only ..))
    | (with_reducible apply Hw.Only.step ?_ (Hw.eventPkg_only ..))
    | dsimp only
    | split
    | (apply Hw.Only.of_pair; assumption)
    | (apply Hw.Only.of_triple; assumption))

theorem Hw.regTrim_only (h : Hw) (q b : Nat) :
    Hw.Only [0x0] [.mbx, .front, .buckets, .folded, .tbChanges, .ptp, .enc, .pos, .ports, .changes, .pulses] [.nextId, .pkg] h (Hw.regTrim h q b) := by
  unfold Hw.regTrim
  try simp only
  repeat' (first
    | with_reducible apply Hw.Only.refl
    | decide
    | (with_reducible apply Hw.Only.ite <;> intro _)
    | (with_reducible apply Hw.Only.ite2 <;> intro _)
    | (with_reducible apply Hw.Only.step ?_ (Hw.rildinSet_only ..))
    | (with_reducible apply Hw.Only.step ?_ (Hw.onBar_only ..))
    | (with_reducible apply Hw.Only.step ?_ (Hw.eventPkg_only ..))
    | dsimp only
    | split
    | (apply Hw.Only.of_pair; assumption)
    | (apply Hw.Only.of_triple; assumption))

theorem Hw.barReg_only (h : Hw) (q b : Nat) (recs frames : List (List Nat)) :
    Hw.Only [0x0] [.mbx, .front, .buckets, .folded, .tbChanges, .ptp, .enc, .pos, .ports, .changes, .pulses] [.blks, .nextId, .pkg] h (Hw.barReg h q b recs frames) := by
  unfold Hw.barReg
  try simp only
  repeat' (first
    | with_reducible apply Hw.Only.refl
    | decide
    | (with_reducible apply Hw.Only.ite <;> intro _)
    | (with_reducible apply Hw.Only.ite2 <;> intro _)
    | (with_reducible apply Hw.Only.foldl)
    | (intro (_ : Hw); intro _)
    | (intro (_ : Hw))
    | (with_reducible apply Hw.Only.foldlP)
    | (intro (_ : _ × Hw); intro _)
    | (with_reducible apply Hw.Only.step ?_ (Hw.regTrim_only ..))
    | (with_reducible apply Hw.Only.step ?_ (Hw.regGroupStep_only ..))
    | (with_reducible apply Hw.Only.step ?_ (Hw.wrBlk_only ..))
    | dsimp only
    | split
    | (apply Hw.Only.of_pair; assumption)
    | (apply Hw.Only.of_triple; assumption))

theorem Hw.deadAlarm_only (h : Hw) (b p : Nat) :
    Hw.Only [0x1f] [.front, .buckets, .folded] [.pkg] h (Hw.deadAlarm h b p) := by
  unfold Hw.deadAlarm
  try simp only
  repeat' (first
    | with_reducible apply Hw.Only.refl
    | decide
    | (with_reducible apply Hw.Only.ite <;> intro _)
    | (with_reducible apply Hw.Only.step ?_ (Hw.onBar_only ..))
    | (with_reducible apply Hw.Only.step ?_ (Hw.eventPkg_only ..))
    | dsimp only
    | split)

theorem Hw.markDead_only (h : Hw) (b j : Nat) :
    Hw.Only [0x1f, 0x130027] [.front, .buckets, .folded] [.pkg] h (Hw.markDead h b j) := by
  unfold Hw.markDead
  try simp only
  repeat' (first
    | with_reducible apply Hw.Only.refl
    | decide
    | (with_reducible apply Hw.Only.ite <;> intro _)
    | (with_reducible apply Hw.Only.ite2 <;> intro _)
    | (with_reducible apply Hw.Only.step ?_ (Hw.deadAlarm_only ..))
    | (with_reducible apply Hw.Only.step ?_ (Hw.add_only ..))
    | (with_reducible apply Hw.Only.step ?_ (Hw.onBar_only ..))
    | (with_reducible apply Hw.Only.step ?_ (Hw.eventPkg_only ..))
    | dsimp only
    | split
    | (apply Hw.Only.of_pair; assumption)
    | (apply Hw.Only.of_triple; assumption))

theorem Hw.judge_only (h : Hw) (recs frames : List (List Nat)) (b j : Nat) :
    Hw.Only [0x1f, 0x130027] [.front, .buckets, .folded] [.pkg] h (Hw.judge h recs frames b j) := by
  unfold Hw.judge
  try simp only
  repeat' (first
    | with_reducible apply Hw.Only.refl
    | decide
    | (with_reducible apply Hw.Only.ite <;> intro _)
    | (with_reducible apply Hw.Only.ite2 <;> intro _)
    | (with_reducible apply Hw.Only.step ?_ (Hw.markDead_only ..))
    | (with_reducible apply Hw.Only.step ?_ (Hw.onBar_only ..))
    | dsimp only
    | split
    | (apply Hw.Only.of_pair; assumption)
    | (apply Hw.Only.of_triple; assumption))

theorem Hw.bandHealth_only (h : Hw) (q : Nat) (recs frames : List (List Nat)) :
    Hw.Only [0x1f, 0x130027] [.front, .buckets, .folded] [.pkg] h (Hw.bandHealth h q recs frames) := by
  unfold Hw.bandHealth
  try simp only
  repeat' (first
    | with_reducible apply Hw.Only.refl
    | decide
    | (with_reducible apply Hw.Only.ite <;> intro _)
    | (with_reducible apply Hw.Only.ite2 <;> intro _)
    | (with_reducible apply Hw.Only.foldl)
    | (intro (_ : Hw); intro _)
    | (intro (_ : Hw))
    | (with_reducible apply Hw.Only.foldlP)
    | (intro (_ : _ × Hw); intro _)
    | (with_reducible apply Hw.Only.step ?_ (Hw.judge_only ..))
    | dsimp only
    | split
    | (apply Hw.Only.of_pair; assumption)
    | (apply Hw.Only.of_triple; assumption))

theorem Hw.chRelease_only (h : Hw) (b cause : Nat) :
    Hw.Only [0x1f, 0x130001] [.front, .buckets, .folded] [] h (Hw.chRelease h b cause) := by
  unfold Hw.chRelease
  try simp only
  repeat' (first
    | with_reducible apply Hw.Only.refl
    | decide
    | (with_reducible apply Hw.Only.ite <;> intro _)
    | (with_reducible apply Hw.Only.ite2 <;> intro _)
    | (with_reducible apply Hw.Only.step ?_ (Hw.chTo_only ..))
    | dsimp only
    | split)

theorem Hw.barFresh_only (h : Hw) (q b : Nat) (usable : Bool) :
    Hw.Only [0x1f, 0x130001] [.front, .buckets, .folded] [.pkg] h (Hw.barFresh h q b usable) := by
  unfold Hw.barFresh
  try simp only
  repeat' (first
    | with_reducible apply Hw.Only.refl
    | decide
    | (with_reducible apply Hw.Only.ite <;> intro _)
    | (with_reducible apply Hw.Only.ite2 <;> intro _)
    | (with_reducible apply Hw.Only.step ?_ (Hw.chRelease_only ..))
    | (with_reducible apply Hw.Only.step ?_ (Hw.onBar_only ..))
    | (with_reducible apply Hw.Only.step ?_ (Hw.chTo_only ..))
    | dsimp only
    | split)

theorem Hw.ghMeasure_only (h : Hw) (q : Nat) (recs frames : List (List Nat)) :
    Hw.Only [] [] [.gh] h (Hw.ghMeasure h q recs frames) := by
  unfold Hw.ghMeasure
  try simp only
  repeat' (first
    | with_reducible apply Hw.Only.refl
    | decide
    | (with_reducible apply Hw.Only.ite <;> intro _)
    | (with_reducible apply Hw.Only.ite2 <;> intro _)
    | dsimp only
    | split
    | (apply Hw.Only.of_pair; assumption)
    | (apply Hw.Only.of_triple; assumption)
    | (with_reducible apply Hw.Only.step ?_ (Hw.with_gh ..)))

theorem Hw.bandCheck_only (h : Hw) (p : ChPage) (frames : List (List Nat)) :
    Hw.Only [0x1f] [.front, .buckets, .folded] [.pkg] h (Hw.bandCheck h p frames).2 := by
  unfold Hw.bandCheck
  try simp only
  repeat' (first
    | with_reducible apply Hw.Only.refl
    | decide
    | (with_reducible apply Hw.Only.ite <;> intro _)
    | (with_reducible apply Hw.Only.ite2 <;> intro _)
    | (with_reducible apply Hw.Only.step ?_ (Hw.onCh_only ..))
    | (with_reducible apply Hw.Only.step ?_ (Hw.eventPkg_only ..))
    | dsimp only
    | split
    | (apply Hw.Only.of_pair; assumption)
    | (apply Hw.Only.of_triple; assumption))

theorem Hw.pageEval_only (h : Hw) (p : ChPage) (recs frames : List (List Nat)) :
    Hw.Only [0x0] [.mbx, .front, .buckets, .folded, .tbChanges, .ptp, .itv, .enc, .pos, .ports, .changes, .banks, .bankFrom, .nvTables, .nvWait, .pulses] [.blks, .stages, .nextId, .pkg, .tunnels, .gh] h (Hw.pageEval h p recs frames) := by
  unfold Hw.pageEval
  try simp only
  repeat' (first
    | with_reducible apply Hw.Only.refl
    | decide
    | (with_reducible apply Hw.Only.ite <;> intro _)
    | (with_reducible apply Hw.Only.ite2 <;> intro _)
    | (with_reducible apply Hw.Only.foldl)
    | (intro (_ : Hw); intro _)
    | (intro (_ : Hw))
    | (with_reducible apply Hw.Only.foldlP)
    | (intro (_ : _ × Hw); intro _)
    | (with_reducible apply Hw.Only.step ?_ (Hw.ghMeasure_only ..))
    | (with_reducible apply Hw.Only.step ?_ (Hw.barFresh_only ..))
    | (with_reducible apply Hw.Only.step ?_ (Hw.bandHealth_only ..))
    | (with_reducible apply Hw.Only.step ?_ (Hw.barReg_only ..))
    | (with_reducible apply Hw.Only.step ?_ (Hw.barTone_only ..))
    | (with_reducible apply Hw.Only.step ?_ (Hw.patchSamples_only ..))
    | (with_reducible apply Hw.Only.step ?_ (Hw.darkFrame_only ..))
    | (with_reducible apply Hw.Only.step ?_ (Hw.showDe_only ..))
    | (with_reducible apply Hw.Only.step ?_ (Hw.chAcquired_only ..))
    | dsimp only
    | split)

/-! ### Thermal -/

theorem Hw.onSensor_only (h : Hw) (d ch : Nat) (f : Sensor → Sensor) :
    Hw.Only [] [.sensors] [] h (Hw.onSensor h d ch f) := by
  unfold Hw.onSensor
  try simp only
  repeat' (first
    | with_reducible apply Hw.Only.refl
    | (intro D x hx; cases x <;> first | exact absurd (by decide) hx | exact rfl)
    | decide
    | (with_reducible apply Hw.Only.step ?_ (Hw.onDie_only [.sensors] _ _ _ ?_))
    | dsimp only
    | split)

theorem Hw.sensorShow_only (h : Hw) (d ch raw : Nat) (v : Option Int) :
    Hw.Only [0x1b0001, 0x1b0002, 0x1b0003, 0x1b0006, 0x1b0007, 0x1b0008] [] [] h (Hw.sensorShow h d ch raw v) := by
  unfold Hw.sensorShow
  try simp only
  repeat' (first
    | with_reducible apply Hw.Only.refl
    | decide
    | (with_reducible apply Hw.Only.ite <;> intro _)
    | (with_reducible apply Hw.Only.ite2 <;> intro _)
    | (with_reducible apply Hw.Only.step ?_ (Hw.wr_only ..))
    | (with_reducible apply Hw.Only.step ?_ (Hw.wrS_only ..))
    | dsimp only
    | split
    | (apply Hw.Only.of_pair; assumption)
    | (apply Hw.Only.of_triple; assumption))

theorem Hw.riseEvent_only (h : Hw) (d ch : Nat) (old new : Bool) (by_ : Int) :
    Hw.Only [0x1f] [.front, .buckets, .folded] [] h (Hw.riseEvent h d ch old new by_) := by
  unfold Hw.riseEvent
  try simp only
  repeat' (first
    | with_reducible apply Hw.Only.refl
    | decide
    | (with_reducible apply Hw.Only.ite <;> intro _)
    | (with_reducible apply Hw.Only.ite2 <;> intro _)
    | (with_reducible apply Hw.Only.step ?_ (Hw.event_only ..))
    | dsimp only
    | split)

theorem Hw.thermRead_only (h : Hw) (d ch raw : Nat) (temp : Option Int) :
    Hw.Only [0x1f, 0x1b0001, 0x1b0002, 0x1b0003, 0x1b0004, 0x1b0005, 0x1b0006, 0x1b0007, 0x1b0008] [.front, .buckets, .folded, .sensors] [] h (Hw.thermRead h d ch raw temp) := by
  unfold Hw.thermRead
  try simp only
  repeat' (first
    | with_reducible apply Hw.Only.refl
    | decide
    | (with_reducible apply Hw.Only.ite <;> intro _)
    | (with_reducible apply Hw.Only.ite2 <;> intro _)
    | (with_reducible apply Hw.Only.step ?_ (Hw.wr_only ..))
    | (with_reducible apply Hw.Only.step ?_ (Hw.riseEvent_only ..))
    | (with_reducible apply Hw.Only.step ?_ (Hw.sensorShow_only ..))
    | (with_reducible apply Hw.Only.step ?_ (Hw.onSensor_only ..))
    | (with_reducible apply Hw.Only.step ?_ (Hw.event_only ..))
    | dsimp only
    | split
    | (apply Hw.Only.of_pair; assumption)
    | (apply Hw.Only.of_triple; assumption))

theorem Hw.voltRead_only (h : Hw) (d ch raw : Nat) (mv : Int) :
    Hw.Only [0x1f, 0x1b0001, 0x1b0002, 0x1b0003, 0x1b0006, 0x1b0007, 0x1b0008] [.front, .buckets, .folded, .sensors] [] h (Hw.voltRead h d ch raw mv) := by
  unfold Hw.voltRead
  try simp only
  repeat' (first
    | with_reducible apply Hw.Only.refl
    | decide
    | (with_reducible apply Hw.Only.ite <;> intro _)
    | (with_reducible apply Hw.Only.ite2 <;> intro _)
    | (with_reducible apply Hw.Only.step ?_ (Hw.sensorShow_only ..))
    | (with_reducible apply Hw.Only.step ?_ (Hw.onSensor_only ..))
    | (with_reducible apply Hw.Only.step ?_ (Hw.event_only ..))
    | dsimp only
    | split)

theorem Hw.throttleRound_only (h : Hw) (d : Nat) :
    Hw.Only [0x1f, 0x1c0003] [.front, .buckets, .folded] [] h (Hw.throttleRound h d) := by
  unfold Hw.throttleRound
  try simp only
  repeat' (first
    | with_reducible apply Hw.Only.refl
    | decide
    | (with_reducible apply Hw.Only.ite <;> intro _)
    | (with_reducible apply Hw.Only.ite2 <;> intro _)
    | (with_reducible apply Hw.Only.foldl)
    | (intro (_ : Hw); intro _)
    | (intro (_ : Hw))
    | (with_reducible apply Hw.Only.foldlP)
    | (intro (_ : _ × Hw); intro _)
    | (with_reducible apply Hw.Only.step ?_ (Hw.wr_only ..))
    | (with_reducible apply Hw.Only.step ?_ (Hw.event_only ..))
    | dsimp only
    | split
    | (apply Hw.Only.of_pair; assumption)
    | (apply Hw.Only.of_triple; assumption))

theorem Hw.speedRound_only (h : Hw) (d : Nat) :
    Hw.Only [0x1f, 0x60003, 0x1c0008] [.front, .buckets, .folded] [.hsPins] h (Hw.speedRound h d) := by
  unfold Hw.speedRound
  try simp only
  repeat' (first
    | with_reducible apply Hw.Only.refl
    | decide
    | (with_reducible apply Hw.Only.step ?_ (Hw.wr_only ..))
    | (with_reducible apply Hw.Only.step ?_ (Hw.setReq_only ..))
    | dsimp only
    | split)

theorem Hw.tjRound_only (h : Hw) (d : Nat) :
    Hw.Only [0x1c0006, 0x1c0007] [] [] h (Hw.tjRound h d) := by
  unfold Hw.tjRound
  try simp only
  repeat' (first
    | with_reducible apply Hw.Only.refl
    | decide
    | (with_reducible apply Hw.Only.foldl)
    | (intro (_ : Hw); intro _)
    | (intro (_ : Hw))
    | (with_reducible apply Hw.Only.foldlP)
    | (intro (_ : _ × Hw); intro _)
    | (with_reducible apply Hw.Only.step ?_ (Hw.wr_only ..))
    | (with_reducible apply Hw.Only.step ?_ (Hw.wrS_only ..))
    | dsimp only
    | split
    | (apply Hw.Only.of_pair; assumption)
    | (apply Hw.Only.of_triple; assumption))

theorem Hw.criticalRound_only (h : Hw) (d : Nat) (old : List Sensor) :
    Hw.Only [0x1f, 0x60003, 0xc0022, 0xc0023, 0xc0025] [.front, .buckets, .folded, .ctxs, .stop, .crit] [.hsPins] h (Hw.criticalRound h d old) := by
  unfold Hw.criticalRound
  try simp only
  repeat' (first
    | with_reducible apply Hw.Only.refl
    | (intro D x hx; cases x <;> first | exact absurd (by decide) hx | exact rfl)
    | decide
    | (with_reducible apply Hw.Only.foldl)
    | (intro (_ : Hw); intro _)
    | (intro (_ : Hw))
    | (with_reducible apply Hw.Only.foldlP)
    | (intro (_ : _ × Hw); intro _)
    | (with_reducible apply Hw.Only.step ?_ (Hw.startStop_only ..))
    | (with_reducible apply Hw.Only.step ?_ (Hw.event_only ..))
    | (with_reducible apply Hw.Only.step ?_ (Hw.onDie_only [.crit] _ _ _ ?_))
    | dsimp only
    | split
    | (apply Hw.Only.of_pair; assumption)
    | (apply Hw.Only.of_triple; assumption))

theorem Hw.onCal_only (h : Hw) (d i : Nat) (f : Cal → Cal) :
    Hw.Only [] [.cals] [] h (Hw.onCal h d i f) := by
  unfold Hw.onCal
  try simp only
  repeat' (first
    | with_reducible apply Hw.Only.refl
    | (intro D x hx; cases x <;> first | exact absurd (by decide) hx | exact rfl)
    | decide
    | (with_reducible apply Hw.Only.step ?_ (Hw.onDie_only [.cals] _ _ _ ?_))
    | dsimp only
    | split)

theorem Hw.calStore_only (h : Hw) (d i : Nat) :
    Hw.Only [0x1d000a] [.cals] [] h (Hw.calStore h d i) := by
  unfold Hw.calStore
  try simp only
  repeat' (first
    | with_reducible apply Hw.Only.refl
    | decide
    | (with_reducible apply Hw.Only.ite <;> intro _)
    | (with_reducible apply Hw.Only.ite2 <;> intro _)
    | (with_reducible apply Hw.Only.step ?_ (Hw.wr_only ..))
    | (with_reducible apply Hw.Only.step ?_ (Hw.onCal_only ..))
    | dsimp only
    | split)

theorem Hw.nvFlush_only (h : Hw) (d : Nat) :
    Hw.Only [0x1d000a] [.cals, .nvTables, .nvWait] [.fwKept] h (Hw.nvFlush h d) := by
  unfold Hw.nvFlush
  try simp only
  repeat' (first
    | with_reducible apply Hw.Only.refl
    | (intro D x hx; cases x <;> first | exact absurd (by decide) hx | exact rfl)
    | decide
    | (with_reducible apply Hw.Only.ite <;> intro _)
    | (with_reducible apply Hw.Only.ite2 <;> intro _)
    | (with_reducible apply Hw.Only.foldl)
    | (intro (_ : Hw); intro _)
    | (intro (_ : Hw))
    | (with_reducible apply Hw.Only.foldlP)
    | (intro (_ : _ × Hw); intro _)
    | (with_reducible apply Hw.Only.step ?_ (Hw.calStore_only ..))
    | (with_reducible apply Hw.Only.step ?_ (Hw.onDie_only [.nvTables, .nvWait] _ _ _ ?_))
    | dsimp only
    | split
    | (with_reducible apply Hw.Only.step ?_ (Hw.with_fwKept ..)))

theorem Hw.nvRound_only (h : Hw) (d : Nat) :
    Hw.Only [0x1f, 0x1c0009, 0x1d000a] [.front, .buckets, .folded, .cals, .nvTables, .nvWait] [.fwKept] h (Hw.nvRound h d) := by
  unfold Hw.nvRound
  try simp only
  repeat' (first
    | with_reducible apply Hw.Only.refl
    | decide
    | (with_reducible apply Hw.Only.ite <;> intro _)
    | (with_reducible apply Hw.Only.ite2 <;> intro _)
    | (with_reducible apply Hw.Only.foldl)
    | (intro (_ : Hw); intro _)
    | (intro (_ : Hw))
    | (with_reducible apply Hw.Only.foldlP)
    | (intro (_ : _ × Hw); intro _)
    | (with_reducible apply Hw.Only.step ?_ (Hw.wr_only ..))
    | (with_reducible apply Hw.Only.step ?_ (Hw.nvFlush_only ..))
    | (with_reducible apply Hw.Only.step ?_ (Hw.event_only ..))
    | dsimp only
    | split
    | (apply Hw.Only.of_pair; assumption)
    | (apply Hw.Only.of_triple; assumption))

theorem Hw.calSettle_only (h : Hw) (d id fate : Nat) :
    Hw.Only [] [.mbx] [.pkg] h (Hw.calSettle h d id fate) := by
  unfold Hw.calSettle
  try simp only
  repeat' (first
    | with_reducible apply Hw.Only.refl
    | (intro D x hx; cases x <;> first | exact absurd (by decide) hx | exact rfl)
    | decide
    | (with_reducible apply Hw.Only.ite <;> intro _)
    | (with_reducible apply Hw.Only.ite2 <;> intro _)
    | (with_reducible apply Hw.Only.step ?_ (Hw.settle_only ..))
    | dsimp only
    | split)

theorem Hw.calEnd_only (h : Hw) (d i fate : Nat) :
    Hw.Only [] [.mbx, .cals] [.pkg] h (Hw.calEnd h d i fate) := by
  unfold Hw.calEnd
  try simp only
  repeat' (first
    | with_reducible apply Hw.Only.refl
    | decide
    | (with_reducible apply Hw.Only.step ?_ (Hw.calSettle_only ..))
    | (with_reducible apply Hw.Only.step ?_ (Hw.onCal_only ..))
    | dsimp only
    | split
    | (apply Hw.Only.of_pair; assumption)
    | (apply Hw.Only.of_triple; assumption))

theorem Hw.calFail_only (h : Hw) (d i to_ cause detail : Nat) :
    Hw.Only [0x1f, 0x1d0001, 0x1d000b] [.mbx, .front, .buckets, .folded, .cals] [.pkg] h (Hw.calFail h d i to_ cause detail) := by
  unfold Hw.calFail
  try simp only
  repeat' (first
    | with_reducible apply Hw.Only.refl
    | decide
    | (with_reducible apply Hw.Only.step ?_ (Hw.wr_only ..))
    | (with_reducible apply Hw.Only.step ?_ (Hw.add_only ..))
    | (with_reducible apply Hw.Only.step ?_ (Hw.calEnd_only ..))
    | (with_reducible apply Hw.Only.step ?_ (Hw.event_only ..))
    | dsimp only
    | split)

theorem Hw.adcRound_only (h : Hw) (d r38 r58 : Nat) :
    Hw.Only [0x1d0008, 0x1d0009, 0x1d000a] [.cals] [] h (Hw.adcRound h d r38 r58) := by
  unfold Hw.adcRound
  try simp only
  repeat' (first
    | with_reducible apply Hw.Only.refl
    | decide
    | (with_reducible apply Hw.Only.ite <;> intro _)
    | (with_reducible apply Hw.Only.ite2 <;> intro _)
    | (with_reducible apply Hw.Only.step ?_ (Hw.wr_only ..))
    | (with_reducible apply Hw.Only.step ?_ (Hw.calStore_only ..))
    | (with_reducible apply Hw.Only.step ?_ (Hw.onCal_only ..))
    | dsimp only
    | split
    | (apply Hw.Only.of_pair; assumption)
    | (apply Hw.Only.of_triple; assumption))

theorem Hw.gapStart_only (h : Hw) (d i : Nat) (id : Option Nat) :
    Hw.Only [0x1d0001] [.cals] [] h (Hw.gapStart h d i id) := by
  unfold Hw.gapStart
  try simp only
  repeat' (first
    | with_reducible apply Hw.Only.refl
    | decide
    | (with_reducible apply Hw.Only.step ?_ (Hw.wr_only ..))
    | (with_reducible apply Hw.Only.step ?_ (Hw.onCal_only ..))
    | dsimp only
    | split)

theorem Hw.qualityRound_only (h : Hw) (d i : Nat) :
    Hw.Only [0x1d0008, 0x1d0009] [] [.free] h (Hw.qualityRound h d i) := by
  unfold Hw.qualityRound
  try simp only
  repeat' (first
    | with_reducible apply Hw.Only.refl
    | decide
    | (with_reducible apply Hw.Only.ite <;> intro _)
    | (with_reducible apply Hw.Only.ite2 <;> intro _)
    | (with_reducible apply Hw.Only.step ?_ (Hw.wr_only ..))
    | (with_reducible apply Hw.Only.step ?_ (Hw.fresh_only ..))
    | dsimp only
    | split)

theorem Hw.calRound_only (h : Hw) (d i : Nat) :
    Hw.Only [0x1f, 0x1d0001, 0x1d0008, 0x1d0009] [.front, .buckets, .folded, .cals] [.free] h (Hw.calRound h d i) := by
  unfold Hw.calRound
  try simp only
  repeat' (first
    | with_reducible apply Hw.Only.refl
    | decide
    | (with_reducible apply Hw.Only.ite <;> intro _)
    | (with_reducible apply Hw.Only.ite2 <;> intro _)
    | (with_reducible apply Hw.Only.step ?_ (Hw.qualityRound_only ..))
    | (with_reducible apply Hw.Only.step ?_ (Hw.gapStart_only ..))
    | (with_reducible apply Hw.Only.step ?_ (Hw.calStale_only ..))
    | dsimp only
    | split
    | (apply Hw.Only.of_pair; assumption)
    | (apply Hw.Only.of_triple; assumption))

theorem Hw.calSucceed_only (h : Hw) (d i quality : Nat) (values : List Byte) :
    Hw.Only [0x1f, 0x130001, 0x15000c, 0x15000d, 0x1d0001, 0x1d0002, 0x1d0003, 0x1d0004, 0x1d0008, 0x1d0009, 0x1d000a] [.mbx, .front, .buckets, .folded, .cals] [.pkg] h (Hw.calSucceed h d i quality values) := by
  unfold Hw.calSucceed
  try simp only
  repeat' (first
    | with_reducible apply Hw.Only.refl
    | decide
    | (with_reducible apply Hw.Only.foldl)
    | (intro (_ : Hw); intro _)
    | (intro (_ : Hw))
    | (with_reducible apply Hw.Only.foldlP)
    | (intro (_ : _ × Hw); intro _)
    | (with_reducible apply Hw.Only.step ?_ (Hw.wr_only ..))
    | (with_reducible apply Hw.Only.step ?_ (Hw.add_only ..))
    | (with_reducible apply Hw.Only.step ?_ (Hw.calEnd_only ..))
    | (with_reducible apply Hw.Only.step ?_ (Hw.calStore_only ..))
    | (with_reducible apply Hw.Only.step ?_ (Hw.onCal_only ..))
    | (with_reducible apply Hw.Only.step ?_ (Hw.chRelease_only ..))
    | (with_reducible apply Hw.Only.step ?_ (Hw.onBar_only ..))
    | (with_reducible apply Hw.Only.step ?_ (Hw.event_only ..))
    | dsimp only
    | split
    | (apply Hw.Only.of_pair; assumption)
    | (apply Hw.Only.of_triple; assumption))

/-! ### QueueCtl -/

theorem queueState_only {C : List Nat} {F : List DieRec} {G : List HwRec} {act : Hw → Nat → Hw} (H : ∀ h p, Hw.Only C F G h (act h p)) (qs : List Nat)
    (bad : Nat → Bool) (h : Hw) : Hw.Only C F G h (queueState qs bad act h).2 := by
  unfold queueState
  split
  · exact .refl _ _ _ _
  · exact .foldl (.refl _ _ _ _) H _

/-! ### Gatehouse -/

theorem Hw.ghSpit_only (h : Hw) :
    Hw.Only [0x1f, 0x10021, 0x70002] [.front, .buckets, .folded, .ports, .spits] [] h (Hw.ghSpit h) := by
  unfold Hw.ghSpit
  try simp only
  repeat' (first
    | with_reducible apply Hw.Only.refl
    | decide
    | (with_reducible apply Hw.Only.ite <;> intro _)
    | (with_reducible apply Hw.Only.ite2 <;> intro _)
    | (with_reducible apply Hw.Only.foldl)
    | (intro (_ : Hw); intro _)
    | (intro (_ : Hw))
    | (with_reducible apply Hw.Only.foldlP)
    | (intro (_ : _ × Hw); intro _)
    | (with_reducible apply Hw.Only.step ?_ (Hw.rildin_only (C := [0x1f, 0x10021, 0x70002]) (F := [.front, .buckets, .folded, .ports, .spits]) (G := []) ?_ ?_ ..))
    | (with_reducible apply Hw.Only.step ?_ (hpSpitBody_only ..))
    | (with_reducible apply Hw.Only.step ?_ (Hw.configChange_only ..))
    | dsimp only
    | split)

theorem Hw.ghStart_only (h : Hw) (x0 : Int) :
    Hw.Only [0x1f, 0x60001, 0x60003, 0x60020, 0x70002, 0x80002, 0x80003, 0x80004, 0x80005, 0x90003, 0xb0001, 0xb0002, 0xb0004, 0xb0006, 0xb0007, 0xb000a, 0xb000b, 0xc0020, 0xc0021, 0xc0022, 0xc0023, 0xc0025, 0x120001, 0x130001, 0x130002] [.mbx, .front, .buckets, .folded, .hwmOn, .leaving, .ports, .changes, .bankFrom, .ctxs, .stop, .mx] [.pkg, .hsForce, .hsPins, .gh, .stores] h (Hw.ghStart h x0) := by
  unfold Hw.ghStart
  try simp only
  repeat' (first
    | with_reducible apply Hw.Only.refl
    | (intro D x hx; cases x <;> first | exact absurd (by decide) hx | exact rfl)
    | decide
    | (with_reducible apply Hw.Only.ite <;> intro _)
    | (with_reducible apply Hw.Only.ite2 <;> intro _)
    | (with_reducible apply Hw.Only.foldl)
    | (intro (_ : Hw); intro _)
    | (intro (_ : Hw))
    | (with_reducible apply Hw.Only.foldlP)
    | (intro (_ : _ × Hw); intro _)
    | (with_reducible apply Hw.Only.step ?_ (Hw.chAlign_only ..))
    | (with_reducible apply Hw.Only.step ?_ (Hw.onCh_only ..))
    | (with_reducible apply Hw.Only.step ?_ (Hw.beginCtx_only ..))
    | (with_reducible apply Hw.Only.step ?_ (Hw.eventPkg_only ..))
    | (with_reducible apply Hw.Only.step ?_ (Hw.onDie_only [.ctxs] _ _ _ ?_))
    | dsimp only
    | split
    | (with_reducible apply Hw.Only.step ?_ (Hw.with_gh ..)))

theorem Hw.ghEnd_only (h : Hw) :
    Hw.Only [0x0] [.mbx, .queues, .front, .buckets, .folded, .hwmOn, .leaving, .ports, .changes, .ctxs, .stop] [.pkg, .eps, .hsPins, .gh, .stores, .out] h (Hw.ghEnd h) := by
  unfold Hw.ghEnd
  try simp only
  repeat' (first
    | with_reducible apply Hw.Only.refl
    | decide
    | (with_reducible apply Hw.Only.ite <;> intro _)
    | (with_reducible apply Hw.Only.ite2 <;> intro _)
    | (with_reducible apply Hw.Only.foldl)
    | (intro (_ : Hw); intro _)
    | (intro (_ : Hw))
    | (with_reducible apply Hw.Only.foldlP)
    | (intro (_ : _ × Hw); intro _)
    | (with_reducible apply Hw.Only.step ?_ (Hw.onCh_only ..))
    | (with_reducible apply Hw.Only.step ?_ (Hw.closeCtx_only ..))
    | (with_reducible apply Hw.Only.step ?_ (Hw.eventPkg_only ..))
    | dsimp only
    | split
    | (apply Hw.Only.of_pair; assumption)
    | (apply Hw.Only.of_triple; assumption)
    | (with_reducible apply Hw.Only.step ?_ (Hw.with_gh ..)))

theorem Hw.hostedCheck_only (h : Hw) :
    Hw.Only [0x0] [.mbx, .queues, .front, .buckets, .folded, .hwmOn, .leaving, .ports, .changes, .ctxs, .stop] [.mode, .pkg, .eps, .hostedWait, .hsPins, .gh, .stores, .out] h (Hw.hostedCheck h) := by
  unfold Hw.hostedCheck
  try simp only
  repeat' (first
    | with_reducible apply Hw.Only.refl
    | decide
    | (with_reducible apply Hw.Only.ite <;> intro _)
    | (with_reducible apply Hw.Only.ite2 <;> intro _)
    | (with_reducible apply Hw.Only.foldl)
    | (intro (_ : Hw); intro _)
    | (intro (_ : Hw))
    | (with_reducible apply Hw.Only.foldlP)
    | (intro (_ : _ × Hw); intro _)
    | (with_reducible apply Hw.Only.step ?_ (Hw.ghEnd_only ..))
    | (with_reducible apply Hw.Only.step ?_ (Hw.modeTo_only ..))
    | (with_reducible apply Hw.Only.step ?_ (Hw.settle_only ..))
    | dsimp only
    | split
    | (with_reducible apply Hw.Only.step ?_ (Hw.with_hostedWait ..)))

theorem Hw.ghPair_only (h : Hw) (d : Nat) :
    Hw.Only [0x1f, 0x60001, 0x60003, 0x60020, 0x70002, 0x80002, 0x80003, 0x80004, 0x80005, 0x90003, 0xb0001, 0xb0002, 0xb0004, 0xb0006, 0xb0007, 0xb000a, 0xb000b, 0xc0020, 0xc0021, 0xc0022, 0xc0023, 0xc0025, 0x120001, 0x130001, 0x130002] [.mbx, .front, .buckets, .folded, .hwmOn, .leaving, .ports, .changes, .bankFrom, .ctxs, .stop, .mx] [.pkg, .hsForce, .hsPins, .gh, .stores] h (Hw.ghPair h d) := by
  unfold Hw.ghPair
  try simp only
  repeat' (first
    | with_reducible apply Hw.Only.refl
    | decide
    | (with_reducible apply Hw.Only.ite <;> intro _)
    | (with_reducible apply Hw.Only.ite2 <;> intro _)
    | (with_reducible apply Hw.Only.step ?_ (Hw.ghStart_only ..))
    | dsimp only
    | split)

/-! ### Motion -/

theorem Hw.afterPair_only (h : Hw) (d : Nat) (before : Pair) :
    Hw.Only [0x0] [.mbx, .queues, .front, .buckets, .folded, .pulses, .pos, .hwmOn, .leaving, .ports, .changes, .banks, .bankFrom, .ctxs, .stop, .mx, .lineFaults] [.blks, .mode, .pkg, .eps, .hostedWait, .hsForce, .hsPins, .gh, .stores, .out] h (Hw.afterPair h d before) := by
  unfold Hw.afterPair
  try simp only
  repeat' (first
    | with_reducible apply Hw.Only.refl
    | decide
    | (with_reducible apply Hw.Only.ite <;> intro _)
    | (with_reducible apply Hw.Only.ite2 <;> intro _)
    | (with_reducible apply Hw.Only.step ?_ (Hw.ghPair_only ..))
    | (with_reducible apply Hw.Only.step ?_ (Hw.hostedCheck_only ..))
    | (with_reducible apply Hw.Only.step ?_ (Hw.chPair_only ..))
    | (with_reducible apply Hw.Only.step ?_ (Hw.faultPass_only ..))
    | (with_reducible apply Hw.Only.step ?_ (Hw.lePair_only ..))
    | (with_reducible apply Hw.Only.step ?_ (Hw.stretchLocal_only ..))
    | dsimp only
    | split)

theorem Hw.motionOn_only {C : List Nat} {F : List DieRec} {G : List HwRec} {f : Hw → Hw} (H : ∀ h, Hw.Only C F G h (f h))
    (hs : Parts [0x0] [.mbx, .queues, .front, .buckets, .folded, .pulses, .pos, .hwmOn, .leaving, .ports, .changes, .banks, .bankFrom, .ctxs, .stop, .mx, .lineFaults] [.blks, .mode, .pkg, .eps, .hostedWait, .hsForce, .hsPins, .gh, .stores, .out] C F G) (h : Hw) (d : Nat) : Hw.Only C F G h (h.motionOn d f) :=
  (H h).step (Hw.afterPair_only ..) hs

/-! ### Firmware -/

theorem Hw.onSlots_only (h : Hw) (f : List FwSlot → List FwSlot) :
    Hw.Only [] [] [.fwSlots, .fwKept] h (Hw.onSlots h f) := by
  unfold Hw.onSlots
  try simp only
  repeat' (first
    | with_reducible apply Hw.Only.refl
    | decide
    | (with_reducible apply Hw.Only.ite <;> intro _)
    | (with_reducible apply Hw.Only.ite2 <;> intro _)
    | dsimp only
    | split
    | (with_reducible apply Hw.Only.step ?_ (Hw.with_fwKept_fwSlots ..)))

end Sys2Proof.Machine
end

