-- ==== Sys2Proof/Laws/OnlyPackage.lean ====
section
/-!
SUPPORT. Frames of the operations of the package: boot, power, scripts and the mailbox: what each can change, from the frames of the operations it calls.
-/
namespace Sys2Proof.Machine

/-! ### Boot -/

theorem Hw.dieDown_only (h : Hw) (d : Nat) :
    Hw.Only [0x0] [.mbx, .sb, .queues, .front, .buckets, .folded, .erSel, .ptp, .itv, .up, .enc, .pos, .hwmOn, .leaving, .ports, .spits, .changes, .banks, .bankFrom, .codec, .ctxs, .ctxCache, .streams, .stop, .cams, .ispRun, .chains, .lamps, .mx, .crit, .cals, .lineFaults, .pdWork] [.blks, .stages, .eps, .hsPins, .wipes] h (Hw.dieDown h d) := by
  unfold Hw.dieDown
  try simp only
  repeat' (first
    | with_reducible apply Hw.Only.refl
    | (intro D x hx; cases x <;> first | exact absurd (by decide) hx | exact rfl)
    | decide
    | (with_reducible apply Hw.Only.foldl)
    | (intro (_ : Hw); intro _)
    | (intro (_ : Hw))
    | (with_reducible apply Hw.Only.foldlP)
    | (intro (_ : _ × Hw); intro _)
    | (with_reducible apply Hw.Only.step ?_ (Hw.wr_only ..))
    | (with_reducible apply Hw.Only.step ?_ (Hw.lose_only ..))
    | (with_reducible apply Hw.Only.step ?_ (Hw.onDie_only [.mbx, .sb, .erSel, .up, .crit, .cals, .pdWork] _ _ _ ?_))
    | dsimp only
    | (with_reducible apply Hw.Only.step ?_ (Hw.with_regs_stages ..)))

theorem Hw.pkgDown_only (h : Hw) :
    Hw.Only [0x0] [] [.blks, .stages, .replies, .mode, .lead, .leadSt, .takeover, .kennelWriting, .kennelFailRun, .kennelLateSeen, .moving, .ckptWork, .repairWork, .repairArmed, .safeFrom, .pkg, .fwBooted, .bootWatch, .tunnels, .hsIn, .ghRelease, .hostedWait, .resetDue, .hsSeen, .gh] h (Hw.pkgDown h) := by
  unfold Hw.pkgDown
  try simp only
  repeat' (first
    | with_reducible apply Hw.Only.refl
    | decide
    | (with_reducible apply Hw.Only.step ?_ (Hw.setLd_only ..))
    | dsimp only
    | (with_reducible apply Hw.Only.step ?_ (Hw.with_blks_bootWatch_ckptWork_fwBooted_gh_ghRelease_hostedWait_hsIn_hsSeen_kennelFailRun_kennelLateSeen_kennelWriting_lead_mode_moving_pkg_regs_repairArmed_repairWork_replies_resetDue_safeFrom_stages_takeover_tunnels ..)))

theorem Hw.unconfirmed_only (h : Hw) :
    Hw.Only [] [] [.fwSlots, .fwKept] h (Hw.unconfirmed h) := by
  unfold Hw.unconfirmed
  try simp only
  repeat' (first
    | with_reducible apply Hw.Only.refl
    | decide
    | (with_reducible apply Hw.Only.step ?_ (Hw.onSlots_only ..))
    | dsimp only
    | split
    | (apply Hw.Only.of_pair; assumption)
    | (apply Hw.Only.of_triple; assumption))

theorem Hw.resetPkg_only (h : Hw) :
    Hw.Only [0x0] [.mbx, .sb, .queues, .front, .buckets, .folded, .erSel, .ptp, .itv, .up, .enc, .pos, .hwmOn, .leaving, .ports, .spits, .changes, .banks, .bankFrom, .codec, .ctxs, .ctxCache, .streams, .stop, .cams, .ispRun, .chains, .lamps, .mx, .crit, .cals, .lineFaults, .pdWork] [.blks, .stages, .replies, .mode, .lead, .leadSt, .takeover, .kennelWriting, .kennelFailRun, .kennelLateSeen, .moving, .ckptWork, .repairWork, .repairArmed, .safeFrom, .pkg, .fwSlots, .fw, .fwBooted, .bootWatch, .eps, .tunnels, .hsIn, .ghRelease, .hostedWait, .fwKept, .resetDue, .hsForce, .hsPins, .hsOn, .hsSeen, .gh, .wipes] h (Hw.resetPkg h) := by
  unfold Hw.resetPkg
  try simp only
  repeat' (first
    | with_reducible apply Hw.Only.refl
    | decide
    | (with_reducible apply Hw.Only.foldl)
    | (intro (_ : Hw); intro _)
    | (intro (_ : Hw))
    | (with_reducible apply Hw.Only.foldlP)
    | (intro (_ : _ × Hw); intro _)
    | (with_reducible apply Hw.Only.step ?_ (Hw.unconfirmed_only ..))
    | (with_reducible apply Hw.Only.step ?_ (Hw.pkgDown_only ..))
    | (with_reducible apply Hw.Only.step ?_ (Hw.dieDown_only ..))
    | (with_reducible apply Hw.Only.step ?_ (Hw.showPins_only ..))
    | (with_reducible apply Hw.Only.step ?_ (Hw.fwAbort_only ..))
    | dsimp only
    | (with_reducible apply Hw.Only.step ?_ (Hw.with_hsForce_hsOn ..)))

theorem Hw.calLoad_only (h : Hw) (d i : Nat) :
    Hw.Only [0x15000c, 0x15000d, 0x1d0001, 0x1d0002, 0x1d0003, 0x1d0004, 0x1d0008] [.cals] [] h (Hw.calLoad h d i) := by
  unfold Hw.calLoad
  try simp only
  repeat' (first
    | with_reducible apply Hw.Only.refl
    | decide
    | (with_reducible apply Hw.Only.ite <;> intro _)
    | (with_reducible apply Hw.Only.ite2 <;> intro _)
    | (with_reducible apply Hw.Only.foldl)
    | (intro (_ : Hw); intro _)
    | (intro (_ : Hw))
    | (with_reducible apply Hw.Only.foldlP)
    | (intro (_ : _ × Hw); intro _)
    | (with_reducible apply Hw.Only.step ?_ (Hw.wr_only ..))
    | (with_reducible apply Hw.Only.step ?_ (Hw.onCal_only ..))
    | dsimp only
    | split
    | (apply Hw.Only.of_pair; assumption)
    | (apply Hw.Only.of_triple; assumption))

theorem Hw.dieUp_only (h : Hw) (d : Nat) (insts : List Nat) :
    Hw.Only [0x15000c, 0x15000d, 0x1c000d, 0x1d0001, 0x1d0002, 0x1d0003, 0x1d0004, 0x1d0008, 0x200001] [.up, .cals] [] h (Hw.dieUp h d insts) := by
  unfold Hw.dieUp
  try simp only
  repeat' (first
    | with_reducible apply Hw.Only.refl
    | (intro D x hx; cases x <;> first | exact absurd (by decide) hx | exact rfl)
    | decide
    | (with_reducible apply Hw.Only.ite <;> intro _)
    | (with_reducible apply Hw.Only.ite2 <;> intro _)
    | (with_reducible apply Hw.Only.foldl)
    | (intro (_ : Hw); intro _)
    | (intro (_ : Hw))
    | (with_reducible apply Hw.Only.foldlP)
    | (intro (_ : _ × Hw); intro _)
    | (with_reducible apply Hw.Only.step ?_ (Hw.wr_only ..))
    | (with_reducible apply Hw.Only.step ?_ (Hw.calLoad_only ..))
    | (with_reducible apply Hw.Only.step ?_ (Hw.gapStart_only ..))
    | (with_reducible apply Hw.Only.step ?_ (Hw.onCal_only ..))
    | (with_reducible apply Hw.Only.step ?_ (Hw.onDie_only [.up] _ _ _ ?_))
    | dsimp only
    | split)

theorem Hw.bootStart_only (h : Hw) (cause : Cause) (straps : Nat) :
    Hw.Only [0x10004, 0x15000c, 0x15000d, 0x1c000d, 0x1d0001, 0x1d0002, 0x1d0003, 0x1d0004, 0x1d0008, 0x200001, 0x200003, 0x200004, 0x200006] [.up, .cals] [.bl, .faultMask, .fwSlots, .fwBooted, .bootWatch, .fwKept, .railFault, .clkFault] h (Hw.bootStart h cause straps) := by
  unfold Hw.bootStart
  try simp only
  repeat' (first
    | with_reducible apply Hw.Only.refl
    | (intro x hx; cases x <;> first | exact absurd (by decide) hx | exact rfl)
    | decide
    | (with_reducible apply Hw.Only.ite <;> intro _)
    | (with_reducible apply Hw.Only.ite2 <;> intro _)
    | (with_reducible apply Hw.Only.foldl)
    | (intro (_ : Hw); intro _)
    | (intro (_ : Hw))
    | (with_reducible apply Hw.Only.foldlP)
    | (intro (_ : _ × Hw); intro _)
    | (with_reducible apply Hw.Only.step ?_ (Hw.wr_only ..))
    | (with_reducible apply Hw.Only.step ?_ (Hw.add_only ..))
    | (with_reducible apply Hw.Only.step ?_ (Hw.dieUp_only ..))
    | (with_reducible apply Hw.Only.step ?_ (Hw.onSlots_only ..))
    | (with_reducible apply Hw.Only.step ?_ (Hw.setFault_only ..))
    | dsimp only
    | split
    | (apply Hw.Only.of_pair; assumption)
    | (apply Hw.Only.of_triple; assumption)
    | (with_reducible refine Hw.Only.mono (Hw.Only.recs h _ [.bl, .faultMask, .fwBooted, .bootWatch, .railFault, .clkFault] (Eq.refl _) (Eq.refl _) ?_) ?_)
    | (with_reducible apply Hw.Only.step ?_ (Hw.with_clkFault_faultMask_railFault ..))
    | (with_reducible apply Hw.Only.step ?_ (Hw.with_bootWatch_fwBooted ..))
    | (with_reducible apply Hw.Only.step ?_ (Hw.with_bl ..)))

theorem Hw.holdReset_only (h : Hw) :
    Hw.Only [0x0] [.mbx, .sb, .queues, .front, .buckets, .folded, .erSel, .ptp, .itv, .up, .enc, .pos, .hwmOn, .leaving, .ports, .spits, .changes, .banks, .bankFrom, .codec, .ctxs, .ctxCache, .streams, .stop, .cams, .ispRun, .chains, .lamps, .mx, .crit, .cals, .lineFaults, .pdWork] [.blks, .stages, .replies, .mode, .lead, .leadSt, .takeover, .kennelWriting, .kennelFailRun, .kennelLateSeen, .moving, .ckptWork, .repairWork, .repairArmed, .safeFrom, .pkg, .fwSlots, .fw, .fwBooted, .bootWatch, .eps, .tunnels, .hsIn, .ghRelease, .hostedWait, .fwKept, .resetDue, .hsForce, .hsPins, .hsOn, .hsSeen, .gh, .wipes] h (Hw.holdReset h) := by
  unfold Hw.holdReset
  try simp only
  repeat' (first
    | with_reducible apply Hw.Only.refl
    | decide
    | (with_reducible apply Hw.Only.foldl)
    | (intro (_ : Hw); intro _)
    | (intro (_ : Hw))
    | (with_reducible apply Hw.Only.foldlP)
    | (intro (_ : _ × Hw); intro _)
    | (with_reducible apply Hw.Only.step ?_ (Hw.resetPkg_only ..))
    | (with_reducible apply Hw.Only.step ?_ (Hw.disarm_only ..))
    | dsimp only
    | split)

theorem Hw.queueBoot_only (h : Hw) (d i : Nat) (ws : List Nat) :
    Hw.Only [0x20001] [.queues] [.stores] h (Hw.queueBoot h d i ws) := by
  unfold Hw.queueBoot
  try simp only
  repeat' (first
    | with_reducible apply Hw.Only.refl
    | decide
    | (with_reducible apply Hw.Only.step ?_ (Hw.wr_only ..))
    | (with_reducible apply Hw.Only.step ?_ (Hw.store_only ..))
    | (with_reducible apply Hw.Only.step ?_ (Hw.onQ_only ..))
    | dsimp only
    | split)

theorem Hw.queuesBoot_only (h : Hw) (d : Nat) :
    Hw.Only [0x20001] [.queues] [.free, .stores] h (Hw.queuesBoot h d) := by
  unfold Hw.queuesBoot
  try simp only
  repeat' (first
    | with_reducible apply Hw.Only.refl
    | decide
    | (with_reducible apply Hw.Only.foldl)
    | (intro (_ : Hw); intro _)
    | (intro (_ : Hw))
    | (with_reducible apply Hw.Only.foldlP)
    | (intro (_ : _ × Hw); intro _)
    | (with_reducible apply Hw.Only.step ?_ (Hw.store_only ..))
    | (with_reducible apply Hw.Only.step ?_ (Hw.fresh_only ..))
    | (with_reducible apply Hw.Only.step ?_ (Hw.queueBoot_only ..))
    | dsimp only
    | split
    | (apply Hw.Only.of_pair; assumption)
    | (apply Hw.Only.of_triple; assumption))

theorem Hw.bankBoot_only (h : Hw) (d : Nat) :
    Hw.Only [0x90001, 0x90005, 0x90006, 0x90009] [.banks] [.blks, .free] h (Hw.bankBoot h d) := by
  unfold Hw.bankBoot
  try simp only
  repeat' (first
    | with_reducible apply Hw.Only.refl
    | decide
    | (with_reducible apply Hw.Only.foldl)
    | (intro (_ : Hw); intro _)
    | (intro (_ : Hw))
    | (with_reducible apply Hw.Only.foldlP)
    | (intro (_ : _ × Hw); intro _)
    | (with_reducible apply Hw.Only.step ?_ (Hw.wr_only ..))
    | (with_reducible apply Hw.Only.step ?_ (Hw.add_only ..))
    | (with_reducible apply Hw.Only.step ?_ (Hw.fresh_only ..))
    | (with_reducible apply Hw.Only.step ?_ (Hw.setBlk_only ..))
    | (with_reducible apply Hw.Only.step ?_ (Hw.onBank_only ..))
    | dsimp only
    | split)

theorem Hw.lineBoot_only (h : Hw) (d : Nat) :
    Hw.Only [0x20001, 0x90001, 0x90005, 0x90006, 0x90009, 0x200001] [.queues, .banks] [.blks, .free, .stores] h (Hw.lineBoot h d) := by
  unfold Hw.lineBoot
  try simp only
  repeat' (first
    | with_reducible apply Hw.Only.refl
    | decide
    | (with_reducible apply Hw.Only.step ?_ (Hw.wr_only ..))
    | (with_reducible apply Hw.Only.step ?_ (Hw.bankBoot_only ..))
    | (with_reducible apply Hw.Only.step ?_ (Hw.queuesBoot_only ..))
    | dsimp only
    | split)

theorem Hw.evtRestart_only (h : Hw) (d : Nat) :
    Hw.Only [0x1f, 0x20005, 0x20010, 0x20013, 0x20014, 0x20015, 0x20016, 0x1f0001, 0x1f0002, 0x1f0003, 0x1f0005, 0x1f000a] [.queues, .front, .buckets, .folded] [.ring, .evtNext, .eps, .stores, .out] h (Hw.evtRestart h d) := by
  unfold Hw.evtRestart
  try simp only
  repeat' (first
    | with_reducible apply Hw.Only.refl
    | (intro D x hx; cases x <;> first | exact absurd (by decide) hx | exact rfl)
    | decide
    | (with_reducible apply Hw.Only.step ?_ (Hw.add_only ..))
    | (with_reducible apply Hw.Only.step ?_ (Hw.numberEvent_only ..))
    | (with_reducible apply Hw.Only.step ?_ (Hw.onDie_only [.front] _ _ _ ?_))
    | dsimp only
    | split)

theorem Hw.leadBoot_only (h : Hw) (b : Nat) :
    Hw.Only [0x1f, 0x1a0002, 0x1a0003, 0x1a0004, 0x1a0005, 0x1a0008, 0x1a000c, 0x1a0012, 0x1e0001, 0x1e0002, 0x1a0010] [.front, .buckets, .folded] [.lead, .leadSt, .pkg] h (Hw.leadBoot h b) := by
  unfold Hw.leadBoot
  try simp only
  repeat' (first
    | with_reducible apply Hw.Only.refl
    | decide
    | (with_reducible apply Hw.Only.ite <;> intro _)
    | (with_reducible apply Hw.Only.ite2 <;> intro _)
    | (with_reducible apply Hw.Only.step ?_ (Hw.wr_only ..))
    | (with_reducible apply Hw.Only.step ?_ (Hw.setLd_only ..))
    | (with_reducible apply Hw.Only.step ?_ (Hw.enumerate_only ..))
    | dsimp only
    | split
    | (with_reducible apply Hw.Only.step ?_ (Hw.with_lead ..)))

theorem Hw.confirmSlots_only (h : Hw) (b i : Nat) :
    Hw.Only [0x1f] [.front, .buckets, .folded] [.fwSlots, .fwKept] h (Hw.confirmSlots h b i) := by
  unfold Hw.confirmSlots
  try simp only
  repeat' (first
    | with_reducible apply Hw.Only.refl
    | decide
    | (with_reducible apply Hw.Only.ite <;> intro _)
    | (with_reducible apply Hw.Only.ite2 <;> intro _)
    | (with_reducible apply Hw.Only.foldl)
    | (intro (_ : Hw); intro _)
    | (intro (_ : Hw))
    | (with_reducible apply Hw.Only.foldlP)
    | (intro (_ : _ × Hw); intro _)
    | (with_reducible apply Hw.Only.step ?_ (Hw.onSlots_only ..))
    | (with_reducible apply Hw.Only.step ?_ (Hw.eventPkg_only ..))
    | dsimp only
    | split)

theorem Hw.bootId_only (h : Hw) (d : Nat) :
    Hw.Only [0x1f] [.front, .buckets, .folded] [] h (Hw.bootId h d) := by
  unfold Hw.bootId
  try simp only
  repeat' (first
    | with_reducible apply Hw.Only.refl
    | decide
    | (with_reducible apply Hw.Only.step ?_ (Hw.event_only ..))
    | dsimp only
    | split)

theorem Hw.bootEvents_only (h : Hw) (b i bootMs : Nat) :
    Hw.Only [0x1f] [.front, .buckets, .folded] [] h (Hw.bootEvents h b i bootMs) := by
  unfold Hw.bootEvents
  try simp only
  repeat' (first
    | with_reducible apply Hw.Only.refl
    | decide
    | (with_reducible apply Hw.Only.ite <;> intro _)
    | (with_reducible apply Hw.Only.ite2 <;> intro _)
    | (with_reducible apply Hw.Only.foldl)
    | (intro (_ : Hw); intro _)
    | (intro (_ : Hw))
    | (with_reducible apply Hw.Only.foldlP)
    | (intro (_ : _ × Hw); intro _)
    | (with_reducible apply Hw.Only.step ?_ (Hw.bootId_only ..))
    | (with_reducible apply Hw.Only.step ?_ (Hw.eventPkg_only ..))
    | dsimp only
    | split)

theorem Hw.bootFinish_only (h : Hw) (b i bootMs : Nat) :
    Hw.Only [0x1f, 0x20001, 0x20005, 0x20010, 0x20013, 0x20014, 0x20015, 0x20016, 0x90001, 0x90005, 0x90006, 0x90009, 0x1a0002, 0x1a0003, 0x1a0004, 0x1a0005, 0x1a0008, 0x1a000c, 0x1a0012, 0x1e0001, 0x1e0002, 0x1f0001, 0x1f0002, 0x1f0003, 0x1f0005, 0x1f000a, 0x200001, 0x200005, 0x1a0010] [.queues, .front, .buckets, .folded, .banks] [.blks, .free, .lead, .leadSt, .pkg, .ring, .evtNext, .fwSlots, .bootWatch, .eps, .fwKept, .hsOn, .stores, .out] h (Hw.bootFinish h b i bootMs) := by
  unfold Hw.bootFinish
  try simp only
  repeat' (first
    | with_reducible apply Hw.Only.refl
    | (intro x hx; cases x <;> first | exact absurd (by decide) hx | exact rfl)
    | decide
    | (with_reducible apply Hw.Only.ite <;> intro _)
    | (with_reducible apply Hw.Only.ite2 <;> intro _)
    | (with_reducible apply Hw.Only.foldl)
    | (intro (_ : Hw); intro _)
    | (intro (_ : Hw))
    | (with_reducible apply Hw.Only.foldlP)
    | (intro (_ : _ × Hw); intro _)
    | (with_reducible apply Hw.Only.step ?_ (Hw.wr_only ..))
    | (with_reducible apply Hw.Only.step ?_ (Hw.bootEvents_only ..))
    | (with_reducible apply Hw.Only.step ?_ (Hw.confirmSlots_only ..))
    | (with_reducible apply Hw.Only.step ?_ (Hw.leadBoot_only ..))
    | (with_reducible apply Hw.Only.step ?_ (Hw.evtRestart_only ..))
    | (with_reducible apply Hw.Only.step ?_ (Hw.lineBoot_only ..))
    | dsimp only
    | split
    | (apply Hw.Only.of_pair; assumption)
    | (apply Hw.Only.of_triple; assumption)
    | (with_reducible refine Hw.Only.mono (Hw.Only.recs h _ [.lead, .bootWatch, .hsOn] (Eq.refl _) (Eq.refl _) ?_) ?_)
    | (with_reducible apply Hw.Only.step ?_ (Hw.with_bootWatch_hsOn ..))
    | (with_reducible apply Hw.Only.step ?_ (Hw.with_lead ..)))

/-! ### Power -/

theorem Hw.switchOn_only (h : Hw) (die id mask : Nat) (boots : Bool) :
    Hw.Only [0x200002] [.pdWork] [] h (Hw.switchOn h die id mask boots) := by
  unfold Hw.switchOn
  try simp only
  repeat' (first
    | with_reducible apply Hw.Only.refl
    | (intro D x hx; cases x <;> first | exact absurd (by decide) hx | exact rfl)
    | decide
    | (with_reducible apply Hw.Only.step ?_ (Hw.wr_only ..))
    | (with_reducible apply Hw.Only.step ?_ (Hw.onDie_only [.pdWork] _ _ _ ?_))
    | dsimp only
    | split)

theorem Hw.dieResetFor_only (h : Hw) (die : Nat) (q : Hdr) :
    Hw.Only [0x0] [.mbx, .sb, .queues, .front, .buckets, .folded, .erSel, .ptp, .itv, .up, .enc, .pos, .hwmOn, .leaving, .ports, .spits, .changes, .banks, .bankFrom, .codec, .ctxs, .ctxCache, .streams, .stop, .cams, .ispRun, .chains, .lamps, .mx, .crit, .cals, .lineFaults, .pdWork] [.blks, .stages, .replies, .leadSt, .eps, .hsPins, .wipes] h (Hw.dieResetFor h die q) := by
  unfold Hw.dieResetFor
  try simp only
  repeat' (first
    | with_reducible apply Hw.Only.refl
    | (intro D x hx; cases x <;> first | exact absurd (by decide) hx | exact rfl)
    | decide
    | (with_reducible apply Hw.Only.ite <;> intro _)
    | (with_reducible apply Hw.Only.ite2 <;> intro _)
    | (with_reducible apply Hw.Only.foldl)
    | (intro (_ : Hw); intro _)
    | (intro (_ : Hw))
    | (with_reducible apply Hw.Only.foldlP)
    | (intro (_ : _ × Hw); intro _)
    | (with_reducible apply Hw.Only.step ?_ (Hw.dieDown_only ..))
    | (with_reducible apply Hw.Only.step ?_ (Hw.setLd_only ..))
    | (with_reducible apply Hw.Only.step ?_ (Hw.onDie_only [.mbx] _ _ _ ?_))
    | dsimp only
    | split
    | (apply Hw.Only.of_pair; assumption)
    | (apply Hw.Only.of_triple; assumption)
    | (with_reducible apply Hw.Only.step ?_ (Hw.with_replies ..)))

theorem Hw.resetNow_only (h : Hw) :
    Hw.Only [0x0] [.mbx, .sb, .queues, .front, .buckets, .folded, .erSel, .tbs, .ptp, .itv, .up, .enc, .pos, .hwmOn, .leaving, .ports, .spits, .changes, .banks, .bankFrom, .codec, .ctxs, .ctxCache, .streams, .stop, .cams, .ispRun, .chains, .lamps, .mx, .crit, .cals, .lineFaults, .pdWork] [.blks, .stages, .clk, .replies, .bl, .mode, .lead, .leadSt, .takeover, .kennelWriting, .kennelFailRun, .kennelLateSeen, .moving, .ckptWork, .repairWork, .repairArmed, .safeFrom, .pkg, .faultMask, .fwSlots, .fw, .fwBooted, .bootWatch, .eps, .tunnels, .hsIn, .ghRelease, .hostedWait, .fwKept, .resetDue, .railFault, .clkFault, .hsForce, .hsPins, .hsOn, .hsSeen, .gh, .wipes] h (Hw.resetNow h) := by
  unfold Hw.resetNow
  try simp only
  repeat' (first
    | with_reducible apply Hw.Only.refl
    | decide
    | (with_reducible apply Hw.Only.step ?_ (Hw.bootStart_only ..))
    | (with_reducible apply Hw.Only.step ?_ (Hw.resetPkg_only ..))
    | (with_reducible apply Hw.Only.step ?_ (Hw.tick_only ..))
    | dsimp only
    | split)

theorem Hw.lineOn_only (h : Hw) (d : Nat) :
    Hw.Only [0x60001, 0x60004] [] [] h (Hw.lineOn h d) := by
  unfold Hw.lineOn
  try simp only
  repeat' (first
    | with_reducible apply Hw.Only.refl
    | decide
    | (with_reducible apply Hw.Only.ite <;> intro _)
    | (with_reducible apply Hw.Only.ite2 <;> intro _)
    | (with_reducible apply Hw.Only.step ?_ (Hw.wr_only ..))
    | dsimp only
    | split)

theorem Hw.dieBoot_only (h : Hw) (d : Nat) :
    Hw.Only [0x1f, 0x20001, 0x60001, 0x60004, 0x90001, 0x90005, 0x90006, 0x90009, 0x15000c, 0x15000d, 0x1c000d, 0x1d0001, 0x1d0002, 0x1d0003, 0x1d0004, 0x1d0008, 0x1e0002, 0x200001, 0x200004, 0x200005] [.queues, .front, .buckets, .folded, .up, .banks, .cals] [.blks, .free, .leadSt, .faultMask, .stores] h (Hw.dieBoot h d) := by
  unfold Hw.dieBoot
  try simp only
  repeat' (first
    | with_reducible apply Hw.Only.refl
    | decide
    | (with_reducible apply Hw.Only.ite <;> intro _)
    | (with_reducible apply Hw.Only.ite2 <;> intro _)
    | (with_reducible apply Hw.Only.step ?_ (Hw.wr_only ..))
    | (with_reducible apply Hw.Only.step ?_ (Hw.add_only ..))
    | (with_reducible apply Hw.Only.step ?_ (Hw.fresh_only ..))
    | (with_reducible apply Hw.Only.step ?_ (Hw.lineOn_only ..))
    | (with_reducible apply Hw.Only.step ?_ (Hw.bootId_only ..))
    | (with_reducible apply Hw.Only.step ?_ (Hw.lineBoot_only ..))
    | (with_reducible apply Hw.Only.step ?_ (Hw.dieUp_only ..))
    | (with_reducible apply Hw.Only.step ?_ (Hw.setFault_only ..))
    | (with_reducible apply Hw.Only.step ?_ (Hw.setLd_only ..))
    | dsimp only
    | split)

theorem Hw.switchedOn_only (h : Hw) (die : Nat) (w : Nat × Nat × Bool) :
    Hw.Only [0x1f, 0x20001, 0x60001, 0x60004, 0x90001, 0x90005, 0x90006, 0x90009, 0x15000c, 0x15000d, 0x1c000d, 0x1d0001, 0x1d0002, 0x1d0003, 0x1d0004, 0x1d0008, 0x1e0002, 0x200001, 0x200004, 0x200005] [.mbx, .queues, .front, .buckets, .folded, .up, .banks, .cals] [.blks, .free, .leadSt, .pkg, .faultMask, .stores] h (Hw.switchedOn h die w) := by
  unfold Hw.switchedOn
  try simp only
  repeat' (first
    | with_reducible apply Hw.Only.refl
    | (intro D x hx; cases x <;> first | exact absurd (by decide) hx | exact rfl)
    | decide
    | (with_reducible apply Hw.Only.ite <;> intro _)
    | (with_reducible apply Hw.Only.ite2 <;> intro _)
    | (with_reducible apply Hw.Only.step ?_ (Hw.wr_only ..))
    | (with_reducible apply Hw.Only.step ?_ (Hw.dieBoot_only ..))
    | (with_reducible apply Hw.Only.step ?_ (Hw.lineOn_only ..))
    | (with_reducible apply Hw.Only.step ?_ (Hw.pdChange_only ..))
    | (with_reducible apply Hw.Only.step ?_ (Hw.setFault_only ..))
    | (with_reducible apply Hw.Only.step ?_ (Hw.settle_only ..))
    | (with_reducible apply Hw.Only.step ?_ (Hw.onDie_only [.up] _ _ _ ?_))
    | dsimp only
    | split)

/-! ### Script -/

theorem Hw.ghEnter_only (h : Hw) :
    Hw.Only [0x1f, 0x140002, 0x140004, 0x140014, 0x140015, 0x140018, 0x140019, 0x14001a, 0x150001, 0x150002, 0x150003, 0x150004, 0x150005] [.front, .buckets, .folded, .tbChanges, .ptp] [.pkg, .gh] h (Hw.ghEnter h) := by
  unfold Hw.ghEnter
  try simp only
  repeat' (first
    | with_reducible apply Hw.Only.refl
    | decide
    | (with_reducible apply Hw.Only.foldl)
    | (intro (_ : Hw); intro _)
    | (intro (_ : Hw))
    | (with_reducible apply Hw.Only.foldlP)
    | (intro (_ : _ × Hw); intro _)
    | (with_reducible apply Hw.Only.step ?_ (Hw.wr_only ..))
    | (with_reducible apply Hw.Only.step ?_ (Hw.setPtpEnable_only ..))
    | (with_reducible apply Hw.Only.step ?_ (Hw.setTbSource_only ..))
    | dsimp only
    | (with_reducible apply Hw.Only.step ?_ (Hw.with_gh ..)))

theorem Hw.scriptErr_only (h : Hw) (index op status : Nat) :
    Hw.Only [0x1f] [.front, .buckets, .folded] [.gh] h (Hw.scriptErr h index op status) := by
  unfold Hw.scriptErr
  try simp only
  repeat' (first
    | with_reducible apply Hw.Only.refl
    | decide
    | (with_reducible apply Hw.Only.step ?_ (Hw.eventPkg_only ..))
    | dsimp only
    | (with_reducible apply Hw.Only.step ?_ (Hw.with_gh ..)))

theorem Hw.scriptEnd_only (h : Hw) :
    Hw.Only [0x1f] [.front, .buckets, .folded] [.free, .gh] h (Hw.scriptEnd h) := by
  unfold Hw.scriptEnd
  try simp only
  repeat' (first
    | with_reducible apply Hw.Only.refl
    | decide
    | (with_reducible apply Hw.Only.step ?_ (Hw.fresh_only ..))
    | (with_reducible apply Hw.Only.step ?_ (Hw.scriptErr_only ..))
    | dsimp only
    | split)

theorem modeGatehouse_only (hw : Hw) :
    Hw.Only [0x1f] [.mbx, .front, .buckets, .folded] [.mode, .pkg, .hostedWait] hw (modeGatehouse hw).2 := by
  unfold modeGatehouse
  try simp only
  repeat' (first
    | with_reducible apply Hw.Only.refl
    | (intro D x hx; cases x <;> first | exact absurd (by decide) hx | exact rfl)
    | decide
    | (with_reducible apply Hw.Only.ite <;> intro _)
    | (with_reducible apply Hw.Only.ite2 <;> intro _)
    | (with_reducible apply Hw.Only.foldl)
    | (intro (_ : Hw); intro _)
    | (intro (_ : Hw))
    | (with_reducible apply Hw.Only.foldlP)
    | (intro (_ : _ × Hw); intro _)
    | (with_reducible apply Hw.Only.step ?_ (Hw.modeTo_only ..))
    | (with_reducible apply Hw.Only.step ?_ (refuse_only ..))
    | (with_reducible apply Hw.Only.step ?_ (okWith_only ..))
    | (with_reducible apply Hw.Only.step ?_ (Hw.settle_only ..))
    | dsimp only
    | split
    | (with_reducible apply Hw.Only.step ?_ (Hw.with_hostedWait ..)))

theorem modeHosted_only (q : Hdr) (d : Nat) (hw : Hw) :
    Hw.Only [0x0] [.mbx, .queues, .front, .buckets, .folded, .hwmOn, .leaving, .ports, .changes, .ctxs, .stop] [.nextId, .mode, .pkg, .eps, .hostedWait, .hsPins, .gh, .stores, .out] hw (modeHosted q d hw).2 := by
  unfold modeHosted
  try simp only
  repeat' (first
    | with_reducible apply Hw.Only.refl
    | decide
    | (with_reducible apply Hw.Only.ite <;> intro _)
    | (with_reducible apply Hw.Only.ite2 <;> intro _)
    | (with_reducible apply Hw.Only.step ?_ (Hw.hostedCheck_only ..))
    | (with_reducible apply Hw.Only.step ?_ (Hw.startStop_only ..))
    | (with_reducible apply Hw.Only.step ?_ (Hw.modeTo_only ..))
    | (with_reducible apply Hw.Only.step ?_ (okWith_only ..))
    | (with_reducible apply Hw.Only.step ?_ (Hw.deferWork_only ..))
    | dsimp only
    | split
    | (apply Hw.Only.of_pair; assumption)
    | (apply Hw.Only.of_triple; assumption)
    | (with_reducible apply Hw.Only.step ?_ (Hw.with_hostedWait ..)))

theorem Hw.scriptStatus_only (h : Hw) (index op : Nat) (st : Status) :
    Hw.Only [0x1f] [.front, .buckets, .folded] [.gh] h (Hw.scriptStatus h index op st) := by
  unfold Hw.scriptStatus
  try simp only
  repeat' (first
    | with_reducible apply Hw.Only.refl
    | decide
    | (with_reducible apply Hw.Only.ite <;> intro _)
    | (with_reducible apply Hw.Only.ite2 <;> intro _)
    | (with_reducible apply Hw.Only.step ?_ (Hw.scriptErr_only ..))
    | dsimp only
    | split)

/-! ### Mailbox -/

theorem Hw.addWork_only (h : Hw) (d : Nat) (w : Work) :
    Hw.Only [] [.mbx] [] h (Hw.addWork h d w) := by
  unfold Hw.addWork
  try simp only
  repeat' (first
    | with_reducible apply Hw.Only.refl
    | (intro D x hx; cases x <;> first | exact absurd (by decide) hx | exact rfl)
    | decide
    | (with_reducible apply Hw.Only.step ?_ (Hw.onDie_only [.mbx] _ _ _ ?_))
    | dsimp only
    | split)

theorem Hw.dropWork_only (h : Hw) (o : Origin) (tag : Nat) :
    Hw.Only [] [.mbx] [.replies] h (Hw.dropWork h o tag) := by
  unfold Hw.dropWork
  try simp only
  repeat' (first
    | with_reducible apply Hw.Only.refl
    | (intro D x hx; cases x <;> first | exact absurd (by decide) hx | exact rfl)
    | decide
    | dsimp only
    | (with_reducible apply Hw.Only.step ?_ (Hw.with_dies_replies [.mbx] _ _ _  ?_)))

theorem Hw.onMbx_only (h : Hw) (d : Nat) (f : Mbx → Mbx) :
    Hw.Only [] [.mbx] [] h (Hw.onMbx h d f) := by
  unfold Hw.onMbx
  try simp only
  repeat' (first
    | with_reducible apply Hw.Only.refl
    | (intro D x hx; cases x <;> first | exact absurd (by decide) hx | exact rfl)
    | decide
    | (with_reducible apply Hw.Only.step ?_ (Hw.onDie_only [.mbx] _ _ _ ?_))
    | dsimp only
    | split)

theorem Hw.refuseFrame_only (h : Hw) (d : Nat) (o : Origin) (b : List Byte) (st : Status) :
    Hw.Only [0x1f, 0x10021] [.front, .buckets, .folded] [.replies] h (Hw.refuseFrame h d o b st) := by
  unfold Hw.refuseFrame
  try simp only
  repeat' (first
    | with_reducible apply Hw.Only.refl
    | decide
    | (with_reducible apply Hw.Only.ite <;> intro _)
    | (with_reducible apply Hw.Only.ite2 <;> intro _)
    | (with_reducible apply Hw.Only.step ?_ (Hw.putReply_only ..))
    | (with_reducible apply Hw.Only.step ?_ (Hw.configChange_only ..))
    | dsimp only
    | split)

theorem Hw.startFrame_only (h : Hw) (d : Nat) (o : Origin) (b : List Byte) :
    Hw.Only [0x1f, 0x10020, 0x10021, 0x19000c, 0x19000d, 0x190024] [.mbx, .front, .buckets, .folded, .itv] [.replies, .pkg, .tunnels, .out] h (Hw.startFrame h d o b) := by
  unfold Hw.startFrame
  try simp only
  repeat' (first
    | with_reducible apply Hw.Only.refl
    | decide
    | (with_reducible apply Hw.Only.ite <;> intro _)
    | (with_reducible apply Hw.Only.ite2 <;> intro _)
    | (intro (_ : Hw); intro _)
    | (intro (_ : Hw))
    | (with_reducible apply Hw.Only.step ?_ (Hw.putReply_only ..))
    | (with_reducible apply Hw.Only.step ?_ (Hw.refuseFrame_only ..))
    | (with_reducible apply Hw.Only.step ?_ (Hw.addWork_only ..))
    | (with_reducible apply Hw.Only.step ?_ (Hw.linkSend_only ..))
    | (with_reducible apply Hw.Only.step ?_ (Hw.command_only (C := [0x1f, 0x10020, 0x10021, 0x19000c, 0x19000d, 0x190024]) (F := [.mbx, .front, .buckets, .folded, .itv]) (G := [.replies, .pkg, .tunnels, .out]) ?_ ?_ ..))
    | (with_reducible apply Hw.Only.step ?_ (Hw.seeSource_only ..))
    | dsimp only
    | split
    | (apply Hw.Only.of_pair; assumption)
    | (apply Hw.Only.of_triple; assumption))

theorem Hw.slotPut_only (h : Hw) (d s off : Nat) (bs : List Byte) :
    Hw.Only [] [.mbx] [] h (Hw.slotPut h d s off bs) := by
  unfold Hw.slotPut
  try simp only
  repeat' (first
    | with_reducible apply Hw.Only.refl
    | decide
    | (with_reducible apply Hw.Only.step ?_ (Hw.onMbx_only ..))
    | dsimp only
    | split)

theorem Hw.busyHit_only (h : Hw) (d s : Nat) :
    Hw.Only [0x1f] [.mbx, .front, .buckets, .folded] [] h (Hw.busyHit h d s) := by
  unfold Hw.busyHit
  try simp only
  repeat' (first
    | with_reducible apply Hw.Only.refl
    | decide
    | (with_reducible apply Hw.Only.step ?_ (Hw.onMbx_only ..))
    | (with_reducible apply Hw.Only.step ?_ (Hw.event_only ..))
    | dsimp only
    | split)

theorem Hw.slotWrite_only (h : Hw) (d s off : Nat) (bs : List Byte) :
    Hw.Only [0x1f] [.mbx, .front, .buckets, .folded] [] h (Hw.slotWrite h d s off bs) := by
  unfold Hw.slotWrite
  try simp only
  repeat' (first
    | with_reducible apply Hw.Only.refl
    | decide
    | (with_reducible apply Hw.Only.ite <;> intro _)
    | (with_reducible apply Hw.Only.ite2 <;> intro _)
    | (with_reducible apply Hw.Only.step ?_ (Hw.busyHit_only ..))
    | (with_reducible apply Hw.Only.step ?_ (Hw.slotPut_only ..))
    | dsimp only
    | split)

theorem Hw.ringSlot_only (h : Hw) (d ep s : Nat) :
    Hw.Only [0x1f, 0x10020, 0x10021, 0x19000c, 0x19000d, 0x190024] [.mbx, .front, .buckets, .folded, .itv] [.replies, .pkg, .tunnels, .out] h (Hw.ringSlot h d ep s) := by
  unfold Hw.ringSlot
  try simp only
  repeat' (first
    | with_reducible apply Hw.Only.refl
    | decide
    | (with_reducible apply Hw.Only.ite <;> intro _)
    | (with_reducible apply Hw.Only.ite2 <;> intro _)
    | (with_reducible apply Hw.Only.step ?_ (Hw.busyHit_only ..))
    | (with_reducible apply Hw.Only.step ?_ (Hw.slotPut_only ..))
    | (with_reducible apply Hw.Only.step ?_ (Hw.startFrame_only ..))
    | (with_reducible apply Hw.Only.step ?_ (Hw.onMbx_only ..))
    | dsimp only
    | split)

theorem Hw.rings_only (h : Hw) (d ep mask : Nat) :
    Hw.Only [0x1f, 0x10020, 0x10021, 0x19000c, 0x19000d, 0x190024] [.mbx, .front, .buckets, .folded, .itv] [.replies, .pkg, .tunnels, .out] h (Hw.rings h d ep mask) := by
  unfold Hw.rings
  try simp only
  repeat' (first
    | with_reducible apply Hw.Only.refl
    | decide
    | (with_reducible apply Hw.Only.foldl)
    | (intro (_ : Hw); intro _)
    | (intro (_ : Hw))
    | (with_reducible apply Hw.Only.foldlP)
    | (intro (_ : _ × Hw); intro _)
    | (with_reducible apply Hw.Only.step ?_ (Hw.ringSlot_only ..))
    | dsimp only
    | split)

theorem Hw.slotDone_only (h : Hw) (d ep s : Nat) (w : Work) (r : Reply) :
    Hw.Only [0x1f, 0x20005, 0x20010, 0x20013, 0x20014, 0x20015, 0x20016] [.mbx, .queues, .front, .buckets, .folded] [.eps, .stores, .out] h (Hw.slotDone h d ep s w r) := by
  unfold Hw.slotDone
  try simp only
  repeat' (first
    | with_reducible apply Hw.Only.refl
    | decide
    | (with_reducible apply Hw.Only.ite <;> intro _)
    | (with_reducible apply Hw.Only.ite2 <;> intro _)
    | (with_reducible apply Hw.Only.step ?_ (Hw.slotPut_only ..))
    | (with_reducible apply Hw.Only.step ?_ (Hw.onMbx_only ..))
    | (with_reducible apply Hw.Only.step ?_ (Hw.qPush_only ..))
    | (with_reducible apply Hw.Only.step ?_ (Hw.msix_only ..))
    | dsimp only
    | split)

theorem Hw.remoteDone_only (h : Hw) (d eth ip port : Nat) (w : Work) (r : Reply) :
    Hw.Only [] [.mbx] [.out] h (Hw.remoteDone h d eth ip port w r) := by
  unfold Hw.remoteDone
  try simp only
  repeat' (first
    | with_reducible apply Hw.Only.refl
    | decide
    | (with_reducible apply Hw.Only.ite <;> intro _)
    | (with_reducible apply Hw.Only.ite2 <;> intro _)
    | (with_reducible apply Hw.Only.step ?_ (Hw.emit_only ..))
    | (with_reducible apply Hw.Only.step ?_ (Hw.onMbx_only ..))
    | dsimp only
    | split)

theorem Hw.deliver_only (h : Hw) (w : Work) (r : Reply) :
    Hw.Only [0x1f, 0x10021, 0x20005, 0x20010, 0x20013, 0x20014, 0x20015, 0x20016, 0x19000c, 0x19000d, 0x190024] [.mbx, .queues, .front, .buckets, .folded, .itv] [.replies, .eps, .tunnels, .gh, .stores, .out] h (Hw.deliver h w r) := by
  unfold Hw.deliver
  try simp only
  repeat' (first
    | with_reducible apply Hw.Only.refl
    | decide
    | (intro (_ : Hw); intro _)
    | (intro (_ : Hw))
    | (with_reducible apply Hw.Only.step ?_ (Hw.remoteDone_only ..))
    | (with_reducible apply Hw.Only.step ?_ (Hw.slotDone_only ..))
    | (with_reducible apply Hw.Only.step ?_ (Hw.dropWork_only ..))
    | (with_reducible apply Hw.Only.step ?_ (Hw.scriptStatus_only ..))
    | (with_reducible apply Hw.Only.step ?_ (Hw.rildin_only (C := [0x1f, 0x10021, 0x20005, 0x20010, 0x20013, 0x20014, 0x20015, 0x20016, 0x19000c, 0x19000d, 0x190024]) (F := [.mbx, .queues, .front, .buckets, .folded, .itv]) (G := [.replies, .eps, .tunnels, .gh, .stores, .out]) ?_ ?_ ..))
    | (with_reducible apply Hw.Only.step ?_ (Hw.linkSend_only ..))
    | dsimp only
    | split
    | (apply Hw.Only.of_pair; assumption)
    | (apply Hw.Only.of_triple; assumption))

theorem Hw.lateReply_only (h : Hw) (o : Origin) (tag : Nat) (st : Status) :
    Hw.Only [0x1f, 0x10011, 0x10021] [.mbx, .front, .buckets, .folded] [.replies] h (Hw.lateReply h o tag st) := by
  unfold Hw.lateReply
  try simp only
  repeat' (first
    | with_reducible apply Hw.Only.refl
    | decide
    | (intro (_ : Hw); intro _)
    | (intro (_ : Hw))
    | (with_reducible apply Hw.Only.step ?_ (Hw.add_only ..))
    | (with_reducible apply Hw.Only.step ?_ (Hw.dropWork_only ..))
    | (with_reducible apply Hw.Only.step ?_ (Hw.rildin_only (C := [0x1f, 0x10011, 0x10021]) (F := [.mbx, .front, .buckets, .folded]) (G := [.replies]) ?_ ?_ ..))
    | (with_reducible apply Hw.Only.step ?_ (Hw.event_only ..))
    | dsimp only
    | split
    | (apply Hw.Only.of_pair; assumption)
    | (apply Hw.Only.of_triple; assumption))

theorem Hw.complete_only (h : Hw) (o : Origin) (tag : Nat) :
    Hw.Only [0x0] [.mbx, .sb, .queues, .front, .buckets, .folded, .erSel, .tbs, .ptp, .itv, .up, .enc, .pos, .hwmOn, .leaving, .ports, .spits, .changes, .banks, .bankFrom, .codec, .ctxs, .ctxCache, .streams, .stop, .cams, .ispRun, .chains, .lamps, .mx, .crit, .cals, .lineFaults, .pdWork] [.blks, .stages, .clk, .replies, .bl, .mode, .lead, .leadSt, .takeover, .kennelWriting, .kennelFailRun, .kennelLateSeen, .moving, .ckptWork, .repairWork, .repairArmed, .safeFrom, .pkg, .faultMask, .fwSlots, .fw, .fwBooted, .bootWatch, .eps, .tunnels, .hsIn, .ghRelease, .hostedWait, .fwKept, .resetDue, .railFault, .clkFault, .hsForce, .hsPins, .hsOn, .hsSeen, .gh, .stores, .wipes, .out] h (Hw.complete h o tag) := by
  unfold Hw.complete
  try simp only
  repeat' (first
    | with_reducible apply Hw.Only.refl
    | decide
    | (with_reducible apply Hw.Only.ite <;> intro _)
    | (with_reducible apply Hw.Only.ite2 <;> intro _)
    | (with_reducible apply Hw.Only.step ?_ (Hw.lateReply_only ..))
    | (with_reducible apply Hw.Only.step ?_ (Hw.deliver_only ..))
    | (with_reducible apply Hw.Only.step ?_ (Hw.resetNow_only ..))
    | dsimp only
    | split
    | (apply Hw.Only.of_pair; assumption)
    | (apply Hw.Only.of_triple; assumption))

theorem Hw.remoteDatagram_only (h : Hw) (d eth ip port : Nat) (b : List Byte) :
    Hw.Only [0x1f, 0x10015, 0x10020, 0x10021, 0x170015, 0x19000c, 0x19000d, 0x190024] [.mbx, .front, .buckets, .folded, .itv] [.replies, .pkg, .tunnels, .out] h (Hw.remoteDatagram h d eth ip port b) := by
  unfold Hw.remoteDatagram
  try simp only
  repeat' (first
    | with_reducible apply Hw.Only.refl
    | decide
    | (with_reducible apply Hw.Only.ite <;> intro _)
    | (with_reducible apply Hw.Only.ite2 <;> intro _)
    | (with_reducible apply Hw.Only.step ?_ (Hw.add_only ..))
    | (with_reducible apply Hw.Only.step ?_ (Hw.emit_only ..))
    | (with_reducible apply Hw.Only.step ?_ (Hw.startFrame_only ..))
    | (with_reducible apply Hw.Only.step ?_ (Hw.seeSource_only ..))
    | (with_reducible apply Hw.Only.step ?_ (Hw.event_only ..))
    | dsimp only
    | split
    | (apply Hw.Only.of_pair; assumption)
    | (apply Hw.Only.of_triple; assumption))

theorem Hw.linkReply_only (h : Hw) (l dst : Nat) (b : List Byte) :
    Hw.Only [0x1f, 0x10011] [.front, .buckets, .folded] [.replies] h (Hw.linkReply h l dst b) := by
  unfold Hw.linkReply
  try simp only
  repeat' (first
    | with_reducible apply Hw.Only.refl
    | (intro D x hx; cases x <;> first | exact absurd (by decide) hx | exact rfl)
    | decide
    | (with_reducible apply Hw.Only.step ?_ (Hw.add_only ..))
    | (with_reducible apply Hw.Only.step ?_ (Hw.putReply_only ..))
    | (with_reducible apply Hw.Only.step ?_ (Hw.event_only ..))
    | dsimp only
    | split
    | (apply Hw.Only.of_pair; assumption)
    | (apply Hw.Only.of_triple; assumption))

theorem Hw.linkFrame_only (h : Hw) (l d : Nat) (f : ItvFrame) :
    Hw.Only [0x1f, 0x10011, 0x10020, 0x10021, 0x19000c, 0x19000d, 0x190024] [.mbx, .front, .buckets, .folded, .itv] [.replies, .pkg, .tunnels, .out] h (Hw.linkFrame h l d f) := by
  unfold Hw.linkFrame
  try simp only
  repeat' (first
    | with_reducible apply Hw.Only.refl
    | decide
    | (with_reducible apply Hw.Only.ite <;> intro _)
    | (with_reducible apply Hw.Only.ite2 <;> intro _)
    | (with_reducible apply Hw.Only.step ?_ (Hw.linkReply_only ..))
    | (with_reducible apply Hw.Only.step ?_ (Hw.startFrame_only ..))
    | (with_reducible apply Hw.Only.step ?_ (Hw.linkSend_only ..))
    | (with_reducible apply Hw.Only.step ?_ (Hw.eventPkg_only ..))
    | dsimp only
    | split
    | (apply Hw.Only.of_pair; assumption)
    | (apply Hw.Only.of_triple; assumption))

theorem Hw.tunnelFrame_only (h : Hw) (d port ip udp : Nat) (crcOk : Bool) (f : ItvFrame) :
    Hw.Only [0x1f, 0x10011, 0x10020, 0x10021, 0x170015, 0x190002, 0x190003, 0x190005, 0x19000c, 0x19000d, 0x190021, 0x190022, 0x190024, 0x190025, 0x190026, 0x1a0001, 0x1a0008, 0x1a0011] [.mbx, .front, .buckets, .folded, .itv] [.replies, .pkg, .tunnels, .out] h (Hw.tunnelFrame h d port ip udp crcOk f) := by
  unfold Hw.tunnelFrame
  try simp only
  repeat' (first
    | with_reducible apply Hw.Only.refl
    | decide
    | (with_reducible apply Hw.Only.ite <;> intro _)
    | (with_reducible apply Hw.Only.ite2 <;> intro _)
    | (with_reducible apply Hw.Only.step ?_ (Hw.add_only ..))
    | (with_reducible apply Hw.Only.step ?_ (Hw.linkFrame_only ..))
    | (with_reducible apply Hw.Only.step ?_ (Hw.linkAccept_only ..))
    | (with_reducible apply Hw.Only.step ?_ (Hw.tunPeer_only ..))
    | (with_reducible apply Hw.Only.step ?_ (Hw.linkPump_only ..))
    | dsimp only
    | split
    | (apply Hw.Only.of_pair; assumption)
    | (apply Hw.Only.of_triple; assumption))

theorem Hw.grtDatagram_only (h : Hw) (d port ip udp : Nat) (b : List Byte) :
    Hw.Only [0x1f, 0x20005, 0x20010, 0x20013, 0x20014, 0x20015, 0x20016, 0xc0003, 0xc0004, 0xc0010, 0xc0011, 0xc0012, 0xc0026, 0x170015] [.queues, .front, .buckets, .folded, .streams] [.eps, .stores, .out] h (Hw.grtDatagram h d port ip udp b) := by
  unfold Hw.grtDatagram
  try simp only
  repeat' (first
    | with_reducible apply Hw.Only.refl
    | decide
    | (with_reducible apply Hw.Only.ite <;> intro _)
    | (with_reducible apply Hw.Only.ite2 <;> intro _)
    | (with_reducible apply Hw.Only.step ?_ (Hw.add_only ..))
    | (with_reducible apply Hw.Only.step ?_ (Hw.grtReset_only ..))
    | (with_reducible apply Hw.Only.step ?_ (Hw.grtData_only ..))
    | dsimp only
    | split)

theorem Hw.doorbellWrite_only (h : Hw) (d ep o width v : Nat) :
    Hw.Only [0x1f, 0x10020, 0x10021, 0x180023, 0x19000c, 0x19000d, 0x190024] [.mbx, .front, .buckets, .folded, .itv, .streams] [.replies, .pkg, .eps, .tunnels, .out] h (Hw.doorbellWrite h d ep o width v) := by
  unfold Hw.doorbellWrite
  try simp only
  repeat' (first
    | with_reducible apply Hw.Only.refl
    | decide
    | (with_reducible apply Hw.Only.ite <;> intro _)
    | (with_reducible apply Hw.Only.ite2 <;> intro _)
    | (with_reducible apply Hw.Only.step ?_ (Hw.rings_only ..))
    | (with_reducible apply Hw.Only.step ?_ (Hw.onMbx_only ..))
    | (with_reducible apply Hw.Only.step ?_ (Hw.dmaTail_only ..))
    | (with_reducible apply Hw.Only.step ?_ (Hw.barReject_only ..))
    | dsimp only
    | split
    | (with_reducible apply Hw.Only.step ?_ (Hw.with_eps ..)))

theorem Hw.pointerWrite_only (h : Hw) (ms : List (List Host.Cell)) (d ep o v : Nat) :
    Hw.Only [0x1f, 0x10020, 0x10021, 0x20005, 0x20010, 0x20011, 0x20012, 0x20013, 0x20016, 0x180023] [.queues, .front, .buckets, .folded] [.pkg, .eps, .out] h (Hw.pointerWrite h ms d ep o v) := by
  unfold Hw.pointerWrite
  try simp only
  repeat' (first
    | with_reducible apply Hw.Only.refl
    | decide
    | (with_reducible apply Hw.Only.ite <;> intro _)
    | (with_reducible apply Hw.Only.ite2 <;> intro _)
    | (with_reducible apply Hw.Only.step ?_ (Hw.barReject_only ..))
    | (with_reducible apply Hw.Only.step ?_ (qpRdWrite_only ..))
    | (with_reducible apply Hw.Only.step ?_ (qpWrWrite_only ..))
    | (with_reducible apply Hw.Only.step ?_ (Hw.onQ_only ..))
    | dsimp only
    | split)

theorem Hw.bar4Write_only (h : Hw) (ep o width v : Nat) :
    Hw.Only [0x1f, 0x10020, 0x10021, 0x180023] [.front, .buckets, .folded] [.pkg, .eps] h (Hw.bar4Write h ep o width v) := by
  unfold Hw.bar4Write
  try simp only
  repeat' (first
    | with_reducible apply Hw.Only.refl
    | decide
    | (with_reducible apply Hw.Only.ite <;> intro _)
    | (with_reducible apply Hw.Only.ite2 <;> intro _)
    | (with_reducible apply Hw.Only.step ?_ (Hw.barReject_only ..))
    | dsimp only
    | split
    | (with_reducible apply Hw.Only.step ?_ (Hw.with_eps ..)))

theorem Hw.selectWrite_only (h : Hw) (die i width value : Nat) :
    Hw.Only [] [.erSel] [] h (Hw.selectWrite h die i width value) := by
  unfold Hw.selectWrite
  try simp only
  repeat' (first
    | with_reducible apply Hw.Only.refl
    | (intro D x hx; cases x <;> first | exact absurd (by decide) hx | exact rfl)
    | decide
    | (with_reducible apply Hw.Only.step ?_ (Hw.onDie_only [.erSel] _ _ _ ?_))
    | dsimp only
    | split)

end Sys2Proof.Machine
end

