-- ==== Sys2Proof/Laws/Within.lean ====
section
/-!
SUPPORT. Frames of whole steps: each lift keeps the frame of the effect it lifts (`State.Within`).
-/
namespace Sys2Proof.Machine

variable {C : List Nat} {F : List DieRec} {G : List HwRec} {s t : State}

/-- A step stays within the frame of its effect. -/
theorem State.within_run {f : List (List Host.Cell) → Hw → Hw} (H : ∀ ms h, Hw.Only C F (.out :: G) h (f ms h)) : s.Within C F G (s.run f) := by
  have K := H s.mems s.begun
  refine ⟨⟨K.len, fun e a i h0 h1 h2 => K.rd e a i h0 h1 h2, fun e x hx => K.die e x hx, fun g hg => ?_⟩, fun h1 h2 => ?_, rfl⟩
  · simp only [List.mem_cons, not_or] at hg
    obtain ⟨g1, g2, g3, g4⟩ := hg
    have := K.hw g (by simp [g3, g4])
    cases g <;> first | exact this | exact absurd rfl g1 | exact absurd rfl g2 | exact absurd rfl g3
  · intro d a
    rw [State.run_mems_same s f (K.hw .stores (by simp [h1])) (K.hw .wipes (by simp [h2]))]

theorem State.within_onPkg {f : List (List Host.Cell) → Hw → Hw} (h : s.onPkg f = .next t) (H : ∀ ms h, Hw.Only C F (.out :: G) h (f ms h)) :
    s.Within C F G t := by
  injection h with h
  subst h
  exact State.within_run H

theorem State.within_onDie {d : Nat} {f : List (List Host.Cell) → Hw → Hw} (h : s.onDie d f = .next t)
    (H : ∀ ms h, Hw.Only C F (.out :: G) h (f ms h)) : s.Within C F G t := by
  obtain ⟨_, rfl⟩ := State.of_onDie h
  exact State.within_run H

theorem State.within_onUnit {d u n : Nat} {f : List (List Host.Cell) → Hw → Hw} (h : s.onUnit d u n f = .next t)
    (H : ∀ ms h, Hw.Only C F (.out :: G) h (f ms h)) : s.Within C F G t := by
  obtain ⟨_, _, rfl⟩ := State.of_onUnit h
  exact State.within_run H

theorem State.within_command {q : Hdr} {op : Nat} {o : ObjRef} {body : List (List Host.Cell) → Nat → Hw → Reply × Hw}
    (h : s.command q op o body = .next t) (H : ∀ ms d h, Hw.Only C F (.out :: G) h (body ms d h).2)
    (hs : Parts [0x1f, 0x10021] [.front, .buckets, .folded] [.replies] C F (.out :: G)) (hm : DieRec.mbx ∈ F) : s.Within C F G t := by
  refine State.within_onDie h fun ms h => ?_
  have K : Hw.Only C F (.out :: G) h (h.started q) :=
    (Hw.started_only h q).mono ⟨nofun, fun x hx => by rw [List.mem_singleton.1 hx]; exact hm, nofun⟩
  exact K.trans (Hw.command_only (fun h d => H ms d h) hs _ q op o)

theorem State.within_commandHold {q : Hdr} {op : Nat} {o : ObjRef} {body : List (List Host.Cell) → Nat → Hw → Option Reply × Hw}
    (h : s.commandHold q op o body = .next t) (H : ∀ ms d h, Hw.Only C F (.out :: G) h (body ms d h).2)
    (hs : Parts [0x1f, 0x10021] [.front, .buckets, .folded] [.replies] C F (.out :: G)) (hm : DieRec.mbx ∈ F) : s.Within C F G t := by
  refine State.within_onDie h fun ms h => ?_
  have K : Hw.Only C F (.out :: G) h (h.started q) :=
    (Hw.started_only h q).mono ⟨nofun, fun x hx => by rw [List.mem_singleton.1 hx]; exact hm, nofun⟩
  simp only
  split
  · exact K
  · split
    · exact K.step (Hw.finish_only ..) hs
    · split
      · exact (K.trans (H ms _ _)).step (Hw.finish_only ..) hs
      · exact K.trans (H ms _ _)

end Sys2Proof.Machine
end

