-- ==== Sys2Proof/Laws/FramesPrint.lean ====
section
/-!
SUPPORT. The frame of each command: `exec…_within` says that a next state of the command lies within it.
-/
namespace Sys2Proof.Machine

/-! ### Queues -/

theorem execStallPushRetry_within (die q : Nat) (s : State) {s' : State} (hn : execStallPushRetry die q s = .next s') :
    s.Within [0x1F, A.q_max_depth.code, A.q_pushes.code, A.q_overflows.code, A.q_rewinds.code, A.q_oversize.code, A.q_pkt_bad.code] [.queues, .front, .buckets, .folded] [.eps, .stores] s' := by
  unfold execStallPushRetry at hn
  refine State.within_onUnit (G := [.eps, .stores]) hn (fun ms k => ?_)
  try simp only
  repeat' (first
    | with_reducible apply Hw.Only.refl
    | decide
    | (with_reducible apply Hw.Only.step ?_ (Hw.qRetry_only ..))
    | dsimp only
    | split)

theorem execQpWrWrite_within (die ep q value : Nat) (s : State) {s' : State} (hn : execQpWrWrite die ep q value s = .next s') :
    s.Within [0x1F, A.sources_seen.code, A.cfg_changes.code, A.q_max_depth.code, A.q_pushes.code, A.q_overflows.code, A.q_pkt_bad.code] [.queues, .front, .buckets, .folded] [.pkg, .eps] s' := by
  unfold execQpWrWrite at hn
  refine State.within_onUnit (G := [.pkg, .eps]) hn (fun ms k => ?_)
  try simp only
  repeat' (first
    | with_reducible apply Hw.Only.refl
    | decide
    | (with_reducible apply Hw.Only.step ?_ (qpWrWrite_only ..))
    | dsimp only
    | split)

theorem execQpRdWrite_within (die ep q value : Nat) (s : State) {s' : State} (hn : execQpRdWrite die ep q value s = .next s') :
    s.Within [0x1F, A.sources_seen.code, A.cfg_changes.code, A.q_pops.code, A.q_underruns.code] [.queues, .front, .buckets, .folded] [.pkg, .eps] s' := by
  unfold execQpRdWrite at hn
  refine State.within_onUnit (G := [.pkg, .eps]) hn (fun ms k => ?_)
  try simp only
  repeat' (first
    | with_reducible apply Hw.Only.refl
    | decide
    | (with_reducible apply Hw.Only.step ?_ (qpRdWrite_only ..))
    | dsimp only
    | split)

theorem execQueueWriteback_within (die q : Nat) (s : State) {s' : State} (hn : execQueueWriteback die q s = .next s') :
    s.Within [] [] [.stores] s' := by
  unfold execQueueWriteback at hn
  refine State.within_onUnit (G := [.stores]) hn (fun ms k => ?_)
  try simp only
  repeat' (first
    | with_reducible apply Hw.Only.refl
    | decide
    | (with_reducible apply Hw.Only.ite <;> intro _)
    | (with_reducible apply Hw.Only.ite2 <;> intro _)
    | (with_reducible apply Hw.Only.step ?_ (Hw.qWriteback_only ..))
    | dsimp only
    | split)

/-! ### Time -/

theorem execTbChangeApply_within (die : Nat) (s : State) {s' : State} (hn : execTbChangeApply die s = .next s') :
    s.Within [0x1F, A.rate_ppt.code, A.step_arm.code, A.steps.code, A.po_state.code, A.po_next.code, A.po_late.code, A.po_skipped.code] [.front, .buckets, .folded, .tbs, .tbChanges, .pulses] [.clk] s' := by
  unfold execTbChangeApply at hn
  refine State.within_onDie (G := [.clk]) hn (fun ms k => ?_)
  try simp only
  repeat' (first
    | with_reducible apply Hw.Only.refl
    | (intro D x hx; cases x <;> first | exact absurd (by decide) hx | exact rfl)
    | decide
    | (with_reducible apply Hw.Only.step ?_ (Hw.tbApply_only ..))
    | (with_reducible apply Hw.Only.step ?_ (Hw.until_only ..))
    | (with_reducible apply Hw.Only.step ?_ (Hw.onDie_only [.tbChanges] _ _ _ ?_))
    | dsimp only
    | split
    | (apply Hw.Only.of_pair; assumption)
    | (apply Hw.Only.of_triple; assumption))

theorem execTimeAlign_within (die tb : Nat) (s : State) {s' : State} (hn : execTimeAlign die tb s = .next s') :
    s.Within [] [.tbs] [] s' := by
  unfold execTimeAlign at hn
  refine State.within_onUnit (G := []) hn (fun ms k => ?_)
  try simp only
  repeat' (first
    | with_reducible apply Hw.Only.refl
    | (intro D x hx; cases x <;> first | exact absurd (by decide) hx | exact rfl)
    | decide
    | (with_reducible apply Hw.Only.ite <;> intro _)
    | (with_reducible apply Hw.Only.ite2 <;> intro _)
    | (with_reducible apply Hw.Only.step ?_ (Hw.onDie_only [.tbs] _ _ _ ?_))
    | dsimp only
    | split)

theorem execServoSample_within (tb gm : Nat) (thetaPs : Int) (t : Nat) (s : State) {s' : State} (hn : execServoSample tb gm thetaPs t s = .next s') :
    s.Within [0x1F, A.servo_state.code, A.freq_ppt.code, A.offset_ns.code, A.outliers.code] [.front, .buckets, .folded, .tbs, .tbChanges, .capFresh] [.clk, .pkg] s' := by
  unfold execServoSample at hn
  refine State.within_onUnit (G := [.clk, .pkg]) hn (fun ms k => ?_)
  try simp only
  repeat' (first
    | with_reducible apply Hw.Only.refl
    | decide
    | (with_reducible apply Hw.Only.step ?_ (Hw.servoSample_only ..))
    | (with_reducible apply Hw.Only.step ?_ (Hw.until_only ..))
    | dsimp only
    | split)

theorem execSlewEnd_within (tb : Nat) (s : State) {s' : State} (hn : execSlewEnd tb s = .next s') :
    s.Within [0x1F, A.servo_state.code] [.front, .buckets, .folded, .tbChanges] [.pkg] s' := by
  unfold execSlewEnd at hn
  refine State.within_onUnit (G := [.pkg]) hn (fun ms k => ?_)
  try simp only
  repeat' (first
    | with_reducible apply Hw.Only.refl
    | decide
    | (with_reducible apply Hw.Only.ite <;> intro _)
    | (with_reducible apply Hw.Only.ite2 <;> intro _)
    | (with_reducible apply Hw.Only.step ?_ (Hw.servoTo_only ..))
    | (with_reducible apply Hw.Only.step ?_ (Hw.tbRate_only ..))
    | dsimp only
    | split)

theorem execHoldoverTimeout_within (tb : Nat) (s : State) {s' : State} (hn : execHoldoverTimeout tb s = .next s') :
    s.Within [0x1F, A.servo_state.code, A.holdover_tb1.code] [.front, .buckets, .folded, .tbChanges] [.pkg] s' := by
  unfold execHoldoverTimeout at hn
  refine State.within_onUnit (G := [.pkg]) hn (fun ms k => ?_)
  try simp only
  repeat' (first
    | with_reducible apply Hw.Only.refl
    | decide
    | (with_reducible apply Hw.Only.ite <;> intro _)
    | (with_reducible apply Hw.Only.ite2 <;> intro _)
    | (with_reducible apply Hw.Only.step ?_ (Hw.enterHoldover_only ..))
    | dsimp only
    | split)

theorem execPtpMessage_within (die port : Nat) (msg : PtpMsg) (s : State) {s' : State} (hn : execPtpMessage die port msg s = .next s') :
    s.Within [0x1F, A.servo_state.code, A.holdover_tb1.code, A.gm_id.code, A.utc_offset.code, A.port_state.code, A.mean_delay_ps.code, A.port_offset_ns.code, A.ptp_rx.code, A.ptp_tx.code, A.ts_missing.code, A.ptp_bad.code] [.front, .buckets, .folded, .tbChanges, .ptp] [.pkg] s' := by
  unfold execPtpMessage at hn
  refine State.within_onUnit (G := [.pkg]) hn (fun ms k => ?_)
  try simp only
  repeat' (first
    | with_reducible apply Hw.Only.refl
    | decide
    | (with_reducible apply Hw.Only.step ?_ (Hw.ptpMessage_only ..))
    | dsimp only
    | split)

theorem execAnnounceTimeout_within (die port : Nat) (s : State) {s' : State} (hn : execAnnounceTimeout die port s = .next s') :
    s.Within [0x1F, A.servo_state.code, A.holdover_tb1.code, A.gm_id.code, A.utc_offset.code, A.port_state.code] [.front, .buckets, .folded, .tbChanges, .ptp] [.pkg] s' := by
  unfold execAnnounceTimeout at hn
  refine State.within_onUnit (G := [.pkg]) hn (fun ms k => ?_)
  try simp only
  repeat' (first
    | with_reducible apply Hw.Only.refl
    | decide
    | (with_reducible apply Hw.Only.ite <;> intro _)
    | (with_reducible apply Hw.Only.ite2 <;> intro _)
    | (with_reducible apply Hw.Only.step ?_ (Hw.bmca_only ..))
    | (with_reducible apply Hw.Only.step ?_ (Hw.onPtp_only ..))
    | dsimp only
    | split)

theorem execPtpMessageInterval_within (die port kind : Nat) (s : State) {s' : State} (hn : execPtpMessageInterval die port kind s = .next s') :
    s.Within [A.ptp_tx.code, A.ts_missing.code] [.ptp] [] s' := by
  unfold execPtpMessageInterval at hn
  refine State.within_onUnit (G := []) hn (fun ms k => ?_)
  try simp only
  repeat' (first
    | with_reducible apply Hw.Only.refl
    | decide
    | (with_reducible apply Hw.Only.ite <;> intro _)
    | (with_reducible apply Hw.Only.ite2 <;> intro _)
    | (with_reducible apply Hw.Only.step ?_ (Hw.add_only ..))
    | (with_reducible apply Hw.Only.step ?_ (Hw.emit_only ..))
    | (with_reducible apply Hw.Only.step ?_ (Hw.onPtp_only ..))
    | dsimp only
    | split)

theorem execPoArm_within (h : Hdr) (mode out start period count : Nat) (s : State) {s' : State} (hn : execPoArm h mode out start period count s = .next s') :
    s.Within [0x1F, A.cfg_changes.code, A.po_state.code, A.po_mode.code, A.po_next.code, A.po_late.code] [.mbx, .front, .buckets, .folded, .pulses] [.replies] s' := by
  unfold execPoArm at hn
  refine State.within_command (G := [.replies]) hn (fun ms d k => ?_) (by decide) (by decide)
  try simp only
  repeat' (first
    | with_reducible apply Hw.Only.refl
    | decide
    | (intro (_ : Hw); intro _)
    | (intro (_ : Hw))
    | (with_reducible apply Hw.Only.step ?_ (poArm_only ..))
    | (with_reducible apply Hw.Only.step ?_ (Hw.command_only (C := [0x1f, 0x10021, 0x160001, 0x160006, 0x160007, 0x160009]) (F := [.mbx, .front, .buckets, .folded, .pulses]) (G := [.replies, .out]) ?_ ?_ ..))
    | dsimp only
    | split)

theorem execCaptureEdge_within (die input : Nat) (rising : Bool) (t : Nat) (s : State) {s' : State} (hn : execCaptureEdge die input rising t s = .next s') :
    s.Within [0x1F, A.cap_overruns.code] [.front, .buckets, .folded, .tbs, .capFresh] [.blks, .clk] s' := by
  unfold execCaptureEdge at hn
  refine State.within_onUnit (G := [.blks, .clk]) hn (fun ms k => ?_)
  try simp only
  repeat' (first
    | with_reducible apply Hw.Only.refl
    | (intro D x hx; cases x <;> first | exact absurd (by decide) hx | exact rfl)
    | decide
    | (with_reducible apply Hw.Only.ite <;> intro _)
    | (with_reducible apply Hw.Only.ite2 <;> intro _)
    | (with_reducible apply Hw.Only.step ?_ (Hw.add_only ..))
    | (with_reducible apply Hw.Only.step ?_ (Hw.setBlk_only ..))
    | (with_reducible apply Hw.Only.step ?_ (Hw.event_only ..))
    | (with_reducible apply Hw.Only.step ?_ (Hw.until_only ..))
    | (with_reducible apply Hw.Only.step ?_ (Hw.onDie_only [.capFresh] _ _ _ ?_))
    | dsimp only
    | split)

theorem execTbRead_within (h : Hdr) (s : State) {s' : State} (hn : execTbRead h s = .next s') :
    s.Within [0x1F, A.cfg_changes.code] [.mbx, .front, .buckets, .folded] [.replies] s' := by
  unfold execTbRead at hn
  refine State.within_command (G := [.replies]) hn (fun ms d k => ?_) (by decide) (by decide)
  try simp only
  repeat' (first
    | with_reducible apply Hw.Only.refl
    | decide
    | (intro (_ : Hw); intro _)
    | (intro (_ : Hw))
    | (with_reducible apply Hw.Only.step ?_ (Hw.command_only (C := [0x1f, 0x10021]) (F := [.mbx, .front, .buckets, .folded]) (G := [.replies, .out]) ?_ ?_ ..))
    | dsimp only
    | split)

theorem execTbStep_within (h : Hdr) (tb : Nat) (offset : Int) (s : State) {s' : State} (hn : execTbStep h tb offset s = .next s') :
    s.Within [0x1F, A.cfg_changes.code] [.mbx, .front, .buckets, .folded, .tbChanges] [.replies] s' := by
  unfold execTbStep at hn
  refine State.within_command (G := [.replies]) hn (fun ms d k => ?_) (by decide) (by decide)
  try simp only
  repeat' (first
    | with_reducible apply Hw.Only.refl
    | decide
    | (with_reducible apply Hw.Only.ite <;> intro _)
    | (with_reducible apply Hw.Only.ite2 <;> intro _)
    | (intro (_ : Hw); intro _)
    | (intro (_ : Hw))
    | (with_reducible apply Hw.Only.step ?_ (Hw.tbSend_only ..))
    | (with_reducible apply Hw.Only.step ?_ (refuse_only ..))
    | (with_reducible apply Hw.Only.step ?_ (Hw.command_only (C := [0x1f, 0x10021]) (F := [.mbx, .front, .buckets, .folded, .tbChanges]) (G := [.replies, .out]) ?_ ?_ ..))
    | dsimp only
    | split)

/-! ### Links -/

theorem execPcieFlr_within (ep : Nat) (s : State) {s' : State} (hn : execPcieFlr ep s = .next s') :
    s.Within [0x1F, A.msix_en.code, A.flr_count.code] [.front, .buckets, .folded] [.eps] s' := by
  unfold execPcieFlr at hn
  refine State.within_onUnit (G := [.eps]) hn (fun ms k => ?_)
  try simp only
  repeat' (first
    | with_reducible apply Hw.Only.refl
    | decide
    | (with_reducible apply Hw.Only.step ?_ (Hw.flr_only ..))
    | dsimp only
    | split)

theorem execPerstLLow_within (ep : Nat) (s : State) {s' : State} (hn : execPerstLLow ep s = .next s') :
    s.Within [0x1F, A.msix_en.code, A.flr_count.code] [.front, .buckets, .folded] [.eps] s' := by
  unfold execPerstLLow at hn
  refine State.within_onUnit (G := [.eps]) hn (fun ms k => ?_)
  try simp only
  repeat' (first
    | with_reducible apply Hw.Only.refl
    | decide
    | (with_reducible apply Hw.Only.step ?_ (Hw.flr_only ..))
    | dsimp only
    | split)

theorem execMsixEnableWrite_within (ep : Nat) (on : Bool) (s : State) {s' : State} (hn : execMsixEnableWrite ep on s = .next s') :
    s.Within [A.msix_en.code] [] [.eps] s' := by
  unfold execMsixEnableWrite at hn
  refine State.within_onUnit (G := [.eps]) hn (fun ms k => ?_)
  try simp only
  repeat' (first
    | with_reducible apply Hw.Only.refl
    | decide
    | (with_reducible apply Hw.Only.step ?_ (Hw.wr_only ..))
    | (with_reducible apply Hw.Only.step ?_ (Hw.msixFlush_only ..))
    | dsimp only
    | split)

theorem execPcieLinkChange_within (ep gen width : Nat) (s : State) {s' : State} (hn : execPcieLinkChange ep gen width s = .next s') :
    s.Within [0x1F, A.pcie_link.code, A.pcie_gen.code, A.pcie_width.code] [.front, .buckets, .folded] [.eps] s' := by
  unfold execPcieLinkChange at hn
  refine State.within_onUnit (G := [.eps]) hn (fun ms k => ?_)
  try simp only
  repeat' (first
    | with_reducible apply Hw.Only.refl
    | decide
    | (with_reducible apply Hw.Only.ite <;> intro _)
    | (with_reducible apply Hw.Only.ite2 <;> intro _)
    | (with_reducible apply Hw.Only.step ?_ (Hw.wr_only ..))
    | (with_reducible apply Hw.Only.step ?_ (Hw.event_only ..))
    | (with_reducible apply Hw.Only.step ?_ (Hw.msixFlush_only ..))
    | dsimp only
    | split)

theorem execUnmappedRead_within (ep bar addr : Nat) (s : State) {s' : State} (hn : execUnmappedRead ep bar addr s = .next s') :
    s.Within [0x1F, A.sources_seen.code, A.cfg_changes.code, A.bar_rejects.code] [.front, .buckets, .folded] [.pkg] s' := by
  unfold execUnmappedRead at hn
  refine State.within_onUnit (G := [.pkg]) hn (fun ms k => ?_)
  try simp only
  repeat' (first
    | with_reducible apply Hw.Only.refl
    | decide
    | (with_reducible apply Hw.Only.step ?_ (Hw.emit_only ..))
    | (with_reducible apply Hw.Only.step ?_ (Hw.barReject_only ..))
    | dsimp only
    | split)

theorem execItvAckTimeout_within (link : Nat) (s : State) {s' : State} (hn : execItvAckTimeout link s = .next s') :
    s.Within [0x1F, A.itv_state.code, A.itv_gen.code, A.train_step.code, A.tx_pm.code, A.rx_pm.code, A.replays.code, A.frames_tx.code, A.link_downs.code, A.sys_role.code, A.master_serial.code, A.upstream.code] [.front, .buckets, .folded, .itv] [.pkg, .tunnels] s' := by
  unfold execItvAckTimeout at hn
  refine State.within_onUnit (G := [.pkg, .tunnels]) hn (fun ms k => ?_)
  try simp only
  repeat' (first
    | with_reducible apply Hw.Only.refl
    | decide
    | (with_reducible apply Hw.Only.step ?_ (Hw.linkReplay_only ..))
    | dsimp only
    | split)

theorem execItvTrainingStart_within (die : Nat) (s : State) {s' : State} (hn : execItvTrainingStart die s = .next s') :
    s.Within [0x1F, A.itv_state.code, A.itv_gen.code, A.train_step.code, A.link_downs.code, A.sys_role.code, A.master_serial.code, A.upstream.code, A.tx_pm.code, A.rx_pm.code] [.front, .buckets, .folded, .itv] [.pkg] s' := by
  unfold execItvTrainingStart at hn
  refine State.within_onDie (G := [.pkg]) hn (fun ms k => ?_)
  try simp only
  repeat' (first
    | with_reducible apply Hw.Only.refl
    | (intro D x hx; cases x <;> first | exact absurd (by decide) hx | exact rfl)
    | decide
    | (with_reducible apply Hw.Only.ite <;> intro _)
    | (with_reducible apply Hw.Only.ite2 <;> intro _)
    | (with_reducible apply Hw.Only.step ?_ (Hw.wr_only ..))
    | (with_reducible apply Hw.Only.step ?_ (Hw.itvTrain_only ..))
    | (with_reducible apply Hw.Only.step ?_ (Hw.itvTo_only ..))
    | (with_reducible apply Hw.Only.step ?_ (Hw.onDie_only [] _ _ _ ?_))
    | dsimp only
    | split)

theorem execItvTrainStepDone_within (die : Nat) (res : TrainResult) (s : State) {s' : State} (hn : execItvTrainStepDone die res s = .next s') :
    s.Within [0x1F, A.itv_state.code, A.itv_gen.code, A.train_step.code, A.peer_serial.code, A.tx_taps.code, A.tx_pm.code, A.rx_pm.code, A.train_fails.code, A.frames_tx.code, A.link_downs.code, A.sys_role.code, A.master_serial.code, A.upstream.code] [.front, .buckets, .folded, .itv] [.pkg, .tunnels] s' := by
  unfold execItvTrainStepDone at hn
  refine State.within_onDie (G := [.pkg, .tunnels]) hn (fun ms k => ?_)
  try simp only
  repeat' (first
    | with_reducible apply Hw.Only.refl
    | (intro D x hx; cases x <;> first | exact absurd (by decide) hx | exact rfl)
    | decide
    | (with_reducible apply Hw.Only.ite <;> intro _)
    | (with_reducible apply Hw.Only.ite2 <;> intro _)
    | (with_reducible apply Hw.Only.step ?_ (Hw.itvStepDone_only ..))
    | (with_reducible apply Hw.Only.step ?_ (Hw.onDie_only [] _ _ _ ?_))
    | dsimp only
    | split)

theorem execItvTrainFail_within (die : Nat) (s : State) {s' : State} (hn : execItvTrainFail die s = .next s') :
    s.Within [0x1F, A.itv_state.code, A.itv_gen.code, A.train_step.code, A.train_fails.code, A.link_downs.code, A.sys_role.code, A.master_serial.code, A.upstream.code] [.front, .buckets, .folded, .itv] [.pkg] s' := by
  unfold execItvTrainFail at hn
  refine State.within_onDie (G := [.pkg]) hn (fun ms k => ?_)
  try simp only
  repeat' (first
    | with_reducible apply Hw.Only.refl
    | (intro D x hx; cases x <;> first | exact absurd (by decide) hx | exact rfl)
    | decide
    | (with_reducible apply Hw.Only.ite <;> intro _)
    | (with_reducible apply Hw.Only.ite2 <;> intro _)
    | (with_reducible apply Hw.Only.step ?_ (Hw.itvFail_only ..))
    | (with_reducible apply Hw.Only.step ?_ (Hw.onDie_only [] _ _ _ ?_))
    | dsimp only
    | split)

theorem execItvRetry_within (die : Nat) (s : State) {s' : State} (hn : execItvRetry die s = .next s') :
    s.Within [0x1F, A.itv_state.code, A.itv_gen.code, A.train_step.code, A.link_downs.code, A.sys_role.code, A.master_serial.code, A.upstream.code, A.tx_pm.code, A.rx_pm.code] [.front, .buckets, .folded, .itv] [.pkg] s' := by
  unfold execItvRetry at hn
  refine State.within_onDie (G := [.pkg]) hn (fun ms k => ?_)
  try simp only
  repeat' (first
    | with_reducible apply Hw.Only.refl
    | (intro D x hx; cases x <;> first | exact absurd (by decide) hx | exact rfl)
    | decide
    | (with_reducible apply Hw.Only.ite <;> intro _)
    | (with_reducible apply Hw.Only.ite2 <;> intro _)
    | (with_reducible apply Hw.Only.step ?_ (Hw.itvTrain_only ..))
    | (with_reducible apply Hw.Only.step ?_ (Hw.onDie_only [] _ _ _ ?_))
    | dsimp only
    | split)

theorem execItvEnable_within (h : Hdr) (s : State) {s' : State} (hn : execItvEnable h s = .next s') :
    s.Within [0x1F, A.cfg_changes.code, A.itv_enable.code, A.itv_state.code, A.itv_gen.code, A.train_step.code, A.link_downs.code, A.sys_role.code, A.master_serial.code, A.upstream.code, A.tx_pm.code, A.rx_pm.code] [.mbx, .front, .buckets, .folded, .itv] [.replies, .pkg] s' := by
  unfold execItvEnable at hn
  refine State.within_command (G := [.replies, .pkg]) hn (fun ms d k => ?_) (by decide) (by decide)
  try simp only
  repeat' (first
    | with_reducible apply Hw.Only.refl
    | decide
    | (with_reducible apply Hw.Only.ite <;> intro _)
    | (with_reducible apply Hw.Only.ite2 <;> intro _)
    | (intro (_ : Hw); intro _)
    | (intro (_ : Hw))
    | (with_reducible apply Hw.Only.step ?_ (Hw.wr_only ..))
    | (with_reducible apply Hw.Only.step ?_ (Hw.itvTrain_only ..))
    | (with_reducible apply Hw.Only.step ?_ (refuse_only ..))
    | (with_reducible apply Hw.Only.step ?_ (okWith_only ..))
    | (with_reducible apply Hw.Only.step ?_ (Hw.command_only (C := [0x1f, 0x10021, 0x190001, 0x190002, 0x190003, 0x190005, 0x190026, 0x1a0001, 0x1a0008, 0x1a0011, 0x19000c, 0x19000d]) (F := [.mbx, .front, .buckets, .folded, .itv]) (G := [.replies, .pkg, .out]) ?_ ?_ ..))
    | dsimp only
    | split)

theorem execItvDisable_within (h : Hdr) (s : State) {s' : State} (hn : execItvDisable h s = .next s') :
    s.Within [0x1F, A.cfg_changes.code, A.itv_enable.code, A.itv_state.code, A.itv_gen.code, A.train_step.code, A.tx_pm.code, A.rx_pm.code, A.link_downs.code, A.sys_role.code, A.master_serial.code, A.upstream.code] [.mbx, .front, .buckets, .folded, .itv] [.replies, .pkg] s' := by
  unfold execItvDisable at hn
  refine State.within_command (G := [.replies, .pkg]) hn (fun ms d k => ?_) (by decide) (by decide)
  try simp only
  repeat' (first
    | with_reducible apply Hw.Only.refl
    | (intro D x hx; cases x <;> first | exact absurd (by decide) hx | exact rfl)
    | decide
    | (with_reducible apply Hw.Only.ite <;> intro _)
    | (with_reducible apply Hw.Only.ite2 <;> intro _)
    | (intro (_ : Hw); intro _)
    | (intro (_ : Hw))
    | (with_reducible apply Hw.Only.step ?_ (Hw.wr_only ..))
    | (with_reducible apply Hw.Only.step ?_ (Hw.itvTo_only ..))
    | (with_reducible apply Hw.Only.step ?_ (Hw.itvPm_only ..))
    | (with_reducible apply Hw.Only.step ?_ (refuse_only ..))
    | (with_reducible apply Hw.Only.step ?_ (okWith_only ..))
    | (with_reducible apply Hw.Only.step ?_ (Hw.command_only (C := [0x1f, 0x10021, 0x190001, 0x190002, 0x190003, 0x190005, 0x19000c, 0x19000d, 0x190026, 0x1a0001, 0x1a0008, 0x1a0011]) (F := [.mbx, .front, .buckets, .folded, .itv]) (G := [.replies, .pkg, .out]) ?_ ?_ ..))
    | (with_reducible apply Hw.Only.step ?_ (Hw.onDie_only [.itv] _ _ _ ?_))
    | dsimp only
    | split)

theorem execItvRetrain_within (h : Hdr) (s : State) {s' : State} (hn : execItvRetrain h s = .next s') :
    s.Within [0x1F, A.cfg_changes.code, A.itv_state.code, A.itv_gen.code, A.train_step.code, A.link_downs.code, A.sys_role.code, A.master_serial.code, A.upstream.code, A.tx_pm.code, A.rx_pm.code] [.mbx, .front, .buckets, .folded, .itv] [.replies, .pkg] s' := by
  unfold execItvRetrain at hn
  refine State.within_command (G := [.replies, .pkg]) hn (fun ms d k => ?_) (by decide) (by decide)
  try simp only
  repeat' (first
    | with_reducible apply Hw.Only.refl
    | decide
    | (with_reducible apply Hw.Only.ite <;> intro _)
    | (with_reducible apply Hw.Only.ite2 <;> intro _)
    | (intro (_ : Hw); intro _)
    | (intro (_ : Hw))
    | (with_reducible apply Hw.Only.step ?_ (Hw.itvTrain_only ..))
    | (with_reducible apply Hw.Only.step ?_ (refuse_only ..))
    | (with_reducible apply Hw.Only.step ?_ (okWith_only ..))
    | (with_reducible apply Hw.Only.step ?_ (Hw.command_only (C := [0x1f, 0x10021, 0x190002, 0x190003, 0x190005, 0x190026, 0x1a0001, 0x1a0008, 0x1a0011, 0x19000c, 0x19000d]) (F := [.mbx, .front, .buckets, .folded, .itv]) (G := [.replies, .pkg, .out]) ?_ ?_ ..))
    | dsimp only
    | split)

theorem execItvSleepEnter_within (die : Nat) (s : State) {s' : State} (hn : execItvSleepEnter die s = .next s') :
    s.Within [0x1F, A.tx_pm.code, A.rx_pm.code] [.front, .buckets, .folded, .itv] [] s' := by
  unfold execItvSleepEnter at hn
  refine State.within_onDie (G := []) hn (fun ms k => ?_)
  try simp only
  repeat' (first
    | with_reducible apply Hw.Only.refl
    | (intro D x hx; cases x <;> first | exact absurd (by decide) hx | exact rfl)
    | decide
    | (with_reducible apply Hw.Only.ite <;> intro _)
    | (with_reducible apply Hw.Only.ite2 <;> intro _)
    | (with_reducible apply Hw.Only.step ?_ (Hw.emit_only ..))
    | (with_reducible apply Hw.Only.step ?_ (Hw.itvPm_only ..))
    | (with_reducible apply Hw.Only.step ?_ (Hw.onDie_only [.itv] _ _ _ ?_))
    | dsimp only
    | split)

theorem execItvDeepPropose_within (die : Nat) (s : State) {s' : State} (hn : execItvDeepPropose die s = .next s') :
    s.Within [0x1F, A.tx_pm.code, A.rx_pm.code] [.front, .buckets, .folded, .itv] [] s' := by
  unfold execItvDeepPropose at hn
  refine State.within_onDie (G := []) hn (fun ms k => ?_)
  try simp only
  repeat' (first
    | with_reducible apply Hw.Only.refl
    | (intro D x hx; cases x <;> first | exact absurd (by decide) hx | exact rfl)
    | decide
    | (with_reducible apply Hw.Only.ite <;> intro _)
    | (with_reducible apply Hw.Only.ite2 <;> intro _)
    | (with_reducible apply Hw.Only.step ?_ (Hw.emit_only ..))
    | (with_reducible apply Hw.Only.step ?_ (Hw.itvPm_only ..))
    | (with_reducible apply Hw.Only.step ?_ (Hw.onDie_only [.itv] _ _ _ ?_))
    | dsimp only
    | split)

theorem execItvPmBlockReceive_within (die type : Nat) (s : State) {s' : State} (hn : execItvPmBlockReceive die type s = .next s') :
    s.Within [0x1F, A.tx_pm.code, A.rx_pm.code] [.front, .buckets, .folded, .itv] [] s' := by
  unfold execItvPmBlockReceive at hn
  refine State.within_onDie (G := []) hn (fun ms k => ?_)
  try simp only
  repeat' (first
    | with_reducible apply Hw.Only.refl
    | (intro D x hx; cases x <;> first | exact absurd (by decide) hx | exact rfl)
    | decide
    | (with_reducible apply Hw.Only.ite <;> intro _)
    | (with_reducible apply Hw.Only.ite2 <;> intro _)
    | (with_reducible apply Hw.Only.step ?_ (Hw.emit_only ..))
    | (with_reducible apply Hw.Only.step ?_ (Hw.itvDeep_only ..))
    | (with_reducible apply Hw.Only.step ?_ (Hw.itvPm_only ..))
    | (with_reducible apply Hw.Only.step ?_ (Hw.onDie_only [] _ _ _ ?_))
    | dsimp only
    | split)

theorem execItvDeepExit_within (die : Nat) (s : State) {s' : State} (hn : execItvDeepExit die s = .next s') :
    s.Within [0x1F, A.itv_state.code, A.itv_gen.code, A.train_step.code, A.tx_pm.code, A.rx_pm.code, A.link_downs.code, A.sys_role.code, A.master_serial.code, A.upstream.code] [.front, .buckets, .folded, .itv] [.pkg] s' := by
  unfold execItvDeepExit at hn
  refine State.within_onDie (G := [.pkg]) hn (fun ms k => ?_)
  try simp only
  repeat' (first
    | with_reducible apply Hw.Only.refl
    | (intro D x hx; cases x <;> first | exact absurd (by decide) hx | exact rfl)
    | decide
    | (with_reducible apply Hw.Only.ite <;> intro _)
    | (with_reducible apply Hw.Only.ite2 <;> intro _)
    | (with_reducible apply Hw.Only.step ?_ (Hw.wr_only ..))
    | (with_reducible apply Hw.Only.step ?_ (Hw.itvTo_only ..))
    | (with_reducible apply Hw.Only.step ?_ (Hw.itvPm_only ..))
    | (with_reducible apply Hw.Only.step ?_ (Hw.onDie_only [.itv] _ _ _ ?_))
    | dsimp only
    | split)

theorem execEyeScanComplete_within (die lane width height : Nat) (s : State) {s' : State} (hn : execEyeScanComplete die lane width height s = .next s') :
    s.Within [0x1F, A.eye_tb1.code] [.mbx, .front, .buckets, .folded, .itv] [.blks, .pkg] s' := by
  unfold execEyeScanComplete at hn
  refine State.within_onUnit (G := [.blks, .pkg]) hn (fun ms k => ?_)
  try simp only
  repeat' (first
    | with_reducible apply Hw.Only.refl
    | (intro D x hx; split <;> (cases x <;> first | exact absurd (by decide) hx | exact rfl))
    | (intro D x hx; cases x <;> first | exact absurd (by decide) hx | exact rfl)
    | decide
    | (with_reducible apply Hw.Only.ite <;> intro _)
    | (with_reducible apply Hw.Only.ite2 <;> intro _)
    | (with_reducible apply Hw.Only.foldl)
    | (intro (_ : Hw); intro _)
    | (intro (_ : Hw))
    | (with_reducible apply Hw.Only.foldlP)
    | (intro (_ : _ × Hw); intro _)
    | (with_reducible apply Hw.Only.step ?_ (Hw.wr_only ..))
    | (with_reducible apply Hw.Only.step ?_ (Hw.settle_only ..))
    | (with_reducible apply Hw.Only.step ?_ (Hw.event_only ..))
    | (with_reducible apply Hw.Only.step ?_ (Hw.wrBlk_only ..))
    | (with_reducible apply Hw.Only.step ?_ (Hw.onDie_only [.itv] _ _ _ ?_))
    | dsimp only
    | split)

theorem execItvEyeRead_within (h : Hdr) (lanes : Nat) (s : State) {s' : State} (hn : execItvEyeRead h lanes s = .next s') :
    s.Within [0x1F, A.cfg_changes.code] [.mbx, .front, .buckets, .folded] [.replies] s' := by
  unfold execItvEyeRead at hn
  refine State.within_command (G := [.replies]) hn (fun ms d k => ?_) (by decide) (by decide)
  try simp only
  repeat' (first
    | with_reducible apply Hw.Only.refl
    | decide
    | (with_reducible apply Hw.Only.ite <;> intro _)
    | (with_reducible apply Hw.Only.ite2 <;> intro _)
    | (intro (_ : Hw); intro _)
    | (intro (_ : Hw))
    | (with_reducible apply Hw.Only.step ?_ (refuse_only ..))
    | (with_reducible apply Hw.Only.step ?_ (Hw.command_only (C := [0x1f, 0x10021]) (F := [.mbx, .front, .buckets, .folded]) (G := [.replies, .out]) ?_ ?_ ..))
    | dsimp only
    | split)

theorem execItvEyeMeasure_within (h : Hdr) (lanes : Nat) (s : State) {s' : State} (hn : execItvEyeMeasure h lanes s = .next s') :
    s.Within [0x1F, A.cfg_changes.code] [.mbx, .front, .buckets, .folded, .itv] [.nextId, .replies, .pkg] s' := by
  unfold execItvEyeMeasure at hn
  refine State.within_command (G := [.nextId, .replies, .pkg]) hn (fun ms d k => ?_) (by decide) (by decide)
  try simp only
  repeat' (first
    | with_reducible apply Hw.Only.refl
    | (intro D x hx; cases x <;> first | exact absurd (by decide) hx | exact rfl)
    | decide
    | (with_reducible apply Hw.Only.ite <;> intro _)
    | (with_reducible apply Hw.Only.ite2 <;> intro _)
    | (intro (_ : Hw); intro _)
    | (intro (_ : Hw))
    | (with_reducible apply Hw.Only.step ?_ (refuse_only ..))
    | (with_reducible apply Hw.Only.step ?_ (okWith_only ..))
    | (with_reducible apply Hw.Only.step ?_ (Hw.deferWork_only ..))
    | (with_reducible apply Hw.Only.step ?_ (Hw.settle_only ..))
    | (with_reducible apply Hw.Only.step ?_ (Hw.command_only (C := [0x1f, 0x10021]) (F := [.mbx, .front, .buckets, .folded, .itv]) (G := [.nextId, .replies, .pkg, .out]) ?_ ?_ ..))
    | (with_reducible apply Hw.Only.step ?_ (Hw.onDie_only [.itv] _ _ _ ?_))
    | dsimp only
    | split
    | (apply Hw.Only.of_pair; assumption)
    | (apply Hw.Only.of_triple; assumption))

theorem execEthLinkChange_within (die port : Nat) (up : Bool) (s : State) {s' : State} (hn : execEthLinkChange die port up s = .next s') :
    s.Within [0x1F, A.link_up.code] [.front, .buckets, .folded] [] s' := by
  unfold execEthLinkChange at hn
  refine State.within_onUnit (G := []) hn (fun ms k => ?_)
  try simp only
  repeat' (first
    | with_reducible apply Hw.Only.refl
    | decide
    | (with_reducible apply Hw.Only.ite <;> intro _)
    | (with_reducible apply Hw.Only.ite2 <;> intro _)
    | (with_reducible apply Hw.Only.step ?_ (Hw.wr_only ..))
    | (with_reducible apply Hw.Only.step ?_ (Hw.event_only ..))
    | dsimp only
    | split)

theorem execEnumFrame_within (link serial : Nat) (masterEn : Bool) (priority dies : Nat) (chains : List Nat) (place : Option EnumPlace) (lo hi : Nat) (s : State) {s' : State} (hn : execEnumFrame link serial masterEn priority dies chains place lo hi s = .next s') :
    s.Within [0x1F, A.sys_role.code, A.node_base.code, A.node_count.code, A.sys_nodes.code, A.sys_packages.code, A.master_serial.code, A.sys_gen.code, A.upstream.code, A.addr_full.code, A.depth.code] [.front, .buckets, .folded] [.pkg] s' := by
  unfold execEnumFrame at hn
  refine State.within_onUnit (G := [.pkg]) hn (fun ms k => ?_)
  try simp only
  repeat' (first
    | with_reducible apply Hw.Only.refl
    | (intro D x hx; cases x <;> first | exact absurd (by decide) hx | exact rfl)
    | (intro x hx; cases x <;> first | exact absurd (by decide) hx | exact rfl)
    | decide
    | (with_reducible apply Hw.Only.ite <;> intro _)
    | (with_reducible apply Hw.Only.ite2 <;> intro _)
    | (with_reducible apply Hw.Only.step ?_ (Hw.wr_only ..))
    | (with_reducible apply Hw.Only.step ?_ (Hw.enumerate_only ..))
    | (with_reducible apply Hw.Only.step ?_ (Hw.roleUpdate_only ..))
    | (with_reducible apply Hw.Only.step ?_ (Hw.eventPkg_only ..))
    | dsimp only
    | split
    | (apply Hw.Only.of_pair; assumption)
    | (apply Hw.Only.of_triple; assumption)
    | (with_reducible refine Hw.Only.mono (Hw.Only.recs k _ [.pkg] (Eq.refl _) (Eq.refl _) ?_) ?_)
    | (with_reducible apply Hw.Only.step ?_ (Hw.with_pkg ..)))

theorem execAutoEnum_within (s : State) {s' : State} (hn : execAutoEnum s = .next s') :
    s.Within [0x1F, A.sys_role.code, A.node_base.code, A.node_count.code, A.sys_nodes.code, A.sys_packages.code, A.master_serial.code, A.sys_gen.code, A.addr_full.code, A.depth.code] [.front, .buckets, .folded] [.pkg] s' := by
  unfold execAutoEnum at hn
  refine State.within_onPkg (G := [.pkg]) hn (fun ms k => ?_)
  try simp only
  repeat' (first
    | with_reducible apply Hw.Only.refl
    | decide
    | (with_reducible apply Hw.Only.ite <;> intro _)
    | (with_reducible apply Hw.Only.ite2 <;> intro _)
    | (with_reducible apply Hw.Only.step ?_ (Hw.enumerate_only ..))
    | (with_reducible apply Hw.Only.step ?_ (Hw.roleUpdate_only ..))
    | dsimp only
    | split)

theorem execSysEnumFresh_within (h : Hdr) (s : State) {s' : State} (hn : execSysEnumFresh h s = .next s') :
    s.Within [0x1F, A.cfg_changes.code, A.sys_role.code, A.node_base.code, A.node_count.code, A.sys_nodes.code, A.sys_packages.code, A.master_serial.code, A.sys_gen.code, A.addr_full.code, A.depth.code] [.mbx, .front, .buckets, .folded] [.nextId, .replies, .pkg] s' := by
  unfold execSysEnumFresh at hn
  refine State.within_command (G := [.nextId, .replies, .pkg]) hn (fun ms d k => ?_) (by decide) (by decide)
  try simp only
  repeat' (first
    | with_reducible apply Hw.Only.refl
    | decide
    | (intro (_ : Hw); intro _)
    | (intro (_ : Hw))
    | (with_reducible apply Hw.Only.step ?_ (sysEnum_only ..))
    | (with_reducible apply Hw.Only.step ?_ (Hw.command_only (C := [0x1f, 0x10021, 0x1a0001, 0x1a0002, 0x1a0003, 0x1a0004, 0x1a0005, 0x1a0008, 0x1a000c, 0x1a0012, 0x1a0010]) (F := [.mbx, .front, .buckets, .folded]) (G := [.nextId, .replies, .pkg, .out]) ?_ ?_ ..))
    | dsimp only
    | split)

theorem execSysEnumKeep_within (h : Hdr) (s : State) {s' : State} (hn : execSysEnumKeep h s = .next s') :
    s.Within [0x1F, A.cfg_changes.code, A.sys_role.code, A.node_base.code, A.node_count.code, A.sys_nodes.code, A.sys_packages.code, A.master_serial.code, A.sys_gen.code, A.addr_full.code, A.depth.code] [.mbx, .front, .buckets, .folded] [.nextId, .replies, .pkg] s' := by
  unfold execSysEnumKeep at hn
  refine State.within_command (G := [.nextId, .replies, .pkg]) hn (fun ms d k => ?_) (by decide) (by decide)
  try simp only
  repeat' (first
    | with_reducible apply Hw.Only.refl
    | decide
    | (intro (_ : Hw); intro _)
    | (intro (_ : Hw))
    | (with_reducible apply Hw.Only.step ?_ (sysEnum_only ..))
    | (with_reducible apply Hw.Only.step ?_ (Hw.command_only (C := [0x1f, 0x10021, 0x1a0001, 0x1a0002, 0x1a0003, 0x1a0004, 0x1a0005, 0x1a0008, 0x1a000c, 0x1a0012, 0x1a0010]) (F := [.mbx, .front, .buckets, .folded]) (G := [.nextId, .replies, .pkg, .out]) ?_ ?_ ..))
    | dsimp only
    | split)

theorem execSysNode_within (h : Hdr) (addr : Nat) (s : State) {s' : State} (hn : execSysNode h addr s = .next s') :
    s.Within [0x1F, A.cfg_changes.code] [.mbx, .front, .buckets, .folded] [.replies] s' := by
  unfold execSysNode at hn
  refine State.within_command (G := [.replies]) hn (fun ms d k => ?_) (by decide) (by decide)
  try simp only
  repeat' (first
    | with_reducible apply Hw.Only.refl
    | decide
    | (intro (_ : Hw); intro _)
    | (intro (_ : Hw))
    | (with_reducible apply Hw.Only.step ?_ (Hw.command_only (C := [0x1f, 0x10021]) (F := [.mbx, .front, .buckets, .folded]) (G := [.replies, .out]) ?_ ?_ ..))
    | dsimp only
    | split
    | (apply Hw.Only.of_pair; assumption)
    | (apply Hw.Only.of_triple; assumption))

theorem execTimeSyncExchange_within (link : Nat) (t1 t2 t3 t4 : Int) (t : Nat) (s : State) {s' : State} (hn : execTimeSyncExchange link t1 t2 t3 t4 t s = .next s') :
    s.Within [0x1F, A.servo_state.code, A.freq_ppt.code, A.offset_ns.code, A.outliers.code] [.front, .buckets, .folded, .tbs, .tbChanges, .capFresh] [.clk, .pkg] s' := by
  unfold execTimeSyncExchange at hn
  refine State.within_onUnit (G := [.clk, .pkg]) hn (fun ms k => ?_)
  try simp only
  repeat' (first
    | with_reducible apply Hw.Only.refl
    | decide
    | (with_reducible apply Hw.Only.ite <;> intro _)
    | (with_reducible apply Hw.Only.ite2 <;> intro _)
    | (with_reducible apply Hw.Only.step ?_ (Hw.servoSample_only ..))
    | (with_reducible apply Hw.Only.step ?_ (Hw.until_only ..))
    | dsimp only
    | split)

/-! ### Position -/

theorem execAbsWordRequest_within (die ch : Nat) (dat : Bool) (s : State) {s' : State} (hn : execAbsWordRequest die ch dat s = .next s') :
    s.Within [0x1F] [.front, .buckets, .folded, .enc] [] s' := by
  unfold execAbsWordRequest at hn
  refine State.within_onUnit (G := []) hn (fun ms k => ?_)
  try simp only
  repeat' (first
    | with_reducible apply Hw.Only.refl
    | decide
    | (with_reducible apply Hw.Only.step ?_ (Hw.absRequest_only ..))
    | (with_reducible apply Hw.Only.step ?_ (Hw.onEnc_only ..))
    | dsimp only
    | split)

theorem execAbsRequest_within (h : Hdr) (ch : Nat) (s : State) {s' : State} (hn : execAbsRequest h ch s = .next s') :
    s.Within [0x1F, A.cfg_changes.code] [.mbx, .front, .buckets, .folded, .enc] [.replies] s' := by
  unfold execAbsRequest at hn
  refine State.within_command (G := [.replies]) hn (fun ms d k => ?_) (by decide) (by decide)
  try simp only
  repeat' (first
    | with_reducible apply Hw.Only.refl
    | decide
    | (with_reducible apply Hw.Only.ite <;> intro _)
    | (with_reducible apply Hw.Only.ite2 <;> intro _)
    | (intro (_ : Hw); intro _)
    | (intro (_ : Hw))
    | (with_reducible apply Hw.Only.step ?_ (Hw.absRequest_only ..))
    | (with_reducible apply Hw.Only.step ?_ (refuse_only ..))
    | (with_reducible apply Hw.Only.step ?_ (okWith_only ..))
    | (with_reducible apply Hw.Only.step ?_ (Hw.command_only (C := [0x1f, 0x10021]) (F := [.mbx, .front, .buckets, .folded, .enc]) (G := [.replies, .out]) ?_ ?_ ..))
    | dsimp only
    | split)

theorem execAbsTimeout_within (die ch : Nat) (s : State) {s' : State} (hn : execAbsTimeout die ch s = .next s') :
    s.Within [0x1F, A.enc_flags.code, A.abs_errs.code] [.front, .buckets, .folded, .enc] [] s' := by
  unfold execAbsTimeout at hn
  refine State.within_onUnit (G := []) hn (fun ms k => ?_)
  try simp only
  repeat' (first
    | with_reducible apply Hw.Only.refl
    | decide
    | (with_reducible apply Hw.Only.ite <;> intro _)
    | (with_reducible apply Hw.Only.ite2 <;> intro _)
    | (with_reducible apply Hw.Only.step ?_ (Hw.absDiscard_only ..))
    | (with_reducible apply Hw.Only.step ?_ (Hw.onEnc_only ..))
    | (with_reducible apply Hw.Only.step ?_ (Hw.event_only ..))
    | dsimp only
    | split)

theorem execPosLatch_within (h : Hdr) (s : State) {s' : State} (hn : execPosLatch h s = .next s') :
    s.Within [0x1F, A.cfg_changes.code] [.mbx, .front, .buckets, .folded] [.replies] s' := by
  unfold execPosLatch at hn
  refine State.within_command (G := [.replies]) hn (fun ms d k => ?_) (by decide) (by decide)
  try simp only
  repeat' (first
    | with_reducible apply Hw.Only.refl
    | decide
    | (intro (_ : Hw); intro _)
    | (intro (_ : Hw))
    | (with_reducible apply Hw.Only.step ?_ (Hw.command_only (C := [0x1f, 0x10021]) (F := [.mbx, .front, .buckets, .folded]) (G := [.replies, .out]) ?_ ?_ ..))
    | dsimp only
    | split)

theorem execCmpArm_within (h : Hdr) (unit_ pulse : Nat) (event lpos rev lateOk : Bool) (value : Int) (step : Nat) (s : State) {s' : State} (hn : execCmpArm h unit_ pulse event lpos rev lateOk value step s = .next s') :
    s.Within [0x1F, A.cfg_changes.code, A.cmp_state.code, A.cmp_value.code, A.cmp_ctl.code, A.cmp_step.code, A.cmp_fires.code, A.cmp_missed.code, A.cmp_last_tb1.code, A.po_state.code, A.po_next.code, A.po_skipped.code] [.mbx, .front, .buckets, .folded, .pulses] [.replies] s' := by
  unfold execCmpArm at hn
  refine State.within_command (G := [.replies]) hn (fun ms d k => ?_) (by decide) (by decide)
  try simp only
  repeat' (first
    | with_reducible apply Hw.Only.refl
    | decide
    | (with_reducible apply Hw.Only.ite <;> intro _)
    | (with_reducible apply Hw.Only.ite2 <;> intro _)
    | (intro (_ : Hw); intro _)
    | (intro (_ : Hw))
    | (with_reducible apply Hw.Only.step ?_ (cmpArm_only ..))
    | (with_reducible apply Hw.Only.step ?_ (refuse_only ..))
    | (with_reducible apply Hw.Only.step ?_ (Hw.command_only (C := [0x1f, 0x10021, 0x50001, 0x50002, 0x50003, 0x50004, 0x50005, 0x50006, 0x50007, 0x160001, 0x160007, 0x16000a]) (F := [.mbx, .front, .buckets, .folded, .pulses]) (G := [.replies, .out]) ?_ ?_ ..))
    | dsimp only
    | split)

theorem execCmpDisarm_within (h : Hdr) (unit_ : Nat) (s : State) {s' : State} (hn : execCmpDisarm h unit_ s = .next s') :
    s.Within [0x1F, A.cfg_changes.code, A.cmp_state.code] [.mbx, .front, .buckets, .folded] [.replies] s' := by
  unfold execCmpDisarm at hn
  refine State.within_command (G := [.replies]) hn (fun ms d k => ?_) (by decide) (by decide)
  try simp only
  repeat' (first
    | with_reducible apply Hw.Only.refl
    | decide
    | (with_reducible apply Hw.Only.ite <;> intro _)
    | (with_reducible apply Hw.Only.ite2 <;> intro _)
    | (intro (_ : Hw); intro _)
    | (intro (_ : Hw))
    | (with_reducible apply Hw.Only.step ?_ (Hw.wr_only ..))
    | (with_reducible apply Hw.Only.step ?_ (refuse_only ..))
    | (with_reducible apply Hw.Only.step ?_ (Hw.command_only (C := [0x1f, 0x10021, 0x50001]) (F := [.mbx, .front, .buckets, .folded]) (G := [.replies, .out]) ?_ ?_ ..))
    | dsimp only
    | split)

/-! ### Resilience -/

theorem execWatchdogExpiry_within (die : Nat) (serviced : Bool) (s : State) {s' : State} (hn : execWatchdogExpiry die serviced s = .next s') :
    s.Within [0x1F, A.ld_states.code, A.ld_causes.code] [.front, .buckets, .folded, .up] [.lead, .leadSt, .takeover, .kennelWriting, .faultMask] s' := by
  unfold execWatchdogExpiry at hn
  refine State.within_onDie (G := [.lead, .leadSt, .takeover, .kennelWriting, .faultMask]) hn (fun ms k => ?_)
  try simp only
  repeat' (first
    | with_reducible apply Hw.Only.refl
    | (intro D x hx; cases x <;> first | exact absurd (by decide) hx | exact rfl)
    | decide
    | (with_reducible apply Hw.Only.ite <;> intro _)
    | (with_reducible apply Hw.Only.ite2 <;> intro _)
    | (with_reducible apply Hw.Only.step ?_ (Hw.mgmtStop_only ..))
    | (with_reducible apply Hw.Only.step ?_ (Hw.onDie_only [] _ _ _ ?_))
    | dsimp only
    | split)

theorem execSramEccError_within (die : Nat) (s : State) {s' : State} (hn : execSramEccError die s = .next s') :
    s.Within [0x1F, A.ld_states.code, A.ld_causes.code] [.front, .buckets, .folded, .up] [.lead, .leadSt, .takeover, .kennelWriting, .faultMask] s' := by
  unfold execSramEccError at hn
  refine State.within_onDie (G := [.lead, .leadSt, .takeover, .kennelWriting, .faultMask]) hn (fun ms k => ?_)
  try simp only
  repeat' (first
    | with_reducible apply Hw.Only.refl
    | (intro D x hx; cases x <;> first | exact absurd (by decide) hx | exact rfl)
    | decide
    | (with_reducible apply Hw.Only.step ?_ (Hw.mgmtStop_only ..))
    | (with_reducible apply Hw.Only.step ?_ (Hw.onDie_only [] _ _ _ ?_))
    | dsimp only
    | split)

theorem execMgmtPowerLoss_within (die : Nat) (s : State) {s' : State} (hn : execMgmtPowerLoss die s = .next s') :
    s.Within [0x1F, A.ld_states.code, A.ld_causes.code, A.pd_on.code] [.front, .buckets, .folded, .up] [.lead, .leadSt, .takeover, .kennelWriting, .faultMask] s' := by
  unfold execMgmtPowerLoss at hn
  refine State.within_onDie (G := [.lead, .leadSt, .takeover, .kennelWriting, .faultMask]) hn (fun ms k => ?_)
  try simp only
  repeat' (first
    | with_reducible apply Hw.Only.refl
    | (intro D x hx; cases x <;> first | exact absurd (by decide) hx | exact rfl)
    | decide
    | (with_reducible apply Hw.Only.step ?_ (Hw.wr_only ..))
    | (with_reducible apply Hw.Only.step ?_ (Hw.mgmtStop_only ..))
    | (with_reducible apply Hw.Only.step ?_ (Hw.onDie_only [] _ _ _ ?_))
    | dsimp only
    | split)

theorem execKennelCheckpoint_within (s : State) {s' : State} (hn : execKennelCheckpoint s = .next s') :
    s.Within [0x1F, A.kennel_age_ms.code, A.kennel_late.code] [.front, .buckets, .folded] [.kennelWriting, .kennel, .kennelLateSeen] s' := by
  unfold execKennelCheckpoint at hn
  refine State.within_onPkg (G := [.kennelWriting, .kennel, .kennelLateSeen]) hn (fun ms k => ?_)
  try simp only
  repeat' (first
    | with_reducible apply Hw.Only.refl
    | decide
    | (with_reducible apply Hw.Only.ite <;> intro _)
    | (with_reducible apply Hw.Only.ite2 <;> intro _)
    | (with_reducible apply Hw.Only.step ?_ (Hw.add_only ..))
    | (with_reducible apply Hw.Only.step ?_ (Hw.kennelAge_only ..))
    | (with_reducible apply Hw.Only.step ?_ (Hw.kennelStart_only ..))
    | dsimp only
    | split)

theorem execKennelWriteDone_within (ok : Bool) (s : State) {s' : State} (hn : execKennelWriteDone ok s = .next s') :
    s.Within [0x1F, A.ld_states.code, A.ld_causes.code, A.kennel_seq.code, A.kennel_tb0.code, A.kennel_bytes.code, A.kennel_age_ms.code, A.kennel_errs.code] [.mbx, .front, .buckets, .folded] [.lead, .leadSt, .takeover, .kennelWriting, .kennel, .kennelFailRun, .kennelAt, .kennelLateSeen, .ckptWork, .pkg, .faultMask] s' := by
  unfold execKennelWriteDone at hn
  refine State.within_onPkg (G := [.lead, .leadSt, .takeover, .kennelWriting, .kennel, .kennelFailRun, .kennelAt, .kennelLateSeen, .ckptWork, .pkg, .faultMask]) hn (fun ms k => ?_)
  try simp only
  repeat' (first
    | with_reducible apply Hw.Only.refl
    | (intro x hx; cases x <;> first | exact absurd (by decide) hx | exact rfl)
    | decide
    | (with_reducible apply Hw.Only.ite <;> intro _)
    | (with_reducible apply Hw.Only.ite2 <;> intro _)
    | (with_reducible apply Hw.Only.step ?_ (Hw.wr_only ..))
    | (with_reducible apply Hw.Only.step ?_ (Hw.add_only ..))
    | (with_reducible apply Hw.Only.step ?_ (Hw.moveOn_only ..))
    | (with_reducible apply Hw.Only.step ?_ (Hw.leadRelease_only ..))
    | (with_reducible apply Hw.Only.step ?_ (Hw.settle_only ..))
    | (with_reducible apply Hw.Only.step ?_ (Hw.eventPkg_only ..))
    | dsimp only
    | split
    | (apply Hw.Only.of_pair; assumption)
    | (apply Hw.Only.of_triple; assumption)
    | (with_reducible refine Hw.Only.mono (Hw.Only.recs k _ [.kennelWriting, .kennel, .kennelFailRun, .kennelAt, .kennelLateSeen, .ckptWork] (Eq.refl _) (Eq.refl _) ?_) ?_)
    | (with_reducible apply Hw.Only.step ?_ (Hw.with_kennel_kennelAt_kennelFailRun_kennelLateSeen ..))
    | (with_reducible apply Hw.Only.step ?_ (Hw.with_kennelWriting ..))
    | (with_reducible apply Hw.Only.step ?_ (Hw.with_kennelFailRun ..))
    | (with_reducible apply Hw.Only.step ?_ (Hw.with_ckptWork ..)))

theorem execLeadTakeover_within (us : Nat) (s : State) {s' : State} (hn : execLeadTakeover us s = .next s') :
    s.Within [0] [.mbx, .front, .buckets, .folded] [.blks, .stages, .mode, .lead, .leadSt, .takeover, .moving, .repairArmed, .safeFrom, .pkg, .fwSlots, .fw] s' := by
  unfold execLeadTakeover at hn
  refine State.within_onPkg (G := [.blks, .stages, .mode, .lead, .leadSt, .takeover, .moving, .repairArmed, .safeFrom, .pkg, .fwSlots, .fw]) hn (fun ms k => ?_)
  try simp only
  repeat' (first
    | with_reducible apply Hw.Only.refl
    | decide
    | (with_reducible apply Hw.Only.ite <;> intro _)
    | (with_reducible apply Hw.Only.ite2 <;> intro _)
    | (with_reducible apply Hw.Only.step ?_ (Hw.takeToken_only ..))
    | (with_reducible apply Hw.Only.step ?_ (Hw.modeTo_only ..))
    | (with_reducible apply Hw.Only.step ?_ (Hw.settle_only ..))
    | (with_reducible apply Hw.Only.step ?_ (Hw.eventPkg_only ..))
    | dsimp only
    | split
    | (apply Hw.Only.of_pair; assumption)
    | (apply Hw.Only.of_triple; assumption)
    | (with_reducible apply Hw.Only.step ?_ (Hw.with_safeFrom_takeover ..)))

theorem execLeadRepair_within (s : State) {s' : State} (hn : execLeadRepair s = .next s') :
    s.Within [A.ld_states.code] [.up] [.leadSt, .repairArmed] s' := by
  unfold execLeadRepair at hn
  refine State.within_onPkg (G := [.leadSt, .repairArmed]) hn (fun ms k => ?_)
  try simp only
  repeat' (first
    | with_reducible apply Hw.Only.refl
    | decide
    | (with_reducible apply Hw.Only.ite <;> intro _)
    | (with_reducible apply Hw.Only.ite2 <;> intro _)
    | (with_reducible apply Hw.Only.step ?_ (Hw.repairStart_only ..))
    | dsimp only
    | split
    | (apply Hw.Only.of_pair; assumption)
    | (apply Hw.Only.of_triple; assumption)
    | (with_reducible apply Hw.Only.step ?_ (Hw.with_repairArmed ..)))

theorem execLeadStandby_within (die : Nat) (pass : Bool) (s : State) {s' : State} (hn : execLeadStandby die pass s = .next s') :
    s.Within [0x1F, A.ld_states.code, A.pd_on.code] [.mbx, .front, .buckets, .folded, .up] [.leadSt, .repairWork, .pkg, .faultMask] s' := by
  unfold execLeadStandby at hn
  refine State.within_onUnit (G := [.leadSt, .repairWork, .pkg, .faultMask]) hn (fun ms k => ?_)
  try simp only
  repeat' (first
    | with_reducible apply Hw.Only.refl
    | (intro D x hx; cases x <;> first | exact absurd (by decide) hx | exact rfl)
    | decide
    | (with_reducible apply Hw.Only.ite <;> intro _)
    | (with_reducible apply Hw.Only.ite2 <;> intro _)
    | (with_reducible apply Hw.Only.step ?_ (Hw.wr_only ..))
    | (with_reducible apply Hw.Only.step ?_ (Hw.setFault_only ..))
    | (with_reducible apply Hw.Only.step ?_ (Hw.setLd_only ..))
    | (with_reducible apply Hw.Only.step ?_ (Hw.settle_only ..))
    | (with_reducible apply Hw.Only.step ?_ (Hw.event_only ..))
    | (with_reducible apply Hw.Only.step ?_ (Hw.onDie_only [.up] _ _ _ ?_))
    | dsimp only
    | split
    | (apply Hw.Only.of_pair; assumption)
    | (apply Hw.Only.of_triple; assumption)
    | (with_reducible apply Hw.Only.step ?_ (Hw.with_repairWork ..)))

theorem execLeadMove_within (h : Hdr) (s : State) {s' : State} (hn : execLeadMove h s = .next s') :
    s.Within [0x1F, A.cfg_changes.code] [.mbx, .front, .buckets, .folded] [.nextId, .replies, .kennelWriting, .kennel, .moving, .pkg] s' := by
  unfold execLeadMove at hn
  refine State.within_command (G := [.nextId, .replies, .kennelWriting, .kennel, .moving, .pkg]) hn (fun ms d k => ?_) (by decide) (by decide)
  try simp only
  repeat' (first
    | with_reducible apply Hw.Only.refl
    | decide
    | (with_reducible apply Hw.Only.ite <;> intro _)
    | (with_reducible apply Hw.Only.ite2 <;> intro _)
    | (intro (_ : Hw); intro _)
    | (intro (_ : Hw))
    | (with_reducible apply Hw.Only.step ?_ (Hw.kennelStart_only ..))
    | (with_reducible apply Hw.Only.step ?_ (refuse_only ..))
    | (with_reducible apply Hw.Only.step ?_ (Hw.deferWork_only ..))
    | (with_reducible apply Hw.Only.step ?_ (Hw.command_only (C := [0x1f, 0x10021]) (F := [.mbx, .front, .buckets, .folded]) (G := [.nextId, .replies, .kennelWriting, .kennel, .moving, .pkg, .out]) ?_ ?_ ..))
    | dsimp only
    | split
    | (apply Hw.Only.of_pair; assumption)
    | (apply Hw.Only.of_triple; assumption)
    | (with_reducible apply Hw.Only.step ?_ (Hw.with_moving ..)))

theorem execLeadCtrlRepair_within (h : Hdr) (die : Nat) (s : State) {s' : State} (hn : execLeadCtrlRepair h die s = .next s') :
    s.Within [0x1F, A.cfg_changes.code, A.ld_states.code] [.mbx, .front, .buckets, .folded, .up] [.nextId, .replies, .leadSt, .repairWork, .pkg] s' := by
  unfold execLeadCtrlRepair at hn
  refine State.within_command (G := [.nextId, .replies, .leadSt, .repairWork, .pkg]) hn (fun ms d k => ?_) (by decide) (by decide)
  try simp only
  repeat' (first
    | with_reducible apply Hw.Only.refl
    | decide
    | (with_reducible apply Hw.Only.ite <;> intro _)
    | (with_reducible apply Hw.Only.ite2 <;> intro _)
    | (intro (_ : Hw); intro _)
    | (intro (_ : Hw))
    | (with_reducible apply Hw.Only.step ?_ (Hw.repairStart_only ..))
    | (with_reducible apply Hw.Only.step ?_ (refuse_only ..))
    | (with_reducible apply Hw.Only.step ?_ (Hw.deferWork_only ..))
    | (with_reducible apply Hw.Only.step ?_ (Hw.command_only (C := [0x1f, 0x10021, 0x1e0002]) (F := [.mbx, .front, .buckets, .folded, .up]) (G := [.nextId, .replies, .leadSt, .repairWork, .pkg, .out]) ?_ ?_ ..))
    | dsimp only
    | split
    | (apply Hw.Only.of_pair; assumption)
    | (apply Hw.Only.of_triple; assumption)
    | (with_reducible apply Hw.Only.step ?_ (Hw.with_repairWork ..)))

theorem execLeadCheckpoint_within (h : Hdr) (s : State) {s' : State} (hn : execLeadCheckpoint h s = .next s') :
    s.Within [0x1F, A.cfg_changes.code] [.mbx, .front, .buckets, .folded] [.nextId, .replies, .kennelWriting, .kennel, .ckptWork, .pkg] s' := by
  unfold execLeadCheckpoint at hn
  refine State.within_command (G := [.nextId, .replies, .kennelWriting, .kennel, .ckptWork, .pkg]) hn (fun ms d k => ?_) (by decide) (by decide)
  try simp only
  repeat' (first
    | with_reducible apply Hw.Only.refl
    | decide
    | (with_reducible apply Hw.Only.ite <;> intro _)
    | (with_reducible apply Hw.Only.ite2 <;> intro _)
    | (intro (_ : Hw); intro _)
    | (intro (_ : Hw))
    | (with_reducible apply Hw.Only.step ?_ (Hw.kennelStart_only ..))
    | (with_reducible apply Hw.Only.step ?_ (refuse_only ..))
    | (with_reducible apply Hw.Only.step ?_ (Hw.deferWork_only ..))
    | (with_reducible apply Hw.Only.step ?_ (Hw.command_only (C := [0x1f, 0x10021]) (F := [.mbx, .front, .buckets, .folded]) (G := [.nextId, .replies, .kennelWriting, .kennel, .ckptWork, .pkg, .out]) ?_ ?_ ..))
    | dsimp only
    | split
    | (apply Hw.Only.of_pair; assumption)
    | (apply Hw.Only.of_triple; assumption)
    | (with_reducible apply Hw.Only.step ?_ (Hw.with_ckptWork ..)))

theorem execLeadAck_within (h : Hdr) (s : State) {s' : State} (hn : execLeadAck h s = .next s') :
    s.Within [0x1F, A.cfg_changes.code, A.reissue_count.code, A.reissue_over.code] [.mbx, .front, .buckets, .folded] [.blks, .replies] s' := by
  unfold execLeadAck at hn
  refine State.within_command (G := [.blks, .replies]) hn (fun ms d k => ?_) (by decide) (by decide)
  try simp only
  repeat' (first
    | with_reducible apply Hw.Only.refl
    | decide
    | (with_reducible apply Hw.Only.ite <;> intro _)
    | (with_reducible apply Hw.Only.ite2 <;> intro _)
    | (intro (_ : Hw); intro _)
    | (intro (_ : Hw))
    | (with_reducible apply Hw.Only.step ?_ (Hw.wr_only ..))
    | (with_reducible apply Hw.Only.step ?_ (Hw.setBlk_only ..))
    | (with_reducible apply Hw.Only.step ?_ (refuse_only ..))
    | (with_reducible apply Hw.Only.step ?_ (okWith_only ..))
    | (with_reducible apply Hw.Only.step ?_ (Hw.command_only (C := [0x1f, 0x10021, 0x1e0014, 0x1e0015]) (F := [.mbx, .front, .buckets, .folded]) (G := [.blks, .replies, .out]) ?_ ?_ ..))
    | dsimp only
    | split)

theorem execEventRaise_within (die code : Nat) (data : List Byte) (s : State) {s' : State} (hn : execEventRaise die code data s = .next s') :
    s.Within [0x1F] [.front, .buckets, .folded] [] s' := by
  unfold execEventRaise at hn
  refine State.within_onDie (G := []) hn (fun ms k => ?_)
  try simp only
  repeat' (first
    | with_reducible apply Hw.Only.refl
    | (intro D x hx; cases x <;> first | exact absurd (by decide) hx | exact rfl)
    | decide
    | (with_reducible apply Hw.Only.step ?_ (Hw.event_only ..))
    | (with_reducible apply Hw.Only.step ?_ (Hw.onDie_only [] _ _ _ ?_))
    | dsimp only
    | split)

theorem execEventNumber_within (die : Nat) (s : State) {s' : State} (hn : execEventNumber die s = .next s') :
    s.Within [0x1F, A.q_max_depth.code, A.q_pushes.code, A.q_overflows.code, A.q_rewinds.code, A.q_oversize.code, A.q_pkt_bad.code, A.er_oldest.code, A.er_newest.code, A.er_durable.code, A.fb_depth.code] [.queues, .front, .buckets, .folded] [.ring, .evtNext, .eps, .stores] s' := by
  unfold execEventNumber at hn
  refine State.within_onDie (G := [.ring, .evtNext, .eps, .stores]) hn (fun ms k => ?_)
  try simp only
  repeat' (first
    | with_reducible apply Hw.Only.refl
    | (intro D x hx; cases x <;> first | exact absurd (by decide) hx | exact rfl)
    | decide
    | (with_reducible apply Hw.Only.ite <;> intro _)
    | (with_reducible apply Hw.Only.ite2 <;> intro _)
    | (with_reducible apply Hw.Only.step ?_ (Hw.numberEvent_only ..))
    | (with_reducible apply Hw.Only.step ?_ (Hw.onDie_only [] _ _ _ ?_))
    | dsimp only
    | split
    | (apply Hw.Only.of_pair; assumption)
    | (apply Hw.Only.of_triple; assumption))

theorem execEventProgram_within (s : State) {s' : State} (hn : execEventProgram s = .next s') :
    s.Within [A.er_oldest.code, A.er_newest.code, A.er_durable.code, A.fb_depth.code] [] [.evtDurable] s' := by
  unfold execEventProgram at hn
  refine State.within_onPkg (G := [.evtDurable]) hn (fun ms k => ?_)
  try simp only
  repeat' (first
    | with_reducible apply Hw.Only.refl
    | decide
    | (with_reducible apply Hw.Only.ite <;> intro _)
    | (with_reducible apply Hw.Only.ite2 <;> intro _)
    | (with_reducible apply Hw.Only.step ?_ (Hw.wr_only ..))
    | (with_reducible apply Hw.Only.step ?_ (Hw.erRegs_only ..))
    | dsimp only
    | split
    | (with_reducible apply Hw.Only.step ?_ (Hw.with_evtDurable ..)))

theorem execBucketRefillFlush_within (die code : Nat) (s : State) {s' : State} (hn : execBucketRefillFlush die code s = .next s') :
    s.Within [0x1F, A.fb_depth.code, A.fb_max.code] [.front, .buckets, .folded] [] s' := by
  unfold execBucketRefillFlush at hn
  refine State.within_onDie (G := []) hn (fun ms k => ?_)
  try simp only
  repeat' (first
    | with_reducible apply Hw.Only.refl
    | (intro D x hx; cases x <;> first | exact absurd (by decide) hx | exact rfl)
    | decide
    | (with_reducible apply Hw.Only.ite <;> intro _)
    | (with_reducible apply Hw.Only.ite2 <;> intro _)
    | (with_reducible apply Hw.Only.step ?_ (Hw.frontPut_only ..))
    | (with_reducible apply Hw.Only.step ?_ (Hw.setBucket_only ..))
    | (with_reducible apply Hw.Only.step ?_ (Hw.onDie_only [] _ _ _ ?_))
    | dsimp only
    | split
    | (apply Hw.Only.of_pair; assumption)
    | (apply Hw.Only.of_triple; assumption))

theorem execEvtBacklog_within (die : Nat) (s : State) {s' : State} (hn : execEvtBacklog die s = .next s') :
    s.Within [0x1F] [.front, .buckets, .folded] [] s' := by
  unfold execEvtBacklog at hn
  refine State.within_onDie (G := []) hn (fun ms k => ?_)
  try simp only
  repeat' (first
    | with_reducible apply Hw.Only.refl
    | (intro D x hx; cases x <;> first | exact absurd (by decide) hx | exact rfl)
    | decide
    | (with_reducible apply Hw.Only.ite <;> intro _)
    | (with_reducible apply Hw.Only.ite2 <;> intro _)
    | (with_reducible apply Hw.Only.step ?_ (Hw.event_only ..))
    | (with_reducible apply Hw.Only.step ?_ (Hw.onDie_only [.folded] _ _ _ ?_))
    | dsimp only
    | split)

theorem execEvtRead_within (h : Hdr) (first count : Nat) (s : State) {s' : State} (hn : execEvtRead h first count s = .next s') :
    s.Within [0x1F, A.cfg_changes.code] [.mbx, .front, .buckets, .folded] [.replies] s' := by
  unfold execEvtRead at hn
  refine State.within_command (G := [.replies]) hn (fun ms d k => ?_) (by decide) (by decide)
  try simp only
  repeat' (first
    | with_reducible apply Hw.Only.refl
    | decide
    | (with_reducible apply Hw.Only.ite <;> intro _)
    | (with_reducible apply Hw.Only.ite2 <;> intro _)
    | (intro (_ : Hw); intro _)
    | (intro (_ : Hw))
    | (with_reducible apply Hw.Only.step ?_ (refuse_only ..))
    | (with_reducible apply Hw.Only.step ?_ (Hw.command_only (C := [0x1f, 0x10021]) (F := [.mbx, .front, .buckets, .folded]) (G := [.replies, .out]) ?_ ?_ ..))
    | dsimp only
    | split)

theorem execEvtLimitSet_within (h : Hdr) (code rate burst : Nat) (s : State) {s' : State} (hn : execEvtLimitSet h code rate burst s = .next s') :
    s.Within [0x1F, A.cfg_changes.code] [.mbx, .front, .buckets, .folded] [.replies, .limits] s' := by
  unfold execEvtLimitSet at hn
  refine State.within_command (G := [.replies, .limits]) hn (fun ms d k => ?_) (by decide) (by decide)
  try simp only
  repeat' (first
    | with_reducible apply Hw.Only.refl
    | decide
    | (with_reducible apply Hw.Only.ite <;> intro _)
    | (with_reducible apply Hw.Only.ite2 <;> intro _)
    | (intro (_ : Hw); intro _)
    | (intro (_ : Hw))
    | (with_reducible apply Hw.Only.step ?_ (refuse_only ..))
    | (with_reducible apply Hw.Only.step ?_ (okWith_only ..))
    | (with_reducible apply Hw.Only.step ?_ (Hw.command_only (C := [0x1f, 0x10021]) (F := [.mbx, .front, .buckets, .folded]) (G := [.replies, .limits, .out]) ?_ ?_ ..))
    | dsimp only
    | split
    | (with_reducible apply Hw.Only.step ?_ (Hw.with_limits ..)))

theorem execEvtLimitGet_within (h : Hdr) (code : Nat) (s : State) {s' : State} (hn : execEvtLimitGet h code s = .next s') :
    s.Within [0x1F, A.cfg_changes.code] [.mbx, .front, .buckets, .folded] [.replies] s' := by
  unfold execEvtLimitGet at hn
  refine State.within_command (G := [.replies]) hn (fun ms d k => ?_) (by decide) (by decide)
  try simp only
  repeat' (first
    | with_reducible apply Hw.Only.refl
    | decide
    | (intro (_ : Hw); intro _)
    | (intro (_ : Hw))
    | (with_reducible apply Hw.Only.step ?_ (Hw.command_only (C := [0x1f, 0x10021]) (F := [.mbx, .front, .buckets, .folded]) (G := [.replies, .out]) ?_ ?_ ..))
    | dsimp only
    | split)

/-! ### Runway -/

theorem execBackupTimeout_within (die : Nat) (s : State) {s' : State} (hn : execBackupTimeout die s = .next s') :
    s.Within [0x1F, A.min_fire_period_ns.code, A.stop_phase.code] [.front, .buckets, .folded, .stop] [.hsPins] s' := by
  unfold execBackupTimeout at hn
  refine State.within_onDie (G := [.hsPins]) hn (fun ms k => ?_)
  try simp only
  repeat' (first
    | with_reducible apply Hw.Only.refl
    | (intro D x hx; cases x <;> first | exact absurd (by decide) hx | exact rfl)
    | decide
    | (with_reducible apply Hw.Only.ite <;> intro _)
    | (with_reducible apply Hw.Only.ite2 <;> intro _)
    | (with_reducible apply Hw.Only.step ?_ (Hw.backupReached_only ..))
    | (with_reducible apply Hw.Only.step ?_ (Hw.endBackup_only ..))
    | (with_reducible apply Hw.Only.step ?_ (Hw.noBackup_only ..))
    | (with_reducible apply Hw.Only.step ?_ (Hw.onDie_only [] _ _ _ ?_))
    | dsimp only
    | split)

theorem execStopRelease_within (die : Nat) (s : State) {s' : State} (hn : execStopRelease die s = .next s') :
    s.Within [0x1F, A.min_fire_period_ns.code, A.stop_phase.code, A.backup_target.code] [.front, .buckets, .folded, .stop] [.hsPins] s' := by
  unfold execStopRelease at hn
  refine State.within_onDie (G := [.hsPins]) hn (fun ms k => ?_)
  try simp only
  repeat' (first
    | with_reducible apply Hw.Only.refl
    | (intro D x hx; split <;> (cases x <;> first | exact absurd (by decide) hx | exact rfl))
    | (intro D x hx; cases x <;> first | exact absurd (by decide) hx | exact rfl)
    | decide
    | (with_reducible apply Hw.Only.ite <;> intro _)
    | (with_reducible apply Hw.Only.ite2 <;> intro _)
    | (with_reducible apply Hw.Only.step ?_ (Hw.wr_only ..))
    | (with_reducible apply Hw.Only.step ?_ (Hw.runwayReq_only ..))
    | (with_reducible apply Hw.Only.step ?_ (Hw.event_only ..))
    | (with_reducible apply Hw.Only.step ?_ (Hw.onDie_only [.stop] _ _ _ ?_))
    | dsimp only
    | split
    | (with_reducible apply Hw.Only.step ?_ (Hw.allDies_only [.stop] _ _ ?_)))

theorem execStopFixed_within (die : Nat) (s : State) {s' : State} (hn : execStopFixed die s = .next s') :
    s.Within [0x1F, A.stop_end.code] [.front, .buckets, .folded, .ctxs] [] s' := by
  unfold execStopFixed at hn
  refine State.within_onDie (G := []) hn (fun ms k => ?_)
  try simp only
  repeat' (first
    | with_reducible apply Hw.Only.refl
    | (intro D x hx; cases x <;> first | exact absurd (by decide) hx | exact rfl)
    | decide
    | (with_reducible apply Hw.Only.step ?_ (Hw.stopTests_only ..))
    | (with_reducible apply Hw.Only.step ?_ (Hw.onDie_only [] _ _ _ ?_))
    | dsimp only
    | split)

theorem execCtxStop_within (h : Hdr) (ctx : Nat) (s : State) {s' : State} (hn : execCtxStop h ctx s = .next s') :
    s.Within [0x1F, A.cfg_changes.code, A.min_fire_period_ns.code, A.stop_phase.code, A.stop_cause.code, A.stops.code] [.mbx, .front, .buckets, .folded, .ctxs, .stop] [.replies, .hsPins] s' := by
  unfold execCtxStop at hn
  refine State.within_command (G := [.replies, .hsPins]) hn (fun ms d k => ?_) (by decide) (by decide)
  try simp only
  repeat' (first
    | with_reducible apply Hw.Only.refl
    | decide
    | (with_reducible apply Hw.Only.ite <;> intro _)
    | (with_reducible apply Hw.Only.ite2 <;> intro _)
    | (intro (_ : Hw); intro _)
    | (intro (_ : Hw))
    | (with_reducible apply Hw.Only.step ?_ (Hw.startStop_only ..))
    | (with_reducible apply Hw.Only.step ?_ (refuse_only ..))
    | (with_reducible apply Hw.Only.step ?_ (okWith_only ..))
    | (with_reducible apply Hw.Only.step ?_ (Hw.command_only (C := [0x1f, 0x10021, 0x60003, 0xc0022, 0xc0023, 0xc0025]) (F := [.mbx, .front, .buckets, .folded, .ctxs, .stop]) (G := [.replies, .hsPins, .out]) ?_ ?_ ..))
    | dsimp only
    | split)

theorem execRunwayStatus_within (h : Hdr) (s : State) {s' : State} (hn : execRunwayStatus h s = .next s') :
    s.Within [0x1F, A.cfg_changes.code] [.mbx, .front, .buckets, .folded] [.replies] s' := by
  unfold execRunwayStatus at hn
  refine State.within_command (G := [.replies]) hn (fun ms d k => ?_) (by decide) (by decide)
  try simp only
  repeat' (first
    | with_reducible apply Hw.Only.refl
    | decide
    | (intro (_ : Hw); intro _)
    | (intro (_ : Hw))
    | (with_reducible apply Hw.Only.step ?_ (Hw.command_only (C := [0x1f, 0x10021]) (F := [.mbx, .front, .buckets, .folded]) (G := [.replies, .out]) ?_ ?_ ..))
    | dsimp only
    | split)

/-! ### Fire -/

theorem execFireTimerMatch_within (die port : Nat) (s : State) {s' : State} (hn : execFireTimerMatch die port s = .next s') :
    s.Within [0] [.mbx, .queues, .front, .buckets, .folded, .tbs, .hwmOn, .leaving, .ports, .changes, .banks, .ctxs, .lineFaults] [.clk, .pkg, .eps, .stores] s' := by
  unfold execFireTimerMatch at hn
  refine State.within_onUnit (G := [.clk, .pkg, .eps, .stores]) hn (fun ms k => ?_)
  try simp only
  repeat' (first
    | with_reducible apply Hw.Only.refl
    | decide
    | (with_reducible apply Hw.Only.step ?_ (Hw.timerMatch_only ..))
    | dsimp only
    | split)

theorem execCommitDeadline_within (die port slot : Nat) (s : State) {s' : State} (hn : execCommitDeadline die port slot s = .next s') :
    s.Within [0] [.mbx, .queues, .front, .buckets, .folded, .hwmOn, .leaving, .ports, .changes, .banks, .ctxs, .lineFaults] [.pkg, .eps, .stores] s' := by
  unfold execCommitDeadline at hn
  refine State.within_onUnit (G := [.pkg, .eps, .stores]) hn (fun ms k => ?_)
  try simp only
  repeat' (first
    | with_reducible apply Hw.Only.refl
    | decide
    | (with_reducible apply Hw.Only.ite <;> intro _)
    | (with_reducible apply Hw.Only.ite2 <;> intro _)
    | (with_reducible apply Hw.Only.step ?_ (Hw.dropData_only ..))
    | (with_reducible apply Hw.Only.step ?_ (Hw.refreshPorts_only ..))
    | dsimp only
    | split
    | (apply Hw.Only.of_pair; assumption)
    | (apply Hw.Only.of_triple; assumption))

theorem execEStopAccept_within (s : State) {s' : State} (hn : execEStopAccept s = .next s') :
    s.Within [0x1F, A.port_offset_nm.code, A.commit_lead_ns.code, A.hp_state.code] [.front, .buckets, .folded, .leaving, .ports, .spits] [.hsIn, .ghRelease, .hsSeen] s' := by
  unfold execEStopAccept at hn
  refine State.within_onPkg (G := [.hsIn, .ghRelease, .hsSeen]) hn (fun ms k => ?_)
  try simp only
  repeat' (first
    | with_reducible apply Hw.Only.refl
    | decide
    | (with_reducible apply Hw.Only.step ?_ (Hw.estop_only ..))
    | dsimp only
    | split)

theorem execEStopReleaseAccept_within (s : State) {s' : State} (hn : execEStopReleaseAccept s = .next s') :
    s.Within [0x1F, A.commit_lead_ns.code] [.front, .buckets, .folded] [.hsIn, .ghRelease, .hsSeen] s' := by
  unfold execEStopReleaseAccept at hn
  refine State.within_onPkg (G := [.hsIn, .ghRelease, .hsSeen]) hn (fun ms k => ?_)
  try simp only
  repeat' (first
    | with_reducible apply Hw.Only.refl
    | decide
    | (with_reducible apply Hw.Only.ite <;> intro _)
    | (with_reducible apply Hw.Only.ite2 <;> intro _)
    | (with_reducible apply Hw.Only.step ?_ (Hw.acceptIn_only ..))
    | (with_reducible apply Hw.Only.step ?_ (Hw.eventPkg_only ..))
    | dsimp only
    | split
    | (with_reducible apply Hw.Only.step ?_ (Hw.with_ghRelease ..)))

theorem execLeResume_within (h : Hdr) (s : State) {s' : State} (hn : execLeResume h s = .next s') :
    s.Within [0x1F, A.cfg_changes.code, A.port_offset_nm.code] [.mbx, .front, .buckets, .folded, .leaving, .ports] [.replies, .ghRelease] s' := by
  unfold execLeResume at hn
  refine State.within_command (G := [.replies, .ghRelease]) hn (fun ms d k => ?_) (by decide) (by decide)
  try simp only
  repeat' (first
    | with_reducible apply Hw.Only.refl
    | decide
    | (with_reducible apply Hw.Only.ite <;> intro _)
    | (with_reducible apply Hw.Only.ite2 <;> intro _)
    | (intro (_ : Hw); intro _)
    | (intro (_ : Hw))
    | (with_reducible apply Hw.Only.step ?_ (Hw.estopRelease_only ..))
    | (with_reducible apply Hw.Only.step ?_ (refuse_only ..))
    | (with_reducible apply Hw.Only.step ?_ (okWith_only ..))
    | (with_reducible apply Hw.Only.step ?_ (Hw.command_only (C := [0x1f, 0x10021, 0x60001]) (F := [.mbx, .front, .buckets, .folded, .leaving, .ports]) (G := [.replies, .ghRelease, .out]) ?_ ?_ ..))
    | dsimp only
    | split)

theorem execHsForce_within (h : Hdr) (levels : Nat) (s : State) {s' : State} (hn : execHsForce h levels s = .next s') :
    s.Within [0x1F, A.cfg_changes.code] [.mbx, .front, .buckets, .folded] [.replies, .hsForce, .hsPins] s' := by
  unfold execHsForce at hn
  refine State.within_command (G := [.replies, .hsForce, .hsPins]) hn (fun ms d k => ?_) (by decide) (by decide)
  try simp only
  repeat' (first
    | with_reducible apply Hw.Only.refl
    | decide
    | (with_reducible apply Hw.Only.ite <;> intro _)
    | (with_reducible apply Hw.Only.ite2 <;> intro _)
    | (intro (_ : Hw); intro _)
    | (intro (_ : Hw))
    | (with_reducible apply Hw.Only.step ?_ (Hw.showPins_only ..))
    | (with_reducible apply Hw.Only.step ?_ (refuse_only ..))
    | (with_reducible apply Hw.Only.step ?_ (okWith_only ..))
    | (with_reducible apply Hw.Only.step ?_ (Hw.command_only (C := [0x1f, 0x10021]) (F := [.mbx, .front, .buckets, .folded]) (G := [.replies, .hsForce, .hsPins, .out]) ?_ ?_ ..))
    | dsimp only
    | split
    | (with_reducible apply Hw.Only.step ?_ (Hw.with_hsForce ..)))

theorem execHsRelease_within (h : Hdr) (s : State) {s' : State} (hn : execHsRelease h s = .next s') :
    s.Within [0x1F, A.cfg_changes.code] [.mbx, .front, .buckets, .folded] [.replies, .hsForce, .hsPins] s' := by
  unfold execHsRelease at hn
  refine State.within_command (G := [.replies, .hsForce, .hsPins]) hn (fun ms d k => ?_) (by decide) (by decide)
  try simp only
  repeat' (first
    | with_reducible apply Hw.Only.refl
    | decide
    | (intro (_ : Hw); intro _)
    | (intro (_ : Hw))
    | (with_reducible apply Hw.Only.step ?_ (Hw.showPins_only ..))
    | (with_reducible apply Hw.Only.step ?_ (okWith_only ..))
    | (with_reducible apply Hw.Only.step ?_ (Hw.command_only (C := [0x1f, 0x10021]) (F := [.mbx, .front, .buckets, .folded]) (G := [.replies, .hsForce, .hsPins, .out]) ?_ ?_ ..))
    | dsimp only
    | (with_reducible apply Hw.Only.step ?_ (Hw.with_hsForce ..)))

theorem execLeStatus_within (h : Hdr) (s : State) {s' : State} (hn : execLeStatus h s = .next s') :
    s.Within [0x1F, A.cfg_changes.code] [.mbx, .front, .buckets, .folded] [.replies] s' := by
  unfold execLeStatus at hn
  refine State.within_command (G := [.replies]) hn (fun ms d k => ?_) (by decide) (by decide)
  try simp only
  repeat' (first
    | with_reducible apply Hw.Only.refl
    | decide
    | (intro (_ : Hw); intro _)
    | (intro (_ : Hw))
    | (with_reducible apply Hw.Only.step ?_ (Hw.command_only (C := [0x1f, 0x10021]) (F := [.mbx, .front, .buckets, .folded]) (G := [.replies, .out]) ?_ ?_ ..))
    | dsimp only
    | split)

/-! ### Heads -/

theorem execSlotShift_within (die port t : Nat) (s : State) {s' : State} (hn : execSlotShift die port t s = .next s') :
    s.Within [A.armed_line.code, A.lines_shifted.code, A.slot_next.code, A.slot_context.code, A.slots_prepared.code, A.slots_staged.code] [.tbs, .ports] [.clk] s' := by
  unfold execSlotShift at hn
  refine State.within_onUnit (G := [.clk]) hn (fun ms k => ?_)
  try simp only
  repeat' (first
    | with_reducible apply Hw.Only.refl
    | decide
    | (with_reducible apply Hw.Only.step ?_ (Hw.slotShift_only ..))
    | (with_reducible apply Hw.Only.step ?_ (Hw.until_only ..))
    | dsimp only
    | split)

theorem execStaleReshift_within (die port : Nat) (s : State) {s' : State} (hn : execStaleReshift die port s = .next s') :
    s.Within [0x1F, A.armed_time.code, A.rearms.code, A.lines_shifted.code, A.reshifts.code, A.stale_reshifts.code] [.front, .buckets, .folded, .ports] [] s' := by
  unfold execStaleReshift at hn
  refine State.within_onUnit (G := []) hn (fun ms k => ?_)
  try simp only
  repeat' (first
    | with_reducible apply Hw.Only.refl
    | decide
    | (with_reducible apply Hw.Only.ite <;> intro _)
    | (with_reducible apply Hw.Only.ite2 <;> intro _)
    | (with_reducible apply Hw.Only.step ?_ (Hw.add_only ..))
    | (with_reducible apply Hw.Only.step ?_ (Hw.emit_only ..))
    | (with_reducible apply Hw.Only.step ?_ (Hw.sendLine_only ..))
    | (with_reducible apply Hw.Only.step ?_ (Hw.armPort_only ..))
    | (with_reducible apply Hw.Only.step ?_ (Hw.onPort_only ..))
    | (with_reducible apply Hw.Only.step ?_ (Hw.event_only ..))
    | dsimp only
    | split
    | (apply Hw.Only.of_pair; assumption)
    | (apply Hw.Only.of_triple; assumption))

theorem execLvdsFault_within (die port pair : Nat) (s : State) {s' : State} (hn : execLvdsFault die port pair s = .next s') :
    s.Within [0x1F, A.min_fire_period_ns.code, A.armed_line.code, A.hp_state.code, A.hp_fault.code, A.slot_next.code, A.slot_context.code, A.slots_prepared.code, A.slots_staged.code, A.stop_phase.code, A.stop_cause.code, A.stops.code] [.front, .buckets, .folded, .ports, .spits, .ctxs, .stop] [.replies, .hsPins] s' := by
  unfold execLvdsFault at hn
  refine State.within_onUnit (G := [.replies, .hsPins]) hn (fun ms k => ?_)
  try simp only
  repeat' (first
    | with_reducible apply Hw.Only.refl
    | decide
    | (with_reducible apply Hw.Only.ite <;> intro _)
    | (with_reducible apply Hw.Only.ite2 <;> intro _)
    | (with_reducible apply Hw.Only.step ?_ (Hw.portFault_only ..))
    | dsimp only
    | split)

theorem execHeadQuery_within (die port : Nat) (start : Bool) (data : List Byte) (crc : Nat) (s : State) {s' : State} (hn : execHeadQuery die port start data crc s = .next s') :
    s.Within [0x1F, A.min_fire_period_ns.code, A.armed_line.code, A.hp_state.code, A.head_temp.code, A.head_temp_tb1.code, A.head_query.code, A.hp_fault.code, A.query_errs.code, A.slot_next.code, A.slot_context.code, A.slots_prepared.code, A.slots_staged.code, A.stop_phase.code, A.stop_cause.code, A.stops.code] [.front, .buckets, .folded, .ports, .spits, .ctxs, .stop] [.blks, .replies, .hsPins] s' := by
  unfold execHeadQuery at hn
  refine State.within_onUnit (G := [.blks, .replies, .hsPins]) hn (fun ms k => ?_)
  try simp only
  repeat' (first
    | with_reducible apply Hw.Only.refl
    | decide
    | (with_reducible apply Hw.Only.ite <;> intro _)
    | (with_reducible apply Hw.Only.ite2 <;> intro _)
    | (with_reducible apply Hw.Only.step ?_ (Hw.queryEnd_only ..))
    | dsimp only
    | split
    | (apply Hw.Only.of_pair; assumption)
    | (apply Hw.Only.of_triple; assumption))

theorem execHpQuery_within (h : Hdr) (port arg cmd len : Nat) (s : State) {s' : State} (hn : execHpQuery h port arg cmd len s = .next s') :
    s.Within [0x1F, A.cfg_changes.code, A.hp_state.code] [.mbx, .front, .buckets, .folded, .ports] [.replies] s' := by
  unfold execHpQuery at hn
  refine State.within_commandHold (G := [.replies]) hn (fun ms d k => ?_) (by decide) (by decide)
  try simp only
  repeat' (first
    | with_reducible apply Hw.Only.refl
    | decide
    | (with_reducible apply Hw.Only.ite <;> intro _)
    | (with_reducible apply Hw.Only.ite2 <;> intro _)
    | (with_reducible apply Hw.Only.step ?_ (Hw.wr_only ..))
    | (with_reducible apply Hw.Only.step ?_ (Hw.onPort_only ..))
    | dsimp only
    | split)

theorem execHpEnable_within (h : Hdr) (ports : Nat) (s : State) {s' : State} (hn : execHpEnable h ports s = .next s') :
    s.Within [0x1F, A.cfg_changes.code, A.hp_enable.code, A.hp_state.code] [.mbx, .front, .buckets, .folded, .ports] [.replies] s' := by
  unfold execHpEnable at hn
  refine State.within_command (G := [.replies]) hn (fun ms d k => ?_) (by decide) (by decide)
  try simp only
  repeat' (first
    | with_reducible apply Hw.Only.refl
    | decide
    | (with_reducible apply Hw.Only.ite <;> intro _)
    | (with_reducible apply Hw.Only.ite2 <;> intro _)
    | (intro (_ : Hw); intro _)
    | (intro (_ : Hw))
    | (with_reducible apply Hw.Only.step ?_ (Hw.wr_only ..))
    | (with_reducible apply Hw.Only.step ?_ (hpCtrl_only (C := [0x1f, 0x10021, 0x70001, 0x70002]) (F := [.mbx, .front, .buckets, .folded, .ports]) (G := [.replies, .out]) ?_ ..))
    | (with_reducible apply Hw.Only.step ?_ (Hw.portUp_only ..))
    | (with_reducible apply Hw.Only.step ?_ (Hw.command_only (C := [0x1f, 0x10021, 0x70001, 0x70002]) (F := [.mbx, .front, .buckets, .folded, .ports]) (G := [.replies, .out]) ?_ ?_ ..))
    | dsimp only
    | split)

theorem execHpDisable_within (h : Hdr) (ports : Nat) (s : State) {s' : State} (hn : execHpDisable h ports s = .next s') :
    s.Within [0x1F, A.cfg_changes.code, A.q_max_depth.code, A.q_pushes.code, A.q_overflows.code, A.q_rewinds.code, A.q_oversize.code, A.q_pkt_bad.code, A.seams.code, A.defect_lost.code, A.hp_enable.code, A.hp_state.code, A.hp_fault.code] [.mbx, .queues, .front, .buckets, .folded, .ports] [.replies, .eps, .stores] s' := by
  unfold execHpDisable at hn
  refine State.within_command (G := [.replies, .eps, .stores]) hn (fun ms d k => ?_) (by decide) (by decide)
  try simp only
  repeat' (first
    | with_reducible apply Hw.Only.refl
    | decide
    | (with_reducible apply Hw.Only.ite <;> intro _)
    | (with_reducible apply Hw.Only.ite2 <;> intro _)
    | (intro (_ : Hw); intro _)
    | (intro (_ : Hw))
    | (with_reducible apply Hw.Only.step ?_ (Hw.portOff_only ..))
    | (with_reducible apply Hw.Only.step ?_ (hpCtrl_only (C := [0x1f, 0x10021, 0x20005, 0x20010, 0x20013, 0x20014, 0x20015, 0x20016, 0x60026, 0x60027, 0x70001, 0x70002, 0x70031]) (F := [.mbx, .queues, .front, .buckets, .folded, .ports]) (G := [.replies, .eps, .stores, .out]) ?_ ..))
    | (with_reducible apply Hw.Only.step ?_ (Hw.command_only (C := [0x1f, 0x10021, 0x20005, 0x20010, 0x20013, 0x20014, 0x20015, 0x20016, 0x60026, 0x60027, 0x70001, 0x70002, 0x70031]) (F := [.mbx, .queues, .front, .buckets, .folded, .ports]) (G := [.replies, .eps, .stores, .out]) ?_ ?_ ..))
    | dsimp only
    | split)

theorem execHpRestart_within (h : Hdr) (ports bad : Nat) (s : State) {s' : State} (hn : execHpRestart h ports bad s = .next s') :
    s.Within [0] [.mbx, .queues, .front, .buckets, .folded, .hwmOn, .leaving, .ports, .changes, .banks, .ctxs] [.replies, .pkg, .eps, .stores] s' := by
  unfold execHpRestart at hn
  refine State.within_command (G := [.replies, .pkg, .eps, .stores]) hn (fun ms d k => ?_) (by decide) (by decide)
  try simp only
  repeat' (first
    | with_reducible apply Hw.Only.refl
    | decide
    | (with_reducible apply Hw.Only.ite <;> intro _)
    | (with_reducible apply Hw.Only.ite2 <;> intro _)
    | (intro (_ : Hw); intro _)
    | (intro (_ : Hw))
    | (with_reducible apply Hw.Only.step ?_ (Hw.portRestart_only ..))
    | (with_reducible apply Hw.Only.step ?_ (hpCtrl_only (C := [0x0]) (F := [.mbx, .queues, .front, .buckets, .folded, .hwmOn, .leaving, .ports, .changes, .banks, .ctxs]) (G := [.replies, .pkg, .eps, .stores, .out]) ?_ ..))
    | (with_reducible apply Hw.Only.step ?_ (Hw.command_only (C := [0x0]) (F := [.mbx, .queues, .front, .buckets, .folded, .hwmOn, .leaving, .ports, .changes, .banks, .ctxs]) (G := [.replies, .pkg, .eps, .stores, .out]) ?_ ?_ ..))
    | dsimp only
    | split)

theorem execHpSpitParked_within (h : Hdr) (ports lines : Nat) (s : State) {s' : State} (hn : execHpSpitParked h ports lines s = .next s') :
    s.Within [0x1F, A.cfg_changes.code, A.hp_state.code] [.mbx, .front, .buckets, .folded, .ports, .spits] [.replies] s' := by
  unfold execHpSpitParked at hn
  refine State.within_command (G := [.replies]) hn (fun ms d k => ?_) (by decide) (by decide)
  try simp only
  repeat' (first
    | with_reducible apply Hw.Only.refl
    | decide
    | (intro (_ : Hw); intro _)
    | (intro (_ : Hw))
    | (with_reducible apply Hw.Only.step ?_ (hpSpitBody_only ..))
    | (with_reducible apply Hw.Only.step ?_ (Hw.command_only (C := [0x1f, 0x10021, 0x70002]) (F := [.mbx, .front, .buckets, .folded, .ports, .spits]) (G := [.replies, .out]) ?_ ?_ ..))
    | dsimp only
    | split)

theorem execHpSpitStop_within (h : Hdr) (ports : Nat) (s : State) {s' : State} (hn : execHpSpitStop h ports s = .next s') :
    s.Within [0x1F, A.cfg_changes.code, A.hp_state.code] [.mbx, .front, .buckets, .folded, .ports, .spits] [.replies] s' := by
  unfold execHpSpitStop at hn
  refine State.within_command (G := [.replies]) hn (fun ms d k => ?_) (by decide) (by decide)
  try simp only
  repeat' (first
    | with_reducible apply Hw.Only.refl
    | (intro D x hx; split <;> (cases x <;> first | exact absurd (by decide) hx | exact rfl))
    | (intro D x hx; cases x <;> first | exact absurd (by decide) hx | exact rfl)
    | decide
    | (with_reducible apply Hw.Only.ite <;> intro _)
    | (with_reducible apply Hw.Only.ite2 <;> intro _)
    | (intro (_ : Hw); intro _)
    | (intro (_ : Hw))
    | (with_reducible apply Hw.Only.step ?_ (Hw.spitDrop_only ..))
    | (with_reducible apply Hw.Only.step ?_ (Hw.spitOff_only ..))
    | (with_reducible apply Hw.Only.step ?_ (refuse_only ..))
    | (with_reducible apply Hw.Only.step ?_ (okWith_only ..))
    | (with_reducible apply Hw.Only.step ?_ (Hw.command_only (C := [0x1f, 0x10021, 0x70002]) (F := [.mbx, .front, .buckets, .folded, .ports, .spits]) (G := [.replies, .out]) ?_ ?_ ..))
    | (with_reducible apply Hw.Only.step ?_ (Hw.onDie_only [.spits] _ _ _ ?_))
    | dsimp only
    | split)

theorem execSpitLine_within (die port t : Nat) (s : State) {s' : State} (hn : execSpitLine die port t s = .next s') :
    s.Within [0x1F, A.hp_state.code, A.lines_shifted.code, A.fire_pulses.code, A.spit_lines.code] [.front, .buckets, .folded, .tbs, .ports, .spits] [.clk] s' := by
  unfold execSpitLine at hn
  refine State.within_onUnit (G := [.clk]) hn (fun ms k => ?_)
  try simp only
  repeat' (first
    | with_reducible apply Hw.Only.refl
    | (intro D x hx; split <;> (cases x <;> first | exact absurd (by decide) hx | exact rfl))
    | (intro D x hx; cases x <;> first | exact absurd (by decide) hx | exact rfl)
    | decide
    | (with_reducible apply Hw.Only.ite <;> intro _)
    | (with_reducible apply Hw.Only.ite2 <;> intro _)
    | (with_reducible apply Hw.Only.step ?_ (Hw.add_only ..))
    | (with_reducible apply Hw.Only.step ?_ (Hw.emit_only ..))
    | (with_reducible apply Hw.Only.step ?_ (Hw.spitPulses_only ..))
    | (with_reducible apply Hw.Only.step ?_ (Hw.spitOff_only ..))
    | (with_reducible apply Hw.Only.step ?_ (Hw.sendLine_only ..))
    | (with_reducible apply Hw.Only.step ?_ (Hw.event_only ..))
    | (with_reducible apply Hw.Only.step ?_ (Hw.until_only ..))
    | (with_reducible apply Hw.Only.step ?_ (Hw.onDie_only [.spits] _ _ _ ?_))
    | dsimp only
    | split
    | (apply Hw.Only.of_pair; assumption)
    | (apply Hw.Only.of_triple; assumption))

theorem execHpSpitWeb_within (h : Hdr) (ctx ports first count : Nat) (s : State) {s' : State} (hn : execHpSpitWeb h ctx ports first count s = .next s') :
    s.Within [0x1F, A.cfg_changes.code, A.armed_line.code, A.slot_next.code, A.slot_context.code, A.slots_prepared.code, A.slots_staged.code, A.squashes.code, A.retones.code] [.mbx, .front, .buckets, .folded, .ports] [.nextId, .replies, .pkg] s' := by
  unfold execHpSpitWeb at hn
  refine State.within_command (G := [.nextId, .replies, .pkg]) hn (fun ms d k => ?_) (by decide) (by decide)
  try simp only
  repeat' (first
    | with_reducible apply Hw.Only.refl
    | decide
    | (with_reducible apply Hw.Only.ite <;> intro _)
    | (with_reducible apply Hw.Only.ite2 <;> intro _)
    | (with_reducible apply Hw.Only.foldl)
    | (intro (_ : Hw); intro _)
    | (intro (_ : Hw))
    | (with_reducible apply Hw.Only.foldlP)
    | (intro (_ : _ × Hw); intro _)
    | (with_reducible apply Hw.Only.step ?_ (Hw.prepare_only ..))
    | (with_reducible apply Hw.Only.step ?_ (Hw.plDefer_only ..))
    | (with_reducible apply Hw.Only.step ?_ (Hw.squash_only ..))
    | (with_reducible apply Hw.Only.step ?_ (Hw.onPort_only ..))
    | (with_reducible apply Hw.Only.step ?_ (refuse_only ..))
    | (with_reducible apply Hw.Only.step ?_ (Hw.defer_only ..))
    | (with_reducible apply Hw.Only.step ?_ (Hw.command_only (C := [0x1f, 0x10021, 0x60020, 0x80002, 0x80003, 0x80004, 0x80005, 0x80020, 0x80021]) (F := [.mbx, .front, .buckets, .folded, .ports]) (G := [.nextId, .replies, .pkg, .out]) ?_ ?_ ..))
    | dsimp only
    | split
    | (apply Hw.Only.of_pair; assumption)
    | (apply Hw.Only.of_triple; assumption))

/-! ### Pipeline -/

theorem execTbSwapDecision_within (die bank : Nat) (s : State) {s' : State} (hn : execTbSwapDecision die bank s = .next s') :
    s.Within [0x1F, A.armed_line.code, A.slot_next.code, A.slot_context.code, A.slots_prepared.code, A.slots_staged.code, A.squashes.code, A.retones.code, A.swaps_late.code, A.bank_state.code, A.swap_pending.code, A.swap_line.code] [.mbx, .front, .buckets, .folded, .ports, .banks, .bankFrom] [.pkg] s' := by
  unfold execTbSwapDecision at hn
  refine State.within_onUnit (G := [.pkg]) hn (fun ms k => ?_)
  try simp only
  repeat' (first
    | with_reducible apply Hw.Only.refl
    | decide
    | (with_reducible apply Hw.Only.ite <;> intro _)
    | (with_reducible apply Hw.Only.ite2 <;> intro _)
    | (with_reducible apply Hw.Only.step ?_ (Hw.swapDecide_only ..))
    | dsimp only
    | split)

theorem execToneLine_within (die port line : Nat) (s : State) {s' : State} (hn : execToneLine die port line s = .next s') :
    s.Within [0x1F, A.armed_line.code, A.slot_next.code, A.slot_context.code, A.slots_prepared.code, A.slots_staged.code, A.toned_max.code, A.squashes.code, A.retones.code, A.swaps_late.code, A.spill_lost.code, A.level_clamps.code, A.bank_state.code, A.swap_pending.code, A.swap_line.code] [.mbx, .front, .buckets, .folded, .ports, .banks, .bankFrom] [.pkg] s' := by
  unfold execToneLine at hn
  refine State.within_onUnit (G := [.pkg]) hn (fun ms k => ?_)
  try simp only
  repeat' (first
    | with_reducible apply Hw.Only.refl
    | decide
    | (with_reducible apply Hw.Only.ite <;> intro _)
    | (with_reducible apply Hw.Only.ite2 <;> intro _)
    | (with_reducible apply Hw.Only.step ?_ (Hw.wr_only ..))
    | (with_reducible apply Hw.Only.step ?_ (Hw.add_only ..))
    | (with_reducible apply Hw.Only.step ?_ (Hw.swapsFor_only ..))
    | (with_reducible apply Hw.Only.step ?_ (Hw.prepare_only ..))
    | (with_reducible apply Hw.Only.step ?_ (Hw.onPort_only ..))
    | dsimp only
    | split
    | (apply Hw.Only.of_pair; assumption)
    | (apply Hw.Only.of_triple; assumption))

theorem execTbSwap_within (h : Hdr) (ctx bank line : Nat) (s : State) {s' : State} (hn : execTbSwap h ctx bank line s = .next s') :
    s.Within [0x1F, A.cfg_changes.code, A.armed_line.code, A.slot_next.code, A.slot_context.code, A.slots_prepared.code, A.slots_staged.code, A.squashes.code, A.retones.code, A.swaps_late.code, A.bank_state.code, A.swap_pending.code, A.swap_context.code, A.swap_line.code] [.mbx, .front, .buckets, .folded, .ports, .banks, .bankFrom] [.nextId, .replies, .pkg] s' := by
  unfold execTbSwap at hn
  refine State.within_command (G := [.nextId, .replies, .pkg]) hn (fun ms d k => ?_) (by decide) (by decide)
  try simp only
  repeat' (first
    | with_reducible apply Hw.Only.refl
    | decide
    | (intro (_ : Hw); intro _)
    | (intro (_ : Hw))
    | (with_reducible apply Hw.Only.step ?_ (tbSwapBody_only ..))
    | (with_reducible apply Hw.Only.step ?_ (Hw.command_only (C := [0x1f, 0x10021, 0x60020, 0x80002, 0x80003, 0x80004, 0x80005, 0x80020, 0x80021, 0x80022, 0x90001, 0x90002, 0x90003, 0x90004]) (F := [.mbx, .front, .buckets, .folded, .ports, .banks, .bankFrom]) (G := [.nextId, .replies, .pkg, .out]) ?_ ?_ ..))
    | dsimp only
    | split)

theorem execTbBuild_within (h : Hdr) (bank : Nat) (s : State) {s' : State} (hn : execTbBuild h bank s = .next s') :
    s.Within [0x1F, A.cfg_changes.code, A.bank_state.code] [.mbx, .front, .buckets, .folded, .banks] [.nextId, .replies, .pkg] s' := by
  unfold execTbBuild at hn
  refine State.within_command (G := [.nextId, .replies, .pkg]) hn (fun ms d k => ?_) (by decide) (by decide)
  try simp only
  repeat' (first
    | with_reducible apply Hw.Only.refl
    | decide
    | (intro (_ : Hw); intro _)
    | (intro (_ : Hw))
    | (with_reducible apply Hw.Only.step ?_ (tbBuildBody_only ..))
    | (with_reducible apply Hw.Only.step ?_ (Hw.command_only (C := [0x1f, 0x10021, 0x90001]) (F := [.mbx, .front, .buckets, .folded, .banks]) (G := [.nextId, .replies, .pkg, .out]) ?_ ?_ ..))
    | dsimp only
    | split)

theorem execTbBuildAbort_within (h : Hdr) (bank : Nat) (s : State) {s' : State} (hn : execTbBuildAbort h bank s = .next s') :
    s.Within [0x1F, A.cfg_changes.code, A.bank_state.code, A.swap_pending.code] [.mbx, .front, .buckets, .folded, .banks] [.replies, .pkg] s' := by
  unfold execTbBuildAbort at hn
  refine State.within_command (G := [.replies, .pkg]) hn (fun ms d k => ?_) (by decide) (by decide)
  try simp only
  repeat' (first
    | with_reducible apply Hw.Only.refl
    | decide
    | (with_reducible apply Hw.Only.ite <;> intro _)
    | (with_reducible apply Hw.Only.ite2 <;> intro _)
    | (with_reducible apply Hw.Only.foldl)
    | (intro (_ : Hw); intro _)
    | (intro (_ : Hw))
    | (with_reducible apply Hw.Only.foldlP)
    | (intro (_ : _ × Hw); intro _)
    | (with_reducible apply Hw.Only.step ?_ (Hw.wr_only ..))
    | (with_reducible apply Hw.Only.step ?_ (Hw.onBank_only ..))
    | (with_reducible apply Hw.Only.step ?_ (refuse_only ..))
    | (with_reducible apply Hw.Only.step ?_ (okWith_only ..))
    | (with_reducible apply Hw.Only.step ?_ (Hw.settle_only ..))
    | (with_reducible apply Hw.Only.step ?_ (Hw.command_only (C := [0x1f, 0x10021, 0x90001, 0x90002]) (F := [.mbx, .front, .buckets, .folded, .banks]) (G := [.replies, .pkg, .out]) ?_ ?_ ..))
    | dsimp only
    | split)

theorem execTbBuilt_within (die bank t : Nat) (s : State) {s' : State} (hn : execTbBuilt die bank t s = .next s') :
    s.Within [0x1F, A.bank_state.code, A.build_seq.code, A.build_us.code, A.build_tb1.code, A.bank_crc.code, A.saturated.code] [.mbx, .front, .buckets, .folded, .tbs, .banks] [.clk, .pkg] s' := by
  unfold execTbBuilt at hn
  refine State.within_onUnit (G := [.clk, .pkg]) hn (fun ms k => ?_)
  try simp only
  repeat' (first
    | with_reducible apply Hw.Only.refl
    | decide
    | (with_reducible apply Hw.Only.ite <;> intro _)
    | (with_reducible apply Hw.Only.ite2 <;> intro _)
    | (with_reducible apply Hw.Only.step ?_ (Hw.wr_only ..))
    | (with_reducible apply Hw.Only.step ?_ (Hw.add_only ..))
    | (with_reducible apply Hw.Only.step ?_ (Hw.onBank_only ..))
    | (with_reducible apply Hw.Only.step ?_ (Hw.settle_only ..))
    | (with_reducible apply Hw.Only.step ?_ (Hw.event_only ..))
    | (with_reducible apply Hw.Only.step ?_ (Hw.until_only ..))
    | dsimp only
    | split
    | (apply Hw.Only.of_pair; assumption)
    | (apply Hw.Only.of_triple; assumption))

theorem execPlStatus_within (h : Hdr) (port : Nat) (s : State) {s' : State} (hn : execPlStatus h port s = .next s') :
    s.Within [0x1F, A.cfg_changes.code] [.mbx, .front, .buckets, .folded] [.replies] s' := by
  unfold execPlStatus at hn
  refine State.within_command (G := [.replies]) hn (fun ms d k => ?_) (by decide) (by decide)
  try simp only
  repeat' (first
    | with_reducible apply Hw.Only.refl
    | decide
    | (with_reducible apply Hw.Only.ite <;> intro _)
    | (with_reducible apply Hw.Only.ite2 <;> intro _)
    | (intro (_ : Hw); intro _)
    | (intro (_ : Hw))
    | (with_reducible apply Hw.Only.step ?_ (refuse_only ..))
    | (with_reducible apply Hw.Only.step ?_ (Hw.command_only (C := [0x1f, 0x10021]) (F := [.mbx, .front, .buckets, .folded]) (G := [.replies, .out]) ?_ ?_ ..))
    | dsimp only
    | split)

/-! ### Codec -/

theorem execDescriptorPush_within (die ctx port : Nat) (s : State) {s' : State} (hn : execDescriptorPush die ctx port s = .next s') :
    s.Within [0x1F, A.q_max_depth.code, A.q_pushes.code, A.q_overflows.code, A.q_rewinds.code, A.q_oversize.code, A.q_pkt_bad.code, A.eng_busy.code] [.queues, .front, .buckets, .folded, .ctxs] [.eps, .stores] s' := by
  unfold execDescriptorPush at hn
  refine State.within_onUnit (G := [.eps, .stores]) hn (fun ms k => ?_)
  try simp only
  repeat' (first
    | with_reducible apply Hw.Only.refl
    | decide
    | (with_reducible apply Hw.Only.ite <;> intro _)
    | (with_reducible apply Hw.Only.ite2 <;> intro _)
    | (with_reducible apply Hw.Only.step ?_ (Hw.add_only ..))
    | (with_reducible apply Hw.Only.step ?_ (Hw.onCtx_only ..))
    | (with_reducible apply Hw.Only.step ?_ (Hw.qPushPacket_only ..))
    | dsimp only
    | split
    | (apply Hw.Only.of_pair; assumption)
    | (apply Hw.Only.of_triple; assumption))

theorem execDecodeStart_within (die engine : Nat) (s : State) {s' : State} (hn : execDecodeStart die engine s = .next s') :
    s.Within [0x1F, A.q_max_depth.code, A.q_pushes.code, A.q_pops.code, A.q_underruns.code, A.q_overflows.code, A.q_rewinds.code, A.q_oversize.code, A.q_pkt_bad.code, A.eng_busy.code, A.eng_port.code, A.eng_line.code, A.eng_blocks.code] [.queues, .front, .buckets, .folded, .codec] [.eps, .stores] s' := by
  unfold execDecodeStart at hn
  refine State.within_onUnit (G := [.eps, .stores]) hn (fun ms k => ?_)
  try simp only
  repeat' (first
    | with_reducible apply Hw.Only.refl
    | decide
    | (with_reducible apply Hw.Only.ite <;> intro _)
    | (with_reducible apply Hw.Only.ite2 <;> intro _)
    | (with_reducible apply Hw.Only.step ?_ (Hw.wr_only ..))
    | (with_reducible apply Hw.Only.step ?_ (Hw.add_only ..))
    | (with_reducible apply Hw.Only.step ?_ (Hw.onCodec_only ..))
    | (with_reducible apply Hw.Only.step ?_ (Hw.qRetry_only ..))
    | (with_reducible apply Hw.Only.step ?_ (Hw.qPopPacket_only ..))
    | dsimp only
    | split
    | (apply Hw.Only.of_pair; assumption)
    | (apply Hw.Only.of_triple; assumption))

theorem execDecodeComplete_within (die engine : Nat) (mem : Bool) (s : State) {s' : State} (hn : execDecodeComplete die engine mem s = .next s') :
    s.Within [0x1F, A.min_fire_period_ns.code, A.armed_line.code, A.slot_next.code, A.slot_context.code, A.slots_prepared.code, A.slots_staged.code, A.eng_busy.code, A.eng_line.code, A.eng_blocks.code, A.eng_cycles.code, A.dec_discarded.code, A.dec_lines_discarded.code, A.dec_bytes.code, A.ctx_state.code, A.printing.code, A.fail_cause.code, A.held_line.code, A.data_end.code, A.pages_used.code, A.stop_end.code, A.runway_nm.code, A.stop_dist_nm.code, A.stop_phase.code, A.stop_cause.code, A.stops.code, A.bar_state.code, A.bar_band.code] [.front, .buckets, .folded, .ports, .codec, .ctxs, .stop] [.blks, .free, .replies, .pkg, .hsPins, .stores] s' := by
  unfold execDecodeComplete at hn
  refine State.within_onUnit (G := [.blks, .free, .replies, .pkg, .hsPins, .stores]) hn (fun ms k => ?_)
  try simp only
  repeat' (first
    | with_reducible apply Hw.Only.refl
    | decide
    | (with_reducible apply Hw.Only.ite <;> intro _)
    | (with_reducible apply Hw.Only.ite2 <;> intro _)
    | (with_reducible apply Hw.Only.step ?_ (Hw.wr_only ..))
    | (with_reducible apply Hw.Only.step ?_ (Hw.add_only ..))
    | (with_reducible apply Hw.Only.step ?_ (Hw.fresh_only ..))
    | (with_reducible apply Hw.Only.step ?_ (Hw.verifyEnd_only ..))
    | (with_reducible apply Hw.Only.step ?_ (Hw.decFail_only ..))
    | (with_reducible apply Hw.Only.step ?_ (Hw.decRelease_only ..))
    | (with_reducible apply Hw.Only.step ?_ (Hw.decDiscard_only ..))
    | (with_reducible apply Hw.Only.step ?_ (Hw.onCodec_only ..))
    | (with_reducible apply Hw.Only.step ?_ (Hw.decLand_only ..))
    | (with_reducible apply Hw.Only.step ?_ (Hw.prepare_only ..))
    | dsimp only
    | split
    | (apply Hw.Only.of_pair; assumption)
    | (apply Hw.Only.of_triple; assumption))

theorem execCodecVerify_within (h : Hdr) (port greyscale margin nozzles addr stored out : Nat) (s : State) {s' : State} (hn : execCodecVerify h port greyscale margin nozzles addr stored out s = .next s') :
    s.Within [0x1F, A.cfg_changes.code, A.q_max_depth.code, A.q_pushes.code, A.q_overflows.code, A.q_rewinds.code, A.q_oversize.code, A.q_pkt_bad.code, A.eng_busy.code] [.mbx, .queues, .front, .buckets, .folded, .codec] [.replies, .eps, .stores] s' := by
  unfold execCodecVerify at hn
  refine State.within_commandHold (G := [.replies, .eps, .stores]) hn (fun ms d k => ?_) (by decide) (by decide)
  try simp only
  repeat' (first
    | with_reducible apply Hw.Only.refl
    | decide
    | (with_reducible apply Hw.Only.ite <;> intro _)
    | (with_reducible apply Hw.Only.ite2 <;> intro _)
    | (with_reducible apply Hw.Only.step ?_ (Hw.add_only ..))
    | (with_reducible apply Hw.Only.step ?_ (Hw.onCodec_only ..))
    | (with_reducible apply Hw.Only.step ?_ (Hw.qPushPacket_only ..))
    | dsimp only
    | split
    | (apply Hw.Only.of_pair; assumption)
    | (apply Hw.Only.of_triple; assumption))

theorem execCodecCompressSubmit_within (h : Hdr) (queue back tag addr row stride rows line limit per : Nat) (s : State) {s' : State} (hn : execCodecCompressSubmit h queue back tag addr row stride rows line limit per s = .next s') :
    s.Within [0x1F, A.cfg_changes.code, A.out_jobs.code, A.out_state.code] [.mbx, .front, .buckets, .folded, .codec] [.nextId, .replies, .pkg] s' := by
  unfold execCodecCompressSubmit at hn
  refine State.within_command (G := [.nextId, .replies, .pkg]) hn (fun ms d k => ?_) (by decide) (by decide)
  try simp only
  repeat' (first
    | with_reducible apply Hw.Only.refl
    | decide
    | (with_reducible apply Hw.Only.ite <;> intro _)
    | (with_reducible apply Hw.Only.ite2 <;> intro _)
    | (intro (_ : Hw); intro _)
    | (intro (_ : Hw))
    | (with_reducible apply Hw.Only.step ?_ (Hw.rildin_only (C := [0x1f, 0x10021, 0xa0010, 0xa0011]) (F := [.mbx, .front, .buckets, .folded, .codec]) (G := [.nextId, .replies, .pkg, .out]) ?_ ?_ ..))
    | (with_reducible apply Hw.Only.step ?_ (Hw.showJobs_only ..))
    | (with_reducible apply Hw.Only.step ?_ (Hw.onCodec_only ..))
    | (with_reducible apply Hw.Only.step ?_ (refuse_only ..))
    | (with_reducible apply Hw.Only.step ?_ (Hw.deferWork_only ..))
    | (with_reducible apply Hw.Only.step ?_ (Hw.command_only (C := [0x1f, 0x10021, 0xa0010, 0xa0011]) (F := [.mbx, .front, .buckets, .folded, .codec]) (G := [.nextId, .replies, .pkg, .out]) ?_ ?_ ..))
    | dsimp only
    | split
    | (apply Hw.Only.of_pair; assumption)
    | (apply Hw.Only.of_triple; assumption))

theorem execCompressJobStart_within (die : Nat) (s : State) {s' : State} (hn : execCompressJobStart die s = .next s') :
    s.Within [A.out_jobs.code, A.out_state.code] [.codec] [] s' := by
  unfold execCompressJobStart at hn
  refine State.within_onDie (G := []) hn (fun ms k => ?_)
  try simp only
  repeat' (first
    | with_reducible apply Hw.Only.refl
    | (intro D x hx; cases x <;> first | exact absurd (by decide) hx | exact rfl)
    | decide
    | (with_reducible apply Hw.Only.ite <;> intro _)
    | (with_reducible apply Hw.Only.ite2 <;> intro _)
    | (with_reducible apply Hw.Only.step ?_ (Hw.showJobs_only ..))
    | (with_reducible apply Hw.Only.step ?_ (Hw.onCodec_only ..))
    | (with_reducible apply Hw.Only.step ?_ (Hw.onDie_only [] _ _ _ ?_))
    | dsimp only
    | split)

theorem execCompressBlockEnd_within (die : Nat) (tokens : List Byte) (mem : Bool) (s : State) {s' : State} (hn : execCompressBlockEnd die tokens mem s = .next s') :
    s.Within [0x1F, A.q_max_depth.code, A.q_pushes.code, A.q_overflows.code, A.q_rewinds.code, A.q_oversize.code, A.q_pkt_bad.code, A.out_jobs.code, A.out_state.code, A.out_done.code, A.out_failed.code, A.out_raw_blocks.code, A.out_bytes_in.code, A.out_bytes_out.code] [.mbx, .queues, .front, .buckets, .folded, .codec] [.pkg, .eps, .stores] s' := by
  unfold execCompressBlockEnd at hn
  refine State.within_onDie (G := [.pkg, .eps, .stores]) hn (fun ms k => ?_)
  try simp only
  repeat' (first
    | with_reducible apply Hw.Only.refl
    | (intro D x hx; cases x <;> first | exact absurd (by decide) hx | exact rfl)
    | decide
    | (with_reducible apply Hw.Only.ite <;> intro _)
    | (with_reducible apply Hw.Only.ite2 <;> intro _)
    | (with_reducible apply Hw.Only.step ?_ (Hw.add_only ..))
    | (with_reducible apply Hw.Only.step ?_ (Hw.countRewind_only ..))
    | (with_reducible apply Hw.Only.step ?_ (Hw.jobEnd_only ..))
    | (with_reducible apply Hw.Only.step ?_ (Hw.onCodec_only ..))
    | (with_reducible apply Hw.Only.step ?_ (Hw.qPushPacket_only ..))
    | (with_reducible apply Hw.Only.step ?_ (Hw.onDie_only [] _ _ _ ?_))
    | dsimp only
    | split
    | (apply Hw.Only.of_pair; assumption)
    | (apply Hw.Only.of_triple; assumption))

theorem execCodecCompressAbort_within (h : Hdr) (queue tag : Nat) (s : State) {s' : State} (hn : execCodecCompressAbort h queue tag s = .next s') :
    s.Within [0x1F, A.cfg_changes.code, A.q_max_depth.code, A.q_pushes.code, A.q_overflows.code, A.q_rewinds.code, A.q_oversize.code, A.q_pkt_bad.code, A.out_jobs.code, A.out_state.code, A.out_done.code, A.out_failed.code] [.mbx, .queues, .front, .buckets, .folded, .codec] [.replies, .pkg, .eps, .stores] s' := by
  unfold execCodecCompressAbort at hn
  refine State.within_command (G := [.replies, .pkg, .eps, .stores]) hn (fun ms d k => ?_) (by decide) (by decide)
  try simp only
  repeat' (first
    | with_reducible apply Hw.Only.refl
    | decide
    | (with_reducible apply Hw.Only.ite <;> intro _)
    | (with_reducible apply Hw.Only.ite2 <;> intro _)
    | (intro (_ : Hw); intro _)
    | (intro (_ : Hw))
    | (with_reducible apply Hw.Only.step ?_ (Hw.add_only ..))
    | (with_reducible apply Hw.Only.step ?_ (Hw.rildin_only (C := [0x1f, 0x10021, 0x20005, 0x20010, 0x20013, 0x20014, 0x20015, 0x20016, 0xa0010, 0xa0011, 0xa0012, 0xa0013]) (F := [.mbx, .queues, .front, .buckets, .folded, .codec]) (G := [.replies, .pkg, .eps, .stores, .out]) ?_ ?_ ..))
    | (with_reducible apply Hw.Only.step ?_ (Hw.countRewind_only ..))
    | (with_reducible apply Hw.Only.step ?_ (Hw.jobEnd_only ..))
    | (with_reducible apply Hw.Only.step ?_ (Hw.showJobs_only ..))
    | (with_reducible apply Hw.Only.step ?_ (Hw.onCodec_only ..))
    | (with_reducible apply Hw.Only.step ?_ (refuse_only ..))
    | (with_reducible apply Hw.Only.step ?_ (okWith_only ..))
    | (with_reducible apply Hw.Only.step ?_ (Hw.settle_only ..))
    | (with_reducible apply Hw.Only.step ?_ (Hw.command_only (C := [0x1f, 0x10021, 0x20005, 0x20010, 0x20013, 0x20014, 0x20015, 0x20016, 0xa0010, 0xa0011, 0xa0012, 0xa0013]) (F := [.mbx, .queues, .front, .buckets, .folded, .codec]) (G := [.replies, .pkg, .eps, .stores, .out]) ?_ ?_ ..))
    | dsimp only
    | split
    | (apply Hw.Only.of_pair; assumption)
    | (apply Hw.Only.of_triple; assumption))

end Sys2Proof.Machine
end

