-- ==== Sys2Proof/Laws/FramesPackage.lean ====
section
/-!
SUPPORT. The frame of each command: `exec…_within` says that a next state of the command lies within it.
-/
namespace Sys2Proof.Machine

/-! ### Ingest -/

theorem execCtxOpen_within (h : Hdr) (ctx : Nat) (bad : Bool) (s : State) {s' : State} (hn : execCtxOpen h ctx bad s = .next s') :
    s.Within [0x1F, A.cfg_changes.code, A.ctx_state.code, A.printing.code, A.fail_cause.code, A.x0.code, A.last_line.code, A.held_line.code, A.data_end.code, A.stop_line.code, A.switch_line.code, A.pages_used.code, A.stop_end.code, A.runway_nm.code, A.stop_dist_nm.code, A.bar_state.code, A.bar_band.code] [.mbx, .front, .buckets, .folded, .codec, .ctxs, .ctxCache] [.replies, .pkg, .stores] s' := by
  unfold execCtxOpen at hn
  refine State.within_command (G := [.replies, .pkg, .stores]) hn (fun ms d k => ?_) (by decide) (by decide)
  try simp only
  repeat' (first
    | with_reducible apply Hw.Only.refl
    | (intro D x hx; cases x <;> first | exact absurd (by decide) hx | exact rfl)
    | decide
    | (with_reducible apply Hw.Only.ite <;> intro _)
    | (with_reducible apply Hw.Only.ite2 <;> intro _)
    | (intro (_ : Hw); intro _)
    | (intro (_ : Hw))
    | (with_reducible apply Hw.Only.step ?_ (Hw.wr_only ..))
    | (with_reducible apply Hw.Only.step ?_ (Hw.tableErr_only ..))
    | (with_reducible apply Hw.Only.step ?_ (Hw.onCodec_only ..))
    | (with_reducible apply Hw.Only.step ?_ (Hw.showRunway_only ..))
    | (with_reducible apply Hw.Only.step ?_ (Hw.ctxTo_only ..))
    | (with_reducible apply Hw.Only.step ?_ (refuse_only ..))
    | (with_reducible apply Hw.Only.step ?_ (okWith_only ..))
    | (with_reducible apply Hw.Only.step ?_ (Hw.command_only (C := [0x1f, 0x10021, 0xb0001, 0xb0002, 0xb0003, 0xb0004, 0xb0005, 0xb0006, 0xb0007, 0xb0008, 0xb0009, 0xb000a, 0xb000b, 0xc0020, 0xc0021, 0x130001, 0x130002]) (F := [.mbx, .front, .buckets, .folded, .codec, .ctxs, .ctxCache]) (G := [.replies, .pkg, .stores, .out]) ?_ ?_ ..))
    | (with_reducible apply Hw.Only.step ?_ (Hw.onDie_only [.ctxs, .ctxCache] _ _ _ ?_))
    | dsimp only
    | split)

theorem execCtxStartAbs_within (h : Hdr) (ctx : Nat) (x0 : Int) (s : State) {s' : State} (hn : execCtxStartAbs h ctx x0 s = .next s') :
    s.Within [0x1F, A.cfg_changes.code, A.port_offset_nm.code, A.min_fire_period_ns.code, A.armed_line.code, A.hp_state.code, A.slot_next.code, A.slot_context.code, A.slots_prepared.code, A.slots_staged.code, A.swap_context.code, A.ctx_state.code, A.printing.code, A.x0.code, A.held_line.code, A.data_end.code, A.pages_used.code, A.stop_end.code, A.runway_nm.code, A.stop_dist_nm.code, A.stop_phase.code, A.stop_cause.code, A.stops.code, A.bar_state.code, A.bar_band.code] [.mbx, .front, .buckets, .folded, .hwmOn, .leaving, .ports, .changes, .bankFrom, .ctxs, .stop] [.replies, .pkg, .hsForce, .hsPins, .stores] s' := by
  unfold execCtxStartAbs at hn
  refine State.within_command (G := [.replies, .pkg, .hsForce, .hsPins, .stores]) hn (fun ms d k => ?_) (by decide) (by decide)
  try simp only
  repeat' (first
    | with_reducible apply Hw.Only.refl
    | decide
    | (with_reducible apply Hw.Only.ite <;> intro _)
    | (with_reducible apply Hw.Only.ite2 <;> intro _)
    | (intro (_ : Hw); intro _)
    | (intro (_ : Hw))
    | (with_reducible apply Hw.Only.step ?_ (Hw.wrS_only ..))
    | (with_reducible apply Hw.Only.step ?_ (Hw.beginCtx_only ..))
    | (with_reducible apply Hw.Only.step ?_ (refuse_only ..))
    | (with_reducible apply Hw.Only.step ?_ (okWith_only ..))
    | (with_reducible apply Hw.Only.step ?_ (Hw.command_only (C := [0x1f, 0x10021, 0x60001, 0x60003, 0x60020, 0x70002, 0x80002, 0x80003, 0x80004, 0x80005, 0x90003, 0xb0001, 0xb0002, 0xb0004, 0xb0006, 0xb0007, 0xb000a, 0xb000b, 0xc0020, 0xc0021, 0xc0022, 0xc0023, 0xc0025, 0x130001, 0x130002]) (F := [.mbx, .front, .buckets, .folded, .hwmOn, .leaving, .ports, .changes, .bankFrom, .ctxs, .stop]) (G := [.replies, .pkg, .hsForce, .hsPins, .stores, .out]) ?_ ?_ ..))
    | dsimp only
    | split
    | (apply Hw.Only.of_pair; assumption)
    | (apply Hw.Only.of_triple; assumption))

theorem execSwitchFix_within (die : Nat) (s : State) {s' : State} (hn : execSwitchFix die s = .next s') :
    s.Within [0x1F, A.port_offset_nm.code, A.min_fire_period_ns.code, A.armed_line.code, A.hp_state.code, A.slot_next.code, A.slot_context.code, A.slots_prepared.code, A.slots_staged.code, A.squashes.code, A.retones.code, A.swap_context.code, A.ctx_state.code, A.printing.code, A.x0.code, A.held_line.code, A.data_end.code, A.switch_line.code, A.pages_used.code, A.stop_end.code, A.runway_nm.code, A.stop_dist_nm.code, A.stop_phase.code, A.stop_cause.code, A.stops.code, A.bar_state.code, A.bar_band.code] [.mbx, .front, .buckets, .folded, .hwmOn, .leaving, .ports, .changes, .bankFrom, .ctxs, .stop] [.pkg, .hsForce, .hsPins, .stores] s' := by
  unfold execSwitchFix at hn
  refine State.within_onDie (G := [.pkg, .hsForce, .hsPins, .stores]) hn (fun ms k => ?_)
  try simp only
  repeat' (first
    | with_reducible apply Hw.Only.refl
    | (intro D x hx; cases x <;> first | exact absurd (by decide) hx | exact rfl)
    | decide
    | (with_reducible apply Hw.Only.step ?_ (Hw.switchFixes_only ..))
    | (with_reducible apply Hw.Only.step ?_ (Hw.onDie_only [] _ _ _ ?_))
    | dsimp only
    | split)

theorem execCtxStartAfter_within (h : Hdr) (ctx after : Nat) (s : State) {s' : State} (hn : execCtxStartAfter h ctx after s = .next s') :
    s.Within [0x1F, A.cfg_changes.code, A.port_offset_nm.code, A.min_fire_period_ns.code, A.armed_line.code, A.hp_state.code, A.slot_next.code, A.slot_context.code, A.slots_prepared.code, A.slots_staged.code, A.squashes.code, A.retones.code, A.swap_context.code, A.ctx_state.code, A.printing.code, A.x0.code, A.held_line.code, A.data_end.code, A.switch_line.code, A.pages_used.code, A.stop_end.code, A.runway_nm.code, A.stop_dist_nm.code, A.stop_phase.code, A.stop_cause.code, A.stops.code, A.bar_state.code, A.bar_band.code] [.mbx, .front, .buckets, .folded, .hwmOn, .leaving, .ports, .changes, .bankFrom, .ctxs, .stop] [.nextId, .replies, .pkg, .hsForce, .hsPins, .stores] s' := by
  unfold execCtxStartAfter at hn
  refine State.within_command (G := [.nextId, .replies, .pkg, .hsForce, .hsPins, .stores]) hn (fun ms d k => ?_) (by decide) (by decide)
  try simp only
  repeat' (first
    | with_reducible apply Hw.Only.refl
    | decide
    | (with_reducible apply Hw.Only.ite <;> intro _)
    | (with_reducible apply Hw.Only.ite2 <;> intro _)
    | (intro (_ : Hw); intro _)
    | (intro (_ : Hw))
    | (with_reducible apply Hw.Only.step ?_ (Hw.switchFix_only ..))
    | (with_reducible apply Hw.Only.step ?_ (Hw.onCtx_only ..))
    | (with_reducible apply Hw.Only.step ?_ (refuse_only ..))
    | (with_reducible apply Hw.Only.step ?_ (Hw.deferWork_only ..))
    | (with_reducible apply Hw.Only.step ?_ (Hw.defer_only ..))
    | (with_reducible apply Hw.Only.step ?_ (Hw.command_only (C := [0x1f, 0x10021, 0x60001, 0x60003, 0x60020, 0x70002, 0x80002, 0x80003, 0x80004, 0x80005, 0x80020, 0x80021, 0x90003, 0xb0001, 0xb0002, 0xb0004, 0xb0006, 0xb0007, 0xb0009, 0xb000a, 0xb000b, 0xc0020, 0xc0021, 0xc0022, 0xc0023, 0xc0025, 0x130001, 0x130002]) (F := [.mbx, .front, .buckets, .folded, .hwmOn, .leaving, .ports, .changes, .bankFrom, .ctxs, .stop]) (G := [.nextId, .replies, .pkg, .hsForce, .hsPins, .stores, .out]) ?_ ?_ ..))
    | dsimp only
    | split
    | (apply Hw.Only.of_pair; assumption)
    | (apply Hw.Only.of_triple; assumption))

theorem execCtxClose_within (h : Hdr) (ctx : Nat) (s : State) {s' : State} (hn : execCtxClose h ctx s = .next s') :
    s.Within [0] [.mbx, .queues, .front, .buckets, .folded, .hwmOn, .leaving, .ports, .changes, .ctxs, .stop] [.replies, .pkg, .eps, .hsPins, .stores] s' := by
  unfold execCtxClose at hn
  refine State.within_command (G := [.replies, .pkg, .eps, .hsPins, .stores]) hn (fun ms d k => ?_) (by decide) (by decide)
  try simp only
  repeat' (first
    | with_reducible apply Hw.Only.refl
    | decide
    | (with_reducible apply Hw.Only.ite <;> intro _)
    | (with_reducible apply Hw.Only.ite2 <;> intro _)
    | (intro (_ : Hw); intro _)
    | (intro (_ : Hw))
    | (with_reducible apply Hw.Only.step ?_ (Hw.closeCtx_only ..))
    | (with_reducible apply Hw.Only.step ?_ (refuse_only ..))
    | (with_reducible apply Hw.Only.step ?_ (okWith_only ..))
    | (with_reducible apply Hw.Only.step ?_ (Hw.command_only (C := [0x0]) (F := [.mbx, .queues, .front, .buckets, .folded, .hwmOn, .leaving, .ports, .changes, .ctxs, .stop]) (G := [.replies, .pkg, .eps, .hsPins, .stores, .out]) ?_ ?_ ..))
    | dsimp only
    | split)

theorem execCtxAbort_within (h : Hdr) (ctx : Nat) (s : State) {s' : State} (hn : execCtxAbort h ctx s = .next s') :
    s.Within [0] [.mbx, .queues, .front, .buckets, .folded, .hwmOn, .leaving, .ports, .changes, .banks, .codec, .ctxs, .stop, .lineFaults] [.replies, .pkg, .eps, .hsPins, .stores] s' := by
  unfold execCtxAbort at hn
  refine State.within_command (G := [.replies, .pkg, .eps, .hsPins, .stores]) hn (fun ms d k => ?_) (by decide) (by decide)
  try simp only
  repeat' (first
    | with_reducible apply Hw.Only.refl
    | (intro D x hx; split <;> (cases x <;> first | exact absurd (by decide) hx | exact rfl))
    | (intro D x hx; cases x <;> first | exact absurd (by decide) hx | exact rfl)
    | decide
    | (with_reducible apply Hw.Only.ite <;> intro _)
    | (with_reducible apply Hw.Only.ite2 <;> intro _)
    | (intro (_ : Hw); intro _)
    | (intro (_ : Hw))
    | (with_reducible apply Hw.Only.step ?_ (Hw.abortSeam_only ..))
    | (with_reducible apply Hw.Only.step ?_ (Hw.fireLocked_only ..))
    | (with_reducible apply Hw.Only.step ?_ (Hw.closeCtx_only ..))
    | (with_reducible apply Hw.Only.step ?_ (Hw.onCodec_only ..))
    | (with_reducible apply Hw.Only.step ?_ (Hw.standstillCheck_only ..))
    | (with_reducible apply Hw.Only.step ?_ (refuse_only ..))
    | (with_reducible apply Hw.Only.step ?_ (okWith_only ..))
    | (with_reducible apply Hw.Only.step ?_ (Hw.command_only (C := [0x0]) (F := [.mbx, .queues, .front, .buckets, .folded, .hwmOn, .leaving, .ports, .changes, .banks, .codec, .ctxs, .stop, .lineFaults]) (G := [.replies, .pkg, .eps, .hsPins, .stores, .out]) ?_ ?_ ..))
    | (with_reducible apply Hw.Only.step ?_ (Hw.onDie_only [.ports] _ _ _ ?_))
    | dsimp only
    | split
    | (apply Hw.Only.of_pair; assumption)
    | (apply Hw.Only.of_triple; assumption))

theorem execCtxInvalidate_within (h : Hdr) (first count : Nat) (s : State) {s' : State} (hn : execCtxInvalidate h first count s = .next s') :
    s.Within [0x1F, A.cfg_changes.code] [.mbx, .front, .buckets, .folded, .ctxCache] [.replies] s' := by
  unfold execCtxInvalidate at hn
  refine State.within_command (G := [.replies]) hn (fun ms d k => ?_) (by decide) (by decide)
  try simp only
  repeat' (first
    | with_reducible apply Hw.Only.refl
    | (intro D x hx; cases x <;> first | exact absurd (by decide) hx | exact rfl)
    | decide
    | (with_reducible apply Hw.Only.ite <;> intro _)
    | (with_reducible apply Hw.Only.ite2 <;> intro _)
    | (intro (_ : Hw); intro _)
    | (intro (_ : Hw))
    | (with_reducible apply Hw.Only.step ?_ (refuse_only ..))
    | (with_reducible apply Hw.Only.step ?_ (okWith_only ..))
    | (with_reducible apply Hw.Only.step ?_ (Hw.command_only (C := [0x1f, 0x10021]) (F := [.mbx, .front, .buckets, .folded, .ctxCache]) (G := [.replies, .out]) ?_ ?_ ..))
    | (with_reducible apply Hw.Only.step ?_ (Hw.onDie_only [.ctxCache] _ _ _ ?_))
    | dsimp only
    | split)

theorem execContextWriteback_within (die ctx : Nat) (s : State) {s' : State} (hn : execContextWriteback die ctx s = .next s') :
    s.Within [A.held_line.code, A.data_end.code, A.pages_used.code, A.runway_nm.code, A.stop_dist_nm.code] [] [.stores] s' := by
  unfold execContextWriteback at hn
  refine State.within_onDie (G := [.stores]) hn (fun ms k => ?_)
  try simp only
  repeat' (first
    | with_reducible apply Hw.Only.refl
    | (intro D x hx; cases x <;> first | exact absurd (by decide) hx | exact rfl)
    | decide
    | (with_reducible apply Hw.Only.ite <;> intro _)
    | (with_reducible apply Hw.Only.ite2 <;> intro _)
    | (with_reducible apply Hw.Only.step ?_ (Hw.showRunway_only ..))
    | (with_reducible apply Hw.Only.step ?_ (Hw.ctxWriteback_only ..))
    | (with_reducible apply Hw.Only.step ?_ (Hw.onDie_only [] _ _ _ ?_))
    | dsimp only
    | split
    | (apply Hw.Only.of_pair; assumption)
    | (apply Hw.Only.of_triple; assumption))

theorem execGrtData_within (die eth ip udp stream seq ctx flags off : Nat) (data : List Byte) (s : State) {s' : State} (hn : execGrtData die eth ip udp stream seq ctx flags off data s = .next s') :
    s.Within [0x1F, A.q_max_depth.code, A.q_pushes.code, A.q_overflows.code, A.q_rewinds.code, A.q_oversize.code, A.q_pkt_bad.code, A.st_next_seq.code, A.st_credit.code, A.grt_dup.code, A.grt_gaps.code, A.grt_over_credit.code, A.grt_bad.code] [.queues, .front, .buckets, .folded, .streams] [.eps, .stores] s' := by
  unfold execGrtData at hn
  refine State.within_onUnit (G := [.eps, .stores]) hn (fun ms k => ?_)
  try simp only
  repeat' (first
    | with_reducible apply Hw.Only.refl
    | decide
    | (with_reducible apply Hw.Only.step ?_ (Hw.grtData_only ..))
    | dsimp only
    | split)

theorem execGrtReset_within (die eth ip udp stream seq ctx : Nat) (s : State) {s' : State} (hn : execGrtReset die eth ip udp stream seq ctx s = .next s') :
    s.Within [A.st_next_seq.code, A.st_credit.code, A.grt_bad.code] [.streams] [] s' := by
  unfold execGrtReset at hn
  refine State.within_onUnit (G := []) hn (fun ms k => ?_)
  try simp only
  repeat' (first
    | with_reducible apply Hw.Only.refl
    | decide
    | (with_reducible apply Hw.Only.step ?_ (Hw.grtReset_only ..))
    | dsimp only
    | split)

theorem execGrtAckTimer_within (die stream : Nat) (s : State) {s' : State} (hn : execGrtAckTimer die stream s = .next s') :
    s.Within [A.st_credit.code] [.streams] [] s' := by
  unfold execGrtAckTimer at hn
  refine State.within_onUnit (G := []) hn (fun ms k => ?_)
  try simp only
  repeat' (first
    | with_reducible apply Hw.Only.refl
    | decide
    | (with_reducible apply Hw.Only.ite <;> intro _)
    | (with_reducible apply Hw.Only.ite2 <;> intro _)
    | (with_reducible apply Hw.Only.step ?_ (Hw.grtReply_only ..))
    | dsimp only
    | split)

theorem execDmaTailWrite_within (die ep stream value : Nat) (s : State) {s' : State} (hn : execDmaTailWrite die ep stream value s = .next s') :
    s.Within [] [.streams] [] s' := by
  unfold execDmaTailWrite at hn
  refine State.within_onUnit (G := []) hn (fun ms k => ?_)
  try simp only
  repeat' (first
    | with_reducible apply Hw.Only.refl
    | decide
    | (with_reducible apply Hw.Only.step ?_ (Hw.dmaTail_only ..))
    | dsimp only
    | split)

theorem execDmaBlockFetch_within (die stream stored : Nat) (ok : Bool) (data : List Byte) (s : State) {s' : State} (hn : execDmaBlockFetch die stream stored ok data s = .next s') :
    s.Within [0x1F, A.cfg_changes.code, A.min_fire_period_ns.code, A.ctx_state.code, A.printing.code, A.fail_cause.code, A.held_line.code, A.data_end.code, A.pages_used.code, A.stop_end.code, A.runway_nm.code, A.stop_dist_nm.code, A.stop_phase.code, A.stop_cause.code, A.stops.code, A.bar_state.code, A.bar_band.code] [.front, .buckets, .folded, .ctxs, .streams, .stop] [.pkg, .hsPins, .stores] s' := by
  unfold execDmaBlockFetch at hn
  refine State.within_onUnit (G := [.pkg, .hsPins, .stores]) hn (fun ms k => ?_)
  try simp only
  repeat' (first
    | with_reducible apply Hw.Only.refl
    | decide
    | (with_reducible apply Hw.Only.ite <;> intro _)
    | (with_reducible apply Hw.Only.ite2 <;> intro _)
    | (with_reducible apply Hw.Only.step ?_ (Hw.dmaTail_only ..))
    | (with_reducible apply Hw.Only.step ?_ (Hw.onStream_only ..))
    | (with_reducible apply Hw.Only.step ?_ (Hw.ctxFail_only ..))
    | (with_reducible apply Hw.Only.step ?_ (Hw.runwayEval_only ..))
    | (with_reducible apply Hw.Only.step ?_ (Hw.event_only ..))
    | dsimp only
    | split)

theorem execBlockStore_within (die stream : Nat) (mem : Bool) (s : State) {s' : State} (hn : execBlockStore die stream mem s = .next s') :
    s.Within [0] [.mbx, .queues, .front, .buckets, .folded, .hwmOn, .leaving, .ports, .changes, .bankFrom, .ctxs, .streams, .stop] [.pkg, .eps, .hsForce, .hsPins, .stores] s' := by
  unfold execBlockStore at hn
  refine State.within_onUnit (G := [.pkg, .eps, .hsForce, .hsPins, .stores]) hn (fun ms k => ?_)
  try simp only
  repeat' (first
    | with_reducible apply Hw.Only.refl
    | decide
    | (with_reducible apply Hw.Only.ite <;> intro _)
    | (with_reducible apply Hw.Only.ite2 <;> intro _)
    | (with_reducible apply Hw.Only.step ?_ (Hw.wr_only ..))
    | (with_reducible apply Hw.Only.step ?_ (Hw.takeBlock_only ..))
    | (with_reducible apply Hw.Only.step ?_ (Hw.streamDone_only ..))
    | (with_reducible apply Hw.Only.step ?_ (Hw.fragment_only ..))
    | (with_reducible apply Hw.Only.step ?_ (Hw.ctxFail_only ..))
    | (with_reducible apply Hw.Only.step ?_ (Hw.runwayEval_only ..))
    | (with_reducible apply Hw.Only.step ?_ (Hw.qPopPacket_only ..))
    | dsimp only
    | split
    | (apply Hw.Only.of_pair; assumption)
    | (apply Hw.Only.of_triple; assumption))

/-! ### Camera -/

theorem execCsiFrameStart_within (die cam num t : Nat) (s : State) {s' : State} (hn : execCsiFrameStart die cam num t s = .next s') :
    s.Within [0x1F, A.q_max_depth.code, A.q_pushes.code, A.q_overflows.code, A.q_rewinds.code, A.q_oversize.code, A.q_pkt_bad.code, A.frame_count.code, A.slot_state.code, A.pset_active.code, A.frames.code, A.short_frames.code, A.long_frames.code, A.no_fe.code, A.no_slot.code, A.black.code, A.gain.code, A.records.code, A.records_lost.code] [.mbx, .queues, .front, .buckets, .folded, .tbs, .cams] [.clk, .pkg, .eps, .stores] s' := by
  unfold execCsiFrameStart at hn
  refine State.within_onUnit (G := [.clk, .pkg, .eps, .stores]) hn (fun ms k => ?_)
  try simp only
  repeat' (first
    | with_reducible apply Hw.Only.refl
    | decide
    | (with_reducible apply Hw.Only.ite <;> intro _)
    | (with_reducible apply Hw.Only.ite2 <;> intro _)
    | (with_reducible apply Hw.Only.step ?_ (Hw.openFrame_only ..))
    | (with_reducible apply Hw.Only.step ?_ (Hw.closeFrame_only ..))
    | (with_reducible apply Hw.Only.step ?_ (Hw.until_only ..))
    | dsimp only
    | split)

theorem execCsiFrameEnd_within (die cam t : Nat) (s : State) {s' : State} (hn : execCsiFrameEnd die cam t s = .next s') :
    s.Within [0x1F, A.q_max_depth.code, A.q_pushes.code, A.q_overflows.code, A.q_rewinds.code, A.q_oversize.code, A.q_pkt_bad.code, A.frames.code, A.short_frames.code, A.long_frames.code, A.no_fe.code, A.records.code, A.records_lost.code] [.queues, .front, .buckets, .folded, .tbs, .cams] [.clk, .eps, .stores] s' := by
  unfold execCsiFrameEnd at hn
  refine State.within_onUnit (G := [.clk, .eps, .stores]) hn (fun ms k => ?_)
  try simp only
  repeat' (first
    | with_reducible apply Hw.Only.refl
    | decide
    | (with_reducible apply Hw.Only.ite <;> intro _)
    | (with_reducible apply Hw.Only.ite2 <;> intro _)
    | (with_reducible apply Hw.Only.step ?_ (Hw.window_only ..))
    | (with_reducible apply Hw.Only.step ?_ (Hw.lateEnd_only ..))
    | (with_reducible apply Hw.Only.step ?_ (Hw.closeFrame_only ..))
    | (with_reducible apply Hw.Only.step ?_ (Hw.until_only ..))
    | dsimp only
    | split
    | (apply Hw.Only.of_pair; assumption)
    | (apply Hw.Only.of_triple; assumption))

theorem execFrameTimeout_within (die cam : Nat) (s : State) {s' : State} (hn : execFrameTimeout die cam s = .next s') :
    s.Within [0x1F, A.q_max_depth.code, A.q_pushes.code, A.q_overflows.code, A.q_rewinds.code, A.q_oversize.code, A.q_pkt_bad.code, A.frames.code, A.short_frames.code, A.long_frames.code, A.no_fe.code, A.records.code, A.records_lost.code] [.queues, .front, .buckets, .folded, .cams] [.eps, .stores] s' := by
  unfold execFrameTimeout at hn
  refine State.within_onUnit (G := [.eps, .stores]) hn (fun ms k => ?_)
  try simp only
  repeat' (first
    | with_reducible apply Hw.Only.refl
    | decide
    | (with_reducible apply Hw.Only.ite <;> intro _)
    | (with_reducible apply Hw.Only.ite2 <;> intro _)
    | (with_reducible apply Hw.Only.step ?_ (Hw.closeFrame_only ..))
    | (with_reducible apply Hw.Only.step ?_ (Hw.onCam_only ..))
    | dsimp only
    | split)

theorem execCsiLine_within (die cam vc dt ecc : Nat) (crcOk lost : Bool) (px : List Nat) (s : State) {s' : State} (hn : execCsiLine die cam vc dt ecc crcOk lost px s = .next s') :
    s.Within [A.cam_crc_errs.code, A.len_errs.code, A.ecc_fixed.code, A.ecc_fatal.code, A.other_pkts.code, A.orphan_lines.code, A.isp_overruns.code] [.cams] [.stores] s' := by
  unfold execCsiLine at hn
  refine State.within_onUnit (G := [.stores]) hn (fun ms k => ?_)
  try simp only
  repeat' (first
    | with_reducible apply Hw.Only.refl
    | decide
    | (with_reducible apply Hw.Only.ite <;> intro _)
    | (with_reducible apply Hw.Only.ite2 <;> intro _)
    | (with_reducible apply Hw.Only.step ?_ (Hw.add_only ..))
    | (with_reducible apply Hw.Only.step ?_ (Hw.store_only ..))
    | (with_reducible apply Hw.Only.step ?_ (Hw.onCam_only ..))
    | dsimp only
    | split
    | (apply Hw.Only.of_pair; assumption)
    | (apply Hw.Only.of_triple; assumption))

theorem execPsetListComplete_within (die cam result index : Nat) (s : State) {s' : State} (hn : execPsetListComplete die cam result index s = .next s') :
    s.Within [0x1F] [.mbx, .front, .buckets, .folded, .cams] [.pkg] s' := by
  unfold execPsetListComplete at hn
  refine State.within_onUnit (G := [.pkg]) hn (fun ms k => ?_)
  try simp only
  repeat' (first
    | with_reducible apply Hw.Only.refl
    | decide
    | (with_reducible apply Hw.Only.ite <;> intro _)
    | (with_reducible apply Hw.Only.ite2 <;> intro _)
    | (with_reducible apply Hw.Only.step ?_ (Hw.onCam_only ..))
    | (with_reducible apply Hw.Only.step ?_ (Hw.settle_only ..))
    | (with_reducible apply Hw.Only.step ?_ (Hw.event_only ..))
    | dsimp only
    | split
    | (apply Hw.Only.of_pair; assumption)
    | (apply Hw.Only.of_triple; assumption))

theorem execMpFrameProcess_within (die : Nat) (s : State) {s' : State} (hn : execMpFrameProcess die s = .next s') :
    s.Within [A.slot_state.code] [.cams, .ispRun] [] s' := by
  unfold execMpFrameProcess at hn
  refine State.within_onDie (G := []) hn (fun ms k => ?_)
  try simp only
  repeat' (first
    | with_reducible apply Hw.Only.refl
    | (intro D x hx; cases x <;> first | exact absurd (by decide) hx | exact rfl)
    | decide
    | (with_reducible apply Hw.Only.ite <;> intro _)
    | (with_reducible apply Hw.Only.ite2 <;> intro _)
    | (with_reducible apply Hw.Only.foldl)
    | (intro (_ : Hw); intro _)
    | (intro (_ : Hw))
    | (with_reducible apply Hw.Only.foldlP)
    | (intro (_ : _ × Hw); intro _)
    | (with_reducible apply Hw.Only.step ?_ (Hw.setSlot_only ..))
    | (with_reducible apply Hw.Only.step ?_ (Hw.onCam_only ..))
    | (with_reducible apply Hw.Only.step ?_ (Hw.onDie_only [.ispRun] _ _ _ ?_))
    | dsimp only
    | split
    | (apply Hw.Only.of_pair; assumption)
    | (apply Hw.Only.of_triple; assumption))

theorem execIspFrameDone_within (die stream : Nat) (s : State) {s' : State} (hn : execIspFrameDone die stream s = .next s') :
    s.Within [0x1F, A.q_max_depth.code, A.q_pushes.code, A.q_overflows.code, A.q_rewinds.code, A.q_oversize.code, A.q_pkt_bad.code, A.slot_state.code, A.dpc_dynamic.code, A.mp_latency_max_us.code, A.records.code, A.records_lost.code] [.queues, .front, .buckets, .folded, .cams, .ispRun] [.eps, .stores] s' := by
  unfold execIspFrameDone at hn
  refine State.within_onUnit (G := [.eps, .stores]) hn (fun ms k => ?_)
  try simp only
  repeat' (first
    | with_reducible apply Hw.Only.refl
    | (intro D x hx; cases x <;> first | exact absurd (by decide) hx | exact rfl)
    | decide
    | (with_reducible apply Hw.Only.ite <;> intro _)
    | (with_reducible apply Hw.Only.ite2 <;> intro _)
    | (with_reducible apply Hw.Only.step ?_ (Hw.wr_only ..))
    | (with_reducible apply Hw.Only.step ?_ (Hw.frameDone_only ..))
    | (with_reducible apply Hw.Only.step ?_ (Hw.onCam_only ..))
    | (with_reducible apply Hw.Only.step ?_ (Hw.onDie_only [.ispRun] _ _ _ ?_))
    | dsimp only
    | split
    | (apply Hw.Only.of_pair; assumption)
    | (apply Hw.Only.of_triple; assumption))

theorem execCamWake_within (h : Hdr) (port : Nat) (s : State) {s' : State} (hn : execCamWake h port s = .next s') :
    s.Within [0x1F, A.cfg_changes.code, A.cam_state.code, A.stream.code] [.mbx, .front, .buckets, .folded] [.replies] s' := by
  unfold execCamWake at hn
  refine State.within_command (G := [.replies]) hn (fun ms d k => ?_) (by decide) (by decide)
  try simp only
  repeat' (first
    | with_reducible apply Hw.Only.refl
    | decide
    | (with_reducible apply Hw.Only.ite <;> intro _)
    | (with_reducible apply Hw.Only.ite2 <;> intro _)
    | (intro (_ : Hw); intro _)
    | (intro (_ : Hw))
    | (with_reducible apply Hw.Only.step ?_ (Hw.wr_only ..))
    | (with_reducible apply Hw.Only.step ?_ (Hw.camTo_only ..))
    | (with_reducible apply Hw.Only.step ?_ (refuse_only ..))
    | (with_reducible apply Hw.Only.step ?_ (okWith_only ..))
    | (with_reducible apply Hw.Only.step ?_ (Hw.command_only (C := [0x1f, 0x10021, 0xd0001, 0xd0015]) (F := [.mbx, .front, .buckets, .folded]) (G := [.replies, .out]) ?_ ?_ ..))
    | dsimp only
    | split)

theorem execCamEnable_within (h : Hdr) (port : Nat) (s : State) {s' : State} (hn : execCamEnable h port s = .next s') :
    s.Within [0x1F, A.cfg_changes.code, A.cam_state.code, A.frame_count.code, A.pset_active.code, A.stream.code, A.stream_cam.code] [.mbx, .front, .buckets, .folded, .cams] [.replies] s' := by
  unfold execCamEnable at hn
  refine State.within_command (G := [.replies]) hn (fun ms d k => ?_) (by decide) (by decide)
  try simp only
  repeat' (first
    | with_reducible apply Hw.Only.refl
    | decide
    | (with_reducible apply Hw.Only.ite <;> intro _)
    | (with_reducible apply Hw.Only.ite2 <;> intro _)
    | (intro (_ : Hw); intro _)
    | (intro (_ : Hw))
    | (with_reducible apply Hw.Only.step ?_ (Hw.wr_only ..))
    | (with_reducible apply Hw.Only.step ?_ (Hw.listStart_only ..))
    | (with_reducible apply Hw.Only.step ?_ (Hw.camTo_only ..))
    | (with_reducible apply Hw.Only.step ?_ (Hw.onCam_only ..))
    | (with_reducible apply Hw.Only.step ?_ (refuse_only ..))
    | (with_reducible apply Hw.Only.step ?_ (okWith_only ..))
    | (with_reducible apply Hw.Only.step ?_ (Hw.command_only (C := [0x1f, 0x10021, 0xd0001, 0xd0002, 0xd0014, 0xd0015, 0xe0001]) (F := [.mbx, .front, .buckets, .folded, .cams]) (G := [.replies, .out]) ?_ ?_ ..))
    | dsimp only
    | split
    | (apply Hw.Only.of_pair; assumption)
    | (apply Hw.Only.of_triple; assumption))

theorem execCamDisable_within (h : Hdr) (port : Nat) (s : State) {s' : State} (hn : execCamDisable h port s = .next s') :
    s.Within [0x1F, A.cfg_changes.code, A.q_max_depth.code, A.q_pushes.code, A.q_overflows.code, A.q_rewinds.code, A.q_oversize.code, A.q_pkt_bad.code, A.cam_state.code, A.slot_state.code, A.stream.code, A.frames.code, A.short_frames.code, A.long_frames.code, A.no_fe.code, A.stream_cam.code, A.records.code, A.records_lost.code] [.mbx, .queues, .front, .buckets, .folded, .cams, .ispRun] [.replies, .pkg, .eps, .stores] s' := by
  unfold execCamDisable at hn
  refine State.within_command (G := [.replies, .pkg, .eps, .stores]) hn (fun ms d k => ?_) (by decide) (by decide)
  try simp only
  repeat' (first
    | with_reducible apply Hw.Only.refl
    | (intro D x hx; split <;> (cases x <;> first | exact absurd (by decide) hx | exact rfl))
    | (intro D x hx; cases x <;> first | exact absurd (by decide) hx | exact rfl)
    | decide
    | (with_reducible apply Hw.Only.ite <;> intro _)
    | (with_reducible apply Hw.Only.ite2 <;> intro _)
    | (with_reducible apply Hw.Only.foldl)
    | (intro (_ : Hw); intro _)
    | (intro (_ : Hw))
    | (with_reducible apply Hw.Only.foldlP)
    | (intro (_ : _ × Hw); intro _)
    | (with_reducible apply Hw.Only.step ?_ (Hw.wr_only ..))
    | (with_reducible apply Hw.Only.step ?_ (Hw.closeFrame_only ..))
    | (with_reducible apply Hw.Only.step ?_ (Hw.setSlot_only ..))
    | (with_reducible apply Hw.Only.step ?_ (Hw.camTo_only ..))
    | (with_reducible apply Hw.Only.step ?_ (Hw.onCam_only ..))
    | (with_reducible apply Hw.Only.step ?_ (refuse_only ..))
    | (with_reducible apply Hw.Only.step ?_ (okWith_only ..))
    | (with_reducible apply Hw.Only.step ?_ (Hw.settle_only ..))
    | (with_reducible apply Hw.Only.step ?_ (Hw.command_only (C := [0x1f, 0x10021, 0x20005, 0x20010, 0x20013, 0x20014, 0x20015, 0x20016, 0xd0001, 0xd0012, 0xd0015, 0xd0020, 0xd0021, 0xd0022, 0xd0023, 0xe0001, 0xf0010, 0xf0011]) (F := [.mbx, .queues, .front, .buckets, .folded, .cams, .ispRun]) (G := [.replies, .pkg, .eps, .stores, .out]) ?_ ?_ ..))
    | (with_reducible apply Hw.Only.step ?_ (Hw.onDie_only [.ispRun] _ _ _ ?_))
    | dsimp only
    | split)

theorem execCamSleep_within (h : Hdr) (port : Nat) (s : State) {s' : State} (hn : execCamSleep h port s = .next s') :
    s.Within [0x1F, A.cfg_changes.code, A.cam_state.code] [.mbx, .front, .buckets, .folded] [.replies] s' := by
  unfold execCamSleep at hn
  refine State.within_command (G := [.replies]) hn (fun ms d k => ?_) (by decide) (by decide)
  try simp only
  repeat' (first
    | with_reducible apply Hw.Only.refl
    | decide
    | (with_reducible apply Hw.Only.ite <;> intro _)
    | (with_reducible apply Hw.Only.ite2 <;> intro _)
    | (intro (_ : Hw); intro _)
    | (intro (_ : Hw))
    | (with_reducible apply Hw.Only.step ?_ (Hw.camTo_only ..))
    | (with_reducible apply Hw.Only.step ?_ (refuse_only ..))
    | (with_reducible apply Hw.Only.step ?_ (okWith_only ..))
    | (with_reducible apply Hw.Only.step ?_ (Hw.command_only (C := [0x1f, 0x10021, 0xd0001]) (F := [.mbx, .front, .buckets, .folded]) (G := [.replies, .out]) ?_ ?_ ..))
    | dsimp only
    | split)

theorem execCamSnap_within (h : Hdr) (port : Nat) (s : State) {s' : State} (hn : execCamSnap h port s = .next s') :
    s.Within [0x1F, A.cfg_changes.code] [.mbx, .front, .buckets, .folded, .cams] [.replies] s' := by
  unfold execCamSnap at hn
  refine State.within_command (G := [.replies]) hn (fun ms d k => ?_) (by decide) (by decide)
  try simp only
  repeat' (first
    | with_reducible apply Hw.Only.refl
    | decide
    | (with_reducible apply Hw.Only.ite <;> intro _)
    | (with_reducible apply Hw.Only.ite2 <;> intro _)
    | (intro (_ : Hw); intro _)
    | (intro (_ : Hw))
    | (with_reducible apply Hw.Only.step ?_ (Hw.onCam_only ..))
    | (with_reducible apply Hw.Only.step ?_ (refuse_only ..))
    | (with_reducible apply Hw.Only.step ?_ (okWith_only ..))
    | (with_reducible apply Hw.Only.step ?_ (Hw.command_only (C := [0x1f, 0x10021]) (F := [.mbx, .front, .buckets, .folded, .cams]) (G := [.replies, .out]) ?_ ?_ ..))
    | dsimp only
    | split)

theorem execCamRelease_within (h : Hdr) (port slots : Nat) (s : State) {s' : State} (hn : execCamRelease h port slots s = .next s') :
    s.Within [0x1F, A.cfg_changes.code, A.slot_state.code] [.mbx, .front, .buckets, .folded] [.replies] s' := by
  unfold execCamRelease at hn
  refine State.within_command (G := [.replies]) hn (fun ms d k => ?_) (by decide) (by decide)
  try simp only
  repeat' (first
    | with_reducible apply Hw.Only.refl
    | decide
    | (with_reducible apply Hw.Only.ite <;> intro _)
    | (with_reducible apply Hw.Only.ite2 <;> intro _)
    | (with_reducible apply Hw.Only.foldl)
    | (intro (_ : Hw); intro _)
    | (intro (_ : Hw))
    | (with_reducible apply Hw.Only.foldlP)
    | (intro (_ : _ × Hw); intro _)
    | (with_reducible apply Hw.Only.step ?_ (Hw.setSlot_only ..))
    | (with_reducible apply Hw.Only.step ?_ (refuse_only ..))
    | (with_reducible apply Hw.Only.step ?_ (okWith_only ..))
    | (with_reducible apply Hw.Only.step ?_ (Hw.command_only (C := [0x1f, 0x10021, 0xd0012]) (F := [.mbx, .front, .buckets, .folded]) (G := [.replies, .out]) ?_ ?_ ..))
    | dsimp only
    | split)

theorem execCamApply_within (h : Hdr) (port set frame : Nat) (s : State) {s' : State} (hn : execCamApply h port set frame s = .next s') :
    s.Within [0x1F, A.cfg_changes.code] [.mbx, .front, .buckets, .folded, .cams] [.nextId, .replies, .pkg] s' := by
  unfold execCamApply at hn
  refine State.within_command (G := [.nextId, .replies, .pkg]) hn (fun ms d k => ?_) (by decide) (by decide)
  try simp only
  repeat' (first
    | with_reducible apply Hw.Only.refl
    | decide
    | (with_reducible apply Hw.Only.ite <;> intro _)
    | (with_reducible apply Hw.Only.ite2 <;> intro _)
    | (with_reducible apply Hw.Only.foldl)
    | (intro (_ : Hw); intro _)
    | (intro (_ : Hw))
    | (with_reducible apply Hw.Only.foldlP)
    | (intro (_ : _ × Hw); intro _)
    | (with_reducible apply Hw.Only.step ?_ (Hw.onCam_only ..))
    | (with_reducible apply Hw.Only.step ?_ (Hw.supersede_only ..))
    | (with_reducible apply Hw.Only.step ?_ (refuse_only ..))
    | (with_reducible apply Hw.Only.step ?_ (Hw.defer_only ..))
    | (with_reducible apply Hw.Only.step ?_ (Hw.command_only (C := [0x1f, 0x10021]) (F := [.mbx, .front, .buckets, .folded, .cams]) (G := [.nextId, .replies, .pkg, .out]) ?_ ?_ ..))
    | dsimp only
    | split
    | (apply Hw.Only.of_pair; assumption)
    | (apply Hw.Only.of_triple; assumption))

theorem execCamI2c_within (h : Hdr) (read : Bool) (port addr reg len : Nat) (data : List Byte) (s : State) {s' : State} (hn : execCamI2c h read port addr reg len data s = .next s') :
    s.Within [0x1F, A.cfg_changes.code] [.mbx, .front, .buckets, .folded, .cams] [.replies] s' := by
  unfold execCamI2c at hn
  refine State.within_commandHold (G := [.replies]) hn (fun ms d k => ?_) (by decide) (by decide)
  try simp only
  repeat' (first
    | with_reducible apply Hw.Only.refl
    | decide
    | (with_reducible apply Hw.Only.ite <;> intro _)
    | (with_reducible apply Hw.Only.ite2 <;> intro _)
    | (with_reducible apply Hw.Only.step ?_ (Hw.emit_only ..))
    | (with_reducible apply Hw.Only.step ?_ (Hw.onCam_only ..))
    | dsimp only
    | split)

theorem execCamI2cEnd_within (die cam result : Nat) (data : List Byte) (s : State) {s' : State} (hn : execCamI2cEnd die cam result data s = .next s') :
    s.Within [] [.cams] [.replies] s' := by
  unfold execCamI2cEnd at hn
  refine State.within_onUnit (G := [.replies]) hn (fun ms k => ?_)
  try simp only
  repeat' (first
    | with_reducible apply Hw.Only.refl
    | decide
    | (with_reducible apply Hw.Only.ite <;> intro _)
    | (with_reducible apply Hw.Only.ite2 <;> intro _)
    | (with_reducible apply Hw.Only.step ?_ (Hw.putReply_only ..))
    | (with_reducible apply Hw.Only.step ?_ (Hw.onCam_only ..))
    | dsimp only
    | split
    | (apply Hw.Only.of_pair; assumption)
    | (apply Hw.Only.of_triple; assumption))

/-! ### Lamps -/

theorem execChainRefresh_within (die chain : Nat) (bad : List Nat) (s : State) {s' : State} (hn : execChainRefresh die chain bad s = .next s') :
    s.Within [0x1F, A.refreshes.code, A.diag_pulses.code] [.front, .buckets, .folded, .chains, .lamps] [] s' := by
  unfold execChainRefresh at hn
  refine State.within_onUnit (G := []) hn (fun ms k => ?_)
  try simp only
  repeat' (first
    | with_reducible apply Hw.Only.refl
    | (intro D x hx; split <;> (cases x <;> first | exact absurd (by decide) hx | exact rfl))
    | (intro D x hx; cases x <;> first | exact absurd (by decide) hx | exact rfl)
    | decide
    | (with_reducible apply Hw.Only.ite <;> intro _)
    | (with_reducible apply Hw.Only.ite2 <;> intro _)
    | (with_reducible apply Hw.Only.foldl)
    | (intro (_ : Hw); intro _)
    | (intro (_ : Hw))
    | (with_reducible apply Hw.Only.foldlP)
    | (intro (_ : _ × Hw); intro _)
    | (with_reducible apply Hw.Only.step ?_ (Hw.add_only ..))
    | (with_reducible apply Hw.Only.step ?_ (Hw.emit_only ..))
    | (with_reducible apply Hw.Only.step ?_ (Hw.lampRead_only ..))
    | (with_reducible apply Hw.Only.step ?_ (Hw.onChain_only ..))
    | (with_reducible apply Hw.Only.step ?_ (Hw.onDie_only [.lamps] _ _ _ ?_))
    | dsimp only
    | split)

theorem execChainReturn_within (die chain : Nat) (inTime : Bool) (got : List Bool) (s : State) {s' : State} (hn : execChainReturn die chain inTime got s = .next s') :
    s.Within [0x1F, A.chain_state.code, A.chain_drivers.code, A.ret_errs.code, A.rx_err_reports.code] [.mbx, .front, .buckets, .folded, .chains, .lamps] [.blks, .pkg, .stores] s' := by
  unfold execChainReturn at hn
  refine State.within_onUnit (G := [.blks, .pkg, .stores]) hn (fun ms k => ?_)
  try simp only
  repeat' (first
    | with_reducible apply Hw.Only.refl
    | decide
    | (with_reducible apply Hw.Only.ite <;> intro _)
    | (with_reducible apply Hw.Only.ite2 <;> intro _)
    | (with_reducible apply Hw.Only.foldl)
    | (intro (_ : Hw); intro _)
    | (intro (_ : Hw))
    | (with_reducible apply Hw.Only.foldlP)
    | (intro (_ : _ × Hw); intro _)
    | (with_reducible apply Hw.Only.step ?_ (Hw.enumReturn_only ..))
    | (with_reducible apply Hw.Only.step ?_ (Hw.returnError_only ..))
    | (with_reducible apply Hw.Only.step ?_ (Hw.driverStatus_only ..))
    | (with_reducible apply Hw.Only.step ?_ (Hw.chainTo_only ..))
    | (with_reducible apply Hw.Only.step ?_ (Hw.onChain_only ..))
    | dsimp only
    | split
    | (apply Hw.Only.of_pair; assumption)
    | (apply Hw.Only.of_triple; assumption))

theorem execLampWriteback_within (die chain : Nat) (s : State) {s' : State} (hn : execLampWriteback die chain s = .next s') :
    s.Within [] [] [.stores] s' := by
  unfold execLampWriteback at hn
  refine State.within_onUnit (G := [.stores]) hn (fun ms k => ?_)
  try simp only
  repeat' (first
    | with_reducible apply Hw.Only.refl
    | decide
    | (with_reducible apply Hw.Only.ite <;> intro _)
    | (with_reducible apply Hw.Only.ite2 <;> intro _)
    | (with_reducible apply Hw.Only.foldl)
    | (intro (_ : Hw); intro _)
    | (intro (_ : Hw))
    | (with_reducible apply Hw.Only.foldlP)
    | (intro (_ : _ × Hw); intro _)
    | (with_reducible apply Hw.Only.step ?_ (Hw.lampWriteback_only ..))
    | dsimp only
    | split)

theorem execChainEnable_within (h : Hdr) (chains : Nat) (s : State) {s' : State} (hn : execChainEnable h chains s = .next s') :
    s.Within [0x1F, A.cfg_changes.code, A.chain_state.code] [.mbx, .front, .buckets, .folded, .chains] [.nextId, .replies, .pkg] s' := by
  unfold execChainEnable at hn
  refine State.within_command (G := [.nextId, .replies, .pkg]) hn (fun ms d k => ?_) (by decide) (by decide)
  try simp only
  repeat' (first
    | with_reducible apply Hw.Only.refl
    | decide
    | (with_reducible apply Hw.Only.ite <;> intro _)
    | (with_reducible apply Hw.Only.ite2 <;> intro _)
    | (with_reducible apply Hw.Only.foldl)
    | (intro (_ : Hw); intro _)
    | (intro (_ : Hw))
    | (with_reducible apply Hw.Only.foldlP)
    | (intro (_ : _ × Hw); intro _)
    | (with_reducible apply Hw.Only.step ?_ (Hw.enumStart_only ..))
    | (with_reducible apply Hw.Only.step ?_ (refuse_only ..))
    | (with_reducible apply Hw.Only.step ?_ (Hw.deferWork_only ..))
    | (with_reducible apply Hw.Only.step ?_ (Hw.command_only (C := [0x1f, 0x10021, 0x100001]) (F := [.mbx, .front, .buckets, .folded, .chains]) (G := [.nextId, .replies, .pkg, .out]) ?_ ?_ ..))
    | dsimp only
    | split
    | (apply Hw.Only.of_pair; assumption)
    | (apply Hw.Only.of_triple; assumption))

theorem execChainEnum_within (h : Hdr) (chains : Nat) (s : State) {s' : State} (hn : execChainEnum h chains s = .next s') :
    s.Within [0x1F, A.cfg_changes.code, A.chain_state.code] [.mbx, .front, .buckets, .folded, .chains] [.nextId, .replies, .pkg] s' := by
  unfold execChainEnum at hn
  refine State.within_command (G := [.nextId, .replies, .pkg]) hn (fun ms d k => ?_) (by decide) (by decide)
  try simp only
  repeat' (first
    | with_reducible apply Hw.Only.refl
    | decide
    | (with_reducible apply Hw.Only.ite <;> intro _)
    | (with_reducible apply Hw.Only.ite2 <;> intro _)
    | (with_reducible apply Hw.Only.foldl)
    | (intro (_ : Hw); intro _)
    | (intro (_ : Hw))
    | (with_reducible apply Hw.Only.foldlP)
    | (intro (_ : _ × Hw); intro _)
    | (with_reducible apply Hw.Only.step ?_ (Hw.enumStart_only ..))
    | (with_reducible apply Hw.Only.step ?_ (refuse_only ..))
    | (with_reducible apply Hw.Only.step ?_ (Hw.deferWork_only ..))
    | (with_reducible apply Hw.Only.step ?_ (Hw.command_only (C := [0x1f, 0x10021, 0x100001]) (F := [.mbx, .front, .buckets, .folded, .chains]) (G := [.nextId, .replies, .pkg, .out]) ?_ ?_ ..))
    | dsimp only
    | split
    | (apply Hw.Only.of_pair; assumption)
    | (apply Hw.Only.of_triple; assumption))

theorem execChainDisable_within (h : Hdr) (chains : Nat) (s : State) {s' : State} (hn : execChainDisable h chains s = .next s') :
    s.Within [0x1F, A.cfg_changes.code, A.chain_state.code] [.mbx, .front, .buckets, .folded, .chains, .lamps] [.replies, .pkg] s' := by
  unfold execChainDisable at hn
  refine State.within_command (G := [.replies, .pkg]) hn (fun ms d k => ?_) (by decide) (by decide)
  try simp only
  repeat' (first
    | with_reducible apply Hw.Only.refl
    | decide
    | (with_reducible apply Hw.Only.ite <;> intro _)
    | (with_reducible apply Hw.Only.ite2 <;> intro _)
    | (with_reducible apply Hw.Only.foldl)
    | (intro (_ : Hw); intro _)
    | (intro (_ : Hw))
    | (with_reducible apply Hw.Only.foldlP)
    | (intro (_ : _ × Hw); intro _)
    | (with_reducible apply Hw.Only.step ?_ (Hw.chainOff_only ..))
    | (with_reducible apply Hw.Only.step ?_ (refuse_only ..))
    | (with_reducible apply Hw.Only.step ?_ (okWith_only ..))
    | (with_reducible apply Hw.Only.step ?_ (Hw.command_only (C := [0x1f, 0x10021, 0x100001]) (F := [.mbx, .front, .buckets, .folded, .chains, .lamps]) (G := [.replies, .pkg, .out]) ?_ ?_ ..))
    | dsimp only
    | split)

theorem execLampInvalidate_within (h : Hdr) (first count : Nat) (s : State) {s' : State} (hn : execLampInvalidate h first count s = .next s') :
    s.Within [0x1F, A.cfg_changes.code] [.mbx, .front, .buckets, .folded, .chains] [.replies] s' := by
  unfold execLampInvalidate at hn
  refine State.within_command (G := [.replies]) hn (fun ms d k => ?_) (by decide) (by decide)
  try simp only
  repeat' (first
    | with_reducible apply Hw.Only.refl
    | decide
    | (with_reducible apply Hw.Only.ite <;> intro _)
    | (with_reducible apply Hw.Only.ite2 <;> intro _)
    | (with_reducible apply Hw.Only.foldl)
    | (intro (_ : Hw); intro _)
    | (intro (_ : Hw))
    | (with_reducible apply Hw.Only.foldlP)
    | (intro (_ : _ × Hw); intro _)
    | (with_reducible apply Hw.Only.step ?_ (Hw.onChain_only ..))
    | (with_reducible apply Hw.Only.step ?_ (refuse_only ..))
    | (with_reducible apply Hw.Only.step ?_ (okWith_only ..))
    | (with_reducible apply Hw.Only.step ?_ (Hw.command_only (C := [0x1f, 0x10021]) (F := [.mbx, .front, .buckets, .folded, .chains]) (G := [.replies, .out]) ?_ ?_ ..))
    | dsimp only
    | split)

theorem execLampCtrlClear_within (h : Hdr) (chain first count : Nat) (s : State) {s' : State} (hn : execLampCtrlClear h chain first count s = .next s') :
    s.Within [0x1F, A.cfg_changes.code] [.mbx, .front, .buckets, .folded, .chains] [.replies] s' := by
  unfold execLampCtrlClear at hn
  refine State.within_command (G := [.replies]) hn (fun ms d k => ?_) (by decide) (by decide)
  try simp only
  repeat' (first
    | with_reducible apply Hw.Only.refl
    | decide
    | (intro (_ : Hw); intro _)
    | (intro (_ : Hw))
    | (with_reducible apply Hw.Only.step ?_ (Hw.onChain_only ..))
    | (with_reducible apply Hw.Only.step ?_ (refuse_only ..))
    | (with_reducible apply Hw.Only.step ?_ (okWith_only ..))
    | (with_reducible apply Hw.Only.step ?_ (Hw.command_only (C := [0x1f, 0x10021]) (F := [.mbx, .front, .buckets, .folded, .chains]) (G := [.replies, .out]) ?_ ?_ ..))
    | dsimp only
    | split
    | (apply Hw.Only.of_pair; assumption)
    | (apply Hw.Only.of_triple; assumption))

theorem execLampCtrlDiag_within (h : Hdr) (chain mask first count : Nat) (s : State) {s' : State} (hn : execLampCtrlDiag h chain mask first count s = .next s') :
    s.Within [0x1F, A.cfg_changes.code] [.mbx, .front, .buckets, .folded, .chains] [.replies] s' := by
  unfold execLampCtrlDiag at hn
  refine State.within_command (G := [.replies]) hn (fun ms d k => ?_) (by decide) (by decide)
  try simp only
  repeat' (first
    | with_reducible apply Hw.Only.refl
    | decide
    | (intro (_ : Hw); intro _)
    | (intro (_ : Hw))
    | (with_reducible apply Hw.Only.step ?_ (Hw.onChain_only ..))
    | (with_reducible apply Hw.Only.step ?_ (refuse_only ..))
    | (with_reducible apply Hw.Only.step ?_ (okWith_only ..))
    | (with_reducible apply Hw.Only.step ?_ (Hw.command_only (C := [0x1f, 0x10021]) (F := [.mbx, .front, .buckets, .folded, .chains]) (G := [.replies, .out]) ?_ ?_ ..))
    | dsimp only
    | split
    | (apply Hw.Only.of_pair; assumption)
    | (apply Hw.Only.of_triple; assumption))

theorem execMxStep_within (die csns diag : Nat) (s : State) {s' : State} (hn : execMxStep die csns diag s = .next s') :
    s.Within [0x1F, A.mx_state.code, A.mx_open.code, A.mx_overlaps.code, A.mx_diag_rows.code] [.front, .buckets, .folded, .mx] [.blks, .free] s' := by
  unfold execMxStep at hn
  refine State.within_onDie (G := [.blks, .free]) hn (fun ms k => ?_)
  try simp only
  repeat' (first
    | with_reducible apply Hw.Only.refl
    | (intro D x hx; split <;> (cases x <;> first | exact absurd (by decide) hx | exact rfl))
    | (intro D x hx; cases x <;> first | exact absurd (by decide) hx | exact rfl)
    | decide
    | (with_reducible apply Hw.Only.ite <;> intro _)
    | (with_reducible apply Hw.Only.ite2 <;> intro _)
    | (with_reducible apply Hw.Only.step ?_ (Hw.mxStart_only ..))
    | (with_reducible apply Hw.Only.step ?_ (Hw.mxSettle_only ..))
    | (with_reducible apply Hw.Only.step ?_ (Hw.onMx_only ..))
    | (with_reducible apply Hw.Only.step ?_ (Hw.onDie_only [] _ _ _ ?_))
    | dsimp only
    | split)

theorem execMxStart_within (h : Hdr) (s : State) {s' : State} (hn : execMxStart h s = .next s') :
    s.Within [0x1F, A.cfg_changes.code, A.mx_state.code, A.mx_open.code, A.mx_diag_rows.code] [.mbx, .front, .buckets, .folded, .mx] [.free, .replies] s' := by
  unfold execMxStart at hn
  refine State.within_command (G := [.free, .replies]) hn (fun ms d k => ?_) (by decide) (by decide)
  try simp only
  repeat' (first
    | with_reducible apply Hw.Only.refl
    | decide
    | (with_reducible apply Hw.Only.ite <;> intro _)
    | (with_reducible apply Hw.Only.ite2 <;> intro _)
    | (intro (_ : Hw); intro _)
    | (intro (_ : Hw))
    | (with_reducible apply Hw.Only.step ?_ (Hw.wr_only ..))
    | (with_reducible apply Hw.Only.step ?_ (Hw.mxSettle_only ..))
    | (with_reducible apply Hw.Only.step ?_ (Hw.onMx_only ..))
    | (with_reducible apply Hw.Only.step ?_ (refuse_only ..))
    | (with_reducible apply Hw.Only.step ?_ (okWith_only ..))
    | (with_reducible apply Hw.Only.step ?_ (Hw.command_only (C := [0x1f, 0x10021, 0x120001, 0x120012, 0x120021]) (F := [.mbx, .front, .buckets, .folded, .mx]) (G := [.free, .replies, .out]) ?_ ?_ ..))
    | dsimp only
    | split)

theorem execMxStop_within (h : Hdr) (s : State) {s' : State} (hn : execMxStop h s = .next s') :
    s.Within [0x1F, A.cfg_changes.code, A.mx_state.code, A.mx_open.code, A.mx_diag_rows.code] [.mbx, .front, .buckets, .folded, .mx] [.free, .replies] s' := by
  unfold execMxStop at hn
  refine State.within_command (G := [.free, .replies]) hn (fun ms d k => ?_) (by decide) (by decide)
  try simp only
  repeat' (first
    | with_reducible apply Hw.Only.refl
    | decide
    | (with_reducible apply Hw.Only.ite <;> intro _)
    | (with_reducible apply Hw.Only.ite2 <;> intro _)
    | (intro (_ : Hw); intro _)
    | (intro (_ : Hw))
    | (with_reducible apply Hw.Only.step ?_ (Hw.wr_only ..))
    | (with_reducible apply Hw.Only.step ?_ (Hw.mxSettle_only ..))
    | (with_reducible apply Hw.Only.step ?_ (Hw.onMx_only ..))
    | (with_reducible apply Hw.Only.step ?_ (refuse_only ..))
    | (with_reducible apply Hw.Only.step ?_ (okWith_only ..))
    | (with_reducible apply Hw.Only.step ?_ (Hw.command_only (C := [0x1f, 0x10021, 0x120001, 0x120012, 0x120021]) (F := [.mbx, .front, .buckets, .folded, .mx]) (G := [.free, .replies, .out]) ?_ ?_ ..))
    | dsimp only
    | split
    | (apply Hw.Only.of_pair; assumption)
    | (apply Hw.Only.of_triple; assumption))

/-! ### Colour -/

theorem execPulseOutputMatch_within (die out : Nat) (s : State) {s' : State} (hn : execPulseOutputMatch die out s = .next s') :
    s.Within [0x1F, A.trig_miss.code, A.mx_state.code, A.mx_open.code, A.mx_overlaps.code, A.mx_diag_rows.code, A.gain_k.code, A.po_state.code, A.po_next.code, A.po_pulses.code] [.front, .buckets, .folded, .tbs, .pulses, .cams, .mx] [.blks, .clk, .free, .pkg] s' := by
  unfold execPulseOutputMatch at hn
  refine State.within_onUnit (G := [.blks, .clk, .free, .pkg]) hn (fun ms k => ?_)
  try simp only
  repeat' (first
    | with_reducible apply Hw.Only.refl
    | decide
    | (with_reducible apply Hw.Only.ite <;> intro _)
    | (with_reducible apply Hw.Only.ite2 <;> intro _)
    | (with_reducible apply Hw.Only.step ?_ (Hw.chPulse_only ..))
    | (with_reducible apply Hw.Only.step ?_ (Hw.pulseMatch_only ..))
    | dsimp only
    | split)

/-! ### Objects -/

theorem execObjSet_within (h : Hdr) (obj : ObjRef) (value : Nat) (line : Option LineRef) (s : State) {s' : State} (hn : execObjSet h obj value line s = .next s') :
    s.Within [0] [.mbx, .front, .buckets, .folded, .tbChanges, .ptp, .enc, .pos, .ports, .changes, .pulses] [.nextId, .replies, .pkg] s' := by
  unfold execObjSet at hn
  refine State.within_command (G := [.nextId, .replies, .pkg]) hn (fun ms d k => ?_) (by decide) (by decide)
  try simp only
  repeat' (first
    | with_reducible apply Hw.Only.refl
    | decide
    | (intro (_ : Hw); intro _)
    | (intro (_ : Hw))
    | (with_reducible apply Hw.Only.step ?_ (objSetBody_only ..))
    | (with_reducible apply Hw.Only.step ?_ (Hw.command_only (C := [0x0]) (F := [.mbx, .front, .buckets, .folded, .tbChanges, .ptp, .enc, .pos, .ports, .changes, .pulses]) (G := [.nextId, .replies, .pkg, .out]) ?_ ?_ ..))
    | dsimp only
    | split)

theorem execObjGet_within (h : Hdr) (obj : ObjRef) (s : State) {s' : State} (hn : execObjGet h obj s = .next s') :
    s.Within [0] [.mbx, .front, .buckets, .folded] [.replies] s' := by
  unfold execObjGet at hn
  refine State.within_command (G := [.replies]) hn (fun ms d k => ?_) (by decide) (by decide)
  try simp only
  repeat' (first
    | with_reducible apply Hw.Only.refl
    | decide
    | (with_reducible apply Hw.Only.ite <;> intro _)
    | (with_reducible apply Hw.Only.ite2 <;> intro _)
    | (intro (_ : Hw); intro _)
    | (intro (_ : Hw))
    | (with_reducible apply Hw.Only.step ?_ (Hw.getScalar_only ..))
    | (with_reducible apply Hw.Only.step ?_ (refuse_only ..))
    | (with_reducible apply Hw.Only.step ?_ (Hw.command_only (C := [0x0]) (F := [.mbx, .front, .buckets, .folded]) (G := [.replies, .out]) ?_ ?_ ..))
    | dsimp only
    | split
    | (apply Hw.Only.of_pair; assumption)
    | (apply Hw.Only.of_triple; assumption))

theorem execObjGetBlock_within (h : Hdr) (obj : ObjRef) (off len : Nat) (s : State) {s' : State} (hn : execObjGetBlock h obj off len s = .next s') :
    s.Within [0x1F, A.cfg_changes.code] [.mbx, .front, .buckets, .folded] [.replies] s' := by
  unfold execObjGetBlock at hn
  refine State.within_command (G := [.replies]) hn (fun ms d k => ?_) (by decide) (by decide)
  try simp only
  repeat' (first
    | with_reducible apply Hw.Only.refl
    | decide
    | (with_reducible apply Hw.Only.ite <;> intro _)
    | (with_reducible apply Hw.Only.ite2 <;> intro _)
    | (intro (_ : Hw); intro _)
    | (intro (_ : Hw))
    | (with_reducible apply Hw.Only.step ?_ (refuse_only ..))
    | (with_reducible apply Hw.Only.step ?_ (Hw.command_only (C := [0x1f, 0x10021]) (F := [.mbx, .front, .buckets, .folded]) (G := [.replies, .out]) ?_ ?_ ..))
    | dsimp only
    | split
    | (apply Hw.Only.of_pair; assumption)
    | (apply Hw.Only.of_triple; assumption))

theorem execObjSetBlock_within (h : Hdr) (obj : ObjRef) (commit : Bool) (line : Option LineRef) (off : Nat) (data : List Byte) (s : State) {s' : State} (hn : execObjSetBlock h obj commit line off data s = .next s') :
    s.Within [0x1F, A.cfg_changes.code, A.cfg_gen.code, A.bar_state.code, A.sys_role.code, A.master_serial.code, A.upstream.code, A.cal_state.code] [.mbx, .front, .buckets, .folded, .itv, .nvTables, .nvWait] [.blks, .stages, .replies, .pkg, .tunnels] s' := by
  unfold execObjSetBlock at hn
  refine State.within_command (G := [.blks, .stages, .replies, .pkg, .tunnels]) hn (fun ms d k => ?_) (by decide) (by decide)
  try simp only
  repeat' (first
    | with_reducible apply Hw.Only.refl
    | decide
    | (intro (_ : Hw); intro _)
    | (intro (_ : Hw))
    | (with_reducible apply Hw.Only.step ?_ (objSetBlockBody_only ..))
    | (with_reducible apply Hw.Only.step ?_ (Hw.command_only (C := [0x1f, 0x10021, 0xe0002, 0x130001, 0x1a0001, 0x1a0008, 0x1a0011, 0x1d0001]) (F := [.mbx, .front, .buckets, .folded, .itv, .nvTables, .nvWait]) (G := [.blks, .stages, .replies, .pkg, .tunnels, .out]) ?_ ?_ ..))
    | dsimp only
    | split)

theorem execStageDiscard_within (die : Nat) (obj : ObjRef) (s : State) {s' : State} (hn : execStageDiscard die obj s = .next s') :
    s.Within [0x1F, A.cfg_changes.code] [.front, .buckets, .folded] [.stages] s' := by
  unfold execStageDiscard at hn
  refine State.within_onDie (G := [.stages]) hn (fun ms k => ?_)
  try simp only
  repeat' (first
    | with_reducible apply Hw.Only.refl
    | (intro D x hx; cases x <;> first | exact absurd (by decide) hx | exact rfl)
    | decide
    | (with_reducible apply Hw.Only.step ?_ (Hw.event_only ..))
    | (with_reducible apply Hw.Only.step ?_ (Hw.onDie_only [] _ _ _ ?_))
    | dsimp only
    | split
    | (apply Hw.Only.of_pair; assumption)
    | (apply Hw.Only.of_triple; assumption)
    | (with_reducible apply Hw.Only.step ?_ (Hw.with_stages ..)))

/-! ### ColourHold -/

theorem execChPageEvaluate_within (s : State) {s' : State} (hn : execChPageEvaluate s = .next s') :
    s.Within [0] [.mbx, .queues, .front, .buckets, .folded, .tbChanges, .ptp, .itv, .enc, .pos, .ports, .changes, .banks, .bankFrom, .nvTables, .nvWait, .lineFaults, .pulses] [.blks, .stages, .nextId, .pkg, .eps, .tunnels, .gh] s' := by
  unfold execChPageEvaluate at hn
  refine State.within_onPkg (G := [.blks, .stages, .nextId, .pkg, .eps, .tunnels, .gh]) hn (fun ms k => ?_)
  try simp only
  repeat' (first
    | with_reducible apply Hw.Only.refl
    | (intro D x hx; split <;> (cases x <;> first | exact absurd (by decide) hx | exact rfl))
    | (intro D x hx; cases x <;> first | exact absurd (by decide) hx | exact rfl)
    | decide
    | (with_reducible apply Hw.Only.ite <;> intro _)
    | (with_reducible apply Hw.Only.ite2 <;> intro _)
    | (with_reducible apply Hw.Only.step ?_ (Hw.add_only ..))
    | (with_reducible apply Hw.Only.step ?_ (Hw.pageEval_only ..))
    | (with_reducible apply Hw.Only.step ?_ (Hw.bandCheck_only ..))
    | (with_reducible apply Hw.Only.step ?_ (Hw.chCollect_only ..))
    | (with_reducible apply Hw.Only.step ?_ (Hw.onCh_only ..))
    | dsimp only
    | split
    | (apply Hw.Only.of_pair; assumption)
    | (apply Hw.Only.of_triple; assumption)
    | (with_reducible apply Hw.Only.step ?_ (Hw.allDies_only [.lineFaults] _ _ ?_)))

theorem execChStart_within (h : Hdr) (ctx bars : Nat) (s : State) {s' : State} (hn : execChStart h ctx bars s = .next s') :
    s.Within [0x1F, A.cfg_changes.code, A.mx_state.code, A.bar_state.code, A.bar_band.code, A.nozzles_dead.code] [.mbx, .front, .buckets, .folded, .mx] [.replies, .pkg] s' := by
  unfold execChStart at hn
  refine State.within_command (G := [.replies, .pkg]) hn (fun ms d k => ?_) (by decide) (by decide)
  try simp only
  repeat' (first
    | with_reducible apply Hw.Only.refl
    | decide
    | (with_reducible apply Hw.Only.ite <;> intro _)
    | (with_reducible apply Hw.Only.ite2 <;> intro _)
    | (with_reducible apply Hw.Only.foldl)
    | (intro (_ : Hw); intro _)
    | (intro (_ : Hw))
    | (with_reducible apply Hw.Only.foldlP)
    | (intro (_ : _ × Hw); intro _)
    | (with_reducible apply Hw.Only.step ?_ (Hw.wr_only ..))
    | (with_reducible apply Hw.Only.step ?_ (Hw.chAcquired_only ..))
    | (with_reducible apply Hw.Only.step ?_ (Hw.chAlign_only ..))
    | (with_reducible apply Hw.Only.step ?_ (Hw.onBar_only ..))
    | (with_reducible apply Hw.Only.step ?_ (Hw.onCh_only ..))
    | (with_reducible apply Hw.Only.step ?_ (Hw.chTo_only ..))
    | (with_reducible apply Hw.Only.step ?_ (refuse_only ..))
    | (with_reducible apply Hw.Only.step ?_ (okWith_only ..))
    | (with_reducible apply Hw.Only.step ?_ (Hw.command_only (C := [0x1f, 0x10021, 0x120001, 0x130001, 0x130002, 0x130027]) (F := [.mbx, .front, .buckets, .folded, .mx]) (G := [.replies, .pkg, .out]) ?_ ?_ ..))
    | dsimp only
    | split)

theorem execChStop_within (h : Hdr) (bars : Nat) (s : State) {s' : State} (hn : execChStop h bars s = .next s') :
    s.Within [0x1F, A.cfg_changes.code, A.bar_state.code] [.mbx, .front, .buckets, .folded] [.replies] s' := by
  unfold execChStop at hn
  unfold chCommand at hn
  refine State.within_command (G := [.replies]) hn (fun ms d k => ?_) (by decide) (by decide)
  try simp only
  repeat' (first
    | with_reducible apply Hw.Only.refl
    | decide
    | (with_reducible apply Hw.Only.ite <;> intro _)
    | (with_reducible apply Hw.Only.ite2 <;> intro _)
    | (with_reducible apply Hw.Only.foldl)
    | (intro (_ : Hw); intro _)
    | (intro (_ : Hw))
    | (with_reducible apply Hw.Only.foldlP)
    | (intro (_ : _ × Hw); intro _)
    | (with_reducible apply Hw.Only.step ?_ (Hw.chTo_only ..))
    | (with_reducible apply Hw.Only.step ?_ (refuse_only ..))
    | (with_reducible apply Hw.Only.step ?_ (okWith_only ..))
    | (with_reducible apply Hw.Only.step ?_ (Hw.command_only (C := [0x1f, 0x10021, 0x130001]) (F := [.mbx, .front, .buckets, .folded]) (G := [.replies, .out]) ?_ ?_ ..))
    | dsimp only
    | split)

theorem execChFreeze_within (h : Hdr) (bars : Nat) (s : State) {s' : State} (hn : execChFreeze h bars s = .next s') :
    s.Within [0x1F, A.cfg_changes.code, A.bar_state.code] [.mbx, .front, .buckets, .folded] [.replies, .pkg] s' := by
  unfold execChFreeze at hn
  unfold chCommand at hn
  refine State.within_command (G := [.replies, .pkg]) hn (fun ms d k => ?_) (by decide) (by decide)
  try simp only
  repeat' (first
    | with_reducible apply Hw.Only.refl
    | decide
    | (with_reducible apply Hw.Only.ite <;> intro _)
    | (with_reducible apply Hw.Only.ite2 <;> intro _)
    | (with_reducible apply Hw.Only.foldl)
    | (intro (_ : Hw); intro _)
    | (intro (_ : Hw))
    | (with_reducible apply Hw.Only.foldlP)
    | (intro (_ : _ × Hw); intro _)
    | (with_reducible apply Hw.Only.step ?_ (Hw.onBar_only ..))
    | (with_reducible apply Hw.Only.step ?_ (Hw.chTo_only ..))
    | (with_reducible apply Hw.Only.step ?_ (refuse_only ..))
    | (with_reducible apply Hw.Only.step ?_ (okWith_only ..))
    | (with_reducible apply Hw.Only.step ?_ (Hw.command_only (C := [0x1f, 0x10021, 0x130001]) (F := [.mbx, .front, .buckets, .folded]) (G := [.replies, .pkg, .out]) ?_ ?_ ..))
    | dsimp only
    | split)

theorem execChResume_within (h : Hdr) (bars : Nat) (s : State) {s' : State} (hn : execChResume h bars s = .next s') :
    s.Within [0x1F, A.cfg_changes.code, A.bar_state.code] [.mbx, .front, .buckets, .folded] [.replies, .pkg] s' := by
  unfold execChResume at hn
  unfold chCommand at hn
  refine State.within_command (G := [.replies, .pkg]) hn (fun ms d k => ?_) (by decide) (by decide)
  try simp only
  repeat' (first
    | with_reducible apply Hw.Only.refl
    | decide
    | (with_reducible apply Hw.Only.ite <;> intro _)
    | (with_reducible apply Hw.Only.ite2 <;> intro _)
    | (with_reducible apply Hw.Only.foldl)
    | (intro (_ : Hw); intro _)
    | (intro (_ : Hw))
    | (with_reducible apply Hw.Only.foldlP)
    | (intro (_ : _ × Hw); intro _)
    | (with_reducible apply Hw.Only.step ?_ (Hw.chRelease_only ..))
    | (with_reducible apply Hw.Only.step ?_ (Hw.onBar_only ..))
    | (with_reducible apply Hw.Only.step ?_ (refuse_only ..))
    | (with_reducible apply Hw.Only.step ?_ (okWith_only ..))
    | (with_reducible apply Hw.Only.step ?_ (Hw.command_only (C := [0x1f, 0x10021, 0x130001]) (F := [.mbx, .front, .buckets, .folded]) (G := [.replies, .pkg, .out]) ?_ ?_ ..))
    | dsimp only
    | split)

theorem execChCaptureRef_within (h : Hdr) (bars : Nat) (s : State) {s' : State} (hn : execChCaptureRef h bars s = .next s') :
    s.Within [0x1F, A.cfg_changes.code, A.bar_state.code] [.mbx, .front, .buckets, .folded] [.replies, .pkg] s' := by
  unfold execChCaptureRef at hn
  unfold chCommand at hn
  refine State.within_command (G := [.replies, .pkg]) hn (fun ms d k => ?_) (by decide) (by decide)
  try simp only
  repeat' (first
    | with_reducible apply Hw.Only.refl
    | decide
    | (with_reducible apply Hw.Only.ite <;> intro _)
    | (with_reducible apply Hw.Only.ite2 <;> intro _)
    | (with_reducible apply Hw.Only.foldl)
    | (intro (_ : Hw); intro _)
    | (intro (_ : Hw))
    | (with_reducible apply Hw.Only.foldlP)
    | (intro (_ : _ × Hw); intro _)
    | (with_reducible apply Hw.Only.step ?_ (Hw.onBar_only ..))
    | (with_reducible apply Hw.Only.step ?_ (Hw.chTo_only ..))
    | (with_reducible apply Hw.Only.step ?_ (refuse_only ..))
    | (with_reducible apply Hw.Only.step ?_ (okWith_only ..))
    | (with_reducible apply Hw.Only.step ?_ (Hw.command_only (C := [0x1f, 0x10021, 0x130001]) (F := [.mbx, .front, .buckets, .folded]) (G := [.replies, .pkg, .out]) ?_ ?_ ..))
    | dsimp only
    | split)

theorem execChStatus_within (h : Hdr) (bar : Nat) (s : State) {s' : State} (hn : execChStatus h bar s = .next s') :
    s.Within [0x1F, A.cfg_changes.code] [.mbx, .front, .buckets, .folded] [.replies] s' := by
  unfold execChStatus at hn
  refine State.within_command (G := [.replies]) hn (fun ms d k => ?_) (by decide) (by decide)
  try simp only
  repeat' (first
    | with_reducible apply Hw.Only.refl
    | decide
    | (with_reducible apply Hw.Only.ite <;> intro _)
    | (with_reducible apply Hw.Only.ite2 <;> intro _)
    | (intro (_ : Hw); intro _)
    | (intro (_ : Hw))
    | (with_reducible apply Hw.Only.step ?_ (refuse_only ..))
    | (with_reducible apply Hw.Only.step ?_ (Hw.command_only (C := [0x1f, 0x10021]) (F := [.mbx, .front, .buckets, .folded]) (G := [.replies, .out]) ?_ ?_ ..))
    | dsimp only
    | split)

/-! ### Thermal -/

theorem execHousekeepingRound_within (die t : Nat) (raws : List Nat) (vals : List Int) (s : State) {s' : State} (hn : execHousekeepingRound die t raws vals s = .next s') :
    s.Within [0x1F, A.min_fire_period_ns.code, A.stop_phase.code, A.stop_cause.code, A.stops.code, A.sn_kind.code, A.sn_value.code, A.sn_raw.code, A.sn_state.code, A.sn_flags.code, A.sn_tb1.code, A.sn_max.code, A.sn_min.code, A.rounds.code, A.throttle.code, A.tj_max.code, A.tj_mean.code, A.speed_lim_req.code, A.nv_write_ok.code, A.cal_state.code, A.quality.code, A.quality_tb1.code, A.cal_unsaved.code] [.front, .buckets, .folded, .tbs, .ctxs, .stop, .sensors, .crit, .cals, .nvTables, .nvWait] [.clk, .free, .fwKept, .hsPins] s' := by
  unfold execHousekeepingRound at hn
  refine State.within_onDie (G := [.clk, .free, .fwKept, .hsPins]) hn (fun ms k => ?_)
  try simp only
  repeat' (first
    | with_reducible apply Hw.Only.refl
    | (intro D x hx; cases x <;> first | exact absurd (by decide) hx | exact rfl)
    | decide
    | (with_reducible apply Hw.Only.ite <;> intro _)
    | (with_reducible apply Hw.Only.ite2 <;> intro _)
    | (with_reducible apply Hw.Only.foldl)
    | (intro (_ : Hw); intro _)
    | (intro (_ : Hw))
    | (with_reducible apply Hw.Only.foldlP)
    | (intro (_ : _ × Hw); intro _)
    | (with_reducible apply Hw.Only.step ?_ (Hw.add_only ..))
    | (with_reducible apply Hw.Only.step ?_ (Hw.calRound_only ..))
    | (with_reducible apply Hw.Only.step ?_ (Hw.adcRound_only ..))
    | (with_reducible apply Hw.Only.step ?_ (Hw.nvRound_only ..))
    | (with_reducible apply Hw.Only.step ?_ (Hw.criticalRound_only ..))
    | (with_reducible apply Hw.Only.step ?_ (Hw.tjRound_only ..))
    | (with_reducible apply Hw.Only.step ?_ (Hw.speedRound_only ..))
    | (with_reducible apply Hw.Only.step ?_ (Hw.throttleRound_only ..))
    | (with_reducible apply Hw.Only.step ?_ (Hw.voltRead_only ..))
    | (with_reducible apply Hw.Only.step ?_ (Hw.thermRead_only ..))
    | (with_reducible apply Hw.Only.step ?_ (Hw.until_only ..))
    | (with_reducible apply Hw.Only.step ?_ (Hw.onDie_only [] _ _ _ ?_))
    | dsimp only
    | split)

theorem execCriticalShutdown_within (die : Nat) (s : State) {s' : State} (hn : execCriticalShutdown die s = .next s') :
    s.Within [0] [.mbx, .queues, .front, .buckets, .folded, .tbs, .ptp, .itv, .up, .enc, .pos, .hwmOn, .leaving, .ports, .spits, .changes, .banks, .bankFrom, .codec, .ctxs, .ctxCache, .streams, .stop, .cams, .ispRun, .chains, .lamps, .mx, .crit, .lineFaults] [.blks, .stages, .clk, .replies, .lead, .leadSt, .takeover, .kennelWriting, .faultMask, .eps, .hsPins, .stores, .wipes] s' := by
  unfold execCriticalShutdown at hn
  refine State.within_onDie (G := [.blks, .stages, .clk, .replies, .lead, .leadSt, .takeover, .kennelWriting, .faultMask, .eps, .hsPins, .stores, .wipes]) hn (fun ms k => ?_)
  try simp only
  repeat' (first
    | with_reducible apply Hw.Only.refl
    | (intro D x hx; cases x <;> first | exact absurd (by decide) hx | exact rfl)
    | decide
    | (with_reducible apply Hw.Only.ite <;> intro _)
    | (with_reducible apply Hw.Only.ite2 <;> intro _)
    | (with_reducible apply Hw.Only.foldl)
    | (intro (_ : Hw); intro _)
    | (intro (_ : Hw))
    | (with_reducible apply Hw.Only.foldlP)
    | (intro (_ : _ × Hw); intro _)
    | (with_reducible apply Hw.Only.step ?_ (Hw.wr_only ..))
    | (with_reducible apply Hw.Only.step ?_ (Hw.domainsOff_only ..))
    | (with_reducible apply Hw.Only.step ?_ (Hw.portOff_only ..))
    | (with_reducible apply Hw.Only.step ?_ (Hw.standstill_only ..))
    | (with_reducible apply Hw.Only.step ?_ (Hw.tick_only ..))
    | (with_reducible apply Hw.Only.step ?_ (Hw.onDie_only [.crit] _ _ _ ?_))
    | dsimp only
    | split
    | (apply Hw.Only.of_pair; assumption)
    | (apply Hw.Only.of_triple; assumption))

theorem execThermTrip_within (die sensor t : Nat) (s : State) {s' : State} (hn : execThermTrip die sensor t s = .next s') :
    s.Within [0] [.mbx, .queues, .front, .buckets, .folded, .tbs, .ptp, .itv, .up, .enc, .pos, .hwmOn, .leaving, .ports, .spits, .changes, .banks, .bankFrom, .codec, .ctxs, .ctxCache, .streams, .stop, .cams, .ispRun, .chains, .lamps, .mx, .crit, .lineFaults] [.blks, .stages, .clk, .lead, .leadSt, .takeover, .kennelWriting, .faultMask, .eps, .hsPins, .wipes] s' := by
  unfold execThermTrip at hn
  refine State.within_onUnit (G := [.blks, .stages, .clk, .lead, .leadSt, .takeover, .kennelWriting, .faultMask, .eps, .hsPins, .wipes]) hn (fun ms k => ?_)
  try simp only
  repeat' (first
    | with_reducible apply Hw.Only.refl
    | (intro D x hx; cases x <;> first | exact absurd (by decide) hx | exact rfl)
    | decide
    | (with_reducible apply Hw.Only.ite <;> intro _)
    | (with_reducible apply Hw.Only.ite2 <;> intro _)
    | (with_reducible apply Hw.Only.foldl)
    | (intro (_ : Hw); intro _)
    | (intro (_ : Hw))
    | (with_reducible apply Hw.Only.foldlP)
    | (intro (_ : _ × Hw); intro _)
    | (with_reducible apply Hw.Only.step ?_ (Hw.wr_only ..))
    | (with_reducible apply Hw.Only.step ?_ (Hw.add_only ..))
    | (with_reducible apply Hw.Only.step ?_ (Hw.domainsOff_only ..))
    | (with_reducible apply Hw.Only.step ?_ (Hw.disarm_only ..))
    | (with_reducible apply Hw.Only.step ?_ (Hw.stopOn_only ..))
    | (with_reducible apply Hw.Only.step ?_ (Hw.setFault_only ..))
    | (with_reducible apply Hw.Only.step ?_ (Hw.event_only ..))
    | (with_reducible apply Hw.Only.step ?_ (Hw.until_only ..))
    | (with_reducible apply Hw.Only.step ?_ (Hw.onDie_only [.crit] _ _ _ ?_))
    | dsimp only
    | split)

theorem execCalRun_within (h : Hdr) (insts : Nat) (s : State) {s' : State} (hn : execCalRun h insts s = .next s') :
    s.Within [0x1F, A.cfg_changes.code, A.cal_state.code] [.mbx, .front, .buckets, .folded, .cals] [.nextId, .replies, .pkg] s' := by
  unfold execCalRun at hn
  refine State.within_command (G := [.nextId, .replies, .pkg]) hn (fun ms d k => ?_) (by decide) (by decide)
  try simp only
  repeat' (first
    | with_reducible apply Hw.Only.refl
    | decide
    | (with_reducible apply Hw.Only.ite <;> intro _)
    | (with_reducible apply Hw.Only.ite2 <;> intro _)
    | (with_reducible apply Hw.Only.foldl)
    | (intro (_ : Hw); intro _)
    | (intro (_ : Hw))
    | (with_reducible apply Hw.Only.foldlP)
    | (intro (_ : _ × Hw); intro _)
    | (with_reducible apply Hw.Only.step ?_ (Hw.gapStart_only ..))
    | (with_reducible apply Hw.Only.step ?_ (Hw.onCal_only ..))
    | (with_reducible apply Hw.Only.step ?_ (refuse_only ..))
    | (with_reducible apply Hw.Only.step ?_ (Hw.deferWork_only ..))
    | (with_reducible apply Hw.Only.step ?_ (Hw.command_only (C := [0x1f, 0x10021, 0x1d0001]) (F := [.mbx, .front, .buckets, .folded, .cals]) (G := [.nextId, .replies, .pkg, .out]) ?_ ?_ ..))
    | dsimp only
    | split
    | (apply Hw.Only.of_pair; assumption)
    | (apply Hw.Only.of_triple; assumption))

theorem execCalRunGap_within (h : Hdr) (insts : Nat) (s : State) {s' : State} (hn : execCalRunGap h insts s = .next s') :
    s.Within [0x1F, A.cfg_changes.code, A.cal_state.code] [.mbx, .front, .buckets, .folded, .cals] [.nextId, .replies, .pkg] s' := by
  unfold execCalRunGap at hn
  refine State.within_command (G := [.nextId, .replies, .pkg]) hn (fun ms d k => ?_) (by decide) (by decide)
  try simp only
  repeat' (first
    | with_reducible apply Hw.Only.refl
    | decide
    | (with_reducible apply Hw.Only.ite <;> intro _)
    | (with_reducible apply Hw.Only.ite2 <;> intro _)
    | (with_reducible apply Hw.Only.foldl)
    | (intro (_ : Hw); intro _)
    | (intro (_ : Hw))
    | (with_reducible apply Hw.Only.foldlP)
    | (intro (_ : _ × Hw); intro _)
    | (with_reducible apply Hw.Only.step ?_ (Hw.gapStart_only ..))
    | (with_reducible apply Hw.Only.step ?_ (refuse_only ..))
    | (with_reducible apply Hw.Only.step ?_ (Hw.deferWork_only ..))
    | (with_reducible apply Hw.Only.step ?_ (Hw.command_only (C := [0x1f, 0x10021, 0x1d0001]) (F := [.mbx, .front, .buckets, .folded, .cals]) (G := [.nextId, .replies, .pkg, .out]) ?_ ?_ ..))
    | dsimp only
    | split
    | (apply Hw.Only.of_pair; assumption)
    | (apply Hw.Only.of_triple; assumption))

theorem execCalQuality_within (h : Hdr) (insts : Nat) (s : State) {s' : State} (hn : execCalQuality h insts s = .next s') :
    s.Within [0x1F, A.cfg_changes.code] [.mbx, .front, .buckets, .folded, .cals] [.nextId, .replies, .pkg] s' := by
  unfold execCalQuality at hn
  refine State.within_command (G := [.nextId, .replies, .pkg]) hn (fun ms d k => ?_) (by decide) (by decide)
  try simp only
  repeat' (first
    | with_reducible apply Hw.Only.refl
    | decide
    | (with_reducible apply Hw.Only.ite <;> intro _)
    | (with_reducible apply Hw.Only.ite2 <;> intro _)
    | (with_reducible apply Hw.Only.foldl)
    | (intro (_ : Hw); intro _)
    | (intro (_ : Hw))
    | (with_reducible apply Hw.Only.foldlP)
    | (intro (_ : _ × Hw); intro _)
    | (with_reducible apply Hw.Only.step ?_ (Hw.onCal_only ..))
    | (with_reducible apply Hw.Only.step ?_ (refuse_only ..))
    | (with_reducible apply Hw.Only.step ?_ (okWith_only ..))
    | (with_reducible apply Hw.Only.step ?_ (Hw.deferWork_only ..))
    | (with_reducible apply Hw.Only.step ?_ (Hw.settle_only ..))
    | (with_reducible apply Hw.Only.step ?_ (Hw.command_only (C := [0x1f, 0x10021]) (F := [.mbx, .front, .buckets, .folded, .cals]) (G := [.nextId, .replies, .pkg, .out]) ?_ ?_ ..))
    | dsimp only
    | split
    | (apply Hw.Only.of_pair; assumption)
    | (apply Hw.Only.of_triple; assumption))

theorem execCalAbort_within (h : Hdr) (insts : Nat) (s : State) {s' : State} (hn : execCalAbort h insts s = .next s') :
    s.Within [0x1F, A.cfg_changes.code, A.cal_state.code, A.cal_fails.code] [.mbx, .front, .buckets, .folded, .cals] [.replies, .pkg] s' := by
  unfold execCalAbort at hn
  refine State.within_command (G := [.replies, .pkg]) hn (fun ms d k => ?_) (by decide) (by decide)
  try simp only
  repeat' (first
    | with_reducible apply Hw.Only.refl
    | decide
    | (with_reducible apply Hw.Only.ite <;> intro _)
    | (with_reducible apply Hw.Only.ite2 <;> intro _)
    | (with_reducible apply Hw.Only.foldl)
    | (intro (_ : Hw); intro _)
    | (intro (_ : Hw))
    | (with_reducible apply Hw.Only.foldlP)
    | (intro (_ : _ × Hw); intro _)
    | (with_reducible apply Hw.Only.step ?_ (Hw.calFail_only ..))
    | (with_reducible apply Hw.Only.step ?_ (refuse_only ..))
    | (with_reducible apply Hw.Only.step ?_ (okWith_only ..))
    | (with_reducible apply Hw.Only.step ?_ (Hw.command_only (C := [0x1f, 0x10021, 0x1d0001, 0x1d000b]) (F := [.mbx, .front, .buckets, .folded, .cals]) (G := [.replies, .pkg, .out]) ?_ ?_ ..))
    | dsimp only
    | split
    | (apply Hw.Only.of_pair; assumption)
    | (apply Hw.Only.of_triple; assumption))

theorem execCalDone_within (die inst quality : Nat) (values : List Byte) (s : State) {s' : State} (hn : execCalDone die inst quality values s = .next s') :
    s.Within [0x1F, A.bar_state.code, A.rx_lat_ps.code, A.tx_lat_ps.code, A.cal_state.code, A.cal_runs.code, A.cal_tb0.code, A.cal_temp.code, A.quality.code, A.quality_tb1.code, A.cal_unsaved.code, A.cal_fails.code] [.mbx, .front, .buckets, .folded, .cals] [.pkg] s' := by
  unfold execCalDone at hn
  refine State.within_onUnit (G := [.pkg]) hn (fun ms k => ?_)
  try simp only
  repeat' (first
    | with_reducible apply Hw.Only.refl
    | decide
    | (with_reducible apply Hw.Only.ite <;> intro _)
    | (with_reducible apply Hw.Only.ite2 <;> intro _)
    | (with_reducible apply Hw.Only.step ?_ (Hw.wr_only ..))
    | (with_reducible apply Hw.Only.step ?_ (Hw.calSucceed_only ..))
    | (with_reducible apply Hw.Only.step ?_ (Hw.calFail_only ..))
    | (with_reducible apply Hw.Only.step ?_ (Hw.calEnd_only ..))
    | dsimp only
    | split)

theorem execCalNoGap_within (die inst : Nat) (s : State) {s' : State} (hn : execCalNoGap die inst s = .next s') :
    s.Within [0x1F, A.cal_state.code, A.cal_fails.code] [.mbx, .front, .buckets, .folded, .tbs, .cals] [.clk, .pkg] s' := by
  unfold execCalNoGap at hn
  refine State.within_onUnit (G := [.clk, .pkg]) hn (fun ms k => ?_)
  try simp only
  repeat' (first
    | with_reducible apply Hw.Only.refl
    | decide
    | (with_reducible apply Hw.Only.ite <;> intro _)
    | (with_reducible apply Hw.Only.ite2 <;> intro _)
    | (with_reducible apply Hw.Only.step ?_ (Hw.calFail_only ..))
    | (with_reducible apply Hw.Only.step ?_ (Hw.onCal_only ..))
    | (with_reducible apply Hw.Only.step ?_ (Hw.tick_only ..))
    | dsimp only
    | split)

theorem execThermStatus_within (h : Hdr) (s : State) {s' : State} (hn : execThermStatus h s = .next s') :
    s.Within [0x1F, A.cfg_changes.code] [.mbx, .front, .buckets, .folded] [.replies] s' := by
  unfold execThermStatus at hn
  refine State.within_command (G := [.replies]) hn (fun ms d k => ?_) (by decide) (by decide)
  try simp only
  repeat' (first
    | with_reducible apply Hw.Only.refl
    | decide
    | (with_reducible apply Hw.Only.ite <;> intro _)
    | (with_reducible apply Hw.Only.ite2 <;> intro _)
    | (with_reducible apply Hw.Only.foldl)
    | (intro (_ : Hw); intro _)
    | (intro (_ : Hw))
    | (with_reducible apply Hw.Only.foldlP)
    | (intro (_ : _ × Hw); intro _)
    | (with_reducible apply Hw.Only.step ?_ (Hw.command_only (C := [0x1f, 0x10021]) (F := [.mbx, .front, .buckets, .folded]) (G := [.replies, .out]) ?_ ?_ ..))
    | dsimp only
    | split)

/-! ### QueueCtl -/

theorem execQueueInvalidate_within (h : Hdr) (first count : Nat) (s : State) {s' : State} (hn : execQueueInvalidate h first count s = .next s') :
    s.Within [0x1F, A.cfg_changes.code] [.mbx, .queues, .front, .buckets, .folded] [.replies] s' := by
  unfold execQueueInvalidate at hn
  refine State.within_command (G := [.replies]) hn (fun ms d k => ?_) (by decide) (by decide)
  try simp only
  repeat' (first
    | with_reducible apply Hw.Only.refl
    | decide
    | (with_reducible apply Hw.Only.ite <;> intro _)
    | (with_reducible apply Hw.Only.ite2 <;> intro _)
    | (with_reducible apply Hw.Only.foldl)
    | (intro (_ : Hw); intro _)
    | (intro (_ : Hw))
    | (with_reducible apply Hw.Only.foldlP)
    | (intro (_ : _ × Hw); intro _)
    | (with_reducible apply Hw.Only.step ?_ (refuse_only ..))
    | (with_reducible apply Hw.Only.step ?_ (okWith_only ..))
    | (with_reducible apply Hw.Only.step ?_ (Hw.command_only (C := [0x1f, 0x10021]) (F := [.mbx, .queues, .front, .buckets, .folded]) (G := [.replies, .out]) ?_ ?_ ..))
    | (with_reducible apply Hw.Only.step ?_ (Hw.onQ_only ..))
    | dsimp only
    | split)

theorem execQueueEnable_within (h : Hdr) (first count : Nat) (bad : List Nat) (s : State) {s' : State} (hn : execQueueEnable h first count bad s = .next s') :
    s.Within [0x1F, A.cfg_changes.code, A.q_enabled.code] [.mbx, .queues, .front, .buckets, .folded] [.replies] s' := by
  unfold execQueueEnable at hn
  refine State.within_command (G := [.replies]) hn (fun ms d k => ?_) (by decide) (by decide)
  try simp only
  repeat' (first
    | with_reducible apply Hw.Only.refl
    | decide
    | (with_reducible apply Hw.Only.ite <;> intro _)
    | (with_reducible apply Hw.Only.ite2 <;> intro _)
    | (with_reducible apply Hw.Only.foldl)
    | (intro (_ : Hw); intro _)
    | (intro (_ : Hw))
    | (with_reducible apply Hw.Only.foldlP)
    | (intro (_ : _ × Hw); intro _)
    | (with_reducible apply Hw.Only.step ?_ (refuse_only ..))
    | (with_reducible apply Hw.Only.step ?_ (Hw.command_only (C := [0x1f, 0x10021, 0x20001]) (F := [.mbx, .queues, .front, .buckets, .folded]) (G := [.replies, .out]) ?_ ?_ ..))
    | (with_reducible apply Hw.Only.step ?_ (Hw.enableOne_only ..))
    | (with_reducible apply Hw.Only.step ?_ (Hw.event_only ..))
    | dsimp only
    | split
    | (apply Hw.Only.of_pair; assumption)
    | (apply Hw.Only.of_triple; assumption))

theorem execQueueDisable_within (h : Hdr) (first count : Nat) (s : State) {s' : State} (hn : execQueueDisable h first count s = .next s') :
    s.Within [0x1F, A.cfg_changes.code, A.q_enabled.code, A.q_rewinds.code] [.mbx, .queues, .front, .buckets, .folded] [.replies, .stores] s' := by
  unfold execQueueDisable at hn
  refine State.within_command (G := [.replies, .stores]) hn (fun ms d k => ?_) (by decide) (by decide)
  try simp only
  repeat' (first
    | with_reducible apply Hw.Only.refl
    | decide
    | (with_reducible apply Hw.Only.ite <;> intro _)
    | (with_reducible apply Hw.Only.ite2 <;> intro _)
    | (intro (_ : Hw); intro _)
    | (intro (_ : Hw))
    | (with_reducible apply Hw.Only.step ?_ (queueState_only (C := [0x1f, 0x10021, 0x20001, 0x20014]) (F := [.mbx, .queues, .front, .buckets, .folded]) (G := [.replies, .stores, .out]) ?_ ..))
    | (with_reducible apply Hw.Only.step ?_ (refuse_only ..))
    | (with_reducible apply Hw.Only.step ?_ (Hw.command_only (C := [0x1f, 0x10021, 0x20001, 0x20014]) (F := [.mbx, .queues, .front, .buckets, .folded]) (G := [.replies, .stores, .out]) ?_ ?_ ..))
    | (with_reducible apply Hw.Only.step ?_ (Hw.disableOne_only ..))
    | dsimp only
    | split)

theorem execQueueFlush_within (h : Hdr) (first count : Nat) (s : State) {s' : State} (hn : execQueueFlush h first count s = .next s') :
    s.Within [0x1F, A.cfg_changes.code] [.mbx, .queues, .front, .buckets, .folded] [.replies, .eps] s' := by
  unfold execQueueFlush at hn
  refine State.within_command (G := [.replies, .eps]) hn (fun ms d k => ?_) (by decide) (by decide)
  try simp only
  repeat' (first
    | with_reducible apply Hw.Only.refl
    | decide
    | (with_reducible apply Hw.Only.ite <;> intro _)
    | (with_reducible apply Hw.Only.ite2 <;> intro _)
    | (intro (_ : Hw); intro _)
    | (intro (_ : Hw))
    | (with_reducible apply Hw.Only.step ?_ (queueState_only (C := [0x1f, 0x10021]) (F := [.mbx, .queues, .front, .buckets, .folded]) (G := [.replies, .eps, .out]) ?_ ..))
    | (with_reducible apply Hw.Only.step ?_ (refuse_only ..))
    | (with_reducible apply Hw.Only.step ?_ (Hw.command_only (C := [0x1f, 0x10021]) (F := [.mbx, .queues, .front, .buckets, .folded]) (G := [.replies, .eps, .out]) ?_ ?_ ..))
    | (with_reducible apply Hw.Only.step ?_ (Hw.qWatermark_only ..))
    | (with_reducible apply Hw.Only.step ?_ (Hw.onQ_only ..))
    | dsimp only
    | split)

theorem execQueueStatus_within (h : Hdr) (q : Nat) (s : State) {s' : State} (hn : execQueueStatus h q s = .next s') :
    s.Within [0x1F, A.cfg_changes.code] [.mbx, .front, .buckets, .folded] [.replies] s' := by
  unfold execQueueStatus at hn
  refine State.within_command (G := [.replies]) hn (fun ms d k => ?_) (by decide) (by decide)
  try simp only
  repeat' (first
    | with_reducible apply Hw.Only.refl
    | decide
    | (with_reducible apply Hw.Only.ite <;> intro _)
    | (with_reducible apply Hw.Only.ite2 <;> intro _)
    | (intro (_ : Hw); intro _)
    | (intro (_ : Hw))
    | (with_reducible apply Hw.Only.step ?_ (Hw.wr_only ..))
    | (with_reducible apply Hw.Only.step ?_ (refuse_only ..))
    | (with_reducible apply Hw.Only.step ?_ (Hw.command_only (C := [0x1f, 0x10021]) (F := [.mbx, .front, .buckets, .folded]) (G := [.replies, .out]) ?_ ?_ ..))
    | dsimp only
    | split)

/-! ### Gatehouse -/

theorem execGhSpitTimer_within (s : State) {s' : State} (hn : execGhSpitTimer s = .next s') :
    s.Within [0x1F, A.cfg_changes.code, A.hp_state.code] [.front, .buckets, .folded, .ports, .spits] [] s' := by
  unfold execGhSpitTimer at hn
  refine State.within_onPkg (G := []) hn (fun ms k => ?_)
  try simp only
  repeat' (first
    | with_reducible apply Hw.Only.refl
    | decide
    | (with_reducible apply Hw.Only.ite <;> intro _)
    | (with_reducible apply Hw.Only.ite2 <;> intro _)
    | (with_reducible apply Hw.Only.step ?_ (Hw.ghSpit_only ..))
    | dsimp only
    | split)

theorem execGhStatus_within (h : Hdr) (s : State) {s' : State} (hn : execGhStatus h s = .next s') :
    s.Within [0x1F, A.cfg_changes.code] [.mbx, .front, .buckets, .folded] [.replies] s' := by
  unfold execGhStatus at hn
  refine State.within_command (G := [.replies]) hn (fun ms d k => ?_) (by decide) (by decide)
  try simp only
  repeat' (first
    | with_reducible apply Hw.Only.refl
    | decide
    | (intro (_ : Hw); intro _)
    | (intro (_ : Hw))
    | (with_reducible apply Hw.Only.step ?_ (Hw.command_only (C := [0x1f, 0x10021]) (F := [.mbx, .front, .buckets, .folded]) (G := [.replies, .out]) ?_ ?_ ..))
    | dsimp only
    | split)

/-! ### Motion -/

theorem execEncEdge_within (die ch : Nat) (a b : Bool) (t : Nat) (s : State) {s' : State} (hn : execEncEdge die ch a b t s = .next s') :
    s.Within [0] [.mbx, .queues, .front, .buckets, .folded, .tbs, .pulses, .enc, .pos, .hwmOn, .leaving, .ports, .changes, .banks, .bankFrom, .ctxs, .stop, .mx, .lineFaults] [.blks, .clk, .free, .mode, .pkg, .eps, .hostedWait, .hsForce, .hsPins, .gh, .stores] s' := by
  unfold execEncEdge at hn
  refine State.within_onUnit (G := [.blks, .clk, .free, .mode, .pkg, .eps, .hostedWait, .hsForce, .hsPins, .gh, .stores]) hn (fun ms k => ?_)
  try simp only
  repeat' (first
    | with_reducible apply Hw.Only.refl
    | decide
    | (intro (_ : Hw); intro _)
    | (intro (_ : Hw))
    | (with_reducible apply Hw.Only.step ?_ (Hw.motionOn_only (C := [0x0]) (F := [.mbx, .queues, .front, .buckets, .folded, .tbs, .pulses, .enc, .pos, .hwmOn, .leaving, .ports, .changes, .banks, .bankFrom, .ctxs, .stop, .mx, .lineFaults]) (G := [.blks, .clk, .free, .mode, .pkg, .eps, .hostedWait, .hsForce, .hsPins, .gh, .stores, .out]) ?_ ?_ ..))
    | (with_reducible apply Hw.Only.step ?_ (Hw.encEdge_only ..))
    | (with_reducible apply Hw.Only.step ?_ (Hw.until_only ..))
    | dsimp only
    | split)

theorem execEncLosSet_within (die ch pin t : Nat) (s : State) {s' : State} (hn : execEncLosSet die ch pin t s = .next s') :
    s.Within [0] [.mbx, .queues, .front, .buckets, .folded, .tbs, .pulses, .enc, .pos, .hwmOn, .leaving, .ports, .changes, .banks, .bankFrom, .ctxs, .stop, .mx, .lineFaults] [.blks, .clk, .free, .mode, .pkg, .eps, .hostedWait, .hsForce, .hsPins, .gh, .stores] s' := by
  unfold execEncLosSet at hn
  refine State.within_onUnit (G := [.blks, .clk, .free, .mode, .pkg, .eps, .hostedWait, .hsForce, .hsPins, .gh, .stores]) hn (fun ms k => ?_)
  try simp only
  repeat' (first
    | with_reducible apply Hw.Only.refl
    | decide
    | (intro (_ : Hw); intro _)
    | (intro (_ : Hw))
    | (with_reducible apply Hw.Only.step ?_ (Hw.motionOn_only (C := [0x0]) (F := [.mbx, .queues, .front, .buckets, .folded, .tbs, .pulses, .enc, .pos, .hwmOn, .leaving, .ports, .changes, .banks, .bankFrom, .ctxs, .stop, .mx, .lineFaults]) (G := [.blks, .clk, .free, .mode, .pkg, .eps, .hostedWait, .hsForce, .hsPins, .gh, .stores, .out]) ?_ ?_ ..))
    | (with_reducible apply Hw.Only.step ?_ (Hw.losSet_only ..))
    | (with_reducible apply Hw.Only.step ?_ (Hw.until_only ..))
    | dsimp only
    | split)

theorem execEncLosClear_within (die ch t : Nat) (s : State) {s' : State} (hn : execEncLosClear die ch t s = .next s') :
    s.Within [0] [.mbx, .queues, .front, .buckets, .folded, .tbs, .pulses, .pos, .hwmOn, .leaving, .ports, .changes, .banks, .bankFrom, .ctxs, .stop, .mx, .lineFaults] [.blks, .clk, .free, .mode, .pkg, .eps, .hostedWait, .hsForce, .hsPins, .gh, .stores] s' := by
  unfold execEncLosClear at hn
  refine State.within_onUnit (G := [.blks, .clk, .free, .mode, .pkg, .eps, .hostedWait, .hsForce, .hsPins, .gh, .stores]) hn (fun ms k => ?_)
  try simp only
  repeat' (first
    | with_reducible apply Hw.Only.refl
    | decide
    | (intro (_ : Hw); intro _)
    | (intro (_ : Hw))
    | (with_reducible apply Hw.Only.step ?_ (Hw.motionOn_only (C := [0x0]) (F := [.mbx, .queues, .front, .buckets, .folded, .tbs, .pulses, .pos, .hwmOn, .leaving, .ports, .changes, .banks, .bankFrom, .ctxs, .stop, .mx, .lineFaults]) (G := [.blks, .clk, .free, .mode, .pkg, .eps, .hostedWait, .hsForce, .hsPins, .gh, .stores, .out]) ?_ ?_ ..))
    | (with_reducible apply Hw.Only.step ?_ (Hw.losClear_only ..))
    | (with_reducible apply Hw.Only.step ?_ (Hw.until_only ..))
    | dsimp only
    | split)

theorem execIndexPulse_within (die ch t : Nat) (s : State) {s' : State} (hn : execIndexPulse die ch t s = .next s') :
    s.Within [0] [.mbx, .queues, .front, .buckets, .folded, .tbs, .pulses, .enc, .pos, .hwmOn, .leaving, .ports, .changes, .banks, .bankFrom, .ctxs, .stop, .mx, .lineFaults] [.blks, .clk, .free, .mode, .pkg, .eps, .hostedWait, .hsForce, .hsPins, .gh, .stores] s' := by
  unfold execIndexPulse at hn
  refine State.within_onUnit (G := [.blks, .clk, .free, .mode, .pkg, .eps, .hostedWait, .hsForce, .hsPins, .gh, .stores]) hn (fun ms k => ?_)
  try simp only
  repeat' (first
    | with_reducible apply Hw.Only.refl
    | decide
    | (intro (_ : Hw); intro _)
    | (intro (_ : Hw))
    | (with_reducible apply Hw.Only.step ?_ (Hw.motionOn_only (C := [0x0]) (F := [.mbx, .queues, .front, .buckets, .folded, .tbs, .pulses, .enc, .pos, .hwmOn, .leaving, .ports, .changes, .banks, .bankFrom, .ctxs, .stop, .mx, .lineFaults]) (G := [.blks, .clk, .free, .mode, .pkg, .eps, .hostedWait, .hsForce, .hsPins, .gh, .stores, .out]) ?_ ?_ ..))
    | (with_reducible apply Hw.Only.step ?_ (Hw.indexPulse_only ..))
    | (with_reducible apply Hw.Only.step ?_ (Hw.until_only ..))
    | dsimp only
    | split)

theorem execAbsWordComplete_within (die ch : Nat) (ack : Bool) (word : Nat) (s : State) {s' : State} (hn : execAbsWordComplete die ch ack word s = .next s') :
    s.Within [0] [.mbx, .queues, .front, .buckets, .folded, .pulses, .enc, .pos, .hwmOn, .leaving, .ports, .changes, .banks, .bankFrom, .ctxs, .stop, .mx, .lineFaults] [.blks, .free, .mode, .pkg, .eps, .hostedWait, .hsForce, .hsPins, .gh, .stores] s' := by
  unfold execAbsWordComplete at hn
  refine State.within_onUnit (G := [.blks, .free, .mode, .pkg, .eps, .hostedWait, .hsForce, .hsPins, .gh, .stores]) hn (fun ms k => ?_)
  try simp only
  repeat' (first
    | with_reducible apply Hw.Only.refl
    | decide
    | (intro (_ : Hw); intro _)
    | (intro (_ : Hw))
    | (with_reducible apply Hw.Only.step ?_ (Hw.motionOn_only (C := [0x0]) (F := [.mbx, .queues, .front, .buckets, .folded, .pulses, .enc, .pos, .hwmOn, .leaving, .ports, .changes, .banks, .bankFrom, .ctxs, .stop, .mx, .lineFaults]) (G := [.blks, .free, .mode, .pkg, .eps, .hostedWait, .hsForce, .hsPins, .gh, .stores, .out]) ?_ ?_ ..))
    | (with_reducible apply Hw.Only.step ?_ (Hw.absComplete_only ..))
    | dsimp only
    | split)

theorem execEncMag_within (die ch input : Nat) (rising : Bool) (t : Nat) (s : State) {s' : State} (hn : execEncMag die ch input rising t s = .next s') :
    s.Within [0] [.mbx, .queues, .front, .buckets, .folded, .tbs, .pulses, .pos, .hwmOn, .leaving, .ports, .changes, .banks, .bankFrom, .ctxs, .stop, .mx, .lineFaults] [.blks, .clk, .free, .mode, .pkg, .eps, .hostedWait, .hsForce, .hsPins, .gh, .stores] s' := by
  unfold execEncMag at hn
  refine State.within_onUnit (G := [.blks, .clk, .free, .mode, .pkg, .eps, .hostedWait, .hsForce, .hsPins, .gh, .stores]) hn (fun ms k => ?_)
  try simp only
  repeat' (first
    | with_reducible apply Hw.Only.refl
    | decide
    | (intro (_ : Hw); intro _)
    | (intro (_ : Hw))
    | (with_reducible apply Hw.Only.step ?_ (Hw.motionOn_only (C := [0x0]) (F := [.mbx, .queues, .front, .buckets, .folded, .tbs, .pulses, .pos, .hwmOn, .leaving, .ports, .changes, .banks, .bankFrom, .ctxs, .stop, .mx, .lineFaults]) (G := [.blks, .clk, .free, .mode, .pkg, .eps, .hostedWait, .hsForce, .hsPins, .gh, .stores, .out]) ?_ ?_ ..))
    | (with_reducible apply Hw.Only.step ?_ (Hw.encMag_only ..))
    | (with_reducible apply Hw.Only.step ?_ (Hw.until_only ..))
    | dsimp only
    | split)

theorem execStillTimeout_within (die ch : Nat) (s : State) {s' : State} (hn : execStillTimeout die ch s = .next s') :
    s.Within [0] [.mbx, .queues, .front, .buckets, .folded, .pulses, .pos, .hwmOn, .leaving, .ports, .changes, .banks, .bankFrom, .ctxs, .stop, .mx, .lineFaults] [.blks, .free, .mode, .pkg, .eps, .hostedWait, .hsForce, .hsPins, .gh, .stores] s' := by
  unfold execStillTimeout at hn
  refine State.within_onUnit (G := [.blks, .free, .mode, .pkg, .eps, .hostedWait, .hsForce, .hsPins, .gh, .stores]) hn (fun ms k => ?_)
  try simp only
  repeat' (first
    | with_reducible apply Hw.Only.refl
    | decide
    | (intro (_ : Hw); intro _)
    | (intro (_ : Hw))
    | (with_reducible apply Hw.Only.step ?_ (Hw.motionOn_only (C := [0x0]) (F := [.mbx, .queues, .front, .buckets, .folded, .pulses, .pos, .hwmOn, .leaving, .ports, .changes, .banks, .bankFrom, .ctxs, .stop, .mx, .lineFaults]) (G := [.blks, .free, .mode, .pkg, .eps, .hostedWait, .hsForce, .hsPins, .gh, .stores, .out]) ?_ ?_ ..))
    | (with_reducible apply Hw.Only.step ?_ (Hw.stillTimeout_only ..))
    | dsimp only
    | split)

theorem execPergolaPairReceive_within (die src : Nat) (s : State) {s' : State} (hn : execPergolaPairReceive die src s = .next s') :
    s.Within [0] [.mbx, .queues, .front, .buckets, .folded, .pulses, .pos, .hwmOn, .leaving, .ports, .changes, .banks, .bankFrom, .ctxs, .stop, .mx, .lineFaults] [.blks, .mode, .pkg, .eps, .hostedWait, .hsForce, .hsPins, .gh, .stores] s' := by
  unfold execPergolaPairReceive at hn
  refine State.within_onUnit (G := [.blks, .mode, .pkg, .eps, .hostedWait, .hsForce, .hsPins, .gh, .stores]) hn (fun ms k => ?_)
  try simp only
  repeat' (first
    | with_reducible apply Hw.Only.refl
    | (intro D x hx; cases x <;> first | exact absurd (by decide) hx | exact rfl)
    | decide
    | (intro (_ : Hw); intro _)
    | (intro (_ : Hw))
    | (with_reducible apply Hw.Only.step ?_ (Hw.motionOn_only (C := [0x0]) (F := [.mbx, .queues, .front, .buckets, .folded, .pulses, .pos, .hwmOn, .leaving, .ports, .changes, .banks, .bankFrom, .ctxs, .stop, .mx, .lineFaults]) (G := [.blks, .mode, .pkg, .eps, .hostedWait, .hsForce, .hsPins, .gh, .stores, .out]) ?_ ?_ ..))
    | (with_reducible apply Hw.Only.step ?_ (Hw.pairReceive_only ..))
    | dsimp only
    | split)

theorem execPosSet_within (h : Hdr) (what : Nat) (value : Int) (s : State) {s' : State} (hn : execPosSet h what value s = .next s') :
    s.Within [0] [.mbx, .queues, .front, .buckets, .folded, .pulses, .pos, .hwmOn, .leaving, .ports, .changes, .banks, .bankFrom, .ctxs, .stop, .mx, .lineFaults] [.blks, .free, .replies, .mode, .pkg, .eps, .hostedWait, .hsForce, .hsPins, .gh, .stores] s' := by
  unfold execPosSet at hn
  refine State.within_command (G := [.blks, .free, .replies, .mode, .pkg, .eps, .hostedWait, .hsForce, .hsPins, .gh, .stores]) hn (fun ms d k => ?_) (by decide) (by decide)
  try simp only
  repeat' (first
    | with_reducible apply Hw.Only.refl
    | decide
    | (with_reducible apply Hw.Only.ite <;> intro _)
    | (with_reducible apply Hw.Only.ite2 <;> intro _)
    | (intro (_ : Hw); intro _)
    | (intro (_ : Hw))
    | (with_reducible apply Hw.Only.step ?_ (Hw.motionOn_only (C := [0x0]) (F := [.mbx, .queues, .front, .buckets, .folded, .pulses, .pos, .hwmOn, .leaving, .ports, .changes, .banks, .bankFrom, .ctxs, .stop, .mx, .lineFaults]) (G := [.blks, .free, .replies, .mode, .pkg, .eps, .hostedWait, .hsForce, .hsPins, .gh, .stores, .out]) ?_ ?_ ..))
    | (with_reducible apply Hw.Only.step ?_ (Hw.posSet_only ..))
    | (with_reducible apply Hw.Only.step ?_ (refuse_only ..))
    | (with_reducible apply Hw.Only.step ?_ (Hw.command_only (C := [0x0]) (F := [.mbx, .queues, .front, .buckets, .folded, .pulses, .pos, .hwmOn, .leaving, .ports, .changes, .banks, .bankFrom, .ctxs, .stop, .mx, .lineFaults]) (G := [.blks, .free, .replies, .mode, .pkg, .eps, .hostedWait, .hsForce, .hsPins, .gh, .stores, .out]) ?_ ?_ ..))
    | dsimp only
    | split)

theorem execPressRunAccept_within (level : Bool) (s : State) {s' : State} (hn : execPressRunAccept level s = .next s') :
    s.Within [0] [.mbx, .queues, .front, .buckets, .folded, .hwmOn, .leaving, .ports, .changes, .ctxs, .stop] [.mode, .pkg, .eps, .hsIn, .ghRelease, .hostedWait, .hsPins, .hsSeen, .gh, .stores] s' := by
  unfold execPressRunAccept at hn
  refine State.within_onPkg (G := [.mode, .pkg, .eps, .hsIn, .ghRelease, .hostedWait, .hsPins, .hsSeen, .gh, .stores]) hn (fun ms k => ?_)
  try simp only
  repeat' (first
    | with_reducible apply Hw.Only.refl
    | decide
    | (with_reducible apply Hw.Only.ite <;> intro _)
    | (with_reducible apply Hw.Only.ite2 <;> intro _)
    | (with_reducible apply Hw.Only.step ?_ (Hw.hostedCheck_only ..))
    | (with_reducible apply Hw.Only.step ?_ (Hw.ghEnd_only ..))
    | (with_reducible apply Hw.Only.step ?_ (Hw.pressRun_only ..))
    | dsimp only
    | split)

theorem execHeadParkedAccept_within (level : Bool) (s : State) {s' : State} (hn : execHeadParkedAccept level s = .next s') :
    s.Within [0x1F, A.cfg_changes.code, A.port_offset_nm.code, A.commit_lead_ns.code, A.hp_state.code] [.front, .buckets, .folded, .leaving, .ports, .spits] [.hsIn, .hsSeen] s' := by
  unfold execHeadParkedAccept at hn
  refine State.within_onPkg (G := [.hsIn, .hsSeen]) hn (fun ms k => ?_)
  try simp only
  repeat' (first
    | with_reducible apply Hw.Only.refl
    | decide
    | (with_reducible apply Hw.Only.ite <;> intro _)
    | (with_reducible apply Hw.Only.ite2 <;> intro _)
    | (with_reducible apply Hw.Only.step ?_ (Hw.ghSpit_only ..))
    | (with_reducible apply Hw.Only.step ?_ (Hw.headParked_only ..))
    | dsimp only
    | split)

/-! ### Firmware -/

theorem execIdRead_within (h : Hdr) (s : State) {s' : State} (hn : execIdRead h s = .next s') :
    s.Within [0x1F, A.cfg_changes.code] [.mbx, .front, .buckets, .folded] [.replies] s' := by
  unfold execIdRead at hn
  refine State.within_command (G := [.replies]) hn (fun ms d k => ?_) (by decide) (by decide)
  try simp only
  repeat' (first
    | with_reducible apply Hw.Only.refl
    | decide
    | (intro (_ : Hw); intro _)
    | (intro (_ : Hw))
    | (with_reducible apply Hw.Only.step ?_ (Hw.command_only (C := [0x1f, 0x10021]) (F := [.mbx, .front, .buckets, .folded]) (G := [.replies, .out]) ?_ ?_ ..))
    | dsimp only
    | split)

theorem execSysState_within (h : Hdr) (s : State) {s' : State} (hn : execSysState h s = .next s') :
    s.Within [0x1F, A.cfg_changes.code] [.mbx, .front, .buckets, .folded] [.replies] s' := by
  unfold execSysState at hn
  refine State.within_command (G := [.replies]) hn (fun ms d k => ?_) (by decide) (by decide)
  try simp only
  repeat' (first
    | with_reducible apply Hw.Only.refl
    | decide
    | (intro (_ : Hw); intro _)
    | (intro (_ : Hw))
    | (with_reducible apply Hw.Only.step ?_ (Hw.command_only (C := [0x1f, 0x10021]) (F := [.mbx, .front, .buckets, .folded]) (G := [.replies, .out]) ?_ ?_ ..))
    | dsimp only
    | split)

theorem execBlSet_within (h : Hdr) (level : Nat) (s : State) {s' : State} (hn : execBlSet h level s = .next s') :
    s.Within [0x1F, A.bl_nv.code, A.cfg_changes.code] [.mbx, .front, .buckets, .folded] [.nextId, .replies, .pkg] s' := by
  unfold execBlSet at hn
  refine State.within_command (G := [.nextId, .replies, .pkg]) hn (fun ms d k => ?_) (by decide) (by decide)
  try simp only
  repeat' (first
    | with_reducible apply Hw.Only.refl
    | decide
    | (with_reducible apply Hw.Only.ite <;> intro _)
    | (with_reducible apply Hw.Only.ite2 <;> intro _)
    | (intro (_ : Hw); intro _)
    | (intro (_ : Hw))
    | (with_reducible apply Hw.Only.step ?_ (Hw.wr_only ..))
    | (with_reducible apply Hw.Only.step ?_ (refuse_only ..))
    | (with_reducible apply Hw.Only.step ?_ (Hw.defer_only ..))
    | (with_reducible apply Hw.Only.step ?_ (Hw.command_only (C := [0x1f, 0x10005, 0x10021]) (F := [.mbx, .front, .buckets, .folded]) (G := [.nextId, .replies, .pkg, .out]) ?_ ?_ ..))
    | dsimp only
    | split)

theorem execCmdStatus_within (h : Hdr) (tag : Nat) (s : State) {s' : State} (hn : execCmdStatus h tag s = .next s') :
    s.Within [0x1F, A.cfg_changes.code] [.mbx, .front, .buckets, .folded] [.replies] s' := by
  unfold execCmdStatus at hn
  refine State.within_command (G := [.replies]) hn (fun ms d k => ?_) (by decide) (by decide)
  try simp only
  repeat' (first
    | with_reducible apply Hw.Only.refl
    | decide
    | (intro (_ : Hw); intro _)
    | (intro (_ : Hw))
    | (with_reducible apply Hw.Only.step ?_ (Hw.rildin_only (C := [0x1f, 0x10021]) (F := [.mbx, .front, .buckets, .folded]) (G := [.replies, .out]) ?_ ?_ ..))
    | (with_reducible apply Hw.Only.step ?_ (refuse_only ..))
    | (with_reducible apply Hw.Only.step ?_ (Hw.command_only (C := [0x1f, 0x10021]) (F := [.mbx, .front, .buckets, .folded]) (G := [.replies, .out]) ?_ ?_ ..))
    | dsimp only
    | split
    | (apply Hw.Only.of_pair; assumption)
    | (apply Hw.Only.of_triple; assumption))

theorem execFwBegin_within (h : Hdr) (size : Nat) (s : State) {s' : State} (hn : execFwBegin h size s = .next s') :
    s.Within [0x1F, A.cfg_changes.code] [.mbx, .front, .buckets, .folded] [.replies, .fwSlots, .fw, .fwKept] s' := by
  unfold execFwBegin at hn
  unfold fwCommand at hn
  refine State.within_command (G := [.replies, .fwSlots, .fw, .fwKept]) hn (fun ms d k => ?_) (by decide) (by decide)
  try simp only
  repeat' (first
    | with_reducible apply Hw.Only.refl
    | decide
    | (with_reducible apply Hw.Only.ite <;> intro _)
    | (with_reducible apply Hw.Only.ite2 <;> intro _)
    | (intro (_ : Hw); intro _)
    | (intro (_ : Hw))
    | (with_reducible apply Hw.Only.step ?_ (Hw.onSlots_only ..))
    | (with_reducible apply Hw.Only.step ?_ (Hw.rildin_only (C := [0x1f, 0x10021]) (F := [.mbx, .front, .buckets, .folded]) (G := [.replies, .fwSlots, .fw, .fwKept, .out]) ?_ ?_ ..))
    | (with_reducible apply Hw.Only.step ?_ (refuse_only ..))
    | (with_reducible apply Hw.Only.step ?_ (okWith_only ..))
    | (with_reducible apply Hw.Only.step ?_ (Hw.command_only (C := [0x1f, 0x10021]) (F := [.mbx, .front, .buckets, .folded]) (G := [.replies, .fwSlots, .fw, .fwKept, .out]) ?_ ?_ ..))
    | dsimp only
    | split
    | (with_reducible apply Hw.Only.step ?_ (Hw.with_fw ..)))

theorem execFwData_within (h : Hdr) (off : Nat) (data : List Byte) (s : State) {s' : State} (hn : execFwData h off data s = .next s') :
    s.Within [0x1F, A.cfg_changes.code] [.mbx, .front, .buckets, .folded] [.replies, .fw] s' := by
  unfold execFwData at hn
  unfold fwCommand at hn
  refine State.within_command (G := [.replies, .fw]) hn (fun ms d k => ?_) (by decide) (by decide)
  try simp only
  repeat' (first
    | with_reducible apply Hw.Only.refl
    | decide
    | (with_reducible apply Hw.Only.ite <;> intro _)
    | (with_reducible apply Hw.Only.ite2 <;> intro _)
    | (intro (_ : Hw); intro _)
    | (intro (_ : Hw))
    | (with_reducible apply Hw.Only.step ?_ (refuse_only ..))
    | (with_reducible apply Hw.Only.step ?_ (okWith_only ..))
    | (with_reducible apply Hw.Only.step ?_ (Hw.command_only (C := [0x1f, 0x10021]) (F := [.mbx, .front, .buckets, .folded]) (G := [.replies, .fw, .out]) ?_ ?_ ..))
    | dsimp only
    | split
    | (apply Hw.Only.of_pair; assumption)
    | (apply Hw.Only.of_triple; assumption)
    | (with_reducible apply Hw.Only.step ?_ (Hw.with_fw ..)))

theorem execFwEnd_within (h : Hdr) (s : State) {s' : State} (hn : execFwEnd h s = .next s') :
    s.Within [0x1F, A.cfg_changes.code] [.mbx, .front, .buckets, .folded] [.replies, .fwSlots, .fw, .fwKept] s' := by
  unfold execFwEnd at hn
  unfold fwCommand at hn
  refine State.within_command (G := [.replies, .fwSlots, .fw, .fwKept]) hn (fun ms d k => ?_) (by decide) (by decide)
  try simp only
  repeat' (first
    | with_reducible apply Hw.Only.refl
    | (intro x hx; cases x <;> first | exact absurd (by decide) hx | exact rfl)
    | decide
    | (with_reducible apply Hw.Only.ite <;> intro _)
    | (with_reducible apply Hw.Only.ite2 <;> intro _)
    | (intro (_ : Hw); intro _)
    | (intro (_ : Hw))
    | (with_reducible apply Hw.Only.step ?_ (Hw.onSlots_only ..))
    | (with_reducible apply Hw.Only.step ?_ (refuse_only ..))
    | (with_reducible apply Hw.Only.step ?_ (okWith_only ..))
    | (with_reducible apply Hw.Only.step ?_ (Hw.command_only (C := [0x1f, 0x10021]) (F := [.mbx, .front, .buckets, .folded]) (G := [.replies, .fwSlots, .fw, .fwKept, .out]) ?_ ?_ ..))
    | dsimp only
    | split
    | (apply Hw.Only.of_pair; assumption)
    | (apply Hw.Only.of_triple; assumption)
    | (with_reducible refine Hw.Only.mono (Hw.Only.recs k _ [.fw] (Eq.refl _) (Eq.refl _) ?_) ?_)
    | (with_reducible apply Hw.Only.step ?_ (Hw.with_fw ..)))

theorem execFwActivate_within (h : Hdr) (s : State) {s' : State} (hn : execFwActivate h s = .next s') :
    s.Within [0x1F, A.cfg_changes.code] [.mbx, .front, .buckets, .folded] [.nextId, .replies, .pkg, .fwSlots, .fw, .fwKept] s' := by
  unfold execFwActivate at hn
  unfold fwCommand at hn
  refine State.within_command (G := [.nextId, .replies, .pkg, .fwSlots, .fw, .fwKept]) hn (fun ms d k => ?_) (by decide) (by decide)
  try simp only
  repeat' (first
    | with_reducible apply Hw.Only.refl
    | decide
    | (with_reducible apply Hw.Only.ite <;> intro _)
    | (with_reducible apply Hw.Only.ite2 <;> intro _)
    | (intro (_ : Hw); intro _)
    | (intro (_ : Hw))
    | (with_reducible apply Hw.Only.step ?_ (Hw.onSlots_only ..))
    | (with_reducible apply Hw.Only.step ?_ (refuse_only ..))
    | (with_reducible apply Hw.Only.step ?_ (Hw.defer_only ..))
    | (with_reducible apply Hw.Only.step ?_ (Hw.command_only (C := [0x1f, 0x10021]) (F := [.mbx, .front, .buckets, .folded]) (G := [.nextId, .replies, .pkg, .fwSlots, .fw, .fwKept, .out]) ?_ ?_ ..))
    | dsimp only
    | split
    | (with_reducible apply Hw.Only.step ?_ (Hw.with_fw ..)))

theorem execFwAbort_within (h : Hdr) (s : State) {s' : State} (hn : execFwAbort h s = .next s') :
    s.Within [0x1F, A.cfg_changes.code] [.mbx, .front, .buckets, .folded] [.replies, .fwSlots, .fw] s' := by
  unfold execFwAbort at hn
  unfold fwCommand at hn
  refine State.within_command (G := [.replies, .fwSlots, .fw]) hn (fun ms d k => ?_) (by decide) (by decide)
  try simp only
  repeat' (first
    | with_reducible apply Hw.Only.refl
    | decide
    | (with_reducible apply Hw.Only.ite <;> intro _)
    | (with_reducible apply Hw.Only.ite2 <;> intro _)
    | (intro (_ : Hw); intro _)
    | (intro (_ : Hw))
    | (with_reducible apply Hw.Only.step ?_ (Hw.fwAbort_only ..))
    | (with_reducible apply Hw.Only.step ?_ (refuse_only ..))
    | (with_reducible apply Hw.Only.step ?_ (okWith_only ..))
    | (with_reducible apply Hw.Only.step ?_ (Hw.command_only (C := [0x1f, 0x10021]) (F := [.mbx, .front, .buckets, .folded]) (G := [.replies, .fwSlots, .fw, .out]) ?_ ?_ ..))
    | dsimp only
    | split)

theorem execFwSessionTimeout_within (s : State) {s' : State} (hn : execFwSessionTimeout s = .next s') :
    s.Within [] [] [.fwSlots, .fw] s' := by
  unfold execFwSessionTimeout at hn
  refine State.within_onPkg (G := [.fwSlots, .fw]) hn (fun ms k => ?_)
  try simp only
  repeat' (first
    | with_reducible apply Hw.Only.refl
    | decide
    | (with_reducible apply Hw.Only.step ?_ (Hw.fwAbort_only ..))
    | dsimp only
    | split)

theorem execStatusBlockUpdate_within (die : Nat) (s : State) {s' : State} (hn : execStatusBlockUpdate die s = .next s') :
    s.Within [] [.sb] [] s' := by
  unfold execStatusBlockUpdate at hn
  refine State.within_onDie (G := []) hn (fun ms k => ?_)
  try simp only
  repeat' (first
    | with_reducible apply Hw.Only.refl
    | (intro D x hx; cases x <;> first | exact absurd (by decide) hx | exact rfl)
    | decide
    | (with_reducible apply Hw.Only.ite <;> intro _)
    | (with_reducible apply Hw.Only.ite2 <;> intro _)
    | (with_reducible apply Hw.Only.step ?_ (Hw.onDie_only [.sb] _ _ _ ?_))
    | dsimp only
    | split)

/-! ### Boot -/

theorem execPorstRise_within (straps railsGood alive : Nat) (s : State) {s' : State} (hn : execPorstRise straps railsGood alive s = .next s') :
    s.Within [A.bl_strap.code, A.rx_lat_ps.code, A.tx_lat_ps.code, A.shutdown.code, A.cal_state.code, A.cal_runs.code, A.cal_tb0.code, A.cal_temp.code, A.quality.code, A.pd_on.code, A.reset_cause.code, A.boot_count.code, A.straps.code, A.rails_good.code] [.up, .cals] [.bl, .faultMask, .fwSlots, .fwBooted, .bootWatch, .porst, .alive, .fwKept, .railFault, .clkFault] s' := by
  unfold execPorstRise at hn
  refine State.within_onPkg (G := [.bl, .faultMask, .fwSlots, .fwBooted, .bootWatch, .porst, .alive, .fwKept, .railFault, .clkFault]) hn (fun ms k => ?_)
  try simp only
  repeat' (first
    | with_reducible apply Hw.Only.refl
    | (intro x hx; cases x <;> first | exact absurd (by decide) hx | exact rfl)
    | decide
    | (with_reducible apply Hw.Only.ite <;> intro _)
    | (with_reducible apply Hw.Only.ite2 <;> intro _)
    | (with_reducible apply Hw.Only.foldl)
    | (intro (_ : Hw); intro _)
    | (intro (_ : Hw))
    | (with_reducible apply Hw.Only.foldlP)
    | (intro (_ : _ × Hw); intro _)
    | (with_reducible apply Hw.Only.step ?_ (Hw.wr_only ..))
    | (with_reducible apply Hw.Only.step ?_ (Hw.bootStart_only ..))
    | dsimp only
    | split
    | (with_reducible refine Hw.Only.mono (Hw.Only.recs k _ [.porst, .alive, .railFault] (Eq.refl _) (Eq.refl _) ?_) ?_)
    | (with_reducible apply Hw.Only.step ?_ (Hw.with_alive_porst ..))
    | (with_reducible apply Hw.Only.step ?_ (Hw.with_railFault ..)))

theorem execSysRstL_within (straps : Nat) (s : State) {s' : State} (hn : execSysRstL straps s = .next s') :
    s.Within [0] [.mbx, .sb, .queues, .front, .buckets, .folded, .erSel, .ptp, .itv, .up, .enc, .pos, .hwmOn, .leaving, .ports, .spits, .changes, .banks, .bankFrom, .codec, .ctxs, .ctxCache, .streams, .stop, .cams, .ispRun, .chains, .lamps, .mx, .crit, .cals, .lineFaults, .pdWork] [.blks, .stages, .replies, .bl, .mode, .lead, .leadSt, .takeover, .kennelWriting, .kennelFailRun, .kennelLateSeen, .moving, .ckptWork, .repairWork, .repairArmed, .safeFrom, .pkg, .faultMask, .fwSlots, .fw, .fwBooted, .bootWatch, .eps, .tunnels, .hsIn, .ghRelease, .hostedWait, .fwKept, .resetDue, .railFault, .clkFault, .hsForce, .hsPins, .hsOn, .hsSeen, .gh, .wipes] s' := by
  unfold execSysRstL at hn
  refine State.within_onPkg (G := [.blks, .stages, .replies, .bl, .mode, .lead, .leadSt, .takeover, .kennelWriting, .kennelFailRun, .kennelLateSeen, .moving, .ckptWork, .repairWork, .repairArmed, .safeFrom, .pkg, .faultMask, .fwSlots, .fw, .fwBooted, .bootWatch, .eps, .tunnels, .hsIn, .ghRelease, .hostedWait, .fwKept, .resetDue, .railFault, .clkFault, .hsForce, .hsPins, .hsOn, .hsSeen, .gh, .wipes]) hn (fun ms k => ?_)
  try simp only
  repeat' (first
    | with_reducible apply Hw.Only.refl
    | decide
    | (with_reducible apply Hw.Only.ite <;> intro _)
    | (with_reducible apply Hw.Only.ite2 <;> intro _)
    | (with_reducible apply Hw.Only.step ?_ (Hw.bootStart_only ..))
    | (with_reducible apply Hw.Only.step ?_ (Hw.resetPkg_only ..))
    | dsimp only
    | split)

theorem execRailFault_within (die rail value : Nat) (s : State) {s' : State} (hn : execRailFault die rail value s = .next s') :
    s.Within [0] [.mbx, .sb, .queues, .front, .buckets, .folded, .erSel, .ptp, .itv, .up, .enc, .pos, .hwmOn, .leaving, .ports, .spits, .changes, .banks, .bankFrom, .codec, .ctxs, .ctxCache, .streams, .stop, .cams, .ispRun, .chains, .lamps, .mx, .crit, .cals, .lineFaults, .pdWork] [.blks, .stages, .replies, .mode, .lead, .leadSt, .takeover, .kennelWriting, .kennelFailRun, .kennelLateSeen, .moving, .ckptWork, .repairWork, .repairArmed, .safeFrom, .pkg, .fwSlots, .fw, .fwBooted, .bootWatch, .eps, .tunnels, .hsIn, .ghRelease, .hostedWait, .fwKept, .resetDue, .railFault, .hsForce, .hsPins, .hsOn, .hsSeen, .gh, .wipes] s' := by
  unfold execRailFault at hn
  refine State.within_onUnit (G := [.blks, .stages, .replies, .mode, .lead, .leadSt, .takeover, .kennelWriting, .kennelFailRun, .kennelLateSeen, .moving, .ckptWork, .repairWork, .repairArmed, .safeFrom, .pkg, .fwSlots, .fw, .fwBooted, .bootWatch, .eps, .tunnels, .hsIn, .ghRelease, .hostedWait, .fwKept, .resetDue, .railFault, .hsForce, .hsPins, .hsOn, .hsSeen, .gh, .wipes]) hn (fun ms k => ?_)
  try simp only
  repeat' (first
    | with_reducible apply Hw.Only.refl
    | decide
    | (with_reducible apply Hw.Only.ite <;> intro _)
    | (with_reducible apply Hw.Only.ite2 <;> intro _)
    | (with_reducible apply Hw.Only.step ?_ (Hw.wr_only ..))
    | (with_reducible apply Hw.Only.step ?_ (Hw.add_only ..))
    | (with_reducible apply Hw.Only.step ?_ (Hw.holdReset_only ..))
    | (with_reducible apply Hw.Only.step ?_ (Hw.event_only ..))
    | dsimp only
    | split
    | (with_reducible apply Hw.Only.step ?_ (Hw.with_railFault ..)))

theorem execRailGood_within (straps : Nat) (s : State) {s' : State} (hn : execRailGood straps s = .next s') :
    s.Within [A.bl_strap.code, A.rx_lat_ps.code, A.tx_lat_ps.code, A.shutdown.code, A.cal_state.code, A.cal_runs.code, A.cal_tb0.code, A.cal_temp.code, A.quality.code, A.pd_on.code, A.reset_cause.code, A.boot_count.code, A.straps.code, A.rails_good.code] [.up, .cals] [.bl, .faultMask, .fwSlots, .fwBooted, .bootWatch, .fwKept, .railFault, .clkFault] s' := by
  unfold execRailGood at hn
  refine State.within_onPkg (G := [.bl, .faultMask, .fwSlots, .fwBooted, .bootWatch, .fwKept, .railFault, .clkFault]) hn (fun ms k => ?_)
  try simp only
  repeat' (first
    | with_reducible apply Hw.Only.refl
    | decide
    | (with_reducible apply Hw.Only.ite <;> intro _)
    | (with_reducible apply Hw.Only.ite2 <;> intro _)
    | (with_reducible apply Hw.Only.foldl)
    | (intro (_ : Hw); intro _)
    | (intro (_ : Hw))
    | (with_reducible apply Hw.Only.foldlP)
    | (intro (_ : _ × Hw); intro _)
    | (with_reducible apply Hw.Only.step ?_ (Hw.wr_only ..))
    | (with_reducible apply Hw.Only.step ?_ (Hw.bootStart_only ..))
    | dsimp only
    | split
    | (with_reducible apply Hw.Only.step ?_ (Hw.with_railFault ..)))

theorem execClkFault_within (die : Nat) (s : State) {s' : State} (hn : execClkFault die s = .next s') :
    s.Within [0] [.mbx, .sb, .queues, .front, .buckets, .folded, .erSel, .ptp, .itv, .up, .enc, .pos, .hwmOn, .leaving, .ports, .spits, .changes, .banks, .bankFrom, .codec, .ctxs, .ctxCache, .streams, .stop, .cams, .ispRun, .chains, .lamps, .mx, .crit, .cals, .lineFaults, .pdWork] [.blks, .stages, .replies, .mode, .lead, .leadSt, .takeover, .kennelWriting, .kennelFailRun, .kennelLateSeen, .moving, .ckptWork, .repairWork, .repairArmed, .safeFrom, .pkg, .fwSlots, .fw, .fwBooted, .bootWatch, .eps, .tunnels, .hsIn, .ghRelease, .hostedWait, .fwKept, .resetDue, .clkFault, .hsForce, .hsPins, .hsOn, .hsSeen, .gh, .wipes] s' := by
  unfold execClkFault at hn
  refine State.within_onDie (G := [.blks, .stages, .replies, .mode, .lead, .leadSt, .takeover, .kennelWriting, .kennelFailRun, .kennelLateSeen, .moving, .ckptWork, .repairWork, .repairArmed, .safeFrom, .pkg, .fwSlots, .fw, .fwBooted, .bootWatch, .eps, .tunnels, .hsIn, .ghRelease, .hostedWait, .fwKept, .resetDue, .clkFault, .hsForce, .hsPins, .hsOn, .hsSeen, .gh, .wipes]) hn (fun ms k => ?_)
  try simp only
  repeat' (first
    | with_reducible apply Hw.Only.refl
    | (intro D x hx; cases x <;> first | exact absurd (by decide) hx | exact rfl)
    | decide
    | (with_reducible apply Hw.Only.ite <;> intro _)
    | (with_reducible apply Hw.Only.ite2 <;> intro _)
    | (with_reducible apply Hw.Only.step ?_ (Hw.add_only ..))
    | (with_reducible apply Hw.Only.step ?_ (Hw.holdReset_only ..))
    | (with_reducible apply Hw.Only.step ?_ (Hw.onDie_only [] _ _ _ ?_))
    | dsimp only
    | split
    | (with_reducible apply Hw.Only.step ?_ (Hw.with_clkFault ..)))

theorem execClockGood_within (straps gapNs : Nat) (s : State) {s' : State} (hn : execClockGood straps gapNs s = .next s') :
    s.Within [0x1F, A.bl_strap.code, A.rx_lat_ps.code, A.tx_lat_ps.code, A.shutdown.code, A.cal_state.code, A.cal_runs.code, A.cal_tb0.code, A.cal_temp.code, A.quality.code, A.pd_on.code, A.reset_cause.code, A.boot_count.code, A.straps.code] [.front, .buckets, .folded, .up, .cals] [.clk, .bl, .faultMask, .fwSlots, .fwBooted, .bootWatch, .fwKept, .railFault, .clkFault] s' := by
  unfold execClockGood at hn
  refine State.within_onPkg (G := [.clk, .bl, .faultMask, .fwSlots, .fwBooted, .bootWatch, .fwKept, .railFault, .clkFault]) hn (fun ms k => ?_)
  try simp only
  repeat' (first
    | with_reducible apply Hw.Only.refl
    | decide
    | (with_reducible apply Hw.Only.ite <;> intro _)
    | (with_reducible apply Hw.Only.ite2 <;> intro _)
    | (with_reducible apply Hw.Only.foldl)
    | (intro (_ : Hw); intro _)
    | (intro (_ : Hw))
    | (with_reducible apply Hw.Only.foldlP)
    | (intro (_ : _ × Hw); intro _)
    | (with_reducible apply Hw.Only.step ?_ (Hw.bootStart_only ..))
    | (with_reducible apply Hw.Only.step ?_ (Hw.event_only ..))
    | dsimp only
    | split
    | (with_reducible apply Hw.Only.step ?_ (Hw.with_clk_clkFault ..)))

theorem execBootWatchdog_within (straps : Nat) (confirmed : Bool) (s : State) {s' : State} (hn : execBootWatchdog straps confirmed s = .next s') :
    s.Within [0] [.mbx, .sb, .queues, .front, .buckets, .folded, .erSel, .ptp, .itv, .up, .enc, .pos, .hwmOn, .leaving, .ports, .spits, .changes, .banks, .bankFrom, .codec, .ctxs, .ctxCache, .streams, .stop, .cams, .ispRun, .chains, .lamps, .mx, .crit, .cals, .lineFaults, .pdWork] [.blks, .stages, .replies, .bl, .mode, .lead, .leadSt, .takeover, .kennelWriting, .kennelFailRun, .kennelLateSeen, .moving, .ckptWork, .repairWork, .repairArmed, .safeFrom, .pkg, .faultMask, .fwSlots, .fw, .fwBooted, .bootWatch, .eps, .tunnels, .hsIn, .ghRelease, .hostedWait, .fwKept, .resetDue, .railFault, .clkFault, .hsForce, .hsPins, .hsOn, .hsSeen, .gh, .wipes] s' := by
  unfold execBootWatchdog at hn
  refine State.within_onPkg (G := [.blks, .stages, .replies, .bl, .mode, .lead, .leadSt, .takeover, .kennelWriting, .kennelFailRun, .kennelLateSeen, .moving, .ckptWork, .repairWork, .repairArmed, .safeFrom, .pkg, .faultMask, .fwSlots, .fw, .fwBooted, .bootWatch, .eps, .tunnels, .hsIn, .ghRelease, .hostedWait, .fwKept, .resetDue, .railFault, .clkFault, .hsForce, .hsPins, .hsOn, .hsSeen, .gh, .wipes]) hn (fun ms k => ?_)
  try simp only
  repeat' (first
    | with_reducible apply Hw.Only.refl
    | decide
    | (with_reducible apply Hw.Only.ite <;> intro _)
    | (with_reducible apply Hw.Only.ite2 <;> intro _)
    | (with_reducible apply Hw.Only.step ?_ (Hw.bootStart_only ..))
    | (with_reducible apply Hw.Only.step ?_ (Hw.resetPkg_only ..))
    | dsimp only
    | split)

theorem execDieBootTimeout_within (die : Nat) (s : State) {s' : State} (hn : execDieBootTimeout die s = .next s') :
    s.Within [0] [.mbx, .sb, .queues, .front, .buckets, .folded, .erSel, .ptp, .itv, .up, .enc, .pos, .hwmOn, .leaving, .ports, .spits, .changes, .banks, .bankFrom, .codec, .ctxs, .ctxCache, .streams, .stop, .cams, .ispRun, .chains, .lamps, .mx, .crit, .cals, .lineFaults, .pdWork] [.blks, .stages, .faultMask, .fwBooted, .bootWatch, .eps, .hsPins, .wipes] s' := by
  unfold execDieBootTimeout at hn
  refine State.within_onDie (G := [.blks, .stages, .faultMask, .fwBooted, .bootWatch, .eps, .hsPins, .wipes]) hn (fun ms k => ?_)
  try simp only
  repeat' (first
    | with_reducible apply Hw.Only.refl
    | (intro D x hx; cases x <;> first | exact absurd (by decide) hx | exact rfl)
    | decide
    | (with_reducible apply Hw.Only.ite <;> intro _)
    | (with_reducible apply Hw.Only.ite2 <;> intro _)
    | (with_reducible apply Hw.Only.step ?_ (Hw.dieDown_only ..))
    | (with_reducible apply Hw.Only.step ?_ (Hw.setFault_only ..))
    | (with_reducible apply Hw.Only.step ?_ (Hw.onDie_only [] _ _ _ ?_))
    | dsimp only
    | split
    | (apply Hw.Only.of_pair; assumption)
    | (apply Hw.Only.of_triple; assumption)
    | (with_reducible apply Hw.Only.step ?_ (Hw.with_bootWatch_fwBooted ..)))

/-! ### Power -/

theorem execDomainOn_within (h : Hdr) (die mask : Nat) (s : State) {s' : State} (hn : execDomainOn h die mask s = .next s') :
    s.Within [0x1F, A.cfg_changes.code, A.pd_busy.code] [.mbx, .front, .buckets, .folded, .pdWork] [.nextId, .replies, .pkg] s' := by
  unfold execDomainOn at hn
  unfold powerCommand at hn
  split at hn <;> try contradiction
  refine State.within_command (G := [.nextId, .replies, .pkg]) hn (fun ms d k => ?_) (by decide) (by decide)
  try simp only
  repeat' (first
    | with_reducible apply Hw.Only.refl
    | decide
    | (with_reducible apply Hw.Only.ite <;> intro _)
    | (with_reducible apply Hw.Only.ite2 <;> intro _)
    | (intro (_ : Hw); intro _)
    | (intro (_ : Hw))
    | (with_reducible apply Hw.Only.step ?_ (Hw.switchOn_only ..))
    | (with_reducible apply Hw.Only.step ?_ (refuse_only ..))
    | (with_reducible apply Hw.Only.step ?_ (Hw.deferWork_only ..))
    | (with_reducible apply Hw.Only.step ?_ (Hw.settle_only ..))
    | (with_reducible apply Hw.Only.step ?_ (Hw.command_only (C := [0x1f, 0x10021, 0x200002]) (F := [.mbx, .front, .buckets, .folded, .pdWork]) (G := [.nextId, .replies, .pkg, .out]) ?_ ?_ ..))
    | dsimp only
    | split
    | (apply Hw.Only.of_pair; assumption)
    | (apply Hw.Only.of_triple; assumption))

theorem execDomainOff_within (h : Hdr) (die mask : Nat) (s : State) {s' : State} (hn : execDomainOff h die mask s = .next s') :
    s.Within [0] [.mbx, .queues, .front, .buckets, .folded, .ptp, .itv, .up, .enc, .pos, .hwmOn, .leaving, .ports, .spits, .changes, .banks, .bankFrom, .codec, .ctxs, .ctxCache, .streams, .stop, .cams, .ispRun, .chains, .lamps, .mx, .lineFaults] [.blks, .stages, .replies, .lead, .leadSt, .takeover, .kennelWriting, .faultMask, .eps, .hsPins, .wipes] s' := by
  unfold execDomainOff at hn
  unfold powerCommand at hn
  split at hn <;> try contradiction
  refine State.within_command (G := [.blks, .stages, .replies, .lead, .leadSt, .takeover, .kennelWriting, .faultMask, .eps, .hsPins, .wipes]) hn (fun ms d k => ?_) (by decide) (by decide)
  try simp only
  repeat' (first
    | with_reducible apply Hw.Only.refl
    | decide
    | (with_reducible apply Hw.Only.ite <;> intro _)
    | (with_reducible apply Hw.Only.ite2 <;> intro _)
    | (intro (_ : Hw); intro _)
    | (intro (_ : Hw))
    | (with_reducible apply Hw.Only.step ?_ (Hw.wr_only ..))
    | (with_reducible apply Hw.Only.step ?_ (Hw.domainsOff_only ..))
    | (with_reducible apply Hw.Only.step ?_ (Hw.setFault_only ..))
    | (with_reducible apply Hw.Only.step ?_ (refuse_only ..))
    | (with_reducible apply Hw.Only.step ?_ (okWith_only ..))
    | (with_reducible apply Hw.Only.step ?_ (Hw.command_only (C := [0x0]) (F := [.mbx, .queues, .front, .buckets, .folded, .ptp, .itv, .up, .enc, .pos, .hwmOn, .leaving, .ports, .spits, .changes, .banks, .bankFrom, .codec, .ctxs, .ctxCache, .streams, .stop, .cams, .ispRun, .chains, .lamps, .mx, .lineFaults]) (G := [.blks, .stages, .replies, .lead, .leadSt, .takeover, .kennelWriting, .faultMask, .eps, .hsPins, .wipes, .out]) ?_ ?_ ..))
    | dsimp only
    | split)

theorem execDieReset_within (h : Hdr) (die : Nat) (s : State) {s' : State} (hn : execDieReset h die s = .next s') :
    s.Within [0] [.mbx, .sb, .queues, .front, .buckets, .folded, .erSel, .ptp, .itv, .up, .enc, .pos, .hwmOn, .leaving, .ports, .spits, .changes, .banks, .bankFrom, .codec, .ctxs, .ctxCache, .streams, .stop, .cams, .ispRun, .chains, .lamps, .mx, .crit, .cals, .lineFaults, .pdWork] [.blks, .stages, .nextId, .replies, .leadSt, .pkg, .eps, .hsPins, .wipes] s' := by
  unfold execDieReset at hn
  unfold powerCommand at hn
  split at hn <;> try contradiction
  refine State.within_command (G := [.blks, .stages, .nextId, .replies, .leadSt, .pkg, .eps, .hsPins, .wipes]) hn (fun ms d k => ?_) (by decide) (by decide)
  try simp only
  repeat' (first
    | with_reducible apply Hw.Only.refl
    | decide
    | (with_reducible apply Hw.Only.ite <;> intro _)
    | (with_reducible apply Hw.Only.ite2 <;> intro _)
    | (intro (_ : Hw); intro _)
    | (intro (_ : Hw))
    | (with_reducible apply Hw.Only.step ?_ (Hw.wr_only ..))
    | (with_reducible apply Hw.Only.step ?_ (Hw.dieResetFor_only ..))
    | (with_reducible apply Hw.Only.step ?_ (Hw.switchOn_only ..))
    | (with_reducible apply Hw.Only.step ?_ (refuse_only ..))
    | (with_reducible apply Hw.Only.step ?_ (Hw.deferWork_only ..))
    | (with_reducible apply Hw.Only.step ?_ (Hw.command_only (C := [0x0]) (F := [.mbx, .sb, .queues, .front, .buckets, .folded, .erSel, .ptp, .itv, .up, .enc, .pos, .hwmOn, .leaving, .ports, .spits, .changes, .banks, .bankFrom, .codec, .ctxs, .ctxCache, .streams, .stop, .cams, .ispRun, .chains, .lamps, .mx, .crit, .cals, .lineFaults, .pdWork]) (G := [.blks, .stages, .nextId, .replies, .leadSt, .pkg, .eps, .hsPins, .wipes, .out]) ?_ ?_ ..))
    | dsimp only
    | split
    | (apply Hw.Only.of_pair; assumption)
    | (apply Hw.Only.of_triple; assumption))

theorem execPkgReset_within (h : Hdr) (s : State) {s' : State} (hn : execPkgReset h s = .next s') :
    s.Within [0x1F, A.cfg_changes.code] [.mbx, .front, .buckets, .folded] [.replies, .resetDue] s' := by
  unfold execPkgReset at hn
  refine State.within_command (G := [.replies, .resetDue]) hn (fun ms d k => ?_) (by decide) (by decide)
  try simp only
  repeat' (first
    | with_reducible apply Hw.Only.refl
    | decide
    | (with_reducible apply Hw.Only.ite <;> intro _)
    | (with_reducible apply Hw.Only.ite2 <;> intro _)
    | (intro (_ : Hw); intro _)
    | (intro (_ : Hw))
    | (with_reducible apply Hw.Only.step ?_ (refuse_only ..))
    | (with_reducible apply Hw.Only.step ?_ (okWith_only ..))
    | (with_reducible apply Hw.Only.step ?_ (Hw.command_only (C := [0x1f, 0x10021]) (F := [.mbx, .front, .buckets, .folded]) (G := [.replies, .resetDue, .out]) ?_ ?_ ..))
    | dsimp only
    | split
    | (with_reducible apply Hw.Only.step ?_ (Hw.with_resetDue ..)))

theorem execTripClear_within (h : Hdr) (die : Nat) (s : State) {s' : State} (hn : execTripClear h die s = .next s') :
    s.Within [0x1F, A.cfg_changes.code, A.trip_latched.code, A.pd_busy.code, A.reset_cause.code] [.mbx, .front, .buckets, .folded, .pdWork] [.nextId, .replies, .pkg] s' := by
  unfold execTripClear at hn
  unfold powerCommand at hn
  split at hn <;> try contradiction
  refine State.within_command (G := [.nextId, .replies, .pkg]) hn (fun ms d k => ?_) (by decide) (by decide)
  try simp only
  repeat' (first
    | with_reducible apply Hw.Only.refl
    | decide
    | (with_reducible apply Hw.Only.ite <;> intro _)
    | (with_reducible apply Hw.Only.ite2 <;> intro _)
    | (intro (_ : Hw); intro _)
    | (intro (_ : Hw))
    | (with_reducible apply Hw.Only.step ?_ (Hw.wr_only ..))
    | (with_reducible apply Hw.Only.step ?_ (Hw.switchOn_only ..))
    | (with_reducible apply Hw.Only.step ?_ (refuse_only ..))
    | (with_reducible apply Hw.Only.step ?_ (Hw.deferWork_only ..))
    | (with_reducible apply Hw.Only.step ?_ (Hw.settle_only ..))
    | (with_reducible apply Hw.Only.step ?_ (Hw.command_only (C := [0x1f, 0x10021, 0x1c000b, 0x200002, 0x200003]) (F := [.mbx, .front, .buckets, .folded, .pdWork]) (G := [.nextId, .replies, .pkg, .out]) ?_ ?_ ..))
    | dsimp only
    | split
    | (apply Hw.Only.of_pair; assumption)
    | (apply Hw.Only.of_triple; assumption))

theorem execDomainSwitchDone_within (die : Nat) (s : State) {s' : State} (hn : execDomainSwitchDone die s = .next s') :
    s.Within [0x1F, A.q_enabled.code, A.port_offset_nm.code, A.commit_lead_ns.code, A.bank_state.code, A.build_seq.code, A.build_us.code, A.saturated.code, A.rx_lat_ps.code, A.tx_lat_ps.code, A.shutdown.code, A.cal_state.code, A.cal_runs.code, A.cal_tb0.code, A.cal_temp.code, A.quality.code, A.ld_states.code, A.pd_on.code, A.pd_busy.code, A.boot_count.code, A.boot_ms.code] [.mbx, .queues, .front, .buckets, .folded, .up, .banks, .cals, .pdWork] [.blks, .free, .leadSt, .pkg, .faultMask, .stores] s' := by
  unfold execDomainSwitchDone at hn
  refine State.within_onDie (G := [.blks, .free, .leadSt, .pkg, .faultMask, .stores]) hn (fun ms k => ?_)
  try simp only
  repeat' (first
    | with_reducible apply Hw.Only.refl
    | (intro D x hx; cases x <;> first | exact absurd (by decide) hx | exact rfl)
    | decide
    | (with_reducible apply Hw.Only.ite <;> intro _)
    | (with_reducible apply Hw.Only.ite2 <;> intro _)
    | (with_reducible apply Hw.Only.foldl)
    | (intro (_ : Hw); intro _)
    | (intro (_ : Hw))
    | (with_reducible apply Hw.Only.foldlP)
    | (intro (_ : _ × Hw); intro _)
    | (with_reducible apply Hw.Only.step ?_ (Hw.wr_only ..))
    | (with_reducible apply Hw.Only.step ?_ (Hw.switchedOn_only ..))
    | (with_reducible apply Hw.Only.step ?_ (Hw.onDie_only [.pdWork] _ _ _ ?_))
    | dsimp only
    | split)

/-! ### Script -/

theorem execModeSetHosted_within (h : Hdr) (s : State) {s' : State} (hn : execModeSetHosted h s = .next s') :
    s.Within [0] [.mbx, .queues, .front, .buckets, .folded, .hwmOn, .leaving, .ports, .changes, .ctxs, .stop] [.nextId, .replies, .mode, .pkg, .eps, .hostedWait, .hsPins, .gh, .stores] s' := by
  unfold execModeSetHosted at hn
  refine State.within_command (G := [.nextId, .replies, .mode, .pkg, .eps, .hostedWait, .hsPins, .gh, .stores]) hn (fun ms d k => ?_) (by decide) (by decide)
  try simp only
  repeat' (first
    | with_reducible apply Hw.Only.refl
    | decide
    | (intro (_ : Hw); intro _)
    | (intro (_ : Hw))
    | (with_reducible apply Hw.Only.step ?_ (modeHosted_only ..))
    | (with_reducible apply Hw.Only.step ?_ (Hw.command_only (C := [0x0]) (F := [.mbx, .queues, .front, .buckets, .folded, .hwmOn, .leaving, .ports, .changes, .ctxs, .stop]) (G := [.nextId, .replies, .mode, .pkg, .eps, .hostedWait, .hsPins, .gh, .stores, .out]) ?_ ?_ ..))
    | dsimp only
    | split)

/-! ### Mailbox -/

theorem execMbxSlotWrite_within (die ep slot off : Nat) (data : List Byte) (s : State) {s' : State} (hn : execMbxSlotWrite die ep slot off data s = .next s') :
    s.Within [0x1F, A.sources_seen.code, A.cfg_changes.code, A.bar_rejects.code] [.mbx, .front, .buckets, .folded] [.pkg] s' := by
  unfold execMbxSlotWrite at hn
  split at hn <;> try contradiction
  refine State.within_onUnit (G := [.pkg]) hn (fun ms k => ?_)
  try simp only
  repeat' (first
    | with_reducible apply Hw.Only.refl
    | decide
    | (with_reducible apply Hw.Only.ite <;> intro _)
    | (with_reducible apply Hw.Only.ite2 <;> intro _)
    | (with_reducible apply Hw.Only.step ?_ (Hw.slotWrite_only ..))
    | (with_reducible apply Hw.Only.step ?_ (Hw.barReject_only ..))
    | dsimp only
    | split)

theorem execMbxRing_within (die ep mask : Nat) (s : State) {s' : State} (hn : execMbxRing die ep mask s = .next s') :
    s.Within [0x1F, A.sources_seen.code, A.cfg_changes.code, A.tx_pm.code, A.rx_pm.code, A.frames_tx.code] [.mbx, .front, .buckets, .folded, .itv] [.replies, .pkg, .tunnels] s' := by
  unfold execMbxRing at hn
  refine State.within_onUnit (G := [.replies, .pkg, .tunnels]) hn (fun ms k => ?_)
  try simp only
  repeat' (first
    | with_reducible apply Hw.Only.refl
    | decide
    | (with_reducible apply Hw.Only.step ?_ (Hw.rings_only ..))
    | dsimp only
    | split)

theorem execCommandTimeout_within (origin : Origin) (tag : Nat) (s : State) {s' : State} (hn : execCommandTimeout origin tag s = .next s') :
    s.Within [0x1F, A.mbx_timeouts.code, A.cfg_changes.code, A.q_max_depth.code, A.q_pushes.code, A.q_overflows.code, A.q_rewinds.code, A.q_oversize.code, A.q_pkt_bad.code, A.tx_pm.code, A.rx_pm.code, A.frames_tx.code] [.mbx, .queues, .front, .buckets, .folded, .itv] [.replies, .eps, .tunnels, .gh, .stores] s' := by
  unfold execCommandTimeout at hn
  refine State.within_onPkg (G := [.replies, .eps, .tunnels, .gh, .stores]) hn (fun ms k => ?_)
  try simp only
  repeat' (first
    | with_reducible apply Hw.Only.refl
    | decide
    | (with_reducible apply Hw.Only.ite <;> intro _)
    | (with_reducible apply Hw.Only.ite2 <;> intro _)
    | (intro (_ : Hw); intro _)
    | (intro (_ : Hw))
    | (with_reducible apply Hw.Only.step ?_ (Hw.add_only ..))
    | (with_reducible apply Hw.Only.step ?_ (Hw.deliver_only ..))
    | (with_reducible apply Hw.Only.step ?_ (Hw.rildin_only (C := [0x1f, 0x10012, 0x10021, 0x20005, 0x20010, 0x20013, 0x20014, 0x20015, 0x20016, 0x19000c, 0x19000d, 0x190024]) (F := [.mbx, .queues, .front, .buckets, .folded, .itv]) (G := [.replies, .eps, .tunnels, .gh, .stores, .out]) ?_ ?_ ..))
    | (with_reducible apply Hw.Only.step ?_ (Hw.configChange_only ..))
    | (with_reducible apply Hw.Only.step ?_ (Hw.event_only ..))
    | dsimp only
    | split
    | (apply Hw.Only.of_pair; assumption)
    | (apply Hw.Only.of_triple; assumption))

theorem execRemoteMailboxDatagram_within (die eth ip port : Nat) (data : List Byte) (s : State) {s' : State} (hn : execRemoteMailboxDatagram die eth ip port data s = .next s') :
    s.Within [0x1F, A.rmbx_bad.code, A.sources_seen.code, A.cfg_changes.code, A.eth_drops.code, A.tx_pm.code, A.rx_pm.code, A.frames_tx.code] [.mbx, .front, .buckets, .folded, .itv] [.replies, .pkg, .tunnels] s' := by
  unfold execRemoteMailboxDatagram at hn
  refine State.within_onUnit (G := [.replies, .pkg, .tunnels]) hn (fun ms k => ?_)
  try simp only
  repeat' (first
    | with_reducible apply Hw.Only.refl
    | decide
    | (with_reducible apply Hw.Only.ite <;> intro _)
    | (with_reducible apply Hw.Only.ite2 <;> intro _)
    | (with_reducible apply Hw.Only.step ?_ (Hw.remoteDatagram_only ..))
    | dsimp only
    | split)

theorem execItvFrameReceive_within (die : Nat) (crcOk : Bool) (type hops dst src seq ack : Nat) (payload : List Byte) (s : State) {s' : State} (hn : execItvFrameReceive die crcOk type hops dst src seq ack payload s = .next s') :
    s.Within [0x1F, A.mbx_late_replies.code, A.sources_seen.code, A.cfg_changes.code, A.itv_state.code, A.itv_gen.code, A.train_step.code, A.tx_pm.code, A.rx_pm.code, A.itv_crc_errs.code, A.replays.code, A.frames_tx.code, A.frames_rx.code, A.link_downs.code, A.sys_role.code, A.master_serial.code, A.upstream.code] [.mbx, .front, .buckets, .folded, .itv] [.replies, .pkg, .tunnels] s' := by
  unfold execItvFrameReceive at hn
  refine State.within_onDie (G := [.replies, .pkg, .tunnels]) hn (fun ms k => ?_)
  try simp only
  repeat' (first
    | with_reducible apply Hw.Only.refl
    | (intro D x hx; cases x <;> first | exact absurd (by decide) hx | exact rfl)
    | decide
    | (with_reducible apply Hw.Only.ite <;> intro _)
    | (with_reducible apply Hw.Only.ite2 <;> intro _)
    | (with_reducible apply Hw.Only.step ?_ (Hw.linkFrame_only ..))
    | (with_reducible apply Hw.Only.step ?_ (Hw.linkAccept_only ..))
    | (with_reducible apply Hw.Only.step ?_ (Hw.onDie_only [] _ _ _ ?_))
    | (with_reducible apply Hw.Only.step ?_ (Hw.itvPm_only ..))
    | dsimp only
    | split)

theorem execTunnelDatagram_within (die port ip udp : Nat) (crcOk : Bool) (type hops dst src seq ack : Nat) (payload : List Byte) (s : State) {s' : State} (hn : execTunnelDatagram die port ip udp crcOk type hops dst src seq ack payload s = .next s') :
    s.Within [0x1F, A.mbx_late_replies.code, A.sources_seen.code, A.cfg_changes.code, A.eth_drops.code, A.itv_state.code, A.itv_gen.code, A.train_step.code, A.tx_pm.code, A.rx_pm.code, A.itv_crc_errs.code, A.replays.code, A.frames_tx.code, A.frames_rx.code, A.link_downs.code, A.sys_role.code, A.master_serial.code, A.upstream.code] [.mbx, .front, .buckets, .folded, .itv] [.replies, .pkg, .tunnels] s' := by
  unfold execTunnelDatagram at hn
  refine State.within_onUnit (G := [.replies, .pkg, .tunnels]) hn (fun ms k => ?_)
  try simp only
  repeat' (first
    | with_reducible apply Hw.Only.refl
    | decide
    | (with_reducible apply Hw.Only.ite <;> intro _)
    | (with_reducible apply Hw.Only.ite2 <;> intro _)
    | (with_reducible apply Hw.Only.step ?_ (Hw.tunnelFrame_only ..))
    | dsimp only
    | split)

theorem execEthDatagram_within (die port ip src dst : Nat) (data : List Byte) (s : State) {s' : State} (hn : execEthDatagram die port ip src dst data s = .next s') :
    s.Within [0x1F, A.mbx_late_replies.code, A.rmbx_bad.code, A.sources_seen.code, A.cfg_changes.code, A.q_max_depth.code, A.q_pushes.code, A.q_overflows.code, A.q_rewinds.code, A.q_oversize.code, A.q_pkt_bad.code, A.st_next_seq.code, A.st_credit.code, A.grt_dup.code, A.grt_gaps.code, A.grt_over_credit.code, A.grt_bad.code, A.eth_drops.code, A.itv_state.code, A.itv_gen.code, A.train_step.code, A.tx_pm.code, A.rx_pm.code, A.itv_crc_errs.code, A.replays.code, A.frames_tx.code, A.frames_rx.code, A.link_downs.code, A.sys_role.code, A.master_serial.code, A.upstream.code] [.mbx, .queues, .front, .buckets, .folded, .itv, .streams] [.replies, .pkg, .eps, .tunnels, .stores] s' := by
  unfold execEthDatagram at hn
  refine State.within_onUnit (G := [.replies, .pkg, .eps, .tunnels, .stores]) hn (fun ms k => ?_)
  try simp only
  repeat' (first
    | with_reducible apply Hw.Only.refl
    | decide
    | (with_reducible apply Hw.Only.ite <;> intro _)
    | (with_reducible apply Hw.Only.ite2 <;> intro _)
    | (with_reducible apply Hw.Only.step ?_ (Hw.add_only ..))
    | (with_reducible apply Hw.Only.step ?_ (Hw.grtDatagram_only ..))
    | (with_reducible apply Hw.Only.step ?_ (Hw.tunnelFrame_only ..))
    | (with_reducible apply Hw.Only.step ?_ (Hw.remoteDatagram_only ..))
    | dsimp only
    | split)

theorem execRegisterWrite_within (die ep off width value : Nat) (s : State) {s' : State} (hn : execRegisterWrite die ep off width value s = .next s') :
    s.Within [0x1F, A.sources_seen.code, A.cfg_changes.code, A.q_max_depth.code, A.q_pushes.code, A.q_pops.code, A.q_underruns.code, A.q_overflows.code, A.q_pkt_bad.code, A.bar_rejects.code, A.tx_pm.code, A.rx_pm.code, A.frames_tx.code] [.mbx, .queues, .front, .buckets, .folded, .erSel, .itv, .streams] [.replies, .pkg, .eps, .tunnels] s' := by
  unfold execRegisterWrite at hn
  refine State.within_onUnit (G := [.replies, .pkg, .eps, .tunnels]) hn (fun ms k => ?_)
  try simp only
  repeat' (first
    | with_reducible apply Hw.Only.refl
    | decide
    | (with_reducible apply Hw.Only.ite <;> intro _)
    | (with_reducible apply Hw.Only.ite2 <;> intro _)
    | (with_reducible apply Hw.Only.step ?_ (Hw.selectWrite_only ..))
    | (with_reducible apply Hw.Only.step ?_ (Hw.bar4Write_only ..))
    | (with_reducible apply Hw.Only.step ?_ (Hw.pointerWrite_only ..))
    | (with_reducible apply Hw.Only.step ?_ (Hw.doorbellWrite_only ..))
    | (with_reducible apply Hw.Only.step ?_ (Hw.slotWrite_only ..))
    | (with_reducible apply Hw.Only.step ?_ (Hw.barReject_only ..))
    | dsimp only
    | split)

theorem execBarRcRead_within (die ep off width : Nat) (s : State) {s' : State} (hn : execBarRcRead die ep off width s = .next s') :
    s.Within [] [.mbx, .streams] [] s' := by
  unfold execBarRcRead at hn
  refine State.within_onUnit (G := []) hn (fun ms k => ?_)
  try simp only
  repeat' (first
    | with_reducible apply Hw.Only.refl
    | decide
    | (with_reducible apply Hw.Only.ite <;> intro _)
    | (with_reducible apply Hw.Only.ite2 <;> intro _)
    | (with_reducible apply Hw.Only.step ?_ (Hw.emit_only ..))
    | (with_reducible apply Hw.Only.step ?_ (Hw.onMbx_only ..))
    | dsimp only
    | split)

theorem execBar2Access_within (ep off : Nat) (write : Bool) (data : List Byte) (s : State) {s' : State} (hn : execBar2Access ep off write data s = .next s') :
    s.Within [0x1F, A.sources_seen.code, A.cfg_changes.code, A.bar_rejects.code] [.front, .buckets, .folded] [.pkg, .stores] s' := by
  unfold execBar2Access at hn
  refine State.within_onUnit (G := [.pkg, .stores]) hn (fun ms k => ?_)
  try simp only
  repeat' (first
    | with_reducible apply Hw.Only.refl
    | decide
    | (with_reducible apply Hw.Only.ite <;> intro _)
    | (with_reducible apply Hw.Only.ite2 <;> intro _)
    | (with_reducible apply Hw.Only.step ?_ (Hw.emit_only ..))
    | (with_reducible apply Hw.Only.step ?_ (Hw.deviceWrite_only ..))
    | (with_reducible apply Hw.Only.step ?_ (Hw.barReject_only ..))
    | dsimp only
    | split
    | (apply Hw.Only.of_pair; assumption)
    | (apply Hw.Only.of_triple; assumption))

end Sys2Proof.Machine
end

