-- ==== Sys2Proof/Laws/Memory.lean ====
section
/-!
SUPPORT. The laws of the memories: a read after a write, the canonical form kept by every memory operation, and what the
stores and losses of a step can reach (R25, R35).
-/
namespace Sys2Proof.Machine

/-! ### One byte -/

theorem memSorted_mono {m : List Host.Cell} {lo lo' : Nat} (h : lo' ≤ lo) (hm : memSorted lo m = true) :
    memSorted lo' m = true := by
  cases m with
  | nil => rfl
  | cons c m =>
    obtain ⟨b, w⟩ := c
    simp only [memSorted, Bool.and_eq_true, decide_eq_true_eq] at hm ⊢
    exact ⟨⟨by omega, hm.1.2⟩, hm.2⟩

/-- No listed address lies below the bound: a read below it is 0. -/
theorem memRead_below {m : List Host.Cell} {lo a : Nat} (hm : memSorted lo m = true) (h : a < lo) : memRead m a = 0 := by
  cases m with
  | nil => rfl
  | cons c m =>
    obtain ⟨b, w⟩ := c
    simp only [memSorted, Bool.and_eq_true, decide_eq_true_eq] at hm
    have : a < b := by omega
    simp [memRead, this]

theorem memSorted_cons {m : List Host.Cell} {lo a : Nat} {v : Byte} (hl : lo ≤ a) (hm : memSorted (a + 1) m = true) :
    memSorted lo (memCons a v m) = true := by
  unfold memCons
  split
  · exact memSorted_mono (by omega) hm
  · rename_i hv
    simpa [memSorted, hl, hm] using hv

/-- A write keeps the canonical form. -/
theorem memSorted_write {m : List Host.Cell} {lo a : Nat} (v : Byte) (hl : lo ≤ a) (hm : memSorted lo m = true) :
    memSorted lo (memWrite m a v) = true := by
  induction m generalizing lo with
  | nil => exact memSorted_cons hl rfl
  | cons c m ih =>
    obtain ⟨b, w⟩ := c
    have h := hm
    simp only [memSorted, Bool.and_eq_true, decide_eq_true_eq] at h
    simp only [memWrite]
    split
    · rename_i hab
      refine memSorted_cons hl ?_
      simp only [memSorted, Bool.and_eq_true, decide_eq_true_eq]
      exact ⟨⟨by omega, h.1.2⟩, h.2⟩
    · split
      · rename_i hab
        subst hab
        exact memSorted_cons hl h.2
      · rename_i h1 h2
        have := ih (lo := b + 1) (by omega) h.2
        simp only [memSorted, Bool.and_eq_true, decide_eq_true_eq]
        exact ⟨h.1, this⟩

theorem memRead_cons {m : List Host.Cell} {a : Nat} {v : Byte} (hm : memSorted (a + 1) m = true) (x : Nat) :
    memRead (memCons a v m) x = if x = a then v else memRead m x := by
  unfold memCons
  split
  · rename_i hv
    split
    · rename_i hx
      subst hx
      rw [memRead_below hm (by omega), hv]
    · rfl
  · simp only [memRead]
    split
    · rename_i h
      rw [if_neg (by omega), memRead_below hm (by omega)]
    · rfl

/-- A read after a write: the value written at its address, what was there elsewhere. -/
theorem memRead_write {m : List Host.Cell} {lo a : Nat} (v : Byte) (x : Nat) (hm : memSorted lo m = true) :
    memRead (memWrite m a v) x = if x = a then v else memRead m x := by
  induction m generalizing lo with
  | nil => exact memRead_cons (m := []) rfl x
  | cons c m ih =>
    obtain ⟨b, w⟩ := c
    have h := hm
    simp only [memSorted, Bool.and_eq_true, decide_eq_true_eq] at h
    simp only [memWrite]
    split
    · rename_i hab
      refine memRead_cons ?_ x
      simp only [memSorted, Bool.and_eq_true, decide_eq_true_eq]
      exact ⟨⟨by omega, h.1.2⟩, h.2⟩
    · split
      · rename_i hab
        subst hab
        rw [memRead_cons h.2]
        split
        · rfl
        · rename_i hx
          simp only [memRead, if_neg hx]
          split
          · rename_i hlt
            exact memRead_below h.2 (by omega)
          · rfl
      · rename_i h1 h2
        simp only [memRead]
        split
        · rename_i hlt
          rw [if_neg (by omega)]
        · split
          · rename_i hx
            rw [if_neg (by omega)]
          · exact ih h.2

/-! ### The canonical form -/

theorem mem_memWrite {m : List Host.Cell} {a : Nat} {v : Byte} {c : Host.Cell} (h : c ∈ memWrite m a v) :
    c ∈ m ∨ c.1 = a := by
  induction m with
  | nil =>
    simp only [memWrite, memCons] at h
    split at h <;> simp_all
  | cons x m ih =>
    obtain ⟨b, w⟩ := x
    simp only [memWrite, memCons] at h
    split at h
    · split at h <;> simp_all
      rcases h with h | h | h <;> simp_all
    · split at h
      · split at h <;> simp_all
        rcases h with h | h <;> simp_all
      · rcases List.mem_cons.1 h with h | h
        · simp [h]
        · rcases ih h with h | h <;> simp [h]

/-- A byte write inside the 40-bit address space keeps `Memory.wf`. -/
theorem Memory.wf_write {m : List Host.Cell} {a : Nat} (v : Byte) (ha : a < 2 ^ 40) (hm : Memory.wf m = true) :
    Memory.wf (memWrite m a v) = true := by
  simp only [Memory.wf, Bool.and_eq_true, List.all_eq_true, decide_eq_true_eq] at hm ⊢
  refine ⟨memSorted_write v (Nat.zero_le a) hm.1, fun c hc => ?_⟩
  rcases mem_memWrite hc with h | h
  · exact hm.2 c h
  · omega

theorem memSorted_clear {m : List Host.Cell} (p : Host.Cell → Bool) {lo : Nat} (hm : memSorted lo m = true) :
    memSorted lo (m.filter p) = true := by
  induction m generalizing lo with
  | nil => rfl
  | cons c m ih =>
    obtain ⟨b, w⟩ := c
    simp only [memSorted, Bool.and_eq_true, decide_eq_true_eq] at hm
    simp only [List.filter_cons]
    split
    · simp only [memSorted, Bool.and_eq_true, decide_eq_true_eq]
      exact ⟨hm.1, ih hm.2⟩
    · exact memSorted_mono (by omega) (ih hm.2)

/-- Lost contents keep `Memory.wf`. -/
theorem Memory.wf_clear {m : List Host.Cell} (lo hi : Nat) (hm : Memory.wf m = true) : Memory.wf (memClear m lo hi) = true := by
  simp only [Memory.wf, Bool.and_eq_true, List.all_eq_true, decide_eq_true_eq, memClear] at hm ⊢
  refine ⟨memSorted_clear _ hm.1, fun c hc => hm.2 c (List.mem_filter.1 hc).1⟩

/-- An address that holds storage lies in the 40-bit space. -/
theorem stored_lt {a : Nat} (h : stored a = true) : a < 2 ^ 40 := by
  refine Decidable.byContradiction fun hc => ?_
  have h2 : region a = .unmapped := by
    unfold region dramTop
    simp [show ¬ a < 0x1000 by omega, show ¬ a < 0x9000 by omega, show ¬ a < 0x10000 by omega, show ¬ a < 0x30000 by omega,
      show ¬ a < 0x1000000 by omega, show ¬ a ≤ 0x03FFFFFFFF by omega, show ¬ a < 0x1000000000 by omega,
      show ¬ a < 0x1000100000 by omega, show ¬ a < 0x10001C0000 by omega, show ¬ a < 0x1000280000 by omega,
      show ¬ a < 0x1000281000 by omega]
  simp [stored, h2] at h

/-- Stores keep `Memory.wf`. -/
theorem Memory.wf_store {m : List Host.Cell} (a : Nat) (bs : List Byte) (hm : Memory.wf m = true) :
    Memory.wf (memStore m a bs) = true := by
  induction bs generalizing m a with
  | nil => exact hm
  | cons b bs ih =>
    simp only [memStore]
    refine ih _ ?_
    split
    · rename_i h
      exact Memory.wf_write b (stored_lt h) hm
    · exact hm

/-- A read after stores: the byte stored last at the address where storage is, what was there elsewhere. -/
theorem memRead_store {m : List Host.Cell} (a : Nat) (bs : List Byte) (x : Nat) (hm : Memory.wf m = true) :
    memRead (memStore m a bs) x =
      if a ≤ x ∧ x < a + bs.length ∧ stored x = true then bs.getD (x - a) 0 else memRead m x := by
  induction bs generalizing m a with
  | nil => rw [if_neg (fun h => by have := h.2.1; simp only [List.length_nil] at this; omega)]; rfl
  | cons b bs ih =>
    simp only [memStore]
    have hw : Memory.wf (if stored a = true then memWrite m a b else m) = true := by
      split
      · rename_i h
        exact Memory.wf_write b (stored_lt h) hm
      · exact hm
    rw [ih _ hw]
    have hs : memSorted 0 m = true := by
      simp only [Memory.wf, Bool.and_eq_true] at hm
      exact hm.1
    by_cases hx : x = a
    · subst hx
      rw [if_neg (by omega)]
      by_cases hst : stored x = true
      · rw [if_pos hst, memRead_write b x hs]
        simp [hst]
      · rw [if_neg hst, if_neg (by simp [hst])]
    · have hr : memRead (if stored a = true then memWrite m a b else m) x = memRead m x := by
        split
        · rw [memRead_write b x hs, if_neg hx]
        · rfl
      rw [hr]
      by_cases hc : a + 1 ≤ x ∧ x < a + 1 + bs.length ∧ stored x = true
      · rw [if_pos hc, if_pos ⟨by omega, by simp only [List.length_cons]; omega, hc.2.2⟩]
        rw [show x - a = (x - (a + 1)) + 1 by omega]
        rfl
      · rw [if_neg hc, if_neg (fun h => hc ⟨by omega, by have := h.2.1; simp only [List.length_cons] at this; omega, h.2.2⟩)]

/-- An address without storage is not reached by stores. -/
theorem memRead_store_unstored {m : List Host.Cell} (a : Nat) (bs : List Byte) {x : Nat} (hx : stored x = false) :
    memRead (memStore m a bs) x = memRead m x ∨ memSorted 0 m = false := by
  by_cases hm : memSorted 0 m = true
  · left
    induction bs generalizing m a with
    | nil => rfl
    | cons b bs ih =>
      simp only [memStore]
      split
      · rename_i h
        have hxa : x ≠ a := fun e => by simp [e, h] at hx
        rw [ih _ (memSorted_write b (Nat.zero_le a) hm), memRead_write b x hm, if_neg hxa]
      · exact ih _ hm
  · right
    simpa using hm

/-! ### All the memories of a step -/

/-- Every memory in canonical form. -/
theorem wf_modify {ms : List (List Host.Cell)} (d : Nat) {f : List Host.Cell → List Host.Cell}
    (hf : ∀ m, Memory.wf m = true → Memory.wf (f m) = true) (h : ms.all Memory.wf = true) :
    (ms.modify d f).all Memory.wf = true := by
  induction ms generalizing d with
  | nil => simp [List.modify_nil]
  | cons m ms ih =>
    simp only [List.all_cons, Bool.and_eq_true] at h
    cases d with
    | zero => simp [h.2, hf m h.1]
    | succ d => simp [h.1, ih d h.2]

theorem wf_applyStores {ms : List (List Host.Cell)} (l : List (Nat × Nat × List Byte)) (h : ms.all Memory.wf = true) :
    (applyStores ms l).all Memory.wf = true := by
  induction l generalizing ms with
  | nil => exact h
  | cons x l ih => exact ih (wf_modify _ (fun m hm => Memory.wf_store _ _ hm) h)

theorem wf_applyWipes {ms : List (List Host.Cell)} (l : List (Nat × Nat × Nat)) (h : ms.all Memory.wf = true) :
    (applyWipes ms l).all Memory.wf = true := by
  induction l generalizing ms with
  | nil => exact h
  | cons x l ih => exact ih (wf_modify _ (fun m hm => Memory.wf_clear _ _ hm) h)

theorem length_applyStores (ms : List (List Host.Cell)) (l : List (Nat × Nat × List Byte)) :
    (applyStores ms l).length = ms.length := by
  induction l generalizing ms with
  | nil => rfl
  | cons x l ih => simp [applyStores, ih]

theorem length_applyWipes (ms : List (List Host.Cell)) (l : List (Nat × Nat × Nat)) :
    (applyWipes ms l).length = ms.length := by
  induction l generalizing ms with
  | nil => rfl
  | cons x l ih => simp [applyWipes, ih]

end Sys2Proof.Machine
end

