-- ==== Sys2Proof/Laws/Reach.lean ====
section
/-!
SUPPORT. What every answer is made of: the next state of a command is reached by steps' effects on the package's record
(`State.run`) and by additions to the outputs; so whatever these keep, every step keeps.
-/
namespace Sys2Proof.Machine

/-- `t` is reached from `s` by effects on the record and changes of the outputs. -/
inductive State.Reach (s : State) : State → Prop
  | refl : State.Reach s s
  | run {t : State} (h : State.Reach s t) (f : List (List Host.Cell) → Hw → Hw) : State.Reach s (t.run f)
  | out {t : State} (h : State.Reach s t) (o : List Output) : State.Reach s { t with hw := { t.hw with out := o } }

variable {s t u : State}

theorem State.Reach.trans (h : s.Reach t) (k : t.Reach u) : s.Reach u := by
  induction k with
  | refl => exact h
  | run _ f ih => exact ih.run f
  | out _ o ih => exact ih.out o

/-- The queue is untouched. -/
theorem State.Reach.pending (h : s.Reach t) : t.pending = s.pending := by
  induction h with
  | refl => rfl
  | run _ _ ih => exact ih
  | out _ _ ih => exact ih

/-- The memories keep their form. -/
theorem State.Reach.inv (h : s.Reach t) (hi : s.Inv) : t.Inv := by
  induction h with
  | refl => exact hi
  | run _ f ih =>
    obtain ⟨h1, h2, _, _⟩ := ih
    refine ⟨?_, ?_, rfl, rfl⟩
    · rw [State.run_mems, length_applyStores, length_applyWipes, h1]
    · rw [State.run_mems]
      exact wf_applyStores _ (wf_applyWipes _ h2)
  | out _ _ ih => exact ih

theorem State.reach_onPkg {f : List (List Host.Cell) → Hw → Hw} (h : s.onPkg f = .next t) : s.Reach t := by
  injection h with h
  exact h ▸ .run .refl f

theorem State.reach_onDie {d : Nat} {f : List (List Host.Cell) → Hw → Hw} (h : s.onDie d f = .next t) : s.Reach t :=
  (State.of_onDie h).2 ▸ .run .refl f

theorem State.reach_onUnit {d x n : Nat} {f : List (List Host.Cell) → Hw → Hw} (h : s.onUnit d x n f = .next t) : s.Reach t :=
  (State.of_onUnit h).2.2 ▸ .run .refl f

theorem State.reach_command {q : Hdr} {op : Nat} {o : ObjRef} {body : List (List Host.Cell) → Nat → Hw → Reply × Hw}
    (h : s.command q op o body = .next t) : s.Reach t := State.reach_onDie h

theorem State.reach_commandHold {q : Hdr} {op : Nat} {o : ObjRef}
    {body : List (List Host.Cell) → Nat → Hw → Option Reply × Hw} (h : s.commandHold q op o body = .next t) : s.Reach t :=
  State.reach_onDie h

theorem reach_powerCommand {q : Hdr} {die : Nat} {body : Nat → Hw → Reply × Hw} (h : powerCommand q die s body = .next t) :
    s.Reach t := by
  unfold powerCommand at h
  split at h
  · exact State.reach_command h
  · cases h

theorem State.reach_more (f : List (List Host.Cell) → Hw → Hw) : s.Reach (s.more f) := .out (.run .refl f) _

theorem State.reach_also {r : Option (Host.Outcome State Fault Refusal)} (h : ∀ t, r = some (.next t) → s.Reach t) :
    s.Reach (s.also r) := by
  unfold State.also
  split
  · exact (h _ rfl).out _
  · exact .refl

theorem execStallPushRetry_reach {die q : Nat} {s u : State} (h : execStallPushRetry die q s = .next u) :
    s.Reach u := State.reach_onUnit h
theorem execQpWrWrite_reach {die ep q value : Nat} {s u : State} (h : execQpWrWrite die ep q value s = .next u) :
    s.Reach u := State.reach_onUnit h
theorem execQpRdWrite_reach {die ep q value : Nat} {s u : State} (h : execQpRdWrite die ep q value s = .next u) :
    s.Reach u := State.reach_onUnit h
theorem execQueueWriteback_reach {die q : Nat} {s u : State} (h : execQueueWriteback die q s = .next u) :
    s.Reach u := State.reach_onUnit h
theorem execTbChangeApply_reach {die : Nat} {s u : State} (h : execTbChangeApply die s = .next u) :
    s.Reach u := State.reach_onDie h
theorem execTimeAlign_reach {die tb : Nat} {s u : State} (h : execTimeAlign die tb s = .next u) :
    s.Reach u := State.reach_onUnit h
theorem execServoSample_reach {tb gm : Nat} {thetaPs : Int} {t : Nat} {s u : State} (h : execServoSample tb gm thetaPs t s = .next u) :
    s.Reach u := State.reach_onUnit h
theorem execSlewEnd_reach {tb : Nat} {s u : State} (h : execSlewEnd tb s = .next u) :
    s.Reach u := State.reach_onUnit h
theorem execHoldoverTimeout_reach {tb : Nat} {s u : State} (h : execHoldoverTimeout tb s = .next u) :
    s.Reach u := State.reach_onUnit h
theorem execPtpMessage_reach {die port : Nat} {msg : PtpMsg} {s u : State} (h : execPtpMessage die port msg s = .next u) :
    s.Reach u := State.reach_onUnit h
theorem execAnnounceTimeout_reach {die port : Nat} {s u : State} (h : execAnnounceTimeout die port s = .next u) :
    s.Reach u := State.reach_onUnit h
theorem execPtpMessageInterval_reach {die port kind : Nat} {s u : State} (h : execPtpMessageInterval die port kind s = .next u) :
    s.Reach u := State.reach_onUnit h
theorem execPoArm_reach {h : Hdr} {mode out start period count : Nat} {s u : State} (h : execPoArm h mode out start period count s = .next u) :
    s.Reach u := State.reach_command h
theorem execCaptureEdge_reach {die input : Nat} {rising : Bool} {t : Nat} {s u : State} (h : execCaptureEdge die input rising t s = .next u) :
    s.Reach u := State.reach_onUnit h
theorem execTbRead_reach {h : Hdr} {s u : State} (h : execTbRead h s = .next u) :
    s.Reach u := State.reach_command h
theorem execTbStep_reach {h : Hdr} {tb : Nat} {offset : Int} {s u : State} (h : execTbStep h tb offset s = .next u) :
    s.Reach u := State.reach_command h
theorem execPcieFlr_reach {ep : Nat} {s u : State} (h : execPcieFlr ep s = .next u) :
    s.Reach u := State.reach_onUnit h
theorem execPerstLLow_reach {ep : Nat} {s u : State} (h : execPerstLLow ep s = .next u) :
    s.Reach u := State.reach_onUnit h
theorem execMsixEnableWrite_reach {ep : Nat} {on : Bool} {s u : State} (h : execMsixEnableWrite ep on s = .next u) :
    s.Reach u := State.reach_onUnit h
theorem execPcieLinkChange_reach {ep gen width : Nat} {s u : State} (h : execPcieLinkChange ep gen width s = .next u) :
    s.Reach u := State.reach_onUnit h
theorem execUnmappedRead_reach {ep bar addr : Nat} {s u : State} (h : execUnmappedRead ep bar addr s = .next u) :
    s.Reach u := State.reach_onUnit h
theorem execItvAckTimeout_reach {link : Nat} {s u : State} (h : execItvAckTimeout link s = .next u) :
    s.Reach u := State.reach_onUnit h
theorem execItvTrainingStart_reach {die : Nat} {s u : State} (h : execItvTrainingStart die s = .next u) :
    s.Reach u := State.reach_onDie h
theorem execItvTrainStepDone_reach {die : Nat} {res : TrainResult} {s u : State} (h : execItvTrainStepDone die res s = .next u) :
    s.Reach u := State.reach_onDie h
theorem execItvTrainFail_reach {die : Nat} {s u : State} (h : execItvTrainFail die s = .next u) :
    s.Reach u := State.reach_onDie h
theorem execItvRetry_reach {die : Nat} {s u : State} (h : execItvRetry die s = .next u) :
    s.Reach u := State.reach_onDie h
theorem execItvEnable_reach {h : Hdr} {s u : State} (h : execItvEnable h s = .next u) :
    s.Reach u := State.reach_command h
theorem execItvDisable_reach {h : Hdr} {s u : State} (h : execItvDisable h s = .next u) :
    s.Reach u := State.reach_command h
theorem execItvRetrain_reach {h : Hdr} {s u : State} (h : execItvRetrain h s = .next u) :
    s.Reach u := State.reach_command h
theorem execItvSleepEnter_reach {die : Nat} {s u : State} (h : execItvSleepEnter die s = .next u) :
    s.Reach u := State.reach_onDie h
theorem execItvDeepPropose_reach {die : Nat} {s u : State} (h : execItvDeepPropose die s = .next u) :
    s.Reach u := State.reach_onDie h
theorem execItvPmBlockReceive_reach {die type : Nat} {s u : State} (h : execItvPmBlockReceive die type s = .next u) :
    s.Reach u := State.reach_onDie h
theorem execItvDeepExit_reach {die : Nat} {s u : State} (h : execItvDeepExit die s = .next u) :
    s.Reach u := State.reach_onDie h
theorem execEyeScanComplete_reach {die lane width height : Nat} {s u : State} (h : execEyeScanComplete die lane width height s = .next u) :
    s.Reach u := State.reach_onUnit h
theorem execItvEyeRead_reach {h : Hdr} {lanes : Nat} {s u : State} (h : execItvEyeRead h lanes s = .next u) :
    s.Reach u := State.reach_command h
theorem execItvEyeMeasure_reach {h : Hdr} {lanes : Nat} {s u : State} (h : execItvEyeMeasure h lanes s = .next u) :
    s.Reach u := State.reach_command h
theorem execEthLinkChange_reach {die port : Nat} {up : Bool} {s u : State} (h : execEthLinkChange die port up s = .next u) :
    s.Reach u := State.reach_onUnit h
theorem execEnumFrame_reach {link serial : Nat} {masterEn : Bool} {priority dies : Nat} {chains : List Nat} {place : Option EnumPlace} {lo hi : Nat} {s u : State} (h : execEnumFrame link serial masterEn priority dies chains place lo hi s = .next u) :
    s.Reach u := State.reach_onUnit h
theorem execAutoEnum_reach {s u : State} (h : execAutoEnum s = .next u) :
    s.Reach u := State.reach_onPkg h
theorem execSysEnumFresh_reach {h : Hdr} {s u : State} (h : execSysEnumFresh h s = .next u) :
    s.Reach u := State.reach_command h
theorem execSysEnumKeep_reach {h : Hdr} {s u : State} (h : execSysEnumKeep h s = .next u) :
    s.Reach u := State.reach_command h
theorem execSysNode_reach {h : Hdr} {addr : Nat} {s u : State} (h : execSysNode h addr s = .next u) :
    s.Reach u := State.reach_command h
theorem execTimeSyncExchange_reach {link : Nat} {t1 t2 t3 t4 : Int} {t : Nat} {s u : State} (h : execTimeSyncExchange link t1 t2 t3 t4 t s = .next u) :
    s.Reach u := State.reach_onUnit h
theorem execAbsWordRequest_reach {die ch : Nat} {dat : Bool} {s u : State} (h : execAbsWordRequest die ch dat s = .next u) :
    s.Reach u := State.reach_onUnit h
theorem execAbsRequest_reach {h : Hdr} {ch : Nat} {s u : State} (h : execAbsRequest h ch s = .next u) :
    s.Reach u := State.reach_command h
theorem execAbsTimeout_reach {die ch : Nat} {s u : State} (h : execAbsTimeout die ch s = .next u) :
    s.Reach u := State.reach_onUnit h
theorem execPosLatch_reach {h : Hdr} {s u : State} (h : execPosLatch h s = .next u) :
    s.Reach u := State.reach_command h
theorem execCmpArm_reach {h : Hdr} {unit_ pulse : Nat} {event lpos rev lateOk : Bool} {value : Int} {step : Nat} {s u : State} (h : execCmpArm h unit_ pulse event lpos rev lateOk value step s = .next u) :
    s.Reach u := State.reach_command h
theorem execCmpDisarm_reach {h : Hdr} {unit_ : Nat} {s u : State} (h : execCmpDisarm h unit_ s = .next u) :
    s.Reach u := State.reach_command h
theorem execWatchdogExpiry_reach {die : Nat} {serviced : Bool} {s u : State} (h : execWatchdogExpiry die serviced s = .next u) :
    s.Reach u := State.reach_onDie h
theorem execSramEccError_reach {die : Nat} {s u : State} (h : execSramEccError die s = .next u) :
    s.Reach u := State.reach_onDie h
theorem execMgmtPowerLoss_reach {die : Nat} {s u : State} (h : execMgmtPowerLoss die s = .next u) :
    s.Reach u := State.reach_onDie h
theorem execKennelCheckpoint_reach {s u : State} (h : execKennelCheckpoint s = .next u) :
    s.Reach u := State.reach_onPkg h
theorem execKennelWriteDone_reach {ok : Bool} {s u : State} (h : execKennelWriteDone ok s = .next u) :
    s.Reach u := State.reach_onPkg h
theorem execLeadTakeover_reach {us : Nat} {s u : State} (h : execLeadTakeover us s = .next u) :
    s.Reach u := State.reach_onPkg h
theorem execLeadRepair_reach {s u : State} (h : execLeadRepair s = .next u) :
    s.Reach u := State.reach_onPkg h
theorem execLeadStandby_reach {die : Nat} {pass : Bool} {s u : State} (h : execLeadStandby die pass s = .next u) :
    s.Reach u := State.reach_onUnit h
theorem execLeadMove_reach {h : Hdr} {s u : State} (h : execLeadMove h s = .next u) :
    s.Reach u := State.reach_command h
theorem execLeadCtrlRepair_reach {h : Hdr} {die : Nat} {s u : State} (h : execLeadCtrlRepair h die s = .next u) :
    s.Reach u := State.reach_command h
theorem execLeadCheckpoint_reach {h : Hdr} {s u : State} (h : execLeadCheckpoint h s = .next u) :
    s.Reach u := State.reach_command h
theorem execLeadAck_reach {h : Hdr} {s u : State} (h : execLeadAck h s = .next u) :
    s.Reach u := State.reach_command h
theorem execEventRaise_reach {die code : Nat} {data : List Byte} {s u : State} (h : execEventRaise die code data s = .next u) :
    s.Reach u := State.reach_onDie h
theorem execEventNumber_reach {die : Nat} {s u : State} (h : execEventNumber die s = .next u) :
    s.Reach u := State.reach_onDie h
theorem execEventProgram_reach {s u : State} (h : execEventProgram s = .next u) :
    s.Reach u := State.reach_onPkg h
theorem execBucketRefillFlush_reach {die code : Nat} {s u : State} (h : execBucketRefillFlush die code s = .next u) :
    s.Reach u := State.reach_onDie h
theorem execEvtBacklog_reach {die : Nat} {s u : State} (h : execEvtBacklog die s = .next u) :
    s.Reach u := State.reach_onDie h
theorem execEvtRead_reach {h : Hdr} {first count : Nat} {s u : State} (h : execEvtRead h first count s = .next u) :
    s.Reach u := State.reach_command h
theorem execEvtLimitSet_reach {h : Hdr} {code rate burst : Nat} {s u : State} (h : execEvtLimitSet h code rate burst s = .next u) :
    s.Reach u := State.reach_command h
theorem execEvtLimitGet_reach {h : Hdr} {code : Nat} {s u : State} (h : execEvtLimitGet h code s = .next u) :
    s.Reach u := State.reach_command h
theorem execBackupTimeout_reach {die : Nat} {s u : State} (h : execBackupTimeout die s = .next u) :
    s.Reach u := State.reach_onDie h
theorem execStopRelease_reach {die : Nat} {s u : State} (h : execStopRelease die s = .next u) :
    s.Reach u := State.reach_onDie h
theorem execStopFixed_reach {die : Nat} {s u : State} (h : execStopFixed die s = .next u) :
    s.Reach u := State.reach_onDie h
theorem execCtxStop_reach {h : Hdr} {ctx : Nat} {s u : State} (h : execCtxStop h ctx s = .next u) :
    s.Reach u := State.reach_command h
theorem execRunwayStatus_reach {h : Hdr} {s u : State} (h : execRunwayStatus h s = .next u) :
    s.Reach u := State.reach_command h
theorem execFireTimerMatch_reach {die port : Nat} {s u : State} (h : execFireTimerMatch die port s = .next u) :
    s.Reach u := State.reach_onUnit h
theorem execCommitDeadline_reach {die port slot : Nat} {s u : State} (h : execCommitDeadline die port slot s = .next u) :
    s.Reach u := State.reach_onUnit h
theorem execEStopAccept_reach {s u : State} (h : execEStopAccept s = .next u) :
    s.Reach u := State.reach_onPkg h
theorem execEStopReleaseAccept_reach {s u : State} (h : execEStopReleaseAccept s = .next u) :
    s.Reach u := State.reach_onPkg h
theorem execLeResume_reach {h : Hdr} {s u : State} (h : execLeResume h s = .next u) :
    s.Reach u := State.reach_command h
theorem execHsForce_reach {h : Hdr} {levels : Nat} {s u : State} (h : execHsForce h levels s = .next u) :
    s.Reach u := State.reach_command h
theorem execHsRelease_reach {h : Hdr} {s u : State} (h : execHsRelease h s = .next u) :
    s.Reach u := State.reach_command h
theorem execLeStatus_reach {h : Hdr} {s u : State} (h : execLeStatus h s = .next u) :
    s.Reach u := State.reach_command h
theorem execSlotShift_reach {die port t : Nat} {s u : State} (h : execSlotShift die port t s = .next u) :
    s.Reach u := State.reach_onUnit h
theorem execStaleReshift_reach {die port : Nat} {s u : State} (h : execStaleReshift die port s = .next u) :
    s.Reach u := State.reach_onUnit h
theorem execLvdsFault_reach {die port pair : Nat} {s u : State} (h : execLvdsFault die port pair s = .next u) :
    s.Reach u := State.reach_onUnit h
theorem execHeadQuery_reach {die port : Nat} {start : Bool} {data : List Byte} {crc : Nat} {s u : State} (h : execHeadQuery die port start data crc s = .next u) :
    s.Reach u := State.reach_onUnit h
theorem execHpQuery_reach {h : Hdr} {port arg cmd len : Nat} {s u : State} (h : execHpQuery h port arg cmd len s = .next u) :
    s.Reach u := State.reach_commandHold h
theorem execHpEnable_reach {h : Hdr} {ports : Nat} {s u : State} (h : execHpEnable h ports s = .next u) :
    s.Reach u := State.reach_command h
theorem execHpDisable_reach {h : Hdr} {ports : Nat} {s u : State} (h : execHpDisable h ports s = .next u) :
    s.Reach u := State.reach_command h
theorem execHpRestart_reach {h : Hdr} {ports bad : Nat} {s u : State} (h : execHpRestart h ports bad s = .next u) :
    s.Reach u := State.reach_command h
theorem execHpSpitParked_reach {h : Hdr} {ports lines : Nat} {s u : State} (h : execHpSpitParked h ports lines s = .next u) :
    s.Reach u := State.reach_command h
theorem execHpSpitStop_reach {h : Hdr} {ports : Nat} {s u : State} (h : execHpSpitStop h ports s = .next u) :
    s.Reach u := State.reach_command h
theorem execSpitLine_reach {die port t : Nat} {s u : State} (h : execSpitLine die port t s = .next u) :
    s.Reach u := State.reach_onUnit h
theorem execHpSpitWeb_reach {h : Hdr} {ctx ports first count : Nat} {s u : State} (h : execHpSpitWeb h ctx ports first count s = .next u) :
    s.Reach u := State.reach_command h
theorem execTbSwapDecision_reach {die bank : Nat} {s u : State} (h : execTbSwapDecision die bank s = .next u) :
    s.Reach u := State.reach_onUnit h
theorem execToneLine_reach {die port line : Nat} {s u : State} (h : execToneLine die port line s = .next u) :
    s.Reach u := State.reach_onUnit h
theorem execTbSwap_reach {h : Hdr} {ctx bank line : Nat} {s u : State} (h : execTbSwap h ctx bank line s = .next u) :
    s.Reach u := State.reach_command h
theorem execTbBuild_reach {h : Hdr} {bank : Nat} {s u : State} (h : execTbBuild h bank s = .next u) :
    s.Reach u := State.reach_command h
theorem execTbBuildAbort_reach {h : Hdr} {bank : Nat} {s u : State} (h : execTbBuildAbort h bank s = .next u) :
    s.Reach u := State.reach_command h
theorem execTbBuilt_reach {die bank t : Nat} {s u : State} (h : execTbBuilt die bank t s = .next u) :
    s.Reach u := State.reach_onUnit h
theorem execPlStatus_reach {h : Hdr} {port : Nat} {s u : State} (h : execPlStatus h port s = .next u) :
    s.Reach u := State.reach_command h
theorem execDescriptorPush_reach {die ctx port : Nat} {s u : State} (h : execDescriptorPush die ctx port s = .next u) :
    s.Reach u := State.reach_onUnit h
theorem execDecodeStart_reach {die engine : Nat} {s u : State} (h : execDecodeStart die engine s = .next u) :
    s.Reach u := State.reach_onUnit h
theorem execDecodeComplete_reach {die engine : Nat} {mem : Bool} {s u : State} (h : execDecodeComplete die engine mem s = .next u) :
    s.Reach u := State.reach_onUnit h
theorem execCodecVerify_reach {h : Hdr} {port greyscale margin nozzles addr stored out : Nat} {s u : State} (h : execCodecVerify h port greyscale margin nozzles addr stored out s = .next u) :
    s.Reach u := State.reach_commandHold h
theorem execCodecCompressSubmit_reach {h : Hdr} {queue back tag addr row stride rows line limit per : Nat} {s u : State} (h : execCodecCompressSubmit h queue back tag addr row stride rows line limit per s = .next u) :
    s.Reach u := State.reach_command h
theorem execCompressJobStart_reach {die : Nat} {s u : State} (h : execCompressJobStart die s = .next u) :
    s.Reach u := State.reach_onDie h
theorem execCompressBlockEnd_reach {die : Nat} {tokens : List Byte} {mem : Bool} {s u : State} (h : execCompressBlockEnd die tokens mem s = .next u) :
    s.Reach u := State.reach_onDie h
theorem execCodecCompressAbort_reach {h : Hdr} {queue tag : Nat} {s u : State} (h : execCodecCompressAbort h queue tag s = .next u) :
    s.Reach u := State.reach_command h
theorem execCtxOpen_reach {h : Hdr} {ctx : Nat} {bad : Bool} {s u : State} (h : execCtxOpen h ctx bad s = .next u) :
    s.Reach u := State.reach_command h
theorem execCtxStartAbs_reach {h : Hdr} {ctx : Nat} {x0 : Int} {s u : State} (h : execCtxStartAbs h ctx x0 s = .next u) :
    s.Reach u := State.reach_command h
theorem execSwitchFix_reach {die : Nat} {s u : State} (h : execSwitchFix die s = .next u) :
    s.Reach u := State.reach_onDie h
theorem execCtxStartAfter_reach {h : Hdr} {ctx after : Nat} {s u : State} (h : execCtxStartAfter h ctx after s = .next u) :
    s.Reach u := State.reach_command h
theorem execCtxClose_reach {h : Hdr} {ctx : Nat} {s u : State} (h : execCtxClose h ctx s = .next u) :
    s.Reach u := State.reach_command h
theorem execCtxAbort_reach {h : Hdr} {ctx : Nat} {s u : State} (h : execCtxAbort h ctx s = .next u) :
    s.Reach u := State.reach_command h
theorem execCtxInvalidate_reach {h : Hdr} {first count : Nat} {s u : State} (h : execCtxInvalidate h first count s = .next u) :
    s.Reach u := State.reach_command h
theorem execContextWriteback_reach {die ctx : Nat} {s u : State} (h : execContextWriteback die ctx s = .next u) :
    s.Reach u := State.reach_onDie h
theorem execGrtData_reach {die eth ip udp stream seq ctx flags off : Nat} {data : List Byte} {s u : State} (h : execGrtData die eth ip udp stream seq ctx flags off data s = .next u) :
    s.Reach u := State.reach_onUnit h
theorem execGrtReset_reach {die eth ip udp stream seq ctx : Nat} {s u : State} (h : execGrtReset die eth ip udp stream seq ctx s = .next u) :
    s.Reach u := State.reach_onUnit h
theorem execGrtAckTimer_reach {die stream : Nat} {s u : State} (h : execGrtAckTimer die stream s = .next u) :
    s.Reach u := State.reach_onUnit h
theorem execDmaTailWrite_reach {die ep stream value : Nat} {s u : State} (h : execDmaTailWrite die ep stream value s = .next u) :
    s.Reach u := State.reach_onUnit h
theorem execDmaBlockFetch_reach {die stream stored : Nat} {ok : Bool} {data : List Byte} {s u : State} (h : execDmaBlockFetch die stream stored ok data s = .next u) :
    s.Reach u := State.reach_onUnit h
theorem execBlockStore_reach {die stream : Nat} {mem : Bool} {s u : State} (h : execBlockStore die stream mem s = .next u) :
    s.Reach u := State.reach_onUnit h
theorem execCsiFrameStart_reach {die cam num t : Nat} {s u : State} (h : execCsiFrameStart die cam num t s = .next u) :
    s.Reach u := State.reach_onUnit h
theorem execCsiFrameEnd_reach {die cam t : Nat} {s u : State} (h : execCsiFrameEnd die cam t s = .next u) :
    s.Reach u := State.reach_onUnit h
theorem execFrameTimeout_reach {die cam : Nat} {s u : State} (h : execFrameTimeout die cam s = .next u) :
    s.Reach u := State.reach_onUnit h
theorem execCsiLine_reach {die cam vc dt ecc : Nat} {crcOk lost : Bool} {px : List Nat} {s u : State} (h : execCsiLine die cam vc dt ecc crcOk lost px s = .next u) :
    s.Reach u := State.reach_onUnit h
theorem execPsetListComplete_reach {die cam result index : Nat} {s u : State} (h : execPsetListComplete die cam result index s = .next u) :
    s.Reach u := State.reach_onUnit h
theorem execMpFrameProcess_reach {die : Nat} {s u : State} (h : execMpFrameProcess die s = .next u) :
    s.Reach u := State.reach_onDie h
theorem execIspFrameDone_reach {die stream : Nat} {s u : State} (h : execIspFrameDone die stream s = .next u) :
    s.Reach u := State.reach_onUnit h
theorem execCamWake_reach {h : Hdr} {port : Nat} {s u : State} (h : execCamWake h port s = .next u) :
    s.Reach u := State.reach_command h
theorem execCamEnable_reach {h : Hdr} {port : Nat} {s u : State} (h : execCamEnable h port s = .next u) :
    s.Reach u := State.reach_command h
theorem execCamDisable_reach {h : Hdr} {port : Nat} {s u : State} (h : execCamDisable h port s = .next u) :
    s.Reach u := State.reach_command h
theorem execCamSleep_reach {h : Hdr} {port : Nat} {s u : State} (h : execCamSleep h port s = .next u) :
    s.Reach u := State.reach_command h
theorem execCamSnap_reach {h : Hdr} {port : Nat} {s u : State} (h : execCamSnap h port s = .next u) :
    s.Reach u := State.reach_command h
theorem execCamRelease_reach {h : Hdr} {port slots : Nat} {s u : State} (h : execCamRelease h port slots s = .next u) :
    s.Reach u := State.reach_command h
theorem execCamApply_reach {h : Hdr} {port set frame : Nat} {s u : State} (h : execCamApply h port set frame s = .next u) :
    s.Reach u := State.reach_command h
theorem execCamI2c_reach {h : Hdr} {read : Bool} {port addr reg len : Nat} {data : List Byte} {s u : State} (h : execCamI2c h read port addr reg len data s = .next u) :
    s.Reach u := State.reach_commandHold h
theorem execCamI2cEnd_reach {die cam result : Nat} {data : List Byte} {s u : State} (h : execCamI2cEnd die cam result data s = .next u) :
    s.Reach u := State.reach_onUnit h
theorem execChainRefresh_reach {die chain : Nat} {bad : List Nat} {s u : State} (h : execChainRefresh die chain bad s = .next u) :
    s.Reach u := State.reach_onUnit h
theorem execChainReturn_reach {die chain : Nat} {inTime : Bool} {got : List Bool} {s u : State} (h : execChainReturn die chain inTime got s = .next u) :
    s.Reach u := State.reach_onUnit h
theorem execLampWriteback_reach {die chain : Nat} {s u : State} (h : execLampWriteback die chain s = .next u) :
    s.Reach u := State.reach_onUnit h
theorem execChainEnable_reach {h : Hdr} {chains : Nat} {s u : State} (h : execChainEnable h chains s = .next u) :
    s.Reach u := State.reach_command h
theorem execChainEnum_reach {h : Hdr} {chains : Nat} {s u : State} (h : execChainEnum h chains s = .next u) :
    s.Reach u := State.reach_command h
theorem execChainDisable_reach {h : Hdr} {chains : Nat} {s u : State} (h : execChainDisable h chains s = .next u) :
    s.Reach u := State.reach_command h
theorem execLampInvalidate_reach {h : Hdr} {first count : Nat} {s u : State} (h : execLampInvalidate h first count s = .next u) :
    s.Reach u := State.reach_command h
theorem execLampCtrlClear_reach {h : Hdr} {chain first count : Nat} {s u : State} (h : execLampCtrlClear h chain first count s = .next u) :
    s.Reach u := State.reach_command h
theorem execLampCtrlDiag_reach {h : Hdr} {chain mask first count : Nat} {s u : State} (h : execLampCtrlDiag h chain mask first count s = .next u) :
    s.Reach u := State.reach_command h
theorem execMxStep_reach {die csns diag : Nat} {s u : State} (h : execMxStep die csns diag s = .next u) :
    s.Reach u := State.reach_onDie h
theorem execMxStart_reach {h : Hdr} {s u : State} (h : execMxStart h s = .next u) :
    s.Reach u := State.reach_command h
theorem execMxStop_reach {h : Hdr} {s u : State} (h : execMxStop h s = .next u) :
    s.Reach u := State.reach_command h
theorem execPulseOutputMatch_reach {die out : Nat} {s u : State} (h : execPulseOutputMatch die out s = .next u) :
    s.Reach u := State.reach_onUnit h
theorem execObjSet_reach {h : Hdr} {obj : ObjRef} {value : Nat} {line : Option LineRef} {s u : State} (h : execObjSet h obj value line s = .next u) :
    s.Reach u := State.reach_command h
theorem execObjGet_reach {h : Hdr} {obj : ObjRef} {s u : State} (h : execObjGet h obj s = .next u) :
    s.Reach u := State.reach_command h
theorem execObjGetBlock_reach {h : Hdr} {obj : ObjRef} {off len : Nat} {s u : State} (h : execObjGetBlock h obj off len s = .next u) :
    s.Reach u := State.reach_command h
theorem execObjSetBlock_reach {h : Hdr} {obj : ObjRef} {commit : Bool} {line : Option LineRef} {off : Nat} {data : List Byte} {s u : State} (h : execObjSetBlock h obj commit line off data s = .next u) :
    s.Reach u := State.reach_command h
theorem execStageDiscard_reach {die : Nat} {obj : ObjRef} {s u : State} (h : execStageDiscard die obj s = .next u) :
    s.Reach u := State.reach_onDie h
theorem execChPageEvaluate_reach {s u : State} (h : execChPageEvaluate s = .next u) :
    s.Reach u := State.reach_onPkg h
theorem execChStart_reach {h : Hdr} {ctx bars : Nat} {s u : State} (h : execChStart h ctx bars s = .next u) :
    s.Reach u := State.reach_command h
theorem execChStop_reach {h : Hdr} {bars : Nat} {s u : State} (h : execChStop h bars s = .next u) :
    s.Reach u := State.reach_command h
theorem execChFreeze_reach {h : Hdr} {bars : Nat} {s u : State} (h : execChFreeze h bars s = .next u) :
    s.Reach u := State.reach_command h
theorem execChResume_reach {h : Hdr} {bars : Nat} {s u : State} (h : execChResume h bars s = .next u) :
    s.Reach u := State.reach_command h
theorem execChCaptureRef_reach {h : Hdr} {bars : Nat} {s u : State} (h : execChCaptureRef h bars s = .next u) :
    s.Reach u := State.reach_command h
theorem execChStatus_reach {h : Hdr} {bar : Nat} {s u : State} (h : execChStatus h bar s = .next u) :
    s.Reach u := State.reach_command h
theorem execHousekeepingRound_reach {die t : Nat} {raws : List Nat} {vals : List Int} {s u : State} (h : execHousekeepingRound die t raws vals s = .next u) :
    s.Reach u := State.reach_onDie h
theorem execCriticalShutdown_reach {die : Nat} {s u : State} (h : execCriticalShutdown die s = .next u) :
    s.Reach u := State.reach_onDie h
theorem execThermTrip_reach {die sensor t : Nat} {s u : State} (h : execThermTrip die sensor t s = .next u) :
    s.Reach u := State.reach_onUnit h
theorem execCalRun_reach {h : Hdr} {insts : Nat} {s u : State} (h : execCalRun h insts s = .next u) :
    s.Reach u := State.reach_command h
theorem execCalRunGap_reach {h : Hdr} {insts : Nat} {s u : State} (h : execCalRunGap h insts s = .next u) :
    s.Reach u := State.reach_command h
theorem execCalQuality_reach {h : Hdr} {insts : Nat} {s u : State} (h : execCalQuality h insts s = .next u) :
    s.Reach u := State.reach_command h
theorem execCalAbort_reach {h : Hdr} {insts : Nat} {s u : State} (h : execCalAbort h insts s = .next u) :
    s.Reach u := State.reach_command h
theorem execCalDone_reach {die inst quality : Nat} {values : List Byte} {s u : State} (h : execCalDone die inst quality values s = .next u) :
    s.Reach u := State.reach_onUnit h
theorem execCalNoGap_reach {die inst : Nat} {s u : State} (h : execCalNoGap die inst s = .next u) :
    s.Reach u := State.reach_onUnit h
theorem execThermStatus_reach {h : Hdr} {s u : State} (h : execThermStatus h s = .next u) :
    s.Reach u := State.reach_command h
theorem execQueueInvalidate_reach {h : Hdr} {first count : Nat} {s u : State} (h : execQueueInvalidate h first count s = .next u) :
    s.Reach u := State.reach_command h
theorem execQueueEnable_reach {h : Hdr} {first count : Nat} {bad : List Nat} {s u : State} (h : execQueueEnable h first count bad s = .next u) :
    s.Reach u := State.reach_command h
theorem execQueueDisable_reach {h : Hdr} {first count : Nat} {s u : State} (h : execQueueDisable h first count s = .next u) :
    s.Reach u := State.reach_command h
theorem execQueueFlush_reach {h : Hdr} {first count : Nat} {s u : State} (h : execQueueFlush h first count s = .next u) :
    s.Reach u := State.reach_command h
theorem execQueueStatus_reach {h : Hdr} {q : Nat} {s u : State} (h : execQueueStatus h q s = .next u) :
    s.Reach u := State.reach_command h
theorem execGhSpitTimer_reach {s u : State} (h : execGhSpitTimer s = .next u) :
    s.Reach u := State.reach_onPkg h
theorem execGhStatus_reach {h : Hdr} {s u : State} (h : execGhStatus h s = .next u) :
    s.Reach u := State.reach_command h
theorem execEncEdge_reach {die ch : Nat} {a b : Bool} {t : Nat} {s u : State} (h : execEncEdge die ch a b t s = .next u) :
    s.Reach u := State.reach_onUnit h
theorem execEncLosSet_reach {die ch pin t : Nat} {s u : State} (h : execEncLosSet die ch pin t s = .next u) :
    s.Reach u := State.reach_onUnit h
theorem execEncLosClear_reach {die ch t : Nat} {s u : State} (h : execEncLosClear die ch t s = .next u) :
    s.Reach u := State.reach_onUnit h
theorem execIndexPulse_reach {die ch t : Nat} {s u : State} (h : execIndexPulse die ch t s = .next u) :
    s.Reach u := State.reach_onUnit h
theorem execAbsWordComplete_reach {die ch : Nat} {ack : Bool} {word : Nat} {s u : State} (h : execAbsWordComplete die ch ack word s = .next u) :
    s.Reach u := State.reach_onUnit h
theorem execEncMag_reach {die ch input : Nat} {rising : Bool} {t : Nat} {s u : State} (h : execEncMag die ch input rising t s = .next u) :
    s.Reach u := State.reach_onUnit h
theorem execStillTimeout_reach {die ch : Nat} {s u : State} (h : execStillTimeout die ch s = .next u) :
    s.Reach u := State.reach_onUnit h
theorem execPergolaPairReceive_reach {die src : Nat} {s u : State} (h : execPergolaPairReceive die src s = .next u) :
    s.Reach u := State.reach_onUnit h
theorem execPosSet_reach {h : Hdr} {what : Nat} {value : Int} {s u : State} (h : execPosSet h what value s = .next u) :
    s.Reach u := State.reach_command h
theorem execPressRunAccept_reach {level : Bool} {s u : State} (h : execPressRunAccept level s = .next u) :
    s.Reach u := State.reach_onPkg h
theorem execHeadParkedAccept_reach {level : Bool} {s u : State} (h : execHeadParkedAccept level s = .next u) :
    s.Reach u := State.reach_onPkg h
theorem execIdRead_reach {h : Hdr} {s u : State} (h : execIdRead h s = .next u) :
    s.Reach u := State.reach_command h
theorem execSysState_reach {h : Hdr} {s u : State} (h : execSysState h s = .next u) :
    s.Reach u := State.reach_command h
theorem execBlSet_reach {h : Hdr} {level : Nat} {s u : State} (h : execBlSet h level s = .next u) :
    s.Reach u := State.reach_command h
theorem execCmdStatus_reach {h : Hdr} {tag : Nat} {s u : State} (h : execCmdStatus h tag s = .next u) :
    s.Reach u := State.reach_command h
theorem execFwBegin_reach {h : Hdr} {size : Nat} {s u : State} (h : execFwBegin h size s = .next u) :
    s.Reach u := State.reach_command h
theorem execFwData_reach {h : Hdr} {off : Nat} {data : List Byte} {s u : State} (h : execFwData h off data s = .next u) :
    s.Reach u := State.reach_command h
theorem execFwEnd_reach {h : Hdr} {s u : State} (h : execFwEnd h s = .next u) :
    s.Reach u := State.reach_command h
theorem execFwActivate_reach {h : Hdr} {s u : State} (h : execFwActivate h s = .next u) :
    s.Reach u := State.reach_command h
theorem execFwAbort_reach {h : Hdr} {s u : State} (h : execFwAbort h s = .next u) :
    s.Reach u := State.reach_command h
theorem execFwSessionTimeout_reach {s u : State} (h : execFwSessionTimeout s = .next u) :
    s.Reach u := State.reach_onPkg h
theorem execStatusBlockUpdate_reach {die : Nat} {s u : State} (h : execStatusBlockUpdate die s = .next u) :
    s.Reach u := State.reach_onDie h
theorem execPorstLLow_reach {s u : State} (h : execPorstLLow s = .next u) :
    s.Reach u := State.reach_onPkg h
theorem execPorstRise_reach {straps railsGood alive : Nat} {s u : State} (h : execPorstRise straps railsGood alive s = .next u) :
    s.Reach u := State.reach_onPkg h
theorem execSysRstL_reach {straps : Nat} {s u : State} (h : execSysRstL straps s = .next u) :
    s.Reach u := State.reach_onPkg h
theorem execRailFault_reach {die rail value : Nat} {s u : State} (h : execRailFault die rail value s = .next u) :
    s.Reach u := State.reach_onUnit h
theorem execRailGood_reach {straps : Nat} {s u : State} (h : execRailGood straps s = .next u) :
    s.Reach u := State.reach_onPkg h
theorem execClkFault_reach {die : Nat} {s u : State} (h : execClkFault die s = .next u) :
    s.Reach u := State.reach_onDie h
theorem execClockGood_reach {straps gapNs : Nat} {s u : State} (h : execClockGood straps gapNs s = .next u) :
    s.Reach u := State.reach_onPkg h
theorem execBootWatchdog_reach {straps : Nat} {confirmed : Bool} {s u : State} (h : execBootWatchdog straps confirmed s = .next u) :
    s.Reach u := State.reach_onPkg h
theorem execDieBootTimeout_reach {die : Nat} {s u : State} (h : execDieBootTimeout die s = .next u) :
    s.Reach u := State.reach_onDie h
theorem execDomainOn_reach {h : Hdr} {die mask : Nat} {s u : State} (h : execDomainOn h die mask s = .next u) :
    s.Reach u := reach_powerCommand h
theorem execDomainOff_reach {h : Hdr} {die mask : Nat} {s u : State} (h : execDomainOff h die mask s = .next u) :
    s.Reach u := reach_powerCommand h
theorem execDieReset_reach {h : Hdr} {die : Nat} {s u : State} (h : execDieReset h die s = .next u) :
    s.Reach u := reach_powerCommand h
theorem execPkgReset_reach {h : Hdr} {s u : State} (h : execPkgReset h s = .next u) :
    s.Reach u := State.reach_command h
theorem execTripClear_reach {h : Hdr} {die : Nat} {s u : State} (h : execTripClear h die s = .next u) :
    s.Reach u := reach_powerCommand h
theorem execDomainSwitchDone_reach {die : Nat} {s u : State} (h : execDomainSwitchDone die s = .next u) :
    s.Reach u := State.reach_onDie h
theorem execModeSetHosted_reach {h : Hdr} {s u : State} (h : execModeSetHosted h s = .next u) :
    s.Reach u := State.reach_command h
theorem execMbxSlotWrite_reach {die ep slot off : Nat} {data : List Byte} {s u : State} (h : execMbxSlotWrite die ep slot off data s = .next u) :
    s.Reach u := by
  unfold execMbxSlotWrite at h
  split at h
  · cases h
  · exact State.reach_onUnit h
theorem execMbxRing_reach {die ep mask : Nat} {s u : State} (h : execMbxRing die ep mask s = .next u) :
    s.Reach u := State.reach_onUnit h
theorem execCommandTimeout_reach {origin : Origin} {tag : Nat} {s u : State} (h : execCommandTimeout origin tag s = .next u) :
    s.Reach u := State.reach_onPkg h
theorem execRemoteMailboxDatagram_reach {die eth ip port : Nat} {data : List Byte} {s u : State} (h : execRemoteMailboxDatagram die eth ip port data s = .next u) :
    s.Reach u := State.reach_onUnit h
theorem execItvFrameReceive_reach {die : Nat} {crcOk : Bool} {type hops dst src seq ack : Nat} {payload : List Byte} {s u : State} (h : execItvFrameReceive die crcOk type hops dst src seq ack payload s = .next u) :
    s.Reach u := State.reach_onDie h
theorem execTunnelDatagram_reach {die port ip udp : Nat} {crcOk : Bool} {type hops dst src seq ack : Nat} {payload : List Byte} {s u : State} (h : execTunnelDatagram die port ip udp crcOk type hops dst src seq ack payload s = .next u) :
    s.Reach u := State.reach_onUnit h
theorem execEthDatagram_reach {die port ip src dst : Nat} {data : List Byte} {s u : State} (h : execEthDatagram die port ip src dst data s = .next u) :
    s.Reach u := State.reach_onUnit h
theorem execRegisterWrite_reach {die ep off width value : Nat} {s u : State} (h : execRegisterWrite die ep off width value s = .next u) :
    s.Reach u := State.reach_onUnit h
theorem execBarRcRead_reach {die ep off width : Nat} {s u : State} (h : execBarRcRead die ep off width s = .next u) :
    s.Reach u := State.reach_onUnit h
theorem execBar2Access_reach {ep off : Nat} {write : Bool} {data : List Byte} {s u : State} (h : execBar2Access ep off write data s = .next u) :
    s.Reach u := State.reach_onUnit h

/-! ### Commands that carry out others -/

theorem runCommand_reach {i : Instr} (h : runCommand i s = some (.next t)) : s.Reach t := by
  unfold runCommand at h
  split at h
  · injection h with h
    exact execIdRead_reach h
  · injection h with h
    exact execSysState_reach h
  · injection h with h
    exact execBlSet_reach h
  · injection h with h
    exact execCmdStatus_reach h
  · injection h with h
    exact execObjGet_reach h
  · injection h with h
    exact execObjSet_reach h
  · injection h with h
    exact execObjGetBlock_reach h
  · injection h with h
    exact execObjSetBlock_reach h
  · injection h with h
    exact execFwBegin_reach h
  · injection h with h
    exact execFwData_reach h
  · injection h with h
    exact execFwEnd_reach h
  · injection h with h
    exact execFwActivate_reach h
  · injection h with h
    exact execFwAbort_reach h
  · injection h with h
    exact execQueueInvalidate_reach h
  · injection h with h
    exact execQueueEnable_reach h
  · injection h with h
    exact execQueueDisable_reach h
  · injection h with h
    exact execQueueFlush_reach h
  · injection h with h
    exact execQueueStatus_reach h
  · injection h with h
    exact execAbsRequest_reach h
  · injection h with h
    exact execPosSet_reach h
  · injection h with h
    exact execPosLatch_reach h
  · injection h with h
    exact execCmpArm_reach h
  · injection h with h
    exact execCmpDisarm_reach h
  · injection h with h
    exact execLeResume_reach h
  · injection h with h
    exact execHsForce_reach h
  · injection h with h
    exact execHsRelease_reach h
  · injection h with h
    exact execLeStatus_reach h
  · injection h with h
    exact execHpEnable_reach h
  · injection h with h
    exact execHpDisable_reach h
  · injection h with h
    exact execHpRestart_reach h
  · injection h with h
    exact execHpQuery_reach h
  · injection h with h
    exact execHpSpitParked_reach h
  · injection h with h
    exact execHpSpitStop_reach h
  · injection h with h
    exact execHpSpitWeb_reach h
  · injection h with h
    exact execTbBuild_reach h
  · injection h with h
    exact execTbBuildAbort_reach h
  · injection h with h
    exact execTbSwap_reach h
  · injection h with h
    exact execPlStatus_reach h
  · injection h with h
    exact execCodecVerify_reach h
  · injection h with h
    exact execCodecCompressSubmit_reach h
  · injection h with h
    exact execCodecCompressAbort_reach h
  · injection h with h
    exact execCtxOpen_reach h
  · injection h with h
    exact execCtxStartAbs_reach h
  · injection h with h
    exact execCtxStartAfter_reach h
  · injection h with h
    exact execCtxStop_reach h
  · injection h with h
    exact execCtxClose_reach h
  · injection h with h
    exact execCtxAbort_reach h
  · injection h with h
    exact execCtxInvalidate_reach h
  · injection h with h
    exact execRunwayStatus_reach h
  · injection h with h
    exact execCamWake_reach h
  · injection h with h
    exact execCamEnable_reach h
  · injection h with h
    exact execCamDisable_reach h
  · injection h with h
    exact execCamSleep_reach h
  · injection h with h
    exact execCamSnap_reach h
  · injection h with h
    exact execCamRelease_reach h
  · injection h with h
    exact execCamApply_reach h
  · injection h with h
    exact execCamI2c_reach h
  · injection h with h
    exact execChainEnable_reach h
  · injection h with h
    exact execChainDisable_reach h
  · injection h with h
    exact execChainEnum_reach h
  · injection h with h
    exact execLampInvalidate_reach h
  · injection h with h
    exact execLampCtrlClear_reach h
  · injection h with h
    exact execLampCtrlDiag_reach h
  · injection h with h
    exact execMxStart_reach h
  · injection h with h
    exact execMxStop_reach h
  · injection h with h
    exact execChStart_reach h
  · injection h with h
    exact execChStop_reach h
  · injection h with h
    exact execChFreeze_reach h
  · injection h with h
    exact execChResume_reach h
  · injection h with h
    exact execChCaptureRef_reach h
  · injection h with h
    exact execChStatus_reach h
  · injection h with h
    exact execTbRead_reach h
  · injection h with h
    exact execTbStep_reach h
  · injection h with h
    exact execPoArm_reach h
  · injection h with h
    exact execItvEnable_reach h
  · injection h with h
    exact execItvDisable_reach h
  · injection h with h
    exact execItvRetrain_reach h
  · injection h with h
    exact execItvEyeRead_reach h
  · injection h with h
    exact execItvEyeMeasure_reach h
  · injection h with h
    exact execSysEnumFresh_reach h
  · injection h with h
    exact execSysEnumKeep_reach h
  · injection h with h
    exact execSysNode_reach h
  · injection h with h
    exact execCalRun_reach h
  · injection h with h
    exact execCalRunGap_reach h
  · injection h with h
    exact execCalQuality_reach h
  · injection h with h
    exact execCalAbort_reach h
  · injection h with h
    exact execThermStatus_reach h
  · injection h with h
    exact execLeadMove_reach h
  · injection h with h
    exact execLeadCtrlRepair_reach h
  · injection h with h
    exact execLeadCheckpoint_reach h
  · injection h with h
    exact execLeadAck_reach h
  · injection h with h
    exact execEvtRead_reach h
  · injection h with h
    exact execEvtLimitSet_reach h
  · injection h with h
    exact execEvtLimitGet_reach h
  · injection h with h
    exact execGhStatus_reach h
  · injection h with h
    exact execDomainOn_reach h
  · injection h with h
    exact execDomainOff_reach h
  · injection h with h
    exact execDieReset_reach h
  · injection h with h
    exact execPkgReset_reach h
  · injection h with h
    exact execTripClear_reach h
  · cases h

theorem runFrame_reach {i : Instr} (h : runFrame i s = some (.next t)) : s.Reach t := by
  unfold runFrame at h
  split at h
  · injection h with h
    exact State.reach_command h
  · injection h with h
    exact State.reach_command h
  · exact runCommand_reach h

theorem State.reach_scriptFrame (index : Nat) (b : List Byte) : s.Reach (s.scriptFrame index b) := by
  unfold State.scriptFrame
  simp only
  split
  · exact State.reach_more _
  · exact State.reach_more _
  · exact (State.reach_also fun t h => runFrame_reach h).trans (State.reach_more _)

theorem State.reach_scriptRun (n index : Nat) (b : List Byte) : s.Reach (s.scriptRun n index b) := by
  induction n generalizing s index b with
  | zero => exact .refl
  | succ n ih =>
    unfold State.scriptRun
    split
    · exact .refl
    · split
      · exact State.reach_more _
      · simp only
        split
        · exact (State.reach_scriptFrame _ _).trans (State.reach_more _)
        · exact (State.reach_scriptFrame _ _).trans (ih _ _)

theorem State.reach_script : s.Reach s.script := (State.reach_more _).trans (State.reach_scriptRun _ _ _)

theorem State.reach_entered (m : Mode) : s.Reach (s.entered m) := by
  unfold State.entered
  split
  · exact State.reach_script
  · exact .refl

theorem execModeSetGatehouse_reach {q : Hdr} (h : execModeSetGatehouse q s = .next t) : s.Reach t := by
  unfold execModeSetGatehouse at h
  split at h
  · rename_i u hu
    injection h with h
    subst h
    exact (State.reach_command hu).trans (State.reach_entered _)
  · rename_i hr
    exact absurd h (hr t)

theorem execBootConfirm_reach {bootMs : Nat} (h : execBootConfirm bootMs s = .next t) : s.Reach t := by
  unfold execBootConfirm at h
  split at h
  · injection h with h
    subst h
    exact (State.Reach.run .refl _).trans (State.reach_entered _)
  · exact State.reach_onPkg h

theorem carryOut_reach {i : Instr} (h : carryOut i s = some (.next t)) : s.Reach t := by
  unfold carryOut at h
  split at h
  · injection h with h
    exact execModeSetGatehouse_reach h
  · exact runFrame_reach h

theorem execCommandComplete_reach {origin : Origin} {tag : Nat} (h : execCommandComplete origin tag s = .next t) : s.Reach t := by
  unfold execCommandComplete at h
  injection h with h
  subst h
  refine (State.Reach.run .refl fun _ h => h).trans (State.Reach.trans (t := match ((s.run fun _ h => h).hw.work? origin tag).bind (·.cmd) with
    | some i => (s.run fun _ h => h).also (carryOut i (s.run fun _ h => h))
    | none => s.run fun _ h => h) ?_ (State.reach_more _))
  split
  · exact State.reach_also fun t h => carryOut_reach h
  · exact .refl

/-- Every next state of a command is so reached. -/
theorem exec_reach {i : Instr} (h : exec i s = .next t) : s.Reach t := by
  cases i with
  | registerWrite => exact execRegisterWrite_reach h
  | barRcRead => exact execBarRcRead_reach h
  | mbxSlotWrite => exact execMbxSlotWrite_reach h
  | mbxRing => exact execMbxRing_reach h
  | remoteMailboxDatagram => exact execRemoteMailboxDatagram_reach h
  | commandComplete => exact execCommandComplete_reach h
  | commandTimeout => exact execCommandTimeout_reach h
  | stageDiscard => exact execStageDiscard_reach h
  | statusBlockUpdate => exact execStatusBlockUpdate_reach h
  | idRead => exact execIdRead_reach h
  | sysState => exact execSysState_reach h
  | blSet => exact execBlSet_reach h
  | cmdStatus => exact execCmdStatus_reach h
  | objGet => exact execObjGet_reach h
  | objSet => exact execObjSet_reach h
  | objGetBlock => exact execObjGetBlock_reach h
  | objSetBlock => exact execObjSetBlock_reach h
  | fwBegin => exact execFwBegin_reach h
  | fwData => exact execFwData_reach h
  | fwEnd => exact execFwEnd_reach h
  | fwActivate => exact execFwActivate_reach h
  | fwAbort => exact execFwAbort_reach h
  | fwSessionTimeout => exact execFwSessionTimeout_reach h
  | qpWrWrite => exact execQpWrWrite_reach h
  | qpRdWrite => exact execQpRdWrite_reach h
  | stallPushRetry => exact execStallPushRetry_reach h
  | queueWriteback => exact execQueueWriteback_reach h
  | queueInvalidate => exact execQueueInvalidate_reach h
  | queueEnable => exact execQueueEnable_reach h
  | queueDisable => exact execQueueDisable_reach h
  | queueFlush => exact execQueueFlush_reach h
  | queueStatus => exact execQueueStatus_reach h
  | encEdge => exact execEncEdge_reach h
  | encLosSet => exact execEncLosSet_reach h
  | encLosClear => exact execEncLosClear_reach h
  | indexPulse => exact execIndexPulse_reach h
  | absWordRequest => exact execAbsWordRequest_reach h
  | absRequest => exact execAbsRequest_reach h
  | absWordComplete => exact execAbsWordComplete_reach h
  | absTimeout => exact execAbsTimeout_reach h
  | encMag => exact execEncMag_reach h
  | stillTimeout => exact execStillTimeout_reach h
  | pergolaPairReceive => exact execPergolaPairReceive_reach h
  | posSet => exact execPosSet_reach h
  | posLatch => exact execPosLatch_reach h
  | cmpArm => exact execCmpArm_reach h
  | cmpDisarm => exact execCmpDisarm_reach h
  | fireTimerMatch => exact execFireTimerMatch_reach h
  | commitDeadline => exact execCommitDeadline_reach h
  | pressRunAccept => exact execPressRunAccept_reach h
  | headParkedAccept => exact execHeadParkedAccept_reach h
  | eStopAccept => exact execEStopAccept_reach h
  | eStopReleaseAccept => exact execEStopReleaseAccept_reach h
  | leResume => exact execLeResume_reach h
  | hsForce => exact execHsForce_reach h
  | hsRelease => exact execHsRelease_reach h
  | leStatus => exact execLeStatus_reach h
  | slotShift => exact execSlotShift_reach h
  | staleReshift => exact execStaleReshift_reach h
  | headQuery => exact execHeadQuery_reach h
  | lvdsFault => exact execLvdsFault_reach h
  | hpEnable => exact execHpEnable_reach h
  | hpDisable => exact execHpDisable_reach h
  | hpRestart => exact execHpRestart_reach h
  | hpQuery => exact execHpQuery_reach h
  | hpSpitParked => exact execHpSpitParked_reach h
  | hpSpitStop => exact execHpSpitStop_reach h
  | hpSpitWeb => exact execHpSpitWeb_reach h
  | spitLine => exact execSpitLine_reach h
  | toneLine => exact execToneLine_reach h
  | tbSwapDecision => exact execTbSwapDecision_reach h
  | tbBuild => exact execTbBuild_reach h
  | tbBuildAbort => exact execTbBuildAbort_reach h
  | tbBuilt => exact execTbBuilt_reach h
  | tbSwap => exact execTbSwap_reach h
  | plStatus => exact execPlStatus_reach h
  | descriptorPush => exact execDescriptorPush_reach h
  | decodeStart => exact execDecodeStart_reach h
  | decodeComplete => exact execDecodeComplete_reach h
  | codecVerify => exact execCodecVerify_reach h
  | codecCompressSubmit => exact execCodecCompressSubmit_reach h
  | codecCompressAbort => exact execCodecCompressAbort_reach h
  | compressJobStart => exact execCompressJobStart_reach h
  | compressBlockEnd => exact execCompressBlockEnd_reach h
  | ctxOpen => exact execCtxOpen_reach h
  | ctxStartAbs => exact execCtxStartAbs_reach h
  | ctxStartAfter => exact execCtxStartAfter_reach h
  | switchFix => exact execSwitchFix_reach h
  | ctxStop => exact execCtxStop_reach h
  | ctxClose => exact execCtxClose_reach h
  | ctxAbort => exact execCtxAbort_reach h
  | ctxInvalidate => exact execCtxInvalidate_reach h
  | contextWriteback => exact execContextWriteback_reach h
  | runwayStatus => exact execRunwayStatus_reach h
  | grtData => exact execGrtData_reach h
  | grtReset => exact execGrtReset_reach h
  | grtAckTimer => exact execGrtAckTimer_reach h
  | dmaTailWrite => exact execDmaTailWrite_reach h
  | dmaBlockFetch => exact execDmaBlockFetch_reach h
  | blockStore => exact execBlockStore_reach h
  | stopFixed => exact execStopFixed_reach h
  | backupTimeout => exact execBackupTimeout_reach h
  | stopRelease => exact execStopRelease_reach h
  | csiFrameStart => exact execCsiFrameStart_reach h
  | csiLine => exact execCsiLine_reach h
  | csiFrameEnd => exact execCsiFrameEnd_reach h
  | frameTimeout => exact execFrameTimeout_reach h
  | ispFrameDone => exact execIspFrameDone_reach h
  | mpFrameProcess => exact execMpFrameProcess_reach h
  | psetListComplete => exact execPsetListComplete_reach h
  | camWake => exact execCamWake_reach h
  | camEnable => exact execCamEnable_reach h
  | camDisable => exact execCamDisable_reach h
  | camSleep => exact execCamSleep_reach h
  | camSnap => exact execCamSnap_reach h
  | camRelease => exact execCamRelease_reach h
  | camApply => exact execCamApply_reach h
  | camI2c => exact execCamI2c_reach h
  | chainRefresh => exact execChainRefresh_reach h
  | chainReturn => exact execChainReturn_reach h
  | lampWriteback => exact execLampWriteback_reach h
  | chainEnable => exact execChainEnable_reach h
  | chainDisable => exact execChainDisable_reach h
  | chainEnum => exact execChainEnum_reach h
  | lampInvalidate => exact execLampInvalidate_reach h
  | lampCtrlClear => exact execLampCtrlClear_reach h
  | lampCtrlDiag => exact execLampCtrlDiag_reach h
  | mxStep => exact execMxStep_reach h
  | mxStart => exact execMxStart_reach h
  | mxStop => exact execMxStop_reach h
  | chPageEvaluate => exact execChPageEvaluate_reach h
  | chStart => exact execChStart_reach h
  | chStop => exact execChStop_reach h
  | chFreeze => exact execChFreeze_reach h
  | chResume => exact execChResume_reach h
  | chCaptureRef => exact execChCaptureRef_reach h
  | chStatus => exact execChStatus_reach h
  | servoSample => exact execServoSample_reach h
  | slewEnd => exact execSlewEnd_reach h
  | holdoverTimeout => exact execHoldoverTimeout_reach h
  | tbChangeApply => exact execTbChangeApply_reach h
  | timeAlign => exact execTimeAlign_reach h
  | ptpMessage => exact execPtpMessage_reach h
  | announceTimeout => exact execAnnounceTimeout_reach h
  | pulseOutputMatch => exact execPulseOutputMatch_reach h
  | captureEdge => exact execCaptureEdge_reach h
  | tbRead => exact execTbRead_reach h
  | tbStep => exact execTbStep_reach h
  | poArm => exact execPoArm_reach h
  | itvTrainingStart => exact execItvTrainingStart_reach h
  | itvTrainStepDone => exact execItvTrainStepDone_reach h
  | itvTrainFail => exact execItvTrainFail_reach h
  | itvRetry => exact execItvRetry_reach h
  | itvFrameReceive => exact execItvFrameReceive_reach h
  | itvAckTimeout => exact execItvAckTimeout_reach h
  | itvSleepEnter => exact execItvSleepEnter_reach h
  | itvDeepPropose => exact execItvDeepPropose_reach h
  | itvDeepExit => exact execItvDeepExit_reach h
  | eyeScanComplete => exact execEyeScanComplete_reach h
  | ethDatagram => exact execEthDatagram_reach h
  | tunnelDatagram => exact execTunnelDatagram_reach h
  | pcieFlr => exact execPcieFlr_reach h
  | perstLLow => exact execPerstLLow_reach h
  | bar2Access => exact execBar2Access_reach h
  | enumFrame => exact execEnumFrame_reach h
  | autoEnum => exact execAutoEnum_reach h
  | timeSyncExchange => exact execTimeSyncExchange_reach h
  | itvEnable => exact execItvEnable_reach h
  | itvDisable => exact execItvDisable_reach h
  | itvRetrain => exact execItvRetrain_reach h
  | itvEyeRead => exact execItvEyeRead_reach h
  | itvEyeMeasure => exact execItvEyeMeasure_reach h
  | sysEnumFresh => exact execSysEnumFresh_reach h
  | sysEnumKeep => exact execSysEnumKeep_reach h
  | sysNode => exact execSysNode_reach h
  | housekeepingRound => exact execHousekeepingRound_reach h
  | criticalShutdown => exact execCriticalShutdown_reach h
  | thermTrip => exact execThermTrip_reach h
  | calRun => exact execCalRun_reach h
  | calRunGap => exact execCalRunGap_reach h
  | calQuality => exact execCalQuality_reach h
  | calAbort => exact execCalAbort_reach h
  | calDone => exact execCalDone_reach h
  | calNoGap => exact execCalNoGap_reach h
  | thermStatus => exact execThermStatus_reach h
  | watchdogExpiry => exact execWatchdogExpiry_reach h
  | sramEccError => exact execSramEccError_reach h
  | mgmtPowerLoss => exact execMgmtPowerLoss_reach h
  | leadTakeover => exact execLeadTakeover_reach h
  | kennelCheckpoint => exact execKennelCheckpoint_reach h
  | kennelWriteDone => exact execKennelWriteDone_reach h
  | leadRepair => exact execLeadRepair_reach h
  | leadStandby => exact execLeadStandby_reach h
  | leadMove => exact execLeadMove_reach h
  | leadCtrlRepair => exact execLeadCtrlRepair_reach h
  | leadCheckpoint => exact execLeadCheckpoint_reach h
  | leadAck => exact execLeadAck_reach h
  | eventRaise => exact execEventRaise_reach h
  | eventNumber => exact execEventNumber_reach h
  | eventProgram => exact execEventProgram_reach h
  | bucketRefillFlush => exact execBucketRefillFlush_reach h
  | evtBacklog => exact execEvtBacklog_reach h
  | evtRead => exact execEvtRead_reach h
  | evtLimitSet => exact execEvtLimitSet_reach h
  | evtLimitGet => exact execEvtLimitGet_reach h
  | porstRise => exact execPorstRise_reach h
  | sysRstL => exact execSysRstL_reach h
  | railFault => exact execRailFault_reach h
  | railGood => exact execRailGood_reach h
  | clkFault => exact execClkFault_reach h
  | clockGood => exact execClockGood_reach h
  | bootConfirm => exact execBootConfirm_reach h
  | bootWatchdog => exact execBootWatchdog_reach h
  | dieBootTimeout => exact execDieBootTimeout_reach h
  | modeSetGatehouse => exact execModeSetGatehouse_reach h
  | modeSetHosted => exact execModeSetHosted_reach h
  | ghSpitTimer => exact execGhSpitTimer_reach h
  | ghStatus => exact execGhStatus_reach h
  | domainOn => exact execDomainOn_reach h
  | domainOff => exact execDomainOff_reach h
  | dieReset => exact execDieReset_reach h
  | pkgReset => exact execPkgReset_reach h
  | tripClear => exact execTripClear_reach h
  | domainSwitchDone => exact execDomainSwitchDone_reach h
  | porstLLow => exact execPorstLLow_reach h
  | unmappedRead => exact execUnmappedRead_reach h
  | ethLinkChange => exact execEthLinkChange_reach h
  | pcieLinkChange => exact execPcieLinkChange_reach h
  | msixEnableWrite => exact execMsixEnableWrite_reach h
  | camI2cEnd => exact execCamI2cEnd_reach h
  | ptpMessageInterval => exact execPtpMessageInterval_reach h
  | itvPmBlockReceive => exact execItvPmBlockReceive_reach h

end Sys2Proof.Machine
end

