-- ==== Sys2Proof/Tests/Slice0.lean ====
section
/-!
SUPPORT. Tests: figures of the manual's worked examples, single steps, ill-formed commands, and for every clause of every
statement that has hypotheses a state and operands that meet them.
-/
namespace Sys2Proof.Tests
open Sys2Proof Sys2Proof.Machine

/-! States that the tests start from. -/

/-- A running package: mode HOSTED, die 0 the lead die, every die up with every domain on. -/
def live : Hw :=
  { (Hw.reset.wr 0 A.pd_on 0 255).wr 0 A.nv_write_ok 0 1 with
    mode := .hosted, lead := some 0, leadSt := [.active, .standby], porst := false, alive := 255, dies := Hw.reset.dies.map fun D => { D with up := true } }

/-- A state of the package with no memory byte listed. -/
def st (f : Hw → Hw) : State := { State.reset with hw := f live }

/-- A header: slot 0 of die 0, tag 7. -/
def q0 : Hdr := ⟨0, .slot 0 0 0, 7⟩

/-- A context that prints on port 0. -/
def ctx1 : Ctx := { num := 1, job := 1, ports := 1, page := 64, base := 0x1000000, pages := 16, last := none, next := List.replicate 24 0, slot := List.replicate 24 0 }

/-- Context 1 prints on port 0 of die 0 while the web moves forward. -/
def printing (h : Hw) : Hw :=
  ((((((h.onDie 0 fun D => { D with ctxs := [ctx1], pos := { D.pos with newest := { speed := 1000, flags := 2 ^ fFWD } } }).wr 0 A.ctx_state 1 2).wr 0 A.printing 1 1).wr 0 A.le_state 0 1).wr 0 A.hp_enable 0 1).wr 0 A.hp_state 0 1)

/-- An enabled packet queue of 256 words at the start of the pool. -/
def qOn : Queue := { cached := true, w1 := 0x108, enabled := true }

/-- A frame of camera 0 of die 0. -/
def frame0 : Frame :=
  { cam := 0, num := 9998, sensor := 0, flags := 0, band := 0, gen := 0, pset := 0, exposure := 0, pair := {}, isp := 0, stream := 0, w := 2, h := 4, black := [], gain := [], regs := [], blks := [] }

section Witnesses
set_option Elab.async false

/-! Figures of the manual's worked examples (the file named). -/

/-- spec/08: the check value of "123456789" (R242). -/
theorem test_crc32c_check_value : crc32c [0x31, 0x32, 0x33, 0x34, 0x35, 0x36, 0x37, 0x38, 0x39] = 0xE3069283 := by decide +kernel

/-- spec/08, the three-line block: the tokens of its payload. -/
def exampleTokens : List Byte := [0x3F, 0xFF, 0x01, 0x55, 0xA0, 0x5F, 0xFF, 0x01, 0x01, 0xFF, 0xAA, 0xA0, 0x81, 0x03, 0x02, 0xA0]

theorem test_example_block_decodes : (decodeTokens 1028 3 16 17 exampleTokens 0 0 0 [] 0).kind = kOK ∧
    ((decodeTokens 1028 3 16 17 exampleTokens 0 0 0 [] 0).rev.reverse.drop 1539).take 4 = [0x55, 0xFF, 0xAA, 0] ∧
    ((decodeTokens 1028 3 16 17 exampleTokens 0 0 0 [] 0).rev.reverse.drop 2056).take 3 = [0xFF, 0xAA, 0] := by decide +kernel

/-- spec/08: the UP token of line 1 coded with n = 1030 overruns the line; the failure names offset 5. -/
theorem test_example_block_overrun : (decodeTokens 1028 3 16 17 [0x3F, 0xFF, 0x01, 0x55, 0xA0, 0x5F, 0x05, 0x04] 0 0 0 [] 0).kind =
    kOVERRUN ∧ (decodeTokens 1028 3 16 17 [0x3F, 0xFF, 0x01, 0x55, 0xA0, 0x5F, 0x05, 0x04] 0 0 0 [] 0).off = 5 := by decide +kernel

/-- spec/11: the dimmed pinning lamp's level. -/
theorem test_lamp_level : lampFormula 0x0600 0xE000 12 1000 = 33 := by decide

/-- spec/11: the floor of `refresh_us` for 96 drivers at 4 Mbit/s is 1,596 µs. -/
theorem test_refresh_floor : refreshLow 96 1596 10 4 = false ∧ refreshLow 96 1595 10 4 = true := by decide

/-- spec/03: entry 50 of the diagnostic queue is well-formed. -/
theorem test_queue_entry : queueEntryOk 50 [0x00019900, 0x01020306, 0x00000008, 0x0000008A, 0, 0, 0, 0] = true := by decide

/-- spec/03: the diagnostic queue before step 1. -/
def exampleQueue : Queue :=
  { queueOf [0x00019900, 0x01020306, 0x00000008, 0x0000008A] with enabled := true, wr := 60, cmt := 60, rd := 60 }

theorem test_queue_slots : exampleQueue.addr 60 = 0x10000CC9E0 ∧ exampleQueue.addr 64 = 0x10000CC800 := by decide +kernel

theorem test_queue_commit : let q := ((live.onQ 0 50 fun _ => exampleQueue).qPushPacket 0 50 2 (10 :: List.replicate 9 0)).2.q 0 50
    q.wr = 70 ∧ q.cmt = 70 ∧ q.depth = 10 := by decide +kernel

theorem test_queue_oversize :
    let r := (live.onQ 0 50 fun _ => { exampleQueue with wr := 6, cmt := 70, rd := 70, pktLen := 80, holder := some 2 }).qPush 0 50 2 0 false
    r.1 = .oversize ∧ (r.2.q 0 50).wr = 70 ∧ (r.2.q 0 50).sticky = 4 := by decide +kernel

/-- spec/05, step 1: the fire point of row group 2 of line 100,000 lies 52,000.000 ns after the pair (units of 125 ps). -/
theorem test_fire_time : tau { lpos := 2146599249, speed := 1500000, accel := 500000 } true (6440031749 * 2 ^ 32 / 3) = some 416000 := by decide +kernel

/-- spec/05, step 5: 21,166.667 ÷ 7,813 = 2.709159… m/s, rounded down to whole µm/s. -/
theorem test_speed_limit : ((printing live).wr 0 A.hp_gen 0 3).vLimit 0 = some 2709159 := by decide +kernel

/-- spec/10: set 3 holds 4 writes of 47 µs. -/
theorem test_write_list_time :
    ((((live.wr 0 A.i2c_reg_bytes 0 10).wr 0 A.i2c_khz 0 1000).wrBlk 0 A.pset_table 0 (160 * 3 + 2) 1 4).listTime 0 0 3) = 188000 := by
  decide +kernel

/-- spec/10, step 2: with frame 9,998 open, CAM_APPLY for frame 10,000 takes effect at frame 10,001. -/
theorem test_apply_frame :
    (match execCamApply q0 0 3 10000 (st fun h => ((h.wr 0 A.cam_state 0 camRUN).wr 0 A.sensor_latency 0 2).onCam 0 0 fun C =>
        { C with newest := some 9998, open_ := some frame0 }) with
      | .next t => (t.hw.cam 0 0).applies.map fun a => (a.window, a.effect)
      | _ => []) = [(9998, 10001)] := by decide +kernel

/-- spec/15: throttle level 1 from 95 °C on, 7 at 102.5 °C, and no lower than 1 above 93 °C (units of 1/16 °C). -/
theorem test_throttle : nextThrottle (95 * 16) (95 * 16) 20 32 0 = 1 ∧ nextThrottle 1640 (95 * 16) 20 32 6 = 7 ∧
    nextThrottle (93 * 16) (95 * 16) 20 32 1 = 1 ∧ nextThrottle (93 * 16 - 1) (95 * 16) 20 32 1 = 0 := by decide +kernel

/-! One step on a small state. -/

/-- What a command leaves of the hardware, seen through `f`. -/
def after {α : Type} (c : Instr) (s : State) (f : Hw → α) : Option α :=
  match exec c s with
  | .next t => some (f t.hw)
  | _ => none

/-- R49: ringing slots 0 and 15 of die 7 sets their busy bits. -/
theorem test_ring : after (.mbxRing 7 0 0x8001) (st id) (fun h => (h.die 7).mbx.busy) = some 0x8001 := by decide +kernel

/-- R110, R113: one change of A forwards is one count. -/
theorem test_count : after (.encEdge 0 0 true false 1000) (st fun h => h.wr 0 A.enc_enable 0 1) (fun h => h.rawN 0 0) = some 1 := by
  decide +kernel

/-- R61: OBJ_SET of `ref_mode` reads back. -/
theorem test_obj_set : after (.objSet q0 ⟨0x13, 0, 0x10⟩ 1 none) (st id) (fun h => h.rd 0 A.ref_mode 0) = some 1 := by decide +kernel

/-- R11: a value outside its range is refused and changes nothing. -/
theorem test_obj_range : after (.objSet q0 ⟨0x21, 0, 0x12⟩ 0 none) (st id)
    (fun h => ((h.reply? q0.origin q0.tag).map (·.status), h.rd 0 A.gh_spit_lines 0)) = some (some .range, 1000) := by decide +kernel

/-- R172: HS_FORCE puts its levels on the handshake pins. -/
theorem test_force : after (.hsForce q0 0b10101) (st fun h => { h with hsOn := true }) (fun h => h.hsForce) = some (some 0b10101) := by decide +kernel

/-- R3: a command for a die that the package does not have stops with that fault. -/
theorem test_no_die : exec (.statusBlockUpdate 8) (st id) = .fault .noSuchDie := by rfl

/-- R10: so does one for a unit that a die does not have. -/
theorem test_no_unit : exec (.fireTimerMatch 0 24) (st id) = .fault .noSuchUnit := by rfl

/-- R494: PORST_L low drops the entries above the last one programmed. -/
theorem test_power_on : after .porstLLow (st fun h => { h with ring := [⟨3, []⟩, ⟨2, []⟩, ⟨1, []⟩], evtNext := 4, evtDurable := 2 })
    (fun h => (h.ring.map (·.seq), h.evtNext)) = some ([2, 1], 3) := by decide +kernel

/-- R474: a watchdog of the lead die that expires unserviced releases the lead role. -/
theorem test_watchdog : after (.watchdogExpiry 0 false) (st id) (fun h => (h.lead, h.takeover)) = some (none, some 0) := by decide +kernel

/-- The table gives no row any bits, so no word spells a command and placing one changes nothing. -/
theorem test_no_words : decodeTableWord 8 0 = none ∧ (st id).withFetchWord 8 0 = st id := ⟨rfl, rfl⟩

/-- A command in front of the queue runs; on an empty queue the clock runs on by one cycle. -/
theorem test_step : (match step { st id with pending := [.eventProgram, .autoEnum] } with
      | .next t => (t.pending, t.hw.clk)
      | _ => ([], 0)) = ([.autoEnum], 0) ∧
    (match step (st id) with
      | .next t => t.hw.clk
      | _ => 0) = 2 := by decide +kernel

/-! Ill-formed commands that `Instr.wf` refuses, one for each of its checks, beside well-formed ones. -/

theorem test_wf_accepts : Instr.wf (.statusBlockUpdate 7) = true ∧ Instr.wf (.objGet q0 ⟨0xFF, 0xFFFF, 0xFFFF⟩) = true ∧
    Instr.wf (.posSet q0 255 (-2 ^ 63)) = true ∧ Instr.wf (.objSet q0 ⟨6, 1, 1⟩ (2 ^ 64 - 1) (some ⟨255, 2 ^ 32 - 1⟩)) = true := by decide
theorem test_wf_die : Instr.wf (.statusBlockUpdate 8) = false := by decide
theorem test_wf_unit : Instr.wf (.fireTimerMatch 0 24) = false := by decide
theorem test_wf_u8 : Instr.wf (.blSet q0 256) = false := by decide
theorem test_wf_u16 : Instr.wf (.cmdStatus q0 65536) = false := by decide
theorem test_wf_u32 : Instr.wf (.mbxRing 0 0 (2 ^ 32)) = false := by decide
theorem test_wf_u64 : Instr.wf (.encLosClear 0 0 (2 ^ 64)) = false := by decide
theorem test_wf_i64 : Instr.wf (.posSet q0 1 (2 ^ 63)) = false ∧ Instr.wf (.posSet q0 1 (-2 ^ 63 - 1)) = false := by decide
theorem test_wf_bytes (b : List Byte) (h : b.length = 65553) : Instr.wf (.mbxSlotWrite 0 0 0 0 b) = false := by
  simp [Instr.wf, bytesOk, h]
theorem test_wf_line : Instr.wf (.objSet q0 ⟨6, 1, 1⟩ 0 (some ⟨256, 0⟩)) = false ∧
    Instr.wf (.objSet q0 ⟨6, 1, 1⟩ 0 (some ⟨0, 2 ^ 32⟩)) = false := by decide
theorem test_wf_origin : Instr.wf (.commandComplete (.slot 0 2 0) 0) = false ∧ Instr.wf (.commandComplete (.remote 0 0 0 65536) 0) = false ∧
    Instr.wf (.commandComplete (.itv 0 (2 ^ 18) 0) 0) = false ∧ Instr.wf (.commandComplete (.rildin 8) 0) = false := by decide
theorem test_wf_header : Instr.wf (.idRead ⟨8, .script, 0⟩) = false ∧ Instr.wf (.idRead ⟨0, .script, 65536⟩) = false := by decide
theorem test_wf_object : Instr.wf (.objGet q0 ⟨256, 0, 0⟩) = false ∧ Instr.wf (.objGet q0 ⟨0, 65536, 0⟩) = false ∧
    Instr.wf (.objGet q0 ⟨0, 0, 65536⟩) = false := by decide
theorem test_wf_lists : Instr.wf (.queueEnable q0 0 1 [64]) = false ∧ Instr.wf (.housekeepingRound 0 0 [4096] []) = false := by decide

/-! The general statements. -/

theorem witness_StepOnEmptyQueueTicks : ∃ s : State, s.pending = [] := ⟨st id, rfl⟩
theorem witness_EveryStepKeepsTheInvariant : ∃ s t : State, s.Inv ∧ step s = .next t :=
  ⟨{ st id with pending := [.eventProgram] }, _, ⟨by decide +kernel, by decide +kernel, rfl, rfl⟩, rfl⟩
theorem witness_CommandsLeaveTheQueue : ∃ (c : Instr) (s t : State), exec c s = .next t := ⟨.eventProgram, st id, _, rfl⟩
theorem witness_EveryCommandStaysInItsFrame :
    ∃ (c : Instr) (T : Touch) (s t : State), Instr.touches c = some T ∧ exec c s = .next t := ⟨.eventProgram, _, st id, _, rfl, rfl⟩
theorem witness_AddressesWithoutStorageStayZero_0 : stored 0x9000 = false := by decide +kernel
theorem witness_AddressesWithoutStorageStayZero_1 : ∃ (c : Instr) (s t : State), s.Inv ∧
    (∀ d a, stored a = false → memRead (s.mems.getD d []) a = 0) ∧ exec c s = .next t ∧ stored 0x9000 = false :=
  ⟨.eventProgram, st id, _, ⟨by decide +kernel, by decide +kernel, rfl, rfl⟩, fun d a _ => by
    have e : (st id).mems.getD d [] = [] := by
      show (List.replicate dieCount []).getD d [] = []
      simp only [List.getD_eq_getElem?_getD, List.getElem?_replicate]; split <;> rfl
    rw [e]; rfl, rfl, by decide +kernel⟩

/-! The host's accesses and the life of a command. -/

theorem witness_HostAccessesComplete_0 : ∃ (s : State) (die ep : Nat), die < s.hw.dies.length ∧ ep < 2 :=
  ⟨st id, 7, 1, by decide⟩
theorem witness_HostAccessesComplete_1 :
    ∃ (s : State) (die ep off width : Nat), die < s.hw.dies.length ∧ ep < 2 ∧ off < 0x1014 ∧ 0x1010 < off + width :=
  ⟨st id, 7, 1, 0x1010, 4, by decide⟩
theorem witness_HostAccessesComplete_2 : ∃ (s : State) (die ep slot off : Nat) (data : List Byte), die < s.hw.dies.length ∧
    ep < 2 ∧ slot < 16 ∧ off + data.length ≤ 256 ∧ bit (s.hw.die die).mbx.busy slot = false ∧
    slot < (s.hw.die die).mbx.slots.length := ⟨st id, 7, 1, 15, 0, List.replicate 256 1, by decide +kernel⟩
theorem witness_HostAccessesComplete_2b : ∃ (s : State) (die ep slot off : Nat) (data : List Byte), die < s.hw.dies.length ∧
    ep < 2 ∧ slot < 16 ∧ off + data.length ≤ 256 ∧ bit (s.hw.die die).mbx.busy slot = true :=
  ⟨st fun h => h.onMbx 7 fun M => { M with busy := 2 ^ 15 }, 7, 1, 15, 252, [1, 2, 3, 4], by decide +kernel⟩
theorem witness_HostAccessesComplete_2c : ∃ (s : State) (die ep slot off : Nat) (data : List Byte), die < s.hw.dies.length ∧
    ep < 2 ∧ slot < 16 ∧ 256 < off + data.length := ⟨st id, 7, 1, 15, 256, [1], by decide⟩
theorem witness_HostAccessesComplete_3 : ∃ (s : State) (ep off d a : Nat), 0 < s.hw.dies.length ∧ ep < 2 ∧
    s.hw.aperture ep off = some (d, a) ∧ (region a = .qct ∨ region a = .ct ∨ region a = .lamp ∨ region a = .pool ∨
      region a = .dram ∧ s.hw.on d domMEM = true) :=
  ⟨st fun h => { h.wr 7 A.pd_on 0 255 with eps := [Endpoint.reset, { Endpoint.reset with apertures := List.replicate 16 (2 ^ 63 + 7 * 2 ^ 40 + 0x20000000) }] }, 1, 2 ^ 32 - 1, 7, 0x2FFFFFFF, by decide +kernel⟩
theorem witness_CommandLifeCompletes_0 : ∃ (s : State) (die ep : Nat), die < s.hw.dies.length ∧ ep < 2 := ⟨st id, 7, 1, by decide⟩
theorem witness_CommandLifeCompletes_1 : ∃ (s : State) (d ep slot tag : Nat) (w : Work) (r : Reply), d < s.hw.dies.length ∧
    s.hw.work? (.slot d ep slot) tag = some w ∧ w.cmd = none ∧ w.origin = .slot d ep slot ∧ w.tag = tag ∧
    s.hw.reply? (.slot d ep slot) tag = some r ∧ s.hw.resetDue = none ∧ slot < (s.hw.die d).mbx.slots.length :=
  ⟨st fun h => { h.onMbx 0 fun M => { M with work := [⟨.slot 0 0 15, 7, 1, [], 0, none, 0⟩] } with replies := [((.slot 0 0 15, 7), .ok)] },
    0, 0, 15, 7, _, _, by decide, rfl, rfl, rfl, rfl, rfl, rfl, by decide +kernel⟩
theorem witness_CommandLifeCompletes_2 : ∃ (s : State) (d ep slot tag : Nat) (w : Work), d < s.hw.dies.length ∧
    s.hw.work? (.slot d ep slot) tag = some w ∧ w.origin = .slot d ep slot ∧ s.hw.reply? (.slot d ep slot) tag = none :=
  ⟨st fun h => h.onMbx 0 fun M => { M with work := [⟨.slot 0 0 15, 7, 1, [], 0, none, 0⟩] }, 0, 0, 15, 7, _, by decide, rfl, rfl, rfl⟩
theorem witness_CommandLifeCompletes_3 : ∃ (s : State) (die eth : Nat) (data : List Byte), die < s.hw.dies.length ∧ eth < 2 ∧
    s.hw.ethUp die eth = true ∧ bit (s.hw.rd die A.rmbx_port_en 0) eth = true ∧ 16 ≤ data.length ∧
    data.length = 16 + frLen data ∧ (∀ k ∈ (s.hw.die die).mbx.kept, k.request ≠ data) ∧
    (∀ w ∈ s.hw.remoteWork die, w.frame ≠ data) ∧ (s.hw.remoteWork die).length < 32 :=
  ⟨st fun h => ((h.wr 0 A.eth_enable 1 1).wr 0 A.link_up 1 1).wr 0 A.rmbx_port_en 0 3, 0, 1, List.replicate 16 0, by decide +kernel⟩
theorem witness_CommandLifeCompletes_3b : ∃ (s : State) (die eth : Nat) (data : List Byte), die < s.hw.dies.length ∧ eth < 2 ∧
    s.hw.ethUp die eth = true ∧ bit (s.hw.rd die A.rmbx_port_en 0) eth = true ∧
    (data.length < 16 ∨ data.length ≠ 16 + frLen data) :=
  ⟨st fun h => ((h.wr 0 A.eth_enable 1 1).wr 0 A.link_up 1 1).wr 0 A.rmbx_port_en 0 3, 0, 1, List.replicate 15 0, by decide +kernel⟩
theorem witness_CommandLifeCompletes_4 : ∃ (s : State) (die port dst : Nat), die < s.hw.dies.length ∧ port < 2 ∧
    s.hw.ethUp die port = true ∧ dst ≠ 50420 ∧ dst ≠ s.hw.rd die A.grt_udp_port 0 ∧ dst ≠ s.hw.rd 0 A.tun_udp_port 0 ∧
    dst ≠ 319 ∧ dst ≠ 320 :=
  ⟨st fun h => (h.wr 0 A.eth_enable 1 1).wr 0 A.link_up 1 1, 0, 1, 1, by decide +kernel⟩

/-! Links. -/

theorem witness_LinkEventsComplete_0 : ∃ (s : State) (ep : Nat), 0 < s.hw.dies.length ∧ ep < 2 ∧ ep < s.hw.eps.length :=
  ⟨st id, 1, by decide⟩
theorem witness_LinkEventsComplete_1 : ∃ (s : State) (ep : Nat) (on : Bool), 0 < s.hw.dies.length ∧ ep < 2 ∧ on = true ∧
    s.hw.rd 0 A.pcie_link ep = 1 ∧ ep < s.hw.eps.length := ⟨st fun h => h.wr 0 A.pcie_link 1 1, 1, true, by decide +kernel⟩
theorem witness_LinkEventsComplete_4 : ∃ (s : State) (link : Nat), link < s.hw.dies.length ∧ link < 8 ∧
    (s.hw.link link).unacked ≠ [] :=
  ⟨st fun h => h.onLink 7 fun L => { L with unacked := [⟨4, 1, 0, 0, 0, 0, []⟩] }, 7, by decide +kernel⟩
theorem witness_LinkEventsComplete_5 : ∃ (s : State) (die : Nat), die < s.hw.dies.length ∧ s.hw.rd die A.itv_enable 0 ≠ 0 :=
  ⟨st fun h => h.wr 7 A.itv_enable 0 1, 7, by decide +kernel⟩
theorem witness_LinkEventsComplete_6 : ∃ (s : State) (die : Nat) (res : TrainResult), die < s.hw.dies.length ∧
    s.hw.rd die A.itv_state 0 = 1 ∧ s.hw.rd die A.train_step 0 = 3 ∧ res.order = (List.range 8).reverse :=
  ⟨st fun h => (h.wr 7 A.itv_state 0 1).wr 7 A.train_step 0 3, 7, ⟨0, (List.range 8).reverse, 0, 3, 0, 5⟩, by decide +kernel⟩
theorem witness_LinkEventsComplete_7 : ∃ (s : State) (die : Nat), die < s.hw.dies.length ∧ s.hw.rd die A.itv_state 0 = 1 ∧
    (s.hw.die die).itv.failRun + 1 < 3 := ⟨st fun h => h.wr 7 A.itv_state 0 1, 7, by decide +kernel⟩
theorem witness_LinkEventsComplete_7b : ∃ (s : State) (die : Nat), die < s.hw.dies.length ∧ s.hw.rd die A.itv_state 0 = 1 ∧
    3 ≤ (s.hw.die die).itv.failRun + 1 ∧ (s.hw.die die).itv.gen ≤ 1 :=
  ⟨st fun h => (h.wr 7 A.itv_state 0 1).onDie 7 fun D => { D with itv := { D.itv with failRun := 2 } }, 7, by decide +kernel⟩
theorem witness_LinkEventsComplete_8 : ∃ (s : State) (die : Nat), die < s.hw.dies.length ∧ s.hw.rd die A.itv_state 0 = 3 :=
  ⟨st fun h => h.wr 7 A.itv_state 0 3, 7, by decide +kernel⟩
theorem witness_LinkEventsComplete_9 : ∃ (s : State) (die : Nat), die < s.hw.dies.length ∧ s.hw.rd die A.itv_state 0 = 2 ∧
    s.hw.rd die A.tx_pm 0 = 0 ∧ s.hw.rd die A.sleep_after_ns 0 ≠ 0 ∧ s.hw.itvQuiet die = true :=
  ⟨st fun h => (h.wr 7 A.itv_state 0 2).wr 7 A.sleep_after_ns 0 100, 7, by decide +kernel⟩
theorem witness_LinkEventsComplete_10 : ∃ (s : State) (die : Nat), die < s.hw.dies.length ∧ s.hw.rd die A.itv_state 0 = 2 ∧
    s.hw.rd die A.tx_pm 0 = 1 ∧ s.hw.rd die A.rx_pm 0 = 1 ∧ s.hw.rd die A.deep_after_ms 0 ≠ 0 ∧ s.hw.itvQuiet die = true :=
  ⟨st fun h => (((h.wr 7 A.itv_state 0 2).wr 7 A.tx_pm 0 1).wr 7 A.rx_pm 0 1).wr 7 A.deep_after_ms 0 5, 7, by decide +kernel⟩
theorem witness_LinkEventsComplete_11 : ∃ (s : State) (die type : Nat), die < s.hw.dies.length ∧ s.hw.rd die A.itv_state 0 = 2 ∧
    type = 0x55 ∧ (s.hw.die die).itv.proposed = true :=
  ⟨st fun h => (h.wr 7 A.itv_state 0 2).onDie 7 fun D => { D with itv := { D.itv with proposed := true } }, 7, 0x55, by decide +kernel⟩
theorem witness_LinkEventsComplete_12 : ∃ (s : State) (die : Nat), die < s.hw.dies.length ∧ s.hw.rd die A.tx_pm 0 = 2 :=
  ⟨st fun h => h.wr 7 A.tx_pm 0 2, 7, by decide +kernel⟩
theorem witness_LinkEventsComplete_13 : ∃ (s : State) (die lane width : Nat), die < s.hw.dies.length ∧ lane < 8 ∧ width < 2 ^ 16 ∧
    lane < (s.hw.die die).itv.eyeAt.length := ⟨st id, 7, 7, 65535, by decide +kernel⟩
theorem witness_LinkEventsComplete_14 : ∃ (s : State) (die port : Nat), die < s.hw.dies.length ∧ port < 2 := ⟨st id, 7, 1, by decide⟩
theorem witness_LinkCommandsComplete_0 : ∃ (s : State) (h : Hdr), s.Admits h 0x0C01 (opObj 0x0C01 0) ∧
    s.hw.rd h.die A.itv_enable 0 ≠ 1 := ⟨st fun h => h.wr 0 A.itv_enable 0 0, q0, by unfold State.Admits; decide +kernel⟩
theorem witness_LinkCommandsComplete_0b : ∃ (s : State) (h : Hdr), s.Admits h 0x0C01 (opObj 0x0C01 0) ∧
    s.hw.rd h.die A.itv_enable 0 ≠ 0 := ⟨st fun h => h.wr 0 A.itv_enable 0 1, q0, by unfold State.Admits; decide +kernel⟩
theorem witness_LinkCommandsComplete_1 : ∃ (s : State) (h : Hdr), s.Admits h 0x0C02 (opObj 0x0C02 0) ∧
    s.hw.rd h.die A.itv_state 0 = 2 := ⟨st fun h => h.wr 0 A.itv_state 0 2, q0, by unfold State.Admits; decide +kernel⟩
theorem witness_LinkCommandsComplete_2 : ∃ (s : State) (h : Hdr), s.Admits h 0x0C03 (opObj 0x0C03 0) ∧
    s.hw.rd 0 A.sys_role 0 ≠ 2 := ⟨st id, q0, by unfold State.Admits; decide +kernel⟩
theorem witness_LinkCommandsComplete_3 : ∃ (s : State) (h : Hdr), s.Admits h 0x0C04 (opObj 0x0C04 0) := ⟨st id, q0, by unfold State.Admits; decide +kernel⟩
theorem witness_LinkCommandsComplete_4 : ∃ (s : State) (link serial : Nat), 0 < s.hw.dies.length ∧ link < 24 ∧
    serial ≠ Config.serial ∧ ∀ p ∈ s.hw.pkg.peers, p.serial = serial → p.link = link :=
  ⟨st id, 23, Config.serial + 1, by decide, by decide, Nat.succ_ne_self _, nofun⟩
theorem witness_LinkCommandsComplete_5 : ∃ s : State, s.hw.rd 0 A.auto_enum 0 = 1 ∧ s.hw.rd 0 A.sys_role 0 ≠ 2 ∧
    s.hw.lead.isSome := ⟨st fun h => h.wr 0 A.auto_enum 0 1, by decide +kernel⟩
theorem witness_LinkCommandsComplete_6 : ∃ (s : State) (link : Nat), 0 < s.hw.dies.length ∧ link < 8 ∧
    s.hw.rd 0 A.tb_source 0 = 2 ∧ s.hw.rd 0 A.upstream 0 = link ∧ s.hw.rd 0 A.time_master 0 = 0 ∧ s.hw.lead.isSome ∧
    (s.hw.servo 0).st = .acquire :=
  ⟨st fun h => (((h.wr 0 A.tb_source 0 2).wr 0 A.upstream 0 7).wr 0 A.time_master 0 0).onServo 0 fun S => { S with st := .acquire }, 7,
    by decide +kernel⟩
theorem witness_LinkCommandsComplete_7 : ∃ (s : State) (die type hops seq : Nat), die < s.hw.dies.length ∧ die < 8 ∧
    s.hw.rd die A.itv_state 0 = 2 ∧ 2 ≤ type ∧ type ≤ 7 ∧ seq < 2 ^ 16 ∧ (s.hw.link die).rxNext = seq ∧ 4 ≤ type ∧ hops ≠ 0 :=
  ⟨st fun h => (h.wr 7 A.itv_state 0 2).onLink 7 fun L => { L with rxNext := 65535 }, 7, 7, 1, 65535, by decide +kernel⟩
theorem witness_LinkCommandsComplete_8 : ∃ (s : State) (die port ip udp k type hops seq : Nat), die < s.hw.dies.length ∧
    port < 2 ∧ s.hw.ethUp die port = true ∧ s.hw.tunnelOf die port ip udp = some k ∧ k < s.hw.tunnels.length ∧
    (s.hw.link (8 + k)).up = true ∧ 4 ≤ type ∧ type ≤ 7 ∧ hops ≠ 0 ∧ seq < 2 ^ 16 ∧ (s.hw.link (8 + k)).rxNext = seq :=
  ⟨st fun h => (((h.wr 0 A.eth_enable 1 1).wr 0 A.link_up 1 1).onLink 8 fun L => { L with up := true, rxNext := 65535 }).setBlk (rkey 0 A.tun_peers 0) (List.replicate 15 0 ++ [5, 9, 0, 0, 1, 1]),
    0, 1, 5, 9, 0, 7, 1, 65535, by decide +kernel⟩

/-! Queues. -/

theorem witness_QueueRowsComplete_0 : ∃ (s : State) (die q value : Nat), die < s.hw.dies.length ∧ q < 64 ∧
    q < (s.hw.die die).queues.length ∧ (s.hw.q die q).enabled = true ∧ (s.hw.q die q).producer = 1 ∧
    value < (s.hw.q die q).ptrMod ∧ (value + (s.hw.q die q).ptrMod - (s.hw.q die q).wr) % (s.hw.q die q).ptrMod ≤
      (s.hw.q die q).size - (s.hw.q die q).occupied ∧ ((s.hw.q die q).packet = true →
      s.begun.qChainOk s.mems die (s.hw.q die q) (s.hw.q die q).cmt value (s.hw.q die q).size = true) :=
  ⟨st fun h => h.onQ 7 63 fun _ => { qOn with w1 := 0x00010008 }, 7, 63, 256, by decide +kernel⟩
theorem witness_QueueRowsComplete_1 : ∃ (s : State) (die q value : Nat), die < s.hw.dies.length ∧ q < 64 ∧
    q < (s.hw.die die).queues.length ∧ (s.hw.q die q).enabled = true ∧ (s.hw.q die q).consumer = 1 ∧
    value < (s.hw.q die q).ptrMod ∧
    (value + (s.hw.q die q).ptrMod - (s.hw.q die q).rd) % (s.hw.q die q).ptrMod ≤ (s.hw.q die q).depth :=
  ⟨st fun h => h.onQ 7 63 fun _ => { qOn with w1 := 0x01000008, cmt := 256, wr := 256 }, 7, 63, 256, by decide +kernel⟩
theorem witness_QueueRowsComplete_2 : ∃ (s : State) (die q : Nat) (w : HeldWord), die < s.hw.dies.length ∧ q < 64 ∧
    q < (s.hw.die die).queues.length ∧ (s.hw.q die q).enabled = true ∧ (s.hw.q die q).held = [w] ∧
    (s.hw.q die q).discard.contains w.agent = false ∧ ({ s.hw.q die q with held := [] } : Queue).mustWait q w.agent = false ∧
    (s.hw.q die q).full = false ∧ ((s.hw.q die q).packet = true → (s.hw.q die q).uncommitted ≠ (s.hw.q die q).size) :=
  ⟨st fun h => h.onQ 7 63 fun _ => { qOn with w1 := 0x308, held := [⟨4, 9, true⟩] }, 7, 63, ⟨4, 9, true⟩, by decide +kernel⟩
theorem witness_QueueRowsComplete_3 : ∃ (s : State) (die q : Nat), die < s.hw.dies.length ∧ q < 64 ∧ (s.hw.q die q).enabled = true :=
  ⟨st fun h => h.onQ 7 63 fun _ => qOn, 7, 63, by decide +kernel⟩
theorem witness_QueueRowsComplete_4 : ∃ (s : State) (h : Hdr) (first count : Nat), s.Admits h 0x0101 (opObj 0x0101 first) ∧
    queueRange first count = true ∧ ∀ i, i < first + count → first ≤ i → i ≠ 63 ∧ (s.hw.q h.die i).enabled = false :=
  ⟨st id, q0, 0, 63, by unfold State.Admits; decide +kernel⟩
theorem witness_QueueRowsComplete_5 : ∃ (s : State) (h : Hdr) (first count : Nat) (bad : List Nat),
    s.Admits h 0x0102 (opObj 0x0102 first) ∧ queueRange first count = true ∧
    (s.atWork h).enableFail s.mems h.die bad [] ((List.range count).map (first + ·)) = none :=
  ⟨st fun h => h.onQ 0 62 fun _ => { cached := true, w1 := 0x010B0008 }, q0, 62, 1, [], by unfold State.Admits; decide +kernel⟩
theorem witness_QueueRowsComplete_6 : ∃ (s : State) (h : Hdr) (first count : Nat), s.Admits h 0x0102 (opObj 0x0102 first) ∧
    queueRange first count = true ∧
    ∀ i, i < first + count → first ≤ i → (s.hw.q h.die i).enabled = true ∧ s.hw.agentActive h.die i = false :=
  ⟨st fun h => (h.onQ 0 60 fun _ => qOn).onQ 0 61 fun _ => qOn, q0, 60, 2, by unfold State.Admits; decide +kernel⟩
theorem witness_QueueRowsComplete_7 : ∃ (s : State) (h : Hdr) (first count : Nat), s.Admits h 0x0102 (opObj 0x0102 first) ∧
    queueRange first count = true ∧ (s.hw.die h.die).queues.length = 64 ∧
    ∀ i, i < first + count → first ≤ i → i ≠ 63 ∧ (s.hw.q h.die i).enabled = true :=
  ⟨st fun h => (h.onQ 0 61 fun _ => qOn).onQ 0 62 fun _ => qOn, q0, 61, 2, by unfold State.Admits; decide +kernel⟩
theorem witness_QueueRowsComplete_8 : ∃ (s : State) (h : Hdr) (q : Nat), s.Admits h 0x0103 (opObj 0x0103 q) ∧ q < 64 :=
  ⟨st id, q0, 63, by unfold State.Admits; decide +kernel⟩
theorem witness_PushStoresOneQueueWord : ∃ (h : Hw) (d i agent : Nat), (h.q d i).enabled = true ∧
    (h.q d i).discard.contains agent = false ∧ (h.q d i).mustWait i agent = false ∧
    ((h.q d i).packet = true → (h.q d i).uncommitted ≠ (h.q d i).size) ∧ (h.q d i).full = false :=
  ⟨live.onQ 7 63 fun _ => qOn, 7, 63, 4, by decide +kernel⟩

/-! The rules stated one by one. -/

theorem witness_WatchdogServiceCounts : ∃ (s : State) (die : Nat), die < s.hw.dies.length := ⟨st id, 7, by decide⟩
theorem witness_LampLevelSent : ∃ (s : State) (die chain : Nat), die < s.hw.dies.length ∧ chain < 4 ∧
    (s.hw.rd die A.chain_state chain = chRUN ∨ s.hw.rd die A.chain_state chain = chLOST) :=
  ⟨st fun h => h.wr 7 A.chain_state 3 chLOST, 7, 3, by decide +kernel⟩
theorem witness_FirmwareDataOffsets_0 : ∃ (s : State) (h : Hdr) (off : Nat) (data : List Byte) (f : FwSession),
    s.Admits h 0x0F20 (opObj 0x0F20 0) ∧ s.hw.fw = some f ∧ f.src = srcOf h.origin ∧ f.ended = false ∧ 1 ≤ data.length ∧
    data.length ≤ 228 ∧ off = f.received ∧ ¬(f.lastLen = data.length ∧ f.lastOff = off) ∧ off + data.length ≤ f.size ∧
    s.hw.nvOk = true :=
  ⟨st fun h => { h with fw := some ⟨.pcie 0 0, 232, 4, 0, 4, [1, 2, 3, 4], false⟩ }, q0, 4, List.replicate 228 0,
    ⟨.pcie 0 0, 232, 4, 0, 4, [1, 2, 3, 4], false⟩, by unfold State.Admits; decide +kernel⟩
theorem witness_FirmwareDataOffsets_1 : ∃ (s : State) (h : Hdr) (off : Nat) (data : List Byte) (f : FwSession),
    s.Admits h 0x0F20 (opObj 0x0F20 0) ∧ s.hw.fw = some f ∧ f.src = srcOf h.origin ∧ f.ended = false ∧ 1 ≤ data.length ∧
    data.length ≤ 228 ∧ f.lastLen = data.length ∧ f.lastOff = off :=
  ⟨st fun h => { h with fw := some ⟨.pcie 0 0, 232, 4, 0, 4, [1, 2, 3, 4], false⟩ }, q0, 0, [1, 2, 3, 4],
    ⟨.pcie 0 0, 232, 4, 0, 4, [1, 2, 3, 4], false⟩, by unfold State.Admits; decide +kernel⟩
theorem witness_FirmwareDataOffsets_2 : ∃ (s : State) (h : Hdr) (off : Nat) (data : List Byte) (f : FwSession),
    s.Admits h 0x0F20 (opObj 0x0F20 0) ∧ s.hw.fw = some f ∧ f.src = srcOf h.origin ∧ f.ended = false ∧ 1 ≤ data.length ∧
    data.length ≤ 228 ∧ off ≠ f.received ∧ ¬(f.lastLen = data.length ∧ f.lastOff = off) :=
  ⟨st fun h => { h with fw := some ⟨.pcie 0 0, 232, 4, 0, 4, [1, 2, 3, 4], false⟩ }, q0, 5, [1],
    ⟨.pcie 0 0, 232, 4, 0, 4, [1, 2, 3, 4], false⟩, by unfold State.Admits; decide +kernel⟩
theorem witness_PopWhileEmpty_0 : ∃ (h : Hw) (d i : Nat), d < h.dies.length ∧ i < (h.die d).queues.length ∧
    (h.q d i).enabled = true ∧ (h.q d i).empty = true := ⟨live.onQ 7 63 fun _ => qOn, 7, 63, by decide +kernel⟩
theorem witness_PopWhileEmpty_1 : ∃ (h : Hw) (d i : Nat), d < h.dies.length ∧ i < (h.die d).queues.length ∧
    (h.q d i).enabled = true ∧ (h.q d i).empty = false := ⟨live.onQ 7 63 fun _ => { qOn with cmt := 1, wr := 1 }, 7, 63, by decide +kernel⟩
theorem witness_PopWhileEmpty_2 : ∃ (s : State) (h : Hdr) (i : Nat) (bad : List Nat), s.Admits h 0x0102 (opObj 0x0102 i) ∧
    i < 63 ∧ i < (s.hw.die h.die).queues.length ∧ (s.atWork h).enableFail s.mems h.die bad [] [i] = none :=
  ⟨st fun h => h.onQ 0 62 fun _ => { cached := true, w1 := 0x010B0008 }, q0, 62, [], by unfold State.Admits; decide +kernel⟩
theorem witness_ConfigRecordsAreNeverLimited_0 : ∃ (s : State) (die code : Nat), die < s.hw.dies.length ∧
    (code = 0x0020 ∨ code = 0x0021) ∧ (s.hw.limits.find? fun l => l.code = code) = none := ⟨st id, 7, 0x0021, by decide +kernel⟩
theorem witness_ConfigRecordsAreNeverLimited_1 : ∃ (s : State) (h : Hdr) (code rate : Nat),
    s.Admits h 0x0E03 (opObj 0x0E03 0) ∧ (code = 0x0020 ∨ code = 0x0021) ∧ rate ≠ 0 := ⟨st id, q0, 0x0020, 1, by unfold State.Admits; decide +kernel⟩
theorem witness_BehaviourLevelChosenAtBoot_0 : ∃ s : State, s.hw.porst = true := ⟨State.reset, rfl⟩
theorem witness_BehaviourLevelChosenAtBoot_1 : ∃ s : State, s.hw.porst = false ∧ s.hw.railFault = true ∧ s.hw.clkFault = false :=
  ⟨st fun h => { h with railFault := true }, rfl, rfl, rfl⟩
theorem witness_BehaviourLevelChosenAtBoot_2 : ∃ s : State, s.hw.porst = false ∧ s.hw.railFault = false ∧ s.hw.clkFault = true :=
  ⟨st fun h => { h with clkFault := true }, rfl, rfl, rfl⟩
theorem witness_BehaviourLevelChosenAtBoot_3 : ∃ (c : Instr) (T : Touch) (s t : State), Instr.touches c = some T ∧
    HwRec.bl ∉ T.pkg ∧ exec c s = .next t := ⟨.eventProgram, _, st id, _, rfl, by decide, rfl⟩
theorem witness_EventsLostAtPowerOn : ∃ (s : State) (b i : Nat), s.hw.bootWatch = true ∧
    s.hw.bootDie (fun h d => (h.die d).up) = some b ∧ s.hw.fwBooted = some i ∧ s.hw.rd 0 A.gh_script_len 0 = 0 ∧
    s.hw.rd b A.reset_cause 0 = Cause.code .por :=
  ⟨st fun h => { h.wr 0 A.reset_cause 0 (Cause.code .por) with bootWatch := true, fwBooted := some 0 }, 0, 0, by decide +kernel⟩

/-! MotionRowsComplete. -/

theorem witness_MotionRowsComplete_0 : ∃ (s : State) (die : Nat) (ch : Nat), die < s.hw.dies.length ∧ ch < 2 ∧ ch <
    (s.hw.die die).enc.length :=
⟨st id, 0, 1, by decide +kernel⟩
theorem witness_MotionRowsComplete_1 : ∃ (s : State) (die : Nat) (ch : Nat) (a : Bool) (b : Bool), die < s.hw.dies.length ∧
    ch < 2 ∧ ch < (s.hw.die die).enc.length ∧ s.hw.encOn die ch = true ∧ s.hw.rd die A.enc_mode ch ≠ 1 ∧ (quadPlace a b +
    4 - quadPlace (s.hw.enc die ch).a (s.hw.enc die ch).b) % 4 = 2 :=
⟨st fun h => h.wr 0 A.enc_enable 0 1, 0, 0, true, true, by decide +kernel⟩
theorem witness_MotionRowsComplete_2 : ∃ (s : State) (die : Nat) (ch : Nat) (pin : Nat), die < s.hw.dies.length ∧ ch < 2 ∧
    ch < (s.hw.die die).enc.length ∧ s.hw.rd die A.enc_enable ch = 1 ∧ s.hw.encFlag die ch fLOS = false ∧ pin ≠ 2 ∧
    s.hw.posCh die ≠ some ch :=
⟨st fun h => h.wr 0 A.enc_enable 1 1, 0, 1, 0, by decide +kernel⟩
theorem witness_MotionRowsComplete_3 : ∃ (s : State) (die : Nat) (ch : Nat), die < s.hw.dies.length ∧ ch < 2 ∧
    s.hw.encFlag die ch fLOS = true ∧ s.hw.posCh die ≠ some ch :=
⟨st fun h => h.wr 0 A.enc_flags 1 (2 ^ fLOS), 0, 1, by decide +kernel⟩
theorem witness_MotionRowsComplete_4 : ∃ (s : State) (die : Nat) (ch : Nat), die < s.hw.dies.length ∧ ch < 2 ∧ ch <
    (s.hw.die die).enc.length ∧ s.hw.encOn die ch = true ∧ s.hw.rd die A.index_gate ch = 0 ∧ (s.hw.enc die ch).ref = none ∧
    s.hw.rd die A.home_on_index ch = 0 :=
⟨st fun h => (h.wr 0 A.enc_enable 1 1).wr 0 A.index_gate 1 0, 0, 1, by decide +kernel⟩
theorem witness_MotionRowsComplete_5 : ∃ (s : State) (die : Nat) (ch : Nat) (r : Int), die < s.hw.dies.length ∧ ch < 2 ∧ ch <
    (s.hw.die die).enc.length ∧ s.hw.encOn die ch = true ∧ s.hw.rd die A.index_gate ch = 0 ∧ (s.hw.enc die ch).ref = some r ∧
    s.hw.rd die A.index_period ch ≠ 0 ∧ s.hw.rd die A.index_window ch <
    (indexDiff (s.hw.rawN die ch) r (s.hw.rd die A.index_period ch)).natAbs :=
⟨st fun h => ((((h.wr 0 A.enc_enable 1 1).wr 0 A.index_gate 1 0).wr 0 A.index_period 1 1000).wr 0 A.index_window 1 2).onEnc 0 1 fun E => { E with ref := some 500 }, 0, 1, 500, by decide +kernel⟩
theorem witness_MotionRowsComplete_6 : ∃ (s : State) (die : Nat) (ch : Nat), die < s.hw.dies.length ∧ ch < 2 ∧ ch <
    (s.hw.die die).enc.length ∧ (s.hw.enc die ch).word.isSome :=
⟨st fun h => h.onEnc 0 1 fun E => { E with word := some (0, 0) }, 0, 1, by decide +kernel⟩
theorem witness_MotionRowsComplete_7 : ∃ (s : State) (die : Nat) (ch : Nat) (input : Nat) (rising : Bool), die <
    s.hw.dies.length ∧ ch < 2 ∧ s.hw.rd die A.mag_home ch ≠ 1 + 2 * input + b2n (!rising) :=
⟨st id, 0, 1, 1, true, by decide +kernel⟩
theorem witness_MotionRowsComplete_8 : ∃ (s : State) (die : Nat) (ch : Nat), die < s.hw.dies.length ∧ ch < 2 ∧
    s.hw.encOn die ch = true ∧ s.hw.posCh die ≠ some ch :=
⟨st fun h => h.wr 0 A.enc_enable 1 1, 0, 1, by decide +kernel⟩
theorem witness_MotionRowsComplete_9 : ∃ (s : State) (die : Nat) (ch : Nat), die < s.hw.dies.length ∧ ch < 2 ∧ ch <
    (s.hw.die die).enc.length ∧ s.hw.rd die A.enc_enable ch = 1 ∧ s.hw.rd die A.enc_mode ch ≠ 0 ∧ (s.hw.enc die ch).word =
    none :=
⟨st fun h => (h.wr 0 A.enc_enable 1 1).wr 0 A.enc_mode 1 1, 0, 1, by decide +kernel⟩
theorem witness_MotionRowsComplete_10 : ∃ (s : State) (h : Hdr) (ch : Nat), s.Admits h 0x0011 ⟨0x03, ch, 0x2A⟩ ∧ ch < 2 ∧ ch <
    (s.hw.die h.die).enc.length ∧ s.hw.rd h.die A.enc_enable ch = 1 ∧ s.hw.rd h.die A.enc_mode ch ≠ 0 ∧
    (s.hw.enc h.die ch).word = none ∧ (s.hw.enc h.die ch).dat = true :=
⟨st fun h => (h.wr 0 A.enc_enable 1 1).wr 0 A.enc_mode 1 1, q0, 1, by unfold State.Admits; decide +kernel⟩
theorem witness_MotionRowsComplete_11 : ∃ (s : State) (die : Nat) (ch : Nat), die < s.hw.dies.length ∧ ch < 2 ∧ ch <
    (s.hw.die die).enc.length ∧ (s.hw.enc die ch).word.isSome :=
⟨st fun h => h.onEnc 0 1 fun E => { E with word := some (0, 0) }, 0, 1, by decide +kernel⟩

/-! PositionRowsComplete. -/

theorem witness_PositionRowsComplete_0 : ∃ (s : State) (h : Hdr) (what : Nat), s.Admits h 0x0201 (opObj 0x0201 0) ∧ 1 ≤ what ∧
    what ≤ 3 ∧ s.hw.printing h.die = false ∧ (s.hw.posCh h.die).isSome :=
⟨st id, q0, 3, by unfold State.Admits; decide +kernel⟩
theorem witness_PositionRowsComplete_1 : ∃ (s : State) (h : Hdr), s.Admits h 0x0202 (opObj 0x0202 0) :=
⟨st id, q0, by unfold State.Admits; decide +kernel⟩
theorem witness_PositionRowsComplete_2 : ∃ (s : State) (h : Hdr) (unit_ : Nat) (pulse : Nat) (step : Nat),
    s.Admits h 0x0203 (opObj 0x0203 unit_) ∧ unit_ < 16 ∧ pulse < 256 ∧ step < 2 ^ 32 :=
⟨st id, q0, 15, 255, 1000, by unfold State.Admits; decide +kernel⟩
theorem witness_PositionRowsComplete_3 : ∃ (s : State) (h : Hdr) (unit_ : Nat), s.Admits h 0x0203 (opObj 0x0203 unit_) ∧
    unit_ < 16 :=
⟨st id, q0, 15, by unfold State.Admits; decide +kernel⟩
theorem witness_PositionRowsComplete_4 : ∃ (s : State) (die : Nat) (src : Nat), die < s.hw.dies.length ∧ src <
    s.hw.dies.length ∧ src + 1 = die ∧ s.hw.posCh die = none :=
⟨st fun h => h.wr 1 A.pos_source 0 2, 1, 0, by decide +kernel⟩
theorem witness_PositionRowsComplete_5 : ∃ (s : State) (level : Bool), s.hw.hsOn = true ∧ ((s.hw.hsSeen.testBit 0 = true →
    s.hw.hsIn.testBit 0 ≠ level)) :=
⟨st fun h => { h with hsOn := true }, true, by decide +kernel⟩
theorem witness_PositionRowsComplete_6 : ∃ (s : State) (level : Bool), s.hw.hsOn = true ∧ ((s.hw.hsSeen.testBit 1 = true →
    s.hw.hsIn.testBit 1 ≠ level)) :=
⟨st fun h => { h with hsOn := true }, true, by decide +kernel⟩
theorem witness_PositionRowsComplete_7 : ∃ (s : State), s.hw.hsOn = true ∧ ((s.hw.hsSeen.testBit 2 = true →
    s.hw.hsIn.testBit 2 ≠ true)) :=
⟨st fun h => { h with hsOn := true, hsSeen := 4 }, by decide +kernel⟩
theorem witness_PositionRowsComplete_8 : ∃ (s : State), s.hw.hsOn = true ∧ ((s.hw.hsSeen.testBit 2 = true →
    s.hw.hsIn.testBit 2 ≠ false)) :=
⟨st fun h => { h with hsOn := true, hsSeen := 4, hsIn := 4 }, by decide +kernel⟩

/-! ObjectRowsComplete. -/

theorem witness_ObjectRowsComplete_0 : ∃ (s : State) (h : Hdr) (obj : ObjRef) (r : AttrRow), s.Admits h 0x0010 obj ∧
    (s.atWork h).objKnown (s.hw.execDie h 0x0010 obj) obj = true ∧ (s.atWork h).attr? obj = some r ∧ r.width ≤ 64 :=
⟨st id, q0, ⟨0x21, 0, 0x12⟩, ⟨"gh_spit_lines", 0, 1, 0x0012, 0x0012, 32, .rw, 1000, .rng 1 1000000, false, false, false⟩, by unfold State.Admits; decide +kernel⟩
theorem witness_ObjectRowsComplete_1 : ∃ (s : State) (h : Hdr) (obj : ObjRef) (r : AttrRow) (value : Nat),
    s.Admits h 0x0011 obj ∧ (s.atWork h).objKnown (s.hw.execDie h 0x0011 obj) obj = true ∧ (s.atWork h).attr? obj = some r ∧
    r.acc = .rw ∧ r.width ≤ 64 ∧ value < 2 ^ r.width ∧ r.rng.has r.signed r.width value = true ∧
    (s.atWork h).setRefuse (s.hw.execDie h 0x0011 obj) obj value = none ∧ r.lineEff = false ∧
    (∀ c ∈ [0x03, 0x04, 0x0E, 0x0F, 0x14, 0x15, 0x17, 0x1F], obj.cls ≠ c) ∧ (⟨obj.cls, obj.attr⟩ : AttrId) ≠ A.cfg_changes :=
⟨st id, q0, ⟨0x13, 0, 0x10⟩, ⟨"ref_mode", 0, 0, 0x0010, 0x0010, 1, .rw, 0, .any, false, false, false⟩, 1, by unfold State.Admits; decide +kernel⟩
theorem witness_ObjectRowsComplete_2 : ∃ (s : State) (h : Hdr) (obj : ObjRef) (r : AttrRow) (off : Nat) (len : Nat),
    s.Admits h 0x0012 obj ∧ (s.atWork h).objKnown (s.hw.execDie h 0x0012 obj) obj = true ∧ (s.atWork h).attr? obj = some r ∧
    64 < r.width ∧ 1 ≤ len ∧ len ≤ 240 ∧ off + len ≤ (s.atWork h).blkSize (s.hw.execDie h 0x0012 obj) obj r :=
⟨st id, q0, ⟨0x12, 0, 0x10⟩, ⟨"mx_level", 0, 0, 0x0010, 0x0010, 4096, .rw, 0, .any, false, false, false⟩, 0, 240, by unfold State.Admits; decide +kernel⟩
theorem witness_ObjectRowsComplete_3 : ∃ (s : State) (h : Hdr) (obj : ObjRef) (r : AttrRow) (off : Nat) (data : List Byte),
    s.Admits h 0x0013 obj ∧ (s.atWork h).objKnown (s.hw.execDie h 0x0013 obj) obj = true ∧ (s.atWork h).attr? obj = some r ∧
    r.acc = .rw ∧ 64 < r.width ∧ data.length ≤ 216 ∧ off + data.length ≤ r.width / 8 ∧
    (s.atWork h).setRefuse (s.hw.execDie h 0x0013 obj) obj 0 = none ∧ (∀ x ∈ s.hw.stages, x.key ≠
    okey (s.hw.execDie h 0x0013 obj) obj) :=
⟨st id, q0, ⟨0x12, 0, 0x10⟩, ⟨"mx_level", 0, 0, 0x0010, 0x0010, 4096, .rw, 0, .any, false, false, false⟩, 296, List.replicate 216 7, by unfold State.Admits; decide +kernel⟩
theorem witness_ObjectRowsComplete_4 : ∃ (s : State) (h : Hdr) (obj : ObjRef) (r : AttrRow) (off : Nat) (data : List Byte),
    s.Admits h 0x0013 obj ∧ (s.atWork h).objKnown (s.hw.execDie h 0x0013 obj) obj = true ∧ (s.atWork h).attr? obj = some r ∧
    r.acc = .rw ∧ 64 < r.width ∧ data.length ≤ 216 ∧ off + data.length ≤ r.width / 8 ∧
    (s.atWork h).setRefuse (s.hw.execDie h 0x0013 obj) obj 0 = none ∧ (∀ x ∈ s.hw.stages, x.key ≠
    okey (s.hw.execDie h 0x0013 obj) obj) ∧
    (({ (s.atWork h) with stages := (s.atWork h).stages.filter fun x => x.key ≠ okey (s.hw.execDie h 0x0013 obj) obj } : Hw).blkCheck (s.hw.execDie h 0x0013 obj) obj (blkSplice (okey (s.hw.execDie h 0x0013 obj) obj) (blkSplice (okey (s.hw.execDie h 0x0013 obj) obj) (blkSplice (okey (s.hw.execDie h 0x0013 obj) obj) (s.hw.blk (okey (s.hw.execDie h 0x0013 obj) obj)) 0 []) off data) (r.width / 8) []) =
    none) :=
⟨st id, q0, ⟨0x12, 0, 0x10⟩, ⟨"mx_level", 0, 0, 0x0010, 0x0010, 4096, .rw, 0, .any, false, false, false⟩, 296, List.replicate 216 7, by unfold State.Admits; decide +kernel⟩
theorem witness_ObjectRowsComplete_5 : ∃ (s : State) (die : Nat) (obj : ObjRef), die < s.hw.dies.length ∧ (∃ x ∈ s.hw.stages,
    x.key = okey die obj) :=
⟨st fun h => { h with stages := [⟨okey 0 ⟨0x12, 0, 0x10⟩, .pcie 0 0, []⟩] }, 0, ⟨0x12, 0, 0x10⟩, by decide +kernel⟩

/-! FirmwareRowsComplete. -/

theorem witness_FirmwareRowsComplete_0 : ∃ (s : State) (h : Hdr), s.Admits h 0x0001 (opObj 0x0001 0) :=
⟨st id, q0, by unfold State.Admits; decide +kernel⟩
theorem witness_FirmwareRowsComplete_1 : ∃ (s : State) (h : Hdr), s.Admits h 0x0002 (opObj 0x0002 0) :=
⟨st id, q0, by unfold State.Admits; decide +kernel⟩
theorem witness_FirmwareRowsComplete_2 : ∃ (s : State) (h : Hdr) (level : Nat), s.Admits h 0x0004 (opObj 0x0004 0) ∧ (level =
    1 ∨ level = 2) ∧ bit (s.hw.rd (s.hw.execDie h 0x0004 (opObj 0x0004 0)) A.straps 0) 0 = false ∧
    bit (s.hw.rd (s.hw.execDie h 0x0004 (opObj 0x0004 0)) A.straps 0) 3 = false ∧ (s.atWork h).nvOk = true :=
⟨st id, q0, 1, by unfold State.Admits; decide +kernel⟩
theorem witness_FirmwareRowsComplete_3 : ∃ (s : State) (h : Hdr) (tag : Nat) (r : Deferred),
    s.Admits h 0x0005 (opObj 0x0005 0) ∧
    (s.atWork h).deferredOf (s.hw.execDie h 0x0005 (opObj 0x0005 0)) tag (srcOf h.origin) = some r :=
⟨st fun h => { h with pkg := { h.pkg with deferred := [⟨1, 3, .pcie 0 0, true, { kind := 4 }, 0⟩] } }, q0, 3, ⟨1, 3, .pcie 0 0, true, { kind := 4 }, 0⟩, by unfold State.Admits; decide +kernel⟩
theorem witness_FirmwareRowsComplete_4 : ∃ (s : State) (h : Hdr) (size : Nat), s.Admits h 0x0F20 (opObj 0x0F20 0) ∧
    ((s.hw.fw.any fun f => decide (f.src ≠ srcOf h.origin)) = false) ∧
    bit (s.hw.rd (s.hw.execDie h 0x0F20 (opObj 0x0F20 0)) A.straps 0) 3 = false ∧ size ≤ 2 ^ 24 ∧ (s.atWork h).nvOk = true :=
⟨st id, q0, 2 ^ 24, by unfold State.Admits; decide +kernel⟩
theorem witness_FirmwareRowsComplete_5 : ∃ (s : State) (h : Hdr) (f : FwSession) (off : Nat) (data : List Byte),
    s.Admits h 0x0F20 (opObj 0x0F20 0) ∧ s.hw.fw = some f ∧ f.src = srcOf h.origin ∧ f.ended = false ∧ data ≠ [] ∧
    data.length ≤ 228 ∧ ¬(f.lastLen = data.length ∧ f.lastOff = off) ∧ off = f.received ∧ off + data.length ≤ f.size ∧
    (s.atWork h).nvOk = true :=
⟨st fun h => { h with fw := some ⟨.pcie 0 0, 8, 4, 0, 4, [1, 2, 3, 4], false⟩ }, q0, ⟨.pcie 0 0, 8, 4, 0, 4, [1, 2, 3, 4], false⟩, 4, [5, 6, 7, 8], by unfold State.Admits; decide +kernel⟩
theorem witness_FirmwareRowsComplete_6 : ∃ (s : State) (h : Hdr) (f : FwSession), s.Admits h 0x0F20 (opObj 0x0F20 0) ∧
    s.hw.fw = some f ∧ f.src = srcOf h.origin ∧ f.ended = false ∧ (s.atWork h).nvOk = true ∧ f.received = f.size :=
⟨st fun h => { h with fw := some ⟨.pcie 0 0, 4, 4, 0, 4, [1, 2, 3, 4], false⟩ }, q0, ⟨.pcie 0 0, 4, 4, 0, 4, [1, 2, 3, 4], false⟩, by unfold State.Admits; decide +kernel⟩
theorem witness_FirmwareRowsComplete_7 : ∃ (s : State) (h : Hdr), s.Admits h 0x0F20 (opObj 0x0F20 0) ∧
    ((s.hw.fw.any fun f => decide (f.src ≠ srcOf h.origin)) = false) ∧
    (s.hw.fwSlots.getD (s.atWork h).fwTarget FwSlot.blank).st = .valid ∧ (s.atWork h).nvOk = true :=
⟨st fun h => { h with fwSlots := [⟨.active, [], 0, 0, false, true, 6⟩, ⟨.valid, [], 0, 0, false, true, 6⟩], fwBooted := some 0 }, q0, by unfold State.Admits; decide +kernel⟩
theorem witness_FirmwareRowsComplete_8 : ∃ (s : State) (h : Hdr) (f : FwSession), s.Admits h 0x0F20 (opObj 0x0F20 0) ∧
    s.hw.fw = some f ∧ f.src = srcOf h.origin :=
⟨st fun h => { h with fw := some ⟨.pcie 0 0, 4, 4, 0, 4, [1, 2, 3, 4], false⟩ }, q0, ⟨.pcie 0 0, 4, 4, 0, 4, [1, 2, 3, 4], false⟩, by unfold State.Admits; decide +kernel⟩
theorem witness_FirmwareRowsComplete_10 : ∃ (s : State) (die : Nat), die < s.hw.dies.length ∧ (s.hw.die die).up = true :=
⟨st id, 7, by decide +kernel⟩

/-! FireRowsComplete. -/

theorem witness_FireRowsComplete_0 : ∃ (s : State) (die : Nat) (port : Nat) (a : Arm) (f : Firing), die < s.hw.dies.length ∧
    port < 24 ∧ ((s.hw.port die port).arms.find? (fun a => (s.hw.port die port).arms.all fun b => a.t ≤ b.t) = some a) ∧
    (s.hw.port die port).firing = some f ∧ f.ctx = a.ctx ∧ f.k = a.k :=
⟨st fun h => h.onPort 0 23 fun P => { P with arms := [⟨1, 9, 0, 1000, 0⟩], firing := some ⟨1, 9, 1, 0⟩ }, 0, 23, ⟨1, 9, 0, 1000, 0⟩, ⟨1, 9, 1, 0⟩, by decide +kernel⟩
theorem witness_FireRowsComplete_1 : ∃ (s : State) (die : Nat) (port : Nat) (slot : Nat) (c : Ctx), die < s.hw.dies.length ∧
    port < 24 ∧ s.begun.portCtx die port = some c ∧ c.slotAt port < slot ∧ s.begun.ctxPrints die c.num = true ∧
    s.hw.rd die A.le_state 0 = 1 ∧ s.begun.portLive die port = true ∧ s.begun.armBound die c port slot = true ∧
    (s.begun.tFire die c slot port 0).isSome ∧ (s.hw.port die port).slot? c.num slot = none :=
⟨st fun h => printing h |>.onCtx 0 1 fun c => { c with next := List.replicate 24 9, ports := 1 }, 0, 0, 1, { ctx1 with next := List.replicate 24 9 }, by decide +kernel⟩
theorem witness_FireRowsComplete_2 : ∃ (s : State) (h : Hdr), s.Admits h 0x0301 (opObj 0x0301 0) ∧
    (((List.range (s.atWork h).n).all fun d => s.hw.rd d A.le_state 0 == 5) = true) ∧ s.hw.hsIn.testBit 2 = false :=
⟨st fun h => (List.range 8).foldl (fun h d => h.wr d A.le_state 0 5) h, q0, by unfold State.Admits; decide +kernel⟩
theorem witness_FireRowsComplete_3 : ∃ (s : State) (h : Hdr) (levels : Nat), s.Admits h 0x0301 (opObj 0x0301 0) ∧ levels <
    32 ∧ ((List.range (s.atWork h).n).any (s.atWork h).printing) = false :=
⟨st id, q0, 31, by unfold State.Admits; decide +kernel⟩
theorem witness_FireRowsComplete_4 : ∃ (s : State) (h : Hdr), s.Admits h 0x0301 (opObj 0x0301 0) :=
⟨st id, q0, by unfold State.Admits; decide +kernel⟩
theorem witness_FireRowsComplete_5 : ∃ (s : State) (h : Hdr), s.Admits h 0x0302 (opObj 0x0302 0) :=
⟨st id, q0, by unfold State.Admits; decide +kernel⟩

/-! HeadRowsComplete. -/

theorem witness_HeadRowsComplete_0 : ∃ (s : State) (die : Nat) (port : Nat) (tm : Nat) (x : Slot), die < s.hw.dies.length ∧
    port < 24 ∧ (s.begun.until die tm).portLive die port = true ∧ s.hw.rd die A.hp_state port ≠ 3 ∧
    s.hw.rd die A.hp_state port ≠ 4 ∧ ((s.hw.port die port).slots.any (fun x => x.inRegs) = false) ∧
    (s.begun.until die tm).nextShift die port = some x :=
⟨st fun h => (printing h).onPort 0 0 fun P => { P with slots := [⟨1, 0, .staged, [], false, none, 0⟩] }, 0, 0, 0, ⟨1, 0, .staged, [], false, none, 0⟩, by decide +kernel⟩
theorem witness_HeadRowsComplete_1 : ∃ (s : State) (die : Nat) (port : Nat) (x : Slot), die < s.hw.dies.length ∧ port < 24 ∧
    s.begun.portLive die port = true ∧ s.hw.rd die A.le_state 0 = 1 ∧ (s.hw.pos die).newest.fwd = true ∧
    (s.hw.pos die).newest.still = false ∧ ((s.hw.port die port).slots.find? (fun x => x.stale.isSome) = some x) :=
⟨st fun h => (printing h).onPort 0 0 fun P => { P with slots := [⟨1, 0, .shifted, [], true, some 0, 0⟩] }, 0, 0, ⟨1, 0, .shifted, [], true, some 0, 0⟩, by decide +kernel⟩
theorem witness_HeadRowsComplete_2 : ∃ (s : State) (die : Nat) (port : Nat) (pair : Nat), die < s.hw.dies.length ∧ port < 24 ∧
    s.hw.rd die A.hp_enable port ≠ 0 ∧ pair < 5 ∧ s.hw.rd die A.hp_state port ≠ 5 :=
⟨st fun h => h.wr 0 A.hp_enable 23 1, 0, 23, 4, by decide +kernel⟩
theorem witness_HeadRowsComplete_3 : ∃ (s : State) (die : Nat) (port : Nat) (start : Bool) (data : List Byte) (crc : Nat) (q : Query) (qs : List Query),
    die < s.hw.dies.length ∧ port < 24 ∧ (s.hw.port die port).queries = q :: qs ∧ s.hw.rd die A.head_query port = 0 ∧ start =
    true ∧ data.length = q.len ∧ (crcMsb 8 0x07 (data.flatMap fun b => bitsMsb 8 b.toNat) ≠ crc) :=
⟨st fun h => h.onPort 0 23 fun P => { P with queries := [⟨1, 0, 2, some (.slot 0 0 0, 7)⟩] }, 0, 23, true, [0, 0], 1, ⟨1, 0, 2, some (.slot 0 0 0, 7)⟩, [], by decide +kernel⟩
theorem witness_HeadRowsComplete_4 : ∃ (s : State) (die : Nat) (port : Nat) (start : Bool) (q : Query) (qs : List Query),
    die < s.hw.dies.length ∧ port < 24 ∧ (s.hw.port die port).queries = q :: qs ∧ port < (s.hw.die die).ports.length ∧
    s.hw.rd die A.head_query port = 0 ∧ start = false :=
⟨st fun h => h.onPort 0 23 fun P => { P with queries := [⟨1, 0, 2, some (.slot 0 0 0, 7)⟩] }, 0, 23, false, ⟨1, 0, 2, some (.slot 0 0 0, 7)⟩, [], by decide +kernel⟩
theorem witness_HeadRowsComplete_5 : ∃ (s : State) (h : Hdr) (port : Nat) (arg : Nat) (cmd : Nat) (len : Nat),
    s.Admits h 0x0402 (opObj 0x0402 port) ∧ port < 24 ∧ ((cmd = 1 ∧ arg = 0) ∨ (cmd = 2 ∧ arg < 4) ∨ (cmd = 3 ∧ arg = 0) ∨
    (0x80 ≤ cmd ∧ cmd < 256 ∧ arg < 256 ∧ 1 ≤ len ∧ len ≤ 32)) ∧ s.hw.rd h.die A.hp_state port = 1 ∧ port <
    (s.hw.die h.die).ports.length :=
⟨st fun h => h.wr 0 A.hp_state 23 1, q0, 23, 255, 255, 32, by unfold State.Admits; decide +kernel⟩
theorem witness_HeadRowsComplete_6 : ∃ (s : State) (h : Hdr) (ports : Nat), s.Admits h 0x0401 (opObj 0x0401 (lowBit ports)) ∧
    ports < 2 ^ 24 ∧ (∀ p ∈ portsOf ports, s.hw.rd h.die A.hp_enable p ≠ 1 ∧ (s.atWork h).rgOrdered h.die p = true) :=
⟨st id, q0, 2 ^ 23, by unfold State.Admits; decide +kernel⟩
theorem witness_HeadRowsComplete_7 : ∃ (s : State) (h : Hdr) (ports : Nat), s.Admits h 0x0401 (opObj 0x0401 (lowBit ports)) ∧
    ports < 2 ^ 24 ∧ (∀ p ∈ portsOf ports, s.hw.rd h.die A.hp_state p ≠ 2 ∧ s.hw.rd h.die A.hp_state p ≠ 3) :=
⟨st id, q0, 2 ^ 24 - 1, by unfold State.Admits; decide +kernel⟩
theorem witness_HeadRowsComplete_8 : ∃ (s : State) (h : Hdr) (ports : Nat) (bad : Nat),
    s.Admits h 0x0401 (opObj 0x0401 (lowBit ports)) ∧ ports < 2 ^ 24 ∧ (∀ p ∈ portsOf ports, s.hw.rd h.die A.hp_state p = 5 ∧
    bad.testBit p = false) :=
⟨st fun h => h.wr 0 A.hp_state 23 5, q0, 2 ^ 23, 0, by unfold State.Admits; decide +kernel⟩
theorem witness_HeadRowsComplete_9 : ∃ (s : State) (h : Hdr) (port : Nat) (bad : Nat),
    s.Admits h 0x0401 (opObj 0x0401 (lowBit (2 ^ port))) ∧ port < 24 ∧ s.hw.rd h.die A.hp_state port = 5 ∧ bad.testBit port =
    false ∧ (s.atWork h).portCtx h.die port = none :=
⟨st fun h => h.wr 0 A.hp_state 23 5, q0, 23, 0, by unfold State.Admits; decide +kernel⟩
theorem witness_HeadRowsComplete_10 : ∃ (s : State) (h : Hdr) (ports : Nat) (lines : Nat),
    s.Admits h 0x0403 (opObj 0x0403 (lowBit ports)) ∧ ports < 2 ^ 24 ∧ lines ≤ 1000000 ∧ s.hw.hsIn.testBit 1 = true ∧
    (s.hw.rd h.die A.le_state 0 = 0 ∨ s.hw.rd h.die A.le_state 0 = 4) ∧ (∀ p ∈ portsOf ports, s.hw.rd h.die A.hp_state p = 1) :=
⟨st fun h => { (h.wr 0 A.hp_state 23 1) with hsIn := 2 }, q0, 2 ^ 23, 1000000, by unfold State.Admits; decide +kernel⟩
theorem witness_HeadRowsComplete_11 : ∃ (s : State) (h : Hdr) (ports : Nat), s.Admits h 0x0403 (opObj 0x0403 (lowBit ports)) ∧
    ports < 2 ^ 24 :=
⟨st id, q0, 2 ^ 24 - 1, by unfold State.Admits; decide +kernel⟩
theorem witness_HeadRowsComplete_12 : ∃ (s : State) (die : Nat) (port : Nat) (j : SpitJob), die < s.hw.dies.length ∧ port <
    24 ∧ ((s.hw.die die).spits.find? (fun j => j.ports.any fun x => x.1 = port) = some j) ∧ s.hw.hsIn.testBit 1 = true ∧
    ((List.range s.hw.dies.length).any (fun e => s.hw.rd e A.le_state 0 == 5) = false) ∧ (j.lines = 0 ∨
    ((j.ports.find? fun x => x.1 = port).map (·.2)).getD 0 < j.lines) :=
⟨st fun h => { (h.onDie 0 fun D => { D with spits := [⟨[(0, 0)], 1⟩] }) with hsIn := 2 }, 0, 0, ⟨[(0, 0)], 1⟩, by decide +kernel⟩
theorem witness_HeadRowsComplete_13 : ∃ (s : State) (h : Hdr) (ctx : Nat) (ports : Nat) (first : Nat) (count : Nat) (c : Ctx),
    s.Admits h 0x0403 (opObj 0x0403 (lowBit ports)) ∧ s.hw.bl ≠ 1 ∧ ports < 2 ^ 24 ∧ 1 ≤ ctx ∧ ctx < 256 ∧ 1 ≤ count ∧ count <
    65536 ∧ first < 2 ^ 32 ∧ (s.atWork h).ctx? h.die ctx = some c ∧ (s.atWork h).ctxState h.die ctx ≠ ctxDONE ∧
    (s.atWork h).ctxState h.die ctx ≠ ctxFAILED ∧ (((portsOf ports).all fun p => c.ports.testBit p) = true) :=
⟨st fun h => printing h, q0, 1, 1, 2 ^ 32 - 1, 1, ctx1, by unfold State.Admits; decide +kernel⟩

/-! PipelineRowsComplete. -/

theorem witness_PipelineRowsComplete_0 : ∃ (s : State) (die : Nat) (bank : Nat), die < s.hw.dies.length ∧ bank < 2 ∧
    s.hw.rd die A.swap_pending bank = 1 ∧
    s.begun.tonedFrom die (s.hw.rd die A.swap_context bank) (s.hw.rd die A.swap_line bank) = true ∧
    s.hw.rd die A.bank_state bank = 2 :=
⟨st fun h => ((((printing h).onPort 0 0 fun P => { P with toned := [⟨1, 5, 0, []⟩] }).wr 0 A.swap_pending 1 1).wr 0 A.swap_context 1 1).wr 0 A.bank_state 1 2, 0, 1, by decide +kernel⟩
theorem witness_PipelineRowsComplete_1 : ∃ (s : State) (die : Nat) (bank : Nat), die < s.hw.dies.length ∧ bank < 2 ∧
    s.hw.rd die A.swap_pending bank = 1 ∧
    s.begun.tonedFrom die (s.hw.rd die A.swap_context bank) (s.hw.rd die A.swap_line bank) = true ∧
    s.hw.rd die A.bank_state bank ≠ 2 :=
⟨st fun h => ((((printing h).onPort 0 0 fun P => { P with toned := [⟨1, 5, 0, []⟩] }).wr 0 A.swap_pending 1 1).wr 0 A.swap_context 1 1).wr 0 A.bank_state 1 1, 0, 1, by decide +kernel⟩
theorem witness_PipelineRowsComplete_2 : ∃ (s : State) (die : Nat) (port : Nat) (line : Nat) (l : DecLine), die <
    s.hw.dies.length ∧ port < 24 ∧ s.begun.lineToTone die port line = some l :=
⟨st fun h => (printing h).onPort 0 0 fun P => { P with decoded := [⟨1, 0, false, []⟩] }, 0, 0, 0, ⟨1, 0, false, []⟩, by decide +kernel⟩
theorem witness_PipelineRowsComplete_3 : ∃ (s : State) (h : Hdr) (ctx : Nat) (bank : Nat) (line : Nat),
    s.Admits h 0x0502 (opObj 0x0502 bank) ∧ bank < 2 ∧ 1 ≤ ctx ∧ ctx < 256 ∧ line < 2 ^ 32 ∧
    (s.hw.rd h.die A.bank_state bank = 1 ∨ s.hw.rd h.die A.bank_state bank = 2) ∧ s.hw.rd h.die A.bank_state (1 - bank) = 3 ∧
    ((s.atWork h).ctxState h.die ctx = ctxOPEN ∨ (s.atWork h).ctxState h.die ctx = ctxPRINTING) ∧
    s.hw.rd h.die A.swap_pending bank = 0 :=
⟨st fun h => ((printing h).wr 0 A.bank_state 1 2).wr 0 A.bank_state 0 3, q0, 1, 1, 2 ^ 32 - 1, by unfold State.Admits; decide +kernel⟩
theorem witness_PipelineRowsComplete_4 : ∃ (s : State) (h : Hdr) (bank : Nat), s.Admits h 0x0501 (opObj 0x0501 bank) ∧ bank <
    2 ∧ (s.hw.rd h.die A.bank_state bank = 0 ∨ s.hw.rd h.die A.bank_state bank = 2) ∧ s.hw.rd h.die A.swap_pending bank = 0 :=
⟨st id, q0, 1, by unfold State.Admits; decide +kernel⟩
theorem witness_PipelineRowsComplete_5 : ∃ (s : State) (h : Hdr) (bank : Nat), s.Admits h 0x0501 (opObj 0x0501 bank) ∧ bank <
    2 ∧ s.hw.rd h.die A.bank_state bank = 1 :=
⟨st fun h => h.wr 0 A.bank_state 1 1, q0, 1, by unfold State.Admits; decide +kernel⟩
theorem witness_PipelineRowsComplete_6 : ∃ (s : State) (die : Nat) (bank : Nat) (i : BankInput), die < s.hw.dies.length ∧
    bank < 2 ∧ (s.begun.bank die bank).input = some i ∧ s.hw.rd die A.bank_state bank = 1 :=
⟨st fun h => (h.wr 0 A.bank_state 1 1).onBank 0 1 fun B => { B with input := some ⟨[], [], [], [], []⟩ }, 0, 1, ⟨[], [], [], [], []⟩, by decide +kernel⟩
theorem witness_PipelineRowsComplete_7 : ∃ (s : State) (h : Hdr) (port : Nat), s.Admits h 0x0503 (opObj 0x0503 port) ∧ port <
    24 :=
⟨st id, q0, 23, by unfold State.Admits; decide +kernel⟩

/-! CodecRowsComplete. -/

theorem witness_CodecRowsComplete_0 : ∃ (s : State) (die : Nat) (ctx : Nat) (port : Nat) (c : Ctx) (b : Blk), die <
    s.hw.dies.length ∧ port < 24 ∧ s.begun.ctx? die ctx = some c ∧ (c.blocks.find? (fun b => b.port = port ∧ !b.pushed) =
    some b) ∧ s.begun.ctxPrints die ctx = true ∧ s.begun.ctxState die ctx ≠ ctxFAILED ∧ b.first + b.count - 1 +
    s.begun.dMin die port ≤ c.slotAt port + 134 ∧ s.hw.rd die A.dec_in_flight 0 < min (s.hw.rd die A.dec_limit 0) 96 ∧
    (s.begun.qPushPacket die (16 + port % 8) 0x04 (descWords ctx port false b.addr b.first b.len)).1 = .committed :=
⟨st fun h => ((printing h).onCtx 0 1 fun c => { c with blocks := [⟨0x1000000, 100, 0, 0, 1, false, false⟩] }).onQ 0 16 (fun _ => qOn), 0, 1, 0, { ctx1 with blocks := [⟨0x1000000, 100, 0, 0, 1, false, false⟩] }, ⟨0x1000000, 100, 0, 0, 1, false, false⟩, by decide +kernel⟩
theorem witness_CodecRowsComplete_1 : ∃ (s : State) (die : Nat) (engine : Nat) (q : Nat), die < s.hw.dies.length ∧ engine <
    4 ∧ s.begun.engine die engine = none ∧ s.begun.decHead s.mems die = some q :=
⟨st fun h => h.onQ 0 23 (fun _ => { qOn with wr := 3, cmt := 3 }), 0, 3, 23, by decide +kernel⟩
theorem witness_CodecRowsComplete_2 : ∃ (s : State) (die : Nat) (engine : Nat) (j : DecJob), die < s.hw.dies.length ∧ engine <
    4 ∧ s.begun.engine die engine = some j :=
⟨st fun h => h.onCodec 0 fun C => { C with engines := [none, none, none, some ⟨16, 1, 0, false, 0x1000000, 0, 17⟩] }, 0, 3, ⟨16, 1, 0, false, 0x1000000, 0, 17⟩, by decide +kernel⟩
theorem witness_CodecRowsComplete_3 : ∃ (s : State) (h : Hdr) (port : Nat) (greyscale : Nat) (margin : Nat) (nozzles : Nat) (addr : Nat) (stored : Nat) (out : Nat) (v : List Nat),
    s.Admits h 0x0601 (opObj 0x0601 0) ∧ port < 24 ∧ greyscale ≤ 1 ∧ margin ≤ 64 ∧ 256 ≤ nozzles ∧ nozzles ≤ 4096 ∧
    nozzles % 256 = 0 ∧ 17 ≤ stored ∧ stored ≤ 65552 ∧ addr < 2 ^ 40 ∧ (out = 0 ∨ inDram out 1 = true) ∧
    s.hw.rd h.die A.dec_in_flight 0 < min (s.hw.rd h.die A.dec_limit 0) 96 ∧ v =
    descWords 0 port true addr ((s.atWork h).num s.mems h.die (addr + 4) 4) stored ∧ ((s.atWork h).qPushPacket h.die (16 +
    port % 8) 0x02 v).1 = .committed :=
⟨st fun h => h.onQ 0 23 (fun _ => qOn), q0, 23, 1, 64, 4096, 0x1000000, 65552, 0x1000000, descWords 0 23 true 0x1000000 0 65552, by unfold State.Admits; decide +kernel⟩
theorem witness_CodecRowsComplete_4 : ∃ (s : State) (h : Hdr) (queue : Nat) (back : Nat) (tag : Nat) (addr : Nat) (row : Nat) (stride : Nat) (rows : Nat) (line : Nat) (limit : Nat) (per : Nat),
    s.Admits h 0x0602 (opObj 0x0602 0) ∧ 40 ≤ queue ∧ queue ≤ 47 ∧ back ≠ 1 ∧ back ≤ 255 ∧ tag ≤ 65535 ∧ 1 ≤ row ∧ row ≤
    65536 ∧ row ≤ stride ∧ stride < 2 ^ 32 ∧ 1 ≤ rows ∧ rows < 2 ^ 32 ∧ line < 2 ^ 32 ∧ 32 ≤ limit ∧ limit ≤ 16384 ∧ 1 ≤ per ∧
    per ≤ 65535 ∧ per * row ≤ 65536 ∧ inDram addr ((rows - 1) * stride + row) = true ∧ (s.hw.die h.die).codec.jobs.length <
    8 ∧ (s.hw.q h.die queue).enabled = true ∧ (((s.hw.die h.die).codec.jobs.any fun j => j.src = srcOf h.origin ∧ j.tag =
    tag) = false) :=
⟨st fun h => h.onQ 0 47 (fun _ => qOn), q0, 47, 255, 65535, 0x1000000, 65536, 65536, 1, 2 ^ 32 - 1, 16384, 1, by unfold State.Admits; decide +kernel⟩
theorem witness_CodecRowsComplete_5 : ∃ (s : State) (die : Nat), die < s.hw.dies.length ∧ (s.hw.die die).codec.running =
    false ∧ (s.hw.die die).codec.jobs ≠ [] :=
⟨st fun h => h.onCodec 0 fun C => { C with jobs := [⟨1, .pcie 0 0, 9, 40, 0, 0x1000000, 16, 16, 4, 0, 1024, 2, 0, 0, 0⟩] }, 0, by decide +kernel⟩
theorem witness_CodecRowsComplete_6 : ∃ (s : State) (die : Nat) (j : CompJob) (js : List CompJob), die < s.hw.dies.length ∧
    (s.hw.die die).codec.running = true ∧ (s.hw.die die).codec.jobs = j :: js :=
⟨st fun h => h.onCodec 0 fun C => { C with jobs := [⟨1, .pcie 0 0, 9, 40, 0, 0x1000000, 16, 16, 4, 0, 1024, 2, 0, 0, 0⟩], running := true }, 0, ⟨1, .pcie 0 0, 9, 40, 0, 0x1000000, 16, 16, 4, 0, 1024, 2, 0, 0, 0⟩, [], by decide +kernel⟩
theorem witness_CodecRowsComplete_7 : ∃ (s : State) (die : Nat) (tokens : List Byte) (j : CompJob) (js : List CompJob) (n : Nat),
    die < s.hw.dies.length ∧ (s.hw.die die).codec.running = true ∧ (s.hw.die die).codec.jobs = j :: js ∧ n =
    min j.per (j.rows - j.block * j.per) ∧ (decodeTokens j.row n tokens.length (tokens.length + 1) tokens 0 0 0 [] 0).kind =
    kOK ∧ backsOk j.back tokens.length tokens = true ∧ ((decodeTokens j.row n tokens.length (tokens.length +
    1) tokens 0 0 0 [] 0).rev.reverse = (List.range n).flatMap fun i => s.begun.bytes s.mems die (j.addr + (j.block * j.per +
    i) * j.stride) j.row) :=
⟨st fun h => h.onCodec 0 fun C => { C with jobs := [⟨1, .pcie 0 0, 9, 40, 0, 0x1000000, 16, 16, 4, 0, 1024, 2, 0, 0, 0⟩], running := true }, 0, [0xA0, 0xA0], ⟨1, .pcie 0 0, 9, 40, 0, 0x1000000, 16, 16, 4, 0, 1024, 2, 0, 0, 0⟩, [], 2, by decide +kernel⟩
theorem witness_CodecRowsComplete_8 : ∃ (s : State) (h : Hdr) (queue : Nat) (tag : Nat) (j : CompJob),
    s.Admits h 0x0602 (opObj 0x0602 0) ∧ 40 ≤ queue ∧ queue ≤ 47 ∧ tag ≤ 65535 ∧
    ((s.hw.die h.die).codec.jobs.find? (fun j => j.src = srcOf h.origin ∧ j.tag = tag) = some j) :=
⟨st fun h => h.onCodec 0 fun C => { C with jobs := [⟨1, .pcie 0 0, 9, 40, 0, 0x1000000, 16, 16, 4, 0, 1024, 2, 0, 0, 0⟩], running := true }, q0, 47, 9, ⟨1, .pcie 0 0, 9, 40, 0, 0x1000000, 16, 16, 4, 0, 1024, 2, 0, 0, 0⟩, by unfold State.Admits; decide +kernel⟩

/-! IngestRowsComplete. -/

theorem witness_IngestRowsComplete_0 : ∃ (s : State) (h : Hdr) (ctx : Nat) (w : List Nat),
    s.Admits h 0x0702 (opObj 0x0702 ctx) ∧ 1 ≤ ctx ∧ ctx < 256 ∧ (s.atWork h).ctxState h.die ctx = ctxCLOSED ∧ w =
    (s.atWork h).ctxEntry s.mems h.die ctx ∧
    (((s.atWork h).onDie h.die fun D => { D with ctxCache := (ctx, w) :: D.ctxCache.filter fun x => x.1 ≠ ctx }).ctxEntryOk h.die (entryCtx ctx w) =
    true) :=
⟨st fun h => h.onDie 0 fun D => { D with ctxCache := [(255, [1, 1, 0xFFFFFFFF, 64, 0x1000000, 0, 32])] }, q0, 255, [1, 1, 0xFFFFFFFF, 64, 0x1000000, 0, 32], by unfold State.Admits; decide +kernel⟩
theorem witness_IngestRowsComplete_1 : ∃ (s : State) (h : Hdr) (ctx : Nat) (x0 : Int) (c : Ctx),
    s.Admits h 0x0702 (opObj 0x0702 ctx) ∧ 1 ≤ ctx ∧ ctx < 256 ∧ (s.atWork h).ctx? h.die ctx = some c ∧
    (s.atWork h).ctxState h.die ctx = ctxOPEN ∧ c.after = none ∧ (s.atWork h).portsTaken h.die ctx ctx = false ∧
    (s.atWork h).anyEstop = false ∧ (∀ p ∈ portsOf c.ports, ((s.atWork h).wrS h.die A.x0 ctx 64 x0).lposNow h.die * 2 ^ 32 +
    (s.hw.rd h.die A.fix_slots 0 * s.hw.rd h.die A.line_pitch 0 : Nat) ≤
    ((s.atWork h).wrS h.die A.x0 ctx 64 x0).target h.die c 0 p 0 (((s.atWork h).wrS h.die A.x0 ctx 64 x0).sNow h.die)) :=
⟨st fun h => (h.onDie 0 fun D => { D with ctxs := [ctx1] }).wr 0 A.ctx_state 1 1, q0, 1, 10 ^ 9, ctx1, by unfold State.Admits; decide +kernel⟩
theorem witness_IngestRowsComplete_2 : ∃ (s : State) (die : Nat) (l : Nat) (id : Nat) (c : Ctx) (o : Ctx), die <
    s.hw.dies.length ∧ (s.hw.die die).ctxs = [o, c] ∧ o.after = none ∧ o.num ≠ c.num ∧ c.after = some (o.num, id) ∧ o.last =
    some l :=
⟨st fun h => (h.onDie 0 fun D => { D with ctxs := [{ ctx1 with last := some 5 }, { ctx1 with num := 2, after := some (1, 9) }] }), 0, 5, 9, { ctx1 with num := 2, after := some (1, 9) }, { ctx1 with last := some 5 }, by decide +kernel⟩
theorem witness_IngestRowsComplete_3 : ∃ (s : State) (h : Hdr) (ctx : Nat) (after : Nat) (c : Ctx) (o : Ctx),
    s.Admits h 0x0702 (opObj 0x0702 ctx) ∧ 1 ≤ ctx ∧ ctx < 256 ∧ 1 ≤ after ∧ after < 256 ∧ ctx ≠ after ∧
    (s.atWork h).ctx? h.die ctx = some c ∧ (s.atWork h).ctx? h.die after = some o ∧ (s.atWork h).ctxState h.die ctx =
    ctxOPEN ∧ c.after = none ∧ (s.atWork h).ctxPrints h.die after = true ∧ (s.atWork h).ctxState h.die after = ctxPRINTING ∧
    (s.atWork h).portsTaken h.die ctx after = false ∧ (s.atWork h).anyEstop = false ∧ o.last.isSome :=
⟨st fun h => (((h.onDie 0 fun D => { D with ctxs := [{ ctx1 with last := some 5 }, { ctx1 with num := 255 }] }).wr 0 A.ctx_state 255 1).wr 0 A.ctx_state 1 2).wr 0 A.printing 1 1, q0, 255, 1, { ctx1 with num := 255 }, { ctx1 with last := some 5 }, by unfold State.Admits; decide +kernel⟩
theorem witness_IngestRowsComplete_4 : ∃ (s : State) (h : Hdr) (ctx : Nat) (after : Nat) (c : Ctx) (o : Ctx),
    s.Admits h 0x0702 (opObj 0x0702 ctx) ∧ 1 ≤ ctx ∧ ctx < 256 ∧ 1 ≤ after ∧ after < 256 ∧ ctx ≠ after ∧
    (s.atWork h).ctx? h.die ctx = some c ∧ (s.atWork h).ctx? h.die after = some o ∧ (s.atWork h).ctxState h.die ctx =
    ctxOPEN ∧ c.after = none ∧ (s.atWork h).ctxPrints h.die after = true ∧ (s.atWork h).ctxState h.die after = ctxPRINTING ∧
    (s.atWork h).portsTaken h.die ctx after = false ∧ (s.atWork h).anyEstop = false ∧ o.last = none :=
⟨st fun h => (((h.onDie 0 fun D => { D with ctxs := [ctx1, { ctx1 with num := 255 }] }).wr 0 A.ctx_state 255 1).wr 0 A.ctx_state 1 2).wr 0 A.printing 1 1, q0, 255, 1, { ctx1 with num := 255 }, ctx1, by unfold State.Admits; decide +kernel⟩
theorem witness_IngestRowsComplete_5 : ∃ (s : State) (h : Hdr) (ctx : Nat), s.Admits h 0x0702 (opObj 0x0702 ctx) ∧ 1 ≤ ctx ∧
    ctx < 256 ∧ ((s.atWork h).ctxState h.die ctx = ctxOPEN ∨ (s.atWork h).ctxState h.die ctx = ctxDONE ∨
    (s.atWork h).ctxState h.die ctx = ctxFAILED) ∧ (s.atWork h).ctxPrints h.die ctx = false :=
⟨st fun h => h.wr 0 A.ctx_state 255 5, q0, 255, by unfold State.Admits; decide +kernel⟩
theorem witness_IngestRowsComplete_6 : ∃ (s : State) (h : Hdr) (ctx : Nat) (c : Ctx), s.Admits h 0x0702 (opObj 0x0702 ctx) ∧
    1 ≤ ctx ∧ ctx < 256 ∧ (s.atWork h).ctx? h.die ctx = some c :=
⟨st fun h => printing h, q0, 1, ctx1, by unfold State.Admits; decide +kernel⟩
theorem witness_IngestRowsComplete_7 : ∃ (s : State) (h : Hdr) (first : Nat) (count : Nat),
    s.Admits h 0x0701 (opObj 0x0701 first) ∧ first < 256 ∧ 1 ≤ count ∧ first + count ≤ 256 ∧ (∀ c ∈ (s.hw.die h.die).ctxs,
    c.num < first ∨ first + count ≤ c.num) :=
⟨st fun h => printing h, q0, 2, 254, by unfold State.Admits; decide +kernel⟩
theorem witness_IngestRowsComplete_8 : ∃ (s : State) (die : Nat) (ctx : Nat) (c : Ctx), die < s.hw.dies.length ∧ ctx ≠ 0 ∧
    s.begun.ctx? die ctx = some c :=
⟨st fun h => printing h, 0, 1, ctx1, by decide +kernel⟩

/-! StreamRowsComplete. -/

theorem witness_StreamRowsComplete_0 : ∃ (s : State) (die : Nat) (eth : Nat) (stream : Nat) (sq : Nat) (ctx : Nat) (flags : Nat) (off : Nat) (data : List Byte),
    die < s.hw.dies.length ∧ stream < 16 ∧ (s.hw.rd die A.grt_port_en 0).testBit eth = true ∧ s.hw.rd die A.st_type (stream +
    1) = 1 ∧ ctx = s.hw.rd die A.st_context (stream + 1) ∧ ctx ≠ 0 ∧ data ≠ [] ∧ data.length ≤ 8192 ∧
    seqDiff sq (s.hw.rd die A.st_next_seq (stream + 1)) = 0 ∧ seqDiff sq (s.begun.credit die stream) < 0 ∧
    (s.hw.q die stream).enabled = true ∧ (grtWords sq flags off data).length ≤
    (s.hw.q die stream).size - (s.hw.q die stream).occupied :=
⟨st fun h => ((printing h).onQ 0 15 (fun _ => qOn)).wr 0 A.grt_port_en 0 1 |>.wr 0 A.st_type 16 1 |>.wr 0 A.st_context 16 1, 0, 0, 15, 0, 1, 0, 0, [1], by decide +kernel⟩
theorem witness_StreamRowsComplete_1 : ∃ (s : State) (die : Nat) (eth : Nat) (stream : Nat) (sq : Nat) (ctx : Nat) (data : List Byte),
    die < s.hw.dies.length ∧ stream < 16 ∧ (s.hw.rd die A.grt_port_en 0).testBit eth = true ∧ s.hw.rd die A.st_type (stream +
    1) = 1 ∧ ctx = s.hw.rd die A.st_context (stream + 1) ∧ ctx ≠ 0 ∧ data ≠ [] ∧ data.length ≤ 8192 ∧
    seqDiff sq (s.hw.rd die A.st_next_seq (stream + 1)) < 0 :=
⟨st fun h => ((((h.wr 0 A.grt_port_en 0 1).wr 0 A.st_type 16 1).wr 0 A.st_context 16 1).wr 0 A.st_credit 16 9).wr 0 A.st_next_seq 16 1, 0, 0, 15, 0, 1, List.replicate 8192 1, by decide +kernel⟩
theorem witness_StreamRowsComplete_2 : ∃ (s : State) (die : Nat) (eth : Nat) (stream : Nat) (ctx : Nat), die <
    s.hw.dies.length ∧ stream < 16 ∧ (s.hw.rd die A.grt_port_en 0).testBit eth = true ∧ s.hw.rd die A.st_type (stream + 1) =
    1 ∧ ctx = s.hw.rd die A.st_context (stream + 1) :=
⟨st fun h => ((((h.wr 0 A.grt_port_en 0 1).wr 0 A.st_type 16 1).wr 0 A.st_context 16 1).wr 0 A.st_credit 16 9), 0, 0, 15, 1, by decide +kernel⟩
theorem witness_StreamRowsComplete_3 : ∃ (s : State) (die : Nat) (stream : Nat), die < s.hw.dies.length ∧ stream < 16 ∧
    (s.hw.stream die stream).unacked ≠ 0 ∧ stream < (s.hw.die die).streams.length :=
⟨st fun h => h.onStream 0 15 fun S => { S with unacked := 1 }, 0, 15, by decide +kernel⟩
theorem witness_StreamRowsComplete_4 : ∃ (s : State) (die : Nat) (stream : Nat), die < s.hw.dies.length ∧ stream < 16 ∧
    stream < (s.hw.die die).streams.length :=
⟨st id, 0, 15, by decide +kernel⟩
theorem witness_StreamRowsComplete_5 : ∃ (s : State) (die : Nat) (stream : Nat) (stored : Nat) (data : List Byte), die <
    s.hw.dies.length ∧ stream < 16 ∧ stream < (s.hw.die die).streams.length ∧ s.hw.rd die A.st_type (stream + 1) = 2 ∧
    (s.hw.stream die stream).dmaHead ≠ (s.hw.stream die stream).dmaTail ∧ (s.hw.stream die stream).waiting = none ∧ 17 ≤
    stored ∧ stored ≤ 65552 ∧ data.length = stored :=
⟨st fun h => (h.wr 0 A.st_type 16 2).onStream 0 15 fun S => { S with dmaTail := 1 }, 0, 15, 17, List.replicate 17 0, by decide +kernel⟩
theorem witness_StreamRowsComplete_6 : ∃ (s : State) (die : Nat) (stream : Nat) (bs : List Byte), die < s.hw.dies.length ∧
    stream < 16 ∧ (s.hw.stream die stream).waiting = some bs :=
⟨st fun h => h.onStream 0 15 fun S => { S with waiting := some [1] }, 0, 15, [1], by decide +kernel⟩

/-! RunwayRowsComplete. -/

theorem witness_RunwayRowsComplete_0 : ∃ (s : State) (die : Nat), die < s.hw.dies.length ∧
    (s.hw.die die).stop.backupAt.isSome ∧ s.hw.rdS die A.backup_target 0 64 < (s.hw.pos die).newest.lpos :=
⟨st fun h => h.onDie 0 fun D => { D with stop := { D.stop with backupAt := some 0 }, pos := { D.pos with newest := { lpos := 5 } } }, 0, by decide +kernel⟩
theorem witness_RunwayRowsComplete_1 : ∃ (s : State) (die : Nat), die < s.hw.dies.length ∧ s.begun.mayRelease die = true :=
⟨st fun h => h.onDie 0 fun D => { D with stop := { active := true, standstill := true, backupDone := true }, pos := { D.pos with newest := { flags := 2 ^ fSTILL } } }, 0, by decide +kernel⟩
theorem witness_RunwayRowsComplete_2 : ∃ (s : State) (die : Nat) (c : Ctx) (z : Int), die < s.hw.dies.length ∧
    s.begun.printingCtxs die = [c] ∧ s.begun.stopTest die c = true ∧ s.begun.dataEnd die c = some z :=
⟨st fun h => { (printing h) with dies := (printing h).dies.map fun D => { D with stop := { D.stop with active := true } } }, 0, ctx1, 0, by decide +kernel⟩
theorem witness_RunwayRowsComplete_3 : ∃ (s : State) (h : Hdr) (ctx : Nat), s.Admits h 0x0702 (opObj 0x0702 ctx) ∧ 1 ≤ ctx ∧
    ctx < 256 ∧ (s.atWork h).printing h.die = true ∧ (s.hw.die h.die).stop.active = false :=
⟨st fun h => printing h, q0, 1, by unfold State.Admits; decide +kernel⟩
theorem witness_RunwayRowsComplete_4 : ∃ (s : State) (h : Hdr), s.Admits h 0x0703 (opObj 0x0703 0) :=
⟨st id, q0, by unfold State.Admits; decide +kernel⟩

/-! CameraRowsComplete. -/

theorem witness_CameraRowsComplete_0 : ∃ (s : State) (die : Nat) (cam : Nat), die < s.hw.dies.length ∧ cam < 2 ∧ cam <
    (s.hw.die die).cams.length ∧ s.hw.rd die A.cam_state cam = camRUN ∧ (s.hw.cam die cam).first = false ∧
    (s.hw.cam die cam).open_ = none :=
⟨st fun h => (h.wr 0 A.cam_state 1 2), 0, 1, by decide +kernel⟩
theorem witness_CameraRowsComplete_1 : ∃ (s : State) (die : Nat) (cam : Nat) (f : Frame), die < s.hw.dies.length ∧ cam < 2 ∧
    cam < (s.hw.die die).cams.length ∧ s.hw.rd die A.cam_state cam = camRUN ∧ (s.hw.cam die cam).first = false ∧
    (s.hw.cam die cam).open_ = some f :=
⟨st fun h => (h.wr 0 A.cam_state 1 2).onCam 0 1 fun C => { C with open_ := some { cam := 1, num := 7, sensor := 0, flags := 0, band := 0, gen := 0, pset := 0, exposure := 0, pair := {}, isp := 0, stream := 0, w := 2, h := 4, black := [], gain := [], regs := [], blks := [], slot := some 3 } }, 0, 1, { cam := 1, num := 7, sensor := 0, flags := 0, band := 0, gen := 0, pset := 0, exposure := 0, pair := {}, isp := 0, stream := 0, w := 2, h := 4, black := [], gain := [], regs := [], blks := [], slot := some 3 }, by decide +kernel⟩
theorem witness_CameraRowsComplete_2 : ∃ (s : State) (die : Nat) (cam : Nat) (f : Frame), die < s.hw.dies.length ∧ cam < 2 ∧
    cam < (s.hw.die die).cams.length ∧ (s.hw.cam die cam).open_ = some f :=
⟨st fun h => h.onCam 0 1 fun C => { C with open_ := some { cam := 1, num := 7, sensor := 0, flags := 0, band := 0, gen := 0, pset := 0, exposure := 0, pair := {}, isp := 0, stream := 0, w := 2, h := 4, black := [], gain := [], regs := [], blks := [], slot := some 3 } }, 0, 1, { cam := 1, num := 7, sensor := 0, flags := 0, band := 0, gen := 0, pset := 0, exposure := 0, pair := {}, isp := 0, stream := 0, w := 2, h := 4, black := [], gain := [], regs := [], blks := [], slot := some 3 }, by decide +kernel⟩
theorem witness_CameraRowsComplete_3 : ∃ (s : State) (die : Nat) (cam : Nat) (vc : Nat) (dt : Nat) (f : Frame), die <
    s.hw.dies.length ∧ cam < 2 ∧ cam < (s.hw.die die).cams.length ∧ s.hw.rd die A.cam_state cam = camRUN ∧
    (s.hw.cam die cam).first = false ∧ vc = s.hw.rd die A.vc cam ∧ dt = s.hw.rd die A.data_type cam ∧
    (s.hw.cam die cam).open_ = some f ∧ f.lines < f.h :=
⟨st fun h => (h.wr 0 A.cam_state 1 2).onCam 0 1 fun C => { C with open_ := some { cam := 1, num := 7, sensor := 0, flags := 0, band := 0, gen := 0, pset := 0, exposure := 0, pair := {}, isp := 0, stream := 0, w := 2, h := 4, black := [], gain := [], regs := [], blks := [], slot := some 3 } }, 0, 1, 0, 0x2C, { cam := 1, num := 7, sensor := 0, flags := 0, band := 0, gen := 0, pset := 0, exposure := 0, pair := {}, isp := 0, stream := 0, w := 2, h := 4, black := [], gain := [], regs := [], blks := [], slot := some 3 }, by decide +kernel⟩
theorem witness_CameraRowsComplete_4 : ∃ (s : State) (die : Nat) (cam : Nat) (vc : Nat) (dt : Nat) (i : Nat) (f : Frame),
    die < s.hw.dies.length ∧ cam < 2 ∧ cam < (s.hw.die die).cams.length ∧ s.hw.rd die A.cam_state cam = camRUN ∧
    (s.hw.cam die cam).first = false ∧ vc = s.hw.rd die A.vc cam ∧ dt = s.hw.rd die A.data_type cam ∧
    (s.hw.cam die cam).open_ = some f ∧ f.lines < f.h ∧ f.slot = some i :=
⟨st fun h => (h.wr 0 A.cam_state 1 2).onCam 0 1 fun C => { C with open_ := some { cam := 1, num := 7, sensor := 0, flags := 0, band := 0, gen := 0, pset := 0, exposure := 0, pair := {}, isp := 0, stream := 0, w := 2, h := 4, black := [], gain := [], regs := [], blks := [], slot := some 3 } }, 0, 1, 0, 0x2C, 3, { cam := 1, num := 7, sensor := 0, flags := 0, band := 0, gen := 0, pset := 0, exposure := 0, pair := {}, isp := 0, stream := 0, w := 2, h := 4, black := [], gain := [], regs := [], blks := [], slot := some 3 }, by decide +kernel⟩
theorem witness_CameraRowsComplete_5 : ∃ (s : State) (die : Nat) (cam : Nat) (ecc : Nat), die < s.hw.dies.length ∧ cam < 2 ∧
    s.hw.rd die A.cam_state cam = camRUN ∧ (s.hw.cam die cam).first = false ∧ 2 ≤ ecc :=
⟨st fun h => (h.wr 0 A.cam_state 1 2).onCam 0 1 fun C => { C with open_ := some { cam := 1, num := 7, sensor := 0, flags := 0, band := 0, gen := 0, pset := 0, exposure := 0, pair := {}, isp := 0, stream := 0, w := 2, h := 4, black := [], gain := [], regs := [], blks := [], slot := some 3 } }, 0, 1, 2, by decide +kernel⟩
theorem witness_CameraRowsComplete_6 : ∃ (s : State) (die : Nat) (cam : Nat) (set : Nat), die < s.hw.dies.length ∧ cam < 2 ∧
    cam < (s.hw.die die).cams.length ∧ (s.hw.cam die cam).writing = some set :=
⟨st fun h => h.onCam 0 1 fun C => { C with writing := some 15 }, 0, 1, 15, by decide +kernel⟩
theorem witness_CameraRowsComplete_7 : ∃ (s : State) (die : Nat) (p : Nat) (e : Nat) (f : Frame), die < s.hw.dies.length ∧
    s.begun.mpWaiting die = [(p, e, f)] ∧ (((s.hw.die die).ispRun.any fun g => decide (s.hw.rd die A.mp_priority g.stream ≤
    p)) = false) :=
⟨st fun h => h.onCam 0 1 fun C => { C with closed := [{ cam := 1, num := 7, sensor := 0, flags := 0, band := 0, gen := 0, pset := 0, exposure := 0, pair := {}, isp := 0, stream := 1, w := 2, h := 4, black := [], gain := [], regs := [], blks := [], slot := some 3 }] }, 0, live.rd 0 A.mp_priority 1, 0, { cam := 1, num := 7, sensor := 0, flags := 0, band := 0, gen := 0, pset := 0, exposure := 0, pair := {}, isp := 0, stream := 1, w := 2, h := 4, black := [], gain := [], regs := [], blks := [], slot := some 3 }, by decide +kernel⟩
theorem witness_CameraRowsComplete_8 : ∃ (s : State) (die : Nat) (stream : Nat) (f : Frame), die < s.hw.dies.length ∧ stream <
    9 ∧ stream ≠ 0 ∧ ((s.hw.die die).ispRun.find? (fun f => f.stream = stream) = some f) :=
⟨st fun h => h.onDie 0 fun D => { D with ispRun := [{ ({ cam := 1, num := 7, sensor := 0, flags := 0, band := 0, gen := 0, pset := 0, exposure := 0, pair := {}, isp := 0, stream := 0, w := 2, h := 4, black := [], gain := [], regs := [], blks := [], slot := some 3 } : Frame) with stream := 8 }] }, 0, 8, { ({ cam := 1, num := 7, sensor := 0, flags := 0, band := 0, gen := 0, pset := 0, exposure := 0, pair := {}, isp := 0, stream := 0, w := 2, h := 4, black := [], gain := [], regs := [], blks := [], slot := some 3 } : Frame) with stream := 8 }, by decide +kernel⟩

/-! CameraCommandsComplete. -/

theorem witness_CameraCommandsComplete_0 : ∃ (s : State) (h : Hdr) (port : Nat), s.Admits h 0x0801 (opObj 0x0801 port) ∧
    port < 2 ∧ s.hw.rd h.die A.cam_state port = camOFF :=
⟨st id, q0, 1, by unfold State.Admits; decide +kernel⟩
theorem witness_CameraCommandsComplete_1 : ∃ (s : State) (h : Hdr) (port : Nat) (stm : Nat) (isp : Nat),
    s.Admits h 0x0801 (opObj 0x0801 port) ∧ port < 2 ∧ s.hw.rd h.die A.cam_state port = camREADY ∧ isp =
    s.hw.rd h.die A.isp_die port ∧ isp < s.hw.dies.length ∧ (if s.hw.rd h.die A.tap port = 3 then 8 else 2) *
    (s.hw.rd h.die A.width port * s.hw.rd h.die A.height port) ≤ s.hw.rd h.die A.fs_slot_bytes port ∧
    (s.atWork h).streamFor h.die port isp = some stm ∧ (stm = 0 ∨ s.hw.rd h.die A.fs_slots port ≠ 0) ∧
    (s.atWork h).camQueueOk isp (s.hw.rd isp A.stats_queue stm) = true ∧
    (s.atWork h).camQueueOk isp (s.hw.rd h.die A.desc_queue port) = true :=
⟨st fun h => ((((h.wr 0 A.cam_state 1 1).wr 0 A.isp_die 1 0).wr 0 A.width 1 16).wr 0 A.height 1 16).wr 0 A.fs_slot_bytes 1 2048 |>.wr 0 A.fs_slots 1 1 |>.wr 0 A.stats_queue 1 56 |>.wr 0 A.desc_queue 1 57 |>.onQ 0 56 (fun _ => { qOn with w1 := 0x109 }) |>.onQ 0 57 (fun _ => { qOn with w1 := 0x109 }), q0, 1, 1, 0, by unfold State.Admits; decide +kernel⟩
theorem witness_CameraCommandsComplete_2 : ∃ (s : State) (h : Hdr) (port : Nat), s.Admits h 0x0801 (opObj 0x0801 port) ∧
    port < 2 ∧ s.hw.rd h.die A.cam_state port = camRUN :=
⟨st fun h => (h.wr 0 A.cam_state 1 2), q0, 1, by unfold State.Admits; decide +kernel⟩
theorem witness_CameraCommandsComplete_3 : ∃ (s : State) (h : Hdr) (port : Nat), s.Admits h 0x0801 (opObj 0x0801 port) ∧
    port < 2 ∧ s.hw.rd h.die A.cam_state port = camREADY :=
⟨st fun h => h.wr 0 A.cam_state 1 1, q0, 1, by unfold State.Admits; decide +kernel⟩
theorem witness_CameraCommandsComplete_4 : ∃ (s : State) (h : Hdr) (port : Nat), s.Admits h 0x0801 (opObj 0x0801 port) ∧
    port < 2 ∧ s.hw.rd h.die A.cam_state port = camRUN ∧ port < (s.hw.die h.die).cams.length :=
⟨st fun h => (h.wr 0 A.cam_state 1 2), q0, 1, by unfold State.Admits; decide +kernel⟩
theorem witness_CameraCommandsComplete_5 : ∃ (s : State) (h : Hdr) (port : Nat) (i : Nat),
    s.Admits h 0x0801 (opObj 0x0801 port) ∧ port < 2 ∧ i < 64 ∧ s.hw.slotOf h.die port i = slHELD :=
⟨st fun h => h.wr 0 A.slot_state 1 (3 * 4 ^ 63), q0, 1, 63, by unfold State.Admits; decide +kernel⟩
theorem witness_CameraCommandsComplete_6 : ∃ (s : State) (h : Hdr) (port : Nat) (slots : Nat),
    s.Admits h 0x0801 (opObj 0x0801 port) ∧ port < 2 ∧ (∀ i < 64, slots.testBit i = true → s.hw.slotOf h.die port i = slHELD) :=
⟨st fun h => h.wr 0 A.slot_state 1 (3 * 4 ^ 63), q0, 1, 2 ^ 63, by unfold State.Admits; decide +kernel⟩
theorem witness_CameraCommandsComplete_7 : ∃ (s : State) (h : Hdr) (port : Nat) (set : Nat),
    s.Admits h 0x0802 (opObj 0x0802 port) ∧ port < 2 ∧ set < 16 ∧ s.hw.rd h.die A.cam_state port = camRUN ∧
    (s.hw.cam h.die port).applies = [] :=
⟨st fun h => (h.wr 0 A.cam_state 1 2), q0, 1, 15, by unfold State.Admits; decide +kernel⟩
theorem witness_CameraCommandsComplete_8 : ∃ (s : State) (h : Hdr) (read : Bool) (port : Nat) (addr : Nat) (len : Nat) (data : List Byte),
    s.Admits h 0x0803 (opObj 0x0803 port) ∧ port < 2 ∧ 1 ≤ len ∧ len ≤ 32 ∧ addr < 128 ∧ (read = true ∨ len ≤ data.length) ∧
    s.hw.rd h.die A.cam_state port = camREADY ∧ (s.hw.cam h.die port).i2c = none ∧ port < (s.hw.die h.die).cams.length :=
⟨st fun h => h.wr 0 A.cam_state 1 1, q0, true, 1, 127, 32, [], by unfold State.Admits; decide +kernel⟩
theorem witness_CameraCommandsComplete_9 : ∃ (s : State) (die : Nat) (cam : Nat) (len : Nat) (tag : Nat) (o : Origin), die <
    s.hw.dies.length ∧ cam < 2 ∧ cam < (s.hw.die die).cams.length ∧ (s.hw.cam die cam).i2c = some ((o, tag), true, len) :=
⟨st fun h => h.onCam 0 1 fun C => { C with i2c := some ((.slot 0 0 0, 7), true, 2) }, 0, 1, 2, 7, .slot 0 0 0, by decide +kernel⟩

/-! LampRowsComplete. -/

theorem witness_LampRowsComplete_0 : ∃ (s : State) (die : Nat) (chain : Nat), die < s.hw.dies.length ∧ chain < 4 ∧
    (s.hw.rd die A.chain_state chain = chRUN ∨ s.hw.rd die A.chain_state chain = chLOST) :=
⟨st fun h => (h.wr 0 A.chain_state 3 chRUN), 0, 3, by decide +kernel⟩
theorem witness_LampRowsComplete_1 : ∃ (s : State) (die : Nat) (chain : Nat) (f : ChainFrame), die < s.hw.dies.length ∧
    chain < 4 ∧ (s.hw.chain die chain).enum = none ∧ (s.hw.chain die chain).cur = some f ∧ (s.hw.chain die chain).waiting =
    true ∧ s.hw.rd die A.chain_state chain ≠ chOFF :=
⟨st fun h => (h.wr 0 A.chain_state 3 chRUN).onChain 0 3 fun C => { C with cur := some { levels := [[1, 2, 3, 4]], masks := [0] }, waiting := true }, 0, 3, { levels := [[1, 2, 3, 4]], masks := [0] }, by decide +kernel⟩
theorem witness_LampRowsComplete_2 : ∃ (s : State) (die : Nat) (chain : Nat) (got : List Bool) (f : ChainFrame), die <
    s.hw.dies.length ∧ chain < 4 ∧ chain < (s.hw.die die).chains.length ∧ (s.hw.chain die chain).enum = none ∧
    (s.hw.chain die chain).cur = some f ∧ (s.hw.chain die chain).waiting = true ∧ s.hw.rd die A.chain_state chain ≠ chOFF ∧
    got.length = 16 * f.levels.length ∧ (∀ w ∈ returnWords 16 got, statusOk w = true) :=
⟨st fun h => (h.wr 0 A.chain_state 3 chRUN).onChain 0 3 fun C => { C with cur := some { levels := [[1, 2, 3, 4]], masks := [0] }, waiting := true }, 0, 3, List.replicate 16 false, { levels := [[1, 2, 3, 4]], masks := [0] }, by decide +kernel⟩
theorem witness_LampRowsComplete_3 : ∃ (s : State) (die : Nat) (chain : Nat) (id : Nat) (old : Nat) (got : List Bool), die <
    s.hw.dies.length ∧ chain < 4 ∧ chain < (s.hw.die die).chains.length ∧ (s.hw.chain die chain).enum = some (id, true, old) ∧
    enumCount (s.hw.rd die A.chain_max chain) got = none :=
⟨st fun h => h.onChain 0 3 fun C => { C with enum := some (9, true, 0) }, 0, 3, 9, 0, [], by decide +kernel⟩
theorem witness_LampRowsComplete_4 : ∃ (s : State) (die : Nat) (chain : Nat) (id : Nat) (old : Nat) (n : Nat) (types : List Nat) (got : List Bool),
    die < s.hw.dies.length ∧ chain < 4 ∧ chain < (s.hw.die die).chains.length ∧ (s.hw.chain die chain).enum = some (id, true,
    old) ∧ enumCount (s.hw.rd die A.chain_max chain) got = some (n, types) ∧
    refreshLow n (s.hw.rd die A.refresh_us chain) (s.hw.rd die A.ret_slack_us chain) (s.hw.rd die A.chain_mbps chain) = false :=
⟨st fun h => (h.wr 0 A.chain_max 3 2).onChain 0 3 fun C => { C with enum := some (9, true, 0) }, 0, 3, 9, 0, 1, [0], bitsMsb 48 (share 3 0 []) ++ bitsMsb 16 0x100F, by decide +kernel⟩
theorem witness_LampRowsComplete_5 : ∃ (s : State) (die : Nat) (chain : Nat) (e : Nat) (l : Lamp), die < s.hw.dies.length ∧
    chain < 4 ∧ s.hw.rd die A.chain_state chain ≠ chOFF ∧ (s.hw.die die).lamps = [(e, l)] ∧ e / 2048 = chain ∧ s.hw.stores =
    [] :=
⟨st fun h => (h.wr 0 A.chain_state 3 chRUN).onDie 0 fun D => { D with lamps := [(8191, { w0 := 0, w1 := 0 })] }, 0, 3, 8191, { w0 := 0, w1 := 0 }, by decide +kernel⟩

/-! LampCommandsComplete. -/

theorem witness_LampCommandsComplete_0 : ∃ (s : State) (h : Hdr) (chains : Nat),
    s.Admits h 0x0902 (opObj 0x0902 (lowBit chains)) ∧ chains ≠ 0 ∧ chains < 16 ∧ (∀ c ∈ chainsOf chains,
    s.hw.rd h.die A.chain_state c = chOFF) :=
⟨st id, q0, 15, by unfold State.Admits; decide +kernel⟩
theorem witness_LampCommandsComplete_1 : ∃ (s : State) (h : Hdr) (chains : Nat),
    s.Admits h 0x0902 (opObj 0x0902 (lowBit chains)) ∧ chains ≠ 0 ∧ chains < 16 ∧ (∀ c ∈ chainsOf chains,
    s.hw.rd h.die A.chain_state c = chRUN ∨ s.hw.rd h.die A.chain_state c = chLOST) :=
⟨st fun h => h.wr 0 A.chain_state 3 chLOST, q0, 8, by unfold State.Admits; decide +kernel⟩
theorem witness_LampCommandsComplete_2 : ∃ (s : State) (h : Hdr) (chains : Nat),
    s.Admits h 0x0902 (opObj 0x0902 (lowBit chains)) ∧ chains ≠ 0 ∧ chains < 16 ∧ (∀ c ∈ chainsOf chains,
    s.hw.rd h.die A.chain_state c ≠ chOFF) :=
⟨st fun h => h.wr 0 A.chain_state 3 chLOST, q0, 8, by unfold State.Admits; decide +kernel⟩
theorem witness_LampCommandsComplete_3 : ∃ (s : State) (h : Hdr) (first : Nat) (count : Nat),
    s.Admits h 0x0901 (opObj 0x0901 first) ∧ first < 8192 ∧ 1 ≤ count ∧ first + count ≤ 8192 ∧
    (s.hw.die h.die).chains.length = 4 :=
⟨st id, q0, 0, 8192, by unfold State.Admits; decide +kernel⟩
theorem witness_LampCommandsComplete_4 : ∃ (s : State) (h : Hdr) (chain : Nat) (first : Nat) (count : Nat),
    s.Admits h 0x0903 (opObj 0x0903 chain) ∧ chain < 4 ∧ (s.hw.rd h.die A.chain_state chain = chRUN ∨
    s.hw.rd h.die A.chain_state chain = chLOST) ∧ 1 ≤ count ∧ first + count ≤ s.hw.rd h.die A.chain_drivers chain ∧ chain <
    (s.hw.die h.die).chains.length :=
⟨st fun h => (h.wr 0 A.chain_state 3 chRUN).wr 0 A.chain_drivers 3 512, q0, 3, 511, 1, by unfold State.Admits; decide +kernel⟩
theorem witness_LampCommandsComplete_5 : ∃ (s : State) (h : Hdr) (chain : Nat) (first : Nat) (count : Nat),
    s.Admits h 0x0903 (opObj 0x0903 chain) ∧ chain < 4 ∧ (s.hw.rd h.die A.chain_state chain = chRUN ∨
    s.hw.rd h.die A.chain_state chain = chLOST) ∧ 1 ≤ count ∧ first + count ≤ s.hw.rd h.die A.chain_drivers chain ∧ chain <
    (s.hw.die h.die).chains.length :=
⟨st fun h => (h.wr 0 A.chain_state 3 chRUN).wr 0 A.chain_drivers 3 512, q0, 3, 0, 512, by unfold State.Admits; decide +kernel⟩

/-! MatrixRowsComplete. -/

theorem witness_MatrixRowsComplete_0 : ∃ (s : State) (die : Nat), die < s.hw.dies.length ∧ s.hw.rd die A.mx_state 0 = 1 ∧
    (s.hw.die die).mx.step = none :=
⟨st fun h => h.wr 0 A.mx_state 0 1, 0, by decide +kernel⟩
theorem witness_MatrixRowsComplete_1 : ∃ (s : State) (h : Hdr), s.Admits h 0x0904 (opObj 0x0904 0) ∧
    (s.hw.die h.die).mx.step = none ∧ s.hw.rd h.die A.mx_state 0 = 0 :=
⟨st id, q0, by unfold State.Admits; decide +kernel⟩
theorem witness_MatrixRowsComplete_2 : ∃ (s : State) (h : Hdr), s.Admits h 0x0904 (opObj 0x0904 0) ∧
    (s.hw.die h.die).mx.step = none ∧ s.hw.rd h.die A.mx_state 0 ≠ 0 :=
⟨st fun h => h.wr 0 A.mx_state 0 2, q0, by unfold State.Admits; decide +kernel⟩
theorem witness_MatrixRowsComplete_3 : ∃ (s : State) (h : Hdr) (p : MxStep), s.Admits h 0x0904 (opObj 0x0904 0) ∧
    (s.hw.die h.die).mx.step = some p ∧ ((s.atWork h).mxSettle h.die).rd h.die A.mx_state 0 ≠ 0 ∧
    (((s.atWork h).mxSettle h.die).die h.die).mx.step = some p :=
⟨st fun h => (h.wr 0 A.mx_state 0 1).onMx 0 fun M => { M with step := some { row := 3, start := h.clk, on := [] } }, q0, { row := 3, start := Hw.reset.clk, on := [] }, by unfold State.Admits; decide +kernel⟩
theorem witness_MatrixRowsComplete_4 : ∃ (s : State) (die : Nat) (out : Nat), die < s.hw.dies.length ∧ out < 8 ∧
    s.hw.poDue die out = true :=
⟨st fun h => (h.wr 0 A.po_mode 7 1).wr 0 A.po_state 7 1, 0, 7, by decide +kernel⟩

/-! ColourHoldRowsComplete. -/

theorem witness_ColourHoldRowsComplete_0 : ∃ (s : State) (p : ChPage) (rest : List ChPage), s.hw.pkg.ch.exposed = p :: rest :=
⟨st fun h => h.onCh fun C => { C with exposed := [⟨0, 8000, 5, true⟩] }, ⟨0, 8000, 5, true⟩, [], by decide +kernel⟩
theorem witness_ColourHoldRowsComplete_1 : ∃ (s : State) (h : Hdr) (ctx : Nat) (bars : Nat),
    s.Admits h 0x0A01 (opObj 0x0A01 0) ∧ 1 ≤ ctx ∧ ctx < 256 ∧ bars < 2 ^ s.hw.n ∧ (∀ b ∈ barsOf bars,
    s.hw.rd 0 A.bar_state (b + 1) = 0 ∧ (s.atWork h).ctxPrints b ctx = true ∧
    (((s.atWork h).ctx? b ctx).map (·.page)).getD 0 ≠ 0) ∧ (s.atWork h).cameraCalOk = true ∧
    (s.atWork h).chCams.all ((s.atWork h).cameraReads ·) = true :=
⟨st fun h => (printing h).wr 0 A.cal_state 4 1, q0, 1, 1, by unfold State.Admits; decide +kernel⟩
theorem witness_ColourHoldRowsComplete_2 : ∃ (s : State) (h : Hdr) (bars : Nat), s.Admits h 0x0A01 (opObj 0x0A01 0) ∧ bars <
    2 ^ s.hw.n :=
⟨st id, q0, 255, by unfold State.Admits; decide +kernel⟩
theorem witness_ColourHoldRowsComplete_3 : ∃ (s : State) (h : Hdr) (bars : Nat), s.Admits h 0x0A01 (opObj 0x0A01 0) ∧ bars <
    2 ^ s.hw.n ∧ (∀ b ∈ barsOf bars, s.hw.rd 0 A.bar_state (b + 1) = 2) :=
⟨st fun h => h.wr 0 A.bar_state 8 2, q0, 128, by unfold State.Admits; decide +kernel⟩
theorem witness_ColourHoldRowsComplete_4 : ∃ (s : State) (h : Hdr) (bars : Nat), s.Admits h 0x0A01 (opObj 0x0A01 0) ∧ bars <
    2 ^ s.hw.n ∧ s.hw.pkg.ch.bars.length = 8 ∧ (∀ b ∈ barsOf bars, s.hw.rd 0 A.bar_state (b + 1) = 3 ∧ (s.hw.chBar b).frozen =
    true) :=
⟨st fun h => (h.wr 0 A.bar_state 8 3).onBar 7 fun B => { B with frozen := true }, q0, 128, by unfold State.Admits; decide +kernel⟩
theorem witness_ColourHoldRowsComplete_5 : ∃ (s : State) (h : Hdr) (bars : Nat), s.Admits h 0x0A01 (opObj 0x0A01 0) ∧ bars <
    2 ^ s.hw.n ∧ s.hw.rd 0 A.ref_mode 0 = 0 ∧ (∀ b ∈ barsOf bars, s.hw.rd 0 A.bar_state (b + 1) = 2 ∨
    s.hw.rd 0 A.bar_state (b + 1) = 3) :=
⟨st fun h => h.wr 0 A.bar_state 8 3, q0, 128, by unfold State.Admits; decide +kernel⟩
theorem witness_ColourHoldRowsComplete_6 : ∃ (s : State) (h : Hdr) (bar : Nat), s.Admits h 0x0A02 (opObj 0x0A02 0) ∧ bar <
    s.hw.n :=
⟨st id, q0, 7, by unfold State.Admits; decide +kernel⟩

/-! TimeBaseRowsComplete. -/

theorem witness_TimeBaseRowsComplete_0 : ∃ (s : State) (die : Nat) (c : TbChange) (cs : List TbChange) (r : Int), die <
    s.hw.dies.length ∧ (s.hw.die die).tbChanges = c :: cs ∧ c.rate = some r :=
⟨st fun h => h.onDie 7 fun D => { D with tbChanges := [⟨2, 5, none, some (-4)⟩] }, 7, ⟨2, 5, none, some (-4)⟩, [], -4, by decide +kernel⟩
theorem witness_TimeBaseRowsComplete_1 : ∃ (s : State) (die : Nat) (c : TbChange) (cs : List TbChange) (off : Int), die <
    s.hw.dies.length ∧ (s.hw.die die).tbChanges = c :: cs ∧ c.step = some off ∧ die = s.hw.leadDie :=
⟨st fun h => h.onDie 0 fun D => { D with tbChanges := [⟨2, 5, some 9, none⟩] }, 0, ⟨2, 5, some 9, none⟩, [], 9, by decide +kernel⟩
theorem witness_TimeBaseRowsComplete_2 : ∃ (s : State) (die : Nat) (tb : Nat), die < s.hw.dies.length ∧ tb < 4 ∧ die ≠
    s.hw.leadDie ∧ tb < (s.hw.die die).tbs.length :=
⟨st id, 7, 3, by decide +kernel⟩
theorem witness_TimeBaseRowsComplete_3 : ∃ (s : State) (h : Hdr) (mode : Nat) (out : Nat) (period : Nat),
    s.Admits h 0x0B03 (opObj 0x0B03 out) ∧ mode ≤ 3 ∧ out < 8 ∧ (mode = 2 → (s.hw.rd h.die A.po_width_ns out + 10) * 2 ^ 16 ≤
    period) ∧ s.hw.rd h.die A.po_state out = 0 :=
⟨st id, q0, 3, 7, 2 ^ 64, by unfold State.Admits; decide +kernel⟩
theorem witness_TimeBaseRowsComplete_4 : ∃ (s : State) (die : Nat) (input : Nat) (rising : Bool), die < s.hw.dies.length ∧
    input < 4 ∧ (s.hw.rd die A.cap_edge (8 + input) = 3 ∨ s.hw.rd die A.cap_edge (8 + input) = if rising then 1 else 2) :=
⟨st fun h => h.wr 0 A.cap_edge 11 2, 0, 3, false, by decide +kernel⟩
theorem witness_TimeBaseRowsComplete_5 : ∃ (s : State) (h : Hdr), s.Admits h 0x0B01 (opObj 0x0B01 0) :=
⟨st id, q0, by unfold State.Admits; decide +kernel⟩
theorem witness_TimeBaseRowsComplete_6 : ∃ (s : State) (h : Hdr) (tb : Nat), s.Admits h 0x0B02 (opObj 0x0B02 tb) ∧ (tb = 0 ∨
    tb = 2 ∨ tb = 3) ∧ s.hw.rd 0 A.step_arm tb ≠ 0 :=
⟨st fun h => h.wr 0 A.step_arm 3 1, q0, 3, by unfold State.Admits; decide +kernel⟩

/-! ServoRowsComplete. -/

theorem witness_ServoRowsComplete_0 : ∃ (s : State) (tb : Nat), s.hw.leadDie < s.hw.dies.length ∧ tb < 4 ∧ s.hw.lead ≠ none ∧
    tb ≠ 1 ∧ s.hw.rd 0 A.tb_source tb ≠ 1 ∧ tb < s.hw.pkg.servos.length ∧ (s.hw.servo tb).st = .acquire :=
⟨st fun h => (h.wr 0 A.tb_source 3 2).onServo 3 fun S => { S with st := .acquire }, 3, by decide +kernel⟩
theorem witness_ServoRowsComplete_1 : ∃ (s : State) (tb : Nat) (theta : Int), s.hw.leadDie < s.hw.dies.length ∧ tb < 4 ∧
    s.hw.lead ≠ none ∧ tb ≠ 1 ∧ s.hw.rd 0 A.tb_source tb ≠ 1 ∧ ((s.hw.servo tb).st = .track ∨ (s.hw.servo tb).st = .locked) ∧
    (s.hw.rd 0 A.outlier_ns tb * 1000 : Int) < theta.natAbs :=
⟨st fun h => ((h.wr 0 A.tb_source 3 2).wr 0 A.outlier_ns 3 1).onServo 3 fun S => { S with st := .locked }, 3, 1001, by decide +kernel⟩
theorem witness_ServoRowsComplete_2 : ∃ (s : State) (tb : Nat), s.hw.leadDie < s.hw.dies.length ∧ tb < 4 ∧
    (s.hw.servo tb).st = .slew ∧ s.hw.lead.isSome :=
⟨st fun h => h.onServo 3 fun S => { S with st := .slew }, 3, by decide +kernel⟩
theorem witness_ServoRowsComplete_3 : ∃ (s : State) (tb : Nat), s.hw.leadDie < s.hw.dies.length ∧ tb < 4 ∧
    ((s.hw.servo tb).st = .track ∨ (s.hw.servo tb).st = .locked) :=
⟨st fun h => h.onServo 3 fun S => { S with st := .locked }, 3, by decide +kernel⟩

/-! PtpRowsComplete. -/

theorem witness_PtpRowsComplete_0 : ∃ (s : State) (die : Nat) (port : Nat) (msg : PtpMsg), die < s.hw.dies.length ∧ port < 2 ∧
    s.hw.rd die A.ptp_enable port ≠ 0 ∧ msg ≠ .other ∧ (∀ a b, msg ≠ .requestSent a b) :=
⟨st fun h => h.wr 0 A.ptp_enable 1 1, 0, 1, .pdelayReq 1 2 0, by refine ⟨by decide, by decide, by decide +kernel, by decide, nofun⟩⟩
theorem witness_PtpRowsComplete_1 : ∃ (s : State) (die : Nat) (port : Nat), die < s.hw.dies.length ∧ port < 2 ∧
    s.hw.rd die A.ptp_enable port ≠ 0 :=
⟨st fun h => h.wr 0 A.ptp_enable 1 1, 0, 1, by decide +kernel⟩
theorem witness_PtpRowsComplete_2 : ∃ (s : State) (die : Nat) (port : Nat), die < s.hw.dies.length ∧ port < 2 ∧
    s.hw.rd die A.ptp_enable port ≠ 0 ∧ port < (s.hw.die die).ptp.length :=
⟨st fun h => h.wr 0 A.ptp_enable 1 1, 0, 1, by decide +kernel⟩
theorem witness_PtpRowsComplete_3 : ∃ (s : State) (die : Nat) (port : Nat), die < s.hw.dies.length ∧ port < 2 ∧
    s.hw.rd die A.ptp_enable port ≠ 0 ∧ s.hw.rd die A.port_state port = 9 :=
⟨st fun h => (h.wr 0 A.ptp_enable 1 1).wr 0 A.port_state 1 9, 0, 1, by decide +kernel⟩
theorem witness_PtpRowsComplete_4 : ∃ (s : State) (die : Nat) (port : Nat), die < s.hw.dies.length ∧ port < 2 ∧
    s.hw.rd die A.ptp_enable port ≠ 0 ∧ s.hw.rd die A.port_state port = 6 :=
⟨st fun h => (h.wr 0 A.ptp_enable 1 1).wr 0 A.port_state 1 6, 0, 1, by decide +kernel⟩
theorem witness_PtpRowsComplete_5 : ∃ (s : State) (die : Nat) (port : Nat), die < s.hw.dies.length ∧ port < 2 ∧
    s.hw.rd die A.ptp_enable port ≠ 0 ∧ port < (s.hw.die die).ptp.length :=
⟨st fun h => h.wr 0 A.ptp_enable 1 1, 0, 1, by decide +kernel⟩
theorem witness_PtpRowsComplete_6 : ∃ (s : State) (die : Nat) (port : Nat), die < s.hw.dies.length ∧ port < 2 ∧
    s.hw.rd die A.ptp_enable port ≠ 0 ∧ s.hw.rd die A.port_state port = 6 :=
⟨st fun h => (h.wr 0 A.ptp_enable 1 1).wr 0 A.port_state 1 6, 0, 1, by decide +kernel⟩
theorem witness_PtpRowsComplete_7 : ∃ (s : State) (die : Nat) (port : Nat), die < s.hw.dies.length ∧ port < 2 ∧
    s.hw.rd die A.ptp_enable port ≠ 0 ∧ s.hw.rd die A.port_state port = 6 :=
⟨st fun h => (h.wr 0 A.ptp_enable 1 1).wr 0 A.port_state 1 6, 0, 1, by decide +kernel⟩
theorem witness_PtpRowsComplete_8 : ∃ (s : State) (die : Nat) (port : Nat), die < s.hw.dies.length ∧ port < 2 ∧
    s.hw.rd die A.ptp_enable port ≠ 0 ∧ (s.hw.rd die A.delay_mech port = 1 ∨ s.hw.rd die A.port_state port = 8 ∨
    s.hw.rd die A.port_state port = 9) :=
⟨st fun h => (h.wr 0 A.ptp_enable 1 1).wr 0 A.port_state 1 8, 0, 1, by decide +kernel⟩

/-! ThermalRowsComplete. -/

theorem witness_ThermalRowsComplete_0 : ∃ (s : State) (die : Nat), die < s.hw.dies.length :=
⟨st id, 7, by decide +kernel⟩
theorem witness_ThermalRowsComplete_1 : ∃ (s : State) (die : Nat), die < s.hw.dies.length ∧ (s.hw.die die).crit.isSome :=
⟨st fun h => h.onDie 7 fun D => { D with crit := some (0, []) }, 7, by decide +kernel⟩
theorem witness_ThermalRowsComplete_2 : ∃ (s : State) (die : Nat) (sensor : Nat), die < s.hw.dies.length ∧ sensor < 6 ∧
    s.hw.rd die A.sn_flags sensor &&& 6 = 0 :=
⟨st id, 7, 5, by decide +kernel⟩
theorem witness_ThermalRowsComplete_3 : ∃ (s : State) (h : Hdr), s.Admits h 0x0D02 (opObj 0x0D02 0) :=
⟨st id, q0, by unfold State.Admits; decide +kernel⟩

/-! CalibrationRowsComplete. -/

theorem witness_CalibrationRowsComplete_0 : ∃ (s : State) (h : Hdr) (insts : Nat),
    s.Admits h 0x0D01 (opObj 0x0D01 (lowBit insts)) ∧ insts ≠ 0 ∧ insts < 32 ∧ (insts.testBit 4 = true → h.die =
    s.hw.leadDie) ∧ (∀ i ∈ instsOf insts, s.hw.rd h.die A.cal_state i ≠ 3) ∧ (s.atWork h).printing h.die = false ∧
    (insts.testBit 4 = true → s.hw.rd 0 A.ch_state 0 ≠ 1) :=
⟨st id, q0, 31, by unfold State.Admits; decide +kernel⟩
theorem witness_CalibrationRowsComplete_1 : ∃ (s : State) (h : Hdr) (insts : Nat),
    s.Admits h 0x0D01 (opObj 0x0D01 (lowBit insts)) ∧ insts ≠ 0 ∧ insts < 32 ∧ (insts.testBit 4 = true → h.die =
    s.hw.leadDie) ∧ (∀ i ∈ instsOf insts, s.hw.rd h.die A.cal_state i ≠ 3) :=
⟨st id, q0, 31, by unfold State.Admits; decide +kernel⟩
theorem witness_CalibrationRowsComplete_2 : ∃ (s : State) (h : Hdr) (insts : Nat),
    s.Admits h 0x0D01 (opObj 0x0D01 (lowBit insts)) ∧ insts ≠ 0 ∧ insts < 32 ∧ (insts.testBit 4 = true → h.die = s.hw.leadDie) :=
⟨st id, q0, 31, by unfold State.Admits; decide +kernel⟩
theorem witness_CalibrationRowsComplete_3 : ∃ (s : State) (h : Hdr) (insts : Nat),
    s.Admits h 0x0D01 (opObj 0x0D01 (lowBit insts)) ∧ insts ≠ 0 ∧ insts < 32 ∧ (insts.testBit 4 = true → h.die =
    s.hw.leadDie) ∧ (∀ i ∈ instsOf insts, s.hw.rd h.die A.cal_state i = 3) :=
⟨st fun h => h.wr 0 A.cal_state 4 3, q0, 16, by unfold State.Admits; decide +kernel⟩
theorem witness_CalibrationRowsComplete_4 : ∃ (s : State) (die : Nat) (inst : Nat) (quality : Nat), die < s.hw.dies.length ∧
    inst < 5 ∧ inst < (s.hw.die die).cals.length ∧ ((s.hw.die die).cals.getD inst {}).work ≠ 0 ∧
    ((s.hw.die die).cals.getD inst {}).work ≠ 3 ∧ (inst = 1 → s.hw.rd die A.vref_mv 1 ≠ 0) ∧ s.begun.calBad die inst quality =
    false :=
⟨st fun h => (h.wr 0 A.cam_res_max 4 100).onCal 0 4 fun C => { C with work := 1 }, 0, 4, 100, by decide +kernel⟩
theorem witness_CalibrationRowsComplete_5 : ∃ (s : State) (die : Nat) (inst : Nat) (quality : Nat), die < s.hw.dies.length ∧
    inst < 5 ∧ inst < (s.hw.die die).cals.length ∧ ((s.hw.die die).cals.getD inst {}).work ≠ 0 ∧
    ((s.hw.die die).cals.getD inst {}).work ≠ 3 ∧ (inst = 1 → s.hw.rd die A.vref_mv 1 ≠ 0) ∧ s.begun.calBad die inst quality =
    true :=
⟨st fun h => (h.wr 0 A.cam_res_max 4 100).onCal 0 4 fun C => { C with work := 1 }, 0, 4, 101, by decide +kernel⟩
theorem witness_CalibrationRowsComplete_6 : ∃ (s : State) (die : Nat) (inst : Nat), die < s.hw.dies.length ∧ inst < 5 ∧ inst <
    (s.hw.die die).cals.length ∧ ((s.hw.die die).cals.getD inst {}).work = 2 :=
⟨st fun h => h.onCal 0 3 fun C => { C with work := 2 }, 0, 3, by decide +kernel⟩

/-! PowerRowsComplete. -/

theorem witness_PowerRowsComplete_0 : ∃ (s : State) (h : Hdr) (die : Nat) (mask : Nat), s.Admits h 0x0F01 (opObj 0x0F01 0) ∧
    die < s.hw.dies.length ∧ mask.testBit 0 = false ∧ mask < 256 ∧ (∀ b < 8, mask.testBit b = true →
    (s.hw.rd die A.pd_on 0 ||| mask ||| 1).testBit (domainNeeds b) = true) ∧ s.hw.rd die A.trip_latched 0 ≠ 1 ∧ (∀ ch < 6,
    s.begun.warm die ch = false) :=
⟨st id, q0, 7, 254, by unfold State.Admits; decide +kernel⟩
theorem witness_PowerRowsComplete_1 : ∃ (s : State) (h : Hdr) (die : Nat) (mask : Nat), s.Admits h 0x0F01 (opObj 0x0F01 0) ∧
    die < s.hw.dies.length ∧ mask.testBit 0 = false ∧ mask < 256 ∧ s.begun.printing die = false ∧ (∀ b < 8,
    (s.hw.rd die A.pd_on 0).testBit b = true → mask.testBit b = false → mask.testBit (domainNeeds b) = false) ∧
    (mask.testBit 1 = true → s.hw.lead ≠ some die) :=
⟨st id, q0, 7, 0, by unfold State.Admits; decide +kernel⟩
theorem witness_PowerRowsComplete_2 : ∃ (s : State) (h : Hdr) (die : Nat), s.Admits h 0x0F01 (opObj 0x0F01 0) ∧ die <
    s.hw.dies.length ∧ s.hw.lead ≠ some die ∧ s.begun.printing die = false :=
⟨st id, q0, 7, by unfold State.Admits; decide +kernel⟩
theorem witness_PowerRowsComplete_3 : ∃ (s : State) (h : Hdr), s.Admits h 0x0F01 (opObj 0x0F01 0) ∧ (∀ d < s.hw.n,
    s.begun.printing d = false) :=
⟨st id, q0, by unfold State.Admits; decide +kernel⟩
theorem witness_PowerRowsComplete_4 : ∃ (s : State) (h : Hdr) (die : Nat), s.Admits h 0x0F01 (opObj 0x0F01 0) ∧ die <
    s.hw.dies.length ∧ (∀ ch < 30, s.begun.warm die ch = false) ∧ s.hw.rd die A.trip_latched 0 = 1 :=
⟨st fun h => h.wr 7 A.trip_latched 0 1, q0, 7, by unfold State.Admits; decide +kernel⟩
theorem witness_PowerRowsComplete_5 : ∃ (s : State) (die : Nat), die < s.hw.dies.length ∧ s.hw.porst = false ∧
    s.hw.railFault = false ∧ s.hw.clkFault = false :=
⟨st fun h => h.onDie 7 fun D => { D with pdWork := [(9, 4, false)] }, 7, by decide +kernel⟩
theorem witness_PowerRowsComplete_6 : ∃ (s : State) (die : Nat) (id : Nat) (mask : Nat), die < s.hw.dies.length ∧ s.hw.porst =
    false ∧ s.hw.railFault = false ∧ s.hw.clkFault = false ∧ (s.hw.die die).pdWork = [(id, mask, false)] :=
⟨st fun h => h.onDie 7 fun D => { D with pdWork := [(9, 4, false)] }, 7, 9, 4, by decide +kernel⟩

/-! BootRowsComplete. -/

theorem witness_BootRowsComplete_1 : ∃ (s : State), s.hw.porst = true :=
⟨State.reset, by decide +kernel⟩
theorem witness_BootRowsComplete_2 : ∃ (s : State) (good : Nat), s.hw.porst = true ∧ good % 1024 ≠ 1023 :=
⟨State.reset, 0, by decide +kernel⟩
theorem witness_BootRowsComplete_3 : ∃ (s : State), s.hw.porst = false ∧ s.hw.railFault = false ∧ s.hw.clkFault = false :=
⟨st id, by decide +kernel⟩
theorem witness_BootRowsComplete_4 : ∃ (s : State) (die : Nat) (rail : Nat), die < s.hw.dies.length ∧ rail < 10 ∧ s.hw.porst =
    false ∧ rail ≠ 9 :=
⟨st id, 7, 8, by decide +kernel⟩
theorem witness_BootRowsComplete_5 : ∃ (s : State), s.hw.porst = false ∧ s.hw.railFault = true ∧ s.hw.clkFault = false :=
⟨st fun h => { h with railFault := true }, by decide +kernel⟩
theorem witness_BootRowsComplete_6 : ∃ (s : State) (die : Nat), die < s.hw.dies.length ∧ s.hw.porst = false :=
⟨st id, 7, by decide +kernel⟩
theorem witness_BootRowsComplete_7 : ∃ (s : State), s.hw.porst = false ∧ s.hw.railFault = false ∧ s.hw.clkFault = true :=
⟨st fun h => { h with clkFault := true }, by decide +kernel⟩
theorem witness_BootRowsComplete_8 : ∃ (s : State), s.hw.bootWatch = true :=
⟨st fun h => { h with bootWatch := true }, by decide +kernel⟩
theorem witness_BootRowsComplete_10 : ∃ (s : State) (die : Nat), die < s.hw.dies.length ∧ s.hw.porst = false ∧
    s.hw.railFault = false ∧ s.hw.clkFault = false ∧ s.hw.bootWatch = true :=
⟨st fun h => { h with bootWatch := true }, 7, by decide +kernel⟩

/-! ModeRowsComplete. -/

theorem witness_ModeRowsComplete_0 : ∃ (s : State) (h : Hdr), s.Admits h 0x0F02 (opObj 0x0F02 0) ∧ (∀ D ∈ s.hw.dies,
    ∀ c ∈ D.ctxs, c.num = 0) ∧ s.hw.mode ≠ .gatehouse ∧ s.hw.rd 0 A.gh_script_len 0 = 0 :=
⟨st id, q0, by unfold State.Admits; decide +kernel⟩
theorem witness_ModeRowsComplete_1 : ∃ (s : State) (h : Hdr), s.Admits h 0x0F02 (opObj 0x0F02 0) ∧ s.hw.gh.print = none ∧
    s.hw.hostedWait = [] :=
⟨st fun h => { h with mode := .gatehouse }, q0, by unfold State.Admits; decide +kernel⟩
theorem witness_ModeRowsComplete_2 : ∃ (s : State) (h : Hdr), s.Admits h 0x0F02 (opObj 0x0F02 0) ∧ s.hw.mode = .gatehouse ∧
    s.hw.gh.print.isSome :=
⟨st fun h => { h with mode := .gatehouse, gh := { h.gh with print := some 5 } }, q0, by unfold State.Admits; decide +kernel⟩
theorem witness_ModeRowsComplete_3 : ∃ (s : State) (b : Nat) (i : Nat), s.hw.bootWatch = true ∧
    (s.hw.bootDie (fun h d => (h.die d).up) = some b) ∧ s.hw.fwBooted = some i ∧ s.hw.rd 0 A.gh_script_len 0 = 0 :=
⟨st fun h => { h with bootWatch := true, fwBooted := some 0 }, 0, 0, by decide +kernel⟩
theorem witness_ModeRowsComplete_4 : ∃ (s : State) (d : Nat), s.hw.mode = .gatehouse ∧ s.hw.gh.interval ≠ 0 ∧
    s.hw.hsIn.testBit 1 = true ∧ d < s.hw.n ∧ (s.hw.die d).up = true ∧ s.hw.enabledPorts d ≠ 0 ∧ s.hw.rd d A.le_state 0 = 0 ∧
    s.hw.gh.spitLines ≤ 1000000 ∧ (∀ p ∈ portsOf (s.hw.enabledPorts d), s.hw.rd d A.hp_state p = 1) :=
⟨st fun h => { h.wr 7 A.hp_enable 23 1 |>.wr 7 A.hp_state 23 1 with mode := .gatehouse, hsIn := 2 }, 7, by decide +kernel⟩
theorem witness_ModeRowsComplete_5 : ∃ (s : State) (h : Hdr), s.Admits h 0x0F03 (opObj 0x0F03 0) :=
⟨st id, q0, by unfold State.Admits; decide +kernel⟩

/-! LeadRowsComplete. -/

theorem witness_LeadRowsComplete_0 : ∃ (s : State) (die : Nat), die < s.hw.dies.length :=
⟨st id, 7, by decide +kernel⟩
theorem witness_LeadRowsComplete_1 : ∃ (s : State) (die : Nat), die < s.hw.dies.length :=
⟨st id, 0, by decide +kernel⟩
theorem witness_LeadRowsComplete_2 : ∃ (s : State) (die : Nat), die < s.hw.dies.length :=
⟨st id, 0, by decide +kernel⟩
theorem witness_LeadRowsComplete_3 : ∃ (s : State), s.hw.lead ≠ none ∧ s.hw.mode ≠ .boot ∧ s.hw.kennelWriting = none ∧
    s.hw.nvOk = true :=
⟨st id, by decide +kernel⟩
theorem witness_LeadRowsComplete_4 : ∃ (s : State), s.hw.lead ≠ none ∧ s.hw.mode ≠ .boot ∧ s.hw.kennelWriting.isSome :=
⟨st fun h => { h with kennelWriting := some (0, KennelSlot.blank) }, by decide +kernel⟩
theorem witness_LeadRowsComplete_5 : ∃ (s : State) (slot : Nat) (d : Nat) (c : KennelSlot), s.hw.kennelWriting = some (slot,
    c) ∧ s.hw.lead = some d ∧ s.hw.moving = none :=
⟨st fun h => { h with kennelWriting := some (1, KennelSlot.blank) }, 1, 0, KennelSlot.blank, by decide +kernel⟩
theorem witness_LeadRowsComplete_6 : ∃ (s : State) (slot : Nat) (d : Nat) (c : KennelSlot), s.hw.kennelWriting = some (slot,
    c) ∧ s.hw.lead = some d :=
⟨st fun h => { h with kennelWriting := some (1, KennelSlot.blank) }, 1, 0, KennelSlot.blank, by decide +kernel⟩
theorem witness_LeadRowsComplete_7 : ∃ (s : State) (d : Nat), s.hw.takeover = some d ∧ s.hw.ldState (1 - d) = .standby :=
⟨st fun h => { h with takeover := some 0, lead := none, leadSt := [.faulted, .standby] }, 0, by decide +kernel⟩
theorem witness_LeadRowsComplete_8 : ∃ (s : State) (d : Nat), s.hw.takeover = some d ∧ s.hw.ldState (1 - d) ≠ .standby :=
⟨st fun h => { h with takeover := some 0, lead := none, leadSt := [.faulted, .syncing] }, 0, by decide +kernel⟩
theorem witness_LeadRowsComplete_9 : ∃ (s : State), s.hw.takeover = none ∧ s.hw.mode = .safe ∧ s.hw.lead = none ∧
    s.hw.ldState 0 = .standby :=
⟨st fun h => { h with mode := .safe, lead := none, leadSt := [.standby, .faulted] }, by decide +kernel⟩
theorem witness_LeadRowsComplete_10 : ∃ (s : State) (l : Nat), s.hw.leadSt.length = 2 ∧ s.hw.lead = some l ∧
    s.hw.rd 0 A.auto_repair 0 = 1 ∧ s.hw.repairArmed = true ∧ s.hw.ldState (1 - l) = .faulted :=
⟨st fun h => { h.wr 0 A.auto_repair 0 1 with leadSt := [.active, .faulted], repairArmed := true }, 0, by decide +kernel⟩
theorem witness_LeadRowsComplete_11 : ∃ (s : State) (die : Nat), die < s.hw.dies.length ∧ die < 2 ∧ s.hw.leadSt.length = 2 ∧
    s.hw.ldState die = .syncing :=
⟨st fun h => { h with leadSt := [.active, .syncing] }, 1, by decide +kernel⟩

/-! LeadCommandsComplete. -/

theorem witness_LeadCommandsComplete_0 : ∃ (s : State) (h : Hdr), s.Admits h 0x0E01 (opObj 0x0E01 0) ∧
    s.hw.ldState (1 - s.hw.execDie h 0x0E01 (opObj 0x0E01 0)) = .standby ∧ s.hw.moving = none ∧ s.hw.nvOk = true :=
⟨st id, q0, by unfold State.Admits; decide +kernel⟩
theorem witness_LeadCommandsComplete_1 : ∃ (s : State) (h : Hdr) (die : Nat), s.Admits h 0x0E01 (opObj 0x0E01 0) ∧
    s.hw.leadSt.length = 2 ∧ die ≤ 1 ∧ s.hw.ldState die = .faulted :=
⟨st fun h => { h with leadSt := [.active, .faulted] }, q0, 1, by unfold State.Admits; decide +kernel⟩
theorem witness_LeadCommandsComplete_2 : ∃ (s : State) (h : Hdr), s.Admits h 0x0E01 (opObj 0x0E01 0) ∧ s.hw.nvOk = true ∧
    s.hw.kennelWriting = none :=
⟨st id, q0, by unfold State.Admits; decide +kernel⟩
theorem witness_LeadCommandsComplete_3 : ∃ (s : State) (h : Hdr), s.Admits h 0x0E01 (opObj 0x0E01 0) ∧
    (s.hw.rd 0 A.reissue_count 0 ≠ 0 ∨ s.hw.rd 0 A.reissue_over 0 ≠ 0) :=
⟨st fun h => h.wr 0 A.reissue_count 0 1, q0, by unfold State.Admits; decide +kernel⟩

/-! EventRowsComplete. -/

theorem witness_EventRowsComplete_0 : ∃ (s : State) (die : Nat) (code : Nat), die < s.hw.dies.length ∧ ((s.hw.limit code).2 =
    0 ∨ tokenUnit ≤ (s.hw.bucket die code).level) ∧ (fixedCode code = true ∨ s.hw.frontUsed die + 520 ≤ 8192) :=
⟨st id, 7, 0x0300, by decide +kernel⟩
theorem witness_EventRowsComplete_1 : ∃ (s : State) (die : Nat) (code : Nat), die < s.hw.dies.length ∧ (s.hw.limit code).2 ≠
    0 ∧ (s.hw.bucket die code).level < tokenUnit :=
⟨st fun h => (h.onDie 7 fun D => { D with buckets := [⟨0x0300, 0, 0, 0, none⟩] }), 7, 0x0300, by decide +kernel⟩
theorem witness_EventRowsComplete_2 : ∃ (s : State) (die : Nat) (l : Nat) (e : Evt) (rest : List Evt), die <
    s.hw.dies.length ∧ s.hw.lead = some l ∧ (s.hw.die die).front = e :: rest ∧ s.hw.mode ≠ .safe ∧ (die = l ∨
    s.hw.frontUsed l + e.places ≤ 8192) :=
⟨st fun h => h.onDie 0 fun D => { D with front := [⟨0x0300, 0, 0, 0, 0, [1]⟩] }, 0, 0, ⟨0x0300, 0, 0, 0, 0, [1]⟩, [], by decide +kernel⟩
theorem witness_EventRowsComplete_3 : ∃ (s : State), s.hw.mode ≠ .safe ∧ s.hw.nvOk = true ∧ s.hw.evtDurable + 1 < s.hw.evtNext :=
⟨st fun h => { h with evtNext := 5 }, by decide +kernel⟩
theorem witness_EventRowsComplete_4 : ∃ (s : State) (die : Nat) (code : Nat) (e : Evt), die < s.hw.dies.length ∧
    (s.hw.bucket die code).latest = some e ∧ (s.hw.bucket die code).count ≠ 0 ∧ (fixedCode code = true ∨ s.hw.frontUsed die +
    e.places + 512 ≤ 8192) :=
⟨st fun h => h.onDie 7 fun D => { D with buckets := [⟨0x0300, 0, 0, 3, some ⟨0x0300, 0, 0, 0, 0, [1]⟩⟩] }, 7, 0x0300, ⟨0x0300, 0, 0, 0, 0, [1]⟩, by decide +kernel⟩
theorem witness_EventRowsComplete_5 : ∃ (s : State) (die : Nat), die < s.hw.dies.length ∧ (s.hw.die die).folded ≠ 0 ∧
    s.hw.frontUsed die + 513 ≤ 8192 :=
⟨st fun h => h.onDie 7 fun D => { D with folded := 1 }, 7, by decide +kernel⟩
theorem witness_EventRowsComplete_6 : ∃ (s : State) (h : Hdr) (count : Nat), s.Admits h 0x0E02 (opObj 0x0E02 0) ∧ 1 ≤ count ∧
    count ≤ 7 :=
⟨st id, q0, 7, by unfold State.Admits; decide +kernel⟩
theorem witness_EventRowsComplete_7 : ∃ (s : State) (h : Hdr) (code : Nat) (rate : Nat), s.Admits h 0x0E03 (opObj 0x0E03 0) ∧
    rate ≠ 0 ∧ fixedCode code = false ∧ s.hw.nvOk = true :=
⟨st id, q0, 0x0300, 16, by unfold State.Admits; decide +kernel⟩
theorem witness_EventRowsComplete_8 : ∃ (s : State) (h : Hdr), s.Admits h 0x0E03 (opObj 0x0E03 0) :=
⟨st id, q0, by unfold State.Admits; decide +kernel⟩

end Witnesses

end Sys2Proof.Tests
end

section
/-!
PROOFS. What a command can answer (R3, R10). All meanings but four are one of six lifts of an effect, which answer a next state
unless the command names a die outside the package or a unit that a die does not have; so do the four.
-/
namespace Sys2Proof.Machine

/-- The answers that a command can give: a next state, or the fault of a die or of a unit that does not exist. -/
def Answered (r : Host.Outcome State Fault Refusal) : Prop :=
  (∃ t, r = .next t) ∨ r = .fault .noSuchDie ∨ r = .fault .noSuchUnit

theorem answered_next (t : State) : Answered (.next t) := .inl ⟨t, rfl⟩
theorem answered_noSuchDie : Answered (.fault .noSuchDie) := .inr (.inl rfl)
theorem answered_noSuchUnit : Answered (.fault .noSuchUnit) := .inr (.inr rfl)

/-! ### The lifts -/

theorem State.answered_onPkg (s : State) (f : List (List Host.Cell) → Hw → Hw) : Answered (s.onPkg f) := answered_next _

theorem State.answered_onDie (s : State) (d : Nat) (f : List (List Host.Cell) → Hw → Hw) : Answered (s.onDie d f) := by
  unfold State.onDie
  split
  · exact answered_next _
  · exact answered_noSuchDie

theorem State.answered_onUnit (s : State) (d u n : Nat) (f : List (List Host.Cell) → Hw → Hw) : Answered (s.onUnit d u n f) := by
  unfold State.onUnit
  split
  · split
    · exact answered_next _
    · exact answered_noSuchUnit
  · exact answered_noSuchDie

theorem State.answered_command (s : State) (q : Hdr) (op : Nat) (o : ObjRef)
    (body : List (List Host.Cell) → Nat → Hw → Reply × Hw) : Answered (s.command q op o body) := s.answered_onDie _ _

theorem State.answered_commandHold (s : State) (q : Hdr) (op : Nat) (o : ObjRef)
    (body : List (List Host.Cell) → Nat → Hw → Option Reply × Hw) : Answered (s.commandHold q op o body) := s.answered_onDie _ _

theorem answered_powerCommand (q : Hdr) (die : Nat) (s : State) (body : Nat → Hw → Reply × Hw) :
    Answered (powerCommand q die s body) := by
  unfold powerCommand
  split
  · exact s.answered_command ..
  · exact answered_noSuchDie

/-! ### The commands that are no single lift -/

theorem answered_execMbxSlotWrite (die ep slot off : Nat) (data : List Byte) (s : State) :
    Answered (execMbxSlotWrite die ep slot off data s) := by
  unfold execMbxSlotWrite
  split
  · exact answered_noSuchUnit
  · exact s.answered_onUnit ..

theorem answered_execCommandComplete (origin : Origin) (tag : Nat) (s : State) : Answered (execCommandComplete origin tag s) :=
  answered_next _

theorem answered_execBootConfirm (bootMs : Nat) (s : State) : Answered (execBootConfirm bootMs s) := by
  unfold execBootConfirm
  split
  · exact answered_next _
  · exact s.answered_onPkg _

/-- MODE_SET GATEHOUSE runs the script where its mailbox command answers a next state; otherwise it answers as that does. -/
theorem answered_execModeSetGatehouse (h : Hdr) (s : State) : Answered (execModeSetGatehouse h s) := by
  unfold execModeSetGatehouse
  split
  · exact answered_next _
  · exact s.answered_command ..

/-! ### Every command -/

/-- The rows of the dispatch, grouped by the lift that each of them is. -/
theorem answered_exec (c : Instr) (s : State) : Answered (exec c s) := by
  cases c with
  | commandTimeout | fwSessionTimeout | pressRunAccept | headParkedAccept | eStopAccept | eStopReleaseAccept
  | chPageEvaluate | autoEnum | leadTakeover | kennelCheckpoint | kennelWriteDone | leadRepair | eventProgram | porstRise
  | sysRstL | railGood | clockGood | bootWatchdog | ghSpitTimer | porstLLow =>
    exact s.answered_onPkg _
  | stageDiscard | statusBlockUpdate | compressJobStart | compressBlockEnd | switchFix | contextWriteback | stopFixed
  | backupTimeout | stopRelease | mpFrameProcess | mxStep | tbChangeApply | itvTrainingStart | itvTrainStepDone
  | itvTrainFail | itvRetry | itvFrameReceive | itvSleepEnter | itvDeepPropose | itvDeepExit | housekeepingRound
  | criticalShutdown | watchdogExpiry | sramEccError | mgmtPowerLoss | eventRaise | eventNumber | bucketRefillFlush
  | evtBacklog | clkFault | dieBootTimeout | domainSwitchDone | itvPmBlockReceive =>
    exact s.answered_onDie ..
  | registerWrite | barRcRead | mbxRing | remoteMailboxDatagram | qpWrWrite | qpRdWrite | stallPushRetry | queueWriteback
  | encEdge | encLosSet | encLosClear | indexPulse | absWordRequest | absWordComplete | absTimeout | encMag
  | stillTimeout | pergolaPairReceive | fireTimerMatch | commitDeadline | slotShift | staleReshift | headQuery
  | lvdsFault | spitLine | toneLine | tbSwapDecision | tbBuilt | descriptorPush | decodeStart | decodeComplete | grtData
  | grtReset | grtAckTimer | dmaTailWrite | dmaBlockFetch | blockStore | csiFrameStart | csiLine | csiFrameEnd
  | frameTimeout | ispFrameDone | psetListComplete | chainRefresh | chainReturn | lampWriteback | servoSample | slewEnd
  | holdoverTimeout | timeAlign | ptpMessage | announceTimeout | pulseOutputMatch | captureEdge | itvAckTimeout
  | eyeScanComplete | ethDatagram | tunnelDatagram | pcieFlr | perstLLow | bar2Access | enumFrame | timeSyncExchange
  | thermTrip | calDone | calNoGap | leadStandby | railFault | unmappedRead | ethLinkChange | pcieLinkChange
  | msixEnableWrite | camI2cEnd | ptpMessageInterval =>
    exact s.answered_onUnit ..
  | idRead | sysState | blSet | cmdStatus | objGet | objSet | objGetBlock | objSetBlock | fwBegin | fwData | fwEnd
  | fwActivate | fwAbort | queueInvalidate | queueEnable | queueDisable | queueFlush | queueStatus | absRequest | posSet
  | posLatch | cmpArm | cmpDisarm | leResume | hsForce | hsRelease | leStatus | hpEnable | hpDisable | hpRestart
  | hpSpitParked | hpSpitStop | hpSpitWeb | tbBuild | tbBuildAbort | tbSwap | plStatus | codecCompressSubmit
  | codecCompressAbort | ctxOpen | ctxStartAbs | ctxStartAfter | ctxStop | ctxClose | ctxAbort | ctxInvalidate
  | runwayStatus | camWake | camEnable | camDisable | camSleep | camSnap | camRelease | camApply | chainEnable
  | chainDisable | chainEnum | lampInvalidate | lampCtrlClear | lampCtrlDiag | mxStart | mxStop | chStart | chStop
  | chFreeze | chResume | chCaptureRef | chStatus | tbRead | tbStep | poArm | itvEnable | itvDisable | itvRetrain
  | itvEyeRead | itvEyeMeasure | sysEnumFresh | sysEnumKeep | sysNode | calRun | calRunGap | calQuality | calAbort
  | thermStatus | leadMove | leadCtrlRepair | leadCheckpoint | leadAck | evtRead | evtLimitSet | evtLimitGet
  | modeSetHosted | ghStatus | pkgReset =>
    exact s.answered_command ..
  | hpQuery | codecVerify | camI2c =>
    -- the row first: the lift is itself one of a die and would be unfolded instead
    unfold exec
    exact s.answered_commandHold ..
  | domainOn | domainOff | dieReset | tripClear =>
    exact answered_powerCommand ..
  | mbxSlotWrite => exact answered_execMbxSlotWrite ..
  | commandComplete => exact answered_execCommandComplete ..
  | bootConfirm => exact answered_execBootConfirm ..
  | modeSetGatehouse => exact answered_execModeSetGatehouse ..

/-- Settles O8: every row of the dispatch is a lift that answers a next state or the fault of a missing die or unit. -/
theorem noCommandIsRefused : Obligations.NoCommandIsRefused := answered_exec

end Sys2Proof.Machine
end

section
/-!
PROOFS. The object commands (R11, R61 to R63): what the work of each answers once nothing refuses it, and what the step leaves
behind.
-/
namespace Sys2Proof.Machine

/-! ### A mailbox command whose work is known -/

/-- The step from `s` to `t` leaves what the work of `q`'s command gave: its reply and its record `w`, but for what the end of a
command may add to them (the event, the count `cfg_changes` and the reply of R54 and R78). -/
structure State.Leaves (s : State) (q : Hdr) (w : Reply × Hw) (t : State) : Prop where
  reply : t.replyOf q = some w.1
  stages : t.hw.stages = w.2.stages
  rd : ∀ e (a : AttrId) i, a.cls ≠ 0x1F → a ≠ A.cfg_changes → t.hw.rd e a i = w.2.rd e a i
  mem : w.2.stores = [] → w.2.wipes = [] → s.SameMem t

theorem State.command_leaves {s : State} {q : Hdr} {op : Nat} {o : ObjRef} (hA : s.Admits q op o)
    {body : List (List Host.Cell) → Nat → Hw → Reply × Hw} {w : Reply × Hw}
    (hb : body s.mems (s.hw.execDie q op o) (s.atWork q) = w) : ∃ t, s.command q op o body = .next t ∧ s.Leaves q w t := by
  subst hb
  refine ⟨_, State.command_next hA body, ?_, ?_, fun e a i ha hc => ?_, fun h1 h2 d x => ?_⟩
  · exact Hw.reply?_finish ..
  · exact Hw.finish_stages ..
  · exact Hw.rd_finish _ _ _ _ _ _ _ _ ha hc
  · rw [State.run_mems_same s _ ((Hw.finish_stores ..).trans h1) ((Hw.finish_wipes ..).trans h2)]

@[simp] theorem State.atWork_stages (s : State) (q : Hdr) : (s.atWork q).stages = s.hw.stages := rfl
@[simp] theorem State.atWork_blk (s : State) (q : Hdr) (k : RegKey) : (s.atWork q).blk k = s.hw.blk k := rfl
@[simp] theorem State.atWork_stores (s : State) (q : Hdr) : (s.atWork q).stores = [] := rfl
@[simp] theorem State.atWork_wipes (s : State) (q : Hdr) : (s.atWork q).wipes = [] := rfl

/-! ### OBJ_GET and OBJ_GET_BLOCK (R61) -/

@[simp] theorem Hw.getScalar_stores (h : Hw) (d : Nat) (o : ObjRef) (r : AttrRow) : (h.getScalar d o r).2.stores = h.stores :=
  (h.getScalar_only d o r).hw .stores (by decide)
@[simp] theorem Hw.getScalar_wipes (h : Hw) (d : Nat) (o : ObjRef) (r : AttrRow) : (h.getScalar d o r).2.wipes = h.wipes :=
  (h.getScalar_only d o r).hw .wipes (by decide)

/-- OBJ_GET of a scalar that exists answers its value and its width. -/
theorem execObjGet_leaves {s : State} {h : Hdr} {obj : ObjRef} {r : AttrRow} (hA : s.Admits h 0x0010 obj)
    (hk : (s.atWork h).objKnown (s.hw.execDie h 0x0010 obj) obj = true) (hr : (s.atWork h).attr? obj = some r)
    (hw : r.width ≤ 64) : ∃ t, execObjGet h obj s = .next t ∧
      s.Leaves h (.words (words64 ((s.atWork h).getScalar (s.hw.execDie h 0x0010 obj) obj r).1 ++ [r.width]),
        ((s.atWork h).getScalar (s.hw.execDie h 0x0010 obj) obj r).2) t :=
  State.command_leaves hA (by simp [hk, hr, Nat.not_lt.2 hw])

/-- OBJ_GET_BLOCK of 1 to 240 bytes within a block that exists answers its bytes in force. -/
theorem execObjGetBlock_leaves {s : State} {h : Hdr} {obj : ObjRef} {r : AttrRow} {off len : Nat} (hA : s.Admits h 0x0012 obj)
    (hk : (s.atWork h).objKnown (s.hw.execDie h 0x0012 obj) obj = true) (hr : (s.atWork h).attr? obj = some r)
    (hw : 64 < r.width) (h1 : 1 ≤ len) (h240 : len ≤ 240)
    (hoff : off + len ≤ (s.atWork h).blkSize (s.hw.execDie h 0x0012 obj) obj r) :
    ∃ t, execObjGetBlock h obj off len s = .next t ∧
      s.Leaves h (⟨.ok, (s.atWork h).getBlock (s.hw.execDie h 0x0012 obj) obj off len⟩, s.atWork h) t :=
  State.command_leaves hA (by simp [hk, hr, Nat.not_le.2 hw, Nat.ne_of_gt h1, Nat.not_lt.2 h240, Nat.not_lt.2 hoff])

/-! ### OBJ_SET (R11, R61) -/

/-- The classes that hold attributes with an effect of their own when they are set. -/
def effectClasses : List Nat := [0x03, 0x04, 0x0E, 0x0F, 0x14, 0x15, 0x17, 0x1F]

/-- Outside those classes a scalar set at once is its register written. -/
theorem Hw.setNow_of_plain (h : Hw) (d : Nat) {o : ObjRef} (v : Nat) (hc : ∀ c ∈ effectClasses, o.cls ≠ c) :
    h.setNow d o v = h.wrk (okey d o) v := by
  unfold Hw.setNow
  dsimp only
  split
  case h_12 => rfl
  all_goals exact absurd ‹o.cls = _› (hc _ (by decide))

/-- A write that nothing refuses, of a scalar that is not line-effective, sets it at once. -/
theorem objSetBody_of_accepted {q : Hdr} {o : ObjRef} {v d : Nat} {h : Hw} {r : AttrRow} (hk : h.objKnown d o = true)
    (hr : h.attr? o = some r) (hrw : r.acc = .rw) (hw : r.width ≤ 64) (hv : v < 2 ^ r.width)
    (hrng : r.rng.has r.signed r.width v = true) (hset : h.setRefuse d o v = none) (hline : r.lineEff = false) :
    objSetBody q o v none d h = (.ok, h.setNow d o v) := by
  simp [objSetBody, hk, hr, hrw, Nat.not_lt.2 hw, Nat.not_le.2 hv, hrng, hset, hline]

/-! ### OBJ_SET_BLOCK (R61 to R63) -/

/-- The record with no staging copy of a block. -/
def Hw.unstaged (h : Hw) (k : RegKey) : Hw := { h with stages := h.stages.filter fun x => x.key ≠ k }

theorem Hw.unstaged_key (h : Hw) {k : RegKey} {x : Stage} (hx : x ∈ (h.unstaged k).stages) : x.key ≠ k := by
  simpa using (List.mem_filter.1 hx).2

/-- The first staging copy of a block: its bytes in force with the data put in. That a copy starts from the bytes in force is the
model's choice (assumption log 34). -/
def Hw.firstStage (h : Hw) (k : RegKey) (off : Nat) (data : List Byte) : List Byte :=
  blkSplice k (blkSplice k (h.blk k) 0 []) off data

/-- A commit leaves the staging copies of the other blocks. -/
@[simp] theorem Hw.setBlock_stages (h : Hw) (d : Nat) (o : ObjRef) (b : List Byte) : (h.setBlock d o b).stages = h.stages :=
  (h.setBlock_only d o b).hw .stages (by decide)

section
variable {q : Hdr} {o : ObjRef} {off d : Nat} {data : List Byte} {h : Hw} {r : AttrRow} (hk : h.objKnown d o = true)
  (hr : h.attr? o = some r) (hrw : r.acc = .rw) (hw : 64 < r.width) (hlen : data.length ≤ 216)
  (hoff : off + data.length ≤ r.width / 8) (hset : h.setRefuse d o 0 = none) (hno : ∀ x ∈ h.stages, x.key ≠ okey d o)
include hk hr hrw hw hlen hoff hset hno

/-- A write that nothing refuses, of a block without a staging copy and without COMMIT, makes the first one, of its source. -/
theorem objSetBlockBody_of_staged : objSetBlockBody q o false none off data d h =
    (.ok, { h with stages := { key := okey d o, owner := srcOf q.origin, bytes := h.firstStage (okey d o) off data } ::
      (h.unstaged (okey d o)).stages }) := by
  have hfind : h.stages.find? (fun x => decide (x.key = okey d o)) = none := by simpa using hno
  simp [objSetBlockBody, hk, hr, hrw, Nat.not_le.2 hw, Nat.not_lt.2 hlen, Nat.not_lt.2 hoff, hset, hfind, Hw.firstStage,
    Hw.unstaged]

/-- The same write with COMMIT, when the block's own checks pass, sets the block's bytes and leaves no staging copy of it. -/
theorem objSetBlockBody_of_committed (hcheck : (h.unstaged (okey d o)).blkCheck d o
      (blkSplice (okey d o) (h.firstStage (okey d o) off data) (r.width / 8) []) = none) :
    objSetBlockBody q o true none off data d h =
      (.ok, (h.unstaged (okey d o)).setBlock d o (h.firstStage (okey d o) off data)) := by
  have hfind : h.stages.find? (fun x => decide (x.key = okey d o)) = none := by simpa using hno
  simp only [Hw.firstStage, Hw.unstaged, ne_eq, decide_not] at hcheck
  simp [objSetBlockBody, hk, hr, hrw, Nat.not_le.2 hw, Nat.not_lt.2 hlen, Nat.not_lt.2 hoff, hset, hfind, Hw.firstStage,
    Hw.unstaged, hcheck]
end

/-! ### STAGE_DISCARD (R63) -/

/-- A staging copy left alone is discarded: no copy of its block is left, and no memory changes. -/
theorem execStageDiscard_leaves {s : State} {die : Nat} {obj : ObjRef} (hd : die < s.hw.dies.length)
    (hx : ∃ x ∈ s.hw.stages, x.key = okey die obj) :
    ∃ t, execStageDiscard die obj s = .next t ∧ s.SameMem t ∧ ∀ x ∈ t.hw.stages, x.key ≠ okey die obj := by
  obtain ⟨x, hfind⟩ : ∃ x, s.hw.stages.find? (fun x => decide (x.key = okey die obj)) = some x :=
    Option.isSome_iff_exists.1 (by simpa using hx)
  refine ⟨_, State.onDie_next s _ hd, fun d a => ?_, fun y hy => ?_⟩
  · rw [State.run_mems_same] <;> simp [hfind]
  · exact (by simpa [hfind] using hy : y ∈ s.hw.stages ∧ y.key ≠ okey die obj).2

/-- Settles O18, by what each command's work answers and what the end of the command leaves of it. -/
theorem objectRowsComplete : Obligations.ObjectRowsComplete := by
  unfold Obligations.ObjectRowsComplete
  refine ⟨?get, ?set, ?getBlock, ?stage, ?commit, fun s die obj hd hx => execStageDiscard_leaves hd hx⟩
  case get =>
    intro s h obj r hA hk hr hw
    obtain ⟨t, ht, hl⟩ := execObjGet_leaves hA hk hr hw
    exact ⟨t, ht, hl.mem (by simp) (by simp), hl.reply⟩
  case set =>
    intro s h obj r value hA hk hr hrw hw hv hrng hset hline hc hcfg
    obtain ⟨t, ht, hl⟩ := State.command_leaves hA (body := fun _ => objSetBody h obj value none)
      (objSetBody_of_accepted hk hr hrw hw hv hrng hset hline)
    refine ⟨t, ht, hl.reply, (hl.rd _ ⟨obj.cls, obj.attr⟩ _ (hc 0x1F (by decide)) hcfg).trans ?_⟩
    rw [Hw.setNow_of_plain _ _ _ hc]
    exact Hw.rdk_wrk_self ..
  case getBlock =>
    intro s h obj r off len hA hk hr hw h1 h240 hoff
    obtain ⟨t, ht, hl⟩ := execObjGetBlock_leaves hA hk hr hw h1 h240 hoff
    exact ⟨t, ht, hl.mem rfl rfl, hl.reply⟩
  case stage =>
    intro s h obj r off data hA hk hr hrw hw hlen hoff hset hno
    obtain ⟨t, ht, hl⟩ := State.command_leaves hA (body := fun _ => objSetBlockBody h obj false none off data)
      (objSetBlockBody_of_staged hk hr hrw hw hlen hoff hset hno)
    refine ⟨t, ht, hl.reply, ?_⟩
    rw [hl.stages]
    exact ⟨_, List.mem_cons_self, rfl, rfl, rfl⟩
  case commit =>
    intro s h obj r off data hA hk hr hrw hw hlen hoff hset hno hcheck
    obtain ⟨t, ht, hl⟩ := State.command_leaves hA (body := fun _ => objSetBlockBody h obj true none off data)
      (objSetBlockBody_of_committed hk hr hrw hw hlen hoff hset hno hcheck)
    refine ⟨t, ht, hl.reply, fun x hx => ?_⟩
    rw [hl.stages, Hw.setBlock_stages] at hx
    exact Hw.unstaged_key _ hx

end Sys2Proof.Machine
end

section
/-!
PROOFS. What every step keeps (R25, R35): the queue behind the command, one memory per die in canonical form, and 0 at every address
without storage. Each follows from what every answer is made of (`State.Reach`).
-/
namespace Sys2Proof.Machine

/-! ### Steps -/

/-- A step is reached from the state whose command in front is gone. -/
theorem step_reach {s t : State} (h : step s = .next t) : State.Reach { s with pending := s.pending.tail } t := by
  obtain ⟨pending, mems, hw⟩ := s
  cases pending with
  | nil => exact State.reach_onPkg h
  | cons c cs => exact exec_reach h

/-- Settles O1: the front command is taken off the queue and carried out with the rest. -/
theorem stepRunsFrontCommand : Obligations.StepRunsFrontCommand := fun _ _ => rfl

/-- One clock cycle is 2 ns, whether the time bases run or are held. -/
theorem Hw.tick_clk (h : Hw) (k : Nat) : (h.tick k).clk = h.clk + 2 * k := by
  unfold Hw.tick
  split <;> rfl

/-- Settles O2: the tick of one cycle is the step's whole effect. -/
theorem stepOnEmptyQueueTicks : Obligations.StepOnEmptyQueueTicks := by
  intro s he
  have hs : step s = s.onPkg fun _ h => h.tick 1 := by simp [step, he]
  refine ⟨_, hs, s.begun.tick_clk 1, State.within_onPkg (s.onPkg_next _) fun _ h => ?_⟩
  exact (h.tick_only 1).mono (by decide)

/-- Settles O4: the memories of reset list no byte. -/
theorem resetHasTheInvariant : Obligations.ResetHasTheInvariant := ⟨rfl, rfl, rfl, rfl⟩

/-- Settles O5: every step's effect is made of stores and losses, which keep the canonical form. -/
theorem everyStepKeepsTheInvariant : Obligations.EveryStepKeepsTheInvariant := fun _ _ hi h => (step_reach h).inv hi

/-- Settles O6: effects on the record and changes of the outputs leave the queue. -/
theorem commandsLeaveTheQueue : Obligations.CommandsLeaveTheQueue := fun _ _ _ h => (exec_reach h).pending

/-! ### Addresses without storage -/

/-- A memory in canonical form that reads 0 wherever no storage is. -/
def Memory.Sound (m : List Host.Cell) : Prop := Memory.wf m = true ∧ ∀ a, stored a = false → memRead m a = 0

theorem Memory.sorted_of_wf {m : List Host.Cell} (h : Memory.wf m = true) : memSorted 0 m = true := by
  simp only [Memory.wf, Bool.and_eq_true] at h
  exact h.1

/-- Cells taken out of a memory leave every 0 that it reads. -/
theorem memRead_filter_of_zero {m : List Host.Cell} {lo a : Nat} (p : Host.Cell → Bool) (hm : memSorted lo m = true)
    (h : memRead m a = 0) : memRead (m.filter p) a = 0 := by
  induction m generalizing lo with
  | nil => rfl
  | cons c m ih =>
    obtain ⟨b, w⟩ := c
    simp only [memSorted, Bool.and_eq_true, decide_eq_true_eq] at hm
    by_cases hab : a < b + 1
    · have hrest : memRead (m.filter p) a = 0 := memRead_below (memSorted_clear p hm.2) hab
      by_cases hp : p (b, w) = true
      · simp only [memRead, List.filter_cons_of_pos hp, hrest] at h ⊢
        grind
      · rwa [List.filter_cons_of_neg hp]
    · have hne : ¬ a < b ∧ a ≠ b := by omega
      have hrest : memRead (m.filter p) a = 0 := ih hm.2 (by simpa [memRead, hne] using h)
      by_cases hp : p (b, w) = true
      · simp [List.filter_cons_of_pos hp, memRead, hne, hrest]
      · rwa [List.filter_cons_of_neg hp]

theorem Memory.Sound.store {m : List Host.Cell} (h : Memory.Sound m) (a : Nat) (bs : List Byte) : Memory.Sound (memStore m a bs) :=
  ⟨Memory.wf_store a bs h.1, fun x hx =>
    ((memRead_store_unstored a bs hx).resolve_right (by simp [Memory.sorted_of_wf h.1])).trans (h.2 x hx)⟩

theorem Memory.Sound.clear {m : List Host.Cell} (h : Memory.Sound m) (lo hi : Nat) : Memory.Sound (memClear m lo hi) :=
  ⟨Memory.wf_clear lo hi h.1, fun x hx => memRead_filter_of_zero _ (Memory.sorted_of_wf h.1) (h.2 x hx)⟩

/-- Every die's memory is sound. -/
def MemsSound (ms : List (List Host.Cell)) : Prop := ∀ m ∈ ms, Memory.Sound m

/-- The memory read for a die is one of the package, or the empty one of a die outside it. -/
theorem getD_mem_or_nil (ms : List (List Host.Cell)) (d : Nat) : ms.getD d [] ∈ ms ∨ ms.getD d [] = [] := by
  rw [List.getD_eq_getElem?_getD]
  cases hd : ms[d]? with
  | none => exact .inr rfl
  | some m => exact .inl (List.mem_of_getElem? hd)

theorem memsSound_iff {ms : List (List Host.Cell)} :
    MemsSound ms ↔ ms.all Memory.wf = true ∧ ∀ d a, stored a = false → memRead (ms.getD d []) a = 0 := by
  constructor
  · intro h
    refine ⟨List.all_eq_true.2 fun m hm => (h m hm).1, fun d a ha => ?_⟩
    rcases getD_mem_or_nil ms d with hm | hm
    · exact (h _ hm).2 a ha
    · rw [hm]
      rfl
  · rintro ⟨hwf, hz⟩ m hm
    obtain ⟨d, hd⟩ := List.mem_iff_getElem?.1 hm
    have hget : ms.getD d [] = m := by rw [List.getD_eq_getElem?_getD, hd, Option.getD_some]
    exact ⟨List.all_eq_true.1 hwf _ hm, fun a ha => hget ▸ hz d a ha⟩

theorem MemsSound.modify {ms : List (List Host.Cell)} (h : MemsSound ms) (d : Nat) {f : List Host.Cell → List Host.Cell}
    (hf : ∀ m, Memory.Sound m → Memory.Sound (f m)) : MemsSound (ms.modify d f) := by
  induction ms generalizing d with
  | nil => simpa using h
  | cons m ms ih =>
    obtain ⟨hm, hms⟩ := List.forall_mem_cons.1 h
    cases d with
    | zero => exact List.forall_mem_cons.2 ⟨hf m hm, hms⟩
    | succ d => exact List.forall_mem_cons.2 ⟨hm, ih hms d⟩

theorem MemsSound.applyStores {ms : List (List Host.Cell)} (h : MemsSound ms) (l : List (Nat × Nat × List Byte)) :
    MemsSound (applyStores ms l) := by
  induction l generalizing ms with
  | nil => exact h
  | cons x l ih => exact ih (h.modify _ fun _ hm => hm.store ..)

theorem MemsSound.applyWipes {ms : List (List Host.Cell)} (h : MemsSound ms) (l : List (Nat × Nat × Nat)) :
    MemsSound (applyWipes ms l) := by
  induction l generalizing ms with
  | nil => exact h
  | cons x l ih => exact ih (h.modify _ fun _ hm => hm.clear ..)

theorem State.Reach.memsSound {s t : State} (h : s.Reach t) (hs : MemsSound s.mems) : MemsSound t.mems := by
  induction h with
  | refl => exact hs
  | run _ f ih => exact (ih.applyWipes _).applyStores _
  | out _ _ ih => exact ih

/-- Settles O9: reset lists no byte; every effect is made of stores, which reach no address without storage, and of losses. -/
theorem addressesWithoutStorageStayZero : Obligations.AddressesWithoutStorageStayZero := by
  have hreset : MemsSound State.reset.mems := fun m hm => by
    rw [List.eq_of_mem_replicate hm]
    exact ⟨rfl, fun _ _ => rfl⟩
  refine ⟨(memsSound_iff.1 hreset).2, ?_⟩
  rintro c s t ⟨-, hwf, -, -⟩ hz h
  exact (memsSound_iff.1 ((exec_reach h).memsSound (memsSound_iff.2 ⟨hwf, hz⟩))).2

end Sys2Proof.Machine
end

section
/-!
PROOFS. The frame that CMP_ARM does not keep (R136, R137, R400, R401). A late CMP_ARM that fires at once gives a trigger to the pulse
outputs of its mask; one that lands in the delay of an earlier trigger is queued behind it, in the die's record of pulses, which the
frame of CMP_ARM does not name.
-/
namespace Sys2Proof.Machine

/-- A running package whose output 0 of die 0 is TRIGGERED and still holds the delay of an earlier trigger. -/
def triggerPending : State :=
  { State.reset with hw := { (Hw.reset.wr 0 A.po_mode 0 3).wr 0 A.po_state 0 2 with
      mode := .hosted, porst := false, dies := Hw.reset.dies.map fun D => { D with up := true } } }

/-- CMP_ARM of unit 0 of die 0 at position 0, where the web stands, with output 0 and LATE_OK: the unit fires at once. -/
def cmpArmLate : Instr := .cmpArm ⟨0, .slot 0 0 0, 7⟩ 0 1 false false false true 0 0

/-- The late compare event's trigger is queued behind the earlier one. -/
theorem cmpArmLate_queues_pulse {t : State} (h : exec cmpArmLate triggerPending = .next t) :
    (triggerPending.hw.die 0).pulses.map (·.later.length) = [0, 0, 0, 0, 0, 0, 0, 0] ∧
      (t.hw.die 0).pulses.map (·.later.length) = [1, 0, 0, 0, 0, 0, 0, 0] := by
  injection h with h
  subst h
  decide

/-- Refutes O7: CMP_ARM's frame names no pulses, yet a unit that fires at once queues a pulse of its output. -/
theorem not_everyCommandStaysInItsFrame : ¬ Obligations.EveryCommandStaysInItsFrame := by
  intro H
  obtain ⟨t, ht⟩ : ∃ t, exec cmpArmLate triggerPending = .next t := ⟨_, rfl⟩
  have hframe := (H cmpArmLate _ _ t rfl ht).hw.die 0 .pulses (by decide)
  obtain ⟨hbefore, hafter⟩ := cmpArmLate_queues_pulse ht
  simp only [DieRec.same] at hframe
  rw [hframe, hbefore] at hafter
  exact absurd hafter (by decide)

end Sys2Proof.Machine
end

section
/-!
PROOFS. The events of the host ports and of the ITV and Ethernet links (chapter 14): what each operation of a port leaves in the
attributes and the link record, and from that what each event answers.
-/
namespace Sys2Proof.Machine

/-! ### Reading through a frame -/

variable {C : List Nat} {F : List DieRec} {G : List HwRec} {h h' : Hw} {s t : State}

/-- A register outside a frame reads as before. -/
theorem Hw.Only.read (K : Hw.Only C F G h h') (a : AttrId) (ha : 0 ∉ C ∧ a.cls ∉ C ∧ a.code ∉ C) (e i : Nat) :
    h'.rd e a i = h.rd e a i := K.rd e a i ha.1 ha.2.1 ha.2.2

/-- The link records are those of before where neither the ITV ports nor the tunnels are in the frame. -/
theorem Hw.Only.link (K : Hw.Only C F G h h') (hF : .itv ∉ F) (hG : .tunnels ∉ G) (l : Nat) : h'.link l = h.link l := by
  have hi : (h'.die l).itv = (h.die l).itv := K.die l .itv hF
  have ht : h'.tunnels = h.tunnels := K.hw .tunnels hG
  simp only [Hw.link, hi, ht]

/-- A step whose frame names neither stores nor losses leaves every memory. -/
theorem State.Within.sameMem (W : s.Within C F G t) (hG : .stores ∉ G ∧ .wipes ∉ G := by decide) : s.SameMem t := W.mem hG.1 hG.2

/-- A counter of 32 bits goes up by one and wraps (assumption log 6). -/
theorem Hw.rd_add_wrap32 (h : Hw) (d : Nat) {a : AttrId} {i : Nat} (hw : (attrRow? a.cls i a.id).map (·.width) = some 32) :
    (h.add d a i).rd d a i = (h.rd d a i + 1) % 2 ^ 32 := by
  rw [Hw.rd_add_self, hw]
  rfl

/-! ### The PCIe endpoints (R36, R428, R438, R544) -/

theorem flr_count_width : ∀ ep < 2, (attrRow? A.flr_count.cls ep A.flr_count.id).map (·.width) = some 32 := by decide
theorem bar_rejects_width : ∀ ep < 2, (attrRow? A.bar_rejects.cls ep A.bar_rejects.id).map (·.width) = some 32 := by decide

theorem Hw.rd_flr_msixEn (h : Hw) (ep : Nat) : (h.flr ep).rd 0 A.msix_en ep = 0 := by simp [Hw.flr]

theorem Hw.rd_flr_count (h : Hw) {ep : Nat} (he : ep < 2) :
    (h.flr ep).rd 0 A.flr_count ep = (h.rd 0 A.flr_count ep + 1) % 2 ^ 32 := by
  unfold Hw.flr
  rw [Hw.rd_event _ _ _ _ _ _ (by decide), Hw.rd_add_wrap32 _ _ (flr_count_width ep he), Hw.rd_wr_ne _ (by decide)]
  rfl

theorem Hw.eps_flr (h : Hw) {ep : Nat} (he : ep < h.eps.length) :
    (h.flr ep).eps.getD ep Endpoint.reset = { Endpoint.reset with msixPending := (h.eps.getD ep Endpoint.reset).msixPending } := by
  simp [Hw.flr, Hw.add, List.getD_eq_getElem?_getD, he]

/-- Both causes of a hot reset act alike. -/
theorem exec_flr {ep : Nat} (hd : 0 < s.hw.dies.length) (he : ep < 2) (i : Instr) (hi : i ∈ [Instr.pcieFlr ep, Instr.perstLLow ep]) :
    exec i s = .next (s.run fun _ h => h.flr ep) := by
  simp only [List.mem_cons, List.not_mem_nil, or_false] at hi
  rcases hi with rfl | rfl <;> exact s.onUnit_next _ hd he

theorem State.run_flr_sameMem (s : State) (ep : Nat) : s.SameMem (s.run fun _ h => h.flr ep) :=
  (State.within_run (C := [0x1F, A.msix_en.code, A.flr_count.code]) (F := [.front, .buckets, .folded]) (G := [.eps])
    fun _ h => (h.flr_only ep).mono (by decide)).sameMem

theorem Hw.msixFlush_pending (h : Hw) {ep : Nat} (hl : h.rd 0 A.pcie_link ep = 1) (hm : h.rd 0 A.msix_en ep = 1)
    (he : ep < h.eps.length) : ((h.msixFlush ep).eps.getD ep Endpoint.reset).msixPending = 0 := by
  have hfold : ∀ (l : List Nat) (k : Hw), (l.foldl (fun h v => h.emit (.msix ep v)) k).eps = k.eps := fun l => by
    induction l with
    | nil => exact fun _ => rfl
    | cons v l ih => exact fun k => ih _
  unfold Hw.msixFlush
  rw [if_pos ⟨hl, hm⟩]
  simp [hfold, List.getD_eq_getElem?_getD, he]

/-! ### Power states and states of an ITV port (R413, R418, R419) -/

@[simp] theorem Hw.rd_itvPm_tx (h : Hw) (d new : Nat) : (h.itvPm d 0 new).rd d A.tx_pm 0 = new := by
  simp only [Hw.itvPm, ↓reduceIte]
  split
  · assumption
  · simp

@[simp] theorem Hw.rd_itvPm_rx (h : Hw) (d new : Nat) : (h.itvPm d 1 new).rd d A.rx_pm 0 = new := by
  simp only [Hw.itvPm, Nat.one_ne_zero, ↓reduceIte]
  split
  · assumption
  · simp

/-- The receive direction leaves the transmit direction. -/
@[simp] theorem Hw.rd_itvPm_rx_tx (h : Hw) (d new e i : Nat) : (h.itvPm d 1 new).rd e A.tx_pm i = h.rd e A.tx_pm i := by
  simp only [Hw.itvPm, Nat.one_ne_zero, ↓reduceIte]
  split
  · rfl
  · simp

@[simp] theorem Hw.itvPm_out (h : Hw) (d dir new : Nat) : (h.itvPm d dir new).out = h.out :=
  (h.itvPm_only d dir new).hw .out (by decide)

@[simp] theorem Hw.itvPm_dies_length (h : Hw) (d dir new : Nat) : (h.itvPm d dir new).dies.length = h.dies.length :=
  (h.itvPm_only d dir new).len

theorem Hw.rd_itvTo (h : Hw) (d new : Nat) : (h.itvTo d new).rd d A.itv_state 0 = new := by
  unfold Hw.itvTo
  dsimp only
  split
  · assumption
  · simp

/-- A training that begins: TRAINING at step 1. -/
theorem Hw.rd_itvTo_step (h : Hw) (d new step : Nat) : ((h.itvTo d new).wr d A.train_step 0 step).rd d A.itv_state 0 = new := by
  rw [Hw.rd_wr_ne _ (by decide), Hw.rd_itvTo]

@[simp] theorem Hw.rd_itvTrain_state (h : Hw) (d : Nat) : (h.itvTrain d).rd d A.itv_state 0 = 1 := Hw.rd_itvTo_step ..
@[simp] theorem Hw.rd_itvTrain_step (h : Hw) (d : Nat) : (h.itvTrain d).rd d A.train_step 0 = 1 := Hw.rd_wr_self ..

/-! ### Replay (R416) -/

theorem Hw.rd_linkReplay (h : Hw) {l : Nat} (hl : l < 8) (hu : (h.link l).unacked ≠ []) :
    (h.linkReplay l).rd l A.replays 0 = (h.rd l A.replays 0 + 1) % 2 ^ 32 := by
  -- what follows the count leaves it
  have hcount : ∀ f, ((h.linkAdd l A.replays).onLink l f).rd l A.replays 0 = (h.rd l A.replays 0 + 1) % 2 ^ 32 := fun f => by
    rw [(Hw.onLink_only ..).read A.replays (by decide), Hw.linkAdd, if_pos hl]
    exact h.rd_add_wrap32 l (by decide)
  unfold Hw.linkReplay
  simp only [List.isEmpty_iff, hu, if_false, hl, if_true]
  split
  · rw [(Hw.itvTrain_only ..).read A.replays (by decide), Hw.rd_event _ _ _ _ _ _ (by decide),
      (Hw.onLink_only ..).read A.replays (by decide), hcount]
  · rw [← hcount]
    exact (Hw.Only.foldl (.refl ..) (fun k f => k.linkOut_only l f) _).read A.replays (by decide) ..

/-! ### Training (R411 to R413) -/

theorem execItvTrainingStart_trains {die : Nat} (hd : die < s.hw.dies.length) (he : s.hw.rd die A.itv_enable 0 ≠ 0) :
    ∃ t, execItvTrainingStart die s = .next t ∧ s.SameMem t ∧ t.hw.rd die A.itv_state 0 = 1 ∧ t.hw.rd die A.train_step 0 = 1 := by
  have hn : execItvTrainingStart die s = .next (s.run _) := s.onDie_next _ hd
  refine ⟨_, hn, (execItvTrainingStart_within _ _ hn).sameMem, ?_⟩
  simp only [State.run_rd, State.rd_begun, he, if_false]
  split
  · exact ⟨Hw.rd_itvTo_step .., Hw.rd_wr_self ..⟩
  · exact ⟨Hw.rd_itvTrain_state .., Hw.rd_itvTrain_step ..⟩

/-- Steps 1, 2, 3 in either order of the lanes and 5 lead to the next one. -/
theorem Hw.rd_itvStepDone (h : Hw) (d : Nat) (r : TrainResult)
    (hs : h.rd d A.train_step 0 = 1 ∨ h.rd d A.train_step 0 = 2 ∨ h.rd d A.train_step 0 = 5 ∨
      (h.rd d A.train_step 0 = 3 ∧ (r.order = List.range 8 ∨ r.order = (List.range 8).reverse))) :
    (h.itvStepDone d r).rd d A.train_step 0 = h.rd d A.train_step 0 + 1 := by
  rcases hs with hs | hs | hs | ⟨hs, ho⟩ <;> simp only [Hw.itvStepDone, hs]
  · simp
  · simp
  · simp
  · rw [if_pos ho, Hw.rd_wr_self]

theorem Hw.rd_itvFail_count (h : Hw) (d : Nat) :
    (h.itvFail d).rd d A.train_fails 0 = (h.rd d A.train_fails 0 + 1) % 2 ^ 32 := by
  rw [← h.rd_add_wrap32 d (a := A.train_fails) (i := 0) (by decide)]
  unfold Hw.itvFail
  dsimp only
  split
  · simp
  · split
    · simp
    · rw [(Hw.itvTo_only ..).read A.train_fails (by decide)]
      simp

/-- The first two failures in a row try again from step 1, in the state that the port is in. -/
theorem Hw.rd_itvFail_again (h : Hw) {d : Nat} (hf : (h.die d).itv.failRun + 1 < 3) :
    (h.itvFail d).rd d A.train_step 0 = 1 ∧ (h.itvFail d).rd d A.itv_state 0 = h.rd d A.itv_state 0 := by
  simp [Hw.itvFail, hf]

/-- The third failure at ITV-1 leaves the port DOWN. -/
theorem Hw.rd_itvFail_down (h : Hw) {d : Nat} (hf : 3 ≤ (h.die d).itv.failRun + 1) (hg : (h.die d).itv.gen ≤ 1) :
    (h.itvFail d).rd d A.itv_state 0 = 3 := by
  simp only [Hw.itvFail, Nat.not_lt.2 hf, Nat.not_lt.2 hg, if_false]
  exact Hw.rd_itvTo ..

/-! ### Sleep (R418, R419) -/

/-- Both directions enter DEEP. -/
theorem Hw.rd_itvDeep (h : Hw) (d : Nat) : (h.itvDeep d).rd d A.tx_pm 0 = 2 ∧ (h.itvDeep d).rd d A.rx_pm 0 = 2 := by
  simp [Hw.itvDeep]

/-! ### Eye figures (R420, R421) -/

/-- The settling of deferral records leaves every ITV port. -/
theorem Hw.itv_foldl_settle (h : Hw) (l : List (Nat × Nat)) (e : Nat) :
    ((l.foldl (fun h w => h.settle w.1 0) h).die e).itv = (h.die e).itv := by
  have K : Hw.Only [] [.mbx] [.pkg] h (l.foldl (fun h w => h.settle w.1 0) h) := .foldl (.refl ..) (fun k w => k.settle_only w.1 0) l
  exact K.die e .itv (by decide)

/-- An update of a die that leaves the times of the lanes' figures. -/
theorem Hw.eyeAt_onDie (h : Hw) (d : Nat) (f : Die → Die) (hf : ∀ D, (f D).itv.eyeAt = D.itv.eyeAt) (e : Nat) :
    ((h.onDie d f).die e).itv.eyeAt = (h.die e).itv.eyeAt := h.die_onDie_field d f (·.itv.eyeAt) hf e

/-! ### The events -/

theorem execUnmappedRead_rejected {ep bar addr : Nat} (hd : 0 < s.hw.dies.length) (he : ep < 2) :
    ∃ t, execUnmappedRead ep bar addr s = .next t ∧ s.SameMem t ∧ t.hw.out = [.read 0] ∧
      t.hw.rd 0 A.bar_rejects ep = (s.hw.rd 0 A.bar_rejects ep + 1) % 2 ^ 32 := by
  have hn : execUnmappedRead ep bar addr s = .next (s.run _) := s.onUnit_next _ hd he
  refine ⟨_, hn, (execUnmappedRead_within _ _ _ _ hn).sameMem, ?_, ?_⟩
  · rw [State.run_out]
    exact (Hw.barReject_only ..).hw .out (by decide)
  · rw [State.run_rd, Hw.barReject, Hw.rd_event _ _ _ _ _ _ (by decide), (Hw.seeSource_only ..).read A.bar_rejects (by decide),
      Hw.rd_add_wrap32 _ _ (bar_rejects_width ep he)]
    rfl


theorem execItvTrainFail_counted {die : Nat} (hd : die < s.hw.dies.length) (hs : s.hw.rd die A.itv_state 0 = 1) :
    ∃ t, execItvTrainFail die s = .next t ∧ s.SameMem t ∧
      t.hw.rd die A.train_fails 0 = (s.hw.rd die A.train_fails 0 + 1) % 2 ^ 32 ∧
      ((s.hw.die die).itv.failRun + 1 < 3 → t.hw.rd die A.train_step 0 = 1 ∧ t.hw.rd die A.itv_state 0 = 1) ∧
      (3 ≤ (s.hw.die die).itv.failRun + 1 → (s.hw.die die).itv.gen ≤ 1 → t.hw.rd die A.itv_state 0 = 3) := by
  have hn : execItvTrainFail die s = .next (s.run _) := s.onDie_next _ hd
  refine ⟨_, hn, (execItvTrainFail_within _ _ hn).sameMem, ?_⟩
  simp only [State.run_rd, State.rd_begun, hs, if_true]
  refine ⟨s.begun.rd_itvFail_count die, fun hf => ?_, fun hf hg => s.begun.rd_itvFail_down hf hg⟩
  obtain ⟨hstep, hstate⟩ := s.begun.rd_itvFail_again hf
  exact ⟨hstep, hstate.trans hs⟩

theorem execItvSleepEnter_sleeps {die : Nat} (hd : die < s.hw.dies.length) (hs : s.hw.rd die A.itv_state 0 = 2)
    (ht : s.hw.rd die A.tx_pm 0 = 0) (ha : s.hw.rd die A.sleep_after_ns 0 ≠ 0) (hq : s.hw.itvQuiet die = true) :
    ∃ t, execItvSleepEnter die s = .next t ∧ s.SameMem t ∧ t.hw.rd die A.tx_pm 0 = 1 ∧ t.hw.out = [.itvCtl die 0x33] := by
  have hn : execItvSleepEnter die s = .next (s.run _) := s.onDie_next _ hd
  have hq' : s.begun.itvQuiet die = true := hq
  refine ⟨_, hn, (execItvSleepEnter_within _ _ hn).sameMem, ?_, ?_⟩
  · simp [hs, ht, ha, hq']
  · simp only [State.run_out, State.rd_begun, hs, ht, ha, hq', ne_eq, not_false_eq_true, and_self, if_true, Hw.onDie_out,
      Hw.itvPm_out]
    rfl

theorem execItvDeepPropose_proposes {die : Nat} (hd : die < s.hw.dies.length) (hs : s.hw.rd die A.itv_state 0 = 2)
    (ht : s.hw.rd die A.tx_pm 0 = 1) (hr : s.hw.rd die A.rx_pm 0 = 1) (ha : s.hw.rd die A.deep_after_ms 0 ≠ 0)
    (hq : s.hw.itvQuiet die = true) :
    ∃ t, execItvDeepPropose die s = .next t ∧ s.SameMem t ∧ t.hw.rd die A.tx_pm 0 = 0 ∧ t.hw.out = [.itvCtl die 0x55] ∧
      (t.hw.die die).itv.proposed = true := by
  have hn : execItvDeepPropose die s = .next (s.run _) := s.onDie_next _ hd
  have hq' : s.begun.itvQuiet die = true := hq
  refine ⟨_, hn, (execItvDeepPropose_within _ _ hn).sameMem, ?_⟩
  simp only [State.run_out, State.run_rd, State.run_die, State.rd_begun, hs, ht, hr, ha, hq', ne_eq, not_false_eq_true, and_self,
    if_true]
  refine ⟨by simp, ?_, ?_⟩
  · simp only [Hw.onDie_out, Hw.emit, Hw.itvPm_out]
    rfl
  · rw [Hw.die_onDie_self]
    simpa [Hw.emit] using hd

theorem execItvPmBlockReceive_obeys {die type : Nat} (hd : die < s.hw.dies.length) (hs : s.hw.rd die A.itv_state 0 = 2) :
    ∃ t, execItvPmBlockReceive die type s = .next t ∧ s.SameMem t ∧
      (type = 0x33 → t.hw.rd die A.rx_pm 0 = 1) ∧ (type ≠ 0x33 → type ≠ 0x55 → t.hw.rd die A.rx_pm 0 = 0) ∧
      (type = 0x55 → (s.hw.die die).itv.proposed = true → t.hw.rd die A.tx_pm 0 = 2 ∧ t.hw.rd die A.rx_pm 0 = 2) := by
  have hn : execItvPmBlockReceive die type s = .next (s.run _) := s.onDie_next _ hd
  refine ⟨_, hn, (execItvPmBlockReceive_within _ _ _ hn).sameMem, ?_⟩
  simp only [State.run_rd, State.rd_begun, hs]
  refine ⟨?sleep, ?wake, ?deep⟩
  case sleep => rintro rfl; simp
  case wake => intro h33 h55; simp [h33, h55]
  case deep => rintro rfl hp; simpa [hp] using s.begun.rd_itvDeep die

theorem execItvDeepExit_trains {die : Nat} (hd : die < s.hw.dies.length) (ht : s.hw.rd die A.tx_pm 0 = 2) :
    ∃ t, execItvDeepExit die s = .next t ∧ s.SameMem t ∧ t.hw.rd die A.train_step 0 = 1 ∧ t.hw.rd die A.itv_state 0 = 1 ∧
      t.hw.rd die A.tx_pm 0 = 0 ∧ t.hw.rd die A.rx_pm 0 = 0 := by
  have hn : execItvDeepExit die s = .next (s.run _) := s.onDie_next _ hd
  refine ⟨_, hn, (execItvDeepExit_within _ _ hn).sameMem, ?_⟩
  simp only [State.run_rd, State.rd_begun, ht, if_true]
  refine ⟨Hw.rd_wr_self .., Hw.rd_itvTo_step .., ?_, ?_⟩
  · rw [Hw.rd_wr_ne _ (by decide), (Hw.itvTo_only ..).read A.tx_pm (by decide), Hw.rd_itvPm_rx_tx, Hw.rd_itvPm_tx]
  · rw [Hw.rd_wr_ne _ (by decide), (Hw.itvTo_only ..).read A.rx_pm (by decide), Hw.rd_itvPm_rx]

theorem execEyeScanComplete_stamped {die lane width height : Nat} (hd : die < s.hw.dies.length) (hl : lane < 8) :
    ∃ t, execEyeScanComplete die lane width height s = .next t ∧ s.SameMem t ∧
      (lane < (s.hw.die die).itv.eyeAt.length → (t.hw.die die).itv.eyeAt.getD lane 0 = s.hw.tb die 1) := by
  have hn : execEyeScanComplete die lane width height s = .next (s.run _) := s.onUnit_next _ hd hl
  refine ⟨_, hn, (execEyeScanComplete_within _ _ _ _ _ hn).sameMem, fun hlen => ?_⟩
  rw [State.run_die]
  extract_lets blocks timed oldest low was recorded judged done settled
  have htimed : (timed.die die).itv.eyeAt = (s.hw.die die).itv.eyeAt.set lane (s.hw.tb die 1) :=
    congrArg (·.itv.eyeAt) (Hw.die_onDie_self blocks _ hd)
  have hrecorded : (recorded.die die).itv = (timed.die die).itv := by
    simp only [recorded]
    split
    · exact Hw.event_die_itv ..
    · rfl
  have hjudged : (judged.die die).itv.eyeAt = (recorded.die die).itv.eyeAt :=
    recorded.eyeAt_onDie die _ (by intro _; rfl) die
  have hsettled : (settled.die die).itv = (judged.die die).itv := judged.itv_foldl_settle done die
  have heye : (settled.die die).itv.eyeAt = (s.hw.die die).itv.eyeAt.set lane (s.hw.tb die 1) := by
    rw [hsettled, hjudged, hrecorded, htimed]
  rw [Hw.eyeAt_onDie, heye]
  · simp [List.getD_eq_getElem?_getD, hlen]
  · exact fun _ => rfl

theorem execEthLinkChange_set {die port : Nat} {up : Bool} (hd : die < s.hw.dies.length) (hp : port < 2) :
    ∃ t, execEthLinkChange die port up s = .next t ∧ s.SameMem t ∧
      t.hw.rd die A.link_up port = (if up = true ∧ s.hw.rd die A.eth_enable port = 1 then 1 else 0) := by
  have hn : execEthLinkChange die port up s = .next (s.run _) := s.onUnit_next _ hd hp
  refine ⟨_, hn, (execEthLinkChange_within _ _ _ _ hn).sameMem, ?_⟩
  have hb : (if up = true ∧ s.hw.rd die A.eth_enable port = 1 then 1 else 0) = b2n (up && s.hw.rd die A.eth_enable port == 1) := by
    simp [b2n]
  rw [hb, State.run_rd]
  dsimp only
  split
  · assumption
  · simp

/-- Settles O13, by what each operation of an endpoint or a port leaves. -/
theorem linkEventsComplete : Obligations.LinkEventsComplete := by
  unfold Obligations.LinkEventsComplete
  refine ⟨?flr, ?msixEnable, ?linkChange, fun s ep bar addr hd he => execUnmappedRead_rejected hd he, ?ackTimeout,
    fun s die hd he => execItvTrainingStart_trains hd he, ?stepDone, fun s die hd hs => execItvTrainFail_counted hd hs, ?retry,
    fun s die hd hs ht ha hq => execItvSleepEnter_sleeps hd hs ht ha hq,
    fun s die hd hs ht hr ha hq => execItvDeepPropose_proposes hd hs ht hr ha hq,
    fun s die type hd hs => execItvPmBlockReceive_obeys hd hs, fun s die hd ht => execItvDeepExit_trains hd ht,
    fun s die lane width height hd hl _ => execEyeScanComplete_stamped hd hl, fun s die port up hd hp => execEthLinkChange_set hd hp⟩
  case flr =>
    intro s ep hd he i hi
    have hn := exec_flr hd he i hi
    refine ⟨_, hn, s.run_flr_sameMem ep, s.begun.rd_flr_msixEn ep,
      s.begun.rd_flr_count he, fun hep => ?_⟩
    rw [State.run_eps, s.begun.eps_flr hep]
    exact ⟨rfl, rfl⟩
  case msixEnable =>
    intro s ep on hd he
    have hn : execMsixEnableWrite ep on s = .next (s.run _) := s.onUnit_next _ hd he
    refine ⟨_, hn, (execMsixEnableWrite_within _ _ _ hn).sameMem, ?_, fun hon hl hep => ?_⟩
    · rw [State.run_rd, (Hw.msixFlush_only ..).read A.msix_en (by decide), Hw.rd_wr_self]
    · subst hon
      exact Hw.msixFlush_pending _ ((Hw.rd_wr_ne _ (by decide) ..).trans hl) (Hw.rd_wr_self ..) hep
  case linkChange =>
    intro s ep gen width hd he
    have hn : execPcieLinkChange ep gen width s = .next (s.run _) := s.onUnit_next _ hd he
    refine ⟨_, hn, (execPcieLinkChange_within _ _ _ _ hn).sameMem, ?_⟩
    simp only [State.run_rd, (Hw.msixFlush_only ..).read A.pcie_gen (by decide), (Hw.msixFlush_only ..).read A.pcie_link (by decide),
      (Hw.msixFlush_only ..).read A.pcie_width (by decide)]
    simp [b2n]
  case ackTimeout =>
    intro s link hd hl hu
    have hn : execItvAckTimeout link s = .next (s.run _) := s.onUnit_next _ (Nat.zero_lt_of_lt hd) (Nat.lt_trans hl (by decide))
    exact ⟨_, hn, (execItvAckTimeout_within _ _ hn).sameMem, s.begun.rd_linkReplay hl hu⟩
  case stepDone =>
    intro s die res hd hs hstep
    have hn : execItvTrainStepDone die res s = .next (s.run _) := s.onDie_next _ hd
    refine ⟨_, hn, (execItvTrainStepDone_within _ _ _ hn).sameMem, ?_⟩
    simp only [State.run_rd, State.rd_begun, hs, if_true]
    exact s.begun.rd_itvStepDone die res hstep
  case retry =>
    intro s die hd hs
    have hn : execItvRetry die s = .next (s.run _) := s.onDie_next _ hd
    refine ⟨_, hn, (execItvRetry_within _ _ hn).sameMem, ?_⟩
    simp [hs]

end Sys2Proof.Machine
end

section
/-!
PROOFS. The link and system commands and the frames of a link (chapter 14): the link record at its receiver, enumeration, the servo's
first sample, and from them what each row answers.
-/
namespace Sys2Proof.Machine

variable {s : State} {h h' : Hw}

/-! ### ITV_CTRL and ITV_EYE (R39, R421, R440) -/

/-- The class 0x19 commands are executed by the die that they name (R18). -/
theorem execDie_itvCtrl (h : Hw) (q : Hdr) : h.execDie q 0x0C01 (opObj 0x0C01 0) = q.die := h.execDie_own q (by decide)
theorem execDie_itvEye (h : Hw) (q : Hdr) : h.execDie q 0x0C02 (opObj 0x0C02 0) = q.die := h.execDie_own q (by decide)

theorem execItvEnable_trains {h : Hdr} (hA : s.Admits h 0x0C01 (opObj 0x0C01 0)) (he : s.hw.rd h.die A.itv_enable 0 ≠ 1) :
    ∃ t, execItvEnable h s = .next t ∧ s.SameMem t ∧ t.replyOf h = some .ok ∧
      t.hw.rd h.die A.itv_enable 0 = 1 ∧ t.hw.rd h.die A.itv_state 0 = 1 ∧ t.hw.rd h.die A.train_step 0 = 1 := by
  obtain ⟨t, hn, hl⟩ := State.command_leaves hA
    (body := fun _ d hw => if hw.rd d A.itv_enable 0 = 1 then refuse .state hw else okWith ((hw.wr d A.itv_enable 0 1).itvTrain d))
    (w := okWith (((s.atWork h).wr h.die A.itv_enable 0 1).itvTrain h.die)) (by rw [execDie_itvCtrl]; exact if_neg he)
  refine ⟨t, hn, (execItvEnable_within _ _ hn).sameMem, hl.reply, ?_, ?_, ?_⟩ <;> rw [hl.rd _ _ _ (by decide) (by decide)]
  · exact ((Hw.itvTrain_only ..).read A.itv_enable (by decide) ..).trans (Hw.rd_wr_self ..)
  · exact Hw.rd_itvTrain_state ..
  · exact Hw.rd_itvTrain_step ..

/-- What ITV_CTRL DISABLE leaves of a port (R440). -/
def Hw.itvOff (h : Hw) (d : Nat) : Hw :=
  (((((h.onDie d fun D => { D with itv := { eyeLow := D.itv.eyeLow, eyeAt := D.itv.eyeAt } }).wr d A.itv_enable 0 0).wr d
    A.train_step 0 0).itvTo d 0).itvPm d 0 0).itvPm d 1 0

theorem Hw.rd_itvOff (h : Hw) (d : Nat) : (h.itvOff d).rd d A.itv_enable 0 = 0 ∧ (h.itvOff d).rd d A.itv_state 0 = 0 ∧
    (h.itvOff d).rd d A.train_step 0 = 0 := by
  refine ⟨?_, ?_, ?_⟩ <;> unfold Hw.itvOff
  · rw [(Hw.itvPm_only ..).read A.itv_enable (by decide), (Hw.itvPm_only ..).read A.itv_enable (by decide),
      (Hw.itvTo_only ..).read A.itv_enable (by decide), Hw.rd_wr_ne _ (by decide), Hw.rd_wr_self]
  · rw [(Hw.itvPm_only ..).read A.itv_state (by decide), (Hw.itvPm_only ..).read A.itv_state (by decide), Hw.rd_itvTo]
  · rw [(Hw.itvPm_only ..).read A.train_step (by decide), (Hw.itvPm_only ..).read A.train_step (by decide),
      (Hw.itvTo_only ..).read A.train_step (by decide), Hw.rd_wr_self]

theorem execItvDisable_stops {h : Hdr} (hA : s.Admits h 0x0C01 (opObj 0x0C01 0)) (he : s.hw.rd h.die A.itv_enable 0 ≠ 0) :
    ∃ t, execItvDisable h s = .next t ∧ s.SameMem t ∧ t.replyOf h = some .ok ∧
      t.hw.rd h.die A.itv_enable 0 = 0 ∧ t.hw.rd h.die A.itv_state 0 = 0 ∧ t.hw.rd h.die A.train_step 0 = 0 := by
  obtain ⟨t, hn, hl⟩ := State.command_leaves hA
    (body := fun _ d hw => if hw.rd d A.itv_enable 0 = 0 then refuse .state hw else okWith (hw.itvOff d))
    (w := okWith ((s.atWork h).itvOff h.die)) (by rw [execDie_itvCtrl]; exact if_neg he)
  obtain ⟨henable, hstate, hstep⟩ := (s.atWork h).rd_itvOff h.die
  refine ⟨t, hn, (execItvDisable_within _ _ hn).sameMem, hl.reply, ?_, ?_, ?_⟩ <;> rw [hl.rd _ _ _ (by decide) (by decide)]
  · exact henable
  · exact hstate
  · exact hstep

theorem execItvRetrain_trains {h : Hdr} (hA : s.Admits h 0x0C01 (opObj 0x0C01 0)) (he : s.hw.rd h.die A.itv_enable 0 ≠ 0) :
    ∃ t, execItvRetrain h s = .next t ∧ s.SameMem t ∧ t.replyOf h = some .ok ∧
      t.hw.rd h.die A.itv_state 0 = 1 ∧ t.hw.rd h.die A.train_step 0 = 1 := by
  obtain ⟨t, hn, hl⟩ := State.command_leaves hA
    (body := fun _ d hw => if hw.rd d A.itv_enable 0 = 0 then refuse .state hw else okWith (hw.itvTrain d))
    (w := okWith ((s.atWork h).itvTrain h.die)) (by rw [execDie_itvCtrl]; exact if_neg he)
  refine ⟨t, hn, (execItvRetrain_within _ _ hn).sameMem, hl.reply, ?_, ?_⟩ <;> rw [hl.rd _ _ _ (by decide) (by decide)]
  · exact Hw.rd_itvTrain_state ..
  · exact Hw.rd_itvTrain_step ..

theorem execItvEyeRead_replies {h : Hdr} {lanes : Nat} (hA : s.Admits h 0x0C02 (opObj 0x0C02 0)) (hs : s.hw.rd h.die A.itv_state 0 = 2) :
    ∃ t, execItvEyeRead h lanes s = .next t ∧ s.SameMem t ∧ t.replyOf h = some (.words (((List.range 8).map fun i =>
        if bit lanes i then s.hw.blkNum h.die A.eye_height 0 (2 * i) 2 * 2 ^ 16 + s.hw.blkNum h.die A.eye_width 0 (2 * i) 2 else 0) ++
      words64 (s.hw.rd h.die A.eye_tb1 0))) := by
  have hup : ¬ (s.atWork h).rd h.die A.itv_state 0 ≠ 2 := Decidable.not_not.2 hs
  obtain ⟨t, hn, hl⟩ : ∃ t, execItvEyeRead h lanes s = .next t ∧ s.Leaves h _ t := State.command_leaves hA rfl
  refine ⟨t, hn, (execItvEyeRead_within _ _ _ hn).sameMem, hl.reply.trans ?_⟩
  rw [execDie_itvEye, if_neg hup]
  rfl

theorem execItvEyeMeasure_replies {h : Hdr} {lanes : Nat} (hA : s.Admits h 0x0C02 (opObj 0x0C02 0))
    (hs : s.hw.rd h.die A.itv_state 0 = 2) :
    ∃ t, execItvEyeMeasure h lanes s = .next t ∧ s.SameMem t ∧ t.statusOf h = some (if s.hw.n = 8 then .ok else .deferred) := by
  have hup : ¬ (s.atWork h).rd h.die A.itv_state 0 ≠ 2 := Decidable.not_not.2 hs
  obtain ⟨t, hn, hl⟩ : ∃ t, execItvEyeMeasure h lanes s = .next t ∧ s.Leaves h _ t := State.command_leaves hA rfl
  refine ⟨t, hn, (execItvEyeMeasure_within _ _ _ hn).sameMem, ?_⟩
  have hdies : (s.atWork h).n = s.hw.n := (s.begun.started_only h).len
  rw [State.statusOf, hl.reply, execDie_itvEye, if_neg hup, hdies]
  by_cases h8 : s.hw.n = 8
  · rw [if_pos h8, if_pos h8]
    rfl
  · rw [if_neg h8, if_neg h8]
    dsimp only
    split <;> rfl

/-! ### The system (R429 to R432) -/

/-- An enumeration is a generation of its own. -/
theorem Hw.rd_enumerate_gen (h : Hw) (fresh : Bool) :
    (h.enumerate fresh).rd 0 A.sys_gen 0 = (h.rd 0 A.sys_gen 0 + 1) % 2 ^ 32 := by
  unfold Hw.enumerate
  extract_lets role peers all nodes live missing top mine base routes pkg listed numbered counted levelled filled pkg' noted
  have hcounted : counted.rd 0 A.sys_gen 0 = (h.rd 0 A.sys_gen 0 + 1) % 2 ^ 32 := by
    rw [← show numbered.rd 0 A.sys_gen 0 = h.rd 0 A.sys_gen 0 by simp [numbered]; rfl]
    simp only [counted]
    rw [Hw.rd_add_wrap32 _ _ (by decide), Hw.rd_wr_ne _ (by decide)]
  have hlevelled : levelled.rd 0 A.sys_gen 0 = counted.rd 0 A.sys_gen 0 := by
    simp only [levelled]
    split
    · rfl
    · exact Hw.rd_wr_ne _ (by decide) ..
  have hfilled : filled.rd 0 A.sys_gen 0 = levelled.rd 0 A.sys_gen 0 := Hw.rd_add_ne _ (by decide) ..
  have hnoted : noted.rd 0 A.sys_gen 0 = filled.rd 0 A.sys_gen 0 := by
    simp only [noted]
    split
    · exact Hw.rd_eventPkg _ _ _ _ _ _ (by decide)
    · rfl
  rw [Hw.rd_eventPkg _ _ _ _ _ _ (by decide), hnoted, hfilled, hlevelled, hcounted]

/-- The role is judged before an enumeration and leaves the generation. -/
theorem Hw.rd_roleUpdate_enumerate_gen (h : Hw) (fresh : Bool) :
    (h.roleUpdate.enumerate fresh).rd 0 A.sys_gen 0 = (h.rd 0 A.sys_gen 0 + 1) % 2 ^ 32 := by
  rw [Hw.rd_enumerate_gen, h.roleUpdate_only.read A.sys_gen (by decide)]

/-- SYS_ENUM on a package that may number the system: long work, and an enumeration. -/
theorem sysEnum_enumerates (q : Hdr) (fresh : Bool) (d : Nat) {h : Hw} (hr : h.rd 0 A.sys_role 0 ≠ 2) :
    (sysEnum q fresh d h).1.status = .deferred ∧
      (sysEnum q fresh d h).2.rd 0 A.sys_gen 0 = (h.rd 0 A.sys_gen 0 + 1) % 2 ^ 32 := by
  rw [sysEnum, if_neg hr]
  refine ⟨rfl, ?_⟩
  dsimp only
  rw [(Hw.settle_only ..).read A.sys_gen (by decide), Hw.rd_roleUpdate_enumerate_gen,
    (Hw.deferWork_only ..).read A.sys_gen (by decide)]

/-- Both forms of SYS_ENUM. -/
theorem exec_sysEnum (h : Hdr) (hA : s.Admits h 0x0C03 (opObj 0x0C03 0)) (hr : s.hw.rd 0 A.sys_role 0 ≠ 2) (i : Instr)
    (hi : i ∈ [Instr.sysEnumFresh h, Instr.sysEnumKeep h]) : ∃ t, exec i s = .next t ∧ s.SameMem t ∧
      t.statusOf h = some .deferred ∧ t.hw.rd 0 A.sys_gen 0 = (s.hw.rd 0 A.sys_gen 0 + 1) % 2 ^ 32 := by
  have work : ∀ (fresh : Bool) (t : State),
      s.Leaves h (sysEnum h fresh (s.hw.execDie h 0x0C03 (opObj 0x0C03 0)) (s.atWork h)) t →
      t.statusOf h = some .deferred ∧ t.hw.rd 0 A.sys_gen 0 = (s.hw.rd 0 A.sys_gen 0 + 1) % 2 ^ 32 := fun fresh t hl => by
    obtain ⟨hstatus, hgen⟩ := sysEnum_enumerates h fresh (s.hw.execDie h 0x0C03 (opObj 0x0C03 0)) (h := s.atWork h) hr
    rw [State.statusOf, hl.reply, hl.rd _ _ _ (by decide) (by decide), hgen, Option.map_some, hstatus]
    exact ⟨rfl, rfl⟩
  simp only [List.mem_cons, List.not_mem_nil, or_false] at hi
  rcases hi with rfl | rfl
  · obtain ⟨t, hn, hl⟩ : ∃ t, execSysEnumFresh h s = .next t ∧ s.Leaves h _ t := State.command_leaves hA rfl
    exact ⟨t, hn, (execSysEnumFresh_within _ _ hn).sameMem, work true t hl⟩
  · obtain ⟨t, hn, hl⟩ : ∃ t, execSysEnumKeep h s = .next t ∧ s.Leaves h _ t := State.command_leaves hA rfl
    exact ⟨t, hn, (execSysEnumKeep_within _ _ hn).sameMem, work false t hl⟩

theorem execSysNode_names {h : Hdr} {addr : Nat} (hA : s.Admits h 0x0C04 (opObj 0x0C04 0)) :
    ∃ t, execSysNode h addr s = .next t ∧ s.SameMem t ∧ t.replyOf h = some (.words
      (match s.hw.pkg.nodes.find? fun x => x.addr = addr with
        | some x => [x.kind * 2 ^ 24 + x.die * 2 ^ 16 + x.chain * 2 ^ 8, x.driver] ++ words64 x.serial
        | none => [0, 0, 0, 0])) := by
  obtain ⟨t, hn, hl⟩ : ∃ t, execSysNode h addr s = .next t ∧ s.Leaves h _ t := State.command_leaves hA rfl
  refine ⟨t, hn, (execSysNode_within _ _ _ hn).sameMem, hl.reply.trans ?_⟩
  have hpkg : (s.atWork h).pkg = s.hw.pkg := rfl
  rw [hpkg]
  cases s.hw.pkg.nodes.find? fun x => decide (x.addr = addr) <;> rfl

/-- A package heard of over its link is among the peers, as it announces itself. -/
theorem execEnumFrame_peer {link serial priority dies lo hi : Nat} {masterEn : Bool} {chains : List Nat} (hd : 0 < s.hw.dies.length)
    (hl : link < 24) (hs : serial ≠ Config.serial) (hp : ∀ p ∈ s.hw.pkg.peers, p.serial = serial → p.link = link) :
    ∃ t, execEnumFrame link serial masterEn priority dies chains none lo hi s = .next t ∧ s.SameMem t ∧
      ∃ p ∈ t.hw.pkg.peers, p.link = link ∧ p.serial = serial ∧ p.priority = priority ∧ p.dies = dies := by
  have hn : execEnumFrame link serial masterEn priority dies chains none lo hi s = .next (s.run _) := s.onUnit_next _ hd hl
  refine ⟨_, hn, (execEnumFrame_within _ _ _ _ _ _ _ _ _ _ hn).sameMem, ?_⟩
  have hnew : ¬ (serial = Config.serial ∨ s.begun.pkg.peers.any fun p => p.serial == serial && p.link != link) := by
    simpa [hs] using hp
  rw [State.run_pkg]
  dsimp only
  rw [if_neg hnew, (Hw.roleUpdate_only _).hw .pkg (by decide)]
  exact ⟨_, List.mem_append_right _ (List.mem_singleton_self _), rfl, rfl, rfl, rfl⟩

theorem execAutoEnum_enumerates (ha : s.hw.rd 0 A.auto_enum 0 = 1) (hr : s.hw.rd 0 A.sys_role 0 ≠ 2) (hl : s.hw.lead.isSome) :
    ∃ t, execAutoEnum s = .next t ∧ s.SameMem t ∧ t.hw.rd 0 A.sys_gen 0 = (s.hw.rd 0 A.sys_gen 0 + 1) % 2 ^ 32 := by
  have hn : execAutoEnum s = .next (s.run _) := s.onPkg_next _
  refine ⟨_, hn, (execAutoEnum_within _ hn).sameMem, ?_⟩
  rw [State.run_rd, if_pos ⟨ha, hr, hl⟩]
  exact s.begun.rd_roleUpdate_enumerate_gen false

/-! ### Time over ITV (R393, R395, R435) -/

@[simp] theorem Hw.rd_tbSend (h : Hw) (tb : Nat) (step rate : Option Int) (e : Nat) (a : AttrId) (i : Nat) :
    (h.tbSend tb step rate).rd e a i = h.rd e a i := rfl
@[simp] theorem Hw.rd_tbRate (h : Hw) (tb : Nat) (rate : Int) (e : Nat) (a : AttrId) (i : Nat) :
    (h.tbRate tb rate).rd e a i = h.rd e a i := rfl
@[simp] theorem Hw.rd_servoTo_offset (h : Hw) (tb : Nat) (new : ServoState) (ns : Int) (e i : Nat) :
    (h.servoTo tb new ns).rd e A.offset_ns i = h.rd e A.offset_ns i := (h.servoTo_only ..).read A.offset_ns (by decide) e i

/-- A first sample leaves its offset in whole nanoseconds, whatever it makes of the servo. -/
theorem Hw.rd_firstSample_offset (h : Hw) (tb : Nat) (theta : Int) (t : Nat) :
    (h.firstSample tb theta t).rd 0 A.offset_ns tb = ofSigned 32 (theta / 1000) := by
  unfold Hw.firstSample
  dsimp only
  split
  · split <;> simp
  · split <;> simp

/-- An offset sample for TB0 from ITV, in ACQUIRE. -/
theorem Hw.rd_servoSample_offset (h : Hw) (gm : Nat) (theta : Int) (t : Nat) (hs : h.rd 0 A.tb_source 0 = 2)
    (hl : h.lead.isSome) (hq : (h.servo 0).st = .acquire) :
    (h.servoSample 0 gm theta t).rd 0 A.offset_ns 0 = ofSigned 32 (theta / 1000) := by
  have hlead : h.lead ≠ none := Option.isSome_iff_ne_none.1 hl
  simp [Hw.servoSample, hs, hlead, hq, Hw.rd_firstSample_offset]

theorem execTimeSyncExchange_samples {link t' : Nat} {t1 t2 t3 t4 : Int} (hd : 0 < s.hw.dies.length) (hl : link < 8)
    (hs : s.hw.rd 0 A.tb_source 0 = 2) (hp : ∃ p ∈ s.hw.pkg.peers, p.link = link) (hm : s.hw.rd 0 A.time_master 0 = 0)
    (hlead : s.hw.lead.isSome) (hq : (s.hw.servo 0).st = .acquire) :
    ∃ t, execTimeSyncExchange link t1 t2 t3 t4 t' s = .next t ∧ s.SameMem t ∧ t.hw.rd 0 A.offset_ns 0 =
      ofSigned 32 ((t2 - t1 - ((t2 - t1) + (t4 - t3)) / 2 + s.hw.rdS link A.itv_asym_ps 0 32) / 1000) := by
  have hn : execTimeSyncExchange link t1 t2 t3 t4 t' s = .next (s.run _) := s.onUnit_next _ hd (Nat.lt_trans hl (by decide))
  refine ⟨_, hn, (execTimeSyncExchange_within _ _ _ _ _ _ _ hn).sameMem, ?_⟩
  rw [State.run_rd]
  extract_lets h asym theta
  -- the clocks that run on to the exchange leave what it is judged by
  have K : Hw.Only [] [.tbs] [.clk] s.begun h := s.begun.until_only s.begun.leadDie t'
  have hpkg : h.pkg = s.hw.pkg := K.hw .pkg (by decide)
  have hlead' : h.lead = s.hw.lead := K.hw .lead (by decide)
  have hsource : h.rd 0 A.tb_source 0 = 2 := (K.read A.tb_source (by decide) ..).trans hs
  have hmaster : h.rd 0 A.time_master 0 = 0 := (K.read A.time_master (by decide) ..).trans hm
  have hpeer : h.pkg.peers.any (fun p => p.link == link) := by simpa [hpkg] using hp
  have hservo : (h.servo 0).st = .acquire := by rwa [Hw.servo, hpkg]
  have hasym : asym = s.hw.rdS link A.itv_asym_ps 0 32 := by
    simp only [asym, if_pos hl, Hw.rdS, K.read A.itv_asym_ps (by decide)]
    rfl
  rw [if_pos ⟨hsource, hmaster, hpeer⟩, h.rd_servoSample_offset 0 theta t' hsource (hlead' ▸ hlead) hservo]
  simp only [theta, hasym]

/-! ### The receiver of a link (R415 to R417, R424) -/

/-- What a link's receiver goes by: the frame that it waits for and whether the link is up; and the number of tunnels. -/
def Hw.rxSide (h : Hw) (l : Nat) : Nat × Bool × Nat := ((h.link l).rxNext, (h.link l).up, h.tunnels.length)

theorem Hw.Only.rxSide {C : List Nat} {F : List DieRec} {G : List HwRec} (K : Hw.Only C F G h h') (hF : .itv ∉ F)
    (hG : .tunnels ∉ G) (l : Nat) : h'.rxSide l = h.rxSide l := by
  have ht : h'.tunnels = h.tunnels := K.hw .tunnels hG
  simp only [Hw.rxSide, K.link hF hG, ht]

/-- Whether a link has a record: the ITV port of a die of the package, or a tunnel. -/
def Hw.hasLink (h : Hw) (l : Nat) : Prop := if l < 8 then l < h.dies.length else l - 8 < h.tunnels.length

theorem Hw.link_onLink (h : Hw) {l : Nat} (f : Link → Link) (hl : h.hasLink l) : (h.onLink l f).link l = f (h.link l) := by
  unfold Hw.hasLink at hl
  unfold Hw.link Hw.onLink
  by_cases h8 : l < 8
  · simp only [h8, if_true] at hl ⊢
    rw [Hw.die_onDie_self _ _ hl]
  · simp only [h8, if_false] at hl ⊢
    simp [List.getD_eq_getElem?_getD, hl]

/-- An update of a link that its receiver does not notice. -/
theorem Hw.rxSide_onLink (h : Hw) (l : Nat) (f : Link → Link) (hf : ∀ L, (f L).rxNext = L.rxNext ∧ (f L).up = L.up) :
    (h.onLink l f).rxSide l = h.rxSide l := by
  unfold Hw.rxSide Hw.link Hw.onLink
  by_cases h8 : l < 8
  · simp only [h8, if_true, Hw.onDie_tunnels]
    rw [h.die_onDie_field l _ (·.itv.link.rxNext) (fun D => (hf _).1), h.die_onDie_field l _ (·.itv.link.up) (fun D => (hf _).2)]
  · by_cases hl : l - 8 < h.tunnels.length <;> simp [h8, List.getD_eq_getElem?_getD, hl, hf]

theorem Hw.rxSide_linkPump (h : Hw) (l n : Nat) : (h.linkPump l n).rxSide l = h.rxSide l := by
  induction n generalizing h with
  | zero => rfl
  | succ n ih =>
    unfold Hw.linkPump
    dsimp only
    split
    · split
      · rw [ih, (Hw.linkOut_only ..).rxSide (by decide) (by decide)]
        exact Hw.rxSide_onLink _ _ _ fun _ => ⟨rfl, rfl⟩
      · rfl
    · rfl

theorem Hw.rxSide_linkAck (h : Hw) (l ack : Nat) : (h.linkAck l ack).rxSide l = h.rxSide l := by
  unfold Hw.linkAck
  dsimp only
  rw [Hw.rxSide_linkPump]
  split
  · exact Hw.rxSide_onLink _ _ _ fun _ => ⟨rfl, rfl⟩
  · rfl

/-- The record after the frame that a link's receiver waits for is accepted (R415). -/
def Hw.linkTake (h : Hw) (l ack : Nat) : Hw :=
  (((h.linkAck l ack).onLink l fun L => { L with rxNext := (L.rxNext + 1) % 2 ^ 16, rxAcked := true }).linkAdd l
    A.frames_rx).linkAckOut l

theorem Hw.linkAccept_expected (h : Hw) (l : Nat) (f : ItvFrame) (h2 : 2 ≤ f.type) (h7 : f.type ≤ 7)
    (hnext : (h.link l).rxNext = f.seq) : h.linkAccept l true f = (true, h.linkTake l f.ack) := by
  have htype : ¬ 7 < f.type ∧ f.type ≠ 0 ∧ f.type ≠ 1 := by omega
  simp [Hw.linkAccept, htype, hnext, Hw.linkTake]

theorem Hw.link_linkTake (h : Hw) {l : Nat} (ack : Nat) (hl : h.hasLink l) :
    ((h.linkTake l ack).link l).rxNext = ((h.link l).rxNext + 1) % 2 ^ 16 ∧ ((h.linkTake l ack).link l).up = (h.link l).up := by
  obtain ⟨hnext, hup, htun⟩ : ((h.linkAck l ack).link l).rxNext = (h.link l).rxNext ∧
      ((h.linkAck l ack).link l).up = (h.link l).up ∧ (h.linkAck l ack).tunnels.length = h.tunnels.length := by
    simpa only [Hw.rxSide, Prod.mk.injEq] using h.rxSide_linkAck l ack
  have hl' : (h.linkAck l ack).hasLink l := by
    rwa [Hw.hasLink, (h.linkAck_only l ack).len, htun]
  rw [Hw.linkTake, (Hw.linkAckOut_only ..).link (by decide) (by decide), (Hw.linkAdd_only ..).link (by decide) (by decide),
    Hw.link_onLink _ _ hl', hnext, hup]
  exact ⟨rfl, rfl⟩

theorem Hw.rd_linkTake (h : Hw) {l : Nat} (ack : Nat) (hl : l < 8) :
    (h.linkTake l ack).rd l A.frames_rx 0 = (h.rd l A.frames_rx 0 + 1) % 2 ^ 32 := by
  rw [Hw.linkTake, (Hw.linkAckOut_only ..).read A.frames_rx (by decide), Hw.linkAdd, if_pos hl, Hw.rd_add_wrap32 _ _ (by decide),
    (Hw.onLink_only ..).read A.frames_rx (by decide), (Hw.linkAck_only ..).read A.frames_rx (by decide)]

/-- The frames of enumeration and time have rows of their own. -/
theorem Hw.linkFrame_own (h : Hw) (l d : Nat) {f : ItvFrame} (h4 : 4 ≤ f.type) (hh : f.hops ≠ 0) : h.linkFrame l d f = h := by
  rw [Hw.linkFrame, if_neg hh, if_pos (by omega)]

theorem State.run_link (s : State) (f : List (List Host.Cell) → Hw → Hw) (l : Nat) :
    (s.run f).hw.link l = (f s.mems s.begun).link l := rfl

theorem execItvFrameReceive_accepts {die type hops dst src seq ack : Nat} {payload : List Byte} (hd : die < s.hw.dies.length)
    (h8 : die < 8) (hs : s.hw.rd die A.itv_state 0 = 2) (h2 : 2 ≤ type) (h7 : type ≤ 7) (hnext : (s.hw.link die).rxNext = seq) :
    ∃ t, execItvFrameReceive die true type hops dst src seq ack payload s = .next t ∧ s.SameMem t ∧
      t.hw.rd die A.frames_rx 0 = (s.hw.rd die A.frames_rx 0 + 1) % 2 ^ 32 ∧
      (4 ≤ type → hops ≠ 0 → (t.hw.link die).rxNext = (seq + 1) % 2 ^ 16) := by
  have hn : execItvFrameReceive die true type hops dst src seq ack payload s = .next (s.run _) := s.onDie_next _ hd
  refine ⟨_, hn, (execItvFrameReceive_within _ _ _ _ _ _ _ _ _ _ hn).sameMem, ?_⟩
  have hup : ¬ s.begun.rd die A.itv_state 0 ≠ 2 := Decidable.not_not.2 hs
  rw [State.run_rd, State.run_link, if_neg hup]
  dsimp only
  -- the wake of the receive direction leaves the link
  generalize hw : (if s.begun.rd die A.rx_pm 0 = 1 then s.begun.itvPm die 1 0 else s.begun) = woken
  have K : Hw.Only [0x1f, 0x19000c, 0x19000d] [.front, .buckets, .folded] [] s.begun woken :=
    hw ▸ .ite (fun _ => Hw.itvPm_only ..) fun _ => .refl ..
  have hlink : woken.link die = s.hw.link die := K.link (by decide) (by decide) die
  have hhas : woken.hasLink die := by
    rw [Hw.hasLink, if_pos h8, K.len]
    exact hd
  rw [Hw.linkAccept_expected _ _ _ h2 h7 (hlink ▸ hnext)]
  simp only [if_true]
  refine ⟨?_, fun h4 hh => ?_⟩
  · rw [(Hw.linkFrame_only ..).read A.frames_rx (by decide), Hw.rd_linkTake _ _ h8, K.read A.frames_rx (by decide), State.rd_begun]
  · rw [Hw.linkFrame_own _ _ _ h4 hh, (woken.link_linkTake ack hhas).1, hlink, hnext]

theorem execTunnelDatagram_accepts {die port ip udp k type hops dst src seq ack : Nat} {payload : List Byte}
    (hd : die < s.hw.dies.length) (hp : port < 2) (he : s.hw.ethUp die port = true) (hk : s.hw.tunnelOf die port ip udp = some k)
    (hlen : k < s.hw.tunnels.length) (hup : (s.hw.link (8 + k)).up = true) (h4 : 4 ≤ type) (h7 : type ≤ 7) (hh : hops ≠ 0)
    (hnext : (s.hw.link (8 + k)).rxNext = seq) :
    ∃ t, execTunnelDatagram die port ip udp true type hops dst src seq ack payload s = .next t ∧ s.SameMem t ∧
      (t.hw.link (8 + k)).rxNext = (seq + 1) % 2 ^ 16 := by
  have hn : execTunnelDatagram die port ip udp true type hops dst src seq ack payload s = .next (s.run _) := s.onUnit_next _ hd hp
  refine ⟨_, hn, (execTunnelDatagram_within _ _ _ _ _ _ _ _ _ _ _ _ _ hn).sameMem, ?_⟩
  have he' : s.begun.ethUp die port = true := he
  have hk' : s.begun.tunnelOf die port ip udp = some k := hk
  have hhas : s.begun.hasLink (8 + k) := by
    rw [Hw.hasLink, if_neg (by omega), Nat.add_sub_cancel_left]
    exact hlen
  obtain ⟨hrx, hup'⟩ := s.begun.link_linkTake ack hhas
  have hup'' := hup'.trans hup
  rw [State.run_link, if_pos he', Hw.tunnelFrame, hk']
  dsimp only
  rw [Hw.linkAccept_expected _ _ _ (Nat.le_trans (by decide) h4) h7 hnext]
  simp only [hup'', Bool.not_true, Bool.false_eq_true, false_and, if_true, if_false]
  rw [Hw.linkFrame_own _ _ _ h4 hh, hrx]
  exact congrArg (fun n => (n + 1) % 2 ^ 16) hnext

/-- Settles O14, by what each command's work leaves and by the receiver of a link. -/
theorem linkCommandsComplete : Obligations.LinkCommandsComplete := by
  unfold Obligations.LinkCommandsComplete
  refine ⟨fun s h hA => ⟨execItvEnable_trains hA, execItvDisable_stops hA, execItvRetrain_trains hA⟩,
    fun s h lanes hA hs => ⟨execItvEyeRead_replies hA hs, execItvEyeMeasure_replies hA hs⟩,
    fun s h hA hr => exec_sysEnum h hA hr, fun s h addr hA => execSysNode_names hA,
    fun s link serial masterEn priority dies chains lo hi hd hl hs hp => execEnumFrame_peer hd hl hs hp,
    fun s ha hr hl => execAutoEnum_enumerates ha hr hl,
    fun s link t1 t2 t3 t4 at_ hd hl hs hp hm hlead hq => execTimeSyncExchange_samples hd hl hs hp hm hlead hq,
    fun s die type hops dst src seq ack payload hd h8 hs h2 h7 _ hnext => execItvFrameReceive_accepts hd h8 hs h2 h7 hnext,
    fun s die port ip udp k type hops dst src seq ack payload hd hp he hk hlen hup h4 h7 hh _ hnext =>
      execTunnelDatagram_accepts hd hp he hk hlen hup h4 h7 hh hnext⟩

end Sys2Proof.Machine
end

section
/-!
PROOFS. Pushes and pops of the hardware queues (R84 to R93, R102): what the operations of a queue store in the pool, and what the
record of a queue reads after each.
-/
namespace Sys2Proof.Machine

/-! ### The record of a queue -/

theorem Hw.q_onQ_self (h : Hw) {d i : Nat} (f : Queue → Queue) (hd : d < h.dies.length) (hi : i < (h.die d).queues.length) :
    (h.onQ d i f).q d i = f (h.q d i) := by
  unfold Hw.q Hw.onQ
  rw [h.die_onDie_self _ hd]
  simp [List.getD_eq_getElem?_getD, hi]

/-- A field that an update of a queue leaves is the same in every queue. -/
theorem Hw.q_onQ_field {β : Type} (h : Hw) (d i : Nat) (f : Queue → Queue) (g : Queue → β) (hg : ∀ q, g (f q) = g q) (e j : Nat) :
    g ((h.onQ d i f).q e j) = g (h.q e j) := by
  refine h.die_onDie_field d _ (fun D => g (D.queues.getD j {})) (fun D => ?_) e
  simp only [List.getD_eq_getElem?_getD, List.getElem?_modify]
  cases D.queues[j]? with
  | none => rfl
  | some q =>
    by_cases hij : i = j
    · simp [hij, hg]
    · simp [hij]

/-- The queues are those of before where they are not in the frame. -/
theorem Hw.Only.q {C : List Nat} {F : List DieRec} {G : List HwRec} {h h' : Hw} (K : Hw.Only C F G h h') (hF : .queues ∉ F) (d i : Nat) :
    h'.q d i = h.q d i := by
  have hq : (h'.die d).queues = (h.die d).queues := K.die d .queues hF
  simp only [Hw.q, hq]

@[simp] theorem Hw.q_wr (h : Hw) (d : Nat) (a : AttrId) (i v e j : Nat) : (h.wr d a i v).q e j = h.q e j := rfl
@[simp] theorem Hw.q_add (h : Hw) (d : Nat) (a : AttrId) (i n e j : Nat) : (h.add d a i n).q e j = h.q e j := rfl
@[simp] theorem Hw.q_event (h : Hw) (d code : Nat) (data : List Byte) (e j : Nat) : (h.event d code data).q e j = h.q e j :=
  (h.event_only d code data).q (by decide) e j
@[simp] theorem Hw.q_msix (h : Hw) (ep vec e j : Nat) : (h.msix ep vec).q e j = h.q e j := (h.msix_only ep vec).q (by decide) e j
@[simp] theorem Hw.q_finish (h : Hw) (d : Nat) (q : Hdr) (op : Nat) (o : ObjRef) (r : Reply) (e j : Nat) :
    (h.finish d q op o r).q e j = h.q e j := by simp [Hw.q]

/-! ### What is stored -/

@[simp] theorem Hw.onQ_stores (h : Hw) (d i : Nat) (f : Queue → Queue) : (h.onQ d i f).stores = h.stores := rfl
@[simp] theorem Hw.qSticky_stores (h : Hw) (d i b code : Nat) (data : List Byte) : (h.qSticky d i b code data).stores = h.stores :=
  (h.qSticky_only d i b code data).hw .stores (by decide)
@[simp] theorem Hw.qOverflow_stores (h : Hw) (d i agent : Nat) : (h.qOverflow d i agent).stores = h.stores :=
  (h.qOverflow_only d i agent).hw .stores (by decide)
@[simp] theorem Hw.qRewind_stores (h : Hw) (d i : Nat) : (h.qRewind d i).stores = h.stores :=
  (h.qRewind_only d i).hw .stores (by decide)
@[simp] theorem Hw.qCommit_stores (h : Hw) (d i agent : Nat) : (h.qCommit d i agent).2.stores = h.stores :=
  (h.qCommit_only d i agent).hw .stores (by decide)

/-- The store of a word pushed at `wr` (R84, R85, R88). -/
abbrev Hw.pushStore (h : Hw) (d i word : Nat) : Nat × Nat × List Byte := (d, (h.q d i).addr (h.q d i).wr, leBytes 8 word)

@[simp] theorem Hw.qWrite_stores (h : Hw) (d i agent word : Nat) :
    (h.qWrite d i agent word).stores = h.stores ++ [h.pushStore d i word] := by
  unfold Hw.qWrite
  dsimp only
  split <;> rfl

/-- A push that is oversize or finds FULL stores nothing (R90, R91). -/
theorem Hw.qPushNow_stores_of_rejected (h : Hw) {d i : Nat} (agent word : Nat) (last : Bool)
    (hno : ((h.q d i).packet = true ∧ (h.q d i).uncommitted = (h.q d i).size) ∨ (h.q d i).full = true) :
    (h.qPushNow d i agent word last).2.stores = h.stores := by
  unfold Hw.qPushNow
  dsimp only
  by_cases hover : (h.q d i).packet = true ∧ (h.q d i).uncommitted = (h.q d i).size
  · simp [hover]
  · rw [if_neg hover, if_pos (hno.resolve_left hover)]
    split
    · split <;> simp
    · simp

/-- Any other push stores its word (R88). -/
theorem Hw.qPushNow_stores_of_room (h : Hw) {d i : Nat} (agent word : Nat) (last : Bool)
    (hover : ¬((h.q d i).packet = true ∧ (h.q d i).uncommitted = (h.q d i).size)) (hfull : ¬(h.q d i).full = true) :
    (h.qPushNow d i agent word last).2.stores = h.stores ++ [h.pushStore d i word] := by
  unfold Hw.qPushNow
  dsimp only
  rw [if_neg hover, if_neg hfull]
  split <;> simp

theorem Hw.qPushNow_stores (h : Hw) (d i agent word : Nat) (last : Bool) :
    (h.qPushNow d i agent word last).2.stores = h.stores ∨
      (h.qPushNow d i agent word last).2.stores = h.stores ++ [h.pushStore d i word] := by
  by_cases hno : ((h.q d i).packet = true ∧ (h.q d i).uncommitted = (h.q d i).size) ∨ (h.q d i).full = true
  · exact .inl (h.qPushNow_stores_of_rejected agent word last hno)
  · obtain ⟨hover, hfull⟩ := not_or.1 hno
    exact .inr (h.qPushNow_stores_of_room agent word last hover hfull)

/-- A push that is neither refused nor discarded nor held under STALL is carried out. -/
theorem Hw.qPush_eq_qPushNow (h : Hw) {d i agent : Nat} (word : Nat) (last : Bool) (he : (h.q d i).enabled = true)
    (hd : (h.q d i).discard.contains agent = false) (hw : (h.q d i).mustWait i agent = false) :
    h.qPush d i agent word last = h.qPushNow d i agent word last := by
  unfold Hw.qPush
  dsimp only
  rw [if_neg (by simp [he]), if_neg (ne_true_of_eq_false hd), if_neg (ne_true_of_eq_false hw)]

/-- A push that is refused, discarded or held under STALL stores nothing; any other is carried out. -/
theorem Hw.qPush_stores_or_eq_qPushNow (h : Hw) (d i agent word : Nat) (last : Bool) :
    (h.qPush d i agent word last).2.stores = h.stores ∨ h.qPush d i agent word last = h.qPushNow d i agent word last := by
  unfold Hw.qPush
  dsimp only
  split
  · exact .inl rfl
  · split
    · exact .inl (by split <;> rfl)
    · split
      · exact .inl rfl
      · exact .inr rfl

/-- Settles O10: only `qWrite` stores, and every other push ends before it. -/
theorem pushStoresOneQueueWord : Obligations.PushStoresOneQueueWord := by
  unfold Obligations.PushStoresOneQueueWord
  refine ⟨fun h d i agent word last => ?_, fun h d i agent word last he hd hw hover hfull => ?_⟩
  · obtain hs | hnow := h.qPush_stores_or_eq_qPushNow d i agent word last
    · exact .inl hs
    · rw [hnow]
      exact h.qPushNow_stores d i agent word last
  · rw [h.qPush_eq_qPushNow word last he hd hw]
    exact h.qPushNow_stores_of_room agent word last (fun ⟨hp, hu⟩ => hover hp hu) (ne_true_of_eq_false hfull)

/-! ### Pops (R93) -/

/-- A watermark crossing leaves every field of the queues but the mark of R104. -/
theorem Hw.q_qWatermark_field {β : Type} (h : Hw) (d i : Nat) (g : Queue → β)
    (hg : ∀ q m, g { q with marked := m } = g q) (e j : Nat) :
    g ((h.qWatermark d i).q e j) = g (h.q e j) := by
  unfold Hw.qWatermark
  dsimp only
  split
  · rfl
  · split
    · exact h.q_onQ_field d i _ g (fun q => hg q _) e j
    · split
      · rfl
      · split
        · rw [Hw.q_msix]
          exact h.q_onQ_field d i _ g (fun q => hg q _) e j
        · exact h.q_onQ_field d i _ g (fun q => hg q _) e j

/-- A sticky flag raised leaves every other field of the queues (R106). -/
theorem Hw.q_qSticky_field {β : Type} (h : Hw) (d i b code : Nat) (data : List Byte) (g : Queue → β)
    (hg : ∀ q n, g { q with sticky := n } = g q) (e j : Nat) : g ((h.qSticky d i b code data).q e j) = g (h.q e j) := by
  unfold Hw.qSticky
  split
  · rfl
  · rw [Hw.q_event]
    exact h.q_onQ_field d i _ g (fun q => hg q _) e j

theorem Hw.sticky_qSticky (h : Hw) {d i : Nat} (b code : Nat) (data : List Byte) (hd : d < h.dies.length)
    (hi : i < (h.die d).queues.length) : ((h.qSticky d i b code data).q d i).sticky.testBit b = true := by
  unfold Hw.qSticky
  split
  · assumption
  · rw [Hw.q_event, h.q_onQ_self _ hd hi]
    simp [Nat.testBit_or]

section
variable {h : Hw} (ms : List (List Host.Cell)) {d i : Nat}

/-- A pop while EMPTY answers the last word popped and, but for the counts, only raises UNDERRUN. -/
theorem Hw.qPop_of_empty (he : (h.q d i).enabled = true) (hempty : (h.q d i).empty = true) :
    h.qPop ms d i = ((h.q d i).last, ((h.qUnderrun d i).onQ d i fun q =>
      { q with underruns := satNat 0xFFFF (q.underruns + 1) }).add d A.q_underruns i) := by
  simp [Hw.qPop, he, hempty]

/-- The fields but the flags and the count of underruns are those of before a pop while EMPTY. -/
theorem Hw.q_qPop_of_empty_field {β : Type} (he : (h.q d i).enabled = true) (hempty : (h.q d i).empty = true) (g : Queue → β)
    (hs : ∀ q n, g { q with sticky := n } = g q) (hu : ∀ q n, g { q with underruns := n } = g q) (e j : Nat) :
    g ((h.qPop ms d i).2.q e j) = g (h.q e j) := by
  rw [Hw.qPop_of_empty ms he hempty, Hw.q_add]
  exact ((h.qUnderrun d i).q_onQ_field d i _ g (fun q => hu q _) e j).trans (h.q_qSticky_field d i _ _ _ g hs e j)

theorem Hw.sticky_qPop_of_empty (hd : d < h.dies.length) (hi : i < (h.die d).queues.length) (he : (h.q d i).enabled = true)
    (hempty : (h.q d i).empty = true) : ((h.qPop ms d i).2.q d i).sticky.testBit 0 = true := by
  rw [Hw.qPop_of_empty ms he hempty, Hw.q_add, Hw.q_onQ_field (g := (·.sticky))]
  · exact h.sticky_qSticky 0 _ _ hd hi
  · exact fun _ => rfl

/-- A pop that is not EMPTY keeps its word as the last word popped. -/
theorem Hw.last_qPop (hd : d < h.dies.length) (hi : i < (h.die d).queues.length) (he : (h.q d i).enabled = true)
    (hempty : (h.q d i).empty = false) : ((h.qPop ms d i).2.q d i).last = (h.qPop ms d i).1 := by
  unfold Hw.qPop
  dsimp only
  rw [if_neg (by simp [he]), if_neg (ne_true_of_eq_false hempty), Hw.q_qWatermark_field _ d i (·.last) (fun _ _ => rfl), Hw.q_add,
    h.q_onQ_self _ hd hi]
end

/-! ### ENABLE (R102) -/

theorem Hw.q_enableOne (h : Hw) (ms : List (List Host.Cell)) {d i : Nat} (hd : d < h.dies.length)
    (hi : i < (h.die d).queues.length) :
    (h.enableOne ms d i).q d i = { queueOf (h.queueEntry ms d i) with enabled := true } := by
  unfold Hw.enableOne
  rw [Hw.q_wr, h.q_onQ_self _ hd hi]

/-- The queues after a mailbox command are those that its work leaves. -/
theorem State.command_queues {s : State} {q : Hdr} {op : Nat} {o : ObjRef} (hA : s.Admits q op o)
    {body : List (List Host.Cell) → Nat → Hw → Reply × Hw} {w : Reply × Hw}
    (hb : body s.mems (s.hw.execDie q op o) (s.atWork q) = w) :
    ∃ t, s.command q op o body = .next t ∧ ∀ d i, t.hw.q d i = w.2.q d i := by
  subst hb
  exact ⟨_, State.command_next hA body, fun d i => Hw.q_finish ..⟩

/-- QUEUE_CTRL is carried out by the die that its header names (R18). -/
theorem Hw.execDie_queueCtrl (h : Hw) (q : Hdr) (i : Nat) : h.execDie q 0x0102 (opObj 0x0102 i) = q.die := rfl

/-- ENABLE of one queue that nothing refuses does what `enableOne` does to the queues. -/
theorem execQueueEnable_one {s : State} {h : Hdr} {i : Nat} {bad : List Nat} (hA : s.Admits h 0x0102 (opObj 0x0102 i)) (hi : i < 63)
    (hok : (s.atWork h).enableFail s.mems h.die bad [] [i] = none) :
    ∃ t, execQueueEnable h i 1 bad s = .next t ∧ ∀ d j, t.hw.q d j = ((s.atWork h).enableOne s.mems h.die i).q d j := by
  have hrange : queueRange i 1 = true := by
    simp only [queueRange, Bool.and_eq_true, decide_eq_true_eq]
    omega
  refine State.command_queues (w := (queueReply .ok 0xFFFF, (s.atWork h).enableOne s.mems h.die i)) hA ?_
  simp [Hw.execDie_queueCtrl, hrange, hok]

/-- Settles O47, by what a pop leaves of the queue's record in each of its cases and by the record that ENABLE makes. -/
theorem popWhileEmpty : Obligations.PopWhileEmpty := by
  unfold Obligations.PopWhileEmpty
  refine ⟨fun h ms d i hd hi he hempty => ⟨?_, ?_, ?_, ?_⟩, fun h ms d i hd hi he hempty => Hw.last_qPop ms hd hi he hempty,
    fun s h i bad hA h63 hi hok => ?_⟩
  · rw [Hw.qPop_of_empty ms he hempty]
  · exact Hw.sticky_qPop_of_empty ms hd hi he hempty
  · exact Hw.q_qPop_of_empty_field ms he hempty (·.rd) (fun _ _ => rfl) (fun _ _ => rfl) d i
  · exact Hw.q_qPop_of_empty_field ms he hempty (·.last) (fun _ _ => rfl) (fun _ _ => rfl) d i
  · obtain ⟨t, ht, hq⟩ := execQueueEnable_one hA h63 hok
    have hnew : t.hw.q h.die i = { queueOf ((s.atWork h).queueEntry s.mems h.die i) with enabled := true } := by
      rw [hq]
      exact (s.atWork h).q_enableOne s.mems (by simpa [State.atWork] using hA.1) (by simpa [State.atWork] using hi)
    exact ⟨t, ht, by rw [hnew], by rw [hnew]; rfl⟩

end Sys2Proof.Machine
end

section
/-!
PROOFS. The encoder inputs (R110 to R123, R131, R140): the record of a channel and its flags under the operations of the position
unit, what each event of an input comes to in its cases, and from that what each row leaves.
-/
namespace Sys2Proof.Machine

variable {C : List Nat} {F : List DieRec} {G : List HwRec} {h h' : Hw} {s : State} {d die ch tm : Nat}

/-! ### The record of a channel and the position unit -/

theorem Hw.Only.enc (K : Hw.Only C F G h h') (hF : .enc ∉ F) (d ch : Nat) : h'.enc d ch = h.enc d ch := by
  have he : (h'.die d).enc = (h.die d).enc := K.die d .enc hF
  simp only [Hw.enc, he]

theorem Hw.Only.pos (K : Hw.Only C F G h h') (hF : .pos ∉ F) (d : Nat) : h'.pos d = h.pos d := K.die d .pos hF

theorem Hw.enc_onEnc_self (h : Hw) (f : Enc → Enc) (hd : d < h.dies.length) (hc : ch < (h.die d).enc.length) :
    (h.onEnc d ch f).enc d ch = f (h.enc d ch) := by
  unfold Hw.enc Hw.onEnc
  rw [h.die_onDie_self _ hd]
  simp [List.getD_eq_getElem?_getD, hc]

/-- A field that an update of a channel leaves is the same in every channel. -/
theorem Hw.enc_onEnc_field {β : Type} (h : Hw) (d ch : Nat) (f : Enc → Enc) (g : Enc → β) (hg : ∀ e, g (f e) = g e) (e i : Nat) :
    g ((h.onEnc d ch f).enc e i) = g (h.enc e i) := by
  refine h.die_onDie_field d _ (fun D => g (D.enc.getD i {})) (fun D => ?_) e
  simp only [List.getD_eq_getElem?_getD, List.getElem?_modify]
  cases D.enc[i]? with
  | none => rfl
  | some x =>
    by_cases hi : ch = i
    · simp [hi, hg]
    · simp [hi]

@[simp] theorem Hw.onEnc_length (h : Hw) (d ch : Nat) (f : Enc → Enc) : (h.onEnc d ch f).dies.length = h.dies.length :=
  (h.onEnc_only d ch f).len

/-- An update of a channel leaves the number of channels. -/
@[simp] theorem Hw.channels_length_onEnc (h : Hw) (d ch : Nat) (f : Enc → Enc) (e : Nat) :
    ((h.onEnc d ch f).die e).enc.length = (h.die e).enc.length :=
  h.die_onDie_field d _ (·.enc.length) (by simp) e

@[simp] theorem Hw.enc_wr (h : Hw) (d : Nat) (a : AttrId) (i v e j : Nat) : (h.wr d a i v).enc e j = h.enc e j := rfl
@[simp] theorem Hw.enc_wrS (h : Hw) (d : Nat) (a : AttrId) (i w : Nat) (v : Int) (e j : Nat) :
    (h.wrS d a i w v).enc e j = h.enc e j := rfl
@[simp] theorem Hw.enc_add (h : Hw) (d : Nat) (a : AttrId) (i n e j : Nat) : (h.add d a i n).enc e j = h.enc e j := rfl
@[simp] theorem Hw.enc_setEncFlag (h : Hw) (d ch i : Nat) (b : Bool) (e j : Nat) :
    (h.setEncFlag d ch i b).enc e j = h.enc e j := rfl
@[simp] theorem Hw.enc_setPending (h : Hw) (d ch : Nat) (p : Int) (e j : Nat) : (h.setPending d ch p).enc e j = h.enc e j := rfl
@[simp] theorem Hw.enc_absDiscard (h : Hw) (d ch e j : Nat) : (h.absDiscard d ch).enc e j = h.enc e j := rfl
@[simp] theorem Hw.enc_event (h : Hw) (d code : Nat) (data : List Byte) (e j : Nat) :
    (h.event d code data).enc e j = h.enc e j := (h.event_only d code data).enc (by decide) e j
@[simp] theorem Hw.enc_absErr (h : Hw) (d ch kind e j : Nat) : (h.absErr d ch kind).enc e j = h.enc e j := h.enc_event ..
@[simp] theorem Hw.enc_onPos (h : Hw) (d : Nat) (f : PosUnit → PosUnit) (e j : Nat) : (h.onPos d f).enc e j = h.enc e j :=
  (h.onPos_only d f).enc (by decide) e j
@[simp] theorem Hw.enc_publish (h : Hw) (d t : Nat) (moved : Bool) (e j : Nat) : (h.publish d t moved).enc e j = h.enc e j :=
  (h.publish_only d t moved).enc (by decide) e j
@[simp] theorem Hw.enc_cmpEval (h : Hw) (d e j : Nat) : (h.cmpEval d).enc e j = h.enc e j :=
  (h.cmpEval_only d).enc (by decide) e j
@[simp] theorem Hw.enc_homeTo (h : Hw) (d ch : Nat) (v : Int) (src t e j : Nat) : (h.homeTo d ch v src t).enc e j = h.enc e j :=
  (h.homeTo_only d ch v src t).enc (by decide) e j

@[simp] theorem Hw.die_setEncFlag (h : Hw) (d ch i : Nat) (b : Bool) (e : Nat) : (h.setEncFlag d ch i b).die e = h.die e := rfl
@[simp] theorem Hw.setEncFlag_length (h : Hw) (d ch i : Nat) (b : Bool) :
    (h.setEncFlag d ch i b).dies.length = h.dies.length := rfl

@[simp] theorem Hw.pos_wr (h : Hw) (d : Nat) (a : AttrId) (i v e : Nat) : (h.wr d a i v).pos e = h.pos e := rfl
@[simp] theorem Hw.pos_add (h : Hw) (d : Nat) (a : AttrId) (i n e : Nat) : (h.add d a i n).pos e = h.pos e := rfl
@[simp] theorem Hw.pos_setEncFlag (h : Hw) (d ch i : Nat) (b : Bool) (e : Nat) : (h.setEncFlag d ch i b).pos e = h.pos e := rfl
@[simp] theorem Hw.pos_absDiscard (h : Hw) (d ch e : Nat) : (h.absDiscard d ch).pos e = h.pos e := rfl
@[simp] theorem Hw.pos_event (h : Hw) (d code : Nat) (data : List Byte) (e : Nat) : (h.event d code data).pos e = h.pos e :=
  (h.event_only d code data).pos (by decide) e
@[simp] theorem Hw.pos_absErr (h : Hw) (d ch kind e : Nat) : (h.absErr d ch kind).pos e = h.pos e := h.pos_event ..
@[simp] theorem Hw.pos_onEnc (h : Hw) (d ch : Nat) (f : Enc → Enc) (e : Nat) : (h.onEnc d ch f).pos e = h.pos e :=
  (h.onEnc_only d ch f).pos (by decide) e

@[simp] theorem Hw.rd_onEnc (h : Hw) (d ch : Nat) (f : Enc → Enc) (e : Nat) (a : AttrId) (i : Nat) :
    (h.onEnc d ch f).rd e a i = h.rd e a i := rfl

@[simp] theorem Hw.rawN_onEnc (h : Hw) (d ch : Nat) (f : Enc → Enc) (e j : Nat) : (h.onEnc d ch f).rawN e j = h.rawN e j := rfl

/-- A count of errors goes up by one; each is 32 bits wide in both channels. -/
theorem Hw.rd_add_errs (h : Hw) (d : Nat) {a : AttrId} (ha : a ∈ [A.quad_errs, A.index_errs, A.abs_errs]) (hc : ch < 2) :
    (h.add d a ch).rd d a ch = (h.rd d a ch + 1) % 2 ^ 32 := by
  have width : ∀ a ∈ [A.quad_errs, A.index_errs, A.abs_errs], ∀ ch < 2,
      (attrRow? a.cls ch a.id).map (·.width) = some 32 := by decide
  exact h.rd_add_wrap32 d (width a ha ch hc)

/-! ### Flags (R129) -/

/-- A power of two added where its bit is clear leaves every other bit. -/
theorem testBit_two_pow_add_ne {w i j : Nat} (hw : w.testBit i = false) (hij : i ≠ j) : (2 ^ i + w).testBit j = w.testBit j := by
  obtain hji | hji := Nat.lt_or_gt_of_ne hij
  · obtain ⟨k, rfl⟩ : ∃ k, j = k + (i + 1) := ⟨j - (i + 1), by omega⟩
    have hclear : w / 2 ^ i % 2 ≠ 1 := by simpa [Nat.testBit_eq_decide_div_mod_eq] using hw
    have hone : (2 ^ i + w) / 2 ^ i = w / 2 ^ i + 1 := Nat.add_div_left _ (Nat.two_pow_pos i)
    rw [Nat.testBit_add, Nat.testBit_add, Nat.pow_succ, ← Nat.div_div_eq_div_mul, ← Nat.div_div_eq_div_mul, hone]
    congr 1
    omega
  · exact Nat.testBit_two_pow_add_gt hji w

/-- A set bit taken away is clear, and every other bit stays. -/
theorem testBit_sub_two_pow {v i : Nat} (hv : v.testBit i = true) (j : Nat) :
    (v - 2 ^ i).testBit j = (v.testBit j && decide (i ≠ j)) := by
  obtain ⟨w, rfl⟩ : ∃ w, v = 2 ^ i + w := Nat.exists_eq_add_of_le (Nat.ge_two_pow_of_testBit hv)
  have hw : w.testBit i = false := by simpa [Nat.testBit_two_pow_add_eq] using hv
  rw [Nat.add_sub_cancel_left]
  by_cases hij : i = j
  · simp [← hij, hw]
  · simp [hij, testBit_two_pow_add_ne hw hij]

theorem bit_putBit (v i : Nat) (b : Bool) (j : Nat) : bit (putBit v i b) j = if i = j then b else bit v j := by
  unfold bit putBit
  by_cases hij : i = j
  · subst hij
    cases b with
    | true => simp [Nat.testBit_or]
    | false => by_cases hv : v.testBit i = true <;> simp [hv, testBit_sub_two_pow]
  · cases b with
    | true => simp [Nat.testBit_or, hij]
    | false => by_cases hv : v.testBit i = true <;> simp [hv, testBit_sub_two_pow, hij]

@[simp] theorem Hw.encFlag_setEncFlag_self (h : Hw) (d ch i : Nat) (b : Bool) : (h.setEncFlag d ch i b).encFlag d ch i = b := by
  simp [Hw.encFlag, Hw.setEncFlag, bit_putBit]

theorem Hw.encFlag_setEncFlag_ne (h : Hw) (d ch : Nat) {i j : Nat} (b : Bool) (hij : i ≠ j) :
    (h.setEncFlag d ch i b).encFlag d ch j = h.encFlag d ch j := by
  simp [Hw.encFlag, Hw.setEncFlag, bit_putBit, hij]

@[simp] theorem Hw.encFlag_onEnc (h : Hw) (d ch : Nat) (f : Enc → Enc) (e j i : Nat) :
    (h.onEnc d ch f).encFlag e j i = h.encFlag e j i := rfl
@[simp] theorem Hw.encFlag_event (h : Hw) (d code : Nat) (data : List Byte) (e j i : Nat) :
    (h.event d code data).encFlag e j i = h.encFlag e j i := by simp [Hw.encFlag]

@[simp] theorem Hw.posCh_setEncFlag (h : Hw) (d ch i : Nat) (b : Bool) (e : Nat) :
    (h.setEncFlag d ch i b).posCh e = h.posCh e := by simp [Hw.posCh, Hw.setEncFlag]
@[simp] theorem Hw.posCh_onEnc (h : Hw) (d ch : Nat) (f : Enc → Enc) (e : Nat) : (h.onEnc d ch f).posCh e = h.posCh e := rfl
@[simp] theorem Hw.posCh_event (h : Hw) (d code : Nat) (data : List Byte) (e : Nat) :
    (h.event d code data).posCh e = h.posCh e := by simp [Hw.posCh]

/-! ### A step's effect on the position unit -/

/-- `k` has the attributes, the channels and the dies of `h`. -/
structure Hw.SameInputs (h k : Hw) : Prop where
  rd : ∀ e (a : AttrId) i, k.rd e a i = h.rd e a i
  channels : ∀ e, (k.die e).enc = (h.die e).enc
  length : k.dies.length = h.dies.length

/-- The start of a step leaves the inputs. -/
theorem State.sameInputs_begun (s : State) : s.hw.SameInputs s.begun := ⟨fun _ _ _ => rfl, fun _ => rfl, rfl⟩

/-- The clocks run on and leave the inputs. -/
theorem State.sameInputs_until (s : State) (d t : Nat) : s.hw.SameInputs (s.begun.until d t) :=
  have K := s.begun.until_only d t
  ⟨fun e a i => K.read a (by simp) e i, fun e => K.die e .enc (by decide), K.len⟩

section
variable {k : Hw} (K : h.SameInputs k)
include K

theorem Hw.SameInputs.enc (d ch : Nat) : k.enc d ch = h.enc d ch := by simp only [Hw.enc, K.channels]
theorem Hw.SameInputs.encFlag (d ch i : Nat) : k.encFlag d ch i = h.encFlag d ch i := by simp only [Hw.encFlag, K.rd]
theorem Hw.SameInputs.encOn (d ch : Nat) : k.encOn d ch = h.encOn d ch := by simp only [Hw.encOn, K.rd, K.encFlag]
theorem Hw.SameInputs.posCh (d : Nat) : k.posCh d = h.posCh d := by simp only [Hw.posCh, K.rd]
theorem Hw.SameInputs.rawN (d ch : Nat) : k.rawN d ch = h.rawN d ch := by simp only [Hw.rawN, Hw.rdS, K.rd]
end

theorem State.run_enc (s : State) (f : List (List Host.Cell) → Hw → Hw) (d ch : Nat) :
    (s.run f).hw.enc d ch = (f s.mems s.begun).enc d ch := rfl

/-- What follows a published pair leaves the channels. -/
@[simp] theorem Hw.enc_motionOn (h : Hw) (d : Nat) (f : Hw → Hw) (e j : Nat) : (h.motionOn d f).enc e j = (f h).enc e j :=
  ((f h).afterPair_only ..).enc (by decide) e j

/-- Nothing follows an effect that leaves the position unit: it has published no pair. -/
theorem Hw.motionOn_of_pos {f : Hw → Hw} (hp : (f h).pos d = h.pos d) : h.motionOn d f = f h := by
  simp [Hw.motionOn, Hw.afterPair, hp]

/-- A row that acts on the position unit leaves the channels of its effect `f`, and the attributes and flags too where the effect
publishes no pair. The effect finds the inputs as they were, whatever the clocks do until then (`g`). -/
theorem State.motion_next (s : State) {g : Hw → Hw} (f : Hw → Hw) (hg : s.hw.SameInputs (g s.begun)) (hd : die < s.hw.dies.length)
    (h2 : ch < 2) : ∃ t k, (s.onUnit die ch 2 fun _ h => (g h).motionOn die f) = .next t ∧ s.hw.SameInputs k ∧
      (∀ e j, t.hw.enc e j = (f k).enc e j) ∧ ((f k).pos die = k.pos die →
        (∀ e a i, t.hw.rd e a i = (f k).rd e a i) ∧ ∀ e j i, t.hw.encFlag e j i = (f k).encFlag e j i) := by
  refine ⟨_, g s.begun, s.onUnit_next _ hd h2, hg, fun e j => Hw.enc_motionOn .., fun hp => ?_⟩
  have hrd : ∀ e a i, ((g s.begun).motionOn die f).rd e a i = (f (g s.begun)).rd e a i := fun e a i => by
    rw [Hw.motionOn_of_pos hp]
  exact ⟨hrd, fun e j i => congrArg (bit · i) (hrd ..)⟩

/-! ### The levels of A and B (R110, R111) -/

/-- A change of the count changes at most the direction of its channel and the time of its last change. -/
theorem Hw.enc_changeN_field {β : Type} (h : Hw) (d ch : Nat) (n : Int) (t : Nat) (word : Bool) (g : Enc → β)
    (hfwd : ∀ e b, g { e with fwd := b } = g e) (hlast : ∀ e m, g { e with lastAt := m } = g e) (e j : Nat) :
    g ((h.changeN d ch n t word).enc e j) = g (h.enc e j) := by
  have hdir : ∀ (k : Hw) b, g ((k.onEnc d ch fun x => { x with fwd := b }).enc e j) = g (k.enc e j) := fun k b =>
    k.enc_onEnc_field d ch _ g (fun x => hfwd x b) e j
  have htime : ∀ k : Hw, g ((k.onEnc d ch fun x => { x with lastAt := t }).enc e j) = g (k.enc e j) := fun k =>
    k.enc_onEnc_field d ch _ g (fun x => hlast x t) e j
  simp only [Hw.changeN, apply_ite (fun k : Hw => g (k.enc e j)), Hw.enc_cmpEval, Hw.enc_publish, Hw.enc_onPos,
    Hw.enc_setEncFlag, Hw.enc_wrS, hdir, htime, ite_self]

/-- A raw count changes besides these at most the counts since the correction was last applied. -/
theorem Hw.enc_rawCount_field {β : Type} (h : Hw) (d ch : Nat) (dir : Int) (t : Nat) (g : Enc → β)
    (hfwd : ∀ e b, g { e with fwd := b } = g e) (hlast : ∀ e m, g { e with lastAt := m } = g e)
    (hslew : ∀ e n, g { e with slew := n } = g e) (e j : Nat) : g ((h.rawCount d ch dir t).enc e j) = g (h.enc e j) := by
  have hzero : ∀ k : Hw, g ((k.onEnc d ch fun x => { x with slew := 0 }).enc e j) = g (k.enc e j) := fun k =>
    k.enc_onEnc_field d ch _ g (fun x => hslew x 0) e j
  have hone : ∀ k : Hw, g ((k.onEnc d ch fun x => { x with slew := x.slew + 1 }).enc e j) = g (k.enc e j) := fun k =>
    k.enc_onEnc_field d ch _ g (fun x => hslew x _) e j
  have hcount : ∀ (k : Hw) n, g ((k.changeN d ch n t false).enc e j) = g (k.enc e j) := fun k n =>
    k.enc_changeN_field d ch n t false g hfwd hlast e j
  simp only [Hw.rawCount, apply_ite (fun k : Hw => g (k.enc e j)), hcount, Hw.enc_setPending, hzero, hone, ite_self]

/-- The levels of the channel are those of the edge, whatever comes of it. -/
theorem Hw.levels_encEdge (h : Hw) (a b : Bool) (t : Nat) (hd : d < h.dies.length) (hc : ch < (h.die d).enc.length) :
    ((h.encEdge d ch a b t).enc d ch).a = a ∧ ((h.encEdge d ch a b t).enc d ch).b = b := by
  have hset : (h.onEnc d ch fun e => { e with a := a, b := b }).enc d ch = { h.enc d ch with a := a, b := b } :=
    h.enc_onEnc_self _ hd hc
  have hcount : ∀ (k : Hw) dir, (((k.rawCount d ch dir t).enc d ch).a, ((k.rawCount d ch dir t).enc d ch).b) =
      ((k.enc d ch).a, (k.enc d ch).b) := fun k dir =>
    k.enc_rawCount_field d ch dir t (fun e => (e.a, e.b)) (fun _ _ => rfl) (fun _ _ => rfl) (fun _ _ => rfl) d ch
  rw [← Prod.mk.injEq]
  unfold Hw.encEdge
  dsimp only
  split
  · rw [hset]
  · split
    · rw [Hw.enc_event, Hw.enc_add, hset]
    · rw [hcount, hset]

/-- An edge that skips a state counts as an error and moves nothing. -/
theorem Hw.encEdge_of_skip (h : Hw) {a b : Bool} (t : Nat) (hon : h.encOn d ch = true) (hmode : h.rd d A.enc_mode ch ≠ 1)
    (hskip : (quadPlace a b + 4 - quadPlace (h.enc d ch).a (h.enc d ch).b) % 4 = 2) :
    h.encEdge d ch a b t = ((h.onEnc d ch fun e => { e with a := a, b := b }).add d A.quad_errs ch).event d Ev.encQuadErr
      (leBytes 1 ch ++ leInt 8 (h.rawN d ch)) := by
  have hon' : (h.onEnc d ch fun e => { e with a := a, b := b }).encOn d ch = true := hon
  simp [Hw.encEdge, hon', hmode, hskip]

theorem execEncEdge_levels {a b : Bool} (hd : die < s.hw.dies.length) (h2 : ch < 2) (hc : ch < (s.hw.die die).enc.length) :
    ∃ t, execEncEdge die ch a b tm s = .next t ∧ (t.hw.enc die ch).a = a ∧ (t.hw.enc die ch).b = b := by
  obtain ⟨t, k, hn, K, henc, -⟩ :=
    s.motion_next (g := (·.until die tm)) (fun h => h.encEdge die ch a b (h.tb die 1)) (s.sameInputs_until die tm) hd h2
  refine ⟨t, hn, ?_⟩
  rw [henc]
  exact k.levels_encEdge a b _ (by rwa [K.length]) (by rwa [K.channels])

theorem execEncEdge_skips {a b : Bool} (hd : die < s.hw.dies.length) (h2 : ch < 2) (hon : s.hw.encOn die ch = true)
    (hmode : s.hw.rd die A.enc_mode ch ≠ 1)
    (hskip : (quadPlace a b + 4 - quadPlace (s.hw.enc die ch).a (s.hw.enc die ch).b) % 4 = 2) :
    ∃ t, execEncEdge die ch a b tm s = .next t ∧
      t.hw.rd die A.quad_errs ch = (s.hw.rd die A.quad_errs ch + 1) % 2 ^ 32 := by
  obtain ⟨t, k, hn, K, -, hquiet⟩ :=
    s.motion_next (g := (·.until die tm)) (fun h => h.encEdge die ch a b (h.tb die 1)) (s.sameInputs_until die tm) hd h2
  have hedge := k.encEdge_of_skip (a := a) (b := b) (k.tb die 1) (by rwa [K.encOn]) (by rwa [K.rd]) (by rwa [K.enc])
  rw [hedge] at hquiet
  obtain ⟨hrd, -⟩ := hquiet (by simp)
  refine ⟨t, hn, ?_⟩
  rw [hrd, Hw.rd_event _ _ _ _ _ _ (by decide), Hw.rd_add_errs _ _ (by decide) h2, Hw.rd_onEnc, K.rd]

/-! ### Loss of signal (R112) -/

/-- Where a signal is lost off the position source, the channel's LOS is set, and its reference and HOMED are dropped. -/
theorem Hw.losSet_of_lost (h : Hw) {pin : Nat} (he : h.rd d A.enc_enable ch = 1) (hl : h.encFlag d ch fLOS = false) (hp : pin ≠ 2)
    (hs : h.posCh d ≠ some ch) : h.losSet d ch pin =
      (((h.setEncFlag d ch fLOS true).setEncFlag d ch fHOMED false).onEnc d ch fun e =>
        { e with ref := none, errRun := 0 }).event d Ev.encLos (leBytes 1 ch ++ leBytes 1 pin ++ leBytes 1 0) := by
  simp [Hw.losSet, he, hl, hp, hs]

theorem Hw.losClear_of_lost (h : Hw) (hl : h.encFlag d ch fLOS = true) (hs : h.posCh d ≠ some ch) : h.losClear d ch =
    (h.setEncFlag d ch fLOS false).event d Ev.encLos (leBytes 1 ch ++ leBytes 1 3 ++ leBytes 1 1) := by
  simp [Hw.losClear, hl, hs]

theorem execEncLosSet_loses {pin : Nat} (hd : die < s.hw.dies.length) (h2 : ch < 2) (hc : ch < (s.hw.die die).enc.length)
    (he : s.hw.rd die A.enc_enable ch = 1) (hl : s.hw.encFlag die ch fLOS = false) (hp : pin ≠ 2)
    (hs : s.hw.posCh die ≠ some ch) :
    ∃ t, execEncLosSet die ch pin tm s = .next t ∧ t.hw.encFlag die ch fLOS = true ∧ t.hw.encFlag die ch fHOMED = false ∧
      (t.hw.enc die ch).ref = none := by
  obtain ⟨t, k, hn, K, henc, hquiet⟩ :=
    s.motion_next (g := (·.until die tm)) (·.losSet die ch pin) (s.sameInputs_until die tm) hd h2
  have hlost := k.losSet_of_lost (d := die) (by rwa [K.rd]) (by rwa [K.encFlag]) hp (by rwa [K.posCh])
  simp only [hlost] at henc hquiet
  obtain ⟨-, hflag⟩ := hquiet (by simp)
  refine ⟨t, hn, ?_, ?_, ?_⟩
  · rw [hflag, Hw.encFlag_event, Hw.encFlag_onEnc, Hw.encFlag_setEncFlag_ne _ _ _ _ (by decide), Hw.encFlag_setEncFlag_self]
  · rw [hflag, Hw.encFlag_event, Hw.encFlag_onEnc, Hw.encFlag_setEncFlag_self]
  · rw [henc, Hw.enc_event, Hw.enc_onEnc_self _ _ (by simpa [K.length] using hd) (by simpa [K.channels] using hc)]

theorem execEncLosClear_clears (hd : die < s.hw.dies.length) (h2 : ch < 2) (hl : s.hw.encFlag die ch fLOS = true)
    (hs : s.hw.posCh die ≠ some ch) : ∃ t, execEncLosClear die ch tm s = .next t ∧ t.hw.encFlag die ch fLOS = false := by
  obtain ⟨t, k, hn, K, -, hquiet⟩ := s.motion_next (g := (·.until die tm)) (·.losClear die ch) (s.sameInputs_until die tm) hd h2
  have hcleared := k.losClear_of_lost (d := die) (by rwa [K.encFlag]) (by rwa [K.posCh])
  simp only [hcleared] at hquiet
  obtain ⟨-, hflag⟩ := hquiet (by simp)
  refine ⟨t, hn, ?_⟩
  rw [hflag, Hw.encFlag_event, Hw.encFlag_setEncFlag_self]

/-! ### Index pulses (R114 to R116) -/

/-- An index that does not home gives the reference of a channel that has none. -/
theorem Hw.indexPulse_of_first (h : Hw) (t : Nat) (hon : h.encOn d ch = true) (hg : h.rd d A.index_gate ch = 0)
    (hr : (h.enc d ch).ref = none) (hh : h.rd d A.home_on_index ch = 0) :
    h.indexPulse d ch t = h.onEnc d ch fun e => { e with ref := some (h.rawN d ch), errRun := 0 } := by
  simp [Hw.indexPulse, hon, hg, hr, hh]

/-- An index error as it is counted and recorded. -/
def Hw.indexErr (h : Hw) (d ch : Nat) (x : Int) : Hw :=
  (h.add d A.index_errs ch).event d Ev.encIndexErr (leBytes 1 ch ++ leInt 4 x ++ (h.pos d).newest.evt)

/-- An index outside the window of a reference is an error, and the third in a row drops the reference. -/
theorem Hw.indexPulse_of_outside (h : Hw) (t : Nat) {r x : Int} (hon : h.encOn d ch = true) (hg : h.rd d A.index_gate ch = 0)
    (hr : (h.enc d ch).ref = some r) (hp : h.rd d A.index_period ch ≠ 0)
    (hx : indexDiff (h.rawN d ch) r (h.rd d A.index_period ch) = x) (hw : h.rd d A.index_window ch < x.natAbs) :
    h.indexPulse d ch t =
      if (h.enc d ch).errRun + 1 = 3 then
        ((h.indexErr d ch x).onEnc d ch fun e => { e with ref := none, errRun := 0 }).event d Ev.encIndexLost (leBytes 1 ch)
      else (h.indexErr d ch x).onEnc d ch fun e => { e with errRun := (h.enc d ch).errRun + 1 } := by
  have hne : x ≠ 0 := by rintro rfl; exact Nat.not_lt_zero _ hw
  simp [Hw.indexPulse, Hw.indexErr, hon, hg, hr, hp, hx, hne, Nat.not_le.2 hw]

theorem Hw.rd_indexErr (h : Hw) (d : Nat) (x : Int) (h2 : ch < 2) :
    (h.indexErr d ch x).rd d A.index_errs ch = (h.rd d A.index_errs ch + 1) % 2 ^ 32 := by
  rw [Hw.indexErr, Hw.rd_event _ _ _ _ _ _ (by decide), Hw.rd_add_errs _ _ (by decide) h2]

theorem execIndexPulse_references (hd : die < s.hw.dies.length) (h2 : ch < 2) (hc : ch < (s.hw.die die).enc.length)
    (hon : s.hw.encOn die ch = true) (hg : s.hw.rd die A.index_gate ch = 0) (hr : (s.hw.enc die ch).ref = none)
    (hh : s.hw.rd die A.home_on_index ch = 0) :
    ∃ t, execIndexPulse die ch tm s = .next t ∧ (t.hw.enc die ch).ref = some (s.hw.rawN die ch) := by
  obtain ⟨t, k, hn, K, henc, -⟩ :=
    s.motion_next (g := (·.until die tm)) (fun h => h.indexPulse die ch (h.tb die 1)) (s.sameInputs_until die tm) hd h2
  have hpulse := k.indexPulse_of_first (k.tb die 1) (d := die) (by rwa [K.encOn]) (by rwa [K.rd]) (by rwa [K.enc]) (by rwa [K.rd])
  refine ⟨t, hn, ?_⟩
  rw [henc, hpulse, Hw.enc_onEnc_self _ _ (by rwa [K.length]) (by rwa [K.channels]), K.rawN]

theorem execIndexPulse_errs {r : Int} (hd : die < s.hw.dies.length) (h2 : ch < 2) (hc : ch < (s.hw.die die).enc.length)
    (hon : s.hw.encOn die ch = true) (hg : s.hw.rd die A.index_gate ch = 0) (hr : (s.hw.enc die ch).ref = some r)
    (hp : s.hw.rd die A.index_period ch ≠ 0)
    (hw : s.hw.rd die A.index_window ch < (indexDiff (s.hw.rawN die ch) r (s.hw.rd die A.index_period ch)).natAbs) :
    ∃ t, execIndexPulse die ch tm s = .next t ∧ t.hw.rd die A.index_errs ch = (s.hw.rd die A.index_errs ch + 1) % 2 ^ 32 ∧
      ((s.hw.enc die ch).errRun = 2 → (t.hw.enc die ch).ref = none) := by
  obtain ⟨t, k, hn, K, henc, hquiet⟩ :=
    s.motion_next (g := (·.until die tm)) (fun h => h.indexPulse die ch (h.tb die 1)) (s.sameInputs_until die tm) hd h2
  have hpulse := k.indexPulse_of_outside (k.tb die 1) (d := die) (by rwa [K.encOn]) (by rwa [K.rd]) (by rwa [K.enc])
    (by rwa [K.rd]) rfl (by rwa [K.rd, K.rd, K.rawN])
  rw [hpulse] at hquiet
  obtain ⟨hrd, -⟩ := hquiet (by split <;> simp [Hw.indexErr])
  refine ⟨t, hn, ?_, fun h3 => ?_⟩
  · rw [hrd, ← K.rd]
    split
    · rw [Hw.rd_event _ _ _ _ _ _ (by decide), Hw.rd_onEnc, Hw.rd_indexErr _ _ _ h2]
    · rw [Hw.rd_onEnc, Hw.rd_indexErr _ _ _ h2]
  · rw [henc, hpulse, if_pos (by rw [K.enc, h3]), Hw.enc_event, Hw.enc_onEnc_self]
    · simpa [Hw.indexErr, K.length] using hd
    · simpa [Hw.indexErr, K.channels] using hc

/-! ### Home inputs and standstill (R123, R131) -/

/-- An edge that does not home shows its level and is recorded. -/
theorem Hw.encMag_of_other (h : Hw) {input : Nat} {rising : Bool} (t : Nat)
    (hm : h.rd d A.mag_home ch ≠ 1 + 2 * input + b2n (!rising)) : h.encMag d ch input rising t =
      (h.wr d A.mag_state ch (putBit (h.rd d A.mag_state ch) input rising)).event d Ev.encMag
        (leBytes 1 ch ++ leBytes 1 input ++ leBytes 1 (b2n (!rising)) ++ (h.pos d).newest.evt ++ leBytes 1 (b2n false)) := by
  simp [Hw.encMag, hm]

theorem execEncMag_shows {input : Nat} {rising : Bool} (hd : die < s.hw.dies.length) (h2 : ch < 2)
    (hm : s.hw.rd die A.mag_home ch ≠ 1 + 2 * input + b2n (!rising)) :
    ∃ t, execEncMag die ch input rising tm s = .next t ∧
      t.hw.rd die A.mag_state ch = putBit (s.hw.rd die A.mag_state ch) input rising := by
  obtain ⟨t, k, hn, K, -, hquiet⟩ :=
    s.motion_next (g := (·.until die tm)) (fun h => h.encMag die ch input rising (h.tb die 1)) (s.sameInputs_until die tm) hd h2
  have hedge := k.encMag_of_other (k.tb die 1) (d := die) (ch := ch) (by rwa [K.rd])
  rw [hedge] at hquiet
  obtain ⟨hrd, -⟩ := hquiet (by simp)
  refine ⟨t, hn, ?_⟩
  rw [hrd, Hw.rd_event _ _ _ _ _ _ (by decide), Hw.rd_wr_self, K.rd]

/-- Off the position source, `still_time_us` without a change of the count only raises STILL. -/
theorem Hw.stillTimeout_of_on (h : Hw) (hon : h.encOn d ch = true) (hs : h.posCh d ≠ some ch) :
    h.stillTimeout d ch = if h.encFlag d ch fSTILL then h else h.setEncFlag d ch fSTILL true := by
  simp [Hw.stillTimeout, hon, hs]

theorem execStillTimeout_still (hd : die < s.hw.dies.length) (h2 : ch < 2) (hon : s.hw.encOn die ch = true)
    (hs : s.hw.posCh die ≠ some ch) : ∃ t, execStillTimeout die ch s = .next t ∧ t.hw.encFlag die ch fSTILL = true := by
  obtain ⟨t, k, hn, K, -, hquiet⟩ := s.motion_next (g := id) (·.stillTimeout die ch) s.sameInputs_begun hd h2
  have hstill := k.stillTimeout_of_on (d := die) (by rwa [K.encOn]) (by rwa [K.posCh])
  simp only [hstill] at hquiet
  obtain ⟨-, hflag⟩ := hquiet (by split <;> simp)
  refine ⟨t, hn, ?_⟩
  rw [hflag]
  split
  · assumption
  · exact Hw.encFlag_setEncFlag_self ..

/-! ### Absolute words (R118 to R122) -/

theorem Hw.rd_absDiscard (h : Hw) (d : Nat) (h2 : ch < 2) :
    (h.absDiscard d ch).rd d A.abs_errs ch = (h.rd d A.abs_errs ch + 1) % 2 ^ 32 := by
  rw [Hw.absDiscard, Hw.setEncFlag, Hw.rd_wr_ne _ (by decide), Hw.rd_add_errs _ _ (by decide) h2]

/-- A valid word leaves the interface. -/
theorem Hw.enc_absValid_field {β : Type} (h : Hw) (d ch w : Nat) (latch : Nat × Int) (g : Enc → β)
    (hfwd : ∀ e b, g { e with fwd := b } = g e) (hlast : ∀ e m, g { e with lastAt := m } = g e)
    (hseen : ∀ e b, g { e with absSeen := b } = g e) (e j : Nat) : g ((h.absValid d ch w latch).enc e j) = g (h.enc e j) := by
  have htrue : ∀ k : Hw, g ((k.onEnc d ch fun x => { x with absSeen := true }).enc e j) = g (k.enc e j) := fun k =>
    k.enc_onEnc_field d ch _ g (fun x => hseen x true) e j
  have hcount : ∀ (k : Hw) n m, g ((k.changeN d ch n m true).enc e j) = g (k.enc e j) := fun k n m =>
    k.enc_changeN_field d ch n m true g hfwd hlast e j
  unfold Hw.absValid
  dsimp only
  split
  case isTrue => rw [hcount, htrue, Hw.enc_wr]
  split
  case isTrue => rw [Hw.enc_homeTo, htrue, Hw.enc_wr]
  split
  case isTrue => rw [htrue, Hw.enc_wr]
  split
  case isTrue => rw [Hw.enc_event, Hw.enc_setPending, htrue, Hw.enc_wr]
  case isFalse => rw [Hw.enc_event, htrue, Hw.enc_wr]

/-- The end of a word frees the interface, whatever comes of the word. -/
theorem Hw.enc_absComplete (h : Hw) (ack : Bool) (v : Nat) (hd : d < h.dies.length) (hc : ch < (h.die d).enc.length)
    (hw : (h.enc d ch).word.isSome) :
    ((h.absComplete d ch ack v).enc d ch).word = none ∧ ((h.absComplete d ch ack v).enc d ch).dat = true := by
  obtain ⟨latch, hl⟩ := Option.isSome_iff_exists.1 hw
  have hfree : (h.onEnc d ch fun e => { e with word := none, dat := true }).enc d ch =
      { h.enc d ch with word := none, dat := true } := h.enc_onEnc_self _ hd hc
  have hvalid : ∀ (k : Hw) w, (((k.absValid d ch w latch).enc d ch).word, ((k.absValid d ch w latch).enc d ch).dat) =
      ((k.enc d ch).word, (k.enc d ch).dat) := fun k w =>
    k.enc_absValid_field d ch w latch (fun e => (e.word, e.dat)) (fun _ _ => rfl) (fun _ _ => rfl) (fun _ _ => rfl) d ch
  rw [← Prod.mk.injEq]
  simp only [Hw.absComplete, hl, apply_ite (fun k : Hw => ((k.enc d ch).word, (k.enc d ch).dat)), hvalid, Hw.enc_setEncFlag,
    Hw.enc_absDiscard, Hw.enc_absErr, hfree, ite_self]

/-- A word without acknowledge is an error and discarded. -/
theorem Hw.absComplete_of_noAck (h : Hw) (v : Nat) (hw : (h.enc d ch).word.isSome) (hl : h.encFlag d ch fLOS = false) :
    h.absComplete d ch false v =
      ((h.onEnc d ch fun e => { e with word := none, dat := true }).absErr d ch 1).absDiscard d ch := by
  obtain ⟨latch, hlatch⟩ := Option.isSome_iff_exists.1 hw
  simp [Hw.absComplete, hlatch, hl]

theorem execAbsWordComplete_frees {ack : Bool} {word : Nat} (hd : die < s.hw.dies.length) (h2 : ch < 2)
    (hc : ch < (s.hw.die die).enc.length) (hw : (s.hw.enc die ch).word.isSome) :
    ∃ t, execAbsWordComplete die ch ack word s = .next t ∧ (t.hw.enc die ch).word = none ∧ (t.hw.enc die ch).dat = true ∧
      (ack = false → s.hw.encFlag die ch fLOS = false →
        t.hw.rd die A.abs_errs ch = (s.hw.rd die A.abs_errs ch + 1) % 2 ^ 32) := by
  obtain ⟨t, k, hn, K, henc, hquiet⟩ := s.motion_next (g := id) (·.absComplete die ch ack word) s.sameInputs_begun hd h2
  have hk : (k.enc die ch).word.isSome := by rwa [K.enc]
  obtain ⟨hword, hdat⟩ := k.enc_absComplete ack word (by rwa [K.length]) (by rwa [K.channels]) hk
  refine ⟨t, hn, by rw [henc, hword], by rw [henc, hdat], fun hack hl => ?_⟩
  subst hack
  have hno := k.absComplete_of_noAck word hk (by rwa [K.encFlag])
  simp only [hno] at hquiet
  obtain ⟨hrd, -⟩ := hquiet (by simp)
  rw [hrd, Hw.rd_absDiscard _ _ h2, Hw.absErr, Hw.rd_event _ _ _ _ _ _ (by decide), Hw.rd_onEnc, K.rd]

/-- A request that finds the interface free takes the time and the count at the latch point; with DAT low there is none. -/
theorem Hw.word_absRequest (h : Hw) (hd : d < h.dies.length) (hc : ch < (h.die d).enc.length)
    (he : h.rd d A.enc_enable ch = 1) (hm : h.rd d A.enc_mode ch ≠ 0) (hw : (h.enc d ch).word = none) :
    ((h.absRequest d ch).enc d ch).word = if (h.enc d ch).dat then some (h.tb d 1, h.rawN d ch) else none := by
  have hfree : ¬(h.rd d A.enc_enable ch = 0 ∨ h.rd d A.enc_mode ch = 0 ∨ (h.enc d ch).word.isSome = true) := by simp [he, hm, hw]
  rw [Hw.absRequest, if_neg hfree]
  cases hdat : (h.enc d ch).dat with
  | true => simp [Hw.enc_onEnc_self, hd, hc]
  | false => simp [hw]

@[simp] theorem Hw.tb_onEnc (h : Hw) (d ch : Nat) (f : Enc → Enc) (e i : Nat) : (h.onEnc d ch f).tb e i = h.tb e i := by
  have htbs : ((h.onEnc d ch f).die e).tbs = (h.die e).tbs := (h.onEnc_only d ch f).die e .tbs (by decide)
  simp only [Hw.tb, htbs]

theorem execAbsWordRequest_latches {dat : Bool} (hd : die < s.hw.dies.length) (h2 : ch < 2) (hc : ch < (s.hw.die die).enc.length)
    (he : s.hw.rd die A.enc_enable ch = 1) (hm : s.hw.rd die A.enc_mode ch ≠ 0) (hw : (s.hw.enc die ch).word = none) :
    ∃ t, execAbsWordRequest die ch dat s = .next t ∧ s.SameMem t ∧
      (t.hw.enc die ch).word = if dat then some (s.hw.tb die 1, s.hw.rawN die ch) else none := by
  have hn : execAbsWordRequest die ch dat s = .next (s.run _) := s.onUnit_next _ hd h2
  refine ⟨_, hn, (execAbsWordRequest_within _ _ _ _ hn).sameMem, ?_⟩
  have hdat : (s.begun.onEnc die ch fun e => { e with dat := dat }).enc die ch = { s.hw.enc die ch with dat := dat } :=
    s.begun.enc_onEnc_self _ hd hc
  have hword := (s.begun.onEnc die ch fun e => { e with dat := dat }).word_absRequest (d := die) (ch := ch)
    ((Hw.onEnc_length ..).symm ▸ hd) ((Hw.channels_length_onEnc ..).symm ▸ hc) he hm (by rw [hdat, hw])
  rw [hdat, Hw.tb_onEnc] at hword
  exact hword

/-- The reply and the channels after a mailbox command are those that its work leaves. -/
theorem State.command_channels {q : Hdr} {op : Nat} {o : ObjRef} (hA : s.Admits q op o)
    {body : List (List Host.Cell) → Nat → Hw → Reply × Hw} {w : Reply × Hw}
    (hb : body s.mems (s.hw.execDie q op o) (s.atWork q) = w) :
    ∃ t, s.command q op o body = .next t ∧ t.replyOf q = some w.1 ∧ ∀ e j, t.hw.enc e j = w.2.enc e j := by
  subst hb
  refine ⟨_, State.command_next hA body, Hw.reply?_finish .., fun e j => ?_⟩
  exact congrArg (fun l => l.getD j {}) (Hw.finish_die_enc ..)

/-- A write of `abs_request` is carried out by the die that its header names (R18). -/
theorem Hw.execDie_absRequest (h : Hw) (q : Hdr) (ch : Nat) : h.execDie q 0x0011 ⟨0x03, ch, 0x2A⟩ = q.die := rfl

/-- The start of a command leaves the inputs. -/
theorem State.sameInputs_atWork (s : State) (q : Hdr) : s.hw.SameInputs (s.atWork q) :=
  ⟨fun _ _ _ => rfl, fun e => s.begun.started_die_enc q e, s.begun.started_length q⟩

theorem execAbsRequest_latches {q : Hdr} (hA : s.Admits q 0x0011 ⟨0x03, ch, 0x2A⟩) (h2 : ch < 2)
    (hc : ch < (s.hw.die q.die).enc.length) (he : s.hw.rd q.die A.enc_enable ch = 1) (hm : s.hw.rd q.die A.enc_mode ch ≠ 0)
    (hw : (s.hw.enc q.die ch).word = none) (hdat : (s.hw.enc q.die ch).dat = true) :
    ∃ t, execAbsRequest q ch s = .next t ∧ s.SameMem t ∧ t.replyOf q = some .ok ∧
      (t.hw.enc q.die ch).word = some (s.hw.tb q.die 1, s.hw.rawN q.die ch) := by
  have K := s.sameInputs_atWork q
  have hk : ((s.atWork q).enc q.die ch).word = none := by rwa [K.enc]
  obtain ⟨t, hn, hreply, henc⟩ : ∃ t, execAbsRequest q ch s = .next t ∧ t.replyOf q = some .ok ∧
      ∀ e j, t.hw.enc e j = ((s.atWork q).absRequest q.die ch).enc e j :=
    State.command_channels (w := okWith ((s.atWork q).absRequest q.die ch)) hA
      (by simp [Hw.execDie_absRequest, Nat.not_le.2 h2, hk])
  have htb : (s.atWork q).tb q.die 1 = s.hw.tb q.die 1 := by simp [State.atWork, Hw.tb]
  refine ⟨t, hn, (execAbsRequest_within _ _ _ hn).sameMem, hreply, ?_⟩
  rw [henc, Hw.word_absRequest _ (by rw [K.length]; exact hA.1) (by rwa [K.channels]) (by rwa [K.rd]) (by rwa [K.rd]) hk, K.enc,
    hdat, htb, K.rawN]
  rfl

/-- A monoflop that does not answer ends its word and counts as an error. -/
theorem execAbsTimeout_errs (hd : die < s.hw.dies.length) (h2 : ch < 2) (hc : ch < (s.hw.die die).enc.length)
    (hw : (s.hw.enc die ch).word.isSome) : ∃ t, execAbsTimeout die ch s = .next t ∧ s.SameMem t ∧ (t.hw.enc die ch).word = none ∧
      t.hw.rd die A.abs_errs ch = (s.hw.rd die A.abs_errs ch + 1) % 2 ^ 32 := by
  have hn : execAbsTimeout die ch s = .next (s.run _) := s.onUnit_next _ hd h2
  have hbusy : ¬(s.begun.enc die ch).word.isNone = true := Bool.not_eq_true _ ▸ Option.isNone_eq_false_iff.2 hw
  refine ⟨_, hn, (execAbsTimeout_within _ _ _ hn).sameMem, ?_, ?_⟩
  · rw [State.run_enc, if_neg hbusy, Hw.enc_event, Hw.enc_absDiscard, s.begun.enc_onEnc_self _ hd hc]
  · rw [State.run_rd, if_neg hbusy, Hw.rd_event _ _ _ _ _ _ (by decide), Hw.rd_absDiscard _ _ h2]
    rfl

/-- Settles O16, by what each event of an input comes to: off the position source nothing follows it, and what follows a pair
leaves the channels. -/
theorem motionRowsComplete : Obligations.MotionRowsComplete := by
  unfold Obligations.MotionRowsComplete
  exact ⟨fun s die ch a b tm hd h2 hc => execEncEdge_levels hd h2 hc,
    fun s die ch a b tm hd h2 _ hon hmode hskip => execEncEdge_skips hd h2 hon hmode hskip,
    fun s die ch pin tm hd h2 hc he hl hp hs => execEncLosSet_loses hd h2 hc he hl hp hs,
    fun s die ch tm hd h2 hl hs => execEncLosClear_clears hd h2 hl hs,
    fun s die ch tm hd h2 hc hon hg hr hh => execIndexPulse_references hd h2 hc hon hg hr hh,
    fun s die ch tm r hd h2 hc hon hg hr hp hw => execIndexPulse_errs hd h2 hc hon hg hr hp hw,
    fun s die ch ack word hd h2 hc hw => execAbsWordComplete_frees hd h2 hc hw,
    fun s die ch input rising tm hd h2 hm => execEncMag_shows hd h2 hm,
    fun s die ch hd h2 hon hs => execStillTimeout_still hd h2 hon hs,
    fun s die ch dat hd h2 hc he hm hw => execAbsWordRequest_latches hd h2 hc he hm hw,
    fun s h ch hA h2 hc he hm hw hdat => execAbsRequest_latches hA h2 hc he hm hw hdat,
    fun s die ch hd h2 hc hw => execAbsTimeout_errs hd h2 hc hw⟩

end Sys2Proof.Machine
end

section
/-!
PROOFS. The operations of a head port (R182 to R204): what each leaves in the record of its port, in its state and fault, and in the
counts of its die.
-/
namespace Sys2Proof.Machine

variable {C : List Nat} {F : List DieRec} {G : List HwRec} {h h' : Hw} {d p : Nat}

/-! ### The record of a port -/

theorem Hw.Only.port (K : Hw.Only C F G h h') (hF : .ports ∉ F) (d p : Nat) : h'.port d p = h.port d p := by
  have hports : (h'.die d).ports = (h.die d).ports := K.die d .ports hF
  simp only [Hw.port, hports]

theorem Hw.Only.spits (K : Hw.Only C F G h h') (hF : .spits ∉ F) (d : Nat) : (h'.die d).spits = (h.die d).spits := K.die d .spits hF

theorem Hw.port_onPort_self (h : Hw) (f : Port → Port) (hd : d < h.dies.length) (hp : p < (h.die d).ports.length) :
    (h.onPort d p f).port d p = f (h.port d p) := by
  unfold Hw.port Hw.onPort
  rw [h.die_onDie_self _ hd]
  simp [List.getD_eq_getElem?_getD, hp]

/-- A field that an update of a port leaves is the same in every port. -/
theorem Hw.port_onPort_field {β : Type} (h : Hw) (d p : Nat) (f : Port → Port) (g : Port → β) (hg : ∀ P, g (f P) = g P) (e q : Nat) :
    g ((h.onPort d p f).port e q) = g (h.port e q) := by
  refine h.die_onDie_field d _ (fun D => g (D.ports.getD q {})) (fun D => ?_) e
  simp only [List.getD_eq_getElem?_getD, List.getElem?_modify]
  cases D.ports[q]? with
  | none => rfl
  | some P =>
    by_cases hpq : p = q
    · simp [hpq, hg]
    · simp [hpq]

@[simp] theorem Hw.rd_onPort (h : Hw) (d p : Nat) (f : Port → Port) (e : Nat) (a : AttrId) (i : Nat) :
    (h.onPort d p f).rd e a i = h.rd e a i := rfl
@[simp] theorem Hw.port_wr (h : Hw) (d : Nat) (a : AttrId) (i v e q : Nat) : (h.wr d a i v).port e q = h.port e q := rfl

/-- A latch lost keeps the queries of the ports. -/
theorem Hw.queries_latchLost (h : Hw) (d p e q : Nat) : ((h.latchLost d p).port e q).queries = (h.port e q).queries :=
  h.port_onPort_field d p _ (·.queries) (by intro _; rfl) e q

/-- A count of a port goes up by one and wraps (assumption log 6); each is 32 bits wide on all 24 ports. -/
theorem Hw.rd_add_portCount (h : Hw) (d : Nat) {a : AttrId}
    (ha : a ∈ [A.lines_shifted, A.reshifts, A.query_errs, A.spit_lines]) (hp : p < 24) :
    (h.add d a p).rd d a p = (h.rd d a p + 1) % 2 ^ 32 := by
  have width : ∀ a ∈ [A.lines_shifted, A.reshifts, A.query_errs, A.spit_lines], ∀ p < 24,
      (attrRow? a.cls p a.id).map (·.width) = some 32 := by decide
  exact h.rd_add_wrap32 d (width a ha p hp)

/-! ### Masks of ports (R203) -/

theorem portsOf_two_pow : ∀ p < 24, portsOf (2 ^ p) = [p] := by decide

/-- An act that sets an attribute of its own port, and leaves that of every other, gives it to each port of a list that it is done
for, and a port that has it already keeps it. -/
theorem Hw.rd_foldl_ports {a : AttrId} {v : Nat} {act : Hw → Nat → Hw} (hset : ∀ k q, (act k q).rd d a q = v)
    (hkeep : ∀ k q p, q ≠ p → (act k q).rd d a p = k.rd d a p) (h : Hw) (l : List Nat) (hp : p ∈ l ∨ h.rd d a p = v) :
    (l.foldl act h).rd d a p = v := by
  induction l generalizing h with
  | nil => exact hp.resolve_left List.not_mem_nil
  | cons q l ih =>
    refine ih (act h q) ?_
    by_cases hqp : q = p
    · exact .inr (hqp ▸ hset h q)
    · rw [hkeep h q p hqp]
      exact hp.imp_left fun hmem => (List.mem_cons.1 hmem).resolve_left (Ne.symm hqp)

/-- HP_CTRL on ports of which none fails acts on every one. -/
theorem hpCtrl_of_clear {ports : Nat} {check : Nat → Option Status} (act : Hw → Nat → Hw) (h : Hw) (hr : ports < 2 ^ 24)
    (hc : ∀ p ∈ portsOf ports, check p = none) :
    hpCtrl ports check act h = (.words [0xFF], (portsOf ports).foldl act h) := by
  have hnone : ((portsOf ports).findSome? fun p => (check p).map fun st => (p, st)) = none :=
    List.findSome?_eq_none_iff.2 fun p hp => by rw [hc p hp]; rfl
  simp only [hpCtrl, if_neg (Nat.not_le.2 hr), hnone]

/-! ### A port in FAULT (R199, R200) -/

/-- A port in FAULT. -/
def Hw.inFault (h : Hw) (d p : Nat) : Prop := h.rd d A.hp_state p = 5

/-- A port that is not in FAULT and does not enter it leaves the ports in FAULT. -/
theorem Hw.inFault_wr_state {q v : Nat} (hq : ¬ h.inFault d q) (hv : v ≠ 5) : (h.wr d A.hp_state q v).inFault d p ↔ h.inFault d p := by
  unfold Hw.inFault at *
  by_cases hqp : q = p
  · subst hqp
    rw [Hw.rd_wr_self]
    exact iff_of_false hv hq
  · rw [Hw.rd_wr_unit _ (by decide) hqp]

theorem Hw.Only.inFault (K : Hw.Only C F G h h') (hC : 0 ∉ C ∧ A.hp_state.cls ∉ C ∧ A.hp_state.code ∉ C) :
    h'.inFault d p ↔ h.inFault d p := by rw [Hw.inFault, K.read A.hp_state hC, Hw.inFault]

/-- Acts that leave the ports in FAULT leave them one after the other. -/
theorem Hw.inFault_foldl {α : Type} {act : Hw → α → Hw} (hact : ∀ k x, (act k x).inFault d p ↔ k.inFault d p) (l : List α) (h : Hw) :
    (l.foldl act h).inFault d p ↔ h.inFault d p := by
  induction l generalizing h with
  | nil => rfl
  | cons x l ih => exact (ih _).trans (hact h x)

/-- IDLE and PRINT are shown on no port in FAULT. -/
theorem Hw.inFault_refreshPorts : (h.refreshPorts d).inFault d p ↔ h.inFault d p := by
  refine Hw.inFault_foldl (fun k q => ?_) _ h
  dsimp only
  split
  next hst => exact Hw.inFault_wr_state (by unfold Hw.inFault; omega) (by split <;> decide)
  next => rfl

theorem Hw.inFault_spitOff {ports : List Nat} : (h.spitOff d ports).inFault d p ↔ h.inFault d p := by
  refine Hw.inFault_refreshPorts.trans (Hw.inFault_foldl (fun k q => ?_) _ h)
  have hlost : ∀ i, (k.latchLost d q).inFault d i ↔ k.inFault d i := fun i => (Hw.latchLost_only ..).inFault (by decide)
  split
  next hst => rw [Hw.inFault_wr_state (by rw [hlost]; unfold Hw.inFault; omega) (by decide), hlost]
  next => rfl

theorem Hw.inFault_spitDrop {gone : Nat → Bool} : (h.spitDrop d gone).inFault d p ↔ h.inFault d p := by
  unfold Hw.spitDrop
  refine Hw.inFault_foldl (fun k j => ?_) _ (h.onDie d _)
  rw [Hw.inFault_spitOff, (Hw.event_only ..).inFault (by decide)]

/-- A port that had no fault is in FAULT with the bit of the new one, whatever the stop that it may start does. -/
theorem Hw.portFault_faults {b : Nat} (hs : h.rd d A.hp_state p ≠ 5) :
    (h.portFault d p b).inFault d p ∧ (h.portFault d p b).rd d A.hp_fault p = h.rd d A.hp_fault p ||| 2 ^ b := by
  unfold Hw.portFault
  extract_lets f noted stated cleared dropped shown
  have hs' : noted.rd d A.hp_state p ≠ 5 := by rwa [Hw.rd_wr_ne _ (by decide)]
  have hcleared : cleared.inFault d p := Hw.rd_wr_self ..
  have hdropped : dropped.inFault d p := by
    rwa [Hw.inFault_spitDrop, (Hw.dropQueries_only ..).inFault (by decide)]
  have hshown : shown.inFault d p := by
    rwa [(Hw.showPort_only ..).inFault (by decide), (Hw.event_only ..).inFault (by decide)]
  have hfault : shown.rd d A.hp_fault p = h.rd d A.hp_fault p ||| 2 ^ b := by
    rw [(Hw.showPort_only ..).read A.hp_fault (by decide), Hw.rd_event _ _ _ _ _ _ (by decide),
      (Hw.spitDrop_only ..).read A.hp_fault (by decide), (Hw.dropQueries_only ..).read A.hp_fault (by decide), Hw.rd_onPort,
      Hw.rd_wr_ne _ (by decide), Hw.rd_wr_self]
  rw [if_neg hs']
  split
  · exact ⟨((Hw.startStop_only ..).inFault (by decide)).2 hshown, ((Hw.startStop_only ..).read A.hp_fault (by decide) ..).trans hfault⟩
  · exact ⟨hshown, hfault⟩

/-- A port taken up is in QUERY, IDLE or PRINT. -/
theorem Hw.not_inFault_portUp : ¬ (h.portUp d p).inFault d p := by
  unfold Hw.portUp
  extract_lets qs asked
  split
  · rw [Hw.inFault_refreshPorts, Hw.inFault, Hw.rd_wr_self]
    decide
  · rw [Hw.inFault, Hw.rd_wr_self]
    decide

/-! ### The context of a port (R181, R206) -/

/-- A register cleared leaves no register with a larger value. -/
theorem Hw.rd_clear_le (h : Hw) (d : Nat) (a : AttrId) (i e : Nat) (b : AttrId) (j : Nat) :
    (h.wr d a i 0).rd e b j ≤ h.rd e b j := by
  unfold Hw.rd Hw.wr
  by_cases hk : rkey d a i = rkey e b j
  · rw [hk, Hw.rdk_wrk_self]
    exact Nat.zero_le _
  · exact Nat.le_of_eq (Hw.rdk_wrk_ne _ _ hk)

theorem foldl_max_le_foldl_max {f g : Nat → Nat} (hfg : ∀ x, f x ≤ g x) (l : List Nat) {a b : Nat} (hab : a ≤ b) :
    (l.map f).foldl max a ≤ (l.map g).foldl max b := by
  induction l generalizing a b with
  | nil => exact hab
  | cons x l ih =>
    have hx := hfg x
    exact ih (by omega)

/-- With its faults cleared a port's largest delay is no larger: only a number of row groups that no port has would count the register
of the faults among the delays. -/
theorem Hw.dMax_wr_fault_le (h : Hw) (d p : Nat) : (h.wr d A.hp_fault p 0).dMax d p ≤ h.dMax d p := by
  have hgroups : (h.wr d A.hp_fault p 0).rgCount d p = h.rgCount d p := Hw.rd_wr_ne _ (by decide) ..
  unfold Hw.dMax Hw.delays
  rw [hgroups]
  exact foldl_max_le_foldl_max (fun g => h.rd_clear_le ..) _ (Nat.le_refl 0)

theorem Hw.portEnded_wr_fault (h : Hw) {c : Ctx} (he : h.portEnded d c p = true) :
    (h.wr d A.hp_fault p 0).portEnded d c p = true := by
  unfold Hw.portEnded Hw.lastSlot at *
  cases hl : c.last with
  | none => simp [hl] at he
  | some l =>
    simp only [hl, Option.map_some, decide_eq_true_eq] at he ⊢
    exact Nat.lt_of_le_of_lt (Nat.add_le_add_left (h.dMax_wr_fault_le d p) l) he

/-- A port without a context gets none when its faults are cleared. -/
theorem Hw.portCtx_wr_fault (h : Hw) (hc : h.portCtx d p = none) : (h.wr d A.hp_fault p 0).portCtx d p = none := by
  unfold Hw.portCtx at *
  rw [List.find?_eq_none] at *
  intro c hmem hgot
  refine hc c hmem ?_
  simp only [Bool.and_eq_true, Bool.not_eq_true', Bool.eq_false_iff] at hgot ⊢
  obtain ⟨hon, hopen⟩ := hgot
  refine ⟨?_, fun he => hopen (h.portEnded_wr_fault he)⟩
  simpa [Hw.ctxPrints, Hw.ctxState] using hon

/-- A port restarted outside every context has no fault left. -/
theorem Hw.portRestart_recovers (hc : h.portCtx d p = none) :
    (h.portRestart d p).rd d A.hp_fault p = 0 ∧ (h.portRestart d p).rd d A.hp_state p ≠ 5 := by
  simp only [Hw.portRestart, h.portCtx_wr_fault hc]
  refine ⟨?_, ?_⟩
  · rw [Hw.rd_event _ _ _ _ _ _ (by decide), (Hw.portUp_only ..).read A.hp_fault (by decide), Hw.rd_onPort, Hw.rd_wr_self]
  · rw [Hw.rd_event _ _ _ _ _ _ (by decide)]
    exact Hw.not_inFault_portUp

/-! ### Lines shifted (R183, R186) -/

theorem Hw.rd_sendLine_lines (h : Hw) (d k : Nat) (levels : List Nat) (hp : p < 24) :
    (h.sendLine d p k levels).rd d A.lines_shifted p = (h.rd d A.lines_shifted p + 1) % 2 ^ 32 := by
  unfold Hw.sendLine
  dsimp only
  rw [Hw.rd_add_portCount _ _ (by decide) hp, Hw.rd_onPort]
  split <;> rfl

/-- The next staged slot is shifted, and the latch that may follow leaves the count. -/
theorem Hw.rd_slotShift_lines {x : Slot} (hp : p < 24) (hlive : h.portLive d p = true) (h3 : h.rd d A.hp_state p ≠ 3)
    (h4 : h.rd d A.hp_state p ≠ 4) (hregs : (h.port d p).slots.any (fun x => x.inRegs) = false) (hx : h.nextShift d p = some x) :
    (h.slotShift d p).rd d A.lines_shifted p = (h.rd d A.lines_shifted p + 1) % 2 ^ 32 := by
  have hgo : ¬((!h.portLive d p) = true ∨ h.rd d A.hp_state p = 3 ∨ h.rd d A.hp_state p = 4) := by simp [hlive, h3, h4]
  have hempty : ¬(h.port d p).slots.any (fun x => x.inRegs) = true := ne_true_of_eq_false hregs
  simp only [Hw.slotShift, if_neg hgo, if_neg hempty, hx]
  rw [(Hw.latchNext_only ..).read A.lines_shifted (by decide), Hw.rd_onPort, Hw.rd_sendLine_lines _ _ _ _ hp]

/-! ### The end of a query (R192, R199) -/

/-- What the end of a query leaves of a port whose head has not answered before: the run of failures, the reply of HP_QUERY, the
latch unknown, and the port out of QUERY once no query is left. -/
def Hw.queryClose (h : Hw) (d p : Nat) (q : Query) (result : Nat) (data : List Byte) : Hw :=
  let counted := h.onPort d p fun P => { P with queryFails := if result = 0 then 0 else P.queryFails + 1 }
  let replied := q.asker.elim counted fun a => counted.putReply a.1 a.2 (queryReply result (if result = 0 then data else []))
  let lost := replied.latchLost d p
  if (lost.port d p).queries.isEmpty then (lost.wr d A.hp_state p 1).refreshPorts d else lost

/-- The first query off a port's list. -/
def Hw.queryTaken (h : Hw) (d p : Nat) : Hw := h.onPort d p fun P => { P with queries := P.queries.drop 1 }

/-- A bad reply is counted and recorded. -/
theorem Hw.queryEnd_of_badReply (q : Query) (data : List Byte) (hq : h.rd d A.head_query p = 0) :
    h.queryEnd d p q 2 data = (((h.queryTaken d p).add d A.query_errs p).event d Ev.hpQueryErr
      (leBytes 1 p ++ leBytes 1 q.cmd ++ leBytes 1 2)).queryClose d p q 2 data := by
  cases ha : q.asker <;> simp [Hw.queryEnd, Hw.queryClose, Hw.queryTaken, hq, ha]

/-- A head that has never answered and stays silent does not support queries, and that is no error. -/
theorem Hw.queryEnd_of_silence (q : Query) (data : List Byte) (hq : h.rd d A.head_query p = 0) :
    h.queryEnd d p q 1 data = ((h.queryTaken d p).wr d A.head_query p 2).queryClose d p q 1 data := by
  cases ha : q.asker <;> simp [Hw.queryEnd, Hw.queryClose, Hw.queryTaken, hq, ha]

theorem Hw.queryClose_only (h : Hw) (d p : Nat) (q : Query) (result : Nat) (data : List Byte) :
    Hw.Only [A.hp_state.code] [.ports] [.replies] h (h.queryClose d p q result data) := by
  unfold Hw.queryClose
  extract_lets counted replied lost
  have hcounted : Hw.Only [A.hp_state.code] [.ports] [.replies] h counted := (Hw.onPort_only ..).mono (by decide)
  have hreplied : Hw.Only [A.hp_state.code] [.ports] [.replies] h replied := by
    simp only [replied]
    cases q.asker with
    | none => exact hcounted
    | some a => exact hcounted.step (Hw.putReply_only ..) (by decide)
  have hlost : Hw.Only [A.hp_state.code] [.ports] [.replies] h lost := hreplied.step (Hw.latchLost_only ..) (by decide)
  split
  · exact (hlost.step (Hw.wr_only ..) (by decide)).step (Hw.refreshPorts_only ..) (by decide)
  · exact hlost

theorem Hw.queries_queryClose (h : Hw) (d p : Nat) (q : Query) (result : Nat) (data : List Byte) :
    ((h.queryClose d p q result data).port d p).queries = (h.port d p).queries := by
  unfold Hw.queryClose
  extract_lets counted replied lost
  have hcounted : (counted.port d p).queries = (h.port d p).queries :=
    h.port_onPort_field d p _ (·.queries) (by intro _; rfl) d p
  have hreplied : (replied.port d p).queries = (counted.port d p).queries := by
    simp only [replied]
    cases q.asker <;> rfl
  have hlost : (lost.port d p).queries = (h.port d p).queries := by rw [Hw.queries_latchLost, hreplied, hcounted]
  split
  · rw [(Hw.refreshPorts_only ..).port (by decide), Hw.port_wr, hlost]
  · exact hlost

/-- A reply as long as asked for whose CRC differs is a bad one. -/
theorem Hw.rd_queryEnd_errs (h : Hw) (d : Nat) (q : Query) (data : List Byte) (hp : p < 24) (hq : h.rd d A.head_query p = 0) :
    (h.queryEnd d p q 2 data).rd d A.query_errs p = (h.rd d A.query_errs p + 1) % 2 ^ 32 := by
  rw [Hw.queryEnd_of_badReply q data hq, (Hw.queryClose_only ..).read A.query_errs (by decide), Hw.rd_event _ _ _ _ _ _ (by decide),
    Hw.rd_add_portCount _ _ (by decide) hp]
  rfl

theorem Hw.queryEnd_unsupported {q : Query} {qs : List Query} (data : List Byte) (hd : d < h.dies.length)
    (hp : p < (h.die d).ports.length) (hqs : (h.port d p).queries = q :: qs) (hq : h.rd d A.head_query p = 0) :
    (h.queryEnd d p q 1 data).rd d A.head_query p = 2 ∧ ((h.queryEnd d p q 1 data).port d p).queries = qs := by
  rw [Hw.queryEnd_of_silence q data hq]
  refine ⟨?_, ?_⟩
  · rw [(Hw.queryClose_only ..).read A.head_query (by decide), Hw.rd_wr_self]
  · rw [Hw.queries_queryClose, Hw.port_wr, Hw.queryTaken, h.port_onPort_self _ hd hp, hqs]
    rfl

/-! ### Ports enabled and disabled (R201, R203) -/

theorem Hw.rd_portOff_enable (h : Hw) (d p : Nat) : (h.portOff d p).rd d A.hp_enable p = 0 := by
  unfold Hw.portOff
  dsimp only
  rw [Hw.rd_onPort, Hw.rd_wr_ne _ (by decide), Hw.rd_wr_ne _ (by decide), Hw.rd_wr_self]

/-- A port taken off leaves the others enabled or disabled as they are. -/
theorem Hw.rd_portOff_enable_other (h : Hw) (d : Nat) {q : Nat} (hqp : q ≠ p) :
    (h.portOff d q).rd d A.hp_enable p = h.rd d A.hp_enable p := by
  unfold Hw.portOff
  dsimp only
  rw [Hw.rd_onPort, Hw.rd_wr_ne _ (by decide), Hw.rd_wr_ne _ (by decide), Hw.rd_wr_unit _ (by decide) hqp,
    (Hw.dropQueries_only ..).read A.hp_enable (by decide)]
  split
  · exact (Hw.writeLost_only ..).read A.hp_enable (by decide) ..
  · rfl

/-! ### Spitting (R196, R204) -/

/-- No port taken out of parked spitting is left in a job. -/
theorem Hw.spits_spitDrop (h : Hw) (gone : Nat → Bool) (hd : d < h.dies.length) :
    ∀ j ∈ ((h.spitDrop d gone).die d).spits, ∀ x ∈ j.ports, gone x.1 = false := by
  unfold Hw.spitDrop
  extract_lets jobs over_ left
  intro j hj x hx
  have hdone : Hw.Only [0x1f, 0x70002] [.front, .buckets, .folded, .ports] [] left
      ((jobs.filter over_).foldl (fun (h : Hw) j =>
        (h.event d Ev.hpSpitDone (leBytes 4 ((j.ports.map (2 ^ ·.1)).sum) ++ leBytes 4 j.lines)).spitOff d (j.ports.map (·.1))) left) :=
    .foldl (.refl ..) (fun k j => ((Hw.event_only ..).mono (by decide)).step (Hw.spitOff_only ..) (by decide)) _
  have hleft : (left.die d).spits = jobs.filter (!over_ ·) := congrArg (·.spits) (h.die_onDie_self _ hd)
  rw [hdone.spits (by decide), hleft] at hj
  obtain ⟨j₀, -, rfl⟩ := List.mem_map.1 (List.mem_filter.1 (List.mem_filter.1 hj).1).1
  simpa using (List.mem_filter.1 hx).2

end Sys2Proof.Machine
end

section
/-!
PROOFS. The rows of the head ports (R186, R190 to R193, R195 to R201, R203, R211, R213): the events of a port, the port commands, and
spitting.
-/
namespace Sys2Proof.Machine

variable {s : State} {die port tm : Nat}

theorem State.run_port (s : State) (f : List (List Host.Cell) → Hw → Hw) (d p : Nat) :
    (s.run f).hw.port d p = (f s.mems s.begun).port d p := rfl

@[simp] theorem State.atWork_length (s : State) (q : Hdr) : (s.atWork q).dies.length = s.hw.dies.length := s.begun.started_length q
@[simp] theorem State.atWork_rd (s : State) (q : Hdr) (d : Nat) (a : AttrId) (i : Nat) : (s.atWork q).rd d a i = s.hw.rd d a i := rfl
@[simp] theorem State.atWork_ports (s : State) (q : Hdr) (d : Nat) : ((s.atWork q).die d).ports = (s.hw.die d).ports :=
  s.begun.started_die_ports q d
@[simp] theorem State.atWork_spits (s : State) (q : Hdr) (d : Nat) : ((s.atWork q).die d).spits = (s.hw.die d).spits :=
  s.begun.started_die_spits q d

/-! ### Shifting (R183, R186, R190, R211) -/

theorem execSlotShift_shifts {x : Slot} (hd : die < s.hw.dies.length) (hp : port < 24)
    (hlive : (s.begun.until die tm).portLive die port = true) (h3 : s.hw.rd die A.hp_state port ≠ 3)
    (h4 : s.hw.rd die A.hp_state port ≠ 4) (hregs : (s.hw.port die port).slots.any (fun x => x.inRegs) = false)
    (hx : (s.begun.until die tm).nextShift die port = some x) : ∃ t, execSlotShift die port tm s = .next t ∧ s.SameMem t ∧
      t.hw.rd die A.lines_shifted port = (s.hw.rd die A.lines_shifted port + 1) % 2 ^ 32 := by
  have K := s.begun.until_only die tm
  have hrd : ∀ a, (s.begun.until die tm).rd die a port = s.hw.rd die a port := fun a => K.read a (by simp) ..
  have hn : execSlotShift die port tm s = .next (s.run _) := s.onUnit_next _ hd hp
  refine ⟨_, hn, (execSlotShift_within _ _ _ _ hn).sameMem, ?_⟩
  rw [State.run_rd, Hw.rd_slotShift_lines hp hlive (by rwa [hrd]) (by rwa [hrd]) (by rwa [K.port (by decide)]) hx, hrd]

/-- The stale line that is shifted again is counted on its port and on its die. -/
theorem execStaleReshift_counts {x : Slot} (hd : die < s.hw.dies.length) (hp : port < 24)
    (hlive : s.begun.portLive die port = true) (hrun : s.hw.rd die A.le_state 0 = 1) (hfwd : (s.hw.pos die).newest.fwd = true)
    (hstill : (s.hw.pos die).newest.still = false)
    (hx : (s.hw.port die port).slots.find? (fun x => x.stale.isSome) = some x) :
    ∃ t, execStaleReshift die port s = .next t ∧ s.SameMem t ∧
      t.hw.rd die A.reshifts port = (s.hw.rd die A.reshifts port + 1) % 2 ^ 32 ∧
      t.hw.rd die A.stale_reshifts 0 = (s.hw.rd die A.stale_reshifts 0 + 1) % 2 ^ 32 := by
  have hn : execStaleReshift die port s = .next (s.run _) := s.onUnit_next _ hd hp
  refine ⟨_, hn, (execStaleReshift_within _ _ _ hn).sameMem, ?_⟩
  have hx' : (s.begun.port die port).slots.find? (fun x => x.stale.isSome) = some x := hx
  have hgo : ¬((!s.begun.portLive die port) = true ∨ s.begun.rd die A.le_state 0 ≠ 1 ∨ (!(s.begun.pos die).newest.fwd) = true ∨
      (s.begun.pos die).newest.still = true) := by
    have hfwd' : (s.begun.pos die).newest.fwd = true := hfwd
    have hstill' : (s.begun.pos die).newest.still = false := hstill
    simp [hlive, hrun, hfwd', hstill']
  simp only [State.run_rd, if_neg hgo, hx']
  refine ⟨?_, ?_⟩
  · rw [(Hw.armPort_only ..).read A.reshifts (by decide), Hw.rd_event _ _ _ _ _ _ (by decide), Hw.rd_add_ne _ (by decide),
      Hw.rd_add_portCount _ _ (by decide) hp, apply_ite (fun k : Hw => k.rd die A.reshifts port), Hw.rd_emit, ite_self, Hw.rd_onPort,
      (Hw.sendLine_only ..).read A.reshifts (by decide), State.rd_begun]
  · rw [(Hw.armPort_only ..).read A.stale_reshifts (by decide), Hw.rd_event _ _ _ _ _ _ (by decide),
      Hw.rd_add_wrap32 _ _ (by decide), Hw.rd_add_ne _ (by decide), apply_ite (fun k : Hw => k.rd die A.stale_reshifts 0),
      Hw.rd_emit, ite_self, Hw.rd_onPort, (Hw.sendLine_only ..).read A.stale_reshifts (by decide), State.rd_begun]

/-! ### Faults and queries (R191 to R195, R199) -/

theorem execLvdsFault_faults {pair : Nat} (hd : die < s.hw.dies.length) (hp : port < 24) (he : s.hw.rd die A.hp_enable port ≠ 0)
    (h5 : pair < 5) (hs : s.hw.rd die A.hp_state port ≠ 5) : ∃ t, execLvdsFault die port pair s = .next t ∧ s.SameMem t ∧
      t.hw.rd die A.hp_state port = 5 ∧ t.hw.rd die A.hp_fault port = s.hw.rd die A.hp_fault port ||| 2 ^ pair := by
  have hn : execLvdsFault die port pair s = .next (s.run _) := s.onUnit_next _ hd hp
  refine ⟨_, hn, (execLvdsFault_within _ _ _ _ hn).sameMem, ?_⟩
  have hgo : ¬(s.begun.rd die A.hp_enable port = 0 ∨ 5 ≤ pair) := not_or.2 ⟨he, Nat.not_le.2 h5⟩
  simp only [State.run_rd, if_neg hgo]
  exact Hw.portFault_faults hs

theorem execHeadQuery_badReply {data : List Byte} {crc : Nat} {q : Query} {qs : List Query} (hd : die < s.hw.dies.length)
    (hp : port < 24) (hqs : (s.hw.port die port).queries = q :: qs) (hq : s.hw.rd die A.head_query port = 0)
    (hlen : data.length = q.len) (hcrc : crcMsb 8 0x07 (data.flatMap fun b => bitsMsb 8 b.toNat) ≠ crc) :
    ∃ t, execHeadQuery die port true data crc s = .next t ∧
      t.hw.rd die A.query_errs port = (s.hw.rd die A.query_errs port + 1) % 2 ^ 32 := by
  have hn : execHeadQuery die port true data crc s = .next (s.run _) := s.onUnit_next _ hd hp
  refine ⟨_, hn, ?_⟩
  have hqs' : (s.begun.port die port).queries = q :: qs := hqs
  rw [State.run_rd]
  simp only [hqs', ← hlen, List.take_length, beq_eq_false_iff_ne.2 hcrc, Bool.and_false, Bool.not_true, Bool.false_eq_true, if_false]
  exact s.begun.rd_queryEnd_errs die q data hp hq

theorem execHeadQuery_silent {data : List Byte} {crc : Nat} {q : Query} {qs : List Query} (hd : die < s.hw.dies.length)
    (hp : port < 24) (hqs : (s.hw.port die port).queries = q :: qs) (hlen : port < (s.hw.die die).ports.length)
    (hq : s.hw.rd die A.head_query port = 0) : ∃ t, execHeadQuery die port false data crc s = .next t ∧
      t.hw.rd die A.head_query port = 2 ∧ (t.hw.port die port).queries = qs := by
  have hn : execHeadQuery die port false data crc s = .next (s.run _) := s.onUnit_next _ hd hp
  refine ⟨_, hn, ?_⟩
  have hqs' : (s.begun.port die port).queries = q :: qs := hqs
  rw [State.run_rd, State.run_port]
  simp only [hqs', Bool.not_false, if_true]
  exact Hw.queryEnd_unsupported _ hd hlen hqs' hq

/-- The step to `t` leaves the record `k` of the work of `q`'s command, which waits for a later event with its reply (R572). -/
structure State.Awaits (q : Hdr) (k : Hw) (t : State) : Prop where
  reply : t.replyOf q = k.reply? q.origin q.tag
  rd : ∀ e (a : AttrId) i, t.hw.rd e a i = k.rd e a i
  die : ∀ e, t.hw.die e = k.die e

theorem State.commandHold_awaits {q : Hdr} {op : Nat} {o : ObjRef} (hA : s.Admits q op o)
    {body : List (List Host.Cell) → Nat → Hw → Option Reply × Hw} {k : Hw}
    (hb : body s.mems (s.hw.execDie q op o) (s.atWork q) = (none, k)) :
    ∃ t, s.commandHold q op o body = .next t ∧ State.Awaits q k t := by
  rw [State.atWork] at hb
  refine ⟨_, State.commandHold_next hA body, ?_, fun e a i => ?_, fun e => ?_⟩
  · simp only [State.replyOf, State.run_reply?, hb]
  · simp only [State.run_rd, hb]
  · simp only [State.run_die, hb]

/-- The class 0x07 commands are executed by the die that they name (R18). -/
theorem execDie_hpCtrl (h : Hw) (q : Hdr) (i : Nat) : h.execDie q 0x0401 (opObj 0x0401 i) = q.die := rfl
theorem execDie_hpQuery (h : Hw) (q : Hdr) (i : Nat) : h.execDie q 0x0402 (opObj 0x0402 i) = q.die := rfl
theorem execDie_hpSpit (h : Hw) (q : Hdr) (i : Nat) : h.execDie q 0x0403 (opObj 0x0403 i) = q.die := rfl

/-- A query more for a port, which is in QUERY then. -/
def Hw.queryAsked (h : Hw) (d p : Nat) (q : Query) : Hw :=
  (h.onPort d p fun P => { P with queries := P.queries ++ [q] }).wr d A.hp_state p 4

/-- HP_QUERY of an IDLE port is the last of its queries, and its reply waits for the query's end. -/
theorem execHpQuery_asks {h : Hdr} {arg cmd len : Nat} (hA : s.Admits h 0x0402 (opObj 0x0402 port)) (hp : port < 24)
    (hc : (cmd = 1 ∧ arg = 0) ∨ (cmd = 2 ∧ arg < 4) ∨ (cmd = 3 ∧ arg = 0) ∨
      (0x80 ≤ cmd ∧ cmd < 256 ∧ arg < 256 ∧ 1 ≤ len ∧ len ≤ 32))
    (hs : s.hw.rd h.die A.hp_state port = 1) (hlen : port < (s.hw.die h.die).ports.length) :
    ∃ t, execHpQuery h port arg cmd len s = .next t ∧ s.SameMem t ∧ t.replyOf h = s.replyOf h ∧
      t.hw.rd h.die A.hp_state port = 4 ∧ (t.hw.port h.die port).queries = (s.hw.port h.die port).queries ++
        [⟨cmd, arg, if cmd = 1 then 16 else if cmd < 0x80 then 2 else len, some (h.origin, h.tag)⟩] := by
  have hrange : ¬(24 ≤ port ∨ ¬((cmd = 1 ∧ arg = 0) ∨ (cmd = 2 ∧ arg < 4) ∨ (cmd = 3 ∧ arg = 0) ∨
      (0x80 ≤ cmd ∧ cmd < 256 ∧ arg < 256 ∧ 1 ≤ len ∧ len ≤ 32))) :=
    not_or.2 ⟨Nat.not_le.2 hp, fun hunknown => hunknown hc⟩
  have hidle : ¬(s.atWork h).rd h.die A.hp_state port ≠ 1 := fun hbusy => hbusy hs
  obtain ⟨t, hn, hl⟩ : ∃ t, execHpQuery h port arg cmd len s = .next t ∧ State.Awaits h ((s.atWork h).queryAsked h.die port
      ⟨cmd, arg, if cmd = 1 then 16 else if cmd < 0x80 then 2 else len, some (h.origin, h.tag)⟩) t :=
    State.commandHold_awaits hA (by rw [execDie_hpQuery]; exact (if_neg hrange).trans (if_neg hidle))
  refine ⟨t, hn, (execHpQuery_within _ _ _ _ _ _ hn).sameMem, hl.reply, ?_, ?_⟩
  · rw [hl.rd, Hw.queryAsked, Hw.rd_wr_self]
  · have hports : port < ((s.atWork h).die h.die).ports.length := by rwa [State.atWork_ports]
    rw [Hw.port, hl.die]
    refine (congrArg (·.queries) ((s.atWork h).port_onPort_self _ (by simpa using hA.1) hports)).trans ?_
    simp [Hw.port]

/-! ### HP_CTRL (R201, R203) -/

/-- A form of HP_CTRL acts on every port that it names when none of them fails. -/
theorem State.hpCtrl_leaves {h : Hdr} {ports : Nat} {check : Nat → Hw → Nat → Option Status} {act : Nat → Hw → Nat → Hw}
    (hA : s.Admits h 0x0401 (opObj 0x0401 (lowBit ports))) (hr : ports < 2 ^ 24)
    (hok : ∀ p ∈ portsOf ports, check h.die (s.atWork h) p = none) :
    ∃ t, s.command h 0x0401 (opObj 0x0401 (lowBit ports)) (fun _ d hw => hpCtrl ports (check d hw) (act d) hw) = .next t ∧
      s.Leaves h (.words [0xFF], (portsOf ports).foldl (act h.die) (s.atWork h)) t :=
  State.command_leaves hA (by rw [execDie_hpCtrl]; exact hpCtrl_of_clear _ _ hr hok)

theorem execHpEnable_enables {h : Hdr} {ports : Nat} (hA : s.Admits h 0x0401 (opObj 0x0401 (lowBit ports))) (hr : ports < 2 ^ 24)
    (hok : ∀ p ∈ portsOf ports, s.hw.rd h.die A.hp_enable p ≠ 1 ∧ (s.atWork h).rgOrdered h.die p = true) :
    ∃ t, execHpEnable h ports s = .next t ∧ s.SameMem t ∧ t.replyOf h = some (.words [0xFF]) ∧
      ∀ p ∈ portsOf ports, t.hw.rd h.die A.hp_enable p = 1 := by
  obtain ⟨t, hn, hl⟩ : ∃ t, execHpEnable h ports s = .next t ∧ s.Leaves h _ t :=
    State.hpCtrl_leaves hA hr fun p hp => by simp [hok p hp]
  refine ⟨t, hn, (execHpEnable_within _ _ _ hn).sameMem, hl.reply, fun p hp => ?_⟩
  rw [hl.rd _ _ _ (by decide) (by decide)]
  refine Hw.rd_foldl_ports (fun k q => ?_) (fun k q p hqp => ?_) _ _ (.inl hp)
  · rw [(Hw.portUp_only ..).read A.hp_enable (by decide), Hw.rd_wr_self]
  · rw [(Hw.portUp_only ..).read A.hp_enable (by decide), Hw.rd_wr_unit _ (by decide) hqp]

theorem execHpDisable_disables {h : Hdr} {ports : Nat} (hA : s.Admits h 0x0401 (opObj 0x0401 (lowBit ports))) (hr : ports < 2 ^ 24)
    (hok : ∀ p ∈ portsOf ports, s.hw.rd h.die A.hp_state p ≠ 2 ∧ s.hw.rd h.die A.hp_state p ≠ 3) :
    ∃ t, execHpDisable h ports s = .next t ∧ t.replyOf h = some (.words [0xFF]) ∧
      ∀ p ∈ portsOf ports, t.hw.rd h.die A.hp_enable p = 0 := by
  obtain ⟨t, hn, hl⟩ : ∃ t, execHpDisable h ports s = .next t ∧ s.Leaves h _ t :=
    State.hpCtrl_leaves hA hr fun p hp => if_neg (not_or.2 (hok p hp))
  refine ⟨t, hn, hl.reply, fun p hp => ?_⟩
  rw [hl.rd _ _ _ (by decide) (by decide)]
  exact Hw.rd_foldl_ports (fun k q => k.rd_portOff_enable _ q) (fun k q p hqp => k.rd_portOff_enable_other _ hqp) _ _ (.inl hp)

/-- HP_RESTART of ports in FAULT whose drivers are sound restarts every one. -/
theorem execHpRestart_leaves {h : Hdr} {ports bad : Nat} (hA : s.Admits h 0x0401 (opObj 0x0401 (lowBit ports)))
    (hr : ports < 2 ^ 24) (hok : ∀ p ∈ portsOf ports, s.hw.rd h.die A.hp_state p = 5 ∧ bad.testBit p = false) :
    ∃ t, execHpRestart h ports bad s = .next t ∧
      s.Leaves h (.words [0xFF], (portsOf ports).foldl (fun hw p => hw.portRestart h.die p) (s.atWork h)) t :=
  State.hpCtrl_leaves hA hr fun p hp => by simp [hok p hp]

theorem execHpRestart_recovers {h : Hdr} {bad : Nat} (hA : s.Admits h 0x0401 (opObj 0x0401 (lowBit (2 ^ port)))) (hp : port < 24)
    (hs : s.hw.rd h.die A.hp_state port = 5) (hb : bad.testBit port = false) (hc : (s.atWork h).portCtx h.die port = none) :
    ∃ t, execHpRestart h (2 ^ port) bad s = .next t ∧ t.hw.rd h.die A.hp_fault port = 0 ∧ t.hw.rd h.die A.hp_state port ≠ 5 := by
  have hone := portsOf_two_pow port hp
  obtain ⟨t, hn, hl⟩ := execHpRestart_leaves (bad := bad) hA (Nat.pow_lt_pow_right (by decide) hp) (by simp [hone, hs, hb])
  refine ⟨t, hn, ?_⟩
  rw [hl.rd _ _ _ (by decide) (by decide), hl.rd _ _ _ (by decide) (by decide), hone]
  exact Hw.portRestart_recovers hc

/-! ### Spitting (R196 to R198, R204, R213) -/

/-- The parked spitting after a mailbox command is that which its work leaves. -/
theorem State.command_spits {q : Hdr} {op : Nat} {o : ObjRef} (hA : s.Admits q op o)
    {body : List (List Host.Cell) → Nat → Hw → Reply × Hw} {w : Reply × Hw}
    (hb : body s.mems (s.hw.execDie q op o) (s.atWork q) = w) :
    ∃ t, s.command q op o body = .next t ∧ s.Leaves q w t ∧ ∀ d, (t.hw.die d).spits = (w.2.die d).spits := by
  obtain ⟨t, hn, hl⟩ := State.command_leaves hA hb
  refine ⟨t, hn, hl, fun d => ?_⟩
  obtain rfl : _ = t := Host.Outcome.next.inj ((State.command_next hA body).symm.trans hn)
  rw [State.run_die, Hw.finish_die_spits, ← hb]
  rfl

/-- The ports of a parked spitting enter SPIT. -/
def Hw.spitPorts (h : Hw) (d ports : Nat) : Hw :=
  (portsOf ports).foldl (fun h p => (h.latchLost d p).wr d A.hp_state p 3) h

theorem Hw.spitPorts_only (h : Hw) (d ports : Nat) : Hw.Only [A.hp_state.code] [.ports] [] h (h.spitPorts d ports) :=
  .foldl (.refl ..) (fun _ _ => ((Hw.latchLost_only ..).mono (by decide)).step (Hw.wr_only ..) (by decide)) _

/-- Parked spitting begins on IDLE ports of a die whose line engine is IDLE or HELD, with the heads parked. -/
theorem hpSpitBody_of_idle {ports lines d : Nat} {h : Hw} (hr : ports < 2 ^ 24) (hl : lines ≤ 1000000)
    (hpark : h.hsIn.testBit 1 = true) (hst : h.rd d A.le_state 0 = 0 ∨ h.rd d A.le_state 0 = 4)
    (hok : ∀ p ∈ portsOf ports, h.rd d A.hp_state p = 1) :
    hpSpitBody ports lines d h = okWith ((h.spitPorts d ports).onDie d fun D =>
      { D with spits := D.spits ++ [{ ports := (portsOf ports).map (·, 0), lines := lines }] }) := by
  have hrange : ¬(2 ^ 24 ≤ ports ∨ 1000000 < lines) := not_or.2 ⟨Nat.not_le.2 hr, Nat.not_lt.2 hl⟩
  have hclear : (portsOf ports).any (fun p => [0, 5, 4, 3].contains (h.rd d A.hp_state p) ||
      (h.rd d A.hp_state p == 2 && h.rd d A.le_state 0 != 4)) = false :=
    List.any_eq_false.2 fun p hp => by simp [hok p hp]
  have hgo : ¬((!h.hsIn.testBit 1) = true ∨ h.rd d A.le_state 0 = 5 ∨ h.rd d A.le_state 0 = 1 ∨ h.rd d A.le_state 0 = 2 ∨
      h.rd d A.le_state 0 = 3 ∨ false = true) := by
    simp only [hpark, Bool.not_true, Bool.false_eq_true, false_or, or_false]
    omega
  simp only [hpSpitBody, if_neg hrange, hclear, if_neg hgo]
  rfl

theorem execHpSpitParked_spits {h : Hdr} {ports lines : Nat} (hA : s.Admits h 0x0403 (opObj 0x0403 (lowBit ports)))
    (hr : ports < 2 ^ 24) (hl : lines ≤ 1000000) (hpark : s.hw.hsIn.testBit 1 = true)
    (hst : s.hw.rd h.die A.le_state 0 = 0 ∨ s.hw.rd h.die A.le_state 0 = 4)
    (hok : ∀ p ∈ portsOf ports, s.hw.rd h.die A.hp_state p = 1) :
    ∃ t, execHpSpitParked h ports lines s = .next t ∧ s.SameMem t ∧ t.replyOf h = some .ok ∧
      (∀ p ∈ portsOf ports, t.hw.rd h.die A.hp_state p = 3) ∧ (t.hw.die h.die).spits =
        (s.hw.die h.die).spits ++ [{ ports := (portsOf ports).map (·, 0), lines := lines }] := by
  obtain ⟨t, hn, hleaves, hspits⟩ := State.command_spits hA
    (body := fun _ d hw => hpSpitBody ports lines d hw) (hpSpitBody_of_idle (h := s.atWork h) hr hl hpark hst hok)
  rw [execDie_hpSpit] at hleaves hspits
  refine ⟨t, hn, (execHpSpitParked_within _ _ _ _ hn).sameMem, hleaves.reply, fun p hp => ?_, ?_⟩
  · rw [hleaves.rd _ _ _ (by decide) (by decide)]
    refine Hw.rd_foldl_ports (fun k q => Hw.rd_wr_self ..) (fun k q p hqp => ?_) _ _ (.inl hp)
    rw [Hw.rd_wr_unit _ (by decide) hqp, (Hw.latchLost_only ..).read A.hp_state (by decide)]
  · have K := (s.atWork h).spitPorts_only h.die ports
    rw [hspits, okWith, Hw.die_onDie_self _ _ (by simpa [K.len] using hA.1), K.spits (by decide), State.atWork_spits]

theorem execHpSpitStop_stops {h : Hdr} {ports : Nat} (hA : s.Admits h 0x0403 (opObj 0x0403 (lowBit ports))) (hr : ports < 2 ^ 24) :
    ∃ t, execHpSpitStop h ports s = .next t ∧ s.SameMem t ∧ t.replyOf h = some .ok ∧
      ∀ j ∈ (t.hw.die h.die).spits, ∀ x ∈ j.ports, ports.testBit x.1 = false := by
  obtain ⟨t, hn, hleaves, hspits⟩ := State.command_spits hA
    (body := fun _ d hw => if 2 ^ 24 ≤ ports then refuse .range hw
      else okWith ((hw.spitDrop d ports.testBit).spitOff d (portsOf ports))) (if_neg (Nat.not_le.2 hr))
  rw [execDie_hpSpit] at hleaves hspits
  refine ⟨t, hn, (execHpSpitStop_within _ _ _ hn).sameMem, hleaves.reply, ?_⟩
  rw [hspits, okWith, (Hw.spitOff_only ..).spits (by decide)]
  exact (s.atWork h).spits_spitDrop _ (by simpa using hA.1)

/-- A spit line of a job that has lines left is counted, whether or not it is the job's last. -/
theorem execSpitLine_counts {j : SpitJob} (hd : die < s.hw.dies.length) (hp : port < 24)
    (hj : (s.hw.die die).spits.find? (fun j => j.ports.any fun x => x.1 = port) = some j) (hpark : s.hw.hsIn.testBit 1 = true)
    (hst : (List.range s.hw.dies.length).any (fun e => s.hw.rd e A.le_state 0 == 5) = false)
    (hleft : j.lines = 0 ∨ ((j.ports.find? fun x => x.1 = port).map (·.2)).getD 0 < j.lines) :
    ∃ t, execSpitLine die port tm s = .next t ∧ s.SameMem t ∧
      t.hw.rd die A.spit_lines port = (s.hw.rd die A.spit_lines port + 1) % 2 ^ 32 := by
  have hn : execSpitLine die port tm s = .next (s.run _) := s.onUnit_next _ hd hp
  refine ⟨_, hn, (execSpitLine_within _ _ _ _ hn).sameMem, ?_⟩
  rw [State.run_rd]
  extract_lets k
  have K : Hw.Only [] [.tbs] [.clk] s.begun k := s.begun.until_only die tm
  have hrd : ∀ e a i, k.rd e a i = s.hw.rd e a i := fun e a i => K.read a (by simp) ..
  have hin : k.hsIn = s.hw.hsIn := K.hw .hsIn (by decide)
  have hdies : k.n = s.hw.dies.length := K.len
  rw [← State.die_begun, ← K.spits (by decide)] at hj
  split
  next hnone => exact absurd (hj.symm.trans hnone) nofun
  next j₁ hsome =>
    obtain rfl : j = j₁ := Option.some.inj (hj.symm.trans hsome)
    extract_lets i lv latched fired j' left
    have hgo : ¬((!k.hsIn.testBit 1) = true ∨ (List.range k.n).any (fun e => k.rd e A.le_state 0 == 5) = true ∨
        (j.lines ≠ 0 ∧ j.lines ≤ i)) := by
      simp only [hin, hdies, hrd, hpark, hst, Bool.not_true, Bool.false_eq_true, false_or]
      omega
    have hfired : fired.rd die A.spit_lines port = (s.hw.rd die A.spit_lines port + 1) % 2 ^ 32 := by
      rw [Hw.rd_add_portCount _ _ (by decide) hp, (Hw.spitPulses_only ..).read A.spit_lines (by decide), Hw.rd_emit,
        (Hw.sendLine_only ..).read A.spit_lines (by decide), hrd]
    rw [if_neg hgo]
    split
    · rw [(Hw.spitOff_only ..).read A.spit_lines (by decide), Hw.rd_event _ _ _ _ _ _ (by decide), Hw.rd_onDie, hfired]
    · rw [Hw.rd_onDie, hfired]

theorem execHpSpitWeb_defers {h : Hdr} {ctx ports first count : Nat} {c : Ctx}
    (hA : s.Admits h 0x0403 (opObj 0x0403 (lowBit ports))) (hbl : s.hw.bl ≠ 1) (hr : ports < 2 ^ 24) (h1 : 1 ≤ ctx)
    (h256 : ctx < 256) (hn1 : 1 ≤ count) (hn2 : count < 65536) (hf : first < 2 ^ 32)
    (hc : (s.atWork h).ctx? h.die ctx = some c) (hdone : (s.atWork h).ctxState h.die ctx ≠ ctxDONE)
    (hfail : (s.atWork h).ctxState h.die ctx ≠ ctxFAILED) (hports : ((portsOf ports).all fun p => c.ports.testBit p) = true) :
    ∃ t, execHpSpitWeb h ctx ports first count s = .next t ∧ s.SameMem t ∧ t.statusOf h = some .deferred := by
  obtain ⟨t, hn, hl⟩ : ∃ t, execHpSpitWeb h ctx ports first count s = .next t ∧ s.Leaves h _ t := State.command_leaves hA rfl
  refine ⟨t, hn, (execHpSpitWeb_within _ _ _ _ _ _ hn).sameMem, ?_⟩
  have hrange : ¬((s.atWork h).bl = 1 ∨ 2 ^ 24 ≤ ports ∨ ctx = 0 ∨ 256 ≤ ctx ∨ count = 0 ∨ 65536 ≤ count ∨ 2 ^ 32 ≤ first) := by
    have hbl' : (s.atWork h).bl ≠ 1 := hbl
    omega
  have hopen : ¬((s.atWork h).ctxState h.die ctx = ctxDONE ∨ (s.atWork h).ctxState h.die ctx = ctxFAILED ∨
      (!(portsOf ports).all fun p => c.ports.testBit p) = true) := by
    simp only [hports, hdone, hfail, Bool.not_true, Bool.false_eq_true, or_self, not_false_eq_true]
  rw [State.statusOf, hl.reply, execDie_hpSpit]
  simp only [if_neg hrange, hc, if_neg hopen]
  rfl

/-- Settles O21, by what each operation of a port leaves of its record, its state and its counts. -/
theorem headRowsComplete : Obligations.HeadRowsComplete := by
  unfold Obligations.HeadRowsComplete
  refine ⟨fun s die port tm x hd hp hlive h3 h4 hregs hx => execSlotShift_shifts hd hp hlive h3 h4 hregs hx,
    fun s die port x hd hp hlive hrun hfwd hstill hx => execStaleReshift_counts hd hp hlive hrun hfwd hstill hx,
    fun s die port pair hd hp he h5 hs => execLvdsFault_faults hd hp he h5 hs, ?badReply, ?silent,
    fun s h port arg cmd len hA hp hc hs hlen => execHpQuery_asks hA hp hc hs hlen,
    fun s h ports hA hr hok => execHpEnable_enables hA hr hok, fun s h ports hA hr hok => execHpDisable_disables hA hr hok, ?restart,
    fun s h port bad hA hp hs hb hc => execHpRestart_recovers hA hp hs hb hc,
    fun s h ports lines hA hr hl hpark hst hok => execHpSpitParked_spits hA hr hl hpark hst hok,
    fun s h ports hA hr => execHpSpitStop_stops hA hr,
    fun s die port tm j hd hp hj hpark hst hleft => execSpitLine_counts hd hp hj hpark hst hleft,
    fun s h ctx ports first count c hA hbl hr h1 h256 hn1 hn2 hf hc hdone hfail hports =>
      execHpSpitWeb_defers hA hbl hr h1 h256 hn1 hn2 hf hc hdone hfail hports⟩
  case badReply =>
    rintro s die port start data crc q qs hd hp hqs hq rfl hlen hcrc
    exact execHeadQuery_badReply hd hp hqs hq hlen hcrc
  case silent =>
    rintro s die port start data crc q qs hd hp hqs hlen hq rfl
    exact execHeadQuery_silent hd hp hqs hlen hq
  case restart =>
    intro s h ports bad hA hr hok
    obtain ⟨t, hn, hl⟩ := execHpRestart_leaves hA hr hok
    exact ⟨t, hn, hl.reply⟩

end Sys2Proof.Machine
end

section
/-!
PROOFS. The rows of the tone banks (R213, R215, R216, R219, R225 to R227, R230, R232, R233): what a swap's decision leaves in the
banks, what a new swap comes to, and what each end of a build leaves.
-/
namespace Sys2Proof.Machine

variable {h : Hw} {s : State} {d b die bank port tm : Nat}

/-! ### Reading past deferral records and banks -/

@[simp] theorem Hw.rd_settle (h : Hw) (id fate e : Nat) (a : AttrId) (i : Nat) : (h.settle id fate).rd e a i = h.rd e a i := rfl
@[simp] theorem Hw.rd_movePoint (h : Hw) (id : Nat) (f : Effect) (e : Nat) (a : AttrId) (i : Nat) :
    (h.movePoint id f).rd e a i = h.rd e a i := rfl
@[simp] theorem Hw.rd_onBank (h : Hw) (d b : Nat) (f : Bank → Bank) (e : Nat) (a : AttrId) (i : Nat) :
    (h.onBank d b f).rd e a i = h.rd e a i := rfl
@[simp] theorem Hw.rd_defer (h : Hw) (d : Nat) (q : Hdr) (pkg : Bool) (f : Effect) (e : Nat) (a : AttrId) (i : Nat) :
    (h.defer d q pkg f).2.rd e a i = h.rd e a i := by cases pkg <;> rfl

/-- The two banks of a die are each other's other one. -/
theorem other_bank_ne (hb : b < 2) : 1 - b ≠ b := by omega

/-! ### The decision on a swap (R227) -/

/-- A frame widened by a part that only comes under a condition. -/
theorem Hw.Only.step_if {C c : List Nat} {F f : List DieRec} {G g : List HwRec} {h₀ h h' : Hw} {p : Prop} [Decidable p]
    (H : Hw.Only C F G h₀ h) (K : Hw.Only c f g h h') (hs : Parts c f g C F G) : Hw.Only C F G h₀ (if p then h' else h) :=
  .ite (fun _ => H.step K hs) fun _ => H

/-- Only a bank that is RETIRING becomes FREE; one that prints stays ACTIVE. -/
theorem Hw.rd_retireBank_of_active (ha : h.rd d A.bank_state b = 3) : (h.retireBank d).rd d A.bank_state b = 3 := by
  unfold Hw.retireBank
  refine List.foldlRecOn (motive := fun k : Hw => k.rd d A.bank_state b = 3) _ _ ha fun k hk c _ => ?_
  extract_lets other ctx line clear used
  split
  next hgone =>
    obtain ⟨hretiring, -⟩ := hgone
    have hcb : c ≠ b := by
      rintro rfl
      omega
    rwa [Hw.rd_event _ _ _ _ _ _ (by decide), Hw.rd_wr_unit _ (by decide) hcb]
  next => exact hk

/-- A swap decided with its bank READY takes effect: the bank is ACTIVE and no swap is pending to it. -/
theorem Hw.swapDecide_of_ready (hb : b < 2) (hp : h.rd d A.swap_pending b = 1) (hr : h.rd d A.bank_state b = 2) :
    (h.swapDecide d b).rd d A.bank_state b = 3 ∧ (h.swapDecide d b).rd d A.swap_pending b = 0 := by
  unfold Hw.swapDecide
  extract_lets c l id old others active listed cleared settled freed squashed told prepared
  rw [if_neg (by omega), if_pos hr]
  -- what follows the states of the banks leaves them, but for the bank that retires
  have K : Hw.Only [0x1f, 0x60020, 0x80002, 0x80003, 0x80004, 0x80005, 0x80020, 0x80021]
      [.mbx, .front, .buckets, .folded, .ports, .banks] [.pkg] cleared prepared :=
    .foldl ((((Hw.Only.foldl (.refl ..) (fun k i => (k.settle_only i 0).mono (by decide)) _).step (Hw.onBank_only ..)
      (by decide)).step_if (Hw.squash_only ..) (by decide)).step (Hw.event_only ..) (by decide))
      (fun k p => (k.prepare_only d p).mono (by decide)) _
  have hactive : cleared.rd d A.bank_state b = 3 := by
    rw [Hw.rd_settle, Hw.rd_wr_ne _ (by decide), Hw.rd_onDie, Hw.rd_wr_unit _ (by decide) (other_bank_ne hb), Hw.rd_wr_self]
  refine ⟨Hw.rd_retireBank_of_active ?_, ?_⟩
  · rw [K.read A.bank_state (by decide), hactive]
  · rw [(Hw.retireBank_only ..).read A.swap_pending (by decide), K.read A.swap_pending (by decide), Hw.rd_settle, Hw.rd_wr_self]

/-- A swap decided while its bank is not READY is late: counted, and pending still (assumption log 6 for the count's wrap). -/
theorem Hw.swapDecide_of_notReady (hp : h.rd d A.swap_pending b = 1) (hr : h.rd d A.bank_state b ≠ 2) :
    (h.swapDecide d b).rd d A.swaps_late 0 = (h.rd d A.swaps_late 0 + 1) % 2 ^ 32 ∧
      (h.swapDecide d b).rd d A.swap_pending b = 1 := by
  unfold Hw.swapDecide
  extract_lets
  rw [if_neg (by omega), if_neg hr]
  refine ⟨?_, ?_⟩
  · rw [Hw.rd_event _ _ _ _ _ _ (by decide), Hw.rd_movePoint, Hw.rd_add_wrap32 _ _ (by decide), Hw.rd_wr_ne _ (by decide)]
  · rwa [Hw.rd_event _ _ _ _ _ _ (by decide), Hw.rd_movePoint, Hw.rd_add_ne _ (by decide), Hw.rd_wr_ne _ (by decide)]

/-- TB_SWAP_DECISION of a swap whose line is already toned decides it. -/
theorem execTbSwapDecision_decides (hd : die < s.hw.dies.length) (hb : bank < 2) (hp : s.hw.rd die A.swap_pending bank = 1)
    (ht : s.begun.tonedFrom die (s.hw.rd die A.swap_context bank) (s.hw.rd die A.swap_line bank) = true) :
    ∃ t, execTbSwapDecision die bank s = .next t ∧ s.SameMem t ∧
      ∀ e a i, t.hw.rd e a i = (s.begun.swapDecide die bank).rd e a i := by
  have hn : execTbSwapDecision die bank s = .next (s.run _) := s.onUnit_next _ hd hb
  refine ⟨_, hn, (execTbSwapDecision_within _ _ _ hn).sameMem, fun e a i => ?_⟩
  rw [State.run_rd]
  exact congrArg (fun k : Hw => k.rd e a i) (if_pos ⟨hp, .inr ht⟩)

/-! ### Toned lines (R206) -/

/-- A toned line shows in `toned_max` of its port. -/
theorem execToneLine_shows {line : Nat} {l : DecLine} (hd : die < s.hw.dies.length) (hp : port < 24)
    (hl : s.begun.lineToTone die port line = some l) :
    ∃ t, execToneLine die port line s = .next t ∧ s.SameMem t ∧ line ≤ t.hw.rd die A.toned_max (port + 1) := by
  have hn : execToneLine die port line s = .next (s.run _) := s.onUnit_next _ hd hp
  refine ⟨_, hn, (execToneLine_within _ _ _ _ hn).sameMem, ?_⟩
  simp only [State.run_rd, hl]
  rw [(Hw.prepare_only ..).read A.toned_max (by decide)]
  split
  case isTrue => exact Nat.le_of_eq (Hw.rd_wr_self ..).symm
  case isFalse hmax => exact Nat.not_lt.1 hmax

/-! ### New swaps (R213, R233) -/

/-- The density table commands are carried out by the die that their header names (R18). -/
theorem execDie_tbBuild (h : Hw) (q : Hdr) (i : Nat) : h.execDie q 0x0501 (opObj 0x0501 i) = q.die := rfl
theorem execDie_tbSwap (h : Hw) (q : Hdr) (i : Nat) : h.execDie q 0x0502 (opObj 0x0502 i) = q.die := rfl
theorem execDie_plStatus (h : Hw) (q : Hdr) (i : Nat) : h.execDie q 0x0503 (opObj 0x0503 i) = q.die := rfl

/-- The line that a swap uses: the first free one of a context that prints, and the line requested otherwise (R213). -/
def Hw.swapLineUsed (h : Hw) (d ctx line : Nat) : Nat :=
  if h.ctxPrints d ctx then h.fixLine d ctx (List.range 24) true line else line

/-- A swap with its deferral record, pending to a bank that had none. -/
def Hw.swapPended (h : Hw) (d : Nat) (q : Hdr) (ctx bank line : Nat) : Hw :=
  let used := h.swapLineUsed d ctx line
  let r := h.defer d q false { kind := 1, ctx := ctx, point := used }
  let h := r.2.plDefer d 0 ctx line used
  (((h.wr d A.swap_pending bank 1).wr d A.swap_context bank ctx).wr d A.swap_line bank used).onBank d bank fun B =>
    { B with swapId := some r.1 }

/-- TB_SWAP that nothing refuses, to a bank without a pending swap, makes it pending; it is decided at once where its line is
already toned. -/
theorem tbSwapBody_of_fresh {q : Hdr} {ctx line : Nat} (hb : bank < 2) (h1 : 1 ≤ ctx) (h256 : ctx < 256) (hl : line < 2 ^ 32)
    (hbuilt : h.rd d A.bank_state bank = 1 ∨ h.rd d A.bank_state bank = 2) (hother : h.rd d A.bank_state (1 - bank) = 3)
    (hctx : h.ctxState d ctx = ctxOPEN ∨ h.ctxState d ctx = ctxPRINTING) (hp : h.rd d A.swap_pending bank = 0) :
    tbSwapBody q ctx bank line d h = (.deferred { kind := 1, ctx := ctx, point := h.swapLineUsed d ctx line },
      if (h.swapPended d q ctx bank line).tonedFrom d ctx (h.swapLineUsed d ctx line)
        then (h.swapPended d q ctx bank line).swapDecide d bank else h.swapPended d q ctx bank line) := by
  have hrange : ¬(2 ≤ bank ∨ ctx = 0 ∨ 256 ≤ ctx ∨ 2 ^ 32 ≤ line) := by omega
  have hstate : [1, 2].contains (h.rd d A.bank_state bank) = true :=
    List.contains_iff_mem.2 (List.mem_cons.2 (hbuilt.imp_right List.mem_singleton.2))
  have hopen : ¬(h.ctxState d ctx = ctxCLOSED ∨ h.ctxState d ctx = ctxDONE ∨ h.ctxState d ctx = ctxFAILED) := by
    rcases hctx with hs | hs
    · exact hs ▸ (by decide)
    · exact hs ▸ (by decide)
  have hok : ¬((! [1, 2].contains (h.rd d A.bank_state bank)) = true ∨ h.rd d A.bank_state (1 - bank) ≠ 3 ∨
      h.ctxState d ctx = ctxCLOSED ∨ h.ctxState d ctx = ctxDONE ∨ h.ctxState d ctx = ctxFAILED) := by
    rintro (hno | hno | hno)
    · rw [hstate] at hno
      exact absurd hno (by decide)
    · exact hno hother
    · exact hopen hno
  unfold tbSwapBody
  extract_lets st used e
  have hfree : ((h.defer d q false e).2.plDefer d 0 ctx line used).rd d A.swap_pending bank ≠ 1 := by
    rw [(Hw.plDefer_only ..).read A.swap_pending (by decide), Hw.rd_defer, hp]
    decide
  rw [if_neg hrange, if_neg hok]
  have hpair : h.defer d q false e = (h.nextId, (h.defer d q false e).2) := rfl
  rw [hpair]
  dsimp only
  rw [if_neg fun hpend => hfree hpend.1, if_neg hfree]
  rfl

/-- TB_SWAP that nothing refuses, to a bank without a pending swap, is DEFERRED and names its context. -/
theorem execTbSwap_defers {q : Hdr} {ctx line : Nat} (hA : s.Admits q 0x0502 (opObj 0x0502 bank)) (hb : bank < 2) (h1 : 1 ≤ ctx)
    (h256 : ctx < 256) (hl : line < 2 ^ 32)
    (hbuilt : s.hw.rd q.die A.bank_state bank = 1 ∨ s.hw.rd q.die A.bank_state bank = 2)
    (hother : s.hw.rd q.die A.bank_state (1 - bank) = 3)
    (hctx : (s.atWork q).ctxState q.die ctx = ctxOPEN ∨ (s.atWork q).ctxState q.die ctx = ctxPRINTING)
    (hp : s.hw.rd q.die A.swap_pending bank = 0) :
    ∃ t, execTbSwap q ctx bank line s = .next t ∧ s.SameMem t ∧ t.statusOf q = some .deferred ∧
      t.hw.rd q.die A.swap_context bank = ctx := by
  obtain ⟨t, hn, hleaves⟩ : ∃ t, execTbSwap q ctx bank line s = .next t ∧
      s.Leaves q (tbSwapBody q ctx bank line q.die (s.atWork q)) t := State.command_leaves hA (by rw [execDie_tbSwap])
  rw [tbSwapBody_of_fresh (h := s.atWork q) hb h1 h256 hl hbuilt hother hctx hp] at hleaves
  refine ⟨t, hn, (execTbSwap_within _ _ _ _ _ hn).sameMem, ?_, ?_⟩
  · rw [State.statusOf, hleaves.reply]
    rfl
  · have hpended : ((s.atWork q).swapPended q.die q ctx bank line).rd q.die A.swap_context bank = ctx := by
      rw [Hw.swapPended, Hw.rd_onBank, Hw.rd_wr_ne _ (by decide), Hw.rd_wr_self]
    rw [hleaves.rd _ _ _ (by decide) (by decide)]
    split
    · rw [(Hw.swapDecide_only ..).read A.swap_context (by decide), hpended]
    · exact hpended

/-! ### Builds (R225, R226, R232) -/

/-- TB_BUILD of a bank that is FREE, or READY with no swap pending to it, is DEFERRED and the bank is BUILDING. -/
theorem execTbBuild_defers {q : Hdr} (hA : s.Admits q 0x0501 (opObj 0x0501 bank)) (hb : bank < 2)
    (hst : s.hw.rd q.die A.bank_state bank = 0 ∨ s.hw.rd q.die A.bank_state bank = 2)
    (hp : s.hw.rd q.die A.swap_pending bank = 0) :
    ∃ t, execTbBuild q bank s = .next t ∧ s.SameMem t ∧ t.statusOf q = some .deferred ∧
      t.hw.rd q.die A.bank_state bank = 1 := by
  have hfree : ¬¬((s.atWork q).rd q.die A.bank_state bank = 0 ∨
      ((s.atWork q).rd q.die A.bank_state bank = 2 ∧ (s.atWork q).rd q.die A.swap_pending bank = 0)) :=
    Decidable.not_not.2 (hst.imp_right fun hready => ⟨hready, hp⟩)
  obtain ⟨t, hn, hl⟩ : ∃ t, execTbBuild q bank s = .next t ∧ s.Leaves q (.deferred { kind := 5 },
      ((s.atWork q).deferWork q.die q false).2.2.tbBuild q.die bank ((s.atWork q).deferWork q.die q false).1) t :=
    State.command_leaves hA (by
      rw [execDie_tbBuild]
      exact (if_neg (Nat.not_le.2 hb)).trans (if_neg hfree))
  refine ⟨t, hn, (execTbBuild_within _ _ _ hn).sameMem, ?_, ?_⟩
  · rw [State.statusOf, hl.reply]
    rfl
  · rw [hl.rd _ _ _ (by decide) (by decide), Hw.tbBuild, Hw.rd_onBank, Hw.rd_wr_self]

/-- TB_BUILD_ABORT of a bank that is BUILDING frees it and cancels a swap pending to it. -/
theorem execTbBuildAbort_frees {q : Hdr} (hA : s.Admits q 0x0501 (opObj 0x0501 bank)) (hb : bank < 2)
    (hst : s.hw.rd q.die A.bank_state bank = 1) :
    ∃ t, execTbBuildAbort q bank s = .next t ∧ s.SameMem t ∧ t.replyOf q = some .ok ∧
      t.hw.rd q.die A.bank_state bank = 0 ∧ t.hw.rd q.die A.swap_pending bank = 0 := by
  have hbuilding : ¬(s.atWork q).rd q.die A.bank_state bank ≠ 1 := Decidable.not_not.2 hst
  obtain ⟨t, hn, hl⟩ : ∃ t, execTbBuildAbort q bank s = .next t ∧ s.Leaves q (okWith _) t :=
    State.command_leaves hA (by
      rw [execDie_tbBuild]
      exact (if_neg (Nat.not_le.2 hb)).trans (if_neg hbuilding))
  refine ⟨t, hn, (execTbBuildAbort_within _ _ _ hn).sameMem, hl.reply, ?_, ?_⟩
  · rw [hl.rd _ _ _ (by decide) (by decide), okWith, Hw.rd_onBank, Hw.rd_wr_ne _ (by decide), Hw.rd_wr_self]
  · rw [hl.rd _ _ _ (by decide) (by decide), okWith, Hw.rd_onBank, Hw.rd_wr_self]

theorem build_seq_width : ∀ b < 2, (attrRow? A.build_seq.cls b A.build_seq.id).map (·.width) = some 32 := by decide

/-- What the end of a build of bank `b` leaves: the bank FREE, or READY with the CRC of its bytes and the build counted. -/
def Hw.BuildEnded (h h' : Hw) (d b : Nat) (i : BankInput) : Prop :=
  h'.rd d A.bank_state b = 0 ∨ (h'.rd d A.bank_state b = 2 ∧ h'.rd d A.bank_crc b = crc32c (bankBytes i) ∧
    h'.rd d A.build_seq b = (h.rd d A.build_seq b + 1) % 2 ^ 32)

theorem State.run_buildEnded {f : List (List Host.Cell) → Hw → Hw} {i : BankInput}
    (hf : Hw.BuildEnded s.hw (f s.mems s.begun) d b i) : Hw.BuildEnded s.hw (s.run f).hw d b i := hf

/-- A build that completes is READY, or FREE where its check fails (assumption log 6 for the count's wrap). -/
theorem execTbBuilt_completes {i : BankInput} (hd : die < s.hw.dies.length) (hb : bank < 2)
    (hi : (s.begun.bank die bank).input = some i) (hst : s.hw.rd die A.bank_state bank = 1) :
    ∃ t, execTbBuilt die bank tm s = .next t ∧ s.SameMem t ∧ Hw.BuildEnded s.hw t.hw die bank i := by
  have hn : execTbBuilt die bank tm s = .next (s.run _) := s.onUnit_next _ hd hb
  refine ⟨_, hn, (execTbBuilt_within _ _ _ _ hn).sameMem, State.run_buildEnded ?_⟩
  -- the clocks that run on to the end of the build leave what it is judged by
  have K : Hw.Only [] [.tbs] [.clk] s.begun (s.begun.until die tm) := s.begun.until_only die tm
  have hrd : ∀ e a i, (s.begun.until die tm).rd e a i = s.hw.rd e a i := fun e a i => K.read a (by simp) ..
  have hbanks : ((s.begun.until die tm).die die).banks = (s.hw.die die).banks := K.die die .banks (by decide)
  have hinput : ((s.begun.until die tm).bank die bank).input = some i := by rwa [Hw.bank, hbanks]
  simp only [hinput]
  rw [if_neg (by rw [hrd, hst]; decide)]
  split
  case isTrue =>
    refine .inl ?_
    rw [Hw.rd_event _ _ _ _ _ _ (by decide), Hw.rd_onBank, Hw.rd_settle, Hw.rd_wr_self]
  case isFalse =>
    refine .inr ⟨?ready, ?crc, ?count⟩ <;> rw [Hw.rd_event _ _ _ _ _ _ (by decide), Hw.rd_wr_ne _ (by decide)]
    case ready =>
      rw [Hw.rd_wr_ne _ (by decide), Hw.rd_wr_ne _ (by decide), Hw.rd_settle, Hw.rd_add_ne _ (by decide), Hw.rd_wr_self]
    case crc => rw [Hw.rd_wr_self]
    case count =>
      rw [Hw.rd_wr_ne _ (by decide), Hw.rd_wr_ne _ (by decide), Hw.rd_settle, Hw.rd_add_wrap32 _ _ (build_seq_width bank hb),
        Hw.rd_wr_ne _ (by decide), Hw.rd_onBank, Hw.rd_onBank, Hw.rd_wr_ne _ (by decide), hrd]

/-! ### PL_STATUS (R230) -/

/-- PL_STATUS answers the state of one port's line pipeline and of the banks. -/
theorem execPlStatus_reads {q : Hdr} (hA : s.Admits q 0x0503 (opObj 0x0503 port)) (hp : port < 24) :
    ∃ t, execPlStatus q port s = .next t ∧ s.SameMem t ∧ t.replyOf q = some (.words
      [s.hw.rd q.die A.slot_next (port + 1), s.hw.rd q.die A.toned_max (port + 1),
        s.hw.rd q.die A.slot_context (port + 1) * 2 ^ 24 + s.hw.rd q.die A.slots_prepared (port + 1) * 2 ^ 16 +
          s.hw.rd q.die A.slots_staged (port + 1) * 2 ^ 8 + s.hw.rd q.die A.bank_state 1 * 8 + s.hw.rd q.die A.bank_state 0, 0]) := by
  obtain ⟨t, hn, hl⟩ : ∃ t, execPlStatus q port s = .next t ∧ s.Leaves q (_, s.atWork q) t :=
    State.command_leaves hA (by
      rw [execDie_plStatus]
      exact if_neg (Nat.not_le.2 hp))
  exact ⟨t, hn, (execPlStatus_within _ _ _ hn).sameMem, hl.reply⟩

/-- Settles O22, by what the decision on a swap, a new swap and each end of a build leave in the banks. -/
theorem pipelineRowsComplete : Obligations.PipelineRowsComplete := by
  unfold Obligations.PipelineRowsComplete
  refine ⟨?ready, ?late, fun s die port line l hd hp hl => execToneLine_shows hd hp hl,
    fun s h ctx bank line hA hb h1 h256 hl hbuilt hother hctx hp => execTbSwap_defers hA hb h1 h256 hl hbuilt hother hctx hp,
    fun s h bank hA hb hst hp => execTbBuild_defers hA hb hst hp, fun s h bank hA hb hst => execTbBuildAbort_frees hA hb hst,
    fun s die bank tm i hd hb hi hst => execTbBuilt_completes hd hb hi hst, fun s h port hA hp => execPlStatus_reads hA hp⟩
  case ready =>
    intro s die bank hd hb hp ht hr
    obtain ⟨t, hn, hmem, hrd⟩ := execTbSwapDecision_decides hd hb hp ht
    obtain ⟨hactive, hdone⟩ := Hw.swapDecide_of_ready (h := s.begun) hb hp hr
    exact ⟨t, hn, hmem, (hrd ..).trans hactive, (hrd ..).trans hdone⟩
  case late =>
    intro s die bank hd hb hp ht hr
    obtain ⟨t, hn, hmem, hrd⟩ := execTbSwapDecision_decides hd hb hp ht
    obtain ⟨hlate, hpending⟩ := Hw.swapDecide_of_notReady (h := s.begun) hp hr
    exact ⟨t, hn, hmem, (hrd ..).trans hlate, (hrd ..).trans hpending⟩

end Sys2Proof.Machine
end

section
/-!
PROOFS. The rows of the codec (R244, R247, R249 to R256, R262, R263): what each engine event leaves in the counts of its die, what a
verification waits with, and what each step of a compression job leaves in the list of jobs and in the counts.
-/
namespace Sys2Proof.Machine

variable {s : State} {d die ctx port engine : Nat}

/-! ### The codec and its registers -/

/-- The count of descriptors in flight goes up by one in its seven bits (R247). -/
theorem Hw.rd_add_inFlight (h : Hw) (d : Nat) :
    (h.add d A.dec_in_flight 0).rd d A.dec_in_flight 0 = (h.rd d A.dec_in_flight 0 + 1) % 2 ^ 7 := by
  have width : (attrRow? A.dec_in_flight.cls 0 A.dec_in_flight.id).map (·.width) = some 7 := by decide
  rw [Hw.rd_add_self, width]
  rfl

theorem eng_blocks_width : ∀ e < 4, (attrRow? A.eng_blocks.cls (e + 1) A.eng_blocks.id).map (·.width) = some 32 := by decide

@[simp] theorem Hw.rd_onCtx (h : Hw) (d c : Nat) (f : Ctx → Ctx) (e : Nat) (a : AttrId) (i : Nat) :
    (h.onCtx d c f).rd e a i = h.rd e a i := rfl
@[simp] theorem Hw.rd_onCodec (h : Hw) (d : Nat) (f : Codec → Codec) (e : Nat) (a : AttrId) (i : Nat) :
    (h.onCodec d f).rd e a i = h.rd e a i := rfl

/-- The codec changed on a die of the package. -/
theorem Hw.codec_onCodec (h : Hw) (f : Codec → Codec) (hd : d < h.dies.length) :
    ((h.onCodec d f).die d).codec = f (h.die d).codec := by
  rw [Hw.onCodec, h.die_onDie_self _ hd]

/-- The number of jobs shown leaves the records of the dies. -/
@[simp] theorem Hw.die_showJobs (h : Hw) (d e : Nat) : (h.showJobs d).die e = h.die e := rfl

@[simp] theorem State.atWork_codec (s : State) (q : Hdr) (e : Nat) : ((s.atWork q).die e).codec = (s.hw.die e).codec :=
  s.begun.started_die_codec q e

/-! ### Descriptors and engines (R244, R247, R249 to R252) -/

/-- DESCRIPTOR_PUSH of an eligible block that the queue takes counts one more descriptor in flight. -/
theorem execDescriptorPush_pushes {c : Ctx} {b : Blk} (hd : die < s.hw.dies.length) (hp : port < 24)
    (hc : s.begun.ctx? die ctx = some c) (hb : c.blocks.find? (fun b => b.port = port ∧ !b.pushed) = some b)
    (hprints : s.begun.ctxPrints die ctx = true) (hok : s.begun.ctxState die ctx ≠ ctxFAILED)
    (helig : b.first + b.count - 1 + s.begun.dMin die port ≤ c.slotAt port + 134)
    (hroom : s.hw.rd die A.dec_in_flight 0 < min (s.hw.rd die A.dec_limit 0) 96)
    (hpush : (s.begun.qPushPacket die (16 + port % 8) 0x04 (descWords ctx port false b.addr b.first b.len)).1 = .committed) :
    ∃ t, execDescriptorPush die ctx port s = .next t ∧
      t.hw.rd die A.dec_in_flight 0 = (s.hw.rd die A.dec_in_flight 0 + 1) % 2 ^ 7 := by
  refine ⟨_, s.onUnit_next _ hd hp, ?_⟩
  simp only [State.run_rd, hc, hb]
  have hgo : ¬(¬(s.begun.ctxPrints die ctx = true ∨ s.begun.ctxState die ctx = ctxSTOPPED) ∨
      s.begun.ctxState die ctx = ctxFAILED ∨ ¬b.first + b.count - 1 + s.begun.dMin die port ≤ c.slotAt port + 134 ∨
      min (s.begun.rd die A.dec_limit) 96 ≤ s.begun.rd die A.dec_in_flight) := by
    rintro (hno | hno | hno | hno)
    · exact hno (.inl hprints)
    · exact hok hno
    · exact hno helig
    · exact Nat.not_le.2 hroom hno
  rw [if_neg hgo, if_pos (.inl hpush), Hw.rd_add_inFlight, Hw.rd_onCtx, (Hw.qPushPacket_only ..).read A.dec_in_flight (by decide),
    State.rd_begun]

/-- DECODE_START with a head waiting makes an idle engine busy and counts its block (assumption log 6 for the count's wrap). -/
theorem execDecodeStart_takes {q : Nat} (hd : die < s.hw.dies.length) (he : engine < 4)
    (hidle : s.begun.engine die engine = none) (hq : s.begun.decHead s.mems die = some q) :
    ∃ t, execDecodeStart die engine s = .next t ∧ t.hw.rd die A.eng_busy (engine + 1) = 1 ∧
      t.hw.rd die A.eng_blocks (engine + 1) = (s.hw.rd die A.eng_blocks (engine + 1) + 1) % 2 ^ 32 := by
  have hfree : ¬(none : Option DecJob).isSome = true := Bool.false_ne_true
  refine ⟨_, s.onUnit_next _ hd he, ?_⟩
  simp only [State.run_rd, hidle, hq]
  rw [if_neg hfree]
  refine ⟨?busy, ?count⟩
  case busy =>
    rw [Hw.rd_add_ne _ (by decide), Hw.rd_wr_ne _ (by decide), Hw.rd_wr_ne _ (by decide), Hw.rd_wr_self]
  case count =>
    rw [Hw.rd_add_wrap32 _ _ (eng_blocks_width engine he), Hw.rd_wr_ne _ (by decide), Hw.rd_wr_ne _ (by decide),
      Hw.rd_wr_ne _ (by decide), Hw.rd_onCodec, (Hw.qRetry_only ..).read A.eng_blocks (by decide),
      (Hw.qPopPacket_only ..).read A.eng_blocks (by decide), State.rd_begun]

/-- DECODE_COMPLETE of an engine with a block leaves the engine idle, whatever becomes of the block. -/
theorem execDecodeComplete_idles {mem : Bool} {j : DecJob} (hd : die < s.hw.dies.length) (he : engine < 4)
    (hj : s.begun.engine die engine = some j) :
    ∃ t, execDecodeComplete die engine mem s = .next t ∧ t.hw.rd die A.eng_busy (engine + 1) = 0 := by
  refine ⟨_, s.onUnit_next _ hd he, ?_⟩
  simp -zeta only [State.run_rd, hj]
  extract_lets landed idle bytes head decoded spent
  have hidle : idle.rd die A.eng_busy (engine + 1) = 0 := Hw.rd_wr_self ..
  have hspent : spent.rd die A.eng_busy (engine + 1) = 0 := by rw [Hw.rd_add_ne _ (by decide), Hw.rd_fresh, hidle]
  split
  · rw [(Hw.verifyEnd_only ..).read A.eng_busy (by decide), hidle]
  split
  · rw [(Hw.decDiscard_only ..).read A.eng_busy (by decide), hspent]
  split
  · rw [(Hw.decDiscard_only ..).read A.eng_busy (by decide), hspent]
  split
  · rw [(Hw.decFail_only ..).read A.eng_busy (by decide), Hw.rd_fresh, hspent]
  split
  · rw [(Hw.decFail_only ..).read A.eng_busy (by decide), hspent]
  · rw [(Hw.prepare_only ..).read A.eng_busy (by decide), (Hw.decRelease_only ..).read A.eng_busy (by decide), hspent]

/-! ### CODEC_VERIFY (R262) -/

/-- The codec's commands are carried out by the die that their header names (R18). -/
theorem execDie_codecVerify (h : Hw) (q : Hdr) (i : Nat) : h.execDie q 0x0601 (opObj 0x0601 i) = q.die := rfl
theorem execDie_codecCompress (h : Hw) (q : Hdr) (i : Nat) : h.execDie q 0x0602 (opObj 0x0602 i) = q.die := rfl

/-- The descriptor of a verification pushed, and the verification with it in wait for its engine. -/
def Hw.verifyPushed (h : Hw) (d first : Nat) (v : Verify) : Hw :=
  ((h.qPushPacket d (16 + v.port % 8) 0x02 (descWords 0 v.port true v.addr first v.len)).2.add d A.dec_in_flight 0).onCodec d
    fun C => { C with verifies := C.verifies ++ [v] }

theorem Hw.rd_verifyPushed (h : Hw) (d first : Nat) (v : Verify) :
    (h.verifyPushed d first v).rd d A.dec_in_flight 0 = (h.rd d A.dec_in_flight 0 + 1) % 2 ^ 7 := by
  rw [Hw.verifyPushed, Hw.rd_onCodec, Hw.rd_add_inFlight, (Hw.qPushPacket_only ..).read A.dec_in_flight (by decide)]

theorem Hw.verifyPushed_replies (h : Hw) (d first : Nat) (v : Verify) : (h.verifyPushed d first v).replies = h.replies :=
  (Hw.qPushPacket_only ..).hw .replies (by decide)

/-- CODEC_VERIFY that nothing refuses and whose descriptor the queue takes waits for its engine: one more descriptor is in flight
and there is no reply yet. -/
theorem execCodecVerify_waits {q : Hdr} {port greyscale margin nozzles addr stored out : Nat}
    (hA : s.Admits q 0x0601 (opObj 0x0601 0))
    (hrange : ¬(24 ≤ port ∨ 1 < greyscale ∨ 64 < margin ∨ nozzles < 256 ∨ 4096 < nozzles ∨ nozzles % 256 ≠ 0 ∨ stored < 17 ∨
      65552 < stored ∨ 2 ^ 40 ≤ addr ∨ (out ≠ 0 ∧ !inDram out 1)))
    (hroom : (s.atWork q).rd q.die A.dec_in_flight 0 < min ((s.atWork q).rd q.die A.dec_limit 0) 96)
    (hpush : ((s.atWork q).qPushPacket q.die (16 + port % 8) 0x02
      (descWords 0 port true addr ((s.atWork q).num s.mems q.die (addr + 4) 4) stored)).1 = .committed) :
    ∃ t, execCodecVerify q port greyscale margin nozzles addr stored out s = .next t ∧ t.replyOf q = s.replyOf q ∧
      t.hw.rd q.die A.dec_in_flight 0 = (s.hw.rd q.die A.dec_in_flight 0 + 1) % 2 ^ 7 := by
  let w := (s.atWork q).verifyPushed q.die ((s.atWork q).num s.mems q.die (addr + 4) 4)
    ⟨port, nozzles, margin, greyscale = 1, addr, stored, out, q.origin, q.tag⟩
  obtain ⟨t, hn, hwait⟩ : ∃ t, execCodecVerify q port greyscale margin nozzles addr stored out s = .next t ∧
      State.Awaits q w t := State.commandHold_awaits hA (by
    rw [execDie_codecVerify, if_neg hrange, if_neg (Nat.not_le.2 hroom)]
    dsimp only
    rw [if_pos (.inl hpush)]
    rfl)
  refine ⟨t, hn, ?_, ?_⟩
  · rw [hwait.reply, Hw.reply?, Hw.verifyPushed_replies]
    rfl
  · rw [hwait.rd, Hw.rd_verifyPushed, State.atWork_rd]

/-! ### Compression jobs (R253 to R259, R263) -/

/-- The codec after a mailbox command is that which its work leaves. -/
theorem State.command_codec {q : Hdr} {op : Nat} {o : ObjRef} (hA : s.Admits q op o)
    {body : List (List Host.Cell) → Nat → Hw → Reply × Hw} {w : Reply × Hw}
    (hb : body s.mems (s.hw.execDie q op o) (s.atWork q) = w) :
    ∃ t, s.command q op o body = .next t ∧ s.Leaves q w t ∧ ∀ d, (t.hw.die d).codec = (w.2.die d).codec := by
  obtain ⟨t, hn, hl⟩ := State.command_leaves hA hb
  refine ⟨t, hn, hl, fun d => ?_⟩
  obtain rfl : _ = t := Host.Outcome.next.inj ((State.command_next hA body).symm.trans hn)
  rw [State.run_die, Hw.finish_die_codec, ← hb]
  rfl

/-- A job put last in the list, its command deferred (R253, R263). -/
def Hw.jobAdded (h : Hw) (d : Nat) (q : Hdr) (j : CompJob) : Hw :=
  ((h.deferWork d q false).2.2.onCodec d fun C => { C with jobs := C.jobs ++ [j] }).showJobs d

theorem Hw.jobs_jobAdded (h : Hw) (q : Hdr) (j : CompJob) (hd : d < h.dies.length) :
    ((h.jobAdded d q j).die d).codec.jobs = (h.die d).codec.jobs ++ [j] := by
  have K := h.deferWork_only d q false []
  have hcodec : ((h.deferWork d q false).2.2.die d).codec = (h.die d).codec := K.die d .codec (by decide)
  rw [Hw.jobAdded, Hw.die_showJobs, Hw.codec_onCodec _ _ (K.len ▸ hd), hcodec]

/-- CODEC_COMPRESS_SUBMIT that nothing refuses is DEFERRED and its job is last in the list. -/
theorem execCodecCompressSubmit_defers {q : Hdr} {queue back tag addr row stride rows line limit per : Nat}
    (hA : s.Admits q 0x0602 (opObj 0x0602 0))
    (hrange : ¬(queue < 40 ∨ 47 < queue ∨ back = 1 ∨ 255 < back ∨ 65535 < tag ∨ row = 0 ∨ 65536 < row ∨ stride < row ∨
      2 ^ 32 ≤ stride ∨ rows = 0 ∨ 2 ^ 32 ≤ rows ∨ 2 ^ 32 ≤ line ∨ limit < 32 ∨ 16384 < limit ∨ per = 0 ∨ 65535 < per ∨
      65536 < per * row ∨ !inDram addr ((rows - 1) * stride + row)))
    (hroom : (s.hw.die q.die).codec.jobs.length < 8) (hq : (s.hw.q q.die queue).enabled = true)
    (hnew : ((s.hw.die q.die).codec.jobs.any fun j => j.src = srcOf q.origin ∧ j.tag = tag) = false) :
    ∃ t, execCodecCompressSubmit q queue back tag addr row stride rows line limit per s = .next t ∧ s.SameMem t ∧
      t.statusOf q = some .deferred ∧ (t.hw.die q.die).codec.jobs.length = (s.hw.die q.die).codec.jobs.length + 1 := by
  let j : CompJob := { id := (s.atWork q).nextId, src := srcOf q.origin, tag := tag, queue := queue, back := back, addr := addr,
                       row := row, stride := stride, rows := rows, line := line, limit := limit, per := per }
  have hfull : ¬8 ≤ ((s.atWork q).die q.die).codec.jobs.length := by
    rw [State.atWork_codec]
    exact Nat.not_le.2 hroom
  have hok : ¬((!((s.atWork q).q q.die queue).enabled) = true ∨
      ((s.atWork q).die q.die).codec.jobs.any (fun j => j.src = srcOf q.origin ∧ j.tag = tag) = true) := by
    have hqueue : (s.atWork q).q q.die queue = s.hw.q q.die queue := by
      rw [Hw.q, State.atWork, Hw.started_die_queues]
      rfl
    rw [State.atWork_codec, hqueue, hq, hnew]
    decide
  obtain ⟨t, hn, hl, hcodec⟩ : ∃ t, execCodecCompressSubmit q queue back tag addr row stride rows line limit per s = .next t ∧
      s.Leaves q (.deferred { kind := 5 }, (s.atWork q).jobAdded q.die q j) t ∧
      ∀ d, (t.hw.die d).codec = (((s.atWork q).jobAdded q.die q j).die d).codec := State.command_codec hA (by
    rw [execDie_codecCompress, if_neg hrange]
    dsimp only
    rw [if_neg hfull, if_neg hok]
    rfl)
  refine ⟨t, hn, (execCodecCompressSubmit_within _ _ _ _ _ _ _ _ _ _ _ _ hn).sameMem, ?_, ?_⟩
  · rw [State.statusOf, hl.reply]
    rfl
  · rw [hcodec, Hw.jobs_jobAdded _ _ _ ((s.atWork_length q).symm ▸ hA.1), State.atWork_codec, List.length_append]
    rfl

/-- COMPRESS_JOB_START begins the first job of the list. -/
theorem execCompressJobStart_runs (hd : die < s.hw.dies.length) (hidle : (s.hw.die die).codec.running = false)
    (hjobs : (s.hw.die die).codec.jobs ≠ []) :
    ∃ t, execCompressJobStart die s = .next t ∧ s.SameMem t ∧ (t.hw.die die).codec.running = true ∧
      (t.hw.die die).codec.jobs = (s.hw.die die).codec.jobs := by
  have hn : execCompressJobStart die s = .next (s.run _) := s.onDie_next _ hd
  have hgo : ¬((s.begun.die die).codec.running = true ∨ (s.begun.die die).codec.jobs = []) := by simp [hidle, hjobs]
  refine ⟨_, hn, (execCompressJobStart_within _ _ hn).sameMem, ?_⟩
  simp only [State.run_die]
  rw [if_neg hgo, Hw.die_showJobs, Hw.codec_onCodec s.begun _ hd]
  exact ⟨rfl, rfl⟩

theorem out_failed_width : (attrRow? A.out_failed.cls 0 A.out_failed.id).map (·.width) = some 32 := by decide
theorem out_bytes_in_width : (attrRow? A.out_bytes_in.cls 0 A.out_bytes_in.id).map (·.width) = some 64 := by decide

/-- A job that ends otherwise than OK is counted as failed (R256; assumption log 6 for the count's wrap). -/
theorem Hw.rd_jobEnd_failed (h : Hw) (d : Nat) (j : CompJob) {st : Status} (hst : st ≠ .ok) :
    (h.jobEnd d j st).rd d A.out_failed 0 = (h.rd d A.out_failed 0 + 1) % 2 ^ 32 := by
  unfold Hw.jobEnd
  dsimp only
  rw [if_neg hst, Hw.rd_event _ _ _ _ _ _ (by decide), Hw.rd_add_wrap32 _ _ out_failed_width, Hw.rd_settle,
    (Hw.showJobs_only ..).read A.out_failed (by decide), Hw.rd_onCodec, (Hw.qPushPacket_only ..).read A.out_failed (by decide)]

/-- COMPRESS_BLOCK_END with a memory error in the source fails the running job (R258). -/
theorem execCompressBlockEnd_fails {tokens : List Byte} {j : CompJob} {js : List CompJob} (hd : die < s.hw.dies.length)
    (hrun : (s.hw.die die).codec.running = true) (hjobs : (s.hw.die die).codec.jobs = j :: js) :
    ∃ t, execCompressBlockEnd die tokens true s = .next t ∧
      t.hw.rd die A.out_failed 0 = (s.hw.rd die A.out_failed 0 + 1) % 2 ^ 32 := by
  refine ⟨_, s.onDie_next _ hd, ?_⟩
  rw [State.run_rd]
  extract_lets C
  rw [show C.running = true from hrun, show C.jobs = j :: js from hjobs]
  dsimp -zeta only
  extract_lets
  rw [if_pos rfl, Hw.rd_jobEnd_failed _ _ _ (by decide), (Hw.countRewind_only ..).read A.out_failed (by decide), State.rd_begun]

/-- COMPRESS_BLOCK_END of tokens that say the block's rows counts the rows' bytes, whether the block is committed or the job fails
for want of space (assumption log 38: bytes read from the source are counted once). -/
theorem execCompressBlockEnd_counts {tokens : List Byte} {j : CompJob} {js : List CompJob} {n : Nat} (hd : die < s.hw.dies.length)
    (hrun : (s.hw.die die).codec.running = true) (hjobs : (s.hw.die die).codec.jobs = j :: js)
    (hcount : n = min j.per (j.rows - j.block * j.per))
    (hkind : (decodeTokens j.row n tokens.length (tokens.length + 1) tokens 0 0 0 [] 0).kind = kOK)
    (hback : backsOk j.back tokens.length tokens = true)
    (hsrc : (decodeTokens j.row n tokens.length (tokens.length + 1) tokens 0 0 0 [] 0).rev.reverse =
      (List.range n).flatMap fun i => s.begun.bytes s.mems die (j.addr + (j.block * j.per + i) * j.stride) j.row) :
    ∃ t, execCompressBlockEnd die tokens false s = .next t ∧
      t.hw.rd die A.out_bytes_in 0 = (s.hw.rd die A.out_bytes_in 0 + n * j.row) % 2 ^ 64 := by
  subst hcount
  refine ⟨_, s.onDie_next _ hd, ?_⟩
  rw [State.run_rd]
  extract_lets C
  rw [show C.running = true from hrun, show C.jobs = j :: js from hjobs]
  dsimp -zeta only
  extract_lets r0 n u src dec space raw j1 counted noRoom last packet rewound j2 committed
  have hgo : ¬(dec.kind ≠ kOK ∨ dec.rev.reverse ≠ src ∨ (!backsOk j.back tokens.length tokens) = true) := by
    rintro (hno | hno | hno)
    · exact hno hkind
    · exact hno hsrc
    · simp [hback] at hno
  have hcounted : counted.rd die A.out_bytes_in 0 = (s.hw.rd die A.out_bytes_in 0 + u) % 2 ^ 64 := by
    rw [Hw.rd_add_self, out_bytes_in_width, State.rd_begun]
    rfl
  have hrewound : rewound.rd die A.out_bytes_in 0 = counted.rd die A.out_bytes_in 0 := by
    unfold rewound
    split
    · rw [Hw.rd_add_ne _ (by decide), (Hw.countRewind_only ..).read A.out_bytes_in (by decide)]
    · rfl
  have hcommitted : committed.rd die A.out_bytes_in 0 = counted.rd die A.out_bytes_in 0 := by
    rw [Hw.rd_onCodec, Hw.rd_add_ne _ (by decide), (Hw.qPushPacket_only ..).read A.out_bytes_in (by decide), hrewound]
  rw [if_neg Bool.false_ne_true, if_neg hgo]
  split
  · rw [(Hw.jobEnd_only ..).read A.out_bytes_in (by decide), Hw.rd_onCodec, (Hw.countRewind_only ..).read A.out_bytes_in (by decide),
      hcounted]
  split
  · rw [(Hw.jobEnd_only ..).read A.out_bytes_in (by decide), hcommitted, hcounted]
  · rw [hcommitted, hcounted]

/-- A job of the list aborted: the running one ends with a STATE trailer, a waiting one is taken out (R263). -/
def Hw.jobAborted (h : Hw) (d : Nat) (j : CompJob) : Hw :=
  if (h.die d).codec.running ∧ (h.die d).codec.jobs.head? = some j then (h.countRewind d j.queue).jobEnd d j .state
  else (((h.onCodec d fun C => { C with jobs := C.jobs.erase j }).showJobs d).settle j.id Status.state.code).add d A.out_failed 0

theorem Hw.rd_jobAborted (h : Hw) (d : Nat) (j : CompJob) :
    (h.jobAborted d j).rd d A.out_failed 0 = (h.rd d A.out_failed 0 + 1) % 2 ^ 32 := by
  unfold Hw.jobAborted
  split
  case isTrue => rw [Hw.rd_jobEnd_failed _ _ _ (by decide), (Hw.countRewind_only ..).read A.out_failed (by decide)]
  case isFalse =>
    rw [Hw.rd_add_wrap32 _ _ out_failed_width, Hw.rd_settle, (Hw.showJobs_only ..).read A.out_failed (by decide), Hw.rd_onCodec]

/-- CODEC_COMPRESS_ABORT of a job of the list counts it as failed, whether it runs or waits. -/
theorem execCodecCompressAbort_fails {q : Hdr} {queue tag : Nat} {j : CompJob} (hA : s.Admits q 0x0602 (opObj 0x0602 0))
    (h40 : 40 ≤ queue) (h47 : queue ≤ 47) (htag : tag ≤ 65535)
    (hj : (s.hw.die q.die).codec.jobs.find? (fun j => j.src = srcOf q.origin ∧ j.tag = tag) = some j) :
    ∃ t, execCodecCompressAbort q queue tag s = .next t ∧ t.replyOf q = some .ok ∧
      t.hw.rd q.die A.out_failed 0 = (s.hw.rd q.die A.out_failed 0 + 1) % 2 ^ 32 := by
  have hrange : ¬(queue < 40 ∨ 47 < queue ∨ 65535 < tag) := by omega
  have hfound : ((s.atWork q).die q.die).codec.jobs.find? (fun j => j.src = srcOf q.origin ∧ j.tag = tag) = some j := by
    rwa [State.atWork_codec]
  obtain ⟨t, hn, hl⟩ : ∃ t, execCodecCompressAbort q queue tag s = .next t ∧
      s.Leaves q (okWith ((s.atWork q).jobAborted q.die j)) t := State.command_leaves hA (by
    rw [execDie_codecCompress, if_neg hrange]
    dsimp only
    rw [hfound]
    exact (apply_ite okWith ..).symm)
  refine ⟨t, hn, hl.reply, ?_⟩
  rw [hl.rd _ _ _ (by decide) (by decide), okWith, Hw.rd_jobAborted, State.atWork_rd]

/-- Settles O23, by what each event of the engines and each step of a job leave in the codec and its counts. -/
theorem codecRowsComplete : Obligations.CodecRowsComplete := by
  unfold Obligations.CodecRowsComplete
  refine ⟨fun s die ctx port c b hd hp hc hb hprints hok helig hroom hpush =>
      execDescriptorPush_pushes hd hp hc hb hprints hok helig hroom hpush,
    fun s die engine q hd he hidle hq => execDecodeStart_takes hd he hidle hq,
    fun s die engine mem j hd he hj => execDecodeComplete_idles hd he hj, ?verify, ?submit,
    fun s die hd hidle hjobs => execCompressJobStart_runs hd hidle hjobs,
    fun s die tokens j js hd hrun hjobs => execCompressBlockEnd_fails hd hrun hjobs,
    fun s die tokens j js n hd hrun hjobs hn hkind hback hsrc => execCompressBlockEnd_counts hd hrun hjobs hn hkind hback hsrc,
    fun s h queue tag j hA h40 h47 htag hj => execCodecCompressAbort_fails hA h40 h47 htag hj⟩
  case verify =>
    intro s h port greyscale margin nozzles addr stored out v hA hp hg hm hn hn' hmod hs hs' ha hout hroom hv hpush
    subst hv
    refine execCodecVerify_waits hA ?_ hroom hpush
    have hbad : ¬(out ≠ 0 ∧ (!inDram out 1) = true) := by
      rintro ⟨hne, hno⟩
      simp [hout.resolve_left hne] at hno
    simp only [hbad, or_false]
    omega
  case submit =>
    intro s h queue back tag addr row stride rows line limit per hA h40 h47 hb1 hb htag hr1 hr hstride hs32 hrows1 hrows hline hl32
      hlimit hp1 hper hblock hsrc hroom hq hnew
    refine execCodecCompressSubmit_defers hA ?_ hroom hq hnew
    simp only [hsrc, Bool.not_true, Bool.false_eq_true, or_false]
    omega

end Sys2Proof.Machine
end

section
/-!
PROOFS. The rows of the streams (R273, R274, R278 to R282, R284): what a datagram, a reply to the peer and the ingest engine leave in
the attributes and the record of a stream.
-/
namespace Sys2Proof.Machine

variable {h : Hw} {s : State} {d die stream : Nat}

/-! ### The record of a stream and its credit -/

theorem Hw.stream_onStream (h : Hw) (f : Stream → Stream) (hd : d < h.dies.length) (hs : stream < (h.die d).streams.length) :
    (h.onStream d stream f).stream d stream = f (h.stream d stream) := by
  unfold Hw.stream Hw.onStream
  rw [h.die_onDie_self _ hd]
  simp [List.getD_eq_getElem?_getD, hs]

@[simp] theorem Hw.rd_onStream (h : Hw) (d s : Nat) (f : Stream → Stream) (e : Nat) (a : AttrId) (i : Nat) :
    (h.onStream d s f).rd e a i = h.rd e a i := rfl

theorem State.run_stream (s : State) (f : List (List Host.Cell) → Hw → Hw) (d i : Nat) :
    (s.run f).hw.stream d i = (f s.mems s.begun).stream d i := rfl

theorem State.run_credit (s : State) (f : List (List Host.Cell) → Hw → Hw) (d i : Nat) :
    (s.run f).hw.credit d i = (f s.mems s.begun).credit d i := rfl

/-- The credit depends on no credit shown before (R280). -/
theorem Hw.credit_wr_credit (h : Hw) (d i v e s : Nat) : (h.wr d A.st_credit i v).credit e s = h.credit e s := by
  have hread : ∀ (a : AttrId) j, A.st_credit ≠ a → (h.wr d A.st_credit i v).rd e a j = h.rd e a j := fun a j ha =>
    h.rd_wr_ne ha d i v e j
  simp only [Hw.credit, Hw.accepts, Hw.ctxState, hread A.st_next_seq _ (by decide), hread A.st_context _ (by decide),
    hread A.ctx_state _ (by decide)]
  rfl

/-! ### Replies to the peer (R277, R280) -/

/-- A reply shows the credit that it carries. -/
theorem Hw.rd_grtReply_credit (h : Hw) (d s type : Nat) : (h.grtReply d s type).rd d A.st_credit (s + 1) = h.credit d s := by
  unfold Hw.grtReply
  dsimp only
  split
  · rw [Hw.rd_onStream, Hw.rd_emit, Hw.rd_wr_self]
  · rw [Hw.rd_emit, Hw.rd_wr_self]

/-- An ACK goes out with the sequence number expected, the context's state and the credit. -/
theorem Hw.grtReply_ack_out (h : Hw) (d s : Nat) : (h.grtReply d s 2).out = h.out ++
    [.grt d s (h.stream d s).peer 2 (h.rd d A.st_next_seq (s + 1)) (h.ctxState d (h.rd d A.st_context (s + 1))) (h.credit d s)] := by
  unfold Hw.grtReply
  dsimp only
  rw [if_pos rfl]
  rfl

/-- An ACK leaves no datagram unacknowledged. -/
theorem Hw.unacked_grtReply_ack (h : Hw) (hd : d < h.dies.length) (hs : stream < (h.die d).streams.length) :
    ((h.grtReply d stream 2).stream d stream).unacked = 0 := by
  unfold Hw.grtReply
  dsimp only
  rw [if_pos rfl, Hw.stream_onStream _ _ (by exact hd) (by exact hs)]

/-! ### Datagrams (R276, R278, R281) -/

section
variable {eth ip udp seq ctx flags off : Nat} {data : List Byte} (hs : stream < 16)
  (hport : (h.rd d A.grt_port_en 0).testBit eth = true) (htype : h.rd d A.st_type (stream + 1) = 1)
  (hctx : ctx = h.rd d A.st_context (stream + 1))
include hs hport htype hctx

omit hport in
/-- A DATA datagram of 1 to 8192 bytes of the context that its raster stream feeds is not a bad one (R276). -/
theorem grtHeader_good (h0 : ctx ≠ 0) (hdata : data ≠ []) (hlen : data.length ≤ 8192) :
    ¬(16 ≤ stream ∨ h.rd d A.st_type (stream + 1) ≠ 1 ∨ ctx ≠ h.rd d A.st_context (stream + 1) ∨ ctx = 0 ∨ data = [] ∨
      8192 < data.length) := by
  simp only [not_or]
  exact ⟨Nat.not_le.2 hs, Decidable.not_not.2 htype, Decidable.not_not.2 hctx, h0, hdata, Nat.not_lt.2 hlen⟩

/-- A repeated datagram is counted and acknowledged again. -/
theorem Hw.grtData_of_repeated (h0 : ctx ≠ 0) (hdata : data ≠ []) (hlen : data.length ≤ 8192)
    (hseq : seqDiff seq (h.rd d A.st_next_seq (stream + 1)) < 0) :
    h.grtData d eth ip udp stream seq ctx flags off data = (h.add d A.grt_dup (stream + 1)).grtReply d stream 2 := by
  unfold Hw.grtData
  dsimp only
  rw [if_neg (by simp [hport]), if_neg (grtHeader_good hs htype hctx h0 hdata hlen), if_pos hseq]

/-- The datagram expected, within the credit and with room in its queue, moves the sequence number on, whether or not an ACK follows
at once. -/
theorem Hw.rd_grtData_of_expected (h0 : ctx ≠ 0) (hdata : data ≠ []) (hlen : data.length ≤ 8192)
    (hseq : seqDiff seq (h.rd d A.st_next_seq (stream + 1)) = 0) (hcredit : seqDiff seq (h.credit d stream) < 0)
    (hon : (h.q d stream).enabled = true)
    (hroom : (grtWords seq flags off data).length ≤ (h.q d stream).size - (h.q d stream).occupied) :
    (h.grtData d eth ip udp stream seq ctx flags off data).rd d A.st_next_seq (stream + 1) =
      (h.rd d A.st_next_seq (stream + 1) + 1) % 2 ^ 32 := by
  unfold Hw.grtData
  dsimp only
  rw [if_neg (by simp [hport]), if_neg (grtHeader_good hs htype hctx h0 hdata hlen), if_neg (by omega),
    if_pos ⟨hseq, hcredit, hon, hroom⟩]
  split
  · rw [(Hw.grtReply_only ..).read A.st_next_seq (by decide), Hw.rd_wr_ne _ (by decide), Hw.rd_wr_self]
  · rw [Hw.rd_wr_ne _ (by decide), Hw.rd_wr_self]

/-- A RESET sets the sequence number expected, whatever an ACK shows of the credit. -/
theorem Hw.rd_grtReset : (h.grtReset d eth ip udp stream seq ctx).rd d A.st_next_seq (stream + 1) = seq % 2 ^ 32 := by
  have hok : ¬(16 ≤ stream ∨ h.rd d A.st_type (stream + 1) ≠ 1 ∨ ctx ≠ h.rd d A.st_context (stream + 1)) := by
    simp only [not_or]
    exact ⟨Nat.not_le.2 hs, Decidable.not_not.2 htype, Decidable.not_not.2 hctx⟩
  unfold Hw.grtReset
  dsimp only
  rw [if_neg (by simp [hport]), if_neg hok, (Hw.grtReply_only ..).read A.st_next_seq (by decide), Hw.rd_wr_self]
end

theorem grt_dup_width : ∀ i < 16, (attrRow? A.grt_dup.cls (i + 1) A.grt_dup.id).map (·.width) = some 32 := by decide

/-- GRT_ACK_TIMER of a stream with a datagram unacknowledged sends an ACK. -/
theorem execGrtAckTimer_acks (hd : die < s.hw.dies.length) (h16 : stream < 16) (hu : (s.hw.stream die stream).unacked ≠ 0)
    (hs : stream < (s.hw.die die).streams.length) :
    ∃ t, execGrtAckTimer die stream s = .next t ∧ s.SameMem t ∧
      t.hw.rd die A.st_credit (stream + 1) = s.begun.credit die stream ∧ (t.hw.stream die stream).unacked = 0 ∧
      t.hw.out = [.grt die stream (s.hw.stream die stream).peer 2 (s.hw.rd die A.st_next_seq (stream + 1))
        (s.begun.ctxState die (s.hw.rd die A.st_context (stream + 1))) (s.begun.credit die stream)] := by
  have hn : execGrtAckTimer die stream s = .next (s.run _) := s.onUnit_next _ hd h16
  have hgo : ¬(s.begun.stream die stream).unacked = 0 := hu
  refine ⟨_, hn, (execGrtAckTimer_within _ _ _ hn).sameMem, ?_⟩
  rw [State.run_rd, State.run_stream, State.run_out]
  simp only [if_neg hgo]
  exact ⟨s.begun.rd_grtReply_credit .., s.begun.unacked_grtReply_ack hd hs, s.begun.grtReply_ack_out ..⟩

/-! ### PCIe DMA (R282, R284) -/

/-- DMA_TAIL_WRITE takes the tail modulo the ring and the endpoint that wrote it. -/
theorem execDmaTailWrite_takes {ep value : Nat} (hd : die < s.hw.dies.length) (h16 : stream < 16)
    (hs : stream < (s.hw.die die).streams.length) :
    ∃ t, execDmaTailWrite die ep stream value s = .next t ∧ s.SameMem t ∧
      (t.hw.stream die stream).dmaTail = value % 2 ^ s.hw.rd die A.dma_ring_log2 (stream + 1) ∧
      (t.hw.stream die stream).dmaEp = ep := by
  have hn : execDmaTailWrite die ep stream value s = .next (s.run _) := s.onUnit_next _ hd h16
  refine ⟨_, hn, (execDmaTailWrite_within _ _ _ _ _ hn).sameMem, ?_⟩
  rw [State.run_stream, Hw.dmaTail, s.begun.stream_onStream _ hd hs]
  exact ⟨rfl, rfl⟩

/-- DMA_BLOCK_FETCH of a block as long as its descriptor says makes the block wait for room. -/
theorem execDmaBlockFetch_waits {stored : Nat} {data : List Byte} (hd : die < s.hw.dies.length) (h16 : stream < 16)
    (hs : stream < (s.hw.die die).streams.length) (htype : s.hw.rd die A.st_type (stream + 1) = 2)
    (hring : (s.hw.stream die stream).dmaHead ≠ (s.hw.stream die stream).dmaTail)
    (hfree : (s.hw.stream die stream).waiting = none) (hlo : 17 ≤ stored) (hhi : stored ≤ 65552) (hlen : data.length = stored) :
    ∃ t, execDmaBlockFetch die stream stored true data s = .next t ∧ (t.hw.stream die stream).waiting = some data := by
  have hstream : s.begun.stream die stream = s.hw.stream die stream := rfl
  have hgo : ¬(s.begun.rd die A.st_type (stream + 1) ≠ 2 ∨
      (s.begun.stream die stream).dmaHead = (s.begun.stream die stream).dmaTail ∨
      (s.begun.stream die stream).waiting.isSome = true) := by
    simp only [not_or]
    exact ⟨Decidable.not_not.2 htype, hring, by simp [hstream, hfree]⟩
  have hgood : ¬((stored < 17 ∨ 65552 < stored) ∨ (!true) = true ∨ data.length ≠ stored) := by
    simp only [Bool.not_true, Bool.false_eq_true, false_or]
    omega
  refine ⟨_, s.onUnit_next _ hd h16, ?_⟩
  rw [State.run_stream]
  dsimp only
  rw [if_neg hgo, if_neg hgood, s.begun.stream_onStream _ hd hs]

/-! ### The ingest engine (R273, R274, R280) -/

/-- BLOCK_STORE of a block that waits leaves the stream's credit as the room then allows, whatever becomes of the block. -/
theorem execBlockStore_shows_credit {bs : List Byte} (hd : die < s.hw.dies.length) (h16 : stream < 16)
    (hw : (s.hw.stream die stream).waiting = some bs) :
    ∃ t, execBlockStore die stream false s = .next t ∧ t.hw.rd die A.st_credit (stream + 1) = t.hw.credit die stream := by
  have hwait : (s.begun.stream die stream).waiting = some bs := hw
  refine ⟨_, s.onUnit_next _ hd h16, ?_⟩
  simp only [State.run_rd, State.run_credit, hwait, Option.isSome_some, true_or, if_true, Bool.false_eq_true, if_false]
  rw [Hw.rd_wr_self, Hw.credit_wr_credit]

/-- Settles O25, by what a datagram, an ACK, a tail write and the ingest engine each leave of a stream. -/
theorem streamRowsComplete : Obligations.StreamRowsComplete := by
  unfold Obligations.StreamRowsComplete
  refine ⟨?expected, ?repeated, ?reset, fun s die stream hd h16 hu hs => execGrtAckTimer_acks hd h16 hu hs,
    fun s die ep stream value hd h16 hs => execDmaTailWrite_takes hd h16 hs,
    fun s die stream stored data hd h16 hs htype hring hfree hlo hhi hlen =>
      execDmaBlockFetch_waits hd h16 hs htype hring hfree hlo hhi hlen,
    fun s die stream bs hd h16 hw => execBlockStore_shows_credit hd h16 hw⟩
  case expected =>
    intro s die eth ip udp stream sq ctx flags off data hd h16 hport htype hctx h0 hdata hlen hseq hcredit hon hroom
    exact ⟨_, s.onUnit_next _ hd h16,
      s.begun.rd_grtData_of_expected h16 hport htype hctx h0 hdata hlen hseq hcredit hon hroom⟩
  case repeated =>
    intro s die eth ip udp stream sq ctx flags off data hd h16 hport htype hctx h0 hdata hlen hseq
    refine ⟨_, s.onUnit_next _ hd h16, ?_⟩
    simp only [State.run_rd, s.begun.grtData_of_repeated h16 hport htype hctx h0 hdata hlen hseq]
    refine ⟨?_, ?_⟩
    · rw [(Hw.grtReply_only ..).read A.grt_dup (by decide), Hw.rd_add_wrap32 _ _ (grt_dup_width stream h16), State.rd_begun]
    · rw [(Hw.grtReply_only ..).read A.st_next_seq (by decide), Hw.rd_add_ne _ (by decide), State.rd_begun]
  case reset =>
    intro s die eth ip udp stream sq ctx hd h16 hport htype hctx
    have hn : execGrtReset die eth ip udp stream sq ctx s = .next (s.run _) := s.onUnit_next _ hd h16
    exact ⟨_, hn, (execGrtReset_within _ _ _ _ _ _ _ _ hn).sameMem, s.begun.rd_grtReset h16 hport htype hctx⟩

end Sys2Proof.Machine
end

section
/-!
PROOFS. The rows of the stop and the runway (R287 to R293, R300): what each step of a stop leaves in the attributes and in the stop's
record of its die.
-/
namespace Sys2Proof.Machine

variable {h : Hw} {s : State} {d e die : Nat}

/-! ### The stop's record of a die -/

/-- The stops are those of before where they are not in the frame. -/
theorem Hw.Only.stop {C : List Nat} {F : List DieRec} {G : List HwRec} {h h' : Hw} (K : Hw.Only C F G h h') (hF : .stop ∉ F) (d : Nat) :
    (h'.die d).stop = (h.die d).stop := K.die d .stop hF

/-- A field that an update of all dies leaves is the same on every die. -/
theorem Hw.die_mapDies_field {β : Type} (h : Hw) (f : Die → Die) (g : Die → β) (hg : ∀ D, g (f D) = g D) (e : Nat) :
    g (({ h with dies := h.dies.map f } : Hw).die e) = g (h.die e) := by
  unfold Hw.die
  simp only [List.getD_eq_getElem?_getD, List.getElem?_map]
  cases h.dies[e]? with
  | none => rfl
  | some D => exact hg D

/-- A write leaves another die's register where it is none of the package's. -/
theorem Hw.rd_wr_otherDie (h : Hw) {a : AttrId} (hde : d ≠ e) (i v j : Nat) (hi : isPkgObj a.cls i a.id = false)
    (hj : isPkgObj a.cls j a.id = false) : (h.wr d a i v).rd e a j = h.rd e a j :=
  h.rdk_wrk_ne v fun hk => hde (by simpa [rkey, hi, hj] using congrArg RegKey.die hk)

/-! ### The end of a backup (R291, R292) -/

/-- A backup that ends is done and leaves no request. -/
theorem Hw.stop_endBackup (h : Hw) (hd : d < h.dies.length) :
    ((h.endBackup d).die d).stop = { (h.die d).stop with backupAt := none, backupDone := true } := by
  have K := h.runwayReq_only d 2 false
  rw [Hw.endBackup, Hw.die_onDie_self _ _ (by simpa [K.len] using hd), Hw.die_wr, K.stop (by decide)]

theorem Hw.rd_endBackup_phase (h : Hw) (d : Nat) : (h.endBackup d).rd d A.stop_phase 0 = 4 := by
  rw [Hw.endBackup, Hw.rd_onDie, Hw.rd_wr_self]

/-- BACKUP_TIMEOUT of a backup short of its target gives it up. -/
theorem execBackupTimeout_gives_up (hd : die < s.hw.dies.length) (hb : (s.hw.die die).stop.backupAt.isSome)
    (hshort : s.hw.rdS die A.backup_target 0 64 < (s.hw.pos die).newest.lpos) :
    ∃ t, execBackupTimeout die s = .next t ∧ s.SameMem t ∧ (t.hw.die die).stop.backupAt = none ∧
      (t.hw.die die).stop.backupDone = true ∧ t.hw.rd die A.stop_phase 0 = 4 := by
  have hn : execBackupTimeout die s = .next (s.run _) := s.onDie_next _ hd
  have hstays : s.begun.backupReached die = s.begun := if_neg fun ⟨_, hreached⟩ => absurd hreached (Int.not_le.2 hshort)
  have hwaits : (s.begun.die die).stop.backupAt.isSome = true := hb
  refine ⟨_, hn, (execBackupTimeout_within _ _ hn).sameMem, ?_⟩
  simp only [State.run_die, State.run_rd, hstays, hwaits, if_true, Hw.noBackup, Hw.event_die_stop,
    s.begun.stop_endBackup hd, true_and]
  rw [Hw.rd_event _ _ _ _ _ _ (by decide), Hw.rd_endBackup_phase]

/-! ### The release (R293) -/

/-- STOP_RELEASE takes the die out of the stop, whether or not the pin falls with it. -/
theorem execStopRelease_releases (hd : die < s.hw.dies.length) (hm : s.begun.mayRelease die = true) :
    ∃ t, execStopRelease die s = .next t ∧ s.SameMem t ∧ (t.hw.die die).stop.active = false ∧ t.hw.rd die A.stop_phase 0 = 0 := by
  have hn : execStopRelease die s = .next (s.run _) := s.onDie_next _ hd
  refine ⟨_, hn, (execStopRelease_within _ _ hn).sameMem, ?_⟩
  rw [State.run_die, State.run_rd]
  extract_lets left released
  have hactive : (released.die die).stop.active = false := by
    have hleft : (left.die die).stop = {} := congrArg Die.stop (s.begun.die_onDie_self _ hd)
    rw [Hw.event_die_stop, (Hw.runwayReq_only ..).stop (by decide), Hw.die_wr, hleft]
  have hphase : released.rd die A.stop_phase 0 = 0 := by
    rw [Hw.rd_event _ _ _ _ _ _ (by decide), (Hw.runwayReq_only ..).read A.stop_phase (by decide), Hw.rd_wr_self]
  rw [if_neg (by simp [hm])]
  split
  · exact ⟨hactive, hphase⟩
  · refine ⟨?_, hphase⟩
    rw [released.die_mapDies_field _ (·.stop.active) fun D => by split <;> rfl]
    exact hactive

/-! ### The stop end (R289) -/

/-- A stop end fixed is the end of the context's data. -/
theorem Hw.rd_fixStop (h : Hw) (d : Nat) (c : Ctx) {z : Int} (hz : h.dataEnd d c = some z) :
    (h.fixStop d c).rd d A.stop_end c.num = ofSigned 64 z := by
  simp only [Hw.fixStop, hz]
  rw [Hw.rd_event _ _ _ _ _ _ (by decide), Hw.rd_wr_self]

/-- STOP_FIXED fixes the stop end of the one context that prints where the test passes. -/
theorem execStopFixed_fixes {c : Ctx} {z : Int} (hd : die < s.hw.dies.length) (hc : s.begun.printingCtxs die = [c])
    (ht : s.begun.stopTest die c = true) (hz : s.begun.dataEnd die c = some z) :
    ∃ t, execStopFixed die s = .next t ∧ s.SameMem t ∧ t.hw.rd die A.stop_end c.num = ofSigned 64 z := by
  have hn : execStopFixed die s = .next (s.run _) := s.onDie_next _ hd
  refine ⟨_, hn, (execStopFixed_within _ _ hn).sameMem, ?_⟩
  rw [State.run_rd, Hw.stopTests, hc, List.foldl_cons, List.foldl_nil, if_pos ht, Hw.rd_fixStop _ _ _ hz]

/-! ### The start of a stop (R288, R300) -/

/-- What follows a die's entry into a stop leaves the stops and the causes of all dies. -/
theorem Hw.stopOn_of_outside (h : Hw) (cause : Nat) (hout : (h.die d).stop.active = false) (e : Nat) :
    ((h.stopOn d cause).die e).stop = ((h.onDie d fun D => { D with stop := { active := true } }).die e).stop ∧
      (h.stopOn d cause).rd e A.stop_cause 0 = ((h.wr d A.stop_phase 0 1).wr d A.stop_cause 0 cause).rd e A.stop_cause 0 := by
  unfold Hw.stopOn
  extract_lets entered caused counted
  have K : Hw.Only [] [.ctxs] [] caused counted := .foldl (.refl ..) (fun k (c : Ctx) => k.onCtx_only d c.num _) _
  rw [if_neg (by simp [hout])]
  refine ⟨?_, ?_⟩
  · rw [Hw.event_die_stop, (Hw.runwayReq_only ..).stop (by decide), K.stop (by decide)]
    rfl
  · rw [Hw.rd_event _ _ _ _ _ _ (by decide), (Hw.runwayReq_only ..).read A.stop_cause (by decide),
      K.read A.stop_cause (by decide), Hw.rd_add_ne _ (by decide)]
    rfl

/-- The die is in a stop with the cause `cause`. -/
def Hw.StopsFor (h : Hw) (d cause : Nat) : Prop := (h.die d).stop.active = true ∧ h.rd d A.stop_cause 0 = cause

/-- A die that was in no stop enters one with the cause given. -/
theorem Hw.stopsFor_stopOn (h : Hw) (cause : Nat) (hd : d < h.dies.length) (hout : (h.die d).stop.active = false) :
    (h.stopOn d cause).StopsFor d cause := by
  obtain ⟨hstop, hcause⟩ := h.stopOn_of_outside cause hout d
  exact ⟨by rw [hstop, h.die_onDie_self _ hd], by rw [hcause, Hw.rd_wr_self]⟩

/-- Another die that joins leaves the stop and the cause of a die. -/
theorem Hw.StopsFor.stopOn {cause : Nat} (H : h.StopsFor d cause) (hed : e ≠ d) (c : Nat) : (h.stopOn e c).StopsFor d cause := by
  obtain ⟨hactive, hcause⟩ := H
  by_cases hin : (h.die e).stop.active = true
  · rw [Hw.stopOn, if_pos hin]
    exact ⟨hactive, hcause⟩
  · obtain ⟨hstop, hread⟩ := h.stopOn_of_outside c (Bool.eq_false_iff.2 hin) d
    refine ⟨?_, ?_⟩
    · rw [hstop, h.die_onDie_ne _ hed, hactive]
    · rw [hread, Hw.rd_wr_otherDie _ hed _ _ _ (by decide) (by decide), Hw.rd_wr_ne _ (by decide), hcause]

/-- A stop that starts on a die puts it in the stop with its own cause, whichever dies join. -/
theorem Hw.stopsFor_startStop (h : Hw) (cause : Nat) (hd : d < h.dies.length) (hout : (h.die d).stop.active = false) :
    (h.startStop d cause).StopsFor d cause := by
  unfold Hw.startStop
  rw [if_neg (by simp [hout])]
  refine List.foldlRecOn (motive := fun k : Hw => k.StopsFor d cause) _ _ (h.stopsFor_stopOn cause hd hout) fun k hk e _ => ?_
  split
  next hjoins => exact hk.stopOn hjoins.1 5
  next => exact hk

/-- The commands on contexts and on the runway are carried out by the die that their header names (R18). -/
theorem execDie_ctxCtrl (h : Hw) (q : Hdr) (c : Nat) : h.execDie q 0x0702 (opObj 0x0702 c) = q.die := rfl
theorem execDie_runwayStatus (h : Hw) (q : Hdr) : h.execDie q 0x0703 (opObj 0x0703 0) = q.die := rfl

/-- The stops after a mailbox command are those that its work leaves. -/
theorem State.command_stops {q : Hdr} {op : Nat} {o : ObjRef} (hA : s.Admits q op o)
    {body : List (List Host.Cell) → Nat → Hw → Reply × Hw} {w : Reply × Hw}
    (hb : body s.mems (s.hw.execDie q op o) (s.atWork q) = w) :
    ∃ t, s.command q op o body = .next t ∧ s.Leaves q w t ∧ ∀ d, (t.hw.die d).stop = (w.2.die d).stop := by
  obtain ⟨t, hn, hl⟩ := State.command_leaves hA hb
  refine ⟨t, hn, hl, fun d => ?_⟩
  obtain rfl : _ = t := Host.Outcome.next.inj ((State.command_next hA body).symm.trans hn)
  rw [State.run_die, Hw.finish_die_stop, ← hb]
  rfl

/-- CTX_STOP of a die that prints and is in no stop starts the stop with cause 4. -/
theorem execCtxStop_starts {q : Hdr} {ctx : Nat} (hA : s.Admits q 0x0702 (opObj 0x0702 ctx)) (h1 : 1 ≤ ctx) (h256 : ctx < 256)
    (hp : (s.atWork q).printing q.die = true) (hout : (s.hw.die q.die).stop.active = false) :
    ∃ t, execCtxStop q ctx s = .next t ∧ s.SameMem t ∧ t.replyOf q = some .ok ∧ (t.hw.die q.die).stop.active = true ∧
      t.hw.rd q.die A.stop_cause 0 = 4 := by
  obtain ⟨t, hn, hl, hstops⟩ : ∃ t, execCtxStop q ctx s = .next t ∧ s.Leaves q (okWith ((s.atWork q).startStop q.die 4)) t ∧
      ∀ d, (t.hw.die d).stop = (((s.atWork q).startStop q.die 4).die d).stop := State.command_stops hA (by
    rw [execDie_ctxCtrl, if_neg (by omega), if_neg (by simp [hp])])
  obtain ⟨hactive, hcause⟩ := (s.atWork q).stopsFor_startStop 4 (by simpa using hA.1)
    ((congrArg Stop.active (s.begun.started_die_stop q q.die)).trans hout)
  refine ⟨t, hn, (execCtxStop_within _ _ _ hn).sameMem, hl.reply, ?_, ?_⟩
  · rw [hstops, hactive]
  · rw [hl.rd _ _ _ (by decide) (by decide)]
    exact hcause

/-- RUNWAY_STATUS answers the runway, the stopping distance, the backup target and the state of the stop. -/
theorem execRunwayStatus_reads {q : Hdr} (hA : s.Admits q 0x0703 (opObj 0x0703 0)) :
    ∃ t, execRunwayStatus q s = .next t ∧ s.SameMem t ∧ t.replyOf q = some (.words
      (words64 (s.hw.rd q.die A.runway_nm 0) ++ words64 (s.hw.rd q.die A.stop_dist_nm 0) ++
        words64 (s.hw.rd q.die A.backup_target 0) ++
        [s.hw.rd q.die A.stop_phase 0 * 2 ^ 24 + s.hw.rd q.die A.stop_cause 0 * 2 ^ 16 + s.hw.rd q.die A.hs_out 0 % 8 * 2 ^ 8])) := by
  obtain ⟨t, hn, hl⟩ : ∃ t, execRunwayStatus q s = .next t ∧ s.Leaves q (_, s.atWork q) t :=
    State.command_leaves hA (by rw [execDie_runwayStatus])
  exact ⟨t, hn, (execRunwayStatus_within _ _ hn).sameMem, hl.reply⟩

/-- Settles O26, by what the end of a backup, a release, a stop end fixed and the start of a stop each leave of the stop. -/
theorem runwayRowsComplete : Obligations.RunwayRowsComplete := by
  unfold Obligations.RunwayRowsComplete
  exact ⟨fun s die hd hb hshort => execBackupTimeout_gives_up hd hb hshort, fun s die hd hm => execStopRelease_releases hd hm,
    fun s die c z hd hc ht hz => execStopFixed_fixes hd hc ht hz,
    fun s h ctx hA h1 h256 hp hout => execCtxStop_starts hA h1 h256 hp hout, fun s h hA => execRunwayStatus_reads hA⟩

end Sys2Proof.Machine
end

section
/-!
PROOFS. The rows of the camera frames (R302, R305, R310, R312 to R314, R322, R326, R329): what the opening, a line and the closing of
a frame leave in its camera port, and what the ISP's list of frames becomes.
-/
namespace Sys2Proof.Machine

variable {C : List Nat} {F : List DieRec} {G : List HwRec} {h h' : Hw} {s : State} {d c e j die port tm : Nat} {f : Frame}

/-! ### Camera ports -/

/-- The package has die `d`, and the die has a record of camera port `c`. -/
def Hw.HasCam (h : Hw) (d c : Nat) : Prop := d < h.dies.length ∧ c < (h.die d).cams.length

theorem Hw.Only.cam (K : Hw.Only C F G h h') (hF : .cams ∉ F) (d c : Nat) : h'.cam d c = h.cam d c := by
  have hcams : (h'.die d).cams = (h.die d).cams := K.die d .cams hF
  rw [Hw.cam, Hw.cam, hcams]

theorem Hw.Only.hasCam (K : Hw.Only C F G h h') (hF : .cams ∉ F) (H : h.HasCam d c) : h'.HasCam d c := by
  have hcams : (h'.die d).cams = (h.die d).cams := K.die d .cams hF
  rwa [Hw.HasCam, K.len, hcams]

@[simp] theorem Hw.rd_onCam (h : Hw) (d c : Nat) (u : Cam → Cam) (e : Nat) (a : AttrId) (i : Nat) :
    (h.onCam d c u).rd e a i = h.rd e a i := rfl

theorem Hw.HasCam.onCam (H : h.HasCam d c) (e j : Nat) (u : Cam → Cam) : (h.onCam e j u).HasCam d c := by
  refine ⟨(h.onCam_only e j u).len ▸ H.1, ?_⟩
  rw [Hw.onCam, h.die_onDie_field e _ (·.cams.length) (fun D => List.length_modify ..)]
  exact H.2

/-- A camera port that exists reads what was made of it. -/
theorem Hw.HasCam.cam_onCam (H : h.HasCam d c) (u : Cam → Cam) : (h.onCam d c u).cam d c = u (h.cam d c) := by
  obtain ⟨hd, hc⟩ := H
  rw [Hw.cam, Hw.onCam, h.die_onDie_self _ hd]
  simp [Hw.cam, List.getD_eq_getElem?_getD, hc]

/-- A field of camera ports that an update leaves is the same on every port. -/
theorem Hw.cam_onCam_field {β : Type} (h : Hw) (d c : Nat) (u : Cam → Cam) (g : Cam → β) (hg : ∀ C, g (u C) = g C) (e j : Nat) :
    g ((h.onCam d c u).cam e j) = g (h.cam e j) := by
  refine h.die_onDie_field d _ (fun D => g (D.cams.getD j {})) (fun D => ?_) e
  simp only [List.getD_eq_getElem?_getD, List.getElem?_modify]
  split
  next => cases D.cams[j]? with
    | none => rfl
    | some C => exact hg C
  next => simp

theorem State.run_cam (s : State) (w : List (List Host.Cell) → Hw → Hw) (d c : Nat) :
    (s.run w).hw.cam d c = (w s.mems s.begun).cam d c := rfl

/-- A step on a unit runs the record that its effect leaves. -/
theorem State.onUnit_run (s : State) {u n : Nat} (w : List (List Host.Cell) → Hw → Hw) (hd : d < s.hw.dies.length) (hu : u < n) :
    s.onUnit d u n w = .next (s.run fun _ _ => w s.mems s.begun) := s.onUnit_next w hd hu

/-! ### The closing of a frame (R312, R313) -/

theorem frames_width : ∀ c < 2, (attrRow? A.frames.cls c A.frames.id).map (·.width) = some 32 := by decide
theorem no_fe_width : ∀ c < 2, (attrRow? A.no_fe.cls c A.no_fe.id).map (·.width) = some 32 := by decide
theorem ecc_fatal_width : ∀ c < 2, (attrRow? A.ecc_fatal.cls c A.ecc_fatal.id).map (·.width) = some 32 := by decide

/-- What the closing of a frame of camera port `c` leaves: no open frame, the frame counted, and counted once more where it had no
frame end (assumption log 6 for the counts' wrap). -/
structure Hw.Closed (h h' : Hw) (d c : Nat) (noFe : Bool) : Prop where
  has : h'.HasCam d c
  none_open : (h'.cam d c).open_ = none
  counted : h'.rd d A.frames c = (h.rd d A.frames c + 1) % 2 ^ 32
  unended : noFe = true → h'.rd d A.no_fe c = (h.rd d A.no_fe c + 1) % 2 ^ 32

theorem Hw.closeFrame_closes (H : h.HasCam d c) (hc : c < 2) (ho : (h.cam d c).open_ = some f) (noFe : Bool) :
    h.Closed (h.closeFrame d c noFe) d c noFe := by
  unfold Hw.closeFrame
  simp -zeta only [ho]
  extract_lets marked ended last counted short long unended told closed
  -- the counts of a short and of a long frame leave those of frames and of frames without an end
  have KL : Hw.Only [A.short_frames.code, A.long_frames.code] [] [] counted long :=
    ((Hw.Only.refl ..).step_if (Hw.add_only ..) (by decide)).step_if (Hw.add_only ..) (by decide)
  have KU : Hw.Only [A.no_fe.code] [] [] long unended := (Hw.Only.refl ..).step_if (Hw.add_only ..) (by decide)
  have KT : Hw.Only [0x1F] [.front, .buckets, .folded] [] unended told :=
    (Hw.Only.refl ..).step_if (Hw.event_only ..) (by decide)
  have K : Hw.Only [0x1F, 0xd0020, 0xd0021, 0xd0022, 0xd0023] [.front, .buckets, .folded] [] h told :=
    ((((Hw.add_only ..).mono (by decide)).step KL (by decide)).step KU (by decide)).step KT (by decide)
  have hclosed : h.Closed closed d c noFe := by
    refine ⟨(K.hasCam (by decide) H).onCam .., ?_, ?_, fun hno => ?_⟩
    · rw [(K.hasCam (by decide) H).cam_onCam]
    · rw [Hw.rd_onCam, KT.read A.frames (by decide), KU.read A.frames (by decide), KL.read A.frames (by decide),
        Hw.rd_add_wrap32 _ _ (frames_width c hc)]
    · have hcount : unended = long.add d A.no_fe c := if_pos hno
      rw [Hw.rd_onCam, KT.read A.no_fe (by decide), hcount, Hw.rd_add_wrap32 _ _ (no_fe_width c hc), KL.read A.no_fe (by decide),
        Hw.rd_add_ne _ (by decide)]
  obtain ⟨hhas, hnone, hcount, hnoFe⟩ := hclosed
  split
  case isTrue =>
    have KR := closed.records_only last []
    exact ⟨KR.hasCam (by decide) hhas, by rw [KR.cam (by decide), hnone], by rw [KR.read A.frames (by decide), hcount],
      fun hno => by rw [KR.read A.no_fe (by decide), hnoFe hno]⟩
  case isFalse => exact ⟨hhas.onCam .., by rw [hhas.cam_onCam, hnone], hcount, hnoFe⟩

/-- A write list that starts leaves every open frame. -/
theorem Hw.open_listStart (h : Hw) (d c set e j : Nat) : ((h.listStart d c set).cam e j).open_ = (h.cam e j).open_ := by
  unfold Hw.listStart
  extract_lets sent told
  refine (told.cam_onCam_field d c _ (·.open_) (fun _ => by rfl) e j).trans ?_
  have KS : Hw.Only [] [] [.out] h sent := .foldl (.refl ..) (fun k _ => k.emit_only _) _
  have KT : Hw.Only [0x1F] [.front, .buckets, .folded] [] sent told := by
    simp only [told]
    split
    · exact (Hw.Only.refl ..).step_if (Hw.event_only ..) (by decide)
    · exact .refl ..
  rw [KT.cam (by decide), KS.cam (by decide)]

/-- The write window leaves every open frame (R326). -/
theorem Hw.open_window (h : Hw) (d c n e j : Nat) : ((h.window d c n).cam e j).open_ = (h.cam e j).open_ := by
  unfold Hw.window
  split
  · split
    · rfl
    · exact h.open_listStart ..
  · rfl

/-- The clocks that run on leave the camera ports and what they receive. -/
theorem Hw.receiving_until (h : Hw) (d t : Nat) : (h.until d t).receiving e c = h.receiving e c := by
  have K := h.until_only d t
  rw [Hw.receiving, Hw.receiving, K.read A.cam_state (by simp), K.cam (by decide)]

theorem Hw.receiving_of_run (hrun : h.rd d A.cam_state c = camRUN) (hfirst : (h.cam d c).first = false) :
    h.receiving d c = true := by simp [Hw.receiving, hrun, hfirst]

/-- CSI_FRAME_END of the open frame closes it and counts it. -/
theorem execCsiFrameEnd_closes (H : s.hw.HasCam die port) (hp : port < 2) (hrun : s.hw.rd die A.cam_state port = camRUN)
    (hfirst : (s.hw.cam die port).first = false) (ho : (s.hw.cam die port).open_ = some f) :
    ∃ t, execCsiFrameEnd die port tm s = .next t ∧ (t.hw.cam die port).open_ = none ∧
      t.hw.rd die A.frames port = (s.hw.rd die A.frames port + 1) % 2 ^ 32 := by
  have K := s.begun.until_only die tm
  have ho' : ((s.begun.until die tm).cam die port).open_ = some f := by rw [K.cam (by decide)]; exact ho
  obtain ⟨-, hnone, hcount, -⟩ := Hw.closeFrame_closes (K.hasCam (by decide) H) hp ho' false
  refine ⟨_, s.onUnit_next _ H.1 hp, ?_⟩
  rw [State.run_cam, State.run_rd]
  simp only [ho', Hw.receiving_until, s.begun.receiving_of_run hrun hfirst, if_true]
  rw [Hw.open_window, (Hw.window_only ..).read A.frames (by decide), hcount, K.read A.frames (by simp), State.rd_begun]
  exact ⟨hnone, rfl⟩

/-- FRAME_TIMEOUT closes the open frame, marks it so, and counts it as one without a frame end. -/
theorem execFrameTimeout_closes (H : s.hw.HasCam die port) (hp : port < 2) (ho : (s.hw.cam die port).open_ = some f) :
    ∃ t, execFrameTimeout die port s = .next t ∧ (t.hw.cam die port).open_ = none ∧ (t.hw.cam die port).timedOut = true ∧
      t.hw.rd die A.no_fe port = (s.hw.rd die A.no_fe port + 1) % 2 ^ 32 := by
  obtain ⟨hhas, hnone, -, hcount⟩ := Hw.closeFrame_closes (h := s.begun) H hp ho true
  have ho' : (s.begun.cam die port).open_ = some f := ho
  have hopen : ((s.begun.cam die port).open_).isSome = true := Option.isSome_of_mem ho'
  refine ⟨_, s.onUnit_next _ H.1 hp, ?_⟩
  rw [State.run_cam, State.run_rd, if_pos hopen, hhas.cam_onCam, Hw.rd_onCam]
  exact ⟨hnone, rfl, hcount rfl⟩

/-! ### The opening of a frame (R310) -/

theorem Hw.HasCam.applyLate (H : h.HasCam d c) (e j : Nat) (a : Apply) (shift : Bool) : (h.applyLate e j a shift).HasCam d c :=
  (Hw.event_only ..).hasCam (by decide) ((Hw.movePoint_only ..).hasCam (by decide) (H.onCam ..))

theorem Hw.HasCam.lateLists (H : h.HasCam d c) (e j n : Nat) : (h.lateLists e j n).HasCam d c := by
  unfold Hw.lateLists
  refine List.foldlRecOn (motive := fun k : Hw => k.HasCam d c) _ _ H fun k hk a _ => ?_
  split
  · exact hk
  split
  · exact (hk.onCam ..).applyLate ..
  · exact hk.applyLate ..

theorem Hw.HasCam.takeSet (H : h.HasCam d c) (e j n : Nat) : (h.takeSet e j n).HasCam d c := by
  unfold Hw.takeSet
  split
  · exact H
  · exact (Hw.event_only ..).hasCam (by decide) ((Hw.settle_only ..).hasCam (by decide) (H.onCam ..))

/-- Whichever way a slot is taken or not, the camera port stays. -/
theorem Hw.HasCam.ite {α β : Type} {p : Prop} [Decidable p] {x y : α × β × Hw} (hx : x.2.2.HasCam d c)
    (hy : y.2.2.HasCam d c) : (if p then x else y).2.2.HasCam d c := by
  split
  · exact hx
  · exact hy

theorem Hw.HasCam.of_triple {α β : Type} {x : α × β × Hw} {a : α} {b : β} (he : x = (a, b, h)) (H : x.2.2.HasCam d c) :
    h.HasCam d c := by
  subst he
  exact H

theorem Hw.HasCam.takeSlot (H : h.HasCam d c) (e j : Nat) (f : Frame) : (h.takeSlot e j f).2.2.HasCam d c :=
  (Hw.takeSlot_only ..).hasCam (by decide) H

/-- A port that opens a frame has an open frame then. -/
theorem Hw.openFrame_opens (H : h.HasCam d c) (sensor : Nat) : ((h.openFrame d c sensor).cam d c).open_.isSome := by
  unfold Hw.openFrame
  extract_lets C n gapped taken C' set isp stream black gain pack shown mixed f g
  have hshown : shown.HasCam d c := by
    have hgapped : gapped.HasCam d c := by
      simp only [gapped]
      split
      · exact H.onCam ..
      · exact H
    have htaken : taken.HasCam d c := (hgapped.lateLists d c n).takeSet d c n
    exact (Hw.wr_only ..).hasCam (F := []) (by decide) ((Hw.wr_only ..).hasCam (F := []) (by decide) htaken)
  split
  next slot g kept hslot =>
  have hkept : kept.HasCam d c := .of_triple hslot (.ite hshown (hshown.takeSlot ..))
  extract_lets full tap kind own
  have hfull : full.HasCam d c := by
    have K : Hw.Only [A.no_slot.code] [] [] kept full := (Hw.Only.refl ..).step_if (Hw.add_only ..) (by decide)
    exact K.hasCam (by decide) hkept
  clear_value full
  split
  next tslot tapped last htap =>
  have hlast : last.HasCam d c := .of_triple htap (.ite (hfull.takeSlot ..) hfull)
  extract_lets opened counted
  have hcounted : counted.HasCam d c := (Hw.wr_only ..).hasCam (F := []) (by decide) hlast
  rw [hcounted.cam_onCam]
  rfl

/-- CSI_FRAME_START of a port that receives opens a frame. -/
theorem execCsiFrameStart_opens {num : Nat} (H : s.hw.HasCam die port) (hp : port < 2)
    (hrun : s.hw.rd die A.cam_state port = camRUN) (hfirst : (s.hw.cam die port).first = false)
    (ho : (s.hw.cam die port).open_ = none) :
    ∃ t, execCsiFrameStart die port num tm s = .next t ∧ (t.hw.cam die port).open_.isSome := by
  have K := s.begun.until_only die tm
  have ho' : ((s.begun.until die tm).cam die port).open_ = none := by rw [K.cam (by decide)]; exact ho
  have hstays : (s.begun.until die tm).closeFrame die port true = s.begun.until die tm := by rw [Hw.closeFrame, ho']
  refine ⟨_, s.onUnit_next _ H.1 hp, ?_⟩
  rw [State.run_cam]
  simp only [Hw.receiving_until, s.begun.receiving_of_run hrun hfirst, if_true, hstays]
  exact Hw.openFrame_opens (K.hasCam (by decide) H) num

/-! ### The lines of a frame (R302, R306, R312 to R314) -/

/-- What a line of the open frame `f` of camera port `c` leaves, from the record at the start of the step on: the line counted in the
same frame; and, where the frame has a slot and the line was not lost, the line at its place in the slot as the step's one store. -/
structure Hw.LineTaken (h h' : Hw) (d c dt : Nat) (lost : Bool) (px : List Nat) (f : Frame) : Prop where
  counted : ∃ g, (h'.cam d c).open_ = some g ∧ g.lines = f.lines + 1 ∧ g.num = f.num
  wipes : h'.wipes = h.wipes
  stores : lost = false → ∀ i, f.slot = some i → h'.stores = h.stores ++
    [(f.isp, h.slotAddr d c i + 2 * f.w * f.lines, (f.line dt px).flatMap (leBytes 2))]

theorem execCsiLine_takes {vc dt : Nat} {crcOk lost : Bool} {px : List Nat} (H : s.hw.HasCam die port) (hp : port < 2)
    (hrun : s.hw.rd die A.cam_state port = camRUN) (hfirst : (s.hw.cam die port).first = false)
    (hvc : vc = s.hw.rd die A.vc port) (hdt : dt = s.hw.rd die A.data_type port) (ho : (s.hw.cam die port).open_ = some f)
    (hroom : f.lines < f.h) :
    ∃ k, execCsiLine die port vc dt 0 crcOk lost px s = .next (s.run fun _ _ => k) ∧
      s.begun.LineTaken k die port dt lost px f := by
  have hrecv : ¬(!s.begun.receiving die port) = true := by simp [s.begun.receiving_of_run hrun hfirst]
  have ho' : (s.begun.cam die port).open_ = some f := ho
  refine ⟨_, s.onUnit_run _ H.1 hp, ?_⟩
  rw [if_neg hrecv, if_neg (by decide)]
  extract_lets fixed
  have hfixed : fixed = s.begun := if_neg (by decide)
  rw [hfixed, State.rd_begun, State.rd_begun, if_neg (Decidable.not_not.2 hvc), if_neg (Decidable.not_not.2 hdt)]
  simp -zeta only [ho']
  rw [if_neg (Nat.not_le.2 hroom)]
  extract_lets short full lens crcs overrun marked sent row stored grown
  -- the counts leave the camera port, the slot's place and the stores
  have K : Hw.Only [A.len_errs.code, A.cam_crc_errs.code, A.isp_overruns.code] [] [] s.begun overrun := by
    have hlens : Hw.Only [A.len_errs.code] [] [] s.begun lens := (Hw.Only.refl ..).step_if (Hw.add_only ..) (by decide)
    have hcrcs : Hw.Only [A.cam_crc_errs.code] [] [] lens crcs := .ite (fun _ => .refl ..) fun _ => Hw.add_only ..
    have hover : Hw.Only [A.isp_overruns.code] [] [] crcs overrun := (Hw.Only.refl ..).step_if (Hw.add_only ..) (by decide)
    exact ((hlens.mono (by decide)).step hcrcs (by decide)).step hover (by decide)
  have hmarked : ∃ n, marked = { f with flags := n } := by
    simp only [marked]
    split
    · exact ⟨_, rfl⟩
    · exact ⟨_, rfl⟩
  obtain ⟨n, hm⟩ := hmarked
  have KS : Hw.Only [] [] [.stores] overrun stored := by
    simp only [stored]
    split
    · exact Hw.store_only ..
    · exact .refl ..
  refine ⟨⟨grown, ?_, ?_, ?_⟩, ?_, fun hkept i hslot => ?_⟩
  · rw [(KS.hasCam (by decide) (K.hasCam (by decide) H)).cam_onCam]
  · simp only [grown, hm]
  · simp only [grown, hm]
  · exact (KS.hw .wipes (by decide)).trans (K.hw .wipes (by decide))
  · have hplace : overrun.slotAddr die port i = s.begun.slotAddr die port i := by
      rw [Hw.slotAddr, Hw.slotAddr, K.read A.fs_base (by decide), K.read A.fs_slot_bytes (by decide)]
    have hfull : ¬full := by simp [full, hkept]
    have hstores : overrun.stores = s.begun.stores := K.hw .stores (by decide)
    have hrow : row = f.line dt px := by
      simp only [row, if_neg hfull, sent, hm]
      rfl
    have hst : stored = overrun.store f.isp (s.begun.slotAddr die port i + 2 * f.w * f.lines)
        ((f.line dt px).flatMap (leBytes 2)) := by
      simp only [stored, hm, hslot, hplace, hrow]
    exact (congrArg Hw.stores hst).trans (by rw [Hw.store, hstores])

/-- CSI_LINE of a frame with room counts the line in it. -/
theorem execCsiLine_counts {vc dt : Nat} {crcOk lost : Bool} {px : List Nat} (H : s.hw.HasCam die port) (hp : port < 2)
    (hrun : s.hw.rd die A.cam_state port = camRUN) (hfirst : (s.hw.cam die port).first = false)
    (hvc : vc = s.hw.rd die A.vc port) (hdt : dt = s.hw.rd die A.data_type port) (ho : (s.hw.cam die port).open_ = some f)
    (hroom : f.lines < f.h) :
    ∃ t, execCsiLine die port vc dt 0 crcOk lost px s = .next t ∧
      ∃ g, (t.hw.cam die port).open_ = some g ∧ g.lines = f.lines + 1 ∧ g.num = f.num := by
  obtain ⟨k, hn, hk⟩ := execCsiLine_takes (crcOk := crcOk) (lost := lost) (px := px) H hp hrun hfirst hvc hdt ho hroom
  exact ⟨_, hn, hk.counted⟩

/-- CSI_LINE of a frame with room and a slot stores the line at its place in the slot, and nothing else. -/
theorem execCsiLine_stores {vc dt i : Nat} {crcOk : Bool} {px : List Nat} (H : s.hw.HasCam die port) (hp : port < 2)
    (hrun : s.hw.rd die A.cam_state port = camRUN) (hfirst : (s.hw.cam die port).first = false)
    (hvc : vc = s.hw.rd die A.vc port) (hdt : dt = s.hw.rd die A.data_type port) (ho : (s.hw.cam die port).open_ = some f)
    (hroom : f.lines < f.h) (hslot : f.slot = some i) :
    ∃ t, execCsiLine die port vc dt 0 crcOk false px s = .next t ∧ t.mems = applyStores s.mems
      [(f.isp, s.hw.slotAddr die port i + 2 * f.w * f.lines, (f.line dt px).flatMap (leBytes 2))] := by
  obtain ⟨k, hn, hk⟩ := execCsiLine_takes (crcOk := crcOk) (lost := false) (px := px) H hp hrun hfirst hvc hdt ho hroom
  refine ⟨_, hn, ?_⟩
  rw [State.run_mems, hk.wipes, hk.stores rfl i hslot]
  rfl

/-- CSI_LINE with a header that cannot be corrected is counted (assumption log 6 for the count's wrap). -/
theorem execCsiLine_fatal {vc dt ecc : Nat} {crcOk lost : Bool} {px : List Nat} (hd : die < s.hw.dies.length) (hp : port < 2)
    (hrun : s.hw.rd die A.cam_state port = camRUN) (hfirst : (s.hw.cam die port).first = false) (hecc : 2 ≤ ecc) :
    ∃ t, execCsiLine die port vc dt ecc crcOk lost px s = .next t ∧
      t.hw.rd die A.ecc_fatal port = (s.hw.rd die A.ecc_fatal port + 1) % 2 ^ 32 := by
  have hrecv : ¬(!s.begun.receiving die port) = true := by simp [s.begun.receiving_of_run hrun hfirst]
  refine ⟨_, s.onUnit_next _ hd hp, ?_⟩
  rw [State.run_rd, if_neg hrecv, if_pos hecc, Hw.rd_add_wrap32 _ _ (ecc_fatal_width port hp), State.rd_begun]

/-! ### The end of a write list (R326, R328, R329) -/

/-- No write list of camera port `c` is under way, that of set 0 neither. -/
def Hw.ListDone (h : Hw) (d c : Nat) : Prop := (h.cam d c).writing = none ∧ (h.cam d c).first = false

theorem Hw.ListDone.of_only (H : h.ListDone d c) (K : Hw.Only C F G h h') (hF : .cams ∉ F) : h'.ListDone d c := by
  rwa [Hw.ListDone, K.cam hF]

theorem Hw.ListDone.onCam (H : h.ListDone d c) (e j : Nat) (u : Cam → Cam)
    (hu : ∀ C, ((u C).writing, (u C).first) = (C.writing, C.first)) : (h.onCam e j u).ListDone d c := by
  obtain ⟨hw, hf⟩ := Prod.mk.inj (h.cam_onCam_field e j u (fun C => (C.writing, C.first)) hu d c)
  exact ⟨hw.trans H.1, hf.trans H.2⟩

/-- PSET_LIST_COMPLETE ends the list under way, whatever its result. -/
theorem execPsetListComplete_ends {result index set : Nat} (H : s.hw.HasCam die port) (hp : port < 2)
    (hw : (s.hw.cam die port).writing = some set) :
    ∃ t, execPsetListComplete die port result index s = .next t ∧ s.SameMem t ∧ (t.hw.cam die port).writing = none ∧
      (t.hw.cam die port).first = false := by
  obtain ⟨k, hn, hk⟩ : ∃ k : Hw, execPsetListComplete die port result index s = .next (s.run fun _ _ => k) ∧
      k.ListDone die port := by
    refine ⟨_, s.onUnit_run _ H.1 hp, ?_⟩
    extract_lets before ended told
    have hw' : before.writing = some set := hw
    simp -zeta only [hw']
    have hended : ended.ListDone die port := by
      simp only [ended, Hw.ListDone, Hw.HasCam.cam_onCam (h := s.begun) H, and_self]
    have htold : told.ListDone die port := by
      have K : Hw.Only [0x1F] [.front, .buckets, .folded] [] ended told :=
        .ite (fun _ => .refl ..) fun _ => Hw.event_only ..
      exact hended.of_only K (by decide)
    split
    · split
      · exact htold
      · exact htold.onCam _ _ _ fun _ => rfl
    split
    · exact htold
    split
    · exact htold.onCam _ _ _ fun _ => rfl
    · exact (htold.of_only (Hw.settle_only ..) (by decide)).onCam _ _ _ fun _ => rfl
  exact ⟨_, hn, (execPsetListComplete_within _ _ _ _ _ hn).sameMem, hk⟩

/-! ### The ISP's frames (R305, R322) -/

/-- MP_FRAME_PROCESS takes the one frame that waits, unless one of the same or a lower value is under way. -/
theorem execMpFrameProcess_takes {p end_ : Nat} (hd : die < s.hw.dies.length) (hone : s.begun.mpWaiting die = [(p, end_, f)])
    (hidle : ((s.hw.die die).ispRun.any fun g => decide (s.hw.rd die A.mp_priority g.stream ≤ p)) = false) :
    ∃ t, execMpFrameProcess die s = .next t ∧ s.SameMem t ∧ (t.hw.die die).ispRun = (s.hw.die die).ispRun ++ [f] := by
  have hgo : ¬((s.begun.die die).ispRun.any fun g => decide (s.begun.rd die A.mp_priority g.stream ≤ p)) = true :=
    Bool.eq_false_iff.1 hidle
  have hn : execMpFrameProcess die s = .next (s.run _) := s.onDie_next _ hd
  refine ⟨_, hn, (execMpFrameProcess_within _ _ hn).sameMem, ?_⟩
  rw [State.run_die]
  simp -zeta only [hone, List.foldl_nil]
  extract_lets d c freed held
  have K : Hw.Only [A.slot_state.code] [.cams] [] s.begun held := by
    have KF : Hw.Only [A.slot_state.code] [.cams] [] s.begun freed := (Hw.onCam_only ..).mono (by decide)
    simp only [held]
    split
    · exact KF.step (Hw.setSlot_only ..) (by decide)
    · exact KF
  have hrun : (held.die die).ispRun = (s.begun.die die).ispRun := K.die die .ispRun (by decide)
  refine (congrArg (fun k : Hw => (k.die die).ispRun) (if_neg hgo)).trans ?_
  rw [held.die_onDie_self _ (by rw [K.len]; exact hd), hrun, State.die_begun]

/-- ISP_FRAME_DONE of the frame of a memory-path stream leaves no frame of the stream under way. -/
theorem execIspFrameDone_ends {stream : Nat} (hd : die < s.hw.dies.length) (h9 : stream < 9) (h0 : stream ≠ 0)
    (hf : ((s.hw.die die).ispRun.find? fun f => f.stream = stream) = some f) :
    ∃ t, execIspFrameDone die stream s = .next t ∧ ∀ g ∈ (t.hw.die die).ispRun, g.stream ≠ stream := by
  have hf' : ((s.begun.die die).ispRun.find? fun f => f.stream = stream) = some f := hf
  refine ⟨_, s.onUnit_next _ hd h9, ?_⟩
  rw [State.run_die, if_neg h0]
  simp -zeta only [hf']
  extract_lets taken us late
  have hlate : (late.die die).ispRun = (taken.die die).ispRun := by
    have K : Hw.Only [A.mp_latency_max_us.code] [] [] taken late := (Hw.Only.refl ..).step_if (Hw.wr_only ..) (by decide)
    exact K.die die .ispRun (by decide)
  have hdone : ((late.frameDone s.mems f).die die).ispRun = (late.die die).ispRun :=
    (late.frameDone_only s.mems f).die die .ispRun (by decide)
  have htaken : (taken.die die).ispRun = (s.begun.die die).ispRun.filter fun g => g.stream ≠ stream :=
    congrArg Die.ispRun (s.begun.die_onDie_self _ hd)
  intro g hg
  rw [hdone, hlate, htaken] at hg
  simpa using (List.mem_filter.1 hg).2

/-- Settles O27, by what the opening, a line and the closing of a frame leave in its camera port, and by the ISP's list of frames. -/
theorem cameraRowsComplete : Obligations.CameraRowsComplete := by
  unfold Obligations.CameraRowsComplete
  refine ⟨fun s die cam num tm hd hp hc hrun hfirst ho => execCsiFrameStart_opens ⟨hd, hc⟩ hp hrun hfirst ho,
    fun s die cam tm f hd hp hc hrun hfirst ho => execCsiFrameEnd_closes ⟨hd, hc⟩ hp hrun hfirst ho,
    fun s die cam f hd hp hc ho => execFrameTimeout_closes ⟨hd, hc⟩ hp ho,
    fun s die cam vc dt crcOk lost px f hd hp hc hrun hfirst hvc hdt ho hroom =>
      execCsiLine_counts ⟨hd, hc⟩ hp hrun hfirst hvc hdt ho hroom, ?stored,
    fun s die cam vc dt ecc crcOk lost px hd hp hrun hfirst hecc => execCsiLine_fatal hd hp hrun hfirst hecc,
    fun s die cam result index set hd hp hc hw => execPsetListComplete_ends ⟨hd, hc⟩ hp hw,
    fun s die p e f hd hone hidle => execMpFrameProcess_takes hd hone hidle,
    fun s die stream f hd h9 h0 hf => execIspFrameDone_ends hd h9 h0 hf⟩
  case stored =>
    intro s die cam vc dt i crcOk px f hd hp hc hrun hfirst hvc hdt ho hroom hslot
    obtain ⟨t, hn, hmems⟩ := execCsiLine_stores (crcOk := crcOk) (px := px) ⟨hd, hc⟩ hp hrun hfirst hvc hdt ho hroom hslot
    exact ⟨t, hn, fun e x => by rw [hmems]⟩

end Sys2Proof.Machine
end

section
/-!
PROOFS. The camera commands (R303, R304, R308, R318, R325 to R328, R333, R572): what each command's work leaves in the attributes and
in the record of its camera port.
-/
namespace Sys2Proof.Machine

variable {h : Hw} {s : State} {q : Hdr} {d c i port : Nat}

/-! ### Commands on camera ports -/

/-- The camera commands are carried out by the die that their header names (R18). -/
theorem execDie_camCtrl (h : Hw) (q : Hdr) (i : Nat) : h.execDie q 0x0801 (opObj 0x0801 i) = q.die := rfl
theorem execDie_camApply (h : Hw) (q : Hdr) (i : Nat) : h.execDie q 0x0802 (opObj 0x0802 i) = q.die := rfl
theorem execDie_camI2c (h : Hw) (q : Hdr) (i : Nat) : h.execDie q 0x0803 (opObj 0x0803 i) = q.die := rfl

@[simp] theorem State.atWork_cam (s : State) (q : Hdr) (d c : Nat) : (s.atWork q).cam d c = s.hw.cam d c :=
  congrArg (fun l : List Cam => l.getD c {}) (s.begun.started_die_cams q d)

theorem State.atWork_hasCam (H : s.hw.HasCam d c) (q : Hdr) : (s.atWork q).HasCam d c :=
  (s.begun.started_only q).hasCam (F := [.mbx]) (by decide) H

/-- The camera ports after a mailbox command are those that its work leaves. -/
theorem State.command_cams {op : Nat} {o : ObjRef} (hA : s.Admits q op o)
    {body : List (List Host.Cell) → Nat → Hw → Reply × Hw} {w : Reply × Hw}
    (hb : body s.mems (s.hw.execDie q op o) (s.atWork q) = w) :
    ∃ t, s.command q op o body = .next t ∧ s.Leaves q w t ∧ ∀ d c, t.hw.cam d c = w.2.cam d c := by
  obtain ⟨t, hn, hl⟩ := State.command_leaves hA hb
  refine ⟨t, hn, hl, fun d c => ?_⟩
  obtain rfl : _ = t := Host.Outcome.next.inj ((State.command_next hA body).symm.trans hn)
  rw [State.run_cam, (Hw.finish_only ..).cam (by decide), ← hb]
  rfl

/-- A form of CAM_CTRL does its work on a port that is in the state that it asks for. -/
theorem State.camCtrl_leaves {want : Nat} {act : Nat → Hw → Reply × Hw} (hA : s.Admits q 0x0801 (opObj 0x0801 port)) (hp : port < 2)
    (hst : s.hw.rd q.die A.cam_state port = want) :
    ∃ t, s.command q 0x0801 (opObj 0x0801 port) (fun _ d hw => if 2 ≤ port then refuse .range hw
        else if hw.rd d A.cam_state port ≠ want then refuse .state hw else act d hw) = .next t ∧
      s.Leaves q (act q.die (s.atWork q)) t ∧ ∀ d c, t.hw.cam d c = (act q.die (s.atWork q)).2.cam d c :=
  State.command_cams hA (by
    rw [execDie_camCtrl]
    exact (if_neg (Nat.not_le.2 hp)).trans (if_neg (Decidable.not_not.2 hst)))

/-- A camera port that enters a state reads it. -/
theorem Hw.rd_camTo (h : Hw) (d c new : Nat) : (h.camTo d c new).rd d A.cam_state c = new := by
  rw [Hw.camTo, Hw.rd_event _ _ _ _ _ _ (by decide), Hw.rd_wr_self]

/-! ### CAM_CTRL: the states of a port (R303, R304, R308) -/

/-- CAM_WAKE of a port that is OFF makes it READY, without a stream. -/
theorem execCamWake_wakes (hA : s.Admits q 0x0801 (opObj 0x0801 port)) (hp : port < 2)
    (hst : s.hw.rd q.die A.cam_state port = camOFF) :
    ∃ t, execCamWake q port s = .next t ∧ s.SameMem t ∧ t.replyOf q = some .ok ∧
      t.hw.rd q.die A.cam_state port = camREADY ∧ t.hw.rd q.die A.stream port = 15 := by
  obtain ⟨t, hn, hl, -⟩ : ∃ t, execCamWake q port s = .next t ∧
      s.Leaves q (okWith (((s.atWork q).wr q.die A.stream port 15).camTo q.die port camREADY)) t ∧ _ :=
    State.camCtrl_leaves hA hp hst
  refine ⟨t, hn, (execCamWake_within _ _ _ hn).sameMem, hl.reply, ?_, ?_⟩
  · rw [hl.rd _ _ _ (by decide) (by decide), okWith, Hw.rd_camTo]
  · rw [hl.rd _ _ _ (by decide) (by decide), okWith, (Hw.camTo_only ..).read A.stream (by decide), Hw.rd_wr_self]

/-- CAM_SLEEP of a port that is READY turns it OFF. -/
theorem execCamSleep_sleeps (hA : s.Admits q 0x0801 (opObj 0x0801 port)) (hp : port < 2)
    (hst : s.hw.rd q.die A.cam_state port = camREADY) :
    ∃ t, execCamSleep q port s = .next t ∧ s.SameMem t ∧ t.replyOf q = some .ok ∧
      t.hw.rd q.die A.cam_state port = camOFF := by
  obtain ⟨t, hn, hl, -⟩ : ∃ t, execCamSleep q port s = .next t ∧
      s.Leaves q (okWith ((s.atWork q).camTo q.die port camOFF)) t ∧ _ := State.camCtrl_leaves hA hp hst
  refine ⟨t, hn, (execCamSleep_within _ _ _ hn).sameMem, hl.reply, ?_⟩
  rw [hl.rd _ _ _ (by decide) (by decide), okWith, Hw.rd_camTo]

/-- A camera port put in RUN on stream `st` of die `isp`, its first write list started (R304, R333). -/
def Hw.camStarted (h : Hw) (d port isp st : Nat) : Hw :=
  ((((((h.wr isp A.stream_cam st (2 * d + port)).wr d A.stream port st).wr d A.frame_count port 0).wr d A.pset_active port 0).onCam
    d port fun C => { closed := C.closed, first := true }).camTo d port camRUN).listStart d port 0

/-- CAM_ENABLE that nothing refuses puts a port that is READY in RUN, on the stream that it is given and on set 0. -/
theorem execCamEnable_runs {stm isp : Nat} (hA : s.Admits q 0x0801 (opObj 0x0801 port)) (hp : port < 2)
    (hst : s.hw.rd q.die A.cam_state port = camREADY) (hisp : isp = s.hw.rd q.die A.isp_die port) (hd : isp < s.hw.dies.length)
    (hroom : (if s.hw.rd q.die A.tap port = 3 then 8 else 2) * (s.hw.rd q.die A.width port * s.hw.rd q.die A.height port) ≤
      s.hw.rd q.die A.fs_slot_bytes port)
    (hstm : (s.atWork q).streamFor q.die port isp = some stm) (hslots : stm = 0 ∨ s.hw.rd q.die A.fs_slots port ≠ 0)
    (hstats : (s.atWork q).camQueueOk isp (s.hw.rd isp A.stats_queue stm) = true)
    (hdesc : (s.atWork q).camQueueOk isp (s.hw.rd q.die A.desc_queue port) = true) :
    ∃ t, execCamEnable q port s = .next t ∧ s.SameMem t ∧ t.replyOf q = some .ok ∧ t.hw.rd q.die A.cam_state port = camRUN ∧
      t.hw.rd q.die A.stream port = stm ∧ t.hw.rd q.die A.pset_active port = 0 := by
  subst hisp
  have hfits : ¬((s.atWork q).n ≤ (s.atWork q).rd q.die A.isp_die port ∨ (s.atWork q).rd q.die A.fs_slot_bytes port <
      (if (s.atWork q).rd q.die A.tap port = 3 then 8 else 2) *
        ((s.atWork q).rd q.die A.width port * (s.atWork q).rd q.die A.height port)) := by
    rw [Hw.n, State.atWork_length]
    exact not_or.2 ⟨Nat.not_le.2 hd, Nat.not_lt.2 hroom⟩
  have hqueues : ¬((stm ≠ 0 ∧ (s.atWork q).rd q.die A.fs_slots port = 0) ∨
      (!(s.atWork q).camQueueOk (s.hw.rd q.die A.isp_die port) (s.hw.rd (s.hw.rd q.die A.isp_die port) A.stats_queue stm)) = true ∨
      (!(s.atWork q).camQueueOk (s.hw.rd q.die A.isp_die port) (s.hw.rd q.die A.desc_queue port)) = true) := by
    rw [hstats, hdesc]
    simp only [Bool.not_true, Bool.false_eq_true, or_false]
    exact fun ⟨hmem, hnone⟩ => hslots.elim hmem fun hsome => hsome hnone
  obtain ⟨t, hn, hl⟩ : ∃ t, execCamEnable q port s = .next t ∧
      s.Leaves q (okWith ((s.atWork q).camStarted q.die port (s.hw.rd q.die A.isp_die port) stm)) t := by
    obtain ⟨t, hn, hl, -⟩ : ∃ t, execCamEnable q port s = .next t ∧ s.Leaves q _ t ∧ _ := State.camCtrl_leaves hA hp hst
    have hstream : (s.atWork q).streamFor q.die port ((s.atWork q).rd q.die A.isp_die port) = some stm := hstm
    rw [if_neg hfits] at hl
    simp -zeta only [hstream] at hl
    exact ⟨t, hn, (if_neg hqueues : _ = okWith _) ▸ hl⟩
  refine ⟨t, hn, (execCamEnable_within _ _ _ hn).sameMem, hl.reply, ?state, ?stream, ?set⟩ <;>
    rw [hl.rd _ _ _ (by decide) (by decide), okWith, Hw.camStarted]
  case state => rw [(Hw.listStart_only ..).read A.cam_state (by decide), Hw.rd_camTo]
  case stream =>
    rw [(Hw.listStart_only ..).read A.stream (by decide), (Hw.camTo_only ..).read A.stream (by decide), Hw.rd_onCam,
      Hw.rd_wr_ne _ (by decide), Hw.rd_wr_ne _ (by decide), Hw.rd_wr_self]
  case set =>
    rw [(Hw.listStart_only ..).read A.pset_active (by decide), (Hw.camTo_only ..).read A.pset_active (by decide), Hw.rd_onCam,
      Hw.rd_wr_self]

/-- CAM_DISABLE of a port in RUN makes it READY. -/
theorem execCamDisable_stops (hA : s.Admits q 0x0801 (opObj 0x0801 port)) (hp : port < 2)
    (hst : s.hw.rd q.die A.cam_state port = camRUN) :
    ∃ t, execCamDisable q port s = .next t ∧ t.replyOf q = some .ok ∧ t.hw.rd q.die A.cam_state port = camREADY := by
  obtain ⟨t, hn, hl, -⟩ : ∃ t, execCamDisable q port s = .next t ∧ s.Leaves q _ t ∧ _ := State.camCtrl_leaves hA hp hst
  refine ⟨t, hn, hl.reply, ?_⟩
  rw [hl.rd _ _ _ (by decide) (by decide)]
  exact Hw.rd_camTo ..

/-! ### CAM_CTRL: frames and slots (R318, R333) -/

/-- CAM_SNAP of a port in RUN asks for one frame. -/
theorem execCamSnap_asks (hA : s.Admits q 0x0801 (opObj 0x0801 port)) (hp : port < 2)
    (hst : s.hw.rd q.die A.cam_state port = camRUN) (hc : port < (s.hw.die q.die).cams.length) :
    ∃ t, execCamSnap q port s = .next t ∧ s.SameMem t ∧ t.replyOf q = some .ok ∧ (t.hw.cam q.die port).snap = true := by
  obtain ⟨t, hn, hl, hcam⟩ : ∃ t, execCamSnap q port s = .next t ∧
      s.Leaves q (okWith ((s.atWork q).onCam q.die port fun C => { C with snap := true })) t ∧ _ :=
    State.camCtrl_leaves hA hp hst
  refine ⟨t, hn, (execCamSnap_within _ _ _ hn).sameMem, hl.reply, ?_⟩
  rw [hcam, okWith, (State.atWork_hasCam ⟨hA.1, hc⟩ q).cam_onCam]

/-- The slots that a mask names. -/
def slotsOf (slots : Nat) : List Nat := (List.range 64).filter fun i => slots.testBit i

theorem slotsOf_two_pow (hi : i < 64) : slotsOf (2 ^ i) = [i] := by
  simp only [slotsOf, Nat.testBit_two_pow, eq_comm (a := i)]
  rw [List.filter_eq, List.count_range, if_pos hi]
  rfl

/-- CAM_RELEASE of slots that are all HELD frees them. -/
theorem execCamRelease_leaves {slots : Nat} (hA : s.Admits q 0x0801 (opObj 0x0801 port)) (hp : port < 2)
    (hheld : ∀ i < 64, slots.testBit i = true → s.hw.slotOf q.die port i = slHELD) :
    ∃ t, execCamRelease q port slots s = .next t ∧ s.SameMem t ∧
      s.Leaves q (okWith ((slotsOf slots).foldl (fun (k : Hw) i => k.setSlot q.die port i slFREE) (s.atWork q))) t := by
  have hall : ¬((slotsOf slots).any fun i => (s.atWork q).slotOf q.die port i != slHELD) = true := by
    rw [List.any_eq_true]
    rintro ⟨i, hi, hne⟩
    obtain ⟨hlt, hbit⟩ := List.mem_filter.1 hi
    have hslot : (s.atWork q).slotOf q.die port i = slHELD := hheld i (List.mem_range.1 hlt) hbit
    simp [hslot] at hne
  obtain ⟨t, hn, hl⟩ : ∃ t, execCamRelease q port slots s = .next t ∧
      s.Leaves q (okWith ((slotsOf slots).foldl (fun (k : Hw) i => k.setSlot q.die port i slFREE) (s.atWork q))) t :=
    State.command_leaves hA (by
      rw [execDie_camCtrl]
      exact (if_neg (Nat.not_le.2 hp)).trans (if_neg hall))
  exact ⟨t, hn, (execCamRelease_within _ _ _ _ hn).sameMem, hl⟩

/-- CAM_RELEASE of one HELD slot frees it. -/
theorem execCamRelease_frees (hA : s.Admits q 0x0801 (opObj 0x0801 port)) (hp : port < 2) (hi : i < 64)
    (hheld : s.hw.slotOf q.die port i = slHELD) :
    ∃ t, execCamRelease q port (2 ^ i) s = .next t ∧ s.SameMem t ∧ t.replyOf q = some .ok ∧
      t.hw.rd q.die A.slot_state port = s.hw.rd q.die A.slot_state port - slHELD * 4 ^ i + slFREE * 4 ^ i := by
  obtain ⟨t, hn, hmem, hl⟩ := execCamRelease_leaves hA hp (slots := 2 ^ i) fun j _ hbit => by
    rw [Nat.testBit_two_pow, decide_eq_true_eq] at hbit
    rwa [← hbit]
  have hslot : (s.atWork q).slotOf q.die port i = slHELD := hheld
  refine ⟨t, hn, hmem, hl.reply, ?_⟩
  rw [hl.rd _ _ _ (by decide) (by decide), okWith, slotsOf_two_pow hi, List.foldl_cons, List.foldl_nil, Hw.setSlot, Hw.rd_wr_self,
    hslot, State.atWork_rd]

/-! ### CAM_APPLY (R327) -/

/-- The write window that a set asked for on frame `frame` gets: the one that ends in time for it, but none before the earliest (R327). -/
def Cam.windowFor (C : Cam) (lam frame : Nat) : Nat :=
  let want := (frame + 2 ^ 32 - 1 - lam) % 2 ^ 32
  if 0 ≤ frameDiff C.firstWindow want then C.firstWindow else want

/-- The set `set` with its deferral record, the one apply pending on a camera port: its list is written in the window of frame `w`, and
it takes effect on frame `e`. -/
def Hw.applyPended (h : Hw) (d : Nat) (q : Hdr) (port set w e : Nat) : Hw :=
  (h.defer d q false { kind := 3, point := e }).2.onCam d port fun C =>
    { C with applies := [{ id := h.nextId, set := set, window := w, effect := e }] }

/-- CAM_APPLY to a port in RUN without a pending set is DEFERRED and its set is the one pending. -/
theorem execCamApply_defers {set frame : Nat} (hA : s.Admits q 0x0802 (opObj 0x0802 port)) (hp : port < 2) (hset : set < 16)
    (hst : s.hw.rd q.die A.cam_state port = camRUN) (hnone : (s.hw.cam q.die port).applies = []) :
    ∃ t, execCamApply q port set frame s = .next t ∧ s.SameMem t ∧ t.statusOf q = some .deferred ∧
      (port < (s.hw.die q.die).cams.length → ∃ a, (t.hw.cam q.die port).applies = [a] ∧ a.set = set) := by
  have hidle : ((s.atWork q).cam q.die port).applies = [] := by rw [State.atWork_cam, hnone]
  obtain ⟨w, e, t, hn, hl, hcam⟩ : ∃ w e t, execCamApply q port set frame s = .next t ∧
      s.Leaves q (.deferred { kind := 3, point := e }, (s.atWork q).applyPended q.die q port set w e) t ∧
      ∀ d c, t.hw.cam d c = ((s.atWork q).applyPended q.die q port set w e).cam d c := by
    let w := ((s.atWork q).cam q.die port).windowFor ((s.atWork q).rd q.die A.sensor_latency port) frame
    refine ⟨w, (w + 1 + (s.atWork q).rd q.die A.sensor_latency port) % 2 ^ 32, State.command_cams hA ?_⟩
    rw [execDie_camApply]
    refine ((if_neg (not_or.2 ⟨Nat.not_le.2 hp, Nat.not_le.2 hset⟩)).trans (if_neg (Decidable.not_not.2 hst))).trans ?_
    simp only [hidle, List.filter_nil, List.foldl_nil, List.length_nil]
    rfl
  refine ⟨t, hn, (execCamApply_within _ _ _ _ _ hn).sameMem, ?_, fun hc => ?_⟩
  · rw [State.statusOf, hl.reply]
    rfl
  · have H := (Hw.defer_only (s.atWork q) q.die q false { kind := 3, point := e }).hasCam (by decide)
      (State.atWork_hasCam ⟨hA.1, hc⟩ q)
    rw [hcam, Hw.applyPended, H.cam_onCam]
    exact ⟨_, rfl, rfl⟩

/-! ### CAM_I2C (R325, R572) -/

/-- CAM_I2C of a port that is READY and has no transaction under way starts one, and its reply waits for the transaction's end. -/
theorem execCamI2c_starts {read : Bool} {addr reg len : Nat} {data : List Byte} (hA : s.Admits q 0x0803 (opObj 0x0803 port))
    (hp : port < 2) (hlo : 1 ≤ len) (hhi : len ≤ 32) (haddr : addr < 128) (hdata : read = true ∨ len ≤ data.length)
    (hst : s.hw.rd q.die A.cam_state port = camREADY) (hfree : (s.hw.cam q.die port).i2c = none)
    (hc : port < (s.hw.die q.die).cams.length) :
    ∃ t, execCamI2c q read port addr reg len data s = .next t ∧ s.SameMem t ∧ t.replyOf q = s.replyOf q ∧
      (t.hw.cam q.die port).i2c = some ((q.origin, q.tag), read, len) := by
  have hrange : ¬(2 ≤ port ∨ len = 0 ∨ 32 < len ∨ 128 ≤ addr ∨ ((!read) = true ∧ data.length < len)) := by
    simp only [Bool.not_eq_true', not_or, not_and]
    exact ⟨by omega, by omega, by omega, by omega, fun hwrite => Nat.not_lt.2 (hdata.resolve_left (by simp [hwrite]))⟩
  have hidle : ¬((s.atWork q).cam q.die port).i2c.isSome = true := by simp [hfree]
  let sent := Output.i2c q.die port addr (beBytes ((s.atWork q).i2cReg q.die port) reg ++ if read then [] else data.take len)
    (if read then len else 0)
  obtain ⟨t, hn, hl⟩ : ∃ t, execCamI2c q read port addr reg len data s = .next t ∧ State.Awaits q
      (((s.atWork q).emit sent).onCam q.die port fun C => { C with i2c := some ((q.origin, q.tag), read, len) }) t :=
    State.commandHold_awaits hA (by
      rw [execDie_camI2c]
      exact ((if_neg hrange).trans (if_neg (Decidable.not_not.2 hst))).trans (if_neg hidle))
  refine ⟨t, hn, (execCamI2c_within _ _ _ _ _ _ _ _ hn).sameMem, hl.reply, ?_⟩
  have H : ((s.atWork q).emit sent).HasCam q.die port := State.atWork_hasCam ⟨hA.1, hc⟩ q
  rw [Hw.cam, hl.die, ← Hw.cam, H.cam_onCam]

/-- CAM_I2C_END of a read ends the transaction and answers its command with the result and the bytes. -/
theorem execCamI2cEnd_replies {result len tag : Nat} {o : Origin} {data : List Byte} {die : Nat} (H : s.hw.HasCam die port)
    (hp : port < 2) (hi : (s.hw.cam die port).i2c = some ((o, tag), true, len)) :
    ∃ t, execCamI2cEnd die port result data s = .next t ∧ s.SameMem t ∧ (t.hw.cam die port).i2c = none ∧
      t.hw.reply? o tag = some ⟨.ok, leBytes 4 (min result 3) ++ (List.range len).map (fun i => data.getD i 0)⟩ := by
  have hi' : (s.begun.cam die port).i2c = some ((o, tag), true, len) := hi
  have H' : s.begun.HasCam die port := H
  have hn : execCamI2cEnd die port result data s = .next (s.run _) := s.onUnit_next _ H.1 hp
  refine ⟨_, hn, (execCamI2cEnd_within _ _ _ _ _ hn).sameMem, ?_⟩
  rw [State.run_cam, State.run_reply?]
  simp only [hi', if_true]
  refine ⟨?_, Hw.reply?_putReply_self ..⟩
  rw [(Hw.putReply_only ..).cam (by decide), H'.cam_onCam]

/-- Settles O28, by what each command's work answers and leaves in the attributes and in the record of its camera port. -/
theorem cameraCommandsComplete : Obligations.CameraCommandsComplete := by
  unfold Obligations.CameraCommandsComplete
  refine ⟨fun s h port hA hp hst => execCamWake_wakes hA hp hst,
    fun s h port stm isp hA hp hst hisp hd hroom hstm hslots hstats hdesc =>
      execCamEnable_runs hA hp hst hisp hd hroom hstm hslots hstats hdesc,
    fun s h port hA hp hst => execCamDisable_stops hA hp hst, fun s h port hA hp hst => execCamSleep_sleeps hA hp hst,
    fun s h port hA hp hst hc => execCamSnap_asks hA hp hst hc, fun s h port i hA hp hi hheld => execCamRelease_frees hA hp hi hheld,
    ?release, fun s h port set frame hA hp hset hst hnone => execCamApply_defers hA hp hset hst hnone,
    fun s h read port addr reg len data hA hp hlo hhi haddr hdata hst hfree hc =>
      execCamI2c_starts hA hp hlo hhi haddr hdata hst hfree hc,
    fun s die cam result len tag o data hd hp hc hi => execCamI2cEnd_replies ⟨hd, hc⟩ hp hi⟩
  case release =>
    intro s h port slots hA hp hheld
    obtain ⟨t, hn, hmem, hl⟩ := execCamRelease_leaves hA hp hheld
    exact ⟨t, hn, hmem, hl.reply⟩

end Sys2Proof.Machine
end

section
/-!
PROOFS. The rows of the lamp chains (R341 to R344, R346 to R348): what a refresh sends, what a frame's return and an enumeration's
return leave in the chain, what the write-back stores.
-/
namespace Sys2Proof.Machine

variable {C : List Nat} {F : List DieRec} {G : List HwRec} {h h' : Hw} {s : State} {d c die : Nat} {got : List Bool}
  {f : ChainFrame}

/-! ### The record of a chain -/

/-- The package has die `d`, and the die has a record of chain `c`. -/
def Hw.HasChain (h : Hw) (d c : Nat) : Prop := d < h.dies.length ∧ c < (h.die d).chains.length

theorem Hw.Only.chain (K : Hw.Only C F G h h') (hF : .chains ∉ F) (d c : Nat) : h'.chain d c = h.chain d c := by
  have hchains : (h'.die d).chains = (h.die d).chains := K.die d .chains hF
  rw [Hw.chain, Hw.chain, hchains]

theorem Hw.Only.hasChain (K : Hw.Only C F G h h') (hF : .chains ∉ F) (H : h.HasChain d c) : h'.HasChain d c := by
  have hchains : (h'.die d).chains = (h.die d).chains := K.die d .chains hF
  rwa [Hw.HasChain, K.len, hchains]

@[simp] theorem Hw.rd_onChain (h : Hw) (d c : Nat) (u : Chain → Chain) (e : Nat) (a : AttrId) (i : Nat) :
    (h.onChain d c u).rd e a i = h.rd e a i := rfl

/-- A chain that exists reads what was made of it. -/
theorem Hw.HasChain.chain_onChain (H : h.HasChain d c) (u : Chain → Chain) : (h.onChain d c u).chain d c = u (h.chain d c) := by
  obtain ⟨hd, hc⟩ := H
  rw [Hw.chain, Hw.onChain, h.die_onDie_self _ hd]
  simp [Hw.chain, List.getD_eq_getElem?_getD, hc]

/-- A field of chains that an update leaves is the same on every chain. -/
theorem Hw.chain_onChain_field {β : Type} (h : Hw) (d c : Nat) (u : Chain → Chain) (g : Chain → β) (hg : ∀ C, g (u C) = g C)
    (e j : Nat) : g ((h.onChain d c u).chain e j) = g (h.chain e j) := by
  refine h.die_onDie_field d _ (fun D => g (D.chains.getD j {})) (fun D => ?_) e
  simp only [List.getD_eq_getElem?_getD, List.getElem?_modify]
  split
  next => cases D.chains[j]? with
    | none => rfl
    | some C => exact hg C
  next => simp

theorem State.run_chain (s : State) (w : List (List Host.Cell) → Hw → Hw) (d c : Nat) :
    (s.run w).hw.chain d c = (w s.mems s.begun).chain d c := rfl

/-- A chain that enters a state reads it. -/
@[simp] theorem Hw.rd_chainTo (h : Hw) (d c new : Nat) : (h.chainTo d c new).rd d A.chain_state c = new := by
  unfold Hw.chainTo
  extract_lets old
  split
  next hsame => exact hsame
  next => rw [Hw.rd_event _ _ _ _ _ _ (by decide), Hw.rd_wr_self]

/-! ### The refresh (R341, R346) -/

theorem refreshes_width : ∀ c < 4, (attrRow? A.refreshes.cls c A.refreshes.id).map (·.width) = some 32 := by decide
theorem ret_errs_width : ∀ c < 4, (attrRow? A.ret_errs.cls c A.ret_errs.id).map (·.width) = some 32 := by decide

/-- The level that an entry asks for, in the words of R346. -/
theorem Lamp.want_eq (l : Lamp) : l.want = if bit l.w1 0 = false ∨ bits l.w0 31 16 = 0 then 0
    else min (bits l.w1 21 12) (bits l.w0 31 16 * bits l.w0 15 0 / 2 ^ 22 + bits l.w1 31 22) := by
  unfold Lamp.want Lamp.enabled lampFormula
  cases bit l.w1 0 <;> simp

/-- CHAIN_REFRESH of a chain in RUN or LOST is counted (assumption log 6 for the count's wrap), and each cached entry of its drivers
records the level that it asks for. -/
theorem execChainRefresh_sends (bad : List Nat) (hd : die < s.hw.dies.length) (hc : c < 4)
    (hst : s.hw.rd die A.chain_state c = chRUN ∨ s.hw.rd die A.chain_state c = chLOST) :
    ∃ t, execChainRefresh die c bad s = .next t ∧
      t.hw.rd die A.refreshes c = (s.hw.rd die A.refreshes c + 1) % 2 ^ 32 ∧
      ∀ x ∈ (t.hw.die die).lamps, 2048 * c ≤ x.1 → x.1 < 2048 * c + 4 * s.hw.rd die A.chain_drivers c →
        x.2.level = x.2.want := by
  refine ⟨_, s.onUnit_next _ hd hc, ?_⟩
  rw [State.run_rd, State.run_die]
  extract_lets st n es read C levels low mask masks shares pulses sent shown framed
  have hon : ¬¬(st = chRUN ∨ st = chLOST) := not_not.2 hst
  rw [if_neg hon]
  have KR : Hw.Only [0x1F] [.front, .buckets, .folded, .chains, .lamps] [] s.begun read :=
    .foldl (.refl ..) (fun k e => k.lampRead_only ..) _
  refine ⟨?_, fun x hx hlo hhi => ?_⟩
  · have hframed : framed.rd die A.refreshes c = s.hw.rd die A.refreshes c := by
      rw [← State.rd_begun, ← KR.read A.refreshes (by decide)]
      rfl
    rw [Hw.rd_emit, Hw.rd_add_ne _ (by decide), Hw.rd_add_wrap32 _ _ (refreshes_width c hc), hframed]
  · have hlamps : (framed.die die).lamps = (read.die die).lamps.map sent := by
      have hshown : shown.die die = { read.die die with lamps := (read.die die).lamps.map sent } :=
        read.die_onDie_self _ (KR.len ▸ hd)
      have hkept : (framed.die die).lamps = (shown.die die).lamps := (shown.onChain_only ..).die die .lamps (by decide)
      rw [hkept, hshown]
    obtain ⟨y, -, rfl⟩ := List.mem_map.1 (hlamps ▸ hx : x ∈ (read.die die).lamps.map sent)
    have hfst : (sent y).1 = y.1 := by
      simp only [sent]
      split <;> rfl
    have hin : c * 2048 ≤ y.1 ∧ y.1 < c * 2048 + 4 * n := by
      rw [hfst] at hlo hhi
      have hn : n = s.hw.rd die A.chain_drivers c := rfl
      omega
    have hsent : sent y = (y.1, { y.2 with level := y.2.want }) := if_pos hin
    rw [hsent]
    rfl

/-- Settles O45, by what a refresh leaves in the cache and the words of R346 for the level that an entry asks for. -/
theorem lampLevelSent : Obligations.LampLevelSent := by
  unfold Obligations.LampLevelSent
  intro s die chain bad hd hc hst
  obtain ⟨t, hn, -, hlevel⟩ := execChainRefresh_sends bad hd hc hst
  exact ⟨t, hn, fun x hx hlo hhi => (hlevel x hx hlo hhi).trans x.2.want_eq⟩

/-! ### The return of a frame (R342, R343, R348) -/

/-- A return error is counted (assumption log 6 for the count's wrap). -/
theorem Hw.rd_returnError (h : Hw) (d kind got : Nat) (hc : c < 4) :
    (h.returnError d c kind got).rd d A.ret_errs c = (h.rd d A.ret_errs c + 1) % 2 ^ 32 := by
  unfold Hw.returnError
  extract_lets told marked
  have hmarked : marked.rd d A.ret_errs c = (h.rd d A.ret_errs c + 1) % 2 ^ 32 := by
    rw [Hw.rd_onChain, Hw.rd_event _ _ _ _ _ _ (by decide), Hw.rd_add_wrap32 _ _ (ret_errs_width c hc)]
  split
  · rw [(Hw.chainTo_only ..).read A.ret_errs (by decide), hmarked]
  · exact hmarked

/-- The record of a chain but for the channels due for a diagnostic pulse. -/
def Chain.butDue (C : Chain) : Chain := { C with due := [] }

/-- Every chain is in the state it was in, and its record is the same but for the channels due for a diagnostic pulse. -/
def Hw.SameChains (h h' : Hw) : Prop := ∀ e j, h'.rd e A.chain_state j = h.rd e A.chain_state j ∧
  (h'.chain e j).butDue = (h.chain e j).butDue

theorem Hw.SameChains.waiting (K : h.SameChains h') (e j : Nat) : (h'.chain e j).waiting = (h.chain e j).waiting :=
  congrArg (·.waiting) (K e j).2
theorem Hw.SameChains.errRun (K : h.SameChains h') (e j : Nat) : (h'.chain e j).errRun = (h.chain e j).errRun :=
  congrArg (·.errRun) (K e j).2

/-- A driver's status makes channels due and leaves the chains otherwise. -/
theorem Hw.driverStatus_sameChains (h : Hw) (d c i : Nat) (w : Option Nat) : h.SameChains (h.driverStatus d c i w) := by
  refine fun e j => ⟨(h.driverStatus_only d c i w).read A.chain_state (by decide) e j, ?_⟩
  unfold Hw.driverStatus
  extract_lets C hot fresh shown told due
  have KS : Hw.Only [0x1F] [.front, .buckets, .folded, .lamps] [.stores] h shown :=
    .foldl (.refl ..) (fun k ch => k.lampStatus_only ..) _
  have KT : Hw.Only [0x1F, A.rx_err_reports.code] [.front, .buckets, .folded] [] shown told := by
    cases w with
    | some w =>
      have KC : Hw.Only [A.rx_err_reports.code] [] [] shown (if bit w 14 then shown.add d A.rx_err_reports c else shown) :=
        (Hw.Only.refl ..).step_if (Hw.add_only ..) (by decide)
      exact .ite (fun _ => KC.mono (by decide)) fun _ => (KC.mono (by decide)).step (Hw.event_only ..) (by decide)
    | none => exact .refl ..
  refine (told.chain_onChain_field d c _ Chain.butDue (fun _ => by rfl) e j).trans ?_
  rw [KT.chain (by decide), KS.chain (by decide)]

/-- The statuses of several drivers leave the chains as one does. -/
theorem Hw.driverStatuses_sameChains (h : Hw) (d c : Nat) (w : Nat → Option Nat) (l : List Nat) :
    h.SameChains (l.foldl (fun k i => k.driverStatus d c i (w i)) h) :=
  List.foldlRecOn (motive := h.SameChains) l _ (fun _ _ => ⟨rfl, rfl⟩) fun k hk i _ e j =>
    have hi := k.driverStatus_sameChains d c i (w i) e j
    ⟨hi.1.trans (hk e j).1, hi.2.trans (hk e j).2⟩

/-- A chain that is not OFF and waits for the return of its frame takes it. -/
theorem Hw.takesReturn (hwait : (h.chain d c).waiting = true) (hst : h.rd d A.chain_state c ≠ chOFF) :
    ¬((!(h.chain d c).waiting) = true ∨ h.rd d A.chain_state c = chOFF) := by simpa [hwait] using hst

/-- CHAIN_RETURN after the deadline is a return error. -/
theorem execChainReturn_late (hd : die < s.hw.dies.length) (hc : c < 4) (hnone : (s.hw.chain die c).enum = none)
    (hcur : (s.hw.chain die c).cur = some f) (hwait : (s.hw.chain die c).waiting = true)
    (hst : s.hw.rd die A.chain_state c ≠ chOFF) :
    ∃ t, execChainReturn die c false got s = .next t ∧
      t.hw.rd die A.ret_errs c = (s.hw.rd die A.ret_errs c + 1) % 2 ^ 32 := by
  have hnone' : (s.begun.chain die c).enum = none := hnone
  have hcur' : (s.begun.chain die c).cur = some f := hcur
  refine ⟨_, s.onUnit_next _ hd hc, ?_⟩
  rw [State.run_rd]
  extract_lets chain ws bad taken
  simp -zeta only [chain, hnone', hcur']
  extract_lets n
  rw [if_neg (Hw.takesReturn (h := s.begun) hwait hst), if_pos (by decide), Hw.rd_returnError _ _ _ _ hc, State.rd_begun]

/-- CHAIN_RETURN of a whole frame whose status words all pass their CRC puts the chain in RUN, clear of errors. -/
theorem execChainReturn_good (H : s.hw.HasChain die c) (hc : c < 4) (hnone : (s.hw.chain die c).enum = none)
    (hcur : (s.hw.chain die c).cur = some f) (hwait : (s.hw.chain die c).waiting = true)
    (hst : s.hw.rd die A.chain_state c ≠ chOFF) (hlen : got.length = 16 * f.levels.length)
    (hok : ∀ w ∈ returnWords 16 got, statusOk w = true) :
    ∃ t, execChainReturn die c true got s = .next t ∧ t.hw.rd die A.chain_state c = chRUN ∧
      (t.hw.chain die c).waiting = false ∧ (t.hw.chain die c).errRun = 0 := by
  have hnone' : (s.begun.chain die c).enum = none := hnone
  have hcur' : (s.begun.chain die c).cur = some f := hcur
  refine ⟨_, s.onUnit_next _ H.1 hc, ?_⟩
  rw [State.run_rd, State.run_chain]
  extract_lets chain ws bad taken
  simp -zeta only [chain, hnone', hcur']
  extract_lets n
  have hbad : bad = 0 := by simpa [bad, List.filter_eq_nil_iff, ws] using hok
  rw [if_neg (Hw.takesReturn (h := s.begun) hwait hst), if_neg (by decide), if_neg (not_not.2 hlen), if_neg (by omega)]
  have htaken : taken = (s.begun.onChain die c fun C => { C with errRun := 0, waiting := false }).chainTo die c chRUN :=
    if_neg (by omega)
  have hchain : taken.chain die c = { s.begun.chain die c with errRun := 0, waiting := false } := by
    rw [htaken, (Hw.chainTo_only ..).chain (by decide), Hw.HasChain.chain_onChain (h := s.begun) H]
  have K := taken.driverStatuses_sameChains die c (fun i => (ws[i]?).bind fun w => if statusOk w then some w else none)
    (List.range n)
  refine ⟨(K ..).1.trans ?_, (K.waiting ..).trans ?_, (K.errRun ..).trans ?_⟩
  · rw [htaken, Hw.rd_chainTo]
  · rw [hchain]
  · rw [hchain]

/-! ### The return of an enumeration (R344) -/

/-- The return of an IDENT frame in time is the enumeration's, read as `enumCount` reads it. -/
theorem execChainReturn_enum {id old : Nat} {enable : Bool} (hd : die < s.hw.dies.length) (hc : c < 4)
    (henum : (s.hw.chain die c).enum = some (id, enable, old)) :
    execChainReturn die c true got s =
      .next (s.run fun _ h => h.enumReturn die c id old enable (enumCount (s.hw.rd die A.chain_max c) got)) := by
  have henum' : (s.begun.chain die c).enum = some (id, enable, old) := henum
  refine (s.onUnit_run _ hd hc).trans ?_
  simp only [henum', if_true, State.rd_begun]
  rfl

/-- An enumeration of ENABLE that fails leaves the chain OFF, with no enumeration under way. -/
theorem Hw.enumReturn_fails (H : h.HasChain d c) (id old : Nat) : (h.enumReturn d c id old true none).rd d A.chain_state c = chOFF ∧
    ((h.enumReturn d c id old true none).chain d c).enum = none := by
  unfold Hw.enumReturn
  extract_lets ended _
  simp -zeta only
  rw [(Hw.enumSettle_only ..).read A.chain_state (by decide), (Hw.enumSettle_only ..).chain (by decide), if_true,
    Hw.rd_chainTo, (Hw.chainTo_only ..).chain (by decide), H.chain_onChain]
  exact ⟨rfl, rfl⟩

/-- An enumeration of ENABLE that finds `n` drivers, few enough for the refresh time of the chain, puts the chain in RUN with them. -/
theorem Hw.enumReturn_runs (h : Hw) (d c id old n : Nat) (types : List Nat)
    (hlow : refreshLow n (h.rd d A.refresh_us c) (h.rd d A.ret_slack_us c) (h.rd d A.chain_mbps c) = false) :
    (h.enumReturn d c id old true (some (n, types))).rd d A.chain_state c = chRUN ∧
      (h.enumReturn d c id old true (some (n, types))).rd d A.chain_drivers c = n := by
  unfold Hw.enumReturn
  extract_lets ended was
  simp -zeta only
  extract_lets shown told
  have KT : Hw.Only [0x1F] [.front, .buckets, .folded] [] shown told :=
    .ite (fun _ => .refl ..) fun _ => Hw.event_only ..
  have K : Hw.Only [0x1F, A.chain_drivers.code] [.chains, .front, .buckets, .folded] [.blks] h told :=
    ((((Hw.onChain_only ..).mono (by decide)).step (Hw.wr_only ..) (by decide)).step (Hw.setBlk_only ..) (by decide)).step KT
      (by decide)
  have hfits : ¬(True ∧ refreshLow n (told.rd d A.refresh_us c) (told.rd d A.ret_slack_us c)
      (told.rd d A.chain_mbps c) = true) := by
    rw [K.read A.refresh_us (by decide), K.read A.ret_slack_us (by decide), K.read A.chain_mbps (by decide), hlow]
    simp
  have hcount : told.rd d A.chain_drivers c = n := by
    rw [KT.read A.chain_drivers (by decide), Hw.rd_setBlk, Hw.rd_wr_self]
  rw [if_neg hfits, (Hw.enumSettle_only ..).read A.chain_state (by decide), (Hw.enumSettle_only ..).read A.chain_drivers (by decide),
    if_true, Hw.rd_chainTo, (Hw.chainTo_only ..).read A.chain_drivers (by decide), hcount]
  exact ⟨rfl, rfl⟩

/-! ### The write-back (R347) -/

/-- The write-back of the one cached entry stores its words 2 and 3. -/
theorem Hw.lampWriteback_of_cached {e : Nat} {l : Lamp} (hone : (h.die d).lamps = [(e, l)]) :
    h.lampWriteback d e = h.store d (0x10000 + 16 * e + 8) (wordBytes [l.level * 2 ^ 22 + l.age, l.flags * 2 ^ 24]) := by
  have hcached : h.lamp? d e = some l := by simp [Hw.lamp?, hone]
  simp only [Hw.lampWriteback, hcached]

/-- LAMP_WRITEBACK of a chain that is not OFF and whose one entry is the one cached stores that entry's words 2 and 3, and changes
nothing else. -/
theorem execLampWriteback_stores {e : Nat} {l : Lamp} (hd : die < s.hw.dies.length) (hc : c < 4)
    (hst : s.hw.rd die A.chain_state c ≠ chOFF) (hone : (s.hw.die die).lamps = [(e, l)]) (he : e / 2048 = c) :
    ∃ t, execLampWriteback die c s = .next t ∧ t.mems = applyStores s.mems
      [(die, 0x10000 + 16 * e + 8, wordBytes [l.level * 2 ^ 22 + l.age, l.flags * 2 ^ 24])] ∧ t.hw = s.begun := by
  have hone' : (s.begun.die die).lamps = [(e, l)] := hone
  have hst' : s.begun.rd die A.chain_state c ≠ chOFF := hst
  have hentries : (((s.begun.die die).lamps.map (·.1)).filter fun e => e / 2048 == c) = [e] := by
    rw [hone']
    simp [he]
  refine ⟨_, s.onUnit_run _ hd hc, ?_⟩
  rw [if_neg hst', hentries, List.foldl_cons, List.foldl_nil, Hw.lampWriteback_of_cached hone']
  exact ⟨rfl, rfl⟩

/-- Settles O29, by what the refresh, the returns and the write-back leave. -/
theorem lampRowsComplete : Obligations.LampRowsComplete := by
  unfold Obligations.LampRowsComplete
  refine ⟨?refresh, fun s die chain got f hd hc hnone hcur hwait hst => execChainReturn_late hd hc hnone hcur hwait hst,
    fun s die chain got f hd hc hhas hnone hcur hwait hst hlen hok =>
      execChainReturn_good ⟨hd, hhas⟩ hc hnone hcur hwait hst hlen hok, ?fails, ?runs, ?writeback⟩
  case refresh =>
    intro s die chain bad hd hc hst
    obtain ⟨t, hn, hcount, -⟩ := execChainRefresh_sends bad hd hc hst
    exact ⟨t, hn, (execChainRefresh_within _ _ _ _ hn).sameMem, hcount⟩
  case fails =>
    intro s die chain id old got hd hc hhas henum hfail
    refine ⟨_, execChainReturn_enum hd hc henum, ?_⟩
    rw [State.run_rd, State.run_chain, hfail]
    exact Hw.enumReturn_fails (h := s.begun) ⟨hd, hhas⟩ id old
  case runs =>
    intro s die chain id old n types got hd hc _ henum hcount hlow
    refine ⟨_, execChainReturn_enum hd hc henum, ?_⟩
    rw [State.run_rd, State.run_rd, hcount]
    exact s.begun.enumReturn_runs die chain id old n types hlow
  case writeback =>
    intro s die chain e l hd hc hst hone he _
    obtain ⟨t, hn, hmems, hhw⟩ := execLampWriteback_stores hd hc hst hone he
    exact ⟨t, hn, fun d x => by rw [hmems], hhw⟩

end Sys2Proof.Machine
end

section
/-!
PROOFS. The rows of the matrix and the pulse outputs (R351 to R358, R400): what a step that starts and one that ends leave in the
matrix, and what a pulse counts.
-/
namespace Sys2Proof.Machine

variable {h : Hw} {s : State} {q : Hdr} {d die out : Nat}

/-! ### The record of the matrix -/

@[simp] theorem Hw.rd_onMx (h : Hw) (d : Nat) (u : Matrix → Matrix) (e : Nat) (a : AttrId) (i : Nat) :
    (h.onMx d u).rd e a i = h.rd e a i := rfl

theorem Hw.mx_onMx_self (h : Hw) (u : Matrix → Matrix) (hd : d < h.dies.length) :
    ((h.onMx d u).die d).mx = u (h.die d).mx := by
  rw [Hw.onMx, h.die_onDie_self _ hd]

/-- A field of the matrix that an update leaves is the same on every die. -/
theorem Hw.mx_onMx_field {β : Type} (h : Hw) (d : Nat) (u : Matrix → Matrix) (g : Matrix → β) (hg : ∀ M, g (u M) = g M) (e : Nat) :
    g ((h.onMx d u).die e).mx = g (h.die e).mx :=
  h.die_onDie_field d _ (fun D => g D.mx) (fun D => hg D.mx) e

@[simp] theorem State.atWork_mx (s : State) (q : Hdr) (e : Nat) : ((s.atWork q).die e).mx = (s.hw.die e).mx :=
  s.begun.started_die_mx q e

/-- The matrices after a mailbox command are those that its work leaves. -/
theorem State.command_mx {op : Nat} {o : ObjRef} (hA : s.Admits q op o)
    {body : List (List Host.Cell) → Nat → Hw → Reply × Hw} {w : Reply × Hw}
    (hb : body s.mems (s.hw.execDie q op o) (s.atWork q) = w) :
    ∃ t, s.command q op o body = .next t ∧ s.Leaves q w t ∧ ∀ d, (t.hw.die d).mx = (w.2.die d).mx := by
  obtain ⟨t, hn, hl⟩ := State.command_leaves hA hb
  refine ⟨t, hn, hl, fun d => ?_⟩
  obtain rfl : _ = t := Host.Outcome.next.inj ((State.command_next hA body).symm.trans hn)
  rw [State.run_die, Hw.finish_die_mx, ← hb]
  rfl

/-- The matrix commands are carried out by the die that their header names (R18). -/
theorem execDie_mxCtrl (h : Hw) (q : Hdr) : h.execDie q 0x0904 (opObj 0x0904 0) = q.die := rfl

/-! ### What the matrix has done by now (R351, R355, R358) -/

/-- Without a step under way there is nothing that the matrix has done. -/
theorem Hw.mxSettle_of_idle (hidle : (h.die d).mx.step = none) : h.mxSettle d = h := by simp only [Hw.mxSettle, hidle]

/-- A sample leaves it to the matrix whether it stops. -/
theorem Hw.stopping_mxSample (h : Hw) (d row csns : Nat) (cols : List Nat) (e : Nat) :
    ((h.mxSample d row csns cols).die e).mx.stopping = (h.die e).mx.stopping := by
  unfold Hw.mxSample
  refine List.foldlRecOn (motive := fun k : Hw => (k.die e).mx.stopping = (h.die e).mx.stopping) _ _ rfl fun k hk c _ => ?_
  extract_lets elem was now shown
  have KS : Hw.Only [0x1F, A.mx_open.code] [.front, .buckets, .folded] [] k shown :=
    .ite (fun _ => .refl ..) fun _ => ((Hw.wr_only ..).mono (by decide)).step (Hw.event_only ..) (by decide)
  have hmx : (shown.die e).mx = (k.die e).mx := KS.die e .mx (by decide)
  exact (shown.mx_onMx_field d _ (·.stopping) (fun _ => by rfl) e).trans (hmx ▸ hk)

/-- A matrix that stops goes on stopping until its step has ended, and is IDLE then. -/
theorem Hw.mxSettle_of_stopping (hd : d < h.dies.length) (hstop : (h.die d).mx.stopping = true) :
    ((h.mxSettle d).die d).mx.stopping = true ∨ (h.mxSettle d).rd d A.mx_state 0 = 0 := by
  unfold Hw.mxSettle
  split
  next => exact .inl hstop
  next p _ =>
    extract_lets ripe cols sampled p'
    have hsampled : (sampled.die d).mx.stopping = true ∧ d < sampled.dies.length := by
      have hsame : (h.die d).mx.stopping = true ∧ d < h.dies.length := ⟨hstop, hd⟩
      simp only [sampled]
      split
      · split
        · exact ⟨(h.stopping_mxSample ..).trans hstop, (h.mxSample_only ..).len ▸ hd⟩
        · exact hsame
      · exact hsame
    obtain ⟨hstop', hd'⟩ := hsampled
    by_cases hon : sampled.clk < sampled.mxEnd d p'
    · exact .inl (by rw [if_pos hon, sampled.mx_onMx_self _ hd', hstop'])
    · exact .inr (by rw [if_neg hon, if_pos hstop', Hw.rd_onMx, Hw.rd_wr_self])

/-! ### MX_STEP, MX_START and MX_STOP -/

/-- A step that starts with none before it lights the next entry of the sequence. -/
theorem Hw.mxStart_lights (hd : d < h.dies.length) (hidle : (h.die d).mx.step = none) (hon : h.rd d A.mx_state 0 ≠ 0) :
    ((h.mxStart d).die d).mx.step.isSome ∧
      ((h.mxStart d).die d).mx.next = ((h.die d).mx.next + 1) % h.rd d A.mx_seq_len 0 := by
  unfold Hw.mxStart
  extract_lets settled i scanned r n time on cut strobe
  have hsettled : settled = h := Hw.mxSettle_of_idle hidle
  clear_value settled
  subst hsettled
  have KS : Hw.Only [0x1F] [.front, .buckets, .folded, .mx] [.blks, .free] settled scanned :=
    (Hw.Only.refl ..).step_if (Hw.mxScan_only ..) (by decide)
  have KC : Hw.Only [0x1F, A.mx_overlaps.code] [.front, .buckets, .folded] [] scanned cut := by
    simp only [cut]
    split
    · exact .ite (fun _ => ((Hw.add_only ..).mono (by decide)).step (Hw.event_only ..) (by decide)) fun _ => .refl ..
    · exact .refl ..
  have hlen : d < cut.dies.length := by rwa [KC.len, KS.len]
  rw [if_neg hon, Hw.die_emit, cut.mx_onMx_self _ hlen, KC.read A.mx_seq_len (by decide), KS.read A.mx_seq_len (by decide)]
  exact ⟨rfl, rfl⟩

/-- MX_STEP in SCAN between steps starts the next one. -/
theorem execMxStep_lights (csns diag : Nat) (hd : die < s.hw.dies.length) (hscan : s.hw.rd die A.mx_state 0 = 1)
    (hidle : (s.hw.die die).mx.step = none) :
    ∃ t, execMxStep die csns diag s = .next t ∧ (t.hw.die die).mx.step.isSome ∧
      (t.hw.die die).mx.next = ((s.hw.die die).mx.next + 1) % s.hw.rd die A.mx_seq_len 0 := by
  have hscan' : s.begun.rd die A.mx_state 0 = 1 := hscan
  obtain ⟨hlit, hnext⟩ := Hw.mxStart_lights (h := s.begun) hd hidle (by rw [hscan']; decide)
  refine ⟨_, s.onDie_next _ hd, ?_⟩
  have hd' : die < (s.begun.mxStart die).dies.length := by rwa [(Hw.mxStart_only ..).len]
  rw [State.run_die, if_pos hscan', Hw.mx_onMx_self _ _ hd']
  exact ⟨by rwa [Option.isSome_map], hnext⟩

/-- MX_START of a matrix that is IDLE enters the state of its mode. -/
theorem execMxStart_starts (hA : s.Admits q 0x0904 (opObj 0x0904 0)) (hidle : (s.hw.die q.die).mx.step = none)
    (hst : s.hw.rd q.die A.mx_state 0 = 0) :
    ∃ t, execMxStart q s = .next t ∧ s.SameMem t ∧ t.replyOf q = some .ok ∧
      t.hw.rd q.die A.mx_state 0 = s.hw.rd q.die A.mx_mode 0 + 1 := by
  have hsame : (s.atWork q).mxSettle q.die = s.atWork q := Hw.mxSettle_of_idle ((s.atWork_mx q q.die) ▸ hidle)
  obtain ⟨t, hn, hl⟩ : ∃ t, execMxStart q s = .next t ∧ s.Leaves q
      (okWith (((s.atWork q).wr q.die A.mx_state 0 ((s.atWork q).rd q.die A.mx_mode 0 + 1)).onMx q.die fun _ => {})) t :=
    State.command_leaves hA (by
      rw [execDie_mxCtrl]
      simp only [hsame]
      exact if_neg (not_not.2 hst))
  refine ⟨t, hn, (execMxStart_within _ _ hn).sameMem, hl.reply, ?_⟩
  rw [hl.rd _ _ _ (by decide) (by decide), okWith, Hw.rd_onMx, Hw.rd_wr_self, State.atWork_rd]

/-- MX_STOP between steps ends at once. -/
theorem execMxStop_idle (hA : s.Admits q 0x0904 (opObj 0x0904 0)) (hidle : (s.hw.die q.die).mx.step = none)
    (hst : s.hw.rd q.die A.mx_state 0 ≠ 0) :
    ∃ t, execMxStop q s = .next t ∧ s.SameMem t ∧ t.replyOf q = some .ok ∧ t.hw.rd q.die A.mx_state 0 = 0 := by
  have hidle' : ((s.atWork q).die q.die).mx.step = none := (s.atWork_mx q q.die) ▸ hidle
  have hsame : (s.atWork q).mxSettle q.die = s.atWork q := Hw.mxSettle_of_idle hidle'
  obtain ⟨t, hn, hl⟩ : ∃ t, execMxStop q s = .next t ∧ s.Leaves q
      (okWith (((s.atWork q).wr q.die A.mx_state 0 0).onMx q.die fun _ => {})) t :=
    State.command_leaves hA (by
      rw [execDie_mxCtrl]
      simp only [hsame, hidle']
      exact if_neg hst)
  refine ⟨t, hn, (execMxStop_within _ _ hn).sameMem, hl.reply, ?_⟩
  rw [hl.rd _ _ _ (by decide) (by decide), okWith, Hw.rd_onMx, Hw.rd_wr_self]

/-- MX_STOP within a step leaves the matrix stopping, or IDLE where the step has ended. -/
theorem execMxStop_underWay {p : MxStep} (hA : s.Admits q 0x0904 (opObj 0x0904 0))
    (hst : ((s.atWork q).mxSettle q.die).rd q.die A.mx_state 0 ≠ 0)
    (hstep : (((s.atWork q).mxSettle q.die).die q.die).mx.step = some p) :
    ∃ t, execMxStop q s = .next t ∧ s.SameMem t ∧ t.replyOf q = some .ok ∧
      ((t.hw.die q.die).mx.stopping = true ∨ t.hw.rd q.die A.mx_state 0 = 0) := by
  obtain ⟨t, hn, hl, hmx⟩ : ∃ t, execMxStop q s = .next t ∧ s.Leaves q (okWith
      ((((s.atWork q).mxSettle q.die).onMx q.die fun M => { M with stopping := true }).mxSettle q.die)) t ∧ _ :=
    State.command_mx hA (by
      rw [execDie_mxCtrl]
      simp only [hstep]
      exact if_neg hst)
  have hd : q.die < ((s.atWork q).mxSettle q.die).dies.length := by
    rw [(Hw.mxSettle_only ..).len, State.atWork_length]
    exact hA.1
  refine ⟨t, hn, (execMxStop_within _ _ hn).sameMem, hl.reply, ?_⟩
  rw [hmx, hl.rd _ _ _ (by decide) (by decide), okWith]
  exact Hw.mxSettle_of_stopping (by rwa [(Hw.onMx_only ..).len]) (by rw [Hw.mx_onMx_self _ _ hd])

/-! ### Pulse outputs (R400) -/

theorem po_pulses_width : ∀ o < 8, (attrRow? A.po_pulses.cls o A.po_pulses.id).map (·.width) = some 32 := by decide

/-- A pulse that is given is counted (assumption log 6 for the count's wrap). -/
theorem Hw.rd_poGive_pulses (h : Hw) (d : Nat) (ho : out < 8) :
    (h.poGive d out).rd d A.po_pulses out = (h.rd d A.po_pulses out + 1) % 2 ^ 32 := by
  unfold Hw.poGive
  extract_lets next counted given p
  have hgiven : given.rd d A.po_pulses out = (h.rd d A.po_pulses out + 1) % 2 ^ 32 := by
    rw [(Hw.onPulse_only ..).read A.po_pulses (by decide), Hw.rd_add_wrap32 _ _ (po_pulses_width out ho), Hw.rd_emit]
  split
  case h_1 =>
    split
    · rw [Hw.rd_wr_ne _ (by decide), hgiven]
    · rw [Hw.rd_wr_ne _ (by decide), (Hw.onPulse_only ..).read A.po_pulses (by decide), hgiven]
  case h_2 =>
    split
    · rw [Hw.rd_wr_ne _ (by decide), hgiven]
    · rw [Hw.rd_wr_ne _ (by decide), (Hw.onPulse_only ..).read A.po_pulses (by decide), hgiven]
  case h_3 => rw [Hw.rd_wr_ne _ (by decide), hgiven]

/-- PULSE_OUTPUT_MATCH of an output with a pulse to give gives one, and only one. -/
theorem execPulseOutputMatch_gives (hd : die < s.hw.dies.length) (ho : out < 8) (hdue : s.hw.poDue die out = true) :
    ∃ t, execPulseOutputMatch die out s = .next t ∧ s.SameMem t ∧
      t.hw.rd die A.po_pulses out = (s.hw.rd die A.po_pulses out + 1) % 2 ^ 32 := by
  have hdue' : s.begun.poDue die out = true := hdue
  have hn := s.onUnit_next (fun _ h => if h.poDue die out then (h.pulseMatch die out).chPulse die out else h) hd ho
  refine ⟨_, hn, (execPulseOutputMatch_within _ _ _ hn).sameMem, ?_⟩
  rw [State.run_rd, if_pos hdue', (Hw.chPulse_only ..).read A.po_pulses (by decide)]
  unfold Hw.pulseMatch
  extract_lets settled given strobe lit
  have KL : Hw.Only _ _ _ given lit := .ite (fun _ => Hw.mxStart_only ..) fun _ => .refl ..
  rw [(Hw.camTrigger_only ..).read A.po_pulses (by decide), KL.read A.po_pulses (by decide), Hw.rd_poGive_pulses _ _ ho,
    (Hw.mxSettle_only ..).read A.po_pulses (by decide), (Hw.untilPulse_only ..).read A.po_pulses (by decide), State.rd_begun]

/-- Settles O31, by what a step, its start and its stop leave in the matrix and what a pulse counts. -/
theorem matrixRowsComplete : Obligations.MatrixRowsComplete := by
  unfold Obligations.MatrixRowsComplete
  refine ⟨?step, fun s h hA hidle hst => execMxStart_starts hA hidle hst, fun s h hA hidle hst => execMxStop_idle hA hidle hst,
    fun s h p hA _ hst hstep => execMxStop_underWay hA hst hstep,
    fun s die out hd ho hdue => execPulseOutputMatch_gives hd ho hdue⟩
  case step =>
    intro s die csns diag hd hscan hidle
    obtain ⟨t, hn, hlit, hnext⟩ := execMxStep_lights csns diag hd hscan hidle
    exact ⟨t, hn, (execMxStep_within _ _ _ _ hn).sameMem, hlit, hnext⟩

end Sys2Proof.Machine
end

section
/-!
PROOFS. What a mailbox command's reply adds to what its body left, for the records that no lemma above speaks of; the watchdog
serviced in time (R474); the state after reset (R508, R513).
-/
-- One proof after the other: the text is checked as one, and proofs side by side pass the check's memory.
set_option Elab.async false
namespace Sys2Proof.Machine
variable {C : List Nat} {F : List DieRec} {G : List HwRec} {s t : State} {q : Hdr}

/-! ### A command and its body -/

/-- Carrying out the stores and losses of a step changes no record but their lists. -/
theorem State.run_only {f : List (List Host.Cell) → Hw → Hw} {k : Hw} (hk : f s.mems s.begun = k) :
    Hw.Only [] [] [.stores, .wipes] k (s.run f).hw := by
  subst hk
  refine ⟨rfl, fun _ _ _ _ _ _ => rfl, fun _ x _ => x.same_refl _, fun g hg => ?_⟩
  cases g
  case stores => exact absurd (by decide) hg
  case wipes => exact absurd (by decide) hg
  all_goals rfl

@[simp] theorem State.run_kennelWriting (s : State) (f : List (List Host.Cell) → Hw → Hw) :
    (s.run f).hw.kennelWriting = (f s.mems s.begun).kennelWriting := rfl
@[simp] theorem State.run_repairWork (s : State) (f : List (List Host.Cell) → Hw → Hw) :
    (s.run f).hw.repairWork = (f s.mems s.begun).repairWork := rfl
@[simp] theorem State.run_safeFrom (s : State) (f : List (List Host.Cell) → Hw → Hw) :
    (s.run f).hw.safeFrom = (f s.mems s.begun).safeFrom := rfl

/-- The start of a step clears the lists of the last step and nothing else. -/
theorem State.begun_only (s : State) : Hw.Only [] [] [.stores, .wipes, .out] s.hw s.begun := by
  refine ⟨rfl, fun _ _ _ _ _ _ => rfl, fun _ x _ => x.same_refl _, fun g hg => ?_⟩
  cases g
  case stores => exact absurd (by decide) hg
  case wipes => exact absurd (by decide) hg
  case out => exact absurd (by decide) hg
  all_goals rfl

/-- The record on which a command works: the mailbox no longer holds the command, nothing else. -/
theorem State.atWork_only (s : State) (q : Hdr) : Hw.Only [] [.mbx] [.stores, .wipes, .out] s.hw (s.atWork q) :=
  (s.begun_only.mono (by decide)).step (s.begun.started_only q) (by decide)

/-- An effect on the package, a die or a unit whose work on this state is known. -/
theorem State.run_of_work {f : List (List Host.Cell) → Hw → Hw} {k : Hw} (hk : f s.mems s.begun = k) :
    s.run f = s.run fun _ _ => k := by
  subst hk
  rfl

theorem State.onPkg_works {f : List (List Host.Cell) → Hw → Hw} {k : Hw} (hk : f s.mems s.begun = k) :
    s.onPkg f = .next (s.run fun _ _ => k) := congrArg Host.Outcome.next (State.run_of_work hk)

theorem State.onDie_works {d : Nat} {f : List (List Host.Cell) → Hw → Hw} {k : Hw} (hd : d < s.hw.dies.length)
    (hk : f s.mems s.begun = k) : s.onDie d f = .next (s.run fun _ _ => k) :=
  (s.onDie_next f hd).trans (congrArg Host.Outcome.next (State.run_of_work hk))

theorem State.onUnit_works {d u n : Nat} {f : List (List Host.Cell) → Hw → Hw} {k : Hw} (hd : d < s.hw.dies.length)
    (hu : u < n) (hk : f s.mems s.begun = k) : s.onUnit d u n f = .next (s.run fun _ _ => k) :=
  (s.onUnit_next f hd hu).trans (congrArg Host.Outcome.next (State.run_of_work hk))

/-- A command whose body gives the reply and package `w` ends with that reply; sending it changes only the event recorder,
`cfg_changes` and the list of replies. -/
structure State.Ends (s : State) (q : Hdr) (w : Reply × Hw) (t : State) : Prop where
  reply : t.replyOf q = some w.1
  hw : Hw.Only [0x1f, 0x10021] [.front, .buckets, .folded] [.replies, .stores, .wipes] w.2 t.hw
  mem : w.2.stores = [] → w.2.wipes = [] → s.SameMem t

theorem State.Ends.status {w : Reply × Hw} (E : s.Ends q w t) : t.statusOf q = some w.1.status := by
  rw [State.statusOf, E.reply]
  rfl

theorem State.command_ends {op : Nat} {o : ObjRef} (hA : s.Admits q op o)
    {body : List (List Host.Cell) → Nat → Hw → Reply × Hw} {w : Reply × Hw}
    (hb : body s.mems (s.hw.execDie q op o) (s.atWork q) = w) : ∃ t, s.command q op o body = .next t ∧ s.Ends q w t := by
  subst hb
  refine ⟨_, State.command_next hA body, Hw.reply?_finish .., ?_, fun h1 h2 d x => ?_⟩
  · have K := Hw.finish_only (body s.mems (s.hw.execDie q op o) (s.atWork q)).2 (s.hw.execDie q op o) q op o
      (body s.mems (s.hw.execDie q op o) (s.atWork q)).1
    exact (K.mono (by decide)).step (State.run_only rfl) (by decide)
  · rw [State.run_mems_same s _ ((Hw.finish_stores ..).trans h1) ((Hw.finish_wipes ..).trans h2)]

/-! ### One unit after the other -/

/-- Work done on each of several units in turn: what it does to one unit (`Post`, from `Pre`) stands at the end, when the work on
one unit leaves `Pre` and `Post` of every other. -/
theorem foldl_settles {α β : Type} {f : β → α → β} {Pre Post : α → β → Prop} (hdo : ∀ i b, Pre i b → Post i (f b i))
    (hpre : ∀ i j b, i ≠ j → Pre i b → Pre i (f b j)) (hpost : ∀ i j b, i ≠ j → Post i b → Post i (f b j)) {l : List α}
    (hl : l.Nodup) {b : β} (hb : ∀ i ∈ l, Pre i b) : ∀ i ∈ l, Post i (l.foldl f b) := by
  have hkeep : ∀ (i : α) (m : List α), i ∉ m → ∀ c, Post i c → Post i (m.foldl f c) := by
    intro i m hi
    induction m with
    | nil => exact fun _ h => h
    | cons j m ih =>
      obtain ⟨hij, him⟩ := List.ne_and_not_mem_of_not_mem_cons hi
      exact fun c h => ih him _ (hpost i j c hij h)
  induction l generalizing b with
  | nil => exact fun _ h => nomatch h
  | cons j l ih =>
    obtain ⟨hj, hnd⟩ := List.nodup_cons.1 hl
    intro i hi
    rcases List.mem_cons.1 hi with rfl | him
    · exact hkeep i l hj _ (hdo i b (hb i (.head _)))
    · exact ih hnd (fun k hk => hpre k j b (fun h => hj (h ▸ hk)) (hb k (.tail _ hk))) i him

/-! ### The watchdog serviced in time (R474) and the state after reset (R508, R513) -/

/-- Settles O44, by what a watchdog serviced in time leaves: the record on which the step works. -/
theorem watchdogServiceCounts : Obligations.WatchdogServiceCounts := by
  unfold Obligations.WatchdogServiceCounts
  intro s die hd
  have hn : execWatchdogExpiry die true s = .next (s.run fun _ h => h) := s.onDie_next _ hd
  exact ⟨_, hn, rfl, rfl, rfl, (execWatchdogExpiry_within _ _ _ hn).sameMem⟩

/-- Settles O3, by the fields of the state after reset; every die of it is the reset die, no register and no byte of a block is
listed. -/
theorem resetLeavesTheBlockHeld : Obligations.ResetLeavesTheBlockHeld := by
  unfold Obligations.ResetLeavesTheBlockHeld
  refine ⟨rfl, fun m hm => List.eq_of_mem_replicate hm, rfl, rfl, rfl, rfl, rfl, fun D hD => ?dies, fun _ => rfl, fun _ _ => rfl⟩
  case dies =>
    obtain ⟨d, -, rfl⟩ := List.mem_map.mp hD
    exact ⟨rfl, fun q hq => by rw [List.eq_of_mem_replicate hq]⟩

end Sys2Proof.Machine
end

section
/-!
PROOFS. The time bases and their servos (R389 to R396): a change of time base 4 shows that the count of steps needs the bound on
the time base; what a first sample, an outlier, the end of a slew and a holdover leave in the servo.
-/
-- One proof after the other: the text is checked as one, and proofs side by side pass the check's memory.
set_option Elab.async false
namespace Sys2Proof.Machine
variable {s : State} {tb : Nat}

/-! ### A step of a time base that does not exist (R391) -/

/-- The lead die holds a step of time base 4, which no die has, and the count kept under that number stands at 2^32 - 1. -/
def stepOfNoTimeBase : State :=
  { State.reset with hw := (Hw.reset.wr 0 A.steps 4 (2 ^ 32 - 1)).onDie 0 fun D =>
      { D with tbChanges := [{ tb := 4, apply := 0, step := some 1, rate := none }] } }

/-- The count goes on to 2^32: the attribute table has no row for unit 4, so nothing bounds the counter's width. -/
theorem stepOfNoTimeBase_counts {t : State} (h : exec (.tbChangeApply 0) stepOfNoTimeBase = .next t) :
    t.hw.rd 0 A.steps 4 = 2 ^ 32 := by
  have hn : execTbChangeApply 0 stepOfNoTimeBase = .next (stepOfNoTimeBase.run _) := State.onDie_next _ _ (by decide)
  cases hn.symm.trans h
  decide

/-- Refutes O33: its step clause does not bound the time base. Time base 4 exists on no die, a change of it applied on the lead
die takes its count from 2^32 - 1 to 2^32, and the clause asks for 0. -/
theorem not_timeBaseRowsComplete : ¬ Obligations.TimeBaseRowsComplete := by
  unfold Obligations.TimeBaseRowsComplete
  rintro ⟨-, hstep, -⟩
  obtain ⟨t, hn, -, hcount, -⟩ := hstep stepOfNoTimeBase 0 _ [] 1 (by decide) rfl rfl rfl
  have h := stepOfNoTimeBase_counts hn
  have hbefore : stepOfNoTimeBase.hw.rd 0 A.steps 4 = 2 ^ 32 - 1 := by decide
  rw [h, hbefore] at hcount
  exact absurd hcount (by decide)

/-! ### The servo's record (R393 to R396) -/

@[simp] theorem Hw.servo_wr (h : Hw) (d : Nat) (a : AttrId) (i v k : Nat) : (h.wr d a i v).servo k = h.servo k := rfl
@[simp] theorem Hw.servo_tbRate (h : Hw) (b : Nat) (rate : Int) (k : Nat) : (h.tbRate b rate).servo k = h.servo k := rfl
@[simp] theorem Hw.servo_eventPkg (h : Hw) (d code : Nat) (data : List Byte) (k : Nat) :
    (h.eventPkg d code data).servo k = h.servo k := by simp [Hw.servo]

theorem Hw.servo_onServo_self (h : Hw) (f : Servo → Servo) (hk : tb < h.pkg.servos.length) :
    (h.onServo tb f).servo tb = f (h.servo tb) := by
  simp [Hw.servo, Hw.onServo, List.getD_eq_getElem?_getD, hk]

/-- A servo enters the state it is sent to, and keeps the rest of its record. -/
theorem Hw.servo_servoTo (h : Hw) (new : ServoState) (ns : Int) (hk : tb < h.pkg.servos.length) :
    (h.servoTo tb new ns).servo tb = { h.servo tb with st := new } := by
  unfold Hw.servoTo
  dsimp only
  split
  case isTrue hsame => rw [← hsame]
  case isFalse => simp [Hw.servo_onServo_self, hk]

/-- The attribute of a servo's state follows a change. -/
theorem Hw.rd_servoTo_state (h : Hw) {new : ServoState} (ns : Int) (hold : (h.servo tb).st ≠ new) :
    (h.servoTo tb new ns).rd 0 A.servo_state tb = new.code := by
  simp [Hw.servoTo, hold]

theorem Hw.servos_length_servoTo (h : Hw) (k : Nat) (new : ServoState) (ns : Int) :
    (h.servoTo k new ns).pkg.servos.length = h.pkg.servos.length := by
  unfold Hw.servoTo
  dsimp only
  split
  · rfl
  · simp [Hw.wr, Hw.wrk, Hw.onServo]

/-- A first sample is remembered with its time and takes the servo out of ACQUIRE. -/
theorem Hw.servo_firstSample (h : Hw) (theta : Int) (t : Nat) (hk : tb < h.pkg.servos.length) :
    ((h.firstSample tb theta t).servo tb).st ≠ .acquire ∧ ((h.firstSample tb theta t).servo tb).lastAt = some t := by
  unfold Hw.firstSample
  extract_lets ns big good i noted offset denied sl tracked
  have hlen : tb < offset.pkg.servos.length := by
    simpa [offset, noted, Hw.wrS, Hw.wr, Hw.wrk, Hw.onServo] using hk
  have hlast : (offset.servo tb).lastAt = some t := congrArg Servo.lastAt (h.servo_onServo_self _ hk)
  have htracked : tracked.servo tb = { offset.servo tb with st := .track } := by
    rw [Hw.servo_tbRate, Hw.servo_servoTo _ _ _ hlen]
  have htlen : tb < tracked.pkg.servos.length := hlen.trans_eq (Hw.servos_length_servoTo ..).symm
  split
  · split
    · rw [Hw.servo_servoTo _ _ _ (by exact hlen)]
      exact ⟨nofun, hlast⟩
    · rw [Hw.servo_tbRate, Hw.servo_servoTo _ _ _ (by simpa [denied] using hlen), Hw.servo_eventPkg]
      exact ⟨nofun, hlast⟩
  · split
    · rw [Hw.servo_servoTo _ _ _ htlen, htracked]
      exact ⟨nofun, hlast⟩
    · rw [htracked]
      exact ⟨nofun, hlast⟩

/-! ### A sample arrives (R393) -/

/-- A capture that gives a sample is taken: it is no longer fresh. -/
def Hw.sampled (h : Hw) (tb : Nat) : Hw :=
  if h.rd 0 A.tb_source tb = 3 then
    h.onDie h.leadDie fun D => { D with capFresh := D.capFresh.set (h.rd 0 A.tb_cap tb) false } else h

theorem Hw.sampled_only (h : Hw) (tb : Nat) : Hw.Only [] [.capFresh] [] h (h.sampled tb) := by
  refine .ite (fun _ => Hw.onDie_only _ _ _ _ fun D x hx => ?_) fun _ => .refl ..
  cases x
  case capFresh => exact absurd (by decide) hx
  all_goals rfl

section
variable {h : Hw} {gm t : Nat} {theta : Int}

theorem Hw.servoSample_of_acquire (hlead : h.lead ≠ none) (h1 : tb ≠ 1) (hsrc : h.rd 0 A.tb_source tb ≠ 1)
    (hq : (h.servo tb).st = .acquire) : h.servoSample tb gm theta t = (h.sampled tb).firstSample tb theta t := by
  have hlead' : (h.sampled tb).lead ≠ none := by rwa [(h.sampled_only tb).hw .lead (by decide)]
  have hsrc' : (h.sampled tb).rd 0 A.tb_source tb ≠ 1 := by rwa [(h.sampled_only tb).read A.tb_source (by decide)]
  unfold Hw.servoSample
  exact (if_neg (by rintro (hl | hl | hl); exacts [hlead' hl, h1 hl, hsrc' hl.1])).trans (by rw [hq]; rfl)

theorem Hw.servoSample_of_outlier (hlead : h.lead ≠ none) (h1 : tb ≠ 1) (hsrc : h.rd 0 A.tb_source tb ≠ 1)
    (hq : (h.servo tb).st = .track ∨ (h.servo tb).st = .locked) (hfar : (h.rd 0 A.outlier_ns tb * 1000 : Int) < theta.natAbs) :
    h.servoSample tb gm theta t = (h.sampled tb).outlier tb (theta / 1000) := by
  have hlead' : (h.sampled tb).lead ≠ none := by rwa [(h.sampled_only tb).hw .lead (by decide)]
  have hsrc' : (h.sampled tb).rd 0 A.tb_source tb ≠ 1 := by rwa [(h.sampled_only tb).read A.tb_source (by decide)]
  have hfar' : ((h.sampled tb).rd 0 A.outlier_ns tb * 1000 : Int) < theta.natAbs := by
    rwa [(h.sampled_only tb).read A.outlier_ns (by decide)]
  unfold Hw.servoSample
  refine (if_neg (by rintro (hl | hl | hl); exacts [hlead' hl, h1 hl, hsrc' hl.1])).trans ?_
  rcases hq with hq | hq
  · rw [hq]
    exact if_pos hfar'
  · rw [hq]
    exact if_pos hfar'

end

theorem outliers_width : ∀ k < 4, (attrRow? A.outliers.cls k A.outliers.id).map (·.width) = some 32 := by decide

/-- An outlier is counted (assumption log 6 for the count's wrap), whether or not it is the eighth in a row. -/
theorem Hw.rd_outlier_count (h : Hw) (ns : Int) (hk : tb < 4) :
    (h.outlier tb ns).rd 0 A.outliers tb = (h.rd 0 A.outliers tb + 1) % 2 ^ 32 := by
  have hcount := h.rd_add_wrap32 0 (outliers_width tb hk)
  unfold Hw.outlier
  extract_lets run counted
  split
  · rw [Hw.rd_tbRate, (Hw.servoTo_only ..).read A.outliers (by decide), (Hw.onServo_only ..).read A.outliers (by decide), hcount]
  · rw [(Hw.onServo_only ..).read A.outliers (by decide), hcount]

section
variable {gm tm : Nat} {theta : Int}

/-- SERVO_SAMPLE in ACQUIRE: the first sample. -/
theorem execServoSample_first (hd : s.hw.leadDie < s.hw.dies.length) (hk : tb < 4) (hlead : s.hw.lead ≠ none) (h1 : tb ≠ 1)
    (hsrc : s.hw.rd 0 A.tb_source tb ≠ 1) (hlen : tb < s.hw.pkg.servos.length) (hq : (s.hw.servo tb).st = .acquire) :
    ∃ t, execServoSample tb gm theta tm s = .next t ∧ s.SameMem t ∧ t.hw.rd 0 A.offset_ns tb = ofSigned 32 (theta / 1000) ∧
      (t.hw.servo tb).st ≠ .acquire ∧ (t.hw.servo tb).lastAt = some tm := by
  have hn : execServoSample tb gm theta tm s = .next (s.run _) := s.onUnit_next _ hd hk
  have K : Hw.Only [] [.tbs] [.clk] s.begun (s.begun.until s.begun.leadDie tm) := Hw.until_only ..
  have hpkg : (s.begun.until s.begun.leadDie tm).pkg = s.hw.pkg := K.hw .pkg (by decide)
  have hwork := Hw.servoSample_of_acquire (gm := gm) (theta := theta) (t := tm)
    (by rwa [K.hw .lead (by decide)]) h1 (by rwa [K.read A.tb_source (by decide)]) (by rwa [Hw.servo, hpkg])
  have hlen' : tb < ((s.begun.until s.begun.leadDie tm).sampled tb).pkg.servos.length := by
    rwa [(Hw.sampled_only ..).hw .pkg (by decide), hpkg]
  refine ⟨_, hn, (execServoSample_within _ _ _ _ _ hn).sameMem, ?_⟩
  rw [State.run_rd, hwork, Hw.servo, State.run_pkg, hwork]
  exact ⟨Hw.rd_firstSample_offset .., Hw.servo_firstSample _ theta tm hlen'⟩

/-- SERVO_SAMPLE of an outlier in TRACK or LOCKED. -/
theorem execServoSample_outlier (hd : s.hw.leadDie < s.hw.dies.length) (hk : tb < 4) (hlead : s.hw.lead ≠ none) (h1 : tb ≠ 1)
    (hsrc : s.hw.rd 0 A.tb_source tb ≠ 1) (hq : (s.hw.servo tb).st = .track ∨ (s.hw.servo tb).st = .locked)
    (hfar : (s.hw.rd 0 A.outlier_ns tb * 1000 : Int) < theta.natAbs) :
    ∃ t, execServoSample tb gm theta tm s = .next t ∧ s.SameMem t ∧
      t.hw.rd 0 A.outliers tb = (s.hw.rd 0 A.outliers tb + 1) % 2 ^ 32 ∧ t.hw.rd 0 A.offset_ns tb = s.hw.rd 0 A.offset_ns tb := by
  have hn : execServoSample tb gm theta tm s = .next (s.run _) := s.onUnit_next _ hd hk
  have K : Hw.Only [] [.tbs] [.clk] s.begun (s.begun.until s.begun.leadDie tm) := Hw.until_only ..
  have hwork := Hw.servoSample_of_outlier (gm := gm) (t := tm)
    (by rwa [K.hw .lead (by decide)]) h1 (by rwa [K.read A.tb_source (by decide)])
    (by rwa [Hw.servo, K.hw .pkg (by decide)]) (by rwa [K.read A.outlier_ns (by decide)])
  refine ⟨_, hn, (execServoSample_within _ _ _ _ _ hn).sameMem, ?_, ?_⟩
  · rw [State.run_rd, hwork, Hw.rd_outlier_count _ _ hk, (Hw.sampled_only ..).read A.outliers (by decide),
      K.read A.outliers (by decide), State.rd_begun]
  · rw [State.run_rd, hwork, (Hw.outlier_only ..).read A.offset_ns (by decide), (Hw.sampled_only ..).read A.offset_ns (by decide),
      K.read A.offset_ns (by decide), State.rd_begun]

end

/-! ### The end of a slew and the holdover (R394, R396) -/

/-- SLEW_END: the servo waits for its next first sample. -/
theorem execSlewEnd_acquires (hd : s.hw.leadDie < s.hw.dies.length) (hk : tb < 4) (hq : (s.hw.servo tb).st = .slew)
    (hlead : s.hw.lead.isSome) :
    ∃ t, execSlewEnd tb s = .next t ∧ s.SameMem t ∧ t.hw.rd 0 A.servo_state tb = ServoState.code .acquire := by
  have hn : execSlewEnd tb s = .next (s.run _) := s.onUnit_next _ hd hk
  have hq' : (s.begun.servo tb).st = .slew := hq
  refine ⟨_, hn, (execSlewEnd_within _ _ hn).sameMem, ?_⟩
  rw [State.run_rd, if_pos ⟨hq', hlead⟩]
  exact Hw.rd_servoTo_state _ _ (by rw [Hw.servo_tbRate, hq']; decide)

/-- HOLDOVER shows with the TB1 at which it began. -/
theorem Hw.rd_enterHoldover (h : Hw) (hold : (h.servo tb).st ≠ .holdover) :
    (h.enterHoldover tb).rd 0 A.servo_state tb = ServoState.code .holdover ∧
      (h.enterHoldover tb).rd 0 A.holdover_tb1 tb = h.tb h.leadDie 1 := by
  unfold Hw.enterHoldover
  extract_lets shown
  constructor
  · rw [Hw.rd_tbRate, (Hw.onServo_only ..).read A.servo_state (by decide), Hw.rd_wr_ne _ (by decide), Hw.rd_servoTo_state _ _ hold]
  · rw [Hw.rd_tbRate, (Hw.onServo_only ..).read A.holdover_tb1 (by decide), Hw.rd_wr_self]

/-- HOLDOVER_TIMEOUT in TRACK or LOCKED. -/
theorem execHoldoverTimeout_holds (hd : s.hw.leadDie < s.hw.dies.length) (hk : tb < 4)
    (hq : (s.hw.servo tb).st = .track ∨ (s.hw.servo tb).st = .locked) :
    ∃ t, execHoldoverTimeout tb s = .next t ∧ s.SameMem t ∧ t.hw.rd 0 A.servo_state tb = ServoState.code .holdover ∧
      t.hw.rd 0 A.holdover_tb1 tb = s.hw.tb s.hw.leadDie 1 := by
  have hn : execHoldoverTimeout tb s = .next (s.run _) := s.onUnit_next _ hd hk
  have hq' : (s.begun.servo tb).st = .track ∨ (s.begun.servo tb).st = .locked := hq
  have hold : (s.begun.servo tb).st ≠ .holdover := by rcases hq' with h | h <;> rw [h] <;> decide
  refine ⟨_, hn, (execHoldoverTimeout_within _ _ hn).sameMem, ?_⟩
  rw [State.run_rd, State.run_rd, if_pos hq']
  exact s.begun.rd_enterHoldover hold

/-- Settles O34, by what each of the servo's four changes leaves. -/
theorem servoRowsComplete : Obligations.ServoRowsComplete := by
  unfold Obligations.ServoRowsComplete
  exact ⟨fun _ _ _ _ _ hd hk hlead h1 hsrc hlen hq => execServoSample_first hd hk hlead h1 hsrc hlen hq,
    fun _ _ _ _ _ hd hk hlead h1 hsrc hq hfar => execServoSample_outlier hd hk hlead h1 hsrc hq hfar,
    fun _ _ hd hk hq hlead => execSlewEnd_acquires hd hk hq hlead, fun _ _ hd hk hq => execHoldoverTimeout_holds hd hk hq⟩

end Sys2Proof.Machine
end

section
/-!
PROOFS. Network time (R397, R399): what a message, the loss of the announced master and an interval of a port leave in the port's
counts, its record and the messages sent.
-/
-- One proof after the other: the text is checked as one, and proofs side by side pass the check's memory.
set_option Elab.async false
namespace Sys2Proof.Machine
variable {s : State} {die port : Nat}

/-! ### The port's record and counts -/

@[simp] theorem Hw.rd_onPtp (h : Hw) (d p : Nat) (f : PtpPort → PtpPort) (e : Nat) (a : AttrId) (i : Nat) :
    (h.onPtp d p f).rd e a i = h.rd e a i := rfl

theorem Hw.ptpPort_onPtp_self (h : Hw) (f : PtpPort → PtpPort) (hd : die < h.dies.length) (hp : port < (h.die die).ptp.length) :
    (h.onPtp die port f).ptpPort die port = f (h.ptpPort die port) := by
  unfold Hw.ptpPort Hw.onPtp
  rw [h.die_onDie_self _ hd]
  simp [List.getD_eq_getElem?_getD, hp]

theorem ptp_rx_width : ∀ p < 2, (attrRow? A.ptp_rx.cls p A.ptp_rx.id).map (·.width) = some 32 := by decide
theorem ptp_tx_width : ∀ p < 2, (attrRow? A.ptp_tx.cls p A.ptp_tx.id).map (·.width) = some 32 := by decide
theorem ptp_bad_width : ∀ p < 2, (attrRow? A.ptp_bad.cls p A.ptp_bad.id).map (·.width) = some 32 := by decide

/-- Whatever follows from a message leaves the count of messages received. -/
@[simp] theorem Hw.rd_bmca_rx (h : Hw) (tb e i : Nat) : (h.bmca tb).rd e A.ptp_rx i = h.rd e A.ptp_rx i :=
  (h.bmca_only tb).read A.ptp_rx (by decide) e i
@[simp] theorem Hw.rd_ptpOffset_rx (h : Hw) (d p : Nat) (rx o : Int) (e i : Nat) :
    (h.ptpOffset d p rx o).rd e A.ptp_rx i = h.rd e A.ptp_rx i := (h.ptpOffset_only d p rx o).read A.ptp_rx (by decide) e i
@[simp] theorem Hw.rd_ptpDelay_rx (h : Hw) (d p : Nat) (x : Int) (e i : Nat) :
    (h.ptpDelay d p x).rd e A.ptp_rx i = h.rd e A.ptp_rx i := (h.ptpDelay_only d p x).read A.ptp_rx (by decide) e i

/-- A message that an enabled port takes is counted, whatever its role makes of it (assumption log 6 for the count's wrap). -/
theorem Hw.rd_ptpMessage_rx (h : Hw) {m : PtpMsg} (hp : port < 2) (hen : h.rd die A.ptp_enable port ≠ 0) (hm : m ≠ .other)
    (hreq : ∀ a b, m ≠ .requestSent a b) :
    (h.ptpMessage die port m).rd die A.ptp_rx port = (h.rd die A.ptp_rx port + 1) % 2 ^ 32 := by
  rw [← h.rd_add_wrap32 die (ptp_rx_width port hp)]
  unfold Hw.ptpMessage
  dsimp only
  rw [if_neg hen]
  cases m with
  | other => exact absurd rfl hm
  | requestSent a b => exact absurd rfl (hreq a b)
  | announce q gm rank utc =>
    dsimp only
    split
    · rfl
    · simp
  | sync q seq rx origin =>
    dsimp only
    split
    · cases origin with
      | none =>
        dsimp only
        split <;> simp
      | some o =>
        dsimp only
        split <;> simp
    · rfl
  | followUp q seq o =>
    dsimp only
    split
    · split <;> simp
    · rfl
  | delayReq q seq rx =>
    dsimp only
    split <;> simp
  | delayResp q seq rx =>
    dsimp only
    split
    · split <;> simp
    · rfl
  | pdelayReq q seq rx =>
    dsimp only
    split <;> simp
  | pdelayResp q seq t2 t3 t4 =>
    dsimp only
    split
    · split <;> simp
    · rfl

/-- The offset of a port that is a slave already. -/
theorem Hw.rd_ptpOffset (h : Hw) (rx o : Int) (hst : h.rd die A.port_state port = 9) :
    (h.ptpOffset die port rx o).rd die A.port_offset_ns port =
      ofSigned 32 ((rx - o - h.rd die A.mean_delay_ps port - h.rdS die A.asym_ps port 32) / 1000) := by
  unfold Hw.ptpOffset
  dsimp only
  rw [if_neg (by rw [Hw.rd_wrS_ne _ (by decide), hst]; decide), Hw.rd_wrS_self]

/-- A Sync that carries its origin, from the parent of a slave port, gives the offset (R399). -/
theorem Hw.rd_ptpMessage_sync (h : Hw) {sq : Nat} {rx o : Int} (hen : h.rd die A.ptp_enable port ≠ 0)
    (hst : h.rd die A.port_state port = 9) :
    (h.ptpMessage die port (.sync (h.ptpPort die port).parent sq rx (some o))).rd die A.port_offset_ns port = ofSigned 32
      ((rx - h.rdS die A.rx_lat_ps port 32 - o - h.rd die A.mean_delay_ps port - h.rdS die A.asym_ps port 32) / 1000) := by
  have key (k : Hw) (f : PtpPort → PtpPort) (K : Hw.Only [A.ptp_rx.code, A.ts_missing.code] [] [] h k) :
      ((k.ptpOffset die port (k.rxTime die port rx) o).onPtp die port f).rd die A.port_offset_ns port = ofSigned 32
        ((rx - h.rdS die A.rx_lat_ps port 32 - o - h.rd die A.mean_delay_ps port - h.rdS die A.asym_ps port 32) / 1000) := by
    rw [Hw.rd_onPtp, Hw.rd_ptpOffset _ _ _ (by rwa [K.read A.port_state (by decide)]), Hw.rxTime, Hw.rdS_eq, Hw.rdS_eq,
      K.read A.rx_lat_ps (by decide), K.read A.mean_delay_ps (by decide), K.read A.asym_ps (by decide)]
    rfl
  unfold Hw.ptpMessage
  dsimp only
  rw [if_neg hen, if_pos ⟨.inr hst, rfl⟩]
  exact key _ _ (.step_if ((h.add_only die A.ptp_rx port 1).mono (by decide)) (Hw.add_only die A.ts_missing port 1 _) (by decide))

/-! ### A message (R397) -/

section
variable (hd : die < s.hw.dies.length) (hp : port < 2) (hen : s.hw.rd die A.ptp_enable port ≠ 0)
include hd hp hen

theorem execPtpMessage_received {msg : PtpMsg} (hm : msg ≠ .other) (hreq : ∀ a b, msg ≠ .requestSent a b) :
    ∃ t, execPtpMessage die port msg s = .next t ∧ s.SameMem t ∧
      t.hw.rd die A.ptp_rx port = (s.hw.rd die A.ptp_rx port + 1) % 2 ^ 32 := by
  have hn : execPtpMessage die port msg s = .next (s.run _) := s.onUnit_next _ hd hp
  refine ⟨_, hn, (execPtpMessage_within _ _ _ _ hn).sameMem, ?_⟩
  rw [State.run_rd, s.begun.rd_ptpMessage_rx hp hen hm hreq, State.rd_begun]

theorem execPtpMessage_other :
    ∃ t, execPtpMessage die port .other s = .next t ∧ s.SameMem t ∧
      t.hw.rd die A.ptp_bad port = (s.hw.rd die A.ptp_bad port + 1) % 2 ^ 32 := by
  have hn : execPtpMessage die port .other s = .next (s.run _) := s.onUnit_next _ hd hp
  refine ⟨_, hn, (execPtpMessage_within _ _ _ _ hn).sameMem, ?_⟩
  have hwork : s.begun.ptpMessage die port .other = s.begun.add die A.ptp_bad port := if_neg hen
  rw [State.run_rd, hwork, Hw.rd_add_wrap32 _ _ (ptp_bad_width port hp), State.rd_begun]

theorem execPtpMessage_requestSent {sq : Nat} {tx : Int} (hlen : port < (s.hw.die die).ptp.length) :
    ∃ t, execPtpMessage die port (.requestSent sq tx) s = .next t ∧ s.SameMem t ∧
      (t.hw.ptpPort die port).t3 = some (tx + s.hw.rdS die A.tx_lat_ps port 32) ∧ (t.hw.ptpPort die port).reqSeq = sq := by
  have hn : execPtpMessage die port (.requestSent sq tx) s = .next (s.run _) := s.onUnit_next _ hd hp
  refine ⟨_, hn, (execPtpMessage_within _ _ _ _ hn).sameMem, ?_⟩
  have hwork : s.begun.ptpMessage die port (.requestSent sq tx) =
      s.begun.onPtp die port fun P => { P with reqSeq := sq, t3 := some (s.begun.txTime die port tx) } := if_neg hen
  rw [Hw.ptpPort, State.run_die, hwork, ← Hw.ptpPort, s.begun.ptpPort_onPtp_self _ hd hlen]
  exact ⟨rfl, rfl⟩

theorem execPtpMessage_sync {sq : Nat} {rx o : Int} (hst : s.hw.rd die A.port_state port = 9) :
    ∃ t, execPtpMessage die port (.sync (s.hw.ptpPort die port).parent sq rx (some o)) s = .next t ∧ s.SameMem t ∧
      t.hw.rd die A.port_offset_ns port = ofSigned 32
        ((rx - s.hw.rdS die A.rx_lat_ps port 32 - o - s.hw.rd die A.mean_delay_ps port - s.hw.rdS die A.asym_ps port 32) / 1000) := by
  have hn : execPtpMessage die port (.sync (s.hw.ptpPort die port).parent sq rx (some o)) s = .next (s.run _) :=
    s.onUnit_next _ hd hp
  refine ⟨_, hn, (execPtpMessage_within _ _ _ _ hn).sameMem, ?_⟩
  rw [State.run_rd]
  exact s.begun.rd_ptpMessage_sync hen hst

/-- A port that serves answers a Delay_Req with a Delay_Resp (message type 9). -/
theorem execPtpMessage_delayReq {a b : Nat} {rx : Int} (hst : s.hw.rd die A.port_state port = 6) :
    ∃ t, execPtpMessage die port (.delayReq a b rx) s = .next t ∧ s.SameMem t ∧ t.hw.out = [.ptp die port 9] ∧
      t.hw.rd die A.ptp_tx port = (s.hw.rd die A.ptp_tx port + 1) % 2 ^ 32 := by
  have hn : execPtpMessage die port (.delayReq a b rx) s = .next (s.run _) := s.onUnit_next _ hd hp
  refine ⟨_, hn, (execPtpMessage_within _ _ _ _ hn).sameMem, ?_⟩
  have hwork : s.begun.ptpMessage die port (.delayReq a b rx) =
      ((s.begun.add die A.ptp_rx port).emit (.ptp die port 9)).add die A.ptp_tx port := (if_neg hen).trans (if_pos hst)
  rw [State.run_out, State.run_rd, hwork, Hw.rd_add_wrap32 _ _ (ptp_tx_width port hp), Hw.rd_emit, Hw.rd_add_ne _ (by decide),
    State.rd_begun]
  exact ⟨rfl, rfl⟩

/-! ### The loss of the announced master, and a port's intervals (R397) -/

theorem execAnnounceTimeout_forgets (hlen : port < (s.hw.die die).ptp.length) :
    ∃ t, execAnnounceTimeout die port s = .next t ∧ s.SameMem t ∧ (t.hw.ptpPort die port).heard = false := by
  have hn : execAnnounceTimeout die port s = .next (s.run _) := s.onUnit_next _ hd hp
  refine ⟨_, hn, (execAnnounceTimeout_within _ _ _ hn).sameMem, ?_⟩
  rw [Hw.ptpPort, State.run_die, if_neg (by exact hen), (Hw.bmca_only ..).die _ .ptp (by decide), ← Hw.ptpPort,
    s.begun.ptpPort_onPtp_self _ hd hlen]

/-- A master sends its Sync, and with two steps the Follow_Up (message type 8) after it. -/
theorem execPtpMessageInterval_sync (hst : s.hw.rd die A.port_state port = 6) :
    ∃ t, execPtpMessageInterval die port 0 s = .next t ∧ s.SameMem t ∧
      t.hw.out = if s.hw.rd die A.one_step port = 0 then [.ptp die port 0, .ptp die port 8] else [.ptp die port 0] := by
  have hn : execPtpMessageInterval die port 0 s = .next (s.run _) := s.onUnit_next _ hd hp
  refine ⟨_, hn, (execPtpMessageInterval_within _ _ _ _ hn).sameMem, ?_⟩
  rw [State.run_out]
  dsimp only
  rw [if_neg (by exact hen), if_pos rfl, if_pos (by exact hst), Hw.rd_add_ne _ (by decide), Hw.rd_emit, State.rd_begun]
  split <;> rfl

/-- A master sends its Announce (message type 11). -/
theorem execPtpMessageInterval_announce (hst : s.hw.rd die A.port_state port = 6) :
    ∃ t, execPtpMessageInterval die port 1 s = .next t ∧ s.SameMem t ∧ t.hw.out = [.ptp die port 11] ∧
      t.hw.rd die A.ptp_tx port = (s.hw.rd die A.ptp_tx port + 1) % 2 ^ 32 := by
  have hn : execPtpMessageInterval die port 1 s = .next (s.run _) := s.onUnit_next _ hd hp
  refine ⟨_, hn, (execPtpMessageInterval_within _ _ _ _ hn).sameMem, ?_⟩
  rw [State.run_out, State.run_rd]
  dsimp only
  rw [if_neg (by exact hen), if_neg (by decide), if_pos rfl, if_pos (by exact hst), Hw.rd_add_wrap32 _ _ (ptp_tx_width port hp),
    Hw.rd_emit, State.rd_begun]
  exact ⟨rfl, rfl⟩

/-- A slave, or any port with the peer's mechanism, asks for the delay; an unanswered request before it is only counted. -/
theorem execPtpMessageInterval_request
    (hask : s.hw.rd die A.delay_mech port = 1 ∨ s.hw.rd die A.port_state port = 8 ∨ s.hw.rd die A.port_state port = 9) :
    ∃ t, execPtpMessageInterval die port 2 s = .next t ∧ s.SameMem t ∧
      (t.hw.out = if s.hw.rd die A.delay_mech port = 1 then [.ptp die port 2] else [.ptp die port 1]) ∧
      t.hw.rd die A.ptp_tx port = (s.hw.rd die A.ptp_tx port + 1) % 2 ^ 32 := by
  have hn : execPtpMessageInterval die port 2 s = .next (s.run _) := s.onUnit_next _ hd hp
  refine ⟨_, hn, (execPtpMessageInterval_within _ _ _ _ hn).sameMem, ?_⟩
  rw [State.run_out, State.run_rd]
  extract_lets st send synced late
  have K : Hw.Only [A.ts_missing.code] [] [] s.begun late :=
    .ite (fun _ => Hw.add_only die A.ts_missing port 1 _) fun _ => .refl ..
  have htx : late.rd die A.ptp_tx port = s.hw.rd die A.ptp_tx port := K.read A.ptp_tx (by decide) ..
  have hout : late.out = [] := K.hw .out (by decide)
  rw [if_neg (by exact hen), if_neg (by decide), if_neg (by decide), if_pos (by exact hask)]
  refine ⟨?_, ?_⟩
  · rw [K.read A.delay_mech (by decide), State.rd_begun]
    split
    · exact congrArg (· ++ [Output.ptp die port 2]) hout
    · exact congrArg (· ++ [Output.ptp die port 1]) hout
  · rw [Hw.rd_add_wrap32 _ _ (ptp_tx_width port hp), Hw.rd_emit, Hw.rd_onPtp, htx]

end

/-- Settles O35, by what each message, a timeout and each kind of interval leave in the port. -/
theorem ptpRowsComplete : Obligations.PtpRowsComplete := by
  unfold Obligations.PtpRowsComplete
  exact ⟨fun _ _ _ _ hd hp hen hm hreq => execPtpMessage_received hd hp hen hm hreq,
    fun _ _ _ hd hp hen => execPtpMessage_other hd hp hen,
    fun _ _ _ _ _ hd hp hen hlen => execPtpMessage_requestSent hd hp hen hlen,
    fun _ _ _ _ _ _ hd hp hen hst => execPtpMessage_sync hd hp hen hst,
    fun _ _ _ _ _ _ hd hp hen hst => execPtpMessage_delayReq hd hp hen hst,
    fun _ _ _ hd hp hen hlen => execAnnounceTimeout_forgets hd hp hen hlen,
    fun _ _ _ hd hp hen hst => execPtpMessageInterval_sync hd hp hen hst,
    fun _ _ _ hd hp hen hst => execPtpMessageInterval_announce hd hp hen hst,
    fun _ _ _ hd hp hen hask => execPtpMessageInterval_request hd hp hen hask⟩

end Sys2Proof.Machine
end

section
/-!
PROOFS. The lead die, the Kennel and the takeover (R473, R475 to R479, R481, R483, R488): what a management processor that stops,
a checkpoint, a takeover and a repair leave.
-/
-- One proof after the other: the text is checked as one, and proofs side by side pass the check's memory.
set_option Elab.async false
namespace Sys2Proof.Machine
variable {s : State} {die : Nat}

/-! ### The fault mask, the lead states and the mode -/

theorem Hw.faultMask_setFault_on (h : Hw) (d : Nat) : (h.setFault d true).faultMask.testBit d = true := by
  simp [Hw.setFault]

theorem Hw.faultMask_setFault_off (h : Hw) {d : Nat} (hd : d < 8) : (h.setFault d false).faultMask.testBit d = false := by
  have hclear : ∀ e < 8, (255 - 2 ^ e).testBit e = false := by decide
  simp [Hw.setFault, hclear d hd]

theorem Hw.ldState_setLd (h : Hw) {d : Nat} (x : LeadSt) (hd : d < h.leadSt.length) : (h.setLd d x).ldState d = x := by
  simp [Hw.ldState, Hw.setLd, Hw.wr, Hw.wrk, List.getD_eq_getElem?_getD, hd]

theorem Hw.mode_modeTo (h : Hw) (m : Mode) : (h.modeTo m).mode = m := by
  unfold Hw.modeTo
  split
  · assumption
  · exact Hw.eventPkg_mode ..

/-! ### A management processor that stops (R473) -/

section
variable {cause : Nat} (hc : cause ≠ 5)
include hc

/-- A release for a fault: the role is vacant and the die shows in the fault mask. -/
theorem Hw.leadRelease_fault (h : Hw) (d : Nat) :
    (h.leadRelease d cause).lead = none ∧ (h.leadRelease d cause).faultMask.testBit d = true := by
  unfold Hw.leadRelease
  extract_lets vacant set faulted
  have hf : faulted = set.setFault d true := if_neg hc
  have hset : set.lead = none := ((Hw.setCause_only ..).hw .lead (by decide)).trans ((Hw.setLd_only ..).hw .lead (by decide))
  rw [Hw.event_lead, Hw.event_faultMask, hf]
  exact ⟨hset, Hw.faultMask_setFault_on ..⟩

omit hc in
theorem Hw.kennelWriting_leadRelease (h : Hw) (d : Nat) : (h.leadRelease d cause).kennelWriting = none := by
  unfold Hw.leadRelease
  extract_lets vacant set faulted
  have hset : set.kennelWriting = none :=
    ((Hw.setCause_only ..).hw .kennelWriting (by decide)).trans ((Hw.setLd_only ..).hw .kennelWriting (by decide))
  have hf : faulted.kennelWriting = none := by
    unfold faulted
    split
    · exact hset
    · exact hset
  exact ((Hw.event_only ..).hw .kennelWriting (by decide)).trans hf

/-- Whichever part the die has, it is down and shows in the fault mask; only its own lead role becomes vacant. -/
theorem Hw.mgmtStop_stops (h : Hw) (hd : die < h.dies.length) :
    ((h.mgmtStop die cause).die die).up = false ∧ (h.mgmtStop die cause).faultMask.testBit die = true ∧
      (h.mgmtStop die cause).lead = if h.lead = some die then none else h.lead := by
  unfold Hw.mgmtStop
  extract_lets down faulted
  have hup : (down.die die).up = false := by rw [Hw.die_onDie_self _ _ hd]
  split
  case isTrue hlead =>
    obtain ⟨hnone, hmask⟩ := down.leadRelease_fault hc die
    exact ⟨((Hw.leadRelease_only ..).die _ .up (by decide)).trans hup, hmask, hnone.trans (if_pos hlead).symm⟩
  case isFalse hlead =>
    have hkeep : h.lead = if h.lead = some die then none else h.lead := (if_neg hlead).symm
    have hmask : faulted.faultMask.testBit die = true := Hw.faultMask_setFault_on ..
    split
    · have K : Hw.Only [A.ld_states.code, A.ld_causes.code] [] [.leadSt] faulted ((faulted.setLd die .faulted).setCause die cause) :=
        ((Hw.setLd_only ..).mono (by decide)).step (Hw.setCause_only ..) (by decide)
      refine ⟨(K.die _ .up (by decide)).trans hup, ?_, (K.hw .lead (by decide)).trans hkeep⟩
      rwa [K.hw .faultMask (by decide)]
    · exact ⟨hup, hmask, hkeep⟩

end

theorem execWatchdogExpiry_stops (hd : die < s.hw.dies.length) :
    ∃ t, execWatchdogExpiry die false s = .next t ∧ s.SameMem t ∧ (t.hw.die die).up = false ∧
      t.hw.faultMask.testBit die = true ∧ t.hw.lead = if s.hw.lead = some die then none else s.hw.lead := by
  have hn : execWatchdogExpiry die false s = .next (s.run _) := s.onDie_next _ hd
  refine ⟨_, hn, (execWatchdogExpiry_within _ _ _ hn).sameMem, ?_⟩
  exact s.begun.mgmtStop_stops (by decide) hd

theorem execSramEccError_stops (hd : die < s.hw.dies.length) :
    ∃ t, execSramEccError die s = .next t ∧ s.SameMem t ∧ (t.hw.die die).up = false ∧
      t.hw.faultMask.testBit die = true ∧ t.hw.lead = if s.hw.lead = some die then none else s.hw.lead := by
  have hn : execSramEccError die s = .next (s.run _) := s.onDie_next _ hd
  refine ⟨_, hn, (execSramEccError_within _ _ hn).sameMem, ?_⟩
  exact s.begun.mgmtStop_stops (by decide) hd

/-- MGMT_POWER_LOSS: the domain's bit (bit 1 of `pd_on`) goes too. -/
theorem execMgmtPowerLoss_stops (hd : die < s.hw.dies.length) :
    ∃ t, execMgmtPowerLoss die s = .next t ∧ s.SameMem t ∧ (t.hw.die die).up = false ∧
      t.hw.faultMask.testBit die = true ∧ (t.hw.lead = if s.hw.lead = some die then none else s.hw.lead) ∧
      t.hw.rd die A.pd_on 0 = s.hw.rd die A.pd_on 0 &&& 0xFD := by
  have hn : execMgmtPowerLoss die s = .next (s.run _) := s.onDie_next _ hd
  obtain ⟨hup, hmask, hlead⟩ :=
    (s.begun.wr die A.pd_on 0 (s.begun.rd die A.pd_on 0 &&& 0xFD)).mgmtStop_stops (cause := 4) (by decide) hd
  refine ⟨_, hn, (execMgmtPowerLoss_within _ _ hn).sameMem, hup, hmask, hlead, ?_⟩
  rw [State.run_rd, (Hw.mgmtStop_only ..).read A.pd_on (by decide), Hw.rd_wr_self, State.rd_begun]

/-! ### Checkpoints (R477 to R479) -/

theorem kennel_late_width : (attrRow? A.kennel_late.cls 0 A.kennel_late.id).map (·.width) = some 32 := by decide
theorem kennel_errs_width : (attrRow? A.kennel_errs.cls 0 A.kennel_errs.id).map (·.width) = some 32 := by decide

section
variable (hlead : s.hw.lead ≠ none) (hmode : s.hw.mode ≠ .boot)
include hlead hmode

/-- A checkpoint that is due begins when none is under way and package NV may be written. -/
theorem execKennelCheckpoint_begins (hidle : s.hw.kennelWriting = none) (hnv : s.hw.nvOk = true) :
    ∃ t, execKennelCheckpoint s = .next t ∧ s.SameMem t ∧ t.hw.kennelWriting.isSome := by
  have hn : execKennelCheckpoint s = .next (s.run _) := s.onPkg_next _
  have K := s.begun.kennelAge_only
  have hwr : s.begun.kennelAge.kennelWriting = none := (K.hw .kennelWriting (by decide)).trans hidle
  have hok : s.begun.kennelAge.nvOk = true := by
    rw [Hw.nvOk, Hw.leadDie, K.hw .lead (by decide), K.read A.nv_write_ok (by decide)]
    exact hnv
  refine ⟨_, hn, (execKennelCheckpoint_within _ hn).sameMem, ?_⟩
  rw [State.run_kennelWriting, if_neg (by exact not_or.2 ⟨hlead, hmode⟩)]
  dsimp only
  rw [if_neg (by simp [hwr]), if_pos hok]
  rfl

/-- A checkpoint that is due while one is under way is counted as late (assumption log 6 for the count's wrap). -/
theorem execKennelCheckpoint_late (hbusy : s.hw.kennelWriting.isSome) :
    ∃ t, execKennelCheckpoint s = .next t ∧ s.SameMem t ∧
      t.hw.rd 0 A.kennel_late 0 = (s.hw.rd 0 A.kennel_late 0 + 1) % 2 ^ 32 := by
  have hn : execKennelCheckpoint s = .next (s.run _) := s.onPkg_next _
  have K := s.begun.kennelAge_only
  have hwr : s.begun.kennelAge.kennelWriting.isSome := by rwa [K.hw .kennelWriting (by decide)]
  refine ⟨_, hn, (execKennelCheckpoint_within _ hn).sameMem, ?_⟩
  rw [State.run_rd, if_neg (by exact not_or.2 ⟨hlead, hmode⟩)]
  dsimp only
  rw [if_pos hwr, Hw.rd_add_wrap32 _ _ kennel_late_width, K.read A.kennel_late (by decide), State.rd_begun]

end

/-- The command that waits for the checkpoint, if there is one, is settled. -/
def Hw.ckptEnd (h : Hw) (fate : Nat) : Hw :=
  match h.ckptWork with
  | some id => ({ h with ckptWork := none }).settle id fate
  | none => h

theorem Hw.ckptEnd_only (h : Hw) (fate : Nat) : Hw.Only [] [.mbx] [.ckptWork, .pkg] h (h.ckptEnd fate) := by
  unfold Hw.ckptEnd
  split
  · exact ((Hw.with_ckptWork h none).mono (by decide)).step (Hw.settle_only ..) (by decide)
  · exact .refl ..

theorem Hw.ckptWork_ckptEnd (h : Hw) (fate : Nat) : (h.ckptEnd fate).ckptWork = none := by
  unfold Hw.ckptEnd
  split
  · exact (Hw.settle_only ..).hw .ckptWork (by decide)
  · assumption

/-- The package after a checkpoint was read back well. -/
def Hw.kennelKept (h : Hw) (slot : Nat) (c : KennelSlot) : Hw :=
  let h := { h with kennelWriting := none, kennel := h.kennel.set slot c, kennelFailRun := 0, kennelAt := h.clk,
                    kennelLateSeen := false }
  (((h.wr 0 A.kennel_seq 0 c.seq).wr 0 A.kennel_tb0 0 c.tb0).wr 0 A.kennel_bytes 0 c.length).wr 0 A.kennel_age_ms 0 0

/-- The package after a checkpoint that was not read back well: the error counted and recorded. -/
def Hw.kennelLost (h : Hw) (slot d : Nat) (c : KennelSlot) : Hw :=
  (({ h with kennelWriting := none }).add 0 A.kennel_errs 0).eventPkg d Ev.kennelWriteErr (leBytes 1 slot ++ leBytes 8 c.seq)

/-- The failure counted; the second in a row, or one during a move, releases the lead role (R478). -/
def Hw.kennelFailed (h : Hw) (d : Nat) : Hw :=
  let h := { h with kennelFailRun := h.kennelFailRun + 1 }
  if h.kennelFailRun = 2 ∨ h.moving.isSome then ({ h with kennelFailRun := 0 }).leadRelease d 3 else h

theorem Hw.kennelFailed_only (h : Hw) (d : Nat) :
    Hw.Only [0x1f, 0x1e0002, 0x1e0003] [.front, .buckets, .folded]
      [.lead, .leadSt, .takeover, .kennelWriting, .faultMask, .kennelFailRun] h (h.kennelFailed d) := by
  have K1 := Hw.with_kennelFailRun h (h.kennelFailRun + 1)
  have K2 := Hw.with_kennelFailRun { h with kennelFailRun := h.kennelFailRun + 1 } 0
  exact .ite (fun _ => ((K1.trans K2).mono (by decide)).step (Hw.leadRelease_only ..) (by decide)) fun _ => K1.mono (by decide)

theorem Hw.kennelWriting_kennelFailed (h : Hw) (d : Nat) (hidle : h.kennelWriting = none) :
    (h.kennelFailed d).kennelWriting = none := by
  unfold Hw.kennelFailed
  dsimp only
  split
  · exact Hw.kennelWriting_leadRelease ..
  · exact hidle

section
variable {slot d : Nat} {c : KennelSlot} (hw : s.hw.kennelWriting = some (slot, c)) (hlead : s.hw.lead = some d)
include hw hlead

theorem execKennelWriteDone_good (hmove : s.hw.moving = none) :
    ∃ t, execKennelWriteDone true s = .next t ∧ s.SameMem t ∧ t.hw.kennelWriting = none ∧ t.hw.kennel = s.hw.kennel.set slot c ∧
      t.hw.rd 0 A.kennel_seq 0 = c.seq ∧ t.hw.ckptWork = none := by
  have K := (s.begun.kennelKept slot c).ckptEnd_only 0
  have hstays : ((s.begun.kennelKept slot c).ckptEnd 0).moveOn d c = (s.begun.kennelKept slot c).ckptEnd 0 := by
    rw [Hw.moveOn, K.hw .moving (by decide), show (s.begun.kennelKept slot c).moving = none from hmove]
  have hn : execKennelWriteDone true s = .next (s.run fun _ _ => (s.begun.kennelKept slot c).ckptEnd 0) := by
    refine State.onPkg_works ?_
    split
    case h_1 slot' c' d' hw' hl' =>
      cases hw.symm.trans hw'
      cases hlead.symm.trans hl'
      exact hstays
    case h_2 hno => exact (hno _ _ _ hw hlead).elim
  refine ⟨_, hn, (execKennelWriteDone_within _ _ hn).sameMem, K.hw .kennelWriting (by decide), K.hw .kennel (by decide), ?_,
    Hw.ckptWork_ckptEnd ..⟩
  rw [State.run_rd, K.read A.kennel_seq (by decide), Hw.kennelKept, Hw.rd_wr_ne _ (by decide), Hw.rd_wr_ne _ (by decide),
    Hw.rd_wr_ne _ (by decide), Hw.rd_wr_self]

theorem execKennelWriteDone_bad :
    ∃ t, execKennelWriteDone false s = .next t ∧ s.SameMem t ∧ t.hw.kennelWriting = none ∧ t.hw.kennel = s.hw.kennel ∧
      t.hw.rd 0 A.kennel_errs 0 = (s.hw.rd 0 A.kennel_errs 0 + 1) % 2 ^ 32 := by
  have K1 := (s.begun.kennelLost slot d c).ckptEnd_only Status.check.code
  have K2 := ((s.begun.kennelLost slot d c).ckptEnd Status.check.code).kennelFailed_only d
  have hn : execKennelWriteDone false s =
      .next (s.run fun _ _ => ((s.begun.kennelLost slot d c).ckptEnd Status.check.code).kennelFailed d) := by
    refine State.onPkg_works ?_
    split
    case h_1 slot' c' d' hw' hl' =>
      cases hw.symm.trans hw'
      cases hlead.symm.trans hl'
      rfl
    case h_2 hno => exact (hno _ _ _ hw hlead).elim
  refine ⟨_, hn, (execKennelWriteDone_within _ _ hn).sameMem, ?_, ?_, ?_⟩
  · rw [State.run_kennelWriting]
    refine Hw.kennelWriting_kennelFailed _ _ ((K1.hw .kennelWriting (by decide)).trans ?_)
    exact (Hw.eventPkg_only ..).hw .kennelWriting (by decide)
  · rw [State.run_kennel, K2.hw .kennel (by decide), K1.hw .kennel (by decide)]
    exact Hw.eventPkg_kennel ..
  · rw [State.run_rd, K2.read A.kennel_errs (by decide), K1.read A.kennel_errs (by decide), Hw.kennelLost,
      (Hw.eventPkg_only ..).read A.kennel_errs (by decide), Hw.rd_add_wrap32 _ _ kennel_errs_width]
    rfl

end

/-! ### Takeover (R475, R476, R481, R483) -/

theorem Hw.fw_fwAbort (h : Hw) : h.fwAbort.fw = none := by
  unfold Hw.fwAbort
  split
  case isTrue hno => exact Option.isNone_iff_eq_none.1 hno
  case isFalse => rfl

/-- The lead state taken from a checkpoint, if there is one (R480, R484). -/
def Hw.loadNewest (h : Hw) (slot : Option Nat) : Hw :=
  match slot with
  | some i => h.loadCheckpoint (h.kennel.getD i KennelSlot.blank)
  | none => h.loadCold

theorem Hw.loadNewest_only (h : Hw) (slot : Option Nat) :
    Hw.Only [0] [.front, .buckets, .folded] [.blks, .pkg] h (h.loadNewest slot) := by
  cases slot with
  | some i => exact (Hw.loadCheckpoint_only ..).mono (by decide)
  | none => exact Hw.loadCold_only ..

/-- The die that takes the role holds it, and the release, a move and an image session that were open are gone. -/
theorem Hw.takeToken_holds (h : Hw) (d us : Nat) (moved : Bool) :
    (h.takeToken d us moved).lead = some d ∧ (h.takeToken d us moved).takeover = none ∧
      (h.takeToken d us moved).moving = none ∧ (h.takeToken d us moved).fw = none := by
  unfold Hw.takeToken
  extract_lets named shown stripped old loaded from_ found listed counted marked timed told
  have KL : Hw.Only [0] [.front, .buckets, .folded] [.blks, .pkg] stripped loaded := stripped.loadNewest_only old
  have KC : Hw.Only [0] [.front, .buckets, .folded] [.blks, .pkg] stripped counted :=
    (KL.step (Hw.setBlk_only ..) (by decide)).step (Hw.wr_only 0 A.reissue_count 0 _ _) (by decide)
  have KO : Hw.Only [0] [.front, .buckets, .folded] [.blks, .pkg] stripped marked :=
    KC.step_if (Hw.wr_only 0 A.reissue_over 0 _ _) (by decide)
  have KT : Hw.Only [0] [.front, .buckets, .folded] [.blks, .pkg] stripped timed :=
    (KO.step (Hw.add_only 0 A.takeovers 0 1 _) (by decide)).step (Hw.wr_only 0 A.last_takeover_us 0 us _) (by decide)
  have K := (KT.step (Hw.eventPkg_only ..) (by decide)).step
    (Hw.eventPkg_only d Ev.leadReissue (leBytes 1 (told.rd 0 A.reissue_count 0) ++ leBytes 1 (told.rd 0 A.reissue_over 0)) told)
    (by decide)
  have KN : Hw.Only [0x1f, 0x1e0001, 0x1e0002] [.front, .buckets, .folded] [.leadSt, .stages, .fwSlots, .fw] _ stripped :=
    ((((Hw.setLd_only _ d .active).mono (by decide)).step (Hw.wr_only 0 A.lead_die 0 d named) (by decide)).step
      (Hw.dropPkgStages_only shown) (by decide)).step (Hw.fwAbort_only _) (by decide)
  exact ⟨(K.hw .lead (by decide)).trans (KN.hw .lead (by decide)), (K.hw .takeover (by decide)).trans (KN.hw .takeover (by decide)),
    (K.hw .moving (by decide)).trans (KN.hw .moving (by decide)), (K.hw .fw (by decide)).trans (Hw.fw_fwAbort _)⟩

/-- The command that waits for a piece of work, if there is one, is settled. -/
def Hw.settleWaiting (h : Hw) (id : Option Nat) (fate : Nat) : Hw :=
  match id with
  | some i => h.settle i fate
  | none => h

theorem Hw.settleWaiting_only (h : Hw) (id : Option Nat) (fate : Nat) : Hw.Only [] [.mbx] [.pkg] h (h.settleWaiting id fate) := by
  cases id with
  | some i => exact Hw.settle_only ..
  | none => exact .refl ..

/-- LEAD_TAKEOVER with the other die of the pair in STANDBY: it takes the role. -/
theorem execLeadTakeover_taken {us d : Nat} (ht : s.hw.takeover = some d) (hst : s.hw.ldState (1 - d) = .standby) :
    ∃ t, execLeadTakeover us s = .next t ∧ s.SameMem t ∧ t.hw.lead = some (1 - d) ∧ t.hw.takeover = none ∧
      t.hw.moving = none ∧ t.hw.fw = none := by
  obtain ⟨k, hn, moved, fate, rfl⟩ : ∃ k, execLeadTakeover us s = .next (s.run fun _ _ => k) ∧
      ∃ moved fate, k = (s.begun.takeToken (1 - d) us moved).settleWaiting s.begun.moving fate := by
    refine ⟨_, State.onPkg_works ?_, s.begun.rd 0 A.ld_causes 0 / 16 ^ d % 16 = 5,
      if s.begun.rd 0 A.ld_causes 0 / 16 ^ d % 16 = 5 then 0 else Status.check.code, rfl⟩
    split
    case h_1 d' ht' =>
      cases ht.symm.trans ht'
      exact if_pos hst
    case h_2 hno => exact nomatch ht.symm.trans hno
  obtain ⟨hlead, htk, hmv, hfw⟩ := s.begun.takeToken_holds (1 - d) us moved
  have K := (s.begun.takeToken (1 - d) us moved).settleWaiting_only s.begun.moving fate
  exact ⟨_, hn, (execLeadTakeover_within _ _ hn).sameMem, (K.hw .lead (by decide)).trans hlead,
    (K.hw .takeover (by decide)).trans htk, (K.hw .moving (by decide)).trans hmv, (K.hw .fw (by decide)).trans hfw⟩

/-- LEAD_TAKEOVER with no die of the pair in STANDBY: mode SAFE, and the mode before it is kept (assumption log 25). -/
theorem execLeadTakeover_safe {us d : Nat} (ht : s.hw.takeover = some d) (hst : s.hw.ldState (1 - d) ≠ .standby) :
    ∃ t, execLeadTakeover us s = .next t ∧ s.SameMem t ∧ t.hw.mode = .safe ∧ t.hw.takeover = none ∧ t.hw.safeFrom = s.hw.mode := by
  have hn : execLeadTakeover us s = .next (s.run fun _ _ =>
      (({ s.begun with takeover := none, safeFrom := s.hw.mode }).modeTo .safe).eventPkg (1 - d) Ev.leadSafe [0]) := by
    refine State.onPkg_works ?_
    split
    case h_1 d' ht' =>
      cases ht.symm.trans ht'
      exact if_neg hst
    case h_2 hno => exact nomatch ht.symm.trans hno
  have K := Hw.modeTo_only { s.begun with takeover := none, safeFrom := s.hw.mode } .safe
  refine ⟨_, hn, (execLeadTakeover_within _ _ hn).sameMem, ?_, ?_, ?_⟩
  · rw [State.run_mode, Hw.eventPkg_mode, Hw.mode_modeTo]
  · rw [State.run_takeover, Hw.eventPkg_takeover, K.hw .takeover (by decide)]
  · rw [State.run_safeFrom, (Hw.eventPkg_only ..).hw .safeFrom (by decide), K.hw .safeFrom (by decide)]

/-- LEAD_TAKEOVER in SAFE once die 0 is STANDBY: it takes the role and the mode before SAFE returns (assumption log 25). -/
theorem execLeadTakeover_back {us : Nat} (ht : s.hw.takeover = none) (hmode : s.hw.mode = .safe) (hlead : s.hw.lead = none)
    (hst : s.hw.ldState 0 = .standby) :
    ∃ t, execLeadTakeover us s = .next t ∧ s.SameMem t ∧ t.hw.lead = some 0 ∧ t.hw.mode = s.hw.safeFrom := by
  have hn : execLeadTakeover us s = .next (s.run fun _ _ =>
      ((s.begun.takeToken 0 us false).modeTo (s.begun.takeToken 0 us false).safeFrom).eventPkg 0 Ev.leadSafe [1]) := by
    refine State.onPkg_works ?_
    split
    case h_1 d' ht' => exact nomatch ht.symm.trans ht'
    case h_2 =>
      have hd : (if s.begun.ldState 0 = .standby then 0 else 1) = 0 := if_pos hst
      rw [if_pos ⟨hmode, hlead⟩, if_pos (.inl hst)]
      dsimp only
      rw [hd]
  obtain ⟨htaken, -, -, -⟩ := s.begun.takeToken_holds 0 us false
  refine ⟨_, hn, (execLeadTakeover_within _ _ hn).sameMem, ?_, ?_⟩
  · rw [State.run_lead, Hw.eventPkg_lead, (Hw.modeTo_only ..).hw .lead (by decide), htaken]
  · rw [State.run_mode, Hw.eventPkg_mode, Hw.mode_modeTo, (Hw.takeToken_only ..).hw .safeFrom (by decide)]
    rfl

/-! ### Repair (R488) -/

/-- LEAD_REPAIR: the faulted die of the pair, once. -/
theorem execLeadRepair_begins {l : Nat} (hlen : s.hw.leadSt.length = 2) (hlead : s.hw.lead = some l)
    (hauto : s.hw.rd 0 A.auto_repair 0 = 1) (harm : s.hw.repairArmed = true) (hst : s.hw.ldState (1 - l) = .faulted) :
    ∃ t, execLeadRepair s = .next t ∧ s.SameMem t ∧ t.hw.repairArmed = false ∧ t.hw.ldState (1 - l) = .syncing := by
  have hn : execLeadRepair s = .next (s.run fun _ _ => ({ s.begun with repairArmed := false }).repairStart (1 - l)) := by
    refine State.onPkg_works ?_
    split
    case h_1 l' hl' =>
      cases hlead.symm.trans hl'
      exact if_pos ⟨hauto, harm, hst⟩
    case h_2 hno => exact nomatch hlead.symm.trans hno
  refine ⟨_, hn, (execLeadRepair_within _ hn).sameMem, (Hw.repairStart_only ..).hw .repairArmed (by decide), ?_⟩
  have hlt : 1 - l < s.hw.leadSt.length := by omega
  exact Hw.ldState_setLd _ _ hlt

/-- A die whose repair has passed: in STANDBY, up, and out of the fault mask. -/
def Hw.standbyGained (h : Hw) (d : Nat) : Hw :=
  ((((h.setLd d .standby).setFault d false).onDie d fun D => { D with up := true }).wr d A.pd_on 0
    (h.rd d A.pd_on 0 ||| 2)).event d Ev.leadStandby (leBytes 1 d)

theorem Hw.standbyGained_gains (h : Hw) (hd : die < h.dies.length) (h2 : die < h.leadSt.length) (h8 : die < 8) :
    (h.standbyGained die).ldState die = .standby ∧ ((h.standbyGained die).die die).up = true ∧
      (h.standbyGained die).faultMask.testBit die = false := by
  unfold Hw.standbyGained
  refine ⟨?_, ?_, ?_⟩
  · rw [Hw.ldState, Hw.event_leadSt]
    exact Hw.ldState_setLd h .standby h2
  · rw [(Hw.event_only ..).die _ .up (by decide)]
    exact congrArg Die.up (Hw.die_onDie_self ((h.setLd die .standby).setFault die false) (fun D => { D with up := true }) hd)
  · rw [Hw.event_faultMask]
    exact Hw.faultMask_setFault_off _ h8

/-- LEAD_STANDBY: the end of a repair. -/
theorem execLeadStandby_ends (pass : Bool) (hd : die < s.hw.dies.length) (h2 : die < 2) (hlen : s.hw.leadSt.length = 2)
    (hst : s.hw.ldState die = .syncing) :
    ∃ t, execLeadStandby die pass s = .next t ∧ s.SameMem t ∧ (t.hw.ldState die = if pass then .standby else .faulted) ∧
      t.hw.repairWork = none ∧ (pass = true → (t.hw.die die).up = true ∧ t.hw.faultMask.testBit die = false) := by
  have hn : execLeadStandby die pass s = .next (s.run fun _ _ =>
      (if pass then ({ s.begun with repairWork := none } : Hw).standbyGained die
        else ({ s.begun with repairWork := none } : Hw).setLd die .faulted).settleWaiting s.begun.repairWork
          (if pass then 0 else Status.check.code)) :=
    State.onUnit_works hd h2 (if_neg (not_not.2 hst))
  have hlt : die < ({ s.begun with repairWork := none } : Hw).leadSt.length := h2.trans_eq hlen.symm
  refine ⟨_, hn, (execLeadStandby_within _ _ _ hn).sameMem, ?_⟩
  rw [Hw.ldState, State.run_leadSt, State.run_repairWork, State.run_die, State.run_faultMask]
  cases pass with
  | true =>
    obtain ⟨hld, hup, hmask⟩ := ({ s.begun with repairWork := none } : Hw).standbyGained_gains hd hlt (by omega)
    have K := (({ s.begun with repairWork := none } : Hw).standbyGained die).settleWaiting_only s.begun.repairWork 0
    refine ⟨(congrArg (·.getD die .faulted) (K.hw .leadSt (by decide))).trans hld, (K.hw .repairWork (by decide)).trans ?_,
      fun _ => ⟨(K.die die .up (by decide)).trans hup, ?_⟩⟩
    · exact (Hw.event_only ..).hw .repairWork (by decide)
    · exact (congrArg (·.testBit die) (K.hw .faultMask (by decide))).trans hmask
  | false =>
    have K := (({ s.begun with repairWork := none } : Hw).setLd die .faulted).settleWaiting_only s.begun.repairWork
      Status.check.code
    exact ⟨(congrArg (·.getD die .faulted) (K.hw .leadSt (by decide))).trans (Hw.ldState_setLd _ _ hlt),
      K.hw .repairWork (by decide), nofun⟩

/-- Settles O41, by what a management processor that stops, a checkpoint, a takeover and a repair leave. -/
theorem leadRowsComplete : Obligations.LeadRowsComplete := by
  unfold Obligations.LeadRowsComplete
  exact ⟨fun _ _ hd => execWatchdogExpiry_stops hd, fun _ _ hd => execSramEccError_stops hd,
    fun _ _ hd => execMgmtPowerLoss_stops hd,
    fun _ hlead hmode hidle hnv => execKennelCheckpoint_begins hlead hmode hidle hnv,
    fun _ hlead hmode hbusy => execKennelCheckpoint_late hlead hmode hbusy,
    fun _ _ _ _ hw hlead hmove => execKennelWriteDone_good hw hlead hmove,
    fun _ _ _ _ hw hlead => execKennelWriteDone_bad hw hlead,
    fun _ _ _ ht hst => execLeadTakeover_taken ht hst,
    fun _ _ _ ht hst => execLeadTakeover_safe ht hst,
    fun _ _ ht hmode hlead hst => execLeadTakeover_back ht hmode hlead hst,
    fun _ _ hlen hlead hauto harm hst => execLeadRepair_begins hlen hlead hauto harm hst,
    fun _ _ pass hd h2 hlen hst => execLeadStandby_ends pass hd h2 hlen hst⟩

end Sys2Proof.Machine
end

section
/-!
PROOFS. The event recorder (R490 to R499): what an event, its number, its programming, a refilled bucket, space again, a read and
a limit leave.
-/
-- One proof after the other: the text is checked as one, and proofs side by side pass the check's memory.
set_option Elab.async false
namespace Sys2Proof.Machine
variable {s : State} {die code : Nat} {h : Hdr}

/-! ### The front buffer (R491 to R493, R496) -/

theorem suppressed_width : (attrRow? A.suppressed.cls 0 A.suppressed.id).map (·.width) = some 32 := by decide

/-- The data of an event takes at most eight places. -/
theorem Evt.places_le {e : Evt} (hd : e.data.length ≤ 40) : e.places ≤ 8 := by
  unfold Evt.places
  omega

@[simp] theorem Hw.front_setBucket (k : Hw) (d : Nat) (b : Bucket) (e : Nat) : ((k.setBucket d b).die e).front = (k.die e).front :=
  (k.setBucket_only d b).die e .front (by decide)

/-- An entry takes the last place of the buffer. -/
theorem Hw.front_frontPut (k : Hw) (e : Evt) (hd : die < k.dies.length) :
    ((k.frontPut die e).die die).front = (k.die die).front ++ [e] := by
  have hput := congrArg Die.front (k.die_onDie_self (fun D => { D with front := D.front ++ [e] }) hd)
  unfold Hw.frontPut
  dsimp only
  split
  · exact hput
  · exact hput

section
variable (k : Hw) (data : List Byte)

/-- An event with a token, or of a code with no limit, that finds room takes the last place of the buffer. -/
theorem Hw.front_event (hd : die < k.dies.length) (htoken : (k.limit code).2 = 0 ∨ tokenUnit ≤ (k.bucket die code).level)
    (hroom : fixedCode code = true ∨ k.frontUsed die + 520 ≤ 8192) :
    ∃ e : Evt, ((k.event die code data).die die).front = (k.die die).front ++ [e] ∧ e.code = code ∧ e.die = die ∧
      e.tb0 = k.tb die 0 ∧ e.data = data.take 40 := by
  unfold Hw.event Hw.eventNode
  extract_lets e b folded
  have hplaces : e.places ≤ 8 := Evt.places_le (List.length_take_le 40 data)
  dsimp only
  have hlevel : ¬((k.limit code).2 ≠ 0 ∧ b.level < tokenUnit) := fun hno => htoken.elim hno.1 (Nat.not_le.2 hno.2)
  have hspace : ¬(¬ fixedCode code ∧ 8192 < k.frontUsed die + e.places + 512) := fun hno => hroom.elim hno.1 (by omega)
  rw [if_neg hlevel, if_neg hspace]
  refine ⟨_, (Hw.front_frontPut _ _ ?_).trans (congrArg (· ++ _) (Hw.front_setBucket ..)), rfl, rfl, rfl, rfl⟩
  rwa [(k.setBucket_only ..).len]

/-- An event whose bucket has no token is only counted (assumption log 6 for the count's wrap). -/
theorem Hw.event_suppressed (hlim : (k.limit code).2 ≠ 0) (hlevel : (k.bucket die code).level < tokenUnit) :
    ((k.event die code data).die die).front = (k.die die).front ∧
      (k.event die code data).rd die A.suppressed 0 = (k.rd die A.suppressed 0 + 1) % 2 ^ 32 := by
  unfold Hw.event Hw.eventNode
  extract_lets e b folded
  dsimp only
  rw [if_pos ⟨hlim, hlevel⟩]
  refine ⟨Hw.front_setBucket .., ?_⟩
  rw [Hw.rd_add_wrap32 _ _ suppressed_width]
  rfl

/-- An event of a fixed code leaves the number folded: it is never folded for want of space. -/
theorem Hw.folded_event_fixed (hfix : fixedCode code = true) (e : Nat) :
    ((k.event die code data).die e).folded = (k.die e).folded := by
  have hset (j : Hw) (b : Bucket) : ((j.setBucket die b).die e).folded = (j.die e).folded :=
    (j.setBucket_only die b).die e .folded (by decide)
  unfold Hw.event Hw.eventNode
  extract_lets x b folded
  dsimp only
  split
  · exact hset ..
  · rw [if_neg (fun hno => hno.1 hfix)]
    exact (Hw.frontPut_only ..).die e .folded (by decide) |>.trans (hset ..)

end

/-! ### Raising (R491, R496) -/

theorem execEventRaise_recorded (data : List Byte) (hd : die < s.hw.dies.length)
    (htoken : (s.hw.limit code).2 = 0 ∨ tokenUnit ≤ (s.hw.bucket die code).level)
    (hroom : fixedCode code = true ∨ s.hw.frontUsed die + 520 ≤ 8192) :
    ∃ t, execEventRaise die code data s = .next t ∧ s.SameMem t ∧ (∃ e : Evt,
      (t.hw.die die).front = (s.hw.die die).front ++ [e] ∧ e.code = code ∧ e.die = die ∧ e.tb0 = s.hw.tb die 0 ∧
      e.data = data.take 40) := by
  have hn : execEventRaise die code data s = .next (s.run _) := s.onDie_next _ hd
  exact ⟨_, hn, (execEventRaise_within _ _ _ _ hn).sameMem, s.begun.front_event data hd htoken hroom⟩

theorem execEventRaise_suppressed (data : List Byte) (hd : die < s.hw.dies.length) (hlim : (s.hw.limit code).2 ≠ 0)
    (hlevel : (s.hw.bucket die code).level < tokenUnit) :
    ∃ t, execEventRaise die code data s = .next t ∧ s.SameMem t ∧ (t.hw.die die).front = (s.hw.die die).front ∧
      t.hw.rd die A.suppressed 0 = (s.hw.rd die A.suppressed 0 + 1) % 2 ^ 32 := by
  have hn : execEventRaise die code data s = .next (s.run _) := s.onDie_next _ hd
  refine ⟨_, hn, (execEventRaise_within _ _ _ _ hn).sameMem, ?_⟩
  rw [State.run_die, State.run_rd]
  exact s.begun.event_suppressed data hlim hlevel

/-! ### Numbering and programming (R492) -/

/-- The packet of a numbered event, in event-stream queue `i` of the lead die when the queue's mask passes it. -/
def Hw.passEvent (k : Hw) (l : Nat) (e : Evt) (es : List Entry) (i : Nat) : Hw :=
  if bit (k.rd 0 A.evq_mask 0) (16 * i + e.code / 256 % 16) then (k.qPushPacket l (56 + i) 0x09 (eventPacket es)).2 else k

theorem Hw.passEvent_only (k : Hw) (l : Nat) (e : Evt) (es : List Entry) (i : Nat) :
    Hw.Only [0x1f, 0x20005, 0x20010, 0x20013, 0x20014, 0x20015, 0x20016] [.queues, .front, .buckets, .folded]
      [.eps, .stores, .out] k (k.passEvent l e es i) :=
  .ite (fun _ => Hw.qPushPacket_only ..) fun _ => .refl ..

/-- The number given: the entries enter the ring, whichever queues of the lead die get the packet. -/
theorem Hw.numberEvent_ring (k : Hw) (d : Nat) (e : Evt) :
    (k.numberEvent d e).ring = ((e.entries k.evtNext).reverse ++ k.ring).take 1048576 ∧
      (k.numberEvent d e).evtNext = k.evtNext + (e.entries k.evtNext).length := by
  unfold Hw.numberEvent
  extract_lets es taken put shown l
  have KS : Hw.Only [A.fb_depth.code, 0x1f0001, 0x1f0002, 0x1f0003] [] [] put shown :=
    ((Hw.wr_only d A.fb_depth 0 _ put).mono (by decide)).step (Hw.erRegs_only _) (by decide)
  have KQ : Hw.Only [0x1f, 0x20005, 0x20010, 0x20013, 0x20014, 0x20015, 0x20016] [.queues, .front, .buckets, .folded]
      [.eps, .stores, .out] shown _ :=
    .foldl (.refl ..) (fun k i => k.passEvent_only l e es i) (List.range 4)
  exact ⟨(KQ.hw .ring (by decide)).trans (KS.hw .ring (by decide)), (KQ.hw .evtNext (by decide)).trans (KS.hw .evtNext (by decide))⟩

/-- EVENT_NUMBER while the package has a lead and is not in SAFE, with room at the lead. -/
theorem execEventNumber_numbers {l : Nat} {e : Evt} {rest : List Evt} (hd : die < s.hw.dies.length) (hlead : s.hw.lead = some l)
    (hfront : (s.hw.die die).front = e :: rest) (hmode : s.hw.mode ≠ .safe)
    (hroom : die = l ∨ s.hw.frontUsed l + e.places ≤ 8192) :
    ∃ t, execEventNumber die s = .next t ∧
      t.hw.ring = ((e.entries s.hw.evtNext).reverse ++ s.hw.ring).take 1048576 ∧
      t.hw.evtNext = s.hw.evtNext + (e.entries s.hw.evtNext).length := by
  have hn : execEventNumber die s = .next (s.run fun _ _ => s.begun.numberEvent die e) := by
    refine State.onDie_works hd ?_
    split
    case h_1 l' e' rest' hl' hfront' =>
      cases hlead.symm.trans hl'
      cases hfront.symm.trans hfront'
      exact if_neg (not_or.2 ⟨hmode, fun hno => hroom.elim hno.1 (Nat.not_le.2 hno.2)⟩)
    case h_2 hno => exact (hno _ _ _ hlead hfront).elim
  exact ⟨_, hn, s.begun.numberEvent_ring die e⟩

/-- EVENT_PROGRAM with an entry to program: the durable number moves on, up to the last entry numbered. -/
theorem execEventProgram_programs (hmode : s.hw.mode ≠ .safe) (hnv : s.hw.nvOk = true)
    (hdue : s.hw.evtDurable + 1 < s.hw.evtNext) :
    ∃ t, execEventProgram s = .next t ∧ s.SameMem t ∧ s.hw.evtDurable < t.hw.evtDurable ∧ t.hw.evtDurable < s.hw.evtNext ∧
      t.hw.rd 0 A.er_durable 0 = t.hw.evtDurable := by
  have hno : ¬(s.begun.mode = .safe ∨ (!s.begun.nvOk) = true ∨ s.begun.evtNext ≤ s.begun.evtDurable + 1) := by
    rintro (hm | hv | he)
    · exact hmode hm
    · rw [show s.begun.nvOk = true from hnv] at hv
      exact Bool.noConfusion hv
    · exact absurd he (Nat.not_le.2 hdue)
  have hn : execEventProgram s = .next (s.run _) := State.onPkg_works (if_neg hno)
  refine ⟨_, hn, (execEventProgram_within _ hn).sameMem, ?_⟩
  rw [State.run_evtDurable, State.run_rd]
  extract_lets cont moved
  have hmoved : s.hw.evtDurable < moved.evtDurable ∧ moved.evtDurable < s.hw.evtNext := by
    change s.hw.evtDurable < min (s.hw.evtNext - 1) (s.hw.evtDurable + 1 + cont) ∧
      min (s.hw.evtNext - 1) (s.hw.evtDurable + 1 + cont) < s.hw.evtNext
    omega
  rw [(Hw.erRegs_only _).hw .evtDurable (by decide)]
  refine ⟨hmoved.1, hmoved.2, ?_⟩
  unfold Hw.erRegs
  rw [Hw.rd_wr_ne _ (by decide), Hw.rd_wr_self]

/-! ### What a bucket and a full buffer kept (R493, R496) -/

theorem execBucketRefillFlush_flushes {e : Evt} (hd : die < s.hw.dies.length) (hlatest : (s.hw.bucket die code).latest = some e)
    (hcount : (s.hw.bucket die code).count ≠ 0) (hroom : fixedCode code = true ∨ s.hw.frontUsed die + e.places + 512 ≤ 8192) :
    ∃ t, execBucketRefillFlush die code s = .next t ∧ s.SameMem t ∧ (t.hw.die die).front = (s.hw.die die).front ++
      [{ e with suppressed := satNat 0xFFFF ((s.hw.bucket die code).count - 1) }] := by
  have hspace : ¬((s.hw.bucket die code).count = 0 ∨ (¬ fixedCode code ∧ 8192 < s.hw.frontUsed die + e.places + 512)) :=
    not_or.2 ⟨hcount, fun hno => hroom.elim hno.1 (Nat.not_le.2 hno.2)⟩
  have hn : execBucketRefillFlush die code s = .next (s.run fun _ _ =>
      (s.begun.setBucket die { s.hw.bucket die code with
        level := (s.hw.limit code).2 * tokenUnit, count := 0, latest := none }).frontPut die
        { e with suppressed := satNat 0xFFFF ((s.hw.bucket die code).count - 1) }) := by
    refine State.onDie_works hd ?_
    dsimp only
    split
    case h_1 e' hlatest' =>
      cases hlatest.symm.trans hlatest'
      exact if_neg hspace
    case h_2 hno => exact nomatch hlatest.symm.trans hno
  refine ⟨_, hn, (execBucketRefillFlush_within _ _ _ hn).sameMem, ?_⟩
  rw [State.run_die, Hw.front_frontPut _ _ (by rwa [(Hw.setBucket_only ..).len]), Hw.front_setBucket]
  rfl

theorem execEvtBacklog_clears (hd : die < s.hw.dies.length) (hfolded : (s.hw.die die).folded ≠ 0)
    (hroom : s.hw.frontUsed die + 513 ≤ 8192) :
    ∃ t, execEvtBacklog die s = .next t ∧ s.SameMem t ∧ (t.hw.die die).folded = 0 := by
  have hno : ¬((s.hw.die die).folded = 0 ∨ 8192 < s.hw.frontUsed die + 513) := not_or.2 ⟨hfolded, Nat.not_lt.2 hroom⟩
  have hn : execEvtBacklog die s = .next (s.run _) := State.onDie_works hd (if_neg hno)
  refine ⟨_, hn, (execEvtBacklog_within _ _ hn).sameMem, ?_⟩
  rw [State.run_die, Hw.folded_event_fixed _ _ (by decide), s.begun.die_onDie_self _ hd]

/-! ### Reading and limits (R496, R497, R499) -/

theorem execEvtRead_reads {first count : Nat} (hA : s.Admits h 0x0E02 (opObj 0x0E02 0)) (h1 : 1 ≤ count) (h7 : count ≤ 7) :
    ∃ t, execEvtRead h first count s = .next t ∧ s.SameMem t ∧ t.replyOf h = some ⟨.ok, leBytes 8 (s.hw.rd 0 A.er_oldest 0) ++
      leBytes 8 (s.hw.rd 0 A.er_newest 0) ++ (List.range count).flatMap fun i => (s.atWork h).entryAt (first + i)⟩ := by
  have hno : ¬(count = 0 ∨ 7 < count) := by omega
  obtain ⟨t, hn, E⟩ : ∃ t, execEvtRead h first count s = .next t ∧ s.Ends h _ t := State.command_ends hA (if_neg hno)
  exact ⟨t, hn, (execEvtRead_within _ _ _ _ hn).sameMem, E.reply⟩

theorem execEvtLimitSet_sets {rate burst : Nat} (hA : s.Admits h 0x0E03 (opObj 0x0E03 0)) (hrate : rate ≠ 0)
    (hfix : fixedCode code = false) (hnv : s.hw.nvOk = true) :
    ∃ t, execEvtLimitSet h code rate burst s = .next t ∧ s.SameMem t ∧ t.replyOf h = some .ok ∧ t.hw.limit code = (rate, burst) := by
  have hnv' : ¬(!(s.atWork h).nvOk) = true := by
    rw [show (s.atWork h).nvOk = true from hnv]
    decide
  obtain ⟨t, hn, E⟩ : ∃ t, execEvtLimitSet h code rate burst s = .next t ∧ s.Ends h _ t :=
    State.command_ends hA ((if_neg hrate).trans ((if_neg (by simp [hfix])).trans (if_neg hnv')))
  refine ⟨t, hn, (execEvtLimitSet_within _ _ _ _ _ hn).sameMem, E.reply, ?_⟩
  rw [Hw.limit, E.hw.hw .limits (by decide)]
  simp [okWith]

theorem execEvtLimitGet_gets (hA : s.Admits h 0x0E03 (opObj 0x0E03 0)) :
    ∃ t, execEvtLimitGet h code s = .next t ∧ s.SameMem t ∧
      t.replyOf h = some (.words [(s.hw.limit code).1 * 2 ^ 16 + (s.hw.limit code).2]) := by
  obtain ⟨t, hn, E⟩ : ∃ t, execEvtLimitGet h code s = .next t ∧ s.Ends h _ t := State.command_ends hA rfl
  exact ⟨t, hn, (execEvtLimitGet_within _ _ _ hn).sameMem, E.reply⟩

/-- Settles O43, by what each row of the recorder leaves. -/
theorem eventRowsComplete : Obligations.EventRowsComplete := by
  unfold Obligations.EventRowsComplete
  exact ⟨fun _ _ _ data hd htoken hroom => execEventRaise_recorded data hd htoken hroom,
    fun _ _ _ data hd hlim hlevel => execEventRaise_suppressed data hd hlim hlevel,
    fun _ _ _ _ _ hd hlead hfront hmode hroom => execEventNumber_numbers hd hlead hfront hmode hroom,
    fun _ hmode hnv hdue => execEventProgram_programs hmode hnv hdue,
    fun _ _ _ _ hd hlatest hcount hroom => execBucketRefillFlush_flushes hd hlatest hcount hroom,
    fun _ _ hd hfolded hroom => execEvtBacklog_clears hd hfolded hroom,
    fun _ _ _ _ hA h1 h7 => execEvtRead_reads hA h1 h7,
    fun _ _ _ _ _ hA hrate hfix hnv => execEvtLimitSet_sets hA hrate hfix hnv,
    fun _ _ _ hA => execEvtLimitGet_gets hA⟩

end Sys2Proof.Machine
end

section
/-!
PROOFS. Calibration (R459, R462 to R466, R470): what CAL_RUN, the end of a calibration's work and a gap-fitted run without a gap
leave.
-/
-- One proof after the other: the text is checked as one, and proofs side by side pass the check's memory.
set_option Elab.async false
namespace Sys2Proof.Machine
variable {s : State} {h : Hdr} {d i : Nat}

/-! ### The record of a calibration -/

/-- The record of calibration `i` of die `d`. -/
def Hw.cal (k : Hw) (d i : Nat) : Cal := (k.die d).cals.getD i {}

theorem Hw.Only.cal {C : List Nat} {F : List DieRec} {G : List HwRec} {k k' : Hw} (K : Hw.Only C F G k k') (hF : .cals ∉ F)
    (d i : Nat) : k'.cal d i = k.cal d i := congrArg (·.getD i {}) (K.die d .cals hF)

theorem Hw.cal_onCal_self (k : Hw) (f : Cal → Cal) (hd : d < k.dies.length) (hi : i < (k.die d).cals.length) :
    (k.onCal d i f).cal d i = f (k.cal d i) := by
  unfold Hw.cal Hw.onCal
  rw [k.die_onDie_self _ hd]
  simp [List.getD_eq_getElem?_getD, hi]

/-- A change of one calibration leaves, in every calibration, each field that the change leaves. -/
theorem Hw.cal_onCal_field {β : Type} (k : Hw) (d i : Nat) (f : Cal → Cal) (g : Cal → β) (hg : ∀ C, g (f C) = g C) (e j : Nat) :
    g ((k.onCal d i f).cal e j) = g (k.cal e j) := by
  refine k.die_onDie_field d _ (fun D => g (D.cals.getD j {})) (fun D => ?_) e
  simp only [List.getD_eq_getElem?_getD, List.getElem?_modify]
  cases D.cals[j]? with
  | none => rfl
  | some x =>
    by_cases hij : i = j
    · simp [hij, hg]
    · simp [hij]

theorem Hw.cal_onCal_ne (k : Hw) (d : Nat) {j : Nat} (f : Cal → Cal) (hij : i ≠ j) (e : Nat) :
    (k.onCal d j f).cal e i = k.cal e i := by
  refine k.die_onDie_field d _ (fun D => D.cals.getD i {}) (fun D => ?_) e
  simp [List.getD_eq_getElem?_getD, hij.symm]

@[simp] theorem Hw.rd_onCal (k : Hw) (d i : Nat) (f : Cal → Cal) (e : Nat) (a : AttrId) (j : Nat) :
    (k.onCal d i f).rd e a j = k.rd e a j := rfl

/-- A calibration that leaves its work. -/
theorem Hw.cals_calEnd (k : Hw) (d i fate e : Nat) :
    ((k.calEnd d i fate).die e).cals = ((k.onCal d i fun C => { C with work := 0, id := none }).die e).cals := by
  unfold Hw.calEnd
  dsimp only
  split
  · exact (Hw.calSettle_only ..).die e .cals (by decide)
  · rfl

theorem Hw.cal_calEnd (k : Hw) (d i fate e j : Nat) :
    (k.calEnd d i fate).cal e j = (k.onCal d i fun C => { C with work := 0, id := none }).cal e j :=
  congrArg (·.getD j {}) (k.cals_calEnd d i fate e)

theorem Hw.cals_length_onCal (k : Hw) (d i : Nat) (f : Cal → Cal) (e : Nat) :
    ((k.onCal d i f).die e).cals.length = (k.die e).cals.length :=
  k.die_onDie_field d _ (·.cals.length) (fun _ => List.length_modify ..) e

theorem Hw.cal_calFail_ne (k : Hw) (d : Nat) {j : Nat} (to_ cause detail : Nat) (hij : i ≠ j) (e : Nat) :
    (k.calFail d j to_ cause detail).cal e i = k.cal e i := by
  rw [Hw.calFail, Hw.cal_calEnd, Hw.cal_onCal_ne _ _ _ hij, (Hw.event_only ..).cal (by decide), (Hw.add_only ..).cal (by decide),
    (Hw.wr_only ..).cal (by decide)]

/-! ### A run that fails (R459, R470) -/

theorem cal_fails_width : ∀ i < 5, (attrRow? A.cal_fails.cls i A.cal_fails.id).map (·.width) = some 32 := by decide

/-- The state shown and the count of failures (assumption log 6 for the count's wrap). -/
theorem Hw.rd_calFail (k : Hw) (d to_ cause detail : Nat) (hi : i < 5) :
    (k.calFail d i to_ cause detail).rd d A.cal_state i = to_ ∧
      (k.calFail d i to_ cause detail).rd d A.cal_fails i = (k.rd d A.cal_fails i + 1) % 2 ^ 32 := by
  constructor
  · rw [Hw.calFail, (Hw.calEnd_only ..).read A.cal_state (by decide), Hw.rd_event _ _ _ _ _ _ (by decide), Hw.rd_add_ne _ (by decide),
      Hw.rd_wr_self]
  · rw [Hw.calFail, (Hw.calEnd_only ..).read A.cal_fails (by decide), Hw.rd_event _ _ _ _ _ _ (by decide),
      Hw.rd_add_wrap32 _ _ (cal_fails_width i hi), Hw.rd_wr_ne _ (by decide)]

/-- A write to one unit leaves every attribute of every other. -/
theorem Hw.rd_wr_other_unit (k : Hw) {a b : AttrId} {j : Nat} (ha : a.cls ≠ 0x01) (hij : i ≠ j) (d v e : Nat) :
    (k.wr d b j v).rd e a i = k.rd e a i := by
  by_cases hab : b = a
  · subst hab
    exact k.rd_wr_unit ha hij.symm ..
  · exact k.rd_wr_ne hab ..

/-- A failure of one calibration leaves the attributes of every other. -/
theorem Hw.rd_calFail_ne (k : Hw) (d : Nat) {j : Nat} (to_ cause detail : Nat) (hij : i ≠ j) {a : AttrId} (ha : a.cls = 0x1D) :
    (k.calFail d j to_ cause detail).rd d a i = k.rd d a i := by
  rw [Hw.calFail, (Hw.calEnd_only ..).read a (by simp), Hw.rd_event _ _ _ _ _ _ (by simp [ha])]
  exact (Hw.rd_wr_other_unit _ (by simp [ha]) hij ..).trans (Hw.rd_wr_other_unit _ (by simp [ha]) hij ..)

/-! ### CAL_RUN (R462 to R464, R466, R470) -/

theorem nodup_instsOf (m : Nat) : (instsOf m).Nodup := List.nodup_range.filter _

theorem lt_of_mem_instsOf {m : Nat} (hi : i ∈ instsOf m) : i < 5 := List.mem_range.1 (List.mem_of_mem_filter hi)

/-- A run begun shows as running. -/
@[simp] theorem Hw.rd_gapStart (k : Hw) (d i : Nat) (id : Option Nat) : (k.gapStart d i id).rd d A.cal_state i = 3 :=
  Hw.rd_wr_self ..

theorem Hw.rd_gapStart_ne (k : Hw) (d : Nat) {j : Nat} (id : Option Nat) (hij : i ≠ j) :
    (k.gapStart d j id).rd d A.cal_state i = k.rd d A.cal_state i := Hw.rd_wr_unit _ (by decide) hij.symm ..

/-- An interrupting run begun (R464). -/
def Hw.calStart (k : Hw) (d id i : Nat) : Hw := (k.gapStart d i (some id)).onCal d i fun C => { C with work := 1 }

@[simp] theorem Hw.rd_calStart (k : Hw) (d id i : Nat) : (k.calStart d id i).rd d A.cal_state i = 3 := k.rd_gapStart d i (some id)

theorem Hw.rd_calStart_ne (k : Hw) (d id : Nat) {j : Nat} (hij : i ≠ j) :
    (k.calStart d id j).rd d A.cal_state i = k.rd d A.cal_state i := k.rd_gapStart_ne d (some id) hij

/-- The quality figures of instances that no run works on are measured (R466). -/
def Hw.calMeasure (k : Hw) (d id insts : Nat) : Hw :=
  let l := (instsOf insts).filter fun i => ((k.die d).cals.getD i {}).work == 0
  if l = [] then k.settle id 0 else l.foldl (fun (k : Hw) i => k.onCal d i fun C => { C with work := 3, id := some id }) k

theorem any_running_of_idle {m : Nat} {k : Hw} (hidle : ∀ i ∈ instsOf m, k.rd d A.cal_state i ≠ 3) :
    ¬((instsOf m).any fun i => k.rd d A.cal_state i == 3) = true :=
  fun hno => by
    obtain ⟨i, hi, h3⟩ := List.any_eq_true.1 hno
    exact hidle i hi (beq_iff_eq.1 h3)

section
variable {insts : Nat} (hA : s.Admits h 0x0D01 (opObj 0x0D01 (lowBit insts))) (h0 : insts ≠ 0) (h32 : insts < 32)
  (h4 : insts.testBit 4 = true → h.die = s.hw.leadDie)

include h0 h32 h4 in
/-- CAL_RUN accepts a mask of instances that the die has. -/
theorem calNamed_none :
    (s.atWork h).calNamed (s.hw.execDie h 0x0D01 (opObj 0x0D01 (lowBit insts))) insts = none := by
  unfold Hw.calNamed
  rw [if_neg (by omega), if_neg (fun hno => hno.2 (h4 hno.1))]

include hA h0 h32 h4

theorem execCalRun_starts (hidle : ∀ i ∈ instsOf insts, s.hw.rd h.die A.cal_state i ≠ 3)
    (hprint : (s.atWork h).printing h.die = false) (hch : insts.testBit 4 = true → s.hw.rd 0 A.ch_state 0 ≠ 1) :
    ∃ t, execCalRun h insts s = .next t ∧ s.SameMem t ∧ t.statusOf h = some .deferred ∧
      ∀ i ∈ instsOf insts, t.hw.rd h.die A.cal_state i = 3 := by
  have hno : ¬((s.atWork h).printing h.die = true ∨ (insts.testBit 4 = true ∧ (s.atWork h).rd 0 A.ch_state 0 = 1) ∨
      ((instsOf insts).any fun i => (s.atWork h).rd h.die A.cal_state i == 3) = true) := by
    rintro (hp | hc | hr)
    · exact Bool.noConfusion (hp.symm.trans hprint)
    · exact hch hc.1 hc.2
    · exact any_running_of_idle hidle hr
  obtain ⟨t, hn, E⟩ : ∃ t, execCalRun h insts s = .next t ∧ s.Ends h (((s.atWork h).deferWork h.die h false).2.1,
      (instsOf insts).foldl (fun k i => k.calStart h.die ((s.atWork h).deferWork h.die h false).1 i)
        ((s.atWork h).deferWork h.die h false).2.2) t := by
    refine State.command_ends hA ?_
    simp only [calNamed_none h0 h32 h4]
    exact if_neg hno
  refine ⟨t, hn, (execCalRun_within _ _ _ hn).sameMem, E.status, fun i hi => ?_⟩
  rw [E.hw.read A.cal_state (by decide)]
  exact foldl_settles (Pre := fun _ _ => True) (Post := fun i (k : Hw) => k.rd h.die A.cal_state i = 3)
    (fun i k _ => k.rd_calStart ..) (fun _ _ _ _ _ => trivial) (fun i j k hij h3 => (k.rd_calStart_ne _ _ hij).trans h3)
    (nodup_instsOf _) (fun _ _ => trivial) i hi

theorem execCalRunGap_starts (hidle : ∀ i ∈ instsOf insts, s.hw.rd h.die A.cal_state i ≠ 3) :
    ∃ t, execCalRunGap h insts s = .next t ∧ s.SameMem t ∧ t.statusOf h = some .deferred ∧
      ∀ i ∈ instsOf insts, t.hw.rd h.die A.cal_state i = 3 := by
  obtain ⟨t, hn, E⟩ : ∃ t, execCalRunGap h insts s = .next t ∧ s.Ends h (((s.atWork h).deferWork h.die h false).2.1,
      (instsOf insts).foldl (fun k i => k.gapStart h.die i (some ((s.atWork h).deferWork h.die h false).1))
        ((s.atWork h).deferWork h.die h false).2.2) t := by
    refine State.command_ends hA ?_
    simp only [calNamed_none h0 h32 h4]
    exact if_neg (any_running_of_idle hidle)
  refine ⟨t, hn, (execCalRunGap_within _ _ _ hn).sameMem, E.status, fun i hi => ?_⟩
  rw [E.hw.read A.cal_state (by decide)]
  exact foldl_settles (Pre := fun _ _ => True) (Post := fun i (k : Hw) => k.rd h.die A.cal_state i = 3)
    (fun i k _ => k.rd_gapStart ..) (fun _ _ _ _ _ => trivial) (fun i j k hij h3 => (k.rd_gapStart_ne _ _ hij).trans h3)
    (nodup_instsOf _) (fun _ _ => trivial) i hi

/-- QUALITY is at once on a DKG8, and long work on a smaller variant. -/
theorem execCalQuality_status :
    ∃ t, execCalQuality h insts s = .next t ∧ s.SameMem t ∧ t.statusOf h = if s.hw.n = 8 then some .ok else some .deferred := by
  have hnamed := calNamed_none (s := s) (h := h) h0 h32 h4
  by_cases h8 : s.hw.n = 8
  · obtain ⟨t, hn, E⟩ : ∃ t, execCalQuality h insts s = .next t ∧ s.Ends h (okWith (s.atWork h)) t := by
      refine State.command_ends hA ?_
      simp only [hnamed]
      exact if_pos (by exact (s.hw.started_only h).len.trans h8)
    exact ⟨t, hn, (execCalQuality_within _ _ _ hn).sameMem, E.status.trans (if_pos h8).symm⟩
  · obtain ⟨t, hn, E⟩ : ∃ t, execCalQuality h insts s = .next t ∧ s.Ends h (((s.atWork h).deferWork h.die h false).2.1,
        ((s.atWork h).deferWork h.die h false).2.2.calMeasure h.die ((s.atWork h).deferWork h.die h false).1 insts) t := by
      refine State.command_ends hA ?_
      simp only [hnamed]
      exact if_neg (by rwa [Hw.n, State.atWork_length])
    exact ⟨t, hn, (execCalQuality_within _ _ _ hn).sameMem, E.status.trans (if_neg h8).symm⟩

/-- ABORT puts each calibration back into the state before its run; the abort counts as a failure (assumption log 47). -/
theorem execCalAbort_aborts (hrun : ∀ i ∈ instsOf insts, s.hw.rd h.die A.cal_state i = 3) :
    ∃ t, execCalAbort h insts s = .next t ∧ s.SameMem t ∧ t.replyOf h = some .ok ∧ ∀ i ∈ instsOf insts,
      t.hw.rd h.die A.cal_state i = ((s.hw.die h.die).cals.getD i {}).before ∧
      t.hw.rd h.die A.cal_fails i = (s.hw.rd h.die A.cal_fails i + 1) % 2 ^ 32 := by
  have hno : ¬((instsOf insts).any fun i => (s.atWork h).rd h.die A.cal_state i != 3) = true := fun hno => by
    obtain ⟨i, hi, h3⟩ := List.any_eq_true.1 hno
    exact bne_iff_ne.1 h3 (hrun i hi)
  obtain ⟨t, hn, E⟩ : ∃ t, execCalAbort h insts s = .next t ∧ s.Ends h (okWith
      ((instsOf insts).foldl (fun k i => k.calFail h.die i (k.cal h.die i).before 2 0) (s.atWork h))) t := by
    refine State.command_ends hA ?_
    simp only [calNamed_none h0 h32 h4]
    exact if_neg hno
  refine ⟨t, hn, (execCalAbort_within _ _ _ hn).sameMem, E.reply, fun i hi => ?_⟩
  rw [E.hw.read A.cal_state (by decide), E.hw.read A.cal_fails (by decide)]
  have key := foldl_settles (f := fun (k : Hw) j => k.calFail h.die j (k.cal h.die j).before 2 0)
    (Pre := fun j k => j < 5 ∧ k.cal h.die j = s.hw.cal h.die j ∧ k.rd h.die A.cal_fails j = s.hw.rd h.die A.cal_fails j)
    (Post := fun j k => k.rd h.die A.cal_state j = (s.hw.cal h.die j).before ∧
      k.rd h.die A.cal_fails j = (s.hw.rd h.die A.cal_fails j + 1) % 2 ^ 32)
    ?does ?before ?after (nodup_instsOf insts) (b := s.atWork h) ?start
  case does =>
    rintro j k ⟨h5, hcal, hfails⟩
    rw [hcal, ← hfails]
    exact k.rd_calFail _ _ _ _ h5
  case before =>
    rintro j l k hjl ⟨h5, hcal, hfails⟩
    exact ⟨h5, (k.cal_calFail_ne _ _ _ _ hjl _).trans hcal, (k.rd_calFail_ne _ _ _ _ hjl rfl).trans hfails⟩
  case after =>
    rintro j l k hjl ⟨hstate, hfails⟩
    exact ⟨(k.rd_calFail_ne _ _ _ _ hjl rfl).trans hstate, (k.rd_calFail_ne _ _ _ _ hjl rfl).trans hfails⟩
  case start =>
    intro j hj
    exact ⟨lt_of_mem_instsOf hj, (s.atWork_only h).cal (by decide) _ _, rfl⟩
  exact key i hi

end

/-! ### The end of a calibration's work (R459, R465) -/

theorem Hw.cals_length_calFail (k : Hw) (d i to_ cause detail e : Nat) :
    ((k.calFail d i to_ cause detail).die e).cals.length = (k.die e).cals.length := by
  rw [Hw.calFail, Hw.cals_calEnd, Hw.cals_length_onCal, (Hw.event_only ..).die e .cals (by decide)]
  rfl

/-- A failure leaves the values in force and the calibration without work. -/
theorem Hw.cal_calFail (k : Hw) (to_ cause detail : Nat) (hd : d < k.dies.length) (hi : i < (k.die d).cals.length) :
    (k.calFail d i to_ cause detail).cal d i = { k.cal d i with work := 0, id := none } := by
  have K : Hw.Only [0x1f, 0x1d0001, 0x1d000b] [.front, .buckets, .folded] [] k (((k.wr d A.cal_state i to_).add d A.cal_fails i).event d
      Ev.calFail (leBytes 1 i ++ leBytes 1 cause ++ leBytes 4 detail)) :=
    (((k.wr_only d A.cal_state i to_).mono (by decide)).step (Hw.add_only d A.cal_fails i 1 _) (by decide)).step (Hw.event_only ..)
      (by decide)
  rw [Hw.calFail, Hw.cal_calEnd, Hw.cal_onCal_self _ _ (by rwa [K.len]) (by rwa [K.die d .cals (by decide)]), K.cal (by decide)]

/-- Storing a record changes no field but the stored record. -/
theorem Hw.cal_calStore_field {β : Type} (k : Hw) (d i : Nat) (g : Cal → β) (hg : ∀ C r, g { C with stored := r } = g C) (e j : Nat) :
    g ((k.calStore d i).cal e j) = g (k.cal e j) := by
  unfold Hw.calStore
  split
  · exact (congrArg g ((Hw.wr_only ..).cal (by decide) e j)).trans (k.cal_onCal_field d i _ g (fun C => hg C _) e j)
  · exact congrArg g ((Hw.wr_only ..).cal (by decide) e j)

theorem Hw.cals_length_calStore (k : Hw) (d i e : Nat) : ((k.calStore d i).die e).cals.length = (k.die e).cals.length := by
  unfold Hw.calStore
  split
  · exact k.cals_length_onCal ..
  · rfl

/-- What a run that succeeds loads beside its values: the latencies of both ports, or the bars freed (R458, R382). -/
def Hw.calApply (k : Hw) (d i : Nat) (values : List Byte) : Hw :=
  match i with
  | 2 => (List.range 2).foldl (fun (k : Hw) p =>
      (k.wr d A.rx_lat_ps p (fieldOf values (8 * p) 4)).wr d A.tx_lat_ps p (fieldOf values (8 * p + 4) 4)) k
  | 4 => (List.range k.n).foldl (fun (k : Hw) b => (k.onBar b fun B => { B with tile := false }).chRelease b 4) k
  | _ => k

theorem Hw.calApply_only (k : Hw) (d i : Nat) (values : List Byte) :
    Hw.Only [0x1f, A.bar_state.code, A.rx_lat_ps.code, A.tx_lat_ps.code] [.front, .buckets, .folded] [.pkg] k (k.calApply d i values) := by
  unfold Hw.calApply
  split
  · exact .foldl (.refl ..) (fun k p => ((k.wr_only d A.rx_lat_ps p _).mono (by decide)).step (Hw.wr_only d A.tx_lat_ps p _ _)
      (by decide)) _
  · exact .foldl (.refl ..) (fun k b => ((k.onBar_only b _).mono (by decide)).step (Hw.chRelease_only ..) (by decide)) _
  · exact .refl ..

/-- A run that succeeds is DONE with its figure, its values are in force and it has no work. -/
theorem Hw.calSucceed_ends (k : Hw) (quality : Nat) (values : List Byte) (hd : d < k.dies.length) (hi : i < (k.die d).cals.length) :
    (k.calSucceed d i quality values).rd d A.cal_state i = 1 ∧ (k.calSucceed d i quality values).rd d A.quality i = quality ∧
      ((k.calSucceed d i quality values).cal d i).values = values ∧ ((k.calSucceed d i quality values).cal d i).work = 0 := by
  unfold Hw.calSucceed
  extract_lets counted timed shown kept applied
  have hstate : shown.rd d A.cal_state i = 1 := Hw.rd_wr_self ..
  have hqual : shown.rd d A.quality i = quality := by
    rw [Hw.rd_wr_ne _ (by decide), Hw.rd_wr_ne _ (by decide), Hw.rd_wr_self]
  have KS : Hw.Only [A.cal_runs.code, A.cal_tb0.code, A.cal_temp.code, A.quality.code, A.quality_tb1.code, A.cal_state.code] [] [] k
      shown :=
    ((((((k.add_only d A.cal_runs i 1).mono (by decide)).step (Hw.wr_only d A.cal_tb0 i _ _) (by decide)).step
      (Hw.wr_only d A.cal_temp i _ counted) (by decide)).step (Hw.wr_only d A.quality i quality _) (by decide)).step
      (Hw.wr_only d A.quality_tb1 i _ timed) (by decide)).step (Hw.wr_only d A.cal_state i 1 _) (by decide)
  have KD := (kept.calApply_only d i values).step
    (applied.event_only d Ev.calDone (leBytes 1 i ++ leBytes 4 quality ++ leBytes 4 (applied.rd d A.cal_runs i))) (by decide)
  have KK : Hw.Only [0x1d000a] [.cals] [] shown kept :=
    ((Hw.onCal_only shown d i fun C => { C with values := values }).mono (by decide)).step (Hw.calStore_only ..) (by decide)
  have hd' : d < shown.dies.length := by rwa [KS.len]
  have hi' : i < (shown.die d).cals.length := by rwa [KS.die d .cals (by decide)]
  have hvalues : (kept.cal d i).values = values :=
    (Hw.cal_calStore_field _ d i (·.values) (fun _ _ => rfl) d i).trans (congrArg Cal.values (Hw.cal_onCal_self _ _ hd' hi'))
  have hdone : i < ((applied.event d Ev.calDone
      (leBytes 1 i ++ leBytes 4 quality ++ leBytes 4 (applied.rd d A.cal_runs i))).die d).cals.length := by
    rw [KD.die d .cals (by decide), Hw.cals_length_calStore, Hw.cals_length_onCal]
    exact hi'
  refine ⟨?_, ?_, ?_, ?_⟩
  · rw [(Hw.calEnd_only ..).read A.cal_state (by decide), KD.read A.cal_state (by decide), KK.read A.cal_state (by decide), hstate]
  · rw [(Hw.calEnd_only ..).read A.quality (by decide), KD.read A.quality (by decide), KK.read A.quality (by decide), hqual]
  · rw [Hw.cal_calEnd]
    refine (Hw.cal_onCal_field _ d i _ (·.values) ?_ d i).trans ((congrArg Cal.values (KD.cal (by decide) d i)).trans hvalues)
    exact fun _ => rfl
  · rw [Hw.cal_calEnd, Hw.cal_onCal_self _ _ (by rwa [KD.len, KK.len]) hdone]

/-- CAL_DONE of a run whose figure is good. -/
theorem execCalDone_good {quality : Nat} {values : List Byte} (hd : d < s.hw.dies.length) (h5 : i < 5)
    (hlen : i < (s.hw.die d).cals.length) (hwork : ((s.hw.die d).cals.getD i {}).work ≠ 0)
    (hrun : ((s.hw.die d).cals.getD i {}).work ≠ 3) (hvref : i = 1 → s.hw.rd d A.vref_mv 1 ≠ 0)
    (hgood : s.begun.calBad d i quality = false) :
    ∃ t, execCalDone d i quality values s = .next t ∧ s.SameMem t ∧ t.hw.rd d A.cal_state i = 1 ∧
      t.hw.rd d A.quality i = quality ∧ ((t.hw.die d).cals.getD i {}).values = values ∧ ((t.hw.die d).cals.getD i {}).work = 0 := by
  have hn : execCalDone d i quality values s = .next (s.run fun _ _ => s.begun.calSucceed d i quality values) :=
    State.onUnit_works hd h5 ((if_neg hwork).trans ((if_neg hrun).trans ((if_neg fun hno => hvref hno.1 hno.2).trans
      (if_neg (by simp [hgood])))))
  refine ⟨_, hn, (execCalDone_within _ _ _ _ _ hn).sameMem, ?_⟩
  rw [State.run_rd, State.run_rd, State.run_die]
  exact s.begun.calSucceed_ends quality values hd hlen

/-- CAL_DONE of a run whose figure fails it: the values before stay in force. -/
theorem execCalDone_bad {quality : Nat} {values : List Byte} (hd : d < s.hw.dies.length) (h5 : i < 5)
    (hlen : i < (s.hw.die d).cals.length) (hwork : ((s.hw.die d).cals.getD i {}).work ≠ 0)
    (hrun : ((s.hw.die d).cals.getD i {}).work ≠ 3) (hvref : i = 1 → s.hw.rd d A.vref_mv 1 ≠ 0)
    (hbad : s.begun.calBad d i quality = true) :
    ∃ t, execCalDone d i quality values s = .next t ∧ s.SameMem t ∧ t.hw.rd d A.cal_state i = 4 ∧
      ((t.hw.die d).cals.getD i {}).values = ((s.hw.die d).cals.getD i {}).values ∧ ((t.hw.die d).cals.getD i {}).work = 0 := by
  have hn : execCalDone d i quality values s = .next (s.run fun _ _ => s.begun.calFail d i 4 0 quality) :=
    State.onUnit_works hd h5 ((if_neg hwork).trans ((if_neg hrun).trans ((if_neg fun hno => hvref hno.1 hno.2).trans (if_pos hbad))))
  have hcal := s.begun.cal_calFail 4 0 quality hd hlen
  have hvalues := congrArg Cal.values hcal
  have hidle := congrArg Cal.work hcal
  refine ⟨_, hn, (execCalDone_within _ _ _ _ _ hn).sameMem, ?_⟩
  rw [State.run_rd, State.run_die]
  exact ⟨(s.begun.rd_calFail d 4 0 quality h5).1, hvalues, hidle⟩

/-- CAL_NO_GAP: the run is given up for 10 s, with the state before it. -/
theorem execCalNoGap_retries (hd : d < s.hw.dies.length) (h5 : i < 5) (hlen : i < (s.hw.die d).cals.length)
    (hwork : ((s.hw.die d).cals.getD i {}).work = 2) :
    ∃ t, execCalNoGap d i s = .next t ∧ s.SameMem t ∧ t.hw.rd d A.cal_state i = ((s.hw.die d).cals.getD i {}).before ∧
      ((t.hw.die d).cals.getD i {}).retry = some (t.hw.clk + 10 ^ 10) := by
  have hn : execCalNoGap d i s = .next (s.run _) := State.onUnit_works hd h5 (if_neg (not_not.2 hwork))
  refine ⟨_, hn, (execCalNoGap_within _ _ _ hn).sameMem, ?_, ?_⟩
  · rw [State.run_rd, Hw.rd_onCal, (Hw.rd_calFail _ _ _ _ _ h5).1]
    rfl
  · rw [State.run_die, State.run_clk, ← Hw.cal, Hw.cal_onCal_self, (Hw.onCal_only ..).hw .clk (by decide),
      (Hw.calFail_only ..).hw .clk (by decide)]
    · rwa [(Hw.calFail_only ..).len, (Hw.tick_only ..).len]
    · rwa [Hw.cals_length_calFail, (Hw.tick_only ..).die _ .cals (by decide)]

/-- Settles O37, by what each form of CAL_RUN and each end of a calibration's work leave. -/
theorem calibrationRowsComplete : Obligations.CalibrationRowsComplete := by
  unfold Obligations.CalibrationRowsComplete
  exact ⟨fun _ _ _ hA h0 h32 h4 hidle hprint hch => execCalRun_starts hA h0 h32 h4 hidle hprint hch,
    fun _ _ _ hA h0 h32 h4 hidle => execCalRunGap_starts hA h0 h32 h4 hidle,
    fun _ _ _ hA h0 h32 h4 => execCalQuality_status hA h0 h32 h4,
    fun _ _ _ hA h0 h32 h4 hrun => execCalAbort_aborts hA h0 h32 h4 hrun,
    fun _ _ _ _ _ hd h5 hlen hwork hrun hvref hgood => execCalDone_good hd h5 hlen hwork hrun hvref hgood,
    fun _ _ _ _ _ hd h5 hlen hwork hrun hvref hbad => execCalDone_bad hd h5 hlen hwork hrun hvref hbad,
    fun _ _ _ hd h5 hlen hwork => execCalNoGap_retries hd h5 hlen hwork⟩

end Sys2Proof.Machine
end

section
/-!
PROOFS. Housekeeping and the thermal limits (R441, R442, R453, R454, R468): what a round shows, what a critical shutdown and a
trip leave, and what a domain that goes off does not touch (R505).
-/
-- One proof after the other: the text is checked as one, and proofs side by side pass the check's memory.
set_option Elab.async false
namespace Sys2Proof.Machine
variable {s : State} {h : Hdr} {k k' : Hw} {d e i j : Nat} {a : AttrId}

/-! ### Domains that go off (R505) -/

/-- Entries dropped from an association list leave what is found under every key that is kept. -/
theorem regFind_filter {α : Type} (p : RegKey → Bool) {key : RegKey} (hp : p key = true) (l : List (RegKey × α)) :
    regFind (l.filter fun x => p x.1) key = regFind l key := by
  induction l with
  | nil => rfl
  | cons x l ih =>
    by_cases hx : p x.1 = true
    · rw [List.filter_cons, if_pos hx]
      simp only [regFind, ih]
    · have hne : x.1 ≠ key := fun hno => hx (hno ▸ hp)
      rw [List.filter_cons, if_neg hx, ih]
      simp [regFind, hne]

theorem notMem_domainClasses {c : Nat} (hc : classDomain c = none) (dom : Nat) : c ∉ domainClasses dom := by
  have hnone := List.find?_eq_none.1 hc
  unfold domainClasses
  split
  case h_1 => exact fun hm => hnone 3 (by decide) (List.contains_iff_mem.2 hm)
  case h_2 => exact fun hm => hnone 4 (by decide) (List.contains_iff_mem.2 hm)
  case h_3 => exact fun hm => hnone 5 (by decide) (List.contains_iff_mem.2 hm)
  case h_4 => exact fun hm => hnone 6 (by decide) (List.contains_iff_mem.2 hm)
  case h_5 => exact fun hm => hnone 7 (by decide) (List.contains_iff_mem.2 hm)
  case h_6 => exact List.not_mem_nil

/-- An attribute of AO or the core that no domain holds: class 0x18 goes with LINK, and the recorder's 0x1F may move with the pins. -/
abbrev AttrId.Outlives (a : AttrId) : Prop := classDomain a.cls = none ∧ a.cls ∉ [0x18, 0x1F] ∧ a.code ≠ 0x1F

theorem Hw.rd_lose (k : Hw) (d dom : Nat) (ha : a.Outlives) (e i : Nat) : (k.lose d dom).rd e a i = k.rd e a i := by
  obtain ⟨hdom, hcls, hcode⟩ := ha
  have hmine : regFind (k.regs.filter fun x => !(x.1.die == d && (domainClasses dom).contains x.1.cls)) (rkey e a i) =
      regFind k.regs (rkey e a i) := by
    refine regFind_filter (fun key => !(key.die == d && (domainClasses dom).contains key.cls)) ?_ k.regs
    simp [rkey_cls, notMem_domainClasses hdom dom]
  unfold Hw.lose
  extract_lets mine cut emptied
  have hcut : emptied.rd e a i = k.rd e a i := congrArg (·.getD (regReset (rkey e a i))) hmine
  split
  case h_2 =>
    rw [(Hw.showPins_only _).read a (by simp_all)]
    exact hcut
  case h_3 =>
    split
    · have hlink : regFind (emptied.regs.filter fun x => !(x.1.cls == 0x18 && x.1.inst == d)) (rkey e a i) =
          regFind emptied.regs (rkey e a i) := by
        refine regFind_filter (fun key => !(key.cls == 0x18 && key.inst == d)) ?_ emptied.regs
        simp_all [rkey_cls]
      exact (congrArg (·.getD (regReset (rkey e a i))) hlink).trans hcut
    · exact hcut
  all_goals exact hcut

/-- A domain switched off: its state is lost, and `pd_on` shows it. -/
def Hw.switchOff (k : Hw) (d b : Nat) : Hw := (k.lose d b).wr d A.pd_on 0 (putBit (k.rd d A.pd_on 0) b false)

/-- The domains of `mask` that are on, in the order of switching off. -/
def Hw.toSwitchOff (k : Hw) (d mask : Nat) : List Nat := offOrder.filter fun b => mask.testBit b && (k.rd d A.pd_on 0).testBit b

/-- After the domains are off, only the handling of a stopped management processor and the event follow. -/
theorem Hw.domainsOff_after (k : Hw) (d mask cause : Nat) :
    Hw.Only [0x1f, 0x1e0002, 0x1e0003] [.front, .buckets, .folded, .up] [.lead, .leadSt, .takeover, .kennelWriting, .faultMask]
      ((k.toSwitchOff d mask).foldl (fun k b => k.switchOff d b) k) (k.domainsOff d mask cause) := by
  unfold Hw.domainsOff
  dsimp only
  split
  · exact (Hw.mgmtStop_only ..).step (Hw.pdChange_only ..) (by decide)
  · exact (Hw.pdChange_only ..).mono (by decide)

theorem Hw.rd_foldl_switchOff (ha : a.Outlives) (hpd : A.pd_on ≠ a) (d e i : Nat) (l : List Nat) (k : Hw) :
    (l.foldl (fun k b => k.switchOff d b) k).rd e a i = k.rd e a i := by
  induction l generalizing k with
  | nil => rfl
  | cons b l ih => exact (ih _).trans ((Hw.rd_wr_ne _ hpd ..).trans (k.rd_lose d b ha e i))

/-! ### A round of housekeeping (R441, R442, R467) -/

@[simp] theorem Hw.rd_onSensor (k : Hw) (d ch : Nat) (f : Sensor → Sensor) (e : Nat) (a : AttrId) (i : Nat) :
    (k.onSensor d ch f).rd e a i = k.rd e a i := rfl

/-- What a write shows of an attribute depends on the record only through that attribute. -/
theorem Hw.rd_wr_congr (hk : k'.rd e a j = k.rd e a j) (d i v : Nat) : (k'.wr d a i v).rd e a j = (k.wr d a i v).rd e a j := by
  by_cases hkey : rkey d a i = rkey e a j
  · rw [Hw.rd, Hw.rd, ← hkey, Hw.wr, Hw.wr, Hw.rdk_wrk_self, Hw.rdk_wrk_self]
  · exact (k'.rdk_wrk_ne v hkey).trans (hk.trans (k.rdk_wrk_ne v hkey).symm)

theorem Hw.rd_sensorShow_raw (k : Hw) (d ch raw : Nat) (v : Option Int) (e j : Nat) :
    (k.sensorShow d ch raw v).rd e A.sn_raw j = (k.wr d A.sn_raw ch raw).rd e A.sn_raw j := by
  have hshown : ((((k.wr d A.sn_raw ch raw).wr d A.sn_tb1 ch (k.tb d 1)).wr d A.sn_kind ch (sensorKind ch))).rd e A.sn_raw j =
      (k.wr d A.sn_raw ch raw).rd e A.sn_raw j := (Hw.rd_wr_ne _ (by decide) ..).trans (Hw.rd_wr_ne _ (by decide) ..)
  unfold Hw.sensorShow
  extract_lets shown
  split
  case h_1 => exact (Hw.rd_wr_ne _ (by decide) ..).trans hshown
  case h_2 t =>
    have hif (x : Hw) (c : Prop) [Decidable c] {b : AttrId} (hb : b ≠ A.sn_raw) :
        (if c then x.wrS d b ch 16 t else x).rd e A.sn_raw j = x.rd e A.sn_raw j := by
      split
      · exact x.rd_wrS_ne hb ..
      · rfl
    dsimp only
    rw [hif _ _ (by decide), hif _ _ (by decide), Hw.rd_wrS_ne _ (by decide)]
    exact hshown

/-- A DIE or HEAD channel shows its raw code and leaves the codes of the others. -/
theorem Hw.rd_thermRead_raw (k : Hw) (d ch raw : Nat) (temp : Option Int) (e j : Nat) :
    (k.thermRead d ch raw temp).rd e A.sn_raw j = (k.wr d A.sn_raw ch raw).rd e A.sn_raw j := by
  have hif (x : Hw) (c : Prop) [Decidable c] (code : Nat) (data : List Byte) :
      (if c then x else x.event d code data).rd e A.sn_raw j = x.rd e A.sn_raw j := by
    split
    · rfl
    · exact x.rd_event _ _ _ _ _ (by decide)
  unfold Hw.thermRead
  dsimp only
  split
  · rw [Hw.rd_onSensor, Hw.rd_wr_ne _ (by decide), Hw.rd_wr_ne _ (by decide), (Hw.riseEvent_only ..).read A.sn_raw (by decide),
      Hw.rd_sensorShow_raw, Hw.rd_wr_congr (hif ..)]
  · rw [Hw.rd_onSensor, Hw.rd_wr_ne _ (by decide), Hw.rd_wr_ne _ (by decide), hif, (Hw.riseEvent_only ..).read A.sn_raw (by decide),
      Hw.rd_sensorShow_raw, Hw.rd_wr_congr (hif ..)]

/-- A voltage channel shows its raw code and leaves the codes of the others. -/
theorem Hw.rd_voltRead_raw (k : Hw) (d ch raw : Nat) (mv : Int) (e j : Nat) :
    (k.voltRead d ch raw mv).rd e A.sn_raw j = (k.wr d A.sn_raw ch raw).rd e A.sn_raw j := by
  have hif (x : Hw) (c : Prop) [Decidable c] (code : Nat) (data : List Byte) :
      (if c then x.event d code data else x).rd e A.sn_raw j = x.rd e A.sn_raw j := by
    split
    · exact x.rd_event _ _ _ _ _ (by decide)
    · rfl
  unfold Hw.voltRead
  dsimp only
  split
  · exact k.rd_sensorShow_raw ..
  · rw [Hw.rd_onSensor, hif, hif, Hw.rd_sensorShow_raw]

/-- A channel read in a round. -/
def Hw.chanRead (k : Hw) (d : Nat) (odd : Bool) (raws : List Nat) (vals : List Int) (ch : Nat) : Hw :=
  let raw := raws.getD ch 0 % 4096
  if ch < 6 then k.thermRead d ch raw (some (vals.getD ch 0))
  else if ch < 30 then k.thermRead d ch raw (headTemp (codeOf odd raw) (k.rd d A.ohm_25c ch) (k.rd d A.beta ch))
  else k.voltRead d ch raw (vals.getD ch 0)

theorem Hw.chanRead_only (k : Hw) (d : Nat) (odd : Bool) (raws : List Nat) (vals : List Int) (ch : Nat) :
    Hw.Only [0x1f, 0x1b0001, 0x1b0002, 0x1b0003, 0x1b0004, 0x1b0005, 0x1b0006, 0x1b0007, 0x1b0008] [.front, .buckets, .folded, .sensors]
      [] k (k.chanRead d odd raws vals ch) := by
  unfold Hw.chanRead
  dsimp only
  split
  · exact k.thermRead_only ..
  split
  · exact k.thermRead_only ..
  · exact (k.voltRead_only ..).mono (by decide)

theorem Hw.rd_chanRead_raw (k : Hw) (d : Nat) (odd : Bool) (raws : List Nat) (vals : List Int) (ch e j : Nat) :
    (k.chanRead d odd raws vals ch).rd e A.sn_raw j = (k.wr d A.sn_raw ch (raws.getD ch 0 % 4096)).rd e A.sn_raw j := by
  unfold Hw.chanRead
  dsimp only
  split
  · exact k.rd_thermRead_raw ..
  split
  · exact k.rd_thermRead_raw ..
  · exact k.rd_voltRead_raw ..

/-- What a round does after the readings: the policy, NV writing and the calibrations (R450 to R456, R460, R463). -/
def Hw.policyRound (k : Hw) (d : Nat) (old : List Sensor) (r38 r58 : Nat) : Hw :=
  let k := ((((k.throttleRound d).speedRound d).nvRound d).criticalRound d old).adcRound d r38 r58
  (k.calsOf d).foldl (fun (k : Hw) i => k.calRound d i) k

theorem Hw.policyRound_only (k : Hw) (d : Nat) (old : List Sensor) (r38 r58 : Nat) :
    Hw.Only [0x1f, 0x1c0003, 0x60003, 0x1c0008, 0x1c0009, 0x1d000a, 0xc0022, 0xc0023, 0xc0025, 0x1d0001, 0x1d0008, 0x1d0009]
      [.front, .buckets, .folded, .cals, .nvTables, .nvWait, .ctxs, .stop, .crit] [.hsPins, .fwKept, .free] k
      (k.policyRound d old r38 r58) :=
  .foldl ((((((k.throttleRound_only d).mono (by decide)).step (Hw.speedRound_only ..) (by decide)).step (Hw.nvRound_only ..)
    (by decide)).step (Hw.criticalRound_only ..) (by decide)).step (Hw.adcRound_only ..) (by decide))
    (fun k i => (k.calRound_only d i).mono (by decide)) _

theorem rounds_width : (attrRow? A.rounds.cls 0 A.rounds.id).map (·.width) = some 32 := by decide

theorem execHousekeepingRound_shows {at_ : Nat} {raws : List Nat} {vals : List Int} (hd : d < s.hw.dies.length) :
    ∃ t, execHousekeepingRound d at_ raws vals s = .next t ∧ s.SameMem t ∧
      t.hw.rd d A.rounds 0 = (s.hw.rd d A.rounds 0 + 1) % 2 ^ 32 ∧ ∀ ch < 64, t.hw.rd d A.sn_raw ch = raws.getD ch 0 % 4096 := by
  obtain ⟨odd, old, r38, r58, hn⟩ : ∃ odd old r38 r58, execHousekeepingRound d at_ raws vals s = .next (s.run fun _ _ =>
      ((((List.range 64).foldl (fun k ch => k.chanRead d odd raws vals ch) (s.begun.until d at_)).tjRound d).add d A.rounds 0).policyRound
        d old r38 r58) := ⟨_, _, _, _, State.onDie_works hd rfl⟩
  have hread := Hw.Only.foldl (.refl _ _ _ (s.begun.until d at_)) (fun k ch => k.chanRead_only d odd raws vals ch) (List.range 64)
  refine ⟨_, hn, (execHousekeepingRound_within _ _ _ _ _ hn).sameMem, ?_, fun ch h64 => ?_⟩
  · rw [State.run_rd, (Hw.policyRound_only ..).read A.rounds (by decide), Hw.rd_add_wrap32 _ _ rounds_width,
      (Hw.tjRound_only ..).read A.rounds (by decide), hread.read A.rounds (by decide), (Hw.until_only ..).read A.rounds (by decide)]
    rfl
  · rw [State.run_rd, (Hw.policyRound_only ..).read A.sn_raw (by decide), Hw.rd_add_ne _ (by decide),
      (Hw.tjRound_only ..).read A.sn_raw (by decide)]
    refine foldl_settles (f := fun (k : Hw) ch => k.chanRead d odd raws vals ch) (Pre := fun _ _ => True)
      (Post := fun ch k => k.rd d A.sn_raw ch = raws.getD ch 0 % 4096) (fun i k _ => ?does) (fun _ _ _ _ _ => trivial)
      (fun i j k hij hi => ?others) List.nodup_range (fun _ _ => trivial) ch (List.mem_range.2 h64)
    case does => exact (k.rd_chanRead_raw ..).trans (Hw.rd_wr_self ..)
    case others => exact (k.rd_chanRead_raw ..).trans ((Hw.rd_wr_unit _ (by decide) hij.symm ..).trans hi)

/-! ### Critical shutdown and trip (R453, R454) -/

/-- The ports and domains that a critical shutdown switches off. -/
def Hw.critOff (k : Hw) (d : Nat) (chs : List Nat) : Hw :=
  let k := (chs.filter fun ch => 6 ≤ ch).foldl (fun (k : Hw) ch => k.portOff d (ch - 6)) k
  if chs.any (· < 6) then
    let mask := 2 ^ domHEAD + 2 ^ domVIEW + 2 ^ domCODEC + 2 ^ domLINE + 2 ^ domMEM
    (k.wr d A.shutdown 0 (k.rd d A.shutdown 0 ||| (mask &&& k.rd d A.pd_on 0))).domainsOff d mask 2
  else k

theorem Hw.crit_critOff (k : Hw) (d : Nat) (chs : List Nat) (e : Nat) : ((k.critOff d chs).die e).crit = (k.die e).crit := by
  have hports := Hw.Only.foldl (.refl _ _ _ k) (fun k ch => k.portOff_only d (ch - 6)) (chs.filter fun ch => 6 ≤ ch)
  unfold Hw.critOff
  dsimp only
  split
  · rw [(Hw.domainsOff_only ..).die e .crit (by decide), (Hw.wr_only ..).die e .crit (by decide), hports.die e .crit (by decide)]
  · exact hports.die e .crit (by decide)

theorem execCriticalShutdown_ends (hd : d < s.hw.dies.length) (hcrit : (s.hw.die d).crit.isSome) :
    ∃ t, execCriticalShutdown d s = .next t ∧ (t.hw.die d).crit = none := by
  obtain ⟨⟨since, chs⟩, hc⟩ := Option.isSome_iff_exists.1 hcrit
  obtain ⟨w, hw, hn⟩ : ∃ w : Hw, w.dies.length = s.hw.dies.length ∧ execCriticalShutdown d s =
      .next (s.run fun _ _ => (w.onDie d fun D => { D with crit := none }).critOff d chs) := by
    by_cases hstands : ((List.range s.begun.n).filter fun d => (s.begun.die d).stop.active) ≠ [] ∧
        ((List.range s.begun.n).filter fun d => (s.begun.die d).stop.active).all fun d => (s.begun.die d).stop.standstill
    · refine ⟨s.begun, rfl, State.onDie_works hd ?_⟩
      split
      case h_1 hno => cases hc.symm.trans hno
      case h_2 hsome =>
        cases hc.symm.trans hsome
        dsimp only
        rw [if_pos hstands]
        rfl
    · refine ⟨_, (Hw.tick_only s.begun ((since + 10 ^ 6 * s.begun.rd d A.crit_stop_ms 0 - s.begun.clk + 1) / 2)).len,
        State.onDie_works hd ?_⟩
      split
      case h_1 hno => cases hc.symm.trans hno
      case h_2 hsome =>
        cases hc.symm.trans hsome
        dsimp only
        rw [if_neg hstands]
        rfl
  refine ⟨_, hn, ?_⟩
  rw [State.run_die, Hw.crit_critOff, Hw.die_onDie_self _ _ (by rwa [hw])]

/-- The die whose sensor trips: latched, its domains off, its mark in the fault mask. -/
def Hw.tripped (k : Hw) (d sensor : Nat) : Hw :=
  let on := k.rd d A.pd_on 0
  let k := ((k.disarm d).wr d A.trip_latched 0 1).add d A.trips 0
  let k := (k.wr d A.shutdown 0 (k.rd d A.shutdown 0 ||| (on &&& 0xFE))).domainsOff d 0xFE 3
  (k.setFault d true).event d Ev.thermTrip (leBytes 1 sensor ++ leBytes 8 (k.tb d 1))

theorem Hw.rd_tripped_latch (k : Hw) (d sensor : Nat) : (k.tripped d sensor).rd d A.trip_latched 0 = 1 := by
  unfold Hw.tripped
  dsimp only
  rw [Hw.rd_event _ _ _ _ _ _ (by decide), (Hw.setFault_only ..).read A.trip_latched (by decide),
    (Hw.domainsOff_after ..).read A.trip_latched (by decide), Hw.rd_foldl_switchOff (by decide) (by decide),
    Hw.rd_wr_ne _ (by decide), Hw.rd_add_ne _ (by decide), Hw.rd_wr_self]

theorem Hw.faultMask_tripped (k : Hw) (d sensor : Nat) : (k.tripped d sensor).faultMask.testBit d = true := by
  unfold Hw.tripped
  dsimp only
  rw [Hw.event_faultMask]
  exact Hw.faultMask_setFault_on ..

theorem Hw.length_tripped (k : Hw) (d sensor : Nat) : (k.tripped d sensor).dies.length = k.dies.length := by
  unfold Hw.tripped
  dsimp only
  rw [(Hw.event_only ..).len, (Hw.setFault_only ..).len, (Hw.domainsOff_only ..).len]
  exact (Hw.disarm_only ..).len

theorem execThermTrip_next {sensor at_ : Nat} (hd : d < s.hw.dies.length) (h6 : sensor < 6)
    (hsound : s.hw.rd d A.sn_flags sensor &&& 6 = 0) : ∃ others : List Nat, execThermTrip d sensor at_ s = .next (s.run fun _ _ =>
      others.foldl (fun k e => k.stopOn e 4) (((s.begun.until d at_).tripped d sensor).onDie d fun D => { D with crit := none })) := by
  have hflags : (s.begun.until d at_).rd d A.sn_flags sensor &&& 6 = 0 := by
    rw [(Hw.until_only s.begun d at_).read A.sn_flags (by decide)]
    exact hsound
  refine ⟨(List.range (s.begun.until d at_).n).filter fun e => e != d && (s.begun.until d at_).printing e,
    State.onUnit_works hd h6 ?_⟩
  rw [if_neg (not_not.2 hflags)]
  rfl

theorem execThermTrip_latches {sensor at_ : Nat} (hd : d < s.hw.dies.length) (h6 : sensor < 6)
    (hsound : s.hw.rd d A.sn_flags sensor &&& 6 = 0) :
    ∃ t, execThermTrip d sensor at_ s = .next t ∧ t.hw.rd d A.trip_latched 0 = 1 ∧ t.hw.faultMask.testBit d = true ∧
      (t.hw.die d).crit = none := by
  obtain ⟨others, hn⟩ := execThermTrip_next (s := s) (at_ := at_) hd h6 hsound
  have hstop := Hw.Only.foldl (.refl _ _ _ (((s.begun.until d at_).tripped d sensor).onDie d fun D => { D with crit := none }))
    (fun k e => k.stopOn_only e 4) others
  refine ⟨_, hn, ?_, ?_, ?_⟩
  · rw [State.run_rd, hstop.read A.trip_latched (by decide), Hw.rd_onDie, Hw.rd_tripped_latch]
  · rw [State.run_faultMask, hstop.hw .faultMask (by decide), Hw.onDie_faultMask, Hw.faultMask_tripped]
  · rw [State.run_die, hstop.die d .crit (by decide), Hw.die_onDie_self]
    rw [Hw.length_tripped, (Hw.until_only ..).len]
    exact hd

/-- THERM_STATUS reads the die's registers as they stand. -/
theorem execThermStatus_reads (hA : s.Admits h 0x0D02 (opObj 0x0D02 0)) :
    ∃ t, execThermStatus h s = .next t ∧ s.SameMem t ∧ ∃ w, t.replyOf h = some (.words
      [s.hw.rd h.die A.tj_max 0 * 2 ^ 16 + s.hw.rd h.die A.tj_mean 0, w, s.hw.rd h.die A.rounds 0,
        ((List.range 5).map fun i => s.hw.rd h.die A.cal_state i * 16 ^ i).sum]) := by
  obtain ⟨t, hn, E⟩ := State.command_ends (s := s) hA rfl
  exact ⟨t, hn, (execThermStatus_within _ _ hn).sameMem, _, E.reply⟩

/-- Settles O36, by what a round, a critical shutdown, a trip and THERM_STATUS leave. -/
theorem thermalRowsComplete : Obligations.ThermalRowsComplete := by
  unfold Obligations.ThermalRowsComplete
  exact ⟨fun _ _ _ _ _ hd => execHousekeepingRound_shows hd, fun _ _ hd hcrit => execCriticalShutdown_ends hd hcrit,
    fun _ _ _ _ hd h6 hsound => execThermTrip_latches hd h6 hsound, fun _ _ hA => execThermStatus_reads hA⟩

end Sys2Proof.Machine
end

section
/-!
PROOFS. Domains and resets by command (R454, R504, R505, R513, R533).
-/
-- One proof after the other: the text is checked as one, and proofs side by side pass the check's memory.
set_option Elab.async false
namespace Sys2Proof.Machine
variable {C : List Nat} {F : List DieRec} {G : List HwRec} {s : State} {h : Hdr} {k k' : Hw} {d b die mask : Nat}

/-! ### Commands on a die of the package -/

theorem Hw.Only.printing (K : Hw.Only C F G k k') (hF : .ctxs ∉ F) (hC : 0 ∉ C ∧ A.printing.cls ∉ C ∧ A.printing.code ∉ C)
    (d : Nat) :
    k'.printing d = k.printing d := by
  have hctxs : (k'.die d).ctxs = (k.die d).ctxs := K.die d .ctxs hF
  simp only [Hw.printing, Hw.printingCtxs, hctxs, K.read A.printing hC]

theorem State.atWork_printing (s : State) (q : Hdr) (d : Nat) : (s.atWork q).printing d = s.begun.printing d :=
  (s.begun.started_only q).printing (by decide) (by decide) d

theorem powerCommand_ends {body : Nat → Hw → Reply × Hw} {w : Reply × Hw} (hA : s.Admits h 0x0F01 (opObj 0x0F01 0))
    (hd : die < s.hw.dies.length) (hb : body (s.hw.execDie h 0x0F01 (opObj 0x0F01 0)) (s.atWork h) = w) :
    ∃ t, powerCommand h die s body = .next t ∧ s.Ends h w t := by
  rw [powerCommand, if_pos hd]
  exact State.command_ends hA hb

/-! ### Switching on (R504, R533) -/

/-- The domains of a mask that are off, as a mask. -/
def domainsToSwitch (on mask : Nat) : Nat :=
  ((((List.range 8).filter fun b => mask.testBit b).filter fun b => !on.testBit b).map (2 ^ ·)).sum

theorem sum_bits_range (mask n : Nat) : (((List.range n).filter fun b => mask.testBit b).map (2 ^ ·)).sum = mask % 2 ^ n := by
  induction n with
  | zero => simp [Nat.mod_one]
  | succ n ih =>
    rw [List.range_succ, List.filter_append, List.map_append, List.sum_append, ih, Nat.mod_pow_succ]
    rcases Nat.mod_two_eq_zero_or_one (mask / 2 ^ n) with hn | hn <;> simp [Nat.testBit_eq_decide_div_mod_eq, hn]

theorem domainsToSwitch_of_off {on : Nat} (hm : mask < 256) (hoff : on &&& mask = 0) : domainsToSwitch on mask = mask := by
  have hall : (((List.range 8).filter fun b => mask.testBit b).filter fun b => !on.testBit b) =
      (List.range 8).filter fun b => mask.testBit b := by
    refine List.filter_eq_self.2 fun b hb => ?_
    have hbit : (on &&& mask).testBit b = false := by rw [hoff, Nat.zero_testBit]
    rw [Nat.testBit_and, (List.mem_filter.1 hb).2, Bool.and_true] at hbit
    rw [hbit]
    rfl
  rw [domainsToSwitch, hall, sum_bits_range]
  exact Nat.mod_eq_of_lt hm

theorem any_named_of_needs {on : Nat} (hneeds : ∀ b < 8, mask.testBit b = true → (on ||| mask ||| 1).testBit (domainNeeds b) = true) :
    (((List.range 8).filter fun b => mask.testBit b).any fun b => !(on ||| mask ||| 1).testBit (domainNeeds b)) = false := by
  refine List.any_eq_false.2 fun b hb => ?_
  obtain ⟨h8, hbit⟩ := List.mem_filter.1 hb
  rw [hneeds b (List.mem_range.1 h8) hbit]
  decide

/-- Work on domains begun stands at the end of the die's list. -/
theorem Hw.pdWork_switchOn (k : Hw) (id mask : Nat) (boots : Bool) (hd : d < k.dies.length) :
    ((k.switchOn d id mask boots).die d).pdWork = (k.die d).pdWork ++ [(id, mask, boots)] := by
  rw [Hw.switchOn, Hw.die_onDie_self _ _ (by exact hd)]
  rfl

theorem execDomainOn_begins (hA : s.Admits h 0x0F01 (opObj 0x0F01 0)) (hd : die < s.hw.dies.length) (h0 : mask.testBit 0 = false)
    (hm : mask < 256)
    (hneeds : ∀ b < 8, mask.testBit b = true → (s.hw.rd die A.pd_on 0 ||| mask ||| 1).testBit (domainNeeds b) = true)
    (htrip : s.hw.rd die A.trip_latched 0 ≠ 1) (hwarm : ∀ ch < 6, s.begun.warm die ch = false) :
    ∃ t, execDomainOn h die mask s = .next t ∧ s.SameMem t ∧ t.statusOf h = some .deferred ∧
      (mask ≠ 0 → s.hw.rd die A.pd_on 0 &&& mask = 0 → ∃ id,
        (t.hw.die die).pdWork = (s.hw.die die).pdWork ++ [(id, mask, false)]) := by
  have hrange : ¬(mask.testBit 0 = true ∨ 256 ≤ mask) := fun hno =>
    hno.elim (fun hbit => Bool.noConfusion (hbit.symm.trans h0)) (Nat.not_le.2 hm)
  have hstate : ¬((((List.range 8).filter fun b => mask.testBit b).any fun b =>
      !(s.hw.rd die A.pd_on 0 ||| mask ||| 1).testBit (domainNeeds b)) = true ∨ s.hw.rd die A.trip_latched 0 = 1 ∨
      dieChannels.any (s.begun.warm die) = true) := by
    rintro (hno | hno | hno)
    · exact Bool.noConfusion (hno.symm.trans (any_named_of_needs hneeds))
    · exact htrip hno
    · obtain ⟨ch, hch, hw⟩ := List.any_eq_true.1 hno
      exact Bool.noConfusion (hw.symm.trans (hwarm ch (List.mem_range.1 hch)))
  obtain ⟨t, hn, E⟩ : ∃ t, execDomainOn h die mask s = .next t ∧
      s.Ends h (((s.atWork h).deferWork (s.hw.execDie h 0x0F01 (opObj 0x0F01 0)) h false).2.1,
        let w := (s.atWork h).deferWork (s.hw.execDie h 0x0F01 (opObj 0x0F01 0)) h false
        if domainsToSwitch (s.hw.rd die A.pd_on 0) mask = 0 then w.2.2.settle w.1 0
        else w.2.2.switchOn die w.1 (domainsToSwitch (s.hw.rd die A.pd_on 0) mask) false) t :=
    powerCommand_ends hA hd ((if_neg hrange).trans (if_neg (by exact hstate)))
  refine ⟨t, hn, (execDomainOn_within _ _ _ _ hn).sameMem, E.status, fun hne hoff =>
    ⟨((s.atWork h).deferWork (s.hw.execDie h 0x0F01 (opObj 0x0F01 0)) h false).1, ?_⟩⟩
  rw [E.hw.die die .pdWork (by decide), domainsToSwitch_of_off hm hoff]
  dsimp only
  rw [if_neg hne, Hw.pdWork_switchOn, (Hw.deferWork_only ..).die die .pdWork (by decide), (s.atWork_only h).die die .pdWork (by decide)]
  rw [(Hw.deferWork_only ..).len, State.atWork_length]
  exact hd

/-! ### Switching off (R505, R533) -/

theorem Hw.testBit_foldl_switchOff (l : List Nat) (k : Hw) :
    ((l.foldl (fun k b => k.switchOff d b) k).rd d A.pd_on 0).testBit b = ((k.rd d A.pd_on 0).testBit b && !l.contains b) := by
  induction l generalizing k with
  | nil => simp
  | cons c l ih =>
    have hbit : ((k.switchOff d c).rd d A.pd_on 0).testBit b = if c = b then false else (k.rd d A.pd_on 0).testBit b := by
      rw [Hw.switchOff, Hw.rd_wr_self]
      exact bit_putBit ..
    rw [List.foldl_cons, ih, hbit]
    by_cases hcb : c = b
    · simp [hcb]
    · simp [hcb, Ne.symm hcb]

theorem mem_offOrder : ∀ b < 8, b ≠ 0 → b ∈ offOrder := by decide

/-- Every named domain is off afterwards, and no other. -/
theorem Hw.testBit_domainsOff (k : Hw) (cause : Nat) (h0 : mask.testBit 0 = false) (hb : b < 8) :
    ((k.domainsOff d mask cause).rd d A.pd_on 0).testBit b = ((k.rd d A.pd_on 0).testBit b && !mask.testBit b) := by
  rw [(Hw.domainsOff_after ..).read A.pd_on (by decide), Hw.testBit_foldl_switchOff]
  by_cases hzero : b = 0
  · subst hzero
    simp [Hw.toSwitchOff, h0]
  · have hmem := mem_offOrder b hb hzero
    cases hon : (k.rd d A.pd_on 0).testBit b <;> cases hmask : mask.testBit b <;> simp [Hw.toSwitchOff, hmem, hon, hmask]

theorem execDomainOff_switches (hA : s.Admits h 0x0F01 (opObj 0x0F01 0)) (hd : die < s.hw.dies.length) (h0 : mask.testBit 0 = false)
    (hm : mask < 256) (hprint : s.begun.printing die = false)
    (hstays : ∀ b < 8, (s.hw.rd die A.pd_on 0).testBit b = true → mask.testBit b = false → mask.testBit (domainNeeds b) = false)
    (hlead : mask.testBit 1 = true → s.hw.lead ≠ some die) :
    ∃ t, execDomainOff h die mask s = .next t ∧ t.replyOf h = some .ok ∧
      ∀ b < 8, (t.hw.rd die A.pd_on 0).testBit b = ((s.hw.rd die A.pd_on 0).testBit b && !mask.testBit b) := by
  have hrange : ¬(mask.testBit 0 = true ∨ 256 ≤ mask) := fun hno =>
    hno.elim (fun hbit => Bool.noConfusion (hbit.symm.trans h0)) (Nat.not_le.2 hm)
  have hstate : ¬(((s.atWork h).printing die = true ∧ (mask.testBit domLINE = true ∨ mask.testBit domHEAD = true ∨
        mask.testBit domMEM = true)) ∨
      (((List.range 8).filter fun b => ((s.atWork h).rd die A.pd_on 0).testBit b && !mask.testBit b).any fun b =>
        mask.testBit (domainNeeds b)) = true ∨ (mask.testBit domMGMT = true ∧ (s.atWork h).lead = some die)) := by
    rintro (⟨hno, -⟩ | hno | ⟨hmgmt, hno⟩)
    · exact Bool.noConfusion (hno.symm.trans ((s.atWork_printing h die).trans hprint))
    · obtain ⟨b, hb, hneed⟩ := List.any_eq_true.1 hno
      obtain ⟨h8, hbit⟩ := List.mem_filter.1 hb
      obtain ⟨hon, hmask⟩ := Bool.and_eq_true_iff.1 hbit
      exact Bool.noConfusion (hneed.symm.trans (hstays b (List.mem_range.1 h8) hon (by simpa using hmask)))
    · exact hlead hmgmt hno
  obtain ⟨t, hn, E⟩ : ∃ t, execDomainOff h die mask s = .next t ∧ s.Ends h (okWith
      ((((s.atWork h).wr die A.pd_busy 0 ((s.atWork h).rd die A.pd_busy 0 ||| (mask &&& (s.atWork h).rd die A.pd_on 0))).domainsOff die
        mask 1).setFault die ((s.atWork h).faultMask.testBit die))) t :=
    powerCommand_ends hA hd ((if_neg hrange).trans (if_neg hstate))
  refine ⟨t, hn, E.reply, fun b hb => ?_⟩
  rw [E.hw.read A.pd_on (by decide), okWith, (Hw.setFault_only ..).read A.pd_on (by decide), Hw.testBit_domainsOff _ _ h0 hb,
    Hw.rd_wr_ne _ (by decide)]
  rfl

/-! ### Resets of a die and of the package (R513, R533) -/

theorem Hw.pdWork_dieDown (k : Hw) (hd : d < k.dies.length) : ((k.dieDown d).die d).pdWork = [] := by
  have hlost := Hw.Only.foldl (.refl _ _ _ k) (fun k b => k.lose_only d b) offOrder
  unfold Hw.dieDown
  dsimp only
  rw [Hw.die_onDie_self _ _ (by exact hlost.len.symm ▸ hd)]
  rfl

theorem Hw.pdWork_dieResetFor (k : Hw) (q : Hdr) (hd : d < k.dies.length) : ((k.dieResetFor d q).die d).pdWork = [] := by
  have hlen (x : Hw) (hx : x.dies.length = k.dies.length) :
      (if d < 2 then x.setLd d .faulted else x).dies.length = k.dies.length := by
    split
    · exact (x.setLd_only ..).len.trans hx
    · exact hx
  unfold Hw.dieResetFor
  dsimp only
  rw [Hw.die_onDie_self]
  · refine Hw.pdWork_dieDown _ ?_
    rw [hlen]
    · exact hd
    · rfl
  · rw [(Hw.dieDown_only ..).len, hlen]
    · exact hd
    · rfl

theorem execDieReset_begins (hA : s.Admits h 0x0F01 (opObj 0x0F01 0)) (hd : die < s.hw.dies.length) (hlead : s.hw.lead ≠ some die)
    (hprint : s.begun.printing die = false) :
    ∃ t, execDieReset h die s = .next t ∧ t.statusOf h = some .deferred ∧ t.hw.rd die A.reset_cause 0 = Cause.code .dieCmd ∧
      ∃ id, (t.hw.die die).pdWork = [(id, 0xFE, true)] := by
  have hstate : ¬((s.atWork h).lead = some die ∨ (s.atWork h).printing die = true) := by
    rintro (hno | hno)
    · exact hlead hno
    · exact Bool.noConfusion (hno.symm.trans ((s.atWork_printing h die).trans hprint))
  obtain ⟨t, hn, E⟩ : ∃ t, execDieReset h die s = .next t ∧
      s.Ends h ((((s.atWork h).dieResetFor die h).deferWork (s.hw.execDie h 0x0F01 (opObj 0x0F01 0)) h false).2.1,
        let w := ((s.atWork h).dieResetFor die h).deferWork (s.hw.execDie h 0x0F01 (opObj 0x0F01 0)) h false
        (w.2.2.wr die A.reset_cause 0 Cause.dieCmd.code).switchOn die w.1 0xFE true) t :=
    powerCommand_ends hA hd (if_neg hstate)
  have hlen : ((s.atWork h).dieResetFor die h).dies.length = s.hw.dies.length := (Hw.dieResetFor_only ..).len.trans (State.atWork_length ..)
  refine ⟨t, hn, E.status, ?_, (((s.atWork h).dieResetFor die h).deferWork (s.hw.execDie h 0x0F01 (opObj 0x0F01 0)) h false).1, ?_⟩
  · rw [E.hw.read A.reset_cause (by decide), (Hw.switchOn_only ..).read A.reset_cause (by decide), Hw.rd_wr_self]
  · rw [E.hw.die die .pdWork (by decide), Hw.pdWork_switchOn, (Hw.wr_only ..).die die .pdWork (by decide),
      (Hw.deferWork_only ..).die die .pdWork (by decide), Hw.pdWork_dieResetFor, List.nil_append]
    · rwa [State.atWork_length]
    · rw [(Hw.wr_only ..).len, (Hw.deferWork_only ..).len, hlen]
      exact hd

theorem execPkgReset_due (hA : s.Admits h 0x0F01 (opObj 0x0F01 0)) (hprint : ∀ d < s.hw.n, s.begun.printing d = false) :
    ∃ t, execPkgReset h s = .next t ∧ s.SameMem t ∧ t.replyOf h = some .ok ∧ t.hw.resetDue = some (h.origin, h.tag) := by
  have hstate : ¬((List.range (s.atWork h).n).any (s.atWork h).printing = true) := fun hno => by
    obtain ⟨d, hd, hp⟩ := List.any_eq_true.1 hno
    have hd' : d < s.hw.n := by rwa [List.mem_range, Hw.n, State.atWork_length] at hd
    exact Bool.noConfusion (hp.symm.trans ((s.atWork_printing h d).trans (hprint d hd')))
  obtain ⟨t, hn, E⟩ : ∃ t, execPkgReset h s = .next t ∧
      s.Ends h (okWith { s.atWork h with resetDue := some (h.origin, h.tag) }) t := State.command_ends hA (if_neg hstate)
  exact ⟨t, hn, (execPkgReset_within _ _ hn).sameMem, E.reply, E.hw.hw .resetDue (by decide)⟩

theorem execTripClear_boots (hA : s.Admits h 0x0F01 (opObj 0x0F01 0)) (hd : die < s.hw.dies.length)
    (hwarm : ∀ ch < 30, s.begun.warm die ch = false) (htrip : s.hw.rd die A.trip_latched 0 = 1) :
    ∃ t, execTripClear h die s = .next t ∧ s.SameMem t ∧ t.statusOf h = some .deferred ∧ t.hw.rd die A.trip_latched 0 = 0 ∧
      t.hw.rd die A.reset_cause 0 = Cause.code .dieCmd := by
  have hcool : ¬thermChannels.any (s.begun.warm die) = true := fun hno => by
    obtain ⟨ch, hch, hw⟩ := List.any_eq_true.1 hno
    exact Bool.noConfusion (hw.symm.trans (hwarm ch (List.mem_range.1 hch)))
  have hlatched : ¬((s.atWork h).deferWork (s.hw.execDie h 0x0F01 (opObj 0x0F01 0)) h false).2.2.rd die A.trip_latched 0 = 0 := by
    rw [(Hw.deferWork_only ..).read A.trip_latched (by decide)]
    exact fun hno => absurd (htrip.symm.trans hno) (by decide)
  obtain ⟨t, hn, E⟩ : ∃ t, execTripClear h die s = .next t ∧
      s.Ends h (((s.atWork h).deferWork (s.hw.execDie h 0x0F01 (opObj 0x0F01 0)) h false).2.1,
        let w := (s.atWork h).deferWork (s.hw.execDie h 0x0F01 (opObj 0x0F01 0)) h false
        ((w.2.2.wr die A.trip_latched 0 0).wr die A.reset_cause 0 Cause.dieCmd.code).switchOn die w.1 0xFE true) t :=
    powerCommand_ends hA hd ((if_neg (by exact hcool)).trans (if_neg hlatched))
  refine ⟨t, hn, (execTripClear_within _ _ _ hn).sameMem, E.status, ?_, ?_⟩
  · rw [E.hw.read A.trip_latched (by decide), (Hw.switchOn_only ..).read A.trip_latched (by decide), Hw.rd_wr_ne _ (by decide),
      Hw.rd_wr_self]
  · rw [E.hw.read A.reset_cause (by decide), (Hw.switchOn_only ..).read A.reset_cause (by decide), Hw.rd_wr_self]

/-! ### Switching done (R504) -/

/-- A switching-on of domains that boots no die shows them as on. -/
theorem Hw.rd_switchedOn_on (k : Hw) (die id mask : Nat) :
    (k.switchedOn die (id, mask, false)).rd die A.pd_on 0 = k.rd die A.pd_on 0 ||| mask := by
  have hmgmt (x : Hw) : (if mask.testBit domMGMT = true then
      (if die < 2 then x else x.setFault die false).onDie die fun D => { D with up := true } else x).rd die A.pd_on 0 =
      x.rd die A.pd_on 0 := by
    split
    · rw [Hw.rd_onDie]
      split
      · rfl
      · exact (x.setFault_only ..).read A.pd_on (by decide) ..
    · rfl
  have hline (x : Hw) : (if mask.testBit domLINE = true then x.lineOn die else x).rd die A.pd_on 0 = x.rd die A.pd_on 0 := by
    split
    · exact (x.lineOn_only ..).read A.pd_on (by decide) ..
    · rfl
  unfold Hw.switchedOn
  dsimp only
  rw [if_neg (by simp), if_neg (by decide), Hw.rd_settle, (Hw.pdChange_only ..).read A.pd_on (by decide), hline, hmgmt,
    Hw.rd_wr_ne _ (by decide), Hw.rd_wr_self]

section
variable (hd : die < s.hw.dies.length) (hporst : s.hw.porst = false) (hrail : s.hw.railFault = false) (hclk : s.hw.clkFault = false)
include hd hporst hrail hclk

theorem execDomainSwitchDone_next : execDomainSwitchDone die s = .next (s.run fun _ _ =>
    (s.hw.die die).pdWork.foldl (fun k w => k.switchedOn die w)
      ((s.begun.wr die A.pd_busy 0 0).onDie die fun D => { D with pdWork := [] })) :=
  State.onDie_works hd (if_neg (by simp [hporst, hrail, hclk]))

theorem execDomainSwitchDone_ends :
    ∃ t, execDomainSwitchDone die s = .next t ∧ t.hw.rd die A.pd_busy 0 = 0 ∧ (t.hw.die die).pdWork = [] := by
  have K := Hw.Only.foldl (.refl _ _ _ ((s.begun.wr die A.pd_busy 0 0).onDie die fun D => { D with pdWork := [] }))
    (fun k w => k.switchedOn_only die w) (s.hw.die die).pdWork
  refine ⟨_, execDomainSwitchDone_next hd hporst hrail hclk, ?_, ?_⟩
  · rw [State.run_rd, K.read A.pd_busy (by decide), Hw.rd_onDie, Hw.rd_wr_self]
  · rw [State.run_die, K.die die .pdWork (by decide), Hw.die_onDie_self]
    exact hd

theorem execDomainSwitchDone_on {id : Nat} (hwork : (s.hw.die die).pdWork = [(id, mask, false)]) :
    ∃ t, execDomainSwitchDone die s = .next t ∧ t.hw.rd die A.pd_on 0 = s.hw.rd die A.pd_on 0 ||| mask := by
  refine ⟨_, execDomainSwitchDone_next hd hporst hrail hclk, ?_⟩
  rw [State.run_rd, hwork, List.foldl_cons, List.foldl_nil, Hw.rd_switchedOn_on, Hw.rd_onDie, Hw.rd_wr_ne _ (by decide)]
  rfl

end

/-- Settles O38, by what each form of POWER_CTRL and the end of a switching leave. -/
theorem powerRowsComplete : Obligations.PowerRowsComplete := by
  unfold Obligations.PowerRowsComplete
  exact ⟨fun _ _ _ _ hA hd h0 hm hneeds htrip hwarm => execDomainOn_begins hA hd h0 hm hneeds htrip hwarm,
    fun _ _ _ _ hA hd h0 hm hprint hstays hlead => execDomainOff_switches hA hd h0 hm hprint hstays hlead,
    fun _ _ _ hA hd hlead hprint => execDieReset_begins hA hd hlead hprint,
    fun _ _ hA hprint => execPkgReset_due hA hprint,
    fun _ _ _ hA hd hwarm htrip => execTripClear_boots hA hd hwarm htrip,
    fun _ _ hd hporst hrail hclk => execDomainSwitchDone_ends hd hporst hrail hclk,
    fun _ _ _ _ hd hporst hrail hclk hwork => execDomainSwitchDone_on hd hporst hrail hclk hwork⟩

end Sys2Proof.Machine
end

section
/-!
PROOFS. Resets and boot (R508 to R520): what each reset leaves and what each start of a boot latches.
-/
-- One proof after the other: the text is checked as one, and proofs side by side pass the check's memory.
set_option Elab.async false
namespace Sys2Proof.Machine
variable {s : State} {k : Hw} {d die : Nat}

/-! ### What a reset leaves (R494, R513) -/

theorem Hw.pkgDown_holds (k : Hw) : k.pkgDown.mode = .boot ∧ k.pkgDown.lead = none := by
  unfold Hw.pkgDown
  dsimp only
  exact ⟨((Hw.setLd_only ..).hw .mode (by decide)).trans ((Hw.setLd_only ..).hw .mode (by decide)),
    ((Hw.setLd_only ..).hw .lead (by decide)).trans ((Hw.setLd_only ..).hw .lead (by decide))⟩

/-- A package reset leaves mode BOOT, no lead die and the handshake outputs off. -/
theorem Hw.resetPkg_holds (k : Hw) : k.resetPkg.mode = .boot ∧ k.resetPkg.lead = none ∧ k.resetPkg.hsOn = false := by
  refine ⟨(Hw.pkgDown_holds _).1, (Hw.pkgDown_holds _).2, ?_⟩
  unfold Hw.resetPkg
  extract_lets pins idle
  have hpins : pins.hsOn = false := (Hw.showPins_only _).hw .hsOn (by decide)
  have hidle : idle.hsOn = pins.hsOn := ((Hw.fwAbort_only _).hw .hsOn (by decide)).trans ((Hw.unconfirmed_only _).hw .hsOn (by decide))
  have hdown := Hw.Only.foldl (.refl _ _ _ idle) (fun k d => k.dieDown_only d) (List.range idle.n)
  exact ((Hw.pkgDown_only _).hw .hsOn (by decide)).trans ((hdown.hw .hsOn (by decide)).trans (hidle.trans hpins))

theorem Hw.holdReset_holds (k : Hw) : k.holdReset.mode = .boot ∧ k.holdReset.hsOn = false :=
  ⟨(Hw.resetPkg_holds _).1, (Hw.resetPkg_holds _).2.2⟩

/-- A power-on reset keeps the number of the last entry programmed, the entries up to it, and goes on after it. -/
theorem Hw.resetPor_holds (k : Hw) :
    k.resetPor.porst = true ∧ k.resetPor.mode = .boot ∧ k.resetPor.lead = none ∧ k.resetPor.evtDurable = k.evtDurable ∧
      k.resetPor.evtNext = k.evtDurable + 1 ∧ k.resetPor.ring = k.ring.filter fun e => e.seq ≤ k.evtDurable := by
  unfold Hw.resetPor
  extract_lets idle slots down dies cut
  have hslots : slots.ring = k.ring ∧ slots.evtDurable = k.evtDurable :=
    ⟨(Hw.unconfirmed_only k).hw .ring (by decide), (Hw.unconfirmed_only k).hw .evtDurable (by decide)⟩
  have hfold := Hw.Only.foldl (.refl _ _ _ { slots with hsOn := false, hsForce := none, hsPins := 0 }) (fun k d => k.dieDown_only d)
    (List.range slots.n)
  have hring : down.ring = k.ring :=
    ((Hw.pkgDown_only _).hw .ring (by decide)).trans ((hfold.hw .ring (by decide)).trans hslots.1)
  have hdurable : down.evtDurable = k.evtDurable :=
    ((Hw.pkgDown_only _).hw .evtDurable (by decide)).trans ((hfold.hw .evtDurable (by decide)).trans hslots.2)
  obtain ⟨hmode, hlead⟩ : down.mode = .boot ∧ down.lead = none := Hw.pkgDown_holds _
  have K := Hw.erRegs_only cut
  refine ⟨K.hw .porst (by decide), (K.hw .mode (by decide)).trans hmode, (K.hw .lead (by decide)).trans hlead,
    (K.hw .evtDurable (by decide)).trans hdurable,
    (K.hw .evtNext (by decide)).trans (congrArg (· + 1) hdurable), (K.hw .ring (by decide)).trans ?_⟩
  change (down.ring.filter fun e => e.seq ≤ down.evtDurable) = _
  rw [hring, hdurable]

theorem execPorstLLow_next : execPorstLLow s = .next (s.run fun _ _ => s.begun.resetPor) := State.onPkg_works rfl

theorem execPorstLLow_resets :
    ∃ t, execPorstLLow s = .next t ∧ t.hw.porst = true ∧ t.hw.mode = .boot ∧ t.hw.lead = none ∧
      t.hw.evtDurable = s.hw.evtDurable ∧ t.hw.evtNext = s.hw.evtDurable + 1 ∧ ∀ e ∈ t.hw.ring, e.seq ≤ s.hw.evtDurable := by
  obtain ⟨hporst, hmode, hlead, hdurable, hnext, hring⟩ := s.begun.resetPor_holds
  refine ⟨_, execPorstLLow_next, hporst, hmode, hlead, hdurable, hnext, fun e he => ?_⟩
  rw [State.run_ring, hring] at he
  exact of_decide_eq_true (List.mem_filter.1 he).2

/-! ### The start of a boot (R516) -/

/-- The part of a boot's start on every die: straps and cause latched, MGMT on where the die boots. -/
def Hw.bootDieStart (k : Hw) (cause : Cause) (straps d : Nat) : Hw :=
  let k := (k.wr d A.straps 0 (straps % 16)).wr d A.reset_cause 0 cause.code
  if k.mayBoot d then (k.wr d A.pd_on 0 3).add d A.boot_count 0
  else if k.rd d A.trip_latched 0 = 1 then k.setFault d true else k

/-- The behaviour level fixed and the faults forgotten. -/
def Hw.bootLevel (k : Hw) (straps : Nat) : Hw :=
  let level := if straps.testBit 0 then 1 else if k.rd 0 A.bl_nv 0 = 0 then 2 else k.rd 0 A.bl_nv 0
  ({ k with railFault := false, clkFault := false, faultMask := 0, bl := level }).wr 0 A.bl_strap 0 (b2n (straps.testBit 0))

/-- After the dies have started, an image slot is tried and handed to them. -/
theorem Hw.bootStart_after (k : Hw) (cause : Cause) (straps : Nat) :
    Hw.Only [0x15000c, 0x15000d, 0x1c000d, 0x1d0001, 0x1d0002, 0x1d0003, 0x1d0004, 0x1d0008, 0x200001] [.up, .cals]
      [.fwSlots, .fwKept, .fwBooted, .bootWatch]
      ((List.range k.n).foldl (fun k d => k.bootDieStart cause straps d) (k.bootLevel straps)) (k.bootStart cause straps) := by
  unfold Hw.bootStart
  extract_lets cleared level fixed started
  change Hw.Only _ _ _ started _
  split
  case h_1 b i _ _ =>
    refine .foldl (((started.onSlots_only _).mono (by decide)).step (Hw.with_bootWatch_fwBooted ..) (by decide)) (fun k d => ?_) _
    split
    · exact (k.dieUp_only ..).mono (by decide)
    · exact .refl ..
  case h_2 => exact .refl ..

theorem Hw.bootDieStart_other (k : Hw) (cause : Cause) (straps : Nat) {d e : Nat} (hde : d ≠ e) {a : AttrId}
    (ha : a ∈ [A.reset_cause, A.straps]) : (k.bootDieStart cause straps e).rd d a 0 = k.rd d a 0 := by
  obtain ⟨hpkg, hpd, hcount⟩ : isPkgObj a.cls 0 a.id = false ∧ A.pd_on ≠ a ∧ A.boot_count ≠ a := by revert a; decide
  have hlatched : ((k.wr e A.straps 0 (straps % 16)).wr e A.reset_cause 0 cause.code).rd d a 0 = k.rd d a 0 := by
    simp only [List.mem_cons, List.not_mem_nil, or_false] at ha
    rcases ha with rfl | rfl
    · rw [Hw.rd_wr_otherDie _ hde.symm _ _ _ hpkg hpkg, Hw.rd_wr_ne _ (by decide)]
    · rw [Hw.rd_wr_ne _ (by decide), Hw.rd_wr_otherDie _ hde.symm _ _ _ hpkg hpkg]
  unfold Hw.bootDieStart
  dsimp only
  split
  · rw [Hw.rd_add_ne _ hcount, Hw.rd_wr_ne _ hpd, hlatched]
  split
  · exact hlatched
  · exact hlatched

theorem Hw.bootDieStart_latches (k : Hw) (cause : Cause) (straps d : Nat) :
    (k.bootDieStart cause straps d).rd d A.reset_cause 0 = cause.code ∧
      (k.bootDieStart cause straps d).rd d A.straps 0 = straps % 16 := by
  have hcause : ((k.wr d A.straps 0 (straps % 16)).wr d A.reset_cause 0 cause.code).rd d A.reset_cause 0 = cause.code := Hw.rd_wr_self ..
  have hstraps : ((k.wr d A.straps 0 (straps % 16)).wr d A.reset_cause 0 cause.code).rd d A.straps 0 = straps % 16 :=
    (Hw.rd_wr_ne _ (by decide) ..).trans (Hw.rd_wr_self ..)
  unfold Hw.bootDieStart
  dsimp only
  split
  · exact ⟨(Hw.rd_add_ne _ (by decide) ..).trans ((Hw.rd_wr_ne _ (by decide) ..).trans hcause),
      (Hw.rd_add_ne _ (by decide) ..).trans ((Hw.rd_wr_ne _ (by decide) ..).trans hstraps)⟩
  split
  · exact ⟨hcause, hstraps⟩
  · exact ⟨hcause, hstraps⟩

/-- A boot latches its cause and the straps on every die. -/
theorem Hw.bootStart_latches (k : Hw) (cause : Cause) (straps : Nat) (hd : d < k.n) :
    (k.bootStart cause straps).rd d A.reset_cause 0 = cause.code ∧ (k.bootStart cause straps).rd d A.straps 0 = straps % 16 := by
  have K := k.bootStart_after cause straps
  rw [K.read A.reset_cause (by decide), K.read A.straps (by decide)]
  refine foldl_settles (f := fun (k : Hw) d => k.bootDieStart cause straps d) (Pre := fun _ _ => True)
    (Post := fun d k => k.rd d A.reset_cause 0 = cause.code ∧ k.rd d A.straps 0 = straps % 16)
    (fun d k _ => k.bootDieStart_latches cause straps d) (fun _ _ _ _ _ => trivial) (fun d e k hde hk => ?_) List.nodup_range
    (fun _ _ => trivial) d (List.mem_range.2 hd)
  rwa [Hw.bootDieStart_other _ _ _ hde (by decide), Hw.bootDieStart_other _ _ _ hde (by decide)]

/-- A boot begins without rail and clock fault. -/
theorem Hw.bootStart_faults (k : Hw) (cause : Cause) (straps : Nat) :
    (k.bootStart cause straps).railFault = false ∧ (k.bootStart cause straps).clkFault = false := by
  have K := k.bootStart_after cause straps
  have hstart (k : Hw) (d : Nat) : Hw.Only [0x200001, 0x200003, 0x200004, 0x200006] [] [.faultMask] k (k.bootDieStart cause straps d) := by
    have H : Hw.Only [0x200001, 0x200003, 0x200004, 0x200006] [] [.faultMask] k
        ((k.wr d A.straps 0 (straps % 16)).wr d A.reset_cause 0 cause.code) :=
      ((k.wr_only d A.straps 0 _).mono (by decide)).step (Hw.wr_only d A.reset_cause 0 _ _) (by decide)
    unfold Hw.bootDieStart
    dsimp only
    split
    · exact (H.step (Hw.wr_only d A.pd_on 0 _ _) (by decide)).step (Hw.add_only d A.boot_count 0 1 _) (by decide)
    split
    · exact H.step (Hw.setFault_only ..) (by decide)
    · exact H
  have H := Hw.Only.foldl (.refl _ _ _ (k.bootLevel straps)) hstart (List.range k.n)
  exact ⟨(K.hw .railFault (by decide)).trans (H.hw .railFault (by decide)),
    (K.hw .clkFault (by decide)).trans (H.hw .clkFault (by decide))⟩

/-! ### The rows that start a boot (R508, R509, R512, R514, R518) -/

/-- The rails shown as good on every die. -/
def Hw.railsShow (k : Hw) (v : Nat) : Hw := (List.range k.n).foldl (fun (k : Hw) d => k.wr d A.rails_good 0 v) k

theorem Hw.railsShow_only (k : Hw) (v : Nat) : Hw.Only [A.rails_good.code] [] [] k (k.railsShow v) :=
  .foldl (.refl ..) (fun k d => k.wr_only d A.rails_good 0 v) _

theorem Hw.rd_railsShow (k : Hw) (v : Nat) (hd : d < k.n) : (k.railsShow v).rd d A.rails_good 0 = v :=
  foldl_settles (f := fun (k : Hw) d => k.wr d A.rails_good 0 v) (Pre := fun _ _ => True) (Post := fun d k => k.rd d A.rails_good 0 = v)
    (fun _ _ _ => Hw.rd_wr_self ..) (fun _ _ _ _ _ => trivial)
    (fun _ _ _ hde hk => (Hw.rd_wr_otherDie _ hde.symm _ _ _ (by decide) (by decide)).trans hk) List.nodup_range (fun _ _ => trivial) d
    (List.mem_range.2 hd)

/-- The end of power-on reset: `alive` names the dies that answer, and the rails are shown. -/
def Hw.porstEnd (k : Hw) (good alive : Nat) : Hw := ({ k with porst := false, alive := alive % 2 ^ k.n }).railsShow (good % 1024)

theorem execPorstRise_boots {straps alive : Nat} (hporst : s.hw.porst = true) :
    ∃ t, execPorstRise straps 1023 alive s = .next t ∧ s.SameMem t ∧ t.hw.porst = false ∧ t.hw.alive = alive % 2 ^ s.hw.n ∧
      (∀ d < s.hw.n, t.hw.rd d A.reset_cause 0 = Cause.code .por) ∧ ∀ d < s.hw.n, t.hw.rd d A.straps 0 = straps % 16 := by
  have hn : execPorstRise straps 1023 alive s = .next (s.run fun _ _ => (s.begun.porstEnd 1023 alive).bootStart .por straps) :=
    State.onPkg_works ((if_neg (by simp [hporst])).trans (if_pos rfl))
  have KS := Hw.railsShow_only { s.begun with porst := false, alive := alive % 2 ^ s.begun.n } (1023 % 1024)
  have KB := (s.begun.porstEnd 1023 alive).bootStart_only .por straps
  have hlen : (s.begun.porstEnd 1023 alive).n = s.hw.n := KS.len
  refine ⟨_, hn, (execPorstRise_within _ _ _ _ hn).sameMem, ?_, ?_, fun d hd => ?_, fun d hd => ?_⟩
  · exact (KB.hw .porst (by decide)).trans (KS.hw .porst (by decide))
  · exact (KB.hw .alive (by decide)).trans (KS.hw .alive (by decide))
  · rw [State.run_rd]
    exact (Hw.bootStart_latches _ _ _ (hlen.symm ▸ hd)).1
  · rw [State.run_rd]
    exact (Hw.bootStart_latches _ _ _ (hlen.symm ▸ hd)).2

theorem execPorstRise_holds {straps good alive : Nat} (hporst : s.hw.porst = true) (hbad : good % 1024 ≠ 1023) :
    ∃ t, execPorstRise straps good alive s = .next t ∧ s.SameMem t ∧ t.hw.porst = false ∧ t.hw.railFault = true := by
  have hn : execPorstRise straps good alive s = .next (s.run fun _ _ => { s.begun.porstEnd good alive with railFault := true }) :=
    State.onPkg_works ((if_neg (by simp [hporst])).trans (if_neg hbad))
  exact ⟨_, hn, (execPorstRise_within _ _ _ _ hn).sameMem,
    (Hw.railsShow_only { s.begun with porst := false, alive := alive % 2 ^ s.begun.n } (good % 1024)).hw .porst (by decide), rfl⟩

/-- A package reset that boots at once: mode BOOT without lead die, the cause on every die. -/
theorem Hw.resetPkg_boots (k : Hw) (cause : Cause) (straps : Nat) :
    (k.resetPkg.bootStart cause straps).mode = .boot ∧ (k.resetPkg.bootStart cause straps).lead = none ∧
      ∀ d < k.n, (k.resetPkg.bootStart cause straps).rd d A.reset_cause 0 = cause.code := by
  have KB := k.resetPkg.bootStart_only cause straps
  obtain ⟨hmode, hlead, -⟩ := k.resetPkg_holds
  exact ⟨(KB.hw .mode (by decide)).trans hmode, (KB.hw .lead (by decide)).trans hlead, fun d hd =>
    (Hw.bootStart_latches _ _ _ (lt_of_lt_of_eq hd k.resetPkg_only.len.symm)).1⟩

theorem execSysRstL_boots {straps : Nat} (hporst : s.hw.porst = false) (hrail : s.hw.railFault = false) (hclk : s.hw.clkFault = false) :
    ∃ t, execSysRstL straps s = .next t ∧ t.hw.mode = .boot ∧ t.hw.lead = none ∧
      ∀ d < s.hw.n, t.hw.rd d A.reset_cause 0 = Cause.code .pin := by
  have hn : execSysRstL straps s = .next (s.run fun _ _ => s.begun.resetPkg.bootStart .pin straps) :=
    State.onPkg_works (if_neg (by simp [hporst, hrail, hclk]))
  exact ⟨_, hn, s.begun.resetPkg_boots .pin straps⟩

theorem execBootWatchdog_boots {straps : Nat} (hwatch : s.hw.bootWatch = true) :
    ∃ t, execBootWatchdog straps false s = .next t ∧ t.hw.mode = .boot ∧
      ∀ d < s.hw.n, t.hw.rd d A.reset_cause 0 = Cause.code .bootFail := by
  have hn : execBootWatchdog straps false s = .next (s.run fun _ _ => s.begun.resetPkg.bootStart .bootFail straps) :=
    State.onPkg_works (if_neg (by rw [show s.begun.bootWatch = true from hwatch]; decide))
  obtain ⟨hmode, -, hcause⟩ := s.begun.resetPkg_boots .bootFail straps
  exact ⟨_, hn, hmode, hcause⟩

/-- A confirmation that becomes visible in the cycle of the expiry counts (R27). -/
theorem execBootWatchdog_confirmed {straps : Nat} : ∃ t, execBootWatchdog straps true s = .next t ∧ t.hw = s.begun := by
  have hn : execBootWatchdog straps true s = .next (s.run fun _ h => h) := State.onPkg_works (if_pos (.inr rfl))
  exact ⟨_, hn, rfl⟩

theorem execRailGood_boots {straps : Nat} (hporst : s.hw.porst = false) (hrail : s.hw.railFault = true) (hclk : s.hw.clkFault = false) :
    ∃ t, execRailGood straps s = .next t ∧ s.SameMem t ∧ t.hw.railFault = false ∧
      (∀ d < s.hw.n, t.hw.rd d A.reset_cause 0 = Cause.code .rail) ∧ ∀ d < s.hw.n, t.hw.rd d A.rails_good 0 = 1023 := by
  have KS := Hw.railsShow_only { s.begun with railFault := false } 1023
  have hclk' : ¬(({ s.begun with railFault := false } : Hw).railsShow 1023).clkFault = true := by
    rw [KS.hw .clkFault (by decide)]
    exact fun hno => Bool.noConfusion (hno.symm.trans hclk)
  have hn : execRailGood straps s = .next (s.run fun _ _ =>
      (({ s.begun with railFault := false } : Hw).railsShow 1023).bootStart .rail straps) :=
    State.onPkg_works ((if_neg (by simp [hporst, hrail])).trans (if_neg hclk'))
  have hlen : (({ s.begun with railFault := false } : Hw).railsShow 1023).n = s.hw.n := KS.len
  refine ⟨_, hn, (execRailGood_within _ _ hn).sameMem, (Hw.bootStart_faults ..).1, fun d hd => ?_, fun d hd => ?_⟩
  · rw [State.run_rd]
    exact (Hw.bootStart_latches _ _ _ (hlen.symm ▸ hd)).1
  · rw [State.run_rd, (Hw.bootStart_only ..).read A.rails_good (by decide)]
    exact Hw.rd_railsShow _ _ hd

/-- The time bases have held, and every die that answers records the clock's absence. -/
def Hw.clockBack (k : Hw) (gap : Nat) : Hw :=
  (List.range k.n).foldl (fun (k : Hw) d => if k.alive.testBit d then k.event d Ev.clkFault (leBytes 8 gap) else k)
    { k with clk := k.clk + gap, clkFault := false }

theorem Hw.clockBack_only (k : Hw) (gap : Nat) :
    Hw.Only [0x1f] [.front, .buckets, .folded] [] { k with clk := k.clk + gap, clkFault := false } (k.clockBack gap) := by
  refine .foldl (.refl ..) (fun k d => ?_) _
  split
  · exact Hw.event_only ..
  · exact .refl ..

theorem execClockGood_boots {straps gap : Nat} (hporst : s.hw.porst = false) (hrail : s.hw.railFault = false)
    (hclk : s.hw.clkFault = true) :
    ∃ t, execClockGood straps gap s = .next t ∧ s.SameMem t ∧ t.hw.clkFault = false ∧ t.hw.clk = s.hw.clk + gap ∧
      ∀ d < s.hw.n, t.hw.rd d A.reset_cause 0 = Cause.code .clock := by
  have KC := s.begun.clockBack_only gap
  have hrail' : ¬(s.begun.clockBack gap).railFault = true := by
    rw [KC.hw .railFault (by decide)]
    exact fun hno => Bool.noConfusion (hno.symm.trans hrail)
  have hn : execClockGood straps gap s = .next (s.run fun _ _ => (s.begun.clockBack gap).bootStart .clock straps) :=
    State.onPkg_works ((if_neg (by simp [hporst, hclk])).trans (if_neg hrail'))
  refine ⟨_, hn, (execClockGood_within _ _ _ hn).sameMem, (Hw.bootStart_faults ..).2, ?_, fun d hd => ?_⟩
  · exact ((Hw.bootStart_only ..).hw .clk (by decide)).trans (KC.hw .clk (by decide))
  · rw [State.run_rd]
    exact (Hw.bootStart_latches _ _ _ (lt_of_lt_of_eq hd KC.len.symm)).1

/-! ### Faults and dies that do not boot (R509, R512, R520) -/

theorem execRailFault_holds {rail value : Nat} (hd : die < s.hw.dies.length) (h10 : rail < 10) (hporst : s.hw.porst = false)
    (h9 : rail ≠ 9) :
    ∃ t, execRailFault die rail value s = .next t ∧ t.hw.railFault = true ∧ t.hw.mode = .boot ∧ t.hw.hsOn = false := by
  obtain ⟨w, hn⟩ : ∃ w : Hw, execRailFault die rail value s = .next (s.run fun _ _ =>
      ({ w.holdReset with railFault := true }).event die Ev.railFault (leBytes 1 rail ++ leBytes 2 value)) :=
    ⟨_, State.onUnit_works hd h10 (if_neg (by simp [hporst, h9]))⟩
  obtain ⟨hmode, hpins⟩ := w.holdReset_holds
  refine ⟨_, hn, ?_, ?_, ?_⟩
  · rw [State.run_railFault, Hw.event_railFault]
  · rw [State.run_mode, Hw.event_mode]
    exact hmode
  · rw [State.run_hsOn, Hw.event_hsOn]
    exact hpins

theorem execClkFault_holds (hd : die < s.hw.dies.length) (hporst : s.hw.porst = false) :
    ∃ t, execClkFault die s = .next t ∧ t.hw.clkFault = true ∧ t.hw.mode = .boot ∧ t.hw.hsOn = false := by
  have hn : execClkFault die s = .next (s.run fun _ _ => { (s.begun.add die A.clk_faults 0).holdReset with clkFault := true }) :=
    State.onDie_works hd (if_neg (by simp [hporst]))
  obtain ⟨hmode, hpins⟩ := (s.begun.add die A.clk_faults 0).holdReset_holds
  exact ⟨_, hn, rfl, hmode, hpins⟩

/-- A die in reset is not up. -/
theorem Hw.up_dieDown (k : Hw) (hd : d < k.dies.length) : ((k.dieDown d).die d).up = false := by
  have hlost := Hw.Only.foldl (.refl _ _ _ k) (fun k b => k.lose_only d b) offOrder
  unfold Hw.dieDown
  dsimp only
  rw [Hw.die_onDie_self _ _ (by exact hlost.len.symm ▸ hd)]
  rfl

theorem execDieBootTimeout_leaves (hd : die < s.hw.dies.length) (hporst : s.hw.porst = false) (hrail : s.hw.railFault = false)
    (hclk : s.hw.clkFault = false) (hwatch : s.hw.bootWatch = true) :
    ∃ t, execDieBootTimeout die s = .next t ∧ (t.hw.die die).up = false ∧ t.hw.faultMask.testBit die = true := by
  have hfault : ¬(s.begun.porst = true ∨ s.begun.railFault = true ∨ s.begun.clkFault = true) := by simp [hporst, hrail, hclk]
  have hup : (((s.begun.dieDown die).setFault die true).die die).up = false := s.begun.up_dieDown hd
  have hmask := (s.begun.dieDown die).faultMask_setFault_on die
  cases hboot : ((s.begun.dieDown die).setFault die true).bootDie fun h d => (h.die d).up with
  | some b =>
    have hn : execDieBootTimeout die s = .next (s.run fun _ _ => (s.begun.dieDown die).setFault die true) := by
      refine State.onDie_works hd ((if_neg hfault).trans ((if_pos hwatch).trans ?_))
      dsimp only
      rw [hboot]
    exact ⟨_, hn, hup, hmask⟩
  | none =>
    have hn : execDieBootTimeout die s = .next (s.run fun _ _ =>
        { (s.begun.dieDown die).setFault die true with bootWatch := false, fwBooted := none }) := by
      refine State.onDie_works hd ((if_neg hfault).trans ((if_pos hwatch).trans ?_))
      dsimp only
      rw [hboot]
    exact ⟨_, hn, hup, hmask⟩

/-- Settles O39, by what each reset and each start of a boot leave. -/
theorem bootRowsComplete : Obligations.BootRowsComplete := by
  unfold Obligations.BootRowsComplete
  exact ⟨fun _ => execPorstLLow_resets, fun _ _ _ hporst => execPorstRise_boots hporst,
    fun _ _ _ _ hporst hbad => execPorstRise_holds hporst hbad,
    fun _ _ hporst hrail hclk => execSysRstL_boots hporst hrail hclk,
    fun _ _ _ _ hd h10 hporst h9 => execRailFault_holds hd h10 hporst h9,
    fun _ _ hporst hrail hclk => execRailGood_boots hporst hrail hclk,
    fun _ _ hd hporst => execClkFault_holds hd hporst,
    fun _ _ _ hporst hrail hclk => execClockGood_boots hporst hrail hclk,
    fun _ _ hwatch => execBootWatchdog_boots hwatch, fun _ _ => execBootWatchdog_confirmed,
    fun _ _ hd hporst hrail hclk hwatch => execDieBootTimeout_leaves hd hporst hrail hclk hwatch⟩

end Sys2Proof.Machine
end

section
/-!
PROOFS. The confirmation of a boot and the modes (R494, R516, R517, R522 to R530).
-/
-- One proof after the other: the text is checked as one, and proofs side by side pass the check's memory.
set_option Elab.async false
namespace Sys2Proof.Machine
variable {s t : State} {h : Hdr} {k : Hw} {b i ms d e : Nat}

/-! ### A boot's last steps (R494, R516) -/

/-- Step 8 on every die that is up. -/
def Hw.linesBoot (k : Hw) (ms : Nat) : Hw :=
  ((List.range k.n).filter fun d => (k.die d).up).foldl (fun (k : Hw) d => (k.lineBoot d).wr d A.boot_ms 0 ms)
    { k with bootWatch := false, hsOn := true }

theorem Hw.linesBoot_only (k : Hw) (ms : Nat) :
    Hw.Only [0x20001, 0x90001, 0x90005, 0x90006, 0x90009, 0x200001, 0x200005] [.queues, .banks] [.blks, .free, .stores]
      { k with bootWatch := false, hsOn := true } (k.linesBoot ms) :=
  .foldl (.refl ..) (fun k d => ((k.lineBoot_only d).mono (by decide)).step (Hw.wr_only d A.boot_ms 0 ms _) (by decide)) _

/-- The entry that a boot from power-on numbers first. -/
def Hw.porRestart (k : Hw) (b : Nat) : Hw :=
  if k.rd b A.reset_cause 0 = Cause.por.code then ({ k with lead := some b }).evtRestart b else k

theorem Hw.porRestart_only (k : Hw) (b : Nat) :
    Hw.Only [0x1f, 0x20005, 0x20010, 0x20013, 0x20014, 0x20015, 0x20016, 0x1f0001, 0x1f0002, 0x1f0003, 0x1f0005, 0x1f000a]
      [.queues, .front, .buckets, .folded] [.lead, .ring, .evtNext, .eps, .stores, .out] k (k.porRestart b) := by
  unfold Hw.porRestart
  split
  · exact ((Hw.with_lead k _).mono (by decide)).step (Hw.evtRestart_only ..) (by decide)
  · exact .refl ..

/-- After the lead role is taken, the slots are settled and the boot's events recorded. -/
theorem Hw.bootFinish_after (k : Hw) (b i ms : Nat) :
    Hw.Only [0x1f] [.front, .buckets, .folded] [.fwSlots, .fwKept] (((k.linesBoot ms).porRestart b).leadBoot b) (k.bootFinish b i ms) :=
  ((Hw.confirmSlots_only ..).mono (by decide)).step (Hw.bootEvents_only ..) (by decide)

theorem Hw.lead_leadBoot (k : Hw) (b : Nat) : (k.leadBoot b).lead = some b := by
  have hother (x : Hw) : (if (x.die (1 - b)).up then x.setLd (1 - b) .standby else x.setLd (1 - b) .faulted).lead = x.lead := by
    split
    · exact (x.setLd_only ..).hw .lead (by decide)
    · exact (x.setLd_only ..).hw .lead (by decide)
  unfold Hw.leadBoot
  extract_lets taken shown
  have htaken : taken.lead = some b := (Hw.setLd_only { k with lead := some b } b .active).hw .lead (by decide)
  exact ((Hw.enumerate_only ..).hw .lead (by decide)).trans ((hother taken).trans htaken)

/-- A finished boot has its lead die, its confirmation and the handshake outputs on. -/
theorem Hw.bootFinish_holds (k : Hw) (b i ms : Nat) :
    (k.bootFinish b i ms).lead = some b ∧ (k.bootFinish b i ms).bootWatch = false ∧ (k.bootFinish b i ms).hsOn = true := by
  have K := k.bootFinish_after b i ms
  have KL := Hw.leadBoot_only ((k.linesBoot ms).porRestart b) b
  have KR := (k.linesBoot ms).porRestart_only b
  have KB := k.linesBoot_only ms
  refine ⟨(K.hw .lead (by decide)).trans (Hw.lead_leadBoot ..), ?_, ?_⟩
  · exact (K.hw .bootWatch (by decide)).trans ((KL.hw .bootWatch (by decide)).trans ((KR.hw .bootWatch (by decide)).trans
      (KB.hw .bootWatch (by decide))))
  · exact (K.hw .hsOn (by decide)).trans ((KL.hw .hsOn (by decide)).trans ((KR.hw .hsOn (by decide)).trans (KB.hw .hsOn (by decide))))

/-- The first event of a boot from power-on: it carries the number of the last entry programmed. -/
def Hw.restartEvt (k : Hw) (d : Nat) : Evt :=
  { code := Ev.evtRestart, tb0 := k.tb d 0, node := k.rd 0 A.node_base 0, die := d, suppressed := 0, data := leBytes 8 k.evtDurable }

theorem Hw.ring_evtRestart (k : Hw) (d : Nat) :
    (k.evtRestart d).ring = (((k.restartEvt d).entries k.evtNext).reverse ++ k.ring).take 1048576 :=
  ((Hw.add_only 0 A.power_losses 0 1 _).hw .ring (by decide)).trans (Hw.numberEvent_ring _ _ _).1

theorem Hw.bootFinish_ring (k : Hw) (i ms : Nat) (hcause : k.rd b A.reset_cause 0 = Cause.code .por) :
    ∃ e : Evt, e.code = Ev.evtRestart ∧ e.data = leBytes 8 k.evtDurable ∧
      (k.bootFinish b i ms).ring = ((e.entries k.evtNext).reverse ++ k.ring).take 1048576 := by
  have KB := k.linesBoot_only ms
  have hpor : (k.linesBoot ms).rd b A.reset_cause 0 = Cause.por.code := (KB.read A.reset_cause (by decide) ..).trans hcause
  have hdurable : (k.linesBoot ms).evtDurable = k.evtDurable := KB.hw .evtDurable (by decide)
  have hnext : (k.linesBoot ms).evtNext = k.evtNext := KB.hw .evtNext (by decide)
  have hbefore : (k.linesBoot ms).ring = k.ring := KB.hw .ring (by decide)
  have hrestart : ((k.linesBoot ms).porRestart b).ring =
      (((Hw.restartEvt { k.linesBoot ms with lead := some b } b).entries k.evtNext).reverse ++ k.ring).take 1048576 := by
    rw [Hw.porRestart, if_pos hpor, ← hnext, ← hbefore]
    exact Hw.ring_evtRestart ..
  exact ⟨_, rfl, congrArg (leBytes 8) hdurable, ((k.bootFinish_after b i ms).hw .ring (by decide)).trans
    (((Hw.leadBoot_only ..).hw .ring (by decide)).trans hrestart)⟩

/-! ### The entry to GATEHOUSE (R524, R525) -/

/-- Gatehouse entered without a script. -/
def Hw.ghEntered (k : Hw) : Hw := { k.ghEnter with gh := { k.ghEnter.gh with ran := false } }

theorem Hw.ghEntered_only (k : Hw) :
    Hw.Only [0x1f, 0x140002, 0x140004, 0x140014, 0x140015, 0x140018, 0x140019, 0x14001a, 0x150001, 0x150002, 0x150003, 0x150004, 0x150005]
      [.front, .buckets, .folded, .tbChanges, .ptp] [.pkg, .gh] k k.ghEntered :=
  k.ghEnter_only.step (Hw.with_gh ..) (by decide)

theorem Hw.rd_setTbSource (k : Hw) (tb v : Nat) : (k.setTbSource tb v).rd 0 A.tb_source tb = v := by
  have hset : ((k.wr 0 A.tb_source tb v).onServo tb fun s => { s with outRun := 0, lockRun := 0 }).rd 0 A.tb_source tb = v :=
    ((Hw.onServo_only ..).read A.tb_source (by decide) ..).trans (Hw.rd_wr_self ..)
  have hservo (x : Hw) (st : ServoState) (r : Int) : ((x.servoTo tb st 0).tbRate tb r).rd 0 A.tb_source tb = x.rd 0 A.tb_source tb :=
    ((Hw.tbRate_only ..).read A.tb_source (by decide) ..).trans ((Hw.servoTo_only ..).read A.tb_source (by decide) ..)
  unfold Hw.setTbSource
  dsimp only
  split
  · rw [hservo, hset]
  split
  · rw [hservo, hset]
  · exact hset

/-- A port made a PTP slave of TB0 over Layer 2 with end-to-end delay (R525). -/
def Hw.ptpSlave (k : Hw) (x : Nat × Nat) : Hw :=
  (((k.wr x.1 A.transport x.2 0).wr x.1 A.delay_mech x.2 0).wr x.1 A.ptp_tb x.2 0).setPtpEnable x.1 x.2 1

theorem Hw.ptpSlave_only (k : Hw) (x : Nat × Nat) :
    Hw.Only [0x1f, 0x140002, 0x140014, 0x140019, 0x14001a, 0x150001, 0x150002, 0x150003, 0x150004, 0x150005]
      [.front, .buckets, .folded, .tbChanges, .ptp] [.pkg] k (k.ptpSlave x) :=
  ((((k.wr_only x.1 A.transport x.2 0).mono (by decide)).step (Hw.wr_only x.1 A.delay_mech x.2 0 _) (by decide)).step
    (Hw.wr_only x.1 A.ptp_tb x.2 0 _) (by decide)).step (Hw.setPtpEnable_only ..) (by decide)

/-- Entering GATEHOUSE puts PTP on TB0, as a slave only. -/
theorem Hw.ghEnter_ptp (k : Hw) : k.ghEnter.rd 0 A.tb_source 0 = 1 ∧ k.ghEnter.rd 0 A.slave_only 0 = 1 := by
  unfold Hw.ghEnter
  extract_lets gh settings slave ports enabled
  have hslave : slave.rd 0 A.slave_only 0 = 1 := Hw.rd_wr_self ..
  have hports : enabled.rd 0 A.slave_only 0 = slave.rd 0 A.slave_only 0 :=
    (Hw.Only.foldl (.refl _ _ _ slave) (fun k x => k.ptpSlave_only x) ports).read A.slave_only (by decide) ..
  refine ⟨enabled.rd_setTbSource 0 1, ?_⟩
  rw [(enabled.setTbSource_only 0 1).read A.slave_only (by decide), hports, hslave]

theorem Hw.rd_ghEntered (k : Hw) (e : Nat) (a : AttrId) (i : Nat) : k.ghEntered.rd e a i = k.ghEnter.rd e a i :=
  (Hw.with_gh k.ghEnter _).rd e a i List.not_mem_nil List.not_mem_nil List.not_mem_nil

/-- A further effect of a step changes what its work changes, and the lists of the step. -/
theorem State.more_only {w : Hw} (f : List (List Host.Cell) → Hw → Hw) (hw : f s.mems s.begun = w) :
    Hw.Only [] [] [.stores, .wipes, .out] w (s.more f).hw := by
  subst hw
  refine ⟨rfl, fun _ _ _ _ _ _ => rfl, fun _ x _ => x.same_refl _, fun g hg => ?_⟩
  cases g
  case stores => exact absurd (by decide) hg
  case wipes => exact absurd (by decide) hg
  case out => exact absurd (by decide) hg
  all_goals rfl

/-- A step that enters GATEHOUSE with no script leaves what the entry leaves. -/
theorem State.entered_without_script {before : Mode} (hmode : s.hw.mode = .gatehouse) (hbefore : before ≠ .gatehouse)
    (hlen : s.hw.rd 0 A.gh_script_len 0 = 0) :
    Hw.Only [] [] [.stores, .wipes, .out] s.begun.ghEntered (s.entered before).hw := by
  have hscript : s.entered before = s.more fun _ k => { k.ghEnter with gh := { k.ghEnter.gh with ran := false } } := by
    rw [State.entered, if_pos ⟨hmode, hbefore⟩, State.script, hlen]
    rfl
  rw [hscript]
  exact State.more_only _ rfl

/-! ### The confirmation of a boot (R516, R517) -/

/-- A confirmed boot with no script to run ends as the boot finished in GATEHOUSE leaves it. -/
theorem execBootConfirm_ends (hwatch : s.hw.bootWatch = true) (hdie : s.hw.bootDie (fun h d => (h.die d).up) = some b)
    (hslot : s.hw.fwBooted = some i) (hlen : s.hw.rd 0 A.gh_script_len 0 = 0) :
    ∃ t, execBootConfirm ms s = .next t ∧
      Hw.Only [0x1f, 0x140002, 0x140004, 0x140014, 0x140015, 0x140018, 0x140019, 0x14001a, 0x150001, 0x150002, 0x150003, 0x150004, 0x150005]
        [.front, .buckets, .folded, .tbChanges, .ptp] [.pkg, .gh, .stores, .wipes, .out] ((s.begun.bootFinish b i ms).modeTo .gatehouse)
        t.hw := by
  have hn : execBootConfirm ms s =
      .next ((s.run fun _ h => (h.bootFinish b i ms).modeTo .gatehouse).entered .boot) := by
    unfold execBootConfirm
    rw [hwatch, hdie, hslot]
  have KR := State.run_only (s := s) (f := fun _ h => (h.bootFinish b i ms).modeTo .gatehouse) rfl
  have hlen' : (s.run fun _ h => (h.bootFinish b i ms).modeTo .gatehouse).hw.rd 0 A.gh_script_len 0 = 0 := by
    rw [State.run_rd, (Hw.modeTo_only ..).read A.gh_script_len (by decide), (Hw.bootFinish_only ..).read A.gh_script_len (by decide)]
    exact hlen
  have hmode : (s.run fun _ h => (h.bootFinish b i ms).modeTo .gatehouse).hw.mode = .gatehouse := by
    rw [State.run_mode, Hw.mode_modeTo]
  refine ⟨_, hn, ?_⟩
  exact (((KR.mono (by decide)).step (State.begun_only _) (by decide)).step (Hw.ghEntered_only _) (by decide)).step
    (State.entered_without_script hmode (by decide) hlen') (by decide)

theorem execBootConfirm_holds (hwatch : s.hw.bootWatch = true) (hdie : s.hw.bootDie (fun h d => (h.die d).up) = some b)
    (hslot : s.hw.fwBooted = some i) (hlen : s.hw.rd 0 A.gh_script_len 0 = 0) :
    ∃ t, execBootConfirm ms s = .next t ∧ t.hw.mode = .gatehouse ∧ t.hw.lead = some b ∧ t.hw.bootWatch = false ∧
      t.hw.hsOn = true := by
  obtain ⟨t, hn, K⟩ := execBootConfirm_ends (ms := ms) hwatch hdie hslot hlen
  obtain ⟨hlead, hboot, hpins⟩ := s.begun.bootFinish_holds b i ms
  have KM := (s.begun.bootFinish b i ms).modeTo_only .gatehouse
  refine ⟨t, hn, (K.hw .mode (by decide)).trans (Hw.mode_modeTo ..), ?_, ?_, ?_⟩
  · exact (K.hw .lead (by decide)).trans ((KM.hw .lead (by decide)).trans hlead)
  · exact (K.hw .bootWatch (by decide)).trans ((KM.hw .bootWatch (by decide)).trans hboot)
  · exact (K.hw .hsOn (by decide)).trans ((KM.hw .hsOn (by decide)).trans hpins)

/-- Settles O50, by what a power-on reset keeps of the recorder and by the first entry of a boot from power-on. -/
theorem eventsLostAtPowerOn : Obligations.EventsLostAtPowerOn := by
  unfold Obligations.EventsLostAtPowerOn
  refine ⟨fun s => ?por, fun s ms b i hwatch hdie hslot hlen hcause => ?boot⟩
  case por =>
    obtain ⟨-, -, -, hdurable, hnext, hring⟩ := s.begun.resetPor_holds
    exact ⟨_, execPorstLLow_next, hring, hdurable, hnext⟩
  case boot =>
    obtain ⟨t, hn, K⟩ := execBootConfirm_ends (ms := ms) hwatch hdie hslot hlen
    obtain ⟨e, hcode, hdata, hring⟩ := s.begun.bootFinish_ring i ms hcause
    exact ⟨t, hn, e, hcode, hdata, (K.hw .ring (by decide)).trans (((Hw.modeTo_only ..).hw .ring (by decide)).trans hring)⟩

/-! ### MODE_SET (R522) -/

theorem execModeSetGatehouse_enters (hA : s.Admits h 0x0F02 (opObj 0x0F02 0)) (hclosed : ∀ D ∈ s.hw.dies, ∀ c ∈ D.ctxs, c.num = 0)
    (hmode : s.hw.mode ≠ .gatehouse) (hlen : s.hw.rd 0 A.gh_script_len 0 = 0) :
    ∃ t, execModeSetGatehouse h s = .next t ∧ t.replyOf h = some .ok ∧ t.hw.mode = .gatehouse ∧
      t.hw.rd 0 A.tb_source 0 = 1 ∧ t.hw.rd 0 A.slave_only 0 = 1 := by
  have hclosed' : ¬((s.atWork h).dies.any fun D => D.ctxs.any fun c => c.num != 0) = true := fun hno => by
    obtain ⟨D, hD, hc⟩ := List.any_eq_true.1 hno
    obtain ⟨c, hmem, hopen⟩ := List.any_eq_true.1 hc
    obtain ⟨D', hD', rfl⟩ := List.mem_map.1 hD
    exact bne_iff_ne.1 hopen (hclosed D' hD' c hmem)
  obtain ⟨w, hw, hwait⟩ : ∃ w : Hw, modeGatehouse (s.atWork h) = okWith (w.modeTo .gatehouse) ∧
      Hw.Only [] [.mbx] [.hostedWait, .pkg] (s.atWork h) w := by
    refine ⟨_, if_neg hclosed', .foldl ((Hw.with_hostedWait ..).mono (by decide)) (fun k id => (k.settle_only id _).mono (by decide)) _⟩
  obtain ⟨u, hn, E⟩ := State.command_ends (s := s) hA (body := fun _ _ hw => modeGatehouse hw) hw
  have hu : u.hw.mode = .gatehouse := (E.hw.hw .mode (by decide)).trans (Hw.mode_modeTo ..)
  have hulen : u.hw.rd 0 A.gh_script_len 0 = 0 := by
    rw [E.hw.read A.gh_script_len (by decide), okWith, (Hw.modeTo_only ..).read A.gh_script_len (by decide),
      hwait.read A.gh_script_len (by decide)]
    exact hlen
  have K := State.entered_without_script hu hmode hulen
  obtain ⟨hsource, hslave⟩ := u.begun.ghEnter_ptp
  refine ⟨u.entered s.hw.mode, ?_, ?_, ?_, ?_, ?_⟩
  · rw [execModeSetGatehouse, hn]
  · have hreplies : (u.entered s.hw.mode).hw.replies = u.hw.replies :=
      (K.hw .replies (by decide)).trans (u.begun.ghEntered_only.hw .replies (by decide))
    rw [State.replyOf, Hw.reply?, hreplies]
    exact E.reply
  · exact (K.hw .mode (by decide)).trans ((u.begun.ghEntered_only.hw .mode (by decide)).trans hu)
  · rw [K.read A.tb_source (by decide), Hw.rd_ghEntered, hsource]
  · rw [K.read A.slave_only (by decide), Hw.rd_ghEntered, hslave]

theorem execModeSetHosted_enters (hA : s.Admits h 0x0F02 (opObj 0x0F02 0)) (hprint : s.hw.gh.print = none)
    (hwait : s.hw.hostedWait = []) : ∃ t, execModeSetHosted h s = .next t ∧ t.replyOf h = some .ok ∧ t.hw.mode = .hosted := by
  by_cases hmode : s.hw.mode = .hosted
  · obtain ⟨t, hn, E⟩ : ∃ t, execModeSetHosted h s = .next t ∧ s.Ends h (okWith (s.atWork h)) t :=
      State.command_ends hA (if_pos (by exact hmode))
    exact ⟨t, hn, E.reply, (E.hw.hw .mode (by decide)).trans hmode⟩
  · have hidle : s.hw.gh.print.isNone = true ∧ s.hw.hostedWait.isEmpty = true := by simp [hprint, hwait]
    obtain ⟨t, hn, E⟩ : ∃ t, execModeSetHosted h s = .next t ∧ s.Ends h (okWith ((s.atWork h).modeTo .hosted)) t :=
      State.command_ends hA ((if_neg (by exact hmode)).trans (if_pos (by exact hidle)))
    exact ⟨t, hn, E.reply, (E.hw.hw .mode (by decide)).trans (Hw.mode_modeTo ..)⟩

theorem execModeSetHosted_waits (hA : s.Admits h 0x0F02 (opObj 0x0F02 0)) (hmode : s.hw.mode = .gatehouse)
    (hprint : s.hw.gh.print.isSome) : ∃ t, execModeSetHosted h s = .next t ∧ t.statusOf h = some .deferred := by
  have hbusy : ¬(s.hw.gh.print.isNone = true ∧ s.hw.hostedWait.isEmpty = true) := fun hno => by
    rw [Option.isSome_iff_exists] at hprint
    obtain ⟨x, hx⟩ := hprint
    rw [hx] at hno
    exact Bool.noConfusion hno.1
  have hother : ¬s.hw.mode = .hosted := by rw [hmode]; decide
  obtain ⟨w, t, hn, E⟩ : ∃ w t, execModeSetHosted h s = .next t ∧
      s.Ends h (((s.atWork h).deferWork (s.hw.execDie h 0x0F02 (opObj 0x0F02 0)) h true).2.1, w) t :=
    ⟨_, State.command_ends hA ((if_neg (by exact hother)).trans (if_neg (by exact hbusy)))⟩
  exact ⟨t, hn, E.status⟩

/-! ### Spitting and results (R526, R530) -/

/-- Gatehouse's spitting on one die. -/
def Hw.ghSpitDie (k : Hw) (d : Nat) : Hw :=
  let m := k.enabledPorts d
  if m = 0 ∨ !(k.die d).up then k
  else
    let r := hpSpitBody m k.gh.spitLines d k
    r.2.configChange d 0x0403 (opObj 0x0403 (lowBit m)) r.1.status .rildin

/-- What the spitting on a die rests on: it is up, at rest, and its enabled ports are IDLE. -/
structure Hw.SpitReady (s k : Hw) (d : Nat) : Prop where
  len : d < k.dies.length
  up : (k.die d).up = true
  ports : k.enabledPorts d = s.enabledPorts d
  lines : k.gh.spitLines = s.gh.spitLines
  parked : k.hsIn.testBit 1 = true
  idle : k.rd d A.le_state 0 = 0
  states : ∀ p ∈ portsOf (s.enabledPorts d), k.rd d A.hp_state p = 1
  spits : (k.die d).spits = (s.die d).spits

theorem Hw.enabledPorts_lt (k : Hw) (d : Nat) : k.enabledPorts d < 2 ^ 24 := by
  have hle : k.enabledPorts d ≤ ((List.range 24).map (2 ^ ·)).sum :=
    (List.filter_sublist.map _).sum_le_sum fun _ _ => Nat.zero_le _
  exact lt_of_le_of_lt hle (by decide)

theorem Hw.Only.enabledPorts {C : List Nat} {F : List DieRec} {G : List HwRec} {k k' : Hw} (K : Hw.Only C F G k k')
    (hC : 0 ∉ C ∧ A.hp_enable.cls ∉ C ∧ A.hp_enable.code ∉ C) (d : Nat) : k'.enabledPorts d = k.enabledPorts d := by
  simp only [Hw.enabledPorts, K.read A.hp_enable hC]

/-- Parked spitting on another die leaves a die's ports and its spittings. -/
theorem hpSpitBody_other (ports lines : Nat) (k : Hw) (hde : d ≠ e) :
    ((hpSpitBody ports lines e k).2.die d).spits = (k.die d).spits ∧
      ∀ p, (hpSpitBody ports lines e k).2.rd d A.hp_state p = k.rd d A.hp_state p := by
  have hspit : ∀ l : List Nat, ∀ x : Hw, ∀ p,
      (l.foldl (fun (x : Hw) q => (x.latchLost e q).wr e A.hp_state q 3) x).rd d A.hp_state p = x.rd d A.hp_state p := by
    intro l
    induction l with
    | nil => exact fun _ _ => rfl
    | cons q l ih =>
      intro x p
      rw [List.foldl_cons, ih, Hw.rd_wr_otherDie _ hde.symm _ _ _ rfl rfl, (Hw.latchLost_only ..).read A.hp_state (by decide)]
  unfold hpSpitBody
  dsimp only
  split
  · exact ⟨rfl, fun _ => rfl⟩
  split
  · exact ⟨rfl, fun _ => rfl⟩
  · refine ⟨?_, fun p => hspit _ _ p⟩
    rw [okWith, Hw.die_onDie_ne _ _ hde.symm]
    exact (k.spitPorts_only e ports).spits (by decide) d

theorem Hw.ghSpitDie_only (k : Hw) (d : Nat) :
    Hw.Only [0x1f, 0x10021, 0x70002] [.front, .buckets, .folded, .ports, .spits] [] k (k.ghSpitDie d) := by
  unfold Hw.ghSpitDie
  dsimp only
  split
  · exact .refl ..
  · exact ((hpSpitBody_only ..).mono (by decide)).step (Hw.configChange_only ..) (by decide)

theorem Hw.ghSpitDie_other (k : Hw) (hde : d ≠ e) :
    ((k.ghSpitDie e).die d).spits = (k.die d).spits ∧ ∀ p, (k.ghSpitDie e).rd d A.hp_state p = k.rd d A.hp_state p := by
  unfold Hw.ghSpitDie
  dsimp only
  split
  · exact ⟨rfl, fun _ => rfl⟩
  · obtain ⟨hspits, hstate⟩ := hpSpitBody_other (k.enabledPorts e) k.gh.spitLines k hde
    exact ⟨((Hw.configChange_only ..).spits (by decide) d).trans hspits,
      fun p => ((Hw.configChange_only ..).read A.hp_state (by decide) d p).trans (hstate p)⟩

theorem Hw.SpitReady.other {s k : Hw} (R : s.SpitReady k d) (hde : d ≠ e) : s.SpitReady (k.ghSpitDie e) d := by
  have K := k.ghSpitDie_only e
  obtain ⟨hspits, hstate⟩ := k.ghSpitDie_other hde
  refine ⟨K.len.symm ▸ R.len, ?_, (K.enabledPorts (by decide) d).trans R.ports, ?_, ?_,
    (K.read A.le_state (by decide) d 0).trans R.idle, fun p hp => (hstate p).trans (R.states p hp), hspits.trans R.spits⟩
  · rw [show ((k.ghSpitDie e).die d).up = (k.die d).up from K.die d .up (by decide)]
    exact R.up
  · rw [show (k.ghSpitDie e).gh = k.gh from K.hw .gh (by decide)]
    exact R.lines
  · rw [show (k.ghSpitDie e).hsIn = k.hsIn from K.hw .hsIn (by decide)]
    exact R.parked

/-- A die that is ready spits on its enabled ports. -/
theorem Hw.SpitReady.spits_ghSpitDie {s k : Hw} (R : s.SpitReady k d) (h0 : s.enabledPorts d ≠ 0) (hlines : s.gh.spitLines ≤ 1000000) :
    ((k.ghSpitDie d).die d).spits =
      (s.die d).spits ++ [{ ports := (portsOf (s.enabledPorts d)).map (·, 0), lines := s.gh.spitLines }] := by
  have hbody := hpSpitBody_of_idle (s.enabledPorts_lt d) hlines R.parked (.inl R.idle) R.states
  have hgo : ¬(s.enabledPorts d = 0 ∨ (!(k.die d).up) = true) := by simp [h0, R.up]
  have KP := k.spitPorts_only d (s.enabledPorts d)
  unfold Hw.ghSpitDie
  dsimp only
  rw [R.ports, R.lines, if_neg hgo, hbody, (Hw.configChange_only ..).spits (by decide), okWith, Hw.die_onDie_self _ _ (by
    rw [KP.len]
    exact R.len), KP.spits (by decide), R.spits]

theorem execGhSpitTimer_spits (hmode : s.hw.mode = .gatehouse) (hinterval : s.hw.gh.interval ≠ 0) (hpark : s.hw.hsIn.testBit 1 = true)
    (hd : d < s.hw.n) (hup : (s.hw.die d).up = true) (h0 : s.hw.enabledPorts d ≠ 0) (hidle : s.hw.rd d A.le_state 0 = 0)
    (hlines : s.hw.gh.spitLines ≤ 1000000) (hstates : ∀ p ∈ portsOf (s.hw.enabledPorts d), s.hw.rd d A.hp_state p = 1) :
    ∃ t, execGhSpitTimer s = .next t ∧ s.SameMem t ∧ (t.hw.die d).spits =
      (s.hw.die d).spits ++ [{ ports := (portsOf (s.hw.enabledPorts d)).map (·, 0), lines := s.hw.gh.spitLines }] := by
  have hn : execGhSpitTimer s = .next (s.run fun _ _ => (List.range s.hw.n).foldl (fun k d => k.ghSpitDie d) s.begun) :=
    State.onPkg_works (if_pos ⟨hmode, hinterval, hpark⟩)
  refine ⟨_, hn, (execGhSpitTimer_within _ hn).sameMem, ?_⟩
  rw [State.run_die]
  refine foldl_settles (f := fun (k : Hw) d => k.ghSpitDie d) (Pre := fun e k => e = d → s.hw.SpitReady k e)
    (Post := fun e k => e = d → (k.die e).spits =
      (s.hw.die d).spits ++ [{ ports := (portsOf (s.hw.enabledPorts d)).map (·, 0), lines := s.hw.gh.spitLines }])
    ?does (fun e j k hej R he => (R he).other hej) (fun e j k hej hk he => ((k.ghSpitDie_other hej).1).trans (hk he)) List.nodup_range
    ?start d (List.mem_range.2 hd) rfl
  case does =>
    rintro e k R rfl
    exact (R rfl).spits_ghSpitDie h0 hlines
  case start =>
    rintro e - rfl
    exact ⟨hd, hup, rfl, rfl, hpark, hidle, hstates, rfl⟩

theorem execGhStatus_reads (hA : s.Admits h 0x0F03 (opObj 0x0F03 0)) :
    ∃ t, execGhStatus h s = .next t ∧ s.SameMem t ∧ t.replyOf h = some ⟨.ok, (s.atWork h).ghBytes⟩ := by
  obtain ⟨t, hn, E⟩ := State.command_ends (s := s) hA rfl
  exact ⟨t, hn, (execGhStatus_within _ _ hn).sameMem, E.reply⟩

/-- Settles O40, by what each MODE_SET, a confirmed boot and the spit timer leave. -/
theorem modeRowsComplete : Obligations.ModeRowsComplete := by
  unfold Obligations.ModeRowsComplete
  exact ⟨fun _ _ hA hclosed hmode hlen => execModeSetGatehouse_enters hA hclosed hmode hlen,
    fun _ _ hA hprint hwait => execModeSetHosted_enters hA hprint hwait,
    fun _ _ hA hmode hprint => execModeSetHosted_waits hA hmode hprint,
    fun _ _ _ _ hwatch hdie hslot hlen => execBootConfirm_holds hwatch hdie hslot hlen,
    fun _ _ hmode hinterval hpark hd hup h0 hidle hlines hstates =>
      execGhSpitTimer_spits hmode hinterval hpark hd hup h0 hidle hlines hstates,
    fun _ _ hA => execGhStatus_reads hA⟩

end Sys2Proof.Machine
end

section
/-!
PROOFS. Identity, state and firmware (R42, R65, R68 to R71, R81, R515, R517, R521, R543): what each read answers, what BL_SET records,
how a firmware session goes from BEGIN to its end, and what an update of a status block leaves.
-/
-- One proof after the other: the text is checked as one, and proofs side by side pass the check's memory.
set_option Elab.async false
namespace Sys2Proof.Machine
variable {s : State} {h : Hdr} {f : FwSession} {off : Nat} {data : List Byte} {k : Hw}

/-! ### Identity and state (R81, R515, R521, R543) -/

theorem execIdRead_reads (hA : s.Admits h 0x0001 (opObj 0x0001 0)) :
    ∃ t, execIdRead h s = .next t ∧ s.SameMem t ∧ t.replyOf h =
      some ⟨.ok, leBytes 8 Config.serial ++ orderCode ++ wordBytes [s.hw.bl * 2 ^ 16 + (s.atWork h).n * 2 ^ 8 + (s.atWork h).leadDie] ++
        (List.range (s.atWork h).n).flatMap fun d => leBytes 8 (Config.lot d) ++ leBytes 1 (Config.wafer d) ++
          leBytes 1 (Config.dieX d) ++ leBytes 1 (Config.dieY d) ++ leBytes 1 (Config.stepLetter d) ++ leBytes 4 0⟩ := by
  obtain ⟨t, hn, E⟩ : ∃ t, execIdRead h s = .next t ∧ s.Ends h _ t := State.command_ends hA rfl
  exact ⟨t, hn, (execIdRead_within _ _ hn).sameMem, E.reply⟩

theorem execSysState_reads (hA : s.Admits h 0x0002 (opObj 0x0002 0)) :
    ∃ t, execSysState h s = .next t ∧ s.SameMem t ∧ t.replyOf h =
      some (.words ([(s.atWork h).fwSlotNo * 2 ^ 24 + s.hw.bl * 2 ^ 16 + (s.atWork h).leadDie * 2 ^ 8 + s.hw.mode.code,
        (s.atWork h).fwVer, s.hw.faultMask * 2 ^ 8 + (s.atWork h).runMask] ++
        words64 ((s.atWork h).tb (s.hw.execDie h 0x0002 (opObj 0x0002 0)) 1) ++ words64 (s.hw.evtNext - 1))) := by
  obtain ⟨t, hn, E⟩ : ∃ t, execSysState h s = .next t ∧ s.Ends h _ t := State.command_ends hA rfl
  exact ⟨t, hn, (execSysState_within _ _ hn).sameMem, E.reply⟩

/-- BL_SET of level 1 or 2, without strap BL_SEL and FW_WP and with NV writing allowed, records the level. -/
theorem execBlSet_records {level : Nat} (hA : s.Admits h 0x0004 (opObj 0x0004 0)) (hlevel : level = 1 ∨ level = 2)
    (hsel : bit (s.hw.rd (s.hw.execDie h 0x0004 (opObj 0x0004 0)) A.straps 0) 0 = false)
    (hwp : bit (s.hw.rd (s.hw.execDie h 0x0004 (opObj 0x0004 0)) A.straps 0) 3 = false) (hnv : (s.atWork h).nvOk = true) :
    ∃ t, execBlSet h level s = .next t ∧ s.SameMem t ∧ t.statusOf h = some .deferred ∧ t.hw.rd 0 A.bl_nv 0 = level := by
  have hstraps : ¬(bit ((s.atWork h).rd (s.hw.execDie h 0x0004 (opObj 0x0004 0)) A.straps 0) 0 = true ∨
      bit ((s.atWork h).rd (s.hw.execDie h 0x0004 (opObj 0x0004 0)) A.straps 0) 3 = true) :=
    not_or.2 ⟨ne_true_of_eq_false hsel, ne_true_of_eq_false hwp⟩
  obtain ⟨t, hn, E⟩ : ∃ t, execBlSet h level s = .next t ∧ s.Ends h _ t :=
    State.command_ends hA ((if_neg (by omega)).trans ((if_neg hstraps).trans (if_neg (by simp [hnv]))))
  refine ⟨t, hn, (execBlSet_within _ _ _ hn).sameMem, E.status, ?_⟩
  rw [E.hw.read A.bl_nv (by decide), (Hw.defer_only ..).read A.bl_nv (by decide), Hw.rd_wr_self]

theorem execCmdStatus_answers {tag : Nat} {r : Deferred} (hA : s.Admits h 0x0005 (opObj 0x0005 0))
    (hr : (s.atWork h).deferredOf (s.hw.execDie h 0x0005 (opObj 0x0005 0)) tag (srcOf h.origin) = some r) :
    ∃ t, execCmdStatus h tag s = .next t ∧ s.SameMem t ∧ t.replyOf h = some ⟨.ok, wordBytes [r.fate] ++ r.eff.bytes⟩ := by
  obtain ⟨t, hn, E⟩ : ∃ t, execCmdStatus h tag s = .next t ∧ s.Ends h (⟨.ok, wordBytes [r.fate] ++ r.eff.bytes⟩, s.atWork h) t :=
    State.command_ends hA (by simp only [hr])
  exact ⟨t, hn, (execCmdStatus_within _ _ _ hn).sameMem, E.reply⟩

/-! ### A command in a firmware session (R69) -/

/-- No session of another source stands in the way of a source's own session. -/
theorem fwSession_own (hfw : s.hw.fw = some f) (hsrc : f.src = srcOf h.origin) :
    (s.hw.fw.any fun f => decide (f.src ≠ srcOf h.origin)) = false := by simp [hfw, hsrc]

/-- An FW_UPDATE command that no other source's session refuses ends with what its work gives. -/
theorem fwCommand_ends {body : Nat → Hw → Reply × Hw} {w : Reply × Hw} (hA : s.Admits h 0x0F20 (opObj 0x0F20 0))
    (hown : (s.hw.fw.any fun f => decide (f.src ≠ srcOf h.origin)) = false)
    (hb : body (s.hw.execDie h 0x0F20 (opObj 0x0F20 0)) (s.atWork h) = w) :
    ∃ t, fwCommand h s body = .next t ∧ s.Ends h w t :=
  State.command_ends hA ((if_neg (ne_true_of_eq_false hown)).trans hb)

theorem execFwBegin_opens {size : Nat} (hA : s.Admits h 0x0F20 (opObj 0x0F20 0))
    (hown : (s.hw.fw.any fun f => decide (f.src ≠ srcOf h.origin)) = false)
    (hwp : bit (s.hw.rd (s.hw.execDie h 0x0F20 (opObj 0x0F20 0)) A.straps 0) 3 = false) (hsize : size ≤ 2 ^ 24)
    (hnv : (s.atWork h).nvOk = true) :
    ∃ t, execFwBegin h size s = .next t ∧ s.SameMem t ∧ t.replyOf h = some .ok ∧ t.hw.fw =
        some { src := srcOf h.origin, size := size, received := 0, lastOff := 0, lastLen := 0, data := [], ended := false } ∧
      t.hw.fwSlots = s.hw.fwSlots.set (s.atWork h).fwTarget FwSlot.blank := by
  obtain ⟨t, hn, E⟩ : ∃ t, execFwBegin h size s = .next t ∧ s.Ends h _ t :=
    fwCommand_ends hA hown ((if_neg (ne_true_of_eq_false hwp)).trans
      ((if_neg (Nat.not_lt.2 hsize)).trans (if_neg (by simp [hnv]))))
  exact ⟨t, hn, (execFwBegin_within _ _ _ hn).sameMem, E.reply, E.hw.hw .fw (by decide), E.hw.hw .fwSlots (by decide)⟩

/-! ### FW_DATA (R70) -/

/-- The work of FW_DATA on bytes of a right length in an open session: a repeat, a wrong offset, NV writing forbidden, or bytes taken. -/
def Hw.fwTake (k : Hw) (f : FwSession) (off : Nat) (data : List Byte) : Reply × Hw :=
  if f.lastLen = data.length ∧ f.lastOff = off then okWith k
  else if off ≠ f.received ∨ f.size < off + data.length then refuse .range k
  else if !k.nvOk then refuse .nvTemp k
  else okWith { k with fw := some { f with received := off + data.length, lastOff := off, lastLen := data.length, data := f.data ++ data } }

/-- FW_DATA of 1 to 228 bytes in its source's open session comes to `fwTake`. -/
theorem execFwData_ends (hA : s.Admits h 0x0F20 (opObj 0x0F20 0)) (hfw : s.hw.fw = some f) (hsrc : f.src = srcOf h.origin)
    (hopen : f.ended = false) (h1 : 1 ≤ data.length) (h228 : data.length ≤ 228) :
    ∃ t, execFwData h off data s = .next t ∧ s.Ends h ((s.atWork h).fwTake f off data) t := by
  refine fwCommand_ends hA (fwSession_own hfw hsrc) ?_
  rw [show (s.atWork h).fw = some f from hfw]
  exact (if_neg (by omega)).trans (if_neg (ne_true_of_eq_false hopen))

theorem Hw.fwTake_repeated (hrep : f.lastLen = data.length ∧ f.lastOff = off) : k.fwTake f off data = okWith k := if_pos hrep

theorem Hw.fwTake_elsewhere (hnew : ¬(f.lastLen = data.length ∧ f.lastOff = off)) (hoff : off ≠ f.received) :
    k.fwTake f off data = refuse .range k := (if_neg hnew).trans (if_pos (.inl hoff))

theorem Hw.fwTake_next (hnew : ¬(f.lastLen = data.length ∧ f.lastOff = off)) (hoff : off = f.received)
    (hsize : off + data.length ≤ f.size) (hnv : k.nvOk = true) : k.fwTake f off data =
      okWith { k with fw := some { f with
        received := off + data.length, lastOff := off, lastLen := data.length, data := f.data ++ data } } :=
  (if_neg hnew).trans ((if_neg (by omega)).trans (if_neg (by simp [hnv])))

/-- FW_DATA at the byte count received so far, within the size announced and with NV writing allowed, takes its bytes. -/
theorem execFwData_takes (hA : s.Admits h 0x0F20 (opObj 0x0F20 0)) (hfw : s.hw.fw = some f) (hsrc : f.src = srcOf h.origin)
    (hopen : f.ended = false) (h1 : 1 ≤ data.length) (h228 : data.length ≤ 228)
    (hnew : ¬(f.lastLen = data.length ∧ f.lastOff = off)) (hoff : off = f.received) (hsize : off + data.length ≤ f.size)
    (hnv : (s.atWork h).nvOk = true) :
    ∃ t, execFwData h off data s = .next t ∧ s.SameMem t ∧ t.replyOf h = some .ok ∧ t.hw.fw =
      some { f with received := off + data.length, lastOff := off, lastLen := data.length, data := f.data ++ data } := by
  obtain ⟨t, hn, E⟩ := execFwData_ends (off := off) hA hfw hsrc hopen h1 h228
  rw [Hw.fwTake_next hnew hoff hsize hnv] at E
  exact ⟨t, hn, (execFwData_within _ _ _ _ hn).sameMem, E.reply, E.hw.hw .fw (by decide)⟩

/-- Settles O46, by what FW_DATA comes to at each kind of offset. -/
theorem firmwareDataOffsets : Obligations.FirmwareDataOffsets := by
  unfold Obligations.FirmwareDataOffsets
  intro s h off data f hA hfw hsrc hopen h1 h228
  obtain ⟨t, hn, E⟩ := execFwData_ends (off := off) hA hfw hsrc hopen h1 h228
  have hkept : (s.atWork h).fw = some f := hfw
  refine ⟨fun hoff hnew hsize hnv => ?next, fun hrep => ?repeated, fun hoff hnew => ?elsewhere⟩
  case next =>
    obtain ⟨t, hn, -, hreply, hsession⟩ := execFwData_takes hA hfw hsrc hopen h1 h228 hnew hoff hsize hnv
    exact ⟨t, hn, hreply, _, hsession, congrArg (· + data.length) hoff, rfl⟩
  case repeated =>
    rw [Hw.fwTake_repeated hrep] at E
    exact ⟨t, hn, E.reply, (E.hw.hw .fw (by decide)).trans hkept⟩
  case elsewhere =>
    rw [Hw.fwTake_elsewhere hnew hoff] at E
    exact ⟨t, hn, E.status, (E.hw.hw .fw (by decide)).trans hkept⟩

/-! ### FW_END, FW_ACTIVATE and FW_ABORT (R69, R71, R517) -/

/-- The work of FW_END in an open session with NV writing allowed: a sound image that lists the level leaves its slot VALID. -/
def Hw.fwClose (k : Hw) (f : FwSession) : Reply × Hw :=
  if f.received ≠ f.size ∨ !Config.imageCheck f.data then (.err .check, { k with fw := none })
  else if !bit (Config.imageLevels f.data) k.bl then (.err .state, { k with fw := none })
  else okWith (({ k with fw := some { f with ended := true } }).onSlots fun l => l.set k.fwTarget
    ⟨.valid, f.data, Config.imageVersion f.data, 0, false, true, Config.imageLevels f.data⟩)

theorem execFwEnd_ends (hA : s.Admits h 0x0F20 (opObj 0x0F20 0)) (hfw : s.hw.fw = some f) (hsrc : f.src = srcOf h.origin)
    (hopen : f.ended = false) (hnv : (s.atWork h).nvOk = true) :
    ∃ t, execFwEnd h s = .next t ∧ s.Ends h ((s.atWork h).fwClose f) t := by
  refine fwCommand_ends hA (fwSession_own hfw hsrc) ?_
  rw [show (s.atWork h).fw = some f from hfw]
  exact (if_neg (ne_true_of_eq_false hopen)).trans (if_neg (by simp [hnv]))

theorem Hw.fwClose_sound (hall : f.received = f.size) (hcheck : Config.imageCheck f.data = true)
    (hlevel : bit (Config.imageLevels f.data) k.bl = true) : k.fwClose f =
      okWith (({ k with fw := some { f with ended := true } }).onSlots fun l => l.set k.fwTarget
        ⟨.valid, f.data, Config.imageVersion f.data, 0, false, true, Config.imageLevels f.data⟩) :=
  (if_neg (by simp [hall, hcheck])).trans (if_neg (by simp [hlevel]))

theorem Hw.fwClose_unsound (hcheck : Config.imageCheck f.data = false) :
    k.fwClose f = (.err .check, { k with fw := none }) := if_pos (.inr (by simp [hcheck]))

theorem execFwEnd_closes (hA : s.Admits h 0x0F20 (opObj 0x0F20 0)) (hfw : s.hw.fw = some f) (hsrc : f.src = srcOf h.origin)
    (hopen : f.ended = false) (hnv : (s.atWork h).nvOk = true) (hall : f.received = f.size) :
    ∃ t, execFwEnd h s = .next t ∧ s.SameMem t ∧
      (Config.imageCheck f.data = true → bit (Config.imageLevels f.data) s.hw.bl = true → t.replyOf h = some .ok ∧
        t.hw.fw = some { f with ended := true } ∧ ((s.atWork h).fwTarget < s.hw.fwSlots.length →
          (t.hw.fwSlots.getD (s.atWork h).fwTarget FwSlot.blank).st = .valid)) ∧
      (Config.imageCheck f.data = false → t.statusOf h = some .check ∧ t.hw.fw = none) := by
  obtain ⟨t, hn, E⟩ := execFwEnd_ends hA hfw hsrc hopen hnv
  refine ⟨t, hn, (execFwEnd_within _ _ hn).sameMem, fun hcheck hlevel => ?sound, fun hcheck => ?unsound⟩
  case sound =>
    rw [Hw.fwClose_sound (k := s.atWork h) hall hcheck hlevel] at E
    refine ⟨E.reply, E.hw.hw .fw (by decide), fun hslot => ?_⟩
    have hslots : t.hw.fwSlots = s.hw.fwSlots.set (s.atWork h).fwTarget _ := E.hw.hw .fwSlots (by decide)
    simp [hslots, List.getD_eq_getElem?_getD, hslot]
  case unsound =>
    rw [Hw.fwClose_unsound hcheck] at E
    exact ⟨E.status, E.hw.hw .fw (by decide)⟩

theorem execFwActivate_activates (hA : s.Admits h 0x0F20 (opObj 0x0F20 0))
    (hown : (s.hw.fw.any fun f => decide (f.src ≠ srcOf h.origin)) = false)
    (hvalid : (s.hw.fwSlots.getD (s.atWork h).fwTarget FwSlot.blank).st = .valid) (hnv : (s.atWork h).nvOk = true) :
    ∃ t, execFwActivate h s = .next t ∧ s.SameMem t ∧ t.statusOf h = some .deferred ∧ t.hw.fw = none ∧
      ((s.atWork h).fwTarget < s.hw.fwSlots.length →
        (t.hw.fwSlots.getD (s.atWork h).fwTarget FwSlot.blank).st = .pending) := by
  obtain ⟨t, hn, E⟩ : ∃ t, execFwActivate h s = .next t ∧ s.Ends h _ t :=
    fwCommand_ends hA hown ((if_neg (not_not.2 hvalid)).trans (if_neg (by simp [hnv])))
  refine ⟨t, hn, (execFwActivate_within _ _ hn).sameMem, E.status, E.hw.hw .fw (by decide), fun hslot => ?_⟩
  have hslots : t.hw.fwSlots = s.hw.fwSlots.modify (s.atWork h).fwTarget fun x =>
    { x with st := .pending, tried := false, fails := 0 } := E.hw.hw .fwSlots (by decide)
  simp [hslots, List.getD_eq_getElem?_getD, hslot]

theorem execFwAbort_aborts (hA : s.Admits h 0x0F20 (opObj 0x0F20 0)) (hfw : s.hw.fw = some f) (hsrc : f.src = srcOf h.origin) :
    ∃ t, execFwAbort h s = .next t ∧ s.SameMem t ∧ t.replyOf h = some .ok ∧ t.hw.fw = none := by
  have hsome : ¬(s.atWork h).fw.isNone = true := by
    rw [show (s.atWork h).fw = some f from hfw]
    exact Bool.false_ne_true
  obtain ⟨t, hn, E⟩ : ∃ t, execFwAbort h s = .next t ∧ s.Ends h _ t :=
    fwCommand_ends hA (fwSession_own hfw hsrc) (if_neg hsome)
  exact ⟨t, hn, (execFwAbort_within _ _ hn).sameMem, E.reply, (E.hw.hw .fw (by decide)).trans (Hw.fw_fwAbort _)⟩

theorem execFwSessionTimeout_aborts : ∃ t, execFwSessionTimeout s = .next t ∧ s.SameMem t ∧ t.hw.fw = none := by
  have hn : execFwSessionTimeout s = .next (s.run fun _ h => h.fwAbort) := rfl
  exact ⟨_, hn, (execFwSessionTimeout_within _ hn).sameMem, s.begun.fw_fwAbort⟩

/-! ### The status block (R42) -/

theorem execStatusBlockUpdate_steps {die : Nat} (hd : die < s.hw.dies.length) (hup : (s.hw.die die).up = true) :
    ∃ t, execStatusBlockUpdate die s = .next t ∧ s.SameMem t ∧
      (t.hw.die die).sb.gen = ((s.hw.die die).sb.gen + 2) % 2 ^ 32 ∧
      (t.hw.die die).sb.heartbeat = ((s.hw.die die).sb.heartbeat + 1) % 2 ^ 32 := by
  have hn : execStatusBlockUpdate die s = .next (s.run _) :=
    State.onDie_works hd (if_neg (by rw [show (s.begun.die die).up = true from hup]; decide))
  refine ⟨_, hn, (execStatusBlockUpdate_within _ _ hn).sameMem, ?_⟩
  rw [State.run_die, s.begun.die_onDie_self _ hd]
  exact ⟨rfl, rfl⟩

/-- Settles O19, by what each row leaves. -/
theorem firmwareRowsComplete : Obligations.FirmwareRowsComplete := by
  unfold Obligations.FirmwareRowsComplete
  exact ⟨fun _ _ hA => execIdRead_reads hA, fun _ _ hA => execSysState_reads hA,
    fun _ _ _ hA hlevel hsel hwp hnv => execBlSet_records hA hlevel hsel hwp hnv,
    fun _ _ _ _ hA hr => execCmdStatus_answers hA hr,
    fun _ _ _ hA hown hwp hsize hnv => execFwBegin_opens hA hown hwp hsize hnv,
    fun _ _ _ _ _ hA hfw hsrc hopen hsome h228 hnew hoff hsize hnv =>
      execFwData_takes hA hfw hsrc hopen (List.length_pos_iff.2 hsome) h228 hnew hoff hsize hnv,
    fun _ _ _ hA hfw hsrc hopen hnv hall => execFwEnd_closes hA hfw hsrc hopen hnv hall,
    fun _ _ hA hown hvalid hnv => execFwActivate_activates hA hown hvalid hnv,
    fun _ _ _ hA hfw hsrc => execFwAbort_aborts hA hfw hsrc, fun _ => execFwSessionTimeout_aborts,
    fun _ _ hd hup => execStatusBlockUpdate_steps hd hup⟩

end Sys2Proof.Machine
end

section
/-!
PROOFS. The configuration records (R80): an occurrence of CONFIG_CHANGE or SOURCE_SEEN enters the front buffer and is never folded or
suppressed, and no limit of either code can be set.
-/
-- One proof after the other: the text is checked as one, and proofs side by side pass the check's memory.
set_option Elab.async false
namespace Sys2Proof.Machine
variable {s : State} {die code : Nat} {h : Hdr}

theorem fixedCode_of_configRecord (hcode : code = 0x0020 ∨ code = 0x0021) : fixedCode code = true := by
  rcases hcode with rfl | rfl
  · decide
  · decide

/-- A fixed code of which no limit is recorded is unlimited (R497). -/
theorem Hw.limit_of_fixed {k : Hw} (hfix : fixedCode code = true) (hnone : (k.limits.find? fun l => l.code = code) = none) :
    k.limit code = (0, 0) := by
  rw [Hw.limit, hnone]
  exact if_pos hfix

/-- An event of an unlimited fixed code leaves the count of suppressed events. -/
theorem Hw.suppressed_event_unlimited (k : Hw) (data : List Byte) (hfix : fixedCode code = true) (hlim : (k.limit code).2 = 0) (e : Nat) :
    (k.event die code data).rd e A.suppressed 0 = k.rd e A.suppressed 0 := by
  unfold Hw.event Hw.eventNode
  extract_lets x b folded
  dsimp only
  rw [if_neg (fun hno => hno.1 hlim), if_neg (fun hno => hno.1 hfix), (Hw.frontPut_only ..).read A.suppressed (by decide),
    (Hw.setBucket_only ..).read A.suppressed (by decide)]

theorem execEventRaise_unlimited (data : List Byte) (hd : die < s.hw.dies.length) (hfix : fixedCode code = true)
    (hlim : (s.hw.limit code).2 = 0) :
    ∃ t, execEventRaise die code data s = .next t ∧
      (∃ e : Evt, (t.hw.die die).front = (s.hw.die die).front ++ [e] ∧ e.code = code ∧ e.die = die ∧ e.data = data.take 40) ∧
      t.hw.rd die A.suppressed 0 = s.hw.rd die A.suppressed 0 ∧ (t.hw.die die).folded = (s.hw.die die).folded := by
  obtain ⟨e, hfront, hecode, hedie, -, hedata⟩ := s.begun.front_event data hd (.inl hlim) (.inl hfix)
  exact ⟨_, State.onDie_works hd rfl, ⟨e, hfront, hecode, hedie, hedata⟩,
    s.begun.suppressed_event_unlimited data hfix hlim die, s.begun.folded_event_fixed data hfix die⟩

theorem execEvtLimitSet_refuses {rate burst : Nat} (hA : s.Admits h 0x0E03 (opObj 0x0E03 0)) (hrate : rate ≠ 0)
    (hfix : fixedCode code = true) :
    ∃ t, execEvtLimitSet h code rate burst s = .next t ∧ t.statusOf h = some .state ∧ t.hw.limits = s.hw.limits := by
  obtain ⟨t, hn, E⟩ : ∃ t, execEvtLimitSet h code rate burst s = .next t ∧ s.Ends h _ t :=
    State.command_ends hA ((if_neg hrate).trans (if_pos hfix))
  exact ⟨t, hn, E.status, E.hw.hw .limits (by decide)⟩

/-- Settles O48, by what an event of an unlimited fixed code leaves and by the refusal of its limit. -/
theorem configRecordsAreNeverLimited : Obligations.ConfigRecordsAreNeverLimited := by
  unfold Obligations.ConfigRecordsAreNeverLimited
  refine ⟨fun s die code data hd hcode hnone => ?_,
    fun s h code rate burst hA hcode hrate => execEvtLimitSet_refuses hA hrate (fixedCode_of_configRecord hcode)⟩
  have hfix := fixedCode_of_configRecord hcode
  exact execEventRaise_unlimited data hd hfix (congrArg Prod.snd (Hw.limit_of_fixed hfix hnone))

end Sys2Proof.Machine
end

section
/-!
PROOFS. The behaviour level (R81): a boot chooses it from strap BL_SEL and `bl_nv`, and a command whose frame does not name it leaves it.
-/
-- One proof after the other: the text is checked as one, and proofs side by side pass the check's memory.
set_option Elab.async false
namespace Sys2Proof.Machine
variable {C : List Nat} {F : List DieRec} {G : List HwRec} {s t : State}

/-! ### The level that a boot chooses -/

/-- The level of a boot with these straps: BL1 with strap BL_SEL high, otherwise what `bl_nv` records, BL2 when it is 0. -/
def Hw.levelFor (k : Hw) (straps : Nat) : Nat := if straps.testBit 0 then 1 else if k.rd 0 A.bl_nv 0 = 0 then 2 else k.rd 0 A.bl_nv 0

/-- The level depends on the straps and on `bl_nv` only. -/
theorem Hw.Only.levelFor {k k' : Hw} (K : Hw.Only C F G k k') (hC : 0 ∉ C ∧ A.bl_nv.cls ∉ C ∧ A.bl_nv.code ∉ C) (straps : Nat) :
    k'.levelFor straps = k.levelFor straps := by
  rw [Hw.levelFor, Hw.levelFor, K.read A.bl_nv hC]

theorem Hw.bl_bootDieStart (k : Hw) (cause : Cause) (straps d : Nat) : (k.bootDieStart cause straps d).bl = k.bl := by
  unfold Hw.bootDieStart
  dsimp only
  split
  · rfl
  split
  · exact (Hw.setFault_only ..).hw .bl (by decide)
  · rfl

/-- A boot fixes the level before it starts the dies, which leave it. -/
theorem Hw.bl_bootStart (k : Hw) (cause : Cause) (straps : Nat) : (k.bootStart cause straps).bl = k.levelFor straps := by
  have hdies : ∀ l : List Nat, (l.foldl (fun k d => k.bootDieStart cause straps d) (k.bootLevel straps)).bl = (k.bootLevel straps).bl :=
    fun l => List.foldlRecOn (motive := fun j : Hw => j.bl = (k.bootLevel straps).bl) l _ rfl
      fun j hj d _ => (j.bl_bootDieStart cause straps d).trans hj
  exact ((k.bootStart_after cause straps).hw .bl (by decide)).trans (hdies _)

theorem execPorstRise_level {straps alive : Nat} (hporst : s.hw.porst = true) :
    ∃ t, execPorstRise straps 1023 alive s = .next t ∧ t.hw.bl = s.hw.levelFor straps := by
  have hn : execPorstRise straps 1023 alive s = .next (s.run fun _ _ => (s.begun.porstEnd 1023 alive).bootStart .por straps) :=
    State.onPkg_works ((if_neg (by simp [hporst])).trans (if_pos rfl))
  have KS := Hw.railsShow_only { s.begun with porst := false, alive := alive % 2 ^ s.begun.n } (1023 % 1024)
  exact ⟨_, hn, (Hw.bl_bootStart ..).trans (KS.levelFor (by decide) straps)⟩

theorem execRailGood_level {straps : Nat} (hporst : s.hw.porst = false) (hrail : s.hw.railFault = true) (hclk : s.hw.clkFault = false) :
    ∃ t, execRailGood straps s = .next t ∧ t.hw.bl = s.hw.levelFor straps := by
  have KS := Hw.railsShow_only { s.begun with railFault := false } 1023
  have hclk' : ¬(({ s.begun with railFault := false } : Hw).railsShow 1023).clkFault = true :=
    ne_true_of_eq_false ((KS.hw .clkFault (by decide)).trans hclk)
  have hn : execRailGood straps s = .next (s.run fun _ _ =>
      (({ s.begun with railFault := false } : Hw).railsShow 1023).bootStart .rail straps) :=
    State.onPkg_works ((if_neg (by simp [hporst, hrail])).trans (if_neg hclk'))
  exact ⟨_, hn, (Hw.bl_bootStart ..).trans (KS.levelFor (by decide) straps)⟩

theorem execClockGood_level {straps gap : Nat} (hporst : s.hw.porst = false) (hrail : s.hw.railFault = false)
    (hclk : s.hw.clkFault = true) :
    ∃ t, execClockGood straps gap s = .next t ∧ t.hw.bl = s.hw.levelFor straps := by
  have KC := s.begun.clockBack_only gap
  have hrail' : ¬(s.begun.clockBack gap).railFault = true :=
    ne_true_of_eq_false ((KC.hw .railFault (by decide)).trans hrail)
  have hn : execClockGood straps gap s = .next (s.run fun _ _ => (s.begun.clockBack gap).bootStart .clock straps) :=
    State.onPkg_works ((if_neg (by simp [hporst, hclk])).trans (if_neg hrail'))
  exact ⟨_, hn, (Hw.bl_bootStart ..).trans (KC.levelFor (by decide) straps)⟩

/-! ### The commands that leave the level -/

/-- A step within a frame that agrees with the command's on the records of the package leaves the level when it is not named. -/
theorem State.Within.bl_of_touches {c : Instr} {T : Touch} (W : s.Within C F G t) (hG : (Instr.touches c).map (·.pkg) = some G)
    (hT : Instr.touches c = some T) (hbl : .bl ∉ T.pkg) : t.hw.bl = s.hw.bl := by
  rw [hT] at hG
  obtain rfl : T.pkg = G := Option.some.inj hG
  exact W.hw.hw .bl (by simp [hbl])

/-- The rows of the dispatch, each by its own frame. -/
theorem exec_keeps_bl {c : Instr} {T : Touch} (hT : Instr.touches c = some T) (hbl : .bl ∉ T.pkg) (h : exec c s = .next t) :
    t.hw.bl = s.hw.bl := by
  cases c with
  | registerWrite => exact (execRegisterWrite_within (hn := h) ..).bl_of_touches rfl hT hbl
  | barRcRead => exact (execBarRcRead_within (hn := h) ..).bl_of_touches rfl hT hbl
  | mbxSlotWrite => exact (execMbxSlotWrite_within (hn := h) ..).bl_of_touches rfl hT hbl
  | mbxRing => exact (execMbxRing_within (hn := h) ..).bl_of_touches rfl hT hbl
  | remoteMailboxDatagram => exact (execRemoteMailboxDatagram_within (hn := h) ..).bl_of_touches rfl hT hbl
  | commandTimeout => exact (execCommandTimeout_within (hn := h) ..).bl_of_touches rfl hT hbl
  | stageDiscard => exact (execStageDiscard_within (hn := h) ..).bl_of_touches rfl hT hbl
  | statusBlockUpdate => exact (execStatusBlockUpdate_within (hn := h) ..).bl_of_touches rfl hT hbl
  | idRead => exact (execIdRead_within (hn := h) ..).bl_of_touches rfl hT hbl
  | sysState => exact (execSysState_within (hn := h) ..).bl_of_touches rfl hT hbl
  | blSet => exact (execBlSet_within (hn := h) ..).bl_of_touches rfl hT hbl
  | cmdStatus => exact (execCmdStatus_within (hn := h) ..).bl_of_touches rfl hT hbl
  | objGet => exact (execObjGet_within (hn := h) ..).bl_of_touches rfl hT hbl
  | objSet => exact (execObjSet_within (hn := h) ..).bl_of_touches rfl hT hbl
  | objGetBlock => exact (execObjGetBlock_within (hn := h) ..).bl_of_touches rfl hT hbl
  | objSetBlock => exact (execObjSetBlock_within (hn := h) ..).bl_of_touches rfl hT hbl
  | fwBegin => exact (execFwBegin_within (hn := h) ..).bl_of_touches rfl hT hbl
  | fwData => exact (execFwData_within (hn := h) ..).bl_of_touches rfl hT hbl
  | fwEnd => exact (execFwEnd_within (hn := h) ..).bl_of_touches rfl hT hbl
  | fwActivate => exact (execFwActivate_within (hn := h) ..).bl_of_touches rfl hT hbl
  | fwAbort => exact (execFwAbort_within (hn := h) ..).bl_of_touches rfl hT hbl
  | fwSessionTimeout => exact (execFwSessionTimeout_within (hn := h) ..).bl_of_touches rfl hT hbl
  | qpWrWrite => exact (execQpWrWrite_within (hn := h) ..).bl_of_touches rfl hT hbl
  | qpRdWrite => exact (execQpRdWrite_within (hn := h) ..).bl_of_touches rfl hT hbl
  | stallPushRetry => exact (execStallPushRetry_within (hn := h) ..).bl_of_touches rfl hT hbl
  | queueWriteback => exact (execQueueWriteback_within (hn := h) ..).bl_of_touches rfl hT hbl
  | queueInvalidate => exact (execQueueInvalidate_within (hn := h) ..).bl_of_touches rfl hT hbl
  | queueEnable => exact (execQueueEnable_within (hn := h) ..).bl_of_touches rfl hT hbl
  | queueDisable => exact (execQueueDisable_within (hn := h) ..).bl_of_touches rfl hT hbl
  | queueFlush => exact (execQueueFlush_within (hn := h) ..).bl_of_touches rfl hT hbl
  | queueStatus => exact (execQueueStatus_within (hn := h) ..).bl_of_touches rfl hT hbl
  | encEdge => exact (execEncEdge_within (hn := h) ..).bl_of_touches rfl hT hbl
  | encLosSet => exact (execEncLosSet_within (hn := h) ..).bl_of_touches rfl hT hbl
  | encLosClear => exact (execEncLosClear_within (hn := h) ..).bl_of_touches rfl hT hbl
  | indexPulse => exact (execIndexPulse_within (hn := h) ..).bl_of_touches rfl hT hbl
  | absWordRequest => exact (execAbsWordRequest_within (hn := h) ..).bl_of_touches rfl hT hbl
  | absRequest => exact (execAbsRequest_within (hn := h) ..).bl_of_touches rfl hT hbl
  | absWordComplete => exact (execAbsWordComplete_within (hn := h) ..).bl_of_touches rfl hT hbl
  | absTimeout => exact (execAbsTimeout_within (hn := h) ..).bl_of_touches rfl hT hbl
  | encMag => exact (execEncMag_within (hn := h) ..).bl_of_touches rfl hT hbl
  | stillTimeout => exact (execStillTimeout_within (hn := h) ..).bl_of_touches rfl hT hbl
  | pergolaPairReceive => exact (execPergolaPairReceive_within (hn := h) ..).bl_of_touches rfl hT hbl
  | posSet => exact (execPosSet_within (hn := h) ..).bl_of_touches rfl hT hbl
  | posLatch => exact (execPosLatch_within (hn := h) ..).bl_of_touches rfl hT hbl
  | cmpArm => exact (execCmpArm_within (hn := h) ..).bl_of_touches rfl hT hbl
  | cmpDisarm => exact (execCmpDisarm_within (hn := h) ..).bl_of_touches rfl hT hbl
  | fireTimerMatch => exact (execFireTimerMatch_within (hn := h) ..).bl_of_touches rfl hT hbl
  | commitDeadline => exact (execCommitDeadline_within (hn := h) ..).bl_of_touches rfl hT hbl
  | pressRunAccept => exact (execPressRunAccept_within (hn := h) ..).bl_of_touches rfl hT hbl
  | headParkedAccept => exact (execHeadParkedAccept_within (hn := h) ..).bl_of_touches rfl hT hbl
  | eStopAccept => exact (execEStopAccept_within (hn := h) ..).bl_of_touches rfl hT hbl
  | eStopReleaseAccept => exact (execEStopReleaseAccept_within (hn := h) ..).bl_of_touches rfl hT hbl
  | leResume => exact (execLeResume_within (hn := h) ..).bl_of_touches rfl hT hbl
  | hsForce => exact (execHsForce_within (hn := h) ..).bl_of_touches rfl hT hbl
  | hsRelease => exact (execHsRelease_within (hn := h) ..).bl_of_touches rfl hT hbl
  | leStatus => exact (execLeStatus_within (hn := h) ..).bl_of_touches rfl hT hbl
  | slotShift => exact (execSlotShift_within (hn := h) ..).bl_of_touches rfl hT hbl
  | staleReshift => exact (execStaleReshift_within (hn := h) ..).bl_of_touches rfl hT hbl
  | headQuery => exact (execHeadQuery_within (hn := h) ..).bl_of_touches rfl hT hbl
  | lvdsFault => exact (execLvdsFault_within (hn := h) ..).bl_of_touches rfl hT hbl
  | hpEnable => exact (execHpEnable_within (hn := h) ..).bl_of_touches rfl hT hbl
  | hpDisable => exact (execHpDisable_within (hn := h) ..).bl_of_touches rfl hT hbl
  | hpRestart => exact (execHpRestart_within (hn := h) ..).bl_of_touches rfl hT hbl
  | hpQuery => exact (execHpQuery_within (hn := h) ..).bl_of_touches rfl hT hbl
  | hpSpitParked => exact (execHpSpitParked_within (hn := h) ..).bl_of_touches rfl hT hbl
  | hpSpitStop => exact (execHpSpitStop_within (hn := h) ..).bl_of_touches rfl hT hbl
  | hpSpitWeb => exact (execHpSpitWeb_within (hn := h) ..).bl_of_touches rfl hT hbl
  | spitLine => exact (execSpitLine_within (hn := h) ..).bl_of_touches rfl hT hbl
  | toneLine => exact (execToneLine_within (hn := h) ..).bl_of_touches rfl hT hbl
  | tbSwapDecision => exact (execTbSwapDecision_within (hn := h) ..).bl_of_touches rfl hT hbl
  | tbBuild => exact (execTbBuild_within (hn := h) ..).bl_of_touches rfl hT hbl
  | tbBuildAbort => exact (execTbBuildAbort_within (hn := h) ..).bl_of_touches rfl hT hbl
  | tbBuilt => exact (execTbBuilt_within (hn := h) ..).bl_of_touches rfl hT hbl
  | tbSwap => exact (execTbSwap_within (hn := h) ..).bl_of_touches rfl hT hbl
  | plStatus => exact (execPlStatus_within (hn := h) ..).bl_of_touches rfl hT hbl
  | descriptorPush => exact (execDescriptorPush_within (hn := h) ..).bl_of_touches rfl hT hbl
  | decodeStart => exact (execDecodeStart_within (hn := h) ..).bl_of_touches rfl hT hbl
  | decodeComplete => exact (execDecodeComplete_within (hn := h) ..).bl_of_touches rfl hT hbl
  | codecVerify => exact (execCodecVerify_within (hn := h) ..).bl_of_touches rfl hT hbl
  | codecCompressSubmit => exact (execCodecCompressSubmit_within (hn := h) ..).bl_of_touches rfl hT hbl
  | codecCompressAbort => exact (execCodecCompressAbort_within (hn := h) ..).bl_of_touches rfl hT hbl
  | compressJobStart => exact (execCompressJobStart_within (hn := h) ..).bl_of_touches rfl hT hbl
  | compressBlockEnd => exact (execCompressBlockEnd_within (hn := h) ..).bl_of_touches rfl hT hbl
  | ctxOpen => exact (execCtxOpen_within (hn := h) ..).bl_of_touches rfl hT hbl
  | ctxStartAbs => exact (execCtxStartAbs_within (hn := h) ..).bl_of_touches rfl hT hbl
  | ctxStartAfter => exact (execCtxStartAfter_within (hn := h) ..).bl_of_touches rfl hT hbl
  | switchFix => exact (execSwitchFix_within (hn := h) ..).bl_of_touches rfl hT hbl
  | ctxStop => exact (execCtxStop_within (hn := h) ..).bl_of_touches rfl hT hbl
  | ctxClose => exact (execCtxClose_within (hn := h) ..).bl_of_touches rfl hT hbl
  | ctxAbort => exact (execCtxAbort_within (hn := h) ..).bl_of_touches rfl hT hbl
  | ctxInvalidate => exact (execCtxInvalidate_within (hn := h) ..).bl_of_touches rfl hT hbl
  | contextWriteback => exact (execContextWriteback_within (hn := h) ..).bl_of_touches rfl hT hbl
  | runwayStatus => exact (execRunwayStatus_within (hn := h) ..).bl_of_touches rfl hT hbl
  | grtData => exact (execGrtData_within (hn := h) ..).bl_of_touches rfl hT hbl
  | grtReset => exact (execGrtReset_within (hn := h) ..).bl_of_touches rfl hT hbl
  | grtAckTimer => exact (execGrtAckTimer_within (hn := h) ..).bl_of_touches rfl hT hbl
  | dmaTailWrite => exact (execDmaTailWrite_within (hn := h) ..).bl_of_touches rfl hT hbl
  | dmaBlockFetch => exact (execDmaBlockFetch_within (hn := h) ..).bl_of_touches rfl hT hbl
  | blockStore => exact (execBlockStore_within (hn := h) ..).bl_of_touches rfl hT hbl
  | stopFixed => exact (execStopFixed_within (hn := h) ..).bl_of_touches rfl hT hbl
  | backupTimeout => exact (execBackupTimeout_within (hn := h) ..).bl_of_touches rfl hT hbl
  | stopRelease => exact (execStopRelease_within (hn := h) ..).bl_of_touches rfl hT hbl
  | csiFrameStart => exact (execCsiFrameStart_within (hn := h) ..).bl_of_touches rfl hT hbl
  | csiLine => exact (execCsiLine_within (hn := h) ..).bl_of_touches rfl hT hbl
  | csiFrameEnd => exact (execCsiFrameEnd_within (hn := h) ..).bl_of_touches rfl hT hbl
  | frameTimeout => exact (execFrameTimeout_within (hn := h) ..).bl_of_touches rfl hT hbl
  | ispFrameDone => exact (execIspFrameDone_within (hn := h) ..).bl_of_touches rfl hT hbl
  | mpFrameProcess => exact (execMpFrameProcess_within (hn := h) ..).bl_of_touches rfl hT hbl
  | psetListComplete => exact (execPsetListComplete_within (hn := h) ..).bl_of_touches rfl hT hbl
  | camWake => exact (execCamWake_within (hn := h) ..).bl_of_touches rfl hT hbl
  | camEnable => exact (execCamEnable_within (hn := h) ..).bl_of_touches rfl hT hbl
  | camDisable => exact (execCamDisable_within (hn := h) ..).bl_of_touches rfl hT hbl
  | camSleep => exact (execCamSleep_within (hn := h) ..).bl_of_touches rfl hT hbl
  | camSnap => exact (execCamSnap_within (hn := h) ..).bl_of_touches rfl hT hbl
  | camRelease => exact (execCamRelease_within (hn := h) ..).bl_of_touches rfl hT hbl
  | camApply => exact (execCamApply_within (hn := h) ..).bl_of_touches rfl hT hbl
  | camI2c => exact (execCamI2c_within (hn := h) ..).bl_of_touches rfl hT hbl
  | chainRefresh => exact (execChainRefresh_within (hn := h) ..).bl_of_touches rfl hT hbl
  | chainReturn => exact (execChainReturn_within (hn := h) ..).bl_of_touches rfl hT hbl
  | lampWriteback => exact (execLampWriteback_within (hn := h) ..).bl_of_touches rfl hT hbl
  | chainEnable => exact (execChainEnable_within (hn := h) ..).bl_of_touches rfl hT hbl
  | chainDisable => exact (execChainDisable_within (hn := h) ..).bl_of_touches rfl hT hbl
  | chainEnum => exact (execChainEnum_within (hn := h) ..).bl_of_touches rfl hT hbl
  | lampInvalidate => exact (execLampInvalidate_within (hn := h) ..).bl_of_touches rfl hT hbl
  | lampCtrlClear => exact (execLampCtrlClear_within (hn := h) ..).bl_of_touches rfl hT hbl
  | lampCtrlDiag => exact (execLampCtrlDiag_within (hn := h) ..).bl_of_touches rfl hT hbl
  | mxStep => exact (execMxStep_within (hn := h) ..).bl_of_touches rfl hT hbl
  | mxStart => exact (execMxStart_within (hn := h) ..).bl_of_touches rfl hT hbl
  | mxStop => exact (execMxStop_within (hn := h) ..).bl_of_touches rfl hT hbl
  | chPageEvaluate => exact (execChPageEvaluate_within (hn := h) ..).bl_of_touches rfl hT hbl
  | chStart => exact (execChStart_within (hn := h) ..).bl_of_touches rfl hT hbl
  | chStop => exact (execChStop_within (hn := h) ..).bl_of_touches rfl hT hbl
  | chFreeze => exact (execChFreeze_within (hn := h) ..).bl_of_touches rfl hT hbl
  | chResume => exact (execChResume_within (hn := h) ..).bl_of_touches rfl hT hbl
  | chCaptureRef => exact (execChCaptureRef_within (hn := h) ..).bl_of_touches rfl hT hbl
  | chStatus => exact (execChStatus_within (hn := h) ..).bl_of_touches rfl hT hbl
  | servoSample => exact (execServoSample_within (hn := h) ..).bl_of_touches rfl hT hbl
  | slewEnd => exact (execSlewEnd_within (hn := h) ..).bl_of_touches rfl hT hbl
  | holdoverTimeout => exact (execHoldoverTimeout_within (hn := h) ..).bl_of_touches rfl hT hbl
  | tbChangeApply => exact (execTbChangeApply_within (hn := h) ..).bl_of_touches rfl hT hbl
  | timeAlign => exact (execTimeAlign_within (hn := h) ..).bl_of_touches rfl hT hbl
  | ptpMessage => exact (execPtpMessage_within (hn := h) ..).bl_of_touches rfl hT hbl
  | announceTimeout => exact (execAnnounceTimeout_within (hn := h) ..).bl_of_touches rfl hT hbl
  | pulseOutputMatch => exact (execPulseOutputMatch_within (hn := h) ..).bl_of_touches rfl hT hbl
  | captureEdge => exact (execCaptureEdge_within (hn := h) ..).bl_of_touches rfl hT hbl
  | tbRead => exact (execTbRead_within (hn := h) ..).bl_of_touches rfl hT hbl
  | tbStep => exact (execTbStep_within (hn := h) ..).bl_of_touches rfl hT hbl
  | poArm => exact (execPoArm_within (hn := h) ..).bl_of_touches rfl hT hbl
  | itvTrainingStart => exact (execItvTrainingStart_within (hn := h) ..).bl_of_touches rfl hT hbl
  | itvTrainStepDone => exact (execItvTrainStepDone_within (hn := h) ..).bl_of_touches rfl hT hbl
  | itvTrainFail => exact (execItvTrainFail_within (hn := h) ..).bl_of_touches rfl hT hbl
  | itvRetry => exact (execItvRetry_within (hn := h) ..).bl_of_touches rfl hT hbl
  | itvFrameReceive => exact (execItvFrameReceive_within (hn := h) ..).bl_of_touches rfl hT hbl
  | itvAckTimeout => exact (execItvAckTimeout_within (hn := h) ..).bl_of_touches rfl hT hbl
  | itvSleepEnter => exact (execItvSleepEnter_within (hn := h) ..).bl_of_touches rfl hT hbl
  | itvDeepPropose => exact (execItvDeepPropose_within (hn := h) ..).bl_of_touches rfl hT hbl
  | itvDeepExit => exact (execItvDeepExit_within (hn := h) ..).bl_of_touches rfl hT hbl
  | eyeScanComplete => exact (execEyeScanComplete_within (hn := h) ..).bl_of_touches rfl hT hbl
  | ethDatagram => exact (execEthDatagram_within (hn := h) ..).bl_of_touches rfl hT hbl
  | tunnelDatagram => exact (execTunnelDatagram_within (hn := h) ..).bl_of_touches rfl hT hbl
  | pcieFlr => exact (execPcieFlr_within (hn := h) ..).bl_of_touches rfl hT hbl
  | perstLLow => exact (execPerstLLow_within (hn := h) ..).bl_of_touches rfl hT hbl
  | bar2Access => exact (execBar2Access_within (hn := h) ..).bl_of_touches rfl hT hbl
  | enumFrame => exact (execEnumFrame_within (hn := h) ..).bl_of_touches rfl hT hbl
  | autoEnum => exact (execAutoEnum_within (hn := h) ..).bl_of_touches rfl hT hbl
  | timeSyncExchange => exact (execTimeSyncExchange_within (hn := h) ..).bl_of_touches rfl hT hbl
  | itvEnable => exact (execItvEnable_within (hn := h) ..).bl_of_touches rfl hT hbl
  | itvDisable => exact (execItvDisable_within (hn := h) ..).bl_of_touches rfl hT hbl
  | itvRetrain => exact (execItvRetrain_within (hn := h) ..).bl_of_touches rfl hT hbl
  | itvEyeRead => exact (execItvEyeRead_within (hn := h) ..).bl_of_touches rfl hT hbl
  | itvEyeMeasure => exact (execItvEyeMeasure_within (hn := h) ..).bl_of_touches rfl hT hbl
  | sysEnumFresh => exact (execSysEnumFresh_within (hn := h) ..).bl_of_touches rfl hT hbl
  | sysEnumKeep => exact (execSysEnumKeep_within (hn := h) ..).bl_of_touches rfl hT hbl
  | sysNode => exact (execSysNode_within (hn := h) ..).bl_of_touches rfl hT hbl
  | housekeepingRound => exact (execHousekeepingRound_within (hn := h) ..).bl_of_touches rfl hT hbl
  | criticalShutdown => exact (execCriticalShutdown_within (hn := h) ..).bl_of_touches rfl hT hbl
  | thermTrip => exact (execThermTrip_within (hn := h) ..).bl_of_touches rfl hT hbl
  | calRun => exact (execCalRun_within (hn := h) ..).bl_of_touches rfl hT hbl
  | calRunGap => exact (execCalRunGap_within (hn := h) ..).bl_of_touches rfl hT hbl
  | calQuality => exact (execCalQuality_within (hn := h) ..).bl_of_touches rfl hT hbl
  | calAbort => exact (execCalAbort_within (hn := h) ..).bl_of_touches rfl hT hbl
  | calDone => exact (execCalDone_within (hn := h) ..).bl_of_touches rfl hT hbl
  | calNoGap => exact (execCalNoGap_within (hn := h) ..).bl_of_touches rfl hT hbl
  | thermStatus => exact (execThermStatus_within (hn := h) ..).bl_of_touches rfl hT hbl
  | watchdogExpiry => exact (execWatchdogExpiry_within (hn := h) ..).bl_of_touches rfl hT hbl
  | sramEccError => exact (execSramEccError_within (hn := h) ..).bl_of_touches rfl hT hbl
  | mgmtPowerLoss => exact (execMgmtPowerLoss_within (hn := h) ..).bl_of_touches rfl hT hbl
  | leadTakeover => exact (execLeadTakeover_within (hn := h) ..).bl_of_touches rfl hT hbl
  | kennelCheckpoint => exact (execKennelCheckpoint_within (hn := h) ..).bl_of_touches rfl hT hbl
  | kennelWriteDone => exact (execKennelWriteDone_within (hn := h) ..).bl_of_touches rfl hT hbl
  | leadRepair => exact (execLeadRepair_within (hn := h) ..).bl_of_touches rfl hT hbl
  | leadStandby => exact (execLeadStandby_within (hn := h) ..).bl_of_touches rfl hT hbl
  | leadMove => exact (execLeadMove_within (hn := h) ..).bl_of_touches rfl hT hbl
  | leadCtrlRepair => exact (execLeadCtrlRepair_within (hn := h) ..).bl_of_touches rfl hT hbl
  | leadCheckpoint => exact (execLeadCheckpoint_within (hn := h) ..).bl_of_touches rfl hT hbl
  | leadAck => exact (execLeadAck_within (hn := h) ..).bl_of_touches rfl hT hbl
  | eventRaise => exact (execEventRaise_within (hn := h) ..).bl_of_touches rfl hT hbl
  | eventNumber => exact (execEventNumber_within (hn := h) ..).bl_of_touches rfl hT hbl
  | eventProgram => exact (execEventProgram_within (hn := h) ..).bl_of_touches rfl hT hbl
  | bucketRefillFlush => exact (execBucketRefillFlush_within (hn := h) ..).bl_of_touches rfl hT hbl
  | evtBacklog => exact (execEvtBacklog_within (hn := h) ..).bl_of_touches rfl hT hbl
  | evtRead => exact (execEvtRead_within (hn := h) ..).bl_of_touches rfl hT hbl
  | evtLimitSet => exact (execEvtLimitSet_within (hn := h) ..).bl_of_touches rfl hT hbl
  | evtLimitGet => exact (execEvtLimitGet_within (hn := h) ..).bl_of_touches rfl hT hbl
  | porstRise => exact (execPorstRise_within (hn := h) ..).bl_of_touches rfl hT hbl
  | sysRstL => exact (execSysRstL_within (hn := h) ..).bl_of_touches rfl hT hbl
  | railFault => exact (execRailFault_within (hn := h) ..).bl_of_touches rfl hT hbl
  | railGood => exact (execRailGood_within (hn := h) ..).bl_of_touches rfl hT hbl
  | clkFault => exact (execClkFault_within (hn := h) ..).bl_of_touches rfl hT hbl
  | clockGood => exact (execClockGood_within (hn := h) ..).bl_of_touches rfl hT hbl
  | bootWatchdog => exact (execBootWatchdog_within (hn := h) ..).bl_of_touches rfl hT hbl
  | dieBootTimeout => exact (execDieBootTimeout_within (hn := h) ..).bl_of_touches rfl hT hbl
  | modeSetHosted => exact (execModeSetHosted_within (hn := h) ..).bl_of_touches rfl hT hbl
  | ghSpitTimer => exact (execGhSpitTimer_within (hn := h) ..).bl_of_touches rfl hT hbl
  | ghStatus => exact (execGhStatus_within (hn := h) ..).bl_of_touches rfl hT hbl
  | domainOn => exact (execDomainOn_within (hn := h) ..).bl_of_touches rfl hT hbl
  | domainOff => exact (execDomainOff_within (hn := h) ..).bl_of_touches rfl hT hbl
  | dieReset => exact (execDieReset_within (hn := h) ..).bl_of_touches rfl hT hbl
  | pkgReset => exact (execPkgReset_within (hn := h) ..).bl_of_touches rfl hT hbl
  | tripClear => exact (execTripClear_within (hn := h) ..).bl_of_touches rfl hT hbl
  | domainSwitchDone => exact (execDomainSwitchDone_within (hn := h) ..).bl_of_touches rfl hT hbl
  | unmappedRead => exact (execUnmappedRead_within (hn := h) ..).bl_of_touches rfl hT hbl
  | ethLinkChange => exact (execEthLinkChange_within (hn := h) ..).bl_of_touches rfl hT hbl
  | pcieLinkChange => exact (execPcieLinkChange_within (hn := h) ..).bl_of_touches rfl hT hbl
  | msixEnableWrite => exact (execMsixEnableWrite_within (hn := h) ..).bl_of_touches rfl hT hbl
  | camI2cEnd => exact (execCamI2cEnd_within (hn := h) ..).bl_of_touches rfl hT hbl
  | ptpMessageInterval => exact (execPtpMessageInterval_within (hn := h) ..).bl_of_touches rfl hT hbl
  | itvPmBlockReceive => exact (execItvPmBlockReceive_within (hn := h) ..).bl_of_touches rfl hT hbl
  | commandComplete | bootConfirm | modeSetGatehouse | porstLLow => exact nomatch hT

/-- Settles O49, by the level that a boot's start fixes and by the frame of each row. -/
theorem behaviourLevelChosenAtBoot : Obligations.BehaviourLevelChosenAtBoot := by
  unfold Obligations.BehaviourLevelChosenAtBoot
  exact ⟨fun _ _ _ hporst => execPorstRise_level hporst, fun _ _ hporst hrail hclk => execRailGood_level hporst hrail hclk,
    fun _ _ _ hporst hrail hclk => execClockGood_level hporst hrail hclk, fun _ _ _ _ hT hbl h => exec_keeps_bl hT hbl h⟩

end Sys2Proof.Machine
end

section
/-!
PROOFS. The lamp commands (R74, R341, R344, R361): the states that CHAIN_CTRL gives its chains, the cached entries that an
invalidate marks, and what CLEAR and DIAG leave for the next frame.
-/
-- One proof after the other: the text is checked as one, and proofs side by side pass the check's memory.
set_option Elab.async false
namespace Sys2Proof.Machine
variable {s : State} {h : Hdr} {k : Hw} {d c j chains chain first count : Nat}

/-! ### One chain after the other (R361) -/

theorem nodup_chainsOf (m : Nat) : (chainsOf m).Nodup := List.nodup_range.filter _

/-- A chain that enters a state leaves the state of every other chain. -/
theorem Hw.rd_chainTo_other (k : Hw) (d new : Nat) (hcj : c ≠ j) :
    (k.chainTo d j new).rd d A.chain_state c = k.rd d A.chain_state c := by
  unfold Hw.chainTo
  extract_lets old
  split
  next => rfl
  next => rw [Hw.rd_event _ _ _ _ _ _ (by decide), Hw.rd_wr_unit _ (by decide) hcj.symm]

@[simp] theorem Hw.rd_enumStart (k : Hw) (d c id : Nat) (enable : Bool) : (k.enumStart d c id enable).rd d A.chain_state c = chENUM :=
  k.rd_chainTo d c chENUM

theorem Hw.rd_enumStart_other (k : Hw) (d id : Nat) (enable : Bool) (hcj : c ≠ j) :
    (k.enumStart d j id enable).rd d A.chain_state c = k.rd d A.chain_state c := k.rd_chainTo_other d chENUM hcj

/-- Enumerations started on several chains leave each of them in ENUM. -/
theorem Hw.rd_enumStarts (k : Hw) (d id : Nat) (enable : Bool) (hc : c ∈ chainsOf chains) :
    ((chainsOf chains).foldl (fun k c => k.enumStart d c id enable) k).rd d A.chain_state c = chENUM :=
  foldl_settles (f := fun (k : Hw) c => k.enumStart d c id enable) (Pre := fun _ _ => True)
    (Post := fun c k => k.rd d A.chain_state c = chENUM) (fun c k _ => k.rd_enumStart d c id enable) (fun _ _ _ _ _ => trivial)
    (fun _ _ k hcj hk => (k.rd_enumStart_other d id enable hcj).trans hk) (nodup_chainsOf chains) (fun _ _ => trivial) c hc

@[simp] theorem Hw.rd_chainOff (k : Hw) (d c : Nat) : (k.chainOff d c).rd d A.chain_state c = chOFF := Hw.rd_chainTo ..

theorem Hw.rd_chainOff_other (k : Hw) (d : Nat) (hcj : c ≠ j) :
    (k.chainOff d j).rd d A.chain_state c = k.rd d A.chain_state c := by
  unfold Hw.chainOff
  extract_lets sent settled dark darkened
  rw [Hw.rd_chainTo_other _ _ _ hcj]
  change settled.rd d A.chain_state c = _
  unfold settled
  split
  · exact (Hw.enumSettle_only ..).read A.chain_state (by decide) d c
  · rfl

theorem Hw.rd_chainOffs (k : Hw) (d : Nat) (hc : c ∈ chainsOf chains) :
    ((chainsOf chains).foldl (fun k c => k.chainOff d c) k).rd d A.chain_state c = chOFF :=
  foldl_settles (f := fun (k : Hw) c => k.chainOff d c) (Pre := fun _ _ => True)
    (Post := fun c k => k.rd d A.chain_state c = chOFF) (fun c k _ => k.rd_chainOff d c) (fun _ _ _ _ _ => trivial)
    (fun _ _ k hcj hk => (k.rd_chainOff_other d hcj).trans hk) (nodup_chainsOf chains) (fun _ _ => trivial) c hc

/-! ### CHAIN_CTRL (R344, R361) -/

/-- A mask that names a chain and none beyond the four is in range. -/
theorem chainMask_inRange (h0 : chains ≠ 0) (h16 : chains < 16) : ¬(chains = 0 ∨ 16 ≤ chains) := by omega

theorem execChainEnable_enumerates (hA : s.Admits h 0x0902 (opObj 0x0902 (lowBit chains))) (h0 : chains ≠ 0) (h16 : chains < 16)
    (hoff : ∀ c ∈ chainsOf chains, s.hw.rd h.die A.chain_state c = chOFF) :
    ∃ t, execChainEnable h chains s = .next t ∧ s.SameMem t ∧ t.statusOf h = some .deferred ∧
      ∀ c ∈ chainsOf chains, t.hw.rd h.die A.chain_state c = chENUM := by
  have hall : ¬((chainsOf chains).any fun c => (s.atWork h).rd h.die A.chain_state c != chOFF) = true := by
    simpa using hoff
  obtain ⟨t, hn, E⟩ : ∃ t, execChainEnable h chains s = .next t ∧ s.Ends h _ t :=
    State.command_ends hA ((if_neg (chainMask_inRange h0 h16)).trans (if_neg hall))
  refine ⟨t, hn, (execChainEnable_within _ _ _ hn).sameMem, E.status, fun c hc => ?_⟩
  rw [E.hw.read A.chain_state (by decide)]
  exact Hw.rd_enumStarts _ _ _ _ hc

theorem execChainEnum_enumerates (hA : s.Admits h 0x0902 (opObj 0x0902 (lowBit chains))) (h0 : chains ≠ 0) (h16 : chains < 16)
    (hon : ∀ c ∈ chainsOf chains, s.hw.rd h.die A.chain_state c = chRUN ∨ s.hw.rd h.die A.chain_state c = chLOST) :
    ∃ t, execChainEnum h chains s = .next t ∧ s.SameMem t ∧ t.statusOf h = some .deferred ∧
      ∀ c ∈ chainsOf chains, t.hw.rd h.die A.chain_state c = chENUM := by
  have hall : ¬((chainsOf chains).any fun c => (s.atWork h).rd h.die A.chain_state c == chOFF ||
      (s.atWork h).rd h.die A.chain_state c == chENUM) = true := by
    rw [List.any_eq_true]
    rintro ⟨c, hc, hst⟩
    rcases hon c hc with hrun | hlost
    · simp [State.atWork, hrun] at hst
    · simp [State.atWork, hlost] at hst
  obtain ⟨t, hn, E⟩ : ∃ t, execChainEnum h chains s = .next t ∧ s.Ends h _ t :=
    State.command_ends hA ((if_neg (chainMask_inRange h0 h16)).trans (if_neg hall))
  refine ⟨t, hn, (execChainEnum_within _ _ _ hn).sameMem, E.status, fun c hc => ?_⟩
  rw [E.hw.read A.chain_state (by decide)]
  exact Hw.rd_enumStarts _ _ _ _ hc

theorem execChainDisable_switchesOff (hA : s.Admits h 0x0902 (opObj 0x0902 (lowBit chains))) (h0 : chains ≠ 0) (h16 : chains < 16)
    (hon : ∀ c ∈ chainsOf chains, s.hw.rd h.die A.chain_state c ≠ chOFF) :
    ∃ t, execChainDisable h chains s = .next t ∧ s.SameMem t ∧ t.replyOf h = some .ok ∧
      ∀ c ∈ chainsOf chains, t.hw.rd h.die A.chain_state c = chOFF := by
  have hall : ¬((chainsOf chains).any fun c => (s.atWork h).rd h.die A.chain_state c == chOFF) = true := by
    simpa using hon
  obtain ⟨t, hn, E⟩ : ∃ t, execChainDisable h chains s = .next t ∧ s.Ends h _ t :=
    State.command_ends hA ((if_neg (chainMask_inRange h0 h16)).trans (if_neg hall))
  refine ⟨t, hn, (execChainDisable_within _ _ _ hn).sameMem, E.reply, fun c hc => ?_⟩
  rw [E.hw.read A.chain_state (by decide)]
  exact Hw.rd_chainOffs _ _ hc

/-! ### LAMP_INVALIDATE (R74) -/

/-- A cached entry marked to be read again at the next refresh of its chain. -/
def Hw.markReread (k : Hw) (d e : Nat) : Hw := k.onChain d (e / 2048) fun C => { C with reread := e :: C.reread.erase e }

theorem Hw.markReread_only (k : Hw) (d e : Nat) : Hw.Only [] [.chains] [] k (k.markReread d e) := Hw.onChain_only ..

theorem Hw.chains_length_markReread (k : Hw) (d e i : Nat) : ((k.markReread d e).die i).chains.length = (k.die i).chains.length :=
  k.die_onDie_field d _ (·.chains.length) (by simp) i

theorem Hw.HasChain.markReread (H : k.HasChain d c) (e : Nat) : (k.markReread d e).HasChain d c := by
  rwa [Hw.HasChain, (k.markReread_only d e).len, Hw.chains_length_markReread]

theorem Hw.mem_reread_markReread (e : Nat) (H : k.HasChain d (e / 2048)) :
    e ∈ ((k.markReread d e).chain d (e / 2048)).reread := by
  rw [Hw.markReread, H.chain_onChain]
  exact List.mem_cons_self

/-- An entry marked stays marked, whichever entry is marked next. -/
theorem Hw.mem_reread_of_marked {e i : Nat} (H : k.HasChain d (i / 2048)) (he : e ∈ (k.chain d (e / 2048)).reread) :
    e ∈ ((k.markReread d i).chain d (e / 2048)).reread := by
  by_cases hei : e = i
  · subst hei
    exact k.mem_reread_markReread e H
  · have hsame : (e ∈ ((k.markReread d i).chain d (e / 2048)).reread) = (e ∈ (k.chain d (e / 2048)).reread) :=
      k.chain_onChain_field d _ _ (fun C => e ∈ C.reread) (fun C => by simp [hei, List.mem_erase_of_ne hei]) d _
    exact hsame ▸ he

/-- Every entry of a list of them is marked, and so is every entry that was. -/
theorem Hw.mem_reread_markRereads {es : List Nat} (H : ∀ i ∈ es, k.HasChain d (i / 2048)) {e : Nat}
    (he : e ∈ es ∨ e ∈ (k.chain d (e / 2048)).reread) :
    e ∈ ((es.foldl (fun k i => k.markReread d i) k).chain d (e / 2048)).reread := by
  induction es generalizing k with
  | nil => exact he.resolve_left List.not_mem_nil
  | cons i es ih =>
    have Hi : k.HasChain d (i / 2048) := H i List.mem_cons_self
    refine ih (fun j hj => (H j (List.mem_cons_of_mem _ hj)).markReread i) ?_
    rcases he with hes | hmarked
    · rcases List.mem_cons.1 hes with rfl | htail
      · exact .inr (k.mem_reread_markReread e Hi)
      · exact .inl htail
    · exact .inr (Hw.mem_reread_of_marked Hi hmarked)

/-- The cached entries of a range. -/
def Hw.lampsIn (k : Hw) (d first count : Nat) : List Nat :=
  ((k.die d).lamps.map (·.1)).filter fun e => decide (first ≤ e) && decide (e < first + count)

theorem Hw.mem_lampsIn {e : Nat} :
    e ∈ k.lampsIn d first count ↔ e ∈ (k.die d).lamps.map (·.1) ∧ first ≤ e ∧ e < first + count := by
  rw [Hw.lampsIn, List.mem_filter, Bool.and_eq_true, decide_eq_true_eq, decide_eq_true_eq]

theorem execLampInvalidate_marks (hA : s.Admits h 0x0901 (opObj 0x0901 first)) (hfirst : first < 8192) (h1 : 1 ≤ count)
    (hlast : first + count ≤ 8192) (hchains : (s.hw.die h.die).chains.length = 4) :
    ∃ t, execLampInvalidate h first count s = .next t ∧ s.SameMem t ∧ t.replyOf h = some .ok ∧
      ∀ e ∈ (s.hw.die h.die).lamps.map (·.1), first ≤ e → e < first + count → e ∈ (t.hw.chain h.die (e / 2048)).reread := by
  obtain ⟨t, hn, E⟩ : ∃ t, execLampInvalidate h first count s = .next t ∧ s.Ends h (okWith
      (((s.atWork h).lampsIn h.die first count).foldl (fun k i => k.markReread h.die i) (s.atWork h))) t :=
    State.command_ends hA (if_neg (by omega))
  refine ⟨t, hn, (execLampInvalidate_within _ _ _ _ hn).sameMem, E.reply, fun e he hlo hhi => ?_⟩
  have Hpkg : ∀ c < 4, s.hw.HasChain h.die c := fun c hc => ⟨hA.1, hchains.symm ▸ hc⟩
  have Hwork : ∀ c < 4, (s.atWork h).HasChain h.die c := fun c hc => (s.atWork_only h).hasChain (by decide) (Hpkg c hc)
  have hlamps : ((s.atWork h).die h.die).lamps = (s.hw.die h.die).lamps := (s.atWork_only h).die h.die .lamps (by decide)
  rw [E.hw.chain (by decide)]
  refine Hw.mem_reread_markRereads (fun i hi => Hwork _ ?_) (.inl (Hw.mem_lampsIn.2 ⟨hlamps ▸ he, hlo, hhi⟩))
  obtain ⟨-, -, hlt⟩ := Hw.mem_lampsIn.1 hi
  omega

/-! ### LAMP_CTRL (R341) -/

/-- LAMP_CTRL takes drivers of a chain in RUN or LOST. -/
theorem Hw.lampRange_of_running (hc : chain < 4) (hst : k.rd d A.chain_state chain = chRUN ∨ k.rd d A.chain_state chain = chLOST)
    (h1 : 1 ≤ count) (hlast : first + count ≤ k.rd d A.chain_drivers chain) : k.lampRange d chain first count = none :=
  (if_neg (Nat.not_le.2 hc)).trans ((if_neg (not_not.2 hst)).trans (if_neg (by omega)))

theorem State.atWork_hasChain (hA : s.Admits h 0x0903 (opObj 0x0903 chain)) (hhas : chain < (s.hw.die h.die).chains.length) :
    (s.atWork h).HasChain h.die chain := (s.atWork_only h).hasChain (by decide) ⟨hA.1, hhas⟩

theorem State.atWork_chain (s : State) (h : Hdr) (d c : Nat) : (s.atWork h).chain d c = s.hw.chain d c :=
  (s.atWork_only h).chain (by decide) d c

theorem execLampCtrlClear_waits (hA : s.Admits h 0x0903 (opObj 0x0903 chain)) (hc : chain < 4)
    (hst : s.hw.rd h.die A.chain_state chain = chRUN ∨ s.hw.rd h.die A.chain_state chain = chLOST) (h1 : 1 ≤ count)
    (hlast : first + count ≤ s.hw.rd h.die A.chain_drivers chain) (hhas : chain < (s.hw.die h.die).chains.length) :
    ∃ t, execLampCtrlClear h chain first count s = .next t ∧ s.SameMem t ∧ t.replyOf h = some .ok ∧
      (t.hw.chain h.die chain).clears = (List.range count).map (first + ·) ++ (s.hw.chain h.die chain).clears := by
  have hrange : (s.atWork h).lampRange h.die chain first count = none := Hw.lampRange_of_running hc hst h1 hlast
  obtain ⟨t, hn, E⟩ : ∃ t, execLampCtrlClear h chain first count s = .next t ∧ s.Ends h (okWith ((s.atWork h).onChain h.die chain
      fun C => { C with clears := (List.range count).map (first + ·) ++ C.clears })) t :=
    State.command_ends hA (by
      rw [show s.hw.execDie h 0x0903 (opObj 0x0903 chain) = h.die from rfl, hrange])
  refine ⟨t, hn, (execLampCtrlClear_within _ _ _ _ _ hn).sameMem, E.reply, ?_⟩
  rw [E.hw.chain (by decide), okWith, (State.atWork_hasChain hA hhas).chain_onChain, State.atWork_chain]

theorem execLampCtrlDiag_waits {mask : Nat} (hA : s.Admits h 0x0903 (opObj 0x0903 chain)) (hc : chain < 4)
    (hst : s.hw.rd h.die A.chain_state chain = chRUN ∨ s.hw.rd h.die A.chain_state chain = chLOST) (h1 : 1 ≤ count)
    (hlast : first + count ≤ s.hw.rd h.die A.chain_drivers chain) (hhas : chain < (s.hw.die h.die).chains.length) :
    ∃ t, execLampCtrlDiag h chain mask first count s = .next t ∧ s.SameMem t ∧ t.replyOf h = some .ok ∧
      ∀ i ch, i < count → ch < 4 → mask.testBit ch = true → (first + i, ch) ∈ (t.hw.chain h.die chain).forced := by
  have hrange : (s.atWork h).lampRange h.die chain first count = none := Hw.lampRange_of_running hc hst h1 hlast
  obtain ⟨t, hn, E⟩ : ∃ t, execLampCtrlDiag h chain mask first count s = .next t ∧ s.Ends h (okWith ((s.atWork h).onChain h.die chain
      fun C => { C with forced := ((List.range count).flatMap fun i =>
        ((List.range 4).filter fun ch => mask.testBit ch).map fun ch => (first + i, ch)) ++ C.forced })) t :=
    State.command_ends hA (by
      rw [show s.hw.execDie h 0x0903 (opObj 0x0903 chain) = h.die from rfl, hrange])
  refine ⟨t, hn, (execLampCtrlDiag_within _ _ _ _ _ _ hn).sameMem, E.reply, fun i ch hi hch hbit => ?_⟩
  rw [E.hw.chain (by decide), okWith, (State.atWork_hasChain hA hhas).chain_onChain]
  exact List.mem_append_left _ (List.mem_flatMap.2
    ⟨i, List.mem_range.2 hi, List.mem_map.2 ⟨ch, List.mem_filter.2 ⟨List.mem_range.2 hch, hbit⟩, rfl⟩⟩)

/-- Settles O30, by what each command leaves in its chains. -/
theorem lampCommandsComplete : Obligations.LampCommandsComplete := by
  unfold Obligations.LampCommandsComplete
  exact ⟨fun _ _ _ hA h0 h16 hoff => execChainEnable_enumerates hA h0 h16 hoff,
    fun _ _ _ hA h0 h16 hon => execChainEnum_enumerates hA h0 h16 hon,
    fun _ _ _ hA h0 h16 hon => execChainDisable_switchesOff hA h0 h16 hon,
    fun _ _ _ _ hA hfirst h1 hlast hchains => execLampInvalidate_marks hA hfirst h1 hlast hchains,
    fun _ _ _ _ _ hA hc hst h1 hlast hhas => execLampCtrlClear_waits hA hc hst h1 hlast hhas,
    fun _ _ _ _ _ _ hA hc hst h1 hlast hhas => execLampCtrlDiag_waits hA hc hst h1 hlast hhas⟩

end Sys2Proof.Machine
end

section
/-!
PROOFS. The rows of the hardware queues (R73, R88 to R91, R98 to R105, R108): the host's pointer writes, a held word that enters, the
write-back, and the queue commands over a range of queues.
-/
-- One proof after the other: the text is checked as one, and proofs side by side pass the check's memory.
set_option Elab.async false
namespace Sys2Proof.Machine
variable {s : State} {h : Hdr} {k : Hw} {d die i j q ep value first count : Nat}

/-! ### The record of a queue -/

/-- An update of one queue leaves every other. -/
theorem Hw.q_onQ_ne (k : Hw) (d e : Nat) (f : Queue → Queue) (hij : i ≠ j) : (k.onQ d j f).q e i = k.q e i :=
  k.die_onDie_field d _ (fun D => D.queues.getD i {}) (fun D => by simp [List.getD_eq_getElem?_getD, hij.symm]) e

@[simp] theorem Hw.queues_length_onQ (k : Hw) (d j e : Nat) (f : Queue → Queue) :
    ((k.onQ d j f).die e).queues.length = (k.die e).queues.length :=
  k.die_onDie_field d _ (·.queues.length) (by simp) e

@[simp] theorem Hw.queues_length_qWatermark (k : Hw) (d j e : Nat) :
    ((k.qWatermark d j).die e).queues.length = (k.die e).queues.length := by
  have hmsix (k : Hw) (ep vec : Nat) : ((k.msix ep vec).die e).queues = (k.die e).queues :=
    (k.msix_only ep vec).die e .queues (by decide)
  unfold Hw.qWatermark
  dsimp only
  split
  · rfl
  · split
    · exact k.queues_length_onQ ..
    · split
      · rfl
      · split
        · rw [hmsix, Hw.queues_length_onQ]
        · exact k.queues_length_onQ ..

/-- A mailbox command finds the queues as they were. -/
theorem State.atWork_q (s : State) (h : Hdr) (d i : Nat) : (s.atWork h).q d i = s.hw.q d i := (s.atWork_only h).q (by decide) d i

theorem State.atWork_queues (s : State) (h : Hdr) (d : Nat) : ((s.atWork h).die d).queues = (s.hw.die d).queues :=
  (s.atWork_only h).die d .queues (by decide)

/-! ### The host's pointer writes (R105) -/

/-- What the host wrote pushed and committed (R105), before the watermark. -/
def Hw.qHostPush (k : Hw) (d i v : Nat) : Hw :=
  let adv := (v + (k.q d i).ptrMod - (k.q d i).wr) % (k.q d i).ptrMod
  let k := k.onQ d i fun q =>
    let q := { q with wr := v, cmt := v, pushes := (q.pushes + adv) % 2 ^ 32 }
    { q with maxDepth := max q.maxDepth q.occupied }
  let k := k.add d A.q_pushes i adv
  if k.rd d A.q_max_depth i < (k.q d i).occupied then k.wr d A.q_max_depth i (k.q d i).occupied else k

theorem Hw.pointers_qHostPush (k : Hw) (v : Nat) (hd : d < k.dies.length) (hi : i < (k.die d).queues.length) :
    ((k.qHostPush d i v).q d i).wr = v ∧ ((k.qHostPush d i v).q d i).cmt = v ∧
      ((k.qHostPush d i v).q d i).rd = (k.q d i).rd := by
  unfold Hw.qHostPush
  extract_lets adv pushed counted
  have hcounted : (if counted.rd d A.q_max_depth i < (counted.q d i).occupied then
      counted.wr d A.q_max_depth i (counted.q d i).occupied else counted).q d i = pushed.q d i := by
    split
    · rfl
    · rfl
  rw [hcounted, k.q_onQ_self _ hd hi]
  exact ⟨rfl, rfl, rfl⟩

/-- A write of `qp_wr` that passes the checks of R105 pushes and commits what the host wrote. -/
theorem qpWrWrite_accepted (ms : List (List Host.Cell)) (he : (k.q die q).enabled = true) (hp : (k.q die q).producer = 1)
    (hv : value < (k.q die q).ptrMod)
    (hroom : (value + (k.q die q).ptrMod - (k.q die q).wr) % (k.q die q).ptrMod ≤ (k.q die q).size - (k.q die q).occupied)
    (hchain : (k.q die q).packet = true → k.qChainOk ms die (k.q die q) (k.q die q).cmt value (k.q die q).size = true) :
    qpWrWrite die ep q value ms k = (k.qHostPush die q value).qWatermark die q := by
  unfold qpWrWrite
  extract_lets Q src adv
  rw [if_neg (by simp [Q, he]), if_neg (by simp [Q, hp, hv]), if_neg (Nat.not_lt.2 hroom),
    if_neg (fun hno => by simp [Q, hchain hno.1] at hno)]
  rfl

theorem execQpWrWrite_moves (hd : die < s.hw.dies.length) (hq : q < 64) (hi : q < (s.hw.die die).queues.length)
    (he : (s.hw.q die q).enabled = true) (hp : (s.hw.q die q).producer = 1) (hv : value < (s.hw.q die q).ptrMod)
    (hroom : (value + (s.hw.q die q).ptrMod - (s.hw.q die q).wr) % (s.hw.q die q).ptrMod ≤
      (s.hw.q die q).size - (s.hw.q die q).occupied)
    (hchain : (s.hw.q die q).packet = true →
      s.begun.qChainOk s.mems die (s.hw.q die q) (s.hw.q die q).cmt value (s.hw.q die q).size = true) :
    ∃ t, execQpWrWrite die ep q value s = .next t ∧ s.SameMem t ∧ (t.hw.q die q).wr = value ∧ (t.hw.q die q).cmt = value ∧
      (t.hw.q die q).rd = (s.hw.q die q).rd := by
  have hn : execQpWrWrite die ep q value s = .next (s.run fun _ _ => (s.begun.qHostPush die q value).qWatermark die q) :=
    State.onUnit_works hd hq (qpWrWrite_accepted (k := s.begun) s.mems he hp hv hroom hchain)
  have hfield {β : Type} (g : Queue → β) (hg : ∀ q m, g { q with marked := m } = g q) :=
    (s.begun.qHostPush die q value).q_qWatermark_field die q g hg die q
  obtain ⟨hwr, hcmt, hrd⟩ := s.begun.pointers_qHostPush value hd hi
  exact ⟨_, hn, (execQpWrWrite_within _ _ _ _ _ hn).sameMem, (hfield (·.wr) fun _ _ => rfl).trans hwr,
    (hfield (·.cmt) fun _ _ => rfl).trans hcmt, (hfield (·.rd) fun _ _ => rfl).trans hrd⟩

/-- What the host read popped (R105), before the watermark. -/
def Hw.qHostPop (k : Hw) (ms : List (List Host.Cell)) (d i v : Nat) : Hw :=
  let adv := (v + (k.q d i).ptrMod - (k.q d i).rd) % (k.q d i).ptrMod
  let lastWord := if adv = 0 then (k.q d i).last else k.num ms d ((k.q d i).addr (v + (k.q d i).ptrMod - 1)) 8
  (k.onQ d i fun q => { q with rd := v, last := lastWord, pops := (q.pops + adv) % 2 ^ 32 }).add d A.q_pops i adv

theorem Hw.pointers_qHostPop (k : Hw) (ms : List (List Host.Cell)) (v : Nat) (hd : d < k.dies.length)
    (hi : i < (k.die d).queues.length) : ((k.qHostPop ms d i v).q d i).rd = v ∧
      ((k.qHostPop ms d i v).q d i).wr = (k.q d i).wr ∧ ((k.qHostPop ms d i v).q d i).cmt = (k.q d i).cmt := by
  unfold Hw.qHostPop
  extract_lets adv lastWord
  rw [Hw.q_add, k.q_onQ_self _ hd hi]
  exact ⟨rfl, rfl, rfl⟩

/-- A write of `qp_rd` that passes the checks of R105 pops what the host read. -/
theorem qpRdWrite_accepted (ms : List (List Host.Cell)) (he : (k.q die q).enabled = true) (hc : (k.q die q).consumer = 1)
    (hv : value < (k.q die q).ptrMod)
    (hdepth : (value + (k.q die q).ptrMod - (k.q die q).rd) % (k.q die q).ptrMod ≤ (k.q die q).depth) :
    qpRdWrite die ep q value ms k = (k.qHostPop ms die q value).qWatermark die q := by
  unfold qpRdWrite
  extract_lets Q src adv
  rw [if_neg (by simp [Q, he]), if_neg (by simp [Q, hc, hv]), if_neg (Nat.not_lt.2 hdepth)]
  rfl

theorem execQpRdWrite_moves (hd : die < s.hw.dies.length) (hq : q < 64) (hi : q < (s.hw.die die).queues.length)
    (he : (s.hw.q die q).enabled = true) (hc : (s.hw.q die q).consumer = 1) (hv : value < (s.hw.q die q).ptrMod)
    (hdepth : (value + (s.hw.q die q).ptrMod - (s.hw.q die q).rd) % (s.hw.q die q).ptrMod ≤ (s.hw.q die q).depth) :
    ∃ t, execQpRdWrite die ep q value s = .next t ∧ s.SameMem t ∧ (t.hw.q die q).rd = value ∧
      (t.hw.q die q).wr = (s.hw.q die q).wr ∧ (t.hw.q die q).cmt = (s.hw.q die q).cmt := by
  have hn : execQpRdWrite die ep q value s = .next (s.run fun _ _ => (s.begun.qHostPop s.mems die q value).qWatermark die q) :=
    State.onUnit_works hd hq (qpRdWrite_accepted (k := s.begun) s.mems he hc hv hdepth)
  have hfield {β : Type} (g : Queue → β) (hg : ∀ q m, g { q with marked := m } = g q) :=
    (s.begun.qHostPop s.mems die q value).q_qWatermark_field die q g hg die q
  obtain ⟨hrd, hwr, hcmt⟩ := s.begun.pointers_qHostPop s.mems value hd hi
  exact ⟨_, hn, (execQpRdWrite_within _ _ _ _ _ hn).sameMem, (hfield (·.rd) fun _ _ => rfl).trans hrd,
    (hfield (·.wr) fun _ _ => rfl).trans hwr, (hfield (·.cmt) fun _ _ => rfl).trans hcmt⟩

/-! ### A held word (R91) -/

@[simp] theorem Hw.held_qRewind (k : Hw) (d i e j : Nat) : ((k.qRewind d i).q e j).held = (k.q e j).held :=
  k.q_onQ_field d i _ (·.held) (fun _ => by rfl) e j

@[simp] theorem Hw.held_qCommit (k : Hw) (d i agent e j : Nat) : ((k.qCommit d i agent).2.q e j).held = (k.q e j).held := by
  unfold Hw.qCommit
  dsimp only
  split
  · exact (Hw.q_qSticky_field _ _ _ _ _ _ (·.held) (fun _ _ => rfl) e j).trans (k.held_qRewind d i e j)
  · exact (Hw.q_qWatermark_field _ _ _ (·.held) (fun _ _ => rfl) e j).trans (k.q_onQ_field d i _ (·.held) (fun _ => by rfl) e j)

@[simp] theorem Hw.held_qWrite (k : Hw) (d i agent word e j : Nat) : ((k.qWrite d i agent word).q e j).held = (k.q e j).held := by
  have hword (f : Queue → Queue) (hf : ∀ q, (f q).held = q.held) :
      (((k.store d ((k.q d i).addr (k.q d i).wr) (leBytes 8 word)).onQ d i f).q e j).held = (k.q e j).held :=
    Hw.q_onQ_field _ d i f (·.held) hf e j
  unfold Hw.qWrite
  dsimp only
  split
  · exact hword _ fun _ => rfl
  · exact hword _ fun _ => rfl

/-- A push that is carried out holds no word. -/
theorem Hw.held_qPushNow_of_room (k : Hw) (agent word : Nat) (last : Bool)
    (hover : ¬((k.q d i).packet = true ∧ (k.q d i).uncommitted = (k.q d i).size)) (hfull : ¬(k.q d i).full = true) (e j : Nat) :
    ((k.qPushNow d i agent word last).2.q e j).held = (k.q e j).held := by
  unfold Hw.qPushNow
  dsimp only
  rw [if_neg hover, if_neg hfull]
  split
  · rw [Hw.held_qCommit, Hw.held_qWrite]
  · exact k.held_qWrite ..

/-- The one held word that neither waits nor is discarded is pushed. -/
theorem Hw.qRetry_one {w : HeldWord} (hheld : (k.q d i).held = [w]) (he : (k.q d i).enabled = true)
    (hwait : ({ k.q d i with held := [] } : Queue).mustWait i w.agent = false)
    (hkept : (k.q d i).discard.contains w.agent = false) :
    k.qRetry d i 1 = ((k.onQ d i fun q => { q with held := [] }).qPushNow d i w.agent w.word w.last).2 := by
  unfold Hw.qRetry
  simp only [hheld]
  have hgo : ¬((!(k.q d i).enabled || ({ k.q d i with held := [] } : Queue).mustWait i w.agent) = true) := by
    rw [he, hwait]
    decide
  exact (if_neg hgo).trans (if_neg (ne_true_of_eq_false hkept))

theorem execStallPushRetry_enters {w : HeldWord} (hd : die < s.hw.dies.length) (hq : q < 64)
    (hi : q < (s.hw.die die).queues.length) (he : (s.hw.q die q).enabled = true) (hheld : (s.hw.q die q).held = [w])
    (hkept : (s.hw.q die q).discard.contains w.agent = false)
    (hwait : ({ s.hw.q die q with held := [] } : Queue).mustWait q w.agent = false) (hfull : (s.hw.q die q).full = false)
    (hover : (s.hw.q die q).packet = true → (s.hw.q die q).uncommitted ≠ (s.hw.q die q).size) :
    ∃ t, execStallPushRetry die q s = .next t ∧ (t.hw.q die q).held = [] ∧ t.mems =
      applyStores s.mems [(die, (s.hw.q die q).addr (s.hw.q die q).wr, leBytes 8 w.word)] := by
  let k := s.begun.onQ die q fun q => { q with held := [] }
  have hk : k.q die q = { s.hw.q die q with held := [] } := s.begun.q_onQ_self _ hd hi
  have hover' : ¬((k.q die q).packet = true ∧ (k.q die q).uncommitted = (k.q die q).size) := by
    rw [hk]
    exact fun hno => hover hno.1 hno.2
  have hfull' : ¬(k.q die q).full = true := by
    rw [hk]
    exact ne_true_of_eq_false hfull
  have hn : execStallPushRetry die q s = .next (s.run fun _ _ => (k.qPushNow die q w.agent w.word w.last).2) := by
    refine State.onUnit_works hd hq ?_
    rw [show (s.begun.q die q).held = [w] from hheld]
    exact Hw.qRetry_one (k := s.begun) hheld he hwait hkept
  refine ⟨_, hn, ?held, ?mems⟩
  case held =>
    have hempty : (k.q die q).held = [] := by rw [hk]
    exact (k.held_qPushNow_of_room _ _ _ hover' hfull' die q).trans hempty
  case mems =>
    have hstores := k.qPushNow_stores_of_room w.agent w.word w.last hover' hfull'
    have hwipes : (k.qPushNow die q w.agent w.word w.last).2.wipes = [] := (k.qPushNow_only ..).hw .wipes (by decide)
    rw [State.run_mems, hstores, hwipes, Hw.pushStore, hk]
    rfl

/-! ### The write-back (R100) -/

theorem execQueueWriteback_stores (hd : die < s.hw.dies.length) (hq : q < 64) :
    ∃ t, execQueueWriteback die q s = .next t ∧ t.mems = if (s.hw.q die q).enabled then
      applyStores s.mems [(die, 64 * q + 32, wordBytes ([(s.hw.q die q).cmt * 2 ^ 16 + (s.hw.q die q).wr,
        (s.hw.q die q).maxDepth * 2 ^ 16 + (s.hw.q die q).rd, (s.hw.q die q).pushes, (s.hw.q die q).pops,
        (s.hw.q die q).overflows * 2 ^ 16 + (s.hw.q die q).underruns, (s.hw.q die q).oversize * 2 ^ 16 + (s.hw.q die q).rewinds] ++
        words64 (s.hw.tb die 1)))]
      else s.mems := by
  by_cases he : (s.hw.q die q).enabled = true
  · exact ⟨_, State.onUnit_works hd hq (if_pos he), by rw [if_pos he]; rfl⟩
  · exact ⟨_, State.onUnit_works hd hq (if_neg he), by rw [if_neg he]; rfl⟩

/-! ### Commands over a range of queues (R108) -/

/-- The queues of a range, in their order. -/
def queuesFrom (first count : Nat) : List Nat := (List.range count).map (first + ·)

theorem mem_queuesFrom : i ∈ queuesFrom first count ↔ first ≤ i ∧ i < first + count := by
  rw [queuesFrom, List.mem_map]
  constructor
  · rintro ⟨n, hn, rfl⟩
    have hlt := List.mem_range.1 hn
    omega
  · rintro ⟨hlo, hhi⟩
    exact ⟨i - first, List.mem_range.2 (by omega), by omega⟩

theorem nodup_queuesFrom (first count : Nat) : (queuesFrom first count).Nodup :=
  List.nodup_range.map fun _ _ h => Nat.add_left_cancel h

/-- A range in bounds is not refused. -/
theorem queueRange_passes (hr : queueRange first count = true) : ¬(!queueRange first count) = true := by simp [hr]

/-- Work on the queues of a range that refuses none of them is done on each in turn. -/
theorem queueState_passes {bad : Nat → Bool} (act : Hw → Nat → Hw)
    (hok : ∀ i, first ≤ i → i < first + count → bad i = false) :
    queueState (queuesFrom first count) bad act k = (queueReply .ok 0xFFFF, (queuesFrom first count).foldl act k) := by
  have hnone : (queuesFrom first count).find? bad = none := List.find?_eq_none.2 fun i hi =>
    have hr := mem_queuesFrom.1 hi
    ne_true_of_eq_false (hok i hr.1 hr.2)
  rw [queueState, hnone]

/-! ### QUEUE_INVALIDATE (R73) -/

/-- A queue whose cached entry is dropped; a queue without a record has none. -/
theorem Hw.cached_onQ (k : Hw) (hd : d < k.dies.length) (i : Nat) :
    ((k.onQ d i fun q => { q with cached := false }).q d i).cached = false := by
  rw [Hw.q, Hw.onQ, k.die_onDie_self _ hd]
  simp only [List.getD_eq_getElem?_getD, List.getElem?_modify, if_true]
  cases (k.die d).queues[i]? with
  | none => rfl
  | some q => rfl

theorem execQueueInvalidate_drops (hA : s.Admits h 0x0101 (opObj 0x0101 first)) (hr : queueRange first count = true)
    (hok : ∀ i, first ≤ i → i < first + count → i ≠ 63 ∧ (s.hw.q h.die i).enabled = false) :
    ∃ t, execQueueInvalidate h first count s = .next t ∧ s.SameMem t ∧ t.replyOf h = some .ok ∧
      ∀ i, first ≤ i → i < first + count → (t.hw.q h.die i).cached = false := by
  have hnone : ¬((queuesFrom first count).any fun i => i == 63 || ((s.atWork h).q h.die i).enabled) = true := by
    rw [List.any_eq_true]
    rintro ⟨i, hi, hbad⟩
    obtain ⟨hlo, hhi⟩ := mem_queuesFrom.1 hi
    obtain ⟨h63, hoff⟩ := hok i hlo hhi
    simp [State.atWork_q, h63, hoff] at hbad
  obtain ⟨t, hn, E⟩ : ∃ t, execQueueInvalidate h first count s = .next t ∧ s.Ends h (okWith ((queuesFrom first count).foldl
      (fun (k : Hw) i => k.onQ h.die i fun q => { q with cached := false }) (s.atWork h))) t :=
    State.command_ends hA ((if_neg (queueRange_passes hr)).trans (if_neg hnone))
  refine ⟨t, hn, (execQueueInvalidate_within _ _ _ _ hn).sameMem, E.reply, fun i hlo hhi => ?_⟩
  rw [E.hw.q (by decide)]
  refine foldl_settles (f := fun (k : Hw) i => k.onQ h.die i fun q => { q with cached := false })
    (Pre := fun _ k => h.die < k.dies.length) (Post := fun i k => (k.q h.die i).cached = false) (fun i k hd => k.cached_onQ hd i)
    (fun _ j k _ hd => (k.onQ_only h.die j _).len.symm ▸ hd) (fun i j k hij hk => by rwa [Hw.q_onQ_ne _ _ _ _ hij])
    (nodup_queuesFrom ..) (fun _ _ => ?start) i (mem_queuesFrom.2 ⟨hlo, hhi⟩)
  case start => exact (s.atWork_only h).len.symm ▸ hA.1

/-! ### QUEUE_CTRL (R98, R102, R108) -/

theorem execQueueEnable_enables {bad : List Nat} (hA : s.Admits h 0x0102 (opObj 0x0102 first)) (hr : queueRange first count = true)
    (hok : (s.atWork h).enableFail s.mems h.die bad [] ((List.range count).map (first + ·)) = none) :
    ∃ t, execQueueEnable h first count bad s = .next t ∧ s.SameMem t ∧ t.replyOf h = some (queueReply .ok 0xFFFF) ∧
      ∀ i, first ≤ i → i < first + count → t.hw.rd h.die A.q_enabled i = 1 := by
  obtain ⟨t, hn, E⟩ : ∃ t, execQueueEnable h first count bad s = .next t ∧ s.Ends h (queueReply .ok 0xFFFF,
      (queuesFrom first count).foldl (fun (k : Hw) i => k.enableOne s.mems h.die i) (s.atWork h)) t := by
    refine State.command_ends hA ((if_neg (queueRange_passes hr)).trans ?_)
    rw [Hw.execDie_queueCtrl, hok]
    rfl
  refine ⟨t, hn, (execQueueEnable_within _ _ _ _ _ hn).sameMem, E.reply, fun i hlo hhi => ?_⟩
  rw [E.hw.read A.q_enabled (by decide)]
  exact foldl_settles (f := fun (k : Hw) i => k.enableOne s.mems h.die i) (Pre := fun _ _ => True)
    (Post := fun i k => k.rd h.die A.q_enabled i = 1) (fun _ _ _ => Hw.rd_wr_self ..) (fun _ _ _ _ _ => trivial)
    (fun _ _ _ hij hk => (Hw.rd_wr_unit _ (by decide) hij.symm ..).trans hk) (nodup_queuesFrom ..) (fun _ _ => trivial) i
    (mem_queuesFrom.2 ⟨hlo, hhi⟩)

theorem Hw.rd_disableOne_other (k : Hw) (d : Nat) (hij : i ≠ j) :
    (k.disableOne d j).rd d A.q_enabled i = k.rd d A.q_enabled i := by
  unfold Hw.disableOne
  extract_lets rewound dropped stored
  rw [Hw.rd_wr_unit _ (by decide) hij.symm]
  change rewound.rd d A.q_enabled i = _
  unfold rewound
  split
  · exact (Hw.qRewind_only ..).read A.q_enabled (by decide) d i
  · rfl

/-- Whether a queue's agent is active is no matter of the mailbox. -/
theorem State.atWork_agentActive (s : State) (h : Hdr) (d i : Nat) : (s.atWork h).agentActive d i = s.hw.agentActive d i := by
  simp [Hw.agentActive, State.atWork, Hw.streamRuns, Hw.n]

theorem execQueueDisable_disables (hA : s.Admits h 0x0102 (opObj 0x0102 first)) (hr : queueRange first count = true)
    (hok : ∀ i, first ≤ i → i < first + count → (s.hw.q h.die i).enabled = true ∧ s.hw.agentActive h.die i = false) :
    ∃ t, execQueueDisable h first count s = .next t ∧ t.replyOf h = some (queueReply .ok 0xFFFF) ∧
      ∀ i, first ≤ i → i < first + count → t.hw.rd h.die A.q_enabled i = 0 := by
  obtain ⟨t, hn, E⟩ : ∃ t, execQueueDisable h first count s = .next t ∧ s.Ends h (queueReply .ok 0xFFFF,
      (queuesFrom first count).foldl (fun (k : Hw) i => k.disableOne h.die i) (s.atWork h)) t := by
    refine State.command_ends hA ((if_neg (queueRange_passes hr)).trans (queueState_passes _ fun i hlo hhi => ?_))
    obtain ⟨hon, hidle⟩ := hok i hlo hhi
    rw [Hw.execDie_queueCtrl, State.atWork_q, State.atWork_agentActive, hon, hidle]
    rfl
  refine ⟨t, hn, E.reply, fun i hlo hhi => ?_⟩
  rw [E.hw.read A.q_enabled (by decide)]
  exact foldl_settles (f := fun (k : Hw) i => k.disableOne h.die i) (Pre := fun _ _ => True)
    (Post := fun i k => k.rd h.die A.q_enabled i = 0) (fun _ _ _ => Hw.rd_wr_self ..) (fun _ _ _ _ _ => trivial)
    (fun _ _ k hij hk => (k.rd_disableOne_other h.die hij).trans hk) (nodup_queuesFrom ..) (fun _ _ => trivial) i
    (mem_queuesFrom.2 ⟨hlo, hhi⟩)

/-- A queue flushed: its read pointer stands at the committed one (R98). -/
def Hw.qFlush (k : Hw) (d i : Nat) : Hw := (k.onQ d i fun q => { q with rd := q.cmt }).qWatermark d i

theorem Hw.rd_qFlush (k : Hw) (hd : d < k.dies.length) (hi : i < (k.die d).queues.length) :
    ((k.qFlush d i).q d i).rd = (k.q d i).cmt :=
  (Hw.q_qWatermark_field _ d i (·.rd) (fun _ _ => rfl) d i).trans (by rw [k.q_onQ_self _ hd hi])

theorem Hw.qFlush_other (k : Hw) (d : Nat) (hij : i ≠ j) :
    ((k.qFlush d j).q d i).rd = (k.q d i).rd ∧ ((k.qFlush d j).q d i).cmt = (k.q d i).cmt :=
  ⟨(Hw.q_qWatermark_field _ d j (·.rd) (fun _ _ => rfl) d i).trans (by rw [k.q_onQ_ne d d _ hij]),
    (Hw.q_qWatermark_field _ d j (·.cmt) (fun _ _ => rfl) d i).trans (by rw [k.q_onQ_ne d d _ hij])⟩

theorem Hw.qFlush_lengths (k : Hw) (d j : Nat) : (k.qFlush d j).dies.length = k.dies.length ∧
    ((k.qFlush d j).die d).queues.length = (k.die d).queues.length :=
  ⟨(Hw.qWatermark_only ..).len.trans (Hw.onQ_only ..).len, by rw [Hw.qFlush, Hw.queues_length_qWatermark, Hw.queues_length_onQ]⟩

theorem execQueueFlush_flushes (hA : s.Admits h 0x0102 (opObj 0x0102 first)) (hr : queueRange first count = true)
    (h64 : (s.hw.die h.die).queues.length = 64)
    (hok : ∀ i, first ≤ i → i < first + count → i ≠ 63 ∧ (s.hw.q h.die i).enabled = true) :
    ∃ t, execQueueFlush h first count s = .next t ∧ s.SameMem t ∧ t.replyOf h = some (queueReply .ok 0xFFFF) ∧
      ∀ i, first ≤ i → i < first + count → (t.hw.q h.die i).rd = (s.hw.q h.die i).cmt := by
  obtain ⟨t, hn, E⟩ : ∃ t, execQueueFlush h first count s = .next t ∧ s.Ends h (queueReply .ok 0xFFFF,
      (queuesFrom first count).foldl (fun (k : Hw) i => k.qFlush h.die i) (s.atWork h)) t := by
    refine State.command_ends hA ((if_neg (queueRange_passes hr)).trans (queueState_passes _ fun i hlo hhi => ?_))
    obtain ⟨h63, hon⟩ := hok i hlo hhi
    rw [Hw.execDie_queueCtrl, State.atWork_q, hon]
    simp [h63]
  refine ⟨t, hn, (execQueueFlush_within _ _ _ _ hn).sameMem, E.reply, fun i hlo hhi => ?_⟩
  rw [E.hw.q (by decide)]
  refine foldl_settles (f := fun (k : Hw) i => k.qFlush h.die i)
    (Pre := fun i k => h.die < k.dies.length ∧ i < (k.die h.die).queues.length ∧ (k.q h.die i).cmt = (s.hw.q h.die i).cmt)
    (Post := fun i k => (k.q h.die i).rd = (s.hw.q h.die i).cmt) ?does ?leaves
    (fun i j k hij hk => (k.qFlush_other h.die hij).1.trans hk) (nodup_queuesFrom ..) ?start i (mem_queuesFrom.2 ⟨hlo, hhi⟩)
  case does =>
    rintro i k ⟨hd, hi, hcmt⟩
    exact (k.rd_qFlush hd hi).trans hcmt
  case leaves =>
    rintro i j k hij ⟨hd, hi, hcmt⟩
    obtain ⟨hdies, hqueues⟩ := k.qFlush_lengths h.die j
    exact ⟨hdies ▸ hd, hqueues ▸ hi, (k.qFlush_other h.die hij).2.trans hcmt⟩
  case start =>
    intro i hi
    have hlt : i < 64 := by
      have hin := mem_queuesFrom.1 hi
      simp only [queueRange, Bool.and_eq_true, decide_eq_true_eq] at hr
      omega
    exact ⟨(s.atWork_only h).len.symm ▸ hA.1, by rwa [State.atWork_queues, h64], by rw [State.atWork_q]⟩

/-! ### QUEUE_STATUS (R103) -/

theorem execQueueStatus_reads (hA : s.Admits h 0x0103 (opObj 0x0103 q)) (hq : q < 64) :
    ∃ t, execQueueStatus h q s = .next t ∧ s.SameMem t ∧ t.replyOf h = some (.words ([(s.hw.q h.die q).cmt * 2 ^ 16 +
      (s.hw.q h.die q).wr, (s.hw.q h.die q).depth * 2 ^ 16 + (s.hw.q h.die q).rd,
      (if (s.hw.q h.die q).cached then (s.hw.q h.die q).size else 0) * 2 ^ 16 + (s.hw.q h.die q).sticky * 2 ^ 8 +
        (s.hw.q h.die q).stateBits, 0] ++ words64 (s.hw.q h.die q).last)) := by
  obtain ⟨t, hn, E⟩ : ∃ t, execQueueStatus h q s = .next t ∧ s.Ends h _ t := State.command_ends hA (if_neg (Nat.not_le.2 hq))
  refine ⟨t, hn, (execQueueStatus_within _ _ _ hn).sameMem, E.reply.trans ?_⟩
  rw [show s.hw.execDie h 0x0103 (opObj 0x0103 q) = h.die from rfl, State.atWork_q]

/-- Settles O15, by what each row leaves in the pointers, the pool and the table. -/
theorem queueRowsComplete : Obligations.QueueRowsComplete := by
  unfold Obligations.QueueRowsComplete
  refine ⟨fun _ _ _ _ _ hd hq hi he hp hv hroom hchain => execQpWrWrite_moves hd hq hi he hp hv hroom hchain,
    fun _ _ _ _ _ hd hq hi he hc hv hdepth => execQpRdWrite_moves hd hq hi he hc hv hdepth, ?retry, ?writeback,
    fun _ _ _ _ hA hr hok => execQueueInvalidate_drops hA hr hok, fun _ _ _ _ _ hA hr hok => execQueueEnable_enables hA hr hok,
    fun _ _ _ _ hA hr hok => execQueueDisable_disables hA hr hok,
    fun _ _ _ _ hA hr h64 hok => execQueueFlush_flushes hA hr h64 hok, fun _ _ _ hA hq => execQueueStatus_reads hA hq⟩
  case retry =>
    intro s die q w hd hq hi he hheld hkept hwait hfull hover
    obtain ⟨t, hn, hempty, hmems⟩ := execStallPushRetry_enters hd hq hi he hheld hkept hwait hfull hover
    exact ⟨t, hn, hempty, fun e x => by rw [hmems]⟩
  case writeback =>
    intro s die q hd hq
    obtain ⟨t, hn, hmems⟩ := execQueueWriteback_stores hd hq
    refine ⟨t, hn, fun e x => ?_⟩
    rw [hmems]
    split
    · rfl
    · rfl

end Sys2Proof.Machine
end

section
/-!
PROOFS. The life of a command (R49 to R54, R57 to R59, R423, R572): what a ring, a completion, a timeout and a datagram leave in the
mailbox record of the die.
-/
-- One proof after the other: the text is checked as one, and proofs side by side pass the check's memory.
set_option Elab.async false
namespace Sys2Proof.Machine
variable {C : List Nat} {F : List DieRec} {G : List HwRec} {h h' k : Hw} {s : State} {d die ep slot tag eth ip port : Nat}
  {data : List Byte}

/-! ### The mailbox record of a die -/

theorem Hw.Only.mbx (K : Hw.Only C F G h h') (hF : .mbx ∉ F) (d : Nat) : (h'.die d).mbx = (h.die d).mbx := K.die d .mbx hF

theorem Hw.mbx_onMbx_self (k : Hw) (f : Mbx → Mbx) (hd : d < k.dies.length) : ((k.onMbx d f).die d).mbx = f (k.die d).mbx :=
  congrArg Die.mbx (k.die_onDie_self _ hd)

theorem Hw.mbx_slotPut_self (k : Hw) (i off : Nat) (bs : List Byte) (hd : d < k.dies.length) : ((k.slotPut d i off bs).die d).mbx =
    { (k.die d).mbx with slots := (k.die d).mbx.slots.modify i fun b => b.take off ++ bs.take (256 - off) ++ b.drop (off + bs.length) } :=
  k.mbx_onMbx_self _ hd

theorem Hw.mbx_addWork_self (k : Hw) (w : Work) (hd : d < k.dies.length) :
    ((k.addWork d w).die d).mbx = { (k.die d).mbx with work := (k.die d).mbx.work ++ [w] } :=
  congrArg Die.mbx (k.die_onDie_self _ hd)

/-- The end of a command in progress leaves the slots and their bits. -/
theorem Hw.dropWork_field {β : Type} (k : Hw) (o : Origin) (tag : Nat) (g : Mbx → β) (hg : ∀ M w, g { M with work := w } = g M)
    (e : Nat) : g ((k.dropWork o tag).die e).mbx = g (k.die e).mbx := by
  simp only [Hw.die, Hw.dropWork, List.getD_eq_getElem?_getD, List.getElem?_map]
  cases k.dies[e]? with
  | none => rfl
  | some D => exact hg ..

/-! ### A frame starts (R49, R58) -/

/-- The mailbox record `M'` is `M` with the command of a frame added. -/
def Mbx.Started (M M' : Mbx) (o : Origin) (b : List Byte) (clk : Nat) : Prop :=
  ∃ w : Work, M' = { M with work := M.work ++ [w] } ∧ w.origin = o ∧ w.frame = b ∧ w.since = clk

/-- A frame that starts adds its command, whether it is refused, forwarded or carried out in its turn. -/
theorem Hw.startFrame_started (k : Hw) (o : Origin) (b : List Byte) (hd : d < k.dies.length) :
    (k.die d).mbx.Started ((k.startFrame d o b).die d).mbx o b k.clk := by
  have hseen : ((k.seeSource d (srcOf o)).die d).mbx = (k.die d).mbx := (k.seeSource_only d _).mbx (by decide) d
  have hdseen : d < (k.seeSource d (srcOf o)).dies.length := (k.seeSource_only d _).len.symm ▸ hd
  have hadded (w : Work) : (((k.seeSource d (srcOf o)).addWork d w).die d).mbx =
      { (k.die d).mbx with work := (k.die d).mbx.work ++ [w] } := by
    rw [Hw.mbx_addWork_self _ _ hdseen, hseen]
  unfold Hw.startFrame
  extract_lets w seen
  split
  next => exact ⟨w, k.mbx_addWork_self w hd, rfl, rfl, rfl⟩
  next =>
    split
    next => exact ⟨w, ((Hw.putReply_only ..).mbx (by decide) d).trans (k.mbx_addWork_self w hd), rfl, rfl, rfl⟩
    next =>
      split
      next => exact ⟨w, ((Hw.refuseFrame_only ..).mbx (by decide) d).trans (hadded w), rfl, rfl, rfl⟩
      next => exact ⟨_, ((Hw.linkSend_only ..).mbx (by decide) d).trans (hadded _), rfl, rfl, rfl⟩
      next => exact ⟨_, hadded _, rfl, rfl, rfl⟩

/-! ### Rings (R41, R49) -/

/-- A slot that is rung is busy; the other slots keep their bits. -/
theorem Hw.busy_ringSlot (k : Hw) (ep i : Nat) (hd : d < k.dies.length) :
    ((k.ringSlot d ep i).die d).mbx.busy = (k.die d).mbx.busy ||| 2 ^ i := by
  unfold Hw.ringSlot
  split
  next hbusy =>
    have hkept : ((k.busyHit d i).die d).mbx.busy = (k.die d).mbx.busy := by
      unfold Hw.busyHit
      rw [(Hw.event_only ..).mbx (by decide), k.mbx_onMbx_self _ hd]
    rw [hkept]
    refine Nat.eq_of_testBit_eq fun n => ?_
    by_cases hn : i = n
    · subst hn
      simpa using (show (k.die d).mbx.busy.testBit i = true from hbusy)
    · simp [Nat.testBit_or, Nat.testBit_two_pow_of_ne hn]
  next =>
    extract_lets rung
    have hrung : d < (k.onMbx d fun M => { M with busy := M.busy ||| 2 ^ i }).dies.length := (k.onMbx_only d _).len.symm ▸ hd
    obtain ⟨w, hstart, -⟩ := rung.startFrame_started (.slot d ep i) (rung.slot d i) ((Hw.slotPut_only ..).len.symm ▸ hrung)
    rw [hstart]
    exact (congrArg Mbx.busy (Hw.mbx_slotPut_self _ i 15 [0xFF] hrung)).trans (congrArg Mbx.busy (k.mbx_onMbx_self _ hd))

/-- Of several slots rung in turn, those are busy and the others keep their bits. -/
theorem Hw.testBit_busy_ringSlots (k : Hw) (ep i : Nat) (l : List Nat) (hd : d < k.dies.length) :
    ((l.foldl (fun k i => k.ringSlot d ep i) k).die d).mbx.busy.testBit i =
      ((k.die d).mbx.busy.testBit i || l.contains i) := by
  induction l generalizing k with
  | nil => simp
  | cons j l ih =>
    rw [List.foldl_cons, ih (k.ringSlot d ep j) ((k.ringSlot_only d ep j).len.symm ▸ hd), k.busy_ringSlot ep j hd, Nat.testBit_or, Nat.testBit_two_pow,
      List.contains_cons, Bool.or_assoc]
    by_cases hij : i = j
    · simp [hij]
    · simp [beq_false_of_ne hij, Ne.symm hij]

theorem execMbxRing_rings {mask : Nat} (hd : die < s.hw.dies.length) (hep : ep < 2) :
    ∃ t, execMbxRing die ep mask s = .next t ∧ s.SameMem t ∧ ∀ slot < 16,
      (t.hw.die die).mbx.busy.testBit slot = ((s.hw.die die).mbx.busy.testBit slot || mask.testBit slot) := by
  have hn : execMbxRing die ep mask s = .next (s.run fun _ _ => s.begun.rings die ep mask) := State.onUnit_works hd hep rfl
  refine ⟨_, hn, (execMbxRing_within _ _ _ _ hn).sameMem, fun slot hslot => ?_⟩
  rw [State.run_die, Hw.rings, s.begun.testBit_busy_ringSlots ep slot _ hd]
  simp [hslot]

/-! ### Completion in a slot (R49 to R52, R54, R572) -/

/-- The mailbox record `M'` is `M` with slot `i` completed by reply frame `b`, but for the commands in progress. -/
structure Mbx.Completed (M M' : Mbx) (i : Nat) (b : List Byte) : Prop where
  busy : M'.busy = M.busy &&& (0xFFFF - 2 ^ i)
  done : M'.done = M.done ||| 2 ^ i
  slots : M'.slots = M.slots.modify i fun x => b.take 256 ++ x.drop b.length

theorem Hw.slotDone_completed (k : Hw) (ep i : Nat) (w : Work) (r : Reply) (hd : d < k.dies.length) :
    (k.die d).mbx.Completed ((k.slotDone d ep i w r).die d).mbx i (replyFrame w.frame r) := by
  unfold Hw.slotDone
  extract_lets put marked told
  have hput : d < put.dies.length := (k.slotPut_only d i 0 _).len.symm ▸ hd
  have hmarked : (k.die d).mbx.Completed (marked.die d).mbx i (replyFrame w.frame r) := by
    have hbits : (marked.die d).mbx = { (put.die d).mbx with
        busy := (put.die d).mbx.busy &&& (0xFFFF - 2 ^ i), done := (put.die d).mbx.done ||| 2 ^ i } := put.mbx_onMbx_self _ hput
    rw [hbits, show (put.die d).mbx = _ from k.mbx_slotPut_self i 0 _ hd]
    exact ⟨rfl, rfl, by simp⟩
  have htold : (told.die d).mbx = (marked.die d).mbx := by
    unfold told
    split
    · exact (Hw.msix_only ..).mbx (by decide) d
    · rfl
  split
  · rw [(Hw.qPush_only ..).mbx (by decide), htold]
    exact hmarked
  · rwa [htold]

/-- A completion delivered to a slot of its die. -/
theorem Hw.deliver_completed (k : Hw) {w : Work} (r : Reply) (hw : w.origin = .slot d ep slot) (hd : d < k.dies.length) :
    (k.die d).mbx.Completed ((k.deliver w r).die d).mbx slot (replyFrame w.frame r) := by
  have hfield {β : Type} (g : Mbx → β) (hg : ∀ M w, g { M with work := w } = g M) := k.dropWork_field w.origin w.tag g hg d
  have hdone := (k.dropWork w.origin w.tag).slotDone_completed ep slot w r ((k.dropWork_only ..).len.symm ▸ hd)
  have hdeliver : k.deliver w r = (k.dropWork w.origin w.tag).slotDone d ep slot w r := by
    obtain ⟨o, _, _, _, _, _, _⟩ := w
    obtain rfl : o = .slot d ep slot := hw
    rfl
  rw [hdeliver]
  exact ⟨hdone.busy.trans (by rw [hfield (·.busy) fun _ _ => rfl]), hdone.done.trans (by rw [hfield (·.done) fun _ _ => rfl]),
    hdone.slots.trans (by rw [hfield (·.slots) fun _ _ => rfl])⟩

/-- A command whose reply stands is delivered; no package reset is due. -/
theorem Hw.complete_delivers {o : Origin} {w : Work} {r : Reply} (hr : k.reply? o tag = some r) (hw : k.work? o tag = some w)
    (hdue : k.resetDue = none) : k.complete o tag = k.deliver w r := by
  have hno : ¬(k.deliver w r).resetDue = some (o, tag) := by
    rw [(k.deliver_only w r).hw .resetDue (by decide), hdue]
    exact nofun
  unfold Hw.complete
  simp only [hr, hw]
  exact if_neg hno

theorem State.more_die (s : State) (f : List (List Host.Cell) → Hw → Hw) (d : Nat) : (s.more f).hw.die d = (f s.mems s.begun).die d := rfl

theorem State.begun_run_id (s : State) : (s.run fun _ h => h).begun = s.begun := rfl

theorem execCommandComplete_completes {w : Work} {r : Reply} (hd : d < s.hw.dies.length)
    (hw : s.hw.work? (.slot d ep slot) tag = some w) (hcmd : w.cmd = none) (horigin : w.origin = .slot d ep slot)
    (hr : s.hw.reply? (.slot d ep slot) tag = some r) (hdue : s.hw.resetDue = none) :
    ∃ t, execCommandComplete (.slot d ep slot) tag s = .next t ∧
      (s.hw.die d).mbx.Completed (t.hw.die d).mbx slot (replyFrame w.frame r) := by
  have hn : execCommandComplete (.slot d ep slot) tag s =
      .next ((s.run fun _ h => h).more fun _ h => h.complete (.slot d ep slot) tag) := by
    have hnone : ((s.run fun _ h => h).hw.work? (.slot d ep slot) tag).bind (·.cmd) = none := by
      rw [show (s.run fun _ h => h).hw.work? (.slot d ep slot) tag = some w from hw]
      exact hcmd
    unfold execCommandComplete
    extract_lets s0 s1
    have hs1 : s1 = s0 := by
      unfold s1
      rw [hnone]
    rw [hs1]
  refine ⟨_, hn, ?_⟩
  have hcomplete : s.begun.complete (.slot d ep slot) tag = s.begun.deliver w r := Hw.complete_delivers hr hw hdue
  rw [State.more_die, State.begun_run_id, hcomplete]
  exact s.begun.deliver_completed r horigin hd

/-! ### Timeout (R53) -/

theorem mbx_timeouts_width : (attrRow? A.mbx_timeouts.cls 0 A.mbx_timeouts.id).map (·.width) = some 32 := by decide

/-- A timeout counted and recorded (R53, R78), before the completion. -/
def Hw.timedOut (k : Hw) (o : Origin) (tag : Nat) (w : Work) : Hw :=
  let k := k.add (originDie o) A.mbx_timeouts 0
  let k := k.event (originDie o) Ev.mbxTimeout (leBytes 1 (slotCode o) ++ leBytes 2 tag ++ leBytes 2 w.op)
  if opCfg w.op then k.configChange (originDie o) w.op (frameObj w.frame) .timeout (srcOf o) else k

theorem Hw.timedOut_only (k : Hw) (o : Origin) (tag : Nat) (w : Work) :
    Hw.Only [0x1f, A.cfg_changes.code] [.front, .buckets, .folded] [] (k.add (originDie o) A.mbx_timeouts 0) (k.timedOut o tag w) :=
  ((Hw.event_only ..).mono (by decide)).step_if (Hw.configChange_only ..) (by decide)

/-- The timer of a command in a slot whose reply does not stand. -/
theorem execCommandTimeout_next {w : Work} (hw : s.hw.work? (.slot d ep slot) tag = some w)
    (hr : s.hw.reply? (.slot d ep slot) tag = none) : execCommandTimeout (.slot d ep slot) tag s =
      .next (s.run fun _ _ => (s.begun.timedOut (.slot d ep slot) tag w).deliver w (.err .timeout)) := by
  refine State.onPkg_works ?_
  dsimp only
  rw [show s.begun.work? (.slot d ep slot) tag = some w from hw, show s.begun.reply? (.slot d ep slot) tag = none from hr]
  rfl

/-- The timer of a command in a slot counts the timeout (assumption log 6 for the count's wrap) and completes the slot. -/
theorem execCommandTimeout_completes {w : Work} (hd : d < s.hw.dies.length) (hw : s.hw.work? (.slot d ep slot) tag = some w)
    (horigin : w.origin = .slot d ep slot) (hr : s.hw.reply? (.slot d ep slot) tag = none) :
    ∃ t, execCommandTimeout (.slot d ep slot) tag s = .next t ∧
      t.hw.rd d A.mbx_timeouts 0 = (s.hw.rd d A.mbx_timeouts 0 + 1) % 2 ^ 32 ∧
      (s.hw.die d).mbx.Completed (t.hw.die d).mbx slot (replyFrame w.frame (.err .timeout)) := by
  have K := s.begun.timedOut_only (.slot d ep slot) tag w
  refine ⟨_, execCommandTimeout_next hw hr, ?count, ?completed⟩
  case count =>
    rw [State.run_rd, (Hw.deliver_only _ w _).read A.mbx_timeouts (by decide), K.read A.mbx_timeouts (by decide)]
    exact s.begun.rd_add_wrap32 d mbx_timeouts_width
  case completed =>
    have hmbx : ((s.begun.timedOut (.slot d ep slot) tag w).die d).mbx = (s.hw.die d).mbx := K.mbx (by decide) d
    exact hmbx ▸ Hw.deliver_completed _ (.err .timeout) horigin (K.len.symm ▸ hd)

/-! ### Datagrams (R57 to R59, R423) -/

theorem rmbx_bad_width : (attrRow? A.rmbx_bad.cls 0 A.rmbx_bad.id).map (·.width) = some 32 := by decide
theorem eth_drops_width : ∀ p < 2, (attrRow? A.eth_drops.cls p A.eth_drops.id).map (·.width) = some 32 := by decide

/-- A datagram that repeats neither a kept request nor one in progress starts a command when there is room for one. -/
theorem Hw.remoteDatagram_starts (hen : bit (k.rd die A.rmbx_port_en 0) eth = true) (h16 : 16 ≤ data.length)
    (hlen : data.length = 16 + frLen data) (hkept : ∀ x ∈ (k.die die).mbx.kept, x.request ≠ data)
    (hnew : ∀ w ∈ k.remoteWork die, w.frame ≠ data) (hroom : (k.remoteWork die).length < 32) :
    k.remoteDatagram die eth ip port data = k.startFrame die (.remote die eth ip port) data := by
  have hnone : ((k.die die).mbx.kept.find? fun x => decide (x.src = srcOf (.remote die eth ip port)) && x.request == data &&
      decide (k.clk ≤ x.at_ + 10 ^ 6 * k.rd die A.rmbx_dup_window 0)) = none :=
    List.find?_eq_none.2 fun x hx => by simp [hkept x hx]
  have hany : ¬((k.remoteWork die).any fun w => decide (w.origin = .remote die eth ip port) && w.frame == data) = true := by
    rw [List.any_eq_true]
    rintro ⟨w, hw, hsame⟩
    simp [hnew w hw] at hsame
  unfold Hw.remoteDatagram
  extract_lets o window
  rw [if_neg (by simp [hen]), if_neg (by omega), hnone]
  exact (if_neg hany).trans (if_neg (Nat.not_le.2 hroom))

/-- A malformed datagram is counted (assumption log 6 for the count's wrap). -/
theorem Hw.rmbx_bad_remoteDatagram (k : Hw) (hen : bit (k.rd die A.rmbx_port_en 0) eth = true)
    (hbad : data.length < 16 ∨ data.length ≠ 16 + frLen data) :
    (k.remoteDatagram die eth ip port data).rd die A.rmbx_bad 0 = (k.rd die A.rmbx_bad 0 + 1) % 2 ^ 32 := by
  unfold Hw.remoteDatagram
  extract_lets o window seen
  rw [if_neg (by simp [hen]), if_pos hbad, Hw.rd_event _ _ _ _ _ _ (by decide), Hw.rd_add_wrap32 _ _ rmbx_bad_width,
    (k.seeSource_only die _).read A.rmbx_bad (by decide)]

theorem execRemoteMailboxDatagram_next (hd : die < s.hw.dies.length) (heth : eth < 2) (hup : s.hw.ethUp die eth = true) :
    execRemoteMailboxDatagram die eth ip port data s = .next (s.run fun _ _ => s.begun.remoteDatagram die eth ip port data) :=
  State.onUnit_works hd heth (if_pos hup)

/-- A datagram on UDP port 50420 is one of the remote mailbox (R423). -/
theorem execEthDatagram_remote (hd : die < s.hw.dies.length) (heth : eth < 2) (hup : s.hw.ethUp die eth = true) :
    execEthDatagram die eth ip port 50420 data s = .next (s.run fun _ _ => s.begun.remoteDatagram die eth ip port data) :=
  State.onUnit_works hd heth ((if_neg (by rw [show s.begun.ethUp die eth = true from hup]; decide)).trans (if_pos rfl))

/-- What a step on a datagram that starts a command leaves in the mailbox. -/
theorem State.run_remoteDatagram_started (hd : die < s.hw.dies.length) (hen : bit (s.hw.rd die A.rmbx_port_en 0) eth = true)
    (h16 : 16 ≤ data.length) (hlen : data.length = 16 + frLen data) (hkept : ∀ x ∈ (s.hw.die die).mbx.kept, x.request ≠ data)
    (hnew : ∀ w ∈ s.hw.remoteWork die, w.frame ≠ data) (hroom : (s.hw.remoteWork die).length < 32) :
    ∃ w ∈ ((s.run fun _ _ => s.begun.remoteDatagram die eth ip port data).hw.die die).mbx.work,
      w.origin = .remote die eth ip port ∧ w.frame = data ∧ w.since = s.hw.clk := by
  obtain ⟨w, hmbx, horigin, hframe, hsince⟩ := s.begun.startFrame_started (.remote die eth ip port) data hd
  refine ⟨w, ?_, horigin, hframe, hsince⟩
  rw [State.run_die, Hw.remoteDatagram_starts (k := s.begun) hen h16 hlen hkept hnew hroom, hmbx]
  exact List.mem_append_right _ (List.mem_singleton_self w)

/-- A datagram on a port that nothing takes is dropped and counted (assumption log 6 for the count's wrap). -/
theorem execEthDatagram_drops {src dst : Nat} (hd : die < s.hw.dies.length) (hport : port < 2) (hup : s.hw.ethUp die port = true)
    (hrmbx : dst ≠ 50420) (hgrt : dst ≠ s.hw.rd die A.grt_udp_port 0) (htun : dst ≠ s.hw.rd 0 A.tun_udp_port 0) (h319 : dst ≠ 319)
    (h320 : dst ≠ 320) :
    ∃ t, execEthDatagram die port ip src dst data s = .next t ∧
      t.hw.rd die A.eth_drops port = (s.hw.rd die A.eth_drops port + 1) % 2 ^ 32 := by
  have hn : execEthDatagram die port ip src dst data s = .next (s.run fun _ _ => s.begun.add die A.eth_drops port) :=
    State.onUnit_works hd hport ((if_neg (by rw [show s.begun.ethUp die port = true from hup]; decide)).trans
      ((if_neg hrmbx).trans ((if_neg hgrt).trans ((if_neg htun).trans (if_neg (not_or.2 ⟨h319, h320⟩))))))
  exact ⟨_, hn, Hw.rd_add_wrap32 _ _ (eth_drops_width port hport)⟩

/-- Settles O12, by what each row leaves in the mailbox and its counts. -/
theorem commandLifeCompletes : Obligations.CommandLifeCompletes := by
  unfold Obligations.CommandLifeCompletes
  refine ⟨fun _ _ _ _ hd hep => execMbxRing_rings hd hep, ?completion, ?timeout, ?datagram,
    fun _ _ _ _ _ _ _ hd hport hup hrmbx hgrt htun h319 h320 => execEthDatagram_drops hd hport hup hrmbx hgrt htun h319 h320⟩
  case completion =>
    intro s d ep slot tag w r hd hw hcmd horigin _ hr hdue
    obtain ⟨t, hn, hdone⟩ := execCommandComplete_completes hd hw hcmd horigin hr hdue
    refine ⟨t, hn, hdone.busy, hdone.done, fun hslot => ?_⟩
    simp [hdone.slots, List.getD_eq_getElem?_getD, hslot]
  case timeout =>
    intro s d ep slot tag w hd hw horigin hr
    obtain ⟨t, hn, hcount, hdone⟩ := execCommandTimeout_completes hd hw horigin hr
    exact ⟨t, hn, hcount, hdone.busy, hdone.done⟩
  case datagram =>
    intro s die eth ip port data hd heth hup hen
    have hn := execRemoteMailboxDatagram_next (ip := ip) (port := port) (data := data) hd heth hup
    have hmem := (execRemoteMailboxDatagram_within _ _ _ _ _ _ hn).sameMem
    refine ⟨fun h16 hlen hkept hnew hroom => ?_, fun hbad => ⟨_, hn, hmem, s.begun.rmbx_bad_remoteDatagram hen hbad⟩⟩
    have hwork := State.run_remoteDatagram_started (ip := ip) (port := port) hd hen h16 hlen hkept hnew hroom
    exact ⟨⟨_, hn, hmem, hwork⟩, _, execEthDatagram_remote hd heth hup, hwork⟩

end Sys2Proof.Machine
end
